-- ==== Sys2Proof/Word.lean ====
section
/-!
DEFINITION. The word types of the block and their plainest arithmetic: bytes, 32-bit words, tagged words of 36 bits
(spec/05_bits_and_tagged_words.md, R133), and the byte order of multi-byte fields.
-/

namespace Sys2Proof

/-- One byte of a frame, a packet or the NOR. -/
abbrev Byte := BitVec 8

/-- One 32-bit word: a register, a move word, the payload of a tagged word. -/
abbrev Word := BitVec 32

/-- A tagged word of the word space: a 4-bit tag in bits 35 to 32 and a 32-bit payload (R133). -/
structure TWord where
  tag : BitVec 4
  val : Word
  deriving DecidableEq, Repr, Inhabited

/-- The tagged word that every word of the word space holds when nothing has written it: EMPTY, payload 0 (R137). -/
def TWord.empty : TWord := ⟨0, 0⟩

/-- A number read from bytes, most significant byte first. -/
def beNat : List Byte → Nat := List.foldl (fun n b => n * 256 + b.toNat) 0

/-- The `n` bytes of a number, most significant byte first. -/
def beBytes : Nat → Nat → List Byte
  | 0, _ => []
  | n + 1, v => BitVec.ofNat 8 (v / 256 ^ n) :: beBytes n v

/-- A field of `w` bits of a number, from bit `lo` up. -/
def bitsOf (v lo w : Nat) : Nat := v / 2 ^ lo % 2 ^ w

/-- A bit of a number. -/
def bitOf (v i : Nat) : Bool := v / 2 ^ i % 2 == 1

/-- A Bool as a bit. -/
def b2n (b : Bool) : Nat := if b then 1 else 0

/-- The value of a two's complement number of `w` bits. -/
def signedOf (w v : Nat) : Int := if v % 2 ^ w < 2 ^ (w - 1) then (v % 2 ^ w : Nat) else (v % 2 ^ w : Nat) - (2 ^ w : Nat)

/-- The two's complement number of `w` bits of an integer, wrapping. -/
def unsignedOf (w : Nat) (x : Int) : Nat := (x % (2 ^ w : Nat)).toNat

end Sys2Proof
end

