-- ==== Sys2Proof/Machine/RegMap.lean ====
section
/-!
DEFINITION. The register map (spec/21_register_map.md, Tables 21.4 to 21.15, with the field tables of the owning
chapters): one constant per register field, and the rows by which an address is resolved to its fields.

A field carries its address, its lowest bit, its width, its access code (R3, Table 0.3) and its reset value (R6). The
fields of an array register take the indices of the array. A bit that no field covers is reserved (R7).
-/

namespace Sys2Proof.Machine

/-- The access codes of Table 0.3 (R3). -/
inductive Acc where
  | ro | rw | wo | w1c | rc | rwt
  deriving DecidableEq, Repr

/-- One field of one register: where it stands, how it is accessed, what it holds after a reset (R3, R6). -/
structure Fld where
  /-- byte address of the register -/
  addr : Nat
  /-- lowest bit of the field -/
  lo : Nat
  /-- width in bits -/
  w : Nat
  /-- access code -/
  acc : Acc
  /-- value after a reset through RESET mode -/
  rst : Nat
  deriving DecidableEq, Repr

/-- The key under which a field's value is stored: its address and its lowest bit. -/
def Fld.key (f : Fld) : Nat := f.addr * 32 + f.lo

/-- One row of the map: a register, or an array of registers (counts and strides, outermost first). `addIdx` marks the
one array whose reset value adds the index (CORE_GALn, Table 21.7). -/
structure RegRow where
  name : String
  base : Nat
  dims : List (Nat × Nat)
  addIdx : Bool
  flds : List Fld
  deriving DecidableEq, Repr

namespace Reg

/-- SYS_ID.PART, bits 31 to 16 (00_scope.md). -/
def SYS_ID.PART : Fld := ⟨0x40000000, 16, 16, .ro, 0xE40⟩
/-- SYS_ID.CLASS, bits 15 to 8 (00_scope.md). -/
def SYS_ID.CLASS : Fld := ⟨0x40000000, 8, 8, .ro, 4⟩
/-- SYS_ID.REV, bits 7 to 4 (00_scope.md). -/
def SYS_ID.REV : Fld := ⟨0x40000000, 4, 4, .ro, 0⟩
/-- SYS_ID.STEP, bits 3 to 0 (00_scope.md). -/
def SYS_ID.STEP : Fld := ⟨0x40000000, 0, 4, .ro, 0⟩
/-- SYS_STATION.SYSTEM_ID, bits 31 to 16 (01_station_picture.md). -/
def SYS_STATION.SYSTEM_ID : Fld := ⟨0x40000004, 16, 16, .rwt, 0⟩
/-- SYS_STATION.STN, bits 7 to 0 (01_station_picture.md). -/
def SYS_STATION.STN : Fld := ⟨0x40000004, 0, 8, .ro, 0⟩
/-- SYS_DIRCRC.CRC, bits 31 to 0 (01_station_picture.md). -/
def SYS_DIRCRC.CRC : Fld := ⟨0x40000008, 0, 32, .ro, 0⟩
/-- SYS_FLAGS.DIR_MISMATCH, bits 1 to 1 (01_station_picture.md). -/
def SYS_FLAGS.DIR_MISMATCH : Fld := ⟨0x4000000C, 1, 1, .w1c, 0⟩
/-- SYS_FLAGS.STN_CONFLICT, bits 0 to 0 (01_station_picture.md). -/
def SYS_FLAGS.STN_CONFLICT : Fld := ⟨0x4000000C, 0, 1, .ro, 0⟩
/-- SYS_MODE.HALT_CAUSE, bits 31 to 24 (03_modes.md). -/
def SYS_MODE.HALT_CAUSE : Fld := ⟨0x40000010, 24, 8, .ro, 0⟩
/-- SYS_MODE.NO_IMAGE, bits 18 to 18 (03_modes.md). -/
def SYS_MODE.NO_IMAGE : Fld := ⟨0x40000010, 18, 1, .ro, 0⟩
/-- SYS_MODE.STOP_FORCED, bits 17 to 17 (03_modes.md). -/
def SYS_MODE.STOP_FORCED : Fld := ⟨0x40000010, 17, 1, .w1c, 0⟩
/-- SYS_MODE.ST_FAIL, bits 16 to 16 (03_modes.md). -/
def SYS_MODE.ST_FAIL : Fld := ⟨0x40000010, 16, 1, .ro, 0⟩
/-- SYS_MODE.PREV, bits 7 to 4 (03_modes.md). -/
def SYS_MODE.PREV : Fld := ⟨0x40000010, 4, 4, .ro, 2⟩
/-- SYS_MODE.MODE, bits 3 to 0 (03_modes.md). -/
def SYS_MODE.MODE : Fld := ⟨0x40000010, 0, 4, .ro, 3⟩
/-- SYS_MODECTL.AUTORUN, bits 31 to 31 (03_modes.md). -/
def SYS_MODECTL.AUTORUN : Fld := ⟨0x40000014, 31, 1, .rw, 0⟩
/-- SYS_MODECTL.STOP_TMO, bits 15 to 8 (03_modes.md). -/
def SYS_MODECTL.STOP_TMO : Fld := ⟨0x40000014, 8, 8, .rw, 0x32⟩
/-- SYS_MODECTL.REQ, bits 3 to 0 (03_modes.md). -/
def SYS_MODECTL.REQ : Fld := ⟨0x40000014, 0, 4, .wo, 0⟩
/-- SYS_HOLDCFG.KEEP, bits 11 to 2 (03_modes.md). -/
def SYS_HOLDCFG.KEEP : Fld := ⟨0x40000018, 2, 10, .rw, 0xC⟩
/-- SYS_WAKE.EN, bits 8 to 0 (03_modes.md). -/
def SYS_WAKE.EN : Fld := ⟨0x4000001C, 0, 9, .rw, 0x13⟩
/-- SYS_WAKESRC.SRC, bits 8 to 0 (03_modes.md). -/
def SYS_WAKESRC.SRC : Fld := ⟨0x40000020, 0, 9, .rc, 0⟩
/-- SYS_STRES.RES, bits 27 to 0 (03_modes.md). -/
def SYS_STRES.RES : Fld := ⟨0x40000024, 0, 28, .ro, 0⟩
/-- SYS_SCRUB.EN, bits 31 to 31 (03_modes.md). -/
def SYS_SCRUB.EN : Fld := ⟨0x40000028, 31, 1, .rw, 1⟩
/-- SYS_SCRUB.CORR_OVF, bits 30 to 30 (03_modes.md). -/
def SYS_SCRUB.CORR_OVF : Fld := ⟨0x40000028, 30, 1, .w1c, 0⟩
/-- SYS_SCRUB.UNCORR_OVF, bits 29 to 29 (03_modes.md). -/
def SYS_SCRUB.UNCORR_OVF : Fld := ⟨0x40000028, 29, 1, .w1c, 0⟩
/-- SYS_SCRUB.PACE, bits 15 to 0 (03_modes.md). -/
def SYS_SCRUB.PACE : Fld := ⟨0x40000028, 0, 16, .rw, 0⟩
/-- SYS_SCRUBCNT.CORR, bits 31 to 16 (03_modes.md). -/
def SYS_SCRUBCNT.CORR : Fld := ⟨0x4000002C, 16, 16, .rc, 0⟩
/-- SYS_SCRUBCNT.UNCORR, bits 15 to 0 (03_modes.md). -/
def SYS_SCRUBCNT.UNCORR : Fld := ⟨0x4000002C, 0, 16, .rc, 0⟩
/-- SYS_SCRUBPASS.US, bits 31 to 0 (03_modes.md). -/
def SYS_SCRUBPASS.US : Fld := ⟨0x40000030, 0, 32, .ro, 0⟩
/-- SYS_WAKETIME.SEC, bits 31 to 0 (03_modes.md). -/
def SYS_WAKETIME.SEC : Fld := ⟨0x40000034, 0, 32, .rw, 0⟩
/-- SYS_ACCERR.FIRST, bits 31 to 24 (21_register_map.md). -/
def SYS_ACCERR.FIRST : Fld := ⟨0x40000040, 24, 8, .ro, 0⟩
/-- SYS_ACCERR.FIRST_DBG, bits 23 to 23 (21_register_map.md). -/
def SYS_ACCERR.FIRST_DBG : Fld := ⟨0x40000040, 23, 1, .ro, 0⟩
/-- SYS_ACCERR.FLAGS, bits 16 to 1 (21_register_map.md). -/
def SYS_ACCERR.FLAGS : Fld := ⟨0x40000040, 1, 16, .w1c, 0⟩
/-- SYS_ACCADDR.ADDR, bits 31 to 0 (21_register_map.md). -/
def SYS_ACCADDR.ADDR : Fld := ⟨0x40000044, 0, 32, .ro, 0⟩
/-- SYS_DIR_CTRL.VALID, bits 31 to 31 (01_station_picture.md). -/
def SYS_DIR_CTRL.VALID (i : Nat) : Fld := ⟨0x40002000 + 0x20 * i, 31, 1, .rwt, 0⟩
/-- SYS_DIR_CTRL.ROLE, bits 30 to 29 (01_station_picture.md). -/
def SYS_DIR_CTRL.ROLE (i : Nat) : Fld := ⟨0x40002000 + 0x20 * i, 29, 2, .rwt, 0⟩
/-- SYS_DIR_CTRL.PARTNER, bits 28 to 21 (01_station_picture.md). -/
def SYS_DIR_CTRL.PARTNER (i : Nat) : Fld := ⟨0x40002000 + 0x20 * i, 21, 8, .rwt, 0⟩
/-- SYS_DIR_CTRL.PORTS, bits 20 to 17 (01_station_picture.md). -/
def SYS_DIR_CTRL.PORTS (i : Nat) : Fld := ⟨0x40002000 + 0x20 * i, 17, 4, .rwt, 0⟩
/-- SYS_DIR_CTRL.REARM_AUTO, bits 16 to 16 (01_station_picture.md). -/
def SYS_DIR_CTRL.REARM_AUTO (i : Nat) : Fld := ⟨0x40002000 + 0x20 * i, 16, 1, .rwt, 0⟩
/-- SYS_DIR_CTRL.SUPV, bits 15 to 8 (01_station_picture.md). -/
def SYS_DIR_CTRL.SUPV (i : Nat) : Fld := ⟨0x40002000 + 0x20 * i, 8, 8, .rwt, 0⟩
/-- TIM_CTRL.QUAL_TIME, bits 31 to 24 (02_two_clocks.md). -/
def TIM_CTRL.QUAL_TIME : Fld := ⟨0x40010000, 24, 8, .rw, 4⟩
/-- TIM_CTRL.SEL_HOLD, bits 23 to 16 (02_two_clocks.md). -/
def TIM_CTRL.SEL_HOLD : Fld := ⟨0x40010000, 16, 8, .rw, 0xA⟩
/-- TIM_CTRL.FORCE_SRC, bits 7 to 4 (02_two_clocks.md). -/
def TIM_CTRL.FORCE_SRC : Fld := ⟨0x40010000, 4, 4, .rw, 0xF⟩
/-- TIM_CTRL.STEP_RUN, bits 2 to 2 (02_two_clocks.md). -/
def TIM_CTRL.STEP_RUN : Fld := ⟨0x40010000, 2, 1, .rw, 0⟩
/-- TIM_CTRL.TC_EN, bits 1 to 1 (02_two_clocks.md). -/
def TIM_CTRL.TC_EN : Fld := ⟨0x40010000, 1, 1, .rw, 1⟩
/-- TIM_CTRL.DISC_EN, bits 0 to 0 (02_two_clocks.md). -/
def TIM_CTRL.DISC_EN : Fld := ⟨0x40010000, 0, 1, .rw, 1⟩
/-- TIM_STAT.SRC_DISAGREE, bits 15 to 15 (02_two_clocks.md). -/
def TIM_STAT.SRC_DISAGREE : Fld := ⟨0x40010004, 15, 1, .w1c, 0⟩
/-- TIM_STAT.STEPPED, bits 14 to 14 (02_two_clocks.md). -/
def TIM_STAT.STEPPED : Fld := ⟨0x40010004, 14, 1, .w1c, 0⟩
/-- TIM_STAT.SLEWING, bits 13 to 13 (02_two_clocks.md). -/
def TIM_STAT.SLEWING : Fld := ⟨0x40010004, 13, 1, .ro, 0⟩
/-- TIM_STAT.LEAP_PENDING, bits 12 to 12 (02_two_clocks.md). -/
def TIM_STAT.LEAP_PENDING : Fld := ⟨0x40010004, 12, 1, .ro, 0⟩
/-- TIM_STAT.HOLDOVER, bits 11 to 11 (02_two_clocks.md). -/
def TIM_STAT.HOLDOVER : Fld := ⟨0x40010004, 11, 1, .ro, 1⟩
/-- TIM_STAT.LOCKED, bits 10 to 10 (02_two_clocks.md). -/
def TIM_STAT.LOCKED : Fld := ⟨0x40010004, 10, 1, .ro, 0⟩
/-- TIM_STAT.CAL_DERIVED, bits 9 to 9 (02_two_clocks.md). -/
def TIM_STAT.CAL_DERIVED : Fld := ⟨0x40010004, 9, 1, .ro, 0⟩
/-- TIM_STAT.TIME_VALID, bits 8 to 8 (02_two_clocks.md). -/
def TIM_STAT.TIME_VALID : Fld := ⟨0x40010004, 8, 1, .ro, 0⟩
/-- TIM_STAT.ACTIVE_SRC, bits 7 to 4 (02_two_clocks.md). -/
def TIM_STAT.ACTIVE_SRC : Fld := ⟨0x40010004, 4, 4, .ro, 0xF⟩
/-- TIM_STAT.TQ, bits 3 to 0 (02_two_clocks.md). -/
def TIM_STAT.TQ : Fld := ⟨0x40010004, 0, 4, .ro, 0xF⟩
/-- TIM_UNC.UNC, bits 31 to 0 (02_two_clocks.md). -/
def TIM_UNC.UNC : Fld := ⟨0x40010008, 0, 32, .ro, 0xFFFFFFFF⟩
/-- TIM_FADJ.FADJ, bits 31 to 0 (02_two_clocks.md). -/
def TIM_FADJ.FADJ : Fld := ⟨0x4001000C, 0, 32, .ro, 0⟩
/-- TIM_NOW_SH.SEC_HI, bits 15 to 0 (02_two_clocks.md). -/
def TIM_NOW_SH.SEC_HI : Fld := ⟨0x40010010, 0, 16, .ro, 0⟩
/-- TIM_NOW_SL.SEC_LO, bits 31 to 0 (02_two_clocks.md). -/
def TIM_NOW_SL.SEC_LO : Fld := ⟨0x40010014, 0, 32, .ro, 0⟩
/-- TIM_NOW_NS.NS, bits 31 to 0 (02_two_clocks.md). -/
def TIM_NOW_NS.NS : Fld := ⟨0x40010018, 0, 32, .ro, 0⟩
/-- TIM_NOW_FR.FRAC, bits 15 to 0 (02_two_clocks.md). -/
def TIM_NOW_FR.FRAC : Fld := ⟨0x4001001C, 0, 16, .ro, 0⟩
/-- TIM_HOLD_RATE.RATE, bits 15 to 0 (02_two_clocks.md). -/
def TIM_HOLD_RATE.RATE : Fld := ⟨0x40010024, 0, 16, .rw, 0x32⟩
/-- TIM_STEP_LIM.LIM, bits 31 to 0 (02_two_clocks.md). -/
def TIM_STEP_LIM.LIM : Fld := ⟨0x40010028, 0, 32, .rw, 0x2710⟩
/-- TIM_DISAGREE.LIM, bits 31 to 0 (02_two_clocks.md). -/
def TIM_DISAGREE.LIM : Fld := ⟨0x4001002C, 0, 32, .rw, 0x3E8⟩
/-- TIM_ASYM.ASYM, bits 15 to 0 (02_two_clocks.md). -/
def TIM_ASYM.ASYM : Fld := ⟨0x40010030, 0, 16, .rw, 0⟩
/-- TIM_UTC.LEAP61, bits 31 to 31 (02_two_clocks.md). -/
def TIM_UTC.LEAP61 : Fld := ⟨0x40010020, 31, 1, .rw, 0⟩
/-- TIM_UTC.LEAP59, bits 30 to 30 (02_two_clocks.md). -/
def TIM_UTC.LEAP59 : Fld := ⟨0x40010020, 30, 1, .rw, 0⟩
/-- TIM_UTC.TAI_UTC, bits 15 to 0 (02_two_clocks.md). -/
def TIM_UTC.TAI_UTC : Fld := ⟨0x40010020, 0, 16, .rw, 0x25⟩
/-- TIM_SRC_CFG.DOMAIN, bits 31 to 24 (02_two_clocks.md). -/
def TIM_SRC_CFG.DOMAIN (i : Nat) : Fld := ⟨0x40010040 + 0x10 * i, 24, 8, .rw, 0⟩
/-- TIM_SRC_CFG.PRIO, bits 18 to 16 (02_two_clocks.md). -/
def TIM_SRC_CFG.PRIO (i : Nat) : Fld := ⟨0x40010040 + 0x10 * i, 16, 3, .rw, 4⟩
/-- TIM_SRC_CFG.SRC_UNC, bits 15 to 8 (02_two_clocks.md). -/
def TIM_SRC_CFG.SRC_UNC (i : Nat) : Fld := ⟨0x40010040 + 0x10 * i, 8, 8, .rw, 0xA⟩
/-- TIM_SRC_CFG.PROFILE, bits 5 to 4 (02_two_clocks.md). -/
def TIM_SRC_CFG.PROFILE (i : Nat) : Fld := ⟨0x40010040 + 0x10 * i, 4, 2, .rw, 0⟩
/-- TIM_SRC_CFG.TRANSPORT, bits 3 to 3 (02_two_clocks.md). -/
def TIM_SRC_CFG.TRANSPORT (i : Nat) : Fld := ⟨0x40010040 + 0x10 * i, 3, 1, .rw, 0⟩
/-- TIM_SRC_CFG.MASTER_OK, bits 2 to 2 (02_two_clocks.md). -/
def TIM_SRC_CFG.MASTER_OK (i : Nat) : Fld := ⟨0x40010040 + 0x10 * i, 2, 1, .rw, 0⟩
/-- TIM_SRC_CFG.EN, bits 0 to 0 (02_two_clocks.md). -/
def TIM_SRC_CFG.EN (i : Nat) : Fld := ⟨0x40010040 + 0x10 * i, 0, 1, .rw, 0⟩
/-- TIM_SRC_STAT.TQ, bits 7 to 4 (02_two_clocks.md). -/
def TIM_SRC_STAT.TQ (i : Nat) : Fld := ⟨0x40010044 + 0x10 * i, 4, 4, .ro, 0xF⟩
/-- TIM_SRC_STAT.SELECTED, bits 3 to 3 (02_two_clocks.md). -/
def TIM_SRC_STAT.SELECTED (i : Nat) : Fld := ⟨0x40010044 + 0x10 * i, 3, 1, .ro, 0⟩
/-- TIM_SRC_STAT.QUALIFIED, bits 2 to 2 (02_two_clocks.md). -/
def TIM_SRC_STAT.QUALIFIED (i : Nat) : Fld := ⟨0x40010044 + 0x10 * i, 2, 1, .ro, 0⟩
/-- TIM_SRC_STAT.VALID, bits 1 to 1 (02_two_clocks.md). -/
def TIM_SRC_STAT.VALID (i : Nat) : Fld := ⟨0x40010044 + 0x10 * i, 1, 1, .ro, 0⟩
/-- TIM_SRC_STAT.SLAVE, bits 0 to 0 (02_two_clocks.md). -/
def TIM_SRC_STAT.SLAVE (i : Nat) : Fld := ⟨0x40010044 + 0x10 * i, 0, 1, .ro, 0⟩
/-- TIM_SRC_OFFSET.OFFSET, bits 31 to 0 (02_two_clocks.md). -/
def TIM_SRC_OFFSET.OFFSET (i : Nat) : Fld := ⟨0x40010048 + 0x10 * i, 0, 32, .ro, 0⟩
/-- TIM_SRC_DELAY.DELAY, bits 31 to 0 (02_two_clocks.md). -/
def TIM_SRC_DELAY.DELAY (i : Nat) : Fld := ⟨0x4001004C + 0x10 * i, 0, 32, .ro, 0⟩
/-- TIM_PORTLAT.EGR_LAT, bits 31 to 16 (02_two_clocks.md). -/
def TIM_PORTLAT.EGR_LAT (i : Nat) : Fld := ⟨0x400100C0 + 0x4 * i, 16, 16, .rw, 0⟩
/-- TIM_PORTLAT.ING_LAT, bits 15 to 0 (02_two_clocks.md). -/
def TIM_PORTLAT.ING_LAT (i : Nat) : Fld := ⟨0x400100C0 + 0x4 * i, 0, 16, .rw, 0⟩
/-- PLB_CTRL.SLEW, bits 23 to 16 (02_two_clocks.md). -/
def PLB_CTRL.SLEW : Fld := ⟨0x40020000, 16, 8, .rwt, 0x64⟩
/-- PLB_CTRL.FIXED_RANGE, bits 7 to 6 (02_two_clocks.md). -/
def PLB_CTRL.FIXED_RANGE : Fld := ⟨0x40020000, 6, 2, .rwt, 0⟩
/-- PLB_CTRL.AUTORANGE, bits 5 to 5 (02_two_clocks.md). -/
def PLB_CTRL.AUTORANGE : Fld := ⟨0x40020000, 5, 1, .rwt, 1⟩
/-- PLB_CTRL.SRC_MODE, bits 3 to 2 (02_two_clocks.md). -/
def PLB_CTRL.SRC_MODE : Fld := ⟨0x40020000, 2, 2, .rwt, 0⟩
/-- PLB_CTRL.NOM60, bits 1 to 1 (02_two_clocks.md). -/
def PLB_CTRL.NOM60 : Fld := ⟨0x40020000, 1, 1, .rwt, 0⟩
/-- PLB_SRCA.ADDR, bits 18 to 0 (02_two_clocks.md). -/
def PLB_SRCA.ADDR : Fld := ⟨0x40020004, 0, 19, .rwt, 0⟩
/-- PLB_SRCB.ADDR, bits 18 to 0 (02_two_clocks.md). -/
def PLB_SRCB.ADDR : Fld := ⟨0x40020008, 0, 19, .rwt, 0⟩
/-- PLB_SRCC.ADDR, bits 18 to 0 (02_two_clocks.md). -/
def PLB_SRCC.ADDR : Fld := ⟨0x4002000C, 0, 19, .rwt, 0⟩
/-- PLB_SRCCFG.DLY, bits 31 to 16 (02_two_clocks.md). -/
def PLB_SRCCFG.DLY : Fld := ⟨0x40020010, 16, 16, .rwt, 0⟩
/-- PLB_SRCCFG.RATE, bits 15 to 0 (02_two_clocks.md). -/
def PLB_SRCCFG.RATE : Fld := ⟨0x40020010, 0, 16, .rwt, 0xFA0⟩
/-- PLB_VMIN.VMIN, bits 31 to 0 (02_two_clocks.md). -/
def PLB_VMIN.VMIN : Fld := ⟨0x40020014, 0, 32, .rwt, 0⟩
/-- PLB_OUT.EN, bits 31 to 31 (02_two_clocks.md). -/
def PLB_OUT.EN : Fld := ⟨0x40020018, 31, 1, .rwt, 0⟩
/-- PLB_OUT.ADDR, bits 18 to 0 (02_two_clocks.md). -/
def PLB_OUT.ADDR : Fld := ⟨0x40020018, 0, 19, .rwt, 0⟩
/-- PLB_STAT.LOST, bits 7 to 7 (02_two_clocks.md). -/
def PLB_STAT.LOST : Fld := ⟨0x40020020, 7, 1, .w1c, 0⟩
/-- PLB_STAT.SLEW_LIMITED, bits 6 to 6 (02_two_clocks.md). -/
def PLB_STAT.SLEW_LIMITED : Fld := ⟨0x40020020, 6, 1, .ro, 0⟩
/-- PLB_STAT.RANGE_CHANGED, bits 5 to 5 (02_two_clocks.md). -/
def PLB_STAT.RANGE_CHANGED : Fld := ⟨0x40020020, 5, 1, .w1c, 0⟩
/-- PLB_STAT.RANGE, bits 4 to 3 (02_two_clocks.md). -/
def PLB_STAT.RANGE : Fld := ⟨0x40020020, 3, 2, .ro, 0⟩
/-- PLB_STAT.NOSOURCE, bits 2 to 2 (02_two_clocks.md). -/
def PLB_STAT.NOSOURCE : Fld := ⟨0x40020020, 2, 1, .ro, 1⟩
/-- PLB_STAT.FREERUN, bits 1 to 1 (02_two_clocks.md). -/
def PLB_STAT.FREERUN : Fld := ⟨0x40020020, 1, 1, .ro, 0⟩
/-- PLB_STAT.TRACKING, bits 0 to 0 (02_two_clocks.md). -/
def PLB_STAT.TRACKING : Fld := ⟨0x40020020, 0, 1, .ro, 0⟩
/-- PLB_CYCLE.CYCLE, bits 31 to 0 (02_two_clocks.md). -/
def PLB_CYCLE.CYCLE : Fld := ⟨0x40020024, 0, 32, .ro, 0⟩
/-- PLB_ANGLE.ANGLE, bits 31 to 0 (02_two_clocks.md). -/
def PLB_ANGLE.ANGLE : Fld := ⟨0x40020028, 0, 32, .ro, 0⟩
/-- PLB_FREQ.FREQ, bits 31 to 0 (02_two_clocks.md). -/
def PLB_FREQ.FREQ : Fld := ⟨0x4002002C, 0, 32, .ro, 0x32000000⟩
/-- PLB_ROCOF.ROCOF, bits 31 to 0 (02_two_clocks.md). -/
def PLB_ROCOF.ROCOF : Fld := ⟨0x40020030, 0, 32, .ro, 0⟩
/-- PLB_HOLDF.FREQ, bits 31 to 0 (02_two_clocks.md). -/
def PLB_HOLDF.FREQ : Fld := ⟨0x40020034, 0, 32, .ro, 0x32000000⟩
/-- PLB_PERR.PERR, bits 31 to 0 (02_two_clocks.md). -/
def PLB_PERR.PERR : Fld := ⟨0x40020038, 0, 32, .ro, 0⟩
/-- CORE_CTRL.STALL_EVT, bits 1 to 1 (04_move_engine.md). -/
def CORE_CTRL.STALL_EVT : Fld := ⟨0x40030000, 1, 1, .rw, 0⟩
/-- CORE_CTRL.ILL_EVT, bits 0 to 0 (04_move_engine.md). -/
def CORE_CTRL.ILL_EVT : Fld := ⟨0x40030000, 0, 1, .rw, 1⟩
/-- CORE_STAT.ISSUING, bits 15 to 15 (04_move_engine.md). -/
def CORE_STAT.ISSUING : Fld := ⟨0x40030004, 15, 1, .ro, 0⟩
/-- CORE_STAT.TASK, bits 14 to 12 (04_move_engine.md). -/
def CORE_STAT.TASK : Fld := ⟨0x40030004, 12, 3, .ro, 0⟩
/-- CORE_STAT.ILL_OVF, bits 6 to 6 (04_move_engine.md). -/
def CORE_STAT.ILL_OVF : Fld := ⟨0x40030004, 6, 1, .w1c, 0⟩
/-- CORE_STAT.TRK_OVF, bits 5 to 5 (04_move_engine.md). -/
def CORE_STAT.TRK_OVF : Fld := ⟨0x40030004, 5, 1, .w1c, 0⟩
/-- CORE_STAT.STRUCT_OVF, bits 4 to 4 (04_move_engine.md). -/
def CORE_STAT.STRUCT_OVF : Fld := ⟨0x40030004, 4, 1, .w1c, 0⟩
/-- CORE_STAT.ILLEGAL, bits 3 to 3 (04_move_engine.md). -/
def CORE_STAT.ILLEGAL : Fld := ⟨0x40030004, 3, 1, .w1c, 0⟩
/-- CORE_STAT.CLASH, bits 2 to 2 (04_move_engine.md). -/
def CORE_STAT.CLASH : Fld := ⟨0x40030004, 2, 1, .w1c, 0⟩
/-- CORE_STAT.TRK_FULL, bits 1 to 1 (04_move_engine.md). -/
def CORE_STAT.TRK_FULL : Fld := ⟨0x40030004, 1, 1, .w1c, 0⟩
/-- CORE_STAT.STRUCT, bits 0 to 0 (04_move_engine.md). -/
def CORE_STAT.STRUCT : Fld := ⟨0x40030004, 0, 1, .w1c, 0⟩
/-- CORE_BANK.ACTIVE, bits 0 to 0 (04_move_engine.md). -/
def CORE_BANK.ACTIVE : Fld := ⟨0x40030008, 0, 1, .ro, 0⟩
/-- CORE_TRK.MAX, bits 23 to 16 (04_move_engine.md). -/
def CORE_TRK.MAX : Fld := ⟨0x4003000C, 16, 8, .rc, 0⟩
/-- CORE_TRK.OCC, bits 7 to 0 (04_move_engine.md). -/
def CORE_TRK.OCC : Fld := ⟨0x4003000C, 0, 8, .ro, 0⟩
/-- CORE_STALLCNT.TRK, bits 31 to 16 (04_move_engine.md). -/
def CORE_STALLCNT.TRK : Fld := ⟨0x40030010, 16, 16, .rc, 0⟩
/-- CORE_STALLCNT.STRUCT, bits 15 to 0 (04_move_engine.md). -/
def CORE_STALLCNT.STRUCT : Fld := ⟨0x40030010, 0, 16, .rc, 0⟩
/-- CORE_ILLCNT.CNT, bits 15 to 0 (04_move_engine.md). -/
def CORE_ILLCNT.CNT : Fld := ⟨0x40030014, 0, 16, .rc, 0⟩
/-- CORE_ILLREC.VALID, bits 31 to 31 (04_move_engine.md). -/
def CORE_ILLREC.VALID : Fld := ⟨0x40030018, 31, 1, .ro, 0⟩
/-- CORE_ILLREC.SLOT, bits 26 to 24 (04_move_engine.md). -/
def CORE_ILLREC.SLOT : Fld := ⟨0x40030018, 24, 3, .ro, 0⟩
/-- CORE_ILLREC.TASK, bits 22 to 20 (04_move_engine.md). -/
def CORE_ILLREC.TASK : Fld := ⟨0x40030018, 20, 3, .ro, 0⟩
/-- CORE_ILLREC.BANK, bits 16 to 16 (04_move_engine.md). -/
def CORE_ILLREC.BANK : Fld := ⟨0x40030018, 16, 1, .ro, 0⟩
/-- CORE_ILLREC.PC, bits 15 to 0 (04_move_engine.md). -/
def CORE_ILLREC.PC : Fld := ⟨0x40030018, 0, 16, .ro, 0⟩
/-- CORE_CYC_HI.CYC, bits 31 to 0 (04_move_engine.md). -/
def CORE_CYC_HI.CYC : Fld := ⟨0x40030020, 0, 32, .ro, 0⟩
/-- CORE_CYC_LO.CYC, bits 31 to 0 (04_move_engine.md). -/
def CORE_CYC_LO.CYC : Fld := ⟨0x40030024, 0, 32, .ro, 0⟩
/-- CORE_GAL.ADDR, bits 19 to 0 (04_move_engine.md). -/
def CORE_GAL.ADDR (i : Nat) : Fld := ⟨0x40030040 + 0x4 * i, 0, 20, .rwt, 0x40000 + i⟩
/-- CORE_PC.RUNNING, bits 31 to 31 (04_move_engine.md). -/
def CORE_PC.RUNNING (i : Nat) : Fld := ⟨0x40030080 + 0x4 * i, 31, 1, .ro, 0⟩
/-- CORE_PC.PC, bits 15 to 0 (04_move_engine.md). -/
def CORE_PC.PC (i : Nat) : Fld := ⟨0x40030080 + 0x4 * i, 0, 16, .ro, 0⟩
/-- CORE_TAGPOL.POL, bits 15 to 0 (05_bits_and_tagged_words.md). -/
def CORE_TAGPOL.POL : Fld := ⟨0x400300C0, 0, 16, .rwt, 0⟩
/-- CORE_TAGSTAT.SQUASH_OVF, bits 6 to 6 (05_bits_and_tagged_words.md). -/
def CORE_TAGSTAT.SQUASH_OVF : Fld := ⟨0x400300C4, 6, 1, .w1c, 0⟩
/-- CORE_TAGSTAT.FAIL_OVF, bits 5 to 5 (05_bits_and_tagged_words.md). -/
def CORE_TAGSTAT.FAIL_OVF : Fld := ⟨0x400300C4, 5, 1, .w1c, 0⟩
/-- CORE_TAGSTAT.SATURATED, bits 4 to 4 (05_bits_and_tagged_words.md). -/
def CORE_TAGSTAT.SATURATED : Fld := ⟨0x400300C4, 4, 1, .w1c, 0⟩
/-- CORE_TAGSTAT.SQUASHED, bits 3 to 3 (05_bits_and_tagged_words.md). -/
def CORE_TAGSTAT.SQUASHED : Fld := ⟨0x400300C4, 3, 1, .w1c, 0⟩
/-- CORE_TAGSTAT.COERCED, bits 2 to 2 (05_bits_and_tagged_words.md). -/
def CORE_TAGSTAT.COERCED : Fld := ⟨0x400300C4, 2, 1, .w1c, 0⟩
/-- CORE_TAGSTAT.POISONED, bits 1 to 1 (05_bits_and_tagged_words.md). -/
def CORE_TAGSTAT.POISONED : Fld := ⟨0x400300C4, 1, 1, .w1c, 0⟩
/-- CORE_TAGSTAT.MISMATCH, bits 0 to 0 (05_bits_and_tagged_words.md). -/
def CORE_TAGSTAT.MISMATCH : Fld := ⟨0x400300C4, 0, 1, .w1c, 0⟩
/-- CORE_TAGCNT.FAIL, bits 31 to 16 (05_bits_and_tagged_words.md). -/
def CORE_TAGCNT.FAIL : Fld := ⟨0x400300C8, 16, 16, .rc, 0⟩
/-- CORE_TAGCNT.SQUASH, bits 15 to 0 (05_bits_and_tagged_words.md). -/
def CORE_TAGCNT.SQUASH : Fld := ⟨0x400300C8, 0, 16, .rc, 0⟩
/-- CORE_TAGREC.VALID, bits 31 to 31 (05_bits_and_tagged_words.md). -/
def CORE_TAGREC.VALID : Fld := ⟨0x400300CC, 31, 1, .ro, 0⟩
/-- CORE_TAGREC.TASK, bits 30 to 28 (05_bits_and_tagged_words.md). -/
def CORE_TAGREC.TASK : Fld := ⟨0x400300CC, 28, 3, .ro, 0⟩
/-- CORE_TAGREC.BANK, bits 27 to 27 (05_bits_and_tagged_words.md). -/
def CORE_TAGREC.BANK : Fld := ⟨0x400300CC, 27, 1, .ro, 0⟩
/-- CORE_TAGREC.SLOT, bits 26 to 24 (05_bits_and_tagged_words.md). -/
def CORE_TAGREC.SLOT : Fld := ⟨0x400300CC, 24, 3, .ro, 0⟩
/-- CORE_TAGREC.FOUND, bits 23 to 20 (05_bits_and_tagged_words.md). -/
def CORE_TAGREC.FOUND : Fld := ⟨0x400300CC, 20, 4, .ro, 0⟩
/-- CORE_TAGREC.OPND, bits 19 to 17 (05_bits_and_tagged_words.md). -/
def CORE_TAGREC.OPND : Fld := ⟨0x400300CC, 17, 3, .ro, 0⟩
/-- CORE_TAGREC.ADDRF, bits 16 to 16 (05_bits_and_tagged_words.md). -/
def CORE_TAGREC.ADDRF : Fld := ⟨0x400300CC, 16, 1, .ro, 0⟩
/-- CORE_TAGREC.PC, bits 15 to 0 (05_bits_and_tagged_words.md). -/
def CORE_TAGREC.PC : Fld := ⟨0x400300CC, 0, 16, .ro, 0⟩
/-- CORE_ECCCTL.CORR_OVF, bits 31 to 31 (05_bits_and_tagged_words.md). -/
def CORE_ECCCTL.CORR_OVF : Fld := ⟨0x400300D0, 31, 1, .w1c, 0⟩
/-- CORE_ECCCTL.UNCORR_OVF, bits 30 to 30 (05_bits_and_tagged_words.md). -/
def CORE_ECCCTL.UNCORR_OVF : Fld := ⟨0x400300D0, 30, 1, .w1c, 0⟩
/-- CORE_ECCCTL.UNCORR_SEEN, bits 29 to 29 (05_bits_and_tagged_words.md). -/
def CORE_ECCCTL.UNCORR_SEEN : Fld := ⟨0x400300D0, 29, 1, .w1c, 0⟩
/-- CORE_ECCCTL.ROW_SEEN, bits 28 to 28 (05_bits_and_tagged_words.md). -/
def CORE_ECCCTL.ROW_SEEN : Fld := ⟨0x400300D0, 28, 1, .w1c, 0⟩
/-- CORE_ECCCTL.BIT_HALT, bits 1 to 1 (05_bits_and_tagged_words.md). -/
def CORE_ECCCTL.BIT_HALT : Fld := ⟨0x400300D0, 1, 1, .rw, 1⟩
/-- CORE_ECCCTL.CORR_EVT, bits 0 to 0 (05_bits_and_tagged_words.md). -/
def CORE_ECCCTL.CORR_EVT : Fld := ⟨0x400300D0, 0, 1, .rw, 0⟩
/-- CORE_ECCCNT.UWORD, bits 31 to 24 (05_bits_and_tagged_words.md). -/
def CORE_ECCCNT.UWORD : Fld := ⟨0x400300D4, 24, 8, .rc, 0⟩
/-- CORE_ECCCNT.UROW, bits 23 to 16 (05_bits_and_tagged_words.md). -/
def CORE_ECCCNT.UROW : Fld := ⟨0x400300D4, 16, 8, .rc, 0⟩
/-- CORE_ECCCNT.CORR, bits 15 to 0 (05_bits_and_tagged_words.md). -/
def CORE_ECCCNT.CORR : Fld := ⟨0x400300D4, 0, 16, .rc, 0⟩
/-- CORE_ECCREC.VALID, bits 31 to 31 (05_bits_and_tagged_words.md). -/
def CORE_ECCREC.VALID : Fld := ⟨0x400300D8, 31, 1, .w1c, 0⟩
/-- CORE_ECCREC.SPACE, bits 30 to 30 (05_bits_and_tagged_words.md). -/
def CORE_ECCREC.SPACE : Fld := ⟨0x400300D8, 30, 1, .ro, 0⟩
/-- CORE_ECCREC.FINDER, bits 29 to 28 (05_bits_and_tagged_words.md). -/
def CORE_ECCREC.FINDER : Fld := ⟨0x400300D8, 28, 2, .ro, 0⟩
/-- CORE_ECCREC.ADDR, bits 19 to 0 (05_bits_and_tagged_words.md). -/
def CORE_ECCREC.ADDR : Fld := ⟨0x400300D8, 0, 20, .ro, 0⟩
/-- CORE_TMUSTAT.PEND, bits 31 to 24 (06_units.md). -/
def CORE_TMUSTAT.PEND : Fld := ⟨0x40030100, 24, 8, .ro, 0⟩
/-- CORE_TMUSTAT.FIFO, bits 23 to 16 (06_units.md). -/
def CORE_TMUSTAT.FIFO : Fld := ⟨0x40030100, 16, 8, .ro, 0⟩
/-- CORE_TMUSTAT.LOST, bits 3 to 3 (06_units.md). -/
def CORE_TMUSTAT.LOST : Fld := ⟨0x40030100, 3, 1, .w1c, 0⟩
/-- CORE_TMUSTAT.FULL, bits 2 to 2 (06_units.md). -/
def CORE_TMUSTAT.FULL : Fld := ⟨0x40030100, 2, 1, .w1c, 0⟩
/-- CORE_TMUSTAT.LOST_OVF, bits 1 to 1 (06_units.md). -/
def CORE_TMUSTAT.LOST_OVF : Fld := ⟨0x40030100, 1, 1, .w1c, 0⟩
/-- CORE_TMUSTAT.REF_OVF, bits 0 to 0 (06_units.md). -/
def CORE_TMUSTAT.REF_OVF : Fld := ⟨0x40030100, 0, 1, .w1c, 0⟩
/-- CORE_TMUCNT.REFUSED, bits 31 to 16 (06_units.md). -/
def CORE_TMUCNT.REFUSED : Fld := ⟨0x40030104, 16, 16, .rc, 0⟩
/-- CORE_TMUCNT.LOST, bits 15 to 0 (06_units.md). -/
def CORE_TMUCNT.LOST : Fld := ⟨0x40030104, 0, 16, .rc, 0⟩
/-- CORE_QUSTAT.MAXY, bits 31 to 16 (06_units.md). -/
def CORE_QUSTAT.MAXY : Fld := ⟨0x40030108, 16, 16, .rc, 0⟩
/-- CORE_QUSTAT.BUSY, bits 0 to 0 (06_units.md). -/
def CORE_QUSTAT.BUSY : Fld := ⟨0x40030108, 0, 1, .ro, 0⟩
/-- CORE_MBXSTAT.FULL, bits 31 to 16 (06_units.md). -/
def CORE_MBXSTAT.FULL : Fld := ⟨0x4003010C, 16, 16, .w1c, 0⟩
/-- CORE_MBXSTAT.NE, bits 15 to 0 (06_units.md). -/
def CORE_MBXSTAT.NE : Fld := ⟨0x4003010C, 0, 16, .ro, 0⟩
/-- CORE_MBXDROP.OVF, bits 31 to 31 (06_units.md). -/
def CORE_MBXDROP.OVF : Fld := ⟨0x40030110, 31, 1, .w1c, 0⟩
/-- CORE_MBXDROP.CNT, bits 30 to 0 (06_units.md). -/
def CORE_MBXDROP.CNT : Fld := ⟨0x40030110, 0, 31, .rc, 0⟩
/-- CORE_FOSTAT.LAUNCHED, bits 31 to 16 (06_units.md). -/
def CORE_FOSTAT.LAUNCHED : Fld := ⟨0x40030114, 16, 16, .ro, 0⟩
/-- CORE_FOSTAT.STALL, bits 15 to 0 (06_units.md). -/
def CORE_FOSTAT.STALL : Fld := ⟨0x40030114, 0, 16, .rc, 0⟩
/-- CORE_GTIMIDX.IDX, bits 9 to 0 (06_units.md). -/
def CORE_GTIMIDX.IDX : Fld := ⟨0x40030118, 0, 10, .rw, 0⟩
/-- CORE_GTIMST.STATE, bits 1 to 0 (06_units.md). -/
def CORE_GTIMST.STATE : Fld := ⟨0x4003011C, 0, 2, .ro, 0⟩
/-- CORE_GTIMSTART.START, bits 31 to 0 (06_units.md). -/
def CORE_GTIMSTART.START : Fld := ⟨0x40030120, 0, 32, .ro, 0⟩
/-- CORE_PHUWIN.W, bits 31 to 0 (06_units.md). -/
def CORE_PHUWIN.W (i : Nat) : Fld := ⟨0x40030400 + 0x4 * i, 0, 32, .rwt, 0x3F800000⟩
/-- CORE_DTD.W, bits 31 to 0 (07_decode_table.md). -/
def CORE_DTD.W (i : Nat) (j : Nat) : Fld := ⟨0x40030800 + 0x10 * i + 0x4 * j, 0, 32, .rwt, 0⟩
/-- CORE_DTUM.W, bits 31 to 0 (07_decode_table.md). -/
def CORE_DTUM.W (i : Nat) : Fld := ⟨0x40030C00 + 0x4 * i, 0, 32, .rwt, 0⟩
/-- CORE_DTSEL.ENTRY, bits 5 to 0 (07_decode_table.md). -/
def CORE_DTSEL.ENTRY : Fld := ⟨0x40030C80, 0, 6, .rw, 0⟩
/-- CORE_DTVER.VERSION, bits 15 to 0 (07_decode_table.md). -/
def CORE_DTVER.VERSION : Fld := ⟨0x40030C84, 0, 16, .rwt, 0⟩
/-- CORE_DTCRC.CRC, bits 31 to 0 (07_decode_table.md). -/
def CORE_DTCRC.CRC : Fld := ⟨0x40030C88, 0, 32, .ro, 0⟩
/-- CORE_DTSTAT.ACT_MATCH, bits 31 to 31 (07_decode_table.md). -/
def CORE_DTSTAT.ACT_MATCH : Fld := ⟨0x40030C8C, 31, 1, .ro, 1⟩
/-- CORE_DTSTAT.INACT_MATCH, bits 30 to 30 (07_decode_table.md). -/
def CORE_DTSTAT.INACT_MATCH : Fld := ⟨0x40030C8C, 30, 1, .ro, 1⟩
/-- CORE_DTSTAT.EBAD, bits 29 to 29 (07_decode_table.md). -/
def CORE_DTSTAT.EBAD : Fld := ⟨0x40030C8C, 29, 1, .w1c, 0⟩
/-- CORE_DTSTAT.EBAD_OP, bits 5 to 0 (07_decode_table.md). -/
def CORE_DTSTAT.EBAD_OP : Fld := ⟨0x40030C8C, 0, 6, .ro, 0⟩
/-- CORE_DTREC.VALID, bits 31 to 31 (07_decode_table.md). -/
def CORE_DTREC.VALID : Fld := ⟨0x40030C90, 31, 1, .ro, 0⟩
/-- CORE_DTREC.OP, bits 29 to 24 (07_decode_table.md). -/
def CORE_DTREC.OP : Fld := ⟨0x40030C90, 24, 6, .ro, 0⟩
/-- CORE_DTREC.MIDX, bits 20 to 16 (07_decode_table.md). -/
def CORE_DTREC.MIDX : Fld := ⟨0x40030C90, 16, 5, .ro, 0⟩
/-- CORE_PIDA_VER.VER, bits 15 to 0 (07_decode_table.md). -/
def CORE_PIDA_VER.VER : Fld := ⟨0x40030CA0, 0, 16, .ro, 0⟩
/-- CORE_PIDA_CRC.CRC, bits 31 to 0 (07_decode_table.md). -/
def CORE_PIDA_CRC.CRC : Fld := ⟨0x40030CA4, 0, 32, .ro, 0⟩
/-- CORE_PIDB_VER.VER, bits 15 to 0 (07_decode_table.md). -/
def CORE_PIDB_VER.VER : Fld := ⟨0x40030CA8, 0, 16, .ro, 0⟩
/-- CORE_PIDB_CRC.CRC, bits 31 to 0 (07_decode_table.md). -/
def CORE_PIDB_CRC.CRC : Fld := ⟨0x40030CAC, 0, 32, .ro, 0⟩
/-- SCN_STAT.QUIET, bits 16 to 16 (08_scan_and_image.md). -/
def SCN_STAT.QUIET : Fld := ⟨0x40040000, 16, 1, .ro, 1⟩
/-- SCN_STAT.FROZEN, bits 15 to 8 (08_scan_and_image.md). -/
def SCN_STAT.FROZEN : Fld := ⟨0x40040000, 8, 8, .ro, 0⟩
/-- SCN_STAT.PENDING, bits 7 to 0 (08_scan_and_image.md). -/
def SCN_STAT.PENDING : Fld := ⟨0x40040000, 0, 8, .ro, 0⟩
/-- SCN_PWCFG.QUEUE, bits 18 to 16 (08_scan_and_image.md). -/
def SCN_PWCFG.QUEUE : Fld := ⟨0x40040004, 16, 3, .rw, 6⟩
/-- SCN_PWCFG.ACK_TMO, bits 15 to 0 (08_scan_and_image.md). -/
def SCN_PWCFG.ACK_TMO : Fld := ⟨0x40040004, 0, 16, .rw, 0x1F4⟩
/-- SCN_PWSTAT.LOST, bits 31 to 16 (08_scan_and_image.md). -/
def SCN_PWSTAT.LOST : Fld := ⟨0x40040008, 16, 16, .rc, 0⟩
/-- SCN_PWSTAT.LOST_OVF, bits 8 to 8 (08_scan_and_image.md). -/
def SCN_PWSTAT.LOST_OVF : Fld := ⟨0x40040008, 8, 1, .w1c, 0⟩
/-- SCN_PWSTAT.COUNT, bits 6 to 0 (08_scan_and_image.md). -/
def SCN_PWSTAT.COUNT : Fld := ⟨0x40040008, 0, 7, .ro, 0⟩
/-- SCN_PWCTL.CLR, bits 0 to 0 (08_scan_and_image.md). -/
def SCN_PWCTL.CLR : Fld := ⟨0x4004000C, 0, 1, .wo, 0⟩
/-- SCN_TCFG.EN, bits 31 to 31 (08_scan_and_image.md). -/
def SCN_TCFG.EN (i : Nat) : Fld := ⟨0x40040100 + 0x40 * i, 31, 1, .rwt, 0⟩
/-- SCN_TCFG.TRIG, bits 30 to 29 (08_scan_and_image.md). -/
def SCN_TCFG.TRIG (i : Nat) : Fld := ⟨0x40040100 + 0x40 * i, 29, 2, .rwt, 0⟩
/-- SCN_TCFG.OVR, bits 28 to 27 (08_scan_and_image.md). -/
def SCN_TCFG.OVR (i : Nat) : Fld := ⟨0x40040100 + 0x40 * i, 27, 2, .rwt, 0⟩
/-- SCN_TCFG.CMODE, bits 26 to 25 (08_scan_and_image.md). -/
def SCN_TCFG.CMODE (i : Nat) : Fld := ⟨0x40040100 + 0x40 * i, 25, 2, .rwt, 0⟩
/-- SCN_TCFG.ENTRY, bits 15 to 0 (08_scan_and_image.md). -/
def SCN_TCFG.ENTRY (i : Nat) : Fld := ⟨0x40040100 + 0x40 * i, 0, 16, .rwt, 0⟩
/-- SCN_PERIOD.PERIOD, bits 25 to 0 (08_scan_and_image.md). -/
def SCN_PERIOD.PERIOD (i : Nat) : Fld := ⟨0x40040104 + 0x40 * i, 0, 26, .rwt, 0xFA0⟩
/-- SCN_PHASE.PHASE, bits 25 to 0 (08_scan_and_image.md). -/
def SCN_PHASE.PHASE (i : Nat) : Fld := ⟨0x40040108 + 0x40 * i, 0, 26, .rwt, 0⟩
/-- SCN_ANG.COUNT, bits 26 to 18 (08_scan_and_image.md). -/
def SCN_ANG.COUNT (i : Nat) : Fld := ⟨0x4004010C + 0x40 * i, 18, 9, .rwt, 0x10⟩
/-- SCN_ANG.FIRST, bits 17 to 9 (08_scan_and_image.md). -/
def SCN_ANG.FIRST (i : Nat) : Fld := ⟨0x4004010C + 0x40 * i, 9, 9, .rwt, 0⟩
/-- SCN_ANG.N, bits 8 to 0 (08_scan_and_image.md). -/
def SCN_ANG.N (i : Nat) : Fld := ⟨0x4004010C + 0x40 * i, 0, 9, .rwt, 0x10⟩
/-- SCN_AOFS.AOFS, bits 31 to 0 (08_scan_and_image.md). -/
def SCN_AOFS.AOFS (i : Nat) : Fld := ⟨0x40040110 + 0x40 * i, 0, 32, .rwt, 0⟩
/-- SCN_EDGE.POL, bits 21 to 20 (08_scan_and_image.md). -/
def SCN_EDGE.POL (i : Nat) : Fld := ⟨0x40040114 + 0x40 * i, 20, 2, .rwt, 1⟩
/-- SCN_EDGE.ADDR, bits 19 to 0 (08_scan_and_image.md). -/
def SCN_EDGE.ADDR (i : Nat) : Fld := ⟨0x40040114 + 0x40 * i, 0, 20, .rwt, 0⟩
/-- SCN_LOFS.LOFS, bits 31 to 0 (08_scan_and_image.md). -/
def SCN_LOFS.LOFS (i : Nat) : Fld := ⟨0x40040118 + 0x40 * i, 0, 32, .rwt, 0⟩
/-- SCN_SCANHI.SCAN, bits 31 to 0 (08_scan_and_image.md). -/
def SCN_SCANHI.SCAN (i : Nat) : Fld := ⟨0x40040120 + 0x40 * i, 0, 32, .ro, 0⟩
/-- SCN_SCANLO.SCAN, bits 31 to 0 (08_scan_and_image.md). -/
def SCN_SCANLO.SCAN (i : Nat) : Fld := ⟨0x40040124 + 0x40 * i, 0, 32, .ro, 0⟩
/-- SCN_CNT.SKIP, bits 31 to 16 (08_scan_and_image.md). -/
def SCN_CNT.SKIP (i : Nat) : Fld := ⟨0x40040128 + 0x40 * i, 16, 16, .rc, 0⟩
/-- SCN_CNT.LATE, bits 15 to 0 (08_scan_and_image.md). -/
def SCN_CNT.LATE (i : Nat) : Fld := ⟨0x40040128 + 0x40 * i, 0, 16, .rc, 0⟩
/-- SCN_TSTAT.LATE_COMMIT, bits 5 to 5 (08_scan_and_image.md). -/
def SCN_TSTAT.LATE_COMMIT (i : Nat) : Fld := ⟨0x4004012C + 0x40 * i, 5, 1, .w1c, 0⟩
/-- SCN_TSTAT.OVERRUN, bits 4 to 4 (08_scan_and_image.md). -/
def SCN_TSTAT.OVERRUN (i : Nat) : Fld := ⟨0x4004012C + 0x40 * i, 4, 1, .w1c, 0⟩
/-- SCN_TSTAT.RUN_OVF, bits 3 to 3 (08_scan_and_image.md). -/
def SCN_TSTAT.RUN_OVF (i : Nat) : Fld := ⟨0x4004012C + 0x40 * i, 3, 1, .w1c, 0⟩
/-- SCN_TSTAT.SKIP_OVF, bits 2 to 2 (08_scan_and_image.md). -/
def SCN_TSTAT.SKIP_OVF (i : Nat) : Fld := ⟨0x4004012C + 0x40 * i, 2, 1, .w1c, 0⟩
/-- SCN_TSTAT.LATE_OVF, bits 1 to 1 (08_scan_and_image.md). -/
def SCN_TSTAT.LATE_OVF (i : Nat) : Fld := ⟨0x4004012C + 0x40 * i, 1, 1, .w1c, 0⟩
/-- SCN_TSTAT.HELD_LATE, bits 0 to 0 (08_scan_and_image.md). -/
def SCN_TSTAT.HELD_LATE (i : Nat) : Fld := ⟨0x4004012C + 0x40 * i, 0, 1, .ro, 0⟩
/-- SCN_RUNLEN.MAX, bits 31 to 16 (08_scan_and_image.md). -/
def SCN_RUNLEN.MAX (i : Nat) : Fld := ⟨0x40040130 + 0x40 * i, 16, 16, .rc, 0⟩
/-- SCN_RUNLEN.LAST, bits 15 to 0 (08_scan_and_image.md). -/
def SCN_RUNLEN.LAST (i : Nat) : Fld := ⟨0x40040130 + 0x40 * i, 0, 16, .ro, 0⟩
/-- SCN_WIN_BASE.EN, bits 31 to 31 (08_scan_and_image.md). -/
def SCN_WIN_BASE.EN (i : Nat) (j : Nat) : Fld := ⟨0x40040400 + 0x40 * i + 0x8 * j, 31, 1, .rwt, 0⟩
/-- SCN_WIN_BASE.OUT, bits 30 to 30 (08_scan_and_image.md). -/
def SCN_WIN_BASE.OUT (i : Nat) (j : Nat) : Fld := ⟨0x40040400 + 0x40 * i + 0x8 * j, 30, 1, .rwt, 0⟩
/-- SCN_WIN_BASE.WORD, bits 29 to 29 (08_scan_and_image.md). -/
def SCN_WIN_BASE.WORD (i : Nat) (j : Nat) : Fld := ⟨0x40040400 + 0x40 * i + 0x8 * j, 29, 1, .rwt, 0⟩
/-- SCN_WIN_BASE.ADDR, bits 19 to 0 (08_scan_and_image.md). -/
def SCN_WIN_BASE.ADDR (i : Nat) (j : Nat) : Fld := ⟨0x40040400 + 0x40 * i + 0x8 * j, 0, 20, .rwt, 0⟩
/-- SCN_WIN_LEN.LEN, bits 16 to 0 (08_scan_and_image.md). -/
def SCN_WIN_LEN.LEN (i : Nat) (j : Nat) : Fld := ⟨0x40040404 + 0x40 * i + 0x8 * j, 0, 17, .rwt, 0⟩
/-- SCN_OMAP_SRC.KIND, bits 31 to 29 (08_scan_and_image.md). -/
def SCN_OMAP_SRC.KIND (i : Nat) : Fld := ⟨0x40040800 + 0x8 * i, 29, 3, .rwt, 0⟩
/-- SCN_OMAP_SRC.WORD, bits 28 to 28 (08_scan_and_image.md). -/
def SCN_OMAP_SRC.WORD (i : Nat) : Fld := ⟨0x40040800 + 0x8 * i, 28, 1, .rwt, 0⟩
/-- SCN_OMAP_SRC.LENM1, bits 27 to 20 (08_scan_and_image.md). -/
def SCN_OMAP_SRC.LENM1 (i : Nat) : Fld := ⟨0x40040800 + 0x8 * i, 20, 8, .rwt, 0⟩
/-- SCN_OMAP_SRC.ADDR, bits 19 to 0 (08_scan_and_image.md). -/
def SCN_OMAP_SRC.ADDR (i : Nat) : Fld := ⟨0x40040800 + 0x8 * i, 0, 20, .rwt, 0⟩
/-- SCN_OMAP_DST.TARGET, bits 31 to 24 (08_scan_and_image.md). -/
def SCN_OMAP_DST.TARGET (i : Nat) : Fld := ⟨0x40040804 + 0x8 * i, 24, 8, .rwt, 0⟩
/-- SCN_OMAP_DST.DADDR, bits 19 to 0 (08_scan_and_image.md). -/
def SCN_OMAP_DST.DADDR (i : Nat) : Fld := ⟨0x40040804 + 0x8 * i, 0, 20, .rwt, 0⟩
/-- SCN_PWLOG_W0.VALID, bits 31 to 31 (08_scan_and_image.md). -/
def SCN_PWLOG_W0.VALID (i : Nat) : Fld := ⟨0x40041000 + 0x10 * i, 31, 1, .ro, 0⟩
/-- SCN_PWLOG_W0.CAUSE, bits 30 to 27 (08_scan_and_image.md). -/
def SCN_PWLOG_W0.CAUSE (i : Nat) : Fld := ⟨0x40041000 + 0x10 * i, 27, 4, .ro, 0⟩
/-- SCN_PWLOG_W0.TASK, bits 26 to 24 (08_scan_and_image.md). -/
def SCN_PWLOG_W0.TASK (i : Nat) : Fld := ⟨0x40041000 + 0x10 * i, 24, 3, .ro, 0⟩
/-- SCN_PWLOG_W0.KIND, bits 23 to 21 (08_scan_and_image.md). -/
def SCN_PWLOG_W0.KIND (i : Nat) : Fld := ⟨0x40041000 + 0x10 * i, 21, 3, .ro, 0⟩
/-- SCN_PWLOG_W0.STN, bits 15 to 8 (08_scan_and_image.md). -/
def SCN_PWLOG_W0.STN (i : Nat) : Fld := ⟨0x40041000 + 0x10 * i, 8, 8, .ro, 0⟩
/-- SCN_PWLOG_W0.TARGET, bits 7 to 0 (08_scan_and_image.md). -/
def SCN_PWLOG_W0.TARGET (i : Nat) : Fld := ⟨0x40041000 + 0x10 * i, 0, 8, .ro, 0⟩
/-- SCN_PWLOG_W1.SCAN, bits 31 to 0 (08_scan_and_image.md). -/
def SCN_PWLOG_W1.SCAN (i : Nat) : Fld := ⟨0x40041004 + 0x10 * i, 0, 32, .ro, 0⟩
/-- SCN_PWLOG_W2.SCAN, bits 31 to 0 (08_scan_and_image.md). -/
def SCN_PWLOG_W2.SCAN (i : Nat) : Fld := ⟨0x40041008 + 0x10 * i, 0, 32, .ro, 0⟩
/-- SCN_PWLOG_W3.MAP, bits 31 to 26 (08_scan_and_image.md). -/
def SCN_PWLOG_W3.MAP (i : Nat) : Fld := ⟨0x4004100C + 0x10 * i, 26, 6, .ro, 0⟩
/-- SCN_PWLOG_W3.DADDR, bits 19 to 0 (08_scan_and_image.md). -/
def SCN_PWLOG_W3.DADDR (i : Nat) : Fld := ⟨0x4004100C + 0x10 * i, 0, 20, .ro, 0⟩
/-- TXN_CFG.QP_TMO, bits 31 to 16 (09_edits_and_transactions.md). -/
def TXN_CFG.QP_TMO : Fld := ⟨0x40050000, 16, 16, .rw, 0x32⟩
/-- TXN_CFG.GUARD, bits 15 to 8 (09_edits_and_transactions.md). -/
def TXN_CFG.GUARD : Fld := ⟨0x40050000, 8, 8, .rw, 0xA⟩
/-- TXN_CFG.PERSIST_DEF, bits 0 to 0 (09_edits_and_transactions.md). -/
def TXN_CFG.PERSIST_DEF : Fld := ⟨0x40050000, 0, 1, .rw, 1⟩
/-- TXN_STAT.STATE, bits 31 to 28 (09_edits_and_transactions.md). -/
def TXN_STAT.STATE : Fld := ⟨0x40050004, 28, 4, .ro, 0⟩
/-- TXN_STAT.EDIT, bits 27 to 27 (09_edits_and_transactions.md). -/
def TXN_STAT.EDIT : Fld := ⟨0x40050004, 27, 1, .ro, 0⟩
/-- TXN_STAT.SYSTEM, bits 26 to 26 (09_edits_and_transactions.md). -/
def TXN_STAT.SYSTEM : Fld := ⟨0x40050004, 26, 1, .ro, 0⟩
/-- TXN_STAT.RECORDED, bits 25 to 25 (09_edits_and_transactions.md). -/
def TXN_STAT.RECORDED : Fld := ⟨0x40050004, 25, 1, .ro, 0⟩
/-- TXN_STAT.UNDO_OK, bits 24 to 24 (09_edits_and_transactions.md). -/
def TXN_STAT.UNDO_OK : Fld := ⟨0x40050004, 24, 1, .ro, 0⟩
/-- TXN_STAT.PERSIST, bits 23 to 23 (09_edits_and_transactions.md). -/
def TXN_STAT.PERSIST : Fld := ⟨0x40050004, 23, 1, .ro, 0⟩
/-- TXN_STAT.SYS_SPLIT, bits 22 to 22 (09_edits_and_transactions.md). -/
def TXN_STAT.SYS_SPLIT : Fld := ⟨0x40050004, 22, 1, .w1c, 0⟩
/-- TXN_STAT.OWNER_SPI, bits 21 to 21 (09_edits_and_transactions.md). -/
def TXN_STAT.OWNER_SPI : Fld := ⟨0x40050004, 21, 1, .ro, 0⟩
/-- TXN_STAT.OWNER, bits 15 to 0 (09_edits_and_transactions.md). -/
def TXN_STAT.OWNER : Fld := ⟨0x40050004, 0, 16, .ro, 0⟩
/-- TXN_ID.ID, bits 31 to 0 (09_edits_and_transactions.md). -/
def TXN_ID.ID : Fld := ⟨0x40050008, 0, 32, .ro, 0⟩
/-- TXN_WHEN.SYSANG, bits 2 to 2 (09_edits_and_transactions.md). -/
def TXN_WHEN.SYSANG : Fld := ⟨0x4005000C, 2, 1, .ro, 0⟩
/-- TXN_WHEN.KIND, bits 1 to 0 (09_edits_and_transactions.md). -/
def TXN_WHEN.KIND : Fld := ⟨0x4005000C, 0, 2, .ro, 0⟩
/-- TXN_LAST.OUTCOME, bits 31 to 28 (09_edits_and_transactions.md). -/
def TXN_LAST.OUTCOME : Fld := ⟨0x40050018, 28, 4, .ro, 0⟩
/-- TXN_LAST.LATE, bits 27 to 27 (09_edits_and_transactions.md). -/
def TXN_LAST.LATE : Fld := ⟨0x40050018, 27, 1, .ro, 0⟩
/-- TXN_LAST.PRESUMED, bits 26 to 26 (09_edits_and_transactions.md). -/
def TXN_LAST.PRESUMED : Fld := ⟨0x40050018, 26, 1, .ro, 0⟩
/-- TXN_LAST.MODE, bits 25 to 25 (09_edits_and_transactions.md). -/
def TXN_LAST.MODE : Fld := ⟨0x40050018, 25, 1, .ro, 0⟩
/-- TXN_LAST.FAIL_OVF, bits 24 to 24 (09_edits_and_transactions.md). -/
def TXN_LAST.FAIL_OVF : Fld := ⟨0x40050018, 24, 1, .w1c, 0⟩
/-- TXN_LAST.SEQ, bits 23 to 0 (09_edits_and_transactions.md). -/
def TXN_LAST.SEQ : Fld := ⟨0x40050018, 0, 24, .ro, 0⟩
/-- TXN_CNT.COMMITS, bits 31 to 16 (09_edits_and_transactions.md). -/
def TXN_CNT.COMMITS : Fld := ⟨0x4005001C, 16, 16, .ro, 0⟩
/-- TXN_CNT.FAILS, bits 15 to 0 (09_edits_and_transactions.md). -/
def TXN_CNT.FAILS : Fld := ⟨0x4005001C, 0, 16, .rc, 0⟩
/-- TXN_WHEN0.W, bits 31 to 0 (09_edits_and_transactions.md). -/
def TXN_WHEN0.W : Fld := ⟨0x40050010, 0, 32, .ro, 0⟩
/-- TXN_WHEN1.W, bits 31 to 0 (09_edits_and_transactions.md). -/
def TXN_WHEN1.W : Fld := ⟨0x40050014, 0, 32, .ro, 0⟩
/-- TXN_WHEN2.W, bits 31 to 0 (09_edits_and_transactions.md). -/
def TXN_WHEN2.W : Fld := ⟨0x4005002C, 0, 32, .ro, 0⟩
/-- TXN_SEQ.SEQ, bits 23 to 0 (09_edits_and_transactions.md). -/
def TXN_SEQ.SEQ : Fld := ⟨0x40050020, 0, 24, .ro, 0⟩
/-- TXN_CREC_LAST.SEQ, bits 23 to 0 (09_edits_and_transactions.md). -/
def TXN_CREC_LAST.SEQ : Fld := ⟨0x40050024, 0, 24, .ro, 0⟩
/-- TXN_CREC_PREP.VALID, bits 31 to 31 (09_edits_and_transactions.md). -/
def TXN_CREC_PREP.VALID : Fld := ⟨0x40050028, 31, 1, .ro, 0⟩
/-- TXN_CREC_PREP.SEQ, bits 23 to 0 (09_edits_and_transactions.md). -/
def TXN_CREC_PREP.SEQ : Fld := ⟨0x40050028, 0, 24, .ro, 0⟩
/-- TXN_PART.M, bits 31 to 0 (09_edits_and_transactions.md). -/
def TXN_PART.M (i : Nat) : Fld := ⟨0x40050100 + 0x4 * i, 0, 32, .ro, 0⟩
/-- TXN_RDY.M, bits 31 to 0 (09_edits_and_transactions.md). -/
def TXN_RDY.M (i : Nat) : Fld := ⟨0x40050120 + 0x4 * i, 0, 32, .ro, 0⟩
/-- TXN_RPT.M, bits 31 to 0 (09_edits_and_transactions.md). -/
def TXN_RPT.M (i : Nat) : Fld := ⟨0x40050140 + 0x4 * i, 0, 32, .ro, 0⟩
/-- EDT_STAT.COPY, bits 31 to 30 (09_edits_and_transactions.md). -/
def EDT_STAT.COPY : Fld := ⟨0x40050200, 30, 2, .ro, 0⟩
/-- EDT_STAT.COPY_UNCORR, bits 29 to 29 (09_edits_and_transactions.md). -/
def EDT_STAT.COPY_UNCORR : Fld := ⟨0x40050200, 29, 1, .w1c, 0⟩
/-- EDT_STAT.KEEP_OK, bits 28 to 28 (09_edits_and_transactions.md). -/
def EDT_STAT.KEEP_OK : Fld := ⟨0x40050200, 28, 1, .ro, 0⟩
/-- EDT_STAT.COPIED, bits 16 to 0 (09_edits_and_transactions.md). -/
def EDT_STAT.COPIED : Fld := ⟨0x40050200, 0, 17, .ro, 0⟩
/-- EDT_CNT.PATCHED, bits 31 to 16 (09_edits_and_transactions.md). -/
def EDT_CNT.PATCHED : Fld := ⟨0x40050204, 16, 16, .ro, 0⟩
/-- EDT_CNT.NEWVAR, bits 4 to 0 (09_edits_and_transactions.md). -/
def EDT_CNT.NEWVAR : Fld := ⟨0x40050204, 0, 5, .ro, 0⟩
/-- SBY_CFG.DIV_POL, bits 31 to 30 (10_hot_standby.md). -/
def SBY_CFG.DIV_POL : Fld := ⟨0x40060000, 30, 2, .rwt, 1⟩
/-- SBY_CFG.AUTO_SYNC, bits 29 to 29 (10_hot_standby.md). -/
def SBY_CFG.AUTO_SYNC : Fld := ⟨0x40060000, 29, 1, .rwt, 1⟩
/-- SBY_CFG.TKO_ON_HALT, bits 28 to 28 (10_hot_standby.md). -/
def SBY_CFG.TKO_ON_HALT : Fld := ⟨0x40060000, 28, 1, .rwt, 1⟩
/-- SBY_CFG.SOLO, bits 27 to 27 (10_hot_standby.md). -/
def SBY_CFG.SOLO : Fld := ⟨0x40060000, 27, 1, .rwt, 0⟩
/-- SBY_CFG.YIELD, bits 26 to 26 (10_hot_standby.md). -/
def SBY_CFG.YIELD : Fld := ⟨0x40060000, 26, 1, .rwt, 1⟩
/-- SBY_CFG.RST_ACCEPT, bits 25 to 25 (10_hot_standby.md). -/
def SBY_CFG.RST_ACCEPT : Fld := ⟨0x40060000, 25, 1, .rwt, 0⟩
/-- SBY_CFG.NEG_TMO, bits 15 to 0 (10_hot_standby.md). -/
def SBY_CFG.NEG_TMO : Fld := ⟨0x40060000, 0, 16, .rwt, 0x3E8⟩
/-- SBY_TMO.LOSS_TMO, bits 31 to 16 (10_hot_standby.md). -/
def SBY_TMO.LOSS_TMO : Fld := ⟨0x40060004, 16, 16, .rwt, 0x32⟩
/-- SBY_TMO.LAG, bits 15 to 0 (10_hot_standby.md). -/
def SBY_TMO.LAG : Fld := ⟨0x40060004, 0, 16, .rwt, 0x64⟩
/-- SBY_CTRL.RESET_PARTNER, bits 2 to 2 (10_hot_standby.md). -/
def SBY_CTRL.RESET_PARTNER : Fld := ⟨0x40060008, 2, 1, .wo, 0⟩
/-- SBY_CTRL.SYNC_REQ, bits 1 to 1 (10_hot_standby.md). -/
def SBY_CTRL.SYNC_REQ : Fld := ⟨0x40060008, 1, 1, .wo, 0⟩
/-- SBY_CTRL.HANDOVER, bits 0 to 0 (10_hot_standby.md). -/
def SBY_CTRL.HANDOVER : Fld := ⟨0x40060008, 0, 1, .wo, 0⟩
/-- SBY_STAT.LINK, bits 31 to 28 (10_hot_standby.md). -/
def SBY_STAT.LINK : Fld := ⟨0x4006000C, 28, 4, .ro, 0⟩
/-- SBY_STAT.ROLE_NOW, bits 27 to 26 (10_hot_standby.md). -/
def SBY_STAT.ROLE_NOW : Fld := ⟨0x4006000C, 26, 2, .ro, 0⟩
/-- SBY_STAT.SYNC, bits 25 to 25 (10_hot_standby.md). -/
def SBY_STAT.SYNC : Fld := ⟨0x4006000C, 25, 1, .ro, 0⟩
/-- SBY_STAT.XFER, bits 24 to 24 (10_hot_standby.md). -/
def SBY_STAT.XFER : Fld := ⟨0x4006000C, 24, 1, .ro, 0⟩
/-- SBY_STAT.PMODE, bits 23 to 20 (10_hot_standby.md). -/
def SBY_STAT.PMODE : Fld := ⟨0x4006000C, 20, 4, .ro, 0⟩
/-- SBY_STAT.PARTNER_LOST, bits 19 to 19 (10_hot_standby.md). -/
def SBY_STAT.PARTNER_LOST : Fld := ⟨0x4006000C, 19, 1, .w1c, 0⟩
/-- SBY_STAT.DIVERGENCE, bits 18 to 18 (10_hot_standby.md). -/
def SBY_STAT.DIVERGENCE : Fld := ⟨0x4006000C, 18, 1, .w1c, 0⟩
/-- SBY_STAT.CONFLICT, bits 17 to 17 (10_hot_standby.md). -/
def SBY_STAT.CONFLICT : Fld := ⟨0x4006000C, 17, 1, .w1c, 0⟩
/-- SBY_STAT.CPN_CONFLICT, bits 16 to 16 (10_hot_standby.md). -/
def SBY_STAT.CPN_CONFLICT : Fld := ⟨0x4006000C, 16, 1, .w1c, 0⟩
/-- SBY_STAT.OUTRANKED, bits 15 to 15 (10_hot_standby.md). -/
def SBY_STAT.OUTRANKED : Fld := ⟨0x4006000C, 15, 1, .w1c, 0⟩
/-- SBY_STAT.PARTNER_HALT, bits 14 to 14 (10_hot_standby.md). -/
def SBY_STAT.PARTNER_HALT : Fld := ⟨0x4006000C, 14, 1, .w1c, 0⟩
/-- SBY_STAT.STREAM_LOST, bits 13 to 13 (10_hot_standby.md). -/
def SBY_STAT.STREAM_LOST : Fld := ⟨0x4006000C, 13, 1, .w1c, 0⟩
/-- SBY_STAT.RSTREQ_REFUSED, bits 12 to 12 (10_hot_standby.md). -/
def SBY_STAT.RSTREQ_REFUSED : Fld := ⟨0x4006000C, 12, 1, .w1c, 0⟩
/-- SBY_STAT.DIV_OVF, bits 11 to 11 (10_hot_standby.md). -/
def SBY_STAT.DIV_OVF : Fld := ⟨0x4006000C, 11, 1, .w1c, 0⟩
/-- SBY_EPOCH.PARTNER, bits 31 to 16 (10_hot_standby.md). -/
def SBY_EPOCH.PARTNER : Fld := ⟨0x40060010, 16, 16, .ro, 0⟩
/-- SBY_EPOCH.OWN, bits 15 to 0 (10_hot_standby.md). -/
def SBY_EPOCH.OWN : Fld := ⟨0x40060010, 0, 16, .ro, 0⟩
/-- SBY_RTT.NS, bits 31 to 0 (10_hot_standby.md). -/
def SBY_RTT.NS : Fld := ⟨0x40060014, 0, 32, .ro, 0⟩
/-- SBY_LAGNOW.US, bits 31 to 0 (10_hot_standby.md). -/
def SBY_LAGNOW.US : Fld := ⟨0x40060018, 0, 32, .ro, 0⟩
/-- SBY_XFER.STATE, bits 31 to 30 (10_hot_standby.md). -/
def SBY_XFER.STATE : Fld := ⟨0x4006001C, 30, 2, .ro, 0⟩
/-- SBY_XFER.RESTARTS, bits 23 to 16 (10_hot_standby.md). -/
def SBY_XFER.RESTARTS : Fld := ⟨0x4006001C, 16, 8, .rc, 0⟩
/-- SBY_XFER.SENT, bits 15 to 0 (10_hot_standby.md). -/
def SBY_XFER.SENT : Fld := ⟨0x4006001C, 0, 16, .ro, 0⟩
/-- SBY_TKO.CAUSE, bits 31 to 30 (10_hot_standby.md). -/
def SBY_TKO.CAUSE : Fld := ⟨0x40060028, 30, 2, .ro, 0⟩
/-- SBY_TKO.ABANDONED, bits 29 to 16 (10_hot_standby.md). -/
def SBY_TKO.ABANDONED : Fld := ⟨0x40060028, 16, 14, .ro, 0⟩
/-- SBY_TKO.BOUND_US, bits 15 to 0 (10_hot_standby.md). -/
def SBY_TKO.BOUND_US : Fld := ⟨0x40060028, 0, 16, .ro, 0⟩
/-- SBY_CNT.DIVERGE, bits 31 to 16 (10_hot_standby.md). -/
def SBY_CNT.DIVERGE : Fld := ⟨0x4006002C, 16, 16, .rc, 0⟩
/-- SBY_CNT.TAKEOVERS, bits 15 to 0 (10_hot_standby.md). -/
def SBY_CNT.TAKEOVERS : Fld := ⟨0x4006002C, 0, 16, .ro, 0⟩
/-- SBY_LINKCNT.CRCERR, bits 31 to 16 (10_hot_standby.md). -/
def SBY_LINKCNT.CRCERR : Fld := ⟨0x40060030, 16, 16, .rc, 0⟩
/-- SBY_LINKCNT.RETX, bits 15 to 0 (10_hot_standby.md). -/
def SBY_LINKCNT.RETX : Fld := ⟨0x40060030, 0, 16, .rc, 0⟩
/-- SBY_DIVREC0.VALID, bits 31 to 31 (10_hot_standby.md). -/
def SBY_DIVREC0.VALID : Fld := ⟨0x40060020, 31, 1, .w1c, 0⟩
/-- SBY_DIVREC0.CAUSE, bits 30 to 28 (10_hot_standby.md). -/
def SBY_DIVREC0.CAUSE : Fld := ⟨0x40060020, 28, 3, .ro, 0⟩
/-- SBY_DIVREC0.TASK, bits 26 to 24 (10_hot_standby.md). -/
def SBY_DIVREC0.TASK : Fld := ⟨0x40060020, 24, 3, .ro, 0⟩
/-- SBY_DIVREC1.SCAN, bits 31 to 0 (10_hot_standby.md). -/
def SBY_DIVREC1.SCAN : Fld := ⟨0x40060024, 0, 32, .ro, 0⟩
/-- CLS_CTRL.DEFACT, bits 31 to 31 (11_ingress_classifier.md). -/
def CLS_CTRL.DEFACT : Fld := ⟨0x40070000, 31, 1, .rwt, 0⟩
/-- CLS_CTRL.DEFMBX, bits 27 to 24 (11_ingress_classifier.md). -/
def CLS_CTRL.DEFMBX : Fld := ⟨0x40070000, 24, 4, .rwt, 0⟩
/-- CLS_CTRL.PAYPORTS, bits 3 to 0 (11_ingress_classifier.md). -/
def CLS_CTRL.PAYPORTS : Fld := ⟨0x40070000, 0, 4, .rwt, 0⟩
/-- CLS_STAT.BANK, bits 31 to 31 (11_ingress_classifier.md). -/
def CLS_STAT.BANK : Fld := ⟨0x40070004, 31, 1, .ro, 0⟩
/-- CLS_STAT.PAUSED, bits 30 to 30 (11_ingress_classifier.md). -/
def CLS_STAT.PAUSED : Fld := ⟨0x40070004, 30, 1, .ro, 0⟩
/-- CLS_STAT.RULE_ECC, bits 29 to 29 (11_ingress_classifier.md). -/
def CLS_STAT.RULE_ECC : Fld := ⟨0x40070004, 29, 1, .w1c, 0⟩
/-- CLS_STAT.CNT_OVF, bits 28 to 28 (11_ingress_classifier.md). -/
def CLS_STAT.CNT_OVF : Fld := ⟨0x40070004, 28, 1, .w1c, 0⟩
/-- CLS_STAT.PAUSE_DROP, bits 27 to 27 (11_ingress_classifier.md). -/
def CLS_STAT.PAUSE_DROP : Fld := ⟨0x40070004, 27, 1, .w1c, 0⟩
/-- CLS_PARSE.C37_TCP, bits 31 to 16 (11_ingress_classifier.md). -/
def CLS_PARSE.C37_TCP : Fld := ⟨0x40070008, 16, 16, .rwt, 0x1268⟩
/-- CLS_PARSE.C37_UDP, bits 15 to 0 (11_ingress_classifier.md). -/
def CLS_PARSE.C37_UDP : Fld := ⟨0x40070008, 0, 16, .rwt, 0x1269⟩
/-- CLS_TADCFG.TMO, bits 7 to 0 (11_ingress_classifier.md). -/
def CLS_TADCFG.TMO : Fld := ⟨0x4007000C, 0, 8, .rwt, 0x3C⟩
/-- CLS_RED.MODE1, bits 31 to 30 (11_ingress_classifier.md). -/
def CLS_RED.MODE1 : Fld := ⟨0x40070010, 30, 2, .rwt, 0⟩
/-- CLS_RED.MODE0, bits 29 to 28 (11_ingress_classifier.md). -/
def CLS_RED.MODE0 : Fld := ⟨0x40070010, 28, 2, .rwt, 0⟩
/-- CLS_RED.FORGET, bits 15 to 0 (11_ingress_classifier.md). -/
def CLS_RED.FORGET : Fld := ⟨0x40070010, 0, 16, .rwt, 0x190⟩
/-- CLS_TADCNT0.FULL, bits 31 to 16 (11_ingress_classifier.md). -/
def CLS_TADCNT0.FULL : Fld := ⟨0x40070014, 16, 16, .rc, 0⟩
/-- CLS_TADCNT0.ORPH_DROP, bits 15 to 0 (11_ingress_classifier.md). -/
def CLS_TADCNT0.ORPH_DROP : Fld := ⟨0x40070014, 0, 16, .rc, 0⟩
/-- CLS_TADCNT1.ORPH_TMO, bits 15 to 0 (11_ingress_classifier.md). -/
def CLS_TADCNT1.ORPH_TMO : Fld := ⟨0x40070018, 0, 16, .rc, 0⟩
/-- CLS_TADSTAT.USED, bits 31 to 24 (11_ingress_classifier.md). -/
def CLS_TADSTAT.USED : Fld := ⟨0x4007001C, 24, 8, .ro, 0⟩
/-- CLS_TADSTAT.HELD, bits 23 to 16 (11_ingress_classifier.md). -/
def CLS_TADSTAT.HELD : Fld := ⟨0x4007001C, 16, 8, .ro, 0⟩
/-- CLS_RSEL.INDEX, bits 9 to 0 (11_ingress_classifier.md). -/
def CLS_RSEL.INDEX : Fld := ⟨0x40070020, 0, 10, .rw, 0⟩
/-- CLS_ECCREC.VALID, bits 31 to 31 (11_ingress_classifier.md). -/
def CLS_ECCREC.VALID : Fld := ⟨0x40070024, 31, 1, .w1c, 0⟩
/-- CLS_ECCREC.PAT, bits 30 to 30 (11_ingress_classifier.md). -/
def CLS_ECCREC.PAT : Fld := ⟨0x40070024, 30, 1, .ro, 0⟩
/-- CLS_ECCREC.INDEX, bits 9 to 0 (11_ingress_classifier.md). -/
def CLS_ECCREC.INDEX : Fld := ⟨0x40070024, 0, 10, .ro, 0⟩
/-- CLS_DEFCNT.CNT, bits 31 to 0 (11_ingress_classifier.md). -/
def CLS_DEFCNT.CNT : Fld := ⟨0x40070028, 0, 32, .rc, 0⟩
/-- CLS_RW.W, bits 31 to 0 (11_ingress_classifier.md). -/
def CLS_RW.W (i : Nat) : Fld := ⟨0x40070040 + 0x4 * i, 0, 32, .rwt, 0⟩
/-- CLS_RW15.HITS, bits 31 to 0: word 15 of the rule is read-only and never staged (11_ingress_classifier.md, R319). -/
def CLS_RW15.HITS : Fld := ⟨0x4007007C, 0, 32, .ro, 0⟩
/-- CLS_P_CFG.EN, bits 31 to 31 (11_ingress_classifier.md). -/
def CLS_P_CFG.EN (i : Nat) : Fld := ⟨0x40070100 + 0x20 * i, 31, 1, .rwt, 0⟩
/-- CLS_P_CFG.IF, bits 30 to 30 (11_ingress_classifier.md). -/
def CLS_P_CFG.IF (i : Nat) : Fld := ⟨0x40070100 + 0x20 * i, 30, 1, .rwt, 0⟩
/-- CLS_P_CFG.SPEED, bits 29 to 28 (11_ingress_classifier.md). -/
def CLS_P_CFG.SPEED (i : Nat) : Fld := ⟨0x40070100 + 0x20 * i, 28, 2, .rwt, 0⟩
/-- CLS_P_PSTAT.LINK, bits 31 to 31 (11_ingress_classifier.md). -/
def CLS_P_PSTAT.LINK (i : Nat) : Fld := ⟨0x40070104 + 0x20 * i, 31, 1, .ro, 0⟩
/-- CLS_P_PSTAT.SPD, bits 30 to 29 (11_ingress_classifier.md). -/
def CLS_P_PSTAT.SPD (i : Nat) : Fld := ⟨0x40070104 + 0x20 * i, 29, 2, .ro, 0⟩
/-- CLS_P_RXOK.CNT, bits 31 to 0 (11_ingress_classifier.md). -/
def CLS_P_RXOK.CNT (i : Nat) : Fld := ⟨0x40070108 + 0x20 * i, 0, 32, .ro, 0⟩
/-- CLS_P_RXDROP.CNT, bits 31 to 0 (11_ingress_classifier.md). -/
def CLS_P_RXDROP.CNT (i : Nat) : Fld := ⟨0x4007010C + 0x20 * i, 0, 32, .rc, 0⟩
/-- CLS_P_NOMATCH.CNT, bits 31 to 0 (11_ingress_classifier.md). -/
def CLS_P_NOMATCH.CNT (i : Nat) : Fld := ⟨0x40070110 + 0x20 * i, 0, 32, .rc, 0⟩
/-- CLS_P_DUPDISC.CNT, bits 31 to 0 (11_ingress_classifier.md). -/
def CLS_P_DUPDISC.CNT (i : Nat) : Fld := ⟨0x40070114 + 0x20 * i, 0, 32, .rc, 0⟩
/-- CLS_P_TRIPSUP.CNT, bits 31 to 0 (11_ingress_classifier.md). -/
def CLS_P_TRIPSUP.CNT (i : Nat) : Fld := ⟨0x40070118 + 0x20 * i, 0, 32, .rc, 0⟩
/-- CLS_P_PCNT.PAUSEDROP, bits 31 to 16 (11_ingress_classifier.md). -/
def CLS_P_PCNT.PAUSEDROP (i : Nat) : Fld := ⟨0x4007011C + 0x20 * i, 16, 16, .rc, 0⟩
/-- CLS_P_PCNT.PAYSKIP, bits 15 to 0 (11_ingress_classifier.md). -/
def CLS_P_PCNT.PAYSKIP (i : Nat) : Fld := ⟨0x4007011C + 0x20 * i, 0, 16, .rc, 0⟩
/-- CLS_S_HDR.EN, bits 31 to 31 (11_ingress_classifier.md). -/
def CLS_S_HDR.EN (i : Nat) : Fld := ⟨0x40070800 + 0x20 * i, 31, 1, .rwt, 0⟩
/-- CLS_S_HDR.FLOAT, bits 30 to 30 (11_ingress_classifier.md). -/
def CLS_S_HDR.FLOAT (i : Nat) : Fld := ⟨0x40070800 + 0x20 * i, 30, 1, .rwt, 1⟩
/-- CLS_S_HDR.ADDR, bits 18 to 0 (11_ingress_classifier.md). -/
def CLS_S_HDR.ADDR (i : Nat) : Fld := ⟨0x40070800 + 0x20 * i, 0, 19, .rwt, 0⟩
/-- CLS_S_RING.RLEN, bits 31 to 23 (11_ingress_classifier.md). -/
def CLS_S_RING.RLEN (i : Nat) : Fld := ⟨0x40070804 + 0x20 * i, 23, 9, .rwt, 0⟩
/-- CLS_S_RING.ADDR, bits 18 to 0 (11_ingress_classifier.md). -/
def CLS_S_RING.ADDR (i : Nat) : Fld := ⟨0x40070804 + 0x20 * i, 0, 19, .rwt, 0⟩
/-- CLS_S_CFG.SMPWRAP, bits 31 to 16 (11_ingress_classifier.md). -/
def CLS_S_CFG.SMPWRAP (i : Nat) : Fld := ⟨0x40070808 + 0x20 * i, 16, 16, .rwt, 0xFA0⟩
/-- CLS_S_CFG.NCHM1, bits 11 to 8 (11_ingress_classifier.md). -/
def CLS_S_CFG.NCHM1 (i : Nat) : Fld := ⟨0x40070808 + 0x20 * i, 8, 4, .rwt, 7⟩
/-- CLS_S_CONFREV.REV, bits 31 to 0 (11_ingress_classifier.md). -/
def CLS_S_CONFREV.REV (i : Nat) : Fld := ⟨0x4007080C + 0x20 * i, 0, 32, .rwt, 0⟩
/-- CLS_S_CNT0.GAPS, bits 31 to 16 (11_ingress_classifier.md). -/
def CLS_S_CNT0.GAPS (i : Nat) : Fld := ⟨0x40070810 + 0x20 * i, 16, 16, .rc, 0⟩
/-- CLS_S_CNT0.OLD, bits 15 to 0 (11_ingress_classifier.md). -/
def CLS_S_CNT0.OLD (i : Nat) : Fld := ⟨0x40070810 + 0x20 * i, 0, 16, .rc, 0⟩
/-- CLS_S_CNT1.CREV, bits 31 to 16 (11_ingress_classifier.md). -/
def CLS_S_CNT1.CREV (i : Nat) : Fld := ⟨0x40070814 + 0x20 * i, 16, 16, .rc, 0⟩
/-- CLS_S_CNT1.FMT, bits 15 to 0 (11_ingress_classifier.md). -/
def CLS_S_CNT1.FMT (i : Nat) : Fld := ⟨0x40070814 + 0x20 * i, 0, 16, .rc, 0⟩
/-- CLS_SCALE.S, bits 31 to 0 (11_ingress_classifier.md). -/
def CLS_SCALE.S (i : Nat) (j : Nat) : Fld := ⟨0x40071000 + 0x40 * i + 0x4 * j, 0, 32, .rwt, 0x3F800000⟩
/-- CLS_PAT_B.W, bits 31 to 0 (11_ingress_classifier.md). -/
def CLS_PAT_B.W (i : Nat) (j : Nat) : Fld := ⟨0x40072000 + 0x40 * i + 0x4 * j, 0, 32, .rwt, 0⟩
/-- CLS_PAT_C.VALID, bits 31 to 31 (11_ingress_classifier.md). -/
def CLS_PAT_C.VALID (i : Nat) : Fld := ⟨0x40072020 + 0x40 * i, 31, 1, .rwt, 0⟩
/-- CLS_PAT_C.LEN, bits 21 to 16 (11_ingress_classifier.md). -/
def CLS_PAT_C.LEN (i : Nat) : Fld := ⟨0x40072020 + 0x40 * i, 16, 6, .rwt, 0⟩
/-- EGR_CTRL.SYSQ, bits 6 to 4 (12_egress_shaper.md). -/
def EGR_CTRL.SYSQ : Fld := ⟨0x40080000, 4, 3, .rwt, 7⟩
/-- EGR_STAT.CNT_OVF, bits 31 to 31 (12_egress_shaper.md). -/
def EGR_STAT.CNT_OVF : Fld := ⟨0x40080004, 31, 1, .w1c, 0⟩
/-- EGR_STAT.GCL_ECC, bits 30 to 30 (12_egress_shaper.md). -/
def EGR_STAT.GCL_ECC : Fld := ⟨0x40080004, 30, 1, .w1c, 0⟩
/-- EGR_STAT.PUB_ECC, bits 29 to 29 (12_egress_shaper.md). -/
def EGR_STAT.PUB_ECC : Fld := ⟨0x40080004, 29, 1, .w1c, 0⟩
/-- EGR_REDSEQ.SEQ1, bits 31 to 16 (12_egress_shaper.md). -/
def EGR_REDSEQ.SEQ1 : Fld := ⟨0x40080008, 16, 16, .ro, 0⟩
/-- EGR_REDSEQ.SEQ0, bits 15 to 0 (12_egress_shaper.md). -/
def EGR_REDSEQ.SEQ0 : Fld := ⟨0x40080008, 0, 16, .ro, 0⟩
/-- EGR_ECCREC.VALID, bits 31 to 31 (12_egress_shaper.md). -/
def EGR_ECCREC.VALID : Fld := ⟨0x4008000C, 31, 1, .w1c, 0⟩
/-- EGR_ECCREC.PUB, bits 30 to 30 (12_egress_shaper.md). -/
def EGR_ECCREC.PUB : Fld := ⟨0x4008000C, 30, 1, .ro, 0⟩
/-- EGR_ECCREC.PORT, bits 9 to 8 (12_egress_shaper.md). -/
def EGR_ECCREC.PORT : Fld := ⟨0x4008000C, 8, 2, .ro, 0⟩
/-- EGR_ECCREC.SLOT, bits 3 to 0 (12_egress_shaper.md). -/
def EGR_ECCREC.SLOT : Fld := ⟨0x4008000C, 0, 4, .ro, 0⟩
/-- EGR_PCFG.SPD, bits 30 to 29 (12_egress_shaper.md). -/
def EGR_PCFG.SPD (i : Nat) : Fld := ⟨0x40080100 + 0x100 * i, 29, 2, .ro, 0⟩
/-- EGR_PCFG.RINGQ, bits 6 to 4 (12_egress_shaper.md). -/
def EGR_PCFG.RINGQ (i : Nat) : Fld := ⟨0x40080100 + 0x100 * i, 4, 3, .rwt, 5⟩
/-- EGR_PCFG.CUT_EN, bits 0 to 0 (12_egress_shaper.md). -/
def EGR_PCFG.CUT_EN (i : Nat) : Fld := ⟨0x40080100 + 0x100 * i, 0, 1, .rwt, 0⟩
/-- EGR_TXOK.CNT, bits 31 to 0 (12_egress_shaper.md). -/
def EGR_TXOK.CNT (i : Nat) : Fld := ⟨0x40080104 + 0x100 * i, 0, 32, .ro, 0⟩
/-- EGR_ERRCNT.STOMP, bits 31 to 16 (12_egress_shaper.md). -/
def EGR_ERRCNT.STOMP (i : Nat) : Fld := ⟨0x40080108 + 0x100 * i, 16, 16, .rc, 0⟩
/-- EGR_ERRCNT.OVERSIZE, bits 15 to 0 (12_egress_shaper.md). -/
def EGR_ERRCNT.OVERSIZE (i : Nat) : Fld := ⟨0x40080108 + 0x100 * i, 0, 16, .rc, 0⟩
/-- EGR_MODEDISC.CNT, bits 31 to 0 (12_egress_shaper.md). -/
def EGR_MODEDISC.CNT (i : Nat) : Fld := ⟨0x4008010C + 0x100 * i, 0, 32, .rc, 0⟩
/-- EGR_GCL.EN, bits 31 to 31 (12_egress_shaper.md). -/
def EGR_GCL.EN (i : Nat) : Fld := ⟨0x40080110 + 0x100 * i, 31, 1, .rwt, 0⟩
/-- EGR_GCL.LEN, bits 8 to 0 (12_egress_shaper.md). -/
def EGR_GCL.LEN (i : Nat) : Fld := ⟨0x40080110 + 0x100 * i, 0, 9, .rwt, 0⟩
/-- EGR_GCYCLE.NS, bits 29 to 0 (12_egress_shaper.md). -/
def EGR_GCYCLE.NS (i : Nat) : Fld := ⟨0x40080114 + 0x100 * i, 0, 30, .rwt, 0xF4240⟩
/-- EGR_GBASE_S.SEC, bits 31 to 0 (12_egress_shaper.md). -/
def EGR_GBASE_S.SEC (i : Nat) : Fld := ⟨0x40080118 + 0x100 * i, 0, 32, .rwt, 0⟩
/-- EGR_GBASE_NS.NS, bits 29 to 0 (12_egress_shaper.md). -/
def EGR_GBASE_NS.NS (i : Nat) : Fld := ⟨0x4008011C + 0x100 * i, 0, 30, .rwt, 0⟩
/-- EGR_GSTAT.PENDING, bits 31 to 31 (12_egress_shaper.md). -/
def EGR_GSTAT.PENDING (i : Nat) : Fld := ⟨0x40080120 + 0x100 * i, 31, 1, .ro, 0⟩
/-- EGR_GSTAT.GATES, bits 7 to 0 (12_egress_shaper.md). -/
def EGR_GSTAT.GATES (i : Nat) : Fld := ⟨0x40080120 + 0x100 * i, 0, 8, .ro, 0xFF⟩
/-- EGR_QCFG.BURST, bits 31 to 15 (12_egress_shaper.md). -/
def EGR_QCFG.BURST (i : Nat) (j : Nat) : Fld := ⟨0x40080140 + 0x100 * i + 0x10 * j, 15, 17, .rwt, 0x4000⟩
/-- EGR_QCFG.LIMIT, bits 7 to 0 (12_egress_shaper.md). -/
def EGR_QCFG.LIMIT (i : Nat) (j : Nat) : Fld := ⟨0x40080140 + 0x100 * i + 0x10 * j, 0, 8, .rwt, 0x20⟩
/-- EGR_TB.EN, bits 31 to 31 (12_egress_shaper.md). -/
def EGR_TB.EN (i : Nat) (j : Nat) : Fld := ⟨0x40080144 + 0x100 * i + 0x10 * j, 31, 1, .rwt, 0⟩
/-- EGR_TB.RATE, bits 19 to 0 (12_egress_shaper.md). -/
def EGR_TB.RATE (i : Nat) (j : Nat) : Fld := ⟨0x40080144 + 0x100 * i + 0x10 * j, 0, 20, .rwt, 0⟩
/-- EGR_QSTAT.DEPTH, bits 31 to 24 (12_egress_shaper.md). -/
def EGR_QSTAT.DEPTH (i : Nat) (j : Nat) : Fld := ⟨0x40080148 + 0x100 * i + 0x10 * j, 24, 8, .ro, 0⟩
/-- EGR_QSTAT.TOKENS, bits 16 to 0 (12_egress_shaper.md). -/
def EGR_QSTAT.TOKENS (i : Nat) (j : Nat) : Fld := ⟨0x40080148 + 0x100 * i + 0x10 * j, 0, 17, .ro, 0⟩
/-- EGR_DROP.CNT, bits 31 to 0 (12_egress_shaper.md). -/
def EGR_DROP.CNT (i : Nat) (j : Nat) : Fld := ⟨0x4008014C + 0x100 * i + 0x10 * j, 0, 32, .rc, 0⟩
/-- EGR_GATE.W, bits 31 to 0 (12_egress_shaper.md). -/
def EGR_GATE.W (i : Nat) (j : Nat) (l : Nat) : Fld := ⟨0x40081000 + 0x800 * i + 0x8 * j + 0x4 * l, 0, 32, .rwt, 0⟩
/-- EGR_SLOT_CFG.EN, bits 31 to 31 (12_egress_shaper.md). -/
def EGR_SLOT_CFG.EN (i : Nat) : Fld := ⟨0x40084000 + 0x100 * i, 31, 1, .rwt, 0⟩
/-- EGR_SLOT_CFG.KIND, bits 30 to 30 (12_egress_shaper.md). -/
def EGR_SLOT_CFG.KIND (i : Nat) : Fld := ⟨0x40084000 + 0x100 * i, 30, 1, .rwt, 0⟩
/-- EGR_SLOT_CFG.LEN, bits 26 to 16 (12_egress_shaper.md). -/
def EGR_SLOT_CFG.LEN (i : Nat) : Fld := ⟨0x40084000 + 0x100 * i, 16, 11, .rwt, 0⟩
/-- EGR_SLOT_CFG.QUEUE, bits 6 to 4 (12_egress_shaper.md). -/
def EGR_SLOT_CFG.QUEUE (i : Nat) : Fld := ⟨0x40084000 + 0x100 * i, 4, 3, .rwt, 7⟩
/-- EGR_SLOT_CFG.PORTS, bits 3 to 0 (12_egress_shaper.md). -/
def EGR_SLOT_CFG.PORTS (i : Nat) : Fld := ⟨0x40084000 + 0x100 * i, 0, 4, .rwt, 0⟩
/-- EGR_SLOT_TIMING.TMAX, bits 31 to 16 (12_egress_shaper.md). -/
def EGR_SLOT_TIMING.TMAX (i : Nat) : Fld := ⟨0x40084004 + 0x100 * i, 16, 16, .rwt, 0x3E8⟩
/-- EGR_SLOT_TIMING.TMIN, bits 15 to 0 (12_egress_shaper.md). -/
def EGR_SLOT_TIMING.TMIN (i : Nat) : Fld := ⟨0x40084004 + 0x100 * i, 0, 16, .rwt, 0x3E8⟩
/-- EGR_SLOT_OFFS0.STNUM, bits 26 to 16 (12_egress_shaper.md). -/
def EGR_SLOT_OFFS0.STNUM (i : Nat) : Fld := ⟨0x40084008 + 0x100 * i, 16, 11, .rwt, 0x7FF⟩
/-- EGR_SLOT_OFFS0.SQNUM, bits 10 to 0 (12_egress_shaper.md). -/
def EGR_SLOT_OFFS0.SQNUM (i : Nat) : Fld := ⟨0x40084008 + 0x100 * i, 0, 11, .rwt, 0x7FF⟩
/-- EGR_SLOT_OFFS1.TAL, bits 26 to 16 (12_egress_shaper.md). -/
def EGR_SLOT_OFFS1.TAL (i : Nat) : Fld := ⟨0x4008400C + 0x100 * i, 16, 11, .rwt, 0x7FF⟩
/-- EGR_SLOT_OFFS1.T, bits 10 to 0 (12_egress_shaper.md). -/
def EGR_SLOT_OFFS1.T (i : Nat) : Fld := ⟨0x4008400C + 0x100 * i, 0, 11, .rwt, 0x7FF⟩
/-- EGR_SLOT_STAT.STNUM, bits 31 to 0 (12_egress_shaper.md). -/
def EGR_SLOT_STAT.STNUM (i : Nat) : Fld := ⟨0x40084010 + 0x100 * i, 0, 32, .ro, 0⟩
/-- EGR_SLOT_SQ.REPLACED, bits 31 to 16 (12_egress_shaper.md). -/
def EGR_SLOT_SQ.REPLACED (i : Nat) : Fld := ⟨0x40084014 + 0x100 * i, 16, 16, .ro, 0⟩
/-- EGR_SLOT_SQ.SQNUM, bits 15 to 0 (12_egress_shaper.md). -/
def EGR_SLOT_SQ.SQNUM (i : Nat) : Fld := ⟨0x40084014 + 0x100 * i, 0, 16, .ro, 0⟩
/-- EGR_ELEM.VALID, bits 31 to 31 (12_egress_shaper.md). -/
def EGR_ELEM.VALID (i : Nat) (j : Nat) : Fld := ⟨0x40084080 + 0x100 * i + 0x4 * j, 31, 1, .rwt, 0⟩
/-- EGR_ELEM.ENC, bits 13 to 12 (12_egress_shaper.md). -/
def EGR_ELEM.ENC (i : Nat) (j : Nat) : Fld := ⟨0x40084080 + 0x100 * i + 0x4 * j, 12, 2, .rwt, 0⟩
/-- EGR_ELEM.OFFSET, bits 10 to 0 (12_egress_shaper.md). -/
def EGR_ELEM.OFFSET (i : Nat) (j : Nat) : Fld := ⟨0x40084080 + 0x100 * i + 0x4 * j, 0, 11, .rwt, 0⟩
/-- EGR_TMPL.W, bits 31 to 0 (12_egress_shaper.md). -/
def EGR_TMPL.W (i : Nat) (j : Nat) : Fld := ⟨0x40088000 + 0x800 * i + 0x4 * j, 0, 32, .rwt, 0⟩
/-- CAN_CTRL.EN, bits 31 to 31 (13_priority_bus.md). -/
def CAN_CTRL.EN (i : Nat) : Fld := ⟨0x40090000 + 0x8000 * i, 31, 1, .rwt, 0⟩
/-- CAN_CTRL.MODE, bits 30 to 30 (13_priority_bus.md). -/
def CAN_CTRL.MODE (i : Nat) : Fld := ⟨0x40090000 + 0x8000 * i, 30, 1, .rwt, 0⟩
/-- CAN_CTRL.TXPRIO, bits 29 to 29 (13_priority_bus.md). -/
def CAN_CTRL.TXPRIO (i : Nat) : Fld := ⟨0x40090000 + 0x8000 * i, 29, 1, .rwt, 0⟩
/-- CAN_CTRL.FD_EN, bits 28 to 28 (13_priority_bus.md). -/
def CAN_CTRL.FD_EN (i : Nat) : Fld := ⟨0x40090000 + 0x8000 * i, 28, 1, .rwt, 0⟩
/-- CAN_CTRL.HPB_IE, bits 27 to 27 (13_priority_bus.md). -/
def CAN_CTRL.HPB_IE (i : Nat) : Fld := ⟨0x40090000 + 0x8000 * i, 27, 1, .rw, 1⟩
/-- CAN_CTRL.REF_IN_STOP, bits 26 to 26 (13_priority_bus.md). -/
def CAN_CTRL.REF_IN_STOP (i : Nat) : Fld := ⟨0x40090000 + 0x8000 * i, 26, 1, .rwt, 0⟩
/-- CAN_NBT.NBRPM1, bits 31 to 24 (13_priority_bus.md). -/
def CAN_NBT.NBRPM1 (i : Nat) : Fld := ⟨0x40090004 + 0x8000 * i, 24, 8, .rwt, 1⟩
/-- CAN_NBT.NTSEG1M1, bits 23 to 16 (13_priority_bus.md). -/
def CAN_NBT.NTSEG1M1 (i : Nat) : Fld := ⟨0x40090004 + 0x8000 * i, 16, 8, .rwt, 0x3E⟩
/-- CAN_NBT.NTSEG2M1, bits 14 to 8 (13_priority_bus.md). -/
def CAN_NBT.NTSEG2M1 (i : Nat) : Fld := ⟨0x40090004 + 0x8000 * i, 8, 7, .rwt, 0xF⟩
/-- CAN_NBT.NSJWM1, bits 6 to 0 (13_priority_bus.md). -/
def CAN_NBT.NSJWM1 (i : Nat) : Fld := ⟨0x40090004 + 0x8000 * i, 0, 7, .rwt, 0xF⟩
/-- CAN_DBT.TDC_EN, bits 31 to 31 (13_priority_bus.md). -/
def CAN_DBT.TDC_EN (i : Nat) : Fld := ⟨0x40090008 + 0x8000 * i, 31, 1, .rwt, 0⟩
/-- CAN_DBT.TDCO, bits 30 to 24 (13_priority_bus.md). -/
def CAN_DBT.TDCO (i : Nat) : Fld := ⟨0x40090008 + 0x8000 * i, 24, 7, .rwt, 0⟩
/-- CAN_DBT.DBRPM1, bits 20 to 16 (13_priority_bus.md). -/
def CAN_DBT.DBRPM1 (i : Nat) : Fld := ⟨0x40090008 + 0x8000 * i, 16, 5, .rwt, 0⟩
/-- CAN_DBT.DTSEG1M1, bits 12 to 8 (13_priority_bus.md). -/
def CAN_DBT.DTSEG1M1 (i : Nat) : Fld := ⟨0x40090008 + 0x8000 * i, 8, 5, .rwt, 0x1E⟩
/-- CAN_DBT.DTSEG2M1, bits 7 to 4 (13_priority_bus.md). -/
def CAN_DBT.DTSEG2M1 (i : Nat) : Fld := ⟨0x40090008 + 0x8000 * i, 4, 4, .rwt, 7⟩
/-- CAN_DBT.DSJWM1, bits 3 to 0 (13_priority_bus.md). -/
def CAN_DBT.DSJWM1 (i : Nat) : Fld := ⟨0x40090008 + 0x8000 * i, 0, 4, .rwt, 7⟩
/-- CAN_STAT.ERRSTATE, bits 31 to 30 (13_priority_bus.md). -/
def CAN_STAT.ERRSTATE (i : Nat) : Fld := ⟨0x4009000C + 0x8000 * i, 30, 2, .ro, 0⟩
/-- CAN_STAT.PEX, bits 20 to 20 (13_priority_bus.md). -/
def CAN_STAT.PEX (i : Nat) : Fld := ⟨0x4009000C + 0x8000 * i, 20, 1, .w1c, 0⟩
/-- CAN_STAT.RXOVF, bits 19 to 19 (13_priority_bus.md). -/
def CAN_STAT.RXOVF (i : Nat) : Fld := ⟨0x4009000C + 0x8000 * i, 19, 1, .w1c, 0⟩
/-- CAN_STAT.HPB_SPILL, bits 18 to 18 (13_priority_bus.md). -/
def CAN_STAT.HPB_SPILL (i : Nat) : Fld := ⟨0x4009000C + 0x8000 * i, 18, 1, .w1c, 0⟩
/-- CAN_STAT.CANCEL_LATE, bits 17 to 17 (13_priority_bus.md). -/
def CAN_STAT.CANCEL_LATE (i : Nat) : Fld := ⟨0x4009000C + 0x8000 * i, 17, 1, .w1c, 0⟩
/-- CAN_STAT.BUSOFF_SEEN, bits 16 to 16 (13_priority_bus.md). -/
def CAN_STAT.BUSOFF_SEEN (i : Nat) : Fld := ⟨0x4009000C + 0x8000 * i, 16, 1, .w1c, 0⟩
/-- CAN_STAT.CNT_OVF, bits 15 to 15 (13_priority_bus.md). -/
def CAN_STAT.CNT_OVF (i : Nat) : Fld := ⟨0x4009000C + 0x8000 * i, 15, 1, .w1c, 0⟩
/-- CAN_STAT.REF_LOST, bits 14 to 14 (13_priority_bus.md). -/
def CAN_STAT.REF_LOST (i : Nat) : Fld := ⟨0x4009000C + 0x8000 * i, 14, 1, .w1c, 0⟩
/-- CAN_ERRCNT.TEC, bits 24 to 16 (13_priority_bus.md). -/
def CAN_ERRCNT.TEC (i : Nat) : Fld := ⟨0x40090010 + 0x8000 * i, 16, 9, .ro, 0⟩
/-- CAN_ERRCNT.REC, bits 7 to 0 (13_priority_bus.md). -/
def CAN_ERRCNT.REC (i : Nat) : Fld := ⟨0x40090010 + 0x8000 * i, 0, 8, .ro, 0⟩
/-- CAN_CNT0.BUSOFF, bits 31 to 16 (13_priority_bus.md). -/
def CAN_CNT0.BUSOFF (i : Nat) : Fld := ⟨0x40090014 + 0x8000 * i, 16, 16, .rc, 0⟩
/-- CAN_CNT0.NOMATCH, bits 15 to 0 (13_priority_bus.md). -/
def CAN_CNT0.NOMATCH (i : Nat) : Fld := ⟨0x40090014 + 0x8000 * i, 0, 16, .rc, 0⟩
/-- CAN_CNT1.RXOVF, bits 31 to 16 (13_priority_bus.md). -/
def CAN_CNT1.RXOVF (i : Nat) : Fld := ⟨0x40090018 + 0x8000 * i, 16, 16, .rc, 0⟩
/-- CAN_CNT1.TXDROP, bits 15 to 0 (13_priority_bus.md). -/
def CAN_CNT1.TXDROP (i : Nat) : Fld := ⟨0x40090018 + 0x8000 * i, 0, 16, .rc, 0⟩
/-- CAN_CNT2.DUPSEG, bits 31 to 16 (13_priority_bus.md). -/
def CAN_CNT2.DUPSEG (i : Nat) : Fld := ⟨0x4009001C + 0x8000 * i, 16, 16, .rc, 0⟩
/-- CAN_CNT2.SEGERR, bits 15 to 8 (13_priority_bus.md). -/
def CAN_CNT2.SEGERR (i : Nat) : Fld := ⟨0x4009001C + 0x8000 * i, 8, 8, .rc, 0⟩
/-- CAN_CNT2.CTXFULL, bits 7 to 0 (13_priority_bus.md). -/
def CAN_CNT2.CTXFULL (i : Nat) : Fld := ⟨0x4009001C + 0x8000 * i, 0, 8, .rc, 0⟩
/-- CAN_TBSTAT.STATE_0, bits 1 to 0 (13_priority_bus.md). -/
def CAN_TBSTAT.STATE_0 (i : Nat) : Fld := ⟨0x40090020 + 0x8000 * i, 0, 2, .ro, 0⟩
/-- CAN_TBSTAT.LAST_0, bits 4 to 2 (13_priority_bus.md). -/
def CAN_TBSTAT.LAST_0 (i : Nat) : Fld := ⟨0x40090020 + 0x8000 * i, 2, 3, .ro, 0⟩
/-- CAN_TBSTAT.STATE_1, bits 9 to 8 (13_priority_bus.md). -/
def CAN_TBSTAT.STATE_1 (i : Nat) : Fld := ⟨0x40090020 + 0x8000 * i, 8, 2, .ro, 0⟩
/-- CAN_TBSTAT.LAST_1, bits 12 to 10 (13_priority_bus.md). -/
def CAN_TBSTAT.LAST_1 (i : Nat) : Fld := ⟨0x40090020 + 0x8000 * i, 10, 3, .ro, 0⟩
/-- CAN_TBSTAT.STATE_2, bits 17 to 16 (13_priority_bus.md). -/
def CAN_TBSTAT.STATE_2 (i : Nat) : Fld := ⟨0x40090020 + 0x8000 * i, 16, 2, .ro, 0⟩
/-- CAN_TBSTAT.LAST_2, bits 20 to 18 (13_priority_bus.md). -/
def CAN_TBSTAT.LAST_2 (i : Nat) : Fld := ⟨0x40090020 + 0x8000 * i, 18, 3, .ro, 0⟩
/-- CAN_TBCTL.CANCEL, bits 2 to 0 (13_priority_bus.md). -/
def CAN_TBCTL.CANCEL (i : Nat) : Fld := ⟨0x40090024 + 0x8000 * i, 0, 3, .wo, 0⟩
/-- CAN_TTCFG.MASTER, bits 31 to 31 (13_priority_bus.md). -/
def CAN_TTCFG.MASTER (i : Nat) : Fld := ⟨0x40090028 + 0x8000 * i, 31, 1, .rwt, 0⟩
/-- CAN_TTCFG.ALIGN, bits 30 to 30 (13_priority_bus.md). -/
def CAN_TTCFG.ALIGN (i : Nat) : Fld := ⟨0x40090028 + 0x8000 * i, 30, 1, .rwt, 0⟩
/-- CAN_TTCFG.MCYCE, bits 29 to 27 (13_priority_bus.md). -/
def CAN_TTCFG.MCYCE (i : Nat) : Fld := ⟨0x40090028 + 0x8000 * i, 27, 3, .rwt, 0⟩
/-- CAN_TTCFG.TXENM1, bits 26 to 23 (13_priority_bus.md). -/
def CAN_TTCFG.TXENM1 (i : Nat) : Fld := ⟨0x40090028 + 0x8000 * i, 23, 4, .rwt, 7⟩
/-- CAN_TTCFG.BCLEN, bits 15 to 0 (13_priority_bus.md). -/
def CAN_TTCFG.BCLEN (i : Nat) : Fld := ⟨0x40090028 + 0x8000 * i, 0, 16, .rwt, 0x3E8⟩
/-- CAN_TTREF.IDE, bits 31 to 31 (13_priority_bus.md). -/
def CAN_TTREF.IDE (i : Nat) : Fld := ⟨0x4009002C + 0x8000 * i, 31, 1, .rwt, 0⟩
/-- CAN_TTREF.ID, bits 28 to 0 (13_priority_bus.md). -/
def CAN_TTREF.ID (i : Nat) : Fld := ⟨0x4009002C + 0x8000 * i, 0, 29, .rwt, 0⟩
/-- CAN_TTWATCH.NTU, bits 15 to 0 (13_priority_bus.md). -/
def CAN_TTWATCH.NTU (i : Nat) : Fld := ⟨0x40090030 + 0x8000 * i, 0, 16, .rwt, 0x40⟩
/-- CAN_TTBASE_S.SEC, bits 31 to 0 (13_priority_bus.md). -/
def CAN_TTBASE_S.SEC (i : Nat) : Fld := ⟨0x40090034 + 0x8000 * i, 0, 32, .rwt, 0⟩
/-- CAN_TTBASE_NS.NS, bits 29 to 0 (13_priority_bus.md). -/
def CAN_TTBASE_NS.NS (i : Nat) : Fld := ⟨0x40090038 + 0x8000 * i, 0, 30, .rwt, 0⟩
/-- CAN_TTSTAT.CYCTIME, bits 31 to 16 (13_priority_bus.md). -/
def CAN_TTSTAT.CYCTIME (i : Nat) : Fld := ⟨0x4009003C + 0x8000 * i, 16, 16, .ro, 0⟩
/-- CAN_TTSTAT.CYCCNT, bits 13 to 8 (13_priority_bus.md). -/
def CAN_TTSTAT.CYCCNT (i : Nat) : Fld := ⟨0x4009003C + 0x8000 * i, 8, 6, .ro, 0⟩
/-- CAN_TTSTAT.STATE, bits 6 to 4 (13_priority_bus.md). -/
def CAN_TTSTAT.STATE (i : Nat) : Fld := ⟨0x4009003C + 0x8000 * i, 4, 3, .ro, 0⟩
/-- CAN_TTSTAT.MPRIO, bits 2 to 0 (13_priority_bus.md). -/
def CAN_TTSTAT.MPRIO (i : Nat) : Fld := ⟨0x4009003C + 0x8000 * i, 0, 3, .ro, 0⟩
/-- CAN_ZCP_RX.EN, bits 31 to 31 (13_priority_bus.md). -/
def CAN_ZCP_RX.EN (i : Nat) : Fld := ⟨0x40090040 + 0x8000 * i, 31, 1, .rwt, 0⟩
/-- CAN_ZCP_RX.IDE, bits 30 to 30 (13_priority_bus.md). -/
def CAN_ZCP_RX.IDE (i : Nat) : Fld := ⟨0x40090040 + 0x8000 * i, 30, 1, .rwt, 0⟩
/-- CAN_ZCP_RX.ID, bits 28 to 0 (13_priority_bus.md). -/
def CAN_ZCP_RX.ID (i : Nat) : Fld := ⟨0x40090040 + 0x8000 * i, 0, 29, .rwt, 0⟩
/-- CAN_ZCP_TX.IDE, bits 30 to 30 (13_priority_bus.md). -/
def CAN_ZCP_TX.IDE (i : Nat) : Fld := ⟨0x40090044 + 0x8000 * i, 30, 1, .rwt, 0⟩
/-- CAN_ZCP_TX.ID, bits 28 to 0 (13_priority_bus.md). -/
def CAN_ZCP_TX.ID (i : Nat) : Fld := ⟨0x40090044 + 0x8000 * i, 0, 29, .rwt, 0⟩
/-- CAN_RXWIN.W, bits 31 to 0 (13_priority_bus.md). -/
def CAN_RXWIN.W (i : Nat) (j : Nat) : Fld := ⟨0x40090080 + 0x8000 * i + 0x4 * j, 0, 32, .ro, 0⟩
/-- CAN_HPBWIN.W, bits 31 to 0 (13_priority_bus.md). -/
def CAN_HPBWIN.W (i : Nat) (j : Nat) : Fld := ⟨0x40090100 + 0x8000 * i + 0x4 * j, 0, 32, .ro, 0⟩
/-- CAN_RXPOP.POP, bits 0 to 0 (13_priority_bus.md). -/
def CAN_RXPOP.POP (i : Nat) : Fld := ⟨0x400900D0 + 0x8000 * i, 0, 1, .wo, 0⟩
/-- CAN_HPBPOP.POP, bits 0 to 0 (13_priority_bus.md). -/
def CAN_HPBPOP.POP (i : Nat) : Fld := ⟨0x40090150 + 0x8000 * i, 0, 1, .wo, 0⟩
/-- CAN_RXCNT.CNT, bits 6 to 0 (13_priority_bus.md). -/
def CAN_RXCNT.CNT (i : Nat) : Fld := ⟨0x400900D4 + 0x8000 * i, 0, 7, .ro, 0⟩
/-- CAN_HPBCNT.CNT, bits 2 to 0 (13_priority_bus.md). -/
def CAN_HPBCNT.CNT (i : Nat) : Fld := ⟨0x40090154 + 0x8000 * i, 0, 3, .ro, 0⟩
/-- CAN_HPF_CFG.VALID, bits 31 to 31 (13_priority_bus.md). -/
def CAN_HPF_CFG.VALID (i : Nat) (j : Nat) : Fld := ⟨0x40090200 + 0x8000 * i + 0x10 * j, 31, 1, .rwt, 0⟩
/-- CAN_HPF_CFG.IDE, bits 30 to 29 (13_priority_bus.md). -/
def CAN_HPF_CFG.IDE (i : Nat) (j : Nat) : Fld := ⟨0x40090200 + 0x8000 * i + 0x10 * j, 29, 2, .rwt, 0⟩
/-- CAN_HPF_CFG.FMT, bits 28 to 27 (13_priority_bus.md). -/
def CAN_HPF_CFG.FMT (i : Nat) (j : Nat) : Fld := ⟨0x40090200 + 0x8000 * i + 0x10 * j, 27, 2, .rwt, 0⟩
/-- CAN_HPF_CFG.RTR_OK, bits 26 to 26 (13_priority_bus.md). -/
def CAN_HPF_CFG.RTR_OK (i : Nat) (j : Nat) : Fld := ⟨0x40090200 + 0x8000 * i + 0x10 * j, 26, 1, .rwt, 0⟩
/-- CAN_HPF_CFG.REJECT, bits 25 to 25 (13_priority_bus.md). -/
def CAN_HPF_CFG.REJECT (i : Nat) (j : Nat) : Fld := ⟨0x40090200 + 0x8000 * i + 0x10 * j, 25, 1, .rwt, 0⟩
/-- CAN_HPF_ID.ID, bits 28 to 0 (13_priority_bus.md). -/
def CAN_HPF_ID.ID (i : Nat) (j : Nat) : Fld := ⟨0x40090204 + 0x8000 * i + 0x10 * j, 0, 29, .rwt, 0⟩
/-- CAN_HPF_MASK.MASK, bits 28 to 0 (13_priority_bus.md). -/
def CAN_HPF_MASK.MASK (i : Nat) (j : Nat) : Fld := ⟨0x40090208 + 0x8000 * i + 0x10 * j, 0, 29, .rwt, 0⟩
/-- CAN_AF_CFG.VALID, bits 31 to 31 (13_priority_bus.md). -/
def CAN_AF_CFG.VALID (i : Nat) (j : Nat) : Fld := ⟨0x40090400 + 0x8000 * i + 0x10 * j, 31, 1, .rwt, 0⟩
/-- CAN_AF_CFG.IDE, bits 30 to 29 (13_priority_bus.md). -/
def CAN_AF_CFG.IDE (i : Nat) (j : Nat) : Fld := ⟨0x40090400 + 0x8000 * i + 0x10 * j, 29, 2, .rwt, 0⟩
/-- CAN_AF_CFG.FMT, bits 28 to 27 (13_priority_bus.md). -/
def CAN_AF_CFG.FMT (i : Nat) (j : Nat) : Fld := ⟨0x40090400 + 0x8000 * i + 0x10 * j, 27, 2, .rwt, 0⟩
/-- CAN_AF_CFG.RTR_OK, bits 26 to 26 (13_priority_bus.md). -/
def CAN_AF_CFG.RTR_OK (i : Nat) (j : Nat) : Fld := ⟨0x40090400 + 0x8000 * i + 0x10 * j, 26, 1, .rwt, 0⟩
/-- CAN_AF_CFG.REJECT, bits 25 to 25 (13_priority_bus.md). -/
def CAN_AF_CFG.REJECT (i : Nat) (j : Nat) : Fld := ⟨0x40090400 + 0x8000 * i + 0x10 * j, 25, 1, .rwt, 0⟩
/-- CAN_AF_ID.ID, bits 28 to 0 (13_priority_bus.md). -/
def CAN_AF_ID.ID (i : Nat) (j : Nat) : Fld := ⟨0x40090404 + 0x8000 * i + 0x10 * j, 0, 29, .rwt, 0⟩
/-- CAN_AF_MASK.MASK, bits 28 to 0 (13_priority_bus.md). -/
def CAN_AF_MASK.MASK (i : Nat) (j : Nat) : Fld := ⟨0x40090408 + 0x8000 * i + 0x10 * j, 0, 29, .rwt, 0⟩
/-- CAN_TM.VALID, bits 31 to 31 (13_priority_bus.md). -/
def CAN_TM.VALID (i : Nat) (j : Nat) : Fld := ⟨0x40090C00 + 0x8000 * i + 0x4 * j, 31, 1, .rwt, 0⟩
/-- CAN_TM.TM, bits 15 to 0 (13_priority_bus.md). -/
def CAN_TM.TM (i : Nat) (j : Nat) : Fld := ⟨0x40090C00 + 0x8000 * i + 0x4 * j, 0, 16, .rwt, 0⟩
/-- CAN_CELL.TYPE, bits 31 to 30 (13_priority_bus.md). -/
def CAN_CELL.TYPE (i : Nat) (j : Nat) (l : Nat) : Fld := ⟨0x40091000 + 0x8000 * i + 0x80 * j + 0x4 * l, 30, 2, .rwt, 0⟩
/-- CAN_CELL.OBJ, bits 4 to 0 (13_priority_bus.md). -/
def CAN_CELL.OBJ (i : Nat) (j : Nat) (l : Nat) : Fld := ⟨0x40091000 + 0x8000 * i + 0x80 * j + 0x4 * l, 0, 5, .rwt, 0⟩
/-- CAN_OBJ_CFG.EN, bits 31 to 31 (13_priority_bus.md). -/
def CAN_OBJ_CFG.EN (i : Nat) (j : Nat) : Fld := ⟨0x40093000 + 0x8000 * i + 0x80 * j, 31, 1, .rwt, 0⟩
/-- CAN_OBJ_CFG.FD, bits 30 to 30 (13_priority_bus.md). -/
def CAN_OBJ_CFG.FD (i : Nat) (j : Nat) : Fld := ⟨0x40093000 + 0x8000 * i + 0x80 * j, 30, 1, .rwt, 0⟩
/-- CAN_OBJ_CFG.BRS, bits 29 to 29 (13_priority_bus.md). -/
def CAN_OBJ_CFG.BRS (i : Nat) (j : Nat) : Fld := ⟨0x40093000 + 0x8000 * i + 0x80 * j, 29, 1, .rwt, 0⟩
/-- CAN_OBJ_CFG.IDE, bits 28 to 28 (13_priority_bus.md). -/
def CAN_OBJ_CFG.IDE (i : Nat) (j : Nat) : Fld := ⟨0x40093000 + 0x8000 * i + 0x80 * j, 28, 1, .rwt, 0⟩
/-- CAN_OBJ_CFG.EVT, bits 27 to 26 (13_priority_bus.md). -/
def CAN_OBJ_CFG.EVT (i : Nat) (j : Nat) : Fld := ⟨0x40093000 + 0x8000 * i + 0x80 * j, 26, 2, .rwt, 0⟩
/-- CAN_OBJ_CFG.LEN, bits 22 to 16 (13_priority_bus.md). -/
def CAN_OBJ_CFG.LEN (i : Nat) (j : Nat) : Fld := ⟨0x40093000 + 0x8000 * i + 0x80 * j, 16, 7, .rwt, 0⟩
/-- CAN_OBJ_ID.ID, bits 28 to 0 (13_priority_bus.md). -/
def CAN_OBJ_ID.ID (i : Nat) (j : Nat) : Fld := ⟨0x40093004 + 0x8000 * i + 0x80 * j, 0, 29, .rwt, 0⟩
/-- CAN_OBJ_DATA.W, bits 31 to 0 (13_priority_bus.md). -/
def CAN_OBJ_DATA.W (i : Nat) (j : Nat) (l : Nat) : Fld := ⟨0x40093040 + 0x8000 * i + 0x80 * j + 0x4 * l, 0, 32, .ro, 0⟩
/-- FLD_HCTL.EN, bits 7 to 0 (14_field_link_outputs.md). -/
def FLD_HCTL.EN : Fld := ⟨0x400A0000, 0, 8, .rwt, 0⟩
/-- FLD_HSTAT.SAFE, bits 23 to 16 (14_field_link_outputs.md). -/
def FLD_HSTAT.SAFE : Fld := ⟨0x400A0004, 16, 8, .ro, 0⟩
/-- FLD_HSTAT.OBEYED, bits 15 to 8 (14_field_link_outputs.md). -/
def FLD_HSTAT.OBEYED : Fld := ⟨0x400A0004, 8, 8, .ro, 0⟩
/-- FLD_HSTAT.UP, bits 7 to 0 (14_field_link_outputs.md). -/
def FLD_HSTAT.UP : Fld := ⟨0x400A0004, 0, 8, .ro, 0⟩
/-- FLD_FDISC.OVF, bits 31 to 31 (14_field_link_outputs.md). -/
def FLD_FDISC.OVF : Fld := ⟨0x400A0008, 31, 1, .w1c, 0⟩
/-- FLD_FDISC.CNT, bits 15 to 0 (14_field_link_outputs.md). -/
def FLD_FDISC.CNT : Fld := ⟨0x400A0008, 0, 16, .rc, 0⟩
/-- SYS_DIR_MAC1.MAC_HI, bits 31 to 0 (01_station_picture.md). -/
def SYS_DIR_MAC1.MAC_HI (i : Nat) : Fld := ⟨0x40002004 + 0x20 * i, 0, 32, .rwt, 0⟩
/-- SYS_DIR_MAC2.MAC_LO, bits 31 to 16 (01_station_picture.md). -/
def SYS_DIR_MAC2.MAC_LO (i : Nat) : Fld := ⟨0x40002008 + 0x20 * i, 16, 16, .rwt, 0⟩
/-- SYS_DIR_IP4.IPV4, bits 31 to 0 (01_station_picture.md). -/
def SYS_DIR_IP4.IPV4 (i : Nat) : Fld := ⟨0x4000200C + 0x20 * i, 0, 32, .rwt, 0⟩
/-- SYS_DIR_IP6.IPV6, bits 31 to 0 (01_station_picture.md). -/
def SYS_DIR_IP6.IPV6 (i : Nat) (j : Nat) : Fld := ⟨0x40002010 + 0x20 * i + 0x4 * j, 0, 32, .rwt, 0⟩
/-- FLD_LSTAT.MIRROR, bits 31 to 8 (14_field_link_outputs.md). -/
def FLD_LSTAT.MIRROR (i : Nat) : Fld := ⟨0x400A0100 + 0x10 * i, 8, 24, .ro, 0⟩
/-- FLD_LDLY.DLY, bits 15 to 0 (14_field_link_outputs.md). -/
def FLD_LDLY.DLY (i : Nat) : Fld := ⟨0x400A0104 + 0x10 * i, 0, 16, .ro, 0⟩
/-- FLD_LCNT.NOANS, bits 31 to 24 (14_field_link_outputs.md). -/
def FLD_LCNT.NOANS (i : Nat) : Fld := ⟨0x400A0108 + 0x10 * i, 24, 8, .rc, 0⟩
/-- FLD_LCNT.ANSCRC, bits 23 to 16 (14_field_link_outputs.md). -/
def FLD_LCNT.ANSCRC (i : Nat) : Fld := ⟨0x400A0108 + 0x10 * i, 16, 8, .rc, 0⟩
/-- FLD_LCNT.MGTFAIL, bits 15 to 8 (14_field_link_outputs.md). -/
def FLD_LCNT.MGTFAIL (i : Nat) : Fld := ⟨0x400A0108 + 0x10 * i, 8, 8, .rc, 0⟩
/-- FLD_LCNT.RELOAD, bits 7 to 0 (14_field_link_outputs.md). -/
def FLD_LCNT.RELOAD (i : Nat) : Fld := ⟨0x400A0108 + 0x10 * i, 0, 8, .rc, 0⟩
/-- FLD_MBX.FULL, bits 31 to 31 (14_field_link_outputs.md). -/
def FLD_MBX.FULL (i : Nat) : Fld := ⟨0x400A010C + 0x10 * i, 31, 1, .w1c, 0⟩
/-- FLD_MBX.DEPTH, bits 3 to 0 (14_field_link_outputs.md). -/
def FLD_MBX.DEPTH (i : Nat) : Fld := ⟨0x400A010C + 0x10 * i, 0, 4, .ro, 0⟩
/-- FLD_IBASE.EN, bits 31 to 31 (15_field_inputs_counters.md). -/
def FLD_IBASE.EN (i : Nat) : Fld := ⟨0x400A0200 + 0x10 * i, 31, 1, .rwt, 0⟩
/-- FLD_IBASE.ADDR, bits 15 to 0 (15_field_inputs_counters.md). -/
def FLD_IBASE.ADDR (i : Nat) : Fld := ⟨0x400A0200 + 0x10 * i, 0, 16, .rwt, 0⟩
/-- FLD_WBASE.ADDR, bits 18 to 0 (15_field_inputs_counters.md). -/
def FLD_WBASE.ADDR (i : Nat) : Fld := ⟨0x400A0204 + 0x10 * i, 0, 19, .rwt, 0⟩
/-- FLD_ICNT.EVENTS, bits 31 to 16 (15_field_inputs_counters.md). -/
def FLD_ICNT.EVENTS (i : Nat) : Fld := ⟨0x400A0208 + 0x10 * i, 16, 16, .ro, 0⟩
/-- FLD_ICNT.INVEDGE, bits 15 to 0 (15_field_inputs_counters.md). -/
def FLD_ICNT.INVEDGE (i : Nat) : Fld := ⟨0x400A0208 + 0x10 * i, 0, 16, .rc, 0⟩
/-- FLD_ID.PART, bits 31 to 16 (00_scope.md). -/
def FLD_ID.PART (i : Nat) : Fld := ⟨0x400A1000 + 0x1000 * i, 16, 16, .ro, 0xE4F⟩
/-- FLD_ID.REV, bits 15 to 8 (00_scope.md). -/
def FLD_ID.REV (i : Nat) : Fld := ⟨0x400A1000 + 0x1000 * i, 8, 8, .ro, 1⟩
/-- FLD_STAT.OBEPOCH, bits 31 to 16 (14_field_link_outputs.md). -/
def FLD_STAT.OBEPOCH (i : Nat) : Fld := ⟨0x400A1004 + 0x1000 * i, 16, 16, .ro, 0⟩
/-- FLD_STAT.OBLINK, bits 15 to 15 (14_field_link_outputs.md). -/
def FLD_STAT.OBLINK (i : Nat) : Fld := ⟨0x400A1004 + 0x1000 * i, 15, 1, .ro, 0⟩
/-- FLD_STAT.OBVALID, bits 14 to 14 (14_field_link_outputs.md). -/
def FLD_STAT.OBVALID (i : Nat) : Fld := ⟨0x400A1004 + 0x1000 * i, 14, 1, .ro, 0⟩
/-- FLD_STAT.CFGLOST, bits 13 to 13 (14_field_link_outputs.md). -/
def FLD_STAT.CFGLOST (i : Nat) : Fld := ⟨0x400A1004 + 0x1000 * i, 13, 1, .ro, 1⟩
/-- FLD_STAT.CONFLICT, bits 12 to 12 (14_field_link_outputs.md). -/
def FLD_STAT.CONFLICT (i : Nat) : Fld := ⟨0x400A1004 + 0x1000 * i, 12, 1, .w1c, 0⟩
/-- FLD_STAT.BARRIER_FAIL, bits 11 to 11 (14_field_link_outputs.md). -/
def FLD_STAT.BARRIER_FAIL (i : Nat) : Fld := ⟨0x400A1004 + 0x1000 * i, 11, 1, .ro, 0⟩
/-- FLD_STAT.FIELD_UV, bits 10 to 10 (14_field_link_outputs.md). -/
def FLD_STAT.FIELD_UV (i : Nat) : Fld := ⟨0x400A1004 + 0x1000 * i, 10, 1, .ro, 0⟩
/-- FLD_STAT.FAILST, bits 9 to 9 (14_field_link_outputs.md). -/
def FLD_STAT.FAILST (i : Nat) : Fld := ⟨0x400A1004 + 0x1000 * i, 9, 1, .ro, 1⟩
/-- FLD_STAT.FCAUSE, bits 8 to 6 (14_field_link_outputs.md). -/
def FLD_STAT.FCAUSE (i : Nat) : Fld := ⟨0x400A1004 + 0x1000 * i, 6, 3, .ro, 4⟩
/-- FLD_STAT.FAST_EXP, bits 5 to 5 (14_field_link_outputs.md). -/
def FLD_STAT.FAST_EXP (i : Nat) : Fld := ⟨0x400A1004 + 0x1000 * i, 5, 1, .w1c, 0⟩
/-- FLD_STAT.FAST_REF, bits 4 to 4 (14_field_link_outputs.md). -/
def FLD_STAT.FAST_REF (i : Nat) : Fld := ⟨0x400A1004 + 0x1000 * i, 4, 1, .w1c, 0⟩
/-- FLD_STAT.FASTLAT, bits 3 to 0 (14_field_link_outputs.md). -/
def FLD_STAT.FASTLAT (i : Nat) : Fld := ⟨0x400A1004 + 0x1000 * i, 0, 4, .ro, 0⟩
/-- FLD_OUT.DRIVEN, bits 15 to 12 (14_field_link_outputs.md). -/
def FLD_OUT.DRIVEN (i : Nat) : Fld := ⟨0x400A1008 + 0x1000 * i, 12, 4, .ro, 0⟩
/-- FLD_OUT.TSD, bits 11 to 8 (14_field_link_outputs.md). -/
def FLD_OUT.TSD (i : Nat) : Fld := ⟨0x400A1008 + 0x1000 * i, 8, 4, .ro, 0⟩
/-- FLD_OUT.LIM, bits 7 to 4 (14_field_link_outputs.md). -/
def FLD_OUT.LIM (i : Nat) : Fld := ⟨0x400A1008 + 0x1000 * i, 4, 4, .ro, 0⟩
/-- FLD_OUT.READ, bits 3 to 0 (14_field_link_outputs.md). -/
def FLD_OUT.READ (i : Nat) : Fld := ⟨0x400A1008 + 0x1000 * i, 0, 4, .ro, 0⟩
/-- FLD_CCNT.CRCA, bits 31 to 20 (14_field_link_outputs.md). -/
def FLD_CCNT.CRCA (i : Nat) : Fld := ⟨0x400A100C + 0x1000 * i, 20, 12, .ro, 0⟩
/-- FLD_CCNT.CRCB, bits 19 to 8 (14_field_link_outputs.md). -/
def FLD_CCNT.CRCB (i : Nat) : Fld := ⟨0x400A100C + 0x1000 * i, 8, 12, .ro, 0⟩
/-- FLD_CCNT.FREJ, bits 7 to 0 (14_field_link_outputs.md). -/
def FLD_CCNT.FREJ (i : Nat) : Fld := ⟨0x400A100C + 0x1000 * i, 0, 8, .ro, 0⟩
/-- FLD_OCFG.TSDLATCH, bits 15 to 12 (14_field_link_outputs.md). -/
def FLD_OCFG.TSDLATCH (i : Nat) : Fld := ⟨0x400A1020 + 0x1000 * i, 12, 4, .rwt, 0⟩
/-- FLD_OCFG.PAR23, bits 9 to 9 (14_field_link_outputs.md). -/
def FLD_OCFG.PAR23 (i : Nat) : Fld := ⟨0x400A1020 + 0x1000 * i, 9, 1, .rwt, 0⟩
/-- FLD_OCFG.PAR01, bits 8 to 8 (14_field_link_outputs.md). -/
def FLD_OCFG.PAR01 (i : Nat) : Fld := ⟨0x400A1020 + 0x1000 * i, 8, 1, .rwt, 0⟩
/-- FLD_OCFG.FAIL, bits 7 to 0 (14_field_link_outputs.md). -/
def FLD_OCFG.FAIL (i : Nat) : Fld := ⟨0x400A1020 + 0x1000 * i, 0, 8, .rwt, 0⟩
/-- FLD_FTMO.US, bits 15 to 0 (14_field_link_outputs.md). -/
def FLD_FTMO.US (i : Nat) : Fld := ⟨0x400A1024 + 0x1000 * i, 0, 16, .rwt, 0x2710⟩
/-- FLD_IN.SETTLING, bits 27 to 16 (15_field_inputs_counters.md). -/
def FLD_IN.SETTLING (i : Nat) : Fld := ⟨0x400A1010 + 0x1000 * i, 16, 12, .ro, 0xFFF⟩
/-- FLD_IN.STATE, bits 11 to 0 (15_field_inputs_counters.md). -/
def FLD_IN.STATE (i : Nat) : Fld := ⟨0x400A1010 + 0x1000 * i, 0, 12, .ro, 0⟩
/-- FLD_OVF.OVF, bits 11 to 0 (15_field_inputs_counters.md). -/
def FLD_OVF.OVF (i : Nat) : Fld := ⟨0x400A1014 + 0x1000 * i, 0, 12, .w1c, 0⟩
/-- FLD_EVCNT.EVLOST, bits 15 to 8 (15_field_inputs_counters.md). -/
def FLD_EVCNT.EVLOST (i : Nat) : Fld := ⟨0x400A1018 + 0x1000 * i, 8, 8, .ro, 0⟩
/-- FLD_EVCNT.CAPLOST, bits 7 to 0 (15_field_inputs_counters.md). -/
def FLD_EVCNT.CAPLOST (i : Nat) : Fld := ⟨0x400A1018 + 0x1000 * i, 0, 8, .ro, 0⟩
/-- FLD_ICFG.TYPE, bits 31 to 31 (15_field_inputs_counters.md). -/
def FLD_ICFG.TYPE (i : Nat) (j : Nat) : Fld := ⟨0x400A1040 + 0x1000 * i + 0x4 * j, 31, 1, .rwt, 0⟩
/-- FLD_ICFG.CEDGE, bits 30 to 29 (15_field_inputs_counters.md). -/
def FLD_ICFG.CEDGE (i : Nat) (j : Nat) : Fld := ⟨0x400A1040 + 0x1000 * i + 0x4 * j, 29, 2, .rwt, 1⟩
/-- FLD_ICFG.SAT, bits 28 to 28 (15_field_inputs_counters.md). -/
def FLD_ICFG.SAT (i : Nat) (j : Nat) : Fld := ⟨0x400A1040 + 0x1000 * i + 0x4 * j, 28, 1, .rwt, 0⟩
/-- FLD_ICFG.RAW, bits 27 to 27 (15_field_inputs_counters.md). -/
def FLD_ICFG.RAW (i : Nat) (j : Nat) : Fld := ⟨0x400A1040 + 0x1000 * i + 0x4 * j, 27, 1, .rwt, 0⟩
/-- FLD_ICFG.EVT, bits 26 to 25 (15_field_inputs_counters.md). -/
def FLD_ICFG.EVT (i : Nat) (j : Nat) : Fld := ⟨0x400A1040 + 0x1000 * i + 0x4 * j, 25, 2, .rwt, 0⟩
/-- FLD_ICFG.CAPEN, bits 24 to 24 (15_field_inputs_counters.md). -/
def FLD_ICFG.CAPEN (i : Nat) (j : Nat) : Fld := ⟨0x400A1040 + 0x1000 * i + 0x4 * j, 24, 1, .rwt, 0⟩
/-- FLD_ICFG.CAPSS, bits 23 to 23 (15_field_inputs_counters.md). -/
def FLD_ICFG.CAPSS (i : Nat) (j : Nat) : Fld := ⟨0x400A1040 + 0x1000 * i + 0x4 * j, 23, 1, .rwt, 0⟩
/-- FLD_ICFG.FEN, bits 22 to 22 (15_field_inputs_counters.md). -/
def FLD_ICFG.FEN (i : Nat) (j : Nat) : Fld := ⟨0x400A1040 + 0x1000 * i + 0x4 * j, 22, 1, .rwt, 0⟩
/-- FLD_ICFG.DEB, bits 15 to 0 (15_field_inputs_counters.md). -/
def FLD_ICFG.DEB (i : Nat) (j : Nat) : Fld := ⟨0x400A1040 + 0x1000 * i + 0x4 * j, 0, 16, .rwt, 0x3E8⟩
/-- FLD_GATE.GMAX, bits 5 to 4 (15_field_inputs_counters.md). -/
def FLD_GATE.GMAX (i : Nat) : Fld := ⟨0x400A1070 + 0x1000 * i, 4, 2, .rwt, 3⟩
/-- FLD_GATE.GMIN, bits 1 to 0 (15_field_inputs_counters.md). -/
def FLD_GATE.GMIN (i : Nat) : Fld := ⟨0x400A1070 + 0x1000 * i, 0, 2, .rwt, 0⟩
/-- FLD_CNT.V, bits 31 to 0 (15_field_inputs_counters.md). -/
def FLD_CNT.V (i : Nat) (j : Nat) : Fld := ⟨0x400A1080 + 0x1000 * i + 0x4 * j, 0, 32, .ro, 0⟩
/-- FLD_FRQ.V, bits 31 to 0 (15_field_inputs_counters.md). -/
def FLD_FRQ.V (i : Nat) (j : Nat) : Fld := ⟨0x400A10B0 + 0x1000 * i + 0x4 * j, 0, 32, .ro, 0⟩
/-- FLD_CLAT.V, bits 31 to 0 (15_field_inputs_counters.md). -/
def FLD_CLAT.V (i : Nat) (j : Nat) : Fld := ⟨0x400A10E0 + 0x1000 * i + 0x4 * j, 0, 32, .ro, 0⟩
/-- FLD_CLATF.VALID, bits 31 to 31 (15_field_inputs_counters.md). -/
def FLD_CLATF.VALID (i : Nat) : Fld := ⟨0x400A1110 + 0x1000 * i, 31, 1, .ro, 0⟩
/-- FLD_CLATF.FNO, bits 19 to 0 (15_field_inputs_counters.md). -/
def FLD_CLATF.FNO (i : Nat) : Fld := ⟨0x400A1110 + 0x1000 * i, 0, 20, .ro, 0⟩
/-- PHM_CTRL.EN, bits 6 to 0 (16_line_measurement.md). -/
def PHM_CTRL.EN : Fld := ⟨0x400B0000, 0, 7, .rwt, 0⟩
/-- PHM_STAT.LIBVER, bits 31 to 16 (16_line_measurement.md). -/
def PHM_STAT.LIBVER : Fld := ⟨0x400B0004, 16, 16, .ro, 0⟩
/-- PHM_STAT.LIB_OK, bits 15 to 15 (16_line_measurement.md). -/
def PHM_STAT.LIB_OK : Fld := ⟨0x400B0004, 15, 1, .ro, 0⟩
/-- PHM_STAT.CNT_OVF, bits 14 to 14 (16_line_measurement.md). -/
def PHM_STAT.CNT_OVF : Fld := ⟨0x400B0004, 14, 1, .w1c, 0⟩
/-- PHM_STAT.CMD_DISC, bits 7 to 0 (16_line_measurement.md). -/
def PHM_STAT.CMD_DISC : Fld := ⟨0x400B0004, 0, 8, .rc, 0⟩
/-- PHM_E_CFG.CLASS, bits 31 to 31 (16_line_measurement.md). -/
def PHM_E_CFG.CLASS (i : Nat) : Fld := ⟨0x400B0100 + 0x40 * i, 31, 1, .rwt, 0⟩
/-- PHM_E_CFG.PERSMP, bits 30 to 30 (16_line_measurement.md). -/
def PHM_E_CFG.PERSMP (i : Nat) : Fld := ⟨0x400B0100 + 0x40 * i, 30, 1, .rwt, 0⟩
/-- PHM_E_CFG.STREAM, bits 29 to 24 (16_line_measurement.md). -/
def PHM_E_CFG.STREAM (i : Nat) : Fld := ⟨0x400B0100 + 0x40 * i, 24, 6, .rwt, 0⟩
/-- PHM_E_CFG.CHMASK, bits 23 to 16 (16_line_measurement.md). -/
def PHM_E_CFG.CHMASK (i : Nat) : Fld := ⟨0x400B0100 + 0x40 * i, 16, 8, .rwt, 0⟩
/-- PHM_E_CFG.SEQV, bits 15 to 15 (16_line_measurement.md). -/
def PHM_E_CFG.SEQV (i : Nat) : Fld := ⟨0x400B0100 + 0x40 * i, 15, 1, .rwt, 0⟩
/-- PHM_E_CFG.SEQI, bits 14 to 14 (16_line_measurement.md). -/
def PHM_E_CFG.SEQI (i : Nat) : Fld := ⟨0x400B0100 + 0x40 * i, 14, 1, .rwt, 0⟩
/-- PHM_E_CFG.TASK, bits 12 to 10 (16_line_measurement.md). -/
def PHM_E_CFG.TASK (i : Nat) : Fld := ⟨0x400B0100 + 0x40 * i, 10, 3, .rwt, 0⟩
/-- PHM_E_CFG.RR, bits 7 to 0 (16_line_measurement.md). -/
def PHM_E_CFG.RR (i : Nat) : Fld := ⟨0x400B0100 + 0x40 * i, 0, 8, .rwt, 0x32⟩
/-- PHM_E_OADDR.ADDR, bits 18 to 0 (16_line_measurement.md). -/
def PHM_E_OADDR.ADDR (i : Nat) : Fld := ⟨0x400B0108 + 0x40 * i, 0, 19, .rwt, 0x4000⟩
/-- PHM_E_DIG.EN, bits 31 to 31 (16_line_measurement.md). -/
def PHM_E_DIG.EN (i : Nat) : Fld := ⟨0x400B010C + 0x40 * i, 31, 1, .rwt, 0⟩
/-- PHM_E_DIG.ADDR, bits 19 to 0 (16_line_measurement.md). -/
def PHM_E_DIG.ADDR (i : Nat) : Fld := ⟨0x400B010C + 0x40 * i, 0, 20, .rwt, 0x10000⟩
/-- PHM_E_PMU.SEND, bits 31 to 31 (16_line_measurement.md). -/
def PHM_E_PMU.SEND (i : Nat) : Fld := ⟨0x400B0110 + 0x40 * i, 31, 1, .rwt, 0⟩
/-- PHM_E_PMU.AUTO, bits 30 to 30 (16_line_measurement.md). -/
def PHM_E_PMU.AUTO (i : Nat) : Fld := ⟨0x400B0110 + 0x40 * i, 30, 1, .rwt, 1⟩
/-- PHM_E_PMU.PORTS, bits 29 to 26 (16_line_measurement.md). -/
def PHM_E_PMU.PORTS (i : Nat) : Fld := ⟨0x400B0110 + 0x40 * i, 26, 4, .rwt, 0⟩
/-- PHM_E_PMU.QUEUE, bits 25 to 23 (16_line_measurement.md). -/
def PHM_E_PMU.QUEUE (i : Nat) : Fld := ⟨0x400B0110 + 0x40 * i, 23, 3, .rwt, 6⟩
/-- PHM_E_PMU.IDCODE, bits 15 to 0 (16_line_measurement.md). -/
def PHM_E_PMU.IDCODE (i : Nat) : Fld := ⟨0x400B0110 + 0x40 * i, 0, 16, .rwt, 1⟩
/-- PHM_E_DIP.IP, bits 31 to 0 (16_line_measurement.md). -/
def PHM_E_DIP.IP (i : Nat) : Fld := ⟨0x400B0114 + 0x40 * i, 0, 32, .rwt, 0⟩
/-- PHM_E_DPORT.PORT, bits 31 to 16 (16_line_measurement.md). -/
def PHM_E_DPORT.PORT (i : Nat) : Fld := ⟨0x400B0118 + 0x40 * i, 16, 16, .rwt, 0x1269⟩
/-- PHM_E_DPORT.VID, bits 11 to 0 (16_line_measurement.md). -/
def PHM_E_DPORT.VID (i : Nat) : Fld := ⟨0x400B0118 + 0x40 * i, 0, 12, .rwt, 0⟩
/-- PHM_E_CMBX.EN, bits 31 to 31 (16_line_measurement.md). -/
def PHM_E_CMBX.EN (i : Nat) : Fld := ⟨0x400B0124 + 0x40 * i, 31, 1, .rwt, 0⟩
/-- PHM_E_CMBX.MBX, bits 3 to 0 (16_line_measurement.md). -/
def PHM_E_CMBX.MBX (i : Nat) : Fld := ⟨0x400B0124 + 0x40 * i, 0, 4, .rwt, 0⟩
/-- PHM_E_CNT.INVALID, bits 31 to 16 (16_line_measurement.md). -/
def PHM_E_CNT.INVALID (i : Nat) : Fld := ⟨0x400B0128 + 0x40 * i, 16, 16, .rc, 0⟩
/-- PHM_E_CNT.DROPPED, bits 15 to 0 (16_line_measurement.md). -/
def PHM_E_CNT.DROPPED (i : Nat) : Fld := ⟨0x400B0128 + 0x40 * i, 0, 16, .rc, 0⟩
/-- PHM_E_RPTCNT.CNT, bits 31 to 0 (16_line_measurement.md). -/
def PHM_E_RPTCNT.CNT (i : Nat) : Fld := ⟨0x400B012C + 0x40 * i, 0, 32, .ro, 0⟩
/-- PHM_E_LAT.MAX, bits 31 to 16 (16_line_measurement.md). -/
def PHM_E_LAT.MAX (i : Nat) : Fld := ⟨0x400B0130 + 0x40 * i, 16, 16, .rc, 0⟩
/-- PHM_E_LAT.LAST, bits 15 to 0 (16_line_measurement.md). -/
def PHM_E_LAT.LAST (i : Nat) : Fld := ⟨0x400B0130 + 0x40 * i, 0, 16, .ro, 0⟩
/-- PHM_E_STATE.SENDING, bits 31 to 31 (16_line_measurement.md). -/
def PHM_E_STATE.SENDING (i : Nat) : Fld := ⟨0x400B0134 + 0x40 * i, 31, 1, .ro, 1⟩
/-- PHM_E_STATE.INVLEFT, bits 30 to 24 (16_line_measurement.md). -/
def PHM_E_STATE.INVLEFT (i : Nat) : Fld := ⟨0x400B0134 + 0x40 * i, 24, 7, .ro, 0⟩
/-- PHM_E_STATE.NP, bits 3 to 0 (16_line_measurement.md). -/
def PHM_E_STATE.NP (i : Nat) : Fld := ⟨0x400B0134 + 0x40 * i, 0, 4, .ro, 0⟩
/-- PHM_E_DLY.DLY, bits 15 to 0 (16_line_measurement.md). -/
def PHM_E_DLY.DLY (i : Nat) : Fld := ⟨0x400B0138 + 0x40 * i, 0, 16, .rwt, 0⟩
/-- PHM_E_SEQMAP.VA, bits 22 to 20 (16_line_measurement.md). -/
def PHM_E_SEQMAP.VA (i : Nat) : Fld := ⟨0x400B0104 + 0x40 * i, 20, 3, .rwt, 0⟩
/-- PHM_E_SEQMAP.VB, bits 18 to 16 (16_line_measurement.md). -/
def PHM_E_SEQMAP.VB (i : Nat) : Fld := ⟨0x400B0104 + 0x40 * i, 16, 3, .rwt, 1⟩
/-- PHM_E_SEQMAP.VC, bits 14 to 12 (16_line_measurement.md). -/
def PHM_E_SEQMAP.VC (i : Nat) : Fld := ⟨0x400B0104 + 0x40 * i, 12, 3, .rwt, 2⟩
/-- PHM_E_SEQMAP.IA, bits 10 to 8 (16_line_measurement.md). -/
def PHM_E_SEQMAP.IA (i : Nat) : Fld := ⟨0x400B0104 + 0x40 * i, 8, 3, .rwt, 4⟩
/-- PHM_E_SEQMAP.IB, bits 6 to 4 (16_line_measurement.md). -/
def PHM_E_SEQMAP.IB (i : Nat) : Fld := ⟨0x400B0104 + 0x40 * i, 4, 3, .rwt, 5⟩
/-- PHM_E_SEQMAP.IC, bits 2 to 0 (16_line_measurement.md). -/
def PHM_E_SEQMAP.IC (i : Nat) : Fld := ⟨0x400B0104 + 0x40 * i, 0, 3, .rwt, 6⟩
/-- PHM_E_DMAC_HI.MAC, bits 31 to 0 (16_line_measurement.md). -/
def PHM_E_DMAC_HI.MAC (i : Nat) : Fld := ⟨0x400B011C + 0x40 * i, 0, 32, .rwt, 0⟩
/-- PHM_E_DMAC_LO.MAC, bits 31 to 16 (16_line_measurement.md). -/
def PHM_E_DMAC_LO.MAC (i : Nat) : Fld := ⟨0x400B0120 + 0x40 * i, 16, 16, .rwt, 0⟩
/-- PHM_GAP.W, bits 31 to 0 (16_line_measurement.md). -/
def PHM_GAP.W (i : Nat) (j : Nat) : Fld := ⟨0x400B0180 + 0x40 * i + 0x4 * j, 0, 32, .ro, 0⟩
/-- PHM_FD_CFG.PUN, bits 31 to 28 (16_line_measurement.md). -/
def PHM_FD_CFG.PUN : Fld := ⟨0x400B0200, 28, 4, .rwt, 2⟩
/-- PHM_FD_CFG.DON, bits 27 to 20 (16_line_measurement.md). -/
def PHM_FD_CFG.DON : Fld := ⟨0x400B0200, 20, 8, .rwt, 5⟩
/-- PHM_FD_CFG.BADDR, bits 19 to 0 (16_line_measurement.md). -/
def PHM_FD_CFG.BADDR : Fld := ⟨0x400B0200, 0, 20, .rwt, 0x40100⟩
/-- PHM_FD_IPU.TH, bits 31 to 0 (16_line_measurement.md). -/
def PHM_FD_IPU.TH : Fld := ⟨0x400B0204, 0, 32, .rwt, 0x45160000⟩
/-- PHM_FD_DIPU.TH, bits 31 to 0 (16_line_measurement.md). -/
def PHM_FD_DIPU.TH : Fld := ⟨0x400B0208, 0, 32, .rwt, 0x43FA0000⟩
/-- PHM_FD_I0PU.TH, bits 31 to 0 (16_line_measurement.md). -/
def PHM_FD_I0PU.TH : Fld := ⟨0x400B020C, 0, 32, .rwt, 0x43C80000⟩
/-- PHM_FD_HOLD.MS, bits 15 to 0 (16_line_measurement.md). -/
def PHM_FD_HOLD.MS : Fld := ⟨0x400B0210, 0, 16, .rwt, 0x64⟩
/-- PHM_FD_STAT.PICKUP, bits 31 to 31 (16_line_measurement.md). -/
def PHM_FD_STAT.PICKUP : Fld := ⟨0x400B0214, 31, 1, .ro, 0⟩
/-- PHM_FD_STAT.ABCG, bits 30 to 27 (16_line_measurement.md). -/
def PHM_FD_STAT.ABCG : Fld := ⟨0x400B0214, 27, 4, .ro, 0⟩
/-- PHM_FD_STAT.FAULTNO, bits 15 to 0 (16_line_measurement.md). -/
def PHM_FD_STAT.FAULTNO : Fld := ⟨0x400B0214, 0, 16, .ro, 0⟩
/-- PHM_LOC_CFG.TASK, bits 31 to 29 (16_line_measurement.md). -/
def PHM_LOC_CFG.TASK : Fld := ⟨0x400B0300, 29, 3, .rwt, 7⟩
/-- PHM_LOC_CFG.RINV, bits 28 to 28 (16_line_measurement.md). -/
def PHM_LOC_CFG.RINV : Fld := ⟨0x400B0300, 28, 1, .rwt, 0⟩
/-- PHM_LOC_CFG.WAIT, bits 27 to 20 (16_line_measurement.md). -/
def PHM_LOC_CFG.WAIT : Fld := ⟨0x400B0300, 20, 8, .rwt, 0x64⟩
/-- PHM_LOC_CFG.DONEFLAG, bits 19 to 0 (16_line_measurement.md). -/
def PHM_LOC_CFG.DONEFLAG : Fld := ⟨0x400B0300, 0, 20, .rwt, 0x40108⟩
/-- PHM_LOC_LEN.M, bits 31 to 0 (16_line_measurement.md). -/
def PHM_LOC_LEN.M : Fld := ⟨0x400B0304, 0, 32, .rwt, 0x1D4C0⟩
/-- PHM_LOC_Z1RE.Z, bits 31 to 0 (16_line_measurement.md). -/
def PHM_LOC_Z1RE.Z : Fld := ⟨0x400B0308, 0, 32, .rwt, 0x3CF5C28F⟩
/-- PHM_LOC_Z1IM.Z, bits 31 to 0 (16_line_measurement.md). -/
def PHM_LOC_Z1IM.Z : Fld := ⟨0x400B030C, 0, 32, .rwt, 0x3E99999A⟩
/-- PHM_LOC_RMT.IDCODE, bits 31 to 16 (16_line_measurement.md). -/
def PHM_LOC_RMT.IDCODE : Fld := ⟨0x400B0310, 16, 16, .rwt, 0⟩
/-- PHM_LOC_RMT.MBX, bits 15 to 12 (16_line_measurement.md). -/
def PHM_LOC_RMT.MBX : Fld := ⟨0x400B0310, 12, 4, .rwt, 0⟩
/-- PHM_LOC_RMT.NP, bits 11 to 8 (16_line_measurement.md). -/
def PHM_LOC_RMT.NP : Fld := ⟨0x400B0310, 8, 4, .rwt, 0⟩
/-- PHM_LOC_RMT.RV1, bits 7 to 4 (16_line_measurement.md). -/
def PHM_LOC_RMT.RV1 : Fld := ⟨0x400B0310, 4, 4, .rwt, 0⟩
/-- PHM_LOC_RMT.RI1, bits 3 to 0 (16_line_measurement.md). -/
def PHM_LOC_RMT.RI1 : Fld := ⟨0x400B0310, 0, 4, .rwt, 0⟩
/-- PHM_LOC_OADDR.ADDR, bits 18 to 0 (16_line_measurement.md). -/
def PHM_LOC_OADDR.ADDR : Fld := ⟨0x400B0314, 0, 19, .rwt, 0x4100⟩
/-- PHM_TWCFG.CPN, bits 31 to 29 (16_line_measurement.md). -/
def PHM_TWCFG.CPN : Fld := ⟨0x400B0318, 29, 3, .rwt, 0⟩
/-- PHM_TWCFG.CH, bits 28 to 27 (16_line_measurement.md). -/
def PHM_TWCFG.CH : Fld := ⟨0x400B0318, 27, 2, .rwt, 0⟩
/-- PHM_TWCFG.RADDR, bits 18 to 0 (16_line_measurement.md). -/
def PHM_TWCFG.RADDR : Fld := ⟨0x400B0318, 0, 19, .rwt, 0⟩
/-- PHM_TWV.V, bits 31 to 0 (16_line_measurement.md). -/
def PHM_TWV.V : Fld := ⟨0x400B031C, 0, 32, .rwt, 0x43938000⟩
/-- PHM_TWWIN.PRE, bits 31 to 16 (16_line_measurement.md). -/
def PHM_TWWIN.PRE : Fld := ⟨0x400B0320, 16, 16, .rwt, 0x61A8⟩
/-- PHM_TWWIN.POST, bits 15 to 0 (16_line_measurement.md). -/
def PHM_TWWIN.POST : Fld := ⟨0x400B0320, 0, 16, .rwt, 0x1388⟩
/-- PHM_TWPUB.ADDR, bits 18 to 0 (16_line_measurement.md). -/
def PHM_TWPUB.ADDR : Fld := ⟨0x400B0324, 0, 19, .rwt, 0x4110⟩
/-- PHM_RES_STAT.DPH_VALID, bits 31 to 31 (16_line_measurement.md). -/
def PHM_RES_STAT.DPH_VALID : Fld := ⟨0x400B0330, 31, 1, .ro, 0⟩
/-- PHM_RES_STAT.DTW_VALID, bits 30 to 30 (16_line_measurement.md). -/
def PHM_RES_STAT.DTW_VALID : Fld := ⟨0x400B0330, 30, 1, .ro, 0⟩
/-- PHM_RES_STAT.PENDING, bits 29 to 29 (16_line_measurement.md). -/
def PHM_RES_STAT.PENDING : Fld := ⟨0x400B0330, 29, 1, .ro, 0⟩
/-- PHM_RES_STAT.FAULTNO, bits 15 to 0 (16_line_measurement.md). -/
def PHM_RES_STAT.FAULTNO : Fld := ⟨0x400B0330, 0, 16, .ro, 0⟩
/-- PHM_RMTCNT.DISC, bits 31 to 16 (16_line_measurement.md). -/
def PHM_RMTCNT.DISC : Fld := ⟨0x400B0334, 16, 16, .rc, 0⟩
/-- PHM_RMTCNT.ACCEPTED, bits 15 to 0 (16_line_measurement.md). -/
def PHM_RMTCNT.ACCEPTED : Fld := ⟨0x400B0334, 0, 16, .ro, 0⟩
/-- PHM_RES_DPH.D, bits 31 to 0 (16_line_measurement.md). -/
def PHM_RES_DPH.D : Fld := ⟨0x400B0328, 0, 32, .ro, 0⟩
/-- PHM_RES_DTW.D, bits 31 to 0 (16_line_measurement.md). -/
def PHM_RES_DTW.D : Fld := ⟨0x400B032C, 0, 32, .ro, 0⟩
/-- TSP_CFG.N, bits 15 to 8 (16_line_measurement.md). -/
def TSP_CFG.N : Fld := ⟨0x400B0400, 8, 8, .rwt, 5⟩
/-- TSP_CFG.RET, bits 7 to 0 (16_line_measurement.md). -/
def TSP_CFG.RET : Fld := ⟨0x400B0400, 0, 8, .rwt, 0x3C⟩
/-- TSP_STAT.DEMOTED, bits 22 to 16 (16_line_measurement.md). -/
def TSP_STAT.DEMOTED : Fld := ⟨0x400B0404, 16, 7, .ro, 0⟩
/-- TSP_STAT.COUNT, bits 15 to 0 (16_line_measurement.md). -/
def TSP_STAT.COUNT : Fld := ⟨0x400B0404, 0, 16, .ro, 0⟩
/-- TSP_SAVE.PRIO, bits 20 to 0 (16_line_measurement.md). -/
def TSP_SAVE.PRIO : Fld := ⟨0x400B0408, 0, 21, .ro, 0⟩
/-- ATR_CFG.HOLD, bits 31 to 16 (16_line_measurement.md). -/
def ATR_CFG.HOLD : Fld := ⟨0x400B0500, 16, 16, .rwt, 0x64⟩
/-- ATR_CFG.RET, bits 15 to 0 (16_line_measurement.md). -/
def ATR_CFG.RET : Fld := ⟨0x400B0500, 0, 16, .rwt, 0x3C⟩
/-- ATR_STAT.SWITCHES, bits 31 to 16 (16_line_measurement.md). -/
def ATR_STAT.SWITCHES : Fld := ⟨0x400B0504, 16, 16, .ro, 0⟩
/-- ATR_STAT.DEFERS, bits 15 to 8 (16_line_measurement.md). -/
def ATR_STAT.DEFERS : Fld := ⟨0x400B0504, 8, 8, .rc, 0⟩
/-- ATR_STAT.CUR, bits 1 to 0 (16_line_measurement.md). -/
def ATR_STAT.CUR : Fld := ⟨0x400B0504, 0, 2, .ro, 0⟩
/-- ATR_CAND_MODE.VALID, bits 31 to 31 (16_line_measurement.md). -/
def ATR_CAND_MODE.VALID (i : Nat) : Fld := ⟨0x400B0510 + 0x10 * i, 31, 1, .rwt, 0⟩
/-- ATR_CAND_MODE.SRC_MODE, bits 3 to 2 (16_line_measurement.md). -/
def ATR_CAND_MODE.SRC_MODE (i : Nat) : Fld := ⟨0x400B0510 + 0x10 * i, 2, 2, .rwt, 0⟩
/-- ATR_CAND_A.ADDR, bits 18 to 0 (16_line_measurement.md). -/
def ATR_CAND_A.ADDR (i : Nat) : Fld := ⟨0x400B0514 + 0x10 * i, 0, 19, .rwt, 0⟩
/-- ATR_CAND_B.ADDR, bits 18 to 0 (16_line_measurement.md). -/
def ATR_CAND_B.ADDR (i : Nat) : Fld := ⟨0x400B0518 + 0x10 * i, 0, 19, .rwt, 0⟩
/-- ATR_CAND_C.ADDR, bits 18 to 0 (16_line_measurement.md). -/
def ATR_CAND_C.ADDR (i : Nat) : Fld := ⟨0x400B051C + 0x10 * i, 0, 19, .rwt, 0⟩
/-- CAL_CTRL.DISC_EN, bits 31 to 31 (17_calendar_backup.md). -/
def CAL_CTRL.DISC_EN : Fld := ⟨0x400C0000, 31, 1, .rw, 1⟩
/-- CAL_CTRL.DQ, bits 27 to 24 (17_calendar_backup.md). -/
def CAL_CTRL.DQ : Fld := ⟨0x400C0000, 24, 4, .rw, 5⟩
/-- CAL_CTRL.PHLIM, bits 15 to 8 (17_calendar_backup.md). -/
def CAL_CTRL.PHLIM : Fld := ⟨0x400C0000, 8, 8, .rw, 2⟩
/-- CAL_CTRL.LBTH, bits 1 to 0 (17_calendar_backup.md). -/
def CAL_CTRL.LBTH : Fld := ⟨0x400C0000, 0, 2, .rw, 1⟩
/-- CAL_STAT.OSF, bits 31 to 31 (17_calendar_backup.md). -/
def CAL_STAT.OSF : Fld := ⟨0x400C0004, 31, 1, .ro, 1⟩
/-- CAL_STAT.LBF, bits 30 to 30 (17_calendar_backup.md). -/
def CAL_STAT.LBF : Fld := ⟨0x400C0004, 30, 1, .w1c, 0⟩
/-- CAL_STAT.DATE_REJECT, bits 29 to 29 (17_calendar_backup.md). -/
def CAL_STAT.DATE_REJECT : Fld := ⟨0x400C0004, 29, 1, .w1c, 0⟩
/-- CAL_STAT.ALARM, bits 28 to 28 (17_calendar_backup.md). -/
def CAL_STAT.ALARM : Fld := ⟨0x400C0004, 28, 1, .w1c, 0⟩
/-- CAL_STAT.STEPPED, bits 27 to 27 (17_calendar_backup.md). -/
def CAL_STAT.STEPPED : Fld := ⟨0x400C0004, 27, 1, .w1c, 0⟩
/-- CAL_STAT.TRIM_SAT, bits 26 to 26 (17_calendar_backup.md). -/
def CAL_STAT.TRIM_SAT : Fld := ⟨0x400C0004, 26, 1, .w1c, 0⟩
/-- CAL_STAT.DISC, bits 25 to 25 (17_calendar_backup.md). -/
def CAL_STAT.DISC : Fld := ⟨0x400C0004, 25, 1, .ro, 0⟩
/-- CAL_STAT.SNAP_HELD, bits 24 to 24 (17_calendar_backup.md). -/
def CAL_STAT.SNAP_HELD : Fld := ⟨0x400C0004, 24, 1, .ro, 0⟩
/-- CAL_STAT.CHG_ACTIVE, bits 23 to 23 (17_calendar_backup.md). -/
def CAL_STAT.CHG_ACTIVE : Fld := ⟨0x400C0004, 23, 1, .ro, 0⟩
/-- CAL_STAT.WRAPPED, bits 22 to 22 (17_calendar_backup.md). -/
def CAL_STAT.WRAPPED : Fld := ⟨0x400C0004, 22, 1, .w1c, 0⟩
/-- CAL_STAT.OSF_CAUSE, bits 21 to 20 (17_calendar_backup.md). -/
def CAL_STAT.OSF_CAUSE : Fld := ⟨0x400C0004, 20, 2, .ro, 1⟩
/-- CAL_TIME.WDAY, bits 26 to 24 (17_calendar_backup.md). -/
def CAL_TIME.WDAY : Fld := ⟨0x400C0010, 24, 3, .ro, 6⟩
/-- CAL_TIME.HOUR, bits 21 to 16 (17_calendar_backup.md). -/
def CAL_TIME.HOUR : Fld := ⟨0x400C0010, 16, 6, .ro, 0⟩
/-- CAL_TIME.MIN, bits 14 to 8 (17_calendar_backup.md). -/
def CAL_TIME.MIN : Fld := ⟨0x400C0010, 8, 7, .ro, 0⟩
/-- CAL_TIME.SEC, bits 6 to 0 (17_calendar_backup.md). -/
def CAL_TIME.SEC : Fld := ⟨0x400C0010, 0, 7, .ro, 0⟩
/-- CAL_DATE.YEAR, bits 31 to 16 (17_calendar_backup.md). -/
def CAL_DATE.YEAR : Fld := ⟨0x400C0014, 16, 16, .ro, 0x2000⟩
/-- CAL_DATE.MONTH, bits 12 to 8 (17_calendar_backup.md). -/
def CAL_DATE.MONTH : Fld := ⟨0x400C0014, 8, 5, .ro, 1⟩
/-- CAL_DATE.DAY, bits 5 to 0 (17_calendar_backup.md). -/
def CAL_DATE.DAY : Fld := ⟨0x400C0014, 0, 6, .ro, 1⟩
/-- CAL_SUB.TICKS, bits 14 to 0 (17_calendar_backup.md). -/
def CAL_SUB.TICKS : Fld := ⟨0x400C0018, 0, 15, .ro, 0⟩
/-- CAL_SNAP.RELEASE, bits 1 to 1 (17_calendar_backup.md). -/
def CAL_SNAP.RELEASE : Fld := ⟨0x400C001C, 1, 1, .wo, 0⟩
/-- CAL_SNAP.SNAP, bits 0 to 0 (17_calendar_backup.md). -/
def CAL_SNAP.SNAP : Fld := ⟨0x400C001C, 0, 1, .wo, 0⟩
/-- CAL_SET.GO, bits 0 to 0 (17_calendar_backup.md). -/
def CAL_SET.GO : Fld := ⟨0x400C0028, 0, 1, .wo, 0⟩
/-- CAL_ALARM.EN, bits 31 to 28 (17_calendar_backup.md). -/
def CAL_ALARM.EN : Fld := ⟨0x400C0030, 28, 4, .rw, 0⟩
/-- CAL_ALARM.DAY, bits 27 to 22 (17_calendar_backup.md). -/
def CAL_ALARM.DAY : Fld := ⟨0x400C0030, 22, 6, .rw, 1⟩
/-- CAL_ALARM.HOUR, bits 21 to 16 (17_calendar_backup.md). -/
def CAL_ALARM.HOUR : Fld := ⟨0x400C0030, 16, 6, .rw, 0⟩
/-- CAL_ALARM.MIN, bits 14 to 8 (17_calendar_backup.md). -/
def CAL_ALARM.MIN : Fld := ⟨0x400C0030, 8, 7, .rw, 0⟩
/-- CAL_ALARM.SEC, bits 6 to 0 (17_calendar_backup.md). -/
def CAL_ALARM.SEC : Fld := ⟨0x400C0030, 0, 7, .rw, 0⟩
/-- CAL_CHG.EN, bits 31 to 31 (17_calendar_backup.md). -/
def CAL_CHG.EN : Fld := ⟨0x400C0040, 31, 1, .rwt, 0⟩
/-- CAL_CHG.ICHG, bits 29 to 28 (17_calendar_backup.md). -/
def CAL_CHG.ICHG : Fld := ⟨0x400C0040, 28, 2, .rwt, 0⟩
/-- CAL_CHG.VLIM, bits 25 to 24 (17_calendar_backup.md). -/
def CAL_CHG.VLIM : Fld := ⟨0x400C0040, 24, 2, .rwt, 0⟩
/-- CAL_CHG.DIODE, bits 20 to 20 (17_calendar_backup.md). -/
def CAL_CHG.DIODE : Fld := ⟨0x400C0040, 20, 1, .rwt, 0⟩
/-- CAL_TRIM.TRIM, bits 7 to 0 (17_calendar_backup.md). -/
def CAL_TRIM.TRIM : Fld := ⟨0x400C0044, 0, 8, .ro, 0⟩
/-- CAL_VBAT.V, bits 7 to 0 (17_calendar_backup.md). -/
def CAL_VBAT.V : Fld := ⟨0x400C0048, 0, 8, .ro, 0⟩
/-- CAL_DISC.PHASE, bits 31 to 16 (17_calendar_backup.md). -/
def CAL_DISC.PHASE : Fld := ⟨0x400C004C, 16, 16, .ro, 0⟩
/-- CAL_DISC.STEPS, bits 15 to 0 (17_calendar_backup.md). -/
def CAL_DISC.STEPS : Fld := ⟨0x400C004C, 0, 16, .ro, 0⟩
/-- CAL_WTIME.HMS, bits 21 to 0 (17_calendar_backup.md). -/
def CAL_WTIME.HMS : Fld := ⟨0x400C0020, 0, 22, .rw, 0⟩
/-- CAL_WDATE.DATE, bits 31 to 0 (17_calendar_backup.md). -/
def CAL_WDATE.DATE : Fld := ⟨0x400C0024, 0, 32, .rw, 0x20000101⟩
/-- ZCP_CFG.UDP_EN, bits 31 to 31 (18_command_protocol.md). -/
def ZCP_CFG.UDP_EN : Fld := ⟨0x400D0000, 31, 1, .rw, 1⟩
/-- ZCP_CFG.SBL_EN, bits 30 to 30 (18_command_protocol.md). -/
def ZCP_CFG.SBL_EN : Fld := ⟨0x400D0000, 30, 1, .rw, 1⟩
/-- ZCP_CFG.ANN_EN, bits 29 to 29 (18_command_protocol.md). -/
def ZCP_CFG.ANN_EN : Fld := ⟨0x400D0000, 29, 1, .rw, 1⟩
/-- ZCP_CFG.SESS_TMO, bits 15 to 0 (18_command_protocol.md). -/
def ZCP_CFG.SESS_TMO : Fld := ⟨0x400D0000, 0, 16, .rw, 0x12C⟩
/-- ZCP_STAT.SESS, bits 31 to 24 (18_command_protocol.md). -/
def ZCP_STAT.SESS : Fld := ⟨0x400D0004, 24, 8, .ro, 0⟩
/-- ZCP_STAT.OPS, bits 23 to 16 (18_command_protocol.md). -/
def ZCP_STAT.OPS : Fld := ⟨0x400D0004, 16, 8, .ro, 0⟩
/-- ZCP_STAT.QUEUE, bits 4 to 0 (18_command_protocol.md). -/
def ZCP_STAT.QUEUE : Fld := ⟨0x400D0004, 0, 5, .ro, 0⟩
/-- ZCP_CNT0.BADCRC, bits 31 to 16 (18_command_protocol.md). -/
def ZCP_CNT0.BADCRC : Fld := ⟨0x400D0008, 16, 16, .rc, 0⟩
/-- ZCP_CNT0.BADPKT, bits 15 to 0 (18_command_protocol.md). -/
def ZCP_CNT0.BADPKT : Fld := ⟨0x400D0008, 0, 16, .rc, 0⟩
/-- ZCP_CNT1.STALE, bits 31 to 16 (18_command_protocol.md). -/
def ZCP_CNT1.STALE : Fld := ⟨0x400D000C, 16, 16, .rc, 0⟩
/-- ZCP_CNT1.QDROP, bits 15 to 0 (18_command_protocol.md). -/
def ZCP_CNT1.QDROP : Fld := ⟨0x400D000C, 0, 16, .rc, 0⟩
/-- ZCP_JSEQ.SEQ, bits 31 to 0 (18_command_protocol.md). -/
def ZCP_JSEQ.SEQ : Fld := ⟨0x400D0010, 0, 32, .ro, 0⟩
/-- ZCP_JMIR.SEQ, bits 31 to 0 (18_command_protocol.md). -/
def ZCP_JMIR.SEQ : Fld := ⟨0x400D0014, 0, 32, .ro, 0xFFFFFFFF⟩
/-- ZCP_JLOST.CNT, bits 31 to 0 (18_command_protocol.md). -/
def ZCP_JLOST.CNT : Fld := ⟨0x400D0018, 0, 32, .rc, 0⟩
/-- ZCP_ESEQ.SEQ, bits 31 to 0 (18_command_protocol.md). -/
def ZCP_ESEQ.SEQ : Fld := ⟨0x400D001C, 0, 32, .ro, 0⟩
/-- ZCP_EACK.SEQ, bits 31 to 0 (18_command_protocol.md). -/
def ZCP_EACK.SEQ : Fld := ⟨0x400D0020, 0, 32, .rw, 0⟩
/-- ZCP_IRQSRC.HALT, bits 4 to 4 (18_command_protocol.md). -/
def ZCP_IRQSRC.HALT : Fld := ⟨0x400D0024, 4, 1, .ro, 0⟩
/-- ZCP_IRQSRC.JLOST, bits 3 to 3 (18_command_protocol.md). -/
def ZCP_IRQSRC.JLOST : Fld := ⟨0x400D0024, 3, 1, .ro, 0⟩
/-- ZCP_IRQSRC.MODE, bits 2 to 2 (18_command_protocol.md). -/
def ZCP_IRQSRC.MODE : Fld := ⟨0x400D0024, 2, 1, .w1c, 0⟩
/-- ZCP_IRQSRC.EVT, bits 1 to 1 (18_command_protocol.md). -/
def ZCP_IRQSRC.EVT : Fld := ⟨0x400D0024, 1, 1, .ro, 0⟩
/-- ZCP_IRQSRC.RDY, bits 0 to 0 (18_command_protocol.md). -/
def ZCP_IRQSRC.RDY : Fld := ⟨0x400D0024, 0, 1, .ro, 0⟩
/-- ZCP_SPISTAT.QFULL, bits 31 to 31 (18_command_protocol.md). -/
def ZCP_SPISTAT.QFULL : Fld := ⟨0x400D002C, 31, 1, .ro, 0⟩
/-- ZCP_SPISTAT.RDY, bits 30 to 30 (18_command_protocol.md). -/
def ZCP_SPISTAT.RDY : Fld := ⟨0x400D002C, 30, 1, .ro, 0⟩
/-- ZCP_SPISTAT.COUNT, bits 29 to 27 (18_command_protocol.md). -/
def ZCP_SPISTAT.COUNT : Fld := ⟨0x400D002C, 27, 3, .ro, 0⟩
/-- ZCP_ANNGRP.IP, bits 31 to 0 (18_command_protocol.md). -/
def ZCP_ANNGRP.IP : Fld := ⟨0x400D0030, 0, 32, .rw, 0xEFC04715⟩
/-- ZCP_FW.ROM, bits 31 to 16 (18_command_protocol.md). -/
def ZCP_FW.ROM : Fld := ⟨0x400D0034, 16, 16, .ro, 1⟩
/-- ZCP_FW.PATCH, bits 15 to 0 (18_command_protocol.md). -/
def ZCP_FW.PATCH : Fld := ⟨0x400D0034, 0, 16, .ro, 0⟩
/-- ZCP_IRQMASK.M3, bits 28 to 24 (18_command_protocol.md). -/
def ZCP_IRQMASK.M3 : Fld := ⟨0x400D0028, 24, 5, .rw, 0⟩
/-- ZCP_IRQMASK.M2, bits 20 to 16 (18_command_protocol.md). -/
def ZCP_IRQMASK.M2 : Fld := ⟨0x400D0028, 16, 5, .rw, 0x14⟩
/-- ZCP_IRQMASK.M1, bits 12 to 8 (18_command_protocol.md). -/
def ZCP_IRQMASK.M1 : Fld := ⟨0x400D0028, 8, 5, .rw, 2⟩
/-- ZCP_IRQMASK.M0, bits 4 to 0 (18_command_protocol.md). -/
def ZCP_IRQMASK.M0 : Fld := ⟨0x400D0028, 0, 5, .rw, 1⟩
/-- ZCP_EVT.W, bits 31 to 0 (18_command_protocol.md). -/
def ZCP_EVT.W (i : Nat) (j : Nat) : Fld := ⟨0x400D1000 + 0x20 * i + 0x4 * j, 0, 32, .ro, 0⟩
/-- PWR_DSTAT.RST, bits 27 to 16 (19_power_health_trace.md). -/
def PWR_DSTAT.RST : Fld := ⟨0x400E0000, 16, 12, .ro, 0⟩
/-- PWR_DSTAT.ON, bits 11 to 0 (19_power_health_trace.md). -/
def PWR_DSTAT.ON : Fld := ⟨0x400E0000, 0, 12, .ro, 0xFFF⟩
/-- PWR_D11CTL.OFF, bits 0 to 0 (19_power_health_trace.md). -/
def PWR_D11CTL.OFF : Fld := ⟨0x400E0004, 0, 1, .rw, 0⟩
/-- PWR_AVS.EN, bits 31 to 31 (19_power_health_trace.md). -/
def PWR_AVS.EN : Fld := ⟨0x400E0010, 31, 1, .rwt, 0⟩
/-- PWR_AVS.PEC, bits 30 to 30 (19_power_health_trace.md). -/
def PWR_AVS.PEC : Fld := ⟨0x400E0010, 30, 1, .rwt, 0⟩
/-- PWR_AVS.ADDR, bits 22 to 16 (19_power_health_trace.md). -/
def PWR_AVS.ADDR : Fld := ⟨0x400E0010, 16, 7, .rwt, 0⟩
/-- PWR_AVS.STEP, bits 11 to 8 (19_power_health_trace.md). -/
def PWR_AVS.STEP : Fld := ⟨0x400E0010, 8, 4, .rwt, 0xA⟩
/-- PWR_AVS.PERIOD, bits 7 to 0 (19_power_health_trace.md). -/
def PWR_AVS.PERIOD : Fld := ⟨0x400E0010, 0, 8, .rwt, 0xA⟩
/-- PWR_AVSLIM.VMAX, bits 31 to 22 (19_power_health_trace.md). -/
def PWR_AVSLIM.VMAX : Fld := ⟨0x400E0014, 22, 10, .rwt, 0x370⟩
/-- PWR_AVSLIM.VNOM, bits 21 to 12 (19_power_health_trace.md). -/
def PWR_AVSLIM.VNOM : Fld := ⟨0x400E0014, 12, 10, .rwt, 0x320⟩
/-- PWR_AVSLIM.VMIN, bits 9 to 0 (19_power_health_trace.md). -/
def PWR_AVSLIM.VMIN : Fld := ⟨0x400E0014, 0, 10, .rwt, 0x2D0⟩
/-- PWR_AVSTGT.TGT_HI, bits 31 to 16 (19_power_health_trace.md). -/
def PWR_AVSTGT.TGT_HI : Fld := ⟨0x400E0018, 16, 16, .rwt, 0x3070⟩
/-- PWR_AVSTGT.TGT_LO, bits 15 to 0 (19_power_health_trace.md). -/
def PWR_AVSTGT.TGT_LO : Fld := ⟨0x400E0018, 0, 16, .rwt, 0x2E18⟩
/-- PWR_AVSSTAT.VSET, bits 25 to 16 (19_power_health_trace.md). -/
def PWR_AVSSTAT.VSET : Fld := ⟨0x400E001C, 16, 10, .ro, 0x320⟩
/-- PWR_AVSSTAT.HOLDING, bits 2 to 2 (19_power_health_trace.md). -/
def PWR_AVSSTAT.HOLDING : Fld := ⟨0x400E001C, 2, 1, .ro, 0⟩
/-- PWR_AVSSTAT.ALERT, bits 1 to 1 (19_power_health_trace.md). -/
def PWR_AVSSTAT.ALERT : Fld := ⟨0x400E001C, 1, 1, .w1c, 0⟩
/-- PWR_AVSSTAT.FAULT, bits 0 to 0 (19_power_health_trace.md). -/
def PWR_AVSSTAT.FAULT : Fld := ⟨0x400E001C, 0, 1, .w1c, 0⟩
/-- PWR_AVSCNT.STEPS, bits 31 to 16 (19_power_health_trace.md). -/
def PWR_AVSCNT.STEPS : Fld := ⟨0x400E0020, 16, 16, .ro, 0⟩
/-- PWR_AVSCNT.SKIP, bits 15 to 0 (19_power_health_trace.md). -/
def PWR_AVSCNT.SKIP : Fld := ⟨0x400E0020, 0, 16, .rc, 0⟩
/-- PWR_AVSPMB.STATUS, bits 15 to 0 (19_power_health_trace.md). -/
def PWR_AVSPMB.STATUS : Fld := ⟨0x400E0024, 0, 16, .ro, 0⟩
/-- MON_TEMP.T, bits 15 to 0 (19_power_health_trace.md). -/
def MON_TEMP.T (i : Nat) : Fld := ⟨0x400E0110 + 0x4 * i, 0, 16, .ro, 0⟩
/-- MON_TCFG.WARN_HI, bits 31 to 24 (19_power_health_trace.md). -/
def MON_TCFG.WARN_HI : Fld := ⟨0x400E0130, 24, 8, .rw, 0x6E⟩
/-- MON_TCFG.WARN_LO, bits 23 to 16 (19_power_health_trace.md). -/
def MON_TCFG.WARN_LO : Fld := ⟨0x400E0130, 16, 8, .rw, 0xD8⟩
/-- MON_TCFG.TSHUT, bits 15 to 8 (19_power_health_trace.md). -/
def MON_TCFG.TSHUT : Fld := ⟨0x400E0130, 8, 8, .rwt, 0x82⟩
/-- MON_VOLT.MV, bits 15 to 0 (19_power_health_trace.md). -/
def MON_VOLT.MV (i : Nat) : Fld := ⟨0x400E0140 + 0x4 * i, 0, 16, .ro, 0⟩
/-- MON_VWARN0.HI, bits 31 to 16 (19_power_health_trace.md). -/
def MON_VWARN0.HI : Fld := ⟨0x400E0180, 16, 16, .rw, 0x3A2⟩
/-- MON_VWARN0.LO, bits 15 to 0 (19_power_health_trace.md). -/
def MON_VWARN0.LO : Fld := ⟨0x400E0180, 0, 16, .rw, 0x2A8⟩
/-- MON_VWARN1.HI, bits 31 to 16 (19_power_health_trace.md). -/
def MON_VWARN1.HI : Fld := ⟨0x400E0184, 16, 16, .rw, 0x38E⟩
/-- MON_VWARN1.LO, bits 15 to 0 (19_power_health_trace.md). -/
def MON_VWARN1.LO : Fld := ⟨0x400E0184, 0, 16, .rw, 0x316⟩
/-- MON_VWARN2.HI, bits 31 to 16 (19_power_health_trace.md). -/
def MON_VWARN2.HI : Fld := ⟨0x400E0188, 16, 16, .rw, 0x42E⟩
/-- MON_VWARN2.LO, bits 15 to 0 (19_power_health_trace.md). -/
def MON_VWARN2.LO : Fld := ⟨0x400E0188, 0, 16, .rw, 0x3A2⟩
/-- MON_VWARN3.HI, bits 31 to 16 (19_power_health_trace.md). -/
def MON_VWARN3.HI : Fld := ⟨0x400E018C, 16, 16, .rw, 0x78A⟩
/-- MON_VWARN3.LO, bits 15 to 0 (19_power_health_trace.md). -/
def MON_VWARN3.LO : Fld := ⟨0x400E018C, 0, 16, .rw, 0x686⟩
/-- MON_VWARN4.HI, bits 31 to 16 (19_power_health_trace.md). -/
def MON_VWARN4.HI : Fld := ⟨0x400E0190, 16, 16, .rw, 0x7BC⟩
/-- MON_VWARN4.LO, bits 15 to 0 (19_power_health_trace.md). -/
def MON_VWARN4.LO : Fld := ⟨0x400E0190, 0, 16, .rw, 0x654⟩
/-- MON_VWARN5.HI, bits 31 to 16 (19_power_health_trace.md). -/
def MON_VWARN5.HI : Fld := ⟨0x400E0194, 16, 16, .rw, 0x7BC⟩
/-- MON_VWARN5.LO, bits 15 to 0 (19_power_health_trace.md). -/
def MON_VWARN5.LO : Fld := ⟨0x400E0194, 0, 16, .rw, 0x654⟩
/-- MON_VWARN6.HI, bits 31 to 16 (19_power_health_trace.md). -/
def MON_VWARN6.HI : Fld := ⟨0x400E0198, 16, 16, .rw, 0x7BC⟩
/-- MON_VWARN6.LO, bits 15 to 0 (19_power_health_trace.md). -/
def MON_VWARN6.LO : Fld := ⟨0x400E0198, 0, 16, .rw, 0x654⟩
/-- MON_VWARN7.HI, bits 31 to 16 (19_power_health_trace.md). -/
def MON_VWARN7.HI : Fld := ⟨0x400E019C, 16, 16, .rw, 0x7BC⟩
/-- MON_VWARN7.LO, bits 15 to 0 (19_power_health_trace.md). -/
def MON_VWARN7.LO : Fld := ⟨0x400E019C, 0, 16, .rw, 0x654⟩
/-- MON_VWARN8.HI, bits 31 to 16 (19_power_health_trace.md). -/
def MON_VWARN8.HI : Fld := ⟨0x400E01A0, 16, 16, .rw, 0x7BC⟩
/-- MON_VWARN8.LO, bits 15 to 0 (19_power_health_trace.md). -/
def MON_VWARN8.LO : Fld := ⟨0x400E01A0, 0, 16, .rw, 0x654⟩
/-- MON_PM.COUNT, bits 15 to 0 (19_power_health_trace.md). -/
def MON_PM.COUNT (i : Nat) : Fld := ⟨0x400E01C0 + 0x4 * i, 0, 16, .ro, 0⟩
/-- MON_STAT.HOT, bits 26 to 26 (19_power_health_trace.md). -/
def MON_STAT.HOT : Fld := ⟨0x400E01E0, 26, 1, .w1c, 0⟩
/-- MON_STAT.TWARN, bits 25 to 20 (19_power_health_trace.md). -/
def MON_STAT.TWARN : Fld := ⟨0x400E01E0, 20, 6, .w1c, 0⟩
/-- MON_STAT.VWARN, bits 9 to 0 (19_power_health_trace.md). -/
def MON_STAT.VWARN : Fld := ⟨0x400E01E0, 0, 10, .w1c, 0⟩
/-- MON_EXT.TMAX, bits 31 to 16 (19_power_health_trace.md). -/
def MON_EXT.TMAX : Fld := ⟨0x400E01E4, 16, 16, .rc, 0x8000⟩
/-- MON_EXT.TMIN, bits 15 to 0 (19_power_health_trace.md). -/
def MON_EXT.TMIN : Fld := ⟨0x400E01E4, 0, 16, .rc, 0x7FFF⟩
/-- TRC_CTRL.EN, bits 31 to 31 (19_power_health_trace.md). -/
def TRC_CTRL.EN : Fld := ⟨0x400F0000, 31, 1, .rw, 0⟩
/-- TRC_CTRL.SINK, bits 30 to 29 (19_power_health_trace.md). -/
def TRC_CTRL.SINK : Fld := ⟨0x400F0000, 29, 2, .rw, 1⟩
/-- TRC_CTRL.WRAP, bits 28 to 28 (19_power_health_trace.md). -/
def TRC_CTRL.WRAP : Fld := ⟨0x400F0000, 28, 1, .rw, 1⟩
/-- TRC_CTRL.FLOW_ALL, bits 27 to 27 (19_power_health_trace.md). -/
def TRC_CTRL.FLOW_ALL : Fld := ⟨0x400F0000, 27, 1, .rw, 0⟩
/-- TRC_CTRL.GUARD_ALL, bits 26 to 26 (19_power_health_trace.md). -/
def TRC_CTRL.GUARD_ALL : Fld := ⟨0x400F0000, 26, 1, .rw, 0⟩
/-- TRC_CTRL.TYPES, bits 23 to 20 (19_power_health_trace.md). -/
def TRC_CTRL.TYPES : Fld := ⟨0x400F0000, 20, 4, .rw, 0xF⟩
/-- TRC_CTRL.TASKS, bits 19 to 12 (19_power_health_trace.md). -/
def TRC_CTRL.TASKS : Fld := ⟨0x400F0000, 12, 8, .rw, 0xFF⟩
/-- TRC_CTRL.SYNCINT, bits 11 to 0 (19_power_health_trace.md). -/
def TRC_CTRL.SYNCINT : Fld := ⟨0x400F0000, 0, 12, .rw, 0x400⟩
/-- TRC_STAT.FULL, bits 31 to 31 (19_power_health_trace.md). -/
def TRC_STAT.FULL : Fld := ⟨0x400F0004, 31, 1, .ro, 0⟩
/-- TRC_STAT.DROP_OVF, bits 30 to 30 (19_power_health_trace.md). -/
def TRC_STAT.DROP_OVF : Fld := ⟨0x400F0004, 30, 1, .w1c, 0⟩
/-- TRC_STAT.DROP, bits 15 to 0 (19_power_health_trace.md). -/
def TRC_STAT.DROP : Fld := ⟨0x400F0004, 0, 16, .rc, 0⟩
/-- TRC_WPTR.IDX, bits 13 to 0 (19_power_health_trace.md). -/
def TRC_WPTR.IDX : Fld := ⟨0x400F0020, 0, 14, .ro, 0⟩
/-- TRC_RADDR.IDX, bits 13 to 0 (19_power_health_trace.md). -/
def TRC_RADDR.IDX : Fld := ⟨0x400F0024, 0, 14, .rw, 0⟩
/-- TRC_RDATA.W, bits 31 to 0 (19_power_health_trace.md). -/
def TRC_RDATA.W : Fld := ⟨0x400F0028, 0, 32, .ro, 0⟩
/-- TRC_PORT.DIV, bits 3 to 0 (19_power_health_trace.md). -/
def TRC_PORT.DIV : Fld := ⟨0x400F002C, 0, 4, .rw, 2⟩
/-- TRC_PFLT.EN, bits 31 to 31 (19_power_health_trace.md). -/
def TRC_PFLT.EN (i : Nat) : Fld := ⟨0x400F0010 + 0x4 * i, 31, 1, .rw, 0⟩
/-- TRC_PFLT.MASK, bits 25 to 16 (19_power_health_trace.md). -/
def TRC_PFLT.MASK (i : Nat) : Fld := ⟨0x400F0010 + 0x4 * i, 16, 10, .rw, 0x3FF⟩
/-- TRC_PFLT.PORT, bits 9 to 0 (19_power_health_trace.md). -/
def TRC_PFLT.PORT (i : Nat) : Fld := ⟨0x400F0010 + 0x4 * i, 0, 10, .rw, 0⟩
/-- RST_CAUSE.LAST, bits 31 to 24 (20_reset_boot_nv.md). -/
def RST_CAUSE.LAST : Fld := ⟨0x40100000, 24, 8, .ro, 1⟩
/-- RST_CAUSE.SRC, bits 5 to 0 (20_reset_boot_nv.md). -/
def RST_CAUSE.SRC : Fld := ⟨0x40100000, 0, 6, .w1c, 1⟩
/-- RST_CFG.EXT, bits 15 to 0 (20_reset_boot_nv.md). -/
def RST_CFG.EXT : Fld := ⟨0x40100004, 0, 16, .rw, 0x2710⟩
/-- RST_WDOG.TMO, bits 15 to 0 (20_reset_boot_nv.md). -/
def RST_WDOG.TMO : Fld := ⟨0x40100008, 0, 16, .rw, 0x64⟩
/-- RST_STRAP.BOOTSEL, bits 1 to 0 (20_reset_boot_nv.md). -/
def RST_STRAP.BOOTSEL : Fld := ⟨0x4010000C, 0, 2, .ro, 0⟩
/-- NVS_CFG.DIV, bits 3 to 0 (20_reset_boot_nv.md). -/
def NVS_CFG.DIV : Fld := ⟨0x40100100, 0, 4, .rw, 2⟩
/-- NVS_STAT.BOOTSLOT, bits 31 to 30 (20_reset_boot_nv.md). -/
def NVS_STAT.BOOTSLOT : Fld := ⟨0x40100104, 30, 2, .ro, 3⟩
/-- NVS_STAT.BOOTSEL, bits 29 to 28 (20_reset_boot_nv.md). -/
def NVS_STAT.BOOTSEL : Fld := ⟨0x40100104, 28, 2, .ro, 0⟩
/-- NVS_STAT.REJ0, bits 27 to 24 (20_reset_boot_nv.md). -/
def NVS_STAT.REJ0 : Fld := ⟨0x40100104, 24, 4, .ro, 0⟩
/-- NVS_STAT.REJ1, bits 23 to 20 (20_reset_boot_nv.md). -/
def NVS_STAT.REJ1 : Fld := ⟨0x40100104, 20, 4, .ro, 0⟩
/-- NVS_STAT.RESTORED, bits 19 to 19 (20_reset_boot_nv.md). -/
def NVS_STAT.RESTORED : Fld := ⟨0x40100104, 19, 1, .ro, 0⟩
/-- NVS_STAT.PATCH_SKIP, bits 18 to 18 (20_reset_boot_nv.md). -/
def NVS_STAT.PATCH_SKIP : Fld := ⟨0x40100104, 18, 1, .ro, 0⟩
/-- NVS_STAT.RELOAD_DIFF, bits 17 to 17 (20_reset_boot_nv.md). -/
def NVS_STAT.RELOAD_DIFF : Fld := ⟨0x40100104, 17, 1, .w1c, 0⟩
/-- NVS_STAT.BUSY, bits 16 to 16 (20_reset_boot_nv.md). -/
def NVS_STAT.BUSY : Fld := ⟨0x40100104, 16, 1, .ro, 0⟩
/-- NVS_STAT.SETS_APPLIED, bits 15 to 8 (20_reset_boot_nv.md). -/
def NVS_STAT.SETS_APPLIED : Fld := ⟨0x40100104, 8, 8, .ro, 0⟩
/-- NVS_STAT.SETS_VOIDED, bits 7 to 0 (20_reset_boot_nv.md). -/
def NVS_STAT.SETS_VOIDED : Fld := ⟨0x40100104, 0, 8, .ro, 0⟩
/-- NVS_BASE.SEQ, bits 23 to 0 (20_reset_boot_nv.md). -/
def NVS_BASE.SEQ : Fld := ⟨0x40100110, 0, 24, .ro, 0⟩
/-- NVS_TXA.FREE, bits 31 to 24 (20_reset_boot_nv.md). -/
def NVS_TXA.FREE : Fld := ⟨0x40100114, 24, 8, .ro, 8⟩
/-- NVS_TXA.NEXT, bits 23 to 0 (20_reset_boot_nv.md). -/
def NVS_TXA.NEXT : Fld := ⟨0x40100114, 0, 24, .ro, 0⟩
/-- NVS_RETCFG.MIRROR_EN, bits 31 to 31 (20_reset_boot_nv.md). -/
def NVS_RETCFG.MIRROR_EN : Fld := ⟨0x40100118, 31, 1, .rw, 1⟩
/-- NVS_RETCFG.RESTORE, bits 30 to 30 (20_reset_boot_nv.md). -/
def NVS_RETCFG.RESTORE : Fld := ⟨0x40100118, 30, 1, .rw, 1⟩
/-- NVS_RETCFG.PERIOD, bits 15 to 0 (20_reset_boot_nv.md). -/
def NVS_RETCFG.PERIOD : Fld := ⟨0x40100118, 0, 16, .rw, 0x3C⟩
/-- NVS_RETSEQ.SEQ, bits 31 to 0 (20_reset_boot_nv.md). -/
def NVS_RETSEQ.SEQ : Fld := ⟨0x4010011C, 0, 32, .ro, 0⟩
/-- NVS_RETTAI.SEC, bits 31 to 0 (20_reset_boot_nv.md). -/
def NVS_RETTAI.SEC : Fld := ⟨0x40100120, 0, 32, .ro, 0⟩
/-- NVS_D0MARK.SEEN, bits 0 to 0 (20_reset_boot_nv.md). -/
def NVS_D0MARK.SEEN : Fld := ⟨0x40100124, 0, 1, .ro, 0⟩
/-- NVS_SIZE.BYTES, bits 31 to 0 (20_reset_boot_nv.md). -/
def NVS_SIZE.BYTES : Fld := ⟨0x40100128, 0, 32, .ro, 0⟩
/-- NVS_CNT.FAIL, bits 31 to 16 (20_reset_boot_nv.md). -/
def NVS_CNT.FAIL : Fld := ⟨0x4010012C, 16, 16, .rc, 0⟩
/-- NVS_CNT.SELF, bits 15 to 0 (20_reset_boot_nv.md). -/
def NVS_CNT.SELF : Fld := ⟨0x4010012C, 0, 16, .rc, 0⟩
/-- NVS_GEN.GEN, bits 31 to 0 (20_reset_boot_nv.md). -/
def NVS_GEN.GEN (i : Nat) : Fld := ⟨0x40100108 + 0x4 * i, 0, 32, .ro, 0⟩

end Reg

open Reg

/-- The rows of the SYS block. -/
def sysRows : List RegRow :=
  [ ⟨"SYS_ID", 0x40000000, [], false, [SYS_ID.PART, SYS_ID.CLASS, SYS_ID.REV, SYS_ID.STEP]⟩,
    ⟨"SYS_STATION", 0x40000004, [], false, [SYS_STATION.SYSTEM_ID, SYS_STATION.STN]⟩,
    ⟨"SYS_DIRCRC", 0x40000008, [], false, [SYS_DIRCRC.CRC]⟩,
    ⟨"SYS_FLAGS", 0x4000000C, [], false, [SYS_FLAGS.DIR_MISMATCH, SYS_FLAGS.STN_CONFLICT]⟩,
    ⟨"SYS_MODE", 0x40000010, [], false, [SYS_MODE.HALT_CAUSE, SYS_MODE.NO_IMAGE, SYS_MODE.STOP_FORCED, SYS_MODE.ST_FAIL, SYS_MODE.PREV, SYS_MODE.MODE]⟩,
    ⟨"SYS_MODECTL", 0x40000014, [], false, [SYS_MODECTL.AUTORUN, SYS_MODECTL.STOP_TMO, SYS_MODECTL.REQ]⟩,
    ⟨"SYS_HOLDCFG", 0x40000018, [], false, [SYS_HOLDCFG.KEEP]⟩,
    ⟨"SYS_WAKE", 0x4000001C, [], false, [SYS_WAKE.EN]⟩,
    ⟨"SYS_WAKESRC", 0x40000020, [], false, [SYS_WAKESRC.SRC]⟩,
    ⟨"SYS_STRES", 0x40000024, [], false, [SYS_STRES.RES]⟩,
    ⟨"SYS_SCRUB", 0x40000028, [], false, [SYS_SCRUB.EN, SYS_SCRUB.CORR_OVF, SYS_SCRUB.UNCORR_OVF, SYS_SCRUB.PACE]⟩,
    ⟨"SYS_SCRUBCNT", 0x4000002C, [], false, [SYS_SCRUBCNT.CORR, SYS_SCRUBCNT.UNCORR]⟩ ]
  ++ [ ⟨"SYS_SCRUBPASS", 0x40000030, [], false, [SYS_SCRUBPASS.US]⟩,
    ⟨"SYS_WAKETIME", 0x40000034, [], false, [SYS_WAKETIME.SEC]⟩,
    ⟨"SYS_ACCERR", 0x40000040, [], false, [SYS_ACCERR.FIRST, SYS_ACCERR.FIRST_DBG, SYS_ACCERR.FLAGS]⟩,
    ⟨"SYS_ACCADDR", 0x40000044, [], false, [SYS_ACCADDR.ADDR]⟩,
    ⟨"SYS_DIR_CTRL", 0x40002000, [(256, 0x20)], false, [SYS_DIR_CTRL.VALID 0, SYS_DIR_CTRL.ROLE 0, SYS_DIR_CTRL.PARTNER 0, SYS_DIR_CTRL.PORTS 0, SYS_DIR_CTRL.REARM_AUTO 0, SYS_DIR_CTRL.SUPV 0]⟩,
    ⟨"SYS_DIR_MAC1", 0x40002004, [(256, 0x20)], false, [SYS_DIR_MAC1.MAC_HI 0]⟩,
    ⟨"SYS_DIR_MAC2", 0x40002008, [(256, 0x20)], false, [SYS_DIR_MAC2.MAC_LO 0]⟩,
    ⟨"SYS_DIR_IP4", 0x4000200C, [(256, 0x20)], false, [SYS_DIR_IP4.IPV4 0]⟩,
    ⟨"SYS_DIR_IP6", 0x40002010, [(256, 0x20), (4, 0x4)], false, [SYS_DIR_IP6.IPV6 0 0]⟩ ]

/-- The rows of the TIM block. -/
def timRows : List RegRow :=
  [ ⟨"TIM_CTRL", 0x40010000, [], false, [TIM_CTRL.QUAL_TIME, TIM_CTRL.SEL_HOLD, TIM_CTRL.FORCE_SRC, TIM_CTRL.STEP_RUN, TIM_CTRL.TC_EN, TIM_CTRL.DISC_EN]⟩,
    ⟨"TIM_STAT", 0x40010004, [], false, [TIM_STAT.SRC_DISAGREE, TIM_STAT.STEPPED, TIM_STAT.SLEWING, TIM_STAT.LEAP_PENDING, TIM_STAT.HOLDOVER, TIM_STAT.LOCKED, TIM_STAT.CAL_DERIVED, TIM_STAT.TIME_VALID, TIM_STAT.ACTIVE_SRC, TIM_STAT.TQ]⟩,
    ⟨"TIM_UNC", 0x40010008, [], false, [TIM_UNC.UNC]⟩,
    ⟨"TIM_FADJ", 0x4001000C, [], false, [TIM_FADJ.FADJ]⟩,
    ⟨"TIM_NOW_SH", 0x40010010, [], false, [TIM_NOW_SH.SEC_HI]⟩,
    ⟨"TIM_NOW_SL", 0x40010014, [], false, [TIM_NOW_SL.SEC_LO]⟩,
    ⟨"TIM_NOW_NS", 0x40010018, [], false, [TIM_NOW_NS.NS]⟩,
    ⟨"TIM_NOW_FR", 0x4001001C, [], false, [TIM_NOW_FR.FRAC]⟩,
    ⟨"TIM_HOLD_RATE", 0x40010024, [], false, [TIM_HOLD_RATE.RATE]⟩,
    ⟨"TIM_STEP_LIM", 0x40010028, [], false, [TIM_STEP_LIM.LIM]⟩,
    ⟨"TIM_DISAGREE", 0x4001002C, [], false, [TIM_DISAGREE.LIM]⟩,
    ⟨"TIM_ASYM", 0x40010030, [], false, [TIM_ASYM.ASYM]⟩ ]
  ++ [ ⟨"TIM_UTC", 0x40010020, [], false, [TIM_UTC.LEAP61, TIM_UTC.LEAP59, TIM_UTC.TAI_UTC]⟩,
    ⟨"TIM_SRC_CFG", 0x40010040, [(7, 0x10)], false, [TIM_SRC_CFG.DOMAIN 0, TIM_SRC_CFG.PRIO 0, TIM_SRC_CFG.SRC_UNC 0, TIM_SRC_CFG.PROFILE 0, TIM_SRC_CFG.TRANSPORT 0, TIM_SRC_CFG.MASTER_OK 0, TIM_SRC_CFG.EN 0]⟩,
    ⟨"TIM_SRC_STAT", 0x40010044, [(7, 0x10)], false, [TIM_SRC_STAT.TQ 0, TIM_SRC_STAT.SELECTED 0, TIM_SRC_STAT.QUALIFIED 0, TIM_SRC_STAT.VALID 0, TIM_SRC_STAT.SLAVE 0]⟩,
    ⟨"TIM_SRC_OFFSET", 0x40010048, [(7, 0x10)], false, [TIM_SRC_OFFSET.OFFSET 0]⟩,
    ⟨"TIM_SRC_DELAY", 0x4001004C, [(7, 0x10)], false, [TIM_SRC_DELAY.DELAY 0]⟩,
    ⟨"TIM_PORTLAT", 0x400100C0, [(4, 0x4)], false, [TIM_PORTLAT.EGR_LAT 0, TIM_PORTLAT.ING_LAT 0]⟩ ]

/-- The rows of the PLB block. -/
def plbRows : List RegRow :=
  [ ⟨"PLB_CTRL", 0x40020000, [], false, [PLB_CTRL.SLEW, PLB_CTRL.FIXED_RANGE, PLB_CTRL.AUTORANGE, PLB_CTRL.SRC_MODE, PLB_CTRL.NOM60]⟩,
    ⟨"PLB_SRCA", 0x40020004, [], false, [PLB_SRCA.ADDR]⟩,
    ⟨"PLB_SRCB", 0x40020008, [], false, [PLB_SRCB.ADDR]⟩,
    ⟨"PLB_SRCC", 0x4002000C, [], false, [PLB_SRCC.ADDR]⟩,
    ⟨"PLB_SRCCFG", 0x40020010, [], false, [PLB_SRCCFG.DLY, PLB_SRCCFG.RATE]⟩,
    ⟨"PLB_VMIN", 0x40020014, [], false, [PLB_VMIN.VMIN]⟩,
    ⟨"PLB_OUT", 0x40020018, [], false, [PLB_OUT.EN, PLB_OUT.ADDR]⟩,
    ⟨"PLB_STAT", 0x40020020, [], false, [PLB_STAT.LOST, PLB_STAT.SLEW_LIMITED, PLB_STAT.RANGE_CHANGED, PLB_STAT.RANGE, PLB_STAT.NOSOURCE, PLB_STAT.FREERUN, PLB_STAT.TRACKING]⟩,
    ⟨"PLB_CYCLE", 0x40020024, [], false, [PLB_CYCLE.CYCLE]⟩,
    ⟨"PLB_ANGLE", 0x40020028, [], false, [PLB_ANGLE.ANGLE]⟩,
    ⟨"PLB_FREQ", 0x4002002C, [], false, [PLB_FREQ.FREQ]⟩,
    ⟨"PLB_ROCOF", 0x40020030, [], false, [PLB_ROCOF.ROCOF]⟩ ]
  ++ [ ⟨"PLB_HOLDF", 0x40020034, [], false, [PLB_HOLDF.FREQ]⟩,
    ⟨"PLB_PERR", 0x40020038, [], false, [PLB_PERR.PERR]⟩ ]

/-- The rows of the CORE block. -/
def coreRows : List RegRow :=
  [ ⟨"CORE_CTRL", 0x40030000, [], false, [CORE_CTRL.STALL_EVT, CORE_CTRL.ILL_EVT]⟩,
    ⟨"CORE_STAT", 0x40030004, [], false, [CORE_STAT.ISSUING, CORE_STAT.TASK, CORE_STAT.ILL_OVF, CORE_STAT.TRK_OVF, CORE_STAT.STRUCT_OVF, CORE_STAT.ILLEGAL, CORE_STAT.CLASH, CORE_STAT.TRK_FULL, CORE_STAT.STRUCT]⟩,
    ⟨"CORE_BANK", 0x40030008, [], false, [CORE_BANK.ACTIVE]⟩,
    ⟨"CORE_TRK", 0x4003000C, [], false, [CORE_TRK.MAX, CORE_TRK.OCC]⟩,
    ⟨"CORE_STALLCNT", 0x40030010, [], false, [CORE_STALLCNT.TRK, CORE_STALLCNT.STRUCT]⟩,
    ⟨"CORE_ILLCNT", 0x40030014, [], false, [CORE_ILLCNT.CNT]⟩,
    ⟨"CORE_ILLREC", 0x40030018, [], false, [CORE_ILLREC.VALID, CORE_ILLREC.SLOT, CORE_ILLREC.TASK, CORE_ILLREC.BANK, CORE_ILLREC.PC]⟩,
    ⟨"CORE_CYC_HI", 0x40030020, [], false, [CORE_CYC_HI.CYC]⟩,
    ⟨"CORE_CYC_LO", 0x40030024, [], false, [CORE_CYC_LO.CYC]⟩,
    ⟨"CORE_GAL", 0x40030040, [(15, 0x4)], true, [CORE_GAL.ADDR 0]⟩,
    ⟨"CORE_PC", 0x40030080, [(8, 0x4)], false, [CORE_PC.RUNNING 0, CORE_PC.PC 0]⟩,
    ⟨"CORE_TAGPOL", 0x400300C0, [], false, [CORE_TAGPOL.POL]⟩ ]
  ++ [ ⟨"CORE_TAGSTAT", 0x400300C4, [], false, [CORE_TAGSTAT.SQUASH_OVF, CORE_TAGSTAT.FAIL_OVF, CORE_TAGSTAT.SATURATED, CORE_TAGSTAT.SQUASHED, CORE_TAGSTAT.COERCED, CORE_TAGSTAT.POISONED, CORE_TAGSTAT.MISMATCH]⟩,
    ⟨"CORE_TAGCNT", 0x400300C8, [], false, [CORE_TAGCNT.FAIL, CORE_TAGCNT.SQUASH]⟩,
    ⟨"CORE_TAGREC", 0x400300CC, [], false, [CORE_TAGREC.VALID, CORE_TAGREC.TASK, CORE_TAGREC.BANK, CORE_TAGREC.SLOT, CORE_TAGREC.FOUND, CORE_TAGREC.OPND, CORE_TAGREC.ADDRF, CORE_TAGREC.PC]⟩,
    ⟨"CORE_ECCCTL", 0x400300D0, [], false, [CORE_ECCCTL.CORR_OVF, CORE_ECCCTL.UNCORR_OVF, CORE_ECCCTL.UNCORR_SEEN, CORE_ECCCTL.ROW_SEEN, CORE_ECCCTL.BIT_HALT, CORE_ECCCTL.CORR_EVT]⟩,
    ⟨"CORE_ECCCNT", 0x400300D4, [], false, [CORE_ECCCNT.UWORD, CORE_ECCCNT.UROW, CORE_ECCCNT.CORR]⟩,
    ⟨"CORE_ECCREC", 0x400300D8, [], false, [CORE_ECCREC.VALID, CORE_ECCREC.SPACE, CORE_ECCREC.FINDER, CORE_ECCREC.ADDR]⟩,
    ⟨"CORE_TMUSTAT", 0x40030100, [], false, [CORE_TMUSTAT.PEND, CORE_TMUSTAT.FIFO, CORE_TMUSTAT.LOST, CORE_TMUSTAT.FULL, CORE_TMUSTAT.LOST_OVF, CORE_TMUSTAT.REF_OVF]⟩,
    ⟨"CORE_TMUCNT", 0x40030104, [], false, [CORE_TMUCNT.REFUSED, CORE_TMUCNT.LOST]⟩,
    ⟨"CORE_QUSTAT", 0x40030108, [], false, [CORE_QUSTAT.MAXY, CORE_QUSTAT.BUSY]⟩,
    ⟨"CORE_MBXSTAT", 0x4003010C, [], false, [CORE_MBXSTAT.FULL, CORE_MBXSTAT.NE]⟩,
    ⟨"CORE_MBXDROP", 0x40030110, [], false, [CORE_MBXDROP.OVF, CORE_MBXDROP.CNT]⟩,
    ⟨"CORE_FOSTAT", 0x40030114, [], false, [CORE_FOSTAT.LAUNCHED, CORE_FOSTAT.STALL]⟩ ]
  ++ [ ⟨"CORE_GTIMIDX", 0x40030118, [], false, [CORE_GTIMIDX.IDX]⟩,
    ⟨"CORE_GTIMST", 0x4003011C, [], false, [CORE_GTIMST.STATE]⟩,
    ⟨"CORE_GTIMSTART", 0x40030120, [], false, [CORE_GTIMSTART.START]⟩,
    ⟨"CORE_PHUWIN", 0x40030400, [(256, 0x4)], false, [CORE_PHUWIN.W 0]⟩,
    ⟨"CORE_DTD", 0x40030800, [(64, 0x10), (4, 0x4)], false, [CORE_DTD.W 0 0]⟩,
    ⟨"CORE_DTUM", 0x40030C00, [(32, 0x4)], false, [CORE_DTUM.W 0]⟩,
    ⟨"CORE_DTSEL", 0x40030C80, [], false, [CORE_DTSEL.ENTRY]⟩,
    ⟨"CORE_DTVER", 0x40030C84, [], false, [CORE_DTVER.VERSION]⟩,
    ⟨"CORE_DTCRC", 0x40030C88, [], false, [CORE_DTCRC.CRC]⟩,
    ⟨"CORE_DTSTAT", 0x40030C8C, [], false, [CORE_DTSTAT.ACT_MATCH, CORE_DTSTAT.INACT_MATCH, CORE_DTSTAT.EBAD, CORE_DTSTAT.EBAD_OP]⟩,
    ⟨"CORE_DTREC", 0x40030C90, [], false, [CORE_DTREC.VALID, CORE_DTREC.OP, CORE_DTREC.MIDX]⟩,
    ⟨"CORE_PIDA_VER", 0x40030CA0, [], false, [CORE_PIDA_VER.VER]⟩ ]
  ++ [ ⟨"CORE_PIDA_CRC", 0x40030CA4, [], false, [CORE_PIDA_CRC.CRC]⟩,
    ⟨"CORE_PIDB_VER", 0x40030CA8, [], false, [CORE_PIDB_VER.VER]⟩,
    ⟨"CORE_PIDB_CRC", 0x40030CAC, [], false, [CORE_PIDB_CRC.CRC]⟩ ]

/-- The rows of the SCN block. -/
def scnRows : List RegRow :=
  [ ⟨"SCN_STAT", 0x40040000, [], false, [SCN_STAT.QUIET, SCN_STAT.FROZEN, SCN_STAT.PENDING]⟩,
    ⟨"SCN_PWCFG", 0x40040004, [], false, [SCN_PWCFG.QUEUE, SCN_PWCFG.ACK_TMO]⟩,
    ⟨"SCN_PWSTAT", 0x40040008, [], false, [SCN_PWSTAT.LOST, SCN_PWSTAT.LOST_OVF, SCN_PWSTAT.COUNT]⟩,
    ⟨"SCN_PWCTL", 0x4004000C, [], false, [SCN_PWCTL.CLR]⟩,
    ⟨"SCN_TCFG", 0x40040100, [(8, 0x40)], false, [SCN_TCFG.EN 0, SCN_TCFG.TRIG 0, SCN_TCFG.OVR 0, SCN_TCFG.CMODE 0, SCN_TCFG.ENTRY 0]⟩,
    ⟨"SCN_PERIOD", 0x40040104, [(8, 0x40)], false, [SCN_PERIOD.PERIOD 0]⟩,
    ⟨"SCN_PHASE", 0x40040108, [(8, 0x40)], false, [SCN_PHASE.PHASE 0]⟩,
    ⟨"SCN_ANG", 0x4004010C, [(8, 0x40)], false, [SCN_ANG.COUNT 0, SCN_ANG.FIRST 0, SCN_ANG.N 0]⟩,
    ⟨"SCN_AOFS", 0x40040110, [(8, 0x40)], false, [SCN_AOFS.AOFS 0]⟩,
    ⟨"SCN_EDGE", 0x40040114, [(8, 0x40)], false, [SCN_EDGE.POL 0, SCN_EDGE.ADDR 0]⟩,
    ⟨"SCN_LOFS", 0x40040118, [(8, 0x40)], false, [SCN_LOFS.LOFS 0]⟩,
    ⟨"SCN_SCANHI", 0x40040120, [(8, 0x40)], false, [SCN_SCANHI.SCAN 0]⟩ ]
  ++ [ ⟨"SCN_SCANLO", 0x40040124, [(8, 0x40)], false, [SCN_SCANLO.SCAN 0]⟩,
    ⟨"SCN_CNT", 0x40040128, [(8, 0x40)], false, [SCN_CNT.SKIP 0, SCN_CNT.LATE 0]⟩,
    ⟨"SCN_TSTAT", 0x4004012C, [(8, 0x40)], false, [SCN_TSTAT.LATE_COMMIT 0, SCN_TSTAT.OVERRUN 0, SCN_TSTAT.RUN_OVF 0, SCN_TSTAT.SKIP_OVF 0, SCN_TSTAT.LATE_OVF 0, SCN_TSTAT.HELD_LATE 0]⟩,
    ⟨"SCN_RUNLEN", 0x40040130, [(8, 0x40)], false, [SCN_RUNLEN.MAX 0, SCN_RUNLEN.LAST 0]⟩,
    ⟨"SCN_WIN_BASE", 0x40040400, [(8, 0x40), (8, 0x8)], false, [SCN_WIN_BASE.EN 0 0, SCN_WIN_BASE.OUT 0 0, SCN_WIN_BASE.WORD 0 0, SCN_WIN_BASE.ADDR 0 0]⟩,
    ⟨"SCN_WIN_LEN", 0x40040404, [(8, 0x40), (8, 0x8)], false, [SCN_WIN_LEN.LEN 0 0]⟩,
    ⟨"SCN_OMAP_SRC", 0x40040800, [(64, 0x8)], false, [SCN_OMAP_SRC.KIND 0, SCN_OMAP_SRC.WORD 0, SCN_OMAP_SRC.LENM1 0, SCN_OMAP_SRC.ADDR 0]⟩,
    ⟨"SCN_OMAP_DST", 0x40040804, [(64, 0x8)], false, [SCN_OMAP_DST.TARGET 0, SCN_OMAP_DST.DADDR 0]⟩,
    ⟨"SCN_PWLOG_W0", 0x40041000, [(64, 0x10)], false, [SCN_PWLOG_W0.VALID 0, SCN_PWLOG_W0.CAUSE 0, SCN_PWLOG_W0.TASK 0, SCN_PWLOG_W0.KIND 0, SCN_PWLOG_W0.STN 0, SCN_PWLOG_W0.TARGET 0]⟩,
    ⟨"SCN_PWLOG_W1", 0x40041004, [(64, 0x10)], false, [SCN_PWLOG_W1.SCAN 0]⟩,
    ⟨"SCN_PWLOG_W2", 0x40041008, [(64, 0x10)], false, [SCN_PWLOG_W2.SCAN 0]⟩,
    ⟨"SCN_PWLOG_W3", 0x4004100C, [(64, 0x10)], false, [SCN_PWLOG_W3.MAP 0, SCN_PWLOG_W3.DADDR 0]⟩ ]

/-- The rows of the TXN block. -/
def txnRows : List RegRow :=
  [ ⟨"TXN_CFG", 0x40050000, [], false, [TXN_CFG.QP_TMO, TXN_CFG.GUARD, TXN_CFG.PERSIST_DEF]⟩,
    ⟨"TXN_STAT", 0x40050004, [], false, [TXN_STAT.STATE, TXN_STAT.EDIT, TXN_STAT.SYSTEM, TXN_STAT.RECORDED, TXN_STAT.UNDO_OK, TXN_STAT.PERSIST, TXN_STAT.SYS_SPLIT, TXN_STAT.OWNER_SPI, TXN_STAT.OWNER]⟩,
    ⟨"TXN_ID", 0x40050008, [], false, [TXN_ID.ID]⟩,
    ⟨"TXN_WHEN", 0x4005000C, [], false, [TXN_WHEN.SYSANG, TXN_WHEN.KIND]⟩,
    ⟨"TXN_LAST", 0x40050018, [], false, [TXN_LAST.OUTCOME, TXN_LAST.LATE, TXN_LAST.PRESUMED, TXN_LAST.MODE, TXN_LAST.FAIL_OVF, TXN_LAST.SEQ]⟩,
    ⟨"TXN_CNT", 0x4005001C, [], false, [TXN_CNT.COMMITS, TXN_CNT.FAILS]⟩,
    ⟨"TXN_WHEN0", 0x40050010, [], false, [TXN_WHEN0.W]⟩,
    ⟨"TXN_WHEN1", 0x40050014, [], false, [TXN_WHEN1.W]⟩,
    ⟨"TXN_WHEN2", 0x4005002C, [], false, [TXN_WHEN2.W]⟩,
    ⟨"TXN_SEQ", 0x40050020, [], false, [TXN_SEQ.SEQ]⟩,
    ⟨"TXN_CREC_LAST", 0x40050024, [], false, [TXN_CREC_LAST.SEQ]⟩,
    ⟨"TXN_CREC_PREP", 0x40050028, [], false, [TXN_CREC_PREP.VALID, TXN_CREC_PREP.SEQ]⟩ ]
  ++ [ ⟨"TXN_PART", 0x40050100, [(8, 0x4)], false, [TXN_PART.M 0]⟩,
    ⟨"TXN_RDY", 0x40050120, [(8, 0x4)], false, [TXN_RDY.M 0]⟩,
    ⟨"TXN_RPT", 0x40050140, [(8, 0x4)], false, [TXN_RPT.M 0]⟩,
    ⟨"EDT_STAT", 0x40050200, [], false, [EDT_STAT.COPY, EDT_STAT.COPY_UNCORR, EDT_STAT.KEEP_OK, EDT_STAT.COPIED]⟩,
    ⟨"EDT_CNT", 0x40050204, [], false, [EDT_CNT.PATCHED, EDT_CNT.NEWVAR]⟩ ]

/-- The rows of the SBY block. -/
def sbyRows : List RegRow :=
  [ ⟨"SBY_CFG", 0x40060000, [], false, [SBY_CFG.DIV_POL, SBY_CFG.AUTO_SYNC, SBY_CFG.TKO_ON_HALT, SBY_CFG.SOLO, SBY_CFG.YIELD, SBY_CFG.RST_ACCEPT, SBY_CFG.NEG_TMO]⟩,
    ⟨"SBY_TMO", 0x40060004, [], false, [SBY_TMO.LOSS_TMO, SBY_TMO.LAG]⟩,
    ⟨"SBY_CTRL", 0x40060008, [], false, [SBY_CTRL.RESET_PARTNER, SBY_CTRL.SYNC_REQ, SBY_CTRL.HANDOVER]⟩,
    ⟨"SBY_STAT", 0x4006000C, [], false, [SBY_STAT.LINK, SBY_STAT.ROLE_NOW, SBY_STAT.SYNC, SBY_STAT.XFER, SBY_STAT.PMODE, SBY_STAT.PARTNER_LOST, SBY_STAT.DIVERGENCE, SBY_STAT.CONFLICT, SBY_STAT.CPN_CONFLICT, SBY_STAT.OUTRANKED, SBY_STAT.PARTNER_HALT, SBY_STAT.STREAM_LOST, SBY_STAT.RSTREQ_REFUSED, SBY_STAT.DIV_OVF]⟩,
    ⟨"SBY_EPOCH", 0x40060010, [], false, [SBY_EPOCH.PARTNER, SBY_EPOCH.OWN]⟩,
    ⟨"SBY_RTT", 0x40060014, [], false, [SBY_RTT.NS]⟩,
    ⟨"SBY_LAGNOW", 0x40060018, [], false, [SBY_LAGNOW.US]⟩,
    ⟨"SBY_XFER", 0x4006001C, [], false, [SBY_XFER.STATE, SBY_XFER.RESTARTS, SBY_XFER.SENT]⟩,
    ⟨"SBY_TKO", 0x40060028, [], false, [SBY_TKO.CAUSE, SBY_TKO.ABANDONED, SBY_TKO.BOUND_US]⟩,
    ⟨"SBY_CNT", 0x4006002C, [], false, [SBY_CNT.DIVERGE, SBY_CNT.TAKEOVERS]⟩,
    ⟨"SBY_LINKCNT", 0x40060030, [], false, [SBY_LINKCNT.CRCERR, SBY_LINKCNT.RETX]⟩,
    ⟨"SBY_DIVREC0", 0x40060020, [], false, [SBY_DIVREC0.VALID, SBY_DIVREC0.CAUSE, SBY_DIVREC0.TASK]⟩ ]
  ++ [ ⟨"SBY_DIVREC1", 0x40060024, [], false, [SBY_DIVREC1.SCAN]⟩ ]

/-- The rows of the CLS block. -/
def clsRows : List RegRow :=
  [ ⟨"CLS_CTRL", 0x40070000, [], false, [CLS_CTRL.DEFACT, CLS_CTRL.DEFMBX, CLS_CTRL.PAYPORTS]⟩,
    ⟨"CLS_STAT", 0x40070004, [], false, [CLS_STAT.BANK, CLS_STAT.PAUSED, CLS_STAT.RULE_ECC, CLS_STAT.CNT_OVF, CLS_STAT.PAUSE_DROP]⟩,
    ⟨"CLS_PARSE", 0x40070008, [], false, [CLS_PARSE.C37_TCP, CLS_PARSE.C37_UDP]⟩,
    ⟨"CLS_TADCFG", 0x4007000C, [], false, [CLS_TADCFG.TMO]⟩,
    ⟨"CLS_RED", 0x40070010, [], false, [CLS_RED.MODE1, CLS_RED.MODE0, CLS_RED.FORGET]⟩,
    ⟨"CLS_TADCNT0", 0x40070014, [], false, [CLS_TADCNT0.FULL, CLS_TADCNT0.ORPH_DROP]⟩,
    ⟨"CLS_TADCNT1", 0x40070018, [], false, [CLS_TADCNT1.ORPH_TMO]⟩,
    ⟨"CLS_TADSTAT", 0x4007001C, [], false, [CLS_TADSTAT.USED, CLS_TADSTAT.HELD]⟩,
    ⟨"CLS_RSEL", 0x40070020, [], false, [CLS_RSEL.INDEX]⟩,
    ⟨"CLS_ECCREC", 0x40070024, [], false, [CLS_ECCREC.VALID, CLS_ECCREC.PAT, CLS_ECCREC.INDEX]⟩,
    ⟨"CLS_DEFCNT", 0x40070028, [], false, [CLS_DEFCNT.CNT]⟩,
    ⟨"CLS_RW", 0x40070040, [(15, 0x4)], false, [CLS_RW.W 0]⟩,
    ⟨"CLS_RW15", 0x4007007C, [], false, [CLS_RW15.HITS]⟩ ]
  ++ [ ⟨"CLS_P_CFG", 0x40070100, [(4, 0x20)], false, [CLS_P_CFG.EN 0, CLS_P_CFG.IF 0, CLS_P_CFG.SPEED 0]⟩,
    ⟨"CLS_P_PSTAT", 0x40070104, [(4, 0x20)], false, [CLS_P_PSTAT.LINK 0, CLS_P_PSTAT.SPD 0]⟩,
    ⟨"CLS_P_RXOK", 0x40070108, [(4, 0x20)], false, [CLS_P_RXOK.CNT 0]⟩,
    ⟨"CLS_P_RXDROP", 0x4007010C, [(4, 0x20)], false, [CLS_P_RXDROP.CNT 0]⟩,
    ⟨"CLS_P_NOMATCH", 0x40070110, [(4, 0x20)], false, [CLS_P_NOMATCH.CNT 0]⟩,
    ⟨"CLS_P_DUPDISC", 0x40070114, [(4, 0x20)], false, [CLS_P_DUPDISC.CNT 0]⟩,
    ⟨"CLS_P_TRIPSUP", 0x40070118, [(4, 0x20)], false, [CLS_P_TRIPSUP.CNT 0]⟩,
    ⟨"CLS_P_PCNT", 0x4007011C, [(4, 0x20)], false, [CLS_P_PCNT.PAUSEDROP 0, CLS_P_PCNT.PAYSKIP 0]⟩,
    ⟨"CLS_S_HDR", 0x40070800, [(64, 0x20)], false, [CLS_S_HDR.EN 0, CLS_S_HDR.FLOAT 0, CLS_S_HDR.ADDR 0]⟩,
    ⟨"CLS_S_RING", 0x40070804, [(64, 0x20)], false, [CLS_S_RING.RLEN 0, CLS_S_RING.ADDR 0]⟩,
    ⟨"CLS_S_CFG", 0x40070808, [(64, 0x20)], false, [CLS_S_CFG.SMPWRAP 0, CLS_S_CFG.NCHM1 0]⟩,
    ⟨"CLS_S_CONFREV", 0x4007080C, [(64, 0x20)], false, [CLS_S_CONFREV.REV 0]⟩ ]
  ++ [ ⟨"CLS_S_CNT0", 0x40070810, [(64, 0x20)], false, [CLS_S_CNT0.GAPS 0, CLS_S_CNT0.OLD 0]⟩,
    ⟨"CLS_S_CNT1", 0x40070814, [(64, 0x20)], false, [CLS_S_CNT1.CREV 0, CLS_S_CNT1.FMT 0]⟩,
    ⟨"CLS_SCALE", 0x40071000, [(64, 0x40), (16, 0x4)], false, [CLS_SCALE.S 0 0]⟩,
    ⟨"CLS_PAT_B", 0x40072000, [(128, 0x40), (8, 0x4)], false, [CLS_PAT_B.W 0 0]⟩,
    ⟨"CLS_PAT_C", 0x40072020, [(128, 0x40)], false, [CLS_PAT_C.VALID 0, CLS_PAT_C.LEN 0]⟩ ]

/-- The rows of the EGR block. -/
def egrRows : List RegRow :=
  [ ⟨"EGR_CTRL", 0x40080000, [], false, [EGR_CTRL.SYSQ]⟩,
    ⟨"EGR_STAT", 0x40080004, [], false, [EGR_STAT.CNT_OVF, EGR_STAT.GCL_ECC, EGR_STAT.PUB_ECC]⟩,
    ⟨"EGR_REDSEQ", 0x40080008, [], false, [EGR_REDSEQ.SEQ1, EGR_REDSEQ.SEQ0]⟩,
    ⟨"EGR_ECCREC", 0x4008000C, [], false, [EGR_ECCREC.VALID, EGR_ECCREC.PUB, EGR_ECCREC.PORT, EGR_ECCREC.SLOT]⟩,
    ⟨"EGR_PCFG", 0x40080100, [(4, 0x100)], false, [EGR_PCFG.SPD 0, EGR_PCFG.RINGQ 0, EGR_PCFG.CUT_EN 0]⟩,
    ⟨"EGR_TXOK", 0x40080104, [(4, 0x100)], false, [EGR_TXOK.CNT 0]⟩,
    ⟨"EGR_ERRCNT", 0x40080108, [(4, 0x100)], false, [EGR_ERRCNT.STOMP 0, EGR_ERRCNT.OVERSIZE 0]⟩,
    ⟨"EGR_MODEDISC", 0x4008010C, [(4, 0x100)], false, [EGR_MODEDISC.CNT 0]⟩,
    ⟨"EGR_GCL", 0x40080110, [(4, 0x100)], false, [EGR_GCL.EN 0, EGR_GCL.LEN 0]⟩,
    ⟨"EGR_GCYCLE", 0x40080114, [(4, 0x100)], false, [EGR_GCYCLE.NS 0]⟩,
    ⟨"EGR_GBASE_S", 0x40080118, [(4, 0x100)], false, [EGR_GBASE_S.SEC 0]⟩,
    ⟨"EGR_GBASE_NS", 0x4008011C, [(4, 0x100)], false, [EGR_GBASE_NS.NS 0]⟩ ]
  ++ [ ⟨"EGR_GSTAT", 0x40080120, [(4, 0x100)], false, [EGR_GSTAT.PENDING 0, EGR_GSTAT.GATES 0]⟩,
    ⟨"EGR_QCFG", 0x40080140, [(4, 0x100), (8, 0x10)], false, [EGR_QCFG.BURST 0 0, EGR_QCFG.LIMIT 0 0]⟩,
    ⟨"EGR_TB", 0x40080144, [(4, 0x100), (8, 0x10)], false, [EGR_TB.EN 0 0, EGR_TB.RATE 0 0]⟩,
    ⟨"EGR_QSTAT", 0x40080148, [(4, 0x100), (8, 0x10)], false, [EGR_QSTAT.DEPTH 0 0, EGR_QSTAT.TOKENS 0 0]⟩,
    ⟨"EGR_DROP", 0x4008014C, [(4, 0x100), (8, 0x10)], false, [EGR_DROP.CNT 0 0]⟩,
    ⟨"EGR_GATE", 0x40081000, [(4, 0x800), (256, 0x8), (2, 0x4)], false, [EGR_GATE.W 0 0 0]⟩,
    ⟨"EGR_SLOT_CFG", 0x40084000, [(16, 0x100)], false, [EGR_SLOT_CFG.EN 0, EGR_SLOT_CFG.KIND 0, EGR_SLOT_CFG.LEN 0, EGR_SLOT_CFG.QUEUE 0, EGR_SLOT_CFG.PORTS 0]⟩,
    ⟨"EGR_SLOT_TIMING", 0x40084004, [(16, 0x100)], false, [EGR_SLOT_TIMING.TMAX 0, EGR_SLOT_TIMING.TMIN 0]⟩,
    ⟨"EGR_SLOT_OFFS0", 0x40084008, [(16, 0x100)], false, [EGR_SLOT_OFFS0.STNUM 0, EGR_SLOT_OFFS0.SQNUM 0]⟩,
    ⟨"EGR_SLOT_OFFS1", 0x4008400C, [(16, 0x100)], false, [EGR_SLOT_OFFS1.TAL 0, EGR_SLOT_OFFS1.T 0]⟩,
    ⟨"EGR_SLOT_STAT", 0x40084010, [(16, 0x100)], false, [EGR_SLOT_STAT.STNUM 0]⟩,
    ⟨"EGR_SLOT_SQ", 0x40084014, [(16, 0x100)], false, [EGR_SLOT_SQ.REPLACED 0, EGR_SLOT_SQ.SQNUM 0]⟩ ]
  ++ [ ⟨"EGR_ELEM", 0x40084080, [(16, 0x100), (32, 0x4)], false, [EGR_ELEM.VALID 0 0, EGR_ELEM.ENC 0 0, EGR_ELEM.OFFSET 0 0]⟩,
    ⟨"EGR_TMPL", 0x40088000, [(16, 0x800), (384, 0x4)], false, [EGR_TMPL.W 0 0]⟩ ]

/-- The rows of the CAN block. -/
def canRows : List RegRow :=
  [ ⟨"CAN_CTRL", 0x40090000, [(2, 0x8000)], false, [CAN_CTRL.EN 0, CAN_CTRL.MODE 0, CAN_CTRL.TXPRIO 0, CAN_CTRL.FD_EN 0, CAN_CTRL.HPB_IE 0, CAN_CTRL.REF_IN_STOP 0]⟩,
    ⟨"CAN_NBT", 0x40090004, [(2, 0x8000)], false, [CAN_NBT.NBRPM1 0, CAN_NBT.NTSEG1M1 0, CAN_NBT.NTSEG2M1 0, CAN_NBT.NSJWM1 0]⟩,
    ⟨"CAN_DBT", 0x40090008, [(2, 0x8000)], false, [CAN_DBT.TDC_EN 0, CAN_DBT.TDCO 0, CAN_DBT.DBRPM1 0, CAN_DBT.DTSEG1M1 0, CAN_DBT.DTSEG2M1 0, CAN_DBT.DSJWM1 0]⟩,
    ⟨"CAN_STAT", 0x4009000C, [(2, 0x8000)], false, [CAN_STAT.ERRSTATE 0, CAN_STAT.PEX 0, CAN_STAT.RXOVF 0, CAN_STAT.HPB_SPILL 0, CAN_STAT.CANCEL_LATE 0, CAN_STAT.BUSOFF_SEEN 0, CAN_STAT.CNT_OVF 0, CAN_STAT.REF_LOST 0]⟩,
    ⟨"CAN_ERRCNT", 0x40090010, [(2, 0x8000)], false, [CAN_ERRCNT.TEC 0, CAN_ERRCNT.REC 0]⟩,
    ⟨"CAN_CNT0", 0x40090014, [(2, 0x8000)], false, [CAN_CNT0.BUSOFF 0, CAN_CNT0.NOMATCH 0]⟩,
    ⟨"CAN_CNT1", 0x40090018, [(2, 0x8000)], false, [CAN_CNT1.RXOVF 0, CAN_CNT1.TXDROP 0]⟩,
    ⟨"CAN_CNT2", 0x4009001C, [(2, 0x8000)], false, [CAN_CNT2.DUPSEG 0, CAN_CNT2.SEGERR 0, CAN_CNT2.CTXFULL 0]⟩,
    ⟨"CAN_TBSTAT", 0x40090020, [(2, 0x8000)], false, [CAN_TBSTAT.STATE_0 0, CAN_TBSTAT.LAST_0 0, CAN_TBSTAT.STATE_1 0, CAN_TBSTAT.LAST_1 0, CAN_TBSTAT.STATE_2 0, CAN_TBSTAT.LAST_2 0]⟩,
    ⟨"CAN_TBCTL", 0x40090024, [(2, 0x8000)], false, [CAN_TBCTL.CANCEL 0]⟩,
    ⟨"CAN_TTCFG", 0x40090028, [(2, 0x8000)], false, [CAN_TTCFG.MASTER 0, CAN_TTCFG.ALIGN 0, CAN_TTCFG.MCYCE 0, CAN_TTCFG.TXENM1 0, CAN_TTCFG.BCLEN 0]⟩,
    ⟨"CAN_TTREF", 0x4009002C, [(2, 0x8000)], false, [CAN_TTREF.IDE 0, CAN_TTREF.ID 0]⟩ ]
  ++ [ ⟨"CAN_TTWATCH", 0x40090030, [(2, 0x8000)], false, [CAN_TTWATCH.NTU 0]⟩,
    ⟨"CAN_TTBASE_S", 0x40090034, [(2, 0x8000)], false, [CAN_TTBASE_S.SEC 0]⟩,
    ⟨"CAN_TTBASE_NS", 0x40090038, [(2, 0x8000)], false, [CAN_TTBASE_NS.NS 0]⟩,
    ⟨"CAN_TTSTAT", 0x4009003C, [(2, 0x8000)], false, [CAN_TTSTAT.CYCTIME 0, CAN_TTSTAT.CYCCNT 0, CAN_TTSTAT.STATE 0, CAN_TTSTAT.MPRIO 0]⟩,
    ⟨"CAN_ZCP_RX", 0x40090040, [(2, 0x8000)], false, [CAN_ZCP_RX.EN 0, CAN_ZCP_RX.IDE 0, CAN_ZCP_RX.ID 0]⟩,
    ⟨"CAN_ZCP_TX", 0x40090044, [(2, 0x8000)], false, [CAN_ZCP_TX.IDE 0, CAN_ZCP_TX.ID 0]⟩,
    ⟨"CAN_RXWIN", 0x40090080, [(2, 0x8000), (20, 0x4)], false, [CAN_RXWIN.W 0 0]⟩,
    ⟨"CAN_HPBWIN", 0x40090100, [(2, 0x8000), (20, 0x4)], false, [CAN_HPBWIN.W 0 0]⟩,
    ⟨"CAN_RXPOP", 0x400900D0, [(2, 0x8000)], false, [CAN_RXPOP.POP 0]⟩,
    ⟨"CAN_HPBPOP", 0x40090150, [(2, 0x8000)], false, [CAN_HPBPOP.POP 0]⟩,
    ⟨"CAN_RXCNT", 0x400900D4, [(2, 0x8000)], false, [CAN_RXCNT.CNT 0]⟩,
    ⟨"CAN_HPBCNT", 0x40090154, [(2, 0x8000)], false, [CAN_HPBCNT.CNT 0]⟩ ]
  ++ [ ⟨"CAN_HPF_CFG", 0x40090200, [(2, 0x8000), (8, 0x10)], false, [CAN_HPF_CFG.VALID 0 0, CAN_HPF_CFG.IDE 0 0, CAN_HPF_CFG.FMT 0 0, CAN_HPF_CFG.RTR_OK 0 0, CAN_HPF_CFG.REJECT 0 0]⟩,
    ⟨"CAN_HPF_ID", 0x40090204, [(2, 0x8000), (8, 0x10)], false, [CAN_HPF_ID.ID 0 0]⟩,
    ⟨"CAN_HPF_MASK", 0x40090208, [(2, 0x8000), (8, 0x10)], false, [CAN_HPF_MASK.MASK 0 0]⟩,
    ⟨"CAN_AF_CFG", 0x40090400, [(2, 0x8000), (128, 0x10)], false, [CAN_AF_CFG.VALID 0 0, CAN_AF_CFG.IDE 0 0, CAN_AF_CFG.FMT 0 0, CAN_AF_CFG.RTR_OK 0 0, CAN_AF_CFG.REJECT 0 0]⟩,
    ⟨"CAN_AF_ID", 0x40090404, [(2, 0x8000), (128, 0x10)], false, [CAN_AF_ID.ID 0 0]⟩,
    ⟨"CAN_AF_MASK", 0x40090408, [(2, 0x8000), (128, 0x10)], false, [CAN_AF_MASK.MASK 0 0]⟩,
    ⟨"CAN_TM", 0x40090C00, [(2, 0x8000), (32, 0x4)], false, [CAN_TM.VALID 0 0, CAN_TM.TM 0 0]⟩,
    ⟨"CAN_CELL", 0x40091000, [(2, 0x8000), (64, 0x80), (32, 0x4)], false, [CAN_CELL.TYPE 0 0 0, CAN_CELL.OBJ 0 0 0]⟩,
    ⟨"CAN_OBJ_CFG", 0x40093000, [(2, 0x8000), (32, 0x80)], false, [CAN_OBJ_CFG.EN 0 0, CAN_OBJ_CFG.FD 0 0, CAN_OBJ_CFG.BRS 0 0, CAN_OBJ_CFG.IDE 0 0, CAN_OBJ_CFG.EVT 0 0, CAN_OBJ_CFG.LEN 0 0]⟩,
    ⟨"CAN_OBJ_ID", 0x40093004, [(2, 0x8000), (32, 0x80)], false, [CAN_OBJ_ID.ID 0 0]⟩,
    ⟨"CAN_OBJ_DATA", 0x40093040, [(2, 0x8000), (32, 0x80), (16, 0x4)], false, [CAN_OBJ_DATA.W 0 0 0]⟩ ]

/-- The rows of the FLD block. -/
def fldRows : List RegRow :=
  [ ⟨"FLD_HCTL", 0x400A0000, [], false, [FLD_HCTL.EN]⟩,
    ⟨"FLD_HSTAT", 0x400A0004, [], false, [FLD_HSTAT.SAFE, FLD_HSTAT.OBEYED, FLD_HSTAT.UP]⟩,
    ⟨"FLD_FDISC", 0x400A0008, [], false, [FLD_FDISC.OVF, FLD_FDISC.CNT]⟩,
    ⟨"FLD_LSTAT", 0x400A0100, [(8, 0x10)], false, [FLD_LSTAT.MIRROR 0]⟩,
    ⟨"FLD_LDLY", 0x400A0104, [(8, 0x10)], false, [FLD_LDLY.DLY 0]⟩,
    ⟨"FLD_LCNT", 0x400A0108, [(8, 0x10)], false, [FLD_LCNT.NOANS 0, FLD_LCNT.ANSCRC 0, FLD_LCNT.MGTFAIL 0, FLD_LCNT.RELOAD 0]⟩,
    ⟨"FLD_MBX", 0x400A010C, [(8, 0x10)], false, [FLD_MBX.FULL 0, FLD_MBX.DEPTH 0]⟩,
    ⟨"FLD_IBASE", 0x400A0200, [(8, 0x10)], false, [FLD_IBASE.EN 0, FLD_IBASE.ADDR 0]⟩,
    ⟨"FLD_WBASE", 0x400A0204, [(8, 0x10)], false, [FLD_WBASE.ADDR 0]⟩,
    ⟨"FLD_ICNT", 0x400A0208, [(8, 0x10)], false, [FLD_ICNT.EVENTS 0, FLD_ICNT.INVEDGE 0]⟩,
    ⟨"FLD_ID", 0x400A1000, [(8, 0x1000)], false, [FLD_ID.PART 0, FLD_ID.REV 0]⟩,
    ⟨"FLD_STAT", 0x400A1004, [(8, 0x1000)], false, [FLD_STAT.OBEPOCH 0, FLD_STAT.OBLINK 0, FLD_STAT.OBVALID 0, FLD_STAT.CFGLOST 0, FLD_STAT.CONFLICT 0, FLD_STAT.BARRIER_FAIL 0, FLD_STAT.FIELD_UV 0, FLD_STAT.FAILST 0, FLD_STAT.FCAUSE 0, FLD_STAT.FAST_EXP 0, FLD_STAT.FAST_REF 0, FLD_STAT.FASTLAT 0]⟩ ]
  ++ [ ⟨"FLD_OUT", 0x400A1008, [(8, 0x1000)], false, [FLD_OUT.DRIVEN 0, FLD_OUT.TSD 0, FLD_OUT.LIM 0, FLD_OUT.READ 0]⟩,
    ⟨"FLD_CCNT", 0x400A100C, [(8, 0x1000)], false, [FLD_CCNT.CRCA 0, FLD_CCNT.CRCB 0, FLD_CCNT.FREJ 0]⟩,
    ⟨"FLD_OCFG", 0x400A1020, [(8, 0x1000)], false, [FLD_OCFG.TSDLATCH 0, FLD_OCFG.PAR23 0, FLD_OCFG.PAR01 0, FLD_OCFG.FAIL 0]⟩,
    ⟨"FLD_FTMO", 0x400A1024, [(8, 0x1000)], false, [FLD_FTMO.US 0]⟩,
    ⟨"FLD_IN", 0x400A1010, [(8, 0x1000)], false, [FLD_IN.SETTLING 0, FLD_IN.STATE 0]⟩,
    ⟨"FLD_OVF", 0x400A1014, [(8, 0x1000)], false, [FLD_OVF.OVF 0]⟩,
    ⟨"FLD_EVCNT", 0x400A1018, [(8, 0x1000)], false, [FLD_EVCNT.EVLOST 0, FLD_EVCNT.CAPLOST 0]⟩,
    ⟨"FLD_ICFG", 0x400A1040, [(8, 0x1000), (12, 0x4)], false, [FLD_ICFG.TYPE 0 0, FLD_ICFG.CEDGE 0 0, FLD_ICFG.SAT 0 0, FLD_ICFG.RAW 0 0, FLD_ICFG.EVT 0 0, FLD_ICFG.CAPEN 0 0, FLD_ICFG.CAPSS 0 0, FLD_ICFG.FEN 0 0, FLD_ICFG.DEB 0 0]⟩,
    ⟨"FLD_GATE", 0x400A1070, [(8, 0x1000)], false, [FLD_GATE.GMAX 0, FLD_GATE.GMIN 0]⟩,
    ⟨"FLD_CNT", 0x400A1080, [(8, 0x1000), (12, 0x4)], false, [FLD_CNT.V 0 0]⟩,
    ⟨"FLD_FRQ", 0x400A10B0, [(8, 0x1000), (12, 0x4)], false, [FLD_FRQ.V 0 0]⟩,
    ⟨"FLD_CLAT", 0x400A10E0, [(8, 0x1000), (12, 0x4)], false, [FLD_CLAT.V 0 0]⟩ ]
  ++ [ ⟨"FLD_CLATF", 0x400A1110, [(8, 0x1000)], false, [FLD_CLATF.VALID 0, FLD_CLATF.FNO 0]⟩ ]

/-- The rows of the PHM block. -/
def phmRows : List RegRow :=
  [ ⟨"PHM_CTRL", 0x400B0000, [], false, [PHM_CTRL.EN]⟩,
    ⟨"PHM_STAT", 0x400B0004, [], false, [PHM_STAT.LIBVER, PHM_STAT.LIB_OK, PHM_STAT.CNT_OVF, PHM_STAT.CMD_DISC]⟩,
    ⟨"PHM_E_CFG", 0x400B0100, [(2, 0x40)], false, [PHM_E_CFG.CLASS 0, PHM_E_CFG.PERSMP 0, PHM_E_CFG.STREAM 0, PHM_E_CFG.CHMASK 0, PHM_E_CFG.SEQV 0, PHM_E_CFG.SEQI 0, PHM_E_CFG.TASK 0, PHM_E_CFG.RR 0]⟩,
    ⟨"PHM_E_OADDR", 0x400B0108, [(2, 0x40)], false, [PHM_E_OADDR.ADDR 0]⟩,
    ⟨"PHM_E_DIG", 0x400B010C, [(2, 0x40)], false, [PHM_E_DIG.EN 0, PHM_E_DIG.ADDR 0]⟩,
    ⟨"PHM_E_PMU", 0x400B0110, [(2, 0x40)], false, [PHM_E_PMU.SEND 0, PHM_E_PMU.AUTO 0, PHM_E_PMU.PORTS 0, PHM_E_PMU.QUEUE 0, PHM_E_PMU.IDCODE 0]⟩,
    ⟨"PHM_E_DIP", 0x400B0114, [(2, 0x40)], false, [PHM_E_DIP.IP 0]⟩,
    ⟨"PHM_E_DPORT", 0x400B0118, [(2, 0x40)], false, [PHM_E_DPORT.PORT 0, PHM_E_DPORT.VID 0]⟩,
    ⟨"PHM_E_CMBX", 0x400B0124, [(2, 0x40)], false, [PHM_E_CMBX.EN 0, PHM_E_CMBX.MBX 0]⟩,
    ⟨"PHM_E_CNT", 0x400B0128, [(2, 0x40)], false, [PHM_E_CNT.INVALID 0, PHM_E_CNT.DROPPED 0]⟩,
    ⟨"PHM_E_RPTCNT", 0x400B012C, [(2, 0x40)], false, [PHM_E_RPTCNT.CNT 0]⟩,
    ⟨"PHM_E_LAT", 0x400B0130, [(2, 0x40)], false, [PHM_E_LAT.MAX 0, PHM_E_LAT.LAST 0]⟩ ]
  ++ [ ⟨"PHM_E_STATE", 0x400B0134, [(2, 0x40)], false, [PHM_E_STATE.SENDING 0, PHM_E_STATE.INVLEFT 0, PHM_E_STATE.NP 0]⟩,
    ⟨"PHM_E_DLY", 0x400B0138, [(2, 0x40)], false, [PHM_E_DLY.DLY 0]⟩,
    ⟨"PHM_E_SEQMAP", 0x400B0104, [(2, 0x40)], false, [PHM_E_SEQMAP.VA 0, PHM_E_SEQMAP.VB 0, PHM_E_SEQMAP.VC 0, PHM_E_SEQMAP.IA 0, PHM_E_SEQMAP.IB 0, PHM_E_SEQMAP.IC 0]⟩,
    ⟨"PHM_E_DMAC_HI", 0x400B011C, [(2, 0x40)], false, [PHM_E_DMAC_HI.MAC 0]⟩,
    ⟨"PHM_E_DMAC_LO", 0x400B0120, [(2, 0x40)], false, [PHM_E_DMAC_LO.MAC 0]⟩,
    ⟨"PHM_GAP", 0x400B0180, [(2, 0x40), (16, 0x4)], false, [PHM_GAP.W 0 0]⟩,
    ⟨"PHM_FD_CFG", 0x400B0200, [], false, [PHM_FD_CFG.PUN, PHM_FD_CFG.DON, PHM_FD_CFG.BADDR]⟩,
    ⟨"PHM_FD_IPU", 0x400B0204, [], false, [PHM_FD_IPU.TH]⟩,
    ⟨"PHM_FD_DIPU", 0x400B0208, [], false, [PHM_FD_DIPU.TH]⟩,
    ⟨"PHM_FD_I0PU", 0x400B020C, [], false, [PHM_FD_I0PU.TH]⟩,
    ⟨"PHM_FD_HOLD", 0x400B0210, [], false, [PHM_FD_HOLD.MS]⟩,
    ⟨"PHM_FD_STAT", 0x400B0214, [], false, [PHM_FD_STAT.PICKUP, PHM_FD_STAT.ABCG, PHM_FD_STAT.FAULTNO]⟩ ]
  ++ [ ⟨"PHM_LOC_CFG", 0x400B0300, [], false, [PHM_LOC_CFG.TASK, PHM_LOC_CFG.RINV, PHM_LOC_CFG.WAIT, PHM_LOC_CFG.DONEFLAG]⟩,
    ⟨"PHM_LOC_LEN", 0x400B0304, [], false, [PHM_LOC_LEN.M]⟩,
    ⟨"PHM_LOC_Z1RE", 0x400B0308, [], false, [PHM_LOC_Z1RE.Z]⟩,
    ⟨"PHM_LOC_Z1IM", 0x400B030C, [], false, [PHM_LOC_Z1IM.Z]⟩,
    ⟨"PHM_LOC_RMT", 0x400B0310, [], false, [PHM_LOC_RMT.IDCODE, PHM_LOC_RMT.MBX, PHM_LOC_RMT.NP, PHM_LOC_RMT.RV1, PHM_LOC_RMT.RI1]⟩,
    ⟨"PHM_LOC_OADDR", 0x400B0314, [], false, [PHM_LOC_OADDR.ADDR]⟩,
    ⟨"PHM_TWCFG", 0x400B0318, [], false, [PHM_TWCFG.CPN, PHM_TWCFG.CH, PHM_TWCFG.RADDR]⟩,
    ⟨"PHM_TWV", 0x400B031C, [], false, [PHM_TWV.V]⟩,
    ⟨"PHM_TWWIN", 0x400B0320, [], false, [PHM_TWWIN.PRE, PHM_TWWIN.POST]⟩,
    ⟨"PHM_TWPUB", 0x400B0324, [], false, [PHM_TWPUB.ADDR]⟩,
    ⟨"PHM_RES_STAT", 0x400B0330, [], false, [PHM_RES_STAT.DPH_VALID, PHM_RES_STAT.DTW_VALID, PHM_RES_STAT.PENDING, PHM_RES_STAT.FAULTNO]⟩,
    ⟨"PHM_RMTCNT", 0x400B0334, [], false, [PHM_RMTCNT.DISC, PHM_RMTCNT.ACCEPTED]⟩ ]
  ++ [ ⟨"PHM_RES_DPH", 0x400B0328, [], false, [PHM_RES_DPH.D]⟩,
    ⟨"PHM_RES_DTW", 0x400B032C, [], false, [PHM_RES_DTW.D]⟩,
    ⟨"TSP_CFG", 0x400B0400, [], false, [TSP_CFG.N, TSP_CFG.RET]⟩,
    ⟨"TSP_STAT", 0x400B0404, [], false, [TSP_STAT.DEMOTED, TSP_STAT.COUNT]⟩,
    ⟨"TSP_SAVE", 0x400B0408, [], false, [TSP_SAVE.PRIO]⟩,
    ⟨"ATR_CFG", 0x400B0500, [], false, [ATR_CFG.HOLD, ATR_CFG.RET]⟩,
    ⟨"ATR_STAT", 0x400B0504, [], false, [ATR_STAT.SWITCHES, ATR_STAT.DEFERS, ATR_STAT.CUR]⟩,
    ⟨"ATR_CAND_MODE", 0x400B0510, [(3, 0x10)], false, [ATR_CAND_MODE.VALID 0, ATR_CAND_MODE.SRC_MODE 0]⟩,
    ⟨"ATR_CAND_A", 0x400B0514, [(3, 0x10)], false, [ATR_CAND_A.ADDR 0]⟩,
    ⟨"ATR_CAND_B", 0x400B0518, [(3, 0x10)], false, [ATR_CAND_B.ADDR 0]⟩,
    ⟨"ATR_CAND_C", 0x400B051C, [(3, 0x10)], false, [ATR_CAND_C.ADDR 0]⟩ ]

/-- The rows of the CAL block. -/
def calRows : List RegRow :=
  [ ⟨"CAL_CTRL", 0x400C0000, [], false, [CAL_CTRL.DISC_EN, CAL_CTRL.DQ, CAL_CTRL.PHLIM, CAL_CTRL.LBTH]⟩,
    ⟨"CAL_STAT", 0x400C0004, [], false, [CAL_STAT.OSF, CAL_STAT.LBF, CAL_STAT.DATE_REJECT, CAL_STAT.ALARM, CAL_STAT.STEPPED, CAL_STAT.TRIM_SAT, CAL_STAT.DISC, CAL_STAT.SNAP_HELD, CAL_STAT.CHG_ACTIVE, CAL_STAT.WRAPPED, CAL_STAT.OSF_CAUSE]⟩,
    ⟨"CAL_TIME", 0x400C0010, [], false, [CAL_TIME.WDAY, CAL_TIME.HOUR, CAL_TIME.MIN, CAL_TIME.SEC]⟩,
    ⟨"CAL_DATE", 0x400C0014, [], false, [CAL_DATE.YEAR, CAL_DATE.MONTH, CAL_DATE.DAY]⟩,
    ⟨"CAL_SUB", 0x400C0018, [], false, [CAL_SUB.TICKS]⟩,
    ⟨"CAL_SNAP", 0x400C001C, [], false, [CAL_SNAP.RELEASE, CAL_SNAP.SNAP]⟩,
    ⟨"CAL_SET", 0x400C0028, [], false, [CAL_SET.GO]⟩,
    ⟨"CAL_ALARM", 0x400C0030, [], false, [CAL_ALARM.EN, CAL_ALARM.DAY, CAL_ALARM.HOUR, CAL_ALARM.MIN, CAL_ALARM.SEC]⟩,
    ⟨"CAL_CHG", 0x400C0040, [], false, [CAL_CHG.EN, CAL_CHG.ICHG, CAL_CHG.VLIM, CAL_CHG.DIODE]⟩,
    ⟨"CAL_TRIM", 0x400C0044, [], false, [CAL_TRIM.TRIM]⟩,
    ⟨"CAL_VBAT", 0x400C0048, [], false, [CAL_VBAT.V]⟩,
    ⟨"CAL_DISC", 0x400C004C, [], false, [CAL_DISC.PHASE, CAL_DISC.STEPS]⟩ ]
  ++ [ ⟨"CAL_WTIME", 0x400C0020, [], false, [CAL_WTIME.HMS]⟩,
    ⟨"CAL_WDATE", 0x400C0024, [], false, [CAL_WDATE.DATE]⟩ ]

/-- The rows of the ZCP block. -/
def zcpRows : List RegRow :=
  [ ⟨"ZCP_CFG", 0x400D0000, [], false, [ZCP_CFG.UDP_EN, ZCP_CFG.SBL_EN, ZCP_CFG.ANN_EN, ZCP_CFG.SESS_TMO]⟩,
    ⟨"ZCP_STAT", 0x400D0004, [], false, [ZCP_STAT.SESS, ZCP_STAT.OPS, ZCP_STAT.QUEUE]⟩,
    ⟨"ZCP_CNT0", 0x400D0008, [], false, [ZCP_CNT0.BADCRC, ZCP_CNT0.BADPKT]⟩,
    ⟨"ZCP_CNT1", 0x400D000C, [], false, [ZCP_CNT1.STALE, ZCP_CNT1.QDROP]⟩,
    ⟨"ZCP_JSEQ", 0x400D0010, [], false, [ZCP_JSEQ.SEQ]⟩,
    ⟨"ZCP_JMIR", 0x400D0014, [], false, [ZCP_JMIR.SEQ]⟩,
    ⟨"ZCP_JLOST", 0x400D0018, [], false, [ZCP_JLOST.CNT]⟩,
    ⟨"ZCP_ESEQ", 0x400D001C, [], false, [ZCP_ESEQ.SEQ]⟩,
    ⟨"ZCP_EACK", 0x400D0020, [], false, [ZCP_EACK.SEQ]⟩,
    ⟨"ZCP_IRQSRC", 0x400D0024, [], false, [ZCP_IRQSRC.HALT, ZCP_IRQSRC.JLOST, ZCP_IRQSRC.MODE, ZCP_IRQSRC.EVT, ZCP_IRQSRC.RDY]⟩,
    ⟨"ZCP_SPISTAT", 0x400D002C, [], false, [ZCP_SPISTAT.QFULL, ZCP_SPISTAT.RDY, ZCP_SPISTAT.COUNT]⟩,
    ⟨"ZCP_ANNGRP", 0x400D0030, [], false, [ZCP_ANNGRP.IP]⟩ ]
  ++ [ ⟨"ZCP_FW", 0x400D0034, [], false, [ZCP_FW.ROM, ZCP_FW.PATCH]⟩,
    ⟨"ZCP_IRQMASK", 0x400D0028, [], false, [ZCP_IRQMASK.M3, ZCP_IRQMASK.M2, ZCP_IRQMASK.M1, ZCP_IRQMASK.M0]⟩,
    ⟨"ZCP_EVT", 0x400D1000, [(256, 0x20), (8, 0x4)], false, [ZCP_EVT.W 0 0]⟩ ]

/-- The rows of the PWR block. -/
def pwrRows : List RegRow :=
  [ ⟨"PWR_DSTAT", 0x400E0000, [], false, [PWR_DSTAT.RST, PWR_DSTAT.ON]⟩,
    ⟨"PWR_D11CTL", 0x400E0004, [], false, [PWR_D11CTL.OFF]⟩,
    ⟨"PWR_AVS", 0x400E0010, [], false, [PWR_AVS.EN, PWR_AVS.PEC, PWR_AVS.ADDR, PWR_AVS.STEP, PWR_AVS.PERIOD]⟩,
    ⟨"PWR_AVSLIM", 0x400E0014, [], false, [PWR_AVSLIM.VMAX, PWR_AVSLIM.VNOM, PWR_AVSLIM.VMIN]⟩,
    ⟨"PWR_AVSTGT", 0x400E0018, [], false, [PWR_AVSTGT.TGT_HI, PWR_AVSTGT.TGT_LO]⟩,
    ⟨"PWR_AVSSTAT", 0x400E001C, [], false, [PWR_AVSSTAT.VSET, PWR_AVSSTAT.HOLDING, PWR_AVSSTAT.ALERT, PWR_AVSSTAT.FAULT]⟩,
    ⟨"PWR_AVSCNT", 0x400E0020, [], false, [PWR_AVSCNT.STEPS, PWR_AVSCNT.SKIP]⟩,
    ⟨"PWR_AVSPMB", 0x400E0024, [], false, [PWR_AVSPMB.STATUS]⟩,
    ⟨"MON_TEMP", 0x400E0110, [(6, 0x4)], false, [MON_TEMP.T 0]⟩,
    ⟨"MON_TCFG", 0x400E0130, [], false, [MON_TCFG.WARN_HI, MON_TCFG.WARN_LO, MON_TCFG.TSHUT]⟩,
    ⟨"MON_VOLT", 0x400E0140, [(10, 0x4)], false, [MON_VOLT.MV 0]⟩,
    ⟨"MON_VWARN0", 0x400E0180, [], false, [MON_VWARN0.HI, MON_VWARN0.LO]⟩ ]
  ++ [ ⟨"MON_VWARN1", 0x400E0184, [], false, [MON_VWARN1.HI, MON_VWARN1.LO]⟩,
    ⟨"MON_VWARN2", 0x400E0188, [], false, [MON_VWARN2.HI, MON_VWARN2.LO]⟩,
    ⟨"MON_VWARN3", 0x400E018C, [], false, [MON_VWARN3.HI, MON_VWARN3.LO]⟩,
    ⟨"MON_VWARN4", 0x400E0190, [], false, [MON_VWARN4.HI, MON_VWARN4.LO]⟩,
    ⟨"MON_VWARN5", 0x400E0194, [], false, [MON_VWARN5.HI, MON_VWARN5.LO]⟩,
    ⟨"MON_VWARN6", 0x400E0198, [], false, [MON_VWARN6.HI, MON_VWARN6.LO]⟩,
    ⟨"MON_VWARN7", 0x400E019C, [], false, [MON_VWARN7.HI, MON_VWARN7.LO]⟩,
    ⟨"MON_VWARN8", 0x400E01A0, [], false, [MON_VWARN8.HI, MON_VWARN8.LO]⟩,
    ⟨"MON_PM", 0x400E01C0, [(8, 0x4)], false, [MON_PM.COUNT 0]⟩,
    ⟨"MON_STAT", 0x400E01E0, [], false, [MON_STAT.HOT, MON_STAT.TWARN, MON_STAT.VWARN]⟩,
    ⟨"MON_EXT", 0x400E01E4, [], false, [MON_EXT.TMAX, MON_EXT.TMIN]⟩ ]

/-- The rows of the TRC block. -/
def trcRows : List RegRow :=
  [ ⟨"TRC_CTRL", 0x400F0000, [], false, [TRC_CTRL.EN, TRC_CTRL.SINK, TRC_CTRL.WRAP, TRC_CTRL.FLOW_ALL, TRC_CTRL.GUARD_ALL, TRC_CTRL.TYPES, TRC_CTRL.TASKS, TRC_CTRL.SYNCINT]⟩,
    ⟨"TRC_STAT", 0x400F0004, [], false, [TRC_STAT.FULL, TRC_STAT.DROP_OVF, TRC_STAT.DROP]⟩,
    ⟨"TRC_WPTR", 0x400F0020, [], false, [TRC_WPTR.IDX]⟩,
    ⟨"TRC_RADDR", 0x400F0024, [], false, [TRC_RADDR.IDX]⟩,
    ⟨"TRC_RDATA", 0x400F0028, [], false, [TRC_RDATA.W]⟩,
    ⟨"TRC_PORT", 0x400F002C, [], false, [TRC_PORT.DIV]⟩,
    ⟨"TRC_PFLT", 0x400F0010, [(4, 0x4)], false, [TRC_PFLT.EN 0, TRC_PFLT.MASK 0, TRC_PFLT.PORT 0]⟩ ]

/-- The rows of the RST block. -/
def rstRows : List RegRow :=
  [ ⟨"RST_CAUSE", 0x40100000, [], false, [RST_CAUSE.LAST, RST_CAUSE.SRC]⟩,
    ⟨"RST_CFG", 0x40100004, [], false, [RST_CFG.EXT]⟩,
    ⟨"RST_WDOG", 0x40100008, [], false, [RST_WDOG.TMO]⟩,
    ⟨"RST_STRAP", 0x4010000C, [], false, [RST_STRAP.BOOTSEL]⟩,
    ⟨"NVS_CFG", 0x40100100, [], false, [NVS_CFG.DIV]⟩,
    ⟨"NVS_STAT", 0x40100104, [], false, [NVS_STAT.BOOTSLOT, NVS_STAT.BOOTSEL, NVS_STAT.REJ0, NVS_STAT.REJ1, NVS_STAT.RESTORED, NVS_STAT.PATCH_SKIP, NVS_STAT.RELOAD_DIFF, NVS_STAT.BUSY, NVS_STAT.SETS_APPLIED, NVS_STAT.SETS_VOIDED]⟩,
    ⟨"NVS_BASE", 0x40100110, [], false, [NVS_BASE.SEQ]⟩,
    ⟨"NVS_TXA", 0x40100114, [], false, [NVS_TXA.FREE, NVS_TXA.NEXT]⟩,
    ⟨"NVS_RETCFG", 0x40100118, [], false, [NVS_RETCFG.MIRROR_EN, NVS_RETCFG.RESTORE, NVS_RETCFG.PERIOD]⟩,
    ⟨"NVS_RETSEQ", 0x4010011C, [], false, [NVS_RETSEQ.SEQ]⟩,
    ⟨"NVS_RETTAI", 0x40100120, [], false, [NVS_RETTAI.SEC]⟩,
    ⟨"NVS_D0MARK", 0x40100124, [], false, [NVS_D0MARK.SEEN]⟩ ]
  ++ [ ⟨"NVS_SIZE", 0x40100128, [], false, [NVS_SIZE.BYTES]⟩,
    ⟨"NVS_CNT", 0x4010012C, [], false, [NVS_CNT.FAIL, NVS_CNT.SELF]⟩,
    ⟨"NVS_GEN", 0x40100108, [(2, 0x4)], false, [NVS_GEN.GEN 0]⟩ ]

/-- The rows of the block that holds an address; none outside the blocks of Table 21.3. -/
def regBlockRows (a : Nat) : List RegRow :=
  match a / 0x10000 with
  | 0x4000 => sysRows
  | 0x4001 => timRows
  | 0x4002 => plbRows
  | 0x4003 => coreRows
  | 0x4004 => scnRows
  | 0x4005 => txnRows
  | 0x4006 => sbyRows
  | 0x4007 => clsRows
  | 0x4008 => egrRows
  | 0x4009 => canRows
  | 0x400A => fldRows
  | 0x400B => phmRows
  | 0x400C => calRows
  | 0x400D => zcpRows
  | 0x400E => pwrRows
  | 0x400F => trcRows
  | 0x4010 => rstRows
  | _ => []

/-- The index of an array element, with what is left of the offset (outermost dimension first). -/
def dimIndex : List (Nat × Nat) → Nat → Option (Nat × Nat)
  | [], off => some (0, off)
  | (n, st) :: ds, off =>
    if off / st < n then
      match dimIndex ds (off % st) with
      | some (_, r) => some (off / st, r)
      | none => none
    else none

/-- The outermost index of the element of a row that stands at an address, if one does (R594 step 1). -/
def RegRow.hit (r : RegRow) (a : Nat) : Option Nat :=
  if a < r.base then none
  else match dimIndex r.dims (a - r.base) with
    | some (i, 0) => some i
    | _ => none

/-- The first row of a list that assigns an address, with the outermost index. -/
def findRow : List RegRow → Nat → Option (RegRow × Nat)
  | [], _ => none
  | r :: rs, a => match r.hit a with
    | some i => some (r, i)
    | none => findRow rs a

/-- The fields of the register at an address; none where the address is unassigned (R594 step 1). -/
def regFields (a : Nat) : Option (List Fld) :=
  match findRow (regBlockRows a) a with
  | some (r, i) =>
    some (r.flds.map fun f => { f with addr := a, rst := if r.addIdx then f.rst + i else f.rst })
  | none => none

/-- The power domain of a register address (Table 21.3, Table 10.8, Table 17.4, Table 19.7, Table 20.10). The pseudo-addresses of the decode table and of the rule banks (Machine/Ops.lean) lie on D4 and D6. -/
def regDomain (a : Nat) : Nat :=
  let off := a % 0x10000
  match a / 0x10000 with
  | 0x4000 => 1
  | 0x4001 => 1
  | 0x4002 => 2
  | 0x4003 => if 0x400 ≤ off ∧ off ≤ 0x7FF then 3 else if 0x800 ≤ off ∧ off ≤ 0xCAF then 4 else 2
  | 0x4004 => 2
  | 0x4005 => if 0x20 ≤ off ∧ off ≤ 0x28 then 0 else 1
  | 0x4006 => if off = 0x10 then 0 else if off = 0x14 ∨ off = 0x18 ∨ off = 0x1C ∨ off = 0x30 then 9 else 1
  | 0x4007 => 6
  | 0x4008 => 6
  | 0x4009 => 8
  | 0x400A => 10
  | 0x400B => if 0x400 ≤ off ∧ off ≤ 0x54F then 1 else 6
  | 0x400C => if off = 0x1C ∨ off = 0x48 then 1 else 0
  | 0x400D => 1
  | 0x400E => 1
  | 0x400F => if off = 0x04 ∨ (0x20 ≤ off ∧ off ≤ 0x28) then 11 else 1
  | 0x4010 => if off = 0x124 then 0 else 1
  | 0x5000 => 4
  | n => if n = 0x5100 ∨ n = 0x5101 then 6 else 1

end Sys2Proof.Machine
end

