-- ==== Sys2Proof/Machine/Parts.lean ====
section
/-!
DEFINITION. The parts of the state of the block, and the types of the commands' operands: every memory, queue, counter,
mode and pin the spec gives the block that no register field shows whole, as plain data. Each field names its width, the
rule that names it and its reset value.
-/

namespace Sys2Proof.Machine

/-- The operating modes (R66, Table 3.1). -/
inductive Mode where
  | off | backup | reset | boot | selftest | stop | run | runEdit | track | takeover | safeHalt | hold
  deriving DecidableEq, Repr, Inhabited

/-- The code of a mode (Table 3.1). -/
def Mode.code : Mode → Nat
  | .off => 0 | .backup => 1 | .reset => 2 | .boot => 3 | .selftest => 4 | .stop => 5
  | .run => 6 | .runEdit => 7 | .track => 8 | .takeover => 9 | .safeHalt => 10 | .hold => 11

/-- What an error-correcting code finds at a location (R150). -/
inductive Ecc where
  | clean | correctable | uncorrectable
  deriving DecidableEq, Repr, Inhabited

/-- The memories that carry check bits and that scrub walks (R84, R150). -/
inductive MemId where
  | bankA | bankB | dtable | words | bits | rules | patterns | gates | publisher | planeW | planeB
  deriving DecidableEq, Repr, Inhabited

/-- One entry of the event ring (R525). -/
structure EventEntry where
  seq : Nat
  sec : Nat
  tns : Nat
  reg : Nat
  bitArg : Nat
  deriving DecidableEq, Repr, Inhabited

/-- The peer of a ZCP packet: transport code of R528 (0 internal, 1 UDP/IPv4, 2 UDP/IPv6, 3 SPI, 4 C0, 5 C1, 6 SBL), the
four address words of the journal, the UDP source port, the Ethernet port of arrival and the source MAC address (R506, R507,
R528). -/
structure Peer where
  tr : Nat
  addr : List Nat
  port : Nat
  via : Nat
  mac : Nat := 0
  deriving DecidableEq, Repr, Inhabited

/-- One entry of the journal ring (R528); the mode, transport, status, session and opcode apart, then OBJECT, DETAIL. -/
structure JournalEntry where
  seq : Nat
  sec : Nat
  tns : Nat
  status : Nat
  session : Nat
  opcode : Nat
  mode : Nat
  object : Nat
  detail : Nat
  peer : Peer
  deriving DecidableEq, Repr, Inhabited

/-- Peer, session number and sequence number of a ZCP request (Table 18.2). -/
structure ZReq where
  peer : Peer
  session : Nat
  seq : Nat
  deriving DecidableEq, Repr, Inhabited


/-- What a PTP port knows of its master (R29, R30): not visible in a register. -/
structure PtpPort where
  /-- grandmaster clockClass of the last Announce; 8 bits; 02_two_clocks.md R30; reset 0 -/
  clockClass : Nat
  /-- Announce messages arrive within the receipt timeout; 1 bit; 02_two_clocks.md R30; reset 0 -/
  annOk : Bool
  /-- Sync messages arrive within three intervals; 1 bit; 02_two_clocks.md R30; reset 0 -/
  syncOk : Bool
  /-- a two-step Sync waiting for its Follow_Up: sequence number and ingress stamp; 02_two_clocks.md R29; reset none -/
  twoStep : Option (Nat × Nat)
  /-- a Pdelay_Req sent and not yet answered: sequence number and egress stamp; 02_two_clocks.md R29; reset none -/
  pdelay : Option (Nat × Nat)
  /-- a two-step Pdelay_Resp waiting for its Pdelay_Resp_Follow_Up: receipt time at the responder, ingress stamp; 02_two_clocks.md R29; reset none -/
  resp : Option (Nat × Nat)
  /-- the last Announce had currentUtcOffsetValid: offset, leap61, leap59; 02_two_clocks.md R26; reset none -/
  utc : Option (Nat × Bool × Bool)
  deriving DecidableEq, Repr, Inhabited

/-- The TAI clock and its sources beyond their registers (chapter 2). -/
structure TimeSt where
  /-- the TAI counter, in units of 2^-32 ns: 48-bit seconds, nanoseconds 0 to 999,999,999, 32-bit fraction; 02_two_clocks.md R23, R60; reset 0 -/
  tai : Nat
  /-- the counter advances (0 from D1 power-up to the seed); 1 bit; 02_two_clocks.md R60; reset 0 -/
  running : Bool
  /-- PTP ports P0 to P3; 02_two_clocks.md R29, R30; reset nothing heard -/
  ptp : List PtpPort
  /-- last 16 measured offsets of each source 0 to 6, newest first, ns; 02_two_clocks.md R36; reset empty -/
  offs : List (List Int)
  /-- source uncertainty of each source 0 to 6, ns; 02_two_clocks.md R36; reset 0 -/
  srcUnc : List Nat
  /-- consecutive good IRIG-B frames, to 3; 02_two_clocks.md R33; reset 0 -/
  irigGood : Nat
  /-- TAI of the last 1PPS edge (units of the counter); 02_two_clocks.md R34; reset none -/
  ppsLast : Option Nat
  /-- the time exchange in progress over SBL: its number and first stamp; 02_two_clocks.md R35; reset none -/
  sblEx : Option (Nat × Nat)
  /-- number of the next time exchange; 02_two_clocks.md R35; reset 0 -/
  sblExNo : Nat
  /-- TIM_UNC at the last correction, from which holdover grows; 32 bits; 02_two_clocks.md R43; reset 0xFFFFFFFF -/
  holdBase : Nat
  /-- TAI at which holdover began; 02_two_clocks.md R43; reset 0 -/
  holdStart : Nat
  /-- TIM_UNC grows: holdover has begun and no correction from a newly active source has ended it; 1 bit; 02_two_clocks.md R43; reset 1 -/
  growing : Bool
  /-- TAI at which HOLDOVER last set; 16_line_measurement.md R462; reset 0 -/
  holdSet : Nat
  /-- TAI of the last leap second; 02_two_clocks.md R26, 16_line_measurement.md R462; reset none -/
  leapDone : Option Nat
  /-- the UTC midnight (seconds since 1970) at which the minute that LEAP61 or LEAP59 flags ends; 02_two_clocks.md R26; reset 0 -/
  leapAt : Nat
  /-- TQ taken with a manual set, while source 0xE is active; 4 bits; 02_two_clocks.md R45; reset 0xF -/
  manualTq : Nat
  /-- two qualified sources disagree now (the event is raised once); 1 bit; 02_two_clocks.md R44; reset 0 -/
  disagree : Bool
  /-- a forward step has just skipped instants up to this TAI; 02_two_clocks.md case 2; reset none -/
  skipped : Option (Nat × Nat)
  /-- a reset has changed ACTIVE_SRC to 0xF: TAI of the reset, until BOOT enters its journal entry and event; 02_two_clocks.md R60; reset none -/
  resetSw : Option Nat
  deriving DecidableEq, Repr, Inhabited

/-- Plumb beyond its registers (R46 to R56). -/
structure PlumbSt where
  /-- 64-bit phase accumulator, angle in bits 63 to 32; 02_two_clocks.md R46; reset 0 -/
  acc : Nat
  /-- cycle count; 32 bits; 02_two_clocks.md R47; reset 0 -/
  cyc : Nat
  /-- frequency outputs of past updates, newest first, Q8.24, and whether the range changed at the update; 02_two_clocks.md R55, R56; reset empty -/
  hist : List (Nat × Bool)
  /-- channel words (36 bits) of the last M samples, newest first; 02_two_clocks.md R48, R49; reset empty -/
  win : List (List Nat)
  /-- phase errors at the last M samples, newest first, angle LSB; 02_two_clocks.md R49; reset empty -/
  errs : List Int
  /-- increments added of late, newest first: first core cycle, accumulator at its start, increment; 02_two_clocks.md R46, R53; reset empty -/
  incs : List (Nat × Nat × Nat)
  /-- range at the last update; 2 bits; 02_two_clocks.md R56; reset 0 -/
  lastRange : Nat
  /-- consecutive good updates; 02_two_clocks.md R51; reset 0 -/
  goodRun : Nat
  /-- consecutive updates that are not good; 02_two_clocks.md R51; reset 0 -/
  badRun : Nat
  /-- consecutive good updates with |ROCOF| above 1.0 Hz/s; 02_two_clocks.md R54; reset 0 -/
  up1 : Nat
  /-- consecutive good updates with |ROCOF| above 4.0 Hz/s; 02_two_clocks.md R54; reset 0 -/
  up2 : Nat
  /-- consecutive good updates at or below the downward bound; 02_two_clocks.md R54; reset 0 -/
  down : Nat
  /-- the range changed at the last update (system bit 0x3_0122); 1 bit; 02_two_clocks.md R56; reset 0 -/
  rangeChg : Bool
  /-- loop phase correction now applied through the increment, signed 64-bit accumulator LSB per cycle; 02_two_clocks.md R49; reset 0 -/
  corr : Int
  deriving DecidableEq, Repr, Inhabited

/-- A PTP port that has heard nothing. -/
def PtpPort.init : PtpPort :=
  { clockClass := 0, annOk := false, syncOk := false, twoStep := none, pdelay := none, resp := none, utc := none }

/-- The clock at D1 power-up (R60). -/
def TimeSt.init : TimeSt :=
  { tai := 0, running := false, ptp := List.replicate 4 PtpPort.init, offs := List.replicate 7 [],
    srcUnc := List.replicate 7 0, irigGood := 0, ppsLast := none, sblEx := none, sblExNo := 0,
    holdBase := 0xFFFFFFFF, holdStart := 0, growing := true, holdSet := 0, leapDone := none, leapAt := 0, manualTq := 0xF, disagree := false, skipped := none, resetSw := none }

/-- Plumb at D2 power-up (R61). -/
def PlumbSt.init : PlumbSt :=
  { acc := 0, cyc := 0, hist := [], win := [], errs := [], incs := [], lastRange := 0, goodRun := 0, badRun := 0, up1 := 0, up2 := 0, down := 0, rangeChg := false,
    corr := 0 }

/-- The data spaces (chapter 5). -/
structure SpaceSt where
  /-- bit space 0x0_0000 to 0xF_FFFF, 1,048,576 bits, listed where 1 (live copies; the system bits that follow a source are computed); 05_bits_and_tagged_words.md R127, R156; reset 0 -/
  bits : List (Nat × Bool)
  /-- word space 0x0_0000 to 0x7_FFFF, 524,288 tagged words of 36 bits (live copies), listed where not EMPTY; 05_bits_and_tagged_words.md R131, R138, R156; reset EMPTY -/
  words : List (Nat × TWord)
  /-- bit planes of tasks 0 to 7, key 65,536 t + address; 05_bits_and_tagged_words.md R135, R137; reset 0 -/
  planeB : List (Nat × Bool)
  /-- word planes of tasks 0 to 7, key 16,384 t + address; 05_bits_and_tagged_words.md R135, R137; reset EMPTY -/
  planeW : List (Nat × TWord)
  /-- staging register of the host: word address and payload; 05_bits_and_tagged_words.md R134; reset empty -/
  hostStage : Option (Nat × Word)
  /-- read latch of the host: word address and tag; 05_bits_and_tagged_words.md R134, R595; reset empty -/
  hostTag : Option (Nat × BitVec 4)
  /-- errors lying in the checked memories, by memory and location, until something reads or overwrites them; 05_bits_and_tagged_words.md R150; reset none -/
  upsets : List ((MemId × Nat) × Ecc)
  /-- corrected locations that wait for an idle cycle to be rewritten; 05_bits_and_tagged_words.md R151; reset none -/
  writeBack : List (MemId × Nat)
  /-- locations written in the present cycle with the rank of the writer whose value stands: key 2 k for bits, 2 k + 1 for words, planes from 2^20 up; 05_bits_and_tagged_words.md R149; reset none -/
  written : List (Nat × Nat)
  /-- a requester other than the core has used the word space in this cycle; 1 bit; 06_units.md R184; reset 0 -/
  wordUse : Bool
  deriving DecidableEq, Repr, Inhabited

/-- The data spaces as reset leaves them (R137, R155, R156). -/
def SpaceSt.init : SpaceSt :=
  { bits := [], words := [], planeB := [], planeW := [], hostStage := none, hostTag := none, upsets := [],
    writeBack := [], written := [], wordUse := false }

/-- Modes, self-test and HOLD beyond the SYS_ registers (chapters 3, 19, 20). -/
structure ModeSt where
  /-- STOP_PENDING, bit address 0x3_0008; 1 bit; 03_modes.md R75; reset 0 -/
  stopPending : Bool
  /-- the operation slot whose MODE_REQ waits for the mode; 03_modes.md R75, 18_command_protocol.md R515; reset none -/
  modeOp : Option Nat
  /-- the halt cause that has arisen in this cycle, lowest code; 03_modes.md R78; reset none -/
  haltPend : Option Nat
  /-- the test of SELFTEST in progress; 03_modes.md R81; reset none -/
  selftest : Option Nat
  /-- the on-demand test in progress and its operation slot; 03_modes.md R82; reset none -/
  demandTest : Option (Nat × Nat)
  /-- Ethernet ports disabled by self-test; 4 bits; 03_modes.md R81; reset 0 -/
  portsOff : List Nat
  /-- bus controllers disabled by self-test; 2 bits; 03_modes.md R81; reset 0 -/
  canOff : List Nat
  /-- SBL disabled by self-test; 1 bit; 03_modes.md R81; reset 0 -/
  sblOff : Bool
  /-- companions treated as absent after self-test; 8 bits; 03_modes.md R81; reset 0 -/
  cpnOff : List Nat
  /-- the interpolator failed: stamps have 2.5 ns resolution; 1 bit; 03_modes.md R81; reset 0 -/
  interpOff : Bool
  /-- trace disabled by self-test; 1 bit; 03_modes.md R81; reset 0 -/
  traceOff : Bool
  /-- waits for role negotiation before RUN or TRACK (left SELFTEST or STOP); 1 bit; 10_hot_standby.md R273; reset 0 -/
  negotiating : Bool
  /-- HOLD entry in progress: domains still to be switched off, in order; 03_modes.md R88; reset none -/
  holdEntry : Option (List Nat)
  /-- wake in progress: domains still to be powered, in order; 03_modes.md R89; reset none -/
  waking : Option (List Nat)
  /-- TAI at which the wake began: further sources of that cycle are recorded too; 03_modes.md R90; reset 0 -/
  wakeTai : Nat
  /-- the D4 reload of a wake is still to be done; 1 bit; 03_modes.md R89, 20_reset_boot_nv.md R576; reset 0 -/
  wakeReload : Bool
  /-- identity of the active bank before D4 was switched off: VER, CRC; 20_reset_boot_nv.md R576; reset 0, 0 -/
  heldPid : Nat × Nat
  /-- a threshold event of MON suppressed by test 12 (raised at its end): field addresses; 03_modes.md Table 3.7; reset none -/
  suppressed : List Nat
  /-- reset sources active now, codes of Table 20.1; 20_reset_boot_nv.md R561, R562; reset none -/
  resetSrc : List Nat
  /-- every reset source has been released and the straps are sampled: BOOT waits for the reference only; 03_modes.md R73; reset 0 -/
  released : Bool
  /-- the 25 MHz reference is stable; 1 bit; 03_modes.md R73; reset 1 -/
  refStable : Bool
  /-- the 25 MHz reference has stopped while the device runs; 1 bit; 22_package_electrical.md R612; reset 0 -/
  refStopped : Bool
  /-- the configuration, program and replay of BOOT are done; 1 bit; 20_reset_boot_nv.md R574; reset 0 -/
  bootLoaded : Bool
  /-- the position of scrub in each memory it walks; 03_modes.md R84; reset 0 -/
  scrubPos : List Nat
  /-- core cycles of the present scrub pass over the word space in which scrub was running; 03_modes.md R86; reset 0 -/
  scrubTime : Nat
  /-- core cycle of the last scrub access to each memory it walks; 03_modes.md R84; reset none -/
  scrubLast : List (Option Nat)
  deriving DecidableEq, Repr, Inhabited

/-- Mode bookkeeping at the start of BOOT. -/
def ModeSt.init : ModeSt :=
  { stopPending := false, modeOp := none, haltPend := none, selftest := none, demandTest := none, portsOff := [],
    canOff := [], sblOff := false, cpnOff := [], interpOff := false, traceOff := false, negotiating := false,
    holdEntry := none, waking := none, wakeTai := 0, wakeReload := false, heldPid := (0, 0), suppressed := [], resetSrc := [], released := false, refStable := true,
    refStopped := false, bootLoaded := false, scrubPos := [0, 0, 0, 0, 0, 0, 0], scrubTime := 0, scrubLast := List.replicate 7 none }

/-- A new-variable range of a Skim edit (R262). -/
structure NewVar where
  isBit : Bool
  start : Nat
  len : Nat
  deriving DecidableEq, Repr, Inhabited

/-- The parameters of IMG_WRITE (R520). -/
structure ImgWrite where
  sysId : Nat
  srcStn : Nat
  epoch : Nat
  task : Nat
  scan : Nat
  map : Nat
  isWord : Bool
  daddr : Nat
  len : Nat
  bits : List Bool
  words : List TWord
  deriving DecidableEq, Repr, Inhabited

/-- A ZCP request with its parameters (Table 18.6, Table 18.7). -/
inductive ZOp where
  | identify
  | readReg (addr n : Nat)
  | readMem (addr len : Nat)
  | stageRead (addr n : Nat)
  | opStatus (handle : Nat)
  | abort (handle : Nat)
  | journalRead (start n : Nat)
  | eventRead (start n : Nat)
  | sessionOpen
  | sessionClose
  | announce (stn sysId dirCrc mode epoch mac : Nat)
  | writeReg (addr : Nat) (ws : List Word)
  | writeMem (addr : Nat) (bytes : List Byte)
  | busCancel (n mask : Nat)
  | imgWrite (w : ImgWrite)
  | begin (persist systxn : Nat)
  | stage (addr : Nat) (ws : List Word)
  | prepare
  | commit (kind when0 when1 : Nat)
  | rollback (force : Nat)
  | undo
  | sysCommit (systxn kind tS tNs a : Nat) (mask : List Nat)
  | sysPrepare (systxn sysId dirCrc kind tS tNs a : Nat)
  | sysCommitAt (systxn kind tS tNs a : Nat)
  | sysAbort (systxn : Nat)
  | sysReport (systxn stn outcome : Nat)
  | loadBankOpen (bank ver crc : Nat)
  | loadBankData (index : Nat) (ws : List Word)
  | loadBankClose (activate : Nat)
  | loadDtData (entry : Nat) (ws : List Word)
  | loadDtClose (version : Nat)
  | editBegin (persist keep ver crc : Nat)
  | editPatch (index : Nat) (ws : List Word) (ranges : List NewVar)
  | modeReq (mode : Nat)
  | handover
  | nvRead (addr len : Nat)
  | nvErase (addr len : Nat)
  | nvProgram (addr : Nat) (bytes : List Byte)
  | nvImageOpen (slot len crc : Nat)
  | nvImageData (offset : Nat) (bytes : List Byte)
  | nvImageClose
  | nvSave
  | timeSet (secHi secLo ns unc : Nat)
  | selftestRun (index : Nat)
  | reset
  deriving DecidableEq, Repr, Inhabited

/-- A packet in the input queue (R512). -/
structure ZPacket where
  peer : Peer
  bytes : List Byte
  deriving DecidableEq, Repr, Inhabited

/-- One of the 16 session slots (R509, R511). -/
structure Session where
  /-- the slot's generation; 12 bits; 18_command_protocol.md R509; reset 0 -/
  gen : Nat
  /-- the slot is in use; 1 bit; 18_command_protocol.md R509; reset 0 -/
  live : Bool
  /-- highest SEQ executed, H; 18_command_protocol.md R511; reset none -/
  high : Option Nat
  /-- the last 32 replies, newest first: SEQ and reply packet; 18_command_protocol.md R511; reset empty -/
  cache : List (Nat × List Byte)
  deriving DecidableEq, Repr, Inhabited

/-- One of the 8 slots of the operation table (R515). -/
structure OpSlot where
  /-- generation; 8 bits; 18_command_protocol.md R515; reset 0 -/
  gen : Nat
  /-- 0 free, 1 running, 2 ended; 18_command_protocol.md R515; reset 0 -/
  st : Nat
  /-- opcode of the operation; 18_command_protocol.md R515; reset 0 -/
  opcode : Nat
  /-- the requester; 18_command_protocol.md R515; reset nobody -/
  peer : Peer
  /-- SESSION of the request; 18_command_protocol.md R515; reset 0 -/
  session : Nat
  /-- SEQ of the request; 18_command_protocol.md R515; reset 0 -/
  seq : Nat
  /-- outcome; 18_command_protocol.md R515; reset 0 -/
  status : Nat
  /-- bytes done for class N; 18_command_protocol.md Table 18.6; reset 0 -/
  progress : Nat
  /-- result bytes of the notice; 18_command_protocol.md R515; reset empty -/
  result : List Byte
  /-- the notice waits for room in the SPI queue; 18_command_protocol.md R523; reset 0 -/
  noticeWaits : Bool
  /-- past its point of no return; 18_command_protocol.md R516; reset 0 -/
  pnr : Bool
  deriving DecidableEq, Repr, Inhabited

/-- One of the unit's own requests that waits for its reply (R521). -/
structure OwnReq where
  station : Nat
  seq : Nat
  opcode : Nat
  /-- posted-write information of an IMG_WRITE: map entry, task, scan number (R230) -/
  mapEntry : Nat
  task : Nat
  scan : Nat
  deriving DecidableEq, Repr, Inhabited

/-- The command interpreter beyond its registers (chapter 18). -/
structure ZcpSt where
  /-- input queue, at most 16 packets, oldest first; 18_command_protocol.md R512; reset empty -/
  queue : List ZPacket
  /-- requests received in HOLD that wait for STOP, oldest first; 03_modes.md R92; reset empty -/
  held : List (ZReq × ZOp)
  /-- 16 session slots; 18_command_protocol.md R509; reset closed -/
  sessions : List Session
  /-- 8 operation slots; 18_command_protocol.md R515; reset free -/
  ops : List OpSlot
  /-- queue of SPI replies and notices, at most 4 packets, oldest first; 18_command_protocol.md R523; reset empty -/
  spiQueue : List (List Byte)
  /-- sequence counter of the unit's own requests; 32 bits; 18_command_protocol.md R521; reset 0 -/
  ownSeq : Nat
  /-- own requests that wait for a reply; 18_command_protocol.md R521; reset none -/
  outstanding : List OwnReq
  /-- highest epoch accepted per pair, by the lower station number; 18_command_protocol.md R520; reset none -/
  pairEpoch : List (Nat × Nat)
  /-- the program bank being loaded (0 A, 1 B); 18_command_protocol.md R518; reset none -/
  bankLoad : Option Nat
  /-- decode-table load buffer, words by 36 n + w; 18_command_protocol.md R518; reset empty -/
  dtLoad : List (Nat × Nat)
  /-- the next LOAD_DT_DATA clears the buffer; 18_command_protocol.md R518; reset 1 -/
  dtFresh : Bool
  /-- event ring, at most 256 entries, newest first; 18_command_protocol.md R525; reset empty at D1 power-up -/
  events : List EventEntry
  /-- journal ring, at most 4,096 entries, newest first; 18_command_protocol.md R527, R528; reset empty at D1 power-up -/
  journal : List JournalEntry
  /-- replies that wait for an Ethernet, bus or SBL transport to carry them, oldest first; 18_command_protocol.md R506, R507; reset empty -/
  outbox : List ZPacket
  /-- source MAC addresses of senders whose last ANNOUNCE or SYS_PREPARE named another SYSTEM_ID; 01_station_picture.md R14; reset none -/
  foreign : List Nat
  /-- the image operation NV_IMAGE_OPEN left open: slot, length, CRC, GEN of its record; 20_reset_boot_nv.md R585; reset none -/
  imgOpen : Option (Nat × Nat × Nat × Nat)
  deriving DecidableEq, Repr, Inhabited

/-- Nobody: the peer of internal entries (R528). -/
def Peer.none : Peer := { tr := 0, addr := [0, 0, 0, 0], port := 0, via := 0 }

/-- A closed session slot. -/
def Session.init : Session := { gen := 0, live := false, high := none, cache := [] }

/-- A free operation slot. -/
def OpSlot.init : OpSlot :=
  { gen := 0, st := 0, opcode := 0, peer := Peer.none, session := 0, seq := 0, status := 0, progress := 0, result := [],
    noticeWaits := false, pnr := false }

/-- The interpreter after a reset at D1 power-up (R531). -/
def ZcpSt.init : ZcpSt :=
  { queue := [], held := [], sessions := List.replicate 16 Session.init, ops := List.replicate 8 OpSlot.init, spiQueue := [],
    ownSeq := 0, outstanding := [], pairEpoch := [], bankLoad := none, dtLoad := [], dtFresh := true, events := [],
    journal := [], outbox := [], foreign := [], imgOpen := none }

/-- The move a trigger came from: task, bank, bundle index, slot (R146, Table 5.5). -/
structure Origin where
  task : Nat
  bank : Nat
  pc : Nat
  slot : Nat
  deriving DecidableEq, Repr, Inhabited

/-- A move whose write is deferred, or a trigger that waits for its unit (R110, R111, R117, R629). -/
structure Deferred where
  o : Origin
  /-- destination port -/
  dst : Nat
  /-- source value captured at issue -/
  val : TWord
  /-- operand registers OPD0 to OPD3 of the unit as resolved at the end of the issue cycle -/
  opds : List TWord
  /-- issue cycle -/
  iss : Nat
  /-- resolution cycle -/
  res : Nat
  /-- the guard resolves true (R108: the bit at the end of the cycle before issue) -/
  ok : Bool
  /-- MOD.TRC of the move (R100) -/
  trc : Bool := false
  /-- the move is provisional, so its resolution is traced (R113, R547) -/
  trace : Bool := false
  /-- the resolution lands the write or fires the trigger; false in the record of a guard that resolves before its trigger fires -/
  acts : Bool := true
  /-- MAC selector at the start of the issue cycle (R202) -/
  sel : Nat := 0
  deriving DecidableEq, Repr, Inhabited

/-- What an operation does when its latency has passed, beyond the results already computed (R160, R174, R182). -/
inductive PendAct where
  | nothing
  /-- load one word into RES0 -/
  | load (a : Nat)
  /-- load a pair into RES0, RES1 -/
  | loadPair (a : Nat)
  /-- store words at rising addresses -/
  | store (a : Nat) (ws : List TWord)
  /-- DFT over base, N, L, S, h, window, ρ, and the user weights as they stand at its firing -/
  | dft (base n l start h win : Nat) (rho : Word) (wts : List Nat)
  | sendEth (buf ports queue len : Nat)
  | sendCan (buf ctrl len : Nat) (fd brs ide : Bool)
  | fldCmd (buf cpn n : Nat)
  | regRd (addr : Nat)
  | regWr (addr : Nat) (v : Word)
  /-- a custom operation of a decode-table entry -/
  | custom (entry : Nat)
  deriving DecidableEq, Repr, Inhabited

/-- An operation in flight (R160); it holds one tracker entry (R114). -/
structure PendOp where
  o : Origin
  unit : Nat
  port : Nat
  fire : Nat
  lat : Nat
  /-- results computed at firing: result register and value -/
  results : List (Nat × TWord)
  act : PendAct
  /-- the operation holds a tracker entry -/
  entry : Bool
  /-- words that a QU copy has moved (R184) -/
  done : Nat := 0
  deriving DecidableEq, Repr, Inhabited

/-- A pending TMU event (R178 to R181): angle events hold (C, A), UTC events TAI in units of the counter. -/
structure TmuEvt where
  utc : Bool
  c : Nat
  a : Nat
  tai : Nat
  late : Bool
  action : Nat
  arg : Word
  task : Nat
  /-- the core cycle in which it was scheduled (R180) -/
  at' : Nat
  deriving DecidableEq, Repr, Inhabited

/-- One of the 32 slots of the TMU (R179). -/
structure TmuSlot where
  gen : Nat
  ev : Option TmuEvt
  deriving DecidableEq, Repr, Inhabited

/-- A frame held in a mailbox (R182, R183). -/
structure MbxFrame where
  bytes : List Byte
  sec : Nat
  tns : Nat
  port : Nat
  deriving DecidableEq, Repr, Inhabited

/-- A complex accumulator of PHU0 (R171): tag 0 clear, 4 FIX16 (64 bits, 32 fractional), 5 FLOAT32 (binary32 codes). -/
structure PhuAcc where
  tag : Nat
  re : Int
  im : Int
  deriving DecidableEq, Repr, Inhabited

/-- The custom operation in progress (R198): its entry, its next micro-move, the MAC bank, inputs, scratch, staging. -/
structure MacRun where
  o : Origin
  entry : Nat
  m : Nat
  /-- MAC-bank registers, scratch, staging and inputs by micro port (source ports 0x0F0 to 0x0F4, 0x0F8 to 0x0FF, OUT as 0x1F0 + i; result registers at their source port, operand registers at 0x400 + port) -/
  regs : List (Nat × TWord)
  acc : PhuAcc
  /-- results in flight inside the MAC bank: landing micro-cycle, source port, value -/
  inflight : List (Nat × Nat × TWord)
  /-- loads in flight: micro-cycle of the read, unit, address, pair -/
  loads : List (Nat × Nat × Nat × Bool)
  deriving DecidableEq, Repr, Inhabited

/-- The move engine and its units beyond the CORE_ registers (chapters 4, 6, 7). -/
structure CoreSt where
  /-- core cycles since reset; 64 bits; 04_move_engine.md Table 4.11, R125; reset 0 -/
  cyc : Nat
  /-- program bank A, 65,536 bundles of 8 move words of 32 bits, key 8 k + s; 04_move_engine.md R93; reset 0 (empty) -/
  bankA : List (Nat × Word)
  /-- program bank B, as bank A; 04_move_engine.md R93; reset 0 (empty) -/
  bankB : List (Nat × Word)
  /-- bundles of bank A marked bad by an uncorrectable error; 03_modes.md R85; reset none -/
  badA : List Nat
  /-- bundles of bank B marked bad; 03_modes.md R85; reset none -/
  badB : List Nat
  /-- operand and result registers of every context, 36 bits each, key 4096 t + 2048 (result) + 16 unit + i; 04_move_engine.md R103, R106, R125; reset EMPTY -/
  ctx : List (Nat × TWord)
  /-- holding registers H0 to H63 of every context, 36 bits each, key 64 t + n; 04_move_engine.md R104, R125; reset EMPTY -/
  hold : List (Nat × TWord)
  /-- PC of each context; 16 bits; 04_move_engine.md R106; reset 0 -/
  pcs : List Nat
  /-- pending branches of each context: bundles still to issue before the target, target; 04_move_engine.md R120; reset none -/
  branches : List (List (Nat × Nat))
  /-- operand registers that hold a provisional value, with the resolution cycle, by register key; 04_move_engine.md R110, R111; reset none -/
  prov : List (Nat × Nat)
  /-- deferred moves and triggers, in issue order; 04_move_engine.md R110, R111; reset none -/
  deferred : List Deferred
  /-- triggers that wait for their unit, in order; 04_move_engine.md R117, R629; reset none -/
  waiting : List Deferred
  /-- operations in flight, oldest first; 06_units.md R160; reset none -/
  ops : List PendOp
  /-- bits written in the last two cycles: bit key (plane bits at 2^20 + 65,536 t + address) and cycle; 04_move_engine.md R109; reset none -/
  bitWrites : List (Nat × Nat)
  /-- units whose trigger input has been used in this cycle; 04_move_engine.md R119, R629; reset none -/
  firedNow : List Nat
  /-- 1,024 timer cells: state 0 IDLE, 1 ON, 2 RUN, 3 DONE (2 bits) and start (32 bits); 06_units.md R167, R191; reset IDLE, 0 -/
  cells : List (Nat × (Nat × Nat))
  /-- 32 TMU slots with their 8-bit generations; 06_units.md R179, R191; reset free, generation 0 -/
  tmu : List TmuSlot
  /-- fire FIFO, at most 32 records, oldest first: record, TIME_HI, TIME_LO; 06_units.md R181, R191; reset empty -/
  fifo : List (Word × Word × Word)
  /-- records were discarded since the last one entered; 1 bit; 06_units.md R181; reset 0 -/
  fifoLost : Bool
  /-- TMU FASTOUT actions that wait for room, in order: the command words; 06_units.md R180; reset none -/
  fastWait : List Word
  /-- 16 mailboxes of at most 16 frames, 64 KiB in all, oldest first; 06_units.md R183, R191; reset empty -/
  mbx : List (List MbxFrame)
  /-- fast queue of each companion, at most 4 commands, oldest first: SET in bits 3 to 0, CLR in bits 7 to 4; 06_units.md R188, R191; reset empty -/
  fastQ : List (List Nat)
  /-- PHU0 accumulator of each context; 06_units.md R171, R191; reset clear -/
  accs : List PhuAcc
  /-- MAC selector of each context; 6 bits; 06_units.md R186, R191; reset 0 -/
  macSel : List Nat
  /-- CC_t, bit 0x3_0300 + t of each task; 1 bit; 06_units.md R176; reset 0 -/
  cc : List Bool
  /-- decode-table entries marked bad; 07_decode_table.md R212; reset none -/
  dtBad : List Nat
  /-- the custom operation in progress; 07_decode_table.md R198; reset none -/
  mac : Option MacRun
  /-- tag policy in force for the run of each task; 2 bits; 05_bits_and_tagged_words.md R144, case 10; reset 0 -/
  pol : List Nat
  /-- guard aliases in force for the run of each task, CORE_GALn as its freeze took them; 20 bits each; 04_move_engine.md R107; reset 0x4_0000 + n -/
  gal : List (List Nat)
  /-- aliased system bits that were 1 at the start of the cycle: what a device write of them is told by; 04_move_engine.md R108, R109; reset none -/
  sysSeen : List Nat
  /-- core cycle in which CORE_TAGREC was recorded; 05_bits_and_tagged_words.md case 6; reset 0 -/
  recAt : Nat
  deriving DecidableEq, Repr, Inhabited

/-- A free TMU slot of generation 0. -/
def TmuSlot.init : TmuSlot := { gen := 0, ev := none }

/-- A clear accumulator. -/
def PhuAcc.init : PhuAcc := { tag := 0, re := 0, im := 0 }

/-- The engine as a reset leaves it (R125, R191, R213). -/
def CoreSt.init : CoreSt :=
  { cyc := 0, bankA := [], bankB := [], badA := [], badB := [], ctx := [], hold := [], pcs := List.replicate 8 0,
    branches := List.replicate 8 [], prov := [], deferred := [], waiting := [], ops := [], bitWrites := [],
    firedNow := [], cells := [], tmu := List.replicate 32 TmuSlot.init, fifo := [], fifoLost := false, fastWait := [],
    mbx := List.replicate 16 [], fastQ := List.replicate 8 [], accs := List.replicate 8 PhuAcc.init,
    macSel := List.replicate 8 0, cc := List.replicate 8 false, dtBad := [], mac := none,
    pol := List.replicate 8 0, gal := List.replicate 8 ((List.range 15).map (0x40000 + ·)), sysSeen := [], recAt := 0 }

/-- The states of a task (R214, Table 8.1). -/
inductive TaskState where
  | idle | pending | running | launchWait
  deriving DecidableEq, Repr, Inhabited

/-- What is known of the trigger of a run (R217, R222): Plumb's pair, TAI and the TRIGINFO word's parts. -/
structure TrigInfo where
  cyc : Nat
  ang : Nat
  tai : Nat
  k : Nat
  late : Bool
  freerun : Bool
  deriving DecidableEq, Repr, Inhabited

/-- What ends a run at the end of the present cycle: its END, or the launch of its commit (R214, R222). -/
inductive RunEnd where
  | no
  | fromEnd (nocommit : Bool)
  | fromLaunch (late : Bool)
  deriving DecidableEq, Repr, Inhabited

/-- One task of the scheduler beyond its registers (R214 to R227). -/
structure TaskSt where
  /-- task state; 2 bits; 08_scan_and_image.md R214; reset IDLE -/
  st : TaskState
  /-- the trigger of the run in progress; 08_scan_and_image.md R222; reset none (zeros) -/
  trig : TrigInfo
  /-- a trigger held under policy LATE; 08_scan_and_image.md R225; reset none -/
  held : Option TrigInfo
  /-- scan counter; 64 bits; 08_scan_and_image.md R227, R238; reset 0 -/
  scan : Nat
  /-- TAI at the start of the freeze cycle; 08_scan_and_image.md R221; reset 0 -/
  frzTai : Nat
  /-- time class at the freeze; 2 bits; 02_two_clocks.md R28; reset 0 -/
  frzCls : Nat
  /-- core cycle of the freeze; 08_scan_and_image.md R227; reset 0 -/
  frzCyc : Nat
  /-- the task has issued a bundle in its run; 1 bit; 08_scan_and_image.md R215; reset 0 -/
  issued : Bool
  /-- the END or the launch commit of this cycle, which acts at the cycle's end; 08_scan_and_image.md R214, R222; reset none -/
  fin : RunEnd
  /-- TAI of the last period instant that has fired or been skipped since arming; 08_scan_and_image.md R218; reset none -/
  lastInst : Option Nat
  /-- capture of the output window: bits; 08_scan_and_image.md R222; reset empty -/
  capB : List (Nat × Bool)
  /-- capture of the output window: words; 08_scan_and_image.md R222; reset empty -/
  capW : List (Nat × TWord)
  deriving DecidableEq, Repr, Inhabited

/-- A posted write that a commit has sent and whose outcome is not yet known (R228 to R230). -/
structure Posted where
  mapEntry : Nat
  kind : Nat
  target : Nat
  daddr : Nat
  task : Nat
  scan : Nat
  /-- message sequence (STATION), frame number (FIELD) -/
  ref : Nat
  deriving DecidableEq, Repr, Inhabited

/-- The scan and image machinery beyond its registers (chapter 8). -/
structure ScanSt where
  /-- tasks T0 to T7; 08_scan_and_image.md R214; reset IDLE -/
  tasks : List TaskSt
  /-- committed output image, 65,536 bits, key the bit address; 08_scan_and_image.md R223, R238; reset 0 -/
  imgB : List (Nat × Bool)
  /-- committed output image, 16,384 tagged words, key the word address; 08_scan_and_image.md R223, R238; reset EMPTY -/
  imgW : List (Nat × TWord)
  /-- posted writes with an outcome to come; 08_scan_and_image.md R230; reset none -/
  posted : List Posted
  /-- posted-write failure log, at most 64 entries, oldest first: map entry, cause; 08_scan_and_image.md R231; reset empty -/
  pwlog : List (Posted × Nat)
  /-- the task that the scheduler selected in the cycle before, which freezes in this one; 08_scan_and_image.md R215; reset none -/
  sel : Option Nat
  /-- station bits at the start of the present cycle, listed where 1; 08_scan_and_image.md R233, R234; reset 0 -/
  stnStart : List (Nat × Bool)
  deriving DecidableEq, Repr, Inhabited

/-- A trigger that has not fallen. -/
def TrigInfo.init : TrigInfo := { cyc := 0, ang := 0, tai := 0, k := 0, late := false, freerun := false }

/-- An idle task. -/
def TaskSt.init : TaskSt :=
  { st := .idle, trig := TrigInfo.init, held := none, scan := 0, frzTai := 0, frzCls := 0, frzCyc := 0, issued := false, fin := .no,
    lastInst := none, capB := [], capW := [] }

/-- The scan machinery as a reset leaves it (R238). -/
def ScanSt.init : ScanSt :=
  { tasks := List.replicate 8 TaskSt.init, imgB := [], imgW := [], posted := [], pwlog := [], sel := none, stnStart := [] }

/-- The transaction, its undo copy, the edit and the system-wide commit beyond their registers (chapter 9). -/
structure TxnSt where
  /-- staged fields of the open transaction, field and shadow value (fields not listed keep the active value); 09_edits_and_transactions.md R241, R245; reset none -/
  staged : List (Fld × Nat)
  /-- the set holds a patched program bank; 1 bit; 09_edits_and_transactions.md R241, R260; reset 0 -/
  bank : Bool
  /-- new-variable ranges of the edit; 09_edits_and_transactions.md R262; reset none -/
  newVars : List NewVar
  /-- CRC of the active content of each object at BEGIN, by object number; 09_edits_and_transactions.md R247; reset none -/
  base : List (Nat × Nat)
  /-- a COMMIT that waits for preparation: kind and instant words; 09_edits_and_transactions.md R249; reset none -/
  commitAfter : Option (Nat × Nat × Nat)
  /-- operation slots of the PREPARE and of the COMMIT or UNDO in progress; 18_command_protocol.md R515; reset none -/
  prepOp : Option Nat
  commitOp : Option Nat
  /-- a SYS_PREPARE whose answer waits for READY; 09_edits_and_transactions.md R256; reset none -/
  prepReply : Option ZReq
  /-- bundles that the edit has patched, or that the kept edit has; 09_edits_and_transactions.md R247, R264; reset none -/
  patched : List Nat
  /-- an UNDO: exchange active copy and shadow of the last effect; 1 bit; 09_edits_and_transactions.md R254; reset 0 -/
  isUndo : Bool
  /-- the last effect, for UNDO: previous values of the fields it changed; 09_edits_and_transactions.md R241, R254; reset none -/
  undo : List (Fld × Nat)
  /-- the last effect swapped the program bank; 1 bit; 09_edits_and_transactions.md R254; reset 0 -/
  undoBank : Bool
  /-- persistence of the last effect; 1 bit; 09_edits_and_transactions.md R254; reset 0 -/
  undoPersist : Bool
  /-- the last effect was an edit (class of UNDO); 1 bit; 18_command_protocol.md R517; reset 0 -/
  undoEdit : Bool
  /-- the set sequence a persisted set was written under and its NV position; 09_edits_and_transactions.md R247; reset none -/
  setSeq : Option (Nat × Nat)
  /-- SYS_COMMIT runs here as coordinator: SYSTXN, kind, T seconds, T ns, A; 09_edits_and_transactions.md R255; reset none -/
  coord : Option (Nat × Nat × Nat × Nat × Nat)
  /-- step of Table 9.3 whose message the coordinator sends (1 PREPARE, 3 COMMIT_AT, 4 ABORT); 09_edits_and_transactions.md R255; reset 0 -/
  coordStep : Nat
  /-- stations that have not acknowledged the message of the step; 09_edits_and_transactions.md R255; reset none -/
  coordWait : List Nat
  /-- reports received: station, outcome; 09_edits_and_transactions.md R258; reset none -/
  coordGot : List (Nat × Nat)
  /-- outcome that the coordinator itself has reached; 09_edits_and_transactions.md R258; reset 0 -/
  coordOwn : Nat
  /-- operation slot of SYS_COMMIT; 18_command_protocol.md R521; reset none -/
  coordOp : Option Nat
  /-- the participant has had COMMIT_AT; 1 bit; 09_edits_and_transactions.md R257; reset 0 -/
  commitAt : Bool
  /-- REPORT still to be acknowledged: SYSTXN, outcome, resends left; 09_edits_and_transactions.md R258; reset none -/
  report : Option (Nat × Nat × Nat)
  /-- the last handled system message of each kind, for repeats: opcode, SYSTXN, status; 18_command_protocol.md R521; reset none -/
  sysDone : List (Nat × Nat × Nat)
  deriving DecidableEq, Repr, Inhabited

/-- No transaction, nothing to undo. -/
def TxnSt.init : TxnSt :=
  { staged := [], bank := false, newVars := [], base := [], commitAfter := none, prepOp := none, prepReply := none,
    commitOp := none, patched := [], isUndo := false, undo := [], undoBank := false, undoPersist := false, undoEdit := false,
    setSeq := none, coord := none, coordStep := 0, coordWait := [], coordGot := [], coordOwn := 0, coordOp := none,
    commitAt := false, report := none, sysDone := [] }

/-- The fields of a heartbeat (Table 10.3), with the sender's CORE_CYC of its header (Table 10.2). -/
structure HbInfo where
  stn : Nat
  mode : Nat
  role : Nat
  sync : Bool
  handover : Bool
  haltCause : Nat
  epoch : Nat
  ackSeq : Nat
  dirCrc : Nat
  tq : Nat
  src : Nat
  horizon : Nat
  pcyc : Nat
  deriving DecidableEq, Repr, Inhabited

/-- The stream events of Table 10.4 (R284). -/
inductive StreamEv where
  | trig (task : Nat) (info : TrigInfo)
  | freeze (task scan tai : Nat) (bits : List (Nat × Bool)) (words : List (Nat × TWord))
  /-- a value of R286 obtained by a run: task, source kind (0 a station-status or system bit, 1 a value of R190), address or
  source, 36-bit value -/
  | ext (task kind addr : Nat) (val : TWord)
  /-- a TRIP (`trip`), host or ZCP write to bit space -/
  | writeBit (trip : Bool) (addr : Nat) (val : Bool)
  /-- a host or ZCP write to word space -/
  | writeWord (addr : Nat) (val : TWord)
  | tmu (slot gen action : Nat) (arg : Word)
  | taskEnd (task : Nat) (nocommit : Bool) (hash : Nat)
  | commit (task : Nat)
  /-- an effect that changes execution objects (R304): fields by key of the register store, bundles of a patched bank by key, the
  identity of the bank that becomes active, new-variable ranges, persistence -/
  | txn (regs : List (Nat × Nat)) (patches : List (Nat × Word)) (pid : Option (Nat × Nat)) (news : List NewVar) (persist : Bool)
  /-- the EDIT_BEGIN of a Skim edit (R304) -/
  | editBegin
  /-- kind 0 cut, 1 halt, 2 STOP, 3 handover, 4 stream loss; halt cause -/
  | mark (kind cause : Nat)
  deriving DecidableEq, Repr, Inhabited

/-- A part of a state transfer, with its content at the cut (Table 10.6). -/
inductive XferPart where
  /-- bundles of the active bank by key 8 k + s -/
  | bank (ws : List (Nat × Word))
  /-- identity of the bank: version, CRC -/
  | bankId (ver crc : Nat)
  /-- decode-table words and VERSION, by key of the register store -/
  | table (ws : List (Nat × Nat))
  | words (ws : List (Nat × TWord))
  | bits (bs : List (Nat × Bool))
  | planeBits (bs : List (Nat × Bool))
  | planeWords (ws : List (Nat × TWord))
  | imageBits (bs : List (Nat × Bool))
  | imageWords (ws : List (Nat × TWord))
  /-- operand and result registers, holding registers, PCs and pending branches of the contexts -/
  | contexts (regs hold : List (Nat × TWord)) (pcs : List Nat) (branches : List (List (Nat × Nat)))
  | cells (cs : List (Nat × (Nat × Nat)))
  | tmu (slots : List TmuSlot) (fifo : List (Word × Word × Word))
  | accs (as : List PhuAcc) (sel : List Nat)
  /-- scan counters and states of the tasks -/
  | tasks (ts : List TaskSt)
  /-- HELD and REARM bits, by bit address -/
  | stationBits (bs : List (Nat × Bool))
  /-- per-task EXT records: key task and address, value -/
  | ext (es : List (Nat × TWord))
  /-- task table, windows, output map, CORE_GALn, CORE_TAGPOL, CORE_PHUWINk: fields by key of the register store -/
  | regs (rs : List (Nat × Nat))
  deriving DecidableEq, Repr, Inhabited

/-- What an SBL frame carries (Table 10.2). -/
inductive SblPay where
  | hb (h : HbInfo)
  | timex (bytes : List Byte)
  | ack (seq : Nat)
  | nak (seq : Nat)
  /-- a stream event, or the 1,024 bytes of it that this frame carries -/
  | evt (cyc : Nat) (ev : StreamEv) (part : Nat)
  | xfer (p : XferPart) (last : Bool)
  | xctl
  | zcp (bytes : List Byte)
  | neg (stn sysId dirCrc : Nat)
  | handover
  | rstreq
  deriving DecidableEq, Repr, Inhabited

/-- An SBL frame: its link sequence number (sequenced frames), PCYC and payload (Table 10.2). -/
structure SblFrame where
  lseq : Nat
  pcyc : Nat
  pay : SblPay
  deriving DecidableEq, Repr, Inhabited

/-- Hot standby beyond the SBY_ registers (chapter 10). -/
structure SbySt where
  /-- transmit buffer: unacknowledged sequenced frames, oldest first, at most 256 KiB; 10_hot_standby.md R275; reset empty -/
  tx : List SblFrame
  /-- LSEQ of the next sequenced frame; 16 bits; 10_hot_standby.md R275; reset 0 -/
  txSeq : Nat
  /-- LSEQ of the next sequenced frame to receive in order; 16 bits; 10_hot_standby.md R275; reset 0 -/
  rxSeq : Nat
  /-- a gap is open: sequenced frames are discarded until rxSeq arrives; 1 bit; 10_hot_standby.md R275; reset 0 -/
  gap : Bool
  /-- no sequenced frame has arrived since the last reset or since the partner was lost; 1 bit; 10_hot_standby.md R275; reset 1 -/
  fresh : Bool
  /-- the last unsequenced frame sent of each kind HB, ACK, NAK, NEG, TIMEX; 10_hot_standby.md R275, R278; reset none -/
  lastHb : Option HbInfo
  lastAck : Option Nat
  lastNak : Option Nat
  lastTimex : Option (List Byte)
  /-- the partner's NEG: station, SYSTEM_ID, directory CRC; 10_hot_standby.md R276; reset none -/
  neg : Option (Nat × Nat × Nat)
  /-- the partner's last heartbeat; 10_hot_standby.md R278, R279; reset none -/
  hb : Option HbInfo
  /-- core cycle of the last valid heartbeat; 10_hot_standby.md R279; reset 0 -/
  hbCyc : Nat
  /-- the partner is present by R279; 1 bit; 10_hot_standby.md R279; reset 0 -/
  present : Bool
  /-- the stream is being sent (primary); 1 bit; 10_hot_standby.md R284, R296; reset 0 -/
  streaming : Bool
  /-- stream events are being dropped until a transfer starts, and the stream-loss MARK is still to be sent; 10_hot_standby.md R291; reset 0, 0 -/
  dropping : Bool
  lossMark : Bool
  /-- the primary cycle of the first event dropped; 10_hot_standby.md R278, R291; reset 0 -/
  dropCyc : Nat
  /-- value last sent to each task for an address of R286, key 2^21 t + address; 10_hot_standby.md R286; reset empty -/
  extSent : List (Nat × TWord)
  /-- the secondary's record of the same; 10_hot_standby.md R286; reset empty -/
  extRec : List (Nat × TWord)
  /-- values of R190 received and not yet taken by a run: task, source, value, oldest first; 10_hot_standby.md R286; reset empty -/
  extQueue : List (Nat × Nat × TWord)
  /-- received stream events that wait for their primary cycle, oldest first; 10_hot_standby.md R289, R293; reset empty -/
  events : List (Nat × StreamEv)
  /-- last HORIZON received, as a 64-bit cycle; 10_hot_standby.md R278, R289; reset 0 -/
  horizon : Nat
  /-- replay counter RCYC, 64 bits; 10_hot_standby.md R289; reset 0 -/
  rcyc : Nat
  /-- the secondary replays (a transfer has been completed); 1 bit; 10_hot_standby.md R293, R306; reset 0 -/
  replaying : Bool
  /-- ENDs the replica has reached and not yet compared: task, RCYC, NOCOMMIT, hash; 10_hot_standby.md R290; reset empty -/
  ends : List (Nat × Nat × Bool × Nat)
  /-- a transfer waits for its cut (primary); 1 bit; 10_hot_standby.md R293; reset 0 -/
  cutWait : Bool
  /-- a transfer is in its steps 2 to 5 (primary); 1 bit; 10_hot_standby.md R293, R294; reset 0 -/
  xferOpen : Bool
  /-- the parts still to be sent, content at the cut (primary); 10_hot_standby.md R293; reset none -/
  parts : Option (List XferPart)
  /-- XFER frames sent in the current transfer; 10_hot_standby.md R293; reset 0 -/
  xferSent : Nat
  /-- bytes of the pre-image buffer in use, of 256 KiB; 10_hot_standby.md R293, R294; reset 0 -/
  preImage : Nat
  /-- a transfer has been requested and its last XFER frame has not arrived (secondary); 1 bit; 10_hot_standby.md R293; reset 0 -/
  xferRx : Bool
  /-- the parts received, oldest first (secondary); 10_hot_standby.md R293; reset empty -/
  got : List XferPart
  /-- the takeover in progress: cause, decision cycle; 10_hot_standby.md R297; reset none -/
  tko : Option (Nat × Nat)
  /-- companions covered by a commit since the cut; 8 bits; 10_hot_standby.md R298; reset 0 -/
  committedSince : List Nat
  /-- a handover has been accepted and its MARK is still to be sent, with its operation slot; 10_hot_standby.md R299; reset none -/
  handover : Option (Option Nat)
  /-- the unit must be demoted at its next quiet point; 1 bit; 10_hot_standby.md R300, R301; reset 0 -/
  demote : Bool
  /-- a HANDOVER frame has been received (3), or a halt MARK replayed (1) with its cause; 10_hot_standby.md R295; reset none -/
  markSeen : Option (Nat × Nat)
  /-- the last replayed freeze: its FRZ TAI and its primary cycle, from which the lag is measured; 10_hot_standby.md R289; reset none -/
  lagRef : Option (Nat × Nat)
  /-- a divergence under DIV_POL MARK waits for SYNC_REQ; 1 bit; 10_hot_standby.md R290; reset 0 -/
  marked : Bool
  /-- LATE has been raised for the runs in progress; 1 bit; 10_hot_standby.md R290; reset 0 -/
  late : Bool
  deriving DecidableEq, Repr, Inhabited

/-- The standby function as a reset leaves it (R307). -/
def SbySt.init : SbySt :=
  { tx := [], txSeq := 0, rxSeq := 0, gap := false, fresh := true, lastHb := none, lastAck := none, lastNak := none,
    lastTimex := none, neg := none, hb := none, hbCyc := 0, present := false, streaming := false, dropping := false,
    lossMark := false, dropCyc := 0, extSent := [], extRec := [], extQueue := [], events := [], horizon := 0, rcyc := 0,
    replaying := false, ends := [], cutWait := false, xferOpen := false, parts := none, xferSent := 0, preImage := 0, xferRx := false, got := [],
    tko := none, committedSince := [], handover := none, demote := false, markSeen := none, lagRef := none,
    marked := false, late := false }

/-- What decides a frame (R321, R331, R337). -/
inductive Verdict where
  /-- a rule: bank, index, its sixteen words at the decision -/
  | rule (bank idx : Nat) (words : List Nat)
  /-- the default action of CLS_CTRL.DEFACT -/
  | default
  /-- the fixed default rule of BOOT and of the classifier's self-test (Table 3.7) -/
  | bootDefault
  /-- an orphan fragment that is discarded, or held in a waiting entry (R331) -/
  | orphanDrop
  | orphanHold
  deriving DecidableEq, Repr, Inhabited

/-- A frame in the receive side: bytes from the destination address to the last before the FCS, and ingress stamp. -/
structure RxFrame where
  port : Nat
  bytes : List Byte
  /-- TAI of the start-frame delimiter, units of the counter (R27) -/
  stamp : Nat
  /-- the bank active at the start-frame delimiter (R318) -/
  bank : Nat
  /-- the verdict, once made -/
  dec : Option Verdict
  /-- FCS and alignment good, once the frame has ended -/
  fcs : Option Bool
  /-- a duplicate to be discarded, or a frame removed from its ring (R312, R313) -/
  dup : Bool
  /-- the class of the local clock at the stamp (R28) -/
  cls : Nat
  /-- egress ports to which the frame is cut through (R356) -/
  cuts : List Nat
  deriving DecidableEq, Repr, Inhabited

/-- An entry of the Tadpole table (R330, R331): key, decision of the first fragment, frames that wait for it. -/
structure TadEntry where
  src : List Byte
  dst : List Byte
  ident : Nat
  proto : Nat
  dec : Option Verdict
  held : List RxFrame
  deriving DecidableEq, Repr, Inhabited

/-- The classifier beyond the CLS_ registers (chapter 11). The rules of both banks, 16 words each, stand in the register
store at pseudo-addresses (Machine/Ops.lean). -/
structure ClsSt where
  /-- the frame being received on each port; 11_ingress_classifier.md R323; reset none -/
  flight : List (Option RxFrame)
  /-- frames in the payload engine of each port, oldest first, at most 16 KiB; 11_ingress_classifier.md R327, R338; reset empty -/
  pay : List (List RxFrame)
  /-- pattern pause: ports paused, and 1 while the engines drain, 2 while the set loads; 11_ingress_classifier.md R329; reset none -/
  pause : Option (List Nat × Nat)
  /-- the valid patterns of the old set, for the drain: index and bytes; 11_ingress_classifier.md R329; reset empty -/
  oldPats : List (Nat × List Byte)
  /-- pause buffer, 256 KiB, in arrival order; 11_ingress_classifier.md R329, R338; reset empty -/
  held : List RxFrame
  /-- Tadpole table, at most 64 entries, and its hold store (64 KiB); 11_ingress_classifier.md R330, R331, R338; reset empty -/
  tad : List TadEntry
  /-- duplicate window of each pair, at most 1,024 entries (source address, sequence number), oldest first; 11_ingress_classifier.md R313, R338; reset empty -/
  dup : List (List (Nat × Nat))
  /-- smpCnt of the newest sample and ring index of each of the 64 streams, by stream; 11_ingress_classifier.md R335, R338; reset none -/
  streams : List (Nat × Option (Nat × Nat))
  /-- frames received for each stream (header word 5), 32 bits; 11_ingress_classifier.md Table 11.5; reset 0 -/
  frames : List (Nat × Nat)
  /-- rules made invalid by an uncorrectable error, 1,024 b + index; 11_ingress_classifier.md R339; reset none -/
  badRules : List Nat
  /-- patterns never found after an uncorrectable error; 11_ingress_classifier.md R339; reset none -/
  badPats : List Nat
  deriving DecidableEq, Repr, Inhabited

/-- The classifier as a reset leaves it (R338). -/
def ClsSt.init : ClsSt :=
  { flight := List.replicate 4 none, pay := List.replicate 4 [], pause := none, oldPats := [], held := [], tad := [],
    dup := [[], []], streams := [], frames := [], badRules := [], badPats := [] }

/-- A frame in the send side: origin of Table 12.1 (0 SYS, 1 FWD, 2 PROG), bytes without FCS (tags and trailers included). -/
structure EgrFrame where
  origin : Nat
  bytes : List Byte
  /-- the publisher slot it comes from (R364) -/
  slot : Option Nat
  /-- a PTP message of the time system (R342, R353) -/
  ptp : Bool
  /-- the map entries that are told when it is not sent (R349, Table 12.1) -/
  post : List Posted
  /-- a forwarded PTP frame to be corrected: ingress port and ingress stamp (R32) -/
  tc : Option (Nat × Nat)
  deriving DecidableEq, Repr, Inhabited

/-- A gate list in force (R345, R346): enabled, BASE and CYCLE in ns of TAI, entries of gates and interval. -/
structure GateList where
  en : Bool
  base : Nat
  cycle : Nat
  entries : List (Nat × Nat)
  deriving DecidableEq, Repr, Inhabited

/-- One port of the send side (R340 to R358). -/
structure EgrPort where
  /-- queues 0 to 7, oldest frame first; 12_egress_shaper.md R340, R366; reset empty -/
  queues : List (List EgrFrame)
  /-- the frame being sent: queue, frame, cut through; 12_egress_shaper.md R343, R344, R356; reset none (idle) -/
  tx : Option (Nat × EgrFrame × Bool)
  /-- the frame cut through ends with the inverse FCS; 1 bit; 12_egress_shaper.md R357; reset 0 -/
  cutBad : Bool
  /-- the list in force; 12_egress_shaper.md R345, R350, R366; reset disabled -/
  gcl : GateList
  /-- a committed list waits for its boundary; 1 bit; 12_egress_shaper.md R350; reset 0 -/
  pending : Bool
  /-- gate states, 8 bits; 12_egress_shaper.md R346, R366; reset 0xFF -/
  gates : Nat
  /-- an uncorrectable error has disabled the list; 1 bit; 12_egress_shaper.md R367; reset 0 -/
  gclBad : Bool
  /-- tokens of each bucket in units of 2^-16 / 3,125 byte, and the core cycle of the last account; 12_egress_shaper.md R352; reset 0 -/
  tokens : List (Nat × Nat)
  /-- residence times of forwarded two-step Syncs, by source port identity and sequence number, newest first, units of 2^-32 ns; 02_two_clocks.md R32; reset none -/
  resid : List (List Byte × Int)
  deriving DecidableEq, Repr, Inhabited

/-- One publisher slot (R359 to R365). -/
structure PubSt where
  /-- the template as last written with elements and header fields; 12_egress_shaper.md R361; reset empty -/
  frame : List Byte
  /-- the element bytes last sent; 12_egress_shaper.md R362; reset none -/
  sent : Option (List (Nat × List Byte))
  /-- SQNUM last sent, 32 bits; 12_egress_shaper.md R362; reset 0 -/
  sq : Nat
  /-- the retransmission schedule: interval (µs) to the next transmission; 12_egress_shaper.md R362; reset none -/
  next : Option Nat
  /-- an uncorrectable error has disabled the slot; 1 bit; 12_egress_shaper.md R367; reset 0 -/
  bad : Bool
  deriving DecidableEq, Repr, Inhabited

/-- The send side beyond the EGR_ registers (chapter 12). -/
structure EgrSt where
  ports : List EgrPort
  pubs : List PubSt
  deriving DecidableEq, Repr, Inhabited

/-- A disabled gate list. -/
def GateList.off : GateList := { en := false, base := 0, cycle := 1000000, entries := [] }

/-- A port with nothing queued. -/
def EgrPort.init : EgrPort :=
  { queues := List.replicate 8 [], tx := none, cutBad := false, gcl := GateList.off, pending := false, gates := 0xFF,
    gclBad := false, tokens := List.replicate 8 (0, 0), resid := [] }

/-- A disabled slot. -/
def PubSt.init : PubSt := { frame := [], sent := none, sq := 0, next := none, bad := false }

/-- The send side as a reset leaves it (R366). -/
def EgrSt.init : EgrSt := { ports := List.replicate 4 EgrPort.init, pubs := List.replicate 16 PubSt.init }

/-- A frame of a priority bus (R368): identifier, format bits, data length code, data bytes. -/
structure CanFrame where
  id : Nat
  ide : Bool
  rtr : Bool
  fd : Bool
  brs : Bool
  esi : Bool
  dlc : Nat
  data : List Byte
  deriving DecidableEq, Repr, Inhabited

/-- Where the frame of a transmit buffer comes from (R376): SEND_CAN, message object, ZCP segment. -/
inductive CanSrc where
  | prog
  | obj (j : Nat)
  | zcp
  deriving DecidableEq, Repr, Inhabited

/-- A transmit buffer (R376 to R382). -/
structure CanTb where
  /-- a SEND_CAN has reserved the buffer and its copy is running (R379) -/
  reserved : Bool
  frame : Option (CanFrame × CanSrc)
  /-- the frame is in an attempt (R382) -/
  attempt : Bool
  /-- cancellation requested during the attempt (R382) -/
  cancel : Bool
  deriving DecidableEq, Repr, Inhabited

/-- What the controller is sending now: a buffer, the frame of an exclusive window, the reference message. -/
inductive CanAtt where
  | tb (b : Nat)
  | excl
  | ref
  deriving DecidableEq, Repr, Inhabited

/-- A reassembly context (R394): peer, last accepted SEG, bytes, format of the first segment. -/
structure CanCtx where
  peer : Nat
  seg : Nat
  bytes : List Byte
  fd : Bool
  brs : Bool
  deriving DecidableEq, Repr, Inhabited

/-- The schedule in force (R388, R391): basic cycle, TXEN, watch, base (ns of TAI), MCYC, time marks of the valid windows,
cells by key 32 c + w, configuration of the enabled message objects (FD, BRS, IDE, EVT, LEN, identifier). -/
structure TtSched where
  bclen : Nat
  txen : Nat
  watch : Nat
  base : Nat
  mcyc : Nat
  marks : List Nat
  cells : List (Nat × Nat)
  objs : List (Nat × List Nat)
  deriving DecidableEq, Repr, Inhabited

/-- One controller beyond its registers (chapter 13). -/
structure CanSt where
  /-- RX FIFO, at most 64 entries of 20 words, oldest first; 13_priority_bus.md R373, R398; reset empty -/
  fifo : List (List Nat)
  /-- high-priority buffer, at most 4 entries, oldest first; 13_priority_bus.md R374, R398; reset empty -/
  hpb : List (List Nat)
  /-- TB0 to TB2; 13_priority_bus.md R376, R398; reset free -/
  tbs : List CanTb
  /-- the attempt in progress; 13_priority_bus.md R382; reset none -/
  att : Option CanAtt
  /-- core cycle at which the attempt began; 64 bits; 13_priority_bus.md R386; reset 0 -/
  attAt : Nat
  /-- a reinitialisation waits for the end of the frame on the bus; 1 bit; 13_priority_bus.md R397; reset 0 -/
  reinit : Bool
  /-- filter fields before the last commit that changed them, and the TAI of that effect; 13_priority_bus.md R391, case 4; reset none -/
  oldFlt : Option (List (Nat × Nat) × Nat)
  /-- pending message objects; 32 bits; 13_priority_bus.md R380, R398; reset none -/
  pending : List Nat
  /-- data bytes last loaded into a buffer, by object; 13_priority_bus.md R380; reset none -/
  loaded : List (Nat × List Byte)
  /-- the frame of the exclusive window now open that has not been sent: object, frame, core cycle of the opening; 13_priority_bus.md R389; reset none -/
  excl : Option (Nat × CanFrame × Nat)
  /-- a reference message waits for the idle bus: cycle count to send; 13_priority_bus.md R387; reset none -/
  refWait : Option Nat
  /-- core cycle at which the controller last saw a frame or an error on the bus; 13_priority_bus.md R387; reset 0 -/
  seen : Nat
  /-- core cycle of the last sync mark; 13_priority_bus.md R386; reset 0 -/
  mark : Nat
  /-- last cycle count received or sent; 13_priority_bus.md R387; reset none -/
  count : Option Nat
  /-- the schedule in force; 13_priority_bus.md R388, R391; reset empty -/
  sched : TtSched
  /-- a committed schedule waits for the sync mark of cycle count 0; 1 bit; 13_priority_bus.md R391; reset 0 -/
  schedWait : Bool
  /-- reassembly contexts, at most 4; 13_priority_bus.md R394, R398; reset empty -/
  ctxs : List CanCtx
  /-- segments of the ZCP reply that wait for TB2; 13_priority_bus.md R395; reset empty -/
  zcpTx : List CanFrame
  /-- format of the first segment of the last request of each peer: FD, BRS; 13_priority_bus.md R395; reset none -/
  zcpFmt : List (Nat × (Bool × Bool))
  deriving DecidableEq, Repr, Inhabited

/-- An empty schedule. -/
def TtSched.init : TtSched :=
  { bclen := 0x3E8, txen := 8, watch := 0x40, base := 0, mcyc := 1, marks := [], cells := [], objs := [] }

/-- A free buffer. -/
def CanTb.init : CanTb := { reserved := false, frame := none, attempt := false, cancel := false }

/-- A controller as a reset leaves it (R398). -/
def CanSt.init : CanSt :=
  { fifo := [], hpb := [], tbs := List.replicate 3 CanTb.init, att := none, attAt := 0, reinit := false, oldFlt := none, pending := [], loaded := [], excl := none,
    refWait := none, seen := 0, mark := 0, count := none, sched := TtSched.init, schedWait := false, ctxs := [], zcpTx := [],
    zcpFmt := [] }

/-- A downstream regular frame (Table 14.1). -/
structure DnFrame where
  epoch : Nat
  stn : Nat
  safe : Bool
  outcmd : Nat
  /-- 0 none, 1 read, 2 write, 3 command -/
  mop : Nat
  mtag : Nat
  maddr : Nat
  mdata : Nat
  frameNo : Nat
  deriving DecidableEq, Repr, Inhabited

/-- An event of the EVT field (Table 15.4): channel, kind (0 edge, 1 capture, 2 overflow), direction, flags, stamp. -/
structure CpnEvent where
  ch : Nat
  kind : Nat
  rise : Bool
  invalid : Bool
  lost : Bool
  fno : Nat
  sub : Nat
  deriving DecidableEq, Repr, Inhabited

/-- The EVT field of an answer (R440): nothing yet, an event, or a value slot with VINV and VALUE. -/
inductive EvtField where
  | none
  | event (e : CpnEvent)
  | value (slot : Nat) (vinv : Bool) (v : Nat)
  deriving DecidableEq, Repr, Inhabited

/-- An upstream regular frame (Table 14.2). -/
structure UpFrame where
  obepoch : Nat
  oblink : Nat
  obeying : Bool
  failst : Bool
  conflict : Bool
  barrierFail : Bool
  nack : Bool
  dcrc : Bool
  fieldUv : Bool
  outstate : Nat
  outflt : Nat
  inp : Nat
  /-- 0 none, 1 OK, 2 refused, 3 bad address -/
  mst : Nat
  cfglost : Bool
  fref : Bool
  mtag : Nat
  mdata : Nat
  evt : EvtField
  deriving DecidableEq, Repr, Inhabited

/-- The configuration of a companion: FLD_OCFG, FLD_FTMO, FLD_ICFG0 to 11, FLD_GATE as words (R420). -/
structure CpnCfg where
  ocfg : Nat
  ftmo : Nat
  icfg : List Nat
  gate : Nat
  deriving DecidableEq, Repr, Inhabited

/-- A companion's side of one link. -/
structure CpnLink where
  /-- loss counter, to 8; 14_field_link_outputs.md R406, R425; reset 8 -/
  loss : Nat
  /-- consecutive good frames, to 16; 14_field_link_outputs.md R406; reset 0 -/
  good : Nat
  /-- the link is up; 1 bit; 14_field_link_outputs.md R406; reset 0 -/
  up : Bool
  /-- the frame that set OBVALID ended on this link, and no frame has been received since; 1 bit; 14_field_link_outputs.md R411; reset 0 -/
  inSlot : Bool
  /-- number of the frame last started on the link, modulo 2^20; 15_field_inputs_counters.md R438; reset 0 -/
  fno : Nat
  /-- what the next answer says of the last frame: obeyed, refused output command, bad; 14_field_link_outputs.md R405; reset 0 -/
  obeyed : Bool
  nack : Bool
  dcrc : Bool
  /-- result, tag and data of its management operation; 14_field_link_outputs.md R405; reset 0 -/
  mst : Nat
  mtag : Nat
  mdata : Nat
  /-- an accepted fast frame could not switch an output on since the last answer; 1 bit; 14_field_link_outputs.md R410; reset 0 -/
  fref : Bool
  /-- a frame has been received and waits for its answer; 1 bit; 14_field_link_outputs.md R405; reset 0 -/
  due : Bool
  /-- configuration shadow of the link; 14_field_link_outputs.md R420; reset values of Table 14.9 -/
  shadow : CpnCfg
  /-- event FIFO, at most 64 entries, oldest first; 15_field_inputs_counters.md R439, R448; reset empty -/
  fifo : List CpnEvent
  /-- the next event to enter carries LOST; 1 bit; 15_field_inputs_counters.md R439; reset 0 -/
  lost : Bool
  /-- next value slot, 0 to 24; 15_field_inputs_counters.md R441; reset 0 -/
  slot : Nat
  /-- the last answer sent; 14_field_link_outputs.md R405; reset none -/
  answer : Option UpFrame
  deriving DecidableEq, Repr, Inhabited

/-- One input channel of a companion (R427 to R437). -/
structure CpnIn where
  /-- raw comparator output; 1 bit; 15_field_inputs_counters.md R428; reset 0 -/
  raw : Bool
  /-- debounced state; 1 bit; 15_field_inputs_counters.md R429, R448; reset 0 -/
  deb : Bool
  /-- counter; 32 bits; 15_field_inputs_counters.md R431, R448; reset 0 -/
  cnt : Nat
  /-- sticky overflow; 1 bit; 15_field_inputs_counters.md R432, R448; reset 0 -/
  ovf : Bool
  /-- settling; 1 bit; 15_field_inputs_counters.md R430, R448; reset 1 -/
  settling : Bool
  /-- the next COUNT value carries VINV; 1 bit; 15_field_inputs_counters.md R433; reset 1 -/
  vinv : Bool
  /-- a frequency measurement is open; 1 bit; 15_field_inputs_counters.md R434, R448; reset 0 -/
  fopen : Bool
  /-- gate code of the measurement and of the one before; 15_field_inputs_counters.md R435; reset 0, none -/
  gate : Nat
  lastGate : Option Nat
  /-- the next measurement to close carries VINV; 1 bit; 15_field_inputs_counters.md R436; reset 1 -/
  fvinv : Bool
  /-- last closed measurement: flags and mHz (Table 15.5) and its VINV; 15_field_inputs_counters.md R441; reset 0, 1 -/
  freq : Nat
  freqVinv : Bool
  /-- capture armed; 1 bit; 15_field_inputs_counters.md R437, R448; reset 1 -/
  armed : Bool
  /-- an edge has been captured less than 100 ns ago: capture time in units of 2.5 ns; 15_field_inputs_counters.md R437; reset none -/
  capAt : Option Nat
  /-- count latched by CNT_LATCH; 32 bits; 15_field_inputs_counters.md R442, R448; reset 0 -/
  clat : Nat
  deriving DecidableEq, Repr, Inhabited

/-- One EZ4F companion (chapters 14 and 15). -/
structure CpnSt where
  /-- OBVALID, OBEPOCH, OBLINK, OBSTN; 14_field_link_outputs.md R411, R425; reset 0 -/
  obvalid : Bool
  obepoch : Nat
  oblink : Nat
  obstn : Nat
  /-- CFGLOST; 1 bit; 14_field_link_outputs.md R420, R425; reset 1 -/
  cfglost : Bool
  /-- CONFLICT; 1 bit; 14_field_link_outputs.md R411; reset 0 -/
  conflict : Bool
  /-- fail-state causes that hold, codes of Table 14.3; 14_field_link_outputs.md R413; reset CFGLOST -/
  causes : List Nat
  /-- the HOLD fail state has lasted 1 s; 1 bit; 14_field_link_outputs.md R413; reset 0 -/
  holdOver : Bool
  /-- OUTCMD of the last obeyed frame without SAFE; 4 bits; 14_field_link_outputs.md R412; reset 0 -/
  outcmd : Nat
  /-- fast latch of each output: its value; 14_field_link_outputs.md R409; reset none -/
  fast : List (Option Bool)
  /-- states commanded or held by the fail state, before thermal shutdown and undervoltage; 4 bits; 14_field_link_outputs.md R412, R413; reset 0 -/
  want : List Bool
  /-- states driven now; 4 bits; 14_field_link_outputs.md R413, R425; reset 0 -/
  driven : List Bool
  /-- in thermal shutdown; 4 bits; 14_field_link_outputs.md R416; reset 0 -/
  tsd : List Bool
  /-- in current limit; 4 bits; 14_field_link_outputs.md R416; reset 0 -/
  lim : List Bool
  /-- FAST_EXP and FAST_REF; 14_field_link_outputs.md Table 14.9; reset 0 -/
  fastExp : Bool
  fastRef : Bool
  /-- field undervoltage; 1 bit; 14_field_link_outputs.md R417; reset 0 -/
  uv : Bool
  /-- BARRIER_FAIL; 1 bit; 14_field_link_outputs.md R414; reset 0 -/
  barrierFail : Bool
  /-- consecutive missing or bad refresh frames, down and up, and consecutive good up frames; 14_field_link_outputs.md R414; reset 0 -/
  dnBad : Nat
  upBad : Nat
  upGood : Nat
  /-- the field side has applied the fail state by itself; 1 bit; 14_field_link_outputs.md R414; reset 0 -/
  fieldFail : Bool
  /-- active configuration; 14_field_link_outputs.md R420, R425; reset values of Tables 14.9, 15.11 -/
  cfg : CpnCfg
  /-- bad frames on links A and B, 12 bits each; fast frames ignored, 8 bits; 14_field_link_outputs.md Table 14.9; reset 0 -/
  crcA : Nat
  crcB : Nat
  frej : Nat
  links : List CpnLink
  ins : List CpnIn
  /-- frame of the latch, 20 bits; 15_field_inputs_counters.md R442, R448; reset none -/
  clatf : Option Nat
  /-- events dropped and captures lost, 8 bits each; 15_field_inputs_counters.md R437, R439; reset 0 -/
  evlost : Nat
  caplost : Nat
  deriving DecidableEq, Repr, Inhabited

/-- A management operation of the hub (R419): operation, register offset, data. -/
structure Mgmt where
  mop : Nat
  addr : Nat
  data : Nat
  /-- class of R419: 1 reload, 2 shadow write, 3 APPLY, 4 forwarded write, 5 command, 6 rotation read -/
  cls : Nat
  /-- it has been sent again -/
  resent : Bool
  deriving DecidableEq, Repr, Inhabited

/-- The hub's side of one companion position. -/
structure HubPort where
  /-- the frames that wait for their answers, oldest first: frame, number n (64 bits), the management operation it carries; 14_field_link_outputs.md R402, R407, R419, R422; reset none -/
  sent : List (DnFrame × Nat × Option Mgmt)
  /-- channels whose last COUNT value, and last frequency value, carried VINV; 12 bits each; 15_field_inputs_counters.md R446; reset none -/
  cvinv : List Nat
  fvinv : List Nat
  /-- consecutive good answers, to 16, and slots without one, to 8; 14_field_link_outputs.md R406; reset 0, 8 -/
  good : Nat
  loss : Nat
  /-- the last good answer; 14_field_link_outputs.md R405, R411; reset none -/
  last : Option UpFrame
  /-- link-delay measurements, newest first, at most 64, in 1/8 ns; 14_field_link_outputs.md R407; reset empty -/
  ldly : List Nat
  /-- operations that wait, in order of precedence and age; 14_field_link_outputs.md R419; reset empty -/
  ops : List Mgmt
  /-- words of the command mailbox, at most 8, oldest first; 14_field_link_outputs.md R421, R425; reset empty -/
  mbx : List Nat
  /-- management tag of the next operation; 8 bits; 14_field_link_outputs.md R404; reset 0 -/
  mtag : Nat
  /-- next register of the rotation reads; 14_field_link_outputs.md R419; reset 0 -/
  rot : Nat
  /-- a configuration reload is running; 1 bit; 14_field_link_outputs.md R420; reset 0 -/
  reload : Bool
  /-- shadow writes of a PREPARE not yet acknowledged; 14_field_link_outputs.md R420; reset 0 -/
  shadowLeft : Nat
  /-- the frame no longer carries SAFE (a commit has covered an output); 1 bit; 03_modes.md R70; reset 0 -/
  live : Bool
  /-- a fast frame is on the FS lane; core cycle at which it ends; 06_units.md R188; reset none -/
  fsBusy : Option Nat
  /-- the last fast frame launched: SET, CLR, epoch bits; 14_field_link_outputs.md R408; reset none -/
  fs : Option (Nat × Nat × Nat)
  deriving DecidableEq, Repr, Inhabited

/-- The field links: the hub and the companions F0 to F7. -/
structure FldSt where
  hub : List HubPort
  cpn : List CpnSt
  /-- number of the last regular frame built; 14_field_link_outputs.md R402; reset none -/
  frame : Option Nat
  deriving DecidableEq, Repr, Inhabited

/-- The reset configuration of a companion (Tables 14.9, 15.11). -/
def CpnCfg.init : CpnCfg := { ocfg := 0, ftmo := 0x2710, icfg := List.replicate 12 0x200003E8, gate := 0x30 }

/-- A link of a companion at its power-up (R425, R448). -/
def CpnLink.init : CpnLink :=
  { loss := 8, good := 0, up := false, inSlot := false, fno := 0, obeyed := false, nack := false, dcrc := false,
    mst := 0, mtag := 0, mdata := 0, fref := false, due := false, shadow := CpnCfg.init, fifo := [], lost := false,
    slot := 0, answer := none }

/-- An input channel at power-up (R448). -/
def CpnIn.init : CpnIn :=
  { raw := false, deb := false, cnt := 0, ovf := false, settling := true, vinv := true, fopen := false, gate := 0,
    lastGate := none, fvinv := true, freq := 0, freqVinv := true, armed := true, capAt := none, clat := 0 }

/-- A companion at its power-up (R425, R448). -/
def CpnSt.init : CpnSt :=
  { obvalid := false, obepoch := 0, oblink := 0, obstn := 0, cfglost := true, conflict := false, causes := [4],
    holdOver := false, outcmd := 0, fast := List.replicate 4 none, want := List.replicate 4 false, driven := List.replicate 4 false,
    tsd := List.replicate 4 false, lim := List.replicate 4 false, fastExp := false, fastRef := false, uv := false,
    barrierFail := false, dnBad := 0, upBad := 0, upGood := 0, fieldFail := false, cfg := CpnCfg.init, crcA := 0,
    crcB := 0, frej := 0, links := [CpnLink.init, CpnLink.init], ins := List.replicate 12 CpnIn.init, clatf := none,
    evlost := 0, caplost := 0 }

/-- A hub position as a reset leaves it (R425). -/
def HubPort.init : HubPort :=
  { sent := [], cvinv := [], fvinv := [], good := 0, loss := 8, last := none, ldly := [], ops := [], mbx := [],
    mtag := 0, rot := 0, reload := false, shadowLeft := 0, live := false, fsBusy := none, fs := none }

/-- The field links after power-on. -/
def FldSt.init : FldSt := { hub := List.replicate 8 HubPort.init, cpn := List.replicate 8 CpnSt.init, frame := none }

/-- A sample of an estimator's stream: its instant in units of the counter, its index in the ring, the QUAL payloads of its channels,
the SIM flag of its frame, and whether it was skipped (R335, R453, R461). -/
structure PhmSmp where
  inst : Nat
  idx : Nat
  quals : List Nat
  sim : Bool
  gap : Bool
  deriving DecidableEq, Repr, Inhabited

/-- A due pulse: TAI of its cycle, number and instant of its report, and the samples taken so far (R455, R458). -/
structure PhmDue where
  at' : Nat
  no : Nat
  tr : Nat
  cnt : Nat
  deriving DecidableEq, Repr, Inhabited

/-- A run of a library function: the function (0 and 1 the estimators, 3 the locators), its task, the PHM_ registers at its freeze, and
of an estimator the due pulse that started it and the samples of its window, oldest first (R449, R451). -/
structure LibRun where
  fn : Nat
  task : Nat
  prm : List (Nat × Nat)
  due : Option PhmDue
  win : List PhmSmp
  deriving DecidableEq, Repr, Inhabited

/-- An update of Plumb as the estimators see it: instant of its sample, frequency (Q8.24), ROCOF and QUAL payloads (R53, R459). -/
structure PlumbLog where
  inst : Nat
  freq : Nat
  rocof : Nat
  qual : Nat
  deriving DecidableEq, Repr, Inhabited

/-- What the clock says of itself from an instant on: time class, STAT bits 8 to 4, FRACSEC byte (R462). -/
structure ClockLog where
  tai : Nat
  cls : Nat
  stat : Nat
  frac : Nat
  deriving DecidableEq, Repr, Inhabited

/-- The fault detector between reports: currents A, B, C of past reports by report number (binary32), consecutive raised reports of A,
B, C and G and the instant (ns) at which each run began, reports below the drop-out bounds, PICKUP, the instant it rose, the quantities
picked up, and the fault number (R465, R466). -/
structure FdSt where
  hist : List (Nat × List (Nat × Nat))
  cnt : List Nat
  first : List Nat
  drop : Nat
  on : Bool
  rose : Nat
  mask : List Bool
  no : Nat
  deriving DecidableEq, Repr, Inhabited

/-- The record of a fault for the locators: FAULTNO, t_inc and the fault report's instant in ns, phases A, B, C, G, own V1 and I1 (re
and im, binary32), whether both are good, and the TAI of the fault report's commit (R466 to R468). -/
structure FaultRec where
  no : Nat
  tinc : Nat
  tf : Option Nat
  mask : List Bool
  vi : List Nat
  good : Bool
  at' : Option Nat
  deriving DecidableEq, Repr, Inhabited

/-- The line functions beyond the PHM_ registers (chapter 16). The gap maps are registers. -/
structure PhmSt where
  /-- consecutive seconds in which each time source has disagreed, and agreed; 16_line_measurement.md R471; reset 0 -/
  disag : List Nat
  agree : List Nat
  /-- polls (1 ms) in which the current candidate has not been good, and in which candidate 0 has been good; 16_line_measurement.md R472; reset 0 -/
  badMs : Nat
  goodMs : Nat
  /-- the local transaction of the policy in progress: its candidate; 16_line_measurement.md R472; reset none -/
  switching : Option Nat
  /-- a switch has been deferred (counted once); 1 bit; 16_line_measurement.md R472; reset 0 -/
  deferred : Bool
  /-- the last 512 samples of each estimator's stream, newest first; 16_line_measurement.md R453, R455, R461; reset empty -/
  samples : List (List PhmSmp)
  /-- samples of each estimator's stream so far; 16_line_measurement.md R454; reset 0 -/
  smpCnt : List Nat
  /-- the last 8 due pulses of each estimator, newest first; 16_line_measurement.md R455; reset none -/
  due : List (List PhmDue)
  /-- number of each estimator's next report; 32 bits; 16_line_measurement.md R458, R474; reset 0 -/
  rptNo : List Nat
  /-- TAI of each estimator's last change; 16_line_measurement.md R460, R462; reset none -/
  changed : List (Option Nat)
  /-- the first report after a change or a reset is still to come; 1 bit each; 16_line_measurement.md R460, R474; reset 1 -/
  owed : List Bool
  /-- changes of each estimator so far (CFGCNT); 16 bits; 16_line_measurement.md R464; reset 0 -/
  cfgCnt : List Nat
  /-- runs of the library, from their freeze to the next freeze of their task; 16_line_measurement.md R451; reset none -/
  runs : List LibRun
  /-- the last 512 updates of Plumb, newest first; 16_line_measurement.md R459; reset none -/
  plumb : List PlumbLog
  /-- what the clock has said of itself, newest first, 256 entries; 16_line_measurement.md R462; reset none -/
  clock : List ClockLog
  /-- the fault detector; 16_line_measurement.md R465; reset at rest -/
  fd : FdSt
  /-- the pending fault record; 16_line_measurement.md R466, R474; reset none -/
  fault : Option FaultRec
  /-- the travelling-wave record last published: t_S in ns, its class, FAULTNO; 16_line_measurement.md R469; reset none -/
  wave : Option (Nat × Nat × Nat)
  /-- the last 32 remote frames with the TAI of their arrival, newest first; 16_line_measurement.md R467, R474; reset none -/
  remote : List (Nat × List Byte)
  deriving DecidableEq, Repr, Inhabited

/-- The line functions as a reset leaves them (R474). -/
def PhmSt.init : PhmSt :=
  { disag := List.replicate 7 0, agree := List.replicate 7 0, badMs := 0, goodMs := 0,
    switching := none, deferred := false, samples := [[], []], smpCnt := [0, 0], due := [[], []], rptNo := [0, 0],
    changed := [none, none], owed := [true, true], cfgCnt := [0, 0], runs := [], plumb := [], clock := [],
    fd := { hist := [], cnt := [0, 0, 0, 0], first := [0, 0, 0, 0], drop := 0, on := false, rose := 0,
            mask := [false, false, false, false], no := 0 },
    fault := none, wave := none, remote := [] }

/-- The calendar beyond its registers (chapter 17). Its fields and its prescaler are registers. -/
structure CalSt where
  /-- VBAT, mV; 17_calendar_backup.md R478, R484; reset 3000 (DESIGN CHOICE) -/
  vbat : Nat
  /-- an LBF setting in BACKUP whose event waits for BOOT; 1 bit; 17_calendar_backup.md R484; reset 0 -/
  lbfLate : Bool
  /-- TAI stamps of the last 1,025 second ticks, newest first, units of the counter; 17_calendar_backup.md R496, R497; reset empty -/
  ticks : List Nat
  /-- consecutive discipline points without a step; 17_calendar_backup.md R497; reset 0 -/
  points : Nat
  /-- a step acts at the next discipline point; 1 bit; 17_calendar_backup.md R497; reset 0 -/
  stepNext : Bool
  /-- a discipline point whose nearest second tick is still to come: its TAI; 17_calendar_backup.md R497; reset none -/
  point : Option Nat
  /-- the crystal runs; 1 bit; 17_calendar_backup.md R483; reset 0 -/
  running : Bool
  /-- requesters whose latch holds a held snapshot (16 the host and ZCP, t a task); 17_calendar_backup.md R494; reset none -/
  snap : List Nat
  /-- TAI at which the leap window ends after a leap second; 17_calendar_backup.md R498; reset 0 -/
  leapEnd : Nat
  /-- a second tick has come since D1 powered up; 1 bit; 17_calendar_backup.md R499; reset 0 -/
  ticked : Bool
  deriving DecidableEq, Repr, Inhabited

/-- The calendar at D0 power-up. -/
def CalSt.init : CalSt :=
  { vbat := 3000, lbfLate := false, ticks := [], points := 0, stepNext := false, point := none, running := false, snap := [],
    leapEnd := 0, ticked := false }

/-- Domains, monitors and voltage scaling beyond their registers (chapter 19). -/
structure PwrSt where
  /-- domains whose power switch has closed and whose ON has not set, in order; 19_power_health_trace.md R533; reset none -/
  ramp : List Nat
  /-- main rails outside their reset window; bits by rail; 19_power_health_trace.md R536; reset none -/
  railBad : List Nat
  /-- the main supplies are present (every rail above its loss threshold); 1 bit; 19_power_health_trace.md R536; reset 1 -/
  mains : Bool
  /-- rails and sensors whose latest measurement lies outside the warning window; 19_power_health_trace.md R537, R538; reset none -/
  vOut : List Nat
  tOut : List Nat
  /-- sensors whose latest measurement was above TSHUT; 19_power_health_trace.md R539; reset none -/
  above : List Nat
  /-- the overheat condition; 1 bit; 19_power_health_trace.md R539; reset 0 -/
  hot : Bool
  /-- warnings stopped by a fatal failure of test 12; 1 bit; 19_power_health_trace.md R558; reset 0 -/
  warnOff : Bool
  /-- the PMBus write in progress or held: target, mV; 19_power_health_trace.md R542; reset none -/
  target : Option Nat
  /-- a READ_VOUT is due; 1 bit; 19_power_health_trace.md R543; reset 0 -/
  readback : Bool
  /-- the exponent that VOUT_MODE gave at the first write after BOOT, 5 bits; 19_power_health_trace.md R542; reset none -/
  vexp : Option Nat
  /-- bytes of the last VOUT_COMMAND write; 19_power_health_trace.md R542; reset none -/
  sent : List Byte
  /-- an alert that waits for the end of a held write, with its STATUS_WORD; 16 bits; 19_power_health_trace.md R543; reset none -/
  alert : Option Nat
  deriving DecidableEq, Repr, Inhabited

/-- A trace packet of the present cycle: its place in the order of R548, whether it always enters (R551), whether it carries DCYC,
whether a SYNC goes ahead of it, its words (none for the packets that only start a recording, R553). -/
structure TrcPkt where
  rank : Nat
  always : Bool
  dcyc : Bool
  sync : Bool
  words : List Nat
  deriving DecidableEq, Repr, Inhabited

/-- Trace beyond its registers (chapter 19). -/
structure TrcSt where
  /-- packets of the present cycle, in the order of their events; 19_power_health_trace.md R548; reset none -/
  cycle : List TrcPkt
  /-- core cycles until the sinks take the next word; 19_power_health_trace.md R550; reset 0 -/
  wait : Nat
  /-- FIFO, at most 256 words, oldest first; 19_power_health_trace.md R550; reset empty -/
  fifo : List Word
  /-- buffer of 16,384 words, by index; 19_power_health_trace.md R550; reset 0 -/
  buf : List (Nat × Word)
  /-- core cycle of the event of the previous packet; 19_power_health_trace.md R546; reset 0 -/
  last : Nat
  /-- number of the next SYNC, 16 bits, and packets since the last SYNC; 19_power_health_trace.md R546, R549; reset 0 -/
  syncNo : Nat
  since : Nat
  /-- packets dropped since one last entered; 19_power_health_trace.md R551; reset 0 -/
  lost : Nat
  /-- the next packet is the first after EN was set; 1 bit; 19_power_health_trace.md R549; reset 1 -/
  first : Bool
  /-- the bundle each task issued last: bank and index; 19_power_health_trace.md R547; reset none -/
  flow : List (Option (Nat × Nat))
  /-- the context that issued last; 19_power_health_trace.md R547; reset none -/
  ctx : Option Nat
  /-- TAI at which D11 was isolated, the quality class then, and TAI at which it was released (kept on D1), until TRACE_LOST reports
  them; 19_power_health_trace.md R553; reset none -/
  gap : Option (Nat × Nat × Nat)
  /-- TAI of HOLD_ENTER; 19_power_health_trace.md R552; reset none -/
  hold : Option Nat
  deriving DecidableEq, Repr, Inhabited

/-- The instructions of the test access port (Table 19.5). -/
inductive TapIr where
  | extest | sample | idcode | clamp | highz | dbgreg | bypass
  deriving DecidableEq, Repr, Inhabited

/-- The test access port (R555 to R557). -/
structure TapSt where
  /-- instruction register, 8 bits, as the instruction it selects; 19_power_health_trace.md R555; reset IDCODE -/
  ir : TapIr
  /-- boundary-scan register, 612 cells; 19_power_health_trace.md Table 19.5; reset 0 (DESIGN CHOICE) -/
  bsr : Nat
  /-- the cells drive the pins, or the outputs are high-impedance; 19_power_health_trace.md R556; reset 0 -/
  drive : Bool
  highz : Bool
  /-- DBGREG as Capture-DR loads it: read data, status; 19_power_health_trace.md R557; reset 0 -/
  rdata : Nat
  status : Nat
  deriving DecidableEq, Repr, Inhabited

/-- Power and monitors as power-on leaves them. -/
def PwrSt.init : PwrSt :=
  { ramp := [], railBad := [], mains := true, vOut := [], tOut := [], above := [], hot := false, warnOff := false,
    target := none, readback := false, vexp := none, sent := [], alert := none }

/-- Trace after D11 powers up with a reset (R554). -/
def TrcSt.init : TrcSt :=
  { cycle := [], wait := 0, fifo := [], buf := [], last := 0, syncNo := 0, since := 0, lost := 0, first := true, flow := List.replicate 8 none,
    ctx := none, gap := none, hold := none }

/-- The port in Test-Logic-Reset (R555). -/
def TapSt.init : TapSt := { ir := .idcode, bsr := 0, drive := false, highz := false, rdata := 0, status := 0 }

/-- A persisted set in a set position of the transaction area (R247, R577). -/
structure NvSet where
  seq : Nat
  /-- the full shadow content of each object held, by object number of Table 9.1: fields by key, with their values -/
  objs : List (Nat × List (Nat × Nat))
  /-- bundles of the patched program bank by key 8 k + s, and the identity -/
  bank : Option (List (Nat × Word) × (Nat × Nat))
  /-- new-variable ranges of an edit -/
  newVars : List NewVar
  /-- base CRC of each object held, by object number -/
  base : List (Nat × Nat)
  /-- set length in bytes -/
  size : Nat
  /-- bytes of its program-bank and decode-table content -/
  prog : Nat
  /-- VOID has been programmed -/
  void : Bool
  deriving DecidableEq, Repr, Inhabited

/-- A retentive mirror (R582): sequence, TAI seconds, TXN_CREC_LAST, the retentive words and bits. -/
structure RetMirror where
  seq : Nat
  sec : Nat
  crec : Nat
  words : List (Nat × TWord)
  bits : List (Nat × Bool)
  deriving DecidableEq, Repr, Inhabited

/-- One step of a user of the NV interface. Erase, program, wait and the steps of sets, mirrors and records end when the NOR
reports its operation done (R567); the others take effect as they are reached. -/
inductive NvStep where
  /-- erase the 64 KiB sector that starts at an address -/
  | erase (addr : Nat)
  /-- program bytes within a page -/
  | program (addr : Nat) (bytes : List Byte)
  /-- an erase or a page program of a set or mirror whose content the last step of its group holds -/
  | wait
  /-- erase the first sector of a set position; program the last page of a set -/
  | clearSet (pos : Nat)
  | putSet (pos : Nat) (set : NvSet)
  /-- erase a RET sector; program its header page -/
  | clearMirror (sector : Nat)
  | mirror (sector : Nat) (m : RetMirror)
  /-- read back an image slot: length and CRC that it must have -/
  | verify (slot len crc : Nat)
  /-- program and read back the commit record of a slot: length, CRC, BASESEQ, GEN -/
  | record (slot len crc base gen : Nat)
  /-- read bytes for a reply -/
  | read (addr len : Nat)
  /-- the journal has been mirrored up to a sequence -/
  | journal (upto : Nat)
  deriving DecidableEq, Repr, Inhabited

/-- A command whose reply waits for the NV interface: its request, and its journal entry (R513, R527). -/
structure NvReply where
  rq : ZReq
  opcode : Nat
  object : Nat
  detail : Nat
  deriving DecidableEq, Repr, Inhabited

/-- A user of the NV interface (R584): its rank 1 to 6, its operation slot or waiting reply, its steps. -/
structure NvJob where
  rank : Nat
  op : Option Nat
  reply : Option NvReply
  /-- opcode of its class N command, else 0 -/
  opcode : Nat
  steps : List NvStep
  /-- data of the reply or notice -/
  result : List Byte
  /-- ABORT has been accepted: it stops after the operation in progress (R585) -/
  aborted : Bool
  deriving DecidableEq, Repr, Inhabited

/-- The NV store beyond its registers (chapter 20). -/
structure NvSt where
  /-- size in bytes of the fitted NOR device, 0 when none meets R566; 20_reset_boot_nv.md R566; reset 0x200_0000 (DESIGN CHOICE) -/
  bytes : Nat
  /-- NOR bytes, 32 to 256 MiB, listed where not 0xFF: image slots, commit records, journal, user area; 20_reset_boot_nv.md R568; reset 0xFF (erased) -/
  nor : List (Nat × Byte)
  /-- persisted sets of the transaction area, by position 0 to 7; 20_reset_boot_nv.md R577; reset none -/
  sets : List (Nat × NvSet)
  /-- retentive mirrors in sectors RET0 and RET1; 20_reset_boot_nv.md R582; reset none -/
  mirrors : List (Nat × RetMirror)
  /-- the user that holds the interface; 20_reset_boot_nv.md R584; reset none -/
  holder : Option NvJob
  /-- users that wait, in order of arrival; 20_reset_boot_nv.md R584; reset none -/
  waiting : List NvJob
  /-- the snapshot that waits for the interface; 20_reset_boot_nv.md R582; reset none -/
  snapshot : Option RetMirror
  /-- set sequence of an effect whose commit record is still to be written; 09_edits_and_transactions.md R252; reset none -/
  recording : Option Nat
  /-- the last effect has no commit record and is in no image: its set sequence, 0 without a set; what BOOT finds after a reset; 09_edits_and_transactions.md R267; reset none -/
  lost : Option Nat
  /-- SYSTXN of the system-wide transaction whose PREPARED marker is held: what BOOT reports; 09_edits_and_transactions.md R248, R267; reset 0 -/
  prepared : Nat
  deriving DecidableEq, Repr, Inhabited

/-- The pins and straps of the processor (chapter 22). -/
structure PinSt where
  /-- straps at their balls: STN[7:0], BOOTSEL[1:0], VSEL per bank (1 = 3.3 V); 22_package_electrical.md R604, 20_reset_boot_nv.md R565; reset 0 -/
  stn : Nat
  bootsel : Nat
  vsel : Nat
  /-- RESET_N is low; 1 bit; 20_reset_boot_nv.md R562; reset 0 -/
  resetLow : Bool
  /-- level of ALIVE; 1 bit; 01_station_picture.md R21; reset 0 -/
  alive : Bool
  /-- RSTOUT_N is driven low; 1 bit; 20_reset_boot_nv.md R562; reset 1 -/
  rstout : Bool
  /-- what the last host SPI access returned on HSPI_MISO, in the order of its bytes; 18_command_protocol.md R522; reset empty -/
  miso : List Byte
  deriving DecidableEq, Repr, Inhabited

/-- A fitted NOR of 32 MiB, erased (log entry 20, DESIGN CHOICE). -/
def NvSt.init : NvSt :=
  { bytes := 0x2000000, nor := [], sets := [], mirrors := [], holder := none, waiting := [], snapshot := none, recording := none, lost := none, prepared := 0 }

/-- The pins as BOOT begins. -/
def PinSt.init : PinSt := { stn := 0, bootsel := 0, vsel := 0, resetLow := false, alive := false, rstout := true, miso := [] }

/-- A PTP message copied to the time system (R29 to R32), as the classifier's copy gives it. -/
structure PtpMsg where
  /-- 0 Announce, 1 Sync, 2 Follow_Up, 3 Pdelay_Req, 4 Pdelay_Resp, 5 Pdelay_Resp_Follow_Up -/
  kind : Nat
  seq : Nat
  domain : Nat
  /-- the timestamp the message carries, TAI in units of 2^-32 ns -/
  origin : Nat
  /-- correctionField in units of 2^-32 ns -/
  corr : Int
  /-- raw stamp of the message at the interface, TAI in units of 2^-32 ns (R27) -/
  stamp : Nat
  /-- the message came over UDP, not over layer 2 (R29) -/
  udp : Bool
  /-- twoStepFlag -/
  twoStep : Bool
  /-- Announce: clockClass, upper bound of clockAccuracy in ns, currentUtcOffset when valid with its sign extended, leap61, leap59 -/
  clockClass : Nat
  accuracy : Nat
  utc : Option (Int × Bool × Bool)
  /-- Announce: totalTimeInaccuracy of the IEEE_C37_238 TLV, ns -/
  inaccuracy : Option Nat
  /-- Announce: the state decision of the profile's best-master algorithm (IEEE 1588-2019, outside the spec) makes the port SLAVE -/
  slave : Bool
  deriving DecidableEq, Repr, Inhabited

/-- An IRIG-B frame as decoded (R33). -/
structure IrigFrame where
  parityOk : Bool
  /-- every position marker was found -/
  markersOk : Bool
  /-- year (two digits) when the format or the control functions give it -/
  year : Option Nat
  /-- day of the year, hour, minute, second -/
  day : Nat
  hour : Nat
  minute : Nat
  second : Nat
  /-- IEEE 1344 control functions: leap second pending, direction (true: 59), local-time offset in half hours, time-quality nibble -/
  lsp : Bool
  leap59 : Bool
  offset : Int
  quality : Nat
  /-- extension of the time-quality code by IEEE C37.118, 3 bits -/
  ctq : Nat
  /-- stamp of the rising edge of the on-time marker, TAI in units of 2^-32 ns -/
  stamp : Nat
  deriving DecidableEq, Repr, Inhabited

/-- An edge of the 1PPS input (R34): its stamp, TAI in units of 2^-32 ns, and its direction. -/
structure PpsEdge where
  stamp : Nat
  rising : Bool
  deriving DecidableEq, Repr, Inhabited

/-- A TIMEX frame of the standby link (R35): a request, or a response with the partner's stamps, TIM_UNC and TQ. -/
structure Timex where
  response : Bool
  no : Nat
  /-- stamps in units of 2^-32 ns: t1 sent by the requester, t2 received and t3 sent by the responder, t4 received by the requester -/
  t1 : Nat
  t2 : Nat
  t3 : Nat
  t4 : Nat
  unc : Nat
  tq : Nat
  deriving DecidableEq, Repr, Inhabited

/-- Who writes a register directly: the host over SPI, the host over DBGREG, a task through the QU (R3, R522, R557, R182). -/
inductive Writer where
  | spi
  | dbg
  | task (t : Nat)
  deriving DecidableEq, Repr, Inhabited

end Sys2Proof.Machine
end

