-- ==== Sys2Proof/Syntax.lean ====
section
/-!
DEFINITION. The commands the block takes: one constructor per row of spec/opcode_table.json, in the table's order. The
types of the operands stand in Machine/Parts.lean.

Operands: `u` a unit number, `o` the move a trigger came from and `t` its trigger word (rows of the unit catalogue); `rq` peer,
session and sequence number of a ZCP request; `who` a requester of R595 (0 to 7 a task, 16 the host); `k` a companion
position, `link` 0 for A and 1 for B; `n` a bus controller; `stamp` TAI in units of 2^-32 ns.
-/

namespace Sys2Proof

open Machine

/-- The commands (opcode_table.json). -/
inductive Instr where
  /-- VBAT rises above 2.0 V with the main supplies absent, and the device enters BACKUP by transition 1 (R73). -/
  | vbatRise (mv : Nat)
  /-- All main rails come within limits after OFF or BACKUP, so D0 and D1 power up and the device enters RESET by transition 2 (R561). -/
  | powerOnReset
  /-- RESET_N is held low for at least 50 ns, and the device enters RESET within 100 ns (R562). -/
  | resetPin (ns : Nat)
  /-- The last active reset source releases, and BOOT begins 1,024 reference cycles later by transition 4 (R73). -/
  | resetPinRelease (stn : Nat) (bootsel : Nat)
  /-- RST_WDOG.TMO passes without a service, and the watchdog resets the device (R563). -/
  | watchdogExpiry
  /-- A main rail leaves its reset window for 1 µs, and the VMON reset source holds the device in RESET (R536). -/
  | railResetWindow (rail : Nat)
  /-- A main rail falls below its loss threshold, and D0 is isolated onto VBAT by transition 21 into BACKUP (R536). -/
  | railLoss (rail : Nat)
  /-- VBAT falls below 2.0 V with no main supply, the device enters OFF, and D0 is lost (R479). -/
  | vbatLoss
  /-- RST_CFG.EXT µs after BOOT begins, RSTOUT_N is driven high (R562). -/
  | rstoutRelease
  /-- Loading and replay have finished and the TAI counter has been seeded, so the device takes transition 5 to SELFTEST (R574). -/
  | bootComplete
  /-- No calendar second tick has arrived within 1.5 s of D1 power-up, so the counter is seeded from the calendar fields at once (R499). -/
  | seedTimeout
  /-- A self-test finishes and writes its result; the next test starts, or SELFTEST ends and the device goes to STOP, RUN, TRACK or SAFE_HALT (R81). -/
  | selftestTestDone (failed : List Nat)
  /-- NEG_TMO expires without a partner heartbeat, and the unit enters RUN or TRACK by its ROLE and SOLO (R273). -/
  | roleNegTimeout
  /-- A write of 0x5 to SYS_MODECTL.REQ requests STOP, which sets STOP_PENDING in RUN or TRACK (R75). -/
  | modeReqStop (dbg : Bool)
  /-- A write of 0x6 to SYS_MODECTL.REQ requests RUN from STOP, subject to the program, the table identity and the station conflict (R74). -/
  | modeReqRun (dbg : Bool)
  /-- A write of 0xA to SYS_MODECTL.REQ enters SAFE_HALT with cause ZCP_HALT (R77). -/
  | modeReqHalt (dbg : Bool)
  /-- A write of 0xB to SYS_MODECTL.REQ requests HOLD from STOP, and the domains not kept are switched off in order (R87). -/
  | modeReqHold (dbg : Bool)
  /-- The first quiet point after STOP_PENDING set is reached, and the device enters STOP (R75). -/
  | stopAtQuietPoint
  /-- STOP_TMO expires without a quiet point, so the device forces STOP and sets STOP_FORCED (R75). -/
  | stopTimeout
  /-- A ramped domain reaches its internal power-good, so its isolation and reset are released and ON sets (R533). -/
  | domainPowerGood (d : Nat)
  /-- The last domain to be dropped is off, and the device enters HOLD (R88). -/
  | holdEntryDone
  /-- WAKE_N is low for at least 1 µs in HOLD and wakes the device when enabled (R90). -/
  | wakePin (ns : Nat)
  /-- TAI reaches SYS_WAKETIME and wakes the device when enabled (R90). -/
  | wakeTime
  /-- The rebuild of bank A and the decode table after a D4 wake completes, and bank A becomes active (R576). -/
  | holdWakeReloadDone
  /-- The last wake phase ends and the device enters STOP (R89). -/
  | wakeComplete
  /-- Every 500 µs from BOOT to HOLD the ALIVE pin toggles (R21). -/
  | aliveToggle
  /-- The scrub engine reads, checks and writes back one location of a memory in an idle cycle after PACE (R84). -/
  | scrubAccess (m : MemId) (found : Ecc)
  /-- A corrected location is rewritten in the next cycle in which its memory is idle (R151). -/
  | eccWriteBack (m : MemId) (loc : Nat)
  /-- A station's supervision timer expires, and its PRESENT bit clears (R18). -/
  | stationSupvExpiry (stn : Nat)
  /-- A read of TIM_NOW_SH latches all four parts of the TAI clock for the requester (R25). -/
  | timNowShRead (who : Nat)
  /-- At the end of the flagged UTC minute, the device clears LEAP61 or LEAP59 and adjusts TAI_UTC by one second (R26). -/
  | leapSecond
  /-- A PTP message copied to the time system updates the port state, the offsets and the delays (R29). -/
  | ptpMessageRx (port : Nat) (msg : PtpMsg)
  /-- The announce receipt timeout or the three-sync-interval timeout passes, and the PTP source becomes invalid (R30). -/
  | ptpTimeout (port : Nat) (announce : Bool)
  /-- As elected master on a MASTER_OK port, the ordinary clock sends its two-step PTP messages (R31). -/
  | ptpMasterSend (port : Nat) (kind : Nat)
  /-- An IRIG-B frame completes and is judged good or bad, which updates the source's validity and offset (R33). -/
  | irigbFrame (f : IrigFrame)
  /-- The configured 1PPS edge is stamped and taken as the nearest whole TAI second (R34). -/
  | ppsEdge (edge : PpsEdge)
  /-- An expected 1PPS edge has been missing for 1.5 s, and the source becomes invalid (R34). -/
  | ppsTimeout
  /-- Every 31.25 ms a four-timestamp time exchange with the partner starts over SBL (R35). -/
  | sblTimexSend
  /-- A TIMEX frame is received and completes or continues an exchange, giving an offset and the partner's uncertainty (R35). -/
  | sblTimexRx (x : Timex)
  /-- No exchange has completed within 125 ms, and the SBL source becomes invalid (R35). -/
  | sblTimexTimeout
  /-- A source has stayed VALID for QUAL_TIME seconds and becomes QUALIFIED (R39). -/
  | sourceQualified (n : Nat)
  /-- A better source has led for SEL_HOLD seconds, and ACTIVE_SRC changes with a journal entry and an event (R40). -/
  | sourceSwitch (n : Nat)
  /-- Every 1 µs in holdover TIM_UNC is recomputed, and TQ and the class follow it (R43). -/
  | holdoverUpdate
  /-- No sample has arrived for 4 sample intervals, and Plumb loses tracking (R51). -/
  | plumbSampleTimeout
  /-- Plumb's angle wraps through 0 and its cycle count increments (R47). -/
  | plumbCycleWrap
  /-- A read of PLB_CYCLE latches PLB_ANGLE, PLB_FREQ and PLB_ROCOF (R64). -/
  | plbCycleRead (who : Nat)
  /-- The selected context issues one bundle, and all eight slots read sources, evaluate guards and land or defer their moves (R94). -/
  | bundleIssue (parity : Bool)
  /-- A provisional move reaches its resolution cycle; it lands or fires if its guard is true, and is cancelled and restored otherwise (R110). -/
  | deferredResolution (i : Nat)
  /-- A deferred or waiting trigger fires in the first cycle in which its unit is free (R117). -/
  | waitingTriggerFire (i : Nat)
  /-- An operation reaches the end of its latency, writes its results into its context and releases its tracker entry (R160). -/
  | operationResult (i : Nat)
  /-- ALU ADD adds T to OPD0 under the reference tag and writes the sum and FLAGS (R164). -/
  | aluAdd (o : Origin) (u : Nat) (t : TWord)
  /-- ALU SUB subtracts T from OPD0 and writes the difference and FLAGS (R164). -/
  | aluSub (o : Origin) (u : Nat) (t : TWord)
  /-- ALU AND writes the bitwise AND of OPD0 and T (R164). -/
  | aluAnd (o : Origin) (u : Nat) (t : TWord)
  /-- ALU OR writes the bitwise OR of OPD0 and T (R164). -/
  | aluOr (o : Origin) (u : Nat) (t : TWord)
  /-- ALU XOR writes the bitwise exclusive OR of OPD0 and T (R164). -/
  | aluXor (o : Origin) (u : Nat) (t : TWord)
  /-- ALU SHL shifts OPD0 left by T[4:0] (R164). -/
  | aluShl (o : Origin) (u : Nat) (t : TWord)
  /-- ALU SHR shifts OPD0 right, arithmetically for INT32 and FIX16 and logically otherwise (R164). -/
  | aluShr (o : Origin) (u : Nat) (t : TWord)
  /-- ALU MIN writes the lesser of OPD0 and T (R164). -/
  | aluMin (o : Origin) (u : Nat) (t : TWord)
  /-- ALU MAX writes the greater of OPD0 and T (R164). -/
  | aluMax (o : Origin) (u : Nat) (t : TWord)
  /-- ALU NEGABS writes −T and |T| (R164). -/
  | aluNegabs (o : Origin) (u : Nat) (t : TWord)
  /-- ALU SEL copies OPD1 when T[0] is 1, and OPD0 otherwise (R164). -/
  | aluSel (o : Origin) (u : Nat) (t : TWord)
  /-- ALU CVT converts T to the target tag, or re-tags it raw (R165). -/
  | aluCvt (o : Origin) (u : Nat) (t : TWord)
  /-- Gecko AND writes A AND B to the bit at OPD1 (R166). -/
  | gbuAnd (o : Origin) (u : Nat) (t : TWord)
  /-- Gecko OR writes A OR B to the bit at OPD1 (R166). -/
  | gbuOr (o : Origin) (u : Nat) (t : TWord)
  /-- Gecko XOR writes A XOR B to the bit at OPD1 (R166). -/
  | gbuXor (o : Origin) (u : Nat) (t : TWord)
  /-- Gecko ANDN writes A AND NOT B to the bit at OPD1 (R166). -/
  | gbuAndn (o : Origin) (u : Nat) (t : TWord)
  /-- Gecko NOT writes NOT B to the bit at OPD1 (R166). -/
  | gbuNot (o : Origin) (u : Nat) (t : TWord)
  /-- Gecko COPY writes B to the bit at OPD1 (R166). -/
  | gbuCopy (o : Origin) (u : Nat) (t : TWord)
  /-- Gecko SR applies a set-dominant latch to the bit at OPD1 (R166). -/
  | gbuSr (o : Origin) (u : Nat) (t : TWord)
  /-- Gecko RS applies a reset-dominant latch to the bit at OPD1 (R166). -/
  | gbuRs (o : Origin) (u : Nat) (t : TWord)
  /-- Gecko RISE writes B AND NOT M and stores B in M (R166). -/
  | gbuRise (o : Origin) (u : Nat) (t : TWord)
  /-- Gecko FALL writes NOT B AND M and stores B in M (R166). -/
  | gbuFall (o : Origin) (u : Nat) (t : TWord)
  /-- Gecko TON evaluates an on-delay timer cell and writes its output (R167). -/
  | gbuTon (o : Origin) (u : Nat) (t : TWord)
  /-- Gecko TOF evaluates an off-delay timer cell and writes its output (R167). -/
  | gbuTof (o : Origin) (u : Nat) (t : TWord)
  /-- Each cycle the sweep visits one timer cell and sets a RUN cell whose elapsed time is 2^31 µs or more to DONE (R168). -/
  | timerSweep (cell : Nat)
  /-- MUL0 MUL multiplies OPD0 by T (R169). -/
  | mulMul (o : Origin) (u : Nat) (t : TWord)
  /-- MUL0 MULW writes both halves of the 64-bit product (R169). -/
  | mulMulw (o : Origin) (u : Nat) (t : TWord)
  /-- MUL0 SQ squares T (R169). -/
  | mulSq (o : Origin) (u : Nat) (t : TWord)
  /-- PHU0 CMAC adds the complex product a × b to, or subtracts it from, the context's accumulator (R171). -/
  | phuCmac (o : Origin) (u : Nat) (t : TWord)
  /-- PHU0 CMAG computes magnitude and angle from re and im (R170). -/
  | phuCmag (o : Origin) (u : Nat) (t : TWord)
  /-- PHU0 CROT converts a magnitude and an angle to rectangular form (R170). -/
  | phuCrot (o : Origin) (u : Nat) (t : TWord)
  /-- PHU0 DFT reads N samples and computes the windowed phasor at harmonic h, referred to angle ρ (R172). -/
  | phuDft (o : Origin) (u : Nat) (t : TWord)
  /-- LSU LD loads the word at address T (R174). -/
  | lsuLd (o : Origin) (u : Nat) (t : TWord)
  /-- LSU LDX loads the word at base plus offset (R174). -/
  | lsuLdx (o : Origin) (u : Nat) (t : TWord)
  /-- LSU LDP loads the real and imaginary parts named by a PHREF (R174). -/
  | lsuLdp (o : Origin) (u : Nat) (t : TWord)
  /-- LSU ST stores OPD0 at address T (R175). -/
  | lsuSt (o : Origin) (u : Nat) (t : TWord)
  /-- LSU STX stores OPD0 at base plus offset (R175). -/
  | lsuStx (o : Origin) (u : Nat) (t : TWord)
  /-- LSU STP stores OPD0 and OPD1 as a phasor pair (R175). -/
  | lsuStp (o : Origin) (u : Nat) (t : TWord)
  /-- BRU EQ compares OPD0 equal to T and writes RES0 and CC_t (R176). -/
  | bruEq (o : Origin) (u : Nat) (t : TWord)
  /-- BRU NE compares OPD0 not equal to T and writes RES0 and CC_t (R176). -/
  | bruNe (o : Origin) (u : Nat) (t : TWord)
  /-- BRU LT compares OPD0 less than T and writes RES0 and CC_t (R176). -/
  | bruLt (o : Origin) (u : Nat) (t : TWord)
  /-- BRU LE compares OPD0 less than or equal to T and writes RES0 and CC_t (R176). -/
  | bruLe (o : Origin) (u : Nat) (t : TWord)
  /-- BRU GT compares OPD0 greater than T and writes RES0 and CC_t (R176). -/
  | bruGt (o : Origin) (u : Nat) (t : TWord)
  /-- BRU GE compares OPD0 greater than or equal to T and writes RES0 and CC_t (R176). -/
  | bruGe (o : Origin) (u : Nat) (t : TWord)
  /-- BRU TST tests OPD0 AND T for non-zero (R176). -/
  | bruTst (o : Origin) (u : Nat) (t : TWord)
  /-- A branch into the BRU PC port redirects the context after two delay bundles (R120). -/
  | bruPc (o : Origin) (u : Nat) (t : TWord)
  /-- BRU CALL branches as PC does and writes the return index (R177). -/
  | bruCall (o : Origin) (u : Nat) (t : TWord)
  /-- TMU NOW_T returns the current TAI as a TIME_HI and TIME_LO pair (R178). -/
  | tmuNowT (o : Origin) (u : Nat) (t : TWord)
  /-- TMU NOW_A returns Plumb's cycle count and angle (R178). -/
  | tmuNowA (o : Origin) (u : Nat) (t : TWord)
  /-- TMU ADDA advances a (cycle, angle) pair by Δ (R178). -/
  | tmuAdda (o : Origin) (u : Nat) (t : TWord)
  /-- TMU SCHED_A takes a slot for an angle event and returns a handle, or is refused when the table is full (R179). -/
  | tmuSchedA (o : Origin) (u : Nat) (t : TWord)
  /-- TMU SCHED_T takes a slot for a UTC event and returns a handle (R179). -/
  | tmuSchedT (o : Origin) (u : Nat) (t : TWord)
  /-- TMU CANCEL frees a pending slot whose handle matches (R179). -/
  | tmuCancel (o : Origin) (u : Nat) (t : TWord)
  /-- TMU POP takes the oldest record of the fire FIFO (R181). -/
  | tmuPop (o : Origin) (u : Nat) (t : TWord)
  /-- A scheduled angle or UTC event fires: it performs its action, frees its slot and optionally records to the FIFO (R180). -/
  | tmuEventFire (slot : Nat)
  /-- A TMU FASTOUT action that waited for room enters the companion's fast queue (R180). -/
  | tmuFastoutEnqueue
  /-- QU RECV copies the oldest frame of a mailbox into the word space (R182). -/
  | quRecv (o : Origin) (u : Nat) (t : TWord)
  /-- QU SEND_ETH copies a frame into the egress queues of the chosen ports (R182). -/
  | quSendEth (o : Origin) (u : Nat) (t : TWord)
  /-- QU SEND_CAN puts a message into a free program-path transmit buffer, or returns FULL (R379). -/
  | quSendCan (o : Origin) (u : Nat) (t : TWord)
  /-- QU FLD_CMD passes command words to a companion's command mailbox (R421). -/
  | quFldCmd (o : Origin) (u : Nat) (t : TWord)
  /-- QU REG_RD reads a register as a host read would (R182). -/
  | quRegRd (o : Origin) (u : Nat) (t : TWord)
  /-- QU REG_WR writes a register as a host write would, without ever staging (R182). -/
  | quRegWr (o : Origin) (u : Nat) (t : TWord)
  /-- IMG END ends the run and captures the output window unless NOCOMMIT is set (R185). -/
  | imgEnd (o : Origin) (u : Nat) (t : TWord)
  /-- MAC SEL stores the custom-operation selector of the context (R186). -/
  | macSel (o : Origin) (u : Nat) (t : TWord)
  /-- MAC EXEC runs the selected custom operation through its micro-moves (R198). -/
  | macExec (o : Origin) (u : Nat) (t : TWord)
  /-- MAC EXEC0–EXEC9 run custom operation 0–9 directly (R198). -/
  | macExecDirect (o : Origin) (n : Nat) (t : TWord)
  /-- FLD FASTOUT puts a fast-output command into a companion's fast queue (R187). -/
  | fldFastout (o : Origin) (u : Nat) (t : TWord)
  /-- A queued fast command leaves on the FS lane once the frames ahead of it have been sent (R188). -/
  | fastFrameLaunch (k : Nat)
  /-- A read of CORE_CYC_HI latches CORE_CYC_LO (R595). -/
  | coreCycHiRead (who : Nat)
  /-- A read of CORE_GTIMST latches CORE_GTIMSTART (R595). -/
  | coreGtimstRead (who : Nat)
  /-- A read of SCN_SCANHIt latches SCN_SCANLOt (R595). -/
  | scanhiRead (task : Nat) (who : Nat)
  /-- A read of a register with RC fields returns and then clears them (R3). -/
  | readClearField (addr : Nat)
  /-- A period instant of a task is reached and its trigger is accepted, dropped or held (R217). -/
  | triggerPeriod (task : Nat)
  /-- An angle position of a task is reached and its trigger is accepted (R217). -/
  | triggerAngle (task : Nat)
  /-- A watched bit changes in the selected direction and the task's trigger is accepted (R217). -/
  | triggerEdge (task : Nat) (old : Bool)
  /-- The run in progress ends, and a trigger held under LATE makes the task PENDING (R225). -/
  | heldTriggerRelease (task : Nat)
  /-- A selected task freezes: its input window is copied into its plane, the overlay is applied, and its scan counter increases (R221). -/
  | taskFreeze (task : Nat)
  /-- A capture in LAUNCH_WAIT commits at its launch angle or instant (R222). -/
  | launchCommit (task : Nat)
  /-- ACK_TMO passes without the acknowledgement of a STATION write, and the failure is logged (R230). -/
  | stationAckTimeout (seq : Nat)
  /-- A write of 1 to SCN_PWCTL.CLR empties the posted-write failure log (R231). -/
  | pwlogClear
  /-- The commit cycle of a scheduled transaction is reached, and it takes effect or enters WAIT_QP (R249). -/
  | txnCommitInstant
  /-- A transaction takes effect at its effect cycle, and every staged object is exchanged with its shadow (R250). -/
  | txnEffect
  /-- QP_TMO passes without an effect cycle, and the commit fails with NO_QUIET_POINT (R251). -/
  | txnQpTimeout
  /-- The write of the commit record completes, and RECORDED sets (R252). -/
  | txnRecorded
  /-- Validation and any persistence to NV complete, and the transaction enters READY (R248). -/
  | prepareDone
  /-- Every 32 cycles one bundle of the active bank is copied into the inactive bank (R261). -/
  | editCopyBundle
  /-- Every 1 ms the coordinator repeats each message to the participants that have not acknowledged it (R255). -/
  | sysTxnResend
  /-- T − G is reached without every READY, so the coordinator sends ABORT and rolls itself back (R255). -/
  | sysTxnGuardDeadline
  /-- Every 10 ms, for at most 10 s, a participant repeats its unacknowledged REPORT (R258). -/
  | sysReportResend
  /-- A reply to the unit's own request is matched by peer, SEQ and opcode and acted upon (R521). -/
  | zcpReplyMatch (peer : Peer) (seq : Nat) (opcode : Nat) (status : Nat)
  /-- The link holds alignment for 1,024 characters, the NEG exchange is made, and the link becomes UP or MISMATCH (R276). -/
  | sblLinkUp (stn : Nat) (sysId : Nat) (dirCrc : Nat) (rtt : Nat)
  /-- Character alignment is lost, the link goes DOWN, and training restarts (R276). -/
  | sblAlignLoss
  /-- Every 10 µs a heartbeat frame is sent on an UP link (R278). -/
  | sblHbSend
  /-- A heartbeat from the partner is received and updates the partner state, the acknowledgements and the conflict checks (R278). -/
  | sblHbRx (crcOk : Bool) (hb : HbInfo)
  /-- An ACK frame releases acknowledged sequenced frames from the transmit buffer (R275). -/
  | sblAckRx (crcOk : Bool) (seq : Nat)
  /-- A NAK frame makes the sender resend from the named LSEQ (R275). -/
  | sblNakRx (crcOk : Bool) (seq : Nat)
  /-- 20 µs pass without an acknowledgement, and the sender resends from the oldest unacknowledged frame (R275). -/
  | sblRetxTimeout
  /-- An EVT frame of stream events from the primary is received and buffered for replay (R284). -/
  | sblEvtRx (crcOk : Bool) (lseq : Nat) (evs : List (Nat × StreamEv))
  /-- An XFER frame of a state transfer is received; the last one starts replay from the cut (R293). -/
  | sblXferRx (crcOk : Bool) (lseq : Nat) (part : XferPart) (last : Bool)
  /-- An XCTL transfer request is received by the primary (R293). -/
  | sblXctlRx (crcOk : Bool) (lseq : Nat)
  /-- A NEG frame with station, SYSTEM_ID and directory CRC is received and checked (R276). -/
  | sblNegRx (crcOk : Bool) (stn : Nat) (sysId : Nat) (dirCrc : Nat)
  /-- A HANDOVER frame is received, and a synchronised secondary takes over at the MARK (R299). -/
  | sblHandoverRx (crcOk : Bool) (lseq : Nat)
  /-- A partner's RSTREQ is accepted as a reset source or refused by RST_ACCEPT (R307). -/
  | sblRstreqRx (crcOk : Bool) (lseq : Nat)
  /-- LOSS_TMO passes without a valid heartbeat, so the partner is declared lost and a synchronised secondary takes over (R279). -/
  | partnerLoss
  /-- RCYC reaches a stream event's primary cycle, and the secondary replays it (R289). -/
  | replayEvent
  /-- Room returns in the transmit buffer after stream events were dropped, and the primary sends the stream-loss MARK (R291). -/
  | streamLossMark
  /-- At its next quiet point the primary takes the cut and starts sending the state transfer (R293). -/
  | xferCut
  /-- The primary sends the next XFER frame of the transfer objects when the link allows (R293). -/
  | xferFrameSend
  /-- The first replica quiet point after the last event raises the epoch, enters RUN, arms triggers and resends the map (R298). -/
  | takeoverBoundary
  /-- A write to SBY_CTRL.HANDOVER requests a planned handover on the primary (R299). -/
  | handoverReq (dbg : Bool)
  /-- At its next quiet point the primary sends the handover MARK and the HANDOVER frame and enters TRACK (R299). -/
  | handoverMark
  /-- At its next quiet point a demoted unit in RUN enters TRACK with SYNC 0 (R300). -/
  | demotion
  /-- A write to SBY_CTRL.SYNC_REQ makes an unsynchronised secondary request a state transfer (R293). -/
  | syncReq (dbg : Bool)
  /-- A write to SBY_CTRL.RESET_PARTNER sends RSTREQ to the partner (R307). -/
  | resetPartner (dbg : Bool)
  /-- The rules deciding an arriving frame are resolved, and the header decision is made within 40 ns (R323). -/
  | frameHeaderDecision (port : Nat) (bytes : List Byte) (stamp : Nat)
  /-- The last FCS byte arrives, and the frame-end actions of the decision land in the land cycle (R325). -/
  | frameEnd (port : Nat) (fcsOk : Bool)
  /-- The pattern scan of a frame completes, and its waiting decision and frame-end actions follow (R328). -/
  | payloadScanDone (port : Nat)
  /-- The payload engines finish their buffers with the old pattern set, and the new set starts to load (R329). -/
  | pauseDrainDone
  /-- The new pattern set is loaded, and the paused ports resume with the held frames first (R329). -/
  | patternLoadDone
  /-- A duplicate-window entry is forgotten FORGET ms after it entered (R313). -/
  | dupEntryForget (pair : Nat) (src : Nat) (seq : Nat)
  /-- A Tadpole entry's timer expires, and the entry and any held orphans are freed (R330). -/
  | tadpoleExpiry (i : Nat)
  /-- The link is idle and the head frame of the highest eligible queue starts (R344). -/
  | egressFrameStart (port : Nat)
  /-- A frame's occupancy ends and the link becomes idle (R343). -/
  | egressFrameEnd (port : Nat)
  /-- The gate list passes to its next entry and the gate states change (R346). -/
  | gateChange (port : Nat)
  /-- A committed gate list takes over at the first start of one of its cycles (R350). -/
  | gateListTakeover (port : Nat)
  /-- Every 2,000 ms a supervision frame is sent on both ports of a PRP or HSR pair (R355). -/
  | redsupSend (pair : Nat)
  /-- A GOOSE retransmission interval expires, and the frame is resent with SQNUM + 1 (R362). -/
  | gooseRetransmit (slot : Nat)
  /-- A valid frame is filtered into the HPB, the RX FIFO or discarded, with a receive stamp (R371). -/
  | canFrameRx (n : Nat) (f : CanFrame) (stamp : Nat)
  /-- The controller may start a frame, and the chosen buffer begins an attempt (R377). -/
  | canTxStart (n : Nat)
  /-- A frame completes for its transmitter, and its buffer is freed and may be reloaded from a pending object (R378). -/
  | canTxDone (n : Nat)
  /-- An attempt loses arbitration or meets an error, and the frame is retried or lost in its window (R378). -/
  | canTxFail (n : Nat)
  /-- A bus error changes TEC or REC and may enter error-passive or bus-off (R383). -/
  | canError (n : Nat) (tec : Nat) (rec : Nat)
  /-- After 128 occurrences of 11 recessive bits, the controller leaves bus-off error-active (R384). -/
  | busoffRecovery (n : Nat)
  /-- A write to CANn_TBCTL cancels the frame in a transmit buffer, or marks it for late cancellation (R382). -/
  | canTbCancel (n : Nat) (mask : Nat)
  /-- A write of 1 to RXPOP removes the oldest RX FIFO entry (R375). -/
  | canRxpop (n : Nat)
  /-- A write of 1 to HPBPOP removes the oldest HPB entry (R375). -/
  | canHpbpop (n : Nat)
  /-- A potential master reaches a reference instant and starts its reference message (R387). -/
  | ttReferenceInstant (n : Nat)
  /-- A schedule window opens, and an exclusive cell takes its object's frame (R389). -/
  | ttWindowOpen (n : Nat) (w : Nat)
  /-- An exclusive frame has not started within TXEN of its window, and it is lost (R389). -/
  | ttTxenExpiry (n : Nat)
  /-- The cycle time reaches BCLEN + TTWATCH without a reference, so the controller returns to SYNC_OFF with REF_LOST (R386). -/
  | ttRefWatchTimeout (n : Nat)
  /-- A ZCP reassembly context gets no segment for 100 ms and is abandoned (R394). -/
  | canZcpCtxTimeout (n : Nat) (peer : Nat)
  /-- Every 400 cycles the hub builds and sends a regular downstream frame to each enabled companion (R402). -/
  | fieldFrameSend
  /-- A companion receives a good regular frame and decides epoch obedience, outputs and fail state (R411). -/
  | cpnFrameRx (k : Nat) (link : Nat) (f : DnFrame) (good : Bool)
  /-- 100 ns after a DN frame's start character, the companion sends its upstream answer (R405). -/
  | cpnAnswerSend (k : Nat) (link : Nat)
  /-- The hub receives an answer, measures link delay, refreshes mirrors, reads outcomes and places input data (R407). -/
  | hubAnswerRx (k : Nat) (a : UpFrame) (good : Bool) (delay : Nat)
  /-- No answer starts within 2 µs of a frame, which logs CPN_NOANS and resends a pending management operation once (R422). -/
  | hubAnswerTimeout (k : Nat)
  /-- A 1 µs slot ends without a good frame on a link, and the link's loss counter advances (R406). -/
  | cpnLossSlot (k : Nat) (link : Nat)
  /-- A companion receives a fast frame, accepts it and switches and latches the named outputs, or ignores it (R409). -/
  | cpnFastFrameRx (k : Nat) (link : Nat) (set : Nat) (clr : Nat) (epoch : Nat) (crcOk : Bool)
  /-- FTMO passes since a fast latch was set, so the regular value takes over and FAST_EXP sets (R409). -/
  | fastLatchTimeout (k : Nat) (out : Nat)
  /-- A HOLD fail state has lasted 1 s, and the held outputs revert to OFF (R413). -/
  | failHoldTimeout (k : Nat)
  /-- Every 200 ns a down-refresh frame crosses the barrier; 10 missing frames make the field side apply the fail state (R414). -/
  | barrierDownFrame (k : Nat) (good : Bool)
  /-- Every 200 ns an up-refresh frame crosses the barrier; 10 missing frames set BARRIER_FAIL (R414). -/
  | barrierUpFrame (k : Nat) (good : Bool)
  /-- An output reaches its current limit, and OUTFLT shows it (R416). -/
  | outCurrentLimit (k : Nat) (out : Nat) (on : Bool)
  /-- An output switch reaches 165 °C and shuts down, and TSD sets (R416). -/
  | outThermalShutdown (k : Nat) (out : Nat)
  /-- An unlatched shut-down output cools to 150 °C and restarts if it is still commanded on (R416). -/
  | outThermalRestart (k : Nat) (out : Nat)
  /-- VFIELD crosses its undervoltage threshold, which switches the outputs off or releases them (R417). -/
  | fieldUvChange (k : Nat) (mv : Nat)
  /-- A companion powers up or CRST_N is held low, which resets its obedience, configuration and outputs (R425). -/
  | cpnReset (k : Nat)
  /-- A management read returns a companion register in the answer (R419). -/
  | cpnMgmtRead (k : Nat) (link : Nat) (addr : Nat)
  /-- A management write changes a companion register or its configuration shadow (R419). -/
  | cpnMgmtWrite (k : Nat) (link : Nat) (addr : Nat) (data : Nat)
  /-- A companion does not acknowledge the PREPARE shadow writes within 1 ms, and preparation fails with BUSY (R420). -/
  | cpnShadowTimeout (k : Nat)
  /-- APPLY on the obeyed link makes the companion's configuration shadow active (R420). -/
  | apply (k : Nat) (link : Nat)
  /-- TSD_CLEAR releases the latched thermal shutdown of the named outputs (R421). -/
  | tsdClear (k : Nat) (link : Nat) (outs : Nat)
  /-- FAST_RELEASE ends the fast latch of the named outputs (R421). -/
  | fastRelease (k : Nat) (link : Nat) (outs : Nat)
  /-- CNT_LATCH copies all counters and the frame number into the latch registers (R442). -/
  | cntLatch (k : Nat) (link : Nat)
  /-- CNT_CLEAR sets the named counters to 0 (R442). -/
  | cntClear (k : Nat) (link : Nat) (chs : Nat)
  /-- OVF_CLEAR clears the sticky overflow flags of the named channels (R442). -/
  | ovfClear (k : Nat) (link : Nat) (chs : Nat)
  /-- CAP_ARM arms single-shot capture on the named channels (R442). -/
  | capArm (k : Nat) (link : Nat) (chs : Nat)
  /-- A raw input has held its value for DEB µs, and the debounced state changes (R429). -/
  | debouncedEdge (k : Nat) (c : Nat) (subA : Nat) (subB : Nat)
  /-- A source edge of the selected direction increments a channel counter (R431). -/
  | counterEdge (k : Nat) (c : Nat) (rise : Bool)
  /-- The settling interval after a DEB or TYPE change ends, and SETTLING_c clears (R430). -/
  | settlingEnd (k : Nat) (c : Nat)
  /-- A rising edge closes a frequency measurement after the gate time, and the next gate is chosen (R434). -/
  | freqMeasurementClose (k : Nat) (c : Nat) (periods : Nat) (ticks : Nat)
  /-- A measurement is still open 10 s after it opened, and it closes with frequency 0 and NOSIG (R436). -/
  | freqNosigTimeout (k : Nat) (c : Nat)
  /-- A fast-capture edge on IN0–IN3 is stamped on both link counters and queued as an event (R437). -/
  | captureEdge (k : Nat) (c : Nat) (rise : Bool) (edge : Nat) (subA : Nat) (subB : Nat)
  /-- Once per TAI second the time-source policy demotes, forces or restores sources (R471). -/
  | tspSecond
  /-- On Plumb's LOST event or its 1 ms poll, the tracking policy may switch Plumb's input through a local transaction (R472). -/
  | atrPoll
  /-- The prescaler passes 32,767 to 0, and the calendar fields advance by one second (R486). -/
  | calSecondTick (stamp : Nat)
  /-- The oscillator monitor sees no crystal edge for 1 ms, and OSF sets with cause oscillator stopped (R483). -/
  | calOscStop
  /-- A write of 1 to CAL_SET.GO loads a valid date and time, or rejects an impossible one (R491). -/
  | calSet (who : Nat) (dbg : Bool)
  /-- A read of CAL_TIME latches the calendar for the requester unless a snapshot is held (R493). -/
  | calTimeRead (who : Nat)
  /-- A write of CAL_SNAP.SNAP latches and holds a calendar snapshot (R494). -/
  | calSnap (who : Nat) (alsoRelease : Bool)
  /-- A write of CAL_SNAP.RELEASE releases the held snapshot (R494). -/
  | calSnapRelease (who : Nat)
  /-- The VBAT comparator is sampled, and LBF sets below the threshold (R484). -/
  | lbfSample (mv : Nat)
  /-- A write of 1 to LBF clears it only when VBAT is above the threshold plus 50 mV (R484). -/
  | lbfClear (mv : Nat)
  /-- TAI reaches a whole UTC second, and the calendar phase is measured, stepped or trimmed (R497). -/
  | calDisciplinePoint
  /-- A ZCP packet arrives on a transport and enters the input queue, or is dropped when the queue is full (R512). -/
  | zcpPacketRx (peer : Peer) (bytes : List Byte)
  /-- The interpreter takes the next packet from the queue and runs the request checks in order (R512). -/
  | zcpRequestTake
  /-- IDENTIFY returns the identity, station, mode, directory CRC and table and bank identities (R517). -/
  | zcpIdentify (rq : ZReq)
  /-- READ_REG returns N register words as the host would read them (R517). -/
  | zcpReadReg (rq : ZReq) (addr : Nat) (n : Nat)
  /-- READ_MEM returns bytes of a memory region in host-map order (R517). -/
  | zcpReadMem (rq : ZReq) (addr : Nat) (len : Nat)
  /-- STAGE_READ returns staged values, or active values where the object is not staged (R245). -/
  | zcpStageRead (rq : ZReq) (addr : Nat) (n : Nat)
  /-- OP_STATUS returns the state and outcome of a long operation's slot (R515). -/
  | zcpOpStatus (rq : ZReq) (handle : Nat)
  /-- ABORT stops a long operation before its point of no return, or returns TOO_LATE (R516). -/
  | zcpAbort (rq : ZReq) (handle : Nat)
  /-- JOURNAL_READ returns journal entries from RAM (R529). -/
  | zcpJournalRead (rq : ZReq) (start : Nat) (n : Nat)
  /-- EVENT_READ returns event ring entries (R525). -/
  | zcpEventRead (rq : ZReq) (start : Nat) (n : Nat)
  /-- SESSION_OPEN takes a free session slot and returns its number (R509). -/
  | zcpSessionOpen (rq : ZReq)
  /-- SESSION_CLOSE frees the session slot and its reply cache (R509). -/
  | zcpSessionClose (rq : ZReq)
  /-- SESS_TMO seconds pass without a request in a session, and it closes (R509). -/
  | sessionTimeout (slot : Nat)
  /-- A received ANNOUNCE is checked for a station conflict under R20 (R519). -/
  | zcpAnnounce (rq : ZReq) (stn : Nat) (sysId : Nat) (dirCrc : Nat) (mode : Nat) (epoch : Nat) (mac : Nat)
  /-- Every 1,000 ms the unit sends ANNOUNCE to its groups on its enabled ports (R519). -/
  | announceSend
  /-- WRITE_REG writes or stages register words in address order and stops at the first refusal (R518). -/
  | zcpWriteReg (rq : ZReq) (addr : Nat) (ws : List Word)
  /-- WRITE_MEM writes word-space or bit-space bytes, all in one cycle (R518). -/
  | zcpWriteMem (rq : ZReq) (addr : Nat) (bytes : List Byte)
  /-- BUS_CANCEL requests cancellation of transmit buffers of a controller (R382). -/
  | zcpBusCancel (rq : ZReq) (n : Nat) (mask : Nat)
  /-- IMG_WRITE from a remote station writes a range of the live input region if its system and epoch pass (R520). -/
  | zcpImgWrite (rq : ZReq) (w : ImgWrite)
  /-- BEGIN opens the device's transaction in OPEN, owned by the sender (R243). -/
  | zcpBegin (rq : ZReq) (persist : Nat) (systxn : Nat)
  /-- STAGE writes RW-T fields into the shadows of the open transaction (R245). -/
  | zcpStage (rq : ZReq) (addr : Nat) (ws : List Word)
  /-- PREPARE validates the staged set and, with PERSIST, writes it to NV (R246). -/
  | zcpPrepare (rq : ZReq)
  /-- COMMIT schedules the transaction's effect now, at a quiet point, or at a UTC or angle instant (R249). -/
  | zcpCommit (rq : ZReq) (kind : Nat) (when0 : Nat) (when1 : Nat)
  /-- ROLLBACK discards the staged set before the commit cycle, or returns TOO_LATE (R253). -/
  | zcpRollback (rq : ZReq) (force : Nat)
  /-- UNDO reverts the last committed transaction as a QUIET transaction of its own (R254). -/
  | zcpUndo (rq : ZReq)
  /-- SYS_COMMIT makes the unit coordinator of a system-wide two-phase commit (R255). -/
  | zcpSysCommit (rq : ZReq) (systxn : Nat) (kind : Nat) (tS : Nat) (tNs : Nat) (a : Nat) (mask : List Nat)
  /-- SYS_PREPARE makes a participant prepare and answer READY or NOT_READY (R256). -/
  | zcpSysPrepare (rq : ZReq) (systxn : Nat) (sysId : Nat) (dirCrc : Nat) (kind : Nat) (tS : Nat) (tNs : Nat) (a : Nat)
  /-- SYS_COMMIT_AT confirms the commit instant to a READY participant (R257). -/
  | zcpSysCommitAt (rq : ZReq) (systxn : Nat) (kind : Nat) (tS : Nat) (tNs : Nat) (a : Nat)
  /-- SYS_ABORT rolls back a participant's transaction before its commit cycle (R253). -/
  | zcpSysAbort (rq : ZReq) (systxn : Nat)
  /-- SYS_REPORT delivers a participant's outcome to the coordinator, which may set SYS_SPLIT (R258). -/
  | zcpSysReport (rq : ZReq) (systxn : Nat) (stn : Nat) (outcome : Nat)
  /-- LOAD_BANK_OPEN opens a direct load of a program bank and sets its identity (R518). -/
  | zcpLoadBankOpen (rq : ZReq) (bank : Nat) (ver : Nat) (crc : Nat)
  /-- LOAD_BANK_DATA writes a run of bundles into the bank being loaded (R518). -/
  | zcpLoadBankData (rq : ZReq) (index : Nat) (ws : List Word)
  /-- LOAD_BANK_CLOSE ends the bank load and optionally makes the bank active (R518). -/
  | zcpLoadBankClose (rq : ZReq) (activate : Nat)
  /-- LOAD_DT_DATA fills decode-table entries in the load buffer (R518). -/
  | zcpLoadDtData (rq : ZReq) (entry : Nat) (ws : List Word)
  /-- LOAD_DT_CLOSE validates the buffer and VERSION and makes the table active (R211). -/
  | zcpLoadDtClose (rq : ZReq) (version : Nat)
  /-- EDIT_BEGIN opens a Skim edit in RUN, enters RUN_EDIT and starts the bank copy (R260). -/
  | zcpEditBegin (rq : ZReq) (persist : Nat) (keep : Nat) (ver : Nat) (crc : Nat)
  /-- EDIT_PATCH writes bundles and new-variable ranges into the inactive bank (R262). -/
  | zcpEditPatch (rq : ZReq) (index : Nat) (ws : List Word) (ranges : List NewVar)
  /-- The ZCP MODE_REQ command requests STOP, RUN, SAFE_HALT or HOLD as a long operation (R517). -/
  | zcpModeReq (rq : ZReq) (mode : Nat)
  /-- The ZCP HANDOVER command requests a planned handover on the primary (R299). -/
  | zcpHandover (rq : ZReq)
  /-- NV_READ returns bytes of the NOR (R517). -/
  | zcpNvRead (rq : ZReq) (addr : Nat) (len : Nat)
  /-- NV_ERASE erases 64 KiB sectors outside the device-owned areas and the running slot (R587). -/
  | zcpNvErase (rq : ZReq) (addr : Nat) (len : Nat)
  /-- NV_PROGRAM programs bytes within one page (R587). -/
  | zcpNvProgram (rq : ZReq) (addr : Nat) (bytes : List Byte)
  /-- NV_IMAGE_OPEN erases the target slot's record and sectors for a new image (R585). -/
  | zcpNvImageOpen (rq : ZReq) (slot : Nat) (len : Nat) (crc : Nat)
  /-- NV_IMAGE_DATA programs image bytes into the target slot (R585). -/
  | zcpNvImageData (rq : ZReq) (offset : Nat) (bytes : List Byte)
  /-- NV_IMAGE_CLOSE verifies the image and writes its commit record (R585). -/
  | zcpNvImageClose (rq : ZReq)
  /-- NV_SAVE builds an image from the active state and commits it to the slot not booted (R585). -/
  | zcpNvSave (rq : ZReq)
  /-- An erase or program exceeds its time limit, and the operation ends with NV_FAIL (R567). -/
  | nvOpTimeout
  /-- The NV interface becomes free and the waiting user of highest rank takes it (R584). -/
  | nvInterfaceGrant
  /-- TIME_SET steps the TAI clock to a supplied time and uncertainty when a step is allowed (R45). -/
  | zcpTimeSet (rq : ZReq) (secHi : Nat) (secLo : Nat) (ns : Nat) (unc : Nat)
  /-- SELFTEST_RUN runs one on-demand self-test in STOP (R82). -/
  | zcpSelftestRun (rq : ZReq) (index : Nat)
  /-- The ZCP RESET command replies and then enters RESET within 1 ms (R518). -/
  | zcpReset (rq : ZReq)
  /-- A long operation ends, and its completion notice is sent to the requester (R515). -/
  | longOpComplete (i : Nat) (status : Nat)
  /-- An ended operation's outcome has been unread for 60 s, and its slot is freed (R515). -/
  | opSlotExpiry (i : Nat)
  /-- Every 10 s the unmirrored journal entries are written to the NV journal area (R529). -/
  | journalMirror
  /-- A host SPI READ returns words from consecutive addresses, each judged and sampled on its own (R522). -/
  | spiRead (addr : Nat) (n : Nat)
  /-- A host SPI WRITE lands words at consecutive addresses, each judged on its own (R522). -/
  | spiWrite (addr : Nat) (ws : List Word)
  /-- A host SPI STATUS access returns ZCP_SPISTAT (R522). -/
  | spiStatus
  /-- ZCP_PUT places a packet in the interpreter's input queue (R523). -/
  | spiZcpPut (bytes : List Byte)
  /-- ZCP_GET returns the oldest queued reply or notice and removes it at chip-select rise (R523). -/
  | spiZcpGet
  /-- An SPI access with an unknown code is ignored, returns all ones and sets the BAD_OPCODE flag (R522). -/
  | spiUnknownCode (code : Nat)
  /-- A write to a register without a row of its own takes effect under its access codes and the owning chapter's rules (R3). -/
  | registerWrite (addr : Nat) (v : Word) (who : Writer)
  /-- A W1C write to SYS_ACCERR clears flags, and clearing the last one clears FIRST and SYS_ACCADDR (R598). -/
  | sysAccerrClear (v : Word)
  /-- A host read of a word's +0 location latches its tag for +4 (R134). -/
  | wordPayloadRead (a : Nat)
  /-- A host write to a word's +0 location loads the staging register with payload and address (R134). -/
  | wordPayloadStage (a : Nat) (v : Word)
  /-- A host write to a word's +4 location writes tag and staged or current payload in one cycle (R134). -/
  | wordTagWrite (a : Nat) (v : Word)
  /-- A host write to a program bank stores a move word in STOP only (R592). -/
  | bankHostWrite (addr : Nat) (v : Word) (dbg : Bool)
  /-- A write to PWR_D11CTL.OFF switches D11 off or on in the allowed modes (R535). -/
  | d11Switch (off : Bool) (dbg : Bool)
  /-- Every 1 ms each rail is measured and checked against its warning window (R537). -/
  | railMeasure (rail : Nat) (mv : Nat)
  /-- Every 1 ms each temperature sensor is measured and checked against the warning and shutdown thresholds (R538). -/
  | tempMeasure (sensor : Nat) (t : Int)
  /-- Every 1 ms each ring-oscillator process monitor is counted (R540). -/
  | processMeasure (m : Nat) (count : Nat)
  /-- Every PERIOD ms AVS decides a voltage step from the least process count and starts a PMBus write (R541). -/
  | avsDecision
  /-- In the first quiet cycle the held PMBus write is released with STOP, and VSET takes the target (R542). -/
  | avsRelease
  /-- No quiet cycle comes within 20 ms of the hold, so the write is discarded and counted as SKIP (R542). -/
  | avsHoldTimeout
  /-- 1 ms after each STOP READ_VOUT is read, and FAULT sets on a mismatch (R543). -/
  | avsReadback (mv : Nat) (busError : Bool)
  /-- PMB_ALERT_N low makes the device read STATUS_WORD, set ALERT and send CLEAR_FAULTS (R543). -/
  | pmbAlert (status : Nat)
  /-- A read of TRC_RDATA returns the buffer word at RADDR and advances RADDR (R550). -/
  | trcRdataRead
  /-- EXTEST drives the pins from the boundary-scan cells while RESET_N is low (R556). -/
  | tapExtest (cells : Nat)
  /-- SAMPLE/PRELOAD captures and loads the boundary-scan register (R555). -/
  | tapSamplePreload (cells : Nat)
  /-- IDCODE selects the 32-bit identification register (R555). -/
  | tapIdcode
  /-- CLAMP holds the pins from the boundary-scan cells with bypass selected, while in RESET (R556). -/
  | tapClamp
  /-- HIGHZ sets all outputs high-impedance while in RESET (R556). -/
  | tapHighz
  /-- BYPASS selects the 1-bit bypass register (R555). -/
  | tapBypass
  /-- An Update-DR with GO performs one 32-bit register or memory access as a host access would (R557). -/
  | dbgreg (go : Bool) (write : Bool) (addr : Nat) (v : Word)
  /-- Every PERIOD seconds, and at NV_SAVE, a snapshot of the retentive store is copied and written to a RET sector (R582). -/
  | retSnapshot
  /-- After power-on the 25 MHz reference on REF25 becomes stable, which allows transition 4 from RESET to BOOT (R73). -/
  | referenceStable
  /-- The REF25 reference stops while the device runs, so the core clock, the TAI counter and the field frames stop until the watchdog resets the device (R612). -/
  | ref25Stop
  /-- An expected IRIG-B position marker does not arrive, and the source becomes invalid for that second (R33). -/
  | irigbPositionMarkerMissing
  /-- The PHY of an Ethernet port reports its link up or down, or a new speed, which changes PSTAT.LINK and PSTAT.SPD (R605). -/
  | portLinkChange (port : Nat) (up : Bool) (spd : Nat)
  /-- On each enabled PTP port the device sends its own Pdelay_Req periodically for peer-to-peer delay measurement (R29). -/
  | peerDelayRequest (port : Nat)
  /-- A CAN controller that is integrating, or waiting after a protocol exception, detects 11 consecutive recessive bits and becomes error-active (R397). -/
  | busIntegration (n : Nat)
  /-- The comparator output of a field input changes, which restarts its debounce run and, for a RAW source, gives a count or frequency edge (R429). -/
  | rawInputChange (k : Nat) (c : Nat) (level : Bool)
  /-- The trace FIFO moves a word to the buffer or the trace port, which may set FULL with WRAP 0 (R550). -/
  | traceFifoDrain
  /-- The QSPI NOR reports the completion of a sector erase or a page program, so the NV user moves to its next step or verifies (R567). -/
  | norOperationDone
  deriving DecidableEq, Repr

end Sys2Proof
end

