-- ==== Sys2Proof/Decode.lean ====
section
/-!
DEFINITION. Commands spelled as words. The block has no instruction decoder: the opcode table gives no row of it any bits
(spec/opcode_table.json), so a word spells no command.
-/

namespace Sys2Proof

/-- The command that a word of `nbits` bits spells by the opcode table's bits: the table gives none. -/
def decodeTableWord (_nbits _w : Nat) : Option Instr := none

end Sys2Proof
end

