-- ==== Sys2Proof/Config.lean ====
section
/-!
DEFINITION. What the spec leaves open: free values. Each is an opaque constant applied to what it may depend on, or to
the state's counter of free values, so that nothing in the model can rest on a value of it.
-/

namespace Sys2Proof

/-- A fresh value the spec leaves open, by the counter of free values drawn (log entry 2, DESIGN CHOICE). -/
opaque Config.freeValue : Nat → Nat

/-- Sign and payload of the NaN that a binary32 operation gives, by its operands (log entry 3, DESIGN CHOICE; R164). -/
opaque Config.nanBits : Nat → Nat → Nat

/-- The angle of Plumb's input at a sample, 32 bits of turn, by the selection of the input (SRC_MODE, NOM60, RATE) and the
channel words of the last samples, newest first (R48, R49; log entry 39, DESIGN CHOICE). -/
opaque Config.plumbInput : List Nat → List (List Nat) → Nat

/-- The amplitude of Plumb's input at a sample, a binary32 code, by the same (R50; log entry 39, DESIGN CHOICE). -/
opaque Config.plumbAmplitude : List Nat → List (List Nat) → Nat

/-- The frequency (Q8.24) that Plumb's loop asks for, by range, present frequency and averaged phase error (R49; log entry 39,
DESIGN CHOICE). -/
opaque Config.plumbFrequency : Nat → Nat → Int → Nat

/-- The phase correction of Plumb's loop through the increment, by the same (R49; log entry 39, DESIGN CHOICE). -/
opaque Config.plumbCorrection : Nat → Nat → Int → Nat

/-- What a run of the function library leaves in its working store, by the counter of free values: word offset, tag, payload (R451; log
entry 143, DESIGN CHOICE). -/
opaque Config.libraryStore : Nat → List (Nat × Nat × Nat)

/-- The bits that radiation flips in the checked memories in a cycle without a command, by the counter of free values: number of the
memory, location, bits flipped, and a choice for what the code makes of three or more (R150; log entry 129, DESIGN CHOICE). -/
opaque Config.softErrors : Nat → List (Nat × Nat × Nat × Nat)

end Sys2Proof
end

