-- ==== Sys2Proof/Machine/Sparse.lean ====
section
/-!
DEFINITION. Sparse maps: every memory and register store of the model is a list of (key, value) pairs in ONE canonical
form, keys strictly rising and no entry equal to what an unlisted key reads as.
-/

namespace Sys2Proof.Machine

/-- What a key of a sparse map reads as; `d` is what an unlisted key reads as. -/
def sget {α : Type} (d : α) : List (Nat × α) → Nat → α
  | [], _ => d
  | (k, v) :: t, a => if k = a then v else sget d t a

/-- A pair put at its place in a list whose keys rise. -/
def sput {α : Type} (a : Nat) (v : α) : List (Nat × α) → List (Nat × α)
  | [] => [(a, v)]
  | (k, w) :: t => if k < a then (k, w) :: sput a v t else (a, v) :: (k, w) :: t

/-- The map without a key. -/
def serase {α : Type} (a : Nat) (m : List (Nat × α)) : List (Nat × α) := m.filter fun p => p.1 != a

/-- A write: the entry goes when the value is what an unlisted key reads as. -/
def sset {α : Type} [DecidableEq α] (d : α) (m : List (Nat × α)) (a : Nat) (v : α) : List (Nat × α) :=
  if v = d then serase a m else sput a v (serase a m)

/-- The keys rise strictly. -/
def srising {α : Type} : List (Nat × α) → Bool
  | [] => true
  | [_] => true
  | (a, _) :: (b, w) :: t => decide (a < b) && srising ((b, w) :: t)

/-- The canonical form of a sparse map: keys strictly rising, no entry equal to what an unlisted key reads as. -/
def swf {α : Type} [DecidableEq α] (d : α) (m : List (Nat × α)) : Bool :=
  srising m && m.all fun p => decide (p.2 ≠ d)

/-- The map without the keys of a range. -/
def sclear {α : Type} (lo hi : Nat) (m : List (Nat × α)) : List (Nat × α) :=
  m.filter fun p => decide (p.1 < lo) || decide (hi ≤ p.1)

end Sys2Proof.Machine
end

