-- ==== Sys2Proof/Machine/State.lean ====
section
/-!
DEFINITION. The state of the block, as plain data, and the queue of commands that wait. State.reset is the machine right
after a power-on reset, when BOOT begins.

Register fields stand in one store, `State.regs`, keyed by address and lowest bit (Machine/RegMap.lean); a field that is
not listed holds its reset value. State that software does not see through a field of its own stands in the parts of
Machine/Parts.lean; where a register shows such state, the read computes it (Machine/Registers.lean).
-/

namespace Sys2Proof.Machine

/-- Why the machine would stop with a fault. No meaning raises one: every effect the spec gives ends in a next state. -/
inductive Fault where
  /-- Raised by no meaning; the type is kept inhabited. Safe. -/
  | unreachable
  deriving DecidableEq, Repr

/-- Why a command has no meaning. -/
inductive Refusal where
  /-- Raised by an arm of Machine/Dispatch.lean whose meaning is not written, by its mnemonic. Safe. -/
  | notModelled (mnemonic : String)
  deriving DecidableEq, Repr

/-- The state of the block. -/
structure State where
  /-- register fields that differ from their reset value, by key; 21_register_map.md R590, R6 -/
  regs : List (Nat × Nat)
  /-- the operating mode; 4 bits; 03_modes.md R66; reset BOOT -/
  mode : Mode
  ms : ModeSt
  time : TimeSt
  plumb : PlumbSt
  sp : SpaceSt
  zcp : ZcpSt
  core : CoreSt
  scan : ScanSt
  txn : TxnSt
  sby : SbySt
  cls : ClsSt
  egr : EgrSt
  /-- controllers C0, C1 -/
  can : List CanSt
  fld : FldSt
  phm : PhmSt
  cal : CalSt
  pwr : PwrSt
  trc : TrcSt
  tap : TapSt
  nv : NvSt
  pins : PinSt
  /-- system bits that are 1 for this cycle only (pulses); 08_scan_and_image.md R235; reset none -/
  pulses : List Nat
  /-- the pulses of the cycle before, which a guard that issues now sees; 04_move_engine.md R108; reset none -/
  pulsesPrev : List Nat
  /-- read latches by requester and group: the latched values; 21_register_map.md R595; reset empty -/
  latches : List (Nat × List Nat)
  /-- the MODEL's own counter of free values drawn (not the spec's); reset 0, DESIGN CHOICE -/
  freeCtr : Nat
  /-- commands that wait, first in first out -/
  pending : List Instr
  deriving DecidableEq, Repr

/-- The block right after a power-on reset: BOOT begins (R6, R73, Table 3.12). -/
def State.reset : State :=
  { regs := [], mode := .boot, ms := ModeSt.init, time := TimeSt.init, plumb := PlumbSt.init, sp := SpaceSt.init,
    zcp := ZcpSt.init, core := CoreSt.init, scan := ScanSt.init, txn := TxnSt.init, sby := SbySt.init,
    cls := ClsSt.init, egr := EgrSt.init, can := [CanSt.init, CanSt.init], fld := FldSt.init, phm := PhmSt.init,
    cal := CalSt.init, pwr := PwrSt.init, trc := TrcSt.init, tap := TapSt.init, nv := NvSt.init, pins := PinSt.init,
    pulses := [], pulsesPrev := [], latches := [], freeCtr := 0, pending := [] }

end Sys2Proof.Machine
end

