-- ==== Sys2Proof/Machine/Ops.lean ====
section
/-!
DEFINITION. The named operations over registers, the data spaces, the clock, events and the journal: what every meaning is
built from.
-/

namespace Sys2Proof.Machine

open Reg

/-! ## Lists by index -/

/-- An element by index, or a default. -/
def nth {α : Type} (d : α) (l : List α) (i : Nat) : α := l.getD i d

/-- A list with one element changed. -/
def upd {α : Type} (l : List α) (i : Nat) (f : α → α) : List α := l.modify i f

/-- The least index of a list at which a predicate holds. -/
def indexOf? {α : Type} (p : α → Bool) : List α → Option Nat
  | [] => none
  | x :: t => if p x then some 0 else (indexOf? p t).map (· + 1)

/-! ## Register fields (R3 to R8) -/

/-- The value of a field. -/
def getF (s : State) (f : Fld) : Nat := sget f.rst s.regs f.key

/-- A one-bit field, or a field that is not 0. -/
def isSet (s : State) (f : Fld) : Bool := getF s f != 0

/-- The state with a field set; the value is cut to the field's width. -/
def setF (s : State) (f : Fld) (v : Nat) : State := { s with regs := sset f.rst s.regs f.key (v % 2 ^ f.w) }

/-- The state with several fields set. -/
def setFs (s : State) : List (Fld × Nat) → State
  | [] => s
  | (f, v) :: t => setFs (setF s f v) t

/-- A counter that saturates: at its maximum it stays and its overflow flag sets (R8, log entry 6, DEDUCED). -/
def incSat (s : State) (f ovf : Fld) : State :=
  if getF s f + 1 < 2 ^ f.w then setF s f (getF s f + 1) else setF s ovf 1

/-- A counter that saturates and whose register has no overflow flag. -/
def incStop (s : State) (f : Fld) : State :=
  if getF s f + 1 < 2 ^ f.w then setF s f (getF s f + 1) else s

/-- A counter that wraps (R8). -/
def incWrap (s : State) (f : Fld) : State := setF s f (getF s f + 1)

/-- The stored fields of a register as its word. -/
def rawReg (s : State) (a : Nat) : Nat :=
  (((regFields a).getD []).map fun f => getF s f * 2 ^ f.lo).sum

/-- Every field of a register takes its bits of a word. -/
def putReg (s : State) (a v : Nat) : State :=
  ((regFields a).getD []).foldl (fun s f => setF s f (bitsOf v f.lo f.w)) s

/-- The state whose registers of some domains hold their reset values (R6, R533). -/
def clearDomains (s : State) (ds : List Nat) : State :=
  { s with regs := s.regs.filter fun p => !ds.contains (regDomain (p.1 / 32)) }

/-! ## Modes and domains -/

/-- The mode is one of a list. -/
def inMode (s : State) (ms : List Mode) : Bool := ms.contains s.mode

/-- The modes in which tasks run or are repeated (Table 3.3, R68). -/
def runModes : List Mode := [.run, .runEdit, .track, .takeover]

/-- The role the unit holds: 1 primary in RUN and RUN_EDIT, 2 secondary in TRACK and TAKEOVER, 0 none (R272). -/
def roleNow (s : State) : Nat :=
  match s.mode with
  | .run | .runEdit => 1
  | .track | .takeover => 2
  | _ => 0

/-- A power domain is on (Table 3.2, R67, R533). -/
def domOn (s : State) (d : Nat) : Bool := bitOf (getF s PWR_DSTAT.ON) d

/-- The processor is absent: OFF, BACKUP, RESET (Table 1.5, R22). -/
def absent (s : State) : Bool := inMode s [.off, .backup, .reset]

/-- The own station number (R13). -/
def ownStn (s : State) : Nat := getF s SYS_STATION.STN

/-- The role of the own directory entry: 0 standalone, 1 primary, 2 secondary (Table 1.10). -/
def dirRole (s : State) : Nat := getF s (SYS_DIR_CTRL.ROLE (ownStn s))

/-- A test of Table 3.6a runs now, in SELFTEST or on demand. -/
def testing (s : State) (i : Nat) : Bool := s.ms.selftest == some i || (s.ms.demandTest.map (·.1)) == some i

/-- Bit address of a bit of a station's status block (Table 8.6). -/
def stnBit (stn o : Nat) : Nat := 0x20000 + 256 * stn + o

/-- Scrub runs (R84): its modes, while it is enabled. -/
def scrubRuns (s : State) : Bool :=
  inMode s [.stop, .run, .runEdit, .track, .takeover, .safeHalt] && isSet s SYS_SCRUB.EN

/-! ## Free values -/

/-- A fresh value the spec leaves open, and the state that has drawn it (log entry 2, DESIGN CHOICE). -/
def drawFree (s : State) : Nat × State := (Config.freeValue s.freeCtr, { s with freeCtr := s.freeCtr + 1 })

/-- A fresh bit the spec leaves open. -/
def drawBit (s : State) : Bool × State :=
  let (v, s) := drawFree s
  (v % 2 == 1, s)

/-- Fresh bytes the spec leaves open. -/
def drawBytes : Nat → State → List Byte × State
  | 0, s => ([], s)
  | n + 1, s =>
    let (v, s) := drawFree s
    let (t, s) := drawBytes n s
    (BitVec.ofNat 8 v :: t, s)

/-! ## The TAI clock (R23) -/

/-- One nanosecond in units of the counter. -/
def nsUnit : Nat := 2 ^ 32

/-- One step of the TAI counter in units of 2^-32 ns: 2.5 ns plus TIM_FADJ (R23). -/
def taiStep (s : State) : Nat := ((5 * nsUnit / 2 : Nat) + signedOf 32 (getF s TIM_FADJ.FADJ)).toNat

/-- One second in units of the counter. -/
def secUnit : Nat := 1000000000 * 2 ^ 32

/-- Seconds and nanoseconds as a TAI in units of the counter. -/
def taiOf (sec ns : Nat) : Nat := sec * secUnit + ns * nsUnit

/-- Whole seconds, 48 bits. -/
def taiSec (t : Nat) : Nat := t / secUnit % 2 ^ 48

/-- Whole nanoseconds of the second; stamps round down (R28). -/
def taiNs (t : Nat) : Nat := t / nsUnit % 1000000000

/-- The time-quality code of an uncertainty in ns (Table 2.4). -/
def tqOf (unc : Nat) : Nat :=
  if unc ≤ 100 then 0 else if unc ≤ 250 then 1 else if unc ≤ 1000 then 2 else if unc ≤ 10000 then 3
  else if unc ≤ 100000 then 4 else if unc ≤ 1000000 then 5 else if unc ≤ 10000000 then 6
  else if unc ≤ 100000000 then 7 else if unc ≤ 1000000000 then 8 else 0xE

/-- The time-quality class of a code (Table 2.4). -/
def classOf (tq : Nat) : Nat := if tq = 0 then 0 else if tq ≤ 2 then 1 else if tq ≤ 8 then 2 else 3

/-- UTC seconds since 1970 (R26). -/
def utcSec (s : State) : Nat := ((taiSec s.time.tai : Int) - signedOf 16 (getF s TIM_UTC.TAI_UTC)).toNat

/-- The leap window of R498. -/
def leapWindow (s : State) : Bool :=
  ((isSet s TIM_UTC.LEAP61 || isSet s TIM_UTC.LEAP59) && decide (86340 ≤ utcSec s % 86400)) ||
    decide (s.time.tai < s.cal.leapEnd)

/-- Discipline of the calendar applies now (R496). -/
def calDisc (s : State) : Bool :=
  isSet s CAL_CTRL.DISC_EN && isSet s TIM_STAT.TIME_VALID && !isSet s TIM_STAT.CAL_DERIVED &&
    decide (getF s TIM_STAT.TQ ≤ getF s CAL_CTRL.DQ) && !absent s && !leapWindow s

/-- The class of the local clock now (R37). -/
def classNow (s : State) : Nat := classOf (getF s TIM_STAT.TQ)

/-- The second half of a stamp: class and nanoseconds (Table 2.2). -/
def tlo (cls t : Nat) : Nat := cls * 2 ^ 30 + taiNs t

/-- The payloads of TIME_HI and TIME_LO for a stamp, with the class at the instant of stamping (R28). -/
def stampWords (cls t : Nat) : Nat × Nat := (taiSec t % 2 ^ 32, tlo cls t)

/-! ## Tags (Table 5.3) -/

/-- A tagged word from numbers. -/
def mkT (tag v : Nat) : TWord := ⟨BitVec.ofNat 4 tag, BitVec.ofNat 32 v⟩

/-- A BOOL32 word of one bit. -/
def boolW (b : Bool) : TWord := mkT 1 (b2n b)

/-- A quality word of the own station with TCLASS filled from the local clock (R140). -/
def qualW (s : State) (v : Nat) : TWord := mkT 10 (ownStn s * 2 ^ 24 + classNow s * 2 ^ 14 + v)

/-! ## Events and the journal (R525, R527, R528) -/

/-- An event enters the ring under the next sequence; the ring keeps 256 entries. -/
def raiseEv (s : State) (reg bit arg : Nat) : State :=
  let e : EventEntry :=
    { seq := getF s ZCP_ESEQ.SEQ, sec := taiSec s.time.tai % 2 ^ 32, tns := tlo (classNow s) s.time.tai, reg := reg,
      bitArg := bit * 2 ^ 24 + arg % 2 ^ 24 }
  incWrap { s with zcp := { s.zcp with events := (e :: s.zcp.events).take 256 } } ZCP_ESEQ.SEQ

/-- The event of a field that records it: REG, BIT and the field's value. -/
def raise (s : State) (f : Fld) : State := raiseEv s f.addr f.lo (getF s f)

/-- The event of a system bit (R525). -/
def raiseBit (s : State) (a : Nat) (v : Bool) : State := raiseEv s (0x20000000 + a) 0 (b2n v)

/-- A field is set and its event raised. -/
def setRaise (s : State) (f : Fld) (v : Nat) : State := raise (setF s f v) f

/-- A sequence that has not been mirrored to NV yet (R529). -/
def unmirrored (jmir seq : Nat) : Bool :=
  let d := (seq + 2 ^ 32 - jmir) % 2 ^ 32
  0 < d && d < 2 ^ 31

/-- An entry enters the journal ring of 4,096 entries; an unmirrored entry it overwrites counts (R527, R529). -/
def journalPut (s : State) (status session opcode object detail : Nat) (peer : Peer) : State :=
  let e : JournalEntry :=
    { seq := getF s ZCP_JSEQ.SEQ, sec := taiSec s.time.tai % 2 ^ 32, tns := tlo (classNow s) s.time.tai,
      status := status, session := session, opcode := opcode, mode := s.mode.code, object := object % 2 ^ 32,
      detail := detail % 2 ^ 32, peer := peer }
  let s1 := match s.zcp.journal.drop 4095 with
    | old :: _ => if unmirrored (getF s ZCP_JMIR.SEQ) old.seq then incStop s ZCP_JLOST.CNT else s
    | [] => s
  incWrap { s1 with zcp := { s1.zcp with journal := (e :: s1.zcp.journal).take 4096 } } ZCP_JSEQ.SEQ

/-- An internal entry: OBJECT and DETAIL are REG and ARG of the matching event (R528). -/
def journalInt (s : State) (reg arg : Nat) : State := journalPut s 0 0 0 reg (arg % 2 ^ 24) Peer.none

/-- The internal entry of a field. -/
def journalF (s : State) (f : Fld) : State := journalInt s f.addr (getF s f)

/-- A change that is journaled and raises an event. -/
def note (s : State) (f : Fld) : State := raise (journalF s f) f

/-! ## Access errors of the host port (R597, R598) -/

/-- The sticky access-error flag of a status code, and the record of the first refusal. -/
def accErr (s : State) (code addr : Nat) (dbg : Bool) : State :=
  let s1 := if getF s SYS_ACCERR.FLAGS = 0 then
      setFs s [(SYS_ACCERR.FIRST, code), (SYS_ACCERR.FIRST_DBG, b2n dbg), (SYS_ACCADDR.ADDR, addr)]
    else s
  let fl := getF s SYS_ACCERR.FLAGS
  setF s1 SYS_ACCERR.FLAGS (if bitOf fl (code - 1) then fl else fl + 2 ^ (code - 1))

/-- The sender's last system-wide message carried the own SYSTEM_ID, or another one (R14; log entry 118, DEDUCED). -/
def markForeign (s : State) (mac : Nat) (foreign : Bool) : State :=
  let l := s.zcp.foreign.filter (· != mac)
  { s with zcp := { s.zcp with foreign := if foreign then mac :: l else l } }

/-- The same for a peer that sends over Ethernet. -/
def markPeer (s : State) (p : Peer) (foreign : Bool) : State :=
  if p.tr = 1 ∨ p.tr = 2 then markForeign s p.mac foreign else s

/-! ## Pulses and latches -/

/-- A pulse bit is 1 for this cycle (R235). -/
def pulse (s : State) (a : Nat) : State :=
  if s.pulses.contains a then s else { s with pulses := a :: s.pulses }

/-- The latch of a requester for a group (R595). -/
def getLatch (s : State) (who group : Nat) : Option (List Nat) := (s.latches.lookup (who * 16 + group))

/-- A trigger read loads the requester's latch. -/
def setLatch (s : State) (who group : Nat) (v : List Nat) : State :=
  { s with latches := (who * 16 + group, v) :: s.latches.filter fun p => p.1 != who * 16 + group }

/-- The latches of a group are emptied. -/
def dropLatches (s : State) (group : Nat) : State :=
  { s with latches := s.latches.filter fun p => p.1 % 16 != group }

/-! ## Halt causes (R78) -/

/-- A halt cause arises: the lowest code of the cycle is kept, and each is journaled (R78, case 14 of chapter 3). -/
def halt (s : State) (code : Nat) : State :=
  if inMode s runModes then
    let s := journalInt s SYS_MODE.HALT_CAUSE.addr code
    { s with ms := { s.ms with haltPend := some (match s.ms.haltPend with | some c => min c code | none => code) } }
  else s

/-! ## Tasks (R214, R224) -/

/-- The task's part of the scheduler. -/
def task (s : State) (t : Nat) : TaskSt := nth TaskSt.init s.scan.tasks t

/-- A task between freeze and commit. -/
def frozen (s : State) (t : Nat) : Bool := (task s t).st == .running || (task s t).st == .launchWait

/-- The present cycle is quiet (R224). -/
def quiet (s : State) : Bool := (List.range 8).all fun t => !frozen s t

/-- The state with a task's part changed. -/
def updTask (s : State) (t : Nat) (f : TaskSt → TaskSt) : State :=
  { s with scan := { s.scan with tasks := upd s.scan.tasks t f } }

/-- A mark of the present cycle is set beside the units whose trigger input has been used. -/
def addMark (s : State) (m : Nat) : State := { s with core := { s.core with firedNow := m :: s.core.firedNow } }

/-! ## The data spaces (chapter 5) -/

/-- The system bits: each follows its source (R38, R66, R157, R176, R235, R269, R309, R399, R504, R559, and the tables of the owning chapters). -/
def sysBit (s : State) (a : Nat) : Bool :=
  let o := a - 0x30000
  if o < 4 then bitOf s.mode.code o
  else if o = 8 then s.ms.stopPending
  else if o < 0x100 then false
  else if o < 0x104 then bitOf (getF s TIM_STAT.TQ) (o - 0x100)
  else if o = 0x104 then isSet s TIM_STAT.TIME_VALID
  else if o = 0x105 then isSet s TIM_STAT.LOCKED
  else if o = 0x106 then isSet s TIM_STAT.HOLDOVER
  else if o = 0x107 then isSet s TIM_STAT.CAL_DERIVED
  else if o = 0x108 then isSet s TIM_STAT.LEAP_PENDING
  else if o = 0x109 then isSet s TIM_STAT.STEPPED
  else if o = 0x10A then isSet s TIM_STAT.SRC_DISAGREE
  else if o = 0x120 then isSet s PLB_STAT.TRACKING
  else if o = 0x121 then isSet s PLB_STAT.FREERUN
  else if o = 0x122 then s.plumb.rangeChg
  else if o = 0x123 then isSet s PLB_STAT.SLEW_LIMITED
  else if o = 0x124 ∨ o = 0x125 then bitOf (getF s PLB_STAT.RANGE) (o - 0x124)
  else if o = 0x200 then isSet s CORE_TAGSTAT.MISMATCH
  else if o = 0x201 then isSet s CORE_TAGSTAT.POISONED
  else if o = 0x202 then isSet s CORE_TAGSTAT.COERCED
  else if o = 0x203 then isSet s CORE_TAGSTAT.SQUASHED
  else if o = 0x204 then isSet s CORE_ECCCTL.UNCORR_SEEN
  else if o = 0x205 then isSet s CORE_ECCCTL.ROW_SEEN
  else if 0x300 ≤ o ∧ o < 0x308 then nth false s.core.cc (o - 0x300)
  else if 0x400 ≤ o ∧ o < 0x480 then
    let t := (o - 0x400) / 16
    match o % 16 with
    | 0 => (task s t).st == .pending
    | 1 => frozen s t
    | 2 => isSet s (SCN_TSTAT.OVERRUN t)
    | 3 => isSet s (SCN_TSTAT.LATE_COMMIT t)
    | _ => false
  else if o = 0x603 then quiet s
  else if o = 0x700 then isSet s TXN_STAT.STATE
  else if o = 0x703 then isSet s TXN_STAT.EDIT
  else if o = 0x800 then roleNow s == 1
  else if o = 0x801 then isSet s SBY_STAT.SYNC
  else if o = 0x802 then s.sby.present
  else if o = 0x900 ∨ o = 0x908 then getF s (CAN_STAT.ERRSTATE ((o - 0x900) / 8)) == 3
  else if o = 0x901 ∨ o = 0x909 then getF s (CAN_STAT.ERRSTATE ((o - 0x900) / 8)) == 2
  else if o = 0x902 ∨ o = 0x90A then 2 ≤ getF s (CAN_TTSTAT.STATE ((o - 0x900) / 8))
  else if o = 0x903 ∨ o = 0x90B then getF s (CAN_TTSTAT.STATE ((o - 0x900) / 8)) == 4
  else if o = 0xB00 then isSet s CAL_STAT.OSF
  else if o = 0xB01 then isSet s CAL_STAT.LBF
  else if o = 0xB02 then calDisc s
  else if o = 0xC00 then isSet s MON_STAT.TWARN
  else if o = 0xC01 then isSet s MON_STAT.VWARN
  else if o = 0xC02 then s.pwr.hot
  else if o = 0xC03 then isSet s PWR_AVSSTAT.FAULT
  else if o = 0xC04 then domOn s 11
  else if o = 0xC05 then isSet s TRC_CTRL.EN && domOn s 11
  else if o = 0xD00 then isSet s NVS_STAT.RESTORED
  else if o = 0xD01 then s.nv.holder.isSome || s.ms.wakeReload
  else s.pulses.contains a

/-- A bit of the live bit space, without a check (R127). -/
def rawBit (s : State) (a : Nat) : Bool :=
  if 0x30000 ≤ a ∧ a < 0x40000 then sysBit s a else sget false s.sp.bits a

/-- A word of the live word space, without a check (R131). -/
def rawWord (s : State) (a : Nat) : TWord := sget TWord.empty s.sp.words a

/-- Key of a word or bit of a frozen plane: task and address. -/
def planeKeyW (t a : Nat) : Nat := 16384 * t + a
@[inherit_doc planeKeyW] def planeKeyB (t a : Nat) : Nat := 65536 * t + a

/-- What a move of a task reads (R135), without a check; of the pulse bits it sees those of the cycle before (R108). -/
def taskBit (s : State) (t a : Nat) : Bool :=
  if a < 0x10000 then sget false s.sp.planeB (planeKeyB t a) else rawBit { s with pulses := s.pulsesPrev } a
@[inherit_doc taskBit] def taskWord (s : State) (t a : Nat) : TWord :=
  if a < 0x4000 then sget TWord.empty s.sp.planeW (planeKeyW t a) else rawWord s a

/-- Log key of a bit for R109: live bits at their address, plane bits beyond 2^20. -/
def bitLogKey (t a : Nat) : Nat := if a < 0x10000 then 2 ^ 20 + planeKeyB t a else a

/-- A bit has been written in this cycle (R109). -/
def logBit (s : State) (k : Nat) : State :=
  { s with core := { s.core with bitWrites := (k, s.core.cyc) :: s.core.bitWrites.filter fun p =>
      p.1 != k && s.core.cyc < p.2 + 3 } }

/-- A live bit takes a value; every address but the system bits is stored. -/
def putBit (s : State) (a : Nat) (v : Bool) : State :=
  logBit { s with sp := { s.sp with bits := sset false s.sp.bits a v } } a

/-- A live word takes a value. -/
def putWord (s : State) (a : Nat) (v : TWord) : State :=
  { s with sp := { s.sp with words := sset TWord.empty s.sp.words a v } }

/-- A plane bit or word takes a value. -/
def putPlaneB (s : State) (t a : Nat) (v : Bool) : State :=
  { s with sp := { s.sp with planeB := sset false s.sp.planeB (planeKeyB t a) v } }
@[inherit_doc putPlaneB] def putPlaneW (s : State) (t a : Nat) (v : TWord) : State :=
  { s with sp := { s.sp with planeW := sset TWord.empty s.sp.planeW (planeKeyW t a) v } }

/-! ## Error correction (R150 to R154) -/

/-- What lies at a location of a checked memory. -/
def eccAt (s : State) (m : MemId) (loc : Nat) : Ecc := (s.sp.upsets.lookup (m, loc)).getD .clean

/-- The location is clean again: it has been rewritten. -/
def eccClear (s : State) (m : MemId) (loc : Nat) : State :=
  { s with sp := { s.sp with upsets := s.sp.upsets.filter fun p => p.1 != (m, loc),
                             writeBack := s.sp.writeBack.filter fun p => p != (m, loc) } }

/-- Locations are clean again: what they hold has been rewritten as a whole. -/
def eccWipe (f : MemId → Nat → Bool) (s : State) : State :=
  { s with sp := { s.sp with upsets := s.sp.upsets.filter fun p => !f p.1.1 p.1.2,
                             writeBack := s.sp.writeBack.filter fun p => !f p.1 p.2 } }

/-- The program banks and the decode table. -/
def codeMem (m : MemId) (_ : Nat) : Bool := m == .bankA || m == .bankB || m == .dtable

/-- What a location of a code that corrects one bit and detects two makes of further flipped bits: with three or more the spec gives
no answer, and a free value `f` chooses (R150; log entry 129, DESIGN CHOICE). -/
def eccAfter (old : Ecc) (flips f : Nat) : Ecc :=
  let n := flips + match old with | .clean => 0 | .correctable => 1 | .uncorrectable => 2
  if n = 0 then .clean
  else if n = 1 then .correctable
  else if n = 2 then .uncorrectable
  else match f % 3 with | 0 => .clean | 1 => .correctable | _ => .uncorrectable

/-- Bits flip at a location of a checked memory (R150). -/
def upset (s : State) (m : MemId) (loc flips f : Nat) : State :=
  match eccAfter (eccAt s m loc) flips f with
  | .clean => eccClear s m loc
  | e => { s with sp := { s.sp with upsets := ((m, loc), e) :: s.sp.upsets.filter fun p => p.1 != (m, loc) } }

/-- A requester other than scrub finds a correctable error (R151). -/
def eccCorr (s : State) (m : MemId) (loc : Nat) : State :=
  let s := incSat s CORE_ECCCNT.CORR CORE_ECCCTL.CORR_OVF
  let s := if isSet s CORE_ECCCTL.CORR_EVT then raise s CORE_ECCCNT.CORR else s
  if s.sp.writeBack.contains (m, loc) then s
  else { s with sp := { s.sp with writeBack := s.sp.writeBack ++ [(m, loc)] } }

/-- The record of the first uncorrectable error (R154). -/
def eccRecord (s : State) (row : Bool) (finder addr : Nat) : State :=
  if isSet s CORE_ECCREC.VALID then s
  else setFs s [(CORE_ECCREC.VALID, 1), (CORE_ECCREC.SPACE, b2n row), (CORE_ECCREC.FINDER, finder),
    (CORE_ECCREC.ADDR, addr)]

/-- An uncorrectable word error is found: event, flag, record, and a count when scrub is not the finder (R152). -/
def eccUncorrWord (s : State) (finder a : Nat) : State :=
  let s := if finder = 3 then s else incSat s CORE_ECCCNT.UWORD CORE_ECCCTL.UNCORR_OVF
  eccRecord (setRaise s CORE_ECCCTL.UNCORR_SEEN 1) false finder a

/-- The POISON word of cause ECC (Table 5.5). -/
def poisonEcc (a : Nat) : TWord := mkT 15 (3 * 2 ^ 28 + a % 2 ^ 19)

/-- Rows of the bit space whose loss halts the device (R153): output image, program flags, retentive bits. -/
def haltRow (a : Nat) : Bool := (0x10000 ≤ a && a < 0x20000) || 0x40000 ≤ a

/-- The 64 bits of a row are written (R109). -/
def logRow (s : State) (a : Nat) : State := (List.range 64).foldl (fun s i => logBit s (a + i)) s

/-- An uncorrectable bit-row error is found (R153): the row reads 0 and is rewritten as 0; rows of 0x2_0000 to 0x3_FFFF come
back from their sources. `a` is the first bit of the row. -/
def eccUncorrRow (s : State) (finder a : Nat) : State :=
  let s := if finder = 3 then s else incSat s CORE_ECCCNT.UROW CORE_ECCCTL.UNCORR_OVF
  let s := eccRecord (setRaise s CORE_ECCCTL.ROW_SEEN 1) true finder a
  let s := logRow (if 0x20000 ≤ a ∧ a < 0x40000 then s
    else { s with sp := { s.sp with bits := sclear a (a + 64) s.sp.bits } }) a
  if haltRow a && isSet s CORE_ECCCTL.BIT_HALT then halt s 4 else s

/-- A requester other than the core uses the word space in this cycle (R84, R184). -/
def useWords (s : State) : State := { s with sp := { s.sp with wordUse := true } }

/-- A checked read of a live word, by a finder of Table 5.16 (0 the core, 1 a freeze or an outside writer, 2 the host, 3 scrub). -/
def readWord (s : State) (finder a : Nat) : TWord × State :=
  let s := if finder = 0 then s else useWords s
  match eccAt s .words a with
  | .clean => (rawWord s a, s)
  | .correctable => (rawWord s a, eccCorr s .words a)
  | .uncorrectable =>
    let s := putWord (eccClear (eccUncorrWord s finder a) .words a) a (poisonEcc a)
    (poisonEcc a, s)

/-- The row of a bit. -/
def rowOf (a : Nat) : Nat := a / 64 * 64

/-- A check of the row of a live bit before the row is read or one of its bits is written. -/
def checkRow (s : State) (finder a : Nat) : State :=
  match eccAt s .bits (rowOf a) with
  | .clean => s
  | .correctable => eccCorr s .bits (rowOf a)
  | .uncorrectable => eccClear (eccUncorrRow s finder (rowOf a)) .bits (rowOf a)

/-- A checked read of a live bit; an access that finds an uncorrectable row reads 0 (R153). -/
def readBit (s : State) (finder a : Nat) : Bool × State :=
  let lost := eccAt s .bits (rowOf a) == .uncorrectable
  let s := checkRow s finder a
  (!lost && rawBit s a, s)

/-- A checked read of a word as a move of a task sees it: plane or live (R135, R152). -/
def readTaskWord (s : State) (t a : Nat) : TWord × State :=
  if a < 0x4000 then
    match eccAt s .planeW (planeKeyW t a) with
    | .clean => (taskWord s t a, s)
    | .correctable => (taskWord s t a, eccCorr s .planeW (planeKeyW t a))
    | .uncorrectable =>
      (poisonEcc a, putPlaneW (eccClear (eccUncorrWord s 0 a) .planeW (planeKeyW t a)) t a (poisonEcc a))
  else readWord s 0 a

/-- A check of the row that holds a bit of a task's view. -/
def checkTaskRow (s : State) (t a : Nat) : State :=
  if a < 0x10000 then
    let row := planeKeyB t (rowOf a)
    match eccAt s .planeB row with
    | .clean => s
    | .correctable => eccCorr s .planeB row
    | .uncorrectable =>
      let s := incSat s CORE_ECCCNT.UROW CORE_ECCCTL.UNCORR_OVF
      let s := eccRecord (setRaise s CORE_ECCCTL.ROW_SEEN 1) true 0 (rowOf a)
      eccClear { s with sp := { s.sp with planeB := sclear row (row + 64) s.sp.planeB } } .planeB row
  else checkRow s 0 a

/-- A checked read of a bit as a move of a task sees it; an access that finds an uncorrectable row reads 0 (R153). -/
def readTaskBit (s : State) (t a : Nat) : Bool × State :=
  let lost := 0x10000 ≤ a && eccAt s .bits (rowOf a) == .uncorrectable
  let s := checkTaskRow s t a
  (!lost && taskBit s t a, s)

/-! ## Writers (R128, R149, R232) -/

/-- The rank of a writer: of several that write one location in one cycle the one of lowest rank leaves its value (R149). The
device's own writes come first, then the classifier, the field hub, Plumb, core operations, the host port and ZCP, scrub. -/
def rankDev : Nat := 0
@[inherit_doc rankDev] def rankCls : Nat := 1
@[inherit_doc rankDev] def rankHub : Nat := 2
@[inherit_doc rankDev] def rankPlumb : Nat := 3
@[inherit_doc rankDev] def rankHost : Nat := 2 ^ 90
@[inherit_doc rankDev] def rankScrub : Nat := 2 ^ 91

/-- The rank of a core operation: the one fired latest comes first, then the higher unit number, then the higher slot (R149). -/
def rankCore (fire unit slot : Nat) : Nat := 16 + ((2 ^ 64 - fire) * 64 + (63 - unit)) * 8 + (7 - slot)

/-- Key of a bit, and of a word, of a task's view among the locations written in this cycle. -/
def wrBit (t a : Nat) : Nat := 2 * bitLogKey t a
@[inherit_doc wrBit] def wrWord (t a : Nat) : Nat := 2 * (if a < 0x4000 then 2 ^ 20 + planeKeyW t a else a) + 1

/-- No writer that comes first has written the location in this cycle (R149). -/
def mayWrite (s : State) (key rank : Nat) : Bool :=
  match s.sp.written.lookup key with
  | some r => rank ≤ r
  | none => true

/-- A writer has written the location in this cycle. -/
def noteWrite (s : State) (key rank : Nat) : State :=
  { s with sp := { s.sp with written := (key, rank) :: s.sp.written.filter fun p => p.1 != key } }

/-- A live bit is written: its row is checked and good again afterwards (R151). -/
def setBit (s : State) (finder a : Nat) (v : Bool) : State := eccClear (putBit (checkRow s finder a) a v) .bits (rowOf a)

/-- The device writes a bit it owns (R149). -/
def devBit (s : State) (a : Nat) (v : Bool) : State := noteWrite (setBit s 1 a v) (2 * a) rankDev

/-- A block outside the core, the host or ZCP writes a live word; the write makes the location good (R149, R151). -/
def writeWord (rank : Nat) (s : State) (a : Nat) (v : TWord) : State :=
  let s := if rank < 4 ∨ rankHost ≤ rank then useWords s else s
  if mayWrite s (2 * a + 1) rank then eccClear (putWord (noteWrite s (2 * a + 1) rank) a v) .words a else s

/-- A location is loaded with a word from outside the run of the machine, as a boot or a transfer does. -/
def loadWord (s : State) (a : Nat) (v : TWord) : State := eccClear (putWord s a v) .words a

/-- Words at given addresses, checked (finder 1). -/
def readAll (s : State) : List Nat → List TWord × State
  | [] => ([], s)
  | a :: rest =>
    let (v, s) := readWord s 1 a
    let (vs, s) := readAll s rest
    (v :: vs, s)

/-- Consecutive bits of one row as one access reads them, checked. -/
def readBits (s : State) (finder a n : Nat) : List Bool × State :=
  let lost := eccAt s .bits (rowOf a) == .uncorrectable
  let s := checkRow s finder a
  ((List.range n).map fun i => !lost && rawBit s (a + i), s)

/-- A block outside the core writes a live bit (R149). -/
def writeBit (rank : Nat) (s : State) (a : Nat) (v : Bool) : State :=
  if mayWrite s (2 * a) rank then setBit (noteWrite s (2 * a) rank) 1 a v else s

/-- What a move or the host may do to a bit of the station region (R232, Table 8.6): WRFAIL and CPN_WRFAIL are cleared by
0, REARM is written. -/
def stnBitTakes (a : Nat) (v : Bool) : Bool :=
  let o := a % 256
  o == 3 || ((o == 1 || (8 ≤ o && o < 16)) && !v)

/-- A write of a live bit by a move or the host (R127, R128, R149). -/
def userWriteBit (rank : Nat) (s : State) (finder a : Nat) (v : Bool) : State :=
  if 0x30000 ≤ a ∧ a < 0x40000 then s
  else if (0x20000 ≤ a ∧ a < 0x30000 ∧ !stnBitTakes a v) ∨ !mayWrite s (2 * a) rank then s
  else setBit (noteWrite s (2 * a) rank) finder a v

/-- A write of a bit by an operation of a task: plane or live (R135, R149). -/
def moveWriteBit (rank : Nat) (s : State) (t a : Nat) (v : Bool) : State :=
  if a < 0x10000 then
    (if mayWrite s (wrBit t a) rank then
      logBit (eccClear (putPlaneB (checkTaskRow (noteWrite s (wrBit t a) rank) t a) t a v) .planeB (planeKeyB t (rowOf a)))
        (bitLogKey t a)
    else s)
  else userWriteBit rank s 0 a v

/-- A write of a word by an operation of a task: plane or live (R135, R149). -/
def moveWriteWord (rank : Nat) (s : State) (t a : Nat) (v : TWord) : State :=
  if a < 0x4000 then
    (if mayWrite s (wrWord t a) rank then
      eccClear (putPlaneW (noteWrite s (wrWord t a) rank) t a v) .planeW (planeKeyW t a)
    else s)
  else writeWord rank s a v

/-- A tag from outside the core: tag 0 stores payload 0 (R134). -/
def outsideWord (tag : Nat) (v : Word) : TWord := if tag % 16 = 0 then TWord.empty else ⟨BitVec.ofNat 4 tag, v⟩

/-- The data spaces outside the retentive region as a reset leaves them (R137, R156). -/
def clearSpaces (s : State) : State :=
  let wipe (m : MemId) (loc : Nat) : Bool :=
    (m == .words && loc < 0x7E000) || (m == .bits && loc < 0xF0000) || m == .planeW || m == .planeB
  eccWipe wipe { s with sp := { s.sp with
    bits := s.sp.bits.filter fun p => 0xF0000 ≤ p.1, words := s.sp.words.filter fun p => 0x7E000 ≤ p.1,
    planeB := [], planeW := [] } }

/-- Epoch a is higher than epoch b (R280). -/
def epochHigher (a b : Nat) : Bool :=
  let d := (a + 65536 - b % 65536) % 65536
  0 < d && d < 32768

/-! ## Checks of bytes -/

/-- One byte into a reflected CRC-32. -/
def crc32Byte (c : Nat) (b : Byte) : Nat :=
  (List.range 8).foldl (fun x _ => if x % 2 = 1 then (x / 2) ^^^ 0xEDB88320 else x / 2) (c ^^^ b.toNat)

/-- The CRC-32 of IEEE 802.3: initial value all ones, reflected, final inversion (R209, R508). -/
def crc32 (bs : List Byte) : Nat := bs.foldl crc32Byte 0xFFFFFFFF ^^^ 0xFFFFFFFF

/-- The bytes of a word, least significant first. -/
def leBytes (v : Nat) : List Byte := (List.range 4).map fun i => BitVec.ofNat 8 (v / 256 ^ i)

/-- The difference of two counts modulo 2^32, by the half-range rule: `a` is newer than `b` (R47, R511). -/
def newer (a b : Nat) : Bool :=
  let d := (a + 2 ^ 32 - b % 2 ^ 32) % 2 ^ 32
  0 < d && d < 2 ^ 31

end Sys2Proof.Machine
end

