-- ==== Sys2Proof/Machine/Notice.lean ====
section
/-!
DEFINITION. What every block may need of the command protocol and of the standby stream: reply packets and completion
notices (spec/18_command_protocol.md, R508, R515, R523), sequenced frames and stream events of the standby link
(spec/10_hot_standby.md, R275, R284, R291).
-/

namespace Sys2Proof.Machine

open Reg

/-! ## Packets (R508, Table 18.2) -/

/-- A packet: header, data, CRC; a reply carries the VERSION of its request. -/
def zcpPacketOf (version flags session seq opcode status : Nat) (data : List Byte) : List Byte :=
  let b := beBytes 2 0x5A43 ++ [BitVec.ofNat 8 version, BitVec.ofNat 8 flags] ++ beBytes 2 session ++ beBytes 4 seq ++ beBytes 2 opcode ++
    beBytes 2 status ++ beBytes 2 data.length ++ data
  b ++ beBytes 4 (crc32 b)

/-- A packet of VERSION 0x01. -/
def zcpPacket (flags session seq opcode status : Nat) (data : List Byte) : List Byte :=
  zcpPacketOf 1 flags session seq opcode status data

/-- A packet leaves for its peer: over SPI into the SPI queue, otherwise into the queue of its transport. -/
def sendPacket (s : State) (p : Peer) (bytes : List Byte) : State :=
  if p.tr = 3 then { s with zcp := { s.zcp with spiQueue := s.zcp.spiQueue ++ [bytes] } }
  else { s with zcp := { s.zcp with outbox := s.zcp.outbox ++ [{ peer := p, bytes := bytes }] } }

/-- A packet arrives on a transport that serves ZCP: it enters the input queue of 16 packets, or is discarded and counted
(R512). -/
def zcpArrive (s : State) (p : Peer) (bytes : List Byte) : State :=
  if s.zcp.queue.length < 16 then { s with zcp := { s.zcp with queue := s.zcp.queue ++ [{ peer := p, bytes := bytes }] } }
  else incStop s ZCP_CNT1.QDROP

/-! ## Long operations (R515) -/

/-- The slot of the operation table. -/
def opSlot (s : State) (i : Nat) : OpSlot := nth OpSlot.init s.zcp.ops i

/-- The state with a slot changed. -/
def updOp (s : State) (i : Nat) (f : OpSlot → OpSlot) : State :=
  { s with zcp := { s.zcp with ops := upd s.zcp.ops i f } }

/-- The handle of a slot. -/
def opHandle (s : State) (i : Nat) : Nat := i + (opSlot s i).gen * 256

/-- The completion notice of an ended operation. -/
def noticeBytes (s : State) (i : Nat) : List Byte :=
  let o := opSlot s i
  zcpPacket 0xC0 o.session o.seq o.opcode o.status (beBytes 2 (opHandle s i) ++ o.result)

/-- The notice is sent, or waits in its slot while the SPI queue is full (R523). -/
def sendNotice (s : State) (i : Nat) : State :=
  if (opSlot s i).peer.tr = 3 ∧ 4 ≤ s.zcp.spiQueue.length then updOp s i fun o => { o with noticeWaits := true }
  else updOp (sendPacket s (opSlot s i).peer (noticeBytes s i)) i fun o => { o with noticeWaits := false }

/-- A running operation ends with a status and a result. -/
def opEnd (s : State) (i : Nat) (status : Nat) (result : List Byte) : State :=
  if (opSlot s i).st = 1 then
    sendNotice (updOp s i fun o => { o with st := 2, status := status, result := result }) i
  else s

/-- The end of an operation that may have no slot. -/
def opEnd? (s : State) (i : Option Nat) (status : Nat) (result : List Byte) : State :=
  match i with
  | some i => opEnd s i status result
  | none => s

/-! ## The standby link: sequenced frames and stream events -/

/-- Bytes that a stream event takes in an EVT frame (log entry 8, DEDUCED). -/
def evBytes : StreamEv → Nat
  | .trig _ _ => 16
  | .freeze _ _ _ bits words => 24 + 5 * bits.length + 9 * words.length
  | .ext _ _ _ _ => 16
  | .writeBit _ _ _ => 8
  | .writeWord _ _ => 12
  | .tmu _ _ _ _ => 12
  | .taskEnd _ _ _ => 16
  | .commit _ => 4
  | .txn regs patches _ news _ => 16 + 8 * regs.length + 8 * patches.length + 12 * news.length
  | .editBegin => 4
  | .mark _ _ => 4

/-- Payload bytes of a frame (Table 10.2; log entry 8, DEDUCED). -/
def payBytes : SblPay → Nat
  | .hb _ => 16
  | .timex b => b.length
  | .ack _ => 2
  | .nak _ => 2
  | .evt _ ev i => min 1024 (8 + evBytes ev - 1024 * i)
  | .xfer _ _ => 1024
  | .xctl => 0
  | .zcp b => b.length
  | .neg _ _ _ => 8
  | .handover => 0
  | .rstreq => 0

/-- Bytes of the transmit buffer in use (R275). -/
def txUsed (s : State) : Nat := (s.sby.tx.map fun f => 16 + payBytes f.pay).sum

/-- The transmit buffer of 256 KiB takes a sequenced frame. -/
def txRoom (s : State) (p : SblPay) : Bool := txUsed s + 16 + payBytes p ≤ 262144

/-- A sequenced frame enters the transmit buffer (R275). -/
def pushSeq (s : State) (p : SblPay) : State :=
  { s with sby := { s.sby with
      tx := s.sby.tx ++ [{ lseq := s.sby.txSeq, pcyc := s.core.cyc, pay := p }],
      txSeq := (s.sby.txSeq + 1) % 65536 } }

/-- The link may be up: D9 is on, in a mode from BOOT to HOLD, and SBL is neither disabled nor under test (R81, R83, R278). -/
def sblOn (s : State) : Bool := !absent s && domOn s 9 && !s.ms.sblOff && !testing s 9

/-- The standby link is UP (Table 10.10). -/
def linkUp (s : State) : Bool := getF s SBY_STAT.LINK == 2

/-- The link carries ZCP: it is UP, or MISMATCH, or joins a unit that has no partner (R271, R276). -/
def zcpLink (s : State) : Bool := decide (2 ≤ getF s SBY_STAT.LINK)

/-- Training of a link that is DOWN starts again at once: LINK reads TRAINING from the next cycle on (R276; log entry 137, DEDUCED). -/
def sblTrain (s : State) : State := if sblOn s && getF s SBY_STAT.LINK == 0 then setF s SBY_STAT.LINK 1 else s

/-- The frames that carry a stream event: a payload holds at most 1,024 bytes (R274). -/
def evFrames (cyc : Nat) (ev : StreamEv) : List SblPay := (List.range ((8 + evBytes ev + 1023) / 1024)).map (.evt cyc ev)

/-- A stream event of the primary; with no room it and all later ones are dropped (R284, R291). -/
def streamEv (s : State) (ev : StreamEv) : State :=
  if !s.sby.streaming || s.sby.dropping then s
  else
    let fs := evFrames s.core.cyc ev
    if txUsed s + (fs.map fun p => 16 + payBytes p).sum ≤ 262144 then fs.foldl pushSeq s
    else setF { s with sby := { s.sby with dropping := true, lossMark := true, dropCyc := s.core.cyc } } SBY_STAT.STREAM_LOST 1

/-- An unsynchronised secondary requests a state transfer, when the transmit buffer takes the request (R275, R293 step 1; case 8). -/
def requestXfer (s : State) : State :=
  if s.sby.xferRx || !linkUp s || !txRoom s .xctl then s
  else
    let s1 := pushSeq s .xctl
    setFs { s1 with sby := { s1.sby with xferRx := true, got := [], replaying := false, events := [], marked := false } }
      [(SBY_STAT.XFER, 1), (SBY_XFER.STATE, 1)]

/-- AUTO_SYNC: a unit in TRACK, unsynchronised, whose partner is in RUN or RUN_EDIT requests a transfer; not after a divergence under
DIV_POL MARK (R290, R293). -/
def autoSync (s : State) : State :=
  if s.mode == .track && !s.sby.marked && isSet s SBY_CFG.AUTO_SYNC && !isSet s SBY_STAT.SYNC && s.sby.present &&
      (getF s SBY_STAT.PMODE == 6 || getF s SBY_STAT.PMODE == 7) && !s.sby.replaying then requestXfer s
  else s

end Sys2Proof.Machine
end

