-- ==== Sys2Proof/Machine/Posted.lean ====
section
/-!
DEFINITION. Posted writes and their failure log (spec/08_scan_and_image.md, R230 to R232).
-/

namespace Sys2Proof.Machine

open Reg

/-- The kind of a failure for the bits of Table 8.6 and the log: 1 FIELD, 2 STATION, 3 PUBLISH, 4 BUS. -/
def wrFail (s : State) (p : Posted) : State :=
  match p.kind with
  | 1 => devBit s (stnBit (ownStn s) (8 + p.target % 8)) true
  | 2 => devBit s (stnBit p.target 1) true
  | _ => devBit s (stnBit (ownStn s) 1) true

/-- A posted-write failure of a cause of Table 8.5 (R230, R231): logged if there is room, WRFAIL or CPN_WRFAIL sets, PWLOG
pulses. -/
def postedFail (s : State) (p : Posted) (cause : Nat) : State :=
  let s := if s.scan.pwlog.length < 64 then { s with scan := { s.scan with pwlog := s.scan.pwlog ++ [(p, cause)] } }
    else incSat s SCN_PWSTAT.LOST SCN_PWSTAT.LOST_OVF
  pulse (wrFail s p) 0x30600

/-- Several failures of one cause, in order. -/
def postedFails (s : State) (ps : List Posted) (cause : Nat) : State := ps.foldl (fun s p => postedFail s p cause) s

/-- Posted writes whose outcome is decided now leave the list; those that fail are logged with a cause (R230). -/
def postedDone (s : State) (which : Posted → Bool) (cause : Option Nat) : State :=
  let out := s.scan.posted.filter which
  let s := { s with scan := { s.scan with posted := s.scan.posted.filter fun p => !which p } }
  match cause with
  | some c => postedFails s out c
  | none => s

/-- PWLOG_CLEAR (R231): 1 written to SCN_PWCTL.CLR. -/
def execPwlogClear (s : State) : Host.Outcome State Fault Refusal :=
  .next (if absent s || !domOn s 2 then s else { s with scan := { s.scan with pwlog := [] } })

end Sys2Proof.Machine
end

