-- ==== Sys2Proof/Machine/Bus.lean ====
section
/-!
DEFINITION. The priority-arbitrated bus controllers C0 and C1 as every block needs them (spec/13_priority_bus.md): what a mode
lets a controller do (R396), transmit buffers and message objects (R376, R379 to R382), bus-off (R383), reinitialisation
(R397).
-/

namespace Sys2Proof.Machine

open Reg

/-- A controller's part of the state. -/
def canSt (s : State) (n : Nat) : CanSt := nth CanSt.init s.can n

/-- The state with a controller's part changed. -/
def updCan (s : State) (n : Nat) (f : CanSt → CanSt) : State := { s with can := upd s.can n f }

/-! ## Modes (Table 13.3) -/

/-- The controller runs: enabled, D8 on, not disabled by SELFTEST, not in its loopback test (R368, Table 3.7). -/
def canRuns (s : State) (n : Nat) : Bool :=
  n < 2 && isSet s (CAN_CTRL.EN n) && domOn s 8 && !s.ms.canOff.contains n && !testing s 8 &&
    (match s.mode with
    | .off | .backup | .reset => false
    | .boot => s.ms.bootLoaded
    | _ => true)

/-- The mode lets ZCP segments be sent. -/
def canZcpMode (s : State) : Bool :=
  match s.mode with
  | .boot => s.ms.bootLoaded
  | .selftest | .stop | .safeHalt | .run | .runEdit | .track | .takeover => true
  | _ => false

/-- The mode lets the program path send. -/
def canProgMode (s : State) : Bool := s.mode == .run || s.mode == .runEdit

/-- The time-triggered role of a controller in a mode: 0 none, 1 follower, 2 potential master. -/
def ttRole (s : State) (n : Nat) (m : Mode) : Nat :=
  if !isSet s (CAN_CTRL.MODE n) then 0
  else
    let full := if isSet s (CAN_TTCFG.MASTER n) then 2 else 1
    match m with
    | .boot => if s.ms.bootLoaded then 1 else 0
    | .selftest | .track | .takeover => 1
    | .stop | .safeHalt => if isSet s (CAN_CTRL.REF_IN_STOP n) then full else 1
    | .run | .runEdit => full
    | _ => 0

/-! ## Buffers (R376, R382) -/

/-- LAST of a buffer (Table 13.7). -/
def canLast (n b : Nat) : Fld :=
  match b with
  | 0 => CAN_TBSTAT.LAST_0 n
  | 1 => CAN_TBSTAT.LAST_1 n
  | _ => CAN_TBSTAT.LAST_2 n

/-- A transmit buffer. -/
def canTb (s : State) (n b : Nat) : CanTb := nth CanTb.init (canSt s n).tbs b

/-- The state with a buffer changed. -/
def updTb (s : State) (n b : Nat) (f : CanTb → CanTb) : State := updCan s n fun c => { c with tbs := upd c.tbs b f }

/-- The posted writes of an object of a controller whose data a place holds: `ref` 0 none yet, 1 + b TBb, 4 the exclusive
window (R380, R381). -/
def busPosted (n j ref : Nat) (p : Posted) : Bool := p.kind == 4 && p.target == 32 * n + j && p.ref == ref

/-- The data of an object has been taken from its data words into a place. -/
def busTake (s : State) (n j ref : Nat) : State :=
  { s with scan := { s.scan with posted := s.scan.posted.map fun p => if busPosted n j 0 p then { p with ref := ref } else p } }

/-- The segments of a ZCP reply after one of them: the rest of its packet goes (R382). -/
def dropPacket (last : Bool) (l : List CanFrame) : List CanFrame :=
  if last then l
  else (l.dropWhile fun f => !bitOf (nth 0 f.data 0).toNat 6).drop 1

/-- A buffer is released without completing: LAST takes a code of Table 13.7; a program frame counts, an object logs BUS_FAIL,
a segment takes the rest of its packet with it (R379, R381 to R383). -/
def canRelease (s : State) (n b last : Nat) : State :=
  let tb := canTb s n b
  let s := updTb s n b fun _ => CanTb.init
  match tb.frame with
  | none => if tb.reserved then incSat s (CAN_CNT1.TXDROP n) (CAN_STAT.CNT_OVF n) else s
  | some (f, src) =>
    let s := setF s (canLast n b) last
    match src with
    | .prog => incSat s (CAN_CNT1.TXDROP n) (CAN_STAT.CNT_OVF n)
    | .obj j => postedDone s (busPosted n j (1 + b)) (some 6)
    | .zcp => updCan s n fun c => { c with zcpTx := dropPacket (bitOf (nth 0 f.data 0).toNat 6) c.zcpTx }

/-- Pending requests are cleared; they log BUS_FAIL (R383, R396). -/
def canClearPending (s : State) (n : Nat) : State :=
  let js := (canSt s n).pending
  js.foldl (fun s j => postedDone s (busPosted n j 0) (some 6)) (updCan s n fun c => { c with pending := [] })

/-- The frame of the exclusive window is lost (R389). -/
def canLoseExcl (s : State) (n : Nat) : State :=
  match (canSt s n).excl with
  | some (j, _, _) => postedDone (updCan s n fun c => { c with excl := none }) (busPosted n j 4) (some 6)
  | none => s

/-- A program-path frame that is not in an attempt is discarded on a mode change (R396). -/
def canModeDrop (s : State) (n : Nat) : State :=
  let s := [0, 1].foldl (fun s b =>
    if (canTb s n b).frame.isSome && !(canTb s n b).attempt then canRelease s n b 5 else s) s
  let s := canClearPending s n
  if (canSt s n).att == some .excl then s else canLoseExcl s n

/-- Every buffer, pending object and window frame is released, and the schedule stops (R383, R397). -/
def canReleaseAll (s : State) (n last : Nat) : State :=
  let s := [0, 1, 2].foldl (fun s b => canRelease s n b last) s
  let s := canLoseExcl (canClearPending s n) n
  let s := updCan s n fun c => { c with att := none, refWait := none, reinit := false }
  setF s (CAN_TTSTAT.STATE n) (if isSet s (CAN_CTRL.MODE n) && isSet s (CAN_CTRL.EN n) then 1 else 0)

/-- The controller is reinitialised now: it integrates again (R397). -/
def canReinitNow (s : State) (n : Nat) : State := setF (canReleaseAll s n 6) (CAN_STAT.ERRSTATE n) 0

/-- A reinitialisation: the frame that the controller sends is finished first (R397). -/
def canReinit (s : State) (n : Nat) : State :=
  if (canSt s n).att.isSome then updCan s n fun c => { c with reinit := true } else canReinitNow s n

/-- Entry into a mode from another (R396, R397). -/
def busMode (s : State) (prev : Mode) : State :=
  [0, 1].foldl (fun s n =>
    let s := if canProgMode s then s else canModeDrop s n
    if ttRole s n prev = ttRole s n s.mode then s else canReinit s n) s

/-! ## Message objects (R380) -/

/-- The registers of the committed schedule and objects (R388, R391): TTBASE's upper seconds as now. -/
def schedOf (s : State) (n : Nat) : TtSched :=
  let ws := (List.range 32).takeWhile fun w => isSet s (CAN_TM.VALID n w)
  let mcyc := 2 ^ getF s (CAN_TTCFG.MCYCE n)
  { bclen := getF s (CAN_TTCFG.BCLEN n), txen := getF s (CAN_TTCFG.TXENM1 n) + 1, watch := getF s (CAN_TTWATCH.NTU n)
    base := (taiSec s.time.tai / 2 ^ 32 * 2 ^ 32 + getF s (CAN_TTBASE_S.SEC n)) * 1000000000 + getF s (CAN_TTBASE_NS.NS n)
    mcyc := mcyc, marks := ws.map fun w => getF s (CAN_TM.TM n w)
    cells := (List.range mcyc).flatMap fun c => ws.filterMap fun w =>
      let v := getF s (CAN_CELL.TYPE n c w) * 32 + getF s (CAN_CELL.OBJ n c w)
      if v = 0 then none else some (32 * c + w, v)
    objs := (List.range 32).filterMap fun j => if isSet s (CAN_OBJ_CFG.EN n j) then
        some (j, [getF s (CAN_OBJ_CFG.FD n j), getF s (CAN_OBJ_CFG.BRS n j), getF s (CAN_OBJ_CFG.IDE n j),
          getF s (CAN_OBJ_CFG.EVT n j), getF s (CAN_OBJ_CFG.LEN n j), getF s (CAN_OBJ_ID.ID n j)])
      else none }

/-- The schedule and the objects of a controller take their committed configuration. -/
def canLoadSched (s : State) (n : Nat) : State :=
  let g := schedOf s n
  updCan s n fun c => { c with sched := g, schedWait := false }

/-- The configuration in force of an object: FD, BRS, IDE, EVT, LEN, identifier. -/
def objCfg (s : State) (n j : Nat) : Option (List Nat) := (canSt s n).sched.objs.lookup j

/-- The data bytes of an object (byte order of Table 13.1). -/
def objBytes (s : State) (n j len : Nat) : List Byte :=
  (List.range len).map fun i => BitVec.ofNat 8 (getF s (CAN_OBJ_DATA.W n j (i / 4)) / 256 ^ (i % 4))

/-- The data length code of a number of bytes. -/
def dlcOf (len : Nat) : Nat :=
  if len ≤ 8 then len else if len ≤ 12 then 9 else if len ≤ 16 then 10 else if len ≤ 20 then 11 else if len ≤ 24 then 12
  else if len ≤ 32 then 13 else if len ≤ 48 then 14 else 15

/-- The frame of an object with its data as it stands. -/
def objFrame (s : State) (n j : Nat) : Option CanFrame :=
  (objCfg s n j).map fun c =>
    let len := nth 0 c 4
    { id := nth 0 c 5 % (if nth 0 c 2 = 1 then 2 ^ 29 else 2 ^ 11), ide := nth 0 c 2 == 1, rtr := false, fd := nth 0 c 0 == 1,
      brs := nth 0 c 1 == 1, esi := getF s (CAN_STAT.ERRSTATE n) == 2, dlc := dlcOf len, data := objBytes s n j len }

/-- A program-path buffer that is free: TB0 before TB1. -/
def canFree (s : State) (n : Nat) : Option Nat :=
  [0, 1].find? fun b => (canTb s n b).frame.isNone && !(canTb s n b).reserved

/-- Pending objects take free program-path buffers, the lowest number first (R376). -/
def canLoad (s : State) (n : Nat) : State :=
  [0, 1].foldl (fun s _ =>
    match canFree s n, (canSt s n).pending.foldl (fun m j => some (match m with | some k => min k j | none => j)) none with
    | some b, some j =>
      let s' := updCan s n fun c => { c with pending := c.pending.filter (· != j) }
      (match objFrame s n j with
      | some f =>
        let s' := updCan s' n fun c => { c with loaded := (j, f.data) :: c.loaded.filter fun p => p.1 != j }
        busTake (updTb s' n b fun _ => { CanTb.init with frame := some (f, .obj j) }) n j (1 + b)
      | none => postedDone s' (busPosted n j 0) (some 6))
    | _, _ => s) s

/-- The supervisor loads the next ZCP segment into TB2 (R395). -/
def canLoadZcp (s : State) (n : Nat) : State :=
  if (canTb s n 2).frame.isNone && canZcpMode s then
    match (canSt s n).zcpTx with
    | f :: rest => updCan (updTb s n 2 fun _ => { CanTb.init with frame := some (f, .zcp) }) n fun c => { c with zcpTx := rest }
    | [] => s
  else s

/-- Some EXCLUSIVE cell of the schedule in force names an object. -/
def objExclusive (s : State) (n j : Nat) : Bool :=
  isSet s (CAN_CTRL.MODE n) && (canSt s n).sched.cells.any fun p => p.2 == 32 + j

/-- A commit has written an object's data words: posted writes enter, and the request of R380 is made. `posts` are the posted
writes of the entries that fed the object. -/
def objRequest (s : State) (n j : Nat) (posts : List Posted) : State :=
  match objCfg s n j with
  | none => s
  | some c =>
    let bytes := objBytes s n j (nth 0 c 4)
    let evt := nth 0 c 3
    let add (s : State) := { s with scan := { s.scan with posted := s.scan.posted ++ posts.map fun p => { p with ref := 0 } } }
    if objExclusive s n j then add s
    else if evt = 2 ∨ (evt = 1 ∧ (canSt s n).loaded.lookup j ≠ some bytes) then
      if getF s (CAN_STAT.ERRSTATE n) = 3 ∨ !canProgMode s then postedFails s posts 6
      else
        let s := if (canSt s n).pending.contains j then postedDone s (busPosted n j 0) (some 7) else s
        let s := updCan s n fun c => { c with pending := j :: c.pending.filter (· != j) }
        canLoad (add s) n
    else s

/-- Bytes of an object's data words are written (R380, R381). -/
def objWrite (s : State) (n j : Nat) (bs : List (Nat × Byte)) : State :=
  bs.foldl (fun s p =>
    let f := CAN_OBJ_DATA.W n j (p.1 / 4)
    let v := getF s f
    let sh := 256 ^ (p.1 % 4)
    setF s f (v / (sh * 256) * (sh * 256) + p.2.toNat * sh + v % sh)) s

/-! ## SEND_CAN (R379) -/

/-- SEND_CAN at its firing: a reserved program-path buffer, or none (FULL). -/
def canReserve (s : State) (n : Nat) : Option Nat × State :=
  if getF s (CAN_STAT.ERRSTATE n) = 3 then (none, s)
  else match canFree s n with
    | some b => (some b, updTb s n b fun t => { t with reserved := true })
    | none => (none, s)

/-- The end of the copy: the frame enters its buffer; where the mode or the controller no longer lets it, it counts as
dropped. -/
def canEnter (s : State) (n b : Nat) (f : CanFrame) : State :=
  if !(canTb s n b).reserved then s
  else
    let s := updTb s n b fun _ => { CanTb.init with frame := some (f, .prog) }
    if canProgMode s then s else canRelease s n b 5

/-- A segmented ZCP reply for a peer number (R393, R395): at most 6 bytes a segment in classical frames, 62 in FD. -/
def canSendZcp (s : State) (n peer : Nat) (bytes : List Byte) : State :=
  let (fd, brs) := ((canSt s n).zcpFmt.lookup peer).getD (false, false)
  let per := if fd then 62 else 6
  let count := (bytes.length + per - 1) / per
  let seg (i : Nat) : CanFrame :=
    let part := (bytes.drop (i * per)).take per
    let head := BitVec.ofNat 8 ((if i = 0 then 128 else 0) + (if i + 1 = count then 64 else 0) + i % 64)
    let body := head :: BitVec.ofNat 8 peer :: part
    let d := dlcOf body.length
    let len := if d ≤ 8 then d else nth 64 [12, 16, 20, 24, 32, 48, 64] (d - 9)
    { id := getF s (CAN_ZCP_TX.ID n), ide := isSet s (CAN_ZCP_TX.IDE n), rtr := false, fd := fd, brs := brs,
      esi := getF s (CAN_STAT.ERRSTATE n) == 2, dlc := d, data := body ++ List.replicate (len - body.length) 0 }
  canLoadZcp (updCan s n fun c => { c with zcpTx := c.zcpTx ++ (List.range count).map seg }) n

end Sys2Proof.Machine
end

