-- ==== Sys2Proof/Machine/Trace.lean ====
section
/-!
DEFINITION. Trace (spec/19_power_health_trace.md, R545 to R554): packets, the FIFO and its drain, the buffer. The event of a
packet is the present core cycle; the packets of a cycle are emitted at its end.
-/

namespace Sys2Proof.Machine

open Reg

/-- Trace records (R545; test 13 and a failed test 13 of Tables 3.6a and 3.7 stop it). -/
def trcOn (s : State) : Bool :=
  isSet s TRC_CTRL.EN && domOn s 11 && !s.ms.traceOff && s.ms.selftest != some 13 &&
    (s.ms.demandTest.map (·.1)) != some 13

/-- Words at the end of the FIFO. -/
def trcPush (s : State) (ws : List Nat) : State :=
  { s with trc := { s.trc with fifo := s.trc.fifo ++ ws.map (BitVec.ofNat 32) } }

/-- A SYNC packet (Table 19.3): number, TAI, CORE_CYC. -/
def trcSyncWords (s : State) : List Nat :=
  [0x10000000 + s.trc.syncNo % 65536, taiSec s.time.tai % 2 ^ 32, tlo (classNow s) s.time.tai, s.core.cyc % 2 ^ 32]

/-- A SYNC enters: it always does while 4 words are free (R551). -/
def trcSync (s : State) : State :=
  let s1 := trcPush s (trcSyncWords s)
  { s1 with trc := { s1.trc with syncNo := (s.trc.syncNo + 1) % 65536, since := 0, last := s.core.cyc, first := false } }

/-- A packet tries to enter (R551): `always` for the types that may use the last 16 words. A packet that follows a loss is
preceded by OVF and SYNC. -/
def trcEnter (s : State) (always : Bool) (ws : List Nat) : State :=
  let extra := if s.trc.lost = 0 then 0 else 5
  if always || decide (s.trc.fifo.length + extra + ws.length + 16 ≤ 256) then
    let s := if s.trc.lost = 0 then s
      else trcSync (trcPush { s with trc := { s.trc with lost := 0 } } [0xB0000000 + min s.trc.lost (2 ^ 28 - 1)])
    let s := trcPush s ws
    let s := { s with trc := { s.trc with last := s.core.cyc, since := s.trc.since + 1 } }
    if isSet s TRC_CTRL.SYNCINT && getF s TRC_CTRL.SYNCINT ≤ s.trc.since then trcSync s else s
  else
    let s := incSat s TRC_STAT.DROP TRC_STAT.DROP_OVF
    { s with trc := { s.trc with lost := s.trc.lost + 1 } }

/-- A duration in µs, saturating at 32 bits. -/
def usOf (t : Nat) : Nat := min (t / (1000 * nsUnit)) (2 ^ 32 - 1)

/-- The first packets after EN is set or D11 has powered up: SYNC, and after a gap TRACE_LOST (R549, R553). -/
def trcStart (s : State) : State :=
  let s := if s.trc.first then trcSync s else s
  match s.trc.gap with
  | some (off, cls, on) =>
    trcEnter { s with trc := { s.trc with gap := none } } true [0xA0000000, taiSec off % 2 ^ 32, tlo cls off, usOf (on - off)]
  | none => s

/-- A packet of the present cycle is emitted (R546): a distance above 255 goes first as TIME, above 2^28 − 1 as SYNC; behind the SYNC
that follows a loss there is no distance. Word 0 is held without DCYC. -/
def trcEmit (s : State) (p : TrcPkt) : State :=
  let s := if s.trc.first || s.trc.gap.isSome then trcStart s else if p.sync then trcSync s else s
  match p.words with
  | [] => s
  | w0 :: ws =>
    if !p.dcyc then trcEnter s p.always (w0 :: ws)
    else
      let d := if s.trc.lost = 0 then s.core.cyc - s.trc.last else 0
      let (s, d) := if 2 ^ 28 - 1 < d then (trcSync s, 0)
        else if 255 < d then (trcEnter s false [0x70000000 + d], 0) else (s, d)
      trcEnter s p.always ((w0 + d * 65536) :: ws)

/-- The packets of a cycle are emitted at its end in the order of R548; those of a trace that has lost D11 are gone. -/
def trcFlush (s : State) : State :=
  if s.trc.cycle.isEmpty then s
  else
    let l := s.trc.cycle
    let s := { s with trc := { s.trc with cycle := [] } }
    if domOn s 11 then ((List.range 32).flatMap fun r => l.filter fun p => p.rank == r).foldl trcEmit s else s

/-- A packet of the present cycle. -/
def trcQueue (s : State) (p : TrcPkt) : State :=
  if trcOn s then { s with trc := { s.trc with cycle := s.trc.cycle ++ [p] } } else s

/-- A packet with DCYC, at its place in the order of R548: 1 MODE, 2 + t SCAN, 10 FLOW, 11 and 12 GUARD, 13 and 21 + slot PORTW. -/
def trcPacket (s : State) (rank : Nat) (always : Bool) (w0 : Nat) (ws : List Nat) : State :=
  trcQueue s { rank := rank, always := always, dcyc := true, sync := false, words := w0 :: ws }

/-- A type of TRC_CTRL.TYPES (0 FLOW, 1 GUARD, 2 PORTW, 3 SCAN) is enabled for a task (R549). -/
def trcWants (s : State) (type t : Nat) : Bool :=
  bitOf (getF s TRC_CTRL.TYPES) type && bitOf (getF s TRC_CTRL.TASKS) t

/-- MODE: new and previous mode, halt cause (R547). -/
def trcMode (s : State) (new prev : Mode) : State :=
  trcPacket s 1 true (0x60000000 + new.code * 4096 + prev.code * 256 + getF s SYS_MODE.HALT_CAUSE)
    [taiSec s.time.tai % 2 ^ 32, tlo (classNow s) s.time.tai]

/-- SCAN: an event of Table 19.4 with the scan counter after it. -/
def trcScan (s : State) (t evt : Nat) : State :=
  if trcWants s 3 t then
    trcPacket s (2 + t) false (0x50000000 + t * 2 ^ 25 + evt * 4096) [(task s t).scan % 2 ^ 32]
  else s

/-- FLOW (R547): a bundle that does not follow the one its context issued before, or after another context, or always. -/
def trcFlow (s : State) (t bank pc : Nat) : State :=
  let seq := nth none s.trc.flow t == some (bank, pc - 1) && 0 < pc && s.trc.ctx == some t
  let s1 := { s with trc := { s.trc with flow := s.trc.flow.set t (some (bank, pc)), ctx := some t } }
  if (seq && !isSet s TRC_CTRL.FLOW_ALL) || !trcWants s 0 t then s1
  else trcPacket s1 10 false (0x20000000 + t * 2 ^ 25 + bank * 2 ^ 24 + pc) []

/-- GUARD (R547): resolution or issue, the slots, cycles before resolution, confirmed. -/
def trcGuard (s : State) (t slots ago : Nat) (res ok : Bool) : State :=
  if slots = 0 || !trcWants s 1 t then s
  else trcPacket s (if res then 11 else 12) false (0x30000000 + t * 2 ^ 25 + b2n res * 2 ^ 24 + slots * 256 + ago * 64 + b2n ok) []

/-- A port passes a filter of R549. -/
def trcFilter (s : State) (dst : Nat) : Bool :=
  (List.range 4).any fun i => isSet s (TRC_PFLT.EN i) &&
    ((dst ^^^ getF s (TRC_PFLT.PORT i)) &&& getF s (TRC_PFLT.MASK i)) == 0

/-- PORTW (R547): state 0 landed, 1 provisional, 2 confirmed, 3 cancelled; `mod` is MOD.TRC of the move. -/
def trcPortw (s : State) (t slot dst st : Nat) (mod : Bool) (v : TWord) : State :=
  if mod || (trcWants s 2 t && trcFilter s dst) then
    trcPacket s ((if st < 2 then 21 else 13) + slot) false (0x40000000 + t * 2 ^ 25 + st * 2 ^ 14 + slot * 2 ^ 11 + dst * 2) [v.tag.toNat, v.val.toNat]
  else s

/-- HOLD_ENTER (R552). -/
def trcHoldEnter (s : State) : State :=
  let s := trcPacket s 0 true 0x80000000 [taiSec s.time.tai % 2 ^ 32, tlo (classNow s) s.time.tai]
  { s with trc := { s.trc with hold := some s.time.tai } }

/-- D11 has been released: SYNC and TRACE_LOST are the first packets (R553). -/
def trcLost (s : State) : State :=
  trcQueue { s with trc := { s.trc with gap := s.trc.gap.map fun g => (g.1, g.2.1, s.time.tai) } }
    { rank := 0, always := true, dcyc := false, sync := false, words := [] }

/-- HOLD_EXIT in the cycle of entry into STOP, after SYNC and, where D11 was off, TRACE_LOST (R552). -/
def trcHoldExit (s : State) : State :=
  let dur := match s.trc.hold with | some t0 => usOf (s.time.tai - t0) | none => 0
  let s := trcQueue s { rank := 0, always := true, dcyc := false, sync := true,
                        words := [0x90000000, taiSec s.time.tai % 2 ^ 32, tlo (classNow s) s.time.tai, dur] }
  { s with trc := { s.trc with hold := none } }

/-- D11 has powered up: buffer, FIFO and the D11 registers are cleared (R554). -/
def trcClear (s : State) : State :=
  let s := clearFields s [TRC_STAT.FULL, TRC_STAT.DROP_OVF, TRC_STAT.DROP, TRC_WPTR.IDX, TRC_RADDR.IDX]
  { s with trc := { s.trc with fifo := [], buf := [], lost := 0, first := true, cycle := [], wait := 0 } }
where
  /-- Fields take their reset values. -/
  clearFields (s : State) (fs : List Fld) : State := fs.foldl (fun s f => setF s f f.rst) s

/-- The divider of the trace port (Table 19.9). -/
def trcDiv (s : State) : Nat := if 2 ≤ getF s TRC_PORT.DIV ∧ getF s TRC_PORT.DIV ≤ 8 then getF s TRC_PORT.DIV else 8

/-- One word leaves the FIFO for its sinks (R550), once they have taken the word before: the buffer takes one a cycle, the port one in
four periods of TRC_CLK. With no sink, or with the buffer alone and full, none leaves; a full buffer beside the port takes nothing
(log entry 152, DESIGN CHOICE). -/
def trcDrain (s : State) : State :=
  match s.trc.fifo with
  | [] => s
  | w :: rest =>
    let buf := getF s TRC_CTRL.SINK % 2 == 1 && !isSet s TRC_STAT.FULL
    let port := decide (2 ≤ getF s TRC_CTRL.SINK)
    if s.trc.wait ≠ 0 ∨ (!buf && !port) then s
    else
      let s1 := { s with trc := { s.trc with fifo := rest, wait := if port then 4 * trcDiv s else 1 } }
      if !buf then s1
      else
        let i := getF s1 TRC_WPTR.IDX
        let s2 := { s1 with trc := { s1.trc with buf := sset 0 s1.trc.buf i w } }
        if i = 16383 && !isSet s TRC_CTRL.WRAP then setF (setF s2 TRC_WPTR.IDX 0) TRC_STAT.FULL 1
        else incWrap s2 TRC_WPTR.IDX

/-- The end of a cycle for trace: a word leaves the FIFO, and the packets of the cycle enter it (R548, R550). -/
def trcCycle (s : State) : State :=
  let s := if domOn s 11 then trcDrain s else s
  trcFlush { s with trc := { s.trc with wait := s.trc.wait - 1 } }

/-- TRACE_FIFO_DRAIN (R550): the sinks take the word of this cycle. -/
def execTraceFifoDrain (s : State) : Host.Outcome State Fault Refusal :=
  .next (if domOn s 11 then trcDrain s else s)

/-- A read of TRC_RDATA returns the word at RADDR as it stands and then advances RADDR, wrapping (R550). -/
def readTrcRdata (s : State) : Nat × State :=
  ((sget 0 s.trc.buf (getF s TRC_RADDR.IDX)).toNat, incWrap s TRC_RADDR.IDX)

/-- TRC_RDATA_READ: a read of TRC_RDATA while D11 is on (R534, R550). -/
def execTrcRdataRead (s : State) : Host.Outcome State Fault Refusal :=
  .next (if domOn s 11 then (readTrcRdata s).2 else s)

end Sys2Proof.Machine
end

