-- ==== Sys2Proof/Machine/Modes.lean ====
section
/-!
DEFINITION. The operating modes (spec/03_modes.md): what a transition of Table 3.6 does to the state, halts, the domains and
their reset (spec/19_power_health_trace.md, R533; spec/20_reset_boot_nv.md, R561 to R565), HOLD and the wake, mode requests.
-/

namespace Sys2Proof.Machine

open Reg

/-! ## What a transition records (R73) -/

/-- The modes in which the own PRESENT bit is 1 (R19). -/
def presentModes : List Mode := [.run, .runEdit, .track, .takeover]

/-- The mode lets frames of an origin be sent: 0 SYS, 1 FWD, 2 PROG; `early` marks PTP and ZCP frames (Table 12.2). -/
def originOk (s : State) (origin : Nat) (early : Bool) : Bool :=
  match s.mode with
  | .boot => s.ms.bootLoaded && origin == 0 && early
  | .selftest => origin < 2
  | .stop | .safeHalt | .track | .takeover => origin < 2
  | .run | .runEdit => true
  | .hold => origin < 2 && domOn s 6 && domOn s 7
  | _ => false

/-- Queued frames of an origin that the mode does not allow are discarded and counted (R342). -/
def egrPrune (s : State) : State :=
  (List.range 4).foldl (fun s p =>
    let old := nth EgrPort.init s.egr.ports p
    let new := old.queues.map fun q => q.filter fun f => originOk s f.origin true
    let n := (old.queues.map List.length).sum - (new.map List.length).sum
    let s := { s with egr := { s.egr with ports := upd s.egr.ports p fun x => { x with queues := new } } }
    (List.range n).foldl (fun s _ => incSat s (EGR_MODEDISC.CNT p) EGR_STAT.CNT_OVF) s) s

/-- A transition: PREV and MODE, the own PRESENT bit, trace, the frames that the mode bars, and the MODE event, its journal
entry and its interrupt except into OFF, BACKUP and RESET (R19, R73, R342, R524, R547). -/
def transition (s : State) (m : Mode) : State :=
  let prev := s.mode
  let s := busMode (egrPrune (trcMode { s with mode := m } m prev)) prev
  let s := setF s SYS_MODE.PREV prev.code
  if m == .off || m == .backup || m == .reset then s
  else
    let s := devBit s (stnBit (ownStn s) 0) (presentModes.contains m)
    let s := setF (journalInt s SYS_MODE.MODE.addr m.code) ZCP_IRQSRC.MODE 1
    raiseEv s SYS_MODE.MODE.addr SYS_MODE.MODE.lo m.code

/-! ## Tasks at a transition -/

/-- A trigger of a task is dropped and counted as SKIP (R75, R78, R225). -/
def countSkip (s : State) (t : Nat) : State := trcScan (incSat s (SCN_CNT.SKIP t) (SCN_TSTAT.SKIP_OVF t)) t 5

/-- A trigger held under policy LATE is dropped and counted (R78, R226). -/
def dropHeld (s : State) (t : Nat) : State :=
  if (task s t).held.isSome then countSkip (updTask s t fun k => { k with held := none }) t else s

/-- A PENDING task becomes IDLE with its trigger dropped (R78). -/
def dropPending (s : State) (t : Nat) : State :=
  if (task s t).st == .pending then countSkip (updTask s t fun k => { k with st := .idle }) t else s

/-- A run in progress ends without committing (R75, R78). -/
def endRun (s : State) (t : Nat) : State :=
  if frozen s t then updTask s t fun k => { k with st := .idle, fin := .no, capB := [], capW := [] } else s

/-- Every task. -/
def allTasks (s : State) (f : State → Nat → State) : State := (List.range 8).foldl f s

/-- A destination port is a trigger port (R103). -/
def isTrig (dst : Nat) : Bool := 1 ≤ dst / 16 && dst / 16 ≤ 0x10 && 4 ≤ dst % 16

/-- Deferred and waiting triggers that have not fired are cancelled (R126). -/
def cancelDeferred (s : State) : State :=
  { s with core := { s.core with deferred := s.core.deferred.filter fun d => !isTrig d.dst, waiting := [] } }

/-- Pending TMU events are abandoned without a record (R192). -/
def abandonTmu (s : State) : State :=
  { s with core := { s.core with tmu := s.core.tmu.map fun x => { x with ev := none } } }

/-- Field frames carry SAFE again (R70). -/
def dropLive (s : State) : State :=
  { s with fld := { s.fld with hub := s.fld.hub.map fun h => { h with live := false } } }

/-! ## The end of a transaction (R251, R253, R265) -/

/-- A persisted set is voided (R577). -/
def voidSet (s : State) : State :=
  match s.txn.setSeq with
  | none => s
  | some (q, _) =>
    { s with nv := { s.nv with sets := s.nv.sets.map fun p => if p.2.seq = q then (p.1, { p.2 with void := true }) else p } }

/-- The users of a rank give up the NV interface: one that holds it stops at the end of its operation, the next page boundary, and
leaves nothing behind (R253). -/
def nvDropRank (s : State) (r : Nat) : State :=
  { s with nv := { s.nv with
      holder := s.nv.holder.map fun j => if j.rank = r then { j with steps := [.wait], aborted := true } else j,
      waiting := s.nv.waiting.filter fun j => j.rank != r } }

/-- An outcome is recorded in TXN_LAST; the outcomes 4 to 8 count and pulse TXN_FAIL (Table 9.6, R270). -/
def txnOutcome (s : State) (o : Nat) (late presumed mode : Bool) (seq : Nat) : State :=
  let s := setFs s [(TXN_LAST.OUTCOME, o), (TXN_LAST.LATE, b2n late), (TXN_LAST.PRESUMED, b2n presumed),
    (TXN_LAST.MODE, b2n mode), (TXN_LAST.SEQ, seq)]
  if 4 ≤ o ∧ o ≤ 8 then pulse (incSat s TXN_CNT.FAILS TXN_LAST.FAIL_OVF) 0x30702 else s

/-- A participant owes its coordinator a REPORT of the outcome: SYSTXN, outcome, resends left (R258). -/
def oweReport (s : State) (o : Nat) : State :=
  if isSet s TXN_STAT.SYSTEM ∧ getF s TXN_ID.ID / 2 ^ 24 ≠ ownStn s then
    { s with txn := { s.txn with report := some (getF s TXN_ID.ID, o, 1000) } }
  else s

/-- Shadow writes to companions that are still to be sent or answered lapse (R420). -/
def dropShadow (s : State) : State :=
  { s with fld := { s.fld with hub := s.fld.hub.map fun h =>
      { h with ops := h.ops.filter fun o => o.cls != 2, shadowLeft := 0,
               sent := h.sent.map fun x => (x.1, x.2.1, x.2.2.filter fun o => o.cls != 2) } } }

/-- The transaction is IDLE and nothing is staged. -/
def txnIdle (s : State) : State :=
  let t := s.txn
  let s := { s with txn := { TxnSt.init with
      undo := t.undo, undoBank := t.undoBank, undoPersist := t.undoPersist, undoEdit := t.undoEdit,
      patched := t.patched,
      coord := t.coord, coordStep := t.coordStep, coordWait := t.coordWait, coordGot := t.coordGot, coordOwn := t.coordOwn,
      coordOp := t.coordOp, report := t.report, sysDone := t.sysDone }, phm := { s.phm with switching := none } }
  let s := dropShadow s
  setFs s [(TXN_STAT.STATE, 0), (TXN_STAT.EDIT, 0), (TXN_STAT.SYSTEM, 0), (TXN_STAT.PERSIST, 0),
    (TXN_STAT.OWNER_SPI, 0), (TXN_STAT.OWNER, 0), (TXN_CREC_PREP.VALID, 0)]

/-- The transaction ends without taking effect: outcome and the status of its operations' notices. An edit keeps its bank
(R251, R253, R264). -/
def txnDiscard (s : State) (o : Nat) (mode : Bool) (status : Nat) : State :=
  let seq := match s.txn.setSeq with | some (q, _) => q | none => 0
  let edit := isSet s TXN_STAT.EDIT
  let s := oweReport (nvDropRank (voidSet s) 2) o
  let s := txnOutcome s o false false mode seq
  let s := opEnd? (opEnd? s s.txn.prepOp status []) s.txn.commitOp status []
  let s := if edit then
      let s := if getF s EDT_STAT.COPY = 1 then setF s EDT_STAT.COPY 0 else s
      setF s EDT_STAT.KEEP_OK 1
    else s
  txnIdle s

/-! ## The standby function at a transition -/

/-- The unit neither sends nor replays a stream any more (R272, R296, R306). -/
def leaveStandby (s : State) : State :=
  let b := s.sby
  let s := opEnd? s (match b.handover with | some i => i | none => none) 0x0A []
  let s := { s with sby := { b with
      streaming := false, dropping := false, lossMark := false, dropCyc := 0, extSent := [], extRec := [], extQueue := [], events := [],
      replaying := false, ends := [], cutWait := false, xferOpen := false, parts := none, xferSent := 0, preImage := 0, xferRx := false, got := [],
      tko := none, committedSince := [], handover := none, demote := false, markSeen := none, lagRef := none,
      marked := false, late := false } }
  let s := if getF s SBY_XFER.STATE = 1 then setF s SBY_XFER.STATE 0 else s
  setFs s [(SBY_STAT.SYNC, 0), (SBY_STAT.XFER, 0), (SBY_LAGNOW.US, 0)]

/-- The epoch is raised above the higher of OWN and PARTNER (R281). -/
def raiseEpoch (s : State) : State :=
  let own := getF s SBY_EPOCH.OWN
  let par := getF s SBY_EPOCH.PARTNER
  setF s SBY_EPOCH.OWN ((if epochHigher par own then par else own) + 1)

/-! ## Entries into the modes -/

/-- The MODE_REQ operation that waits ends with the mode reached (R515). -/
def modeOpEnd (s : State) (status : Nat) : State :=
  let s1 := opEnd? s s.ms.modeOp status (if status = 0 then beBytes 1 s.mode.code else [])
  { s1 with ms := { s1.ms with modeOp := none } }

/-- A domain is switched off (R533): ON clears. D11 keeps the time on D1 (R553); a standby link that is off is DOWN. -/
def domainOff (s : State) (d : Nat) : State :=
  if domOn s d then
    let s := setF s PWR_DSTAT.ON (getF s PWR_DSTAT.ON - 2 ^ d)
    if d = 11 then { s with trc := { s.trc with gap := some (s.time.tai, classNow s, s.time.tai), fifo := [], cycle := [] } }
    else if d = 9 then setF s SBY_STAT.LINK 0
    else s
  else s

/-- D11 follows PWR_D11CTL.OFF where software may switch it (Table 3.2, R67, R535). -/
def d11Follow (s : State) : State :=
  if isSet s PWR_D11CTL.OFF then domainOff s 11 else s

/-- Entry into SAFE_HALT with a cause (R67, R78, R126, R192, R265, R70). A custom operation in progress runs on unless its own
micro-trigger raised the trap: R203 does not say what a trap raised by another trigger does to it (log entry 120, DESIGN CHOICE). -/
def enterHalt (s : State) (cause : Nat) : State :=
  let s := allTasks (allTasks (allTasks s endRun) dropPending) dropHeld
  let s := abandonTmu (cancelDeferred s)
  let s := if isSet s TXN_STAT.STATE ∧ isSet s TXN_STAT.EDIT then txnDiscard s 2 true 0x0F else s
  let s := leaveStandby (streamEv s (.mark 1 cause))
  let s := setF (dropLive s) SYS_MODE.HALT_CAUSE cause
  let s := { s with ms := { s.ms with stopPending := false, haltPend := none, negotiating := false } }
  d11Follow (modeOpEnd (transition s .safeHalt) 0x0A)

/-- The halt cause that has arisen is taken at the end of the cycle (R78). -/
def settle (s : State) : State :=
  match s.ms.haltPend with
  | some c => enterHalt { s with ms := { s.ms with haltPend := none } } c
  | none => s

/-- Entry into STOP; forced when runs are still in progress at STOP_TMO (R75, R192, R306). -/
def enterStop (s : State) : State :=
  let s := if quiet s then s else cancelDeferred (allTasks s endRun)
  let s := abandonTmu (allTasks (allTasks s dropPending) dropHeld)
  let s := dropLive (leaveStandby (streamEv s (.mark 2 0)))
  let s := { s with ms := { s.ms with stopPending := false, negotiating := false } }
  let s := transition s .stop
  let s := if s.ms.modeOp.isSome then modeOpEnd s 0 else s
  d11Follow s

/-- Entry into RUN: HALT_CAUSE clears (R79); the epoch rises when Table 10.1 or a boundary says so (R281). -/
def enterRun (s : State) (raise : Bool) : State :=
  let s := if raise then raiseEpoch s else s
  let s := allTasks s fun s t => updTask s t fun k => { k with lastInst := none }
  let s := { s with time := { s.time with skipped := none } }
  let s := setF { s with ms := { s.ms with stopPending := false, negotiating := false } } SYS_MODE.HALT_CAUSE 0
  d11Follow (modeOpEnd (transition s .run) 0)

/-- Entry into TRACK; SYNC is kept only by a planned handover (R273, R299). -/
def enterTrack (s : State) (keepSync : Bool) : State :=
  let sync := getF s SBY_STAT.SYNC
  let s := allTasks (allTasks s dropPending) dropHeld
  let s := dropLive (leaveStandby s)
  let s := if keepSync then setF s SBY_STAT.SYNC sync else s
  let s := { s with ms := { s.ms with stopPending := false, negotiating := false } }
  autoSync (d11Follow (modeOpEnd (transition s .track) 0))

/-- The return from RUN_EDIT to RUN (transition 12). -/
def leaveEdit (s : State) : State := if s.mode == .runEdit then transition s .run else s

/-- Role negotiation by Table 10.1: decided at once when the partner is seen, else the unit waits NEG_TMO (R273). -/
def enterByRole (s : State) : State :=
  let r := dirRole s
  if r = 0 ∨ r = 3 then enterRun s false
  else if s.sby.present ∧ linkUp s then
    if getF s SBY_STAT.PMODE = 6 ∨ getF s SBY_STAT.PMODE = 7 then enterTrack s false
    else if r = 1 then enterRun s true else enterTrack s false
  else { s with ms := { s.ms with negotiating := true } }

/-- NEG_TMO has passed without a heartbeat (Table 10.1, last row). -/
def negotiationEnds (s : State) : State :=
  if dirRole s = 1 ∨ isSet s SBY_CFG.SOLO then enterRun s true else enterTrack s false

/-! ## Domains (R533) -/

/-- PRESENT of a remote station changes, with its pulse (Table 8.7). -/
def setPresent (s : State) (stn : Nat) (v : Bool) : State :=
  if rawBit s (stnBit stn 0) = v then s
  else pulse (devBit s (stnBit stn 0) v) (if v then 0x30602 else 0x30601)

/-- PRESENT of the remote stations that no timer supervises follows VALID, and is 0 for invalid entries (R18). -/
def refreshPresent (s : State) : State :=
  (List.range 256).foldl (fun s i =>
    if i = ownStn s then s
    else if !isSet s (SYS_DIR_CTRL.VALID i) then setPresent s i false
    else if !isSet s (SYS_DIR_CTRL.SUPV i) then setPresent s i true
    else s) s

/-- The buckets' tokens, counted from cycle 0 on: CORE_CYC starts again (R352). -/
def rebaseTokens (s : State) : State :=
  { s with egr := { s.egr with ports := s.egr.ports.zipIdx.map fun x => { x.1 with tokens := x.1.tokens.zipIdx.map fun t =>
      (t.1.1 + getF s (EGR_TB.RATE x.2 t.2) * 64 * (s.core.cyc - t.1.2), 0) } } }

/-- The registers of D10 but its RW-T fields take their reset values: a HOLD wake keeps those (R89). -/
def clearD10 (s : State) : State :=
  { s with regs := s.regs.filter fun p =>
      regDomain (p.1 / 32) != 10 || (match regFields (p.1 / 32) with
        | some fs => fs.any fun f => f.lo == p.1 % 32 && f.acc == .rwt
        | none => false) }

/-- The state of a domain as its power-up or a reset leaves it, registers aside (R61, R125, R137, R156, R191, R213, R238, R307,
R338, R366, R398, R425, R554). -/
def domainInit (s : State) (d : Nat) : State :=
  match d with
  | 2 =>
    let s := rebaseTokens s
    let c := s.core
    { s with
        core := { CoreSt.init with bankA := c.bankA, bankB := c.bankB, badA := c.badA, badB := c.badB, dtBad := c.dtBad }
        plumb := PlumbSt.init
        scan := { ScanSt.init with imgB := s.scan.imgB, imgW := s.scan.imgW } }
  | 3 => { s with core := { s.core with accs := List.replicate 8 PhuAcc.init } }
  | 4 => setFs (eccWipe codeMem { s with core := { s.core with bankA := [], bankB := [], badA := [], badB := [], dtBad := [] } })
      [(TXN_STAT.UNDO_OK, 0), (EDT_STAT.KEEP_OK, 0)]
  | 5 =>
    let s := clearSpaces s
    { s with scan := { s.scan with imgB := [], imgW := [] }, sp := { s.sp with hostStage := none, hostTag := none } }
  | 6 => { s with cls := ClsSt.init, egr := EgrSt.init, phm := PhmSt.init }
  | 7 => { s with cls := { s.cls with flight := List.replicate 4 none } }
  | 8 => { s with can := [CanSt.init, CanSt.init] }
  | 9 => setF { s with sby := SbySt.init } SBY_STAT.LINK 0
  | 10 => { s with fld := { s.fld with hub := List.replicate 8 HubPort.init } }
  | 11 => trcClear s
  | _ => s

/-- The active program bank, its identity and whether the identity matches the table (R74, R210). -/
def activeBank (s : State) : List (Nat × Word) :=
  if isSet s CORE_BANK.ACTIVE then s.core.bankB else s.core.bankA
@[inherit_doc activeBank] def activePid (s : State) : Nat × Nat :=
  if isSet s CORE_BANK.ACTIVE then (getF s CORE_PIDB_VER.VER, getF s CORE_PIDB_CRC.CRC)
  else (getF s CORE_PIDA_VER.VER, getF s CORE_PIDA_CRC.CRC)
@[inherit_doc activeBank] def pidMatches (s : State) : Bool :=
  decide (activePid s = (0, 0)) || decide (activePid s = (getF s CORE_DTVER.VERSION, getF s CORE_DTCRC.CRC))

/-- A domain's power-good: ON sets, and its registers and state start as R6 and its chapters say, unless the mode is RESET,
which holds it in reset already (R533, R553). -/
def domainUp (s : State) (d : Nat) : State :=
  let s := if domOn s d then s else setF s PWR_DSTAT.ON (getF s PWR_DSTAT.ON + 2 ^ d)
  if s.mode == .reset then s
  else
    let s := if d = 4 then { s with ms := { s.ms with heldPid := activePid s } } else s
    let s := if d = 10 then clearD10 s else if d = 11 then s else clearDomains s [d]
    let s := domainInit s d
    if d = 5 then refreshPresent s
    else if d = 11 then
      if s.ms.waking.isSome then { s with trc := { s.trc with gap := s.trc.gap.map fun g => (g.1, g.2.1, s.time.tai) } } else trcLost s
    else s

/-! ## Reset (R561 to R565) -/

/-- The order in which domains are powered (R89). -/
def upOrder : List Nat := [5, 4, 2, 3, 6, 7, 8, 9, 10, 11]

/-- The order in which HOLD switches domains off (R88). -/
def downOrder : List Nat := [11, 10, 9, 8, 7, 6, 3, 2, 4, 5]

/-- The D1 fields that a reset keeps while D1 stays powered (R60, R63, R531, R558, R564). -/
def keptFields : List Fld :=
  [TIM_STAT.SRC_DISAGREE, TIM_STAT.STEPPED, TIM_STAT.SLEWING, TIM_STAT.LEAP_PENDING, TIM_STAT.HOLDOVER, TIM_STAT.LOCKED,
   TIM_STAT.CAL_DERIVED, TIM_STAT.TIME_VALID, TIM_STAT.ACTIVE_SRC, TIM_STAT.TQ, TIM_UNC.UNC, TIM_FADJ.FADJ, TIM_UTC.LEAP61,
   TIM_UTC.LEAP59, TIM_UTC.TAI_UTC, ZCP_JSEQ.SEQ, ZCP_JMIR.SEQ, ZCP_ESEQ.SEQ, RST_CAUSE.LAST, RST_CAUSE.SRC, RST_CFG.EXT,
   RST_WDOG.TMO, PWR_AVS.EN, PWR_AVS.PEC, PWR_AVS.ADDR, PWR_AVS.STEP, PWR_AVS.PERIOD, PWR_AVSLIM.VMAX, PWR_AVSLIM.VNOM,
   PWR_AVSLIM.VMIN, PWR_AVSTGT.TGT_HI, PWR_AVSTGT.TGT_LO, PWR_AVSSTAT.VSET]

/-- The register store after a reset: D0 and, while D1 stays powered, the fields of `keptFields` keep their values; all other
registers hold their reset values (R6, R266, R477, R503, R564). -/
def resetRegs (s : State) (d1Kept : Bool) : State :=
  { s with regs := s.regs.filter fun p =>
      regDomain (p.1 / 32) == 0 || (d1Kept && keptFields.any fun f => f.key == p.1) }

/-- The clock at a reset that keeps D1 powered: it runs on in holdover, and ACTIVE_SRC changes to 0xF (R60). -/
def timeHoldover (s : State) : State :=
  let changed := getF s TIM_STAT.ACTIVE_SRC != 0xF
  let t := s.time
  let s := { s with time := { TimeSt.init with
      tai := t.tai, running := t.running, growing := true, holdBase := if t.growing then t.holdBase else getF s TIM_UNC.UNC,
      holdStart := if t.growing then t.holdStart else t.tai, leapAt := t.leapAt, leapDone := t.leapDone,
      holdSet := if changed || !isSet s TIM_STAT.HOLDOVER then t.tai else t.holdSet, manualTq := t.manualTq, sblExNo := t.sblExNo, skipped := none, resetSw := if changed then some t.tai else none } }
  setFs s [(TIM_STAT.ACTIVE_SRC, 0xF), (TIM_STAT.LOCKED, 0), (TIM_STAT.HOLDOVER, 1)]

/-- Everything but registers and time as a reset leaves it: D2 to D11, the interpreter, the pins (R21, R125, R307, R503, R531,
R555, R562, R564). -/
def resetParts (s : State) (d1Kept : Bool) : State :=
  let s := upOrder.foldl domainInit s
  let z := s.zcp
  { s with
      ms := { ModeSt.init with resetSrc := s.ms.resetSrc, refStable := s.ms.refStable, refStopped := s.ms.refStopped }
      zcp := if d1Kept then { ZcpSt.init with events := z.events, journal := z.journal } else ZcpSt.init
      txn := TxnSt.init
      cal := if d1Kept then { s.cal with snap := [], point := none }
        else { s.cal with snap := [], point := none, ticked := false, ticks := [], points := 0, stepNext := false, leapEnd := 0 }
      pwr := { PwrSt.init with railBad := s.pwr.railBad, mains := s.pwr.mains }
      trc := { s.trc with cycle := [], gap := none, hold := none, last := 0, syncNo := 0, since := 0, flow := List.replicate 8 none,
                          ctx := none }
      tap := { s.tap with status := 0, rdata := 0 }
      nv := { s.nv with holder := none, waiting := [], snapshot := none }
      pins := { s.pins with alive := false, rstout := true, miso := [] }
      sby := SbySt.init, pulses := [], pulsesPrev := [], latches := [] }

/-- The warning windows of a bank strapped to 3.3 V start at its reset window (Tables 19.2, 19.8). -/
def strapWarn (s : State) : State :=
  [(MON_VWARN4.HI, MON_VWARN4.LO), (MON_VWARN5.HI, MON_VWARN5.LO), (MON_VWARN6.HI, MON_VWARN6.LO),
   (MON_VWARN7.HI, MON_VWARN7.LO), (MON_VWARN8.HI, MON_VWARN8.LO)].zipIdx.foldl (fun s p =>
    if bitOf s.pins.vsel p.2 then setFs s [(p.1.1, 3630), (p.1.2, 2970)] else s) s

/-- RST_CAUSE takes a source (R561, R564): code 1 is the power-on reset, after which it reads 0x0100_0001. LAST takes the
lowest code of the sources active now. -/
def recordCause (s : State) (code : Nat) : State :=
  let src := getF s RST_CAUSE.SRC
  let low := (code :: s.ms.resetSrc).foldl min code
  setFs s [(RST_CAUSE.SRC, src ||| 2 ^ (code - 1)), (RST_CAUSE.LAST, low)]

/-- A reset source acts: transition 3 of Table 3.6, or a further source in RESET (R561, R564). Sources that last, PIN and
VMON, stay listed until they are released. -/
def toReset (s : State) (code : Nat) (lasting : Bool) : State :=
  let s := recordCause s code
  let s := if lasting && !s.ms.resetSrc.contains code then { s with ms := { s.ms with resetSrc := code :: s.ms.resetSrc } }
    else s
  if s.mode == .reset then s
  else
    let prev := s.mode
    let s := timeHoldover (strapWarn (resetParts (resetRegs s true) true))
    setFs { s with mode := .reset } [(SYS_MODE.PREV, prev.code), (PWR_DSTAT.RST, 0xFFC)]

/-- The sequence above the highest one that a valid entry of the NV journal area holds, or 0: where ZCP_JSEQ starts at D1 power-up
(R531, R583; log entry 47, DEDUCED); ZCP_JMIR, the last sequence mirrored, is the one below. -/
def journalStart (s : State) : Nat :=
  let byte (a : Nat) : Nat := (sget (0xFF : Byte) s.nv.nor a).toNat
  let valid := s.nv.nor.filter fun p => 0x100000 ≤ p.1 && p.1 < 0x300000 && p.1 % 64 == 60 &&
    (List.range 4).all fun i => byte (p.1 + i) == 0
  let seqs := valid.map fun p => ((List.range 4).map fun i => byte (p.1 - 60 + i) * 256 ^ (3 - i)).sum
  match seqs with
  | [] => 0
  | a :: r => (r.foldl (fun m q => if newer q m then q else m) a + 1) % 2 ^ 32

/-- Transition 2: the main rails come within limits, D1 powers up and the device is in RESET (R561, R564). D0 keeps its state.
Domains D2 to D11 are powered one after another (R533). -/
def powerUp (s : State) : State :=
  let prev := s.mode
  let s := strapWarn (resetParts (resetRegs s false) false)
  setFs { s with mode := .reset, time := TimeSt.init, tap := TapSt.init,
                 ms := { ModeSt.init with refStable := false }, trc := TrcSt.init,
                 pwr := { PwrSt.init with ramp := upOrder } }
    [(SYS_MODE.PREV, prev.code), (PWR_DSTAT.RST, 0xFFC), (PWR_DSTAT.ON, 3), (ZCP_JSEQ.SEQ, journalStart s),
     (ZCP_JMIR.SEQ, journalStart s + 2 ^ 32 - 1)]

/-! ## HOLD and wake (R87 to R92) -/

/-- SYS_HOLDCFG keeps a domain. -/
def keeps (s : State) (d : Nat) : Bool := bitOf (getF s SYS_HOLDCFG.KEEP) (d - 2)

/-- The domains a wake source needs, and those a domain needs (Table 3.10, Table 19.1, R532), among D2 to D11. -/
def holdNeedsOk (s : State) : Bool :=
  let en := getF s SYS_WAKE.EN
  let imp (a b : Bool) := !a || b
  imp (bitOf en 5) (keeps s 6 && keeps s 7) && imp (bitOf en 6) (keeps s 8) && imp (bitOf en 7) (keeps s 9) &&
    imp (bitOf en 8) (keeps s 10) && imp (keeps s 2) (keeps s 4 && keeps s 5) && imp (keeps s 3) (keeps s 2) &&
    imp (keeps s 7) (keeps s 6)

/-- A wake source occurs (R90; case 5): in HOLD or during its entry it starts the wake; the sources of the same cycle are
recorded too. -/
def wakeSource (s : State) (bit : Nat) : State :=
  if !bitOf (getF s SYS_WAKE.EN) bit then s
  else if s.ms.waking.isSome then
    if s.ms.wakeTai = s.time.tai then setF s SYS_WAKESRC.SRC (getF s SYS_WAKESRC.SRC ||| 2 ^ bit) else s
  else if s.mode == .hold || s.ms.holdEntry.isSome then
    let off := upOrder.filter fun d => !domOn s d && !(d == 11 && isSet s PWR_D11CTL.OFF)
    let s := setF s SYS_WAKESRC.SRC (2 ^ bit)
    { s with ms := { s.ms with waking := some off, holdEntry := none, wakeTai := s.time.tai }
             pwr := { s.pwr with ramp := off } }
  else s

/-! ## Mode requests (R74 to R77, R87) -/

/-- The device is in STOP but does not rest there: an on-demand test, a HOLD entry, a wake or a role negotiation is in progress. A
request for RUN or HOLD is then refused, which the spec leaves open (log entry 121, DESIGN CHOICE). -/
def stopBusy (s : State) : Bool :=
  s.ms.demandTest.isSome || s.ms.holdEntry.isSome || s.ms.waking.isSome || s.ms.negotiating

/-- A request for RUN is refused (R74, R539), or the device does not rest in STOP. -/
def runRefused (s : State) : Bool :=
  (activeBank s).isEmpty || !pidMatches s ||
    (isSet s SYS_FLAGS.STN_CONFLICT && (dirRole s == 1 || dirRole s == 2)) || s.pwr.hot || stopBusy s

/-- A mode request and its status (Table 3.13, R74 to R77, R87): 0 accepted, 4 BAD_PARAM, 0xA MODE_REFUSED. A request for HOLD while
`stopBusy` is refused with MODE_REFUSED (log entry 121, DESIGN CHOICE). -/
def modeReq (s : State) (req : Nat) : Nat × State :=
  match req with
  | 5 =>
    if s.mode == .run || s.mode == .track then
      (0, allTasks { s with ms := { s.ms with stopPending := true } } dropHeld)
    else if s.mode == .safeHalt then (0, enterStop s)
    else (0xA, s)
  | 6 => if s.mode == .stop && !runRefused s then (0, enterByRole s) else (0xA, s)
  | 0xA => if inMode s runModes then (0, halt s 8) else (0xA, s)
  | 0xB =>
    if s.mode != .stop || isSet s TXN_STAT.STATE || stopBusy s then (0xA, s)
    else if !holdNeedsOk s then (4, s)
    else
      let s := trcHoldEnter s
      (0, { s with ms := { s.ms with holdEntry := some (downOrder.filter fun d => !keeps s d) } })
  | _ => (4, s)

/-- A request over the host port: a refusal sets the sticky flag (Table 3.13, R597). -/
def modeReqHost (s : State) (req : Nat) (dbg : Bool) : State :=
  match modeReq s req with
  | (0, s1) => s1
  | (code, _) => accErr s code SYS_MODECTL.REQ.addr dbg

end Sys2Proof.Machine
end

