-- ==== Sys2Proof/Machine/Calendar.lean ====
section
/-!
DEFINITION. The calendar and the backup domain (spec/17_calendar_backup.md), and the seed of the TAI counter (R60, R499).
-/

namespace Sys2Proof.Machine

open Reg

/-! ## The Gregorian rules (R486 to R492) -/

/-- A number of two decimal digits as BCD, and back. -/
def bcd (n : Nat) : Nat := n / 10 * 16 + n % 10
@[inherit_doc bcd] def unbcd (n : Nat) : Nat := n / 16 * 10 + n % 16
/-- A year of four decimal digits as BCD, and back. -/
def bcd4 (n : Nat) : Nat := bcd (n / 100) * 256 + bcd (n % 100)
@[inherit_doc bcd4] def unbcd4 (n : Nat) : Nat := unbcd (n / 256) * 100 + unbcd (n % 256)
/-- Every digit of a BCD number is 0 to 9. -/
def bcdOk (digits n : Nat) : Bool := (List.range digits).all fun i => n / 16 ^ i % 16 < 10

/-- Leap years (R487). -/
def isLeap (y : Nat) : Bool := y % 4 == 0 && y != 2100 && y != 2200 && y != 2300

/-- The length of a month (R487). -/
def monthLen (y m : Nat) : Nat :=
  if m = 2 then (if isLeap y then 29 else 28) else if m = 4 ∨ m = 6 ∨ m = 9 ∨ m = 11 then 30 else 31

/-- A date and time that R490 takes as valid. -/
def dateValid (y m d h mi sec : Nat) : Bool :=
  2000 ≤ y && y ≤ 2399 && 1 ≤ m && m ≤ 12 && 1 ≤ d && decide (d ≤ monthLen y m) && h ≤ 23 && mi ≤ 59 && sec ≤ 59

/-- Days from 2000-01-01 to the start of a year, and to a date. -/
def yearDays (y : Nat) : Nat :=
  let n := y - 2000
  365 * n + (n + 3) / 4 - (if 100 < n then (n - 1) / 100 else 0)
@[inherit_doc yearDays] def dateDays (y m d : Nat) : Nat :=
  yearDays y + ((List.range (m - 1)).map fun i => monthLen y (i + 1)).sum + (d - 1)

/-- The weekday of a day number: 1 Monday to 7 Sunday; 2000-01-01 is a Saturday (R486, R488). -/
def weekday (days : Nat) : Nat := (days + 5) % 7 + 1

/-- Month and day of a day of the year. -/
def monthDay (y : Nat) : Nat → Nat → Nat → Nat × Nat
  | 0, m, n => (m, n + 1)
  | fuel + 1, m, n => if n < monthLen y m then (m, n + 1) else monthDay y fuel (m + 1) (n - monthLen y m)

/-- Year, month and day of a day number; beyond 2399 the count wraps (R488). -/
def dayDate (days : Nat) : Nat × Nat × Nat :=
  let d := days % 146097
  let y := 2000 + d / 366
  let y := if yearDays (y + 1) ≤ d then y + 1 else y
  let (m, dd) := monthDay y 11 1 (d - yearDays y)
  (y, m, dd)

/-- Seconds of 2000-01-01 00:00:00 UTC since 1970-01-01. -/
def epoch2000 : Nat := 946684800

/-! ## The fields -/

/-- The calendar's time in seconds since 2000-01-01. -/
def calSecs (s : State) : Nat :=
  dateDays (unbcd4 (getF s CAL_DATE.YEAR)) (unbcd (getF s CAL_DATE.MONTH)) (unbcd (getF s CAL_DATE.DAY)) * 86400 +
    unbcd (getF s CAL_TIME.HOUR) * 3600 + unbcd (getF s CAL_TIME.MIN) * 60 + unbcd (getF s CAL_TIME.SEC)

/-- The calendar takes a time in seconds since 2000-01-01 (R486); the weekday is computed. -/
def calLoad (s : State) (t : Nat) : State :=
  let (y, m, d) := dayDate (t / 86400)
  let r := t % 86400
  setFs s [(CAL_DATE.YEAR, bcd4 y), (CAL_DATE.MONTH, bcd m), (CAL_DATE.DAY, bcd d),
    (CAL_TIME.WDAY, weekday (t / 86400 % 146097)), (CAL_TIME.HOUR, bcd (r / 3600)), (CAL_TIME.MIN, bcd (r / 60 % 60)),
    (CAL_TIME.SEC, bcd (r % 60)), (CAL_SUB.TICKS, 0)]

/-- OSF sets with a cause (R483). -/
def osfSet (s : State) (cause : Nat) : State := setFs s [(CAL_STAT.OSF, 1), (CAL_STAT.OSF_CAUSE, cause)]

/-- D0 powers up: its registers take their reset values, the retentive regions are empty (R479). -/
def d0PowerUp (s : State) : State :=
  let s := clearDomains s [0]
  { s with
      cal := CalSt.init
      sp := { s.sp with bits := s.sp.bits.filter fun p => p.1 < 0xF0000
                        words := s.sp.words.filter fun p => p.1 < 0x7E000
                        upsets := s.sp.upsets.filter fun p =>
                          !((p.1.1 == .words && 0x7E000 ≤ p.1.2) || (p.1.1 == .bits && 0xF0000 ≤ p.1.2)) } }

/-- D1 is powered: every mode but OFF and BACKUP (Table 3.2, R67). -/
def d1On (s : State) : Bool := s.mode != .off && s.mode != .backup

/-! ## The seed (R60, R499) -/

/-- The UTC midnight at which the flagged minute ends is the next one when the flag sets (R26). -/
def setLeapAt (s : State) : State :=
  { s with time := { s.time with leapAt := (utcSec s / 86400 + 1) * 86400 } }

/-- The counter is loaded from the calendar and starts to advance; it is not a step (R60). -/
def seed (s : State) : State :=
  let sec := (((calSecs s + epoch2000 : Nat) : Int) + signedOf 16 (getF s TIM_UTC.TAI_UTC)).toNat
  let s := { s with time := { s.time with tai := taiOf sec 0, running := true, holdStart := taiOf sec 0 } }
  let s := if isSet s TIM_STAT.LEAP_PENDING then setLeapAt s else s
  if isSet s CAL_STAT.OSF then s
  else setFs s [(TIM_STAT.CAL_DERIVED, 1), (TIM_STAT.TQ, 0xE), (TIM_STAT.TIME_VALID, 1)]

/-- A seed is due: D1 has powered up and the counter does not run yet. -/
def seedDue (s : State) : Bool := d1On s && !s.time.running && !s.cal.ticked

/-- SEED_TIMEOUT: no tick within 1.5 s of D1 power-up (R499). -/
def execSeedTimeout (s : State) : Host.Outcome State Fault Refusal :=
  .next (if seedDue s then seed { s with cal := { s.cal with ticked := true } } else s)

/-! ## The second tick -/

/-- The alarm matches the fields (R495). -/
def alarmMatch (s : State) : Bool :=
  let en := getF s CAL_ALARM.EN
  en != 0 && (!bitOf en 3 || getF s CAL_ALARM.DAY == getF s CAL_DATE.DAY) &&
    (!bitOf en 2 || getF s CAL_ALARM.HOUR == getF s CAL_TIME.HOUR) &&
    (!bitOf en 1 || getF s CAL_ALARM.MIN == getF s CAL_TIME.MIN) &&
    (!bitOf en 0 || getF s CAL_ALARM.SEC == getF s CAL_TIME.SEC)

/-- The alarm at a second tick (R495): ALARM, and, while D1 is powered, the pulse and the wake source. -/
def calAlarm (s : State) : State :=
  if alarmMatch s then
    let s := setF s CAL_STAT.ALARM 1
    if !absent s then wakeSource (pulse s 0x30B03) 2 else s
  else s

/-- CAL_OSC_STOP (R483). -/
def execCalOscStop (s : State) : Host.Outcome State Fault Refusal :=
  .next (if s.mode == .off then s else osfSet { s with cal := { s.cal with running := false } } 2)

/-! ## Setting (R490, R491) -/

/-- The fields of CAL_WTIME and CAL_WDATE form a valid set. -/
def setValid (s : State) : Bool :=
  let t := getF s CAL_WTIME.HMS
  let d := getF s CAL_WDATE.DATE
  !bitOf t 7 && !bitOf t 15 && bitsOf d 6 2 == 0 && bitsOf d 13 3 == 0 &&
    bcdOk 2 (bitsOf t 0 7) && bcdOk 2 (bitsOf t 8 7) && bcdOk 2 (bitsOf t 16 6) && bcdOk 2 (bitsOf d 0 6) &&
    bcdOk 2 (bitsOf d 8 5) && bcdOk 4 (bitsOf d 16 16) &&
    dateValid (unbcd4 (bitsOf d 16 16)) (unbcd (bitsOf d 8 5)) (unbcd (bitsOf d 0 6)) (unbcd (bitsOf t 16 6))
      (unbcd (bitsOf t 8 7)) (unbcd (bitsOf t 0 7))

/-- A set: valid, it loads the fields, clears OSF and releases snapshots; invalid, it sets DATE_REJECT (R491). -/
def calSet (s : State) : Bool × State :=
  if setValid s then
    let t := getF s CAL_WTIME.HMS
    let d := getF s CAL_WDATE.DATE
    let days := dateDays (unbcd4 (bitsOf d 16 16)) (unbcd (bitsOf d 8 5)) (unbcd (bitsOf d 0 6))
    let s := calLoad s (days * 86400 + unbcd (bitsOf t 16 6) * 3600 + unbcd (bitsOf t 8 7) * 60 + unbcd (bitsOf t 0 7))
    (true, setF { s with cal := { s.cal with snap := [] } } CAL_STAT.OSF 0)
  else (false, setF s CAL_STAT.DATE_REJECT 1)

/-- Software reaches the CAL_ registers: BOOT to HOLD (Table 17.2, R502). -/
def calAccess (s : State) : Bool := !absent s

/-- CAL_SET: GO written over the host port or by a task; an invalid set over the host port sets the sticky flag (R491). -/
def execCalSet (who : Nat) (dbg : Bool) (s : State) : Host.Outcome State Fault Refusal :=
  .next (if calAccess s then
      match calSet s with
      | (true, s1) => s1
      | (false, s1) => if who = 16 then accErr s1 0xB CAL_SET.GO.addr dbg else s1
    else s)

/-! ## Snapshots (R493, R494) -/

/-- Latch group of the calendar. -/
def calGroup : Nat := 5

/-- The requester's latch takes CAL_TIME, CAL_DATE and CAL_SUB. The crystal ticks have no command, so the prescaler is a free
value below 32,768 (log entry 13, DESIGN CHOICE). -/
def calLatch (s : State) (who : Nat) : State :=
  let t := getF s CAL_TIME.WDAY * 2 ^ 24 + getF s CAL_TIME.HOUR * 2 ^ 16 + getF s CAL_TIME.MIN * 2 ^ 8 + getF s CAL_TIME.SEC
  let d := getF s CAL_DATE.YEAR * 2 ^ 16 + getF s CAL_DATE.MONTH * 2 ^ 8 + getF s CAL_DATE.DAY
  let (v, s) := drawFree s
  setLatch s who calGroup [t, d, v % 32768]

/-- A read of CAL_TIME: it latches unless a snapshot is held. -/
def calTimeRead (s : State) (who : Nat) : State := if s.cal.snap.contains who then s else calLatch s who

/-- CAL_TIME_READ (R493). -/
def execCalTimeRead (who : Nat) (s : State) : Host.Outcome State Fault Refusal :=
  .next (if calAccess s then calTimeRead s who else s)

/-- A write of CAL_SNAP (R494). -/
def calSnapWrite (s : State) (who : Nat) (snap release : Bool) : State :=
  let s := if release then { s with cal := { s.cal with snap := s.cal.snap.filter (· != who) } } else s
  if snap then
    let s := calTimeRead s who
    if s.cal.snap.contains who then s else { s with cal := { s.cal with snap := who :: s.cal.snap } }
  else s

/-- CAL_SNAP (R494): SNAP written, with RELEASE or without it. -/
def execCalSnap (who : Nat) (alsoRelease : Bool) (s : State) : Host.Outcome State Fault Refusal :=
  .next (if calAccess s then calSnapWrite s who true alsoRelease else s)

/-- CAL_SNAP_RELEASE (R494). -/
def execCalSnapRelease (who : Nat) (s : State) : Host.Outcome State Fault Refusal :=
  .next (if calAccess s then calSnapWrite s who false true else s)

/-! ## LBF and the charger (R481 to R485) -/

/-- The threshold of LBF, mV (R484). -/
def lbfMv (s : State) : Nat := 2200 + 200 * getF s CAL_CTRL.LBTH

/-- LBF_SAMPLE (R484): VBAT in mV at a sample of the comparator. A setting in BACKUP raises its event in BOOT. -/
def execLbfSample (mv : Nat) (s : State) : Host.Outcome State Fault Refusal :=
  .next (if s.mode == .off then s
    else
      let s := { s with cal := { s.cal with vbat := mv } }
      if lbfMv s ≤ mv || isSet s CAL_STAT.LBF then s
      else if d1On s then setRaise s CAL_STAT.LBF 1
      else { setF s CAL_STAT.LBF 1 with cal := { s.cal with lbfLate := true } })

/-- A write of 1 to LBF with VBAT at a value: it clears only 50 mV above the threshold (R484). -/
def lbfClear (s : State) (mv : Nat) : State := if lbfMv s + 50 ≤ mv then setF s CAL_STAT.LBF 0 else s

/-- LBF_CLEAR (R484): `mv` is VBAT at the time of the write. -/
def execLbfClear (mv : Nat) (s : State) : Host.Outcome State Fault Refusal :=
  .next (if calAccess s then lbfClear { s with cal := { s.cal with vbat := mv } } mv else s)

/-- The charger delivers current (R481, R482): enabled, main supplies within limits, VBAT not above VLIM. -/
def chgActive (s : State) : Bool :=
  isSet s CAL_CHG.EN && d1On s && s.pwr.mains && s.pwr.railBad.isEmpty &&
    decide (s.cal.vbat ≤ (if getF s CAL_CHG.VLIM = 0 then 2800 else if getF s CAL_CHG.VLIM = 1 then 3000 else 3300))

/-! ## Discipline (R496 to R498) -/

/-- One crystal tick of 30.517578125 µs in units of the counter. -/
def crystalTick : Nat := secUnit / 32768

/-- An integer quotient rounded to nearest, ties away from zero. -/
def roundDiv (n : Int) (d : Nat) : Int :=
  if n < 0 then -(((-n * 2 + d) / (2 * d))) else (n * 2 + d) / (2 * d)

/-- A value held within a limit. -/
def clampI (lim x : Int) : Int := if x < -lim then -lim else if lim < x then lim else x

/-- The trim after 1,024 points without a step (R497). -/
def trimAdjust (s : State) : State :=
  match s.cal.ticks, s.cal.ticks.drop 1024 with
  | now :: _, old :: _ =>
    let e : Int := (now : Int) - (old : Int) - ((1024 * secUnit : Nat) : Int)
    let t := signedOf 8 (getF s CAL_TRIM.TRIM) + roundDiv (e * 1024) secUnit
    let s := setF s CAL_TRIM.TRIM (unsignedOf 8 (clampI 127 t))
    if t < -127 ∨ 127 < t then setF s CAL_STAT.TRIM_SAT 1 else s
  | _, _ => s

/-- A discipline point is judged by the second tick nearest it: fields and phase error within their limits, or a step at the next point
(R497). -/
def calJudge (s : State) (point tick : Nat) : State :=
  let pe : Int := (tick : Int) - (point : Int)
  let us : Int := Int.tdiv pe ((1000 * nsUnit : Nat) : Int)
  let s := setF { s with cal := { s.cal with point := none } } CAL_DISC.PHASE (unsignedOf 16 (clampI 32767 us))
  let lim := max 1 (getF s CAL_CTRL.PHLIM)
  let utc := ((taiSec point : Int) - signedOf 16 (getF s TIM_UTC.TAI_UTC)).toNat
  if calSecs s + epoch2000 ≠ utc ∨ lim * crystalTick < pe.natAbs then
    { s with cal := { s.cal with stepNext := true, points := 0 } }
  else if s.cal.points + 1 = 1024 then trimAdjust { s with cal := { s.cal with points := 0 } }
  else { s with cal := { s.cal with points := s.cal.points + 1 } }

/-- What D1 does at a second tick: the seed of the TAI counter where it is due (R60, R499), the stamp of the tick, and the judgement of a
discipline point that waits for its nearest tick (R497). -/
def calTickD1 (stamp : Nat) (s : State) : State :=
  if d1On s then
    let due := seedDue s
    let s := { s with cal := { s.cal with ticked := true } }
    let s := if due then seed s else s
    let tick := if due then s.time.tai else stamp
    let last := s.cal.ticks.head?
    let s := { s with cal := { s.cal with ticks := (tick :: s.cal.ticks).take 1025 } }
    match s.cal.point with
    | none => s
    | some p => match last with
      | some l => if p - l < tick - p then calJudge s p l else calJudge s p tick
      | none => calJudge s p tick
  else s

/-- CAL_SECOND_TICK (R486, R488, R495, R496, R499): `stamp` is the TAI of the tick. -/
def execCalSecondTick (stamp : Nat) (s : State) : Host.Outcome State Fault Refusal :=
  .next (if s.mode == .off then s
    else
      let t := calSecs s + 1
      let wrap := t % 86400 == 0 && t / 86400 == 146097
      let s := calLoad s t
      let s := if wrap then setF (osfSet s 3) CAL_STAT.WRAPPED 1 else s
      calTickD1 stamp (calAlarm { s with cal := { s.cal with running := true } }))

/-- The counter reaches a whole UTC second in this cycle (R496): the TAI of that second. -/
def pointNow (s : State) : Option Nat :=
  let p := taiOf (taiSec s.time.tai) 0
  if s.time.running && decide (s.time.tai < p + max 1 (taiStep s)) then some p else none

/-- CAL_DISCIPLINE_POINT (R496 to R498): the counter has reached a whole UTC second. A step that is due acts; otherwise the point is
judged by the nearest second tick, the last one if it lies within half a second, else the next. -/
def execCalDisciplinePoint (s : State) : Host.Outcome State Fault Refusal :=
  .next (match (if calDisc s then pointNow s else none) with
    | none => s
    | some point =>
      if s.cal.stepNext then
        let s := incWrap (setFs (calLoad s (utcSec s - epoch2000)) [(CAL_STAT.OSF, 0), (CAL_STAT.STEPPED, 1)])
          CAL_DISC.STEPS
        { s with cal := { s.cal with stepNext := false, points := 0, point := none } }
      else match s.cal.point, s.cal.ticks.head? with
        | none, some l => if point - l ≤ secUnit / 2 then calJudge s point l else { s with cal := { s.cal with point := some point } }
        | none, none => { s with cal := { s.cal with point := some point } }
        | some _, _ => { s with cal := { s.cal with stepNext := true, points := 0, point := none } })

end Sys2Proof.Machine
end

