-- ==== Sys2Proof/Machine/Numbers.lean ====
section
/-!
DEFINITION. Number formats of the units: IEEE 754 binary32 with round to nearest, ties to even, FIX16 (Q15.16), the
conversions of Table 5.7, and sine and cosine as integers for the phasor unit (spec/05_bits_and_tagged_words.md, R138, R148;
spec/06_units.md, R164, R169, R173).
-/

namespace Sys2Proof.Machine

/-! ## Rounding -/

/-- A natural number divided by 2^k, rounded to nearest, ties to even. -/
def rneShr (n k : Nat) : Nat :=
  let q := n / 2 ^ k
  let r := n % 2 ^ k * 2
  if 2 ^ k < r then q + 1 else if r = 2 ^ k then q + q % 2 else q

/-- A natural number divided by d, rounded to nearest, ties to even. -/
def rneDiv (n d : Nat) : Nat :=
  let q := n / d
  let r := n % d * 2
  if d < r then q + 1 else if r = d then q + q % 2 else q

/-- An integer divided by 2^k, rounded to nearest, ties to even. -/
def rneShrI (x : Int) (k : Nat) : Int := if x < 0 then -(rneShr x.natAbs k : Int) else (rneShr x.natAbs k : Int)

/-- The square root of a natural number, rounded down: the greatest m below 2^bits with m² ≤ n. -/
def isqrt (n : Nat) : Nat :=
  go n (Nat.log2 n / 2 + 1) 0
where
  /-- One bit after another, from the highest. -/
  go (n : Nat) : Nat → Nat → Nat
    | 0, m => if (m + 1) * (m + 1) ≤ n then m + 1 else m
    | b + 1, m => go n b (if (m + 2 ^ (b + 1)) * (m + 2 ^ (b + 1)) ≤ n then m + 2 ^ (b + 1) else m)

/-! ## Binary32 -/

/-- The kinds of binary32 code. -/
def fExp (v : Nat) : Nat := v / 2 ^ 23 % 256
@[inherit_doc fExp] def fMant (v : Nat) : Nat := v % 2 ^ 23
@[inherit_doc fExp] def fNeg (v : Nat) : Bool := v / 2 ^ 31 % 2 == 1
@[inherit_doc fExp] def fNan (v : Nat) : Bool := fExp v == 255 && fMant v != 0
@[inherit_doc fExp] def fInf (v : Nat) : Bool := fExp v == 255 && fMant v == 0
@[inherit_doc fExp] def fFinite (v : Nat) : Bool := fExp v != 255
@[inherit_doc fExp] def fZero (v : Nat) : Bool := v % 2 ^ 31 == 0

/-- The magnitude of a finite code in units of 2^-149. -/
def fMag (v : Nat) : Nat := if fExp v = 0 then fMant v else (2 ^ 23 + fMant v) * 2 ^ (fExp v - 1)

/-- A finite code as an integer in units of 2^-149. -/
def fInt (v : Nat) : Int := if fNeg v then -(fMag v : Int) else (fMag v : Int)

/-- A sign and the code of a magnitude. -/
def fSign (neg : Bool) (mag : Nat) : Nat := (if neg then 2 ^ 31 else 0) + mag % 2 ^ 31

/-- Positive infinity. -/
def fInfCode : Nat := 0x7F800000

/-- The code of the magnitude mag / 2^sc, rounded to nearest, ties to even; overflow gives infinity. -/
def fRoundMag (mag sc : Nat) : Nat :=
  if mag = 0 then 0
  else
    let e : Int := (Nat.log2 mag : Int) - sc
    let q : Int := max (e - 23) (-149)
    let k : Int := q + sc
    let n := if 0 ≤ k then rneShr mag k.toNat else mag * 2 ^ (-k).toNat
    min fInfCode ((q + 149).toNat * 2 ^ 23 + n)

/-- An integer over 2^sc rounded to binary32; `zneg` is the sign of an exact zero. -/
def fRound (x : Int) (sc : Nat) (zneg : Bool) : Nat :=
  if x = 0 then fSign zneg 0 else fSign (x < 0) (fRoundMag x.natAbs sc)

/-- A NaN whose sign and payload the spec leaves open (R164, log entry 3, DESIGN CHOICE). -/
def fNanOf (a b : Nat) : Nat :=
  let v := Config.nanBits a b
  fSign (v % 2 == 1) (0x7F800001 + v / 2 % (2 ^ 23 - 1))

/-- Addition. -/
def fAdd (a b : Nat) : Nat :=
  if fNan a || fNan b then fNanOf a b
  else if fInf a then (if fInf b && fNeg a != fNeg b then fNanOf a b else a)
  else if fInf b then b
  else fRound (fInt a + fInt b) 149 (fNeg a && fNeg b)

/-- The same code with the other sign. -/
def fNegate (a : Nat) : Nat := fSign (!fNeg a) (a % 2 ^ 31)

/-- Subtraction. -/
def fSub (a b : Nat) : Nat := if fNan a || fNan b then fNanOf a b else fAdd a (fNegate b)

/-- Multiplication. -/
def fMul (a b : Nat) : Nat :=
  if fNan a || fNan b then fNanOf a b
  else if fInf a || fInf b then
    if fZero a || fZero b then fNanOf a b else fSign (fNeg a != fNeg b) fInfCode
  else fSign (fNeg a != fNeg b) (fRoundMag (fMag a * fMag b) 298)

/-- An order of binary32 codes other than NaN, in which −0 lies below +0 (Table 6.2, notes). -/
def fKey (a : Nat) : Int := if fNeg a then -((a % 2 ^ 31 : Nat) : Int) - 1 else (a % 2 ^ 31 : Nat)

/-- The value of a code for comparisons: −0 and +0 are equal. -/
def fCmpKey (a : Nat) : Int := if fNeg a then -((a % 2 ^ 31 : Nat) : Int) else (a % 2 ^ 31 : Nat)

/-! ## Numeric tags (R138) -/

/-- The numeric tags INT32, UINT32, FIX16, FLOAT32. -/
def numTags : List Nat := [2, 3, 4, 5]

/-- A tag is numeric. -/
def isNum (t : Nat) : Bool := 2 ≤ t && t ≤ 5

/-- A value saturated to a range: the value, and whether it was outside. -/
def satTo (lo hi x : Int) : Int × Bool := if x < lo then (lo, true) else if hi < x then (hi, true) else (x, false)

/-- Saturated to 32 bits signed (INT32, FIX16), or unsigned. -/
def sat32 (signed : Bool) (x : Int) : Nat × Bool :=
  if signed then let (v, s) := satTo (-2147483648) 2147483647 x; (unsignedOf 32 v, s)
  else let (v, s) := satTo 0 4294967295 x; (v.toNat, s)

/-- A conversion of Table 5.7 from tag to tag: the payload and whether it saturated; none for a NaN. -/
def convert (fr tg v : Nat) : Option (Nat × Bool) :=
  if fr = tg then (if fr = 5 ∧ fNan v then none else some (v, false))
  else if fr = 5 then
    if fNan v then none
    else if fInf v then
      some (if tg = 3 then (if fNeg v then 0 else 0xFFFFFFFF) else (if fNeg v then 0x80000000 else 0x7FFFFFFF), true)
    else some (sat32 (tg != 3) (rneShrI (fInt v * (if tg = 4 then 65536 else 1)) 149))
  else
    let x : Int := if fr = 3 then (v : Int) else signedOf 32 v
    let sc := if fr = 4 then 16 else 0
    match tg with
    | 5 => some (fRound x sc false, false)
    | 4 => some (sat32 true (x * 65536))
    | t => some (sat32 (t != 3) (rneShrI x sc))

/-! ## Sine and cosine -/

/-- Fractional bits of the phasor unit's exact references. -/
def trigBits : Nat := 96

/-- π in units of 2^-96. -/
def piQ : Nat := 248902613312231085230521944622

/-- The sum of the Taylor terms that follow a term: `k` is the index of the next factor, `x2` the square of the angle. -/
def taylor (x2 : Nat) : Nat → Nat → Nat → Int
  | 0, _, term => (term : Int)
  | fuel + 1, k, term => (term : Int) - taylor x2 fuel (k + 2) (term * x2 / 2 ^ trigBits / (k * (k + 1)))

/-- Cosine and sine, in units of 2^-96, of an angle of num/den of a quarter turn, 0 ≤ num ≤ den. -/
def quarter (num den : Nat) : Int × Int :=
  let x := piQ * num / (2 * den)
  let x2 := x * x / 2 ^ trigBits
  (taylor x2 16 1 (2 ^ trigBits), taylor x2 16 2 x)

/-- Cosine and sine, in units of 2^-96, of an angle of num/den of a turn. -/
def cosSin (num den : Nat) : Int × Int :=
  let n := num % den * 4
  let (c, s) := quarter (n % den) den
  match n / den with
  | 0 => (c, s)
  | 1 => (-s, c)
  | 2 => (-c, -s)
  | _ => (s, -c)

/-- The angle of a vector other than (0, 0), in units of 2^-32 turn, found bit by bit: the greatest angle of the vector's
quarter whose direction does not pass the vector. -/
def atanCode (re im : Int) : Nat :=
  let (q, x, y) := if 0 < re ∧ 0 ≤ im then (0, re, im) else if re ≤ 0 ∧ 0 < im then (1, im, -re)
    else if re < 0 ∧ im ≤ 0 then (2, -re, -im) else (3, -im, re)
  q * 2 ^ 30 + go x y 30 0
where
  /-- The bits of the angle within its quarter. -/
  go (x y : Int) : Nat → Nat → Nat
    | 0, a => a
    | b + 1, a =>
      let (c, s) := cosSin (a + 2 ^ b) (2 ^ 32)
      go x y b (if 0 ≤ y * c - x * s then a + 2 ^ b else a)

end Sys2Proof.Machine
end

