-- ==== Sys2Proof/Machine/Flags.lean ====
section
/-!
DEFINITION. Tag checks at a trigger and what a failed check does (spec/05_bits_and_tagged_words.md, R142 to R148;
spec/06_units.md, R161, R162), and the FLAGS word of the ALUs and MUL0 (R163).
-/

namespace Sys2Proof.Machine

open Reg

/-! ## FLAGS (R163) -/

/-- The FLAGS word: C, V, and Z and N of a result. -/
def flagsW (c v : Bool) (r : TWord) : TWord :=
  let x := r.val.toNat
  let z := if r.tag = 5 then fZero x else x == 0
  mkT 1 (b2n c + 2 * b2n v + 4 * b2n z + 8 * b2n (bitOf x 31))

/-! ## Positions (R142, R161) -/

/-- What an operation accepts in a position. -/
inductive Pos where
  /-- a pass-through position (R142) -/
  | any
  /-- a fixed set of tags -/
  | tags (l : List Nat)
  /-- ADDR whose payload is a bit address (R129), a word address (R133); PHREF (R139) -/
  | bitA | wordA | phref
  /-- the reference position -/
  | ref (l : List Nat)
  /-- =ref; the extra tags are accepted while the reference is COUNT or ANGLE (Table 6.2) -/
  | eqref (extra : List Nat)
  /-- the value of a CVT, which fails as MISMATCH when EMPTY (R165) -/
  | cvt (l : List Nat)
  /-- a position of a custom operation: accepted tags, and the tag of the REF position (R205) -/
  | mask (l : List Nat) (refTag : Nat)
  deriving DecidableEq, Repr

/-- What an operation checks and writes: its positions in the order T (4), OPD0 to OPD3 (R142), its result registers. -/
structure Spec where
  pos : List (Nat × Pos)
  res : List Nat
  deriving DecidableEq, Repr

/-- A position that a trigger's operand registers reach: T is 4. -/
def Spec.uses (sp : Spec) (i : Nat) : Bool := sp.pos.any fun p => p.1 == i

/-- The lowest-coded numeric tag of a set. -/
def lowNum (l : List Nat) : Option Nat := numTags.find? l.contains

/-- The tags a position accepts by itself. -/
def Pos.list : Pos → List Nat
  | .any => []
  | .tags l => l
  | .bitA | .wordA => [12]
  | .phref => [11]
  | .ref l => l
  | .eqref l => l
  | .cvt l => l
  | .mask l _ => l

/-- An operation counts as numeric (R161). -/
def Spec.numeric (sp : Spec) : Bool := sp.pos.any fun p => p.2.list.any isNum

/-- The payload of an accepted address is valid for its position (R129, R133, R139, R142). A PHREF must be valid wherever it is
checked; an ADDR in a position that consumes neither a bit nor a word must be one of the two, and the bit addresses are the wider
range (log entry 122, DEDUCED). -/
def addrOk (p : Pos) (tag v : Nat) : Bool :=
  if tag = 11 then bitsOf v 19 9 == 0 && (v / 2 ^ 28 == 4 || v / 2 ^ 28 == 5) && v % 2 ^ 19 != 0x7FFFF
  else if tag = 12 then (match p with | .wordA => v < 2 ^ 19 | _ => v < 2 ^ 20)
  else true

/-- The operand of a position: OPD0 to OPD3 and T stand at 0 to 4. -/
def opd (vals : List TWord) (i : Nat) : TWord := nth TWord.empty vals i

/-- The reference tag, when the reference holds or is converted to one, and the tags its position accepts (R161). -/
def refOf (sp : Spec) (coerce : Bool) (vals : List TWord) : Option Nat × List Nat :=
  match sp.pos.find? fun p => match p.2 with | .ref _ => true | _ => false with
  | some (i, .ref l) =>
    let t := (opd vals i).tag.toNat
    (if l.contains t then some t else if coerce && isNum t then lowNum l else none, l)
  | _ => (none, [])

/-- A failed position: its index, the cause of Table 5.5, the coercion target. -/
structure Fail where
  idx : Nat
  cause : Nat
  tgt : Option Nat
  deriving DecidableEq, Repr

/-- A position is judged: none when it passes (R142, Table 5.6). -/
def judge (sp : Spec) (rt : Option Nat × List Nat) (vals : List TWord) (i : Nat) (p : Pos) : Option Fail :=
  let v := opd vals i
  let t := v.tag.toNat
  if p = .any then none
  else if t = 15 then some ⟨i, 0, none⟩
  else
    let acc := match p with
      | .eqref ex => (match rt.1 with
        | some r => r :: (if r = 6 ∨ r = 9 then ex else [])
        | none => rt.2)
      | q => q.list
    if acc.contains t then (if addrOk p t v.val.toNat then none else some ⟨i, 4, none⟩)
    else if t = 0 then some ⟨i, if sp.numeric && !(match p with | .cvt _ => true | _ => false) then 2 else 1, none⟩
    else if isNum t then
      some ⟨i, 1, match p with
        | .eqref _ => (match rt.1 with | some r => if isNum r then some r else lowNum acc | none => lowNum acc)
        | .mask l r => if isNum r && l.contains r then some r else lowNum l
        | q => lowNum q.list⟩
    else some ⟨i, 1, none⟩

/-- Every failed position, in the order of R142. -/
def fails (sp : Spec) (coerce : Bool) (vals : List TWord) : List Fail :=
  let rt := refOf sp coerce vals
  sp.pos.filterMap fun p => judge sp rt vals p.1 p.2

/-- The operands with every failure that COERCE removes converted (R148): whether one saturated, and the failures left,
with cause NAN for a NaN. -/
def coerceAll (vals : List TWord) : List Fail → List TWord × Bool × List Fail
  | [] => (vals, false, [])
  | f :: rest =>
    let (vs, sat, left) := coerceAll vals rest
    match f.tgt with
    | none => (vs, sat, f :: left)
    | some tg =>
      let v := opd vals f.idx
      match convert v.tag.toNat tg v.val.toNat with
      | none => (vs, sat, { f with cause := 5 } :: left)
      | some (x, s) => (vs.set f.idx (mkT tg x), sat || s, left)

/-- The payload of a POISON of a new cause (Table 5.5). -/
def poisonNew (o : Origin) (cause : Nat) : TWord :=
  mkT 15 (cause * 2 ^ 28 + o.task * 2 ^ 25 + o.bank * 2 ^ 24 + o.slot * 2 ^ 21 + o.pc)

/-- The first POISON operand that the operation uses (R146). -/
def firstPoison (sp : Spec) (vals : List TWord) : Option TWord :=
  (sp.pos.map fun p => opd vals p.1).find? fun v => v.tag == 15

/-! ## What a failed check does -/

/-- A failed check or operation fault counts once and is recorded (R142, R162, R207): `opnd`, the tag found, an address
failure; `micro` the entry and index of a micro-trigger. Of two failures of one cycle the one of the lower slot is recorded (case 6);
positions above 4 are samples of a DFT, which OPD0 names. -/
def recordFail (s : State) (o : Origin) (micro : Option (Nat × Nat)) (opnd found : Nat) (addrf : Bool) : State :=
  let s := setF (incSat s CORE_TAGCNT.FAIL CORE_TAGSTAT.FAIL_OVF) CORE_TAGSTAT.MISMATCH 1
  let keep := isSet s CORE_TAGREC.VALID && !(s.core.recAt == s.core.cyc && decide (o.slot < getF s CORE_TAGREC.SLOT))
  let s := if keep then s
    else setFs { s with core := { s.core with recAt := s.core.cyc } }
      [(CORE_TAGREC.VALID, 1), (CORE_TAGREC.TASK, o.task), (CORE_TAGREC.BANK, o.bank), (CORE_TAGREC.SLOT, o.slot),
        (CORE_TAGREC.FOUND, found), (CORE_TAGREC.OPND, if 4 < opnd then 0 else opnd), (CORE_TAGREC.ADDRF, b2n addrf),
        (CORE_TAGREC.PC, o.pc)]
  match micro with
  | some (e, m) => if isSet s CORE_DTREC.VALID then s
      else setFs s [(CORE_DTREC.VALID, 1), (CORE_DTREC.OP, e), (CORE_DTREC.MIDX, m)]
  | none => s

/-- The policy in force for a task: 0 TRAP, 1 POISON, 2 COERCE (R144). -/
def polOf (s : State) (t : Nat) : Nat := nth 0 s.core.pol t

/-- What a check gives: the operands to use, the POISON result of an operation that does not fire, or a trap. -/
inductive Checked where
  | fires (vals : List TWord)
  | poison (w : TWord)
  | trap
  deriving DecidableEq, Repr

/-- The check of a trigger (R142 to R148): operands OPD0 to OPD3, T. A trap or a DATA_ECC halt is a halt cause of this
cycle. -/
def checkTags (s : State) (sp : Spec) (o : Origin) (micro : Option (Nat × Nat)) (vals : List TWord) : Checked × State :=
  let pol := polOf s o.task
  match fails sp (pol == 2) vals with
  | [] => (.fires vals, s)
  | f :: rest =>
    let all := f :: rest
    let s := recordFail s o micro f.idx (opd vals f.idx).tag.toNat (f.cause == 4)
    if pol = 0 then
      let ecc (x : Fail) : Bool := x.cause == 0 && (opd vals x.idx).val.toNat / 2 ^ 28 == 3
      let s := if all.any fun x => !ecc x then halt s 2 else s
      (.trap, if all.any ecc then halt s 4 else s)
    else
      match firstPoison sp vals with
      | some w => (.poison w, s)
      | none =>
        let (vs, sat, left) := if pol = 2 then coerceAll vals all else (vals, false, all)
        let s := if left.length < all.length then setF s CORE_TAGSTAT.COERCED 1 else s
        let s := if sat then setF s CORE_TAGSTAT.SATURATED 1 else s
        match left with
        | [] => (.fires vs, s)
        | x :: _ => (.poison (poisonNew o x.cause), setF s CORE_TAGSTAT.POISONED 1)

/-- An operation fault (R162): the position at fault, and cause 6 OPFAULT or 5 NAN. -/
def opFault (s : State) (o : Origin) (micro : Option (Nat × Nat)) (vals : List TWord) (idx cause : Nat) :
    Checked × State :=
  let s := recordFail s o micro idx (opd vals idx).tag.toNat false
  if polOf s o.task = 0 then (.trap, halt s 2)
  else (.poison (poisonNew o cause), setF s CORE_TAGSTAT.POISONED 1)

/-- A computed address out of range (R174): cause ADDRESS, recorded against a position. -/
def addrFault (s : State) (sp : Spec) (o : Origin) (micro : Option (Nat × Nat)) (vals : List TWord) (idx : Nat) :
    Checked × State :=
  let s := recordFail s o micro idx (opd vals idx).tag.toNat true
  if polOf s o.task = 0 then (.trap, halt s 2)
  else match firstPoison sp vals with
    | some w => (.poison w, s)
    | none => (.poison (poisonNew o 4), setF s CORE_TAGSTAT.POISONED 1)

/-- An S-class operation or a branch is suppressed (R147). -/
def squash (s : State) : State :=
  setF (incSat s CORE_TAGCNT.SQUASH CORE_TAGSTAT.SQUASH_OVF) CORE_TAGSTAT.SQUASHED 1

end Sys2Proof.Machine
end

