-- ==== Sys2Proof/Machine/Operands.lean ====
section
/-!
DEFINITION. Moves and their operands (spec/04_move_engine.md, R96 to R109): the fields of a move word, its legality, the ports
of every unit, what a source reads, what a guard reads, the registers of a context, and what a run obtains from outside its
context in hot standby (spec/06_units.md, R190; spec/10_hot_standby.md, R286).
-/

namespace Sys2Proof.Machine

open Reg

/-! ## The move word (R96 to R101) -/

/-- The fields of a move word (Table 4.1). -/
structure Move where
  inv : Bool
  gidx : Nat
  src : Nat
  dst : Nat
  trc : Bool
  sh16 : Bool
  itag : Nat
  deriving DecidableEq, Repr

/-- The fields of a word (Tables 4.1, 4.2). -/
def Move.ofWord (w : Nat) : Move :=
  { inv := bitOf w 31, gidx := bitsOf w 27 4, src := bitsOf w 16 11, dst := bitsOf w 6 10, trc := bitOf w 5,
    sh16 := bitOf w 4, itag := bitsOf w 0 4 }

/-- A source port that Table 4.3 or the unit catalogue assigns (R101, R159). -/
def srcPort (p : Nat) : Bool :=
  p < 4 || (1 ≤ p / 16 && p / 16 ≤ 0x10 && p % 16 < 4) || (0x300 ≤ p && p < 0x340) ||
    [0x0C4, 0x0C5, 0x0D4, 0x0E4, 0x0E5, 0x0E6, 0x0E7, 0x0E8, 0x104].contains p

/-- The first port above the triggers of a unit (Table 4.3 and the tables of chapter 6). -/
def trigEnd (unit : Nat) : Nat :=
  match unit with
  | 7 => 7
  | 8 => 8
  | 9 | 10 => 10
  | 11 => 13
  | 12 => 11
  | 13 => 10
  | 14 => 5
  | 16 => 5
  | _ => 16

/-- A destination port that Table 4.3 or the unit catalogue assigns. -/
def dstPort (p : Nat) : Bool :=
  p = 0 || (1 ≤ p / 16 && p / 16 ≤ 0x10 && p % 16 < trigEnd (p / 16)) || (0x300 ≤ p && p < 0x340)

/-- A move is illegal at a slot (R101). -/
def Move.illegal (m : Move) (slot : Nat) : Bool :=
  let imm := 0x400 ≤ m.src
  let limm := m.src == 1
  (!imm && !srcPort m.src) || !dstPort m.dst || (limm && slot == 7) ||
    ((imm || limm) && (m.itag == 0 || 13 ≤ m.itag)) || (!imm && !limm && m.itag != 0) || (!imm && m.sh16)

/-- The value of a short immediate (R98). -/
def immWord (m : Move) : TWord :=
  let v := unsignedOf 32 (signedOf 10 (m.src % 1024))
  mkT m.itag (if m.sh16 then v * 65536 % 2 ^ 32 else v)

/-! ## Registers of a context (R103, R104, R106) -/

/-- Key of an operand register, and of a result register, of a unit in a task's context. -/
def opdKey (t unit i : Nat) : Nat := 4096 * t + 16 * unit + i
@[inherit_doc opdKey] def resKey (t unit i : Nat) : Nat := 4096 * t + 2048 + 16 * unit + i

/-- A register of a context. -/
def getCtx (s : State) (k : Nat) : TWord := sget TWord.empty s.core.ctx k

/-- The state with a register of a context set. -/
def setCtx (s : State) (k : Nat) (v : TWord) : State :=
  { s with core := { s.core with ctx := sset TWord.empty s.core.ctx k v } }

/-- A holding register of a context. -/
def getHold (s : State) (t n : Nat) : TWord := sget TWord.empty s.core.hold (64 * t + n)

/-- The state with a holding register set. -/
def setHold (s : State) (t n : Nat) (v : TWord) : State :=
  { s with core := { s.core with hold := sset TWord.empty s.core.hold (64 * t + n) v } }

/-- The four operand registers of a unit in a context. -/
def opdsOf (s : State) (t unit : Nat) : List TWord := (List.range 4).map fun i => getCtx s (opdKey t unit i)

/-! ## Hot standby (R190, R286) -/

/-- A replica runs: the unit replays its partner's runs. -/
def replica (s : State) : Bool := s.sby.replaying && (s.mode == .track || s.mode == .takeover)

/-- The first value the stream holds for a task and a source, and the queue without it. -/
def takeExt (t a : Nat) : List (Nat × Nat × TWord) → Option (TWord × List (Nat × Nat × TWord))
  | [] => none
  | e :: rest =>
    if e.1 = t ∧ e.2.1 = a then some (e.2.2, rest) else (takeExt t a rest).map fun r => (r.1, e :: r.2)

/-- A value of R190 that a run obtains from a source: the secondary takes the primary's, the primary sends its own. -/
def obtain (s : State) (t a : Nat) (own : TWord) : TWord × State :=
  if replica s then
    match takeExt t a s.sby.extQueue with
    | some (v, q) => (v, { s with sby := { s.sby with extQueue := q } })
    | none => (own, s)
  else (own, streamEv s (.ext t 1 a own))

/-- A bit of the station-status or system-bit region as a run reads it (R286). -/
def obtainBit (s : State) (t a : Nat) (own : Bool) : Bool × State :=
  let k := 2 ^ 21 * t + a
  if replica s then
    match s.sby.extRec.lookup k with
    | some v => (bitOf v.val.toNat 0, s)
    | none => (own, s)
  else if !s.sby.streaming || s.sby.extSent.lookup k == some (boolW own) then (own, s)
  else
    let s := streamEv s (.ext t 0 a (boolW own))
    (own, { s with sby := { s.sby with extSent := (k, boolW own) :: s.sby.extSent.filter fun p => p.1 != k } })

/-- A bit as a run of a task reads it, checked (R135, R286). -/
def runBit (s : State) (t a : Nat) : Bool × State :=
  let (b, s) := readTaskBit s t a
  if 0x20000 ≤ a ∧ a < 0x40000 then obtainBit s t a b else (b, s)

/-! ## Sources -/

/-- Pending slots of the TMU. -/
def tmuPending (s : State) : Nat := (s.core.tmu.filter fun x => x.ev.isSome).length

/-- Mailboxes that hold a frame, one bit each. -/
def mbxNe (s : State) : Nat :=
  ((List.range 16).map fun n => if (nth [] s.core.mbx n).isEmpty then 0 else 2 ^ n).sum

/-- Fast queues with room, one bit each (R188). -/
def foRoom (s : State) : Nat :=
  ((List.range 8).map fun k => if (nth [] s.core.fastQ k).length < 4 then 2 ^ k else 0).sum

/-- What a source port reads in a task's context, at the start of the cycle (R95, R105, and the status ports of chapter 6). -/
def readSrc (s : State) (t p : Nat) : TWord × State :=
  if 0x300 ≤ p ∧ p < 0x340 then (getHold s t (p - 0x300), s)
  else if 1 ≤ p / 16 ∧ p % 16 < 4 then (getCtx s (resKey t (p / 16) (p % 16)), s)
  else match p with
  | 0x000 => (mkT 2 0, s)
  | 0x002 => (mkT 3 t, s)
  | 0x003 => obtain s t p (mkT 9 s.core.cyc)
  | 0x0C4 => obtain s t p (mkT 3 (tmuPending s))
  | 0x0C5 => obtain s t p (mkT 3 s.core.fifo.length)
  | 0x0D4 => obtain s t p (mkT 1 (mbxNe s))
  | 0x0E4 => (mkT 9 (task s t).scan, s)
  | 0x0E5 => (mkT 9 ((task s t).scan / 2 ^ 32), s)
  | 0x0E6 => (mkT 8 (stampWords (task s t).frzCls (task s t).frzTai).1, s)
  | 0x0E7 => (mkT 7 (stampWords (task s t).frzCls (task s t).frzTai).2, s)
  | 0x0E8 =>
    let i := (task s t).trig
    (mkT 3 (i.k % 512 + 512 * b2n i.late + 1024 * b2n i.freerun), s)
  | 0x104 => obtain s t p (mkT 1 (foRoom s))
  | _ => (TWord.empty, s)

/-! ## Guards (R107 to R109) -/

/-- How a guard stands at issue: false or true now, or known in a later cycle with its outcome. -/
structure Guard where
  ok : Bool
  /-- resolution cycle; the issue cycle when the guard is resolved at issue -/
  res : Nat
  deriving DecidableEq, Repr

/-- The guard of a move in a task: the bit, and when it was last written (R109). -/
def evalGuard (s : State) (t : Nat) (m : Move) : Guard × State :=
  if m.gidx = 15 then ({ ok := !m.inv, res := s.core.cyc }, s)
  else
    let a := nth 0 (nth [] s.core.gal t) m.gidx
    let (b, s) := runBit s t a
    let res := match s.core.bitWrites.lookup (bitLogKey t a) with
      | some w => if s.core.cyc ≤ w + 2 then w + 3 else s.core.cyc
      | none => s.core.cyc
    ({ ok := b != m.inv, res := res }, s)

/-! ## Program memory (R93) -/

/-- The word of a slot in a bank. -/
def bankWord (bank : List (Nat × Word)) (pc slot : Nat) : Nat := (sget 0 bank (8 * pc + slot)).toNat

/-- Slots of a bundle that hold the payload of a long immediate (R99). -/
def payloadSlots (ws : List Nat) : List Bool :=
  (ws.foldl (fun (acc : List Bool × Bool) w =>
    if acc.2 then (acc.1 ++ [true], false) else (acc.1 ++ [false], (Move.ofWord w).src == 1)) ([], false)).1

/-- A bundle holds an illegal move (R101). -/
def bundleIllegal (ws : List Nat) : Bool :=
  ((ws.zip (payloadSlots ws)).zipIdx).any fun p => !p.1.2 && (Move.ofWord p.1.1).illegal p.2

/-- A bundle holds a move into a MAC trigger other than SEL (R210). -/
def bundleMac (ws : List Nat) : Bool :=
  (ws.zip (payloadSlots ws)).any fun p => !p.2 &&
    (0x0F5 ≤ (Move.ofWord p.1).dst && (Move.ofWord p.1).dst ≤ 0x0FF)

end Sys2Proof.Machine
end

