-- ==== Sys2Proof/Machine/Clock.lean ====
section
/-!
DEFINITION. The two clocks (spec/02_two_clocks.md): time sources, selection, correction, holdover (R23 to R45), Plumb
(R46 to R56), and what both do in one core cycle.
-/

namespace Sys2Proof.Machine

open Reg

/-! ## Sources (R29 to R41) -/

/-- The domains a source needs are on, and the mode lets it be measured (Tables 2.3, 2.8). -/
def srcOn (s : State) (n : Nat) : Bool :=
  !absent s && s.time.running && isSet s (TIM_SRC_CFG.EN n) &&
    (if n < 4 then domOn s 6 && domOn s 7 else if n = 6 then domOn s 9 else true)

/-- Of two sources, the first ranks better: TQ, PRIO, number (R39). -/
def ranksBefore (s : State) (a b : Nat) : Bool :=
  let key (n : Nat) := getF s (TIM_SRC_STAT.TQ n) * 64 + getF s (TIM_SRC_CFG.PRIO n) * 8 + n
  key a < key b

/-- The best-ranked qualified source; with FORCE_SRC the forced one (R39, R40); none while DISC_EN is 0 (Table 2.10). -/
def bestSource (s : State) : Option Nat :=
  if !isSet s TIM_CTRL.DISC_EN then none
  else
    let force := getF s TIM_CTRL.FORCE_SRC
    let q := (List.range 7).filter fun n => isSet s (TIM_SRC_STAT.QUALIFIED n) && (force == 0xF || force == n)
    q.foldl (fun b n => match b with
      | some m => if ranksBefore s n m then some n else some m
      | none => some n) none

/-- ACTIVE_SRC changes: SELECTED, LOCKED, HOLDOVER, journal entry and event (R40, R43). The bit HOLDOVER says whether a source is
active (Table 2.11); the growth of TIM_UNC, once begun, ends at the first correction (`correct`; log entry 114, DEDUCED). -/
def changeActive (s : State) (n : Nat) : State :=
  if getF s TIM_STAT.ACTIVE_SRC = n then s
  else
    let s := (List.range 7).foldl (fun s i => setF s (TIM_SRC_STAT.SELECTED i) (b2n (i == n))) s
    let s := if n = 0xF then { s with time := { s.time with holdSet := s.time.tai } } else s
    let s := setFs s [(TIM_STAT.ACTIVE_SRC, n), (TIM_STAT.LOCKED, b2n (n < 7)), (TIM_STAT.HOLDOVER, b2n (n == 0xF))]
    let s := if n = 0xF ∧ !s.time.growing then
        { s with time := { s.time with holdBase := getF s TIM_UNC.UNC, holdStart := s.time.tai, growing := true } }
      else s
    note s TIM_STAT.ACTIVE_SRC

/-- The selection after a change of QUALIFIED, of DISC_EN or of FORCE_SRC, as far as it is immediate (R40, R45): an active
source that has lost QUALIFIED or is no longer allowed is replaced, no source gives way to a qualified one, and source 0xE to
one whose TQ is at least as good as the manual TQ. -/
def reselect (s : State) : State :=
  let a := getF s TIM_STAT.ACTIVE_SRC
  let force := getF s TIM_CTRL.FORCE_SRC
  let keep := a < 7 && isSet s (TIM_SRC_STAT.QUALIFIED a) && isSet s TIM_CTRL.DISC_EN && (force == 0xF || force == a)
  if keep then s
  else match bestSource s with
    | some n =>
      if a = 0xE ∧ force = 0xF ∧ s.time.manualTq < getF s (TIM_SRC_STAT.TQ n) then s else changeActive s n
    | none => if a = 0xE ∧ force = 0xF ∧ isSet s TIM_CTRL.DISC_EN then s else changeActive s 0xF

/-- Two qualified sources disagree now (R44). -/
def disagreeNow (s : State) : Bool :=
  let q := (List.range 7).filter fun n => isSet s (TIM_SRC_STAT.QUALIFIED n)
  let o (n : Nat) := signedOf 32 (getF s (TIM_SRC_OFFSET.OFFSET n))
  q.any fun a => q.any fun b => decide ((getF s TIM_DISAGREE.LIM : Int) < o a - o b)

/-- SRC_DISAGREE is set while they do; the event is raised once (R44). Called wherever QUALIFIED, an offset, the limit or the flag
may have changed. -/
def checkDisagree (s : State) : State :=
  let d := disagreeNow s
  let s1 := { s with time := { s.time with disagree := d } }
  if d then (if s.time.disagree then setF s1 TIM_STAT.SRC_DISAGREE 1 else setRaise s1 TIM_STAT.SRC_DISAGREE 1) else s1

/-- VALID of a source changes; QUALIFIED goes with it (R39). -/
def setValidSrc (s : State) (n : Nat) (v : Bool) : State :=
  let s := setF s (TIM_SRC_STAT.VALID n) (b2n v)
  if v then s else checkDisagree (reselect (setF s (TIM_SRC_STAT.QUALIFIED n) 0))

/-- The source uncertainty, and the source TQ derived from it (R36, Table 2.15); source 0xE gives way as soon as a qualified
source's TQ is at least as good as the manual one (R45). -/
def setSrcUnc (s : State) (n unc : Nat) : State :=
  let s := setF { s with time := { s.time with srcUnc := s.time.srcUnc.set n unc } } (TIM_SRC_STAT.TQ n) (tqOf unc)
  if getF s TIM_STAT.ACTIVE_SRC = 0xE then reselect s else s

/-- LEAP_PENDING follows the two flags (Table 2.11); a flag that has just set names its midnight (R26). -/
def leapPending (s : State) : State :=
  let p := isSet s TIM_UTC.LEAP61 || isSet s TIM_UTC.LEAP59
  setF (if p && !isSet s TIM_STAT.LEAP_PENDING then setLeapAt s else s) TIM_STAT.LEAP_PENDING (b2n p)

/-- The flagged UTC minute has ended (R26): its last second is 60 with LEAP61 and 58 with LEAP59. -/
def leapDue (s : State) : Bool :=
  (isSet s TIM_UTC.LEAP61 && decide (s.time.leapAt + 1 ≤ utcSec s)) ||
    (isSet s TIM_UTC.LEAP59 && decide (s.time.leapAt ≤ utcSec s + 1))

/-- TAI_UTC and the leap flags as a source gives them; a source that reports both flags loads neither (R26). -/
def loadLeap (s : State) (l61 l59 : Bool) : State :=
  if l61 && l59 then s else leapPending (setFs s [(TIM_UTC.LEAP61, b2n l61), (TIM_UTC.LEAP59, b2n l59)])

/-! ## Stamps (R27) -/

/-- The resolution of stamps in units of the counter: 1 ns, or 2.5 ns while the interpolator has failed or is being tested
(Tables 2.1, 3.6a, 3.7; log entry 115, DESIGN CHOICE). -/
def stampUnit (s : State) : Nat := if s.ms.interpOff || testing s 11 then 5 * nsUnit / 2 else nsUnit

/-- A raw stamp at the resolution of its point (R27, R28: rounded down). -/
def rawStamp (s : State) (t : Nat) : Nat := t / stampUnit s * stampUnit s

/-- A stamp that the device takes of what it sends, some time ahead of now: the instant within the core cycle is left open
(R27; log entry 115, DESIGN CHOICE). -/
def ownStamp (s : State) (ahead : Nat) : Nat × State :=
  let (v, s) := drawFree s
  (rawStamp s (s.time.tai + ahead + v % (5 * nsUnit / 2)), s)

/-! ## Correction (R36, R42) -/

/-- Three times the RMS of the last offsets, ns, rounded down (R36; log entry 14, DESIGN CHOICE). -/
def rms3 (offs : List Int) : Nat :=
  if offs.isEmpty then 0 else isqrt (9 * (offs.map fun x => x.natAbs * x.natAbs).sum / offs.length)

/-- TIM_UNC and the code that follows it at a correction (R36, R37). -/
def setUnc (s : State) (unc : Nat) : State :=
  let u := min unc (2 ^ 32 - 1)
  setFs s [(TIM_UNC.UNC, u), (TIM_STAT.TQ, tqOf u), (TIM_STAT.CAL_DERIVED, 0), (TIM_STAT.TIME_VALID, 1)]

/-- The counter is stepped by an offset in units of the counter (R42; case 2). -/
def stepClock (s : State) (off : Int) : State :=
  let t := ((s.time.tai : Int) + off).toNat
  let s1 := { s with time := { s.time with tai := t, skipped := if 0 < off then some (s.time.tai, t) else none } }
  setRaise s1 TIM_STAT.STEPPED 1

/-- A step is allowed for an offset (R42). -/
def stepAllowed (s : State) (offNs : Nat) : Bool :=
  (decide (getF s TIM_STEP_LIM.LIM < offNs) && (!inMode s runModes || isSet s TIM_CTRL.STEP_RUN)) ||
    getF s TIM_STAT.TQ == 0xE || getF s TIM_STAT.TQ == 0xF

/-- The limit of TIM_FADJ (R24). -/
def fadjLimit : Int := 2147484

/-- A slew: TIM_FADJ takes a value of the discipline logic, which the spec leaves open within its limit (R24, R42). -/
def slew (s : State) : State :=
  let (v, s) := drawFree s
  let f := clampI fadjLimit (signedOf 32 v)
  setFs s [(TIM_FADJ.FADJ, unsignedOf 32 f), (TIM_STAT.SLEWING, b2n (f.natAbs == fadjLimit.natAbs))]

/-- The measured offset of the active source is corrected (R36, R42); holdover's growth ends (R43). -/
def correct (s : State) (n : Nat) (off : Int) : State :=
  let s := if stepAllowed s (off.natAbs / nsUnit) then stepClock s off else slew s
  let s := { s with time := { s.time with growing := false } }
  setUnc s (nth 0 s.time.srcUnc n + rms3 (nth [] s.time.offs n) + getF s TIM_ASYM.ASYM)

/-- A source's offset has been measured, in units of the counter: OFFSET, the last sixteen, disagreement, correction when the
source is active. -/
def measured (s : State) (n : Nat) (off : Int) : State :=
  let ns := off / (nsUnit : Int)
  let s := setF s (TIM_SRC_OFFSET.OFFSET n) (unsignedOf 32 (clampI (2 ^ 31 - 1) ns))
  let s := { s with time := { s.time with offs := upd s.time.offs n fun l => (ns :: l).take 16 } }
  let s := checkDisagree s
  if getF s TIM_STAT.ACTIVE_SRC = n ∧ isSet s TIM_CTRL.DISC_EN then correct s n off else s

/-- SOURCE_QUALIFIED (R39, R40): the source has been VALID for QUAL_TIME seconds. -/
def execSourceQualified (n : Nat) (s : State) : Host.Outcome State Fault Refusal :=
  .next (if srcOn s n && isSet s (TIM_SRC_STAT.VALID n) && !isSet s (TIM_SRC_STAT.QUALIFIED n) then
      checkDisagree (reselect (setF s (TIM_SRC_STAT.QUALIFIED n) 1))
    else s)

/-- SOURCE_SWITCH (R40): the source has ranked better than the active one for SEL_HOLD seconds. -/
def execSourceSwitch (n : Nat) (s : State) : Host.Outcome State Fault Refusal :=
  .next (if !absent s && bestSource s == some n && decide (getF s TIM_STAT.ACTIVE_SRC < 7) then changeActive s n else s)

/-- HOLDOVER_UPDATE (R43): every 1 µs in holdover. -/
def execHoldoverUpdate (s : State) : Host.Outcome State Fault Refusal :=
  .next (if d1On s && s.time.running && s.time.growing then
      let el := (s.time.tai - s.time.holdStart) / nsUnit
      let u := min (s.time.holdBase + getF s TIM_HOLD_RATE.RATE * el / 1000000000) (2 ^ 32 - 1)
      let s := setF s TIM_UNC.UNC u
      if isSet s TIM_STAT.TIME_VALID && !isSet s TIM_STAT.CAL_DERIVED then setF s TIM_STAT.TQ (tqOf u) else s
    else s)

/-- LEAP_SECOND (R26, R498): the flagged UTC minute has ended. -/
def execLeapSecond (s : State) : Host.Outcome State Fault Refusal :=
  .next (if d1On s && s.time.running && leapDue s then
      let d : Int := if isSet s TIM_UTC.LEAP61 then 1 else -1
      let s := setF s TIM_UTC.TAI_UTC (unsignedOf 16 (signedOf 16 (getF s TIM_UTC.TAI_UTC) + d))
      let s := leapPending (setFs s [(TIM_UTC.LEAP61, 0), (TIM_UTC.LEAP59, 0)])
      { s with cal := { s.cal with leapEnd := s.time.tai + 10 * secUnit }, time := { s.time with leapDone := some s.time.tai } }
    else s)

/-! ## IRIG-B (R33) -/

/-- A frame that R33 takes as good: parity, markers, a possible date. -/
def irigOk (s : State) (f : IrigFrame) : Bool :=
  let y := match f.year with | some y => 2000 + y % 100 | none => unbcd4 (getF s CAL_DATE.YEAR)
  f.parityOk && f.markersOk && 1 ≤ f.day && f.day ≤ (if isLeap y then 366 else 365) && f.hour ≤ 23 && f.minute ≤ 59 &&
    f.second ≤ 59

/-- The TAI that a good frame gives for its on-time marker, in seconds. -/
def irigTai (s : State) (f : IrigFrame) : Int :=
  let y := match f.year with | some y => 2000 + y % 100 | none => unbcd4 (getF s CAL_DATE.YEAR)
  let utc : Int := epoch2000 + (yearDays y + (f.day - 1)) * 86400 + f.hour * 3600 + f.minute * 60 + f.second
  let loc : Int := if getF s (TIM_SRC_CFG.PROFILE 4) = 0 then 0 else f.offset * 1800
  utc - loc + signedOf 16 (getF s TIM_UTC.TAI_UTC)

/-- Bound in ns of a time-quality nibble of IEEE 1344; none for 0, the locked clock (R33, R36; log entry 116, PRESUMED). -/
def irigNibble (q : Nat) : Option Nat :=
  if q % 16 = 0 then none else if q % 16 ≤ 11 then some (10 ^ (q % 16 - 1)) else some (2 ^ 32 - 1)

/-- Bound in ns of the extension of IEEE C37.118; none for 0, not used (R33, R36; log entry 116, PRESUMED). -/
def irigCtq (q : Nat) : Option Nat :=
  if q % 8 = 0 then none else if q % 8 ≤ 6 then some (10 ^ (q % 8 + 1)) else some (2 ^ 32 - 1)

/-- The source uncertainty of a good frame, as PROFILE reads it (R33, R36). -/
def irigUnc (s : State) (f : IrigFrame) : Nat :=
  let own := getF s (TIM_SRC_CFG.SRC_UNC 4) * 10
  match getF s (TIM_SRC_CFG.PROFILE 4) with
  | 1 => (irigNibble f.quality).getD own
  | 2 => ((irigCtq f.ctq).orElse fun _ => irigNibble f.quality).getD own
  | _ => own

/-- The IRIG-B source is invalid for this second. -/
def irigBad (s : State) : State := setValidSrc { s with time := { s.time with irigGood := 0 } } 4 false

/-- IRIGB_FRAME (R33). -/
def execIrigbFrame (f : IrigFrame) (s : State) : Host.Outcome State Fault Refusal :=
  .next (if !srcOn s 4 then s
    else if !irigOk s f then irigBad s
    else
      let ext := getF s (TIM_SRC_CFG.PROFILE 4) != 0
      let s := setSrcUnc s 4 (irigUnc s f)
      let s := { s with time := { s.time with irigGood := min 3 (s.time.irigGood + 1) } }
      let s := if s.time.irigGood = 3 then setValidSrc s 4 true else s
      let s := if ext && f.lsp && getF s TIM_STAT.ACTIVE_SRC == 4 then loadLeap s (!f.leap59) f.leap59 else s
      if isSet s (TIM_SRC_STAT.VALID 4) then measured s 4 (irigTai s f * secUnit - rawStamp s f.stamp) else s)

/-- IRIGB_POSITION_MARKER_MISSING (R33). -/
def execIrigbPositionMarkerMissing (s : State) : Host.Outcome State Fault Refusal :=
  .next (if srcOn s 4 then irigBad s else s)

/-! ## 1PPS (R34) -/

/-- PPS_EDGE (R34): the configured edge (POL, bit 4 of CFG) is taken as the nearest whole TAI second; the other edge counts for
nothing. -/
def execPpsEdge (edge : PpsEdge) (s : State) : Host.Outcome State Fault Refusal :=
  .next (if !srcOn s 5 || edge.rising == (getF s (TIM_SRC_CFG.PROFILE 5) % 2 == 1) then s
    else
      let stamp := rawStamp s edge.stamp
      let near := (stamp + secUnit / 2) / secUnit * secUnit
      let ok := match s.time.ppsLast with
        | some p => decide (((stamp : Int) - p - secUnit).natAbs ≤ 100000 * nsUnit)
        | none => false
      let s := setSrcUnc { s with time := { s.time with ppsLast := some stamp } } 5 (getF s (TIM_SRC_CFG.SRC_UNC 5) * 10)
      let s := if ok then setValidSrc s 5 true else s
      if isSet s (TIM_SRC_STAT.VALID 5) then measured s 5 ((near : Int) - stamp) else s)

/-- PPS_TIMEOUT (R34): an expected edge has been missing for 1.5 s. -/
def execPpsTimeout (s : State) : Host.Outcome State Fault Refusal :=
  .next (if srcOn s 5 then setValidSrc { s with time := { s.time with ppsLast := none } } 5 false else s)

/-! ## Standby link (R35) -/

/-- The bytes of a TIMEX frame: a request or a response with its stamps, uncertainty and TQ (R35; log entry 15, PRESUMED). -/
def timexBytes (x : Timex) : List Byte :=
  [BitVec.ofNat 8 (b2n x.response)] ++ beBytes 4 x.no ++ beBytes 16 x.t1 ++ beBytes 16 x.t2 ++ beBytes 16 x.t3 ++
    beBytes 4 x.unc ++ beBytes 1 x.tq

/-- A TIMEX frame leaves. -/
def sendTimex (s : State) (x : Timex) : State := { s with sby := { s.sby with lastTimex := some (timexBytes x) } }

/-- SBL_TIMEX_SEND (R35): every 31.25 ms. -/
def execSblTimexSend (s : State) : Host.Outcome State Fault Refusal :=
  .next (if srcOn s 6 && linkUp s && !testing s 9 then
      let no := s.time.sblExNo
      let (t, s) := ownStamp s 0
      let s1 := { s with time := { s.time with sblEx := some (no, t), sblExNo := (no + 1) % 2 ^ 32 } }
      sendTimex s1 { response := false, no := no, t1 := t, t2 := 0, t3 := 0, t4 := 0, unc := 0, tq := 0 }
    else s)

/-- The partner's heartbeat shows a source other than 6 (R303). -/
def partnerSrcOk (s : State) : Bool := match s.sby.hb with | some h => h.src != 6 | none => false

/-- SBL_TIMEX_RX (R35). -/
def execSblTimexRx (x : Timex) (s : State) : Host.Outcome State Fault Refusal :=
  .next (if absent s || !domOn s 9 || !linkUp s || testing s 9 then s
    else if !x.response then
      let (t2, s) := ownStamp s 0
      let (d, s) := drawFree s
      sendTimex s { x with response := true, t2 := t2, t3 := rawStamp s (t2 + d % 2 ^ 50), unc := getF s TIM_UNC.UNC,
                           tq := getF s TIM_STAT.TQ }
    else match s.time.sblEx with
      | none => s
      | some (no, t1) =>
        if no ≠ x.no ∨ !srcOn s 6 then s
        else
          let t4 := rawStamp s x.t4
          let off : Int := (((x.t2 : Int) - t1) + ((x.t3 : Int) - t4)) / 2
          let trip : Int := ((t4 : Int) - t1) - ((x.t3 : Int) - x.t2)
          let s := setSrcUnc { s with time := { s.time with sblEx := none } } 6 x.unc
          let s := setFs s [(TIM_SRC_DELAY.DELAY 6, (trip / 2).toNat / nsUnit), (SBY_RTT.NS, trip.toNat / nsUnit)]
          if partnerSrcOk s then measured (setValidSrc s 6 true) 6 off else setValidSrc s 6 false)

/-- SBL_TIMEX_TIMEOUT (R35): no exchange has completed within 125 ms. -/
def execSblTimexTimeout (s : State) : Host.Outcome State Fault Refusal :=
  .next (if absent s then s else setValidSrc { s with time := { s.time with sblEx := none } } 6 false)

/-! ## PTP (R29, R30) -/

/-- The port with its part of the time system changed. -/
def updPtp (s : State) (p : Nat) (f : PtpPort → PtpPort) : State :=
  { s with time := { s.time with ptp := upd s.time.ptp p f } }

/-- VALID of a PTP source (R30). -/
def ptpJudge (s : State) (p : Nat) : State :=
  let q := nth PtpPort.init s.time.ptp p
  setValidSrc s p (isSet s (TIM_SRC_STAT.SLAVE p) && q.annOk && q.syncOk &&
    [6, 7, 13, 14, 52, 58, 187, 193].contains q.clockClass)

/-- A source offset from a Sync: the master's time at the arrival minus the corrected ingress stamp (R27, R29). -/
def ptpOffset (s : State) (p : Nat) (origin : Nat) (corr : Int) (stamp : Nat) : State :=
  let s := ptpJudge (updPtp s p fun q => { q with syncOk := true, twoStep := none }) p
  if isSet s (TIM_SRC_STAT.VALID p) then
    measured s p ((origin : Int) + corr + (getF s (TIM_SRC_DELAY.DELAY p) * nsUnit : Nat) - stamp)
  else s

/-- Announce (R26, R30, R36). -/
def ptpAnnounce (s : State) (p : Nat) (m : PtpMsg) : State :=
  let poor := [52, 58, 187, 193].contains m.clockClass
  let unc := match m.inaccuracy with
    | some x => if getF s (TIM_SRC_CFG.PROFILE p) = 1 then x else m.accuracy
    | none => m.accuracy
  let s := updPtp s p fun q => { q with annOk := true, clockClass := m.clockClass,
                                        utc := m.utc.map fun u => (unsignedOf 16 u.1, u.2.1, u.2.2) }
  let s := setSrcUnc (setF s (TIM_SRC_STAT.SLAVE p) (b2n m.slave)) p (if poor then max unc 10000 else unc)
  let s := ptpJudge s p
  match m.utc with
  | some (off, l61, l59) => if getF s TIM_STAT.ACTIVE_SRC = p then
      loadLeap (setF s TIM_UTC.TAI_UTC (unsignedOf 16 off)) l61 l59 else s
  | none => s

/-- A Pdelay measurement is complete: turnaround and round trip in units of the counter (R29, peer-to-peer). -/
def ptpDelay (s : State) (p : Nat) (trip turn : Int) : State :=
  setF (updPtp s p fun q => { q with pdelay := none, resp := none }) (TIM_SRC_DELAY.DELAY p)
    (((trip - turn) / 2).toNat / nsUnit)

/-- PTP_TIMEOUT (R30). -/
def execPtpTimeout (port : Nat) (announce : Bool) (s : State) : Host.Outcome State Fault Refusal :=
  .next (if absent s then s
    else ptpJudge (updPtp s port fun q => if announce then { q with annOk := false } else { q with syncOk := false }) port)

/-! ## Latched reads (R25, R64) -/

/-- Latch groups of TIM_NOW and of PLB_CYCLE (R595). -/
def nowGroup : Nat := 0
@[inherit_doc nowGroup] def plbGroup : Nat := 1

/-- The four parts of the clock (Table 2.12). -/
def nowParts (s : State) : List Nat :=
  let t := s.time.tai
  [taiSec t / 2 ^ 32, taiSec t % 2 ^ 32, taiNs t, t % nsUnit / 2 ^ 16]

/-- TIM_NOW_SH_READ (R25). -/
def execTimNowShRead (who : Nat) (s : State) : Host.Outcome State Fault Refusal :=
  .next (if d1On s then setLatch s who nowGroup (nowParts s) else s)

/-! ## Plumb (R46 to R56) -/

/-- The nominal frequency, Q8.24 (R52). -/
def nominalF (s : State) : Nat := if isSet s PLB_CTRL.NOM60 then 0x3C000000 else 0x32000000

/-- The frequency Plumb runs at, Q8.24: the nominal one without an input (R52). -/
def plbFreq (s : State) : Nat := if getF s PLB_CTRL.SRC_MODE = 0 then nominalF s else getF s PLB_FREQ.FREQ

/-- inc for a frequency in Q8.24: f × 2.5 ns × 2^64, rounded to nearest, ties away from zero (R46). -/
def plbInc (f : Nat) : Nat := (f * 2 ^ 40 * 25 * 2 + 10 ^ 10) / (2 * 10 ^ 10)

/-- The increment of this cycle, with the loop's phase correction (R46, R49). -/
def plbStep (s : State) : Nat := ((plbInc (plbFreq s) : Int) + s.plumb.corr).toNat

/-- Plumb's angle, ANGLE payload (R46). -/
def plbAngle (s : State) : Nat := s.plumb.acc / 2 ^ 32 % 2 ^ 32

/-- Plumb runs (Table 2.8, R62). -/
def plbOn (s : State) : Bool := domOn s 2 && !absent s

/-- One core cycle of Plumb: the accumulator adds its increment; a wrap counts a cycle (R46, R47). -/
def plbAdvance (s : State) : State :=
  if plbOn s then
    let i := plbStep s
    let a := s.plumb.acc + i
    let incs := if (s.plumb.incs.head?.map fun e => e.2.2) == some i then s.plumb.incs
      else ((s.core.cyc, s.plumb.acc, i) :: s.plumb.incs).take 64
    { s with plumb := { s.plumb with acc := a % 2 ^ 64, cyc := (s.plumb.cyc + a / 2 ^ 64) % 2 ^ 32, incs := incs } }
  else s

/-- Plumb's accumulator some core cycles before now, by the increments really added (R46, R53); before the oldest that is kept, by
that one. -/
def plbAccAt (s : State) (age : Nat) : Nat :=
  let then_ := s.core.cyc - age
  match (s.plumb.incs.find? fun e => e.1 ≤ then_).or s.plumb.incs.getLast? with
  | some (c, a, i) => (((a : Int) + ((then_ : Int) - c) * i) % (2 ^ 64 : Nat)).toNat
  | none => s.plumb.acc

/-- PLUMB_CYCLE_WRAP (R47): the cycle in which the angle wraps through 0. -/
def execPlumbCycleWrap (s : State) : Host.Outcome State Fault Refusal :=
  .next (if plbOn s && decide (2 ^ 64 ≤ s.plumb.acc + plbStep s) then plbAdvance s else s)

/-- PLB_CYCLE_READ (R64). -/
def execPlbCycleRead (who : Nat) (s : State) : Host.Outcome State Fault Refusal :=
  .next (if plbOn s then setLatch s who plbGroup [plbAngle s, plbFreq s, getF s PLB_ROCOF.ROCOF] else s)

/-- Plumb tracks: an input is selected and its domains are on (R48, Table 2.8). -/
def plbTracks (s : State) : Bool :=
  plbOn s && getF s PLB_CTRL.SRC_MODE != 0 && domOn s 5 && domOn s 6 && domOn s 7

/-- Tracking is lost (R51). -/
def plbLost (s : State) : State :=
  let s := setFs s [(PLB_STAT.TRACKING, 0), (PLB_STAT.FREERUN, 1), (PLB_HOLDF.FREQ, getF s PLB_FREQ.FREQ)]
  setRaise { s with plumb := { s.plumb with goodRun := 0, badRun := 0, corr := 0 } } PLB_STAT.LOST 1

/-- PLUMB_SAMPLE_TIMEOUT (R51): no sample for 4 sample intervals. -/
def execPlumbSampleTimeout (s : State) : Host.Outcome State Fault Refusal :=
  .next (if plbOn s && getF s PLB_CTRL.SRC_MODE != 0 && isSet s PLB_STAT.TRACKING then plbLost s else s)

/-- Samples in one nominal cycle (R49). -/
def plbM (s : State) : Nat := getF s PLB_SRCCFG.RATE / (if isSet s PLB_CTRL.NOM60 then 60 else 50)

/-- ROCOF, Q15.16 of Hz/s, from two frequencies in Q8.24 that lie d updates apart (R55; rounded to nearest). -/
def rocofOf (s : State) (f f0 d : Nat) : Int :=
  if d = 0 then 0 else (sat32 true (roundDiv (((f : Int) - f0) * getF s PLB_SRCCFG.RATE) (d * 256)) |>.1 |> signedOf 32)

/-- The range after a good update with a ROCOF, and the counters of Table 2.7: they restart at a change of the range (log entry
117, DESIGN CHOICE). While AUTORANGE is 0 the range stays as a commit has left it (R54). -/
def plbRange (s : State) (rocof : Int) : State :=
  if !isSet s PLB_CTRL.AUTORANGE then s
  else
    let r := getF s PLB_STAT.RANGE
    let a := rocof.natAbs
    let up1 := if 65536 < a then s.plumb.up1 + 1 else 0
    let up2 := if 4 * 65536 < a then s.plumb.up2 + 1 else 0
    let low := (r = 1 ∧ a ≤ 32768) ∨ (r = 2 ∧ a ≤ 2 * 65536)
    let down := if low then s.plumb.down + 1 else 0
    let r' := if up2 ≥ 8 ∧ r < 2 then 2 else if up1 ≥ 8 ∧ r = 0 then 1
      else if 0 < r ∧ 10 * plbM s ≤ down then r - 1 else r
    let ch := r' != r
    setF { s with plumb := { s.plumb with up1 := if ch then 0 else up1, up2 := if ch then 0 else up2,
                                          down := if ch then 0 else down } } PLB_STAT.RANGE r'

/-- While AUTORANGE is 0 the range is FIXED_RANGE, from the commit on (R54). -/
def plbFixed (s : State) : State :=
  if isSet s PLB_CTRL.AUTORANGE then s else setF s PLB_STAT.RANGE (getF s PLB_CTRL.FIXED_RANGE)

/-- ROCOF of the update that gives frequency f, from f(n − M); an update at which the range changed never enters: the one before
it does (R55, R56). While fewer than M updates of history exist it is 0 (log entry 117, DESIGN CHOICE). -/
def plbRocof (s : State) (f : Nat) : Int :=
  let m := plbM s
  let old := s.plumb.hist.drop (m - 1)
  let n := (old.takeWhile fun e => e.2).length
  match old[n]? with
  | some e => rocofOf s f e.1 (m + n)
  | none => 0

/-- The end of every update: ROCOF, the range of a good one, RANGE_CHANGED, history (R54 to R56). A change of RANGE since the last
update, by Table 2.7 or by a commit, makes this update the n_r of R56 (log entry 117, DEDUCED). -/
def plbClose (s : State) (good : Bool) : State :=
  let rocof := plbRocof s (plbFreq s)
  let s := if good then plbRange s rocof else s
  let r := getF s PLB_STAT.RANGE
  let ch := r != s.plumb.lastRange
  let s := if ch then setF s PLB_STAT.RANGE_CHANGED 1 else setF s PLB_ROCOF.ROCOF (unsignedOf 32 rocof)
  { s with plumb := { s.plumb with rangeChg := ch, lastRange := r, hist := ((plbFreq s, ch) :: s.plumb.hist).take 512 } }

/-- A good update: frequency under the slew limit, phase correction, TRACKING (R49 to R51). What the loop asks for, a frequency and a
phase correction, the spec leaves open. -/
def plbGood (s : State) (est corr : Nat) (perr : Int) : State :=
  let f0 := plbFreq s
  let slew := (max 1 (getF s PLB_CTRL.SLEW) * 2 ^ 24 / (10 * max 1 (getF s PLB_SRCCFG.RATE)) : Nat)
  let f := if est + slew < f0 then f0 - slew else if f0 + slew < est then f0 + slew else est
  let s := setFs s [(PLB_FREQ.FREQ, f), (PLB_STAT.SLEW_LIMITED, b2n (f != est)), (PLB_PERR.PERR, unsignedOf 32 perr)]
  let s := { s with plumb := { s.plumb with corr := signedOf 32 corr, goodRun := s.plumb.goodRun + 1, badRun := 0 } }
  let s := plbClose s true
  if !isSet s PLB_STAT.TRACKING && 3 * plbM s ≤ s.plumb.goodRun then
    setFs s [(PLB_STAT.TRACKING, 1), (PLB_STAT.FREERUN, 0)]
  else s

/-- An update that is not good (R50, R51). -/
def plbBad (s : State) : State :=
  let s := plbClose { s with plumb := { s.plumb with goodRun := 0, badRun := s.plumb.badRun + 1 } } false
  if isSet s PLB_STAT.TRACKING && plbM s ≤ s.plumb.badRun then plbLost s else s

/-- Validity and detail of an update (R53). An update with neither TRACKING nor FREERUN, of which R53 says nothing, is questionable
with detail "oldData" (log entry 117, DESIGN CHOICE). -/
def plbQual (s : State) : Nat :=
  if s.plumb.rangeChg then 3 + 2 ^ 8 else if isSet s PLB_STAT.TRACKING then 0 else 3 + 2 ^ 7

/-- An update is noted for the estimators by its sample's instant (R459). -/
def plbNote (s : State) (inst : Nat) : State :=
  { s with phm := { s.phm with plumb :=
      ({ inst := inst, freq := plbFreq s, rocof := getF s PLB_ROCOF.ROCOF, qual := plbQual s } :: s.phm.plumb).take 512 } }

/-- The four words of PLB_OUT (R53): the angle at the sample's instant, an age in core cycles before now. -/
def plbOut (s : State) (age : Nat) : State :=
  if !isSet s PLB_OUT.EN then s
  else
    let a := getF s PLB_OUT.ADDR
    let s := writeWord rankPlumb s a (mkT 6 (plbAccAt s age / 2 ^ 32))
    let s := writeWord rankPlumb s (a + 1) (mkT 4 (rneShr (plbFreq s) 8))
    let s := writeWord rankPlumb s (a + 2) (mkT 4 (getF s PLB_ROCOF.ROCOF))
    writeWord rankPlumb s (a + 3) (qualW s (plbQual s))

/-- A tagged word as a number of 36 bits. -/
def twNat (w : TWord) : Nat := w.tag.toNat * 2 ^ 32 + w.val.toNat

/-- A sample enters the window: its channel words, and its phase error, the input's angle against Plumb's at the instant (R49).
Answers the error averaged over the last M samples (rounded to nearest: log entry 39) and the amplitude. -/
def plbPhase (s : State) (ws : List TWord) (age : Nat) : Int × Nat × State :=
  let m := max 1 (plbM s)
  let sel := [getF s PLB_CTRL.SRC_MODE, getF s PLB_CTRL.NOM60, getF s PLB_SRCCFG.RATE]
  let win := (ws.map twNat :: s.plumb.win).take m
  let e := signedOf 32 (unsignedOf 32 ((Config.plumbInput sel win : Int) - (plbAccAt s age / 2 ^ 32 : Nat)))
  let errs := (e :: s.plumb.errs).take m
  (roundDiv (errs.foldl (· + ·) 0) errs.length, Config.plumbAmplitude sel win % 0x7F800000,
    { s with plumb := { s.plumb with win := win, errs := errs } })

/-- A tracker update on a new sample (R48 to R56): the sample's channel words, whether their QUAL words are good, its age in core
cycles. -/
def plbUpdate (s : State) (ws : List TWord) (good : Bool) (age : Nat) : State :=
  if !plbTracks s then s
  else
    let (perr, amp, s) := plbPhase s ws age
    let r := getF s PLB_STAT.RANGE
    let est := Config.plumbFrequency r (plbFreq s) perr % 2 ^ 32
    let ok := good && decide (fCmpKey (getF s PLB_VMIN.VMIN) ≤ fCmpKey amp) && !fNan (getF s PLB_VMIN.VMIN) &&
      decide (40 * 2 ^ 24 ≤ est) && decide (est ≤ 70 * 2 ^ 24) && decide (perr.natAbs * 360 ≤ 5 * 2 ^ 32)
    plbOut (if ok then plbGood s est (Config.plumbCorrection r (plbFreq s) perr) perr else plbBad s) age

/-- A commit changes PLB_SRCA to PLB_SRCC or SRC_MODE (case 12). -/
def plbRestart (s : State) : State :=
  let s := setF { s with plumb := { s.plumb with goodRun := 0, badRun := 0, corr := 0, win := [], errs := [] } }
    PLB_STAT.TRACKING 0
  if getF s PLB_CTRL.SRC_MODE = 0 then setFs s [(PLB_STAT.FREERUN, 0), (PLB_FREQ.FREQ, nominalF s)] else s

/-- Plumb takes the nominal frequency of the configuration that BOOT has loaded (R61, and the reset of PLB_FREQ). -/
def plbNominal (s : State) : State := plbFixed (setFs s [(PLB_FREQ.FREQ, nominalF s), (PLB_HOLDF.FREQ, nominalF s)])

/-- Plumb starts anew (R61). -/
def plbStart (s : State) : State :=
  plbNominal (setFs { s with plumb := PlumbSt.init } [(PLB_STAT.TRACKING, 0), (PLB_STAT.FREERUN, 0), (PLB_STAT.SLEW_LIMITED, 0),
    (PLB_STAT.RANGE, 0), (PLB_ROCOF.ROCOF, 0), (PLB_PERR.PERR, 0)])

/-! ## What the clock says of itself (R462) -/

/-- Code of STAT bits 8 to 6 from TIM_UNC. -/
def uncCode (u : Nat) : Nat :=
  if u ≤ 100 then 1 else if u ≤ 1000 then 2 else if u ≤ 10000 then 3 else if u ≤ 100000 then 4 else if u ≤ 1000000 then 5
  else if u ≤ 10000000 then 6 else 7

/-- Code of STAT bits 5 and 4: seconds since HOLDOVER set. -/
def holdCode (s : State) : Nat :=
  let sec := (s.time.tai - s.time.holdSet) / secUnit
  if !isSet s TIM_STAT.HOLDOVER || sec < 10 then 0 else if sec < 100 then 1 else if sec < 1000 then 2 else 3

/-- The time-quality nibble of FRACSEC (Table 16.4a). A TQ that the table leaves out stands as a clock failure (log entry 147, DESIGN
CHOICE). -/
def fracNibble (s : State) : Nat :=
  let tq := getF s TIM_STAT.TQ
  if isSet s TIM_STAT.LOCKED && tq == 0 then 0
  else (([(0, 3), (1, 4), (2, 4), (3, 5), (4, 6), (5, 7), (6, 8), (7, 9), (8, 10), (14, 11)] : List (Nat × Nat)).lookup tq).getD 15

/-- Time class, STAT bits 8 to 4 and the FRACSEC byte of this cycle (R462). -/
def clockSays (s : State) : ClockLog :=
  let recent := match s.time.leapDone with | some t => decide (s.time.tai < t + 86400 * secUnit) | none => false
  { tai := s.time.tai, cls := classNow s, stat := uncCode (getF s TIM_UNC.UNC) * 4 + holdCode s,
    frac := getF s TIM_UTC.LEAP59 * 64 + b2n recent * 32 + b2n (isSet s TIM_UTC.LEAP61 || isSet s TIM_UTC.LEAP59) * 16 + fracNibble s }

/-- What the clock says is noted whenever it changes. -/
def clockNote (s : State) : State :=
  let c := clockSays s
  if s.phm.clock.head?.any fun p => p.cls == c.cls && p.stat == c.stat && p.frac == c.frac then s
  else { s with phm := { s.phm with clock := (c :: s.phm.clock).take 256 } }

/-! ## One core cycle (R23, R46) -/

/-- The clocks advance by one core cycle: TAI while it runs, CORE_CYC and Plumb while D2 is on; pulses end, and guards see them for one
cycle more; the writers of the cycle are forgotten (R23, R86, R108, R149, R235). -/
def clockAdvance (s : State) : State :=
  let s := if d1On s && s.time.running then { s with time := { s.time with tai := s.time.tai + taiStep s } } else s
  let s := plbAdvance s
  let s := if plbOn s then { s with core := { s.core with cyc := (s.core.cyc + 1) % 2 ^ 64, firedNow := [] } } else s
  let s := if scrubRuns s then { s with ms := { s.ms with scrubTime := s.ms.scrubTime + 1 } } else s
  let s := clockNote s
  sblTrain { s with pulses := [], pulsesPrev := s.pulses, sp := { s.sp with written := [], wordUse := false } }

end Sys2Proof.Machine
end

