-- ==== Sys2Proof/Machine/Power.lean ====
section
/-!
DEFINITION. The commands of modes, resets and wake (spec/03_modes.md, spec/20_reset_boot_nv.md), of domains, monitors and
voltage scaling (spec/19_power_health_trace.md), of the test access port, and of station supervision
(spec/01_station_picture.md).
-/

namespace Sys2Proof.Machine

open Reg

/-- The modes from BOOT to HOLD (Table 3.6). -/
def liveMode (s : State) : Bool := !absent s

/-! ## The PMBus write (R542) -/

/-- The packet error code of PMBus over some bytes: CRC-8 with polynomial x^8 + x^2 + x + 1. -/
def pec (bs : List Byte) : Nat :=
  bs.foldl (fun c b => (List.range 8).foldl (fun c _ => if 128 ≤ c then (c * 2 ^^^ 7) % 256 else c * 2) (c ^^^ b.toNat)) 0

/-- A voltage in mV in the LINEAR16 format of an exponent, rounded (R542): the exponent is a signed number of 5 bits. -/
def linear16 (mv e : Nat) : Nat :=
  let n := if e < 16 then mv else mv * 2 ^ (32 - e)
  let d := if e < 16 then 1000 * 2 ^ e else 1000
  (2 * n + d) / (2 * d) % 65536

/-- A VOUT_COMMAND write (R542 step 1): address, command, two data bytes, any PEC byte. The regulator's exponent is a free value that
is read at the first write; command code, byte order and PEC are those of PMBus (log entry 154, PRESUMED). -/
def pmbWrite (s : State) (mv : Nat) : State :=
  let (e, s) := match s.pwr.vexp with
    | some e => (e, s)
    | none =>
      let (x, s) := drawFree s
      (x % 32, s)
  let v := linear16 mv e
  let body : List Byte := [getF s PWR_AVS.ADDR * 2, 0x21, v % 256, v / 256].map (BitVec.ofNat 8)
  { s with pwr := { s.pwr with vexp := some e, sent := body ++ if isSet s PWR_AVS.PEC then [BitVec.ofNat 8 (pec body)] else [] } }

/-! ## Supplies and resets (R73, R478, R479, R536, R561 to R565) -/

/-- VBAT_RISE: transition 1 (R73, R479). -/
def execVbatRise (mv : Nat) (s : State) : Host.Outcome State Fault Refusal :=
  .next (if s.mode == .off && decide (2000 < mv) then
      let s := d0PowerUp s
      { s with mode := .backup, cal := { s.cal with vbat := mv }, pwr := { s.pwr with mains := false } }
    else s)

/-- POWER_ON_RESET: transition 2 (R479, R561). -/
def execPowerOnReset (s : State) : Host.Outcome State Fault Refusal :=
  .next (if s.mode == .off then powerUp (d0PowerUp s) else if s.mode == .backup then powerUp s else s)

/-- A reset source acts from BOOT to HOLD, or joins the sources of a reset in progress (R561). -/
def resetSource (s : State) (code : Nat) (lasting : Bool) : State :=
  if s.mode == .off || s.mode == .backup then s
  else
    let s := toReset s code lasting
    { s with ms := { s.ms with released := false, refStable := s.ms.refStable && !s.ms.refStopped } }

/-- RESET_PIN (R562): below 20 ns ignored, from 50 ns recognised, between them open. -/
def execResetPin (ns : Nat) (s : State) : Host.Outcome State Fault Refusal :=
  .next (if ns < 20 then s
    else
      let (hit, s) := if 50 ≤ ns then (true, s) else drawBit s
      if hit then resetSource { s with pins := { s.pins with resetLow := true } } 3 true else s)

/-- BOOT begins (transition 4; R13, R60, R484, R544, R565, R533). -/
def enterBoot (s : State) : State :=
  let s := setFs { s with pwr := { s.pwr with ramp := [] } }
    [(PWR_DSTAT.ON, 0xFFF), (PWR_DSTAT.RST, 0), (SYS_STATION.STN, s.pins.stn), (RST_STRAP.BOOTSEL, s.pins.bootsel)]
  let s := if isSet s PWR_AVS.EN then
      let s := pmbWrite s (getF s PWR_AVSLIM.VNOM)
      setF { s with pwr := { s.pwr with vexp := none } } PWR_AVSSTAT.VSET (getF s PWR_AVSLIM.VNOM)
    else s
  let s := match s.time.resetSw with
    | some t =>
      let now := s.time.tai
      let s := note { s with time := { s.time with tai := t } } TIM_STAT.ACTIVE_SRC
      { s with time := { s.time with tai := now, resetSw := none } }
    | none => s
  let s := if s.cal.lbfLate then raise { s with cal := { s.cal with lbfLate := false } } CAL_STAT.LBF else s
  transition { s with ms := { s.ms with released := false } } .boot

/-- RESET_PIN_RELEASE: the last active source releases; BOOT begins once the reference is stable (R73, R565). -/
def execResetPinRelease (stn bootsel : Nat) (s : State) : Host.Outcome State Fault Refusal :=
  .next (if s.mode == .reset then
      let s := { s with
        pins := { s.pins with stn := stn % 256, bootsel := bootsel % 4, resetLow := false }
        ms := { s.ms with resetSrc := [], released := true }
        pwr := { s.pwr with railBad := [] }
        tap := { s.tap with drive := false, highz := false } }
      if s.ms.refStable then enterBoot s else s
    else s)

/-- REFERENCE_STABLE (R73). -/
def execReferenceStable (s : State) : Host.Outcome State Fault Refusal :=
  .next (
    let s := { s with ms := { s.ms with refStable := true, refStopped := false } }
    if s.mode == .reset && s.ms.released then enterBoot s else s)

/-- REF25_STOP (R612): what the core clock times stands still until the watchdog resets the device. -/
def execRef25Stop (s : State) : Host.Outcome State Fault Refusal :=
  .next (if liveMode s then { s with ms := { s.ms with refStopped := true } } else s)

/-- WATCHDOG_EXPIRY (R563): in every mode from BOOT to HOLD. -/
def execWatchdogExpiry (s : State) : Host.Outcome State Fault Refusal :=
  .next (if liveMode s then resetSource s 4 false else s)

/-- RAIL_RESET_WINDOW: a main rail has been outside its reset window for 1 µs (R536). -/
def execRailResetWindow (rail : Nat) (s : State) : Host.Outcome State Fault Refusal :=
  .next (if rail < 9 && d1On s then
      let s := resetSource s 2 true
      { s with pwr := { s.pwr with railBad := rail :: s.pwr.railBad.filter (· != rail) } }
    else s)

/-- The main supplies are gone: everything beyond D0 is lost (Table 3.2, R477, R478, R500, R562). -/
def mainsLost (s : State) (m : Mode) : State :=
  let s := resetParts (resetRegs s false) false
  setF { s with mode := m, time := TimeSt.init, tap := TapSt.init, ms := ModeSt.init, trc := TrcSt.init,
                pwr := { PwrSt.init with mains := false } } PWR_DSTAT.ON (if m == .backup then 1 else 0)

/-- RAIL_LOSS: transition 21 into BACKUP, or 22 into OFF with VBAT below 2.0 V (R73, R536). -/
def execRailLoss (rail : Nat) (s : State) : Host.Outcome State Fault Refusal :=
  .next (if rail < 9 && d1On s then mainsLost s (if s.cal.vbat < 2000 then .off else .backup) else s)

/-- VBAT_LOSS: transition 22 with no main supply (R479). -/
def execVbatLoss (s : State) : Host.Outcome State Fault Refusal :=
  .next (if s.mode == .backup then setF { s with mode := .off } PWR_DSTAT.ON 0 else s)

/-- RSTOUT_RELEASE (R562). -/
def execRstoutRelease (s : State) : Host.Outcome State Fault Refusal :=
  .next (if liveMode s then { s with pins := { s.pins with rstout := false } } else s)

/-- ALIVE_TOGGLE (R21). -/
def execAliveToggle (s : State) : Host.Outcome State Fault Refusal :=
  .next (if liveMode s then { s with pins := { s.pins with alive := !s.pins.alive } } else s)

/-! ## Mode requests and their outcomes (R74 to R77, R87 to R92, R273) -/

/-- MODE_REQ_STOP (R75, R76). -/
def execModeReqStop (dbg : Bool) (s : State) : Host.Outcome State Fault Refusal :=
  .next (if liveMode s then modeReqHost s 5 dbg else s)

/-- MODE_REQ_RUN (R74). -/
def execModeReqRun (dbg : Bool) (s : State) : Host.Outcome State Fault Refusal :=
  .next (if liveMode s then modeReqHost s 6 dbg else s)

/-- MODE_REQ_HALT (R77). -/
def execModeReqHalt (dbg : Bool) (s : State) : Host.Outcome State Fault Refusal :=
  .next (if liveMode s then modeReqHost s 0xA dbg else s)

/-- MODE_REQ_HOLD (R87). -/
def execModeReqHold (dbg : Bool) (s : State) : Host.Outcome State Fault Refusal :=
  .next (if liveMode s then modeReqHost s 0xB dbg else s)

/-- A STOP is pending in RUN or TRACK (R75). -/
def stopDue (s : State) : Bool := s.ms.stopPending && (s.mode == .run || s.mode == .track)

/-- STOP_AT_QUIET_POINT (R75). -/
def execStopAtQuietPoint (s : State) : Host.Outcome State Fault Refusal :=
  .next (if stopDue s && quiet s then enterStop s else s)

/-- STOP_TIMEOUT (R75; case 12: a quiet point in the same cycle wins). -/
def execStopTimeout (s : State) : Host.Outcome State Fault Refusal :=
  .next (if stopDue s then
      let forced := !quiet s
      let s := enterStop s
      if forced then setF s SYS_MODE.STOP_FORCED 1 else s
    else s)

/-- ROLE_NEG_TIMEOUT (R273). -/
def execRoleNegTimeout (s : State) : Host.Outcome State Fault Refusal :=
  .next (if s.ms.negotiating then negotiationEnds s else s)

/-- A domain goes off on the way into HOLD: a source whose domain is off is not VALID, and Plumb has lost its input (R62, Table 2.8,
R88). -/
def holdOff (s : State) (d : Nat) : State :=
  let s := domainOff s d
  let s := if d = 6 ∨ d = 7 then (List.range 4).foldl (fun s p =>
      setValidSrc (updPtp s p fun q => { q with annOk := false, syncOk := false }) p false) s
    else if d = 9 then setValidSrc { s with time := { s.time with sblEx := none } } 6 false else s
  if (d = 5 ∨ d = 6 ∨ d = 7) ∧ getF s PLB_CTRL.SRC_MODE ≠ 0 ∧ isSet s PLB_STAT.TRACKING then plbLost s else s

/-- D11 waits until its trace has drained, for at most 20 µs after HOLD_ENTER (R552). -/
def trcDrains (s : State) : Bool :=
  !(s.trc.fifo.isEmpty && s.trc.cycle.isEmpty && s.trc.wait == 0) && match s.trc.hold with
    | some t => decide (s.time.tai < t + 20000 * nsUnit)
    | none => false

/-- The next domain of a HOLD entry is switched off (R88). -/
def holdNext (s : State) : State :=
  match s.ms.holdEntry with
  | some (d :: rest) => if d = 11 ∧ trcDrains s then s else holdOff { s with ms := { s.ms with holdEntry := some rest } } d
  | _ => s

/-- HOLD_ENTRY_DONE: the domains still listed go off, and the device enters HOLD (R88). -/
def execHoldEntryDone (s : State) : Host.Outcome State Fault Refusal :=
  .next (match s.ms.holdEntry with
    | none => s
    | some ds =>
      let s := ds.foldl holdOff s
      modeOpEnd (transition { s with ms := { s.ms with holdEntry := none } } .hold) 0)

/-- WAKE_PIN (R90): WAKE_N low for at least 1 µs. -/
def execWakePin (ns : Nat) (s : State) : Host.Outcome State Fault Refusal :=
  .next (if 1000 ≤ ns then wakeSource s 1 else s)

/-- WAKE_TIME (R90): TAI has reached SYS_WAKETIME seconds. -/
def execWakeTime (s : State) : Host.Outcome State Fault Refusal :=
  .next (if newer (getF s SYS_WAKETIME.SEC) (taiSec s.time.tai % 2 ^ 32) then s else wakeSource s 3)

/-- DOMAIN_POWER_GOOD (R89, R533): the domain at the head of the ramp comes up. -/
def execDomainPowerGood (d : Nat) (s : State) : Host.Outcome State Fault Refusal :=
  .next (match s.pwr.ramp with
    | h :: rest =>
      if h = d then
        let s := domainUp { s with pwr := { s.pwr with ramp := rest } } d
        if s.ms.waking.isSome && d == 4 then { s with ms := { s.ms with wakeReload := true } } else s
      else s
    | [] => s)

/-- WAKE_COMPLETE: every domain is on again and the reload is done; the device is in STOP (R89, R552; case 5). -/
def execWakeComplete (s : State) : Host.Outcome State Fault Refusal :=
  .next (if s.ms.waking.isSome && s.pwr.ramp.isEmpty && !s.ms.wakeReload then
      let s := if (s.ms.waking.getD []).any fun d => [2, 5, 6, 7].contains d then plbStart s else s
      let s := { s with ms := { s.ms with waking := none } }
      let s := if s.mode == .hold then transition s .stop else s
      modeOpEnd (trcHoldExit s) 0
    else s)

/-! ## Stations (R18, R235) -/

/-- STATION_SUPV_EXPIRY (R18). -/
def execStationSupvExpiry (stn : Nat) (s : State) : Host.Outcome State Fault Refusal :=
  .next (if liveMode s && stn < 256 && stn != ownStn s && isSet s (SYS_DIR_CTRL.VALID stn) &&
      isSet s (SYS_DIR_CTRL.SUPV stn) then setPresent s stn false else s)

/-! ## D11 (R535) -/

/-- The modes in which software may switch D11. -/
def d11Modes : List Mode := [.boot, .stop, .run, .runEdit, .track, .takeover, .safeHalt]

/-- A write of PWR_D11CTL.OFF: the status, and the state (R535). -/
def d11Write (s : State) (off : Bool) : Nat × State :=
  if !inMode s d11Modes then (0xA, s)
  else
    let s := setF s PWR_D11CTL.OFF (b2n off)
    if off then (0, { domainOff s 11 with pwr := { s.pwr with ramp := s.pwr.ramp.filter (· != 11) } })
    else if domOn s 11 || s.pwr.ramp.contains 11 then (0, s)
    else (0, { s with pwr := { s.pwr with ramp := s.pwr.ramp ++ [11] } })

/-- D11_SWITCH (R535). -/
def execD11Switch (off dbg : Bool) (s : State) : Host.Outcome State Fault Refusal :=
  .next (if liveMode s then
      match d11Write s off with
      | (0, s1) => s1
      | (code, s1) => accErr s1 code PWR_D11CTL.OFF.addr dbg
    else s)

/-! ## Monitors (R536 to R540, R558) -/

/-- Reset window and loss threshold of a main rail in mV (Table 19.2): reset below, reset above, loss below; a bank's by the level of
its strap (R604). -/
def railLimits (s : State) (r : Nat) : Option (Nat × Nat × Nat) :=
  match r with
  | 0 => some (680, 930, 600)
  | 1 => some (790, 910, 650)
  | 2 => some (930, 1070, 800)
  | 3 => some (1670, 1930, 1400)
  | 4 | 5 | 6 | 7 | 8 => some (if bitOf s.pins.vsel (r - 4) then (2970, 3630, 2600) else (1620, 1980, 1400))
  | _ => none

/-- A level lies within the reset window of a main rail; a level below its loss threshold is a failure of the supply (R536). -/
def railWithin (s : State) (r mv : Nat) : Bool :=
  match railLimits s r with
  | some (lo, hi, _) => decide (lo ≤ mv) && decide (mv ≤ hi)
  | none => true
@[inherit_doc railWithin] def railLost (s : State) (r mv : Nat) : Bool :=
  match railLimits s r with
  | some (_, _, loss) => decide (mv < loss)
  | none => false

/-- The warning window of a rail (Table 19.8): HI, LO. -/
def railWindow (s : State) (r : Nat) : Option (Nat × Nat) :=
  match r with
  | 0 => some (getF s MON_VWARN0.HI, getF s MON_VWARN0.LO)
  | 1 => some (getF s MON_VWARN1.HI, getF s MON_VWARN1.LO)
  | 2 => some (getF s MON_VWARN2.HI, getF s MON_VWARN2.LO)
  | 3 => some (getF s MON_VWARN3.HI, getF s MON_VWARN3.LO)
  | 4 => some (getF s MON_VWARN4.HI, getF s MON_VWARN4.LO)
  | 5 => some (getF s MON_VWARN5.HI, getF s MON_VWARN5.LO)
  | 6 => some (getF s MON_VWARN6.HI, getF s MON_VWARN6.LO)
  | 7 => some (getF s MON_VWARN7.HI, getF s MON_VWARN7.LO)
  | 8 => some (getF s MON_VWARN8.HI, getF s MON_VWARN8.LO)
  | _ => none

/-- Test 12 runs, in SELFTEST or on demand (Table 3.7). -/
def monTest (s : State) : Bool := s.ms.selftest == some 12 || (s.ms.demandTest.map (·.1)) == some 12

/-- A warning bit sets, with its event and the MON wake source (R537, R538). -/
def warn (s : State) (f : Fld) (i : Nat) : State :=
  wakeSource (setRaise s f (getF s f ||| 2 ^ i)) 4

/-- A crossing of a warning window by rail or sensor `i` (`f` is its field): once per crossing; during test 12 it is kept until
the end of the test, and after a fatal failure of that test it is lost (R558, Table 3.7). `code` is `i` for a rail, 16 + i
for a sensor. -/
def crossing (s : State) (f : Fld) (i code : Nat) (was out : Bool) : State :=
  if s.pwr.warnOff then s
  else if monTest s then
    { s with ms := { s.ms with suppressed := if out && !was then code :: s.ms.suppressed.filter (· != code)
                                             else if out then s.ms.suppressed else s.ms.suppressed.filter (· != code) } }
  else if out && !was then warn s f i
  else s

/-- An element joins or leaves a list without repeats. -/
def member (l : List Nat) (i : Nat) (v : Bool) : List Nat := if v then i :: l.filter (· != i) else l.filter (· != i)

/-- RAIL_MEASURE (R485, R537). -/
def execRailMeasure (rail mv : Nat) (s : State) : Host.Outcome State Fault Refusal :=
  .next (if d1On s && rail < 10 then
      let s := setF s (MON_VOLT.MV rail) mv
      let s := if rail = 9 then setF { s with cal := { s.cal with vbat := mv } } CAL_VBAT.V (min 255 (mv / 20)) else s
      match railWindow s rail with
      | none => s
      | some (hi, lo) =>
        let out := decide (hi < mv) || decide (mv < lo)
        let was := s.pwr.vOut.contains rail
        crossing { s with pwr := { s.pwr with vOut := member s.pwr.vOut rail out } } MON_STAT.VWARN rail rail was out
    else s)

/-- Every sensor measures below TSHUT − 10 °C (R539). -/
def allCool (s : State) : Bool :=
  (List.range 6).all fun i =>
    decide (signedOf 16 (getF s (MON_TEMP.T i)) < ((getF s MON_TCFG.TSHUT : Int) - 10) * 4)

/-- The overheat condition begins: HOT with its event, the MON wake source, the halt (R90, R539). -/
def goHot (s : State) : State :=
  if s.pwr.hot then s
  else halt (wakeSource (setRaise { s with pwr := { s.pwr with hot := true } } MON_STAT.HOT 1) 4) 7

/-- The overheat condition after a measurement of a sensor (R539); during test 12 a crossing is kept until the end of the test, under
code 32 + sensor (Table 3.7). -/
def overheat (s : State) (sensor : Nat) (t : Int) : State :=
  let hi := decide ((getF s MON_TCFG.TSHUT : Int) * 4 < t)
  let twice := hi && s.pwr.above.contains sensor
  let s := { s with pwr := { s.pwr with above := member s.pwr.above sensor hi } }
  if s.pwr.warnOff then s
  else if monTest s then
    let keep := twice || (hi && s.ms.suppressed.contains (32 + sensor))
    { s with ms := { s.ms with suppressed := member s.ms.suppressed (32 + sensor) keep } }
  else if twice && !s.pwr.hot then goHot s
  else if s.pwr.hot && allCool s then { s with pwr := { s.pwr with hot := false } }
  else s

/-- TEMP_MEASURE (R538, R539): `t` in units of 0.25 °C. -/
def execTempMeasure (sensor : Nat) (t : Int) (s : State) : Host.Outcome State Fault Refusal :=
  .next (if d1On s && sensor < 6 then
      let t := clampI 32767 t
      let s := setF s (MON_TEMP.T sensor) (unsignedOf 16 t)
      let s := if signedOf 16 (getF s MON_EXT.TMAX) < t then setF s MON_EXT.TMAX (unsignedOf 16 t) else s
      let s := if t < signedOf 16 (getF s MON_EXT.TMIN) then setF s MON_EXT.TMIN (unsignedOf 16 t) else s
      let out := decide (signedOf 8 (getF s MON_TCFG.WARN_HI) * 4 < t) || decide (t < signedOf 8 (getF s MON_TCFG.WARN_LO) * 4)
      let was := s.pwr.tOut.contains sensor
      let s := crossing { s with pwr := { s.pwr with tOut := member s.pwr.tOut sensor out } } MON_STAT.TWARN sensor
        (16 + sensor) was out
      overheat s sensor t
    else s)

/-- PROCESS_MEASURE (R540). -/
def execProcessMeasure (m count : Nat) (s : State) : Host.Outcome State Fault Refusal :=
  .next (if d1On s && m < 8 then setF s (Sys2Proof.Machine.Reg.MON_PM.COUNT m) count else s)

/-- The crossings kept during test 12 raise their events at its end (Table 3.7). -/
def monTestEnd (s : State) : State :=
  let l := s.ms.suppressed
  l.foldr (fun c s => if c < 16 then warn s MON_STAT.VWARN c else if c < 32 then warn s MON_STAT.TWARN (c - 16) else goHot s)
    { s with ms := { s.ms with suppressed := [] } }

/-! ## Voltage scaling (R541 to R544) -/

/-- The modes in which AVS decides (R544). -/
def avsModes : List Mode := [.stop, .run, .runEdit, .track, .takeover, .safeHalt, .hold]

/-- The least count of the process monitors. -/
def leastCount (s : State) : Nat :=
  (List.range 8).foldl (fun m i => min m (getF s (Sys2Proof.Machine.Reg.MON_PM.COUNT i))) 65535

/-- The target of a decision (R541). -/
def avsTarget (s : State) : Nat :=
  let m := leastCount s
  let v := getF s PWR_AVSSTAT.VSET
  let t := if m < getF s PWR_AVSTGT.TGT_LO then v + getF s PWR_AVS.STEP
    else if getF s PWR_AVSTGT.TGT_HI < m then v - getF s PWR_AVS.STEP else v
  min (max t (getF s PWR_AVSLIM.VMIN)) (getF s PWR_AVSLIM.VMAX)

/-- STATUS_WORD is read and ALERT sets; CLEAR_FAULTS follows (R543). -/
def pmbAlert (s : State) (status : Nat) : State := setRaise (setF s PWR_AVSPMB.STATUS status) PWR_AVSSTAT.ALERT 1

/-- The bus is free after a held write: an alert that waited is served (case 9). -/
def pmbFree (s : State) : State :=
  match s.pwr.alert with
  | some w => pmbAlert { s with pwr := { s.pwr with alert := none } } w
  | none => s

/-- AVS_DECISION (R541, R542): a step starts the write, which is then held. -/
def execAvsDecision (s : State) : Host.Outcome State Fault Refusal :=
  .next (if inMode s avsModes && isSet s PWR_AVS.EN && !isSet s PWR_AVSSTAT.FAULT && s.pwr.target.isNone &&
        avsTarget s != getF s PWR_AVSSTAT.VSET then
      let s1 := pmbWrite s (avsTarget s)
      setF { s1 with pwr := { s1.pwr with target := some (avsTarget s) } } PWR_AVSSTAT.HOLDING 1
    else s)

/-- AVS_RELEASE (R542 steps 3, 4): in a quiet cycle the held write takes effect. -/
def execAvsRelease (s : State) : Host.Outcome State Fault Refusal :=
  .next (match s.pwr.target with
    | some v =>
      if quiet s && liveMode s then
        pmbFree (incWrap (setFs { s with pwr := { s.pwr with target := none, readback := true } }
          [(PWR_AVSSTAT.HOLDING, 0), (PWR_AVSSTAT.VSET, v)]) PWR_AVSCNT.STEPS)
      else s
    | none => s)

/-- AVS_HOLD_TIMEOUT (R542 step 5). -/
def execAvsHoldTimeout (s : State) : Host.Outcome State Fault Refusal :=
  .next (if s.pwr.target.isSome then
      pmbFree (incStop (setF { s with pwr := { s.pwr with target := none } } PWR_AVSSTAT.HOLDING 0) PWR_AVSCNT.SKIP)
    else s)

/-- AVS_READBACK (R543). -/
def execAvsReadback (mv : Nat) (busError : Bool) (s : State) : Host.Outcome State Fault Refusal :=
  .next (if s.pwr.readback then
      let s := { s with pwr := { s.pwr with readback := false } }
      let v := getF s PWR_AVSSTAT.VSET
      if busError then setF s PWR_AVSSTAT.FAULT 1
      else if v + 15 < mv ∨ mv + 15 < v then setRaise s PWR_AVSSTAT.FAULT 1
      else s
    else s)

/-- PMB_ALERT (R543): at the next free moment of the bus, so after a write that is held (case 9). -/
def execPmbAlert (status : Nat) (s : State) : Host.Outcome State Fault Refusal :=
  .next (if !liveMode s then s
    else if s.pwr.target.isSome then { s with pwr := { s.pwr with alert := some status } }
    else pmbAlert s status)

/-! ## The test access port (R555, R556) -/

/-- An instruction is selected; it takes the pins only while RESET_N is low (R556). -/
def tapSelect (s : State) (ir : TapIr) (cells : Option Nat) (drive highz : Bool) : State :=
  if d1On s then
    { s with tap := { s.tap with ir := ir, bsr := match cells with | some c => c % 2 ^ 612 | none => s.tap.bsr,
                                 drive := drive && s.pins.resetLow, highz := highz && s.pins.resetLow } }
  else s

/-- TAP_EXTEST: the cells drive the pins while RESET_N is low (R556). -/
def execTapExtest (cells : Nat) (s : State) : Host.Outcome State Fault Refusal :=
  .next (tapSelect s .extest (some cells) true false)

/-- TAP_SAMPLE_PRELOAD (R555). -/
def execTapSamplePreload (cells : Nat) (s : State) : Host.Outcome State Fault Refusal :=
  .next (tapSelect s .sample (some cells) false false)

/-- TAP_IDCODE (R555). -/
def execTapIdcode (s : State) : Host.Outcome State Fault Refusal := .next (tapSelect s .idcode none false false)

/-- TAP_CLAMP (R555, R556). -/
def execTapClamp (s : State) : Host.Outcome State Fault Refusal := .next (tapSelect s .clamp none true false)

/-- TAP_HIGHZ (R555, R556). -/
def execTapHighz (s : State) : Host.Outcome State Fault Refusal := .next (tapSelect s .highz none false true)

/-- TAP_BYPASS (R555). -/
def execTapBypass (s : State) : Host.Outcome State Fault Refusal := .next (tapSelect s .bypass none false false)

/-- What Capture-IR loads: bit 2 is 1 while RESET_N is low (R555). -/
def tapCapture (s : State) : Nat := if s.pins.resetLow then 5 else 1

/-- The data register that an instruction selects, as shifted out: its length and content (Table 19.5). The bypass register
captures 0; with RESET_N high EXTEST acts as BYPASS (R556). -/
def tapDr (s : State) : Nat × Nat :=
  match s.tap.ir with
  | .extest => if s.pins.resetLow then (612, s.tap.bsr) else (1, 0)
  | .sample => (612, s.tap.bsr)
  | .idcode => (32, 0x0E400A6B)
  | .dbgreg => (66, s.tap.rdata % 2 ^ 32 + s.tap.status % 256 * 2 ^ 32)
  | _ => (1, 0)

end Sys2Proof.Machine
end

