-- ==== Sys2Proof/Machine/Can.lean ====
section
/-!
DEFINITION. The commands of the bus controllers C0 and C1 (spec/13_priority_bus.md): reception and filters (R371 to R375),
transmission (R376 to R378, R382), errors (R383, R384), time-triggered operation (R386 to R391), ZCP segments (R393, R394).
-/

namespace Sys2Proof.Machine

open Reg

/-! ## Bit times (R369) -/

/-- Core cycles of one nominal bit, and of one data-phase bit: the CAN clock is the core clock divided by 5. -/
def nomBit (s : State) (n : Nat) : Nat :=
  5 * (getF s (CAN_NBT.NBRPM1 n) + 1) * (1 + (getF s (CAN_NBT.NTSEG1M1 n) + 1) + (getF s (CAN_NBT.NTSEG2M1 n) + 1))
@[inherit_doc nomBit] def dataBit (s : State) (n : Nat) : Nat :=
  5 * (getF s (CAN_DBT.DBRPM1 n) + 1) * (1 + (getF s (CAN_DBT.DTSEG1M1 n) + 1) + (getF s (CAN_DBT.DTSEG2M1 n) + 1))

/-- The bound of a frame: nominal and data-phase bits (Table 13.2). -/
def frameBits (fd brs ide : Bool) (len : Nat) : Nat × Nat :=
  if !fd then ((if ide then 80 else 55) + 10 * len, 0)
  else
    let d := (5 * (8 * len + 8) + 3) / 4 + (if len ≤ 16 then 28 else 33)
    let n := if ide then 70 else 45
    if brs then (n, d) else (n + d, 0)

/-- The bound of a frame in core cycles. -/
def frameCycles (s : State) (n : Nat) (f : CanFrame) : Nat :=
  let (a, b) := frameBits f.fd f.brs f.ide f.data.length
  a * nomBit s n + b * dataBit s n

/-! ## Reception (R371 to R374) -/

/-- Data bytes of a data length code. -/
def dlcLen (fd : Bool) (dlc : Nat) : Nat :=
  if dlc ≤ 8 then dlc else if fd then nth 64 [12, 16, 20, 24, 32, 48, 64] (dlc - 9) else 8

/-- The data bytes of a received frame. -/
def rxData (f : CanFrame) : List Byte :=
  if f.rtr then [] else (List.range (dlcLen f.fd f.dlc)).map fun i => f.data.getD i 0

/-- A filter of fields VALID, IDE, FMT, RTR_OK, ID, MASK matches a frame (R372). -/
def filterMatch (valid : Bool) (ide fmt : Nat) (rtrOk : Bool) (id mask : Nat) (f : CanFrame) : Bool :=
  let m := if f.ide then 2 ^ 29 else 2 ^ 11
  valid && (ide == 2 || ide == b2n f.ide) && (fmt == 0 || (fmt == 1 && !f.fd) || (fmt == 2 && f.fd)) && (!f.rtr || rtrOk) &&
    ((f.id ^^^ id) &&& mask) % m == 0

/-- The first high-priority filter that matches, and the first general one with its REJECT. -/
def hpfMatch (s : State) (n : Nat) (f : CanFrame) : Option Nat :=
  (List.range 8).find? fun i => filterMatch (isSet s (CAN_HPF_CFG.VALID n i)) (getF s (CAN_HPF_CFG.IDE n i))
    (getF s (CAN_HPF_CFG.FMT n i)) (isSet s (CAN_HPF_CFG.RTR_OK n i)) (getF s (CAN_HPF_ID.ID n i))
    (getF s (CAN_HPF_MASK.MASK n i)) f
@[inherit_doc hpfMatch] def afMatch (s : State) (n : Nat) (f : CanFrame) : Option Nat :=
  (List.range 128).find? fun i => filterMatch (isSet s (CAN_AF_CFG.VALID n i)) (getF s (CAN_AF_CFG.IDE n i))
    (getF s (CAN_AF_CFG.FMT n i)) (isSet s (CAN_AF_CFG.RTR_OK n i)) (getF s (CAN_AF_ID.ID n i))
    (getF s (CAN_AF_MASK.MASK n i)) f

/-- The entry of a frame (Table 13.1): its 20 words. -/
def rxEntry (s : State) (f : CanFrame) (spill : Bool) (filter stamp : Nat) : List Nat :=
  let d := rxData f
  let (hi, lo) := stampWords (classNow s) stamp
  [b2n f.fd * 2 ^ 31 + b2n f.ide * 2 ^ 30 + b2n f.rtr * 2 ^ 29 + f.id % (if f.ide then 2 ^ 29 else 2 ^ 11),
   b2n f.brs * 2 ^ 31 + b2n f.esi * 2 ^ 30 + b2n spill * 2 ^ 29 + f.dlc % 16 * 2 ^ 24 + d.length * 2 ^ 16 + filter, hi, lo] ++
  (List.range 16).map fun i => ((List.range 4).map fun j => (d.getD (4 * i + j) 0).toNat * 256 ^ j).sum

/-- An entry goes into the RX FIFO, or is lost (R373). -/
def rxFifo (s : State) (n : Nat) (e : List Nat) : State :=
  if (canSt s n).fifo.length < 64 then updCan s n fun c => { c with fifo := c.fifo ++ [e] }
  else setRaise (incSat s (CAN_CNT1.RXOVF n) (CAN_STAT.CNT_OVF n)) (CAN_STAT.RXOVF n) 1

/-- A frame is filtered; a match is the CAN wake source (R371, R374). `sf` holds the filters that judge it (R391). -/
def canFilter (s sf : State) (n : Nat) (f : CanFrame) (stamp : Nat) : State :=
  match hpfMatch sf n f with
  | some i =>
    let s := wakeSource s 6
    if (canSt s n).hpb.length < 4 then updCan s n fun c => { c with hpb := c.hpb ++ [rxEntry s f false (0x80 + i) stamp] }
    else rxFifo (setF s (CAN_STAT.HPB_SPILL n) 1) n (rxEntry s f true (0x80 + i) stamp)
  | none => match afMatch sf n f with
    | some i => if isSet sf (CAN_AF_CFG.REJECT n i) then s
        else rxFifo (wakeSource s 6) n (rxEntry s f false i stamp)
    | none => incSat s (CAN_CNT0.NOMATCH n) (CAN_STAT.CNT_OVF n)

/-! ## Time-triggered operation (R386 to R389) -/

/-- The frame is a reference message (R386). -/
def isRef (s : State) (n : Nat) (f : CanFrame) : Bool :=
  isSet s (CAN_CTRL.MODE n) && !f.fd && !f.rtr && f.ide == isSet s (CAN_TTREF.IDE n) &&
    f.id / 8 == getF s (CAN_TTREF.ID n) % (if f.ide then 2 ^ 29 else 2 ^ 11) / 8 && 1 ≤ f.dlc

/-- A sync mark at a core cycle: the cycle time restarts, the state follows who sent the reference, a waiting schedule takes
over with cycle count 0 (R386, R387, R391, Table 13.4). -/
def syncMark (s : State) (n count prio : Nat) (sent : Bool) (cyc : Nat) : State :=
  let s := if (canSt s n).schedWait && count == 0 then canLoadSched s n else s
  let s := updCan s n fun c => { c with mark := cyc, count := some count, refWait := none }
  let st := if sent then 4 else if ttRole s n s.mode = 2 then 3 else 2
  pulse (setFs s [(CAN_TTSTAT.STATE n, st), (CAN_TTSTAT.CYCCNT n, count), (CAN_TTSTAT.MPRIO n, prio)]) (0x30904 + 8 * n)

/-- The controller is in schedule. -/
def ttIn (s : State) (n : Nat) : Bool := 2 ≤ getF s (CAN_TTSTAT.STATE n)

/-- The cycle time in core cycles, and in NTU (R386). -/
def ttElapsed (s : State) (n : Nat) : Nat := s.core.cyc - (canSt s n).mark
@[inherit_doc ttElapsed] def ttTime (s : State) (n : Nat) : Nat := ttElapsed s n / nomBit s n

/-- The window open now and the cycle time at which it closes, in NTU (R388). -/
def ttWindow (s : State) (n : Nat) : Option (Nat × Nat) :=
  let g := (canSt s n).sched
  let t := ttTime s n
  let w := (g.marks.takeWhile fun m => decide (m ≤ t)).length
  if w = 0 ∨ g.bclen ≤ t then none else some (w - 1, g.marks.getD w g.bclen)

/-- A cell of the schedule in force: type and object. -/
def ttCell (s : State) (n c w : Nat) : Nat × Nat :=
  let v := ((canSt s n).sched.cells.lookup (32 * c + w)).getD 0
  (v / 32, v % 32)

/-- The number n of the basic cycle whose reference instant a TAI has reached last (R387, ALIGN 1). -/
def ttInstant (s : State) (n t : Nat) : Int :=
  let g := (canSt s n).sched
  ((t : Int) - (g.base * nsUnit : Nat)) / ((max 1 (g.bclen * nomBit s n * (5 * nsUnit / 2)) : Nat) : Int)

/-- A reference instant falls in this cycle: the TAI instant is reached by its end (R57); or the cycle time has reached BCLEN, and in
SYNC_OFF the bus has been silent for TTWATCH (R387). -/
def ttRefDue (s : State) (n : Nat) : Bool :=
  let g := (canSt s n).sched
  if isSet s (CAN_TTCFG.ALIGN n) then ttInstant s n s.time.tai != ttInstant s n (s.time.tai + taiStep s)
  else if ttIn s n then decide (g.bclen ≤ ttTime s n)
  else decide ((canSt s n).seen + g.watch * nomBit s n ≤ s.core.cyc)

/-- TT_REFERENCE_INSTANT (R387): the reference of the next cycle count waits for the idle bus. -/
def execTtReferenceInstant (n : Nat) (s : State) : Host.Outcome State Fault Refusal :=
  .next (if canRuns s n && ttRole s n s.mode == 2 && getF s (CAN_STAT.ERRSTATE n) != 3 && ttRefDue s n then
      let g := (canSt s n).sched
      let count := if isSet s (CAN_TTCFG.ALIGN n) then (ttInstant s n (s.time.tai + taiStep s) % (g.mcyc : Int)).toNat
        else match (canSt s n).count with
          | some c => (c + 1) % max 1 g.mcyc
          | none => 0
      updCan s n fun c => { c with refWait := some count }
    else s)

/-- Window w opens in this core cycle: the cycle time reaches its time mark (R388). -/
def ttOpens (s : State) (n w : Nat) : Bool :=
  match (canSt s n).sched.marks[w]? with
  | some m => ttElapsed s n == m * nomBit s n
  | none => false

/-- TT_WINDOW_OPEN (R389): an EXCLUSIVE cell takes its object's frame; a frame of the window before that has not started is
lost. -/
def execTtWindowOpen (n w : Nat) (s : State) : Host.Outcome State Fault Refusal :=
  .next (if canRuns s n && ttIn s n && ttOpens s n w then
      let (type, j) := ttCell s n (((canSt s n).count).getD 0) w
      let s := if (canSt s n).att == some .excl then s else canLoseExcl s n
      if type = 1 && canProgMode s && (canSt s n).excl.isNone then
        match objFrame s n j with
        | some f => busTake (updCan s n fun c => { c with excl := some (j, f, s.core.cyc) }) n j 4
        | none => s
      else s
    else s)

/-- TXEN has passed since the opening of the exclusive window whose frame waits (R389). -/
def txenOver (s : State) (n : Nat) : Bool :=
  match (canSt s n).excl with
  | some (_, _, at') => decide (at' + (canSt s n).sched.txen * nomBit s n < s.core.cyc)
  | none => false

/-- TT_TXEN_EXPIRY (R389): TXEN has passed and the frame has not started. -/
def execTtTxenExpiry (n : Nat) (s : State) : Host.Outcome State Fault Refusal :=
  .next (if canRuns s n && (canSt s n).att != some .excl && txenOver s n then canLoseExcl s n else s)

/-- TT_REF_WATCH_TIMEOUT (R386): BCLEN + TTWATCH without a valid reference. -/
def execTtRefWatchTimeout (n : Nat) (s : State) : Host.Outcome State Fault Refusal :=
  .next (if canRuns s n && ttIn s n && decide ((canSt s n).sched.bclen + (canSt s n).sched.watch ≤ ttTime s n) then
      let s := if (canSt s n).att == some .excl then s else canLoseExcl s n
      setRaise (setF s (CAN_TTSTAT.STATE n) 1) (CAN_STAT.REF_LOST n) 1
    else s)

/-! ## ZCP segments (R393, R394) -/

/-- The frame is a request segment. -/
def isSegment (s : State) (n : Nat) (f : CanFrame) : Bool :=
  isSet s (CAN_ZCP_RX.EN n) && !f.rtr && f.ide == isSet s (CAN_ZCP_RX.IDE n) &&
    f.id == getF s (CAN_ZCP_RX.ID n) % (if f.ide then 2 ^ 29 else 2 ^ 11) && 2 ≤ dlcLen f.fd f.dlc

/-- Bytes of a packet as its header announces them (R508). -/
def packetLen (bs : List Byte) : Nat := 20 + beNat ((bs.drop 14).take 2)

/-- A context is closed. -/
def dropCtx (s : State) (n peer : Nat) : State :=
  updCan s n fun c => { c with ctxs := c.ctxs.filter fun x => x.peer != peer }

/-- A context has grown: an oversize packet is abandoned, a whole one goes to the interpreter (R394). -/
def ctxGrown (s : State) (n : Nat) (x : CanCtx) (last : Bool) : State :=
  let s := dropCtx s n x.peer
  let keep := updCan s n fun c => { c with ctxs := c.ctxs ++ [x] }
  if 16 ≤ x.bytes.length ∧ 2048 < packetLen x.bytes then s
  else if !last then keep
  else
    let s := updCan s n fun c => { c with zcpFmt := (x.peer, (x.fd, x.brs)) :: c.zcpFmt.filter fun p => p.1 != x.peer }
    zcpArrive s { tr := 4 + n, addr := [x.peer, 0, 0, 0], port := 0, via := 0 }
      (if 16 ≤ x.bytes.length then x.bytes.take (packetLen x.bytes) else x.bytes)

/-- A request segment (R394). A first segment that repeats the one its context holds, byte for byte, is a duplicate (case 12); any other
first segment restarts the context (log entry 142, DESIGN CHOICE). -/
def zcpSegment (s : State) (n : Nat) (f : CanFrame) : State :=
  let d := rxData f
  let b0 := (nth 0 d 0).toNat
  let peer := (nth 0 d 1).toNat
  let seg := b0 % 64
  let old := (canSt s n).ctxs.find? fun x => x.peer == peer
  let dup := incSat s (CAN_CNT2.DUPSEG n) (CAN_STAT.CNT_OVF n)
  if bitOf b0 7 then
    let x : CanCtx := { peer := peer, seg := seg, bytes := d.drop 2, fd := f.fd, brs := f.brs }
    if old == some x then dup
    else if old.isNone && 4 ≤ (canSt s n).ctxs.length then incSat s (CAN_CNT2.CTXFULL n) (CAN_STAT.CNT_OVF n)
    else ctxGrown s n x (bitOf b0 6)
  else match old with
    | none => s
    | some x =>
      if seg = x.seg then dup
      else if seg = (x.seg + 1) % 64 then ctxGrown s n { x with seg := seg, bytes := x.bytes ++ d.drop 2 } (bitOf b0 6)
      else dropCtx (incSat s (CAN_CNT2.SEGERR n) (CAN_STAT.CNT_OVF n)) n peer

/-- CAN_ZCP_CTX_TIMEOUT (R394): no segment for 100 ms. -/
def execCanZcpCtxTimeout (n peer : Nat) (s : State) : Host.Outcome State Fault Refusal :=
  .next (if canRuns s n then dropCtx s n peer else s)

/-- The controller sees a frame or an error on the bus (R387). -/
def canSaw (s : State) (n : Nat) : State := updCan s n fun c => { c with seen := s.core.cyc }

/-- The controller takes part in the bus: error-active or error-passive. -/
def canOnBus (s : State) (n : Nat) : Bool :=
  canRuns s n && (getF s (CAN_STAT.ERRSTATE n) == 1 || getF s (CAN_STAT.ERRSTATE n) == 2)

/-- CAN_FRAME_RX (R368, R371 to R374, R386, R391 case 4, R393): a frame valid for a receiver; `stamp` is the TAI of its
start-of-frame sample point. -/
def execCanFrameRx (n : Nat) (f : CanFrame) (stamp : Nat) (s : State) : Host.Outcome State Fault Refusal :=
  .next (if !canOnBus s n then s
    else if f.fd && !isSet s (CAN_CTRL.FD_EN n) then setFs (canSaw s n) [(CAN_STAT.PEX n, 1), (CAN_STAT.ERRSTATE n, 0)]
    else
      let s := canSaw s n
      let sf := match (canSt s n).oldFlt with
        | some (regs, at') => if stamp < at' then { s with regs := regs } else s
        | none => s
      let cyc := s.core.cyc - (s.time.tai - stamp) / (5 * nsUnit / 2)
      let s := canFilter s sf n f stamp
      let s := if isRef s n f then syncMark s n ((nth 0 (rxData f) 0).toNat % 64) (f.id % 8) false cyc else s
      if isSegment s n f then zcpSegment s n f else s)

/-- CAN_RXPOP (R375). -/
def canPop (s : State) (n : Nat) (hpb : Bool) : State :=
  updCan s n fun c => if hpb then { c with hpb := c.hpb.drop 1 } else { c with fifo := c.fifo.drop 1 }

/-- CAN_RXPOP: 1 written to RXPOP (R375). -/
def execCanRxpop (n : Nat) (s : State) : Host.Outcome State Fault Refusal :=
  .next (if !absent s && domOn s 8 then canPop s n false else s)

/-- CAN_HPBPOP: 1 written to HPBPOP (R375). -/
def execCanHpbpop (n : Nat) (s : State) : Host.Outcome State Fault Refusal :=
  .next (if !absent s && domOn s 8 then canPop s n true else s)

/-! ## Transmission (R377, R378, R382, R389, R390) -/

/-- The mode lets a buffer send. -/
def tbMode (s : State) (b : Nat) : Bool := if b = 2 then canZcpMode s else canProgMode s

/-- A buffer may start a frame now (R378, R390). -/
def tbMayStart (s : State) (n b : Nat) : Bool :=
  match (canTb s n b).frame with
  | none => false
  | some (f, _) => tbMode s b &&
      (if !isSet s (CAN_CTRL.MODE n) then true
      else ttIn s n && (match ttWindow s n with
        | some (w, close) => (ttCell s n (((canSt s n).count).getD 0) w).1 == 2 &&
            decide (ttElapsed s n + frameCycles s n f ≤ close * nomBit s n)
        | none => false))

/-- The order in which frames win arbitration: the 11 most significant bits, base before extended, the other bits (R377). -/
def arbKey (f : CanFrame) : Nat :=
  if f.ide then f.id / 2 ^ 18 * 2 ^ 19 + 2 ^ 18 + f.id % 2 ^ 18 else f.id % 2 ^ 11 * 2 ^ 19

/-- The buffer offered to arbitration (R377, case 3). -/
def tbChoose (s : State) (n : Nat) : Option Nat :=
  let c := [0, 1, 2].filter (tbMayStart s n)
  if isSet s (CAN_CTRL.TXPRIO n) then c.head?
  else c.foldl (fun best b => match best with
    | none => some b
    | some x =>
      let key (b : Nat) : Nat := match (canTb s n b).frame with | some (f, _) => arbKey f | none => 0
      if key b < key x then some b else some x) none

/-- An attempt begins. -/
def canAttempt (s : State) (n : Nat) (a : CanAtt) : State :=
  updCan s n fun c => { c with att := some a, attAt := s.core.cyc }

/-- CAN_TX_START: the bus is idle and the controller commits to a start of frame (R378, R382, R387, R389, R390). -/
def execCanTxStart (n : Nat) (s : State) : Host.Outcome State Fault Refusal :=
  .next (if !canOnBus s n || (canSt s n).att.isSome || (canSt s n).reinit then s
    else if (canSt s n).refWait.isSome && ttRole s n s.mode == 2 then canAttempt s n .ref
    else
      let ex := match (canSt s n).excl with
        | some (_, _, at') => canProgMode s && decide (s.core.cyc ≤ at' + (canSt s n).sched.txen * nomBit s n)
        | none => false
      if ex then canAttempt s n .excl
      else match tbChoose s n with
        | some b => canAttempt (updTb s n b fun t => { t with attempt := true }) n (.tb b)
        | none => s)

/-- An attempt has ended: buffers load again, and a reinitialisation that waited acts (R376, R397). -/
def canAfter (s : State) (n : Nat) : State :=
  let s := if (canSt s n).reinit then canReinitNow s n else s
  canLoadZcp (if canProgMode s then canLoad s n else s) n

/-- CAN_TX_DONE: the frame in the attempt is valid for its transmitter (R376, R378, R381, R382, R386). -/
def execCanTxDone (n : Nat) (s : State) : Host.Outcome State Fault Refusal :=
  .next (match (canSt s n).att with
    | none => s
    | some a =>
      let at' := (canSt s n).attAt
      let s := updCan (canSaw s n) n fun c => { c with att := none }
      let s := match a with
        | .tb b =>
          let tb := canTb s n b
          let s := updTb s n b fun _ => CanTb.init
          let s := if tb.cancel then setFs s [(canLast n b, 3), (CAN_STAT.CANCEL_LATE n, 1)] else setF s (canLast n b) 1
          (match tb.frame with
          | some (_, .obj j) => postedDone s (busPosted n j (1 + b)) none
          | _ => s)
        | .excl => (match (canSt s n).excl with
          | some (j, _, _) => postedDone (updCan s n fun c => { c with excl := none }) (busPosted n j 4) none
          | none => s)
        | .ref => (match (canSt s n).refWait with
          | some c => syncMark s n c (getF s (CAN_TTREF.ID n) % 8) true at'
          | none => s)
      canAfter s n)

/-- CAN_TX_FAIL: the frame in the attempt loses arbitration or meets an error (R378, R382, R385, R389, R396). -/
def execCanTxFail (n : Nat) (s : State) : Host.Outcome State Fault Refusal :=
  .next (match (canSt s n).att with
    | none => s
    | some a =>
      let s := updCan (canSaw s n) n fun c => { c with att := none }
      let s := match a with
        | .tb b =>
          let tb := canTb s n b
          if tb.cancel then canRelease s n b 2
          else if !tbMode s b then canRelease s n b 5
          else updTb s n b fun t => { t with attempt := false }
        | .excl => canLoseExcl s n
        | .ref => updCan s n fun c => { c with refWait := none }
      canAfter s n)

/-- A cancellation of the buffers of a mask (R382). -/
def canCancel (s : State) (n mask : Nat) : State :=
  let s := [0, 1, 2].foldl (fun s b =>
    if !bitOf mask b || (canTb s n b).frame.isNone then s
    else if (canTb s n b).attempt then updTb s n b fun t => { t with cancel := true }
    else canRelease s n b 2) s
  canLoadZcp (if canProgMode s then canLoad s n else s) n

/-- CAN_TB_CANCEL: a write to CANn_TBCTL (R382). -/
def execCanTbCancel (n mask : Nat) (s : State) : Host.Outcome State Fault Refusal :=
  .next (if !absent s && domOn s 8 then canCancel s n mask else s)

/-! ## Errors (R383, R384, R397) -/

/-- The error state of counters (R383). -/
def errState (tec rec : Nat) : Nat := if 255 < tec then 3 else if 127 < tec ∨ 127 < rec then 2 else 1

/-- BUS_OFF_ENTRY (R383). -/
def busOff (s : State) (n : Nat) : State :=
  let s := canReleaseAll s n 4
  let s := incSat (setF s (CAN_STAT.ERRSTATE n) 3) (CAN_CNT0.BUSOFF n) (CAN_STAT.CNT_OVF n)
  setRaise s (CAN_STAT.BUSOFF_SEEN n) 1

/-- CAN_ERROR (R383): the counters as ISO 11898-1 changes them. -/
def execCanError (n tec rec : Nat) (s : State) : Host.Outcome State Fault Refusal :=
  .next (if !canOnBus s n then s
    else
      let s := setFs (canSaw s n) [(CAN_ERRCNT.TEC n, min tec 511), (CAN_ERRCNT.REC n, min rec 255)]
      if errState tec rec = 3 then busOff s n else setF s (CAN_STAT.ERRSTATE n) (errState tec rec))

/-- BUSOFF_RECOVERY (R384): segments that wait are loaded again (R395). -/
def execBusoffRecovery (n : Nat) (s : State) : Host.Outcome State Fault Refusal :=
  .next (if canRuns s n && getF s (CAN_STAT.ERRSTATE n) == 3 then
      canLoadZcp (setFs s [(CAN_ERRCNT.TEC n, 0), (CAN_ERRCNT.REC n, 0), (CAN_STAT.ERRSTATE n, 1),
        (CAN_TTSTAT.STATE n, b2n (isSet s (CAN_CTRL.MODE n)))]) n
    else s)

/-- BUS_INTEGRATION (R368, R397): 11 consecutive recessive bits. -/
def execBusIntegration (n : Nat) (s : State) : Host.Outcome State Fault Refusal :=
  .next (if canRuns s n && getF s (CAN_STAT.ERRSTATE n) == 0 then
      let s := if errState (getF s (CAN_ERRCNT.TEC n)) 0 = 3 then setF s (CAN_ERRCNT.TEC n) 0 else s
      canLoadZcp (setF s (CAN_STAT.ERRSTATE n) (errState (getF s (CAN_ERRCNT.TEC n)) (getF s (CAN_ERRCNT.REC n)))) n
    else s)

/-! ## A transaction's effect (R380, R391, R397) -/

/-- The fields whose change reinitialises a controller (R391). -/
def reinitFields (n : Nat) : List Fld :=
  [CAN_CTRL.EN n, CAN_CTRL.MODE n, CAN_CTRL.FD_EN n, CAN_TTCFG.MASTER n, CAN_TTCFG.ALIGN n, CAN_TTREF.IDE n, CAN_TTREF.ID n,
   CAN_NBT.NBRPM1 n, CAN_NBT.NTSEG1M1 n, CAN_NBT.NTSEG2M1 n, CAN_NBT.NSJWM1 n, CAN_DBT.TDC_EN n, CAN_DBT.TDCO n,
   CAN_DBT.DBRPM1 n, CAN_DBT.DTSEG1M1 n, CAN_DBT.DTSEG2M1 n, CAN_DBT.DSJWM1 n]

/-- What an effect that changed fields does to a controller; `old` is the state before it. -/
def canEffect (old s : State) (n : Nat) : State :=
  let base := 0x40090000 + 0x8000 * n
  let inFlt (k : Nat) : Bool := base + 0x200 ≤ k / 32 && k / 32 < base + 0xC00
  let s := if (old.regs.filter fun p => inFlt p.1) == (s.regs.filter fun p => inFlt p.1) then s
    else updCan s n fun c => { c with oldFlt := some (old.regs.filter fun p => inFlt p.1, s.time.tai) }
  let s := (List.range 32).foldl (fun s j =>
    if isSet s (CAN_OBJ_CFG.EN n j) && !isSet old (CAN_OBJ_CFG.EN n j) then
      (List.range 16).foldl (fun s w => setF s (CAN_OBJ_DATA.W n j w) 0) s
    else s) s
  let re := (reinitFields n).any fun f => getF old f != getF s f
  let tt := isSet old (CAN_CTRL.MODE n) && isSet s (CAN_CTRL.MODE n) && isSet old (CAN_CTRL.EN n)
  let s := if schedOf s n == (canSt s n).sched then s
    else if tt then updCan s n fun c => { c with schedWait := true }
    else canLoadSched s n
  if re then canReinit s n else s

end Sys2Proof.Machine
end

