-- ==== Sys2Proof/Machine/Companion.lean ====
section
/-!
DEFINITION. The EZ4F companions F0 to F7: links, epoch obedience, fail state, barrier, outputs, management and commands
(spec/14_field_link_outputs.md, R405 to R421, R425), inputs, counters, frequency and capture (spec/15_field_inputs_counters.md,
R427 to R442, R448). A companion runs whatever the processor's mode.
-/

namespace Sys2Proof.Machine

/-- A companion. -/
def cpnSt (s : State) (k : Nat) : CpnSt := nth CpnSt.init s.fld.cpn k

/-- The state with a companion changed. -/
def updCpn (s : State) (k : Nat) (f : CpnSt → CpnSt) : State :=
  { s with fld := { s.fld with cpn := upd s.fld.cpn k f } }

/-- A link of a companion, and the companion with it changed. -/
def cpnLink (c : CpnSt) (x : Nat) : CpnLink := nth CpnLink.init c.links x
@[inherit_doc cpnLink] def updLink (c : CpnSt) (x : Nat) (f : CpnLink → CpnLink) : CpnSt := { c with links := upd c.links x f }

/-- An input channel, and the companion with it changed. -/
def cpnIn (c : CpnSt) (ch : Nat) : CpnIn := nth CpnIn.init c.ins ch
@[inherit_doc cpnIn] def updIn (c : CpnSt) (ch : Nat) (f : CpnIn → CpnIn) : CpnSt := { c with ins := upd c.ins ch f }

/-! ## Configuration words (Tables 14.9, 15.11) -/

/-- Fields of an FLD_ICFG word. -/
def icfg (c : CpnSt) (ch : Nat) : Nat := nth 0x200003E8 c.cfg.icfg ch
@[inherit_doc icfg] def inEdges (c : CpnSt) (ch : Nat) : Nat := bitsOf (icfg c ch) 29 2
@[inherit_doc icfg] def inRaw (c : CpnSt) (ch : Nat) : Bool := bitOf (icfg c ch) 27 && decide (ch < 4)
@[inherit_doc icfg] def inEvt (c : CpnSt) (ch : Nat) : Nat := bitsOf (icfg c ch) 25 2
@[inherit_doc icfg] def inFen (c : CpnSt) (ch : Nat) : Bool := bitOf (icfg c ch) 22

/-- A direction is selected by a two-bit edge field: 1 rising, 2 falling, 3 both. -/
def edgeSel (code : Nat) (rise : Bool) : Bool := bitOf code (if rise then 0 else 1)

/-- Gate codes GMIN and GMAX. -/
def gateMin (c : CpnSt) : Nat := c.cfg.gate % 4
@[inherit_doc gateMin] def gateMax (c : CpnSt) : Nat := c.cfg.gate / 16 % 4

/-- The output that governs an output: the lower one of a parallel pair (R415). -/
def outLead (c : CpnSt) (i : Nat) : Nat :=
  if (i = 1 ∧ bitOf c.cfg.ocfg 8) ∨ (i = 3 ∧ bitOf c.cfg.ocfg 9) then i - 1 else i

/-- The fail-state code of an output: 0 OFF, 1 ON, 2 HOLD (R413). -/
def outFail (c : CpnSt) (i : Nat) : Nat := c.cfg.ocfg / 4 ^ outLead c i % 4

/-- Thermal shutdown of an output is latched (R416). -/
def outLatch (c : CpnSt) (i : Nat) : Bool := bitOf c.cfg.ocfg (12 + i)

/-! ## Outputs (R412 to R417) -/

/-- The outputs are in fail state. -/
def cpnFailed (c : CpnSt) : Bool := !c.causes.isEmpty

/-- The states driven: commanded or held, but off in thermal shutdown and in undervoltage (R416, R417). -/
def cpnDrive (c : CpnSt) : CpnSt :=
  let on (i : Nat) : Bool := nth false c.want (outLead c i) && !nth false c.tsd i && !nth false c.tsd (outLead c i) && !c.uv
  { c with driven := (List.range 4).map on }

/-- What the outputs take in fail state (R413). CFGLOST, and a companion that has never obeyed, hold them off. -/
def cpnFailDrive (c : CpnSt) : CpnSt :=
  let out (i : Nat) : Bool :=
    if c.causes.contains 4 || !c.obvalid then false
    else match outFail c i with
      | 1 => true
      | 2 => nth false c.want i && !c.holdOver
      | _ => false
  cpnDrive { c with want := (List.range 4).map out }

/-- FAIL_STATE_ENTRY (R413): a cause arises; entry ends every fast latch and starts the HOLD timer. -/
def cpnFail (c : CpnSt) (cause : Nat) : CpnSt :=
  let c := if cpnFailed c then c else { c with fast := List.replicate 4 none, holdOver := false }
  cpnFailDrive { c with causes := cause :: c.causes.filter (· != cause) }

/-- FCAUSE: the lowest code, 0 outside fail state. -/
def cpnCause (c : CpnSt) : Nat := if cpnFailed c then c.causes.foldl min 7 else 0

/-- An obeyed OUTCMD is refused (R414 to R417): the barrier has failed, a pair's values differ, or an output is switched on
that undervoltage or a latched shutdown holds off. -/
def cpnNack (c : CpnSt) (cmd : Nat) : Bool :=
  c.barrierFail || (List.range 4).any fun i =>
    (outLead c i != i && bitOf cmd i != bitOf cmd (outLead c i)) ||
      (outLead c i == i && (nth none c.fast i).isNone && bitOf cmd i && (c.uv || (nth false c.tsd i && outLatch c i)))

/-- An obeyed frame without SAFE (R409, R412, Table 14.3): it ends the causes that may end, agreeing latches end, and OUTCMD
drives the outputs that are not fast-latched. -/
def cpnObey (c : CpnSt) (cmd : Nat) : CpnSt :=
  let left := c.causes.filter fun x => (x == 3 && (c.barrierFail || c.fieldFail)) || (x == 4 && c.cfglost)
  let c := { c with causes := left, outcmd := cmd }
  if cpnFailed c then cpnFailDrive c
  else
    let fast := (List.range 4).map fun i => match nth none c.fast i with
      | some v => if v = bitOf cmd i then none else some v
      | none => none
    cpnDrive { c with fast := fast, want := (List.range 4).map fun i => (nth none fast i).getD (bitOf cmd i) }

/-! ## The event FIFOs (R439) -/

/-- An event enters the FIFO of a link. -/
def linkPush (c : CpnSt) (x : Nat) (e : CpnEvent) : CpnSt :=
  let l := cpnLink c x
  let e := { e with lost := l.lost }
  if l.fifo.length < 64 then updLink c x fun l => { l with fifo := l.fifo ++ [e], lost := false }
  else
    let c' := updLink c x fun l => { l with lost := true }
    { c' with evlost := (c.evlost + 1) % 256 }

/-- An event enters both FIFOs, stamped on each link's counter (R438). -/
def cpnEvent (c : CpnSt) (ch kind : Nat) (rise invalid : Bool) (subA subB : Nat) : CpnSt :=
  let e (x sub : Nat) : CpnEvent :=
    { ch := ch, kind := kind, rise := rise, invalid := invalid, lost := false,
      fno := if kind = 2 then 0 else (cpnLink c x).fno, sub := if kind = 2 then 0 else sub }
  linkPush (linkPush c 0 (e 0 subA)) 1 (e 1 subB)

/-! ## Inputs (R429 to R437) -/

/-- A rising source edge opens a measurement (R434). -/
def freqOpen (c : CpnSt) (ch : Nat) : CpnSt :=
  if inFen c ch then updIn c ch fun i => { i with fopen := true } else c

/-- Every open measurement spans a change of the timing link (R436). -/
def freqSpan (c : CpnSt) : CpnSt := { c with ins := c.ins.map fun i => if i.fopen then { i with fvinv := true } else i }

/-- COUNTER_EDGE on a companion (R431, R432): a counted edge. -/
def countEdge (c : CpnSt) (ch : Nat) : CpnSt :=
  let i := cpnIn c ch
  if i.cnt + 1 < 2 ^ 32 then updIn c ch fun i => { i with cnt := i.cnt + 1 }
  else cpnEvent (updIn c ch fun i => { i with cnt := if bitOf (icfg c ch) 28 then 2 ^ 32 - 1 else 0, ovf := true }) ch 2
    false false 0 0

/-- RAW_INPUT_CHANGE (R428, R429). -/
def execRawInputChange (k c : Nat) (level : Bool) (s : State) : Host.Outcome State Fault Refusal :=
  .next (updCpn s k fun p =>
    let rise := level && !(cpnIn p c).raw
    let p := updIn p c fun i => { i with raw := level }
    if rise && inRaw p c then freqOpen p c else p)

/-- DEBOUNCED_EDGE (R429, R430, R439): the raw value has been held for DEB µs. -/
def execDebouncedEdge (k c subA subB : Nat) (s : State) : Host.Outcome State Fault Refusal :=
  .next (updCpn s k fun p =>
    let i := cpnIn p c
    if i.raw = i.deb then p
    else
      let p := updIn p c fun i => { i with deb := i.raw }
      let p := if i.raw && !inRaw p c then freqOpen p c else p
      if edgeSel (inEvt p c) i.raw then cpnEvent p c 0 i.raw i.settling subA subB else p)

/-- COUNTER_EDGE (R431, R432). -/
def execCounterEdge (k c : Nat) (rise : Bool) (s : State) : Host.Outcome State Fault Refusal :=
  .next (updCpn s k fun p =>
    let p := if rise then freqOpen p c else p
    if edgeSel (inEdges p c) rise then countEdge p c else p)

/-- SETTLING_END (R430): a measurement that is open overlapped the interval. -/
def execSettlingEnd (k c : Nat) (s : State) : Host.Outcome State Fault Refusal :=
  .next (updCpn s k fun p => updIn p c fun i => { i with settling := false, fvinv := i.fvinv || (i.settling && i.fopen) })

/-- The gate after a measurement of a frequency in mHz (R435). -/
def nextGate (c : CpnSt) (g mhz : Nat) : Nat :=
  if 10 ^ g * mhz < 500 * 10 ^ 6 ∧ g < gateMax c then g + 1
  else if 10 ^ 10 ≤ 10 ^ g * mhz ∧ gateMin c < g then g - 1 else g

/-- A measurement closes with a frequency in mHz, or without signal (R434 to R436). -/
def freqClose (c : CpnSt) (ch mhz : Nat) (nosig : Bool) : CpnSt :=
  let top := if ch < 4 then 500000000 else 250000000
  updIn c ch fun i =>
    let rng := match i.lastGate with | some g => g != i.gate | none => false
    { i with freq := b2n rng * 2 ^ 31 + b2n nosig * 2 ^ 30 + b2n (decide (top < mhz)) * 2 ^ 29 + min mhz (2 ^ 29 - 1)
             freqVinv := i.fvinv || i.settling, fvinv := false, fopen := !nosig, lastGate := some i.gate
             gate := nextGate c i.gate mhz }

/-- FREQ_MEASUREMENT_CLOSE (R434 to R436): N periods in T ticks of 2.5 ns, not less than the gate time. -/
def execFreqMeasurementClose (k c periods ticks : Nat) (s : State) : Host.Outcome State Fault Refusal :=
  .next (updCpn s k fun p =>
    if inFen p c && (cpnIn p c).fopen && decide (400000 * 10 ^ (cpnIn p c).gate ≤ ticks) && decide (0 < periods) then
      freqClose p c ((periods * 4 * 10 ^ 11 * 2 + ticks) / (2 * ticks)) false
    else p)

/-- FREQ_NOSIG_TIMEOUT (R436). -/
def execFreqNosigTimeout (k c : Nat) (s : State) : Host.Outcome State Fault Refusal :=
  .next (updCpn s k fun p => if inFen p c && (cpnIn p c).fopen then freqClose p c 0 true else p)

/-- CAPTURE_EDGE (R437): an edge at a time in units of 2.5 ns. -/
def execCaptureEdge (k c : Nat) (rise : Bool) (edge subA subB : Nat) (s : State) : Host.Outcome State Fault Refusal :=
  .next (updCpn s k fun p =>
    let i := cpnIn p c
    let w := icfg p c
    let near := match i.capAt with | some t => decide (edge < t + 40) | none => false
    if 4 ≤ c ∨ !bitOf w 24 ∨ !edgeSel (inEvt p c) rise then p
    else if near then { p with caplost := (p.caplost + 1) % 256 }
    else if !i.armed then p
    else cpnEvent (updIn p c fun i => { i with capAt := some edge, armed := !bitOf w 23 }) c 1 rise false subA subB)

/-! ## Management (R419 to R421, R442) -/

/-- The words of a configuration by register offset. -/
def cfgWord (g : CpnCfg) (addr : Nat) : Option Nat :=
  if addr = 0x20 then some g.ocfg
  else if addr = 0x24 then some g.ftmo
  else if addr = 0x70 then some g.gate
  else if 0x40 ≤ addr ∧ addr < 0x70 ∧ addr % 4 = 0 then g.icfg[(addr - 0x40) / 4]?
  else none

/-- A configuration with a word replaced. -/
def cfgPut (g : CpnCfg) (addr v : Nat) : CpnCfg :=
  if addr = 0x20 then { g with ocfg := v }
  else if addr = 0x24 then { g with ftmo := v }
  else if addr = 0x70 then { g with gate := v }
  else { g with icfg := g.icfg.set ((addr - 0x40) / 4) v }

/-- Bits of a list, bit 0 first. -/
def bitsNat (l : List Bool) : Nat := (l.zipIdx.map fun p => if p.1 then 2 ^ p.2 else 0).sum

/-- FLD_STAT of a companion (Table 14.9). -/
def cpnStatWord (c : CpnSt) : Nat :=
  c.obepoch * 2 ^ 16 + c.oblink * 2 ^ 15 + b2n c.obvalid * 2 ^ 14 + b2n c.cfglost * 2 ^ 13 + b2n c.conflict * 2 ^ 12 +
    b2n c.barrierFail * 2 ^ 11 + b2n c.uv * 2 ^ 10 + b2n (cpnFailed c) * 2 ^ 9 + cpnCause c * 2 ^ 6 + b2n c.fastExp * 2 ^ 5 +
    b2n c.fastRef * 2 ^ 4 + bitsNat (c.fast.map Option.isSome)

/-- A companion register (Tables 14.9, 15.11); none where there is no register. -/
def cpnReg (c : CpnSt) (addr : Nat) : Option Nat :=
  match cfgWord c.cfg addr with
  | some w => some w
  | none =>
    match addr with
    | 0x000 => some 0x0E4F0100
    | 0x004 => some (cpnStatWord c)
    | 0x008 => some (bitsNat c.driven * 2 ^ 12 + bitsNat c.tsd * 2 ^ 8 + bitsNat c.lim * 2 ^ 4 + bitsNat c.driven)
    | 0x00C => some (c.crcA * 2 ^ 20 + c.crcB * 2 ^ 8 + c.frej)
    | 0x010 => some (bitsNat (c.ins.map (·.settling)) * 2 ^ 16 + bitsNat (c.ins.map (·.deb)))
    | 0x014 => some (bitsNat (c.ins.map (·.ovf)))
    | 0x018 => some (c.evlost * 2 ^ 8 + c.caplost)
    | 0x110 => some (match c.clatf with | some f => 2 ^ 31 + f | none => 0)
    | _ =>
      if addr % 4 = 0 ∧ 0x80 ≤ addr ∧ addr < 0xB0 then some (cpnIn c ((addr - 0x80) / 4)).cnt
      else if addr % 4 = 0 ∧ 0xB0 ≤ addr ∧ addr < 0xE0 then some (cpnIn c ((addr - 0xB0) / 4)).freq
      else if addr % 4 = 0 ∧ 0xE0 ≤ addr ∧ addr < 0x110 then some (cpnIn c ((addr - 0xE0) / 4)).clat
      else none

/-- A management result: MST, MDATA (Table 14.2). -/
abbrev MgmtRes := Nat × Nat

/-- A management read on a companion. -/
def cpnRead (c : CpnSt) (addr : Nat) : MgmtRes := match cpnReg c addr with | some v => (1, v) | none => (3, 0)

/-- A management write on a link (R419, R420): configuration words go to the link's shadow, W1C fields clear. -/
def cpnWrite (c : CpnSt) (x addr data : Nat) : MgmtRes × CpnSt :=
  if (cfgWord c.cfg addr).isSome then ((1, 0), updLink c x fun l => { l with shadow := cfgPut l.shadow addr data })
  else if addr = 0x004 then
    ((1, 0), { c with conflict := c.conflict && !bitOf data 12, fastExp := c.fastExp && !bitOf data 5,
                      fastRef := c.fastRef && !bitOf data 4 })
  else if addr = 0x014 then
    ((1, 0), { c with ins := c.ins.zipIdx.map fun p => if bitOf data p.2 then { p.1 with ovf := false } else p.1 })
  else ((if (cpnReg c addr).isSome then 2 else 3, 0), c)

/-- A configuration becomes active (R420, R430, R433, R436). -/
def cpnApply (c : CpnSt) (g : CpnCfg) : CpnSt :=
  let old := c.cfg
  let ins := c.ins.zipIdx.map fun p =>
    let a := nth 0 old.icfg p.2
    let b := nth 0 g.icfg p.2
    let i := if a % 65536 ≠ b % 65536 ∨ a / 2 ^ 31 ≠ b / 2 ^ 31 then { p.1 with settling := true } else p.1
    let i := if a ≠ b then { i with vinv := true } else i
    if a ≠ b ∨ old.gate ≠ g.gate then
      { i with fopen := false, fvinv := true, freq := 0, freqVinv := true, gate := g.gate % 4, lastGate := none }
    else i
  let c := { c with cfg := g, cfglost := false, ins := ins }
  if cpnFailed c then cpnFailDrive c else cpnDrive c

/-- APPLY of a link's shadow; on a link that is not obeyed it is refused (R420). -/
def cpnApplyCmd (c : CpnSt) (x : Nat) (obeyed : Bool) : MgmtRes × CpnSt :=
  if obeyed then ((1, 0), cpnApply c (cpnLink c x).shadow) else ((2, 0), c)

/-- Fast latches of the named outputs end, and the regular value drives them (R409). -/
def cpnUnlatch (c : CpnSt) (outs : Nat) : CpnSt :=
  let c := { c with want := (List.range 4).map fun i => if bitOf outs i && (nth none c.fast i).isSome then bitOf c.outcmd i else nth false c.want i
                    fast := c.fast.zipIdx.map fun p => if bitOf outs p.2 then none else p.1 }
  cpnDrive c

/-- The effect of a command word other than APPLY on its channels or outputs (R421, R442). -/
def cpnCommand (c : CpnSt) (x opc arg : Nat) : Option CpnSt :=
  match opc with
  | 2 => some (cpnDrive { c with tsd := c.tsd.zipIdx.map fun p => p.1 && !bitOf arg p.2 })
  | 3 => some (cpnUnlatch c (arg % 16))
  | 8 => some { c with ins := c.ins.map fun i => { i with clat := i.cnt }, clatf := some (cpnLink c x).fno }
  | 9 => some { c with ins := c.ins.zipIdx.map fun p => if bitOf arg p.2 then { p.1 with cnt := 0, vinv := false } else p.1 }
  | 10 => some { c with ins := c.ins.zipIdx.map fun p => if bitOf arg p.2 then { p.1 with ovf := false } else p.1 }
  | 11 => some { c with ins := c.ins.zipIdx.map fun p => if p.2 < 4 && bitOf arg p.2 then { p.1 with armed := true } else p.1 }
  | _ => none

/-- A command word on a link (R421): commands other than APPLY act only on OBLINK. -/
def cpnWord (c : CpnSt) (x : Nat) (obeyed : Bool) (w : Nat) : MgmtRes × CpnSt :=
  if w / 2 ^ 28 = 1 then cpnApplyCmd c x obeyed
  else if !c.obvalid || c.oblink != x then ((2, 0), c)
  else match cpnCommand c x (w / 2 ^ 28) (w % 2 ^ 28) with
    | some c' => ((1, 0), c')
    | none => ((2, 0), c)

/-- The result of a management operation is kept for the link's answer. -/
def cpnResult (r : MgmtRes × CpnSt) (x : Nat) : CpnSt := updLink r.2 x fun l => { l with mst := r.1.1, mdata := r.1.2 }

/-- CPN_MGMT_READ (R419). -/
def execCpnMgmtRead (k link addr : Nat) (s : State) : Host.Outcome State Fault Refusal :=
  .next (updCpn s k fun c => cpnResult (cpnRead c addr, c) link)

/-- CPN_MGMT_WRITE (R419, R420). -/
def execCpnMgmtWrite (k link addr data : Nat) (s : State) : Host.Outcome State Fault Refusal :=
  .next (updCpn s k fun c => cpnResult (cpnWrite c link addr (data % 2 ^ 32)) link)

/-- The link is the one obeyed. -/
def onLink (c : CpnSt) (x : Nat) : Bool := c.obvalid && c.oblink == x

/-- APPLY (R420). -/
def execApply (k link : Nat) (s : State) : Host.Outcome State Fault Refusal :=
  .next (updCpn s k fun c => cpnResult (cpnApplyCmd c link (onLink c link && (cpnLink c link).obeyed)) link)

/-- TSD_CLEAR (R416, R421). -/
def execTsdClear (k link outs : Nat) (s : State) : Host.Outcome State Fault Refusal :=
  .next (updCpn s k fun c => cpnResult (cpnWord c link false (0x2 * 2 ^ 28 + outs % 16)) link)

/-- FAST_RELEASE (R409, R421). -/
def execFastRelease (k link outs : Nat) (s : State) : Host.Outcome State Fault Refusal :=
  .next (updCpn s k fun c => cpnResult (cpnWord c link false (0x3 * 2 ^ 28 + outs % 16)) link)

/-- CNT_LATCH (R442). -/
def execCntLatch (k link : Nat) (s : State) : Host.Outcome State Fault Refusal :=
  .next (updCpn s k fun c => cpnResult (cpnWord c link false (0x8 * 2 ^ 28)) link)

/-- CNT_CLEAR (R442). -/
def execCntClear (k link chs : Nat) (s : State) : Host.Outcome State Fault Refusal :=
  .next (updCpn s k fun c => cpnResult (cpnWord c link false (0x9 * 2 ^ 28 + chs % 4096)) link)

/-- OVF_CLEAR (R432, R442). -/
def execOvfClear (k link chs : Nat) (s : State) : Host.Outcome State Fault Refusal :=
  .next (updCpn s k fun c => cpnResult (cpnWord c link false (0xA * 2 ^ 28 + chs % 4096)) link)

/-- CAP_ARM (R437, R442). -/
def execCapArm (k link chs : Nat) (s : State) : Host.Outcome State Fault Refusal :=
  .next (updCpn s k fun c => cpnResult (cpnWord c link false (0xB * 2 ^ 28 + chs % 16)) link)

/-! ## Frames (R405, R406, R411, R412) -/

/-- Whether a good frame on a link is obeyed (R411), with the tie of equal epochs in one slot. -/
def cpnObeys (c : CpnSt) (x : Nat) (f : DnFrame) : Bool :=
  !c.obvalid || epochHigher f.epoch c.obepoch || (c.oblink == x && f.epoch == c.obepoch) ||
    (x == 0 && c.oblink == 1 && f.epoch == c.obepoch && (cpnLink c 1).inSlot)

/-- The obeyed epoch, link and station (R411); a change of the timing link marks open measurements (R436). -/
def cpnTake (c : CpnSt) (x : Nat) (f : DnFrame) : CpnSt :=
  let c := if c.oblink = x then c else freqSpan c
  let first := !c.obvalid
  let c := { c with obvalid := true, obepoch := f.epoch, oblink := x, obstn := f.stn, links := c.links.map fun l => { l with inSlot := false } }
  if first then updLink c x fun l => { l with inSlot := true } else c

/-- A good frame on a link: obedience, outputs, management operation (R405, R411, R412, R419). -/
def cpnGood (c : CpnSt) (x : Nat) (f : DnFrame) : CpnSt :=
  let ob := cpnObeys c x f
  let c := updLink c x fun l =>
    { l with loss := 0, good := min 16 (l.good + 1), up := l.up || decide (15 ≤ l.good), fno := f.frameNo % 2 ^ 20, obeyed := ob,
             nack := false, dcrc := false, mst := 0, mtag := f.mtag, mdata := 0, due := true }
  let c := if ob then
      let c := cpnTake c x f
      if f.safe then cpnFail c 2
      else
        let nack := cpnNack c f.outcmd
        let c := updLink c x fun l => { l with nack := nack }
        cpnObey c (if c.barrierFail then c.outcmd else f.outcmd)
    else { c with conflict := c.conflict || !f.safe, links := c.links.map fun l => { l with inSlot := false } }
  match f.mop with
  | 1 => cpnResult (cpnRead c f.maddr, c) x
  | 2 => cpnResult (cpnWrite c x f.maddr (f.mdata % 2 ^ 32)) x
  | 3 => cpnResult (cpnWord c x ob (f.mdata % 2 ^ 32)) x
  | _ => c

/-- A bad frame on a link: it fails CRC or coding (R405, R406). Its number cannot be read: it counts as the next after the last (log
entry 149, DEDUCED). -/
def cpnBad (c : CpnSt) (x : Nat) : CpnSt :=
  let c := updLink c x fun l => { l with good := 0, fno := (l.fno + 1) % 2 ^ 20, obeyed := false, nack := false, dcrc := true,
                                         mst := 0, mdata := 0, due := true }
  if x = 0 then { c with crcA := (c.crcA + 1) % 4096 } else { c with crcB := (c.crcB + 1) % 4096 }

/-- CPN_FRAME_RX (R405, R406, R411, R412). -/
def execCpnFrameRx (k link : Nat) (f : DnFrame) (good : Bool) (s : State) : Host.Outcome State Fault Refusal :=
  .next (updCpn s k fun c => if good then cpnGood c link f else cpnBad c link)

/-- The next value slot of a link (R441, Table 15.5). -/
def cpnValue (c : CpnSt) (slot : Nat) : EvtField :=
  if slot < 12 then
    let i := cpnIn c slot
    .value slot (i.vinv || i.settling) i.cnt
  else if slot < 24 then
    let i := cpnIn c (slot - 12)
    if inFen c (slot - 12) then .value slot i.freqVinv (if i.freqVinv && i.lastGate.isNone then 0 else i.freq)
    else .value slot true 0
  else .value 24 false (bitsNat (c.ins.map (·.settling)) * 2 ^ 16 + bitsNat (c.ins.map (·.ovf)))

/-- The EVT item of an answer, and the companion after it (R433, R440). -/
def cpnEvt (c : CpnSt) (x : Nat) : EvtField × CpnSt :=
  let l := cpnLink c x
  match l.fifo, l.fno % 4 with
  | e :: rest, 0 | e :: rest, 1 | e :: rest, 2 => (.event e, updLink c x fun l => { l with fifo := rest })
  | _, _ =>
    let c' := updLink c x fun l => { l with slot := (l.slot + 1) % 25 }
    (cpnValue c l.slot, if l.slot < 12 then updIn c' l.slot fun i => { i with vinv := false } else c')

/-- CPN_ANSWER_SEND (R405, Table 14.2): the answer to the last frame of the link. -/
def execCpnAnswerSend (k link : Nat) (s : State) : Host.Outcome State Fault Refusal :=
  .next (updCpn s k fun c =>
    let l := cpnLink c link
    if !l.due then c
    else
      let (ev, c') := cpnEvt c link
      let a : UpFrame :=
        { obepoch := c.obepoch, oblink := c.oblink, obeying := l.obeyed, failst := cpnFailed c, conflict := c.conflict,
          barrierFail := c.barrierFail, nack := l.nack, dcrc := l.dcrc, fieldUv := c.uv, outstate := bitsNat c.driven,
          outflt := bitsNat (c.lim.zipWith (· || ·) c.tsd), inp := bitsNat (c.ins.map (·.deb)), mst := l.mst,
          cfglost := c.cfglost, fref := l.fref, mtag := l.mtag, mdata := l.mdata, evt := ev }
      updLink c' link fun l => { l with answer := some a, due := false, fref := false })

/-- CPN_LOSS_SLOT (R406, R413, R439): a slot without a good frame. -/
def execCpnLossSlot (k link : Nat) (s : State) : Host.Outcome State Fault Refusal :=
  .next (updCpn s k fun c =>
    let c := updLink c link fun l => { l with loss := min 8 (l.loss + 1), good := 0, inSlot := false }
    if (cpnLink c link).loss < 8 then c
    else
      let c := updLink c link fun l => { l with up := false, fifo := [], lost := l.lost || l.up || !l.fifo.isEmpty }
      if onLink c link && !c.causes.contains 1 then cpnFail c 1 else c)

/-! ## Fast frames (R409, R410) -/

/-- CPN_FAST_FRAME_RX (R409, R410): `epoch` is EPOCH[7:0]. -/
def execCpnFastFrameRx (k link set clr epoch : Nat) (crcOk : Bool) (s : State) : Host.Outcome State Fault Refusal :=
  .next (updCpn s k fun c =>
    if !(onLink c link && crcOk && epoch == c.obepoch % 256 && !cpnFailed c && !c.cfglost) then
      { c with frej := (c.frej + 1) % 256 }
    else
      let lead (i : Nat) : Bool := outLead c i == i
      let held (i : Nat) : Bool := c.uv || (nth false c.tsd i && outLatch c i)
      let on (i : Nat) : Bool := bitOf set i && lead i && !held i
      let off (i : Nat) : Bool := bitOf clr i && lead i && !bitOf set i
      let ref := (List.range 4).any fun i => bitOf set i && lead i && held i
      let c := { c with fast := (List.range 4).map fun i => if on i then some true else if off i then some false else nth none c.fast i
                        want := (List.range 4).map fun i => if on i then true else if off i then false else nth false c.want i
                        fastRef := c.fastRef || ref }
      cpnDrive (if ref then updLink c link fun l => { l with fref := true } else c))

/-- FAST_LATCH_TIMEOUT (R409). -/
def execFastLatchTimeout (k out : Nat) (s : State) : Host.Outcome State Fault Refusal :=
  .next (updCpn s k fun c =>
    if (nth none c.fast out).isSome then { cpnUnlatch c (2 ^ out) with fastExp := true } else c)

/-- FAIL_HOLD_TIMEOUT (R413): the fail state has lasted 1 s. -/
def execFailHoldTimeout (k : Nat) (s : State) : Host.Outcome State Fault Refusal :=
  .next (updCpn s k fun c => if cpnFailed c then cpnFailDrive { c with holdOver := true } else c)

/-! ## Barrier, faults, undervoltage (R414, R416, R417) -/

/-- BARRIER_DOWN_FRAME (R414). -/
def execBarrierDownFrame (k : Nat) (good : Bool) (s : State) : Host.Outcome State Fault Refusal :=
  .next (updCpn s k fun c =>
    if good then { c with dnBad := 0, fieldFail := false }
    else
      let c := { c with dnBad := min 10 (c.dnBad + 1) }
      if 10 ≤ c.dnBad ∧ c.fieldFail = false then cpnFail { c with fieldFail := true } 3 else c)

/-- BARRIER_UP_FRAME (R414). -/
def execBarrierUpFrame (k : Nat) (good : Bool) (s : State) : Host.Outcome State Fault Refusal :=
  .next (updCpn s k fun c =>
    if good then
      let c := { c with upBad := 0, upGood := min 16 (c.upGood + 1) }
      if 16 ≤ c.upGood then { c with barrierFail := false } else c
    else
      let c := { c with upBad := min 10 (c.upBad + 1), upGood := 0 }
      if 10 ≤ c.upBad ∧ !c.barrierFail then cpnFail { c with barrierFail := true } 3 else c)

/-- OUT_CURRENT_LIMIT (R416). -/
def execOutCurrentLimit (k out : Nat) (on : Bool) (s : State) : Host.Outcome State Fault Refusal :=
  .next (updCpn s k fun c => { c with lim := c.lim.set out on })

/-- OUT_THERMAL_SHUTDOWN (R416). -/
def execOutThermalShutdown (k out : Nat) (s : State) : Host.Outcome State Fault Refusal :=
  .next (updCpn s k fun c => cpnDrive { c with tsd := c.tsd.set out true })

/-- OUT_THERMAL_RESTART (R416): the switch has cooled to 150 °C. -/
def execOutThermalRestart (k out : Nat) (s : State) : Host.Outcome State Fault Refusal :=
  .next (updCpn s k fun c => if outLatch c out then c else cpnDrive { c with tsd := c.tsd.set out false })

/-- FIELD_UV_CHANGE (R417): VFIELD in mV. -/
def execFieldUvChange (k mv : Nat) (s : State) : Host.Outcome State Fault Refusal :=
  .next (updCpn s k fun c => cpnDrive { c with uv := if c.uv then decide (mv < 18000) else decide (mv < 17000) })

/-- CPN_RESET (R425, R448): power-up, or CRST_N low. The levels at the terminals and VFIELD stay as they are. -/
def execCpnReset (k : Nat) (s : State) : Host.Outcome State Fault Refusal :=
  .next (updCpn s k fun c =>
    { CpnSt.init with uv := c.uv, ins := c.ins.map fun i => { CpnIn.init with raw := i.raw } })

end Sys2Proof.Machine
end

