-- ==== Sys2Proof/Machine/Hub.lean ====
section
/-!
DEFINITION. The processor's field-link hub: regular and fast frames, answers, management and the mirrors
(spec/14_field_link_outputs.md, R402 to R408, R419 to R424), input data placed in the image (spec/15_field_inputs_counters.md,
R443 to R446), what an outranked unit does (spec/10_hot_standby.md, R301).
-/

namespace Sys2Proof.Machine

open Reg

/-- The hub's side of a position. -/
def hubPort (s : State) (k : Nat) : HubPort := nth HubPort.init s.fld.hub k

/-- The state with a position changed. -/
def updHub (s : State) (k : Nat) (f : HubPort → HubPort) : State :=
  { s with fld := { s.fld with hub := upd s.fld.hub k f } }

/-- The hub sends frames (Table 14.6): D10 is on, in BOOT and every later mode. -/
def hubOn (s : State) : Bool := !absent s && domOn s 10

/-- Port k sends frames (R424). -/
def hubSends (s : State) (k : Nat) : Bool := k < 8 && hubOn s && bitOf (getF s FLD_HCTL.EN) k

/-- Frames to a position carry SAFE (R69, R70, Tables 3.7, 14.6). -/
def hubSafe (s : State) (k : Nat) : Bool :=
  !((s.mode == .run || s.mode == .runEdit) && (hubPort s k).live) || testing s 10

/-- A bit of a vector field is set to a value. -/
def putBitF (s : State) (f : Fld) (i : Nat) (v : Bool) : State :=
  let x := getF s f
  if bitOf x i = v then s else setF s f (if v then x + 2 ^ i else x - 2 ^ i)

/-- Link k is up (R406). -/
def hubUp (s : State) (k : Nat) : Bool := bitOf (getF s FLD_HSTAT.UP) k

/-- Base address of a companion's block. -/
def cpnBase (k : Nat) : Nat := 0x400A1000 + 0x1000 * k

/-- The commanded state of OUT3 to OUT0 from the committed image: the FIELD entry that names the position (Table 8.4). -/
def outCmd (s : State) (k : Nat) : Nat :=
  match (List.range 64).find? fun m => getF s (SCN_OMAP_SRC.KIND m) == 1 && getF s (SCN_OMAP_DST.TARGET m) == k with
  | some m =>
    let a := getF s (SCN_OMAP_SRC.ADDR m)
    bitsNat ((List.range 4).map fun i => sget false s.scan.imgB (a + i))
  | none => 0

/-! ## Management operations (R419 to R421) -/

/-- An operation takes its place among those that wait: by class, then by age. -/
def opInsert (o : Mgmt) : List Mgmt → List Mgmt
  | [] => [o]
  | x :: t => if o.cls < x.cls then o :: x :: t else x :: opInsert o t

/-- An operation is to be sent. -/
def hubOp (s : State) (k mop addr data cls : Nat) : State :=
  updHub s k fun h => { h with ops := opInsert { mop := mop, addr := addr, data := data, cls := cls, resent := false } h.ops }

/-- The offsets of the configuration words (R420). -/
def cfgAddrs : List Nat := [0x20, 0x24, 0x70] ++ (List.range 12).map fun c => 0x40 + 4 * c

/-- CFG_RELOAD (R420): the whole active configuration goes to the shadow, then APPLY. -/
def cfgReload (s : State) (k : Nat) : State :=
  if (hubPort s k).reload then s
  else
    let s := cfgAddrs.foldl (fun s a => hubOp s k 2 a (rawReg s (cpnBase k + a)) 1) s
    let s := hubOp s k 3 0 0x10000000 3
    updHub (incStop s (FLD_LCNT.RELOAD k)) k fun h => { h with reload := true }

/-- The registers that rotation reads refresh. -/
def rotation : List Nat := [0x000, 0x004, 0x008, 0x00C, 0x018, 0x110] ++ (List.range 12).map fun c => 0xE0 + 4 * c

/-- The operation of the next frame, and the position without it: none while an APPLY waits for shadow writes on their way. -/
def hubNext (h : HubPort) : Option Mgmt × HubPort :=
  match h.ops with
  | o :: rest =>
    if o.cls = 3 ∧ h.sent.any fun x => match x.2.2 with | some y => y.cls < 3 | none => false then (none, h)
    else if o.cls ≤ 4 ∨ h.mbx.isEmpty ∨ o.resent then (some o, { h with ops := rest })
    else (none, h)
  | [] => match h.mbx with
    | w :: rest => (some { mop := 3, addr := 0, data := w, cls := 5, resent := false }, { h with mbx := rest })
    | [] =>
      if h.sent.any fun x => x.2.2.isSome then (none, h)
      else (some { mop := 1, addr := nth 0 rotation h.rot, data := 0, cls := 6, resent := false },
        { h with rot := (h.rot + 1) % rotation.length })

/-- The transaction's shadow writes for a position are sent (R420). -/
def hubShadow (s : State) (k : Nat) (words : List (Nat × Nat)) : State :=
  let s := words.foldl (fun s p => hubOp s k 2 p.1 p.2 2) s
  updHub s k fun h => { h with shadowLeft := words.length }

/-- APPLY after an effect (R420). -/
def hubApply (s : State) (k : Nat) : State := hubOp s k 3 0 0x10000000 3

/-- FLD_CMD places words in the command mailbox: whether it took them all (R421). -/
def fldCmd (s : State) (k : Nat) (ws : List Nat) : Bool × State :=
  if (hubPort s k).mbx.length + ws.length ≤ 8 then (true, updHub s k fun h => { h with mbx := h.mbx ++ ws })
  else (false, setF s (FLD_MBX.FULL k) 1)

/-- An operation has failed: it is sent again once, then dropped and counted (R419). Rotation reads are not repeated. -/
def hubRetry (s : State) (k : Nat) (o : Mgmt) : State :=
  if o.cls = 6 then s
  else if !o.resent then updHub s k fun h => { h with ops := { o with resent := true } :: h.ops }
  else
    let s := incStop s (FLD_LCNT.MGTFAIL k)
    if o.cls = 1 ∨ o.cls = 3 then updHub s k fun h => { h with reload := false, ops := h.ops.filter fun x => x.cls != 1 && !(h.reload && x.cls == 3) }
    else s

/-- An operation has been answered OK (R419, R420). -/
def hubDone (s : State) (k : Nat) (o : Mgmt) (data : Nat) : State :=
  match o.cls with
  | 2 => updHub s k fun h => { h with shadowLeft := h.shadowLeft - 1 }
  | 3 => updHub s k fun h => { h with reload := false }
  | 4 => ((regFields (cpnBase k + o.addr)).getD []).foldl (fun s f =>
      if f.acc == .w1c then setF s f (getF s f &&& (2 ^ f.w - 1 - bitsOf o.data f.lo f.w)) else s) s
  | 6 => putReg s (cpnBase k + o.addr) data
  | _ => s

/-! ## Frames (R402, R404) -/

/-- The regular frame to a position. -/
def hubFrame (s : State) (k n mtag : Nat) (o : Option Mgmt) : DnFrame :=
  { epoch := getF s SBY_EPOCH.OWN, stn := ownStn s, safe := hubSafe s k, outcmd := outCmd s k,
    mop := match o with | some o => o.mop | none => 0, mtag := mtag,
    maddr := match o with | some o => o.addr | none => 0, mdata := match o with | some o => o.data | none => 0,
    frameNo := n % 2 ^ 32 }

/-- One position's frame is built and sent; the posted writes that wait for it go with it (R402, R422). -/
def hubSendOne (s : State) (n k : Nat) : State :=
  if !hubSends s k then s
  else
    let (o, h) := hubNext (hubPort s k)
    let tag := if o.isSome then (h.mtag + 1) % 256 else h.mtag
    let f := hubFrame s k n tag o
    let s := updHub s k fun _ => { h with mtag := tag, sent := h.sent ++ [(f, n, o)] }
    let s := putBitF s FLD_HSTAT.SAFE k f.safe
    { s with scan := { s.scan with posted := s.scan.posted.map fun p =>
        if p.kind == 1 && p.target == k && p.ref == 0 then { p with ref := n + 1 } else p } }

/-- The number of the frame whose content is taken from this cycle, cycle 400 n - 8; while D2 is off and CORE_CYC stands, frames follow
one another by number (R402; log entry 150, DEDUCED). -/
def frameDue (s : State) : Option Nat :=
  if !hubOn s then none
  else if !domOn s 2 then some (match s.fld.frame with | some n => n + 1 | none => (s.core.cyc + 399) / 400)
  else if s.core.cyc % 400 = 392 ∧ s.fld.frame ≠ some ((s.core.cyc + 8) / 400) then some ((s.core.cyc + 8) / 400)
  else none

/-- The regular frames whose content is taken from this cycle are built and sent (R402, R404, R424). -/
def hubFrames (s : State) : State :=
  match frameDue s with
  | some n => (List.range 8).foldl (fun s k => hubSendOne s n k) { s with fld := { s.fld with frame := some n } }
  | none => s

/-- FIELD_FRAME_SEND (R402, R404, R424): frame n, whose content is taken at cycle 400 n - 8, is sent. -/
def execFieldFrameSend (s : State) : Host.Outcome State Fault Refusal := .next (hubFrames s)

/-! ## Fast frames (R188, R408, R424) -/

/-- A fast command enters its queue, or is discarded in a mode without fast frames (R424). -/
def fastEnter (s : State) (k cmd : Nat) : State :=
  if s.mode == .run || s.mode == .runEdit then
    { s with core := { s.core with fastQ := upd s.core.fastQ k (· ++ [cmd]) } }
  else incSat s FLD_FDISC.CNT FLD_FDISC.OVF

/-- FAST_FRAME_LAUNCH (R188, R408): the oldest command leaves once the lane is free; the frame takes 40 cycles. -/
def execFastFrameLaunch (k : Nat) (s : State) : Host.Outcome State Fault Refusal :=
  .next (match nth [] s.core.fastQ k with
    | [] => s
    | c :: rest =>
      let free := match (hubPort s k).fsBusy with | some t => decide (t ≤ s.core.cyc) | none => true
      if !hubOn s || !free then s
      else
        let s := incWrap { s with core := { s.core with fastQ := s.core.fastQ.set k rest } } CORE_FOSTAT.LAUNCHED
        updHub s k fun h =>
          { h with fsBusy := some (s.core.cyc + 40), fs := some (c % 16, c / 16 % 16, getF s SBY_EPOCH.OWN % 256) })

/-! ## Input data (R443 to R446) -/

/-- A stamp as TAI: frame n of this link, the mean link delay, SUB (R443). -/
def inputTai (s : State) (k n fno sub : Nat) : Nat :=
  let m := n - (n + 2 ^ 20 - fno) % 2 ^ 20
  let back : Int := ((s.core.cyc : Nat) : Int) - ((400 * m : Nat) : Int)
  let ofs : Nat := getF s (FLD_LDLY.DLY k) * (nsUnit / 8) + sub * (5 * nsUnit / 2)
  (((s.time.tai : Nat) : Int) - back * ((taiStep s : Nat) : Int) + ((ofs : Nat) : Int)).toNat

/-- A mirrored bit of a channel. -/
def chBit (s : State) (f : Fld) (c : Nat) : Bool := bitOf (getF s f) c

/-- Bits [13:0] of CQUAL_c and FQUAL_c (Table 15.9). -/
def inputQual (s : State) (k c : Nat) (freq : Bool) : Nat :=
  let h := hubPort s k
  let w := getF s (FLD_FRQ.V k c)
  let bar := match h.last with | some a => a.barrierFail | none => false
  let inv := if freq then h.fvinv.contains c else h.cvinv.contains c
  let conds : List (Bool × Bool × Nat) :=
    [(testing s 10, true, 11), (bar, true, 6), (!hubUp s k, false, 7), (inv, true, 8)] ++
    (if freq then [(bitOf w 31, false, 9), (bitOf w 30, false, 4), (bitOf w 29, true, 3)]
      else [(chBit s (FLD_IN.SETTLING k) c, false, 9), (chBit s (FLD_OVF.OVF k) c, false, 2)])
  let on := conds.filter (·.1)
  let v := if on.any (·.2.1) then 1 else if on.isEmpty then 0 else 3
  v + ((List.range 14).map fun b => if on.any fun e => e.2.2 == b then 2 ^ b else 0).sum

/-- The bit block and the quality words of a position (Tables 15.7 to 15.9). -/
def inputState (s : State) (k : Nat) : State :=
  if !isSet s (FLD_IBASE.EN k) || !hubOn s || !domOn s 5 then s
  else
    let b := getF s (FLD_IBASE.ADDR k)
    let w := getF s (FLD_WBASE.ADDR k)
    let failst := match (hubPort s k).last with | some a => a.failst | none => false
    let bits := ((List.range 12).map fun c => chBit s (FLD_IN.STATE k) c) ++
      [hubUp s k, getF s (FLD_IN.SETTLING k) != 0, getF s (FLD_OVF.OVF k) != 0, failst]
    let s := bits.zipIdx.foldl (fun s p => writeBit rankHub s (b + p.2) p.1) s
    (List.range 12).foldl (fun s c =>
      writeWord rankHub (writeWord rankHub s (w + 12 + c) (qualW s (inputQual s k c false))) (w + 36 + c) (qualW s (inputQual s k c true))) s

/-- A stamp pair at a word address (R28). -/
def putStamp (s : State) (a tai : Nat) : State :=
  let (hi, lo) := stampWords (classNow s) tai
  writeWord rankHub (writeWord rankHub s a (mkT 8 hi)) (a + 1) (mkT 7 lo)

/-- The EVT item of a good answer to frame n (R444, Tables 15.4, 15.5, 15.8). -/
def inputEvt (s : State) (k n : Nat) (ev : EvtField) : State :=
  let en := isSet s (FLD_IBASE.EN k) && domOn s 5
  let w := getF s (FLD_WBASE.ADDR k)
  match ev with
  | .none => s
  | .event e =>
    let s := incWrap s (FLD_ICNT.EVENTS k)
    let s := if e.kind < 2 then wakeSource s 8 else s
    let t := inputTai s k n e.fno e.sub
    if e.kind = 0 then
      if e.invalid then incStop s (FLD_ICNT.INVEDGE k)
      else if en then putStamp s (w + 116 + 2 * e.ch) t else s
    else if e.kind = 1 ∧ e.ch < 4 ∧ en then
      let (old, s) := readWord s 1 (w + 48 + e.ch)
      let cnt := old.val.toNat
      let s := putStamp s (w + 52 + 16 * e.ch + 2 * (cnt % 8)) t
      writeWord rankHub s (w + 48 + e.ch) (mkT 9 (cnt + 1))
    else if e.kind = 2 then putBitF s (FLD_OVF.OVF k) e.ch true
    else s
  | .value slot vinv v =>
    let mark (l : List Nat) (c : Nat) : List Nat := if vinv then c :: l.filter (· != c) else l.filter (· != c)
    if slot < 12 then
      let s := updHub (setF s (FLD_CNT.V k slot) v) k fun h => { h with cvinv := mark h.cvinv slot }
      if en then writeWord rankHub s (w + slot) (mkT 9 v) else s
    else if slot < 24 then
      let c := slot - 12
      let s := updHub (setF s (FLD_FRQ.V k c) v) k fun h => { h with fvinv := mark h.fvinv c }
      if en then writeWord rankHub s (w + 24 + c) (mkT 5 (fRound (rneDiv (v % 2 ^ 29 * 2 ^ 64) 1000 : Nat) 64 false)) else s
    else setFs s [(FLD_IN.SETTLING k, v / 2 ^ 16), (FLD_OVF.OVF k, v)]

/-! ## Answers (R406, R407, R419, R422) -/

/-- A link of the hub goes up or down; a link that is down obeys nothing (R406). -/
def hubLink (s : State) (k : Nat) (up : Bool) : State :=
  if hubUp s k = up then s
  else
    let s := putBitF s FLD_HSTAT.UP k up
    inputState (if up then s else putBitF s FLD_HSTAT.OBEYED k false) k

/-- A slot without a good answer. -/
def hubMiss (s : State) (k : Nat) : State :=
  let s := updHub s k fun h => { h with good := 0, loss := min 8 (h.loss + 1) }
  if 8 ≤ (hubPort s k).loss then hubLink s k false else s

/-- The frame that waits longest for its answer is dealt with. -/
def hubPop (s : State) (k : Nat) : Option (DnFrame × Nat × Option Mgmt) × State :=
  match (hubPort s k).sent with
  | x :: rest => (some x, updHub s k fun h => { h with sent := rest })
  | [] => (none, s)

/-- The posted writes that frame n carried to a position (R422). -/
def hubPosted (k n : Nat) (p : Posted) : Bool := p.kind == 1 && p.target == k && p.ref == n + 1

/-- A measurement of the one-way link delay in 1/8 ns, from an arrival in 1/8 ns after the start of the frame (R407). -/
def hubDelay (s : State) (k delay : Nat) : State :=
  let s := updHub s k fun h => { h with ldly := ((delay - 800) / 2 :: h.ldly).take 64 }
  let l := (hubPort s k).ldly
  setF s (FLD_LDLY.DLY k) ((2 * l.sum + l.length) / (2 * max 1 l.length))

/-- The status mirrors of a good answer (R419, Table 14.8). -/
def hubMirror (s : State) (k : Nat) (a : UpFrame) : State :=
  let m := a.obepoch * 256 + a.oblink * 128 + b2n a.obeying * 64 + b2n a.failst * 32 + b2n a.conflict * 16 +
    b2n a.barrierFail * 8 + b2n a.nack * 4 + b2n a.dcrc * 2 + b2n a.fieldUv
  setFs s [(FLD_LSTAT.MIRROR k, m), (FLD_STAT.OBEPOCH k, a.obepoch), (FLD_STAT.OBLINK k, a.oblink),
    (FLD_STAT.CFGLOST k, b2n a.cfglost), (FLD_STAT.CONFLICT k, b2n a.conflict),
    (FLD_STAT.BARRIER_FAIL k, b2n a.barrierFail), (FLD_STAT.FIELD_UV k, b2n a.fieldUv), (FLD_STAT.FAILST k, b2n a.failst),
    (FLD_OUT.READ k, a.outstate), (FLD_IN.STATE k, a.inp)]

/-- The companion obeys a higher epoch (R301): the flags, one event when they set, and the demotion under YIELD. -/
def hubOutranked (s : State) (a : UpFrame) : State :=
  if !epochHigher a.obepoch (getF s SBY_EPOCH.OWN) then s
  else
    let was := isSet s SBY_STAT.OUTRANKED
    let s := setFs s [(SBY_STAT.OUTRANKED, 1), (SBY_STAT.CPN_CONFLICT, 1)]
    let s := if was then s else raise s SBY_STAT.OUTRANKED
    if isSet s SBY_CFG.YIELD && (s.mode == .run || s.mode == .runEdit) then { s with sby := { s.sby with demote := true } }
    else s

/-- A good answer to frame n. -/
def hubGood (s : State) (k n : Nat) (o : Option Mgmt) (a : UpFrame) (delay : Nat) : State :=
  let s := updHub s k fun h => { h with good := min 16 (h.good + 1), loss := 0, last := some a }
  let s := hubMirror (hubDelay s k delay) k a
  let s := putBitF s FLD_HSTAT.OBEYED k a.obeying
  let s := if 16 ≤ (hubPort s k).good then hubLink s k true else s
  let s := postedDone s (hubPosted k n) (if a.nack then some 1 else if a.dcrc then some 2 else none)
  let s := match o with
    | some o => if a.mst = 1 then hubDone s k o a.mdata else hubRetry s k o
    | none => s
  let s := if a.fref then raiseEv s (FLD_STAT.FAST_REF k).addr (FLD_STAT.FAST_REF k).lo 1 else s
  let s := if a.cfglost then cfgReload s k else s
  inputState (inputEvt (hubOutranked s a) k n a.evt) k

/-- HUB_ANSWER_RX (R407, R419, R422, R443 to R446, R301): the answer to the oldest frame that waits; `delay` is the arrival of
its start character after the start of that frame, in 1/8 ns. A companion that SELFTEST treats as absent is not heard. -/
def execHubAnswerRx (k : Nat) (a : UpFrame) (good : Bool) (delay : Nat) (s : State) : Host.Outcome State Fault Refusal :=
  .next (if !hubSends s k || s.ms.cpnOff.contains k then s
    else match hubPop s k with
      | (none, s) => s
      | (some (_, n, o), s) =>
        if good then hubGood s k n o a delay
        else
          let s := hubMiss (incStop s (FLD_LCNT.ANSCRC k)) k
          let s := postedDone s (hubPosted k n) (some 2)
          match o with
          | some o => hubRetry s k o
          | none => s)

/-- 2 µs have passed since the start of the oldest frame that waits. While D2 is off CORE_CYC stands and cannot tell. -/
def answerLate (s : State) (k : Nat) : Bool :=
  match (hubPort s k).sent.head? with
  | some (_, n, _) => !domOn s 2 || decide (400 * n + 800 ≤ s.core.cyc)
  | none => false

/-- HUB_ANSWER_TIMEOUT (R406, R419, R422): no answer has started within 2 µs of the oldest frame. -/
def execHubAnswerTimeout (k : Nat) (s : State) : Host.Outcome State Fault Refusal :=
  .next (if !hubOn s || !answerLate s k then s
    else match hubPop s k with
      | (none, s) => s
      | (some (_, n, o), s) =>
        let s := hubMiss (incStop s (FLD_LCNT.NOANS k)) k
        let s := postedDone s (hubPosted k n) (some 3)
        match o with
        | some o => hubRetry s k o
        | none => s)

end Sys2Proof.Machine
end

