-- ==== Sys2Proof/Machine/Egress.lean ====
section
/-!
DEFINITION. The send side of P0 to P3 (spec/12_egress_shaper.md): queues and origins, selection, gate lists, buckets,
redundancy, cut-through, stamps and the correction of forwarded PTP frames (spec/02_two_clocks.md, R32), publisher slots.
-/

namespace Sys2Proof.Machine

open Reg

/-! ## Bytes -/

/-- Bytes of a frame from an offset; beyond the end they read 0. -/
def bytesAt (bs : List Byte) (off n : Nat) : List Byte := (List.range n).map fun i => bs.getD (off + i) 0

/-- A big-endian number in a frame. -/
def numAt (bs : List Byte) (off n : Nat) : Nat := beNat (bytesAt bs off n)

/-- A frame with bytes replaced from an offset. -/
def putAt (bs : List Byte) (off : Nat) (new : List Byte) : List Byte :=
  bs.take off ++ new.take (bs.length - off) ++ bs.drop (off + new.length)

/-- The MAC address of a station's directory entry, 48 bits (R14). -/
def stnMac (s : State) (i : Nat) : Nat := getF s (SYS_DIR_MAC1.MAC_HI i) * 65536 + getF s (SYS_DIR_MAC2.MAC_LO i)

/-- The first bytes of an untagged frame: destination, the unit's own address, Ethertype. -/
def ethHead (s : State) (dst etype : Nat) : List Byte := beBytes 6 dst ++ beBytes 6 (stnMac s (ownStn s)) ++ beBytes 2 etype

/-! ## Ports -/

/-- A port's send side. -/
def egrPort (s : State) (p : Nat) : EgrPort := nth EgrPort.init s.egr.ports p

/-- The state with a port's send side changed. -/
def updEgr (s : State) (p : Nat) (f : EgrPort → EgrPort) : State :=
  { s with egr := { s.egr with ports := upd s.egr.ports p f } }

/-- A port runs: enabled, its domains on, not disabled by SELFTEST (R81, R310). -/
def portOn (s : State) (p : Nat) : Bool :=
  isSet s (CLS_P_CFG.EN p) && domOn s 6 && domOn s 7 && !s.ms.portsOff.contains p && p < 4

/-- Time of one byte, ns, at the speed in use: code 1 is 10, 2 is 100, 3 is 1,000 Mbit/s (R343). -/
def byteNs (s : State) (p : Nat) : Nat :=
  match getF s (CLS_P_PSTAT.SPD p) with
  | 1 => 800
  | 2 => 80
  | _ => 8

/-- Length n of R343: with the FCS. -/
def wireLen (f : EgrFrame) : Nat := f.bytes.length + 4

/-- Occupancy of n bytes, ns (R343). -/
def occNs (s : State) (p n : Nat) : Nat := (8 + n + 12) * byteNs s p

/-! ## Gate lists (R345 to R350) -/

/-- The committed list of a port as its registers hold it. -/
def listOf (s : State) (p : Nat) : GateList :=
  { en := isSet s (EGR_GCL.EN p)
    base := ((taiSec s.time.tai / 2 ^ 32 * 2 ^ 32) + getF s (EGR_GBASE_S.SEC p)) * 1000000000 + getF s (EGR_GBASE_NS.NS p)
    cycle := getF s (EGR_GCYCLE.NS p)
    entries := (List.range (getF s (EGR_GCL.LEN p))).map fun i =>
      (getF s (EGR_GATE.W p i 0) % 256, getF s (EGR_GATE.W p i 1) % 2 ^ 30) }

/-- The parts of one cycle: gates, start, end, in ns; cut at the cycle's end, the last entry lasting to it (R346). -/
def gateParts (g : GateList) : List (Nat × Nat × Nat) :=
  let rec go (t : Nat) : List (Nat × Nat) → List (Nat × Nat × Nat)
    | [] => []
    | [(m, _)] => if t < g.cycle then [(m, t, g.cycle)] else []
    | (m, i) :: rest => if t < g.cycle then (m, t, min (t + i) g.cycle) :: go (t + i) rest else []
  go 0 g.entries

/-- The place of a TAI instant in the cycle, in units of 2^-32 ns (R346). -/
def gatePhase (g : GateList) (t : Nat) : Nat :=
  ((t : Int) - (g.base * nsUnit : Nat)) % ((max 1 g.cycle * nsUnit : Nat) : Int) |>.toNat

/-- The gates at a TAI instant: all open while the list is disabled (R346). -/
def gatesAt (g : GateList) (t : Nat) : Nat :=
  if !g.en then 0xFF
  else
    let ph := gatePhase g t
    match (gateParts g).find? fun e => decide (e.2.1 * nsUnit ≤ ph) && decide (ph < e.2.2 * nsUnit) with
    | some e => e.1
    | none => 0xFF

/-- The gates of a port now. -/
def gatesNow (s : State) (p : Nat) : Nat :=
  if (egrPort s p).gclBad then 0xFF else gatesAt (egrPort s p).gcl s.time.tai

/-- The open window of queue q from a phase on, in units of 2^-32 ns; none when it has no end (R348). -/
def openWindow (g : GateList) (q ph : Nat) : Option Nat :=
  if !g.en then none
  else
    let ps := gateParts g
    let two := ps ++ ps.map fun e => (e.1, e.2.1 + g.cycle, e.2.2 + g.cycle)
    (two.find? fun e => !bitOf e.1 q && decide (ph < e.2.2 * nsUnit)).map fun e => e.2.1 * nsUnit - ph

/-- The longest open window of queue q in one cycle, ns; none when it has no end (R349). -/
def longest (g : GateList) (q : Nat) : Option Nat :=
  if !g.en then none
  else
    let ps := gateParts g
    let starts := ps.filter fun e => bitOf e.1 q
    starts.foldl (fun b e => match b, openWindow g q (e.2.1 * nsUnit) with
      | some m, some w => some (max m (w / nsUnit))
      | _, _ => none) (some 0)

/-! ## Buckets (R352) -/

/-- One byte in units of 2^-16 / 3,125 byte. -/
def tokUnit : Nat := 65536 * 3125

/-- The tokens of a bucket now. -/
def tokensNow (s : State) (p q : Nat) : Nat :=
  let (amt, at') := nth (0, 0) (egrPort s p).tokens q
  min (getF s (EGR_QCFG.BURST p q) * tokUnit) (amt + getF s (EGR_TB.RATE p q) * 64 * (s.core.cyc - at'))

/-- The bucket gives up, or gets back, bytes. -/
def takeTokens (s : State) (p q : Nat) (n : Int) : State :=
  let v := min (getF s (EGR_QCFG.BURST p q) * tokUnit) ((tokensNow s p q : Int) - n * tokUnit).toNat
  updEgr s p fun x => { x with tokens := x.tokens.set q (v, s.core.cyc) }

/-! ## Queues (R340, R341) -/

/-- A frame would find room in a queue. -/
def egrRoom (s : State) (p q : Nat) (f : EgrFrame) : Bool :=
  let x := egrPort s p
  portOn s p && decide ((nth [] x.queues q).length < getF s (EGR_QCFG.LIMIT p q)) &&
    decide ((x.queues.map fun l => (l.map fun g => g.bytes.length).sum).sum + f.bytes.length ≤ 131072)

/-- A frame enters a queue, or is refused by the mode or for want of room and counted (R340, R342): whether it is queued. -/
def egrPut (s : State) (p q : Nat) (f : EgrFrame) (early : Bool) : Bool × State :=
  if !originOk s f.origin early then (false, incSat s (EGR_MODEDISC.CNT p) EGR_STAT.CNT_OVF)
  else if !egrRoom s p q f then (false, incSat s (EGR_DROP.CNT p q) EGR_STAT.CNT_OVF)
  else (true, updEgr s p fun x => { x with queues := upd x.queues q (· ++ [f]) })

/-- Redundancy mode of a pair: 0 NONE, 1 PRP, 2 HSR (R311). -/
def redMode (s : State) (pair : Nat) : Nat := if pair = 0 then getF s CLS_RED.MODE0 else getF s CLS_RED.MODE1

/-- The next sequence number of a pair, and the counter moved on (R353). -/
def nextRed (s : State) (pair : Nat) : Nat × State :=
  let f := if pair = 0 then EGR_REDSEQ.SEQ0 else EGR_REDSEQ.SEQ1
  (getF s f, incWrap s f)

/-- The redundancy control trailer (R353; the LSDU size as IEC 62439-3 counts it, log entry 16, PRESUMED). -/
def rct (bs : List Byte) (seq p : Nat) : List Byte :=
  beBytes 2 seq ++ beBytes 2 ((0xA + p % 2) * 4096 + (bs.length + 6 - 14) % 4096) ++ beBytes 2 0x88FB

/-- A frame with the HSR tag (R354). -/
def hsrTag (bs : List Byte) (seq : Nat) : List Byte :=
  bs.take 12 ++ beBytes 2 0x892F ++ beBytes 2 ((bs.length + 6 - 14) % 4096) ++ beBytes 2 seq ++ bs.drop 12

/-- A frame of origin SYS or PROG as it goes to a port of a pair with a sequence number (R353, R354). -/
def redFrame (f : EgrFrame) (mode seq p : Nat) : EgrFrame :=
  if mode = 1 then { f with bytes := f.bytes ++ rct f.bytes seq p }
  else if mode = 2 then { f with bytes := hsrTag f.bytes seq } else f

/-- A frame of origin SYS or PROG is queued to one pair for the ports of a mask (R353, R354): whether a copy was queued. PTP
goes to the port named only. -/
def egrPair (s : State) (pair mask q : Nat) (f : EgrFrame) (early : Bool) : Bool × State :=
  let m := redMode s pair
  let ports := [2 * pair, 2 * pair + 1]
  let named := ports.filter fun p => bitOf mask p
  if named.isEmpty then (true, s)
  else if m = 0 then
    named.foldl (fun a p => let (ok, s) := egrPut a.2 p q f early; (a.1 && ok, s)) (true, s)
  else if f.ptp then
    let (seq, s) := if m = 2 then nextRed s pair else (0, s)
    named.foldl (fun a p =>
      let (ok, s) := egrPut a.2 p q (if m = 2 then redFrame f m seq p else f) early
      (a.1 && ok, s)) (true, s)
  else
    let (seq, s) := nextRed s pair
    ports.foldl (fun a p => let (ok, s) := egrPut a.2 p q (redFrame f m seq p) early; (a.1 || ok, s)) (false, s)

/-- A frame of origin SYS or PROG is queued on every port of a mask: whether every pair took it. -/
def egrSend (s : State) (mask q : Nat) (f : EgrFrame) (early : Bool) : Bool × State :=
  let (a, s) := egrPair s 0 mask q f early
  let (b, s) := egrPair s 1 mask q f early
  (a && b, s)

/-- Every port of a mask, or one of each redundant pair, has room for a frame and may send it. -/
def egrRoomAll (s : State) (mask q : Nat) (f : EgrFrame) : Bool :=
  originOk s f.origin false && [0, 1].all fun pair =>
    let ports := [2 * pair, 2 * pair + 1]
    let named := ports.filter fun p => bitOf mask p
    named.isEmpty || (if redMode s pair = 0 then named.all fun p => egrRoom s p q f
      else ports.any fun p => egrRoom s p q (redFrame f (redMode s pair) 0 p))

/-- A frame of origin SYS on the queue of EGR_CTRL. -/
def sysSend (s : State) (mask : Nat) (bytes : List Byte) (ptp early : Bool) : State :=
  (egrSend s mask (getF s EGR_CTRL.SYSQ)
    { origin := 0, bytes := bytes, slot := none, ptp := ptp, post := [], tc := none } early).2

/-! ## PTP frames (R29, R32, R358) -/

/-- Where the PTP message of a frame starts: after the Ethertype 0x88F7, or after a UDP header for ports 319 and 320; VLAN and
HSR tags are passed over (R314, R315). -/
def ptpOffset? (bs : List Byte) : Option Nat :=
  let rec skip : Nat → Nat → Nat
    | 0, o => o
    | n + 1, o =>
      let t := numAt bs o 2
      if t = 0x8100 ∨ t = 0x88A8 then skip n (o + 4) else if t = 0x892F then skip n (o + 6) else o
  let o := skip 3 12
  let udp (h : Nat) : Option Nat := if numAt bs (h + 2) 2 = 319 ∨ numAt bs (h + 2) 2 = 320 then some (h + 8) else none
  match numAt bs o 2 with
  | 0x88F7 => some (o + 2)
  | 0x0800 => if numAt bs (o + 11) 1 = 17 then udp (o + 2 + numAt bs (o + 2) 1 % 16 * 4) else none
  | 0x86DD => if numAt bs (o + 8) 1 = 17 then udp (o + 42) else none
  | _ => none

/-- The correctionField with an addition in units of 2^-32 ns; the field has 16 fractional bits of a nanosecond. -/
def addCorr (bs : List Byte) (o : Nat) (d : Int) : List Byte :=
  putAt bs (o + 8) (beBytes 8 (unsignedOf 64 (signedOf 64 (numAt bs (o + 8) 8) + d / 65536)))

/-- A forwarded PTP frame as it leaves port p at a stamp (R32). -/
def transparent (s : State) (p : Nat) (f : EgrFrame) (stamp : Nat) : List Byte × State :=
  match f.tc, ptpOffset? f.bytes with
  | some (ip, ing), some o =>
    if !isSet s TIM_CTRL.TC_EN then (f.bytes, s)
    else
      let kind := numAt f.bytes o 1 % 16
      let two := bitOf (numAt f.bytes (o + 6) 1) 1
      let key := bytesAt f.bytes (o + 20) 12
      let d : Int := (stamp : Int) - ing + (getF s (TIM_SRC_DELAY.DELAY ip) * nsUnit : Nat)
      if kind = 0 && two then (f.bytes, updEgr s p fun x => { x with resid := ((key, d) :: x.resid).take 16 })
      else if kind < 4 then (addCorr f.bytes o d, s)
      else if kind = 8 then
        match (egrPort s p).resid.find? fun e => e.1 == key with
        | some e => (addCorr f.bytes o e.2, updEgr s p fun x => { x with resid := x.resid.filter fun g => g.1 != key })
        | none => (f.bytes, s)
      else (f.bytes, s)
  | _, _ => (f.bytes, s)

/-- The checksum of the Internet protocols over bytes of even number (log entry 18, PRESUMED). -/
def inetSum (bs : List Byte) : Nat :=
  let t := (bs.zipIdx.map fun p => if p.2 % 2 = 0 then p.1.toNat * 256 else p.1.toNat).sum % 65535
  if t = 0 then 0 else 65535 - t

/-- A UDP datagram with its checksum over the pseudo-header. -/
def udpBytes (src dst : List Byte) (v6 : Bool) (sport dport : Nat) (data : List Byte) : List Byte :=
  let n := data.length + 8
  let head (ck : Nat) := beBytes 2 sport ++ beBytes 2 dport ++ beBytes 2 n ++ beBytes 2 ck
  let pseudo := src ++ dst ++ (if v6 then beBytes 4 n ++ beBytes 4 17 else beBytes 2 17 ++ beBytes 2 n)
  let pad := if data.length % 2 = 1 then [0] else []
  let ck := inetSum (pseudo ++ head 0 ++ data ++ pad)
  head (if ck = 0 then 0xFFFF else ck) ++ data

/-- A frame of UDP over IPv4 or IPv6: addresses of 4 or 16 bytes (log entry 18, PRESUMED). -/
def udpFrame (s : State) (dmac : Nat) (src dst : List Byte) (v6 : Bool) (sport dport : Nat) (data : List Byte) : List Byte :=
  let u := udpBytes src dst v6 sport dport data
  if v6 then ethHead s dmac 0x86DD ++ beBytes 4 0x60000000 ++ beBytes 2 u.length ++ [17, 64] ++ src ++ dst ++ u
  else
    let head (ck : Nat) := beBytes 2 0x4500 ++ beBytes 2 (u.length + 20) ++ beBytes 4 0x4000 ++ [64, 17] ++ beBytes 2 ck ++ src ++ dst
    ethHead s dmac 0x0800 ++ head (inetSum (head 0)) ++ u

/-- The own IPv4 or IPv6 address, most significant byte first (Table 1.10). -/
def ownIp (s : State) (v6 : Bool) : List Byte :=
  if v6 then (List.range 4).flatMap fun j => beBytes 4 (getF s (SYS_DIR_IP6.IPV6 (ownStn s) j))
  else beBytes 4 (getF s (SYS_DIR_IP4.IPV4 (ownStn s)))

/-- A PTP message in its frame over layer 2 or UDP (R29; addresses as IEEE 1588 gives them, log entry 17, PRESUMED). `peer` marks the
peer-delay messages, `event` the messages that are stamped. -/
def ptpFrame (s : State) (p : Nat) (peer event : Bool) (msg : List Byte) : List Byte :=
  let port := if event then 319 else 320
  if !isSet s (TIM_SRC_CFG.TRANSPORT p) then ethHead s (if peer then 0x0180C200000E else 0x011B19000000) 0x88F7 ++ msg
  else if getF s (SYS_DIR_IP4.IPV4 (ownStn s)) != 0 then
    let g := if peer then 0xE000006B else 0xE0000181
    udpFrame s (0x01005E000000 + g % 2 ^ 23) (ownIp s false) (beBytes 4 g) false port port msg
  else
    let g := if peer then 0xFF02 * 2 ^ 112 + 0x6B else 0xFF0E * 2 ^ 112 + 0x181
    udpFrame s (0x333300000000 + g % 2 ^ 32) (ownIp s true) (beBytes 16 g) true port port msg

/-- The clockClass that the ordinary clock advertises (R31). For the states that its list leaves out, LOCKED with TQ above 0x0 and
source 0xE with neither LOCKED nor HOLDOVER: 187, and the class of holdover with that TQ (log entry 119, DESIGN CHOICE). -/
def ownClass (s : State) : Nat :=
  let tq := getF s TIM_STAT.TQ
  if !isSet s TIM_STAT.TIME_VALID || isSet s TIM_STAT.CAL_DERIVED then 248
  else if tq = 0 && isSet s TIM_STAT.LOCKED then 6
  else if !isSet s TIM_STAT.LOCKED && tq ≤ 1 then 7
  else if !isSet s TIM_STAT.LOCKED && tq ≤ 3 then 52
  else 187

/-- The body of an Announce (R31): both priorities 128, clockClass, and under C37.238-2017 TIM_UNC; what only IEEE 1588 and
IEEE C37.238 fix is free (log entry 17, PRESUMED). -/
def announceBody (s : State) (p : Nat) : List Byte × State :=
  let (a, s) := drawBytes 13 s
  let (b, s) := drawBytes 3 s
  let (c, s) := drawBytes 11 s
  let (d, s) := drawBytes 6 s
  let tlv := if getF s (TIM_SRC_CFG.PROFILE p) = 1 then
      beBytes 2 3 ++ beBytes 2 18 ++ beBytes 6 0x1C129D000002 ++ d ++ beBytes 4 (getF s TIM_UNC.UNC) ++ beBytes 2 0
    else []
  (a ++ [128, BitVec.ofNat 8 (ownClass s)] ++ b ++ [128] ++ c ++ tlv, s)

/-- A PTP message leaves on one port (R29, R353): `kind` is the message type of IEEE 1588 (0 Sync, 2 Pdelay_Req, 3 Pdelay_Resp,
8 Follow_Up, 10 Pdelay_Resp_Follow_Up, 11 Announce), `time` the timestamp that it carries. -/
def ptpSend (s : State) (p kind seq : Nat) (two : Bool) (time : Nat) : State :=
  let (pid, s) := drawBytes 14 s
  let (tail, s) := drawBytes 10 s
  let stamp := beBytes 6 (taiSec time) ++ beBytes 4 (taiNs time)
  let (body, s) := if kind = 11 then announceBody s p
    else (stamp ++ (if kind = 2 ∨ kind = 3 ∨ kind = 10 then tail else []), s)
  let (ctl, s) := drawBytes 2 s
  let msg := [BitVec.ofNat 8 kind, 2] ++ beBytes 2 (34 + body.length) ++
    [BitVec.ofNat 8 (getF s (TIM_SRC_CFG.DOMAIN p)), 0, if two then 2 else 0, 0] ++ beBytes 8 0 ++ pid ++ beBytes 2 seq ++ ctl ++ body
  sysSend s (2 ^ p) (ptpFrame s p (kind = 2 ∨ kind = 3 ∨ kind = 10) (kind < 4) msg) true true

/-- The egress stamp of a PTP message of the time system is handed on (R358): a Pdelay_Req opens a measurement, a two-step
Sync or Pdelay_Resp is followed by its Follow_Up. -/
def ptpStamped (s : State) (p : Nat) (f : EgrFrame) (stamp : Nat) : State :=
  match f.ptp, ptpOffset? f.bytes with
  | true, some o =>
    let seq := numAt f.bytes (o + 30) 2
    match numAt f.bytes o 1 % 16 with
    | 0 => ptpSend s p 8 seq false stamp
    | 2 => updPtp s p fun q => { q with pdelay := some (seq, stamp), resp := none }
    | 3 => ptpSend s p 10 seq false stamp
    | _ => s
  | _, _ => s

/-! ## Starting and ending a frame (R343, R344, R349, R356 to R358) -/

/-- The head of a queue is eligible: gate open, window, tokens (R344). -/
def eligible (s : State) (p q n : Nat) : Bool :=
  let x := egrPort s p
  let fits := match (if x.gclBad then none else openWindow x.gcl q (gatePhase x.gcl (s.time.tai + taiStep s))) with
    | none => true
    | some w => decide (occNs s p n * nsUnit ≤ w)
  bitOf (gatesNow s p) q && fits && (!isSet s (EGR_TB.EN p q) || decide (n * tokUnit ≤ tokensNow s p q))

/-- Head frames that can never fit are removed and counted, their origin told (R349). -/
def dropOversize (s : State) (p q : Nat) : State :=
  let x := egrPort s p
  match longest x.gcl q, x.gclBad with
  | some w, false =>
    let bad := (nth [] x.queues q).takeWhile fun f => decide (w < occNs s p (wireLen f))
    let s := updEgr s p fun y => { y with queues := upd y.queues q (List.drop bad.length) }
    bad.foldl (fun s f => postedFails (incSat s (EGR_ERRCNT.OVERSIZE p) EGR_STAT.CNT_OVF) f.post 7) s
  | _, _ => s

/-- The head frame of the highest eligible queue. -/
def chooseHead (s : State) (p : Nat) : Option (Nat × EgrFrame) :=
  [7, 6, 5, 4, 3, 2, 1, 0].findSome? fun q => match nth [] (egrPort s p).queues q with
    | f :: _ => if eligible s p q (wireLen f) then some (q, f) else none
    | [] => none

/-- The egress stamp of a frame that starts now: its first bit after the start-frame delimiter leaves eight byte times later (R27). -/
def egrStamp (s : State) (p : Nat) : Nat × State :=
  let (t, s) := ownStamp s (8 * byteNs s p * nsUnit)
  (t + getF s (TIM_PORTLAT.EGR_LAT p) * nsUnit, s)

/-- Frames leave a port: it runs, is not under test 6 or 7, and its link is idle (R344, Table 3.7). -/
def egrReady (s : State) (p : Nat) : Bool :=
  portOn s p && !absent s && !testing s 6 && !testing s 7 && (egrPort s p).tx.isNone

/-- EGRESS_FRAME_START (R344, R32, R358). -/
def execEgressFrameStart (port : Nat) (s : State) : Host.Outcome State Fault Refusal :=
  .next (if !egrReady s port then s
    else
      let s := (List.range 8).foldl (fun s q => dropOversize s port q) s
      match chooseHead s port with
      | none => s
      | some (q, f) =>
        let s := if isSet s (EGR_TB.EN port q) then takeTokens s port q (wireLen f) else s
        let (stamp, s) := egrStamp s port
        let (bs, s) := transparent s port f stamp
        let s := updEgr s port fun x =>
          { x with queues := upd x.queues q (List.drop 1), tx := some (q, { f with bytes := bs }, false), cutBad := false }
        ptpStamped s port f stamp)

/-- A frame is cut through to a port when every condition of R356 holds: `from'` is its ingress port, q its queue. A stored frame that
starts in this cycle takes the link (case 4). -/
def cutOk (s : State) (from' p q : Nat) : Bool :=
  egrReady s p && isSet s (EGR_PCFG.CUT_EN p) && getF s (CLS_P_PSTAT.SPD p) == getF s (CLS_P_PSTAT.SPD from') &&
    (nth [] (egrPort s p).queues q).isEmpty && (chooseHead s p).isNone && eligible s p q 1526

/-- A cut-through starts, in the cycle after the header decision: the bucket gives up 1,526 tokens; a forwarded PTP message is
corrected in flight (R32, R356). -/
def cutStart (s : State) (p q : Nat) (f : EgrFrame) : State :=
  let s := if isSet s (EGR_TB.EN p q) then takeTokens s p q 1526 else s
  let (stamp, s) := egrStamp s p
  let (bs, s) := transparent s p f (stamp + taiStep s)
  updEgr s p fun x => { x with tx := some (q, { f with bytes := bs }, true), cutBad := false }

/-- EGRESS_FRAME_END (R343, R356, R357): the occupancy ends and the link is idle. -/
def execEgressFrameEnd (port : Nat) (s : State) : Host.Outcome State Fault Refusal :=
  .next (match (egrPort s port).tx with
    | none => s
    | some (q, f, cut) =>
      let n := min 1526 (wireLen f)
      let s := if cut && isSet s (EGR_TB.EN port q) then takeTokens s port q ((n : Int) - 1526) else s
      let s := if cut && ((egrPort s port).cutBad || decide (1526 < wireLen f)) then
          incSat s (EGR_ERRCNT.STOMP port) EGR_STAT.CNT_OVF
        else s
      incWrap (updEgr s port fun x => { x with tx := none, cutBad := false }) (EGR_TXOK.CNT port))

/-- GATE_CHANGE (R346): the gate states follow the list. -/
def execGateChange (port : Nat) (s : State) : Host.Outcome State Fault Refusal :=
  .next (if absent s || !domOn s 6 then s else updEgr s port fun x => { x with gates := gatesNow s port })

/-- The number of the cycle of a list in which a TAI instant falls (R346). -/
def gateCycle (g : GateList) (t : Nat) : Int := ((t : Int) - (g.base * nsUnit : Nat)) / ((max 1 g.cycle * nsUnit : Nat) : Int)

/-- A committed list waits, and a cycle of it starts by the end of this core cycle, or lay in a step of the clock (R57, R347, R350). -/
def gateDue (s : State) (p : Nat) : Bool :=
  let g := listOf s p
  let from' := match s.time.skipped with
    | some (a, b) => if s.time.tai = b then min a b else s.time.tai
    | none => s.time.tai
  (egrPort s p).pending && !absent s && domOn s 6 && gateCycle g from' != gateCycle g (s.time.tai + taiStep s)

/-- The committed list of a port takes over. -/
def gateTake (s : State) (p : Nat) : State :=
  let s := updEgr s p fun x => { x with gcl := listOf s p, pending := false, gclBad := false }
  updEgr s p fun x => { x with gates := gatesNow s p }

/-- Committed lists whose cycle starts now take over. -/
def gateTick (s : State) : State := (List.range 4).foldl (fun s p => if gateDue s p then gateTake s p else s) s

/-- GATE_LIST_TAKEOVER (R350): a cycle of the new list starts in this core cycle. -/
def execGateListTakeover (port : Nat) (s : State) : Host.Outcome State Fault Refusal :=
  .next (if gateDue s port then gateTake s port else s)

/-- REDSUP_SEND (R355): a supervision frame of IEC 62439-3 on both ports of a pair. -/
def execRedsupSend (pair : Nat) (s : State) : Host.Outcome State Fault Refusal :=
  .next (if absent s || redMode s pair = 0 then s
    else
      let (bs, s) := drawBytes 46 s
      sysSend s (2 ^ (2 * pair)) (ethHead s 0x01154E000100 0x88FB ++ bs) false false)

/-! ## Publisher slots (R359 to R365) -/

/-- A slot. -/
def pubSlot (s : State) (i : Nat) : PubSt := nth PubSt.init s.egr.pubs i

/-- The state with a slot changed. -/
def updPub (s : State) (i : Nat) (f : PubSt → PubSt) : State :=
  { s with egr := { s.egr with pubs := upd s.egr.pubs i f } }

/-- The template of a slot as committed. -/
def templateOf (s : State) (i : Nat) : List Byte :=
  ((List.range 384).flatMap fun w => beBytes 4 (getF s (EGR_TMPL.W i w))).take (getF s (EGR_SLOT_CFG.LEN i))

/-- Header bytes at an offset; 0x7FF means absent (R361). -/
def putHdr (bs : List Byte) (off : Nat) (new : List Byte) : List Byte := if off = 0x7FF then bs else putAt bs off new

/-- T of a commit (R361). -/
def utcTime (s : State) : List Byte :=
  let ns := taiNs s.time.tai
  let acc := if classNow s ≤ 1 then 20 else if classNow s = 2 then 10 else 31
  beBytes 4 (utcSec s) ++ beBytes 3 (ns * 2 ^ 24 / 1000000000) ++
    beBytes 1 (b2n (isSet s TIM_STAT.LOCKED) * 128 + b2n (!isSet s TIM_STAT.TIME_VALID) * 64 +
      b2n (!isSet s TIM_STAT.LOCKED) * 32 + acc)

/-- timeAllowedToLive of an interval in µs (R361). -/
def talOf (us : Nat) : Nat := (2 * us + 999) / 1000

/-- A publication enters its queue on every port of the mask and replaces a frame of its slot still queued there (R361, R364):
whether it was queued. -/
def pubQueue (s : State) (i : Nat) (bytes : List Byte) (post : List Posted) : Bool × State :=
  let mask := getF s (EGR_SLOT_CFG.PORTS i)
  let s := (List.range 4).foldl (fun s p =>
    if (egrPort s p).queues.any fun q => q.any fun f => f.slot == some i then
      incWrap (updEgr s p fun x => { x with queues := x.queues.map fun q => q.filter fun f => f.slot != some i })
        (EGR_SLOT_SQ.REPLACED i)
    else s) s
  egrSend s mask (getF s (EGR_SLOT_CFG.QUEUE i))
    { origin := 2, bytes := bytes, slot := some i, ptp := false, post := post, tc := none } false

/-- A send of a slot's frame with its sequence numbers (R361 to R363). TAL of a REPORT slot, which has no interval to the next
transmission, is free (log entry 140, DESIGN CHOICE). -/
def pubSend (s : State) (i stn sq interval : Nat) (fresh : Bool) (post : List Posted) : Bool × State :=
  let goose := !isSet s (EGR_SLOT_CFG.KIND i)
  let b := (pubSlot s i).frame
  let b := if goose then putHdr b (getF s (EGR_SLOT_OFFS0.STNUM i)) (beBytes 4 stn) else b
  let b := putHdr b (getF s (EGR_SLOT_OFFS0.SQNUM i)) (beBytes 4 sq)
  let (tal, s) := if goose then (beBytes 4 (talOf interval), s) else drawBytes 4 s
  let b := putHdr b (getF s (EGR_SLOT_OFFS1.TAL i)) tal
  let b := if fresh then putHdr b (getF s (EGR_SLOT_OFFS1.T i)) (utcTime s) else b
  let s := updPub s i fun x => { x with frame := b, sq := sq, next := if goose then some interval else none }
  let s := setF s (EGR_SLOT_SQ.SQNUM i) sq
  let s := if goose then setF s (EGR_SLOT_STAT.STNUM i) stn else s
  pubQueue s i b post

/-- A slot sends: enabled, not disabled by an error (R359, R367). -/
def pubOn (s : State) (i : Nat) : Bool := isSet s (EGR_SLOT_CFG.EN i) && !(pubSlot s i).bad && domOn s 6

/-- The template and the elements of a slot are read: what their check bits find (R151, R367). Location 1,024 i + word. -/
def pubCheck (s : State) (i : Nat) : State :=
  (s.sp.upsets.filter fun p => p.1.1 == .publisher && p.1.2 / 1024 == i).foldl (fun s p =>
    if p.2 == .correctable then eccCorr s .publisher p.1.2
    else
      let s := updPub (eccClear s .publisher p.1.2) i fun x => { x with bad := true }
      let s := if isSet s EGR_ECCREC.VALID then s
        else setFs s [(EGR_ECCREC.VALID, 1), (EGR_ECCREC.PUB, 1), (EGR_ECCREC.SLOT, i)]
      setRaise s EGR_STAT.PUB_ECC 1) s

/-- The elements of a slot as its frame holds them. -/
def elemBytes (s : State) (i : Nat) : List (Nat × List Byte) :=
  ((List.range 32).filter fun e => isSet s (EGR_ELEM.VALID i e)).map fun e =>
    (e, bytesAt (pubSlot s i).frame (getF s (EGR_ELEM.OFFSET i e)) (if getF s (EGR_ELEM.ENC i e) = 0 then 1 else 4))

/-- GOOSE_PUBLISH (R361 to R363): a commit covers a slot with new values of elements; `change` forces a send as at a change
(R365). A failure is told to the map entries. -/
def publish (s : State) (i : Nat) (vals : List (Nat × List Byte)) (post : List Posted) (change : Bool) : State :=
  let s := pubCheck s i
  if !pubOn s i then s
  else
    let base := if (pubSlot s i).frame.isEmpty then templateOf s i else (pubSlot s i).frame
    let b := vals.foldl (fun b v => putAt b (getF s (EGR_ELEM.OFFSET i v.1)) v.2) base
    let s := updPub s i fun x => { x with frame := b }
    let es := elemBytes s i
    let tell (r : Bool × State) : State := if r.1 then r.2 else postedFails r.2 post 7
    if !originOk s 2 false then tell (pubQueue s i b post)
    else if isSet s (EGR_SLOT_CFG.KIND i) then
      tell (pubSend s i 0 (((pubSlot s i).sq + 1) % 2 ^ 32) 0 true post)
    else if change || (pubSlot s i).sent != some es then
      let st := getF s (EGR_SLOT_STAT.STNUM i)
      let s := updPub s i fun x => { x with sent := some es }
      tell (pubSend s i (if st = 2 ^ 32 - 1 then 1 else st + 1) 0 (getF s (EGR_SLOT_TIMING.TMIN i)) true post)
    else s

/-- GOOSE_RETRANSMIT (R362, R365): the interval of a slot has passed. -/
def execGooseRetransmit (slot : Nat) (s : State) : Host.Outcome State Fault Refusal :=
  .next (match (pubSlot s slot).next with
    | none => s
    | some i =>
      if !pubOn s slot || absent s then s
      else if !originOk s 2 false then
        let s := updPub s slot fun x => { x with next := none }
        (pubQueue s slot (pubSlot s slot).frame []).2
      else
        let sq := (pubSlot s slot).sq
        let next := min (2 * i) (getF s (EGR_SLOT_TIMING.TMAX slot) * 1000)
        (pubSend s slot (getF s (EGR_SLOT_STAT.STNUM slot)) (if sq = 2 ^ 32 - 1 then 1 else sq + 1) next false []).2)

/-- A slot was enabled or changed: it starts again (R362). -/
def pubReset (s : State) (i : Nat) : State :=
  setFs (updPub s i fun _ => PubSt.init) [(EGR_SLOT_STAT.STNUM i, 0), (EGR_SLOT_SQ.SQNUM i, 0)]

end Sys2Proof.Machine
end

