-- ==== Sys2Proof/Machine/Report.lean ====
section
/-!
DEFINITION. Scan windows as the registers hold them (spec/08_scan_and_image.md, R219), and the hardware side of the line
functions (spec/16_line_measurement.md): the geometry of a report window (R452 to R454), the report encoder (R463), the
registers that show what the library has put into the committed image (R465, R466, R470), and what the library's mailboxes do
to the registers of the PHM block (R464, R467). The library itself is program content and runs as bundles (R450).
-/

namespace Sys2Proof.Machine

open Reg

/-! ## Windows (R219) -/

/-- A window entry: output, words, first address, length. -/
structure Win where
  out : Bool
  word : Bool
  addr : Nat
  len : Nat
  deriving DecidableEq, Repr

/-- An entry of a task as its registers hold it, when enabled. -/
def winEntry (s : State) (t e : Nat) : Option Win :=
  if isSet s (SCN_WIN_BASE.EN t e) then
    some { out := isSet s (SCN_WIN_BASE.OUT t e), word := isSet s (SCN_WIN_BASE.WORD t e),
           addr := getF s (SCN_WIN_BASE.ADDR t e), len := getF s (SCN_WIN_LEN.LEN t e) }
  else none

/-- The enabled entries of a task, in ascending number. -/
def winEntries (s : State) (t : Nat) (out : Bool) : List Win :=
  ((List.range 8).filterMap (winEntry s t)).filter fun w => w.out == out

/-- A range of words or bits lies wholly within a task's output window. -/
def inOutWindow (s : State) (t : Nat) (word : Bool) (addr len : Nat) : Bool :=
  let ws := (winEntries s t true).filter fun w => w.word == word
  (List.range len).all fun i => ws.any fun w => decide (w.addr ≤ addr + i) && decide (addr + i < w.addr + w.len)

/-! ## Report windows (R452 to R454) -/

/-- A library function is enabled: bit of PHM_CTRL.EN. -/
def phmOn (s : State) (i : Nat) : Bool := bitOf (getF s PHM_CTRL.EN) i

/-- Nominal frequency, Hz. -/
def f0Of (s : State) : Nat := if isSet s PLB_CTRL.NOM60 then 60 else 50

/-- Phasors of an estimator (R452). -/
def estNp (s : State) (e : Nat) : Nat :=
  ((List.range 8).filter fun c => bitOf (getF s (PHM_E_CFG.CHMASK e)) c).length + getF s (PHM_E_CFG.SEQV e) +
    getF s (PHM_E_CFG.SEQI e)

/-- Reports per second of an estimator (R453). -/
def estRr (s : State) (e : Nat) : Nat :=
  if isSet s (PHM_E_CFG.PERSMP e) then getF s PLB_SRCCFG.RATE else getF s (PHM_E_CFG.RR e)

/-- Window length in nominal cycles (Table 16.2). -/
def estW (s : State) (e : Nat) : Nat :=
  if !isSet s (PHM_E_CFG.CLASS e) then 2
  else if isSet s (PHM_E_CFG.PERSMP e) then 3
  else if getF s (PHM_E_CFG.RR e) ≤ 12 then 7
  else if getF s (PHM_E_CFG.RR e) ≤ 25 then 5
  else 3

/-- Samples per nominal cycle, M (R452). -/
def estM (s : State) : Nat := getF s PLB_SRCCFG.RATE / f0Of s

/-- The decimation D: the smallest that makes N an even integer of at most 256 (R454). -/
def estD (s : State) (e : Nat) : Option Nat :=
  [1, 2, 4, 8].find? fun d => estW s e * estM s % (2 * d) == 0 && decide (estW s e * estM s / d ≤ 256)

/-- Channel indices of V1, and of I1, as a run takes them. -/
def seqVOf (s : State) (e : Nat) : List Nat := [getF s (PHM_E_SEQMAP.VA e), getF s (PHM_E_SEQMAP.VB e), getF s (PHM_E_SEQMAP.VC e)]
@[inherit_doc seqVOf] def seqIOf (s : State) (e : Nat) : List Nat :=
  [getF s (PHM_E_SEQMAP.IA e), getF s (PHM_E_SEQMAP.IB e), getF s (PHM_E_SEQMAP.IC e)]

/-- The channels of each phasor of an estimator, in order: one of CHMASK, or the three of a sequence (R452). -/
def estPhasors (s : State) (e : Nat) : List (List Nat) :=
  ((List.range 8).filter fun c => bitOf (getF s (PHM_E_CFG.CHMASK e)) c).map (fun c => [c]) ++
    (if isSet s (PHM_E_CFG.SEQV e) then [seqVOf s e] else []) ++ (if isSet s (PHM_E_CFG.SEQI e) then [seqIOf s e] else [])

/-- Every channel that an estimator uses, those of the fault detector among them (R460, R465). -/
def estChans (s : State) (e : Nat) : List Nat :=
  ((estPhasors s e).flatMap id ++ if e = 0 && phmOn s 2 then seqIOf s 0 else []).eraseDups

/-- Words of the result block (R458). -/
def estBlock (s : State) (e : Nat) : Nat := 10 + 3 * estNp s e

/-- The reports that a change at a TAI instant leaves invalid: those whose window spans it, and one more (R460). The field that
counts them holds at most 127. -/
def estInvalid (s : State) (e tch : Nat) : Nat :=
  let t : Int := tch % secUnit
  let h : Int := (secUnit * estW s e / (2 * f0Of s) : Nat)
  let rr : Int := estRr s e
  let n := (t + h) * rr / (secUnit : Int) - (t - h) * rr / (secUnit : Int)
  min 127 (n.toNat + 1)

/-! ## The library (R450, R451) -/

/-- Word of the library header in the active bank (R450). -/
def libWord (s : State) (slot : Nat) : Nat := bankWord (activeBank s) 0xF000 slot

/-- The active bank carries the library header. -/
def libOk (s : State) : Bool := libWord s 0 == 0x50484D4C

/-- The state with the PHM_ registers that a run has taken at its freeze (R451). -/
def withPrm (s : State) (prm : List (Nat × Nat)) : State :=
  { s with regs := s.regs.filter (fun p => decide (p.1 < 0x400B0000 * 32)) ++ prm ++
      s.regs.filter fun p => decide (0x400C0000 * 32 ≤ p.1) }

/-- The PHM_ registers as they stand. -/
def phmRegs (s : State) : List (Nat × Nat) :=
  s.regs.filter fun p => decide (0x400B0000 * 32 ≤ p.1) && decide (p.1 < 0x400C0000 * 32)

/-- The run of a function in a task, from its freeze on. -/
def libRun (s : State) (t fn : Nat) : Option LibRun := s.phm.runs.find? fun r => r.task == t && r.fn == fn

/-- A TAI in ns from the payloads of TIME_HI and TIME_LO. -/
def pairNs (hi lo : Nat) : Nat := hi * 1000000000 + lo % 2 ^ 30

/-! ## The report encoder (R463) -/

/-- CRC-CCITT of polynomial 0x1021 and initial value 0xFFFF over one byte, bit by bit. -/
def crcCcittByte (c : Nat) (b : Byte) : Nat :=
  (List.range 8).foldl (fun c _ => if 32768 ≤ c then (c * 2 % 65536) ^^^ 0x1021 else c * 2) (c ^^^ (b.toNat * 256))
@[inherit_doc crcCcittByte] def crcCcitt (bs : List Byte) : Nat := bs.foldl crcCcittByte 0xFFFF

/-- A word of the committed image, payload only. -/
def imgWord (s : State) (a : Nat) : Nat := (sget TWord.empty s.scan.imgW a).val.toNat

/-- The data frame of a result block (Table 16.5); `p` holds the PHM_ registers of the run that made it. -/
def dataFrame (s p : State) (e : Nat) : List Byte :=
  let b := getF p (PHM_E_OADDR.ADDR e)
  let w (i : Nat) : Nat := imgWord s (b + i)
  let soc := unsignedOf 32 ((w 0 : Int) - signedOf 16 (getF s TIM_UTC.TAI_UTC))
  let body := beBytes 2 0xAA01 ++ beBytes 2 (28 + 8 * estNp p e) ++ beBytes 2 (getF s (PHM_E_PMU.IDCODE e)) ++ beBytes 4 soc ++
    beBytes 1 (bitsOf (w 2) 16 8) ++ beBytes 3 ((w 1 % 2 ^ 30 + 500) / 1000) ++ beBytes 2 (w 2) ++
    ((List.range (estNp p e)).flatMap fun i => beBytes 4 (w (10 + 3 * i)) ++ beBytes 4 (w (11 + 3 * i))) ++
    beBytes 4 (w 4) ++ beBytes 4 (w 5) ++ beBytes 2 (w 8)
  body ++ beBytes 2 (crcCcitt body)

/-- The frame that carries a C37.118 frame of an estimator: UDP over IPv4, tagged when DPORT.VID is not 0. -/
def reportFrame (s : State) (e : Nat) (data : List Byte) : List Byte :=
  let dmac := getF s (PHM_E_DMAC_HI.MAC e) * 65536 + getF s (PHM_E_DMAC_LO.MAC e)
  let bytes := udpFrame s dmac (ownIp s false) (beBytes 4 (getF s (PHM_E_DIP.IP e))) false (getF s CLS_PARSE.C37_UDP)
    (getF s (PHM_E_DPORT.PORT e)) data
  let vid := getF s (PHM_E_DPORT.VID e)
  if vid = 0 then bytes
  else bytes.take 12 ++ beBytes 2 0x8100 ++ beBytes 2 (getF s (PHM_E_PMU.QUEUE e) * 8192 + vid) ++ bytes.drop 12

/-- A report is sent: RPTCNT and LAT, or DROPPED when a mode that allows PROG frames has no room (R463, R473). -/
def sendReport (s p : State) (e : Nat) : State :=
  let (ok, s1) := egrSend s (getF s (PHM_E_PMU.PORTS e)) (getF s (PHM_E_PMU.QUEUE e))
    { origin := 2, bytes := reportFrame s e (dataFrame s p e), slot := none, ptp := false, post := [], tc := none } false
  if ok then
    let b := getF p (PHM_E_OADDR.ADDR e)
    let tr := taiOf (taiSec s.time.tai / 2 ^ 32 * 2 ^ 32 + imgWord s b) (imgWord s (b + 1) % 2 ^ 30)
    let us := min 65535 ((s.time.tai - tr) / (1000 * nsUnit))
    let s1 := setF (incWrap s1 (PHM_E_RPTCNT.CNT e)) (PHM_E_LAT.LAST e) us
    if getF s1 (PHM_E_LAT.MAX e) < us then setF s1 (PHM_E_LAT.MAX e) us else s1
  else if originOk s 2 false then incSat s1 (PHM_E_CNT.DROPPED e) PHM_STAT.CNT_OVF
  else s1

/-- A bit of the output image or of the program flags; a row of the flags that is lost to ECC reads 0 (R153). -/
def libBit (s : State) (a : Nat) : Bool :=
  if 0x10000 ≤ a ∧ a < 0x20000 then sget false s.scan.imgB a else eccAt s .bits (rowOf a) != .uncorrectable && rawBit s a

/-- The detector's read of the rows of its five bits, checked (R153). -/
def fdReads (s : State) (b : Nat) : State :=
  [b, b + 4].foldl (fun s a => if 0x10000 ≤ a ∧ a < 0x20000 then s else checkRow s 1 a) s

/-- The registers of the fault detector follow its five bits at each report of E0; a rise counts a fault and makes a location
pending (R465, R466). -/
def detector (s : State) : State :=
  let b := getF s PHM_FD_CFG.BADDR
  let up := libBit s b
  let rise := up && !isSet s PHM_FD_STAT.PICKUP
  let abcg := ((List.range 4).map fun i => if libBit s (b + 1 + i) then 2 ^ (3 - i) else 0).sum
  let s := setFs (fdReads s b) [(PHM_FD_STAT.PICKUP, b2n up), (PHM_FD_STAT.ABCG, abcg)]
  if rise then
    let s := incWrap s PHM_FD_STAT.FAULTNO
    if phmOn s 3 || phmOn s 4 then
      let s := if isSet s PHM_RES_STAT.PENDING then incSat s PHM_RMTCNT.DISC PHM_STAT.CNT_OVF else s
      setF s PHM_RES_STAT.PENDING 1
    else s
  else s

/-- The commit of the fault report starts the wait of the locators (R467, R470). -/
def faultCommitted (s : State) (ns : Nat) : State :=
  match s.phm.fault with
  | some r => if r.tf == some ns && r.at'.isNone then { s with phm := { s.phm with fault := some { r with at' := some s.time.tai } } } else s
  | none => s

/-- A commit of a task that has run an estimator and whose output window holds the result block is one report; the block lies as the
run's registers say (R451, R461, R463, R465). -/
def estCommit (s : State) (t e : Nat) : State :=
  match libRun s t e with
  | none => s
  | some r =>
    let p := withPrm s r.prm
    let b := getF p (PHM_E_OADDR.ADDR e)
    if domOn s 6 && r.due.isSome && inOutWindow s t true b (estBlock p e) then
      let s := if bitsOf (imgWord s (b + 2)) 14 2 = 3 then incSat s (PHM_E_CNT.INVALID e) PHM_STAT.CNT_OVF else s
      let left := getF s (PHM_E_STATE.INVLEFT e)
      let s := if 0 < left then setF s (PHM_E_STATE.INVLEFT e) (left - 1) else s
      let s := if e = 0 && phmOn p 2 then detector (faultCommitted s (pairNs (imgWord s b) (imgWord s (b + 1)))) else s
      if isSet s (PHM_E_PMU.SEND e) && isSet s (PHM_E_STATE.SENDING e) then sendReport s p e else s
    else s

/-- A commit of the locator task: a block that bears the pending fault completes the location (R470). -/
def locCommit (s : State) (t : Nat) : State :=
  match libRun s t 3 with
  | none => s
  | some r =>
    let b := getF (withPrm s r.prm) PHM_LOC_OADDR.ADDR
    if domOn s 6 && inOutWindow s t true b 8 && isSet s PHM_RES_STAT.PENDING &&
        imgWord s (b + 2) % 65536 == getF s PHM_FD_STAT.FAULTNO then
      setFs s [(PHM_RES_DPH.D, imgWord s (b + 3)), (PHM_RES_DTW.D, imgWord s (b + 5)),
        (PHM_RES_STAT.DPH_VALID, b2n (imgWord s (b + 4) % 4 == 0)), (PHM_RES_STAT.DTW_VALID, b2n (imgWord s (b + 6) % 4 == 0)),
        (PHM_RES_STAT.PENDING, 0), (PHM_RES_STAT.FAULTNO, imgWord s (b + 2) % 65536)]
    else s

/-- What the PHM block does at the commit of a task (R463, R470). -/
def phmCommit (s : State) (t : Nat) : State := locCommit (estCommit (estCommit s t 0) t 1) t

/-! ## The library's mailboxes (R464, R467) -/

/-- The payload of a UDP datagram over IPv4 or IPv6 in a frame, VLAN tags passed over. -/
def udpPayload (bs : List Byte) : List Byte :=
  let o := if numAt bs 12 2 = 0x8100 then (if numAt bs 16 2 = 0x8100 then 22 else 18) else 14
  if numAt bs (o - 2) 2 = 0x0800 then bs.drop (o + numAt bs o 1 % 16 * 4 + 8)
  else if numAt bs (o - 2) 2 = 0x86DD then bs.drop (o + 48)
  else []

/-- A C37.118 frame cut to its FRAMESIZE, when its CHK is good. -/
def c37Frame (bs : List Byte) : Option (List Byte) :=
  let p := udpPayload bs
  let n := numAt p 2 2
  if n < 16 ∨ p.length < n then none
  else if crcCcitt (p.take (n - 2)) = numAt p (n - 2) 2 then some (p.take n) else none

/-- A C37.118 frame of a kind, with the time of now (R28, R462; the layout is that of C37.118.2, log entry 19, PRESUMED). -/
def c37Build (s : State) (e sync : Nat) (body : List Byte) : List Byte :=
  let c := clockSays s
  let f := beBytes 2 sync ++ beBytes 2 (16 + body.length) ++ beBytes 2 (getF s (PHM_E_PMU.IDCODE e)) ++
    beBytes 4 (utcSec s) ++ beBytes 1 c.frac ++ beBytes 3 ((taiNs s.time.tai + 500) / 1000) ++ body
  f ++ beBytes 2 (crcCcitt f)

/-- The header frame: the text and the IDCODE in decimal, a space between them (Table 16.6; log entry 19, PRESUMED). -/
def headerFrame (s : State) (e : Nat) : List Byte :=
  c37Build s e 0xAA11 (("Xentiqua EZ400 " ++ toString (getF s (PHM_E_PMU.IDCODE e))).toList.map fun c => BitVec.ofNat 8 c.toNat)

/-- A configuration frame of an estimator (Table 16.6): one PMU, NP phasors rectangular and in floating point, no analogs, one digital
word. Names and units are free values (log entry 19, PRESUMED). -/
def configFrame (s : State) (e sync : Nat) : List Byte :=
  let np := estNp s e
  let free (n i : Nat) : List Byte := (List.range n).map fun k => BitVec.ofNat 8 (Config.freeValue (s.freeCtr + i + k))
  c37Build s e sync (beBytes 4 1000000 ++ beBytes 2 1 ++ free 16 0 ++ beBytes 2 (getF s (PHM_E_PMU.IDCODE e)) ++ beBytes 2 10 ++
    beBytes 2 np ++ beBytes 2 0 ++ beBytes 2 1 ++ free (16 * (np + 16)) 16 ++ free (4 * np + 4) 512 ++
    beBytes 2 (if f0Of s = 50 then 1 else 0) ++ beBytes 2 (nth 0 s.phm.cfgCnt e) ++ beBytes 2 (estRr s e))

/-- A frame of the library leaves as the data frames do. -/
def libSend (s : State) (e : Nat) (data : List Byte) : State :=
  (egrSend { s with freeCtr := s.freeCtr + 600 } (getF s (PHM_E_PMU.PORTS e)) (getF s (PHM_E_PMU.QUEUE e))
    { origin := 2, bytes := reportFrame s e data, slot := none, ptp := false, post := [], tc := none } false).2

/-- The library of an estimator takes a frame from its command mailbox (Table 16.6; the command frame's layout is that of
C37.118.2, log entry 19, PRESUMED). -/
def libCommand (s : State) (e : Nat) (bs : List Byte) : State :=
  let disc := incSat s PHM_STAT.CMD_DISC PHM_STAT.CNT_OVF
  match c37Frame bs with
  | none => disc
  | some p =>
    if numAt p 0 2 / 16 * 16 != 0xAA40 || numAt p 4 2 != getF s (PHM_E_PMU.IDCODE e) then disc
    else match numAt p 14 2 with
      | 1 => setF s (PHM_E_STATE.SENDING e) 0
      | 2 => setF s (PHM_E_STATE.SENDING e) 1
      | 3 => libSend s e (headerFrame s e)
      | 4 => libSend s e (configFrame s e 0xAA21)
      | 5 => libSend s e (configFrame s e 0xAA31)
      | _ => disc

/-- The phasor locator's library takes a frame from the mailbox of remote frames (R467). -/
def libRemote (s : State) (bs : List Byte) : State :=
  let disc := incSat s PHM_RMTCNT.DISC PHM_STAT.CNT_OVF
  match c37Frame bs with
  | none => disc
  | some p =>
    if (numAt p 0 2 == 0xAA01 || numAt p 0 2 == 0xAA02) && numAt p 4 2 == getF s PHM_LOC_RMT.IDCODE &&
        numAt p 2 2 == 28 + 8 * getF s PHM_LOC_RMT.NP then
      incWrap { s with phm := { s.phm with remote := ((s.time.tai, p) :: s.phm.remote).take 32 } } PHM_RMTCNT.ACCEPTED
    else disc

/-- A RECV of a task on a mailbox of the library takes a frame. -/
def libRecv (s : State) (t mbx : Nat) (bs : List Byte) : State :=
  let est (s : State) (e : Nat) : State :=
    if phmOn s e && getF s (PHM_E_CFG.TASK e) == t && isSet s (PHM_E_CMBX.EN e) && getF s (PHM_E_CMBX.MBX e) == mbx then
      libCommand s e bs else s
  let s := est (est s 0) 1
  if phmOn s 3 && getF s PHM_LOC_CFG.TASK == t && getF s PHM_LOC_RMT.MBX == mbx then libRemote s bs else s

end Sys2Proof.Machine
end

