-- ==== Sys2Proof/Machine/Units.lean ====
section
/-!
DEFINITION. The pure operations of the units (spec/06_units.md): ALU0 to ALU3 (Table 6.2), MUL0 (Table 6.5), the compares of
the BRU (Table 6.8), TMU ADDA, the phasor unit PHU0 (Tables 6.6, R171 to R173). Every operation is a function of its operands;
where the spec gives an accuracy, a result is any value within it, chosen by a free value.
-/

namespace Sys2Proof.Machine

/-- What an operation gives on operands that pass their check: results by register, or an operation fault (position,
cause 6 OPFAULT or 5 NAN). -/
inductive Res where
  | ok (rs : List (Nat × TWord))
  | fault (idx cause : Nat)
  deriving DecidableEq, Repr

/-- Tags that the logical operations accept as reference, and those a micro-move may use besides (R204). -/
def custom (micro : Bool) : List Nat := if micro then [13, 14] else []

/-! ## ALU (R164) -/

/-- A float result and its V: a finite input gave an infinity (R163). -/
def fltV (a b r : Nat) : Nat × Bool := (r, fFinite a && fFinite b && fInf r)

/-- Sum or difference under the tag of `a`: result, C, V. -/
def addSub (sub : Bool) (a b : TWord) : TWord × Bool × Bool :=
  let x := a.val.toNat
  let y := b.val.toNat
  let carry := if sub then decide (x < y) else decide (2 ^ 32 ≤ x + y)
  let wrap := if sub then x + 2 ^ 32 - y else x + y
  let exact : Int := if sub then signedOf 32 x - signedOf 32 y else signedOf 32 x + signedOf 32 y
  match a.tag.toNat with
  | 2 => (mkT 2 wrap, carry, (sat32 true exact).2)
  | 4 => (mkT 4 (sat32 true exact).1, false, (sat32 true exact).2)
  | 5 =>
    let (r, v) := fltV x y (if sub then fSub x y else fAdd x y)
    (mkT 5 r, false, v)
  | t => (mkT t wrap, carry, false)

/-- ADD, SUB. -/
def aluAddSub (sub : Bool) (vals : List TWord) : Res :=
  let (r, c, v) := addSub sub (opd vals 0) (opd vals 4)
  .ok [(0, r), (2, flagsW c v r)]

/-- AND, OR, XOR. -/
def aluLogic (f : Nat → Nat → Nat) (vals : List TWord) : Res :=
  let r := mkT (opd vals 0).tag.toNat (f (opd vals 0).val.toNat (opd vals 4).val.toNat)
  .ok [(0, r), (2, flagsW false false r)]

/-- SHL. -/
def aluShl (vals : List TWord) : Res :=
  let t := (opd vals 0).tag.toNat
  let x := (opd vals 0).val.toNat
  let n := (opd vals 4).val.toNat % 32
  let exact : Int := signedOf 32 x * 2 ^ n
  let (r, v) := match t with
    | 2 => (x * 2 ^ n, (sat32 true exact).2)
    | 4 => ((sat32 true exact).1, (sat32 true exact).2)
    | 1 => (x * 2 ^ n, false)
    | _ => (x * 2 ^ n, decide (2 ^ 32 ≤ x * 2 ^ n))
  let r := mkT t r
  .ok [(0, r), (2, flagsW false v r)]

/-- SHR. -/
def aluShr (vals : List TWord) : Res :=
  let t := (opd vals 0).tag.toNat
  let x := (opd vals 0).val.toNat
  let n := (opd vals 4).val.toNat % 32
  let r := mkT t (if t = 2 ∨ t = 4 then unsignedOf 32 (signedOf 32 x / 2 ^ n) else x / 2 ^ n)
  .ok [(0, r), (2, flagsW false false r)]

/-- Order of two values of one numeric tag; a NaN is not judged here. -/
def lessNum (t a b : Nat) : Bool :=
  match t with
  | 3 => a < b
  | 5 => fKey a < fKey b
  | _ => signedOf 32 a < signedOf 32 b

/-- MIN, MAX: OPD0 stays unless T is strictly less, or greater; a NaN loses to a number. -/
def aluMinMax (mx : Bool) (vals : List TWord) : Res :=
  let a := opd vals 0
  let b := opd vals 4
  let t := a.tag.toNat
  let x := a.val.toNat
  let y := b.val.toNat
  let r := if t = 5 ∧ (fNan x ∨ fNan y) then
      (if fNan x && fNan y then mkT 5 (fNanOf x y) else if fNan x then b else a)
    else if (if mx then lessNum t x y else lessNum t y x) then b else a
  .ok [(0, r), (2, flagsW false false r)]

/-- −T of a numeric word, and V. -/
def negate (a : TWord) : TWord × Bool :=
  let x := a.val.toNat
  match a.tag.toNat with
  | 2 => (mkT 2 (2 ^ 32 - x), x == 2 ^ 31)
  | 4 => (mkT 4 (sat32 true (-(signedOf 32 x))).1, x == 2 ^ 31)
  | 5 => (mkT 5 (fNegate x), false)
  | t => (mkT t (2 ^ 32 - x), false)

/-- NEGABS: RES0 = −T, RES1 = |T|. -/
def aluNegabs (vals : List TWord) : Res :=
  let a := opd vals 4
  let (n, v) := negate a
  let neg := a.tag != 3 && bitOf a.val.toNat 31
  .ok [(0, n), (1, if neg then n else a), (2, flagsW false v n)]

/-- SEL. -/
def aluSel (vals : List TWord) : Res := .ok [(0, if bitOf (opd vals 4).val.toNat 0 then opd vals 1 else opd vals 0)]

/-- CVT (R165). -/
def aluCvt (vals : List TWord) : Res :=
  let c := (opd vals 0).val.toNat
  let tgt := c % 16
  let t := opd vals 4
  if 32 ≤ c ∨ tgt = 0 ∨ 13 ≤ tgt then .fault 0 6
  else if bitOf c 4 then
    let r := mkT tgt t.val.toNat
    .ok [(0, r), (2, flagsW false false r)]
  else if !isNum tgt then .fault 0 6
  else match convert t.tag.toNat tgt t.val.toNat with
    | none => .fault 4 5
    | some (v, sat) =>
      let r := mkT tgt v
      .ok [(0, r), (2, flagsW false sat r)]

/-- The tags CVT accepts in T: its control decides (R165). -/
def cvtTags (vals : List TWord) : List Nat :=
  let c := opd vals 0
  let ctl := if c.tag = 3 then c.val.toNat else match convert c.tag.toNat 3 c.val.toNat with
    | some (v, _) => if isNum c.tag.toNat then v else 0
    | none => 0
  if bitOf ctl 4 then [1, 2, 3, 4, 5, 6, 7, 8, 9, 10, 11, 12] else numTags

/-! ## MUL0 (R169) -/

/-- The product of two words of one numeric tag, and V. -/
def product (a b : TWord) : TWord × Bool :=
  let x := a.val.toNat
  let y := b.val.toNat
  let e : Int := signedOf 32 x * signedOf 32 y
  match a.tag.toNat with
  | 2 => (mkT 2 (unsignedOf 32 e), (sat32 true e).2)
  | 4 => (mkT 4 (sat32 true (rneShrI e 16)).1, (sat32 true (rneShrI e 16)).2)
  | 5 =>
    let (r, v) := fltV x y (fMul x y)
    (mkT 5 r, v)
  | t => (mkT t (x * y), decide (2 ^ 32 ≤ x * y))

/-- MUL; SQ multiplies T by itself. -/
def mulMul (sq : Bool) (vals : List TWord) : Res :=
  let (r, v) := product (if sq then opd vals 4 else opd vals 0) (opd vals 4)
  .ok [(0, r), (2, flagsW false v r)]

/-- MULW: both halves of the exact product. -/
def mulMulw (vals : List TWord) : Res :=
  let a := opd vals 0
  let x := a.val.toNat
  let y := (opd vals 4).val.toNat
  let p := if a.tag = 2 then unsignedOf 64 (signedOf 32 x * signedOf 32 y) else x * y
  .ok [(0, mkT a.tag.toNat (p / 2 ^ 32)), (1, mkT 3 p)]

/-! ## Compares (R176) -/

/-- a < b by the half-range rule (R47). -/
def halfLess (a b : Nat) : Bool :=
  let d := (b + 2 ^ 32 - a) % 2 ^ 32
  1 ≤ d && d ≤ 2 ^ 31 - 1

/-- A compare: 0 EQ, 1 NE, 2 LT, 3 LE, 4 GT, 5 GE, 6 TST. -/
def compareOp (k : Nat) (a b : TWord) : Bool :=
  let x := a.val.toNat
  let y := b.val.toNat
  let t := a.tag.toNat
  if k = 6 then (x &&& y) != 0
  else if t = 5 ∧ (fNan x ∨ fNan y) then k == 1
  else
    let less (p q : Nat) : Bool := match t with
      | 3 => p < q
      | 5 => fCmpKey p < fCmpKey q
      | 6 | 9 => halfLess p q
      | _ => signedOf 32 p < signedOf 32 q
    let eq := if t = 5 then fCmpKey x == fCmpKey y else x == y
    match k with
    | 0 => eq
    | 1 => !eq
    | 2 => less x y
    | 3 => less x y || eq
    | 4 => less y x
    | _ => less y x || eq

/-! ## TMU ADDA (R178) -/

/-- A (cycle, angle) pair advanced by Δ. -/
def tmuAdda (vals : List TWord) : Res :=
  let c := (opd vals 0).val.toNat
  let sum := (opd vals 1).val.toNat + (opd vals 4).val.toNat
  .ok [(0, mkT 9 (if 2 ^ 32 ≤ sum then c + 1 else c)), (1, mkT 6 sum)]

/-! ## Results of bounded accuracy -/

/-- The integer nearest to p/q, q > 0. -/
def roundQ (p : Int) (q : Nat) : Int := if p < 0 then -(rneDiv p.natAbs q : Int) else (rneDiv p.natAbs q : Int)

/-- A FIX16 code within 2 LSB of p/q, chosen by a free value (R171, R173). -/
def nearFix (free : Nat) (p : Int) (q : Nat) : Int :=
  let m := roundQ p q
  let c := m + (free % 5 : Nat) - 2
  if (c * q - p).natAbs ≤ 2 * q then c else m

/-- A binary32 code within `tol` of p/q, both in units of 2^-149 and the tolerance times q, chosen by a free value. -/
def nearF32 (free : Nat) (p : Int) (q tol : Nat) : Nat :=
  let c := free % 2 ^ 32
  if fFinite c && decide ((fInt c * q - p).natAbs ≤ tol) then c else fRound (roundQ (p * 2 ^ 64) q) 213 false

/-! ## PHU0 -/

/-- A FIX16 result of exact value m LSB or none within range. -/
def fixW (x : Int) : TWord := mkT 4 (sat32 true x).1

/-- CMAC on an accumulator (R171): the new accumulator and the results, with a free value for an accumulator beyond its 64
bits. -/
def phuCmac (acc : PhuAcc) (vals : List TWord) (free : Nat) : Res × PhuAcc :=
  let ctl := (opd vals 4).val.toNat
  let tag := (opd vals 0).tag.toNat
  let ar := (opd vals 0).val.toNat
  let ai := (opd vals 1).val.toNat
  let br := (opd vals 2).val.toNat
  let bi := (opd vals 3).val.toNat
  let clr := bitOf ctl 0
  let conj := bitOf ctl 1
  let sub := bitOf ctl 2
  if 8 ≤ ctl then (.fault 4 6, acc)
  else if !clr && acc.tag != 0 && acc.tag != tag then (.fault 0 6, acc)
  else if tag = 4 then
    let b : Int := if conj then -(signedOf 32 bi) else signedOf 32 bi
    let pr := signedOf 32 ar * signedOf 32 br - signedOf 32 ai * b
    let pim := signedOf 32 ar * b + signedOf 32 ai * signedOf 32 br
    let sum (a p : Int) (f : Nat) : Int :=
      let x := (if clr then 0 else a) + (if sub then -p else p)
      if -(2 ^ 63) ≤ x ∧ x < 2 ^ 63 then x else signedOf 64 f
    let re := sum acc.re pr free
    let im := sum acc.im pim (free / 2 ^ 64)
    let (r, s1) := sat32 true (rneShrI re 16)
    let (i, s2) := sat32 true (rneShrI im 16)
    (.ok [(0, mkT 4 r), (1, mkT 4 i), (2, boolW (s1 || s2))], { tag := 4, re := re, im := im })
  else
    let b := if conj then fNegate bi else bi
    let pr := fSub (fMul ar br) (fMul ai b)
    let pim := fAdd (fMul ar b) (fMul ai br)
    let sum (a : Int) (p : Nat) : Nat :=
      let a := if clr then 0 else a.toNat
      if sub then fSub a p else fAdd a p
    let re := sum acc.re pr
    let im := sum acc.im pim
    (.ok [(0, mkT 5 re), (1, mkT 5 im), (2, boolW false)], { tag := 5, re := re, im := im })

/-- CMAG (R170, R171). The spec gives no magnitude for operands that are not finite, nor for a FIX16 magnitude above the largest FIX16
number: that result is a free value (log entry 126, DESIGN CHOICE). -/
def phuCmag (vals : List TWord) (f1 f2 : Nat) : Res :=
  let t := (opd vals 0).tag.toNat
  let a := (opd vals 0).val.toNat
  let b := (opd vals 4).val.toNat
  if t = 5 ∧ !(fFinite a && fFinite b) then .ok [(0, mkT 5 f1), (1, mkT 6 f2)]
  else
    let x : Int := if t = 5 then fInt a else signedOf 32 a
    let y : Int := if t = 5 then fInt b else signedOf 32 b
    let m2 := (x * x + y * y).toNat
    if m2 = 0 then .ok [(0, mkT t 0), (1, mkT 6 0)]
    else
      let mag := if t = 5 then
          let c := f1 % 2 ^ 31
          let sq := fMag c * fMag c * 2 ^ 42
          if fFinite c && decide (sq ≤ m2 * (2 ^ 21 + 1) ^ 2) && decide (m2 * (2 ^ 21 - 1) ^ 2 ≤ sq) then mkT 5 c
          else mkT 5 (fRoundMag (isqrt (m2 * 2 ^ 128)) 213)
        else
          let m := isqrt m2
          let c := min (m + f1 % 5 - 2) (2 ^ 31 - 1)
          if (2 ^ 31 - 1) ^ 2 < m2 then mkT 4 f1
          else if (c - 2) * (c - 2) ≤ m2 ∧ m2 ≤ (c + 2) * (c + 2) then mkT 4 c else mkT 4 m
      let big := if t = 5 then decide ((2 ^ 141) ^ 2 ≤ m2) else decide (65536 ≤ m2)
      let c := f2 % 2 ^ 32
      let (cs, sn) := cosSin c (2 ^ 32)
      let cross := y * cs - x * sn
      let near := decide (0 < x * cs + y * sn) && decide (cross * cross ≤ (m2 : Int) * (cosSin 1 (2 ^ 22)).2 ^ 2)
      .ok [(0, mag), (1, mkT 6 (if !big || near then c else atanCode x y))]

/-- CROT (R170, R171). Of a magnitude that is not finite the results are free values (log entry 126, DESIGN CHOICE). -/
def phuCrot (vals : List TWord) (f1 f2 : Nat) : Res :=
  let t := (opd vals 0).tag.toNat
  let a := (opd vals 0).val.toNat
  let (cs, sn) := cosSin (opd vals 4).val.toNat (2 ^ 32)
  if t = 5 then
    if !fFinite a then .ok [(0, mkT 5 f1), (1, mkT 5 f2)]
    else
      let one (f : Nat) (k : Int) : TWord :=
        let p := fInt a * k
        mkT 5 (nearF32 f p (2 ^ trigBits) (p.natAbs / 2 ^ 21))
      .ok [(0, one f1 cs), (1, one f2 sn)]
  else
    let one (f : Nat) (k : Int) : TWord := fixW (nearFix f (signedOf 32 a * k) (2 ^ trigBits))
    .ok [(0, one f1 cs), (1, one f2 sn)]

/-! ## The DFT (R172, R173) -/

/-- √2 in units of 2^-96. -/
def sqrt2Q : Int := 112045541949572279837463876454

/-- The weight of sample k of N, as an integer of one scale for the whole window: code 0 rectangular, 1 Hann, 2 Hamming,
3 user. -/
def dftWeight (win n : Nat) (user : Nat → Nat) (k : Nat) : Int :=
  match win with
  | 0 => 1
  | 1 => 2 ^ trigBits - (cosSin k n).1
  | 2 => 54 * 2 ^ trigBits - 46 * (cosSin k n).1
  | _ => fInt (user k)

/-- The weights' sum W. -/
def dftSum (win n : Nat) (user : Nat → Nat) : Int := ((List.range n).map (dftWeight win n user)).sum

/-- The phasor of samples x (R173): RES0, RES1, RES2. Of INT32 and UINT32 samples R173 gives neither accuracy nor limits: they are
taken as FIX16 ones are, within 2 LSB, saturated, RES2 bit 0 set. Samples or weights that are not finite give free values (log entry
126, DESIGN CHOICE). -/
def dftPhasor (win n h rho : Nat) (user : Nat → Nat) (samples : List TWord) (f1 f2 : Nat) : List (Nat × TWord) :=
  let t := (nth TWord.empty samples 0).tag.toNat
  let codes := samples.map fun v => v.val.toNat
  if (t = 5 ∧ codes.any fun c => !fFinite c) ∨ (win = 3 ∧ (List.range n).any fun k => !fFinite (user k)) then
    [(0, mkT t f1), (1, mkT t f2), (2, boolW (t == 4 && f1 / 2 ^ 32 % 2 == 1))]
  else
    let xs : List Int := codes.map fun c => if t = 5 then fInt c else if t = 3 then (c : Int) else signedOf 32 c
    let w := dftSum win n user
    let term (k : Nat) (x : Int) : Int × Int :=
      let (c, s) := cosSin (h * k * 2 ^ 32 + rho * n) (n * 2 ^ 32)
      let wx := dftWeight win n user k * x
      (wx * c, -(wx * s))
    let terms := xs.zipIdx.map fun p => term p.2 p.1
    let g : Int := if 0 < h ∧ h < n / 2 then sqrt2Q else 2 ^ trigBits
    let sgn : Int := if w < 0 then -1 else 1
    let re := sgn * g * (terms.map (·.1)).sum
    let im := sgn * g * (terms.map (·.2)).sum
    let q := w.natAbs * 2 ^ (2 * trigBits)
    if t = 5 then
      let tol := (xs.map Int.natAbs).foldl max 0 * q / 1000000
      [(0, mkT 5 (nearF32 f1 re q tol)), (1, mkT 5 (nearF32 f2 im q tol)), (2, boolW false)]
    else
      let (r, s1) := sat32 (t != 3) (nearFix f1 re q)
      let (i, s2) := sat32 (t != 3) (nearFix f2 im q)
      [(0, mkT t r), (1, mkT t i), (2, boolW (s1 || s2))]

/-- The operands of a DFT in range: base, N, L, S, h, window; or the position of a fault (R172). -/
def dftFields (vals : List TWord) : (Nat × Nat × Nat × Nat × Nat) ⊕ Nat :=
  let a := (opd vals 1).val.toNat
  let b := (opd vals 2).val.toNat
  let c := (opd vals 3).val.toNat
  let n := a % 512
  let l := a / 512 % 512
  let h := c % 512
  if 2 ^ 18 ≤ a ∨ n % 2 = 1 ∨ n < 2 ∨ 256 < n ∨ (l ≠ 0 ∧ l < n) then .inr 1
  else if 512 ≤ b ∨ (l ≠ 0 ∧ l ≤ b) then .inr 2
  else if 2 ^ 11 ≤ c ∨ n / 2 < h then .inr 3
  else .inl (n, l, b, h, c / 512)

/-! ## The catalogue -/

/-- A pure operation: what it checks, given its operands (R165) and whether a micro-move triggers it (R204), its latency,
and what it computes with two free values. -/
structure PureOp where
  spec : Bool → List TWord → Spec
  lat : Nat
  run : List TWord → Nat → Nat → Res
  /-- the result draws two free values -/
  free : Bool

/-- An operation with a reference in OPD0 and T =ref. -/
def binary (tags extra : List Nat) (cust : Bool) (res : List Nat) (micro : Bool) : Spec :=
  { pos := [(4, .eqref extra), (0, .ref (tags ++ if cust then custom micro else []))], res := res }

/-- The pure operation of a unit's trigger port: ALUs, MUL0, CMAG and CROT of PHU0, TMU ADDA. -/
def pureOp (unit port : Nat) : Option PureOp :=
  let sum := numTags ++ [9, 6]
  let logic := [1, 3, 2]
  let sh := [2, 3, 1, 4]
  let shift (micro : Bool) : Spec := { pos := [(4, .tags [3, 2]), (0, .ref (sh ++ custom micro))], res := [0, 2] }
  if 1 ≤ unit ∧ unit ≤ 4 then
    match port with
    | 4 => some ⟨fun m _ => binary sum [3, 2] true [0, 2] m, 1, fun v _ _ => aluAddSub false v, false⟩
    | 5 => some ⟨fun m _ => binary sum [3, 2] true [0, 2] m, 1, fun v _ _ => aluAddSub true v, false⟩
    | 6 => some ⟨fun m _ => binary logic [] true [0, 2] m, 1, fun v _ _ => aluLogic (· &&& ·) v, false⟩
    | 7 => some ⟨fun m _ => binary logic [] true [0, 2] m, 1, fun v _ _ => aluLogic (· ||| ·) v, false⟩
    | 8 => some ⟨fun m _ => binary logic [] true [0, 2] m, 1, fun v _ _ => aluLogic (· ^^^ ·) v, false⟩
    | 9 => some ⟨fun m _ => shift m, 1, fun v _ _ => aluShl v, false⟩
    | 10 => some ⟨fun m _ => shift m, 1, fun v _ _ => aluShr v, false⟩
    | 11 => some ⟨fun m _ => binary numTags [] false [0, 2] m, 1, fun v _ _ => aluMinMax false v, false⟩
    | 12 => some ⟨fun m _ => binary numTags [] false [0, 2] m, 1, fun v _ _ => aluMinMax true v, false⟩
    | 13 => some ⟨fun _ _ => { pos := [(4, .ref numTags)], res := [0, 1, 2] }, 1, fun v _ _ => aluNegabs v, false⟩
    | 14 => some ⟨fun _ _ => { pos := [(4, .tags [1, 3]), (0, .any), (1, .any)], res := [0] }, 1, fun v _ _ => aluSel v, false⟩
    | 15 => some ⟨fun _ v => { pos := [(4, .cvt (cvtTags v)), (0, .tags [3])], res := [0, 2] }, 1, fun v _ _ => aluCvt v, false⟩
    | _ => none
  else match unit, port with
    | 7, 4 => some ⟨fun m _ => binary numTags [] false [0, 2] m, 3, fun v _ _ => mulMul false v, false⟩
    | 7, 5 => some ⟨fun m _ => binary [2, 3] [] false [0, 1] m, 3, fun v _ _ => mulMulw v, false⟩
    | 7, 6 => some ⟨fun _ _ => { pos := [(4, .ref numTags)], res := [0, 2] }, 3, fun v _ _ => mulMul true v, false⟩
    | 8, 5 => some ⟨fun m _ => binary [4, 5] [] false [0, 1] m, 12, fun v f g => phuCmag v f g, true⟩
    | 8, 6 => some ⟨fun _ _ => { pos := [(4, .tags [6]), (0, .ref [4, 5])], res := [0, 1] }, 12, fun v f g => phuCrot v f g, true⟩
    | 12, 6 => some ⟨fun _ _ => { pos := [(4, .tags [6]), (0, .tags [9]), (1, .tags [6])], res := [0, 1] }, 1,
        fun v _ _ => tmuAdda v, false⟩
    | _, _ => none

/-- Operands OPD0 to OPD3 and T of CMAC (Table 6.6). -/
def cmacSpec : Spec :=
  { pos := [(4, .tags [3]), (0, .ref [4, 5]), (1, .eqref []), (2, .eqref []), (3, .eqref [])], res := [0, 1, 2] }

/-- The check of a pure operation, and its results (R142, R162): the results land after `lat` cycles; none after a trap. -/
def firePure (s : State) (op : PureOp) (o : Origin) (micro : Option (Nat × Nat)) (vals : List TWord) :
    Option (List (Nat × TWord)) × State :=
  let sp := op.spec micro.isSome vals
  let fail (c : Checked × State) : Option (List (Nat × TWord)) × State :=
    match c with
    | (.poison w, s) => (some (sp.res.map fun i => (i, w)), s)
    | (_, s) => (none, s)
  match checkTags s sp o micro vals with
  | (.fires vs, s) =>
    let (f1, s) := if op.free then drawFree s else (0, s)
    let (f2, s) := if op.free then drawFree s else (0, s)
    (match op.run vs f1 f2 with
    | .ok rs => (some rs, s)
    | .fault i c => fail (opFault s o micro vals i c))
  | r => fail r

end Sys2Proof.Machine
end

