-- ==== Sys2Proof/Machine/Library.lean ====
section
/-!
DEFINITION. The function library (spec/16_line_measurement.md): what a run of an estimator computes and writes (R456 to R462), the
fault detector within it (R465, R466), and a run of the locators (R467 to R470). The library is program content that the spec does not
give: its bundles run as any bundles do, and what the spec says a run of it leaves behind lands at the end of the run's END cycle, before
the capture (log entry 143, DESIGN CHOICE). Its arithmetic is exact, but for the last digits of each FLOAT32 word, which are free
(log entry 144, DESIGN CHOICE).
-/

namespace Sys2Proof.Machine

open Reg

/-! ## The freeze of a library run (R449, R451) -/

/-- The functions that a run of a task carries out. -/
def libFns (s : State) (t : Nat) : List Nat :=
  if !domOn s 6 || !libOk s then []
  else ((List.range 2).filter fun e => phmOn s e && getF s (PHM_E_CFG.TASK e) == t) ++
    (if (phmOn s 3 || phmOn s 4) && getF s PHM_LOC_CFG.TASK == t then [3] else [])

/-- The due pulse on which a task's trigger fell. -/
def dueFor (s : State) (t e : Nat) : Option PhmDue :=
  (nth [] s.phm.due e).find? fun d => decide (d.at' ≤ (task s t).trig.tai)

/-- The samples of the window that a due pulse completed, oldest first (R454). -/
def windowOf (s : State) (e : Nat) (d : PhmDue) : List PhmSmp :=
  (((nth [] s.phm.samples e).drop (nth 0 s.phm.smpCnt e - d.cnt)).take (estW s e * estM s)).reverse

/-- A task freezes: the runs of the library in it take their parameters (R451). -/
def libFreeze (s : State) (t : Nat) : State :=
  let one (fn : Nat) : LibRun :=
    let due := if fn < 2 then dueFor s t fn else none
    { fn := fn, task := t, prm := phmRegs s, due := due, win := (due.map (windowOf s fn)).getD [] }
  { s with phm := { s.phm with runs := (libFns s t).map one ++ s.phm.runs.filter fun r => r.task != t } }

/-! ## Phasors (R454, R456, R457) -/

/-- The samples of a channel over a window, as the run's task reads its ring. -/
def ringWords (s : State) (t m c : Nat) (win : List PhmSmp) : List TWord :=
  win.map fun x => taskWord s t (getF s (CLS_S_RING.ADDR m) + c * getF s (CLS_S_RING.RLEN m) + x.idx)

/-- Every D samples become their mean; a sample that is no finite FLOAT32 number makes a mean that is none. -/
def decimate (d : Nat) : Nat → List TWord → List TWord
  | 0, _ => []
  | n + 1, l =>
    let g := l.take d
    let v := if g.all fun w => w.tag == 5 && fFinite w.val.toNat then
        fRound ((g.map fun w => fInt w.val.toNat).sum) (149 + Nat.log2 d) false
      else 0x7FC00000
    mkT 5 v :: decimate d n (l.drop d)

/-- The frequency of Plumb at an instant, Q8.24: that of the newest update not after it. -/
def freqAt (s : State) (inst : Nat) : Nat :=
  match s.phm.plumb.find? fun u => decide (u.inst ≤ inst) with
  | some u => u.freq
  | none => f0Of s * 2 ^ 24

/-- The window's sum at a frequency that lies df (Q8.24) from the nominal one, its samples a time dt apart, in units of 2^-96; at df 0
it is the sum of the weights (R456). -/
def windowSum (win n : Nat) (df : Int) (dt : Nat) : Int × Int :=
  let den : Nat := 2 ^ 24 * secUnit
  let terms := (List.range n).map fun k =>
    let (c, s) := cosSin ((df * (k * dt : Nat) % (den : Int)).toNat) den
    let w := dftWeight win n (fun _ => 0) k
    (w * c, w * s)
  ((terms.map (·.1)).sum, (terms.map (·.2)).sum)

/-- What the phasors of one report have in common: window, N, D, W, reference angle, gain and phase correction (R454, R456). -/
structure Corr where
  win : Nat
  n : Nat
  d : Nat
  w : Nat
  rho : Nat
  /-- |sum of weights| times 2^96, and |window's sum at f| -/
  sum : Nat
  gain : Nat
  rot : Int × Int

/-- The corrections of a report. The instant of a decimated sample is the mean of its samples' instants; the gain is that of the DFT
window alone (log entry 145, DEDUCED). -/
def corrOf (s p : State) (e tr : Nat) (win : List PhmSmp) : Corr :=
  let d := (estD p e).getD 1
  let n := estW p e * estM s / d
  let code := if isSet p (PHM_E_CFG.CLASS e) then 2 else 1
  let t0 := ((win.take d).map (·.inst)).sum / max 1 d
  let tc := (win.getD (win.length / 2) { inst := tr, idx := 0, quals := [], sim := false, gap := true }).inst
  let df : Int := (freqAt s tc : Int) - (f0Of s * 2 ^ 24 : Nat)
  let dt := d * secUnit / max 1 (getF s PLB_SRCCFG.RATE)
  let (a, b) := windowSum code n df dt
  let den : Nat := 2 ^ 24 * secUnit
  { win := code, n := n, d := d, w := estW p e, rho := f0Of s * t0 * 2 ^ 32 / secUnit % 2 ^ 32
    sum := (dftSum code n fun _ => 0).natAbs * 2 ^ trigBits, gain := isqrt (a * a + b * b).toNat
    rot := cosSin ((df * ((tr : Int) - tc) % (den : Int)).toNat) den }

/-- A complex number as two FLOAT32 codes near (re, im)/q, the numbers in units of 2^-149, within 2^-20 of its magnitude. -/
def cxNear (f : Nat → Nat) (i : Nat) (re im : Int) (q : Nat) : Nat × Nat :=
  let tol := (re.natAbs + im.natAbs) / 2 ^ 20
  (nearF32 (f i) re q tol, nearF32 (f (i + 1)) im q tol)

/-- The phasor of a channel: DFT, then the two corrections (R456). Where the spec gives no result, of samples that are no numbers or of a
gain of 0, both parts are free. -/
def chPhasor (s : State) (t m c : Nat) (k : Corr) (win : List PhmSmp) (f : Nat → Nat) (i : Nat) : Nat × Nat :=
  let xs := decimate k.d k.n (ringWords s t m c win)
  let r := dftPhasor k.win k.n k.w k.rho (fun _ => 0) xs (f i) (f (i + 1))
  let re := ((r.lookup 0).getD TWord.empty).val.toNat
  let im := ((r.lookup 1).getD TWord.empty).val.toNat
  if k.gain = 0 ∨ !fFinite re ∨ !fFinite im ∨ xs.any fun x => !fFinite x.val.toNat then (f (i + 2) % 2 ^ 32, f (i + 3) % 2 ^ 32)
  else
    let (c, s) := k.rot
    cxNear f (i + 2) ((fInt re * c - fInt im * s) * k.sum) ((fInt re * s + fInt im * c) * k.sum) (k.gain * 2 ^ trigBits)

/-- (A + a·B + a²·C) / 3 of three phasors, a = 1∠120° (R457). -/
def seqPhasor (x : List (Nat × Nat)) (f : Nat → Nat) (i : Nat) : Nat × Nat :=
  if x.any fun v => !fFinite v.1 || !fFinite v.2 then (f i % 2 ^ 32, f (i + 1) % 2 ^ 32)
  else
    let turn (v : Nat × Nat) (n : Nat) : Int × Int :=
      let (c, s) := cosSin n 3
      (fInt v.1 * c - fInt v.2 * s, fInt v.1 * s + fInt v.2 * c)
    let ts := (x.zipIdx).map fun p => turn p.1 p.2
    cxNear f i (ts.map (·.1)).sum (ts.map (·.2)).sum (3 * 2 ^ trigBits)

/-! ## Marks (R459 to R462) -/

/-- A quality in the making: validity (0 good, 3 questionable, 1 invalid) and other bits. -/
structure Mark where
  val : Nat
  bits : Nat

/-- The worse of two validities and every bit of both (R461). -/
def Mark.or (a b : Mark) : Mark :=
  { val := if a.val = 1 ∨ b.val = 1 then 1 else if a.val = 3 ∨ b.val = 3 then 3 else 0, bits := a.bits ||| b.bits }

/-- The mark of a condition that holds. -/
def Mark.when (b : Bool) (val bits : Nat) : Mark := if b then { val := val, bits := bits } else { val := 0, bits := 0 }

/-- What a window sample says of a channel (Table 16.4): invalid (or in the gap map, or of the reserved validity), questionable with its
detail bits. -/
def smpMark (c : Nat) (x : PhmSmp) : Mark :=
  let q := nth 0 x.quals c
  if x.gap then { val := 1, bits := 0x40 }
  else match q % 4 with
    | 0 => { val := 0, bits := 0 }
    | 3 => { val := 3, bits := q % 0x400 / 4 * 4 }
    | _ => { val := 1, bits := 0x40 }

/-- The mark of channels over a window; of a sequence it is the worst of its three (R461). -/
def chMark (win : List PhmSmp) (chs : List Nat) : Mark :=
  chs.foldl (fun m c => win.foldl (fun m x => m.or (smpMark c x)) m) { val := 0, bits := 0 }

/-- A window sample of the channels has TEST, or its frame SIM. -/
def anyTest (win : List PhmSmp) (chs : List Nat) : Bool := win.any fun x => x.sim || chs.any fun c => bitOf (nth 0 x.quals c) 11

/-- Every sample of a window is global (SYNC 0b10). -/
def allGlobal (win : List PhmSmp) (chs : List Nat) : Bool :=
  win.all fun x => !x.gap && chs.all fun c => bitsOf (nth 0 x.quals c) 16 2 == 2

/-- The report spans a change: its window begins before the change and ends at or after it (R460). -/
def spansChange (s : State) (e : Nat) (win : List PhmSmp) : Bool :=
  match nth none s.phm.changed e, win.head?, win.getLast? with
  | some t, some a, some b => decide (a.inst < t) && decide (t ≤ b.inst)
  | _, _, _ => false

/-- The report is the first whose window lies wholly after the change, or after a reset (R460, R474). -/
def firstAfter (s : State) (e : Nat) (win : List PhmSmp) : Bool :=
  nth false s.phm.owed e && match nth none s.phm.changed e, win.head? with
    | some t, some a => decide (t ≤ a.inst)
    | _, _ => true

/-- Plumb's updates within a window, and those that the ROCOF mean takes (R459). -/
def updatesIn (s : State) (win : List PhmSmp) : List PlumbLog :=
  match win.head?, win.getLast? with
  | some a, some b => s.phm.plumb.filter fun u => decide (a.inst ≤ u.inst) && decide (u.inst ≤ b.inst)
  | _, _ => []

/-- An update is the range-change update of R56. -/
def isRange (u : PlumbLog) : Bool := bitOf u.qual 8

/-- The mean of FIX16 payloads as FLOAT32; of none it is free. -/
def meanF32 (l : List Nat) (f : Nat) : Nat :=
  if l.isEmpty then f % 2 ^ 32
  else
    let p : Int := (l.map fun v => signedOf 32 v).sum * 2 ^ 149
    nearF32 f p (l.length * 65536) (p.natAbs / 2 ^ 22)

/-- What the clock said of itself at an instant (R462): the entry in force then. -/
def clockAt (s : State) (tr : Nat) : ClockLog := (s.phm.clock.find? fun c => decide (c.tai ≤ tr)).getD (clockSays s)

/-- STAT of a report (R461, R462): the report is invalid, the ROCOF mean is short, samples and clock are global, TEST, PICKUP, a change
within 60 s. -/
def statOf (c : ClockLog) (inval tst short notGlobal pickup recent : Bool) : Nat :=
  (if inval then 3 else if tst then 2 else 0) * 2 ^ 14 + b2n notGlobal * 2 ^ 13 + b2n pickup * 2 ^ 11 + b2n recent * 2 ^ 10 +
    b2n short * 2 ^ 9 + c.stat * 2 ^ 4 + (if pickup then 2 else 0)

/-! ## The fault detector (R465, R466) -/

/-- |x|² of a FLOAT32 pair, in units of 2^-298. -/
def magSq (v : Nat × Nat) : Nat := (fInt v.1 * fInt v.1 + fInt v.2 * fInt v.2).toNat

/-- The difference of two pairs, and the sum of several, as integers in units of 2^-149, squared. -/
def diffSq (a b : Nat × Nat) : Nat :=
  ((fInt a.1 - fInt b.1) * (fInt a.1 - fInt b.1) + (fInt a.2 - fInt b.2) * (fInt a.2 - fInt b.2)).toNat
@[inherit_doc diffSq] def sumSq (l : List (Nat × Nat)) : Nat :=
  let re := (l.map fun v => fInt v.1).sum
  let im := (l.map fun v => fInt v.2).sum
  (re * re + im * im).toNat

/-- Squares against thresholds: raised, and below 0.9 times the threshold. -/
def reaches (sq th : Nat) : Bool := decide (fMag th * fMag th ≤ sq)
@[inherit_doc reaches] def below (sq th : Nat) : Bool := decide (100 * sq < 81 * (fMag th * fMag th))

/-- One report goes through the detector: its number, its instant in ns, the currents A, B, C. A report one cycle earlier that is not
there raises no change (log entry 146, DEDUCED). -/
def fdStep (p : State) (d : FdSt) (no tr : Nat) (i : List (Nat × Nat)) : FdSt :=
  let k := estRr p 0 / max 1 (f0Of p)
  let ipu := getF p PHM_FD_IPU.TH
  let old := d.hist.lookup ((no + 2 ^ 32 - k) % 2 ^ 32)
  let ph (j : Nat) : Bool :=
    reaches (magSq (nth (0, 0) i j)) ipu ||
      (match old with | some o => reaches (diffSq (nth (0, 0) i j) (nth (0, 0) o j)) (getF p PHM_FD_DIPU.TH) | none => false)
  let raised := [ph 0, ph 1, ph 2, reaches (sumSq i) (getF p PHM_FD_I0PU.TH)]
  let cnt := (raised.zipIdx).map fun r => if r.1 then nth 0 d.cnt r.2 + 1 else 0
  let first := (cnt.zipIdx).map fun c => if c.1 = 1 then tr else nth 0 d.first c.2
  let picks := cnt.map fun c => decide (getF p PHM_FD_CFG.PUN ≤ c) && decide (0 < c)
  let quiet := (i.all fun v => below (magSq v) ipu) && below (sumSq i) (getF p PHM_FD_I0PU.TH)
  let drop := if d.on && quiet then d.drop + 1 else 0
  let falls := d.on && decide (getF p PHM_FD_CFG.DON ≤ drop) && decide (d.rose + getF p PHM_FD_HOLD.MS * 1000000 ≤ tr)
  let rises := !d.on && picks.any id
  { hist := ((no, i) :: d.hist).take 128, cnt := cnt, first := first, drop := if falls then 0 else drop
    on := (d.on || rises) && !falls, rose := if rises then tr else d.rose
    mask := if falls then d.mask.map fun _ => false else if d.on || rises then (d.mask.zip picks).map fun x => x.1 || x.2 else d.mask
    no := if rises then (d.no + 1) % 65536 else d.no }

/-- The inception estimate in ns: the instant of the first report of the pickup run minus W/(2 f0) (R466). -/
def inception (p : State) (d : FdSt) (picked : List Bool) : Nat :=
  let runs := (d.first.zip picked).filterMap fun x => if x.2 then some x.1 else none
  runs.foldl min (runs.headD 0) - estW p 0 * 500000000 / f0Of p

/-- The pending record after a report: a rise makes a new one; the first report that lies wholly after the inception is the fault
report, and its V1 and I1 are kept (R466, R467). -/
def faultStep (p : State) (old new : FdSt) (r : Option FaultRec) (tr : Nat) (vi : List Nat) (good : Bool) : Option FaultRec :=
  let r := if !old.on && new.on then
      some { no := new.no, tinc := inception p new new.mask, tf := none, mask := new.mask, vi := [], good := false, at' := none }
    else r
  r.map fun r =>
    if r.tf.isNone && decide (r.tinc + estW p 0 * 1000000000 / f0Of p ≤ tr) then { r with tf := some tr, vi := vi, good := good } else r

/-! ## A run of an estimator (R458) -/

/-- The words of a result block before STAT is known: what a run obtains and computes, without PICKUP; and the currents A, B, C with the
mark of their quality. -/
structure Estimate where
  block : List TWord
  cur : List (Nat × Nat)
  curOk : Bool
  due : PhmDue

/-- A QUAL word of the block: own station, SYNC, class at the report instant (R458). -/
def estQual (s : State) (c : ClockLog) (glob : Bool) (m : Mark) : TWord :=
  mkT 10 (ownStn s * 2 ^ 24 + (if glob then 2 else 1) * 2 ^ 16 + c.cls * 2 ^ 14 + m.bits + m.val)

/-- The 16 bits at PHM_ESTe_DIG. -/
def digital (s p : State) (t e : Nat) : Nat :=
  if !isSet p (PHM_E_DIG.EN e) then 0
  else ((List.range 16).map fun i => if taskBit s t (getF p (PHM_E_DIG.ADDR e) + i) then 2 ^ i else 0).sum

/-- What an estimator's run computes (R456 to R462); `p` holds the run's registers, `f` gives free values. -/
def estimate (s p : State) (t e : Nat) (d : PhmDue) (win : List PhmSmp) (f : Nat → Nat) : Estimate :=
  let m := getF p (PHM_E_CFG.STREAM e)
  let k := corrOf s p e d.tr win
  let ph (c i : Nat) : Nat × Nat := chPhasor s t m c k win f (4 * i)
  let groups := estPhasors p e
  let vals := (groups.zipIdx).map fun g => match g.1 with
    | [c] => ph c c
    | cs => seqPhasor (cs.map fun c => ph c c) f (100 + 2 * g.2)
  let chs := (groups.flatMap id).eraseDups
  let c := clockAt s d.tr
  let glob := allGlobal win chs
  let late := spansChange s e win || firstAfter s e win
  let tst := anyTest win chs
  let common := (Mark.when late 1 0x100).or (Mark.when tst 0 0x800)
  let marks := groups.map fun g => common.or (chMark win g)
  let ups := updatesIn s win
  let lost := ups.isEmpty || ups.any fun u => u.qual % 4 != 0 && !isRange u
  let short := ups.any isRange
  let fm := common.or (Mark.when lost 1 0x80)
  let rm := fm.or (Mark.when short 3 0x200)
  let inval := late || lost || marks.any fun q => q.val == 1
  let recent := match nth none s.phm.changed e with
    | some t => decide (t ≤ d.tr) && decide (d.tr < t + 60 * secUnit)
    | none => false
  let stat := statOf c inval tst short (!glob || 2 ≤ c.cls) s.phm.fd.on recent
  let (hi, lo) := stampWords c.cls d.tr
  let q := estQual s c glob
  { block := [mkT 8 hi, mkT 7 lo, mkT 3 (c.frac * 2 ^ 16 + stat), mkT 9 d.no, mkT 5 (meanF32 (ups.map fun u => rneShr u.freq 8) (f 200)),
        mkT 5 (meanF32 ((ups.filter fun u => !isRange u).map (·.rocof)) (f 201)), q fm, q rm, mkT 3 (digital s p t e), mkT 3 0] ++
      (vals.zip marks).flatMap (fun v => [mkT 5 v.1.1, mkT 5 v.1.2, q v.2])
    cur := (seqIOf p e).map fun c => ph c c
    curOk := (chMark win (seqIOf p e)).val != 1 && !late
    due := d }

/-- STAT with PICKUP as it stands after the report (R462; log entry 146, DEDUCED). -/
def withPickup (on : Bool) (b : List TWord) : List TWord :=
  let w := (nth TWord.empty b 2).val.toNat
  let w := w - w % 16 - w / 2 ^ 11 % 2 * 2 ^ 11
  b.set 2 (mkT 3 (if on then w + 2 ^ 11 + 2 else w))

/-- Words that a library run obtains: the secondary takes the primary's (R190, R473). They go as results of QU REG_RD. -/
def libObtain (s : State) (t : Nat) : List TWord → List TWord × State
  | [] => ([], s)
  | v :: vs =>
    let (w, s) := obtain s t (0x1000 + 4 * 216) v
    let (ws, s) := libObtain s t vs
    (w :: ws, s)

/-- The library writes words at rising addresses as its task's stores would. -/
def libWords (s : State) (t : Nat) : Nat → List TWord → State
  | _, [] => s
  | a, w :: ws => libWords (moveWriteWord (rankCore s.core.cyc 9 0) s t a w) t (a + 1) ws

/-- The library writes bits as its task's bit writes would. -/
def libBits (s : State) (t : Nat) : Nat → List Bool → State
  | _, [] => s
  | a, b :: bs => libBits (moveWriteBit (rankCore s.core.cyc 5 0) s t a b) t (a + 1) bs

/-- A report of E0 passes through the fault detector (R465, R466): `n` is the size of its block, `ws` the block and the currents. -/
def fdReport (p s : State) (n : Nat) (ws : List TWord) : State :=
  let w (i : Nat) : Nat := (nth TWord.empty ws i).val.toNat
  let tr := pairNs (w 0) (w 1)
  let old := s.phm.fd
  let new := if w (n + 6) = 0 then old
    else fdStep p old (w 3) tr ((List.range 3).map fun j => (w (n + 2 * j), w (n + 2 * j + 1)))
  let at' (j : Nat) : Nat := 10 + 3 * (estNp p 0 - j)
  let vi := [w (at' 2), w (at' 2 + 1), w (at' 1), w (at' 1 + 1)]
  let good := w (at' 2 + 2) % 4 = 0 ∧ w (at' 1 + 2) % 4 = 0
  { s with phm := { s.phm with fd := new, fault := faultStep p old new s.phm.fault tr vi good } }

/-- The words of a report land, with those of the fault detector for E0 (R458, R465). -/
def libReport (p s : State) (r : LibRun) (n : Nat) (ws : List TWord) : State :=
  let e := r.fn
  let first := bitOf (nth TWord.empty ws 6).val.toNat 8 && firstAfter s e r.win
  let s := if first then { s with phm := { s.phm with owed := s.phm.owed.set e false } } else s
  if e = 0 && phmOn p 2 then
    let s := fdReport p s n ws
    let fd := s.phm.fd
    libBits (libWords s r.task (getF p (PHM_E_OADDR.ADDR e)) (withPickup fd.on (ws.take n))) r.task (getF p PHM_FD_CFG.BADDR)
      (fd.on :: fd.mask)
  else libWords s r.task (getF p (PHM_E_OADDR.ADDR e)) (ws.take n)

/-- A run of an estimator leaves its result block; E0's run takes the report through the fault detector (R449, R458, R465, R466). -/
def libEstimate (s : State) (r : LibRun) : State :=
  let p := withPrm s r.prm
  let own := r.due.map fun d => estimate s p r.task r.fn d r.win fun i => Config.freeValue (s.freeCtr + i)
  let n := estBlock p r.fn
  let cur := (own.map fun o => (o.cur.flatMap fun v => [mkT 5 v.1, mkT 5 v.2]) ++ [boolW o.curOk]).getD []
  let words := ((own.map (·.block)).getD [] ++ cur)
  let s := { s with freeCtr := s.freeCtr + 256 }
  let (go, s) := libObtain s r.task [boolW own.isSome]
  if (nth TWord.empty go 0).val.toNat = 0 then s
  else
    let (ws, s) := libObtain s r.task ((List.range (n + 7)).map fun i => nth TWord.empty words i)
    libReport p s r n ws

/-! ## A run of the locators (R467 to R470) -/

/-- A remote data frame for an instant (ns): SOC and FRACSEC name it (Table 16.5). -/
def frameFor (s : State) (tf : Nat) (p : List Byte) : Bool :=
  numAt p 6 4 == unsignedOf 32 (((tf / 1000000000 : Nat) : Int) - signedOf 16 (getF s TIM_UTC.TAI_UTC)) &&
    numAt p 11 3 == (tf % 1000000000 + 500) / 1000

/-- A complex number in units of 2^-149 from two codes; a product of two, in units of 2^-298. -/
def cxOf (re im : Nat) : Int × Int := (fInt re, fInt im)
@[inherit_doc cxOf] def cxMul (a b : Int × Int) : Int × Int := (a.1 * b.1 - a.2 * b.2, a.1 * b.2 + a.2 * b.1)

/-- m of R468 as a fraction: numerator, and a denominator that is not negative. -/
def faultM (p : State) (vs vr is' ir : Int × Int) : Int × Nat :=
  let z := cxMul (cxOf (getF p PHM_LOC_Z1RE.Z) (getF p PHM_LOC_Z1IM.Z)) (getF p PHM_LOC_LEN.M, 0)
  let a := cxMul z ir
  let k : Int := 1000 * 2 ^ 149
  let num := ((vs.1 - vr.1) * k + a.1, (vs.2 - vr.2) * k + a.2)
  let den := cxMul z (is'.1 + ir.1, is'.2 + ir.2)
  (num.1 * den.1 + num.2 * den.2, (den.1 * den.1 + den.2 * den.2).toNat)

/-- A distance in metres, p/q, clipped to the line: a FLOAT32 code within `tol` (q times metres) of it. -/
def distance (p : State) (f : Nat) (num : Int) (q tol : Nat) : Nat :=
  let len := getF p PHM_LOC_LEN.M
  let x := max 0 (min num (len * q : Nat))
  let c := nearF32 f (x * 2 ^ 149) q (tol * 2 ^ 149)
  if !fNeg c && decide (fMag c ≤ len * 2 ^ 149) then c else fRound (roundQ (x * 2 ^ 64) q) 64 false

/-- The phasor locator's distance and quality code (R468); `t` is the TAI at which the wait ends. A result that R468 calls neither good,
out of range nor late, because a phasor used is not good, is invalid without detail (log entry 148, DEDUCED). -/
def locPhasor (s p : State) (r : FaultRec) (t : Nat) (f : Nat) : Nat × Nat :=
  match r.tf, (s.phm.remote.find? fun x => decide (x.1 < t) && (r.tf.any fun tf => frameFor s tf x.2)) with
  | some _, some (_, fr) =>
    let ph (i : Nat) : Int × Int := cxOf (numAt fr (16 + 8 * i) 4) (numAt fr (20 + 8 * i) 4)
    let vr := ph (getF p PHM_LOC_RMT.RV1)
    let ir := ph (getF p PHM_LOC_RMT.RI1)
    let ir := if isSet p PHM_LOC_CFG.RINV then (-ir.1, -ir.2) else ir
    let (num, q) := faultM p (cxOf (nth 0 r.vi 0) (nth 0 r.vi 1)) vr (cxOf (nth 0 r.vi 2) (nth 0 r.vi 3)) ir
    let inside := decide (-2 * (q : Int) ≤ 100 * num) && decide (100 * num ≤ 102 * (q : Int)) && decide (0 < q)
    if !inside then (f % 2 ^ 32, 1 + 8)
    else (distance p f (num * getF p PHM_LOC_LEN.M) q (q - 1), if r.good && numAt fr 14 2 / 2 ^ 14 == 0 then 0 else 1)
  | _, _ => (f % 2 ^ 32, 1 + 0x80)

/-- The earliest stamp of the local capture ring within the search window: ns and class (R469, Table 15.8). -/
def localWave (s p : State) (t : Nat) (r : FaultRec) : Option (Nat × Nat) :=
  let base := getF s (FLD_WBASE.ADDR (getF p PHM_TWCFG.CPN)) + 52 + 16 * getF p PHM_TWCFG.CH
  let entries := (List.range 8).filterMap fun i =>
    let hi := taskWord s t (base + 2 * i)
    let lo := taskWord s t (base + 2 * i + 1)
    let ns := pairNs hi.val.toNat lo.val.toNat
    if hi.tag = 8 && lo.tag = 7 && decide (r.tinc ≤ ns + getF p PHM_TWWIN.PRE * 1000) &&
        decide (ns ≤ r.tinc + getF p PHM_TWWIN.POST * 1000) then some (ns, lo.val.toNat / 2 ^ 30) else none
  entries.foldl (fun b x => match b with | some y => if x.1 < y.1 then some x else b | none => some x) none

/-- The travelling-wave locator's distance and quality code (R469). A remote block whose stamp lies before the search has not arrived
for this fault (log entry 148, DEDUCED). -/
def locWave (s p : State) (t : Nat) (r : FaultRec) (own : Option (Nat × Nat)) (f : Nat) : Nat × Nat :=
  let a := getF p PHM_TWCFG.RADDR
  let hi := taskWord s t a
  let lo := taskWord s t (a + 1)
  let q := taskWord s t (a + 2)
  let tr := pairNs hi.val.toNat lo.val.toNat
  let reach := (getF p PHM_TWWIN.PRE + getF p PHM_TWWIN.POST) * 1000
  if !(hi.tag = 8 && lo.tag = 7 && q.tag = 10) || decide (tr + reach < r.tinc) then (f % 2 ^ 32, 1 + 0x80)
  else match own with
    | none => (f % 2 ^ 32, 1 + 0x100)
    | some (ts, cls) =>
      let dt : Int := (ts : Int) - tr
      let v := fMag (getF p PHM_TWV.V)
      let len := getF p PHM_LOC_LEN.M
      let ok := q.val.toNat % 4 == 0 && decide (cls ≤ 1) && decide (lo.val.toNat / 2 ^ 30 ≤ 1) && decide (tr ≤ r.tinc + reach) &&
        decide (dt.natAbs * v ≤ (len * 2 ^ 149 + v) * 1000)
      if ok then (distance p f ((len * 1000 * 2 ^ 149 : Nat) + v * dt) (2000 * 2 ^ 149) (len * 2000 * 2 ^ 127), 0)
      else (f % 2 ^ 32, 1 + 0x100)

/-- The stamp words of a time in ns. -/
def nsWords (cls ns : Nat) : List TWord := [mkT 8 (ns / 1000000000), mkT 7 (cls * 2 ^ 30 + ns % 1000000000)]

/-- The four words of the published travelling-wave block (R469). -/
def waveBlock (s : State) : List TWord :=
  match s.phm.wave with
  | some (ns, cls, no) => nsWords cls ns ++ [qualW s 0, mkT 9 no]
  | none => [mkT 8 0, mkT 7 0, qualW s (1 + 0x80), mkT 9 s.phm.fd.no]

/-- What the locators have for a fault at the instant `done` (R468 to R470): both enabled ones have a valid result, and the words of
their two results; `a` and `b` are free values. -/
def locResult (p s : State) (t : Nat) (q : FaultRec) (own : Option (Nat × Nat)) (done a b : Nat) : Bool × List TWord :=
  let x := if phmOn p 3 then locPhasor s p q done a else (0, 1)
  let y := if phmOn p 4 then locWave s p t q own b else (0, 1)
  ((!phmOn p 3 || x.2 == 0) && (!phmOn p 4 || y.2 == 0) && q.at'.isSome, [mkT 5 x.1, qualW s x.2, mkT 5 y.1, qualW s y.2])

/-- The end of a pending location (R470): its block, and the flag; the fault is done with. -/
def locEnd (p s : State) (t : Nat) (q : FaultRec) (res : List TWord) : State :=
  let abcg := ((q.mask.zipIdx).map fun x => if x.1 then 2 ^ x.2 else 0).sum
  let o := libObtain s t (nsWords (classNow s) q.tinc ++ mkT 9 q.no :: res ++ [mkT 1 abcg])
  let s := libWords { o.2 with phm := { o.2.phm with fault := none } } t (getF p PHM_LOC_OADDR.ADDR) o.1
  libBits s t (getF p PHM_LOC_CFG.DONEFLAG) [true]

/-- A run of the locators: it publishes the local stamp of the last fault, and completes the pending location when both enabled
locators have a valid result or the wait is over (R469, R470). -/
def libLocate (s : State) (r : LibRun) : State :=
  let p := withPrm s r.prm
  let t := r.task
  let f (i : Nat) : Nat := Config.freeValue (s.freeCtr + i)
  let s := { s with freeCtr := s.freeCtr + 2 }
  let own := s.phm.fault.bind (localWave s p t)
  let s := match s.phm.fault with
    | some q => { s with phm := { s.phm with wave := own.map fun x => (x.1, x.2, q.no) } }
    | none => s
  let (ws, s) := libObtain s t (waveBlock s)
  let s := if phmOn p 4 then libWords s t (getF p PHM_TWPUB.ADDR) ws else s
  match s.phm.fault with
  | none => s
  | some q =>
    let done := match q.at' with | some c => c + getF p PHM_LOC_CFG.WAIT * 1000000 * nsUnit | none => s.time.tai + 1
    let res := locResult p s t q own done (f 0) (f 1)
    let (go, s) := libObtain s t [boolW (res.1 || decide (done ≤ s.time.tai))]
    if (nth TWord.empty go 0).val.toNat = 0 then s else locEnd p s t q res.2

/-- What a run of the library leaves in its working store (R451). -/
def libStore (s : State) (t : Nat) : State :=
  let l := Config.libraryStore s.freeCtr
  l.foldl (fun s x => moveWriteWord (rankCore s.core.cyc 9 0) s t (0x7C000 + x.1 % 0x2000) (mkT x.2.1 x.2.2))
    { s with freeCtr := s.freeCtr + 1 }

/-- The runs of the library in a task end: what they leave lands with the END cycle (log entry 143). -/
def libEnd (s : State) (t : Nat) : State :=
  (s.phm.runs.filter fun r => r.task == t).foldl (fun s r => libStore (if r.fn < 2 then libEstimate s r else libLocate s r) t) s

end Sys2Proof.Machine
end

