-- ==== Sys2Proof/Machine/Scan.lean ====
section
/-!
DEFINITION. Tasks, triggers, freeze, END, commit and the output map (spec/08_scan_and_image.md), the unit's own requests to
other stations (spec/18_command_protocol.md, R520, R521), and the divergence of a replica (spec/10_hot_standby.md, R290).
-/

namespace Sys2Proof.Machine

open Reg

/-! ## Requests to a station (R507, R521) -/

/-- A ZCP request with session 0 to a station, as a UDP datagram through the ports of its directory entry on a queue, under the
unit's own sequence number: whether it was sent, and the number. -/
def stnRequest (s : State) (stn queue opcode : Nat) (data : List Byte) : Bool × Nat × State :=
  let seq := s.zcp.ownSeq
  let s := { s with zcp := { s.zcp with ownSeq := (seq + 1) % 2 ^ 32 } }
  let v4 := getF s (SYS_DIR_IP4.IPV4 stn)
  let v6 := (List.range 4).map fun j => getF s (SYS_DIR_IP6.IPV6 stn j)
  let is6 := v4 == 0
  if !isSet s ZCP_CFG.UDP_EN || (is6 && v6.all (· == 0)) then (false, seq, s)
  else
    let dst := if is6 then v6.flatMap (beBytes 4) else beBytes 4 v4
    let bytes := udpFrame s (stnMac s stn) (ownIp s is6) dst is6 47121 47121 (zcpPacket 0 0 seq opcode 0 data)
    let (ok, s) := egrSend s (getF s (SYS_DIR_CTRL.PORTS stn)) queue
      { origin := 0, bytes := bytes, slot := none, ptp := false, post := [], tc := none } true
    (ok, seq, s)

/-! ## Divergence (R290) -/

/-- The replica stops: runs in progress end without commit and received events are dropped, until a transfer (R290, R306; log
entry 42). -/
def replayStop (s : State) : State :=
  let s := cancelDeferred (allTasks s fun s t => updTask s t fun k =>
    { k with st := .idle, fin := .no, held := none, capB := [], capW := [] })
  setF { s with sby := { s.sby with replaying := false, events := [], ends := [], extQueue := [], lagRef := none } } SBY_LAGNOW.US 0

/-- DIVERGENCE of a cause of Table 10.5 for a task. -/
def diverge (s : State) (cause t : Nat) : State :=
  let s := setFs s [(SBY_STAT.DIVERGENCE, 1), (SBY_STAT.SYNC, 0)]
  let s := if isSet s SBY_DIVREC0.VALID then s
    else setFs s [(SBY_DIVREC0.VALID, 1), (SBY_DIVREC0.CAUSE, cause), (SBY_DIVREC0.TASK, t),
      (SBY_DIVREC1.SCAN, (task s t).scan)]
  let s := pulse (raise (incSat s SBY_CNT.DIVERGE SBY_STAT.DIV_OVF) SBY_STAT.DIVERGENCE) 0x30804
  if s.mode == .track then
    let s := replayStop s
    if getF s SBY_CFG.DIV_POL = 1 then requestXfer s else { s with sby := { s.sby with marked := true } }
  else s

/-! ## Triggers (R217, R218, R225, R226) -/

/-- What the scheduler notes of a trigger that falls now. -/
def trigNow (s : State) (k : Nat) (late : Bool) : TrigInfo :=
  { cyc := s.plumb.cyc, ang := plbAngle s, tai := s.time.tai, k := k, late := late, freerun := isSet s PLB_STAT.FREERUN }

/-- A run of the task is in progress (R214). -/
def inProgress (s : State) (t : Nat) : Bool := (task s t).st != .idle

/-- The task becomes PENDING with a trigger. -/
def setPending (s : State) (t : Nat) (i : TrigInfo) : State :=
  updTask s t fun k => { k with st := .pending, trig := i }

/-- A trigger of a task is accepted, dropped or held (R225, R226). -/
def acceptTrigger (s : State) (t : Nat) (i : TrigInfo) : State :=
  if s.ms.stopPending then countSkip s t
  else if !inProgress s t then trcScan (streamEv (setPending s t i) (.trig t i)) t 1
  else
    let s := trcScan (setF s (SCN_TSTAT.OVERRUN t) 1) t 7
    match getF s (SCN_TCFG.OVR t) with
    | 1 =>
      if (task s t).held.isSome then countSkip s t
      else
        let j := { i with late := true }
        let s := streamEv (updTask s t fun k => { k with held := some j }) (.trig t j)
        trcScan (incSat s (SCN_CNT.LATE t) (SCN_TSTAT.LATE_OVF t)) t 6
    | 2 => halt s 1
    | _ => countSkip s t

/-- Triggers of the unit's own scheduler are armed for a task and a kind (R214, R217, R237). -/
def armed (s : State) (t kind : Nat) : Bool :=
  t < 8 && (s.mode == .run || s.mode == .runEdit) && isSet s (SCN_TCFG.EN t) && getF s (SCN_TCFG.TRIG t) == kind

/-- A forward step of the clock lies one or two cycles back: the TAI before it and after it (R218). -/
def justStepped (s : State) : Option (Nat × Nat) :=
  match s.time.skipped with
  | some (a, b) => if s.time.tai ≤ b + 2 * taiStep s then some (a, b) else none
  | none => none

/-- Period instants of a task after TAI a and not after TAI b (Table 8.2). -/
def instantsIn (s : State) (t a b : Nat) : Nat :=
  let unit := 250 * nsUnit
  let p := getF s (SCN_PERIOD.PERIOD t) * unit
  let ph := getF s (SCN_PHASE.PHASE t) * unit
  let upTo (x : Nat) : Nat := if x < ph then 0 else (x - ph) / p + 1
  if p = 0 then 0 else upTo b - upTo a

/-- The TAI of the last period instant of a task not after TAI b (Table 8.2). -/
def instantBefore (s : State) (t b : Nat) : Nat :=
  let unit := 250 * nsUnit
  let p := getF s (SCN_PERIOD.PERIOD t) * unit
  let ph := getF s (SCN_PHASE.PHASE t) * unit
  if p = 0 ∨ b < ph then 0 else ph + (b - ph) / p * p

/-- Instants up to the given one have fired: none of them fires again (R218). -/
def noteInstant (s : State) (t b : Nat) : State := updTask s t fun k => { k with lastInst := some b }

/-- TRIGGER_PERIOD (R217, R218, R225): a period instant is reached by the end of this cycle, or a forward step has passed some; then
the trigger is LATE and the other instants count as SKIP. Without such an instant nothing falls. -/
def execTriggerPeriod (task : Nat) (s : State) : Host.Outcome State Fault Refusal :=
  .next (if !armed s task 0 then s
    else
      let from' (a : Nat) : Nat := match (Machine.task s task).lastInst with | some l => max a l | none => a
      let fall (b n : Nat) (late : Bool) : State :=
        let s := noteInstant s task (instantBefore s task b)
        let s := (List.range (n - 1)).foldl (fun s _ => countSkip s task) s
        acceptTrigger s task (trigNow s 0 late)
      let (a, b) := (justStepped s).getD (0, 0)
      let n := instantsIn s task (from' a) b
      let next := (clockAdvance s).time.tai
      if 0 < n then fall b n true
      else if 0 < instantsIn s task (from' s.time.tai) next then fall next 1 false
      else s)

/-- Angle of position i of a task (Table 8.2). -/
def positionAngle (s : State) (t i : Nat) : Nat :=
  (getF s (SCN_AOFS.AOFS t) + i * 2 ^ 32 / getF s (SCN_ANG.N t)) % 2 ^ 32

/-- The position of the set that Plumb's angle reaches by the end of this cycle (R57, R217). -/
def reachedPosition (s : State) (t : Nat) : Option Nat :=
  let n := getF s (SCN_ANG.N t)
  let now := plbAngle s
  let step := (plbAngle (clockAdvance s) + 2 ^ 32 - now) % 2 ^ 32
  ((List.range (getF s (SCN_ANG.COUNT t))).map fun j => (getF s (SCN_ANG.FIRST t) + j) % n).find? fun i =>
    let d := (positionAngle s t i + 2 ^ 32 - now) % 2 ^ 32
    0 < d && d ≤ step

/-- The mark of a task whose angle trigger has fallen in this cycle. -/
def angleMark (t : Nat) : Nat := 300 + t

/-- TRIGGER_ANGLE (R217, R225): an angle position is reached by the end of this cycle. Without one nothing falls. -/
def execTriggerAngle (task : Nat) (s : State) : Host.Outcome State Fault Refusal :=
  .next (if !armed s task 1 || s.core.firedNow.contains (angleMark task) then s
    else match reachedPosition s task with
      | some k => acceptTrigger (addMark s (angleMark task)) task (trigNow s k false)
      | none => s)

/-- TRIGGER_EDGE (R217, R225): `old` is the watched bit at the start of the cycle before. -/
def execTriggerEdge (task : Nat) (old : Bool) (s : State) : Host.Outcome State Fault Refusal :=
  .next (if !armed s task 2 then s
    else
      let a := getF s (SCN_EDGE.ADDR task)
      let (b, s) := readBit s 1 a
      let s := if 0x20000 ≤ a ∧ a < 0x40000 then (obtainBit s task a b).2 else s
      let pol := getF s (SCN_EDGE.POL task)
      if (bitOf pol 0 && !old && b) || (bitOf pol 1 && old && !b) then acceptTrigger s task (trigNow s 0 false) else s)

/-- HELD_TRIGGER_RELEASE (R225, R226): the run in progress has ended. -/
def execHeldTriggerRelease (task : Nat) (s : State) : Host.Outcome State Fault Refusal :=
  .next (match (Machine.task s task).held with
    | some i =>
      if inProgress s task || s.ms.stopPending || !inMode s runModes then s
      else updTask (setPending s task i) task fun k => { k with held := none }
    | none => s)

/-! ## Ranges of the spaces -/

/-- The keys of a range are copied from one map to another, `shift` higher. -/
def copyRange {α : Type} [DecidableEq α] (d : α) (lo hi shift : Nat) (src dst : List (Nat × α)) : List (Nat × α) :=
  (src.filter fun p => decide (lo ≤ p.1) && decide (p.1 < hi)).foldl (fun m p => sset d m (p.1 + shift) p.2)
    (sclear (lo + shift) (hi + shift) dst)

/-- The keys of a range that differ between two maps, less `shift`, with the new value. -/
def deltaRange {α : Type} [DecidableEq α] (d : α) (lo hi shift : Nat) (old new : List (Nat × α)) : List (Nat × α) :=
  let inR (p : Nat × α) : Bool := decide (lo + shift ≤ p.1) && decide (p.1 < hi + shift)
  (new.filter fun p => inR p && decide (sget d old p.1 ≠ p.2)).map (fun p => (p.1 - shift, p.2)) ++
    (old.filter fun p => inR p && decide (sget d new p.1 = d)).map fun p => (p.1 - shift, d)

/-! ## Freeze (R136, R141, R215, R221, R285) -/

/-- The locations of a range that carry an error are checked (R152, R153). -/
def checkRange (finder : Nat) (s : State) (w : Win) : State :=
  s.sp.upsets.foldl (fun s u =>
    let a := u.1.2
    if w.word then
      (if u.1.1 == .words && decide (w.addr ≤ a) && decide (a < w.addr + w.len) then (readWord s finder a).2 else s)
    else if u.1.1 == .bits && decide (w.addr < a + 64) && decide (a < w.addr + w.len) then checkRow s finder a else s) s

/-- The overlay on a word (R141). -/
def overlayWord (s : State) (v : TWord) : TWord :=
  let x := v.val.toNat
  let stn := x / 2 ^ 24
  if v.tag = 10 ∧ stn ≠ ownStn s ∧ !rawBit s (stnBit stn 0) then
    mkT 10 ((x ||| 0x80) ||| (if x % 4 = 0 then 3 else 0))
  else v

/-- An input window is copied into the task's plane, with the overlay. -/
def freezeWin (s : State) (t : Nat) (w : Win) : State :=
  let hi := w.addr + w.len
  if w.word then
    let lay := s.sp.words.filterMap fun p =>
      if decide (w.addr ≤ p.1) && decide (p.1 < hi) then some (p.1, overlayWord s p.2) else none
    let inW (m : MemId) (l : Nat) : Bool := m == .planeW && decide (planeKeyW t w.addr ≤ l) && decide (l < planeKeyW t hi)
    eccWipe inW (useWords { s with sp := { s.sp with
      planeW := copyRange TWord.empty w.addr hi (16384 * t) lay s.sp.planeW } })
  else
    let inB (m : MemId) (l : Nat) : Bool := m == .planeB && decide (planeKeyB t w.addr ≤ l) && decide (l + 64 ≤ planeKeyB t hi)
    eccWipe inB { s with sp := { s.sp with planeB := copyRange false w.addr hi (65536 * t) s.sp.bits s.sp.planeB } }

/-- The task's context starts its run: state RUNNING, PC, guard aliases and tag policy (R107, R144, R215, R221). -/
def startRun (s : State) (t scan tai : Nat) : State :=
  let s := libFreeze s t
  let s := updTask s t fun k =>
    { k with
        st := .running
        scan := scan
        frzTai := tai
        frzCls := classNow s
        frzCyc := s.core.cyc
        issued := false
        fin := .no
        capB := []
        capW := [] }
  let c := s.core
  let s := { s with core := { c with
      pcs := c.pcs.set t (getF s (SCN_TCFG.ENTRY t))
      pol := c.pol.set t (bitsOf (getF s CORE_TAGPOL.POL) (2 * t) 2)
      gal := c.gal.set t ((List.range 15).map fun i => getF s (CORE_GAL.ADDR i)) } }
  trcScan s t 2

/-- A freeze of the unit's own scheduler. -/
def freeze (s : State) (t : Nat) : State :=
  let ws := winEntries s t false
  let old := s.sp
  let s := ws.foldl (checkRange 1) s
  let s := ws.foldl (fun s w => freezeWin s t w) s
  let scan := ((task s t).scan + 1) % 2 ^ 64
  let s := startRun s t scan s.time.tai
  if s.sby.streaming then
    let bits := ws.flatMap fun w => if w.word then [] else
      deltaRange false w.addr (w.addr + w.len) (65536 * t) old.planeB s.sp.planeB
    let words := ws.flatMap fun w => if w.word then
      deltaRange TWord.empty w.addr (w.addr + w.len) (16384 * t) old.planeW s.sp.planeW else []
    streamEv s (.freeze t scan s.time.tai bits words)
  else s

/-- A task waits for its freeze: it is PENDING and enabled. One that an effect has disabled while it was PENDING neither runs nor
holds another back (R214; log entry 127, DEDUCED). -/
def waits (s : State) (t : Nat) : Bool := (task s t).st == .pending && isSet s (SCN_TCFG.EN t)

/-- The task that is selected for a freeze (R215): the lowest-numbered one that waits for it, or is RUNNING before its END. -/
def selected (s : State) : Option Nat :=
  match (List.range 8).find? fun t => waits s t || (task s t).st == .running with
  | some t => if waits s t then some t else none
  | none => none

/-! ## The output map (R223, R228 to R234) -/

/-- An entry of the output map. -/
structure OMap where
  m : Nat
  kind : Nat
  word : Bool
  len : Nat
  src : Nat
  target : Nat
  daddr : Nat
  deriving DecidableEq, Repr

/-- Entry m as its registers hold it, when enabled. -/
def omapEntry (s : State) (m : Nat) : Option OMap :=
  let k := getF s (SCN_OMAP_SRC.KIND m)
  if k = 0 ∨ 4 < k then none
  else some { m := m, kind := k, word := isSet s (SCN_OMAP_SRC.WORD m), len := getF s (SCN_OMAP_SRC.LENM1 m) + 1,
              src := getF s (SCN_OMAP_SRC.ADDR m), target := getF s (SCN_OMAP_DST.TARGET m),
              daddr := getF s (SCN_OMAP_DST.DADDR m) }

/-- The enabled entries. -/
def omapEntries (s : State) : List OMap := (List.range 64).filterMap (omapEntry s)

/-- An entry's source lies in a task's output window. -/
def covers (s : State) (t : Nat) (e : OMap) : Bool :=
  inOutWindow s t e.word e.src e.len

/-- The source bits and words of an entry in the committed image. -/
def srcBits (s : State) (e : OMap) : List Bool := (List.range e.len).map fun i => sget false s.scan.imgB (e.src + i)
@[inherit_doc srcBits] def srcWords (s : State) (e : OMap) : List TWord :=
  (List.range e.len).map fun i => sget TWord.empty s.scan.imgW (e.src + i)

/-- Bits packed eight to a byte, the first lowest. -/
def packBits (l : List Bool) : List Byte :=
  (List.range ((l.length + 7) / 8)).map fun i =>
    BitVec.ofNat 8 (((List.range 8).map fun j => if l.getD (8 * i + j) false then 2 ^ j else 0).sum)

/-- A posted write of an entry. -/
def postedOf (s : State) (t : Nat) (e : OMap) (ref : Nat) : Posted :=
  { mapEntry := e.m, kind := e.kind, target := e.target, daddr := e.daddr, task := t, scan := (task s t).scan, ref := ref }

/-- The state with a posted write whose outcome is to come. -/
def addPosted (s : State) (p : Posted) : State := { s with scan := { s.scan with posted := s.scan.posted ++ [p] } }

/-- A FIELD entry: the commanded state goes with the next frames, without SAFE (R70, R228). -/
def sendField (s : State) (t : Nat) (e : OMap) : State :=
  updHub (addPosted s (postedOf s t e 0)) (e.target % 8) fun h => { h with live := true }

/-- The parameters of an IMG_WRITE (R520). -/
def imgWriteData (s : State) (t : Nat) (e : OMap) : List Byte :=
  beBytes 2 (getF s SYS_STATION.SYSTEM_ID) ++ beBytes 1 (ownStn s) ++ beBytes 2 (getF s SBY_EPOCH.OWN) ++ beBytes 1 t ++
    beBytes 8 (task s t).scan ++ beBytes 1 e.m ++ beBytes 1 (b2n e.word) ++ beBytes 4 e.daddr ++ beBytes 2 e.len ++
    (if e.word then (srcWords s e).flatMap fun w => beBytes 1 w.tag.toNat ++ beBytes 4 w.val.toNat
      else packBits (srcBits s e))

/-- A STATION entry is sent, or fails with LOCAL_FULL. -/
def sendStation (s : State) (t : Nat) (e : OMap) : State :=
  let (ok, seq, s) := stnRequest s e.target (getF s SCN_PWCFG.QUEUE) 0x0103 (imgWriteData s t e)
  if ok then
    let r : OwnReq := { station := e.target, seq := seq, opcode := 0x0103, mapEntry := e.m, task := t, scan := (task s t).scan }
    addPosted { s with zcp := { s.zcp with outstanding := s.zcp.outstanding ++ [r] } } (postedOf s t e seq)
  else postedFail s (postedOf s t e seq) 7

/-- The element values that a PUBLISH entry feeds (R359). -/
def elemVals (s : State) (e : OMap) : List (Nat × List Byte) :=
  if e.word then (srcWords s e).zipIdx.map fun p => (e.daddr + p.2, beBytes 4 p.1.val.toNat)
  else (srcBits s e).zipIdx.map fun p => (e.daddr + p.2, [if p.1 then 0xFF else 0x00])

/-- The object bytes that a BUS entry gives (R381): bytes with the bits of the entry, over those the object holds. -/
def busBytes (s : State) (e : OMap) : List (Nat × Byte) :=
  if e.word then (srcWords s e).zipIdx.flatMap fun p => (leBytes p.1.val.toNat).zipIdx.map fun q => (e.daddr + 4 * p.2 + q.2, q.1)
  else
    let n := e.target / 32
    let j := e.target % 32
    let cur (i : Nat) : Nat := getF s (CAN_OBJ_DATA.W n j (i / 4)) / 256 ^ (i % 4) % 256
    (packBits (srcBits s e)).zipIdx.map fun p =>
      let i := e.daddr + p.2
      let m := min 8 (e.len - 8 * p.2)
      (i, BitVec.ofNat 8 (cur i / 2 ^ m * 2 ^ m + p.1.toNat % 2 ^ m))

/-- The entries that a commit covers are handed to their destinations in map-entry order; entries of one publisher slot, and of
one bus object, act together at the first of them. `all` are the entries handed on. -/
def sendEntries (s : State) (t : Nat) (change : Bool) (all : List OMap) : State :=
  all.foldl (fun s e =>
    let same := all.filter fun f => f.kind == e.kind && f.target == e.target
    let first := (same.map (·.m)).head? == some e.m
    match e.kind with
    | 1 => sendField s t e
    | 2 => sendStation s t e
    | 3 => if first then publish s (e.target % 16) (same.flatMap (elemVals s)) (same.map fun f => postedOf s t f 0) change
      else s
    | _ =>
      if first && e.target < 64 then
        objRequest (same.foldl (fun s f => objWrite s (f.target / 32) (f.target % 32) (busBytes s f)) s)
          (e.target / 32) (e.target % 32) (same.map fun f => postedOf s t f 0)
      else s) s

/-- What becomes of the STATION entries of a station at a commit that covers one of them (R233, R234): sent as covered, not sent
(HELD sets), or all sent in full (HELD and REARM clear). -/
inductive StnAct where
  | send | hold | rearm
  deriving DecidableEq, Repr

/-- The decision for a station, from its bits at the start of the commit cycle. -/
def stnAct (s : State) (stn : Nat) : StnAct :=
  let was (o : Nat) : Bool := sget false s.scan.stnStart (stnBit stn o)
  if !was 0 then .hold
  else if !was 2 then .send
  else if isSet s (SYS_DIR_CTRL.REARM_AUTO stn) || was 3 then .rearm
  else .hold

/-- HELD and REARM of a station after a commit. -/
def stnMark (s : State) (stn : Nat) : State :=
  match stnAct s stn with
  | .send => s
  | .hold => devBit s (stnBit stn 2) true
  | .rearm => devBit (devBit s (stnBit stn 2) false) (stnBit stn 3) false

/-- Every covered entry is handed on (R223, R233, R234, case 12). -/
def handOn (s : State) (t : Nat) (change : Bool) (cov : List OMap) : State :=
  let all := omapEntries s
  let goes (e : OMap) : Bool :=
    if e.kind = 2 then
      (match stnAct s e.target with
      | .send => cov.any fun c => c.m == e.m
      | .hold => false
      | .rearm => cov.any fun c => c.kind == 2 && c.target == e.target)
    else cov.any fun c => c.m == e.m
  let out := all.filter goes
  let stns := ((cov.filter fun c => c.kind == 2).map (·.target)).eraseDups
  sendEntries (stns.foldl stnMark s) t change out

/-! ## Commit (R222, R223, R237) -/

/-- The output window of a task is captured from the working copy, its words and rows checked (R152, R153, R222). The spec names no
finder for this access: the core is recorded (log entry 128, DESIGN CHOICE). -/
def capture (s : State) (t : Nat) : State :=
  let s := (winEntries s t true).foldl (checkRange 0) s
  (winEntries s t true).foldl (fun s w =>
    updTask s t fun k =>
      if w.word then { k with capW := copyRange TWord.empty w.addr (w.addr + w.len) 0 s.sp.words k.capW }
      else { k with capB := copyRange false w.addr (w.addr + w.len) 0 s.sp.bits k.capB }) s

/-- The capture of a task goes into the committed image (R223). -/
def imageCommit (s : State) (t : Nat) : State :=
  (winEntries s t true).foldl (fun s w =>
    if w.word then { s with scan := { s.scan with
      imgW := copyRange TWord.empty w.addr (w.addr + w.len) 0 (task s t).capW s.scan.imgW } }
    else { s with scan := { s.scan with
      imgB := copyRange false w.addr (w.addr + w.len) 0 (task s t).capB s.scan.imgB } }) s

/-- The commit of a task's capture: image, map, report, the run's end (R223, R463; in TRACK and TAKEOVER the image only, R237). -/
def commit (s : State) (t : Nat) (late : Bool) : State :=
  let s := imageCommit s t
  let launch := getF s (SCN_TCFG.CMODE t) != 0
  let cov := (omapEntries s).filter (covers s t)
  let s := if s.mode == .run || s.mode == .runEdit then handOn s t false cov
    else { s with sby := { s.sby with committedSince :=
      ((cov.filter fun e => e.kind == 1).map (·.target) ++ s.sby.committedSince).eraseDups } }
  let s := phmCommit s t
  let s := if late then setF s (SCN_TSTAT.LATE_COMMIT t) 1 else s
  let s := updTask s t fun k => { k with st := .idle, capB := [], capW := [] }
  if launch then trcScan (streamEv s (.commit t)) t 4 else s

/-- Pair (c, a) is equal to or past (c0, a0) (R47, R57). -/
def pairPast (c a c0 a0 : Nat) : Bool := newer c c0 || (c % 2 ^ 32 == c0 % 2 ^ 32 && decide (a0 ≤ a))

/-- The launch of a run has been reached in a state (R222). -/
def launchReached (s : State) (t : Nat) : Bool :=
  let i := (task s t).trig
  let ofs := getF s (SCN_LOFS.LOFS t)
  match getF s (SCN_TCFG.CMODE t) with
  | 1 => pairPast s.plumb.cyc (plbAngle s) (i.cyc + (i.ang + ofs) / 2 ^ 32) ((i.ang + ofs) % 2 ^ 32)
  | 2 => i.tai + ofs * nsUnit ≤ s.time.tai
  | _ => true

/-! ## END (R185, R222, R227, R288) -/

/-- One byte into the CRC-64 of R288. -/
def crc64Byte (c : Nat) (b : Byte) : Nat :=
  (List.range 8).foldl (fun x _ => if x % 2 = 1 then (x / 2) ^^^ 0xC96C5795D7870F42 else x / 2) (c ^^^ b.toNat)

/-- The output hash of a run's capture. -/
def outputHash (s : State) (t : Nat) : Nat :=
  let bytes := (winEntries s t true).flatMap fun w =>
    if w.word then (List.range w.len).flatMap fun i =>
      let v := sget TWord.empty (task s t).capW (w.addr + i)
      leBytes v.val.toNat ++ [BitVec.ofNat 8 v.tag.toNat]
    else packBits ((List.range w.len).map fun i => sget false (task s t).capB (w.addr + i))
  bytes.foldl crc64Byte (2 ^ 64 - 1) ^^^ (2 ^ 64 - 1)

/-- SCN_RUNLENt takes a run's length (R227). -/
def runLength (s : State) (t : Nat) : State :=
  let len := s.core.cyc - (task s t).frzCyc + 1
  let s := setF s (SCN_RUNLEN.LAST t) (min len 0xFFFF)
  let s := if getF s (SCN_RUNLEN.MAX t) < len then setF s (SCN_RUNLEN.MAX t) (min len 0xFFFF) else s
  if 0xFFFF < len then setF s (SCN_TSTAT.RUN_OVF t) 1 else s

/-- END fires for a task (R185): its run ends with the present cycle. -/
def fireEnd (s : State) (t : Nat) (nocommit : Bool) : State :=
  if (task s t).st != .running || (task s t).fin != .no then s
  else
    let s := trcScan (runLength s t) t (if nocommit then 8 else 3)
    updTask s t fun k => { k with fin := .fromEnd nocommit }

/-- The run of a task ends at the end of its END cycle: the capture, then the commit now or at its launch (R222, R288; case 4). -/
def endNow (s : State) (t : Nat) (nocommit : Bool) : State :=
  let s := libEnd s t
  let s := if nocommit then s else capture s t
  let hash := if nocommit || !(s.sby.streaming || replica s) then 0 else outputHash s t
  let s := if replica s then { s with sby := { s.sby with ends := s.sby.ends ++ [(t, s.sby.rcyc, nocommit, hash)] } }
    else streamEv s (.taskEnd t nocommit hash)
  if nocommit then updTask s t fun k => { k with st := .idle }
  else if getF s (SCN_TCFG.CMODE t) = 0 then commit s t false
  else if replica s then updTask s t fun k => { k with st := .launchWait }
  else if launchReached s t then commit s t true
  else if launchReached (clockAdvance s) t then commit s t false
  else updTask s t fun k => { k with st := .launchWait }

/-- The launch instant of a task lay in a forward step of the clock. -/
def launchStepped (s : State) (t : Nat) : Bool :=
  match justStepped s with
  | some (a, b) =>
    let l := (task s t).trig.tai + getF s (SCN_LOFS.LOFS t) * nsUnit
    getF s (SCN_TCFG.CMODE t) == 2 && decide (a < l) && decide (l ≤ b)
  | none => false

/-- A forward step of the clock in this cycle has passed a TAI: what it makes due comes in the next cycle (R218, R222; case 2 of
chapter 2). -/
def steppedNow (s : State) (t : Nat) : Bool :=
  match s.time.skipped with
  | some (a, b) => s.time.tai == b && decide (a < t) && decide (t ≤ b)
  | none => false

/-- The launch of a capture comes in this cycle (R57, R222): in LAUNCH_WAIT, at an angle or instant that the cycle's end reaches. A
replica's commits come from its partner (R289). -/
def launchDue (s : State) (t : Nat) : Bool :=
  (task s t).st == .launchWait && (task s t).fin == .no && (s.mode == .run || s.mode == .runEdit) &&
    launchReached (clockAdvance s) t &&
    !(getF s (SCN_TCFG.CMODE t) == 2 && steppedNow s ((task s t).trig.tai + getF s (SCN_LOFS.LOFS t) * nsUnit))

/-- LAUNCH_COMMIT (R222): a capture in LAUNCH_WAIT whose launch comes in this cycle commits at the cycle's end; LATE_COMMIT sets when
a step has passed the launch. -/
def execLaunchCommit (task : Nat) (s : State) : Host.Outcome State Fault Refusal :=
  .next (if launchDue s task then updTask s task fun k => { k with fin := .fromLaunch (launchStepped s task) } else s)

/-- The runs that end with the present cycle end, in task order (R214, R222). -/
def endRuns (s : State) : State :=
  allTasks s fun s t =>
    let f := if launchDue s t then .fromLaunch (launchStepped s t) else (task s t).fin
    let s := updTask s t fun k => { k with fin := .no }
    match f with
    | .no => s
    | .fromEnd nc => endNow s t nc
    | .fromLaunch late => commit s t late

/-- STATION_ACK_TIMEOUT (R230): no acknowledgement of the IMG_WRITE of a sequence number has come within ACK_TMO. -/
def execStationAckTimeout (seq : Nat) (s : State) : Host.Outcome State Fault Refusal :=
  .next (if s.zcp.outstanding.any fun r => r.seq == seq && r.opcode == 0x0103 then
      let s := { s with zcp := { s.zcp with outstanding := s.zcp.outstanding.filter fun r =>
        !(r.seq == seq && r.opcode == 0x0103) } }
      postedDone s (fun p => p.kind == 2 && p.ref == seq) (some 4)
    else s)

end Sys2Proof.Machine
end

