-- ==== Sys2Proof/Machine/Fire.lean ====
section
/-!
DEFINITION. What a trigger does when it fires (spec/06_units.md, spec/07_decode_table.md): checks, faults, results and effects
of every unit, operations in flight, and the conditions under which a unit is free (spec/04_move_engine.md, R117, R629).
-/

namespace Sys2Proof.Machine

open Reg

/-! ## The decode table (R193 to R196) -/

/-- Word w of entry n: words 0 to 3 the descriptor, 4 to 35 the micro-moves. -/
def dtF (n w : Nat) : Fld := ⟨0x50000000 + 4 * (36 * n + w), 0, 32, .rwt, 0⟩

/-- The value of a word of an entry. -/
def dtWord (s : State) (n w : Nat) : Nat := getF s (dtF n w)

/-- K, the number of micro-moves of an entry, and its latency (Table 7.1). -/
def entryK (s : State) (e : Nat) : Nat := bitsOf (dtWord s e 0) 8 5 + 1
@[inherit_doc entryK] def entryLat (s : State) (e : Nat) : Nat := bitsOf (dtWord s e 0) 16 6

/-- The micro-move words of an entry in force. -/
def entryWords (s : State) (e : Nat) : List Nat := (List.range (entryK s e)).map fun m => dtWord s e (4 + m)

/-- The micro-moves of a list of words; the payload of a long immediate is none (R196). -/
def microMoves (ws : List Nat) : List (Option Move) :=
  (ws.foldl (fun (acc : List (Option Move) × Bool) w =>
    if acc.2 then (acc.1 ++ [none], false)
    else (acc.1 ++ [some (Move.ofWord w)], (Move.ofWord w).src == 1)) ([], false)).1

/-- An entry uses PHU0 (R201). -/
def entryUsesPhu (s : State) (e : Nat) : Bool :=
  (microMoves (entryWords s e)).any fun m => match m with
    | some m => isTrig m.dst && m.dst / 16 == 8
    | none => false

/-- The entry that an EXEC names, with the selector it carries (R186, R202). -/
def execEntry (d : Deferred) : Nat := if d.dst % 16 = 5 then d.sel else d.dst % 16 - 6

/-- The unit that micro-move 0 of an entry triggers: every scratch register reads 0 then (R195, R198). -/
def firstUnit (s : State) (e : Nat) : Option Nat :=
  match (microMoves (entryWords s e)).head? with
  | some (some m) => if isTrig m.dst && m.dst / 16 != 15 && ((m.gidx == 15) != m.inv) then some (m.dst / 16) else none
  | _ => none

/-- A register of a MAC bank. -/
def macGet (r : MacRun) (k : Nat) : TWord := sget TWord.empty r.regs k

/-- The micro-move that the running custom operation issues in this cycle, when its guard lets it land (R195). -/
def microNow (s : State) : Option Move :=
  match s.core.mac with
  | none => none
  | some r =>
    match ((microMoves (entryWords s r.entry)).getD r.m none) with
    | none => none
    | some m =>
      let g := m.gidx == 15 || bitOf (macGet r (0xF8 + m.gidx)).val.toNat 0
      if g != m.inv then some m else none

/-- The unit that a micro-trigger takes in this cycle (R200); ports 0xF8 to 0xFF are scratch registers, no triggers. -/
def microUnit (s : State) : Option Nat :=
  (microNow s).bind fun m => if isTrig m.dst && m.dst / 16 != 15 then some (m.dst / 16) else none

/-! ## Units that are free (R117, R170, R186, R188, R201, R629) -/

/-- An operation of a unit, and of a port of it, is in flight. -/
def unitBusy (s : State) (u : Nat) : Bool := s.core.ops.any fun p => p.unit == u
@[inherit_doc unitBusy] def dftBusy (s : State) : Bool := s.core.ops.any fun p => p.unit == 8 && p.port == 7

/-- A custom operation that uses PHU0 is in progress (R201). -/
def execPhu (s : State) : Bool := s.core.ops.any fun p => match p.act with
  | .custom e => entryUsesPhu s e
  | _ => false

/-- The fast queue of a companion has room for a move's command: TMU actions that wait go first (R180, R188). -/
def fastRoom (s : State) (k : Nat) : Bool :=
  (nth [] s.core.fastQ k).length < 4 && !s.core.fastWait.any fun w => bitsOf w.toNat 8 3 == k

/-- A fast-output command launches something. -/
def fastNames (v : Nat) : Bool := v % 256 != 0

/-- A fast-output command is well formed (R187). -/
def fastOk (v : Nat) : Bool := v < 2048 && (v % 16 &&& v / 16 % 16) == 0

/-- The command of a FASTOUT trigger as the operation uses it, under COERCE after its conversion; none when its check fails (R144,
R148, R187). -/
def fastCmd (s : State) (t : Nat) (w : TWord) : Option Nat :=
  if w.tag = 3 ∨ w.tag = 1 then some w.val.toNat
  else if polOf s t = 2 ∧ isNum w.tag.toNat then (convert w.tag.toNat 3 w.val.toNat).map (·.1)
  else none

/-- A FASTOUT trigger needs room in a fast queue and finds none: in a mode without fast frames, and with a command that is refused
or launches nothing, it needs none (R187, R188, R424). -/
def roomLacks (s : State) (d : Deferred) : Bool :=
  match fastCmd s d.o.task d.val with
  | some v => (s.mode == .run || s.mode == .runEdit) && fastOk v && fastNames v && !fastRoom s (bitsOf v 8 3)
  | none => false

/-- Two triggers wait in one queue: for the same unit; FASTOUT triggers for the same companion; SEL waits for nothing (R117, R188,
R202). -/
def sameQueue (s : State) (d e : Deferred) : Bool :=
  let cpn (x : Deferred) : Option Nat := (fastCmd s x.o.task x.val).map fun v => bitsOf v 8 3
  d.dst / 16 == e.dst / 16 && d.dst != 0xF4 && e.dst != 0xF4 && (d.dst / 16 != 16 || cpn d == cpn e)

/-- A trigger could fire in this cycle: its unit is not held. An EXEC whose micro-move 0 would meet a unit that has taken a trigger
in this cycle waits (R200; log entry 131, DESIGN CHOICE). -/
def unitFree (s : State) (d : Deferred) : Bool :=
  let u := d.dst / 16
  let p := d.dst % 16
  if u = 15 ∧ p = 4 then true
  else !s.core.firedNow.contains u && microUnit s != some u && (match u with
    | 8 => if p = 7 then !unitBusy s 8 && !execPhu s else !dftBusy s
    | 13 => !unitBusy s 13
    | 15 => !unitBusy s 15 && !(entryUsesPhu s (execEntry d) && dftBusy s) &&
        (match firstUnit s (execEntry d) with | some v => !s.core.firedNow.contains v | none => true)
    | 16 => !roomLacks s d
    | _ => true)

/-! ## Results -/

/-- Results land in a context. -/
def landRes (s : State) (t u : Nat) (rs : List (Nat × TWord)) : State :=
  rs.foldl (fun s r => setCtx s (resKey t u r.1) r.2) s

/-- The same operation in flight: its origin, port and firing cycle. -/
def sameOp (p q : PendOp) : Bool := p.o == q.o && p.unit == q.unit && p.port == q.port && p.fire == q.fire

/-- Results of an operation that would land in the same registers no later than those of an operation fired after it do not land
(R160). -/
def overtaken (p q : PendOp) (rs : List Nat) : PendOp :=
  if q.o.task = p.o.task ∧ q.unit = p.unit ∧ q.fire + q.lat ≤ p.fire + p.lat ∧
      (q.fire < p.fire ∨ (q.fire = p.fire ∧ q.o.slot < p.o.slot)) then
    { q with results := q.results.filter fun r => !rs.contains r.1 }
  else q

/-- The results of an operation land in its context, and it leaves the tracker (R114, R160). -/
def landOp (s : State) (p : PendOp) (rs : List (Nat × TWord)) : State :=
  let regs := rs.map (·.1)
  let ops := (s.core.ops.filter fun q => !sameOp p q).map fun q => overtaken p q regs
  landRes { s with core := { s.core with ops := ops } } p.o.task p.unit rs

/-- An operation that has fired: with latency 1 and nothing else to do its results land in this cycle, else it is in flight
(R160). -/
def finish (s : State) (d : Deferred) (lat : Nat) (rs : List (Nat × TWord)) (act : PendAct) (entry : Bool) : State :=
  let p : PendOp := { o := d.o, unit := d.dst / 16, port := d.dst % 16, fire := s.core.cyc, lat := lat, results := rs,
                      act := act, entry := entry }
  if lat ≤ 1 ∧ act = .nothing then landOp s p rs
  else { s with core := { s.core with ops := s.core.ops ++ [p] } }

/-- A check that has not passed: POISON results at the latency, or nothing after a trap; an operation of class S is squashed
and holds no entry (R146, R147). -/
def failed (s : State) (c : Checked) (d : Deferred) (lat : Nat) (res : List Nat) (sclass : Bool) : State :=
  match c with
  | .poison w =>
    let s := if sclass then squash s else s
    if res.isEmpty then s else finish s d lat (res.map fun i => (i, w)) .nothing (!sclass)
  | _ => s

/-- The operands of a trigger: OPD0 to OPD3, T. -/
def trigVals (d : Deferred) : List TWord := d.opds ++ [d.val]

/-- A trigger with its check: what it does with the operands that pass. -/
def withCheck (s : State) (sp : Spec) (d : Deferred) (lat : Nat) (sclass : Bool) (k : List TWord → State → State) : State :=
  match checkTags s sp d.o none (trigVals d) with
  | (.fires vs, s) => k vs s
  | (c, s) => failed s c d lat sp.res sclass

/-- An operation fault of a trigger (R162). -/
def faultOut (s : State) (sp : Spec) (d : Deferred) (idx cause lat : Nat) (sclass : Bool) : State :=
  let (c, s) := opFault s d.o none (trigVals d) idx cause
  failed s c d lat sp.res sclass

/-- A computed address out of range. -/
def addrOut (s : State) (sp : Spec) (d : Deferred) (idx lat : Nat) (sclass : Bool) : State :=
  let (c, s) := addrFault s sp d.o none (trigVals d) idx
  failed s c d lat sp.res sclass

/-- Results that a run obtains from outside its context (R190): source numbers 0x1000 + 4 × port + register. -/
def obtainAll (s : State) (t dst : Nat) : List (Nat × TWord) → List (Nat × TWord) × State
  | [] => ([], s)
  | r :: rest =>
    let (v, s) := obtain s t (0x1000 + 4 * dst + r.1) r.2
    let (vs, s) := obtainAll s t dst rest
    ((r.1, v) :: vs, s)

/-- The payload of an operand as a number. -/
def opn (vs : List TWord) (i : Nat) : Nat := (opd vs i).val.toNat

/-! ## ALU, MUL0, PHU0 (R164 to R173) -/

/-- A pure operation. -/
def firePureTrig (s : State) (d : Deferred) (op : PureOp) : State :=
  match firePure s op d.o none (trigVals d) with
  | (some rs, s) => finish s d op.lat rs .nothing true
  | (none, s) => s

/-- CMAC on the accumulator of its context (R171). -/
def fireCmac (s : State) (d : Deferred) : State :=
  withCheck s cmacSpec d 4 false fun vs s =>
    let (f, s) := drawFree s
    match phuCmac (nth PhuAcc.init s.core.accs d.o.task) vs f with
    | (.ok rs, acc) => finish { s with core := { s.core with accs := s.core.accs.set d.o.task acc } } d 4 rs .nothing true
    | (.fault i c, _) => faultOut s cmacSpec d i c 4 false

/-- Positions of a DFT (R172). -/
def dftSpec : Spec := { pos := [(4, .tags [6]), (0, .wordA), (1, .tags [3]), (2, .tags [3]), (3, .tags [3])], res := [0, 1, 2] }

/-- User window weight k. -/
def phuWin (s : State) (k : Nat) : Nat := getF s (CORE_PHUWIN.W k)

/-- The word address of sample k (R172). -/
def dftAddr (base l start k : Nat) : Nat := if l = 0 then base + k else base + (start + k) % l

/-- The latency of a DFT whose OPD1 is given: N/2 + 6, and 6 when N is out of its range (R172; log entry 126, DESIGN CHOICE). -/
def dftLat (opd1 : Nat) : Nat :=
  let n := opd1 % 512
  if n % 2 = 0 ∧ 2 ≤ n ∧ n ≤ 256 then n / 2 + 6 else 6

/-- DFT at its firing; user weights are taken as they stand then (R172, R241). -/
def fireDft (s : State) (d : Deferred) : State :=
  withCheck s dftSpec d (dftLat (opn (trigVals d) 1)) false fun vs s =>
    match dftFields vs with
    | .inr i => faultOut s dftSpec d i 6 (dftLat (opn vs 1)) false
    | .inl (n, l, st, h, win) =>
      let lat := n / 2 + 6
      if win = 3 ∧ (List.range n).all (fun k => fFinite (phuWin s k)) ∧ dftSum win n (phuWin s) = 0 then
        faultOut s dftSpec d 3 6 lat false
      else if (List.range n).any fun k => decide (0x80000 ≤ dftAddr (opn vs 0) l st k) then addrOut s dftSpec d 0 lat false
      else finish s d lat [] (.dft (opn vs 0) n l st h win (opd vs 4).val
        (if win = 3 then (List.range n).map (phuWin s) else [])) true

/-! ## Gecko (R166 to R168) -/

/-- Positions of a Gecko port (Table 6.3). -/
def gbuSpec (port : Nat) : Spec :=
  let a : List (Nat × Pos) := if port ≤ 7 ∨ port = 10 ∨ port = 11 then [(0, .bitA)] else []
  let m : List (Nat × Pos) := if port = 12 ∨ port = 13 then [(2, .bitA)] else if 14 ≤ port then [(2, .tags [3]), (3, .tags [3])]
    else []
  { pos := [(4, .bitA)] ++ a ++ [(1, .bitA)] ++ m, res := if 14 ≤ port then [0, 1] else [0] }

/-- A source bit of a Gecko operation: its value at the start of the cycle (R166, R286). -/
def gbuBit (base s : State) (t a : Nat) : Bool × State :=
  let (b, _) := readTaskBit base t a
  let s := checkTaskRow s t a
  if 0x20000 ≤ a ∧ a < 0x40000 then obtainBit s t a b else (b, s)

/-- The timebase U, µs (R167, R286). -/
def timebase (s : State) : Nat := (if replica s then s.sby.rcyc else s.core.cyc) / 400 % 2 ^ 32

/-- A timer cell: state 0 IDLE, 1 ON, 2 RUN, 3 DONE, and its start. -/
def timerCell (s : State) (i : Nat) : Nat × Nat := sget (0, 0) s.core.cells i

/-- The state with a timer cell set. -/
def setCell (s : State) (i : Nat) (c : Nat × Nat) : State :=
  { s with core := { s.core with cells := sset (0, 0) s.core.cells i c } }

/-- One evaluation of a timer (Table 6.4): the cell after it and the output. -/
def timerStep (tof inp : Bool) (u p : Nat) (c : Nat × Nat) : (Nat × Nat) × Bool :=
  let start : Nat × Nat := (if p = 0 then 3 else 2, u)
  let run : Nat × Nat := (if p ≤ (u + 2 ^ 32 - c.2) % 2 ^ 32 then 3 else 2, c.2)
  if tof then
    if inp then ((1, c.2), true)
    else match c.1 with
      | 1 => (start, p != 0)
      | 2 => (run, run.1 != 3)
      | _ => (c, false)
  else if !inp then ((0, c.2), false)
  else match c.1 with
    | 2 => (run, run.1 == 3)
    | 3 => (c, true)
    | _ => (start, p == 0)

/-- RES1 of TON and TOF: min(elapsed, P), or 0 when the cell is IDLE or ON. -/
def timerElapsed (u p : Nat) (c : Nat × Nat) : Nat := if c.1 < 2 then 0 else min ((u + 2 ^ 32 - c.2) % 2 ^ 32) p

/-- The output of the Gecko operations without a cell, from A, B, Q, M (Table 6.3). -/
def gbuOut (port : Nat) (a b q m : Bool) : Bool :=
  match port with
  | 4 => a && b
  | 5 => a || b
  | 6 => a != b
  | 7 => a && !b
  | 8 => !b
  | 9 => b
  | 10 => a || (q && !b)
  | 11 => !b && (a || q)
  | 12 => b && !m
  | _ => !b && m

/-- The mark of a timer cell that a Gecko unit has accessed in this cycle (R168; case 5 of chapter 6). -/
def cellMark (cell unit : Nat) : Nat := 1024 + 2 * cell + (unit - 5)

/-- A Gecko unit accesses a timer cell: a transition of GBU1 stands over one of GBU0 in the same cycle (case 5 of chapter 6). -/
def cellPut (s : State) (unit cell : Nat) (c : Nat × Nat) : State :=
  let s := addMark s (cellMark cell unit)
  if unit = 5 ∧ s.core.firedNow.contains (cellMark cell 6) then s else setCell s cell c

/-- A Gecko operation (R166). -/
def fireGbu (base s : State) (d : Deferred) : State :=
  let port := d.dst % 16
  let t := d.o.task
  let sp := gbuSpec port
  let rank := rankCore s.core.cyc (d.dst / 16) d.o.slot
  withCheck s sp d 1 false fun vs s =>
    if 14 ≤ port then
      if 1023 < opn vs 2 then faultOut s sp d 2 6 1 false
      else if 2 ^ 31 - 1 < opn vs 3 then faultOut s sp d 3 6 1 false
      else
        let (b, s) := gbuBit base s t (opn vs 4)
        let u := timebase s
        let (c, out) := timerStep (port == 15) b u (opn vs 3) (timerCell base (opn vs 2))
        let s := moveWriteBit rank (cellPut s (d.dst / 16) (opn vs 2) c) t (opn vs 1) out
        finish s d 1 [(0, boolW out), (1, mkT 3 (timerElapsed u (opn vs 3) c))] .nothing true
    else if (port = 12 ∨ port = 13) ∧ opn vs 2 = opn vs 1 then faultOut s sp d 2 6 1 false
    else
      let (b, s) := gbuBit base s t (opn vs 4)
      let (a, s) := if sp.uses 0 then gbuBit base s t (opn vs 0) else (false, s)
      let (q, s) := if port = 10 ∨ port = 11 then gbuBit base s t (opn vs 1) else (false, s)
      let (m, s) := if sp.uses 2 then gbuBit base s t (opn vs 2) else (false, s)
      let out := gbuOut port a b q m
      let s := moveWriteBit rank s t (opn vs 1) out
      let s := if sp.uses 2 then moveWriteBit rank s t (opn vs 2) b else s
      finish s d 1 [(0, boolW out)] .nothing true

/-! ## LSU (R174, R175) -/

/-- Positions of an LSU port (Table 6.7). -/
def lsuSpec (port : Nat) : Spec :=
  match port with
  | 4 => { pos := [(4, .wordA)], res := [0] }
  | 5 => { pos := [(4, .tags [2]), (0, .wordA)], res := [0] }
  | 6 => { pos := [(4, .phref)], res := [0, 1] }
  | 7 => { pos := [(4, .wordA), (0, .any)], res := [] }
  | 8 => { pos := [(4, .tags [2]), (0, .any), (1, .wordA)], res := [] }
  | _ => { pos := [(4, .phref), (0, .any), (1, .any)], res := [] }

/-- The effective address of LDX and STX, when it lies in the word space. -/
def indexed (base : Nat) (ofs : TWord) : Option Nat :=
  let a : Int := ((base : Nat) : Int) + signedOf 32 ofs.val.toNat
  if 0 ≤ a ∧ a < 0x80000 then some a.toNat else none

/-- A load or a store. -/
def fireLsu (s : State) (d : Deferred) : State :=
  let port := d.dst % 16
  let sp := lsuSpec port
  withCheck s sp d 4 false fun vs s =>
    match port with
    | 4 => finish s d 4 [] (.load (opn vs 4)) true
    | 5 => (match indexed (opn vs 0) (opd vs 4) with
      | some a => finish s d 4 [] (.load a) true
      | none => addrOut s sp d 4 4 false)
    | 6 => finish s d 4 [] (.loadPair (opn vs 4 % 2 ^ 19)) true
    | 7 => finish s d 4 [] (.store (opn vs 4) [opd vs 0]) true
    | 8 => (match indexed (opn vs 1) (opd vs 4) with
      | some a => finish s d 4 [] (.store a [opd vs 0]) true
      | none => addrOut s sp d 4 4 false)
    | _ => finish s d 4 [] (.store (opn vs 4 % 2 ^ 19) [opd vs 0, opd vs 1]) true

/-! ## BRU (R120, R176, R177) -/

/-- One bundle issued by a context: its next PC and the branches still pending (R120, R121). -/
def pcStep (pc : Nat) (brs : List (Nat × Nat)) : Nat × List (Nat × Nat) :=
  let nxt := match brs.find? fun b => b.1 == 1 with
    | some b => b.2
    | none => (pc + 1) % 65536
  (nxt, (brs.filter fun b => 1 < b.1).map fun b => (b.1 - 1, b.2))

/-- A branch fires: two more sequential bundles, then the target. Of two branches of a context with no bundle of it issued between
them, which govern the same bundle, the later one stands (R120 does not say; log entry 123, DESIGN CHOICE). -/
def addBranch (s : State) (t target : Nat) : State :=
  { s with core := { s.core with branches := upd s.core.branches t fun l => l.filter (fun b => b.1 != 2) ++ [(2, target % 65536)] } }

/-- The bundle index that issues after the second delay bundle had nothing branched (R177). -/
def returnIndex (s : State) (t : Nat) : Nat :=
  let a := pcStep (nth 0 s.core.pcs t) (nth [] s.core.branches t)
  (pcStep a.1 a.2).1

/-- Positions of a BRU port (Table 6.8). -/
def bruSpec (port : Nat) : Spec :=
  if port ≤ 9 then binary (numTags ++ [9, 6]) [] false [0] false
  else if port = 10 then binary [1, 3] [] false [0] false
  else { pos := [(4, .tags [3])], res := if port = 12 then [1] else [] }

/-- A compare or a branch. -/
def fireBru (s : State) (d : Deferred) : State :=
  let port := d.dst % 16
  let t := d.o.task
  let sp := bruSpec port
  if port ≤ 10 then
    withCheck s sp d 1 false fun vs s =>
      let b := compareOp (port - 4) (opd vs 0) (opd vs 4)
      let s := logBit { s with core := { s.core with cc := s.core.cc.set t b } } (0x30300 + t)
      finish s d 1 [(0, boolW b)] .nothing true
  else
    withCheck s sp d 1 true fun vs s =>
      let rs := if port = 12 then [(1, mkT 3 (returnIndex s t))] else []
      finish (addBranch s t (opn vs 4)) d 1 rs .nothing true

/-! ## TMU (R178 to R181) -/

/-- The action word as the operation uses it (R180). -/
def actionOf (s : State) (t : Nat) (w : TWord) : Nat :=
  if w.tag = 3 then w.val.toNat
  else if polOf s t = 2 ∧ isNum w.tag.toNat then
    match convert w.tag.toNat 3 w.val.toNat with
    | some (v, _) => v
    | none => 0
  else 0

/-- Positions of SCHED_A and SCHED_T (Table 6.9, R180). -/
def schedSpec (utc : Bool) (action : Nat) : Spec :=
  let arg : List (Nat × Pos) := match action % 8 with
    | 1 | 2 => [(2, .bitA)]
    | 3 => [(2, .tags [3, 1])]
    | _ => []
  { pos := (if utc then [(4, .tags [7]), (0, .tags [8])] else [(4, .tags [6]), (0, .tags [9, 3])]) ++ [(1, .tags [3])] ++ arg,
    res := [0] }

/-- An event takes the lowest free slot, or is refused (R179): the handle. -/
def tmuTake (s : State) (ev : TmuEvt) : Nat × State :=
  match indexOf? (fun x : TmuSlot => x.ev.isNone) s.core.tmu with
  | some i =>
    let g := ((nth TmuSlot.init s.core.tmu i).gen + 1) % 256
    (i + g * 256, { s with core := { s.core with tmu := s.core.tmu.set i { gen := g, ev := some ev } } })
  | none => (2 ^ 31, setF (incSat s CORE_TMUCNT.REFUSED CORE_TMUSTAT.REF_OVF) CORE_TMUSTAT.FULL 1)

/-- The TAI that SCHED_T names: seconds [47:32] as now (R178). -/
def schedTai (s : State) (hi lo : Nat) : Nat := taiOf (taiSec s.time.tai / 2 ^ 32 * 2 ^ 32 + hi) (lo % 2 ^ 30)

/-- SCHED_A, SCHED_T (R58, R178 to R180). -/
def fireSched (s : State) (d : Deferred) (utc : Bool) : State :=
  let action := actionOf s d.o.task (opd d.opds 1)
  let sp := schedSpec utc action
  withCheck s sp d 2 true fun vs s =>
    let a := opn vs 1
    if 16 ≤ a ∨ 4 ≤ a % 8 then faultOut s sp d 1 6 2 true
    else if a % 8 = 3 ∧ !fastOk (opn vs 2) then faultOut s sp d 2 6 2 true
    else if utc ∧ 999999999 < opn vs 4 % 2 ^ 30 then faultOut s sp d 4 6 2 true
    else
      let tai := if utc then schedTai s (opn vs 0) (opn vs 4) else 0
      let late := if utc then decide (tai ≤ s.time.tai) else pairPast s.plumb.cyc (plbAngle s) (opn vs 0) (opn vs 4)
      let ev : TmuEvt := { utc := utc, c := if utc then 0 else opn vs 0, a := if utc then 0 else opn vs 4, tai := tai,
                           late := late, action := a, arg := (opd vs 2).val, task := d.o.task, at' := s.core.cyc }
      let (h, s) := tmuTake s ev
      finish s d 2 [(0, mkT 3 h)] .nothing true

/-- The event of a slot fires in this cycle: the pair or the TAI at the cycle's end has reached it, or it was not in the future
when it was scheduled, before this cycle (R57 to R59, R180). -/
def tmuDue (s : State) (i : Nat) : Bool :=
  match (nth TmuSlot.init s.core.tmu i).ev with
  | none => false
  | some e =>
    let n := clockAdvance s
    (s.mode == .run || s.mode == .runEdit) && e.at' != s.core.cyc &&
      (e.late || (if e.utc then decide (e.tai ≤ n.time.tai) && !steppedNow s e.tai
        else pairPast n.plumb.cyc (plbAngle n) e.c e.a))

/-- CANCEL (R179); an event that fires in this cycle fires (case 3 of chapter 6). -/
def fireCancel (s : State) (d : Deferred) : State :=
  withCheck s { pos := [(4, .tags [3])], res := [0] } d 2 true fun vs s =>
    let h := opn vs 4
    let x := nth TmuSlot.init s.core.tmu (h % 32)
    if !bitOf h 31 && x.ev.isSome && x.gen == h / 256 % 256 && !tmuDue s (h % 32) then
      finish { s with core := { s.core with tmu := s.core.tmu.set (h % 32) { x with ev := none } } } d 2 [(0, mkT 3 0)] .nothing true
    else finish s d 2 [(0, mkT 3 1)] .nothing true

/-- POP (R181). -/
def firePop (s : State) (d : Deferred) : State :=
  let (own, s) : List (Nat × TWord) × State := match s.core.fifo with
    | [] => ([(0, mkT 3 0), (1, mkT 8 0), (2, mkT 7 0)], s)
    | (r, hi, lo) :: rest =>
      ([(0, ⟨3, r⟩), (1, ⟨8, hi⟩), (2, ⟨7, lo⟩)], { s with core := { s.core with fifo := rest } })
  let (rs, s) := obtainAll s d.o.task d.dst own
  finish s d 1 rs .nothing true

/-- A trigger of the TMU. -/
def fireTmu (s : State) (d : Deferred) : State :=
  match d.dst % 16 with
  | 4 =>
    let st := stampWords (classNow s) s.time.tai
    let (rs, s) := obtainAll s d.o.task d.dst [(0, mkT 8 st.1), (1, mkT 7 st.2)]
    finish s d 1 rs .nothing true
  | 5 =>
    let (rs, s) := obtainAll s d.o.task d.dst [(0, mkT 9 s.plumb.cyc), (1, mkT 6 (plbAngle s))]
    finish s d 1 rs .nothing true
  | 7 => fireSched s d false
  | 8 => fireSched s d true
  | 9 => fireCancel s d
  | 10 => firePop s d
  | _ => s

/-- PLB of a record (R58, R181). -/
def plbCode (s : State) (utc : Bool) : Nat :=
  if utc then 3 else if getF s PLB_CTRL.SRC_MODE = 0 then 2 else if isSet s PLB_STAT.TRACKING then 0 else 1

/-- A record enters the fire FIFO, or is discarded (R181). -/
def fifoPut (s : State) (rec : Nat) (hi lo : Nat) : State :=
  if s.core.fifo.length < 32 then
    let r := BitVec.ofNat 32 (rec + b2n s.core.fifoLost * 2 ^ 25)
    { s with core := { s.core with fifo := s.core.fifo ++ [(r, BitVec.ofNat 32 hi, BitVec.ofNat 32 lo)], fifoLost := false } }
  else
    let s := setF (incSat s CORE_TMUCNT.LOST CORE_TMUSTAT.LOST_OVF) CORE_TMUSTAT.LOST 1
    { s with core := { s.core with fifoLost := true } }

/-- An event's instant lay in the forward step of the cycle before (case 2 of chapter 2). -/
def tmuStepped (s : State) (i : Nat) : Bool :=
  match justStepped s, (nth TmuSlot.init s.core.tmu i).ev with
  | some (a, b), some e => e.utc && decide (a < e.tai) && decide (e.tai ≤ b)
  | _, _ => false

/-- A fast-output command of a TMU action enters its queue, or waits for room (R180). -/
def tmuFast (s : State) (w : Word) : State :=
  let v := w.toNat
  let k := bitsOf v 8 3
  if !fastNames v then s
  else if fastRoom s k then fastEnter s k (v % 256)
  else { s with core := { s.core with fastWait := s.core.fastWait ++ [w] } }

/-- The mark of a TMU slot whose FASTOUT action has acted at the start of this cycle. -/
def tmuMark (i : Nat) : Nat := 200 + i

/-- The FASTOUT action of a slot acts at the start of its event's firing cycle, ahead of the triggers of moves (R180; case 2). -/
def tmuEarly (s : State) (i : Nat) : State :=
  match (nth TmuSlot.init s.core.tmu i).ev with
  | some e => if e.action % 8 = 3 ∧ tmuDue s i then addMark (tmuFast s e.arg) (tmuMark i) else s
  | none => s

/-- The first FASTOUT action that waits for a companion's queue enters it when it has room, in every mode: what waits at a
transition is launched after it (R180, R192, R424). -/
def fastDrain (s : State) : State :=
  let room (w : Word) : Bool := (nth [] s.core.fastQ (bitsOf w.toNat 8 3)).length < 4
  match indexOf? room s.core.fastWait with
  | some i =>
    let v := (nth 0 s.core.fastWait i).toNat
    { s with core := { s.core with
        fastWait := s.core.fastWait.eraseIdx i, fastQ := upd s.core.fastQ (bitsOf v 8 3) (· ++ [v % 256]) } }
  | none => s

/-- An event fires: its action, its record, its slot (R180, R181). -/
def tmuFire (s : State) (i : Nat) (stepped : Bool) : State :=
  let x := nth TmuSlot.init s.core.tmu i
  match x.ev with
  | none => s
  | some e =>
    let s := streamEv s (.tmu i x.gen e.action e.arg)
    let s := { s with core := { s.core with tmu := s.core.tmu.set i { x with ev := none } } }
    let s := match e.action % 8 with
      | 1 => userWriteBit (rankCore s.core.cyc 12 0) s 0 e.arg.toNat true
      | 2 => userWriteBit (rankCore s.core.cyc 12 0) s 0 e.arg.toNat false
      | 3 => if s.core.firedNow.contains (tmuMark i) then s else tmuFast s e.arg
      | _ => s
    if bitOf e.action 3 then
      let rec' := 2 ^ 31 + b2n (e.late || stepped) * 2 ^ 30 + b2n stepped * 2 ^ 29 + b2n e.utc * 2 ^ 28 + plbCode s e.utc * 2 ^ 26 +
        e.task * 2 ^ 22 + e.action % 8 * 2 ^ 19 + x.gen * 256 + i
      let st := stampWords (classNow s) (s.time.tai + taiStep s)
      fifoPut s rec' st.1 st.2
    else s

/-! ## QU (R182 to R184) -/

/-- Positions of a QU port (Table 6.10). -/
def quSpec (port : Nat) : Spec :=
  match port with
  | 4 => { pos := [(4, .tags [3]), (0, .wordA), (1, .tags [3])], res := [0, 1, 2, 3] }
  | 5 | 6 | 7 => { pos := [(4, .wordA), (0, .tags [3])], res := [3] }
  | 8 => { pos := [(4, .tags [3])], res := [0, 3] }
  | _ => { pos := [(4, .tags [3]), (0, .tags [3, 2, 1])], res := [3] }

/-- Words of a buffer of bytes, four to a word, zero-filled (R182). -/
def bufWords (bs : List Byte) : List TWord :=
  (List.range ((bs.length + 3) / 4)).map fun i =>
    mkT 3 (((List.range 4).map fun j => (bs.getD (4 * i + j) 0).toNat * 256 ^ j).sum)

/-- The oldest frame of a mailbox leaves it. -/
def mbxTake (s : State) (n : Nat) : Option MbxFrame × State :=
  match nth [] s.core.mbx n with
  | [] => (none, s)
  | f :: rest => (some f, { s with core := { s.core with mbx := s.core.mbx.set n rest } })

/-- The words that the stream holds for a copy of RECV, in order (R190, log entry 41, DEDUCED): sources from 2^20 up. -/
def takeWords (s : State) (t : Nat) : Nat → Nat → List TWord × State
  | 0, _ => ([], s)
  | n + 1, a =>
    let (v, s) := obtain s t (2 ^ 20 + a) TWord.empty
    let (vs, s) := takeWords s t n (a + 1)
    (v :: vs, s)

/-- The words of a copy of RECV are sent in the stream. -/
def giveWords (s : State) (t : Nat) (ws : List TWord) (a : Nat) : State :=
  (ws.zipIdx).foldl (fun s p => streamEv s (.ext t 1 (2 ^ 20 + a + p.2) p.1)) s

/-- RECV: what the frame of a mailbox gives (R182). -/
def fireRecv (s : State) (d : Deferred) : State :=
  let sp := quSpec 4
  withCheck s sp d 3 true fun vs s =>
    let n := opn vs 4
    let mx := opn vs 1
    let dst := opn vs 0
    let t := d.o.task
    if 15 < n then faultOut s sp d 4 6 3 true
    else if mx < 1 ∨ 1522 < mx then faultOut s sp d 1 6 3 true
    else if dst < 0x8000 then addrOut s sp d 0 3 true
    else
      let f := (nth [] s.core.mbx n).head?
      let len := match f with | some f => min f.bytes.length mx | none => 0
      if 0x80000 < dst + (len + 3) / 4 then addrOut s sp d 0 3 true
      else
        let own : List (Nat × TWord) := match f with
          | some f => [(0, mkT 3 len), (1, mkT 8 f.sec), (2, mkT 7 f.tns),
              (3, mkT 3 (f.port * 256 + if mx < f.bytes.length then 3 else 0))]
          | none => [(0, mkT 3 0), (1, mkT 8 0), (2, mkT 7 0), (3, mkT 3 1)]
        let words := match f with | some f => bufWords (f.bytes.take len) | none => []
        let (_, s) := mbxTake s n
        let rep := replica s
        let (rs, s) := obtainAll s t d.dst own
        let cnt := ((rs.headD (0, TWord.empty)).2.val.toNat + 3) / 4
        let (words, s) := if rep then takeWords s t (min cnt 381) dst else (words, giveWords s t words dst)
        let s := if words.isEmpty then s else libRecv s t n (words.flatMap fun w => leBytes w.val.toNat)
        finish s d (3 + words.length) rs (.store dst words) true

/-- SEND_ETH at its firing (R182). -/
def fireSendEth (s : State) (d : Deferred) : State :=
  let sp := quSpec 5
  withCheck s sp d 3 true fun vs s =>
    let c := opn vs 0
    let len := bitsOf c 16 11
    if c / 2 ^ 27 ≠ 0 ∨ bitsOf c 7 9 ≠ 0 ∨ len < 60 ∨ 1518 < len then faultOut s sp d 0 6 3 true
    else if 0x80000 < opn vs 4 + (len + 3) / 4 then addrOut s sp d 4 3 true
    else finish s d (3 + (len + 3) / 4) [] (.sendEth (opn vs 4) (c % 16) (bitsOf c 4 3) len) true

/-- The data lengths of a format (R379). -/
def canLenOk (fd : Bool) (len : Nat) : Bool := len ≤ 8 || (fd && [12, 16, 20, 24, 32, 48, 64].contains len)

/-- SEND_CAN at its firing: the buffer is reserved, or FULL (R379). A FULL found here copies nothing, and its status lands with the
latency of d = 0 (R182 does not say; log entry 132, DESIGN CHOICE). -/
def fireSendCan (s : State) (d : Deferred) : State :=
  let sp := quSpec 6
  withCheck s sp d 3 true fun vs s =>
    let c := opn vs 0
    let n := c % 2
    let fd := bitOf c 1
    let len := bitsOf c 16 7
    if c / 2 ^ 23 ≠ 0 ∨ bitsOf c 4 12 ≠ 0 ∨ !canLenOk fd len ∨ (bitOf c 2 && !fd) ∨ (fd && !isSet s (CAN_CTRL.FD_EN n)) then
      faultOut s sp d 0 6 3 true
    else if 0x80000 < opn vs 4 + 1 + (len + 3) / 4 then addrOut s sp d 4 3 true
    else
      let act : PendAct := .sendCan (opn vs 4) n len fd (bitOf c 2) (bitOf c 3)
      let lat := 3 + (len + 3) / 4
      if replica s then finish s d lat [] act true
      else match canReserve s n with
        | (some _, s) => finish s d lat [] act true
        | (none, s) =>
          let (rs, s) := obtainAll s d.o.task d.dst [(3, mkT 3 2)]
          finish s d 3 rs .nothing true

/-- FLD_CMD at its firing (R182). -/
def fireFldCmd (s : State) (d : Deferred) : State :=
  let sp := quSpec 7
  withCheck s sp d 3 true fun vs s =>
    let c := opn vs 0
    let n := bitsOf c 4 4
    if 256 ≤ c ∨ bitOf c 3 ∨ n < 1 ∨ 8 < n then faultOut s sp d 0 6 3 true
    else if 0x80000 < opn vs 4 + n then addrOut s sp d 4 3 true
    else finish s d (3 + n) [] (.fldCmd (opn vs 4) (c % 8) n) true

/-- A trigger of the QU. -/
def fireQu (s : State) (d : Deferred) : State :=
  match d.dst % 16 with
  | 4 => fireRecv s d
  | 5 => fireSendEth s d
  | 6 => fireSendCan s d
  | 7 => fireFldCmd s d
  | 8 => withCheck s (quSpec 8) d 8 true fun vs s => finish s d 8 [] (.regRd (opn vs 4)) true
  | _ => withCheck s (quSpec 9) d 8 true fun vs s => finish s d 8 [] (.regWr (opn vs 4) (opd vs 0).val) true

/-! ## IMG, FLD (R185, R187, R188) -/

/-- END (R185). -/
def fireImg (s : State) (d : Deferred) : State :=
  let sp : Spec := { pos := [(4, .tags [3])], res := [] }
  withCheck s sp d 1 true fun vs s =>
    if 2 ≤ opn vs 4 then faultOut s sp d 4 6 1 true else fireEnd s d.o.task (bitOf (opn vs 4) 0)

/-- FASTOUT (R187, R188): it fires only while its queue has room. -/
def fireFld (s : State) (d : Deferred) : State :=
  let sp : Spec := { pos := [(4, .tags [3, 1])], res := [] }
  withCheck s sp d 1 true fun vs s =>
    let v := opn vs 4
    if !fastOk v then faultOut s sp d 4 6 1 true
    else if fastNames v then fastEnter s (bitsOf v 8 3) (v % 256) else s

/-! ## MAC (R186, R198, R205, R206) -/

/-- Positions of a custom operation (R194, R205). -/
def macroSpec (s : State) (e : Nat) (vals : List TWord) : Spec :=
  let masks : List (Nat × Nat) :=
    [(4, dtWord s e 1 / 65536), (0, dtWord s e 1 % 65536), (1, dtWord s e 2 / 65536), (2, dtWord s e 2 % 65536),
     (3, dtWord s e 3 / 65536)]
  let refTag := (opd vals (dtWord s e 0 % 8)).tag.toNat
  { pos := masks.filterMap fun m =>
      if m.2 = 0 then none
      else if m.2 = 0xFFFF then some (m.1, .any)
      else some (m.1, .mask ((List.range 16).filter fun i => bitOf m.2 i) refTag),
    res := [0, 1, 2, 3] }

/-- An entry is marked bad (R212). -/
def markEntry (s : State) (e : Nat) : State :=
  let s := if isSet s CORE_DTSTAT.EBAD then s else setF s CORE_DTSTAT.EBAD_OP e
  let s := setF s CORE_DTSTAT.EBAD 1
  if s.core.dtBad.contains e then s else { s with core := { s.core with dtBad := e :: s.core.dtBad } }

/-- A word of the table is fetched (R151, R212): whether it can be used. -/
def fetchDt (s : State) (e w : Nat) : Bool × State :=
  match eccAt s .dtable (36 * e + w) with
  | .clean => (true, s)
  | .correctable => (true, eccCorr s .dtable (36 * e + w))
  | .uncorrectable => (false, halt (markEntry s e) 3)

/-- The selector of a task is set. An EXEC of a later bundle that has not fired yet uses it (R186, R202; log entry 130, DEDUCED). -/
def selPut (s : State) (t iss n : Nat) : State :=
  let later (d : Deferred) : Deferred :=
    if d.o.task = t ∧ d.dst / 16 = 15 ∧ iss < d.iss then { d with sel := n } else d
  { s with core := { s.core with
      macSel := s.core.macSel.set t n, deferred := s.core.deferred.map later, waiting := s.core.waiting.map later } }

/-- SEL and EXEC (R186, R198, R206, R212). -/
def fireMac (s : State) (d : Deferred) : State :=
  let port := d.dst % 16
  let t := d.o.task
  if port = 4 then
    let sp : Spec := { pos := [(4, .tags [3])], res := [] }
    withCheck s sp d 1 false fun vs s =>
      if 63 < opn vs 4 then faultOut s sp d 4 6 1 false else selPut s t d.iss (opn vs 4)
  else
    let e := execEntry d
    let vals := trigVals d
    let (ok, s) := (List.range 4).foldl (fun (r : Bool × State) w => if r.1 then fetchDt r.2 e w else r) (true, s)
    if !ok then s
    else if s.core.dtBad.contains e then halt s 3
    else
      let sp := macroSpec s e vals
      if !bitOf (dtWord s e 0) 31 then faultOut s { sp with res := [0, 1, 2, 3] } d 4 6 1 false
      else
        withCheck s sp d (entryLat s e) false fun vs s =>
          let ins := [(0xF0, opd vs 0), (0xF1, opd vs 1), (0xF2, opd vs 2), (0xF3, opd vs 3), (0xF4, opd vs 4)]
          let run : MacRun := { o := d.o, entry := e, m := 0, regs := ins.foldl (fun m p => sset TWord.empty m p.1 p.2) [],
                                acc := PhuAcc.init, inflight := [], loads := [] }
          finish { s with core := { s.core with mac := some run } } d (entryLat s e) [] (.custom e) true

/-! ## Any trigger -/

/-- A trigger fires in this cycle. -/
def fireTrig (base s : State) (d : Deferred) : State :=
  let u := d.dst / 16
  let p := d.dst % 16
  let s := if u = 15 ∧ p = 4 then s else { s with core := { s.core with firedNow := u :: s.core.firedNow } }
  match pureOp u p with
  | some op => firePureTrig s d op
  | none =>
    match u with
    | 5 | 6 => fireGbu base s d
    | 8 => if p = 4 then fireCmac s d else fireDft s d
    | 9 | 10 => fireLsu s d
    | 11 => fireBru s d
    | 12 => fireTmu s d
    | 13 => fireQu s d
    | 14 => fireImg s d
    | 15 => fireMac s d
    | 16 => fireFld s d
    | _ => s

/-- The positions whose operand registers a trigger uses (R111, R142). -/
def usedOpds (s : State) (d : Deferred) : List Nat :=
  let u := d.dst / 16
  let p := d.dst % 16
  let sp : Spec := match pureOp u p with
    | some op => op.spec false (trigVals d)
    | none =>
      match u with
      | 5 | 6 => gbuSpec p
      | 8 => if p = 4 then cmacSpec else dftSpec
      | 9 | 10 => lsuSpec p
      | 11 => bruSpec p
      | 12 => if p = 7 ∨ p = 8 then schedSpec (p == 8) (actionOf s d.o.task (opd d.opds 1)) else { pos := [], res := [] }
      | 13 => quSpec p
      | 15 => if p = 4 then { pos := [], res := [] } else macroSpec s (execEntry d) (trigVals d)
      | _ => { pos := [], res := [] }
  (List.range 4).filter sp.uses

end Sys2Proof.Machine
end

