-- ==== Sys2Proof/Machine/Reply.lean ====
section
/-!
DEFINITION. How a command of the protocol is answered: replies with their cache, and the slots of long operations
(spec/18_command_protocol.md, R508 to R516).
-/

namespace Sys2Proof.Machine

open Reg

/-- What a command answers at its execution: a reply with a status and data; the acceptance of a long operation in a slot; a
reply that follows when the NV interface has served it, or when preparation ends; or nothing. -/
inductive ZAns where
  | done (status : Nat) (data : List Byte)
  | accepted (slot : Nat)
  | later
  | silent
  deriving DecidableEq, Repr

/-- A session slot. -/
def sessionAt (s : State) (i : Nat) : Session := nth Session.init s.zcp.sessions i

/-- The state with a session slot changed. -/
def updSession (s : State) (i : Nat) (f : Session → Session) : State :=
  { s with zcp := { s.zcp with sessions := upd s.zcp.sessions i f } }

/-- The slot of an open session number (R509, R510). -/
def sessionSlot (s : State) (n : Nat) : Option Nat :=
  let i := n % 16
  if n ≠ 0 ∧ (sessionAt s i).live ∧ (sessionAt s i).gen = n / 16 then some i else none

/-- A reply leaves, and enters the reply cache of its session (R508, R511). -/
def zcpReply (s : State) (rq : ZReq) (opcode status flags : Nat) (data : List Byte) : State :=
  let bytes := zcpPacket (0x80 + flags) rq.session rq.seq opcode status data
  let s := match sessionSlot s rq.session with
    | some i => updSession s i fun x => { x with cache := ((rq.seq, bytes) :: x.cache).take 32 }
    | none => s
  sendPacket s rq.peer bytes

/-- A slot of the operation table for a long operation: the lowest free one, with its generation incremented (R515). -/
def opTake (s : State) (rq : ZReq) (opcode : Nat) : Option (Nat × State) :=
  ((List.range 8).find? fun i => (opSlot s i).st == 0).map fun i =>
    (i, updOp s i fun o => { OpSlot.init with
      gen := (o.gen + 1) % 256, st := 1, opcode := opcode, peer := rq.peer, session := rq.session, seq := rq.seq })

/-- Bytes that a class N operation has done (Table 18.6). -/
def opProgress (s : State) (i : Option Nat) (n : Nat) : State :=
  match i with
  | some i => updOp s i fun o => { o with progress := o.progress + n }
  | none => s

/-- A long operation reaches its point of no return (R516). -/
def opPnr (s : State) (i : Option Nat) : State :=
  match i with
  | some i => updOp s i fun o => { o with pnr := true }
  | none => s

end Sys2Proof.Machine
end

