-- ==== Sys2Proof/Machine/Nv.lean ====
section
/-!
DEFINITION. The non-volatile store (spec/20_reset_boot_nv.md, R566 to R589): the NOR and its areas, commit records, images, the
journal area, retentive mirrors, and the users that share the interface.

An erase takes effect when it starts, a program when the NOR reports it done (log entry 21, DESIGN CHOICE).
-/

namespace Sys2Proof.Machine

open Reg

/-! ## The NOR (R566, R568) -/

/-- A byte of the NOR; what is not listed is erased. -/
def norByte (s : State) (a : Nat) : Byte := sget 0xFF s.nv.nor a

/-- Bytes of the NOR. -/
def norBytes (s : State) (a n : Nat) : List Byte := (List.range n).map fun i => norByte s (a + i)

/-- A word of the NOR, most significant byte first. -/
def norWord (s : State) (a : Nat) : Nat := beNat (norBytes s a 4)

/-- No NOR that meets R566 was found. -/
def norAbsent (s : State) : Bool := getF s NVS_SIZE.BYTES == 0

/-- A sector is erased. -/
def norErase (s : State) (a : Nat) : State := { s with nv := { s.nv with nor := sclear a (a + 65536) s.nv.nor } }

/-- Bytes are programmed: a bit goes from 1 to 0 only. -/
def norProgram (s : State) (a : Nat) (bs : List Byte) : State :=
  { s with nv := { s.nv with nor :=
      (bs.foldl (fun (p : Nat × List (Nat × Byte)) b => (p.1 + 1, sset 0xFF p.2 p.1 (sget 0xFF p.2 p.1 &&& b))) (a, s.nv.nor)).2 } }

/-- First address of an image slot. -/
def slotBase (slot : Nat) : Nat := 0x1000000 + 0x800000 * slot

/-- A range touches another. -/
def touches (a n b m : Nat) : Bool := 0 < n && 0 < m && a < b + m && b < a + n

/-- A range touches a device-owned area (R568). -/
def deviceOwned (a n : Nat) : Bool :=
  touches a n 0 0x40000 || touches a n 0x100000 0x200000 || touches a n 0x300000 0x800000

/-- A range touches the reserved area that is never written (Table 20.2). NV_ERASE and NV_PROGRAM refuse it as they refuse the
device-owned areas (log entry 153, DEDUCED). -/
def neverWritten (a n : Nat) : Bool := touches a n 0x40000 0xC0000

/-- A range touches a slot or its CR sector (R586). -/
def touchesSlot (slot a n : Nat) : Bool := touches a n (slotBase slot) 0x800000 || touches a n (0x10000 * slot) 0x10000

/-- A range touches the running supervisor code (R586). -/
def selfBank (s : State) (a n : Nat) : Bool :=
  let b := getF s NVS_STAT.BOOTSLOT
  b < 2 && touchesSlot b a n

/-! ## Commit records (R570, R571) -/

/-- A commit record (Table 20.5). -/
structure NvRecord where
  gen : Nat
  len : Nat
  crc : Nat
  base : Nat
  sec : Nat
  deriving DecidableEq, Repr

/-- The record of a slot that is recorded (R570). -/
def recordOf (s : State) (slot : Nat) : Option NvRecord :=
  let a := 0x10000 * slot
  let w (i : Nat) : Nat := norWord s (a + 4 * i)
  if w 0 = 0x4B435243 ∧ w 7 = crc32 (norBytes s a 28) ∧ w 1 % 2 = slot then
    some { gen := w 2, len := w 3, crc := w 4, base := w 5 % 2 ^ 24, sec := w 6 }
  else none

/-- The bytes of a record. -/
def recordBytes (slot gen len crc base sec : Nat) : List Byte :=
  let b := [0x4B435243, slot, gen, len, crc, base, sec].flatMap (beBytes 4)
  b ++ beBytes 4 (crc32 b)

/-- The newer recorded slot; at equal generations slot 0 (R571). -/
def newerSlot (s : State) : Option Nat :=
  match recordOf s 0, recordOf s 1 with
  | none, none => none
  | some _, none => some 0
  | none, some _ => some 1
  | some a, some b => some (if newer b.gen a.gen then 1 else 0)

/-- The generation of a new commit (R571). -/
def newGen (s : State) : Nat :=
  match (newerSlot s).bind (recordOf s) with
  | some r => (r.gen + 1) % 2 ^ 32
  | none => 1

/-! ## Set positions (R577, R578) -/

/-- A sequence does not exceed another, by the half-range rule over 24 bits (R47, R578). -/
def seqLe (a b : Nat) : Bool := (b + 2 ^ 24 - a % 2 ^ 24) % 2 ^ 24 < 2 ^ 23

/-- A position is free (R577). -/
def positionFree (s : State) (i : Nat) : Bool :=
  match s.nv.sets.lookup i with
  | none => true
  | some p => p.void || seqLe p.seq (getF s NVS_BASE.SEQ)

/-- The free positions; none without a NOR. -/
def freePositions (s : State) : List Nat :=
  if s.nv.bytes < 0x2000000 then [] else (List.range 8).filter (positionFree s)

/-- The held sets (R577). -/
def heldSets (s : State) : List NvSet :=
  if norAbsent s then [] else ((List.range 8).filterMap fun i => s.nv.sets.lookup i).filter fun p => !p.void && !seqLe p.seq (getF s NVS_BASE.SEQ)

/-- The steps that write a set: 16 sectors, then its pages; the set is there once the last page is (R577). -/
def setSteps (pos : Nat) (p : NvSet) : List NvStep :=
  [.clearSet pos] ++ List.replicate 15 .wait ++ List.replicate ((256 + p.size + 255) / 256 - 1) .wait ++ [.putSet pos p]

/-- Sets up to a sequence become free (R579). -/
def foldSets (s : State) (base : Nat) : State :=
  { s with nv := { s.nv with sets := s.nv.sets.filter fun p => !seqLe p.2.seq base } }

/-! ## Journal area (R528, R583) -/

/-- The sixteen words of a journal entry (R528). -/
def journalWords (e : JournalEntry) : List Nat :=
  let adr (i : Nat) : Nat := nth 0 e.peer.addr i
  [e.seq, e.sec, e.tns, e.peer.tr % 16 * 2 ^ 28 + e.status % 256 * 65536 + e.session % 65536,
   e.opcode % 65536 * 65536 + e.mode % 16, e.object % 2 ^ 32, e.detail % 2 ^ 32, e.peer.port, adr 0, adr 1, adr 2, adr 3, 0, 0, 0, 0]

/-- The bytes of a journal entry. -/
def journalBytes (e : JournalEntry) : List Byte := (journalWords e).flatMap (beBytes 4)

/-- Bytes go into the page program that ends where they start, or start one of their own. -/
def addProgram (l : List NvStep) (a : Nat) (bs : List Byte) : List NvStep :=
  match l.getLast? with
  | some (.program b cs) => if b + cs.length = a ∧ a % 256 ≠ 0 then l.dropLast ++ [.program b (cs ++ bs)] else l ++ [.program a bs]
  | _ => l ++ [.program a bs]

/-- The mirror of the entries after ZCP_JMIR: each sector is erased before its first entry (R529, R583; chapter 18 case 8). -/
def journalSteps (s : State) : List NvStep :=
  let jm := getF s ZCP_JMIR.SEQ
  let es := (s.zcp.journal.filter fun e => newer e.seq jm).reverse
  let go := es.foldl (fun (p : Nat × List NvStep) e =>
    let a := 0x100000 + e.seq % 32768 * 64
    let l := if p.1 / 1024 = e.seq / 1024 then p.2 else p.2 ++ [.erase (0x100000 + e.seq % 32768 / 1024 * 65536)]
    (e.seq, addProgram l a (journalBytes e))) (jm, [])
  if es.isEmpty then [] else go.2 ++ [.journal go.1]

/-! ## Retentive mirror (R581, R582) -/

/-- A retentive word or bit (R155). -/
def retWord (a : Nat) : Bool := 0x7E000 ≤ a && a < 0x80000
@[inherit_doc retWord] def retBit (a : Nat) : Bool := 0xF0000 ≤ a && a < 0x100000

/-- The sector of the newest mirror (R582). -/
def newestMirror (s : State) : Option (Nat × RetMirror) :=
  if norAbsent s then none
  else match s.nv.mirrors.lookup 0, s.nv.mirrors.lookup 1 with
  | none, none => none
  | some a, none => some (0, a)
  | none, some b => some (1, b)
  | some a, some b => some (if newer b.seq a.seq then (1, b) else (0, a))

/-- A snapshot of this cycle. -/
def snapshotNow (s : State) : RetMirror :=
  { seq := (getF s NVS_RETSEQ.SEQ + 1) % 2 ^ 32, sec := taiSec s.time.tai % 2 ^ 32, crec := getF s TXN_CREC_LAST.SEQ,
    words := s.sp.words.filter fun p => retWord p.1, bits := s.sp.bits.filter fun p => retBit p.1 }

/-- The steps that write the snapshot: erase, data, header page, in the sector without the newest mirror (R582). -/
def mirrorSteps (s : State) : List NvStep :=
  match s.nv.snapshot with
  | none => []
  | some m =>
    let i := match newestMirror s with | some (0, _) => 1 | _ => 0
    [.clearMirror i, .wait, .mirror i m]

/-! ## The users of the interface (R584) -/

/-- The holder's job with a change. -/
def updHolder (s : State) (f : NvJob → NvJob) : State := { s with nv := { s.nv with holder := s.nv.holder.map f } }

/-- The holder ends with a status, its notice or reply leaves, and the interface is free (R513, R515, R567). -/
def nvFinish (s : State) (status : Nat) : State :=
  match s.nv.holder with
  | none => s
  | some j =>
    let s := { s with nv := { s.nv with holder := none } }
    let s := if status = 0x10 then incStop s NVS_CNT.FAIL else s
    let s := if j.opcode = 0x0605 ∨ (j.opcode = 0x0603 ∧ status ≠ 0) then { s with zcp := { s.zcp with imgOpen := none } } else s
    let data := if status = 0 then j.result else []
    let s := opEnd? s j.op status data
    match j.reply with
    | some r => zcpReply (journalPut s status r.rq.session r.opcode r.object r.detail r.rq.peer) r.rq r.opcode status 0 data
    | none => s

/-- What happens as an operation of the NOR starts: an erase takes effect, and the last sector of NV_ERASE and the commit record
are points of no return (Table 18.6). -/
def nvBegin (s : State) (j : NvJob) (st : NvStep) (rest : List NvStep) : State :=
  match st with
  | .erase a =>
    let last := j.opcode == 0x0601 && !rest.any fun x => match x with | .erase _ => true | _ => false
    norErase (if last then opPnr s j.op else s) a
  | .clearSet pos => { s with nv := { s.nv with sets := s.nv.sets.filter fun p => p.1 != pos } }
  | .clearMirror i => { s with nv := { s.nv with mirrors := s.nv.mirrors.filter fun p => p.1 != i } }
  | .record _ _ _ _ _ => opPnr s j.op
  | _ => s

/-- Bytes that a read returns: those of the transaction and RET areas are not laid down (log entry 22, DESIGN CHOICE). -/
def nvRead (s : State) (a n : Nat) : List Byte × State :=
  let (fs, s1) := drawBytes n s
  if touches a n 0x20000 0x20000 || touches a n 0x300000 0x800000 then
    ((List.range n).map fun i =>
      if touches (a + i) 1 0x20000 0x20000 || touches (a + i) 1 0x300000 0x800000 then fs.getD i 0 else norByte s (a + i), s1)
  else (norBytes s a n, s)

/-- The holder goes on with the steps left: those that need no operation of the NOR are done at once. -/
def nvGo : List NvStep → State → State
  | [], s => nvFinish s 0
  | .verify slot len crc :: r, s => if crc32 (norBytes s (slotBase slot) len) = crc then nvGo r s else nvFinish s 0x10
  | .read a n :: r, s =>
    let (bs, s) := nvRead s a n
    nvGo r (updHolder s fun j => { j with result := bs })
  | .journal q :: r, s => nvGo r (setF s ZCP_JMIR.SEQ q)
  | st :: r, s =>
    match s.nv.holder with
    | some j => nvBegin (updHolder s fun j => { j with steps := st :: r }) j st r
    | none => s

/-- A user takes the interface; the journal mirror and the retentive mirror read what they write now. -/
def nvTake (s : State) (j : NvJob) : State :=
  let steps := if j.rank = 4 then journalSteps s else if j.rank = 5 then mirrorSteps s else j.steps
  let s := if j.rank = 5 then { s with nv := { s.nv with snapshot := none } } else s
  nvGo steps { s with nv := { s.nv with holder := some { j with steps := steps } } }

/-- A user holds the interface: a job, or the reload of a wake (R584). -/
def nvBusy (s : State) : Bool := s.nv.holder.isSome || s.ms.wakeReload

/-- A user asks for the interface: it takes it, or waits (R584). -/
def nvRequest (s : State) (j : NvJob) : State :=
  if !nvBusy s ∧ s.nv.waiting.isEmpty then nvTake s j
  else { s with nv := { s.nv with waiting := s.nv.waiting ++ [j] } }

/-- NV_INTERFACE_GRANT (R584): the interface is free, and the waiting user of highest rank takes it; of one rank, the first. -/
def execNvInterfaceGrant (s : State) : Host.Outcome State Fault Refusal :=
  .next (if nvBusy s then s
    else
      match (List.range 7).findSome? fun r => indexOf? (fun (j : NvJob) => j.rank == r) s.nv.waiting with
      | none => s
      | some i =>
        match s.nv.waiting[i]? with
        | none => s
        | some j => nvTake { s with nv := { s.nv with waiting := s.nv.waiting.eraseIdx i } } j)

/-- A user of the interface without class N command. -/
def deviceJob (rank : Nat) (steps : List NvStep) : NvJob :=
  { rank := rank, op := none, reply := none, opcode := 0, steps := steps, result := [], aborted := false }

/-- A class N command holds the interface or waits for it (R515). -/
def nvBusyN (s : State) : Bool :=
  (match s.nv.holder with | some j => j.rank == 6 | none => false) || s.nv.waiting.any fun j => j.rank == 6

/-- A user of a rank holds the interface or waits for it. -/
def nvHas (s : State) (r : Nat) : Bool :=
  (match s.nv.holder with | some j => j.rank == r | none => false) || s.nv.waiting.any fun j => j.rank == r

/-! ## The NOR reports (R567) -/

/-- The effect of a completed operation and whether its read-back matches. -/
def nvDone (s : State) (j : NvJob) (st : NvStep) : Bool × State :=
  match st with
  | .erase _ => (true, opProgress s j.op 65536)
  | .program a bs =>
    let s := norProgram s a bs
    (norBytes s a bs.length == bs, opProgress s j.op bs.length)
  | .putSet pos p => (true, { s with nv := { s.nv with sets := s.nv.sets ++ [(pos, p)] } })
  | .mirror i m =>
    (true, setFs { s with nv := { s.nv with mirrors := s.nv.mirrors ++ [(i, m)] } } [(NVS_RETSEQ.SEQ, m.seq), (NVS_RETTAI.SEC, m.sec)])
  | .record slot len crc base gen =>
    let bs := recordBytes slot gen len crc base (taiSec s.time.tai % 2 ^ 32)
    let s := norProgram s (0x10000 * slot) bs
    if norBytes s (0x10000 * slot) 32 == bs then
      let s := setF (foldSets s base) (NVS_GEN.GEN slot) gen
      (true, if j.opcode = 0x0606 then { s with nv := { s.nv with lost := none } } else s)
    else (false, s)
  | _ => (true, s)

/-- NOR_OPERATION_DONE (R567): the operation in progress is complete, and the user goes on, or ends after an ABORT or a read-back
that differs. -/
def execNorOperationDone (s : State) : Host.Outcome State Fault Refusal :=
  .next (match s.nv.holder with
    | none => s
    | some j =>
      match j.steps with
      | [] => s
      | st :: rest =>
        let (ok, s) := nvDone s j st
        if !ok then nvFinish s 0x10 else if j.aborted then nvFinish s 0x0F else nvGo rest s)

/-! ## Journal mirror and snapshots (R529, R582) -/

/-- JOURNAL_MIRROR (R529): every 10 s the entries that are not mirrored go to the journal area. -/
def execJournalMirror (s : State) : Host.Outcome State Fault Refusal :=
  .next (if absent s || norAbsent s || nvHas s 4 || (journalSteps s).isEmpty then s else nvRequest s (deviceJob 4 []))

/-- A snapshot of the retentive store is taken; one that has not reached the NV store is abandoned (R582). -/
def takeSnapshot (s : State) : State :=
  if norAbsent s then s
  else
    let s := nvDropRank s 5
    nvRequest { s with nv := { s.nv with snapshot := some (snapshotNow s) } } (deviceJob 5 [])

/-- RET_SNAPSHOT (R582): PERIOD has passed, in a mode from STOP to TAKEOVER. -/
def execRetSnapshot (s : State) : Host.Outcome State Fault Refusal :=
  .next (if isSet s NVS_RETCFG.MIRROR_EN && inMode s [.stop, .run, .runEdit, .track, .takeover] then takeSnapshot s else s)

/-! ## Images (R569, R585) -/

/-- Page programs for bytes from an address (R585 step 3). -/
def pageSteps (a : Nat) (bs : List Byte) : List NvStep :=
  let first := 256 - a % 256
  let n := bs.length
  let head := if n = 0 then [] else [NvStep.program a (bs.take first)]
  let tail := (List.range ((n - first + 255) / 256)).map fun i => NvStep.program (a + first + 256 * i) ((bs.drop (first + 256 * i)).take 256)
  head ++ tail

/-- Erase of the sectors that cover a length (R585 step 2). -/
def eraseSteps (a n : Nat) : List NvStep := (List.range ((n + 65535) / 65536)).map fun i => .erase (a + 65536 * i)

/-- A section of an image: type, attribute, content. -/
abbrev NvSection := Nat × Nat × List Byte

/-- An image of sections (R569, Table 20.3). -/
def imageBytes (part : Nat) (secs : List NvSection) : List Byte :=
  let len := 4096 + (secs.map fun x => x.2.2.length).sum
  let heads := (secs.foldl (fun (p : Nat × List Nat) x =>
    (p.1 + x.2.2.length, p.2 ++ [x.1 * 2 ^ 24 + x.2.1, p.1, x.2.2.length, crc32 x.2.2])) (4096, [])).2
  let words := [0x58494D47, 1, len, part, secs.length, 0, 0, 0] ++ heads
  let h := words.flatMap (beBytes 4)
  h ++ List.replicate (4096 - h.length) 0xFF ++ secs.flatMap fun x => x.2.2

/-- The sections of an image whose header stands at an address: type, attribute, offset, length, CRC (Table 20.3). -/
def sectionHeads (s : State) (a : Nat) : List (Nat × Nat × Nat × Nat × Nat) :=
  (List.range (min 16 (norWord s (a + 16)))).map fun i =>
    let w (k : Nat) : Nat := norWord s (a + 32 + 16 * i + 4 * k)
    (w 0 / 2 ^ 24, w 0 % 2 ^ 24, w 1, w 2, w 3)

/-- The content of a section of a slot. -/
def sectionOf (s : State) (slot type : Nat) : Option (Nat × List Byte) :=
  ((sectionHeads s (slotBase slot)).find? fun h => h.1 == type).map fun h =>
    (h.2.1, norBytes s (slotBase slot + h.2.2.1) h.2.2.2.1)

/-- PROGRAM of the active bank: identity, then the bundles up to the highest that is not empty (Table 20.4). -/
def programSection (s : State) : List Byte :=
  let pid := activePid s
  let top := (activeBank s).foldl (fun m p => max m (p.1 / 8 + 1)) 0
  beBytes 4 pid.1 ++ beBytes 4 pid.2 ++ (List.range (8 * top)).flatMap fun k => beBytes 4 (sget 0 (activeBank s) k).toNat

/-- DTABLE: VERSION, then the 64 entries (Table 20.4). -/
def tableSection (s : State) : List Byte :=
  beBytes 4 (getF s CORE_DTVER.VERSION) ++ (List.range 64).flatMap fun n => (List.range 36).flatMap fun w => beBytes 4 (dtWord s n w)

/-- CONFIG: the RW and RW-T fields that differ from reset outside RST_ and NVS_, and the rules through their window (Table 20.4). -/
def configPairs (s : State) : List (Nat × Nat) :=
  let addrs := ((s.regs.map fun p => p.1 / 32).filter fun a =>
    a < 0x40100000 && a != CORE_DTVER.VERSION.addr &&
      ((regFields a).getD []).any fun f => (f.acc == .rw || f.acc == .rwt) && getF s f != f.rst).eraseDups
  let plain := addrs.map fun a => (a, ((regFields a).getD []).foldl (fun v f =>
    if f.acc == .rw || f.acc == .rwt then v + getF s f * 2 ^ f.lo else v) 0)
  let base := 0x51000000 + 0x10000 * getF s CLS_STAT.BANK
  let rules := s.regs.filterMap fun p =>
    let a := p.1 / 32
    if base ≤ a ∧ a < base + 0x10000 ∧ a % 64 < 60 then some ((a - base) / 64, a % 64, p.2) else none
  plain ++ rules.flatMap fun r => [(CLS_RSEL.INDEX.addr, r.1), (0x40070040 + r.2.1, r.2.2)]

/-- The image that NV_SAVE builds (R585). -/
def savedImage (s : State) : List Byte :=
  let slot := getF s NVS_STAT.BOOTSLOT
  let fw := if slot < 2 then (match sectionOf s slot 1 with | some (at', bs) => [(1, at', bs)] | none => []) else []
  imageBytes 0x000E4004 (fw ++ [(2, 0, programSection s), (3, 0, tableSection s),
    (4, 0, (configPairs s).flatMap fun p => beBytes 4 p.1 ++ beBytes 4 p.2)])

/-! ## Class N commands (R513, R517, R585 to R587) -/

/-- A refusal because of the running supervisor code is counted (R586). -/
def selfRefused (s : State) : ZAns × State := (.done 0x0C [], incStop s NVS_CNT.SELF)

/-- A class N command without a NOR (R566). -/
def noNor (s : State) : ZAns × State := (.done 0x10 [], incStop s NVS_CNT.FAIL)

/-- A class N command whose reply waits for the interface. -/
def nvSoon (s : State) (rq : ZReq) (opcode object detail : Nat) (steps : List NvStep) : ZAns × State :=
  let r : NvReply := { rq := rq, opcode := opcode, object := object, detail := detail }
  (.later, nvRequest s { deviceJob 6 steps with reply := some r, opcode := opcode })

/-- A class N command that is a long operation. -/
def nvLong (s : State) (rq : ZReq) (opcode : Nat) (steps : List NvStep) (result : List Byte) : ZAns × State :=
  match opTake s rq opcode with
  | none => (.done 1 [], s)
  | some (i, s) => (.accepted i, nvRequest s { deviceJob 6 steps with op := some i, opcode := opcode, result := result })

/-- The CR sector of the slot that was not booted is erased first when a range touches that slot (R587). -/
def unrecord (s : State) (a n : Nat) : List NvStep :=
  (List.range 2).flatMap fun i =>
    if getF s NVS_STAT.BOOTSLOT ≠ i ∧ touches a n (slotBase i) 0x800000 then [.erase (0x10000 * i)] else []

/-- NV_READ (R517). -/
def zNvRead (s : State) (rq : ZReq) (a n : Nat) : ZAns × State :=
  if n = 0 ∨ 1024 < n then (.done 4 [], s)
  else if nvBusyN s then (.done 1 [], s)
  else if norAbsent s then noNor s
  else if getF s NVS_SIZE.BYTES < a + n then (.done 4 [], s)
  else nvSoon s rq 0x0600 a 0 [.read a n]

/-- NV_ERASE (R568, R586, R587). -/
def zNvErase (s : State) (rq : ZReq) (a n : Nat) : ZAns × State :=
  if a % 65536 ≠ 0 ∨ n % 65536 ≠ 0 then (.done 4 [], s)
  else if nvBusyN s then (.done 1 [], s)
  else if norAbsent s then noNor s
  else if selfBank s a n then selfRefused s
  else if getF s NVS_SIZE.BYTES < a + n ∨ deviceOwned a n ∨ neverWritten a n then (.done 4 [], s)
  else nvLong s rq 0x0601 (unrecord s a n ++ eraseSteps a n) []

/-- NV_PROGRAM (R568, R586, R587). -/
def zNvProgram (s : State) (rq : ZReq) (a : Nat) (bs : List Byte) : ZAns × State :=
  let n := bs.length
  if n = 0 ∨ 256 < n ∨ 256 < a % 256 + n then (.done 4 [], s)
  else if nvBusyN s then (.done 1 [], s)
  else if norAbsent s then noNor s
  else if selfBank s a n then selfRefused s
  else if getF s NVS_SIZE.BYTES < a + n ∨ deviceOwned a n ∨ neverWritten a n then (.done 4 [], s)
  else nvSoon s rq 0x0602 a 0 (unrecord s a n ++ [.program a bs])

/-- NV_IMAGE_OPEN: steps 1 and 2 of Table 20.9 (R585). -/
def zNvImageOpen (s : State) (rq : ZReq) (slot len crc : Nat) : ZAns × State :=
  if 1 < slot ∨ 0x800000 < len then (.done 4 [], s)
  else if nvBusyN s then (.done 1 [], s)
  else if norAbsent s then noNor s
  else if getF s NVS_STAT.BOOTSLOT = slot then selfRefused s
  else
    match nvLong { s with zcp := { s.zcp with imgOpen := some (slot, len, crc, newGen s) } } rq 0x0603
        (NvStep.erase (0x10000 * slot) :: eraseSteps (slotBase slot) len) [] with
    | (.accepted i, s1) => (.accepted i, s1)
    | (a, _) => (a, s)

/-- NV_IMAGE_DATA: step 3 for its bytes (R585). Without an open image it returns BAD_PARAM (DEDUCED). -/
def zNvImageData (s : State) (rq : ZReq) (ofs : Nat) (bs : List Byte) : ZAns × State :=
  if bs.length = 0 ∨ 1024 < bs.length then (.done 4 [], s)
  else if nvBusyN s then (.done 1 [], s)
  else if norAbsent s then noNor s
  else
    match s.zcp.imgOpen with
    | none => (.done 4 [], s)
    | some (slot, len, _, _) =>
      if len < ofs + bs.length then (.done 4 [], s)
      else nvSoon s rq 0x0604 ofs 0 (pageSteps (slotBase slot + ofs) bs)

/-- NV_IMAGE_CLOSE: steps 4 to 6 (R585). -/
def zNvImageClose (s : State) (rq : ZReq) : ZAns × State :=
  if nvBusyN s then (.done 1 [], s)
  else if norAbsent s then noNor s
  else
    match s.zcp.imgOpen with
    | none => (.done 4 [], s)
    | some (slot, len, crc, gen) =>
      nvLong s rq 0x0605 [.verify slot len crc, .record slot len crc (getF s TXN_CREC_LAST.SEQ) gen] []

/-- NV_SAVE: all the steps, over an image of what is active, in the slot not booted from (slot 0 when none was booted, log entry
23, DESIGN CHOICE); a retentive snapshot is taken too (R582, R585). -/
def zNvSave (s : State) (rq : ZReq) : ZAns × State :=
  if nvBusyN s then (.done 1 [], s)
  else if norAbsent s then noNor s
  else
    let slot := if getF s NVS_STAT.BOOTSLOT = 0 then 1 else 0
    let img := savedImage s
    if 0x800000 < img.length then (.done 4 [], s)
    else
      let crc := crc32 img
      match nvLong s rq 0x0606 (NvStep.erase (0x10000 * slot) :: eraseSteps (slotBase slot) img.length ++
          pageSteps (slotBase slot) img ++
          [.verify slot img.length crc, .record slot img.length crc (getF s TXN_CREC_LAST.SEQ) (newGen s)])
          (beBytes 1 slot) with
      | (.accepted i, s1) => (.accepted i, takeSnapshot s1)
      | (a, s1) => (a, s1)

/-- An ABORT of a class N operation before its point of no return: it ends at once while it waits, else after the operation of
the NOR in progress (R516, R585). -/
def nvAbort (s : State) (i : Nat) : State :=
  if (match s.nv.holder with | some j => j.op == some i | none => false) then updHolder s fun j => { j with aborted := true }
  else
    let open' := (opSlot s i).opcode == 0x0603
    let s := { s with nv := { s.nv with waiting := s.nv.waiting.filter fun j => j.op != some i } }
    let s := if open' then { s with zcp := { s.zcp with imgOpen := none } } else s
    opEnd s i 0x0F []

end Sys2Proof.Machine
end

