-- ==== Sys2Proof/Machine/Rules.lean ====
section
/-!
DEFINITION. The rule banks of the classifier as words (spec/11_ingress_classifier.md, R318 to R320, Tables 11.3 and 11.4), and
the fields behind an address: where a window register reads, and where a staging write goes (R241, R318;
spec/21_register_map.md, window registers).
-/

namespace Sys2Proof.Machine

open Reg

/-! ## Rules (R318, R319) -/

/-- Word w of rule i of bank b. -/
def ruleF (b i w : Nat) : Fld := ⟨0x51000000 + 0x10000 * b + 64 * i + 4 * w, 0, 32, .rwt, 0⟩

/-- The value of a word of a rule. -/
def ruleWord (s : State) (b i w : Nat) : Nat := getF s (ruleF b i w)

/-- The active bank (R318). -/
def clsBank (s : State) : Nat := getF s CLS_STAT.BANK

/-- A rule as its sixteen words. -/
def ruleWords (s : State) (b i : Nat) : List Nat := (List.range 16).map (ruleWord s b i)

/-- Fields of a rule (Table 11.3). -/
def rValid (r : List Nat) : Bool := bitOf (nth 0 r 0) 31
@[inherit_doc rValid] def rPorts (r : List Nat) : Nat := bitsOf (nth 0 r 0) 27 4
@[inherit_doc rValid] def rClass (r : List Nat) : Nat := bitsOf (nth 0 r 0) 22 5
@[inherit_doc rValid] def rAction (r : List Nat) : Nat := bitsOf (nth 0 r 0) 19 3
@[inherit_doc rValid] def rTrip (r : List Nat) : Bool := bitOf (nth 0 r 0) 18
@[inherit_doc rValid] def rMirror (r : List Nat) : Bool := bitOf (nth 0 r 0) 17
@[inherit_doc rValid] def rStamp (r : List Nat) : Bool := bitOf (nth 0 r 0) 16
@[inherit_doc rValid] def rPay (r : List Nat) : Bool := bitOf (nth 0 r 0) 15
@[inherit_doc rValid] def rOrph (r : List Nat) : Bool := bitOf (nth 0 r 0) 14
@[inherit_doc rValid] def rAnc (r : List Nat) (i : Nat) : Nat := bitsOf (nth 0 r 1) (8 * i + 6) 2
@[inherit_doc rValid] def rOfs (r : List Nat) (i : Nat) : Nat := bitsOf (nth 0 r 1) (8 * i) 6
@[inherit_doc rValid] def rVal (r : List Nat) (i : Nat) : Nat := nth 0 r (2 + i)
@[inherit_doc rValid] def rMsk (r : List Nat) (i : Nat) : Nat := nth 0 r (6 + i)
@[inherit_doc rValid] def rArg (r : List Nat) : Nat := nth 0 r 10
@[inherit_doc rValid] def rTval (r : List Nat) : Bool := bitOf (nth 0 r 11) 20
@[inherit_doc rValid] def rTaddr (r : List Nat) : Nat := bitsOf (nth 0 r 11) 0 20
@[inherit_doc rValid] def rSaddr (r : List Nat) : Nat := bitsOf (nth 0 r 12) 0 19
@[inherit_doc rValid] def rPattern (r : List Nat) : Nat := bitsOf (nth 0 r 13) 8 7
@[inherit_doc rValid] def rMqueue (r : List Nat) : Nat := bitsOf (nth 0 r 13) 4 3
@[inherit_doc rValid] def rMport (r : List Nat) : Nat := bitsOf (nth 0 r 13) 0 2
@[inherit_doc rValid] def rStn (r : List Nat) : Option Nat :=
  if bitOf (nth 0 r 14) 8 then some (bitsOf (nth 0 r 14) 0 8) else none

/-- Bits that Tables 11.3 and 11.4 do not list are 0. -/
def rReservedZero (r : List Nat) : Bool :=
  let arg := match rAction r with
    | 0 => rArg r == 0
    | 1 => rArg r / 512 == 0 && rArg r / 16 % 16 < 8 && !bitOf (rArg r) 7
    | 2 => rArg r < 16
    | 3 => rArg r < 64
    | _ => true
  nth 0 r 0 % 2 ^ 14 == 0 && nth 0 r 11 < 2 ^ 21 && nth 0 r 12 < 2 ^ 19 &&
    nth 0 r 13 / 2 ^ 15 == 0 && !bitOf (nth 0 r 13) 7 && bitsOf (nth 0 r 13) 2 2 == 0 && nth 0 r 14 < 512 && arg

/-- The rules of a bank that are valid and readable, in ascending index, with their words (R321, R339). -/
def validRules (s : State) (b : Nat) : List (Nat × List Nat) :=
  let base := 0x51000000 + 0x10000 * b
  let idx := s.regs.filterMap fun p =>
    let a := p.1 / 32
    if base ≤ a ∧ a < base + 0x10000 ∧ (a - base) % 64 = 0 ∧ bitOf p.2 31 then some ((a - base) / 64) else none
  (idx.filter fun i => !s.cls.badRules.contains (1024 * b + i)).map fun i => (i, ruleWords s b i)

/-- The words of the active bank but the hit counts become those of the other bank, with the marks of R339: the shadow starts
as the active set (R241). -/
def ruleShadow (s : State) : State :=
  let b := clsBank s
  let src := 0x51000000 + 0x10000 * b
  let dst := 0x51000000 + 0x10000 * (1 - b)
  let kept := s.regs.filter fun p => decide (p.1 / 32 < dst) || decide (dst + 0x10000 ≤ p.1 / 32)
  let copy := (s.regs.filter fun p => decide (src ≤ p.1 / 32) && decide (p.1 / 32 < src + 0x10000) && decide (p.1 / 32 % 64 < 60)).map
    fun p => ((p.1 / 32 - src + dst) * 32, p.2)
  let lower := kept.filter fun p => p.1 < dst * 32
  let upper := kept.filter fun p => dst * 32 ≤ p.1
  let marks := s.cls.badRules.filter fun r => r / 1024 == b
  { s with regs := lower ++ copy ++ upper, cls := { s.cls with badRules := marks ++ marks.map fun r => 1024 * (1 - b) + r % 1024 } }

/-- The banks exchange roles; the hits of the bank that becomes active start at 0 (R318, Table 11.3). -/
def ruleSwap (s : State) : State :=
  let b := 1 - clsBank s
  let base := 0x51000000 + 0x10000 * b
  setF { s with regs := s.regs.filter fun p =>
      !(decide (base ≤ p.1 / 32) && decide (p.1 / 32 < base + 0x10000) && p.1 / 32 % 64 == 60) } CLS_STAT.BANK b

/-! ## The fields behind an address -/

/-- Where a window register reads: the table entry and the active rule that the selectors name. -/
def readFields (s : State) (a : Nat) : Option (List Fld) :=
  if 0x40030800 ≤ a ∧ a < 0x40030C00 then some [dtF ((a - 0x40030800) / 16) ((a - 0x40030800) / 4 % 4)]
  else if 0x40030C00 ≤ a ∧ a < 0x40030C80 then some [dtF (getF s CORE_DTSEL.ENTRY) (4 + (a - 0x40030C00) / 4)]
  else if 0x40070040 ≤ a ∧ a < 0x40070080 then some [ruleF (clsBank s) (getF s CLS_RSEL.INDEX) ((a - 0x40070040) / 4)]
  else regFields a

/-- The fields a staging write reaches: the RW-T fields of the register; rules are staged in the bank that is not active (R241,
R318). -/
def stageFields (s : State) (a : Nat) : List Fld :=
  if 0x40070040 ≤ a ∧ a < 0x4007007C then [ruleF (1 - clsBank s) (getF s CLS_RSEL.INDEX) ((a - 0x40070040) / 4)]
  else if 0x4007007C ≤ a ∧ a < 0x40070080 then []
  else ((readFields s a).getD []).filter fun f => f.acc == .rwt

/-- A rule word. -/
def isRule (f : Fld) : Bool := 0x51000000 ≤ f.addr && f.addr < 0x51020000

/-- A word of the decode table, or its version. -/
def isTable (f : Fld) : Bool := (0x50000000 ≤ f.addr && f.addr < 0x50010000) || f.addr == CORE_DTVER.VERSION.addr

/-- A field of the task table: tasks, windows, output map (Table 9.2). -/
def isTaskTable (f : Fld) : Bool := 0x40040000 ≤ f.addr && f.addr < 0x40050000

end Sys2Proof.Machine
end

