-- ==== Sys2Proof/Machine/Validate.lean ====
section
/-!
DEFINITION. What a transaction commit is refused with BAD_PARAM for: the checks that PREPARE runs over the fields as the effect
would leave them. Each check answers true when its rule has nothing to refuse; the rules stand in the chapters of the blocks.
-/

namespace Sys2Proof.Machine

open Reg

/-- Two ranges of addresses share an address. -/
def overlap (a n b m : Nat) : Bool := decide (a < b + m) && decide (b < a + n)

/-- No range of a list overlaps a later one. -/
def disjoint : List (Nat × Nat) → Bool
  | [] => true
  | x :: t => t.all (fun y => !overlap x.1 x.2 y.1 y.2) && disjoint t

/-- No element of a list occurs again. -/
def distinct : List Nat → Bool
  | [] => true
  | x :: t => !t.contains x && distinct t

/-- A value lies in a closed range. -/
def within (lo hi v : Nat) : Bool := decide (lo ≤ v) && decide (v ≤ hi)

/-- A range of words lies in the input word region, a range of bits in the input bit region (Tables 5.1, 5.2). -/
def inputWords (a n : Nat) : Bool := a + n ≤ 0x4000
@[inherit_doc inputWords] def inputBits (a n : Nat) : Bool := a + n ≤ 0x10000

/-! ## Directory and standby (R16, R271, R308) -/

/-- The entries of the directory that are valid. -/
def dirValid (s : State) : List Nat := (List.range 256).filter fun i => isSet s (SYS_DIR_CTRL.VALID i)

/-- R16, R271: no MAC address twice, every PARTNER a valid entry other than its own, and the roles of a pair complementary and
mutual. A PARTNER is checked where ROLE is not 0b00 (DEDUCED: a unit of ROLE 0b00 has no partner). -/
def checkDir (s : State) : Bool :=
  let v := dirValid s
  let par (i : Nat) := getF s (SYS_DIR_CTRL.PARTNER i)
  let role (i : Nat) := getF s (SYS_DIR_CTRL.ROLE i)
  distinct (v.map (stnMac s)) &&
    v.all fun i => role i == 0 || (par i != i && isSet s (SYS_DIR_CTRL.VALID (par i)) &&
      (role i == 3 || (role (par i) + role i == 3 && par (par i) == i)))

/-- R308. -/
def checkSby (s : State) : Bool :=
  within 30 10000 (getF s SBY_TMO.LOSS_TMO) && within 20 10000 (getF s SBY_TMO.LAG) && isSet s SBY_CFG.NEG_TMO &&
    getF s SBY_CFG.DIV_POL < 2

/-! ## Plumb, tag policy (R65, R132, R158) -/

/-- R65, R132, R158. -/
def checkPlb (s : State) : Bool :=
  within 1000 19200 (getF s PLB_SRCCFG.RATE) && getF s PLB_SRCCFG.RATE % f0Of s == 0 &&
    (!isSet s PLB_OUT.EN || inputWords (getF s PLB_OUT.ADDR) 4) &&
    (List.range 8).all fun t => bitsOf (getF s CORE_TAGPOL.POL) (2 * t) 2 != 3

/-! ## The decode table (R194, R195, R208, Table 7.3) -/

/-- A unit of the MAC bank (Table 7.2). -/
def macroUnit (u : Nat) : Bool := [1, 2, 3, 4, 7, 8, 9, 10, 12].contains u

/-- A source, and a destination, of the micro port space (Table 7.2). -/
def microSrcOk (p : Nat) : Bool :=
  0x400 ≤ p || p < 3 || (macroUnit (p / 16) && p % 16 < 4) || within 0xF0 0xF4 p || within 0xF8 0xFF p
@[inherit_doc microSrcOk] def microDstOk (p : Nat) : Bool :=
  let u := p / 16
  let q := p % 16
  p == 0 || (macroUnit u && q < 4) || (within 1 4 u && 4 ≤ q) || ((within 7 10 u) && within 4 6 q) ||
    (u == 12 && q == 6) || within 0xF0 0xF3 p || within 0xF8 0xFF p

/-- The latency of the operation a micro-trigger starts (Table 6.1). -/
def microLat (dst : Nat) : Nat :=
  match pureOp (dst / 16) (dst % 16) with
  | some op => op.lat
  | none => 4

/-- A micro-move at position m of K in an entry of latency L keeps the rules Port, Guard, Move and Completion; S0 to S7 at 0xF8 to
0xFF are no triggers. -/
def microOk (k l m : Nat) (v : Move) : Bool :=
  let imm := 0x400 ≤ v.src || v.src == 1
  microSrcOk v.src && microDstOk v.dst && (v.gidx < 8 || v.gidx == 15) && !v.trc &&
    (if imm then v.itag != 0 && v.itag != 15 else v.itag == 0) && (0x400 ≤ v.src || !v.sh16) && (v.src != 1 || m + 1 < k) &&
    (!isTrig v.dst || v.dst / 16 == 15 || decide (m + microLat v.dst ≤ l))

/-- An accept mask keeps R194. -/
def maskOk (m : Nat) : Bool := m == 0 || m == 0xFFFF || (!bitOf m 0 && !bitOf m 15)

/-- A valid entry keeps the rules of Table 7.3; `ws` are its 36 words. -/
def entryOk (ws : List Nat) : Bool :=
  let w (i : Nat) := nth 0 ws i
  let k := bitsOf (w 0) 8 5 + 1
  let l := bitsOf (w 0) 16 6
  let ref := w 0 % 8
  let mask (i : Nat) : Nat := match i with
    | 0 => w 1 % 65536
    | 1 => w 2 / 65536
    | 2 => w 2 % 65536
    | 3 => w 3 / 65536
    | _ => w 1 / 65536
  k ≤ l && l != 0 && ((microMoves ((ws.drop 4).take k)).zipIdx.all fun p => match p.1 with
      | some v => microOk k l p.2 v
      | none => true) &&
    (List.range 5).all (fun i => maskOk (mask i)) && ref < 5 && mask ref != 0 && mask ref != 0xFFFF &&
    (List.range 4).all fun i => [0, 13, 14].contains (bitsOf (w 3) (4 * i) 4)

/-- R208 for a table of 64 entries given by its words and a version. -/
def tableOk (word : Nat → Nat → Nat) (version : Nat) : Bool :=
  (List.range 64).all fun n => !bitOf (word n 0) 31 || (version != 0 && entryOk ((List.range 36).map (word n)))

/-- The CRC of a table (R209). -/
def tableCrc (word : Nat → Nat → Nat) (version : Nat) : Nat :=
  if version = 0 then 0
  else crc32 ((List.range 64).flatMap fun n => (List.range 36).flatMap fun w => leBytes (word n w))

/-! ## Tasks (R220, R229, R240) -/

/-- R240 for a task. -/
def taskOk (s : State) (t : Nat) : Bool :=
  let per := getF s (SCN_PERIOD.PERIOD t)
  let n := getF s (SCN_ANG.N t)
  getF s (SCN_TCFG.TRIG t) != 3 && getF s (SCN_TCFG.OVR t) != 3 && getF s (SCN_TCFG.CMODE t) != 3 &&
    within 8 40000000 per && decide (getF s (SCN_PHASE.PHASE t) < per) && within 1 256 n &&
    decide (getF s (SCN_ANG.FIRST t) < n) && within 1 n (getF s (SCN_ANG.COUNT t)) && isSet s (SCN_EDGE.POL t)

/-- R220 for a window entry. -/
def winOk (w : Win) : Bool :=
  w.len != 0 && (match w.out, w.word with
    | false, false => inputBits w.addr w.len
    | false, true => inputWords w.addr w.len
    | true, false => decide (0x10000 ≤ w.addr) && decide (w.addr + w.len ≤ 0x20000)
    | true, true => decide (0x4000 ≤ w.addr) && decide (w.addr + w.len ≤ 0x8000))

/-- The enabled tasks. -/
def tasksOn (s : State) : List Nat := (List.range 8).filter fun t => isSet s (SCN_TCFG.EN t)

/-- R220, R240 for all enabled tasks: the output windows of different tasks do not overlap. -/
def checkTasks (s : State) : Bool :=
  let ts := tasksOn s
  ts.all (fun t => taskOk s t && (winEntries s t false).all winOk && (winEntries s t true).all winOk) &&
    ts.all fun t => ts.all fun u => u ≤ t || (winEntries s t true).all fun a => (winEntries s u true).all fun b =>
      a.word != b.word || !overlap a.addr a.len b.addr b.len

/-- R229, R426: the output map. -/
def checkMap (s : State) : Bool :=
  let es := omapEntries s
  let field := es.filter fun e => e.kind == 1
  (List.range 64).all (fun m => getF s (SCN_OMAP_SRC.KIND m) < 5) &&
    es.all (fun e => (tasksOn s).any fun t => covers s t e) &&
    field.all (fun e => e.len == 4 && !e.word && e.daddr == 0 && e.target < 8 && bitOf (getF s FLD_HCTL.EN) e.target) &&
    distinct (field.map fun e => e.target) &&
    es.all fun e => (e.kind != 2 || e.target != ownStn s) && (e.kind != 3 || e.target < 16)

/-! ## Classifier (R322, R333) -/

/-- The enabled streams with their header and ring ranges. -/
def streamsOn (s : State) : List Nat := (List.range 64).filter fun m => isSet s (CLS_S_HDR.EN m)

/-- Channels of a stream. -/
def streamCh (s : State) (m : Nat) : Nat := getF s (CLS_S_CFG.NCHM1 m) + 1

/-- The word ranges of a stream: header block, rings (R333). -/
def streamRanges (s : State) (m : Nat) : List (Nat × Nat) :=
  [(getF s (CLS_S_HDR.ADDR m), 8 + streamCh s m),
   (getF s (CLS_S_RING.ADDR m), streamCh s m * getF s (CLS_S_RING.RLEN m))]

/-- The STAMP pairs of the valid rules of a bank. -/
def stampRanges (rules : List (Nat × List Nat)) : List (Nat × Nat) :=
  (rules.filter fun r => rStamp r.2).map fun r => (rSaddr r.2, 2)

/-- R322 for a rule. -/
def ruleOk (s : State) (r : List Nat) : Bool :=
  rAction r < 4 && rClass r < 16 && rPorts r != 0 && rReservedZero r &&
    (rAction r != 3 || (rClass r == 10 && isSet s (CLS_S_HDR.EN (rArg r)))) &&
    (!rTrip r || (!rPay r && within 0x40000 0xEFFFF (rTaddr r))) && (!rStamp r || inputWords (rSaddr r) 2) &&
    (rAction r != 1 || rArg r % 16 != 0) &&
    (!rPay r || (isSet s (CLS_PAT_C.VALID (rPattern r)) && (rPorts r &&& getF s CLS_CTRL.PAYPORTS) == rPorts r)) &&
    (!rMirror r || isSet s (CLS_P_CFG.EN (rMport r)))

/-- R322, R333, and the length of a valid pattern, 1 to 32 bytes (Table of CLS_PATn). -/
def checkCls (s : State) : Bool :=
  let rules := validRules s (clsBank s)
  let ss := streamsOn s
  let stamps := stampRanges rules
  rules.all (fun r => ruleOk s r.2) &&
    ss.all (fun m => isSet s (CLS_S_RING.RLEN m) && (streamRanges s m).all fun r => inputWords r.1 r.2 &&
      stamps.all fun x => !overlap r.1 r.2 x.1 x.2) &&
    ss.all (fun m => ss.all fun n => n ≤ m || (streamRanges s m).all fun a => (streamRanges s n).all fun b =>
      !overlap a.1 a.2 b.1 b.2) &&
    (List.range 128).all fun i => !isSet s (CLS_PAT_C.VALID i) || within 1 32 (getF s (CLS_PAT_C.LEN i))

/-! ## Egress (R351, R360, R605) -/

/-- R351, R605 for a port. -/
def portOk (s : State) (p : Nat) : Bool :=
  let en := isSet s (EGR_GCL.EN p)
  let len := getF s (EGR_GCL.LEN p)
  let gate (i : Nat) := getF s (EGR_GATE.W p i 0)
  let closed (q : Nat) : Bool := en && (List.range len).all fun i => !bitOf (gate i) q
  let hv := bitOf s.pins.vsel (if p < 2 then 1 else 2)
  (!en || (within 1 256 len && within 1000 1000000000 (getF s (EGR_GCYCLE.NS p)) && getF s (EGR_GBASE_NS.NS p) < 1000000000)) &&
    (List.range (min len 256)).all (fun i => gate i < 256 && within 8 1000000000 (getF s (EGR_GATE.W p i 1))) &&
    (List.range 8).all (fun q => within 1 64 (getF s (EGR_QCFG.LIMIT p q)) && (!isSet s (EGR_TB.EN p q) ||
      (within 1 1000000 (getF s (EGR_TB.RATE p q)) && within 1526 65536 (getF s (EGR_QCFG.BURST p q))))) &&
    !closed (getF s (EGR_PCFG.RINGQ p)) && !closed (getF s EGR_CTRL.SYSQ) &&
    (!hv || (!isSet s (CLS_P_CFG.IF p) && getF s (CLS_P_CFG.SPEED p) != 3))

/-- R360 for a slot; `es` are the PUBLISH entries that feed it. -/
def slotOk (s : State) (i : Nat) (es : List OMap) : Bool :=
  let len := getF s (EGR_SLOT_CFG.LEN i)
  let hdr (off n : Nat) : Bool := off == 0x7FF || off + n ≤ len
  let enc (j : Nat) := getF s (EGR_ELEM.ENC i j)
  let val (j : Nat) := isSet s (EGR_ELEM.VALID i j)
  let fed := es.flatMap fun e => (List.range e.len).map fun j => e.daddr + j
  (!isSet s (EGR_SLOT_CFG.EN i) || isSet s (EGR_SLOT_CFG.PORTS i)) &&
    (List.range 32).all (fun j => enc j < 2 && (!val j || getF s (EGR_ELEM.OFFSET i j) + (if enc j = 0 then 1 else 4) ≤ len)) &&
    hdr (getF s (EGR_SLOT_OFFS0.STNUM i)) 4 && hdr (getF s (EGR_SLOT_OFFS0.SQNUM i)) 4 && hdr (getF s (EGR_SLOT_OFFS1.TAL i)) 4 &&
    hdr (getF s (EGR_SLOT_OFFS1.T i)) 8 && distinct fed &&
    es.all (fun e => (List.range e.len).all fun j => 32 ≤ e.daddr + j || !val (e.daddr + j) || (enc (e.daddr + j) == 1) == e.word) &&
    (isSet s (EGR_SLOT_CFG.KIND i) || (within 100 65535 (getF s (EGR_SLOT_TIMING.TMIN i)) &&
      within 1 60000 (getF s (EGR_SLOT_TIMING.TMAX i)) &&
      decide (getF s (EGR_SLOT_TIMING.TMIN i) ≤ getF s (EGR_SLOT_TIMING.TMAX i) * 1000)))

/-- R351, R360, R605. -/
def checkEgr (s : State) : Bool :=
  let es := (omapEntries s).filter fun e => e.kind == 3
  (List.range 4).all (fun p => !isSet s (CLS_P_CFG.EN p) || portOk s p) &&
    (List.range 16).all fun i => slotOk s i (es.filter fun e => e.target == i)

/-! ## Priority buses (R368, R370, R379, R381, R392) -/

/-- R370 for an enabled controller; times in core cycles of 2.5 ns (R369). -/
def bitRateOk (s : State) (n : Nat) : Bool :=
  let nt := 3 + getF s (CAN_NBT.NTSEG1M1 n) + getF s (CAN_NBT.NTSEG2M1 n)
  let dt := 3 + getF s (CAN_DBT.DTSEG1M1 n) + getF s (CAN_DBT.DTSEG2M1 n)
  400 ≤ nomBit s n && 50 ≤ dataBit s n && 8 ≤ nt && 5 ≤ dt &&
    decide (getF s (CAN_NBT.NSJWM1 n) ≤ getF s (CAN_NBT.NTSEG2M1 n)) &&
    decide (getF s (CAN_DBT.DSJWM1 n) ≤ getF s (CAN_DBT.DTSEG2M1 n)) && decide (dataBit s n ≤ nomBit s n) &&
    (!isSet s (CAN_DBT.TDC_EN n) || isSet s (CAN_CTRL.FD_EN n))

/-- An enabled object has a length of its format, FD and BRS as the controller permits, and no reserved event policy (R368,
R379). -/
def objOk (s : State) (n j : Nat) : Bool :=
  let fd := isSet s (CAN_OBJ_CFG.FD n j)
  canLenOk fd (getF s (CAN_OBJ_CFG.LEN n j)) && (isSet s (CAN_CTRL.FD_EN n) || (!fd && !isSet s (CAN_OBJ_CFG.BRS n j))) &&
    (fd || !isSet s (CAN_OBJ_CFG.BRS n j)) && getF s (CAN_OBJ_CFG.EVT n j) != 3

/-- The bound of an object's frame in core cycles (Table 13.2). -/
def objBound (s : State) (n j : Nat) : Nat :=
  let (a, b) := frameBits (isSet s (CAN_OBJ_CFG.FD n j)) (isSet s (CAN_OBJ_CFG.BRS n j)) (isSet s (CAN_OBJ_CFG.IDE n j))
    (getF s (CAN_OBJ_CFG.LEN n j))
  a * nomBit s n + b * dataBit s n

/-- The identifier of a ZCP filter passes the reference recognition (R386, R392). -/
def zcpIsRef (s : State) (n : Nat) : Bool :=
  let hit (ide : Bool) (id : Nat) : Bool :=
    ide == isSet s (CAN_TTREF.IDE n) &&
      id % (if ide then 2 ^ 29 else 2 ^ 11) / 8 == getF s (CAN_TTREF.ID n) % (if ide then 2 ^ 29 else 2 ^ 11) / 8
  hit (isSet s (CAN_ZCP_RX.IDE n)) (getF s (CAN_ZCP_RX.ID n)) || hit (isSet s (CAN_ZCP_TX.IDE n)) (getF s (CAN_ZCP_TX.ID n))

/-- R392 for an enabled controller in time-triggered mode. -/
def ttOk (s : State) (n : Nat) : Bool :=
  let vals := (List.range 32).map fun w => isSet s (CAN_TM.VALID n w)
  let nw := (vals.takeWhile id).length
  let tm (w : Nat) := getF s (CAN_TM.TM n w)
  let bclen := getF s (CAN_TTCFG.BCLEN n)
  let close (w : Nat) := if w + 1 < nw then tm (w + 1) else bclen
  let cell (c w : Nat) := (getF s (CAN_CELL.TYPE n c w), getF s (CAN_CELL.OBJ n c w))
  let mcyc := 2 ^ getF s (CAN_TTCFG.MCYCE n)
  let fltOk (valid : Bool) (ide fmt : Nat) := !valid || (ide < 3 && fmt < 3)
  64 ≤ bclen && (vals.drop nw).all (fun b => !b) && (List.range (nw - 1)).all (fun w => decide (tm w < tm (w + 1))) &&
    (nw == 0 || (decide (tm (nw - 1) < bclen) && decide ((frameBits false false (isSet s (CAN_TTREF.IDE n)) 1).1 ≤ tm 0))) &&
    (List.range (min mcyc 64)).all (fun c => (List.range nw).all fun w =>
      let (ty, j) := cell c w
      ty != 3 && (ty != 1 || (isSet s (CAN_OBJ_CFG.EN n j) && getF s (CAN_OBJ_CFG.EVT n j) == 0 &&
        decide (objBound s n j + (getF s (CAN_TTCFG.TXENM1 n) + 1) * nomBit s n ≤ (close w - tm w) * nomBit s n)))) &&
    (List.range 8).all (fun i => fltOk (isSet s (CAN_HPF_CFG.VALID n i)) (getF s (CAN_HPF_CFG.IDE n i)) (getF s (CAN_HPF_CFG.FMT n i))) &&
    (List.range 128).all (fun i => fltOk (isSet s (CAN_AF_CFG.VALID n i)) (getF s (CAN_AF_CFG.IDE n i)) (getF s (CAN_AF_CFG.FMT n i))) &&
    !(isSet s (CAN_TTCFG.MASTER n) && isSet s (CAN_ZCP_RX.EN n) && zcpIsRef s n)

/-- Bytes that a BUS entry fills (R381). -/
def busSpan (e : OMap) : Nat := if e.word then 4 * e.len else (e.len + 7) / 8

/-- R381 for the BUS entries. -/
def busMapOk (s : State) : Bool :=
  let es := (omapEntries s).filter fun e => e.kind == 4
  let bits (e : OMap) : List Nat := (List.range (if e.word then 4 * e.len else (e.len + 7) / 8)).map fun i =>
    65536 * e.target + e.daddr + i
  es.all (fun e => e.target < 64 && isSet s (CAN_CTRL.EN (e.target / 32)) && isSet s (CAN_OBJ_CFG.EN (e.target / 32) (e.target % 32)) &&
    e.daddr + busSpan e ≤ getF s (CAN_OBJ_CFG.LEN (e.target / 32) (e.target % 32))) && distinct (es.flatMap bits)

/-- R368, R370, R379, R381, R392. -/
def checkCan (s : State) : Bool :=
  [0, 1].all (fun n => !isSet s (CAN_CTRL.EN n) || (bitRateOk s n && getF s (CAN_TTCFG.MCYCE n) < 7 &&
    (List.range 32).all (fun j => !isSet s (CAN_OBJ_CFG.EN n j) || objOk s n j) && (!isSet s (CAN_CTRL.MODE n) || ttOk s n))) &&
    busMapOk s

/-! ## Field (R426, R444, the checks of Table 15.11) -/

/-- R426 and the checks of Table 15.11 for a companion's configuration. -/
def cpnOk (s : State) (k : Nat) : Bool :=
  let fail (i : Nat) := bitsOf (getF s (FLD_OCFG.FAIL k)) (2 * i) 2
  let latch (i : Nat) := bitOf (getF s (FLD_OCFG.TSDLATCH k)) i
  let pair (par : Fld) (i : Nat) : Bool := !isSet s par || (fail i == fail (i + 1) && latch i == latch (i + 1))
  (List.range 4).all (fun i => fail i != 3) && isSet s (FLD_FTMO.US k) && pair (FLD_OCFG.PAR01 k) 0 && pair (FLD_OCFG.PAR23 k) 2 &&
    decide (getF s (FLD_GATE.GMIN k) ≤ getF s (FLD_GATE.GMAX k)) &&
    (List.range 12).all fun c => isSet s (FLD_ICFG.DEB k c) &&
      (c < 4 || (!isSet s (FLD_ICFG.RAW k c) && !isSet s (FLD_ICFG.CAPEN k c))) &&
      (isSet s (FLD_ICFG.CAPEN k c) || !isSet s (FLD_ICFG.CAPSS k c)) && (!isSet s (FLD_ICFG.CAPEN k c) || isSet s (FLD_ICFG.EVT k c))

/-- R444 for the input blocks. -/
def inputBlocksOk (s : State) : Bool :=
  let ks := (List.range 8).filter fun k => isSet s (FLD_IBASE.EN k)
  let bits := ks.map fun k => (getF s (FLD_IBASE.ADDR k), 16)
  let words := ks.map fun k => (getF s (FLD_WBASE.ADDR k), 160)
  let others := (streamsOn s).flatMap (streamRanges s) ++ stampRanges (validRules s (clsBank s)) ++
    (if isSet s PLB_OUT.EN then [(getF s PLB_OUT.ADDR, 4)] else [])
  bits.all (fun r => inputBits r.1 r.2) && words.all (fun r => inputWords r.1 r.2) && disjoint bits && disjoint words &&
    words.all fun r => others.all fun x => !overlap r.1 r.2 x.1 x.2

/-- R426, R444 and Table 15.11. -/
def checkFld (s : State) : Bool := (List.range 8).all (cpnOk s) && inputBlocksOk s

/-! ## Line functions (R450 to R476) -/

/-- A task stands as a library function needs it: its entry point and its trigger (R449, R450, Table 16.1). -/
def libTask (s : State) (t slot trig : Nat) : Bool :=
  getF s (SCN_TCFG.ENTRY t) == libWord s slot % 65536 && getF s (SCN_TCFG.TRIG t) == trig

/-- R452 to R454, R459, R463 for an enabled estimator. -/
def estOk (s : State) (e : Nat) : Bool :=
  let m := getF s (PHM_E_CFG.STREAM e)
  let rate := getF s PLB_SRCCFG.RATE
  let per := isSet s (PHM_E_CFG.PERSMP e)
  let nch := streamCh s m
  let rrs := if f0Of s = 50 then [10, 25, 50] else [10, 12, 15, 20, 30, 60]
  let idx (b : Fld) (fs : List Fld) : Bool := !isSet s b || fs.all fun f => decide (getF s f < nch)
  libTask s (getF s (PHM_E_CFG.TASK e)) 2 2 && isSet s (CLS_S_HDR.EN m) && isSet s (CLS_S_HDR.FLOAT m) &&
    getF s (CLS_S_CFG.SMPWRAP m) == rate && (!per || rate ≤ 4800) && within 1 10 (estNp s e) &&
    idx (PHM_E_CFG.SEQV e) [PHM_E_SEQMAP.VA e, PHM_E_SEQMAP.VB e, PHM_E_SEQMAP.VC e] &&
    idx (PHM_E_CFG.SEQI e) [PHM_E_SEQMAP.IA e, PHM_E_SEQMAP.IB e, PHM_E_SEQMAP.IC e] &&
    (per || rrs.contains (getF s (PHM_E_CFG.RR e))) &&
    (match estD s e with
      | some _ => decide (estW s e * estM s + estM s ≤ getF s (CLS_S_RING.RLEN m))
      | none => false) &&
    within 0x4000 (0x8000 - estBlock s e) (getF s (PHM_E_OADDR.ADDR e)) &&
    inOutWindow s (getF s (PHM_E_CFG.TASK e)) true (getF s (PHM_E_OADDR.ADDR e)) (estBlock s e) && isSet s PLB_OUT.EN &&
    (!isSet s (PHM_E_PMU.SEND e) || (isSet s (PHM_E_PMU.PORTS e) && isSet s (PHM_E_DIP.IP e) && isSet s (SYS_DIR_IP4.IPV4 (ownStn s))))

/-- A positive finite binary32. -/
def posFinite (v : Nat) : Bool := 0 < v && v < 0x7F800000

/-- R465, R476 for the fault detector. -/
def detectorOk (s : State) : Bool :=
  phmOn s 0 && estRr s 0 % f0Of s == 0 && within 1 8 (getF s PHM_FD_CFG.PUN) && isSet s PHM_FD_CFG.DON &&
    posFinite (getF s PHM_FD_IPU.TH) && posFinite (getF s PHM_FD_DIPU.TH) && posFinite (getF s PHM_FD_I0PU.TH)

/-- R467, R476 for the phasor locator (3) and the travelling-wave locator (4). -/
def locatorOk (s : State) (tw : Bool) : Bool :=
  let t := getF s PHM_LOC_CFG.TASK
  libTask s t 3 0 && within 1 1000000 (getF s PHM_LOC_LEN.M) && inOutWindow s t true (getF s PHM_LOC_OADDR.ADDR) 8 &&
    (if tw then within 0x42C80000 0x43960000 (getF s PHM_TWV.V) && inOutWindow s t true (getF s PHM_TWPUB.ADDR) 4 &&
        isSet s (FLD_ICFG.CAPEN (getF s PHM_TWCFG.CPN) (getF s PHM_TWCFG.CH))
      else isSet s (PHM_E_CFG.SEQV 0) && isSet s (PHM_E_CFG.SEQI 0) &&
        decide (getF s PHM_LOC_RMT.RV1 < getF s PHM_LOC_RMT.NP) && decide (getF s PHM_LOC_RMT.RI1 < getF s PHM_LOC_RMT.NP))

/-- The line functions; a clause about a function is checked while the function is enabled (DEDUCED). A valid candidate of the
adaptive tracking names an input (Table 16.10). -/
def checkPhm (s : State) : Bool :=
  let on := phmOn s
  (!(on 0 || on 1 || on 2 || on 3 || on 4) || libOk s) && (!on 0 || estOk s 0) && (!on 1 || estOk s 1) && (!on 2 || detectorOk s) &&
    (!on 3 || locatorOk s false) && (!on 4 || locatorOk s true) &&
    (List.range 3).all fun i => !isSet s (ATR_CAND_MODE.VALID i) || within 1 2 (getF s (ATR_CAND_MODE.SRC_MODE i))

/-! ## Calendar and power (R505, R560) -/

/-- R505, R560. -/
def checkPwr (s : State) : Bool :=
  let lo := getF s PWR_AVSLIM.VMIN
  let hi := getF s PWR_AVSLIM.VMAX
  getF s CAL_CHG.ICHG != 3 && getF s CAL_CHG.VLIM != 3 && 720 ≤ lo && hi ≤ 880 && lo ≤ hi && within lo hi (getF s PWR_AVSLIM.VNOM) &&
    within 1 10 (getF s PWR_AVS.STEP) && isSet s PWR_AVS.PERIOD && decide (getF s PWR_AVSTGT.TGT_LO < getF s PWR_AVSTGT.TGT_HI) &&
    within 110 140 (getF s MON_TCFG.TSHUT) && decide (signedOf 8 (getF s MON_TCFG.WARN_LO) < signedOf 8 (getF s MON_TCFG.WARN_HI))

/-! ## All checks -/

/-- What PREPARE checks over the state as the effect would leave it (R246). -/
def validate (s : State) : Bool :=
  checkDir s && checkSby s && checkPlb s && tableOk (dtWord s) (getF s CORE_DTVER.VERSION) && pidMatches s && checkTasks s &&
    checkMap s && checkCls s && checkEgr s && checkCan s && checkFld s && checkPhm s && checkPwr s

end Sys2Proof.Machine
end

