-- ==== Sys2Proof/Machine/Txn.lean ====
section
/-!
DEFINITION. Transactions and online edits (spec/09_edits_and_transactions.md): objects and staging, preparation and persistence,
commit, the effect, rollback, UNDO, Skim edits, and the system-wide commit.
-/

namespace Sys2Proof.Machine

open Reg

/-! ## Objects (R241, Table 9.1) -/

/-- The object of an RW-T field, numbered by the rows of Table 9.1: 0 program bank, 1 decode table, 2 task table, 3 classifier,
4 egress, 5 priority bus, 6 guards and tag policy, 7 system and function parameters. -/
def objNo (a : Nat) : Nat :=
  if (0x50000000 ≤ a ∧ a < 0x50010000) ∨ a = CORE_DTVER.VERSION.addr then 1
  else if 0x40040000 ≤ a ∧ a < 0x40050000 then 2
  else if (0x51000000 ≤ a ∧ a < 0x51020000) ∨ (0x40072000 ≤ a ∧ a < 0x40074000) ∨ a = CLS_STAT.BANK.addr then 3
  else if (0x40081000 ≤ a ∧ a < 0x40083000) ∨ (0x40080100 ≤ a ∧ a < 0x40080500 ∧ 0x10 ≤ a % 256) then 4
  else if 0x40090000 ≤ a ∧ a < 0x400A0000 ∧ 0x200 ≤ a % 0x8000 then 5
  else if (0x40030040 ≤ a ∧ a < 0x40030080) ∨ a = CORE_TAGPOL.POL.addr then 6
  else 7

/-- The object of a key of the register store and its key in that object; rules count as those of the first bank. -/
def objKey (s : State) (k : Nat) : Option (Nat × Nat) :=
  let a := k / 32
  let base := 0x51000000 + 0x10000 * clsBank s
  if 0x50000000 ≤ a ∧ a < 0x50010000 then some (1, k)
  else if base ≤ a ∧ a < base + 0x10000 then if a % 64 < 60 then some (3, k - 32 * 0x10000 * clsBank s) else none
  else if ((regFields a).getD []).any fun f => f.lo == k % 32 && f.acc == .rwt then some (objNo a, k)
  else none

/-- The active content of an object: the fields that differ from reset, by key. -/
def objContent (s : State) (o : Nat) : List (Nat × Nat) :=
  s.regs.filterMap fun p => match objKey s p.1 with
    | some (x, k) => if x = o then some (k, p.2) else none
    | none => none

/-- The CRC of an object's active content (R247; log entry 24, DEDUCED). -/
def objCrc (s : State) (o : Nat) : Nat :=
  if o = 0 then crc32 ((activeBank s).flatMap (fun (p : Nat × Word) => beBytes 4 p.1 ++ beBytes 4 p.2.toNat) ++ beBytes 2 (activePid s).1 ++ beBytes 4 (activePid s).2)
  else crc32 ((objContent s o).flatMap fun (p : Nat × Nat) => beBytes 6 p.1 ++ beBytes 4 p.2)

/-- The objects that the transaction stages. -/
def stagedObjs (s : State) : List Nat :=
  let os : List Nat := s.txn.staged.map fun p => objNo p.1.addr
  (if s.txn.bank then 0 :: os else os).eraseDups

/-- An execution object (R304). -/
def isExec (f : Fld) : Bool :=
  [1, 2, 6].contains (objNo f.addr) || (0x40030400 ≤ f.addr && f.addr < 0x40030800)

/-- The transaction stages an execution object. -/
def stagesExec (s : State) : Bool := s.txn.bank || s.txn.staged.any fun p => isExec p.1

/-- The transaction stages an object of quiet class (R250). -/
def quietClass (s : State) : Bool := (stagedObjs s).any fun o => o < 3

/-! ## The staged content as active content -/

/-- The active bank becomes the other one. -/
def bankSwap (s : State) : State := setF s CORE_BANK.ACTIVE (1 - getF s CORE_BANK.ACTIVE)

/-- A table that becomes active takes its CRC (R209). -/
def tableActive (s : State) : State := setF s CORE_DTCRC.CRC (tableCrc (dtWord s) (getF s CORE_DTVER.VERSION))

/-- The staged fields as active content: rules go to the other bank, which becomes active; an UNDO of rules only exchanges the
banks (R241, R318). -/
def applyFields (s : State) (staged : List (Fld × Nat)) : State :=
  let s := if staged.any fun p => isRule p.1 then ruleSwap (setFs (ruleShadow s) staged)
    else if staged.any fun p => p.1 == CLS_STAT.BANK then
      setFs (ruleSwap s) (staged.filter fun p => p.1 != CLS_STAT.BANK)
    else setFs s staged
  if staged.any fun p => isTable p.1 then tableActive s else s

/-- All that the transaction stages as active content. -/
def applyStaged (s : State) : State :=
  let s := applyFields s s.txn.staged
  if s.txn.bank then bankSwap s else s

/-- What the effect exchanges: the previous values of the staged fields (R241, R254). -/
def undoOf (s : State) (staged : List (Fld × Nat)) : List (Fld × Nat) :=
  ((staged.filter fun p => !isRule p.1).map fun p => (p.1, getF s p.1)) ++
    if staged.any fun p => isRule p.1 then [(CLS_STAT.BANK, clsBank s)] else []

/-- The bundles that the edit has patched, as the inactive bank holds them (R247). -/
def patchDelta (s : State) : List (Nat × Word) :=
  let new := if isSet s CORE_BANK.ACTIVE then s.core.bankA else s.core.bankB
  s.txn.patched.flatMap fun b => (List.range 8).map fun i => (8 * b + i, sget 0 new (8 * b + i))

/-- Bundles of the other bank that differ from those of the active one, by key. -/
def bankDelta (s : State) : List (Nat × Word) :=
  let old := activeBank s
  let new := if isSet s CORE_BANK.ACTIVE then s.core.bankA else s.core.bankB
  let keys := ((old ++ new).map (·.1)).eraseDups
  (keys.filter fun k => sget 0 old k != sget 0 new k).map fun k => (k, sget 0 new k)

/-! ## BEGIN, owners, staging (R243 to R245) -/

/-- PERSIST of a request: 0, 1, or 0xFF for the default; none for any other value. -/
def persistOf (s : State) (p : Nat) : Option Nat :=
  if p < 2 then some p else if p = 0xFF then some (getF s TXN_CFG.PERSIST_DEF) else none

/-- The transaction opens (R243). -/
def txnOpen (s : State) (session : Nat) (spi : Bool) (persist systxn : Nat) (edit : Bool) : State :=
  let q := getF s TXN_SEQ.SEQ
  let id := if systxn = 0 then ownStn s * 2 ^ 24 + q else systxn
  let s := if systxn = 0 then setF s TXN_SEQ.SEQ (q + 1) else s
  let s := txnIdle { s with txn := { s.txn with sysDone := s.txn.sysDone.filter fun d => d.2.1 != id } }
  let s := { s with txn := { s.txn with base := (List.range 8).map fun o => (o, objCrc s o) } }
  setFs s [(TXN_STAT.STATE, 1), (TXN_STAT.EDIT, b2n edit), (TXN_STAT.SYSTEM, b2n (systxn != 0)), (TXN_STAT.PERSIST, persist),
    (TXN_STAT.OWNER, session), (TXN_STAT.OWNER_SPI, b2n spi), (TXN_STAT.UNDO_OK, 0), (TXN_ID.ID, id)]

/-- BEGIN: status and TXN_ID (R243). -/
def txnBegin (s : State) (session : Nat) (spi : Bool) (persist systxn : Nat) : Nat × List Byte × State :=
  if isSet s TXN_STAT.STATE then (6, [], s)
  else match persistOf s persist with
    | none => (4, [], s)
    | some p =>
      let s := txnOpen s session spi p systxn false
      (0, beBytes 4 (getF s TXN_ID.ID), s)

/-- A session owns the transaction; one opened over the host SPI port is owned by that port (R244). -/
def ownsTxn (s : State) (session : Nat) (spi : Bool) : Bool :=
  getF s TXN_STAT.OWNER == session && (!isSet s TXN_STAT.OWNER_SPI || spi)

/-- Whether a staging write is accepted now; `owns` says that the writer owns the transaction (R4, R244, R245). -/
def stageStatus (s : State) (owns : Bool) : Nat :=
  if !isSet s TXN_STAT.STATE then 5 else if !owns then 0xD else if getF s TXN_STAT.STATE ≠ 1 then 6 else 0

/-- The shadow value of a field. -/
def stagedVal (s : State) (f : Fld) : Nat := (s.txn.staged.lookup f).getD (getF s f)

/-- A word is staged in the RW-T fields of a register (R245). -/
def stageWord (s : State) (a v : Nat) : State :=
  (stageFields s a).foldl (fun s f =>
    { s with txn := { s.txn with staged := (s.txn.staged.filter fun p => p.1 != f) ++ [(f, bitsOf v f.lo f.w)] } }) s

/-! ## Preparation (R246 to R248) -/

/-- Bytes of PROGRAM and DTABLE in the accepted slot (R577). -/
def bootProgBytes (s : State) : Nat :=
  let b := getF s NVS_STAT.BOOTSLOT
  if b < 2 then (((sectionHeads s (slotBase b)).filter fun h => h.1 == 2 || h.1 == 3).map fun h => h.2.2.2.1).sum else 0

/-- The set that PERSIST writes (R247, R577; its length is log entry 25, DEDUCED). -/
def persistedSet (s : State) (seq : Nat) : NvSet :=
  let sc := applyStaged s
  let objs := (stagedObjs s).filter (· != 0)
  let held := objs.map fun o => (o, objContent sc o)
  let delta := if s.txn.bank then patchDelta s else []
  let prog := 4 * delta.length + if objs.contains 1 then 64 * 36 * 4 else 0
  { seq := seq, objs := held, bank := if s.txn.bank then some (delta, activePid sc) else none, newVars := s.txn.newVars,
    base := s.txn.base.filter fun b => (stagedObjs s).contains b.1
    size := prog + 8 * (held.map fun h => h.2.length).sum + 12 * s.txn.newVars.length, prog := prog, void := false }

/-- What validation and the room for the set answer: 0, or the status of the first rule broken (R246, R247, R305, R577). -/
def prepCheck (s : State) : Nat :=
  if (s.mode == .track || s.mode == .takeover) && stagesExec s then 6
  else if !validate (applyStaged s) then 4
  else if isSet s TXN_STAT.PERSIST then
    let p := persistedSet s 0
    if 0x100000 < p.size ∨ 3000000 < ((heldSets s).map (·.prog)).sum + p.prog + bootProgBytes s then 4
    else if (freePositions s).isEmpty then 1 else 0
  else 0

/-- The words of a companion's configuration that the transaction stages (R420). -/
def shadowWords (s : State) (k : Nat) : List (Nat × Nat) :=
  let sc := setFs s s.txn.staged
  (cfgAddrs.filter fun a => s.txn.staged.any fun p => p.1.addr == cpnBase k + a).map fun a => (a, rawReg sc (cpnBase k + a))

/-- The write of the set is requested under the next sequence number (R247, R578). -/
def persistSet (s : State) : State :=
  match (freePositions s).head? with
  | none => s
  | some pos =>
    let seq := getF s NVS_TXA.NEXT
    let p := persistedSet s seq
    let s := setF { s with txn := { s.txn with setSeq := some (seq, pos) } } NVS_TXA.NEXT (seq + 1)
    nvRequest s (deviceJob 2 (setSteps pos p))

/-- PREPARING: the set is written with PERSIST, and staged companion words go to the shadows (R246, R247, R420). -/
def prepStart (s : State) : State :=
  let s := setF s TXN_STAT.STATE 2
  let s := if isSet s TXN_STAT.PERSIST then persistSet s else s
  (List.range 8).foldl (fun s k =>
    let ws := shadowWords s k
    if !ws.isEmpty && hubSends s k && hubUp s k then hubShadow s k ws else s) s

/-! ## The unit's messages of a system-wide commit (R255, R258, Table 18.7) -/

/-- A system-wide message to a station through the ports of its directory entry (R255). -/
def sysSendTo (s : State) (opcode : Nat) (data : List Byte) (stn : Nat) : State :=
  let (_, seq, s) := stnRequest s stn (getF s EGR_CTRL.SYSQ) opcode data
  { s with zcp := { s.zcp with outstanding := s.zcp.outstanding ++
      [{ station := stn, seq := seq, opcode := opcode, mapEntry := 0, task := 0, scan := 0 }] } }

/-- The message of the coordinator's step and its parameters. -/
def coordMsg (s : State) : Option (Nat × List Byte) :=
  s.txn.coord.map fun c =>
    let inst := beBytes 1 c.2.1 ++ beBytes 4 c.2.2.1 ++ beBytes 4 c.2.2.2.1 ++ beBytes 4 c.2.2.2.2
    if s.txn.coordStep = 1 then
      (0x0207, beBytes 4 c.1 ++ beBytes 2 (getF s SYS_STATION.SYSTEM_ID) ++ beBytes 4 (getF s SYS_DIRCRC.CRC) ++ inst)
    else if s.txn.coordStep = 3 then (0x0208, beBytes 4 c.1 ++ inst)
    else (0x0209, beBytes 4 c.1)

/-- The message goes to every participant that has not acknowledged it. A unit with a station conflict coordinates no more; only its
ABORT still leaves, so that what it has begun ends (R20; log entry 135, DESIGN CHOICE). -/
def coordSend (s : State) : State :=
  if isSet s SYS_FLAGS.STN_CONFLICT ∧ s.txn.coordStep ≠ 4 then s
  else match coordMsg s with
    | some (op, data) => s.txn.coordWait.foldl (fun s stn => sysSendTo s op data stn) s
    | none => s

/-- The stations of a mask register group. -/
def maskStns (s : State) (m : Nat → Fld) : List Nat := (List.range 256).filter fun i => bitOf (getF s (m (i / 32))) (i % 32)

/-- A station's bit in a mask register group sets. -/
def maskSet (s : State) (m : Nat → Fld) (stn : Nat) : State := setF s (m (stn / 32)) (getF s (m (stn / 32)) ||| 2 ^ (stn % 32))

/-- The participants other than the coordinator itself. -/
def others (s : State) : List Nat := (maskStns s TXN_PART.M).filter (· != ownStn s)

/-- The result of SYS_COMMIT's notice (Table 18.6). -/
def coordResult (s : State) : List Byte :=
  beBytes 1 s.txn.coordOwn ++ beBytes 1 (getF s TXN_STAT.SYS_SPLIT) ++
    (List.range 32).map fun b => BitVec.ofNat 8 (getF s (TXN_RPT.M (b / 4)) / 256 ^ (b % 4))

/-- SYS_COMMIT ends: its notice carries OK, ABORTED, or the coordinator's failure (R521). -/
def coordEnd (s : State) : State :=
  let st := if s.txn.coordOwn = 1 then 0 else if s.txn.coordStep = 4 then 0x0F else if s.txn.coordOwn = 4 then 8 else 0x0F
  let s := opEnd? s s.txn.coordOp st (coordResult s)
  { s with txn := { s.txn with coordOp := none, coordWait := [] } }

/-- SYS_COMMIT ends once the coordinator has its outcome and every participant has reported. -/
def coordCheck (s : State) : State :=
  if s.txn.coord.isSome ∧ s.txn.coordOwn ≠ 0 ∧ (others s).all fun x => s.txn.coordGot.any fun g => g.1 == x then coordEnd s else s

/-- A report that differs from the coordinator's own outcome splits the transaction (R258). -/
def coordSplit (s : State) (o : Nat) : State :=
  if s.txn.coordOwn ≠ 0 ∧ o ≠ s.txn.coordOwn then setRaise s TXN_STAT.SYS_SPLIT 1 else s

/-- The coordinator has reached its own outcome (R258). -/
def coordOutcome (s : State) (id o : Nat) : State :=
  match s.txn.coord with
  | none => s
  | some c =>
    if c.1 ≠ id ∨ s.txn.coordOwn ≠ 0 then s
    else
      let s := { s with txn := { s.txn with coordOwn := o } }
      let s := if o = 1 then maskSet s TXN_RPT.M (ownStn s) else s
      coordCheck ((s.txn.coordGot).foldl (fun s g => coordSplit s g.2) s)

/-- A participant sends the REPORT it owes (R258). -/
def reportSend (s : State) : State :=
  match s.txn.report with
  | none => s
  | some (id, o, n) =>
    if n = 0 then { s with txn := { s.txn with report := none } }
    else
      let s := { s with txn := { s.txn with report := some (id, o, n - 1) } }
      sysSendTo s 0x020A (beBytes 4 id ++ beBytes 1 (ownStn s) ++ beBytes 1 o) (id / 2 ^ 24 % 256)

/-! ## Ends without effect (R251, R253, R263, R264) -/

/-- The transaction ends without taking effect; an edit's unit returns to RUN. -/
def txnEnd (s : State) (o status : Nat) : State :=
  let id := getF s TXN_ID.ID
  let edit := isSet s TXN_STAT.EDIT
  let sys := isSet s TXN_STAT.SYSTEM
  let s := txnDiscard s o false status
  let s := if sys then coordOutcome (if s.txn.report.isSome then reportSend s else s) id o else s
  if edit then leaveEdit s else s

/-- The coordinator sends ABORT and rolls itself back (Table 9.3 step 4). -/
def coordAbort (s : State) : State :=
  match s.txn.coord with
  | none => s
  | some c =>
    let s := { s with txn := { s.txn with coordStep := 4, coordWait := others s } }
    let s := coordSend s
    if isSet s TXN_STAT.STATE ∧ getF s TXN_ID.ID = c.1 ∧ getF s TXN_STAT.STATE ≠ 5 then txnEnd s 3 0x0F else coordOutcome s c.1 3

/-- A participant answers NOT_READY: its transaction rolls back if one is open, and TXN_LAST records it (R256). One that is prepared
for another identifier is unaffected (case 6). -/
def notReady (s : State) (id : Nat) : State :=
  if isSet s TXN_STAT.STATE ∧ isSet s TXN_STAT.SYSTEM ∧ getF s TXN_ID.ID = id then txnEnd s 5 0x0F
  else
    let s := if getF s TXN_STAT.STATE = 1 then txnEnd s 5 0x0F else txnOutcome s 5 false false false 0
    if id / 2 ^ 24 = ownStn s then s else reportSend { s with txn := { s.txn with report := some (id, 5, 1000) } }

/-- Preparation fails with a status: the transaction is OPEN again with its staging; a participant of a system-wide commit
answers NOT_READY, and a coordinator aborts (R246, R255, R256). -/
def prepFail (s : State) (status : Nat) : State :=
  let t := s.txn
  let s := dropShadow (nvDropRank (voidSet s) 2)
  let s := setF { s with txn := { s.txn with setSeq := none, commitAfter := none, prepOp := none, prepReply := none,
                                             commitOp := none } } TXN_STAT.STATE 1
  let s := opEnd? (opEnd? s t.prepOp status []) t.commitOp status []
  let id := getF s TXN_ID.ID
  match t.prepReply with
  | some rq =>
    let s := { s with txn := { s.txn with sysDone := (0x0207, id, status) :: s.txn.sysDone } }
    notReady (zcpReply s rq 0x0207 status 0 []) id
  | none => if t.coord.isSome ∧ t.coordStep = 1 ∧ isSet s TXN_STAT.SYSTEM then coordAbort s else s

/-! ## Commit (R249, R257, R259) -/

/-- Seconds of a TAI instant given by its low 32 bits. -/
def fullSec (s : State) (sec : Nat) : Nat := taiSec s.time.tai / 2 ^ 32 * 2 ^ 32 + sec

/-- A TAI instant lies in the future. -/
def taiAhead (s : State) (sec ns : Nat) : Bool := ns < 1000000000 && s.time.tai < taiOf (fullSec s sec) ns

/-- The transaction is SCHEDULED with an instant. -/
def txnSchedule (s : State) (kind w0 w1 : Nat) : State :=
  setFs s [(TXN_STAT.STATE, 4), (TXN_WHEN.KIND, kind), (TXN_WHEN.SYSANG, 0), (TXN_WHEN0.W, if kind < 2 then 0 else w0),
    (TXN_WHEN1.W, if kind < 2 then 0 else w1), (TXN_WHEN2.W, 0)]

/-- The instant of a system-wide commit is recorded (R259). -/
def sysInstant (s : State) (kind tS tNs a : Nat) : State :=
  setFs s [(TXN_WHEN.KIND, kind), (TXN_WHEN.SYSANG, b2n (kind == 3)), (TXN_WHEN0.W, tS), (TXN_WHEN1.W, tNs),
    (TXN_WHEN2.W, if kind = 3 then a else 0)]

/-- Every unit is READY: COMMIT_AT goes out, and the coordinator's own commit is scheduled (Table 9.3 step 3). -/
def coordReady (s : State) : State :=
  match s.txn.coord with
  | none => s
  | some c =>
    if !isSet s SYS_FLAGS.STN_CONFLICT ∧ s.txn.coordStep = 1 ∧ s.txn.coordWait.isEmpty ∧ getF s TXN_STAT.STATE = 3 ∧ getF s TXN_ID.ID = c.1 then
      let s := opPnr s s.txn.coordOp
      let s := { s with txn := { s.txn with coordStep := 3, coordWait := others s, commitAt := true } }
      coordSend (setF s TXN_STAT.STATE 4)
    else s

/-- The transaction enters READY (R248): the PREPARED marker, the notices and answers, and a commit that waited. -/
def prepReady (s : State) : State :=
  let t := s.txn
  let s := setF { s with txn := { s.txn with prepOp := none, prepReply := none, commitAfter := none } } TXN_STAT.STATE 3
  let sys := isSet s TXN_STAT.SYSTEM
  let id := getF s TXN_ID.ID
  let s := if sys then setFs { s with nv := { s.nv with prepared := id } }
      [(TXN_CREC_PREP.VALID, 1), (TXN_CREC_PREP.SEQ, (t.setSeq.map (·.1)).getD 0)] else s
  let s := opEnd? s t.prepOp 0 []
  let s := match t.prepReply with
    | some rq =>
      zcpReply { s with txn := { s.txn with sysDone := (0x0207, id, 0) :: s.txn.sysDone } } rq 0x0207 0 0 []
    | none => s
  let s := match t.commitAfter with
    | some (k, w0, w1) => txnSchedule s k w0 w1
    | none => s
  if sys ∧ t.coord.isSome ∧ t.coordStep = 1 then coordReady (maskSet s TXN_RDY.M (ownStn s)) else s

/-- PREPARE_DONE (R248): validation, the set's write and the shadow writes have all completed. A unit that a station conflict excludes
by now does not answer READY (R20, R256). -/
def execPrepareDone (s : State) : Host.Outcome State Fault Refusal :=
  .next (if getF s TXN_STAT.STATE = 2 ∧ !nvHas s 2 ∧ (List.range 8).all fun k => (hubPort s k).shadowLeft == 0 then
      if isSet s SYS_FLAGS.STN_CONFLICT ∧ s.txn.prepReply.isSome then prepFail s 6 else prepReady s
    else s)

/-- CPN_SHADOW_TIMEOUT (R420): a companion has not acknowledged its shadow writes within 1 ms. -/
def execCpnShadowTimeout (k : Nat) (s : State) : Host.Outcome State Fault Refusal :=
  .next (if getF s TXN_STAT.STATE = 2 ∧ (hubPort s k).shadowLeft ≠ 0 then prepFail s 1 else s)

/-- NV_OP_TIMEOUT (R567): the operation in progress has exceeded its limit; the write of a set fails its preparation. -/
def execNvOpTimeout (s : State) : Host.Outcome State Fault Refusal :=
  .next (match s.nv.holder with
    | none => s
    | some j => if j.rank = 2 ∧ !j.aborted then prepFail (nvFinish s 0x10) 0x10 else nvFinish s 0x10)

/-! ## What an effect does in the blocks -/

/-- Gate lists, buckets and publisher slots after an effect; `old` is the state before it (R350, R352, R362, R367). A list with EN 0 has
no cycle to wait for: it ends the old one at once (log entry 141, DEDUCED). -/
def egrEffect (old s : State) : State :=
  let s := (List.range 4).foldl (fun s p =>
    let gl (x : State) := (List.filter (fun q => 0x40080110 + 0x100 * p ≤ q.1 / 32 && q.1 / 32 < 0x40080120 + 0x100 * p ||
      0x40081000 + 0x800 * p ≤ q.1 / 32 && q.1 / 32 < 0x40081800 + 0x800 * p) x.regs)
    let s := if gl old == gl s then s
      else
        let l := listOf s p
        if l.en then updEgr s p fun x => { x with pending := true, gclBad := false }
        else updEgr s p fun x => { x with gcl := l, gates := 0xFF, pending := false, gclBad := false }
    (List.range 8).foldl (fun s q =>
      if isSet s (EGR_TB.EN p q) && !isSet old (EGR_TB.EN p q) then
        updEgr s p fun x => { x with tokens := x.tokens.set q (getF s (EGR_QCFG.BURST p q) * tokUnit, s.core.cyc) }
      else if getF s (EGR_TB.RATE p q) != getF old (EGR_TB.RATE p q) || getF s (EGR_QCFG.BURST p q) != getF old (EGR_QCFG.BURST p q) then
        updEgr s p fun x => { x with tokens := x.tokens.set q (min (tokensNow old p q) (getF s (EGR_QCFG.BURST p q) * tokUnit), s.core.cyc) }
      else s) s) s
  (List.range 16).foldl (fun s i =>
    let sl (x : State) := List.filter (fun q => (0x40084000 + 0x100 * i ≤ q.1 / 32 && q.1 / 32 < 0x40084100 + 0x100 * i &&
      ((regFields (q.1 / 32)).getD []).any fun f => f.lo == q.1 % 32 && f.acc == .rwt) ||
      (0x40088000 + 0x800 * i ≤ q.1 / 32 && q.1 / 32 < 0x40088800 + 0x800 * i)) x.regs
    if sl old == sl s then s else pubReset s i) s

/-- The valid patterns: index and bytes (R327). -/
def patterns (s : State) : List (Nat × List Byte) :=
  ((List.range 128).filter fun i => isSet s (CLS_PAT_C.VALID i)).map fun i =>
    (i, ((List.range 8).flatMap fun w => beBytes 4 (getF s (CLS_PAT_B.W i w))).take (getF s (CLS_PAT_C.LEN i)))

/-- A staged pattern set pauses the ports that scan (R329). -/
def patEffect (old s : State) (staged : List (Fld × Nat)) : State :=
  let pats := (staged.filter fun p => 0x40072000 ≤ p.1.addr && p.1.addr < 0x40074000).map fun p => (p.1.addr - 0x40072000) / 64
  if pats.isEmpty then s
  else
    let m := getF old CLS_CTRL.PAYPORTS ||| getF s CLS_CTRL.PAYPORTS
    let ports := (List.range 4).filter fun p => bitOf m p
    { s with cls := { s.cls with
        badPats := s.cls.badPats.filter fun i => !pats.contains i
        oldPats := if s.cls.pause.isSome then s.cls.oldPats else patterns old
        pause := if ports.isEmpty then s.cls.pause else some (ports, 1) } }

/-- The change marks of the estimators (R460). -/
def phmEffect (old s : State) : State :=
  (List.range 2).foldl (fun s e =>
    let m := getF s (PHM_E_CFG.STREAM e)
    let m0 := getF old (PHM_E_CFG.STREAM e)
    let chans := (estChans s e).map fun c => CLS_SCALE.S m c
    let fs := [PHM_E_CFG.CLASS e, PHM_E_CFG.RR e, PHM_E_CFG.PERSMP e, PHM_E_CFG.STREAM e, PHM_E_CFG.CHMASK e,
      PHM_E_CFG.SEQV e, PHM_E_CFG.SEQI e, PHM_E_SEQMAP.VA e, PHM_E_SEQMAP.VB e, PHM_E_SEQMAP.VC e, PHM_E_SEQMAP.IA e,
      PHM_E_SEQMAP.IB e, PHM_E_SEQMAP.IC e, CLS_S_HDR.EN m, CLS_S_HDR.FLOAT m, CLS_S_HDR.ADDR m, CLS_S_RING.RLEN m,
      CLS_S_RING.ADDR m, PLB_SRCCFG.RATE] ++ chans
    if m != m0 || fs.any fun f => getF old f != getF s f then
      setF { s with phm := { s.phm with
          changed := s.phm.changed.set e (some s.time.tai), owed := s.phm.owed.set e true
          cfgCnt := s.phm.cfgCnt.set e ((nth 0 s.phm.cfgCnt e + 1) % 65536) } } (PHM_E_STATE.INVLEFT e) (estInvalid s e s.time.tai)
    else s) s

/-- TSP_EN has been cleared: the saved PRIOs and FORCE_SRC 0xF are back (R471). -/
def tspRestore (s : State) : State :=
  let s := (List.range 7).foldl (fun s n =>
    if bitOf (getF s TSP_STAT.DEMOTED) n then setF s (TIM_SRC_CFG.PRIO n) (bitsOf (getF s TSP_SAVE.PRIO) (3 * n) 3) else s) s
  let s := { s with phm := { s.phm with disag := List.replicate 7 0, agree := List.replicate 7 0 } }
  reselect (setFs s [(TSP_STAT.DEMOTED, 0), (TIM_CTRL.FORCE_SRC, 0xF)])

/-- The effect of the tracking policy's own transaction: journal entry, pulse, CUR (R472). -/
def atrSwitched (s : State) (cand : Option Nat) : State :=
  match cand with
  | some c => pulse (journalF (incWrap (setF s ATR_STAT.CUR c) ATR_STAT.SWITCHES) ATR_STAT.CUR) 0x30A05
  | none => s

/-- The directory's CRC, over words 0 to 7 of the 256 entries (R17; log entry 26, DEDUCED). -/
def dirCrc (s : State) : Nat :=
  crc32 ((List.range 256).flatMap fun i => (List.range 8).flatMap fun w => leBytes (rawReg s (0x40002000 + 32 * i + 4 * w)))

/-- What the exchange of fields does in the blocks that hold them; `old` is the state before it. -/
def effectHooks (old s : State) (staged : List (Fld × Nat)) : State :=
  let has (lo hi : Nat) : Bool := staged.any fun p => lo ≤ p.1.addr && p.1.addr < hi
  let s := if has 0x40002000 0x40004000 then refreshPresent (setF s SYS_DIRCRC.CRC (dirCrc s)) else s
  let s := if [PLB_SRCA.ADDR, PLB_SRCB.ADDR, PLB_SRCC.ADDR, PLB_CTRL.SRC_MODE].any fun f => getF old f != getF s f then plbRestart s else s
  let s := if getF s PLB_CTRL.SRC_MODE = 0 then setFs s [(PLB_STAT.TRACKING, 0), (PLB_STAT.FREERUN, 0)] else s
  let s := if has PLB_CTRL.SLEW.addr (PLB_CTRL.SLEW.addr + 4) then plbFixed s else s
  let s := if has 0x40080000 0x40090000 then egrEffect old s else s
  let s := if has 0x40090000 0x400A0000 then canEffect old (canEffect old s 0) 1 else s
  let s := (List.range 8).foldl (fun s k =>
    if (cfgAddrs.any fun a => staged.any fun p => p.1.addr == cpnBase k + a) && hubSends s k && hubUp s k then hubApply s k else s) s
  let s := phmEffect old (patEffect old s staged)
  let s := if bitOf (getF old PHM_CTRL.EN) 5 && !bitOf (getF s PHM_CTRL.EN) 5 then tspRestore s else s
  let bad := staged.filterMap fun p => if 0x50000000 ≤ p.1.addr ∧ p.1.addr < 0x50010000 then some ((p.1.addr - 0x50000000) / 144) else none
  let rules := staged.filterMap fun p => if isRule p.1 then some ((p.1.addr - 0x51000000) / 0x10000 * 1024 + (p.1.addr % 0x10000) / 64) else none
  let s := eccWipe (fun m l => m == .dtable && bad.contains (l / 36)) s
  { s with core := { s.core with dtBad := s.core.dtBad.filter fun e => !bad.contains e }
           cls := { s.cls with
             badRules := s.cls.badRules.filter fun r => !rules.contains r
             streams := s.cls.streams.filter fun p => isSet old (CLS_S_HDR.EN p.1) } }

/-! ## The effect (R250, R252, R262, R263) -/

/-- New-variable ranges become EMPTY and 0 (R262). -/
def clearRanges (s : State) : List NewVar → State
  | [] => s
  | v :: rest =>
    let s := (List.range v.len).foldl (fun s i =>
      if v.isBit then setBit s 1 (v.start + i) false else loadWord s (v.start + i) TWord.empty) s
    clearRanges s rest

/-- A transfer in progress, up to its step 5, restarts with a new cut (R294). -/
def xferRestart (s : State) : State :=
  if s.sby.xferOpen then
    let s := { s with sby := { s.sby with parts := none, cutWait := true, preImage := 0 } }
    setFs (incStop s SBY_XFER.RESTARTS) [(SBY_STAT.XFER, 1), (SBY_XFER.STATE, 1)]
  else s

/-- The transaction takes effect (R241, R250, R252, R254, R263). -/
def takeEffect (s : State) (late : Bool) : State :=
  let old := s
  let t := s.txn
  let sys := isSet s TXN_STAT.SYSTEM
  let edit := isSet s TXN_STAT.EDIT
  let persist := isSet s TXN_STAT.PERSIST
  let id := getF s TXN_ID.ID
  let presumed := sys && !t.commitAt && !(t.coord.any fun c => c.1 == id)
  let undo := undoOf s t.staged
  let delta := if t.bank then bankDelta s else []
  let s := effectHooks old (applyStaged (clearRanges s (if t.isUndo then [] else t.newVars))) t.staged
  let s := if t.bank ∨ t.staged.any (fun p => isExec p.1) then
      streamEv s (.txn ((t.staged.filter fun p => isExec p.1).map fun p => (p.1.key, getF s p.1)) delta
        (if t.bank then some (activePid s) else none) (if t.isUndo then [] else t.newVars) persist)
    else s
  let s := xferRestart s
  let s := oweReport s 1
  let s := { s with txn := { s.txn with undo := undo, undoBank := t.bank, undoPersist := persist, undoEdit := edit || (t.isUndo && t.undoEdit) } }
  let s := txnOutcome s 1 late presumed false ((t.setSeq.map (·.1)).getD 0)
  let s := { s with nv := { s.nv with
    recording := if persist then t.setSeq.map (·.1) else none, lost := some ((t.setSeq.map (·.1)).getD 0) } }
  let s := setFs s [(TXN_STAT.RECORDED, 0), (TXN_STAT.UNDO_OK, b2n (!sys)), (EDT_STAT.KEEP_OK, 0)]
  let s := if edit then setF s EDT_STAT.COPY 0 else s
  let s := pulse (incWrap s TXN_CNT.COMMITS) 0x30701
  let s := journalF s TXN_LAST.OUTCOME
  let s := atrSwitched (opEnd? (txnIdle s) t.commitOp 0 []) old.phm.switching
  let s := if sys then coordOutcome (if s.txn.report.isSome then reportSend s else s) id 1 else s
  if edit then leaveEdit s else s

/-- The wait that R250 asks for has its quiet point, with the MAC idle when the table is staged (R211, R250). A halt cause of the same
cycle goes first (case 8). -/
def effectReady (s : State) : Bool :=
  quiet s && s.ms.haltPend.isNone && (!(stagedObjs s).contains 1 ||
    (s.core.mac.isNone && !unitBusy s 15 && !(s.core.deferred ++ s.core.waiting).any fun d => isTrig d.dst && d.dst / 16 == 15))

/-- The effect waits for a quiet point (R239, R249, R250). -/
def effectWaits (s : State) : Bool := quietClass s || getF s TXN_WHEN.KIND == 1

/-- A forward step of the clock has passed the UTC instant (case 3). -/
def txnStepped (s : State) : Bool :=
  match justStepped s with
  | some (a, b) =>
    let t := taiOf (fullSec s (getF s TXN_WHEN0.W)) (getF s TXN_WHEN1.W)
    getF s TXN_WHEN.KIND == 2 && decide (a < t) && decide (t ≤ b)
  | none => false

/-- The transaction has a commit to make: SCHEDULED, or a participant that has answered READY (R257). -/
def commitDue (s : State) : Bool :=
  getF s TXN_STAT.STATE == 4 ||
    (getF s TXN_STAT.STATE == 3 && isSet s TXN_STAT.SYSTEM && s.txn.sysDone.contains (0x0207, getF s TXN_ID.ID, 0))

/-- TXN_COMMIT_INSTANT (R249, R250): the cycle of the commit is reached. -/
def execTxnCommitInstant (s : State) : Host.Outcome State Fault Refusal :=
  .next (if commitDue s then
      let s := setF s TXN_STAT.STATE 5
      if effectWaits s && !effectReady s then s else takeEffect s (txnStepped s)
    else s)

/-- TXN_EFFECT (R250): the effect cycle of a transaction in WAIT_QP, or of one SCHEDULED whose cycle has come. -/
def execTxnEffect (s : State) : Host.Outcome State Fault Refusal :=
  .next (if (getF s TXN_STAT.STATE == 5 || commitDue s) && (!effectWaits s || effectReady s) then takeEffect s (txnStepped s) else s)

/-- TXN_QP_TIMEOUT (R251): QP_TMO has passed; a quiet point of the same cycle still wins (case 2). -/
def execTxnQpTimeout (s : State) : Host.Outcome State Fault Refusal :=
  .next (if getF s TXN_STAT.STATE = 5 then
      if effectReady s then takeEffect s (txnStepped s) else txnEnd s 4 8
    else s)

/-- TXN_RECORDED (R252): the commit record is written. -/
def execTxnRecorded (s : State) : Host.Outcome State Fault Refusal :=
  .next (match s.nv.recording with
    | some q => setFs { s with nv := { s.nv with recording := none, lost := none } } [(TXN_CREC_LAST.SEQ, q), (TXN_STAT.RECORDED, 1)]
    | none => s)

/-! ## Commands (R246, R249, R253, R254) -/

/-- PREPARE: a long operation whose notice carries the outcome (R246, R517). -/
def zPrepare (s : State) (rq : ZReq) (owns : Bool) : ZAns × State :=
  if getF s TXN_STAT.STATE ≠ 1 then (.done 6 [], s)
  else if !owns then (.done 0xD [], s)
  else match opTake s rq 0x0202 with
    | none => (.done 1 [], s)
    | some (i, s) =>
      match prepCheck s with
      | 0 => (.accepted i, prepStart { s with txn := { s.txn with prepOp := some i } })
      | st => (.accepted i, opEnd s i st [])

/-- Why a COMMIT is refused, 0 where it is not (R249). A bank load since the preparation may have left the bank unmatched with the
table (R210). -/
def commitBad (s : State) (owns : Bool) (kind w0 w1 : Nat) : Nat :=
  let st := getF s TXN_STAT.STATE
  if st = 0 then 5
  else if !owns then 0xD
  else if 3 < kind then 4
  else if st ≠ 1 ∧ st ≠ 3 then 6
  else if isSet s TXN_STAT.EDIT ∧ getF s EDT_STAT.COPY ≠ 2 then 1
  else if st = 3 ∧ !pidMatches (applyStaged s) then 4
  else if (kind = 2 ∧ !taiAhead s w0 w1) ∨ (kind = 3 ∧ pairPast s.plumb.cyc (plbAngle s) w0 w1) then 4
  else if st = 1 ∧ 1 < kind then 4
  else if st = 1 then prepCheck s
  else 0

/-- COMMIT (R249): from READY at once, from OPEN after preparation for the kinds NOW and QUIET. -/
def zCommit (s : State) (rq : ZReq) (owns : Bool) (kind w0 w1 : Nat) : ZAns × State :=
  let bad := commitBad s owns kind w0 w1
  if bad ≠ 0 then (.done bad [], s)
  else match opTake s rq 0x0203 with
    | none => (.done 1 [], s)
    | some (i, u) =>
      let u := { u with txn := { u.txn with commitOp := some i } }
      (.accepted i, if getF s TXN_STAT.STATE = 1 then
          prepStart { u with txn := { u.txn with commitAfter := some (kind, w0, w1) } }
        else txnSchedule u kind w0 w1)

/-- ROLLBACK, or an ABORT of PREPARE, COMMIT or UNDO: outcome 2 ROLLED_BACK or 3 ABORTED (R244, R253, R516). -/
def txnRollback (s : State) (owns force : Bool) (o : Nat) : Nat × State :=
  if !isSet s TXN_STAT.STATE then (5, s)
  else if !owns ∧ !force then (0xD, s)
  else if getF s TXN_STAT.STATE = 5 then (7, s)
  else
    let s := if s.txn.coord.isSome ∧ s.txn.coordStep = 1 ∧ isSet s TXN_STAT.SYSTEM then
        coordSend { s with txn := { s.txn with coordStep := 4, coordWait := others s } }
      else s
    (0, txnEnd s o 0x0F)

/-- The transaction of an UNDO: it stages what the last one changed (R254). -/
def undoTxn (s : State) (rq : ZReq) (i : Nat) : State :=
  let t := s.txn
  let s := { s with txn := { t with staged := t.undo, bank := t.undoBank, isUndo := true, commitOp := some i,
                                    base := (List.range 8).map fun o => (o, objCrc s o) } }
  setFs s [(TXN_STAT.OWNER, rq.session), (TXN_STAT.OWNER_SPI, b2n (rq.peer.tr == 3)), (TXN_STAT.PERSIST, b2n t.undoPersist)]

/-- UNDO: a transaction of its own, of kind QUIET, over what the last one changed (R254). With PERSIST its set is written first. It is
refused when it would leave the active bank unmatched with the table (R210). -/
def zUndo (s : State) (rq : ZReq) : ZAns × State :=
  if isSet s TXN_STAT.STATE ∨ !isSet s TXN_STAT.UNDO_OK then (.done 6 [], s)
  else match opTake s rq 0x0205 with
    | none => (.done 1 [], s)
    | some (i, s1) =>
      let s1 := undoTxn s1 rq i
      if !pidMatches (applyStaged s1) then (.done 4 [], s)
      else if s.txn.undoPersist then
        if (freePositions s1).isEmpty then (.done 1 [], s)
        else (.accepted i, prepStart { s1 with txn := { s1.txn with commitAfter := some (1, 0, 0) } })
      else (.accepted i, txnSchedule s1 1 0 0)

/-! ## Skim edits (R260 to R264) -/

/-- The bundles of a bank. -/
def bankOf (s : State) (b : Nat) : List (Nat × Word) := if b = 0 then s.core.bankA else s.core.bankB

/-- A word of a bank is written; the mark of its bundle goes, and no edit is kept any more (R85, R264). -/
def bankPut (s : State) (b k : Nat) (w : Word) : State :=
  let s := setF (eccClear s (if b = 0 then .bankA else .bankB) k) EDT_STAT.KEEP_OK 0
  if b = 0 then { s with core := { s.core with bankA := sset 0 s.core.bankA k w, badA := s.core.badA.filter (· != k / 8) } }
  else { s with core := { s.core with bankB := sset 0 s.core.bankB k w, badB := s.core.badB.filter (· != k / 8) } }

/-- Words written from a key on. -/
def bankPuts (s : State) (b k : Nat) : List Word → State
  | [] => s
  | w :: ws => bankPuts (bankPut s b k w) b (k + 1) ws

/-- The identity registers of a bank take a value (R210). -/
def setPid (s : State) (b ver crc : Nat) : State :=
  if b = 0 then setFs s [(CORE_PIDA_VER.VER, ver), (CORE_PIDA_CRC.CRC, crc)]
  else setFs s [(CORE_PIDB_VER.VER, ver), (CORE_PIDB_CRC.CRC, crc)]

/-- The transaction of an edit opens, and the identity of the bank it writes is the one it names (R210, R261). -/
def editOpen (s : State) (session : Nat) (spi : Bool) (p ver crc : Nat) : State :=
  let s := txnOpen s session spi p 0 true
  setPid { s with txn := { s.txn with bank := true } } (1 - getF s CORE_BANK.ACTIVE) ver crc

/-- An edit begins with a copy of the active bank, or with the content that is there (R260, R264). -/
def editCopy (s : State) (keep : Nat) : State :=
  let s := setFs s [(EDT_CNT.PATCHED, 0), (EDT_CNT.NEWVAR, 0)]
  if keep = 1 then setF s EDT_STAT.COPY 2
  else setFs { s with txn := { s.txn with patched := [] } } [(EDT_STAT.COPY, 1), (EDT_STAT.COPIED, 0), (EDT_STAT.KEEP_OK, 0)]

/-- EDIT_BEGIN: status and TXN_ID (R260, R261, R264, R304). -/
def editBegin (s : State) (session : Nat) (spi : Bool) (persist keep ver crc : Nat) : Nat × List Byte × State :=
  if isSet s TXN_STAT.STATE then (6, [], s)
  else if s.mode != .run then (0xA, [], s)
  else match persistOf s persist with
    | none => (4, [], s)
    | some p =>
      if 1 < keep ∨ (keep = 1 ∧ !isSet s EDT_STAT.KEEP_OK) then (4, [], s)
      else
        let s := transition (streamEv (editCopy (editOpen s session spi p ver crc) keep) .editBegin) .runEdit
        (0, beBytes 4 (getF s TXN_ID.ID), s)

/-- One bundle of the active bank is copied with its mark (R261). -/
def copyBundle (s : State) : State :=
  let i := getF s EDT_STAT.COPIED
  let a := getF s CORE_BANK.ACTIVE
  let ws := (List.range 8).map fun j => sget 0 (bankOf s a) (8 * i + j)
  let mem : MemId := if a = 0 then .bankA else .bankB
  let locs := (List.range 8).map fun j => 8 * i + j
  let bad := (if a = 0 then s.core.badA else s.core.badB).contains i || locs.any fun l => eccAt s mem l == .uncorrectable
  let s := locs.foldl (fun s l => if eccAt s mem l == .correctable then eccCorr s mem l else s) s
  let s := bankPuts s (1 - a) (8 * i) ws
  let s := if bad then
      setF (if a = 0 then { s with core := { s.core with badB := i :: s.core.badB } }
        else { s with core := { s.core with badA := i :: s.core.badA } }) EDT_STAT.COPY_UNCORR 1
    else s
  let s := setF s EDT_STAT.COPIED (i + 1)
  if i + 1 = 65536 then setF s EDT_STAT.COPY 2 else s

/-- EDIT_COPY_BUNDLE (R261): every 32 cycles while the copy runs. -/
def execEditCopyBundle (s : State) : Host.Outcome State Fault Refusal :=
  .next (if getF s EDT_STAT.COPY = 1 then copyBundle s else s)

/-- A new-variable range lies in the program words or the program flags (R262). -/
def rangeOk (v : NewVar) : Bool :=
  1 ≤ v.len && if v.isBit then 0x40000 ≤ v.start && v.start + v.len ≤ 0xF0000 else 0x8000 ≤ v.start && v.start + v.len ≤ 0x7E000

/-- Move words in bundles of eight. -/
def bundles : List Word → List (List Nat)
  | a :: b :: c :: d :: e :: f :: g :: h :: rest => [a, b, c, d, e, f, g, h].map (·.toNat) :: bundles rest
  | _ => []

/-- A bank carries the identity that matches every table (R210). -/
def idZero (s : State) (b : Nat) : Bool :=
  if b = 0 then getF s CORE_PIDA_VER.VER == 0 && getF s CORE_PIDA_CRC.CRC == 0
  else getF s CORE_PIDB_VER.VER == 0 && getF s CORE_PIDB_CRC.CRC == 0

/-- EDIT_PATCH (R210, R262). -/
def editPatch (s : State) (owns : Bool) (index : Nat) (ws : List Word) (rs : List NewVar) : Nat × State :=
  let n := ws.length / 8
  if !isSet s TXN_STAT.STATE then (5, s)
  else if !owns then (0xD, s)
  else if getF s TXN_STAT.STATE ≠ 1 ∨ !isSet s TXN_STAT.EDIT then (6, s)
  else if getF s EDT_STAT.COPY ≠ 2 then (1, s)
  else if 32 < n ∨ ws.length % 8 ≠ 0 ∨ 16 < getF s EDT_CNT.NEWVAR + rs.length ∨ 65536 < index + n ∨ !rs.all rangeOk ∨
      (bundles ws).any (fun b => bundleIllegal b || (idZero s (1 - getF s CORE_BANK.ACTIVE) && bundleMac b)) then (4, s)
  else
    let s := bankPuts s (1 - getF s CORE_BANK.ACTIVE) (8 * index) ws
    let s := { s with txn := { s.txn with
      newVars := s.txn.newVars ++ rs, patched := s.txn.patched ++ (List.range n).map (index + ·) |>.eraseDups } }
    (0, setFs s [(EDT_CNT.PATCHED, min 65535 (getF s EDT_CNT.PATCHED + n)), (EDT_CNT.NEWVAR, getF s EDT_CNT.NEWVAR + rs.length)])

/-! ## The system-wide commit (R255 to R259) -/

/-- SYS_COMMIT: the unit becomes coordinator (R255). -/
def zSysCommit (s : State) (rq : ZReq) (systxn kind tS tNs a : Nat) (mask : List Nat) : ZAns × State :=
  let g := max 1 (getF s TXN_CFG.GUARD)
  if kind ≠ 2 ∧ kind ≠ 3 then (.done 4 [], s)
  else if isSet s SYS_FLAGS.STN_CONFLICT ∨ getF s TXN_STAT.STATE ≠ 1 ∨ !isSet s TXN_STAT.SYSTEM ∨ getF s TXN_ID.ID ≠ systxn ∨
      systxn / 2 ^ 24 ≠ ownStn s then (.done 6 [], s)
  else if 1000000000 ≤ tNs ∨ taiOf (fullSec s tS) tNs < s.time.tai + 2 * g * 1000000 * nsUnit then (.done 4 [], s)
  else match opTake s rq 0x0206 with
    | none => (.done 1 [], s)
    | some (i, s) =>
      let s := (List.range 8).foldl (fun s w => setFs s [(TXN_PART.M w, ((List.range 4).map fun b => nth 0 mask (4 * w + b) % 256 * 256 ^ b).sum),
        (TXN_RDY.M w, 0), (TXN_RPT.M w, 0)]) s
      let s := sysInstant s kind tS tNs a
      let s := { s with txn := { s.txn with coord := some (systxn, kind, tS, tNs, a), coordStep := 1, coordWait := others s,
                                            coordGot := [], coordOwn := 0, coordOp := some i } }
      let s := coordSend s
      (.accepted i, if prepCheck s = 0 then prepStart s else coordAbort s)

/-- NOT_READY with a status (R256). -/
def prepNo (s : State) (systxn st : Nat) : ZAns × State :=
  (.done st [], notReady { s with txn := { s.txn with sysDone := (0x0207, systxn, st) :: s.txn.sysDone } } systxn)

/-- A SYS_PREPARE that the mode refuses (R14, R256). -/
def zSysRefuse (s : State) (rq : ZReq) (systxn sysId st : Nat) : ZAns × State :=
  let foreign := decide (sysId ≠ getF s SYS_STATION.SYSTEM_ID)
  let s := markPeer s rq.peer foreign
  if foreign then (.silent, s) else prepNo s systxn st

/-- SYS_PREPARE at a participant (R14, R17, R20, R256, R521). -/
def zSysPrepare (s : State) (rq : ZReq) (systxn sysId crc kind tS tNs a : Nat) : ZAns × State :=
  let holds := isSet s TXN_STAT.STATE && isSet s TXN_STAT.SYSTEM && getF s TXN_ID.ID == systxn
  let foreign := decide (sysId ≠ getF s SYS_STATION.SYSTEM_ID)
  let s := markPeer s rq.peer foreign
  if foreign then (.silent, s)
  else match s.txn.sysDone.find? fun d => d.1 == 0x0207 && d.2.1 == systxn with
    | some d => (.done d.2.2 [], s)
    | none =>
      if isSet s SYS_FLAGS.STN_CONFLICT then prepNo s systxn 6
      else if crc ≠ getF s SYS_DIRCRC.CRC then prepNo (setF s SYS_FLAGS.DIR_MISMATCH 1) systxn 6
      else if holds ∧ getF s TXN_STAT.STATE = 2 then (.silent, { s with txn := { s.txn with prepReply := some rq } })
      else if !holds ∨ getF s TXN_STAT.STATE ≠ 1 then prepNo s systxn 6
      else if (kind ≠ 2 ∧ kind ≠ 3) ∨ !taiAhead s tS tNs then prepNo s systxn 4
      else match prepCheck s with
        | 0 => (.later, prepStart (sysInstant { s with txn := { s.txn with prepReply := some rq } } kind tS tNs a))
        | st => prepNo s systxn st

/-- SYS_COMMIT_AT at a participant (R257; case 5). -/
def sysCommitAt (s : State) (systxn : Nat) : Nat × State :=
  if isSet s TXN_STAT.STATE ∧ isSet s TXN_STAT.SYSTEM ∧ getF s TXN_ID.ID = systxn then
    if getF s TXN_STAT.STATE = 3 then (0, setF { s with txn := { s.txn with commitAt := true } } TXN_STAT.STATE 4)
    else if getF s TXN_STAT.STATE < 3 then (6, s) else (0, s)
  else if getF s TXN_ID.ID = systxn ∧ getF s TXN_LAST.OUTCOME = 1 ∧ !isSet s TXN_STAT.STATE then (0, s)
  else (5, s)

/-- SYS_ABORT at a participant (R253, R521). -/
def sysAbort (s : State) (systxn : Nat) : Nat × State :=
  if s.txn.sysDone.contains (0x0209, systxn, 0) then (0, s)
  else if isSet s TXN_STAT.STATE ∧ isSet s TXN_STAT.SYSTEM ∧ getF s TXN_ID.ID = systxn then
    if getF s TXN_STAT.STATE = 5 then (7, s)
    else
      let s := txnEnd s 3 0x0F
      (0, { s with txn := { s.txn with sysDone := (0x0209, systxn, 0) :: s.txn.sysDone } })
  else (5, s)

/-- SYS_REPORT at the coordinator (R258; case 13). -/
def sysReport (s : State) (systxn stn o : Nat) : State :=
  match s.txn.coord with
  | none => s
  | some c =>
    if c.1 ≠ systxn ∨ !(others s).contains stn ∨ s.txn.coordGot.any fun g => g.1 == stn then s
    else
      let s := { s with txn := { s.txn with coordGot := s.txn.coordGot ++ [(stn, o)] } }
      let s := if o = 1 then maskSet s TXN_RPT.M stn else s
      coordCheck (coordSplit s o)

/-- SYS_TXN_RESEND (R255): every 1 ms to the participants that have not acknowledged. -/
def execSysTxnResend (s : State) : Host.Outcome State Fault Refusal := .next (if absent s then s else coordSend s)

/-- SYS_TXN_GUARD_DEADLINE (R255): T − G is reached without every READY. -/
def execSysTxnGuardDeadline (s : State) : Host.Outcome State Fault Refusal :=
  .next (if s.txn.coord.isSome ∧ s.txn.coordStep = 1 then coordAbort s else s)

/-- SYS_REPORT_RESEND (R258): every 10 ms, for at most 10 s. -/
def execSysReportResend (s : State) : Host.Outcome State Fault Refusal := .next (if absent s then s else reportSend s)

/-- The answer of a participant to the coordinator's message (R255, R521). -/
def coordAnswer (s : State) (stn opcode status : Nat) : State :=
  let took := match coordMsg s with | some (op, _) => op == opcode && s.txn.coordWait.contains stn | none => false
  if !took then s
  else
    let s := { s with txn := { s.txn with coordWait := s.txn.coordWait.filter (· != stn) } }
    if opcode = 0x0207 then
      if status = 0 then coordReady (maskSet s TXN_RDY.M stn) else coordAbort s
    else s

/-- The peer of a reply is a station, by its directory entry's address. -/
def peerIs (s : State) (p : Peer) (stn : Nat) : Bool :=
  (p.tr == 1 && nth 0 p.addr 0 == getF s (SYS_DIR_IP4.IPV4 stn)) ||
    (p.tr == 2 && (List.range 4).all fun j => nth 0 p.addr j == getF s (SYS_DIR_IP6.IPV6 stn j))

/-- A reply to an own request is acted upon (R230, R255, R258, R520, R521). -/
def replyMatch (s : State) (peer : Peer) (seq opcode status : Nat) : State :=
  match s.zcp.outstanding.find? fun r => r.seq == seq && r.opcode == opcode && peerIs s peer r.station with
  | none => s
  | some r =>
    let s := { s with zcp := { s.zcp with outstanding := s.zcp.outstanding.filter fun x =>
        if opcode = 0x0103 then !(x.seq == seq && x.opcode == opcode) else !(x.station == r.station && x.opcode == opcode) } }
    if opcode = 0x0103 then postedDone s (fun p => p.kind == 2 && p.ref == seq) (if status = 0 then none else some 5)
    else if opcode = 0x020A then { s with txn := { s.txn with report := none } }
    else coordAnswer s r.station opcode status

/-- ZCP_REPLY_MATCH (R521). -/
def execZcpReplyMatch (peer : Peer) (seq opcode status : Nat) (s : State) : Host.Outcome State Fault Refusal :=
  .next (if absent s then s else replyMatch s peer seq opcode status)

end Sys2Proof.Machine
end

