-- ==== Sys2Proof/Machine/Boot.lean ====
section
/-!
DEFINITION. BOOT, SELFTEST and the reloads (spec/20_reset_boot_nv.md, R566 to R581; spec/03_modes.md, R80 to R82;
spec/09_edits_and_transactions.md, R267, R268).
-/

namespace Sys2Proof.Machine

open Reg

/-! ## Bytes of the NV store -/

/-- The words of a byte list, most significant byte first. -/
def wordsOf : List Byte → List Nat
  | a :: b :: c :: d :: r => beNat [a, b, c, d] :: wordsOf r
  | _ => []

/-- Pairs of words. -/
def pairsOf : List Nat → List (Nat × Nat)
  | a :: b :: r => (a, b) :: pairsOf r
  | _ => []

/-! ## Loading an image (R569, R574, Table 20.8) -/

/-- PROGRAM goes into bank A, which becomes active (step 4). -/
def loadProgram (s : State) (ws : List Nat) : State :=
  let s := setF { s with core := { s.core with bankA := [], badA := [] } } CORE_BANK.ACTIVE 0
  setPid (bankPuts s 0 0 ((ws.drop 2).map (BitVec.ofNat 32))) 0 (nth 0 ws 0) (nth 0 ws 1)

/-- The decode table of words 1 to 2,304, with VERSION in word 0 (step 4). -/
def loadTable (s : State) (ws : List Nat) : State :=
  let s := setF s CORE_DTVER.VERSION (nth 0 ws 0)
  tableActive ((ws.drop 1 |>.take 2304).zipIdx.foldl (fun s (p : Nat × Nat) => setF s (dtF (p.2 / 36) (p.2 % 36)) p.1) s)

/-- A CONFIG pair writes an assigned register with RW or RW-T fields outside the RST_ and NVS_ blocks (Table 20.7). -/
def configOk (a : Nat) : Bool :=
  a < 0x40100000 && ((regFields a).getD []).any fun f => f.acc == .rw || f.acc == .rwt

/-- One CONFIG pair; the rule window writes the active bank (step 5). -/
def configPut (s : State) (p : Nat × Nat) : State :=
  if 0x40070040 ≤ p.1 ∧ p.1 < 0x4007007C then setF s (ruleF (clsBank s) (getF s CLS_RSEL.INDEX) ((p.1 - 0x40070040) / 4)) p.2
  else
    let s := ((regFields p.1).getD []).foldl (fun s f =>
      if f.acc == .rw || f.acc == .rwt then setF s f (bitsOf p.2 f.lo f.w) else s) s
    if p.1 = CORE_DTVER.VERSION.addr then tableActive s else s

/-- The words of a section of a slot; empty when the image has none. -/
def sectionWords (s : State) (slot type : Nat) : List Nat :=
  match sectionOf s slot type with
  | some (_, bs) => wordsOf bs
  | none => []

/-- Steps 4 and 5: program, decode table and configuration of a slot. -/
def loadSlot (s : State) (slot : Nat) : State :=
  let s := loadTable (loadProgram s (sectionWords s slot 2)) (sectionWords s slot 3)
  (pairsOf (sectionWords s slot 4)).foldl configPut s

/-- What the blocks do with a configuration that BOOT has loaded; `old` is the state before it. -/
def loadHooks (old s : State) : State :=
  let s := plbNominal (refreshPresent (setF s SYS_DIRCRC.CRC (dirCrc s)))
  let s := canEffect old (canEffect old (egrEffect old s) 0) 1
  phmEffect old s

/-! ## Slot checks (R572, R573, Tables 20.6 and 20.7) -/

/-- Check 0x3: the header and the places of the sections. -/
def headerOk (s : State) (slot len : Nat) : Bool :=
  let a := slotBase slot
  let n := norWord s (a + 16)
  let secs := (sectionHeads s a).map fun h => (h.2.2.1, h.2.2.2.1)
  norWord s a == 0x58494D47 && norWord s (a + 4) == 1 && norWord s (a + 8) == len && 4096 ≤ len && len ≤ 0x800000 &&
    1 ≤ n && n ≤ 16 && secs.all (fun x => decide (x.1 + x.2 ≤ len)) && disjoint ((0, 4096) :: secs)

/-- The code of the first check that a slot fails, or 0. -/
def slotCheck (s : State) (slot : Nat) : Nat :=
  match recordOf s slot with
  | none => 1
  | some r =>
    let a := slotBase slot
    if !headerOk s slot r.len then 3
    else if norWord s (a + 12) ≠ 0x000E4004 then 4
    else if crc32 (norBytes s a r.len) ≠ r.crc then 5
    else if !(sectionHeads s a).all (fun h => crc32 (norBytes s (a + h.2.2.1) h.2.2.2.1) == h.2.2.2.2) then 6
    else if !(pairsOf (sectionWords s slot 4)).all (fun p => configOk p.1) || !validate (loadSlot s slot) then 7
    else 0

/-- The slots that BOOT tries, in order (Table 20.6). -/
def slotsTried (s : State) (sel : Nat) : List Nat :=
  if norAbsent s then []
  else match sel with
  | 3 => []
  | 2 => match recordOf s 0, recordOf s 1, newerSlot s with
    | some _, some _, some n => [1 - n]
    | _, _, _ => []
  | _ => match newerSlot s with
    | some n => [n, 1 - n]
    | none => [0, 1]

/-- The result of the checks: the accepted slot, REJ0 and REJ1. -/
def slotsJudge (s : State) : List Nat → Option Nat → Nat → Nat → Option Nat × Nat × Nat
  | [], acc, r0, r1 => (acc, r0, r1)
  | i :: rest, acc, r0, r1 =>
    let c := slotCheck s i
    let code := if c = 0 ∧ acc.isSome then 0xF else c
    let acc := if c = 0 ∧ acc.isNone then some i else acc
    if i = 0 then slotsJudge s rest acc code r1 else slotsJudge s rest acc r0 code

/-! ## Initial data and the retentive store (R130, R134, R575, R581) -/

/-- Words stored at rising addresses of the host map where `ok` allows the location; `st` is the payload staged for a word. -/
def mapPuts (word bit : Nat → Bool) : State → Nat → Option (Nat × Nat) → List Nat → State
  | s, _, _, [] => s
  | s, a, st, w :: r =>
    if 0x20000000 ≤ a ∧ a < 0x20100000 then
      let s := (List.range 4).foldl (fun s i =>
        let b := a - 0x20000000 + i
        if bit b then setBit s 1 b (bitOf w (8 * i)) else s) s
      mapPuts word bit s (a + 4) none r
    else if 0x10000000 ≤ a ∧ a < 0x10400000 then
      let k := (a - 0x10000000) / 8
      if a % 8 = 0 then mapPuts word bit s (a + 4) (some (k, w)) r
      else
        let v := match st with
          | some (j, x) => if j = k then x else (rawWord s k).val.toNat
          | none => (rawWord s k).val.toNat
        mapPuts word bit (if word k then loadWord s k (outsideWord w (BitVec.ofNat 32 v)) else s) (a + 4) none r
    else mapPuts word bit s (a + 4) none r

/-- Runs of (start address, count of words, words), oldest first; `n` bounds their number (log entry 46, DEDUCED). -/
def runPuts (word bit : Nat → Bool) : Nat → State → List Nat → State
  | n + 1, s, a :: c :: r => runPuts word bit n (mapPuts word bit s a none (r.take c)) (r.drop c)
  | _, s, _ => s

/-- The locations that INITDATA may write: those outside the retentive regions that no block writes. -/
def initWord (a : Nat) : Bool := a < 0x80000 && !retWord a
@[inherit_doc initWord] def initBit (a : Nat) : Bool := a < 0x100000 && !retBit a && !(0x20000 ≤ a && a < 0x40000)

/-- INITDATA of a slot (R575). -/
def initData (s : State) (slot : Nat) : State :=
  let ws := sectionWords s slot 5
  runPuts initWord initBit ws.length s ws

/-- Step 6: the retentive store is kept, restored from the newest mirror, or initialised (R581). -/
def retBoot (s : State) (slot : Option Nat) : State :=
  if isSet s NVS_D0MARK.SEEN then s
  else match (if isSet s NVS_RETCFG.RESTORE then newestMirror s else none), slot with
    | some (_, m), _ =>
      let s := (m.words.filter fun p => retWord p.1).foldl (fun s p => loadWord s p.1 p.2) s
      let s := (m.bits.filter fun p => retBit p.1).foldl (fun s p => setBit s 1 p.1 p.2) s
      setFs s [(NVS_STAT.RESTORED, 1), (NVS_RETTAI.SEC, m.sec)]
    | none, some i =>
      let ws := sectionWords s i 6
      runPuts retWord retBit ws.length s ws
    | none, none => s

/-! ## Persisted sets (R267, R268, R577 to R580) -/

/-- A sequence put at its place in a rising list, by the half-range rule. -/
def insertSet (p : NvSet) : List NvSet → List NvSet
  | [] => [p]
  | q :: r => if seqLe p.seq q.seq then p :: q :: r else q :: insertSet p r

/-- The held sets up to TXN_CREC_LAST, rising (R268). -/
def recordedSets (s : State) : List NvSet :=
  ((heldSets s).filter fun p => seqLe p.seq (getF s TXN_CREC_LAST.SEQ)).foldr insertSet []

/-- The content of an object gives way to that of a set. -/
def putObject (s : State) (o : Nat) (kvs : List (Nat × Nat)) : State :=
  let gone := s.regs.filterMap fun p => match objKey s p.1 with | some (x, _) => if x = o then some p.1 else none | none => none
  let s := { s with regs := s.regs.filter fun p => !gone.contains p.1 }
  let shift (k : Nat) : Nat := if 0x51000000 ≤ k / 32 ∧ k / 32 < 0x51010000 then k + 32 * 0x10000 * clsBank s else k
  let s := kvs.foldl (fun s p =>
    let k := shift p.1
    if 0x50000000 ≤ k / 32 then setF s ⟨k / 32, 0, 32, .rwt, 0⟩ p.2
    else match (regFields (k / 32)).bind fun fs => fs.find? fun f => f.lo == k % 32 with
      | some f => setF s f p.2
      | none => s) s
  if o = 1 then tableActive s else s

/-- A set is applied over the active content; `which` limits it to some objects. -/
def applySet (which : Nat → Bool) (s : State) (p : NvSet) : State :=
  let s := (p.objs.filter fun o => which o.1).foldl (fun s o => putObject s o.1 o.2) s
  let s := match p.bank with
    | some (ws, pid) => if which 0 then setPid (ws.foldl (fun s w => bankPut s 0 w.1 w.2) s) 0 pid.1 pid.2 else s
    | none => s
  clearRanges s p.newVars

/-- Step 7: the sets are applied in ascending order; at the first whose base CRC differs the replay stops (R268). -/
def replaySets : State → List NvSet → State
  | s, [] => s
  | s, p :: r =>
    if p.base.all fun b => objCrc s b.1 == b.2 then
      let s := applySet (fun _ => true) s p
      replaySets (setF s NVS_STAT.SETS_APPLIED (getF s NVS_STAT.SETS_APPLIED + 1)) r
    else txnOutcome s 8 false false false p.seq

/-- Held sets above TXN_CREC_LAST are voided; they count when D0 has powered up (R267, R580). -/
def voidSets (s : State) (count : Bool) : State :=
  let last := getF s TXN_CREC_LAST.SEQ
  let hit (p : NvSet) : Bool := !p.void && !seqLe p.seq (getF s NVS_BASE.SEQ) && !seqLe p.seq last
  let n := (s.nv.sets.filter fun p => hit p.2).length
  let s := { s with nv := { s.nv with sets := s.nv.sets.map fun p => if hit p.2 then (p.1, { p.2 with void := true }) else p } }
  if count then setF s NVS_STAT.SETS_VOIDED (min 255 n) else s

/-- The later of two sequences. -/
def seqMax (a b : Nat) : Nat := if seqLe a b then b else a

/-- TXN_CREC_LAST after D0 has powered up (R580). -/
def crecBoot (s : State) : State :=
  if isSet s NVS_D0MARK.SEEN then s
  else
    let m := match newestMirror s with | some (_, m) => m.crec | none => 0
    setF s TXN_CREC_LAST.SEQ (seqMax (getF s NVS_BASE.SEQ) m)

/-- What a reset or supply loss made of a transaction (R267): LOST_AT_RESET, or RESET_DISCARD with its report. -/
def resetOutcome (s : State) : State :=
  let s := match s.nv.lost with
    | some q => txnOutcome { s with nv := { s.nv with recording := none, lost := none } } 7 false false false q
    | none => s
  if isSet s TXN_CREC_PREP.VALID then
    let q := getF s TXN_CREC_PREP.SEQ
    let s := txnOutcome (setFs s [(TXN_CREC_PREP.VALID, 0), (TXN_CREC_PREP.SEQ, 0)]) 6 false false false q
    if s.nv.prepared / 2 ^ 24 = ownStn s then s
    else { s with txn := { s.txn with report := some (s.nv.prepared, 6, 1000) } }
  else s

/-- Step 8: the journal entries that are not mirrored go to the journal area (R531). -/
def journalBoot (s : State) : State :=
  if norAbsent s then s
  else (journalSteps s).foldl (fun s st => match st with
    | .erase a => norErase s a
    | .program a bs => norProgram s a bs
    | .journal q => setF s ZCP_JMIR.SEQ q
    | _ => s) s

/-! ## BOOT (R574) -/

/-- Steps 1 to 8 of Table 20.8. -/
def bootLoad (s : State) : State :=
  let sel := getF s RST_STRAP.BOOTSEL
  let s := setFs s [(NVS_SIZE.BYTES, if 0x2000000 ≤ s.nv.bytes then s.nv.bytes else 0), (NVS_STAT.BOOTSEL, sel)]
  let (acc, r0, r1) := slotsJudge s (slotsTried s sel) none 0 0
  let s := setFs s [(NVS_STAT.BOOTSLOT, acc.getD 3), (NVS_STAT.REJ0, r0), (NVS_STAT.REJ1, r1), (SYS_MODE.NO_IMAGE, b2n acc.isNone)]
  let s := if norAbsent s then s else (List.range 2).foldl (fun s i => match recordOf s i with
    | some r => setF s (NVS_GEN.GEN i) r.gen
    | none => s) s
  let s := match newestMirror s with
    | some (_, m) => setFs s [(NVS_RETSEQ.SEQ, m.seq), (NVS_RETTAI.SEC, m.sec)]
    | none => s
  let s := match acc with
    | some i =>
      let s := setF s NVS_BASE.SEQ (match recordOf s i with | some r => r.base | none => 0)
      let s := match sectionOf s i 1 with
        | some (at', bs) =>
          if at' % 65536 = getF s ZCP_FW.ROM then setF s ZCP_FW.PATCH (nth 0 (wordsOf bs) 0) else setF s NVS_STAT.PATCH_SKIP 1
        | none => setF s NVS_STAT.PATCH_SKIP 1
      loadSlot s i
    | none => s
  let s := crecBoot (retBoot s acc)
  let s := if sel = 1 ∨ sel = 3 then s
    else
      let s := voidSets s (!isSet s NVS_D0MARK.SEEN)
      if acc.isSome then replaySets s (recordedSets s) else s
  let s := resetOutcome (setF s NVS_D0MARK.SEEN 1)
  let top := ((heldSets s).map (·.seq)).foldl seqMax (seqMax (getF s NVS_BASE.SEQ) (getF s TXN_CREC_LAST.SEQ))
  journalBoot (setF s NVS_TXA.NEXT (top + 1))

/-! ## SELFTEST (R81, R575) -/

/-- A result is written, and ST_FAIL follows (Table 3.12, Table 3.16). -/
def stResult (s : State) (i code : Nat) : State :=
  let r := getF s SYS_STRES.RES
  let s := setF s SYS_STRES.RES (r - bitsOf r (2 * i) 2 * 4 ^ i + code * 4 ^ i)
  setF s SYS_MODE.ST_FAIL (b2n ((List.range 14).any fun j => bitsOf (getF s SYS_STRES.RES) (2 * j) 2 == 2))

/-- A test is not run (Table 3.6a, R80). -/
def stSkip (s : State) (i : Nat) : Bool :=
  match i with
  | 0 => isSet s SYS_MODE.NO_IMAGE
  | 7 => (List.range 4).all fun p => !isSet s (CLS_P_CFG.EN p)
  | 8 => (List.range 2).all fun n => !isSet s (CAN_CTRL.EN n)
  | 9 => linkUp s && s.sby.present && [6, 8, 9].contains (getF s SBY_STAT.PMODE)
  | _ => false

/-- A failure of a test is fatal; test 10 is when the hub itself fails, listed as 8. -/
def stFatal (i : Nat) (failed : List Nat) : Bool :=
  !failed.isEmpty && (i ≤ 6 || i == 12 || (i == 10 && failed.any fun k => decide (8 ≤ k)))

/-- A part that failed its test behaves as not present (R81). -/
def stDisable (s : State) (i : Nat) (failed : List Nat) : State :=
  if failed.isEmpty then s
  else match i with
  | 7 => { s with ms := { s.ms with portsOff := failed } }
  | 8 => { s with ms := { s.ms with canOff := failed } }
  | 9 => setF { s with ms := { s.ms with sblOff := true } } SBY_STAT.LINK 0
  | 10 => { s with ms := { s.ms with cpnOff := failed } }
  | 11 => { s with ms := { s.ms with interpOff := true } }
  | 12 => { s with pwr := { s.pwr with warnOff := true } }
  | 13 => { s with ms := { s.ms with traceOff := true } }
  | _ => s

/-- A test starts; the trace buffer is isolated during its own test (R553). -/
def stStart (s : State) (i : Nat) : State :=
  let s := { s with ms := { s.ms with selftest := some i } }
  if i = 13 then { s with trc := { s.trc with gap := some (s.time.tai, classNow s, s.time.tai) } } else s

/-- What the end of a test leaves: monitors report what was held back, the trace buffer is empty and marks its gap (Table 3.7,
R553). -/
def stEnd (s : State) (i : Nat) : State :=
  if i = 12 then monTestEnd s
  else if i = 13 then
    trcLost (trcClear s)
  else s

/-- The memories of tests 0 to 3 are reloaded from the accepted slot, with INITDATA and the sets of step 7 (R81, R575); without
an image they hold what a reset leaves. -/
def stReload (s : State) : State :=
  let c := s.core
  let s := eccWipe codeMem (clearSpaces { s with core := { c with bankA := [], bankB := [], badA := [], badB := [], dtBad := [] } })
  let s := { s with regs := s.regs.filter fun p => !(0x50000000 ≤ p.1 / 32 && p.1 / 32 < 0x51000000) }
  let s := refreshPresent (setFs s [(CORE_BANK.ACTIVE, 0), (CORE_PIDA_VER.VER, 0), (CORE_PIDA_CRC.CRC, 0),
    (CORE_PIDB_VER.VER, 0), (CORE_PIDB_CRC.CRC, 0), (CORE_DTVER.VERSION, 0), (CORE_DTCRC.CRC, 0)])
  let i := getF s NVS_STAT.BOOTSLOT
  if 1 < i then s
  else
    let s := initData (loadTable (loadProgram s (sectionWords s i 2)) (sectionWords s i 3)) i
    ((recordedSets s).take (getF s NVS_STAT.SETS_APPLIED)).foldl (applySet fun o => o < 2) s

/-- The end of SELFTEST (transitions 6 to 9). -/
def stLeave (s : State) (fatal : Bool) : State :=
  let s := stReload { s with ms := { s.ms with selftest := none } }
  if fatal then enterHalt (journalInt s SYS_MODE.HALT_CAUSE.addr 6) 6
  else if !isSet s SYS_MODECTL.AUTORUN || isSet s SYS_MODE.NO_IMAGE then d11Follow (transition s .stop)
  else enterByRole s

/-- The next test of a list starts; those to be skipped are recorded; after the last one SELFTEST ends. -/
def stNext : List Nat → State → State
  | [], s => stLeave s false
  | i :: r, s => if stSkip s i then stNext r (stResult s i 3) else stStart s i

/-- BOOT_COMPLETE (R574, transition 5): loading and replay are finished, and the TAI counter has been seeded. -/
def execBootComplete (s : State) : Host.Outcome State Fault Refusal :=
  .next (if s.mode != .boot || s.ms.refStopped then s
    else
      let s := if s.ms.bootLoaded then s
        else loadHooks s (bootLoad { s with ms := { s.ms with bootLoaded := true } })
      if !s.time.running then s
      else
        let s := transition s .selftest
        stNext (List.range 14) (if domOn s 11 then s else domainUp s 11))

/-- SELFTEST_TEST_DONE (R81, R82): a test ends, `failed` listing what failed: nothing, or ports, controllers, companions (8 for
the hub), 0 for a block as a whole. An on-demand test only replaces its result and ends its operation. -/
def execSelftestTestDone (failed : List Nat) (s : State) : Host.Outcome State Fault Refusal :=
  .next (
    let code := if failed.isEmpty then 1 else 2
    match s.ms.selftest, s.ms.demandTest with
    | some i, _ =>
      if s.mode != .selftest then s
      else
        let s := stResult s i code
        let s := stEnd { s with ms := { s.ms with selftest := none } } i
        let s := stDisable s i failed
        if stFatal i failed then stLeave s true else stNext ((List.range 14).drop (i + 1)) s
    | none, some (i, op) =>
      let s := stResult s i code
      let s := stEnd { s with ms := { s.ms with demandTest := none } } i
      opEnd s op 0 (beBytes 1 code)
    | none, none => s)

/-! ## The reload of a HOLD wake (R89, R576) -/

/-- HOLD_WAKE_RELOAD_DONE (R576): bank A and the decode table are rebuilt from the accepted slot and the recorded sets. -/
def execHoldWakeReloadDone (s : State) : Host.Outcome State Fault Refusal :=
  .next (if !s.ms.wakeReload then s
    else
      let pid := s.ms.heldPid
      let s := { s with ms := { s.ms with wakeReload := false } }
      let i := getF s NVS_STAT.BOOTSLOT
      let s := setFs (eccWipe codeMem s) [(CORE_BANK.ACTIVE, 0), (CORE_PIDB_VER.VER, 0), (CORE_PIDB_CRC.CRC, 0), (TXN_STAT.UNDO_OK, 0),
        (EDT_STAT.KEEP_OK, 0)]
      let c := s.core
      let s := { s with core := { c with bankB := [], badB := [] } }
      let s := if 1 < i then setFs { s with core := { s.core with bankA := [], badA := [] } } [(CORE_PIDA_VER.VER, 0), (CORE_PIDA_CRC.CRC, 0)]
        else
          let s := loadTable (loadProgram s (sectionWords s i 2)) (sectionWords s i 3)
          (recordedSets s).foldl (fun s p => applySet (fun o => o < 2) s { p with newVars := [] }) s
      if activePid s = pid then s else setRaise s NVS_STAT.RELOAD_DIFF 1)

end Sys2Proof.Machine
end

