-- ==== Sys2Proof/Machine/LineMeas.lean ====
section
/-!
DEFINITION. The supervisor's two policies of the line functions (spec/16_line_measurement.md, R471 to R473): which time sources
may discipline the clock, and which input Plumb tracks.
-/

namespace Sys2Proof.Machine

open Reg

/-- The policies act from STOP to TAKEOVER (R473). -/
def policyOn (s : State) : Bool := inMode s [.stop, .run, .runEdit, .track, .takeover]

/-! ## Time sources (R471) -/

/-- The qualified time sources. -/
def qualifiedSrcs (s : State) : List Nat := (List.range 7).filter fun n => isSet s (TIM_SRC_STAT.QUALIFIED n)

/-- The measured offset of a source in ns. -/
def srcOffset (s : State) (n : Nat) : Int := signedOf 32 (getF s (TIM_SRC_OFFSET.OFFSET n))

/-- An integer put at its place in a rising list. -/
def insertInt (x : Int) : List Int → List Int
  | [] => [x]
  | y :: ys => if x ≤ y then x :: y :: ys else y :: insertInt x ys

/-- Twice the median of a list: of an even number of values the two in the middle count alike (log entry 45, DEDUCED). -/
def median2 (l : List Int) : Int :=
  let r := l.foldr insertInt []
  r.getD ((r.length - 1) / 2) 0 + r.getD (r.length / 2) 0

/-- Source n is demoted now. -/
def tspDemote (s : State) (n : Nat) : State :=
  let saved := getF s TSP_SAVE.PRIO
  let old := bitsOf saved (3 * n) 3
  let s := setF s TSP_SAVE.PRIO (saved - old * 8 ^ n + getF s (TIM_SRC_CFG.PRIO n) * 8 ^ n)
  let s := setFs s [(TIM_SRC_CFG.PRIO n, 7), (TSP_STAT.DEMOTED, getF s TSP_STAT.DEMOTED ||| 2 ^ n)]
  pulse (journalF (incWrap s TSP_STAT.COUNT) TSP_STAT.DEMOTED) 0x30A04

/-- One source in one second: its counters, demotion, restoring. `med2` is twice the median. -/
def tspSource (med2 : Int) (s : State) (n : Nat) : State :=
  let far := decide (((2 * getF s TIM_DISAGREE.LIM : Nat) : Int) < (2 * srcOffset s n - med2).natAbs)
  let q := isSet s (TIM_SRC_STAT.QUALIFIED n)
  let dem := bitOf (getF s TSP_STAT.DEMOTED) n
  let d := if q && far then nth 0 s.phm.disag n + 1 else 0
  let a := if q && !far then nth 0 s.phm.agree n + 1 else 0
  let s := { s with phm := { s.phm with disag := s.phm.disag.set n d, agree := s.phm.agree.set n a } }
  if !dem && max 1 (getF s TSP_CFG.N) ≤ d then tspDemote s n
  else if dem && max 1 (getF s TSP_CFG.RET) ≤ a then
    setFs s [(TIM_SRC_CFG.PRIO n, bitsOf (getF s TSP_SAVE.PRIO) (3 * n) 3), (TSP_STAT.DEMOTED, getF s TSP_STAT.DEMOTED - 2 ^ n)]
  else if dem then setF s (TIM_SRC_CFG.PRIO n) 7
  else s

/-- FORCE_SRC while sources are demoted: the best qualified one that is not (R471 step 2). -/
def tspForce (s : State) : Nat :=
  if getF s TSP_STAT.DEMOTED = 0 then 0xF
  else
    let best := ((qualifiedSrcs s).filter fun n => !bitOf (getF s TSP_STAT.DEMOTED) n).foldl (fun b n => match b with
      | none => some n
      | some m => if ranksBefore s n m then some n else some m) (none : Option Nat)
    best.getD 0xF

/-- TSP_SECOND (R471). -/
def execTspSecond (s : State) : Host.Outcome State Fault Refusal :=
  .next (if !policyOn s || !bitOf (getF s PHM_CTRL.EN) 5 || (qualifiedSrcs s).length < 3 then s
    else
      let s := (List.range 7).foldl (tspSource (median2 ((qualifiedSrcs s).map (srcOffset s)))) s
      reselect (setF s TIM_CTRL.FORCE_SRC (tspForce s)))

/-! ## Plumb's input (R472) -/

/-- The address of the QUAL word of the channel whose ring begins at an address (R333, Table 11.5). -/
def ringQual (s : State) (a : Nat) : Option Nat :=
  ((List.range 64).filter fun m => isSet s (CLS_S_HDR.EN m)).findSome? fun m =>
    ((List.range (getF s (CLS_S_CFG.NCHM1 m) + 1)).find? fun c => getF s (CLS_S_RING.ADDR m) + c * getF s (CLS_S_RING.RLEN m) == a).map
      fun c => getF s (CLS_S_HDR.ADDR m) + 8 + c

/-- The rings that a candidate tracks. -/
def candRings (s : State) (i : Nat) : List Nat :=
  if getF s (ATR_CAND_MODE.SRC_MODE i) = 1 then [getF s (ATR_CAND_A.ADDR i)]
  else [getF s (ATR_CAND_A.ADDR i), getF s (ATR_CAND_B.ADDR i), getF s (ATR_CAND_C.ADDR i)]

/-- The newest QUAL words of a candidate are all good; a word that is lost to ECC is POISON. -/
def candGood (s : State) (i : Nat) : Bool :=
  isSet s (ATR_CAND_MODE.VALID i) && (candRings s i).all fun a => match ringQual s a with
    | some w => eccAt s .words w != .uncorrectable && (rawWord s w).tag.toNat == 10 && (rawWord s w).val.toNat % 4 == 0
    | none => false

/-- The policy's reads of the QUAL words of its candidates, checked (R151, R152). -/
def candReads (s : State) : State :=
  (readAll s (((List.range 3).filter fun i => isSet s (ATR_CAND_MODE.VALID i)).flatMap fun i => (candRings s i).filterMap (ringQual s))).2

/-- The fields that a switch stages. -/
def candStage (s : State) (i : Nat) : List (Fld × Nat) :=
  [(PLB_CTRL.SRC_MODE, getF s (ATR_CAND_MODE.SRC_MODE i)), (PLB_SRCA.ADDR, getF s (ATR_CAND_A.ADDR i)),
    (PLB_SRCB.ADDR, getF s (ATR_CAND_B.ADDR i)), (PLB_SRCC.ADDR, getF s (ATR_CAND_C.ADDR i))]

/-- A switch to a candidate: a local transaction that is prepared and commits NOW, or a deferral (R472). -/
def atrSwitch (s : State) (i : Nat) : State :=
  if isSet s TXN_STAT.STATE then
    if s.phm.deferred then s else incSat { s with phm := { s.phm with deferred := true } } ATR_STAT.DEFERS PHM_STAT.CNT_OVF
  else
    let s := txnOpen { s with phm := { s.phm with deferred := false } } 0xFFFF false 0 0 false
    let s := { s with txn := { s.txn with staged := candStage s i } }
    if prepCheck s = 0 then
      prepStart { s with txn := { s.txn with commitAfter := some (0, 0, 0) }, phm := { s.phm with switching := some i, badMs := 0, goodMs := 0 } }
    else incSat (txnEnd s 2 0x0F) ATR_STAT.DEFERS PHM_STAT.CNT_OVF

/-- ATR_POLL (R472): Plumb's LOST event, or the poll of a millisecond. -/
def execAtrPoll (s : State) : Host.Outcome State Fault Refusal :=
  .next (if !policyOn s || !bitOf (getF s PHM_CTRL.EN) 6 || s.phm.switching.isSome then s
    else
      let cur := getF s ATR_STAT.CUR
      let bad := if candGood s cur then 0 else s.phm.badMs + 1
      let good := if candGood s 0 then s.phm.goodMs + 1 else 0
      let s := candReads { s with phm := { s.phm with badMs := bad, goodMs := good } }
      let next := ((List.range 2).map fun j => (cur + 1 + j) % 3).find? (candGood s)
      if cur ≠ 0 ∧ 1000 * getF s ATR_CFG.RET ≤ good ∧ 0 < good then atrSwitch s 0
      else if isSet s PLB_STAT.FREERUN ∧ getF s ATR_CFG.HOLD ≤ bad ∧ 0 < bad then
        (match next with
        | some i => atrSwitch s i
        | none => s)
      else s)

end Sys2Proof.Machine
end

