-- ==== Sys2Proof/Machine/UnitRows.lean ====
section
/-!
DEFINITION. The triggers of the unit catalogue as commands (spec/06_units.md, spec/07_decode_table.md): one trigger of one port
reaches its unit in the present cycle, with the operand registers of the task's context as they stand.
-/

namespace Sys2Proof.Machine

open Reg

/-! ## The tracker (R114, R115) -/

/-- A deferred move that holds a tracker entry. -/
def defEntry (d : Deferred) : Bool := d.acts && isTrig d.dst

/-- Entries in use (R114). -/
def trkOcc (s : State) : Nat :=
  (s.core.ops.filter (·.entry)).length + (s.core.deferred.filter defEntry).length + s.core.waiting.length

/-- CORE_TRK.MAX takes an occupancy. -/
def trkNote (s : State) (n : Nat) : State := if getF s CORE_TRK.MAX < n then setF s CORE_TRK.MAX n else s

/-! ## One trigger -/

/-- The engine runs: a mode of Table 3.3 in which tasks run, with D2 on (R124). -/
def engineOn (s : State) : Bool := inMode s runModes && domOn s 2

/-- A trigger that reaches a port of a unit in a task's context now (R103). -/
def rowTrig (s : State) (o : Origin) (unit port : Nat) (t : TWord) : Deferred :=
  { o := o, dst := 16 * unit + port, val := t, opds := opdsOf s o.task unit, iss := s.core.cyc, res := s.core.cyc, ok := true,
    sel := nth 0 s.core.macSel o.task }

/-- Marks of the present cycle beside the units that have fired: STRUCT has counted, a FASTOUT trigger is held by a full queue. -/
def structMark : Nat := 99
@[inherit_doc structMark] def roomMark : Nat := 98

/-- A trigger that a full fast queue holds is marked (R188). -/
def markRoom (s : State) (d : Deferred) : State :=
  if d.dst / 16 = 16 ∧ roomLacks s d then addMark s roomMark else s

/-- A trigger fires when its unit is free and no earlier one waits for it, and waits otherwise (R117, R629). -/
def reachUnit (base s : State) (d : Deferred) : State :=
  if unitFree s d && !s.core.waiting.any (sameQueue s d) then fireTrig base s d
  else markRoom { s with core := { s.core with waiting := s.core.waiting ++ [d] } } d

/-- A row of the unit catalogue. -/
def trigRow (units : List Nat) (port : Nat) (o : Origin) (u : Nat) (t : TWord) (s : State) : State :=
  if engineOn s && units.contains u && decide (o.task < 8) then
    reachUnit s (trkNote s (trkOcc s + 1)) (rowTrig s o u port t)
  else s

/-! ## The rows -/

/-- ALU_ADD (R164). -/
def execAluAdd (o : Origin) (u : Nat) (t : TWord) (s : State) : Host.Outcome State Fault Refusal :=
  .next (trigRow [1, 2, 3, 4] 4 o u t s)

/-- ALU_SUB (R164). -/
def execAluSub (o : Origin) (u : Nat) (t : TWord) (s : State) : Host.Outcome State Fault Refusal :=
  .next (trigRow [1, 2, 3, 4] 5 o u t s)

/-- ALU_AND (R164). -/
def execAluAnd (o : Origin) (u : Nat) (t : TWord) (s : State) : Host.Outcome State Fault Refusal :=
  .next (trigRow [1, 2, 3, 4] 6 o u t s)

/-- ALU_OR (R164). -/
def execAluOr (o : Origin) (u : Nat) (t : TWord) (s : State) : Host.Outcome State Fault Refusal :=
  .next (trigRow [1, 2, 3, 4] 7 o u t s)

/-- ALU_XOR (R164). -/
def execAluXor (o : Origin) (u : Nat) (t : TWord) (s : State) : Host.Outcome State Fault Refusal :=
  .next (trigRow [1, 2, 3, 4] 8 o u t s)

/-- ALU_SHL (R164). -/
def execAluShl (o : Origin) (u : Nat) (t : TWord) (s : State) : Host.Outcome State Fault Refusal :=
  .next (trigRow [1, 2, 3, 4] 9 o u t s)

/-- ALU_SHR (R164). -/
def execAluShr (o : Origin) (u : Nat) (t : TWord) (s : State) : Host.Outcome State Fault Refusal :=
  .next (trigRow [1, 2, 3, 4] 10 o u t s)

/-- ALU_MIN (R164). -/
def execAluMin (o : Origin) (u : Nat) (t : TWord) (s : State) : Host.Outcome State Fault Refusal :=
  .next (trigRow [1, 2, 3, 4] 11 o u t s)

/-- ALU_MAX (R164). -/
def execAluMax (o : Origin) (u : Nat) (t : TWord) (s : State) : Host.Outcome State Fault Refusal :=
  .next (trigRow [1, 2, 3, 4] 12 o u t s)

/-- ALU_NEGABS (R164). -/
def execAluNegabs (o : Origin) (u : Nat) (t : TWord) (s : State) : Host.Outcome State Fault Refusal :=
  .next (trigRow [1, 2, 3, 4] 13 o u t s)

/-- ALU_SEL (R164). -/
def execAluSel (o : Origin) (u : Nat) (t : TWord) (s : State) : Host.Outcome State Fault Refusal :=
  .next (trigRow [1, 2, 3, 4] 14 o u t s)

/-- ALU_CVT (R165). -/
def execAluCvt (o : Origin) (u : Nat) (t : TWord) (s : State) : Host.Outcome State Fault Refusal :=
  .next (trigRow [1, 2, 3, 4] 15 o u t s)

/-- GBU_AND (R166). -/
def execGbuAnd (o : Origin) (u : Nat) (t : TWord) (s : State) : Host.Outcome State Fault Refusal :=
  .next (trigRow [5, 6] 4 o u t s)

/-- GBU_OR (R166). -/
def execGbuOr (o : Origin) (u : Nat) (t : TWord) (s : State) : Host.Outcome State Fault Refusal :=
  .next (trigRow [5, 6] 5 o u t s)

/-- GBU_XOR (R166). -/
def execGbuXor (o : Origin) (u : Nat) (t : TWord) (s : State) : Host.Outcome State Fault Refusal :=
  .next (trigRow [5, 6] 6 o u t s)

/-- GBU_ANDN (R166). -/
def execGbuAndn (o : Origin) (u : Nat) (t : TWord) (s : State) : Host.Outcome State Fault Refusal :=
  .next (trigRow [5, 6] 7 o u t s)

/-- GBU_NOT (R166). -/
def execGbuNot (o : Origin) (u : Nat) (t : TWord) (s : State) : Host.Outcome State Fault Refusal :=
  .next (trigRow [5, 6] 8 o u t s)

/-- GBU_COPY (R166). -/
def execGbuCopy (o : Origin) (u : Nat) (t : TWord) (s : State) : Host.Outcome State Fault Refusal :=
  .next (trigRow [5, 6] 9 o u t s)

/-- GBU_SR (R166). -/
def execGbuSr (o : Origin) (u : Nat) (t : TWord) (s : State) : Host.Outcome State Fault Refusal :=
  .next (trigRow [5, 6] 10 o u t s)

/-- GBU_RS (R166). -/
def execGbuRs (o : Origin) (u : Nat) (t : TWord) (s : State) : Host.Outcome State Fault Refusal :=
  .next (trigRow [5, 6] 11 o u t s)

/-- GBU_RISE (R166). -/
def execGbuRise (o : Origin) (u : Nat) (t : TWord) (s : State) : Host.Outcome State Fault Refusal :=
  .next (trigRow [5, 6] 12 o u t s)

/-- GBU_FALL (R166). -/
def execGbuFall (o : Origin) (u : Nat) (t : TWord) (s : State) : Host.Outcome State Fault Refusal :=
  .next (trigRow [5, 6] 13 o u t s)

/-- GBU_TON (R167). -/
def execGbuTon (o : Origin) (u : Nat) (t : TWord) (s : State) : Host.Outcome State Fault Refusal :=
  .next (trigRow [5, 6] 14 o u t s)

/-- GBU_TOF (R167). -/
def execGbuTof (o : Origin) (u : Nat) (t : TWord) (s : State) : Host.Outcome State Fault Refusal :=
  .next (trigRow [5, 6] 15 o u t s)

/-- MUL_MUL (R169). -/
def execMulMul (o : Origin) (u : Nat) (t : TWord) (s : State) : Host.Outcome State Fault Refusal :=
  .next (trigRow [7] 4 o u t s)

/-- MUL_MULW (R169). -/
def execMulMulw (o : Origin) (u : Nat) (t : TWord) (s : State) : Host.Outcome State Fault Refusal :=
  .next (trigRow [7] 5 o u t s)

/-- MUL_SQ (R169). -/
def execMulSq (o : Origin) (u : Nat) (t : TWord) (s : State) : Host.Outcome State Fault Refusal :=
  .next (trigRow [7] 6 o u t s)

/-- PHU_CMAC (R171). -/
def execPhuCmac (o : Origin) (u : Nat) (t : TWord) (s : State) : Host.Outcome State Fault Refusal :=
  .next (trigRow [8] 4 o u t s)

/-- PHU_CMAG (R170). -/
def execPhuCmag (o : Origin) (u : Nat) (t : TWord) (s : State) : Host.Outcome State Fault Refusal :=
  .next (trigRow [8] 5 o u t s)

/-- PHU_CROT (R170). -/
def execPhuCrot (o : Origin) (u : Nat) (t : TWord) (s : State) : Host.Outcome State Fault Refusal :=
  .next (trigRow [8] 6 o u t s)

/-- PHU_DFT (R172). -/
def execPhuDft (o : Origin) (u : Nat) (t : TWord) (s : State) : Host.Outcome State Fault Refusal :=
  .next (trigRow [8] 7 o u t s)

/-- LSU_LD (R174). -/
def execLsuLd (o : Origin) (u : Nat) (t : TWord) (s : State) : Host.Outcome State Fault Refusal :=
  .next (trigRow [9, 10] 4 o u t s)

/-- LSU_LDX (R174). -/
def execLsuLdx (o : Origin) (u : Nat) (t : TWord) (s : State) : Host.Outcome State Fault Refusal :=
  .next (trigRow [9, 10] 5 o u t s)

/-- LSU_LDP (R174). -/
def execLsuLdp (o : Origin) (u : Nat) (t : TWord) (s : State) : Host.Outcome State Fault Refusal :=
  .next (trigRow [9, 10] 6 o u t s)

/-- LSU_ST (R175). -/
def execLsuSt (o : Origin) (u : Nat) (t : TWord) (s : State) : Host.Outcome State Fault Refusal :=
  .next (trigRow [9, 10] 7 o u t s)

/-- LSU_STX (R175). -/
def execLsuStx (o : Origin) (u : Nat) (t : TWord) (s : State) : Host.Outcome State Fault Refusal :=
  .next (trigRow [9, 10] 8 o u t s)

/-- LSU_STP (R175). -/
def execLsuStp (o : Origin) (u : Nat) (t : TWord) (s : State) : Host.Outcome State Fault Refusal :=
  .next (trigRow [9, 10] 9 o u t s)

/-- BRU_EQ (R176). -/
def execBruEq (o : Origin) (u : Nat) (t : TWord) (s : State) : Host.Outcome State Fault Refusal :=
  .next (trigRow [11] 4 o u t s)

/-- BRU_NE (R176). -/
def execBruNe (o : Origin) (u : Nat) (t : TWord) (s : State) : Host.Outcome State Fault Refusal :=
  .next (trigRow [11] 5 o u t s)

/-- BRU_LT (R176). -/
def execBruLt (o : Origin) (u : Nat) (t : TWord) (s : State) : Host.Outcome State Fault Refusal :=
  .next (trigRow [11] 6 o u t s)

/-- BRU_LE (R176). -/
def execBruLe (o : Origin) (u : Nat) (t : TWord) (s : State) : Host.Outcome State Fault Refusal :=
  .next (trigRow [11] 7 o u t s)

/-- BRU_GT (R176). -/
def execBruGt (o : Origin) (u : Nat) (t : TWord) (s : State) : Host.Outcome State Fault Refusal :=
  .next (trigRow [11] 8 o u t s)

/-- BRU_GE (R176). -/
def execBruGe (o : Origin) (u : Nat) (t : TWord) (s : State) : Host.Outcome State Fault Refusal :=
  .next (trigRow [11] 9 o u t s)

/-- BRU_TST (R176). -/
def execBruTst (o : Origin) (u : Nat) (t : TWord) (s : State) : Host.Outcome State Fault Refusal :=
  .next (trigRow [11] 10 o u t s)

/-- BRU_PC (R120). -/
def execBruPc (o : Origin) (u : Nat) (t : TWord) (s : State) : Host.Outcome State Fault Refusal :=
  .next (trigRow [11] 11 o u t s)

/-- BRU_CALL (R177). -/
def execBruCall (o : Origin) (u : Nat) (t : TWord) (s : State) : Host.Outcome State Fault Refusal :=
  .next (trigRow [11] 12 o u t s)

/-- TMU_NOW_T (R178). -/
def execTmuNowT (o : Origin) (u : Nat) (t : TWord) (s : State) : Host.Outcome State Fault Refusal :=
  .next (trigRow [12] 4 o u t s)

/-- TMU_NOW_A (R178). -/
def execTmuNowA (o : Origin) (u : Nat) (t : TWord) (s : State) : Host.Outcome State Fault Refusal :=
  .next (trigRow [12] 5 o u t s)

/-- TMU_ADDA (R178). -/
def execTmuAdda (o : Origin) (u : Nat) (t : TWord) (s : State) : Host.Outcome State Fault Refusal :=
  .next (trigRow [12] 6 o u t s)

/-- TMU_SCHED_A (R179). -/
def execTmuSchedA (o : Origin) (u : Nat) (t : TWord) (s : State) : Host.Outcome State Fault Refusal :=
  .next (trigRow [12] 7 o u t s)

/-- TMU_SCHED_T (R179). -/
def execTmuSchedT (o : Origin) (u : Nat) (t : TWord) (s : State) : Host.Outcome State Fault Refusal :=
  .next (trigRow [12] 8 o u t s)

/-- TMU_CANCEL (R179). -/
def execTmuCancel (o : Origin) (u : Nat) (t : TWord) (s : State) : Host.Outcome State Fault Refusal :=
  .next (trigRow [12] 9 o u t s)

/-- TMU_POP (R181). -/
def execTmuPop (o : Origin) (u : Nat) (t : TWord) (s : State) : Host.Outcome State Fault Refusal :=
  .next (trigRow [12] 10 o u t s)

/-- QU_RECV (R182). -/
def execQuRecv (o : Origin) (u : Nat) (t : TWord) (s : State) : Host.Outcome State Fault Refusal :=
  .next (trigRow [13] 4 o u t s)

/-- QU_SEND_ETH (R182). -/
def execQuSendEth (o : Origin) (u : Nat) (t : TWord) (s : State) : Host.Outcome State Fault Refusal :=
  .next (trigRow [13] 5 o u t s)

/-- QU_SEND_CAN (R182, R379). -/
def execQuSendCan (o : Origin) (u : Nat) (t : TWord) (s : State) : Host.Outcome State Fault Refusal :=
  .next (trigRow [13] 6 o u t s)

/-- QU_FLD_CMD (R182, R421). -/
def execQuFldCmd (o : Origin) (u : Nat) (t : TWord) (s : State) : Host.Outcome State Fault Refusal :=
  .next (trigRow [13] 7 o u t s)

/-- QU_REG_RD (R182). -/
def execQuRegRd (o : Origin) (u : Nat) (t : TWord) (s : State) : Host.Outcome State Fault Refusal :=
  .next (trigRow [13] 8 o u t s)

/-- QU_REG_WR (R182). -/
def execQuRegWr (o : Origin) (u : Nat) (t : TWord) (s : State) : Host.Outcome State Fault Refusal :=
  .next (trigRow [13] 9 o u t s)

/-- IMG_END (R185). -/
def execImgEnd (o : Origin) (u : Nat) (t : TWord) (s : State) : Host.Outcome State Fault Refusal :=
  .next (trigRow [14] 4 o u t s)

/-- MAC_SEL (R186). -/
def execMacSel (o : Origin) (u : Nat) (t : TWord) (s : State) : Host.Outcome State Fault Refusal :=
  .next (trigRow [15] 4 o u t s)

/-- MAC_EXEC (R198). -/
def execMacExec (o : Origin) (u : Nat) (t : TWord) (s : State) : Host.Outcome State Fault Refusal :=
  .next (trigRow [15] 5 o u t s)

/-- FLD_FASTOUT (R187). -/
def execFldFastout (o : Origin) (u : Nat) (t : TWord) (s : State) : Host.Outcome State Fault Refusal :=
  .next (trigRow [16] 4 o u t s)

/-- MAC_EXEC_DIRECT (R198): EXEC0 to EXEC9. -/
def execMacExecDirect (o : Origin) (n : Nat) (t : TWord) (s : State) : Host.Outcome State Fault Refusal :=
  .next (if n < 10 then trigRow [15] (6 + n) o 15 t s else s)

end Sys2Proof.Machine
end

