-- ==== Sys2Proof/Machine/Engine.lean ====
section
/-!
DEFINITION. The move engine (spec/04_move_engine.md): micro-moves (spec/07_decode_table.md, R195 to R207), stalls, what comes due
at the start of a cycle, the issue of a bundle, provisional and deferred moves, and the replay counter of a replica
(spec/10_hot_standby.md, R289).
-/

namespace Sys2Proof.Machine

open Reg

/-! ## Micro-moves (R195 to R200, R207) -/

/-- What a micro-move reads (Table 7.2). -/
def microSrc (r : MacRun) (p : Nat) : TWord :=
  match p with
  | 0 => mkT 2 0
  | 2 => mkT 3 r.o.task
  | _ => macGet r p

/-- The run with a register of the MAC bank set. -/
def macPut (r : MacRun) (k : Nat) (v : TWord) : MacRun := { r with regs := sset TWord.empty r.regs k v }

/-- Results of a micro-trigger, in flight until their last cycle. -/
def microResults (r : MacRun) (unit lat : Nat) (rs : List (Nat × TWord)) : MacRun :=
  { r with inflight := r.inflight ++ rs.map fun x => (r.m + lat - 1, 16 * unit + x.1, x.2) }

/-- A check of a micro-trigger: its results when it fails; no run after a trap (R203, R207). -/
def microCheck (_s : State) (r : MacRun) (unit lat : Nat) (sp : Spec) (c : Checked × State)
    (k : List TWord → State → Option MacRun × State) : Option MacRun × State :=
  match c with
  | (.fires vs, s) => k vs s
  | (.poison w, s) => (some (microResults r unit lat (sp.res.map fun i => (i, w))), s)
  | (.trap, _) => (none, c.2)

/-- A load triggered by a micro-move (R199). -/
def microLoad (s : State) (r : MacRun) (unit port : Nat) (vals : List TWord) : Option MacRun × State :=
  let sp := lsuSpec port
  let mi := some (r.entry, r.m)
  microCheck s r unit 4 sp (checkTags s sp r.o mi vals) fun vs s =>
    let load (a : Nat) (pair : Bool) : Option MacRun := some { r with loads := r.loads ++ [(r.m + 3, unit, a, pair)] }
    match port with
    | 4 => (load (opn vs 4) false, s)
    | 5 => (match indexed (opn vs 0) (opd vs 4) with
      | some a => (load a false, s)
      | none => microCheck s r unit 4 sp (addrFault s sp r.o mi vals 4) fun _ s => (some r, s))
    | _ => (load (opn vs 4 % 2 ^ 19) true, s)

/-- A micro-trigger fires (R199, R207). -/
def microFire (s : State) (r : MacRun) (dst : Nat) (v : TWord) : Option MacRun × State :=
  let unit := dst / 16
  let vals := (List.range 4).map (fun i => macGet r (0x400 + 16 * unit + i)) ++ [v]
  let mi := some (r.entry, r.m)
  match pureOp unit (dst % 16) with
  | some op =>
    (match firePure s op r.o mi vals with
    | (some rs, s) => (some (microResults r unit op.lat rs), s)
    | (none, s) => (none, s))
  | none =>
    if unit = 8 then
      microCheck s r 8 4 cmacSpec (checkTags s cmacSpec r.o mi vals) fun vs s =>
        let (f, s) := drawFree s
        match phuCmac r.acc vs f with
        | (.ok rs, acc) => (some { microResults r 8 4 rs with acc := acc }, s)
        | (.fault i c, _) => microCheck s r 8 4 cmacSpec (opFault s r.o mi vals i c) fun _ s => (some r, s)
    else if unit = 9 ∨ unit = 10 then microLoad s r unit (dst % 16) vals
    else (some r, s)

/-- The write of a micro-move: a trigger fires, OUT, scratch and operand registers take the value, DISCARD ignores it. -/
def microWrite (s : State) (r : MacRun) (dst : Nat) (v : TWord) : Option MacRun × State :=
  if isTrig dst && dst / 16 != 15 then microFire s r dst v
  else if 0xF0 ≤ dst ∧ dst ≤ 0xF3 then (some (macPut r (0x1F0 + dst % 16) v), s)
  else if 0xF8 ≤ dst ∧ dst ≤ 0xFF then (some (macPut r dst v), s)
  else if dst = 0 then (some r, s)
  else (some (macPut r (0x400 + dst) v), s)

/-- The custom operation ends early: its EXEC holds nothing any more (R203). -/
def macDrop (s : State) : State :=
  { s with core := { s.core with mac := none, ops := s.core.ops.filter fun p => match p.act with
    | .custom _ => false
    | _ => true } }

/-- The end of a cycle in the MAC bank: the micro-move's write, then the results whose last cycle it is. -/
def macEnd (s : State) (r : MacRun) : State :=
  let ws := entryWords s r.entry
  let (ro, s) := match microNow s with
    | some m =>
      let v := if 0x400 ≤ m.src then immWord m else if m.src = 1 then mkT m.itag (nth 0 ws (r.m + 1)) else microSrc r m.src
      microWrite s r m.dst v
    | none => (some r, s)
  match ro with
  | none => macDrop s
  | some r =>
    let r := (r.inflight.filter fun x => x.1 ≤ r.m).foldl (fun r x => macPut r x.2.1 x.2.2) r
    let r := { r with inflight := r.inflight.filter (fun x => r.m < x.1), m := r.m + 1 }
    { s with core := { s.core with mac := some r } }

/-- The micro-move of this cycle (R198; case 2 and R212 for a word that cannot be read). The payload word of a long immediate is read
with the move that uses it and checked in the cycle it occupies (R196, R212; log entry 133, DESIGN CHOICE). -/
def macStep (s : State) : State :=
  match s.core.mac with
  | none => s
  | some r =>
    if r.m < entryK s r.entry then
      let (ok, s) := fetchDt s r.entry (4 + r.m)
      if ok then macEnd s r else macDrop s
    else macEnd s r

/-- Loads of micro-moves read at the start of their last cycle (R175, R199). -/
def macCapture (s : State) : State :=
  match s.core.mac with
  | none => s
  | some r =>
    let due := r.loads.filter fun l => l.1 == r.m
    let (got, s) := due.foldl (fun (acc : List (Nat × Nat × TWord) × State) l =>
      let (v, s) := readTaskWord acc.2 r.o.task l.2.2.1
      let one := acc.1 ++ [(r.m, 16 * l.2.1, v)]
      if l.2.2.2 then
        let (w, s) := readTaskWord s r.o.task (l.2.2.1 + 1)
        (one ++ [(r.m, 16 * l.2.1 + 1, w)], s)
      else (one, s)) ([], s)
    { s with core := { s.core with
        mac := some { r with inflight := r.inflight ++ got, loads := r.loads.filter fun l => l.1 != r.m } } }

/-! ## Stalls (R115, R117, R119) -/

/-- A cycle counts as a stall: flag, counter, event. -/
def countStall (s : State) (flag cnt ovf : Fld) : State :=
  let new := !isSet s flag
  let s := setF (incSat s cnt ovf) flag 1
  if new && isSet s CORE_CTRL.STALL_EVT then raise s flag else s

/-- STRUCT counts once in a cycle. -/
def structStall (s : State) : State :=
  if s.core.firedNow.contains structMark then s
  else addMark (countStall s CORE_STAT.STRUCT CORE_STALLCNT.STRUCT CORE_STAT.STRUCT_OVF) structMark

/-! ## The word space and the copies of the QU (R84, R172, R175, R184) -/

/-- An LSU or a DFT uses the word space in this cycle (R172, R175). -/
def wordSpaceUsed (s : State) : Bool :=
  (s.core.ops.any fun p => match p.act with
    | .load _ | .loadPair _ => p.fire + 3 == s.core.cyc
    | .store _ _ => p.unit != 13 && p.fire + 3 == s.core.cyc
    | .dft _ n _ _ _ _ _ _ => p.fire < s.core.cyc && s.core.cyc ≤ p.fire + n / 2
    | _ => false) ||
  (match s.core.mac with
  | some r => r.loads.any fun l => l.1 == r.m
  | none => false)

/-- The words that a QU copy moves, the identifier of a SEND_CAN not counted (Table 6.10). -/
def copyLen (p : PendOp) : Nat :=
  match p.act with
  | .store _ ws => ws.length
  | .sendEth _ _ _ len => (len + 3) / 4
  | .sendCan _ _ len _ _ _ => (len + 3) / 4
  | .fldCmd _ _ n => n
  | _ => 0

/-- The identifier of a SEND_CAN, which it reads one cycle ahead of its data (Table 6.10; log entry 125, DESIGN CHOICE). -/
def copyHead (p : PendOp) : Nat :=
  match p.act with
  | .sendCan _ _ _ _ _ _ => 1
  | _ => 0

/-- A QU operation copies a word in this cycle: the words follow each other from the third cycle on (R184; log entry 125, DESIGN
CHOICE). -/
def copying (s : State) (p : PendOp) : Bool :=
  p.unit == 13 && decide (p.done < copyLen p + copyHead p) && decide (p.fire + 2 ≤ s.core.cyc + copyHead p)

/-- Another requester than the QU uses the word space in this cycle: the core, a block outside it, the host, the capture of an output
window (R184, R222). -/
def wordsTaken (s : State) : Bool :=
  wordSpaceUsed s || s.sp.wordUse ||
    (List.range 8).any fun t => (task s t).fin == .fromEnd false && (winEntries s t true).any fun w => w.word

/-- One cycle of a QU operation: it yields, or moves its next word. RECV writes a word; the others read one, which stands at 256 + k
among the results. -/
def copyStep (s : State) (p : PendOp) : PendOp × State :=
  if !copying s p then (p, s)
  else if wordsTaken s then ({ p with lat := p.lat + 1 }, s)
  else
    let q := { p with done := p.done + 1 }
    let get (a : Nat) : PendOp × State :=
      let (w, s) := readTaskWord s p.o.task (a + p.done)
      ({ q with results := p.results ++ [(256 + p.done, w)] }, s)
    match p.act with
    | .store a ws => (q, moveWriteWord (rankCore p.fire 13 p.o.slot) s p.o.task (a + p.done) (nth TWord.empty ws p.done))
    | .sendEth a _ _ _ | .sendCan a _ _ _ _ _ | .fldCmd a _ _ => get a
    | _ => (p, s)

/-- Every operation in flight takes a step. -/
def eachOp (f : State → PendOp → PendOp × State) (s : State) : List PendOp → List PendOp × State
  | [] => ([], s)
  | p :: rest =>
    let (q, s) := f s p
    let (qs, s) := eachOp f s rest
    (q :: qs, s)

/-- The copies of the QU in this cycle. -/
def copyAll (s : State) : State :=
  let (ops, s) := eachOp copyStep s s.core.ops
  { s with core := { s.core with ops := ops } }

/-! ## The replay counter (R289, R297) -/

/-- One core cycle in units of the TAI counter: 2.5 ns. -/
def cycleTai : Nat := 5 * 2 ^ 31

/-- The lag of a replica now, in units of the TAI counter (R289). -/
def lagNow (s : State) : Option Int :=
  s.sby.lagRef.map fun r => (s.time.tai : Int) - (r.1 : Int) - ((s.sby.rcyc : Int) - (r.2 : Int)) * (cycleTai : Int)

/-- The replay counter in a new cycle (R289; in TAKEOVER R297). -/
def replayAdvance (s : State) : State :=
  if !replica s then s
  else
    let r := s.sby.rcyc
    let s := if quiet s then { s with sby := { s.sby with late := false } } else s
    let top := match s.sby.events with
      | e :: _ => min e.1 s.sby.horizon
      | [] => s.sby.horizon
    let to' (n : Nat) : State := { s with sby := { s.sby with rcyc := n } }
    if !quiet s then
      (if r < s.sby.horizon then to' (r + 1)
      else if s.sby.late then s
      else match (List.range 8).find? (frozen s) with
        | some t => diverge { s with sby := { s.sby with late := true } } 4 t
        | none => s)
    else if s.mode == .takeover then to' (max r top)
    else
      let lim : Int := ((getF s SBY_TMO.LAG * 1000 * nsUnit : Nat) : Int)
      match lagNow s with
      | some l =>
        if lim < l then to' (max r (min (r + 1 + ((l - lim) / (cycleTai : Int)).toNat) top))
        else if l < lim ∧ r < top then s
        else to' (max r (min (r + 1) top))
      | none => to' (max r (min (r + 1) top))

/-! ## Planning a bundle (R95 to R101, R118) -/

/-- A move of a bundle that lands, or is provisional. -/
structure Planned where
  slot : Nat
  m : Move
  val : TWord
  g : Guard
  deriving DecidableEq, Repr

/-- What the slots of a bundle hold: moves, illegal slots, slots whose guard is resolved false at issue. -/
structure Plan where
  moves : List Planned
  illegal : List Nat
  dead : List Nat
  deriving DecidableEq, Repr

/-- An operand register, a holding register (R103, R104). -/
def isOpd (dst : Nat) : Bool := 1 ≤ dst / 16 && dst / 16 ≤ 0x10 && dst % 16 < 4
@[inherit_doc isOpd] def isHold (dst : Nat) : Bool := 0x300 ≤ dst && dst < 0x340

/-- The value of a move's source. -/
def moveVal (s : State) (t : Nat) (ws : List Nat) (i : Nat) (m : Move) : TWord × State :=
  if 0x400 ≤ m.src then (immWord m, s)
  else if m.src = 1 then (mkT m.itag (nth 0 ws (i + 1)), s)
  else readSrc s t m.src

/-- One slot. -/
def planSlot (t : Nat) (ws : List Nat) (acc : Plan × State) (i : Nat) : Plan × State :=
  let (p, s) := acc
  if (payloadSlots ws).getD i true then acc
  else
    let m := Move.ofWord (nth 0 ws i)
    if m.illegal i then ({ p with illegal := p.illegal ++ [i] }, s)
    else
      let (g, s) := evalGuard s t m
      if !g.ok && g.res == s.core.cyc then ({ p with dead := if m.gidx = 15 then p.dead else p.dead ++ [i] }, s)
      else
        let (v, s) := moveVal s t ws i m
        ({ p with moves := p.moves ++ [{ slot := i, m := m, val := v, g := g }] }, s)

/-- The slots of a bundle. -/
def planBundle (s : State) (t : Nat) (ws : List Nat) : Plan × State :=
  (List.range 8).foldl (planSlot t ws) ({ moves := [], illegal := [], dead := [] }, s)

/-- Moves that lose to a higher slot on the same destination in the same cycle; DISCARD and cancelled moves never clash
(R118). `due` is the landing cycle. -/
def loses (all : List (Planned × Nat)) (p : Planned × Nat) : Bool :=
  p.1.g.ok && p.1.m.dst != 0 &&
    all.any fun q => q.1.g.ok && q.1.m.dst == p.1.m.dst && q.2 == p.2 && decide (p.1.slot < q.1.slot)

/-- The resolution cycle of a register's provisional value, 0 when it holds none. -/
def provAt (s : State) (k : Nat) : Nat := (s.core.prov.lookup k).getD 0

/-- The state with a provisional mark set or cleared. -/
def setProv (s : State) (k v : Nat) : State :=
  let l := s.core.prov.filter fun p => p.1 != k
  { s with core := { s.core with prov := if v = 0 then l else (k, v) :: l } }

/-- A move into an operand register at the end of the issue cycle (R110 to R112). -/
def opdWrite (t : Nat) (s : State) (p : Planned) : State :=
  let k := opdKey t (p.m.dst / 16) (p.m.dst % 16)
  let s := if p.g.ok then setCtx s k p.val else s
  if p.g.res ≤ s.core.cyc then setProv s k 0 else setProv s k (max p.g.res (provAt s k))

/-- The trigger of a planned move, with the operand registers as they stand at the end of the issue cycle (R111). -/
def trigOf (s : State) (o : Origin) (p : Planned) : Deferred :=
  { o := { o with slot := p.slot }, dst := p.m.dst, val := p.val, opds := opdsOf s o.task (p.m.dst / 16), iss := s.core.cyc,
    res := p.g.res, ok := p.g.ok, trc := p.m.trc, sel := nth 0 s.core.macSel o.task }

/-- The cycle in which a trigger fires: its own resolution and that of every provisional operand it uses (R111). -/
def dueOf (s : State) (d : Deferred) : Nat :=
  if d.ok then (usedOpds s d).foldl (fun m i => max m (provAt s (opdKey d.o.task (d.dst / 16) i))) d.res else d.res

/-! ## Issue -/

/-- The task that issues in this cycle (R215). -/
def issuing (s : State) : Option Nat :=
  (List.range 8).find? fun t =>
    (task s t).st == .running && (task s t).frzCyc != s.core.cyc &&
      ((task s t).issued || (List.range t).all fun j =>
        !waits s j && !((task s j).st == .running && (task s j).frzCyc == s.core.cyc))

/-- A trigger of a bundle is held: its unit is not free, or another waits for it (R117, R119, R188, R200, R629). -/
def heldTrig (s : State) (d : Deferred) : Bool :=
  d.dst != 0xF4 && (!unitFree s d || s.core.waiting.any (sameQueue s d))

/-- The first trigger of each unit, in slot order. -/
def firsts : List Deferred → List Nat → List Deferred
  | [], _ => []
  | d :: rest, seen =>
    if d.dst ≠ 0xF4 ∧ seen.contains (d.dst / 16) then firsts rest seen else d :: firsts rest (d.dst / 16 :: seen)

/-- Illegal moves have reached issue (R101; case 11). -/
def noteIllegal (s : State) (o : Origin) (slots : List Nat) : State :=
  match slots with
  | [] => s
  | i :: _ =>
    let new := !isSet s CORE_STAT.ILLEGAL
    let s := setF s CORE_STAT.ILLEGAL 1
    let s := slots.foldl (fun s _ => incSat s CORE_ILLCNT.CNT CORE_STAT.ILL_OVF) s
    let s := if isSet s CORE_ILLREC.VALID then s
      else setFs s [(CORE_ILLREC.VALID, 1), (CORE_ILLREC.SLOT, i), (CORE_ILLREC.TASK, o.task), (CORE_ILLREC.BANK, o.bank),
        (CORE_ILLREC.PC, o.pc)]
    if new && isSet s CORE_CTRL.ILL_EVT then raise s CORE_STAT.ILLEGAL else s

/-- A mask of slots. -/
def slotMask (l : List Nat) : Nat := (l.map (2 ^ ·)).sum

/-- Trace of an issued bundle (R547, R548). -/
def traceIssue (s : State) (o : Origin) (p : Plan) (ms : List Planned) : State :=
  let s := trcFlow s o.task o.bank o.pc
  let now (x : Planned) : Bool := x.g.res == s.core.cyc
  let s := if isSet s TRC_CTRL.GUARD_ALL then
      let s1 := trcGuard s o.task (slotMask ((p.moves.filter fun x => now x && x.m.gidx != 15).map (·.slot))) 0 true true
      trcGuard s1 o.task (slotMask p.dead) 0 true false
    else s
  let s := trcGuard s o.task (slotMask ((p.moves.filter fun x => !now x).map (·.slot))) 0 false false
  ms.foldl (fun s x => trcPortw s o.task x.slot x.m.dst (if now x then 0 else 1) x.m.trc x.val) s

/-- Marks of past cycles go. -/
def pruneProv (s : State) : State :=
  { s with core := { s.core with prov := s.core.prov.filter fun p => decide (s.core.cyc ≤ p.2) } }

/-- The triggers of a bundle that fire now, by unit and slot (R149, R629): DFT before EXEC (R201), EXEC before the units that its
micro-move 0 may take (R200; log entry 131, DESIGN CHOICE), END last (R185). The first of a unit fires, the others wait. -/
def fireBundle (base s : State) (ds : List Deferred) : State :=
  let rest := [1, 2, 3, 4, 5, 6, 7, 9, 10, 11, 12, 13, 16, 14]
  let us := if (firsts ds []).any fun d => d.dst == 0x87 then 8 :: 15 :: rest else 15 :: 8 :: rest
  (us.flatMap fun u => ds.filter fun d => d.dst / 16 == u).foldl (reachUnit base) s

/-- The records of a move that resolves or fires later (R110, R111, R113). -/
def deferMove (s : State) (o : Origin) (p : Planned) (due : Nat) : List Deferred :=
  let d := { trigOf s o p with trace := p.g.res != s.core.cyc }
  if due = p.g.res then [{ d with res := due }]
  else if p.g.res = s.core.cyc then [{ d with res := due }]
  else [{ d with acts := false }, { d with res := due, trace := false }]

/-! ## What comes due at the start of a cycle (R110 to R113, R117, R119, R180, R201) -/

/-- Trace of a resolution (R547): GUARD for the confirmed and for the cancelled moves, then PORTW. -/
def traceResolve (s : State) (g : List Deferred) : State :=
  match g with
  | [] => s
  | d :: _ =>
    let ago := d.res - d.iss
    let mask (ok : Bool) : Nat := slotMask ((g.filter fun x => x.ok == ok).map fun x => x.o.slot)
    let s := trcGuard s d.o.task (mask true) ago true true
    let s := trcGuard s d.o.task (mask false) ago true false
    g.foldl (fun s x => trcPortw s x.o.task x.o.slot x.dst (if x.ok then 2 else 3) x.trc x.val) s

/-- Traces of every bundle that has moves resolving now, in issue order. -/
def traceAll (s : State) (due : List Deferred) : State :=
  let heads := (due.map fun d => (d.o.task, d.iss, d.res)).eraseDups
  heads.foldl (fun s h => traceResolve s (due.filter fun d => d.trace && (d.o.task, d.iss, d.res) == h)) s

/-- A deferred move is resolved: its write lands, its trigger is one that waits for its unit, or it is cancelled. -/
def resolveOne (s : State) (d : Deferred) : State :=
  if !d.acts || !d.ok then s
  else if isTrig d.dst then { s with core := { s.core with waiting := s.core.waiting ++ [d] } }
  else if isHold d.dst then setHold s d.o.task (d.dst - 0x300) d.val
  else s

/-- Deferred moves whose cycle has come resolve, in issue order. In a mode in which nothing fires a trigger that resolves true stays
as it is (R156; log entry 124, DEDUCED). -/
def resolveDue (s : State) : State :=
  let now (d : Deferred) : Bool :=
    decide (d.res ≤ s.core.cyc) && (engineOn s || !(d.acts && d.ok && isTrig d.dst))
  let due := s.core.deferred.filter now
  let s := { s with core := { s.core with deferred := s.core.deferred.filter fun d => !now d } }
  due.foldl resolveOne (traceAll s due)

/-- A waiting trigger fires when its unit is free, no earlier one waits for it and nothing holds it back. -/
def fireWaiting (base : State) (hold : Deferred → Bool) (s : State) (d : Deferred) : State :=
  let before := s.core.waiting.takeWhile (· != d)
  if unitFree s d && !before.any (sameQueue s d) && !hold d then
    fireTrig base { s with core := { s.core with waiting := s.core.waiting.erase d } } d
  else markRoom s d

/-- What comes due at the start of a cycle: fast-output commands of the TMU enter their queues, deferred moves resolve, triggers that
wait fire. `base` is the state at the start of the cycle, `hold` says which waiting triggers the bundle of this cycle holds back. -/
def startFire (base : State) (hold : Deferred → Bool) (s : State) : State :=
  let s := (List.range s.core.fastWait.length).foldl (fun s _ => fastDrain s) s
  let s := (List.range 32).foldl tmuEarly s
  let s := resolveDue s
  if engineOn s then s.core.waiting.foldl (fireWaiting base hold) s else s

/-- The waiting triggers that a bundle's triggers hold back: an EXEC that uses PHU0 by a DFT, and a trigger of the unit that
micro-move 0 of an EXEC takes (R200, R201). -/
def heldBack (s : State) (now : List Deferred) (d : Deferred) : Bool :=
  let exec (x : Deferred) : Bool := x.dst / 16 == 15 && x.dst != 0xF4
  let dft := now.any fun x => x.dst == 0x87
  (dft && exec d && entryUsesPhu s (execEntry d)) ||
    now.any fun x => exec x && !(dft && entryUsesPhu s (execEntry x)) && firstUnit s (execEntry x) == some (d.dst / 16)

/-! ## A bundle -/

/-- The context's next bundle has issued: its PC and the branches that still pend (R120, R121). -/
def pcAdvance (s : State) (t : Nat) : State :=
  let (pc, brs) := pcStep (nth 0 s.core.pcs t) (nth [] s.core.branches t)
  { s with core := { s.core with pcs := s.core.pcs.set t pc, branches := s.core.branches.set t brs } }

/-- A bundle issues (R94, R95, R110 to R122). `base` is the state at the start of the cycle, `s` the state after the operand
writes and after what has come due; `all` are the bundle's moves with their landing cycles, of which `lives` do not lose. -/
def issueMoves (base s : State) (o : Origin) (plan : Plan) (all lives : List (Planned × Nat)) (need : Nat) : State :=
  let c := s.core.cyc
  let t := o.task
  let traced := all.filter fun p => p.1.g.res != c || !loses all p
  let s := noteIllegal (traceIssue s o plan (traced.map (·.1))) o plan.illegal
  let s := if lives.length != all.length then setF s CORE_STAT.CLASH 1 else s
  let s := setFs (trkNote s (trkOcc s + need)) [(CORE_STAT.ISSUING, 1), (CORE_STAT.TASK, t)]
  let s := updTask s t fun k => { k with issued := true }
  let s := (lives.filter fun p => isHold p.1.m.dst && p.1.g.res == c).foldl
    (fun s p => setHold s t (p.1.m.dst - 0x300) p.1.val) s
  let later := lives.filter fun p => p.1.g.res != c || p.2 != c
  let lost := (all.filter fun p => p.1.g.res != c && loses all p).map fun p =>
    { trigOf s o p.1 with trace := true, acts := false }
  let s := { s with core := { s.core with
    deferred := s.core.deferred ++ (later.flatMap fun p => deferMove s o p.1 p.2) ++ lost } }
  fireBundle base s ((lives.filter fun p => isTrig p.1.m.dst && p.2 == c).map fun p =>
    { trigOf s o p.1 with sel := nth 0 base.core.macSel t })

/-- A bundle is presented: it issues, or is held and counts (R115, R117). What comes due in the same cycle fires in either case, ahead
of the bundle (R119). -/
def present (base s : State) (o : Origin) (ws : List Nat) : State :=
  let c := s.core.cyc
  let t := o.task
  let pl := planBundle s t ws
  let plan := pl.1
  let opds := (plan.moves.filter fun p => isOpd p.m.dst).map fun p => (p, c)
  let s2 := ((opds.filter fun p => !loses opds p).map (·.1)).foldl (opdWrite t) (pruneProv pl.2)
  let all := plan.moves.map fun p =>
    (p, if isOpd p.m.dst then c else if isTrig p.m.dst then dueOf s2 (trigOf s2 o p) else p.g.res)
  let lives := all.filter fun p => !loses all p
  let trigs := lives.filter fun p => isTrig p.1.m.dst
  let now := firsts ((trigs.filter fun p => p.2 == c).map fun p => trigOf s2 o p.1) []
  let s3 := startFire base (heldBack base now) (pcAdvance s2 t)
  let full := decide (128 < trkOcc base + trigs.length)
  let held := now.filter (heldTrig s3)
  if full || !held.isEmpty then
    let s := startFire base (fun _ => false) s
    let s := if full then countStall s CORE_STAT.TRK_FULL CORE_STALLCNT.TRK CORE_STAT.TRK_OVF else s
    let s := if held.isEmpty then s else structStall s
    held.foldl markRoom s
  else issueMoves base s3 o plan all lives trigs.length

/-- The words of a bundle are fetched and checked (R93, R151; case 9): none when one cannot be used. -/
def fetchBundle (s : State) (pc : Nat) : Option (List Nat) × State :=
  let b := isSet s CORE_BANK.ACTIVE
  let mem : MemId := if b then .bankB else .bankA
  let locs := (List.range 8).map fun i => 8 * pc + i
  let bad := (if b then s.core.badB else s.core.badA).contains pc
  if bad || locs.any fun l => eccAt s mem l == .uncorrectable then (none, halt s 3)
  else
    let s := locs.foldl (fun s l => if eccAt s mem l == .correctable then eccCorr s mem l else s) s
    (some ((List.range 8).map (bankWord (activeBank s) pc)), s)

/-- The engine issues bundles: RUN and RUN_EDIT, or the modes of a replica (R124, R289). -/
def mayIssue (s : State) : Bool :=
  domOn s 2 && (s.mode == .run || s.mode == .runEdit || replica s)

end Sys2Proof.Machine
end

