-- ==== Sys2Proof/Machine/Standby.lean ====
section
/-!
DEFINITION. Hot standby (spec/10_hot_standby.md): the standby link, heartbeat and loss of the partner, the run stream and its
replay, state transfer, takeover, handover, demotion.
-/

namespace Sys2Proof.Machine

open Reg

/-! ## The standby link (R275 to R277, R306) -/

/-- a comes after b among 16-bit link sequence numbers. -/
def lseqAfter (a b : Nat) : Bool := epochHigher a b

/-- Frames up to an acknowledged LSEQ leave the transmit buffer (R275). -/
def ackTo (s : State) (seq : Nat) : State :=
  { s with sby := { s.sby with tx := s.sby.tx.filter fun f => lseqAfter f.lseq seq } }

/-- Frames are sent again; each counts (R275). -/
def resend (s : State) (n : Nat) : State := (List.range n).foldl (fun s _ => incStop s SBY_LINKCNT.RETX) s

/-- NAK names the first missing LSEQ, and sequenced frames are discarded until it arrives (R275). -/
def sendNak (s : State) : State := { s with sby := { s.sby with lastNak := some s.sby.rxSeq, gap := true } }

/-- A frame with a CRC error (R275). -/
def rxBad (s : State) : State := sendNak (incStop s SBY_LINKCNT.CRCERR)

/-- A sequenced frame: whether it is taken, and the acknowledgement or NAK for it (R275). The first one after a reset, or after the
partner was lost, begins the count (log entry 136, DESIGN CHOICE). -/
def seqRx (s : State) (crcOk : Bool) (lseq : Nat) : Bool × State :=
  if getF s SBY_STAT.LINK < 2 then (false, s)
  else if !crcOk then (false, rxBad s)
  else
    let l := lseq % 65536
    let s := if s.sby.fresh then { s with sby := { s.sby with fresh := false, rxSeq := l } } else s
    if l = s.sby.rxSeq then
      (true, { s with sby := { s.sby with rxSeq := (l + 1) % 65536, gap := false, lastAck := some l } })
    else if lseqAfter l s.sby.rxSeq then (false, sendNak s)
    else (false, { s with sby := { s.sby with lastAck := some ((s.sby.rxSeq + 65535) % 65536) } })

/-- A sequenced frame of the partner that is no ZCP: taken on an UP link only (R276). -/
def partnerSeq (s : State) (crcOk : Bool) (lseq : Nat) : Bool × State :=
  let (ok, s) := seqRx s crcOk lseq
  (ok && linkUp s, s)

/-- What the identity of the peer makes of the link: 2 UP or 3 MISMATCH (R271, R276). -/
def linkJudge (s : State) (stn sysId crc : Nat) : Nat :=
  if (dirRole s = 1 ∨ dirRole s = 2) ∧ stn = getF s (SYS_DIR_CTRL.PARTNER (ownStn s)) ∧ sysId = getF s SYS_STATION.SYSTEM_ID ∧
      crc = getF s SYS_DIRCRC.CRC then 2 else 3

/-- SBL_LINK_UP (R276, R277; Table 3.10): NEG frames are exchanged and the round trip is measured. -/
def execSblLinkUp (stn sysId crc rtt : Nat) (s : State) : Host.Outcome State Fault Refusal :=
  .next (if !sblOn s then s
    else
      let s := { s with sby := { s.sby with neg := some (stn, sysId, crc), gap := false } }
      let s := setFs s [(SBY_STAT.LINK, linkJudge s stn sysId crc), (SBY_RTT.NS, rtt)]
      let s := if srcOn s 6 then setF s (TIM_SRC_DELAY.DELAY 6) (rtt / 2) else s
      autoSync (wakeSource s 7))

/-- Source 6 is VALID only while the link is up (R35). -/
def sblSource (s : State) : State :=
  if !linkUp s && isSet s (TIM_SRC_STAT.VALID 6) then setValidSrc { s with time := { s.time with sblEx := none } } 6 false else s

/-- SBL_NEG_RX (R276): the identity is checked again. -/
def execSblNegRx (crcOk : Bool) (stn sysId crc : Nat) (s : State) : Host.Outcome State Fault Refusal :=
  .next (if getF s SBY_STAT.LINK < 2 then s
    else if !crcOk then rxBad s
    else sblSource (setF { s with sby := { s.sby with neg := some (stn, sysId, crc) } } SBY_STAT.LINK (linkJudge s stn sysId crc)))

/-- SBL_ALIGN_LOSS (R276, R294): the link is DOWN; a transfer restarts. -/
def execSblAlignLoss (s : State) : Host.Outcome State Fault Refusal :=
  .next (if getF s SBY_STAT.LINK < 2 then setF s SBY_STAT.LINK 0 else xferRestart (sblSource (setF s SBY_STAT.LINK 0)))

/-- SBL_ACK_RX (R275). -/
def execSblAckRx (crcOk : Bool) (seq : Nat) (s : State) : Host.Outcome State Fault Refusal :=
  .next (if getF s SBY_STAT.LINK < 2 then s else if !crcOk then rxBad s else ackTo s seq)

/-- SBL_NAK_RX (R275): the frames before the named one have arrived; it and the later ones are resent. -/
def execSblNakRx (crcOk : Bool) (seq : Nat) (s : State) : Host.Outcome State Fault Refusal :=
  .next (if getF s SBY_STAT.LINK < 2 then s
    else if !crcOk then rxBad s
    else
      let s := ackTo s ((seq + 65535) % 65536)
      resend s s.sby.tx.length)

/-- SBL_RETX_TIMEOUT (R275). -/
def execSblRetxTimeout (s : State) : Host.Outcome State Fault Refusal :=
  .next (if getF s SBY_STAT.LINK < 2 then s else resend s s.sby.tx.length)

/-! ## Heartbeat (R278) -/

/-- The primary cycle up to which every stream event has been sent: the last one that has ended, and none from the first event
dropped on (Table 10.3, R291). -/
def horizonNow (s : State) : Nat := (if s.sby.dropping || s.sby.lossMark then s.sby.dropCyc else s.core.cyc) - 1

/-- The heartbeat that the unit sends now (Table 10.3). -/
def heartbeat (s : State) : HbInfo :=
  let prim := roleNow s == 1
  { stn := ownStn s, mode := s.mode.code, role := roleNow s, sync := isSet s SBY_STAT.SYNC, handover := s.sby.handover.isSome,
    haltCause := getF s SYS_MODE.HALT_CAUSE, epoch := getF s SBY_EPOCH.OWN, ackSeq := (s.sby.rxSeq + 65535) % 65536,
    dirCrc := getF s SYS_DIRCRC.CRC, tq := getF s TIM_STAT.TQ, src := getF s TIM_STAT.ACTIVE_SRC,
    horizon := if prim then horizonNow s % 2 ^ 32 else 0, pcyc := s.core.cyc }

/-- SBL_HB_SEND (R278). -/
def execSblHbSend (s : State) : Host.Outcome State Fault Refusal :=
  .next (if sblOn s && linkUp s then { s with sby := { s.sby with lastHb := some (heartbeat s) } } else s)

/-! ## Takeover (R295, R297) -/

/-- A later event of the list ends a run of the task. -/
def endComes (t : Nat) (evs : List (Nat × StreamEv)) : Bool :=
  evs.any fun e => match e.2 with | .taskEnd u _ _ => u == t | _ => false

/-- The received events without those of runs whose END has not been received, and the number of such runs (R297). -/
def dropUnended : List (Nat × StreamEv) → List (Nat × StreamEv) × Nat
  | [] => ([], 0)
  | e :: rest =>
    let (l, n) := dropUnended rest
    match e.2 with
    | .freeze t _ _ _ _ => if endComes t rest then (e :: l, n) else (l, n + 1)
    | .ext t _ _ _ => if endComes t rest then (e :: l, n) else (l, n)
    | _ => (e :: l, n)

/-- A deferred move or a waiting trigger belongs to a run that stays (R126, R297). -/
def abandonRun (s : State) (t : Nat) : State :=
  let s := endRun s t
  { s with core := { s.core with
      deferred := s.core.deferred.filter fun d => !(isTrig d.dst && d.o.task == t)
      waiting := s.core.waiting.filter fun d => d.o.task != t } }

/-- A takeover is decided, with a cause of Table 10.11: the decision cycle is the present one, and the next begins TAKEOVER (R297). -/
def startTakeover (s : State) (cause : Nat) : State :=
  if s.sby.tko.isSome then s else { s with sby := { s.sby with tko := some (cause, s.core.cyc) } }

/-- A commit event of the list is for the task. -/
def commitComes (t : Nat) (evs : List (Nat × StreamEv)) : Bool :=
  evs.any fun e => match e.2 with | .commit u => u == t | _ => false

/-- The END of a run in progress has been received: it is still to be replayed, or it has been, and the capture waits for its launch. -/
def endReceived (s : State) (t : Nat) : Bool :=
  endComes t s.sby.events || ((task s t).st == .launchWait && !s.sby.ends.any fun e => e.1 == t)

/-- In TAKEOVER a capture whose COMMIT has not been received ends without commit (R297; log entry 139, DEDUCED). -/
def dropUncommitted (s : State) : State :=
  ((List.range 8).filter fun t => (task s t).st == .launchWait && !endComes t s.sby.events && !commitComes t s.sby.events).foldl
    abandonRun s

/-- TAKEOVER begins, in the cycle after the decision: runs whose END has not been received are abandoned, and their events discarded.
The events that stay may all be replayed (R297). -/
def beginTakeover (s : State) : State :=
  let gone := (List.range 8).filter fun t => frozen s t && !endReceived s t
  let (evs, n) := dropUnended s.sby.events
  let s := gone.foldl abandonRun s
  let s := setF s SBY_TKO.ABANDONED (min (gone.length + n) 16383)
  let evs := evs.filter fun e => decide (e.1 ≤ s.sby.horizon) || match e.2 with | .taskEnd _ _ _ | .commit _ => true | _ => false
  let top := evs.foldl (fun m e => max m e.1) s.sby.horizon
  let s := { s with sby := { s.sby with events := evs, horizon := top, xferRx := false, got := [] } }
  transition (setF s SBY_STAT.XFER 0) .takeover

/-- A takeover decided in the cycle before begins (R297). -/
def takeoverDue (s : State) : State := if s.sby.tko.isSome && s.mode == .track then beginTakeover s else s

/-- The handover MARK has been received and not yet replayed. -/
def handoverMarked (s : State) : Bool :=
  s.sby.events.any fun e => match e.2 with | .mark 3 _ => true | _ => false

/-- The partner is lost to a secondary (Table 10.7; case 2): a synchronised one takes over, a transfer ends. -/
def partnerGone (s : State) : State :=
  if s.mode != .track then s
  else if isSet s SBY_STAT.SYNC then startTakeover s (if handoverMarked s then 3 else 1)
  else if s.sby.xferRx then
    setFs { s with sby := { s.sby with xferRx := false, got := [], events := [] } } [(SBY_STAT.XFER, 0), (SBY_XFER.STATE, 0)]
  else s

/-- A primary stops sending the stream, and a transfer in progress ends (R296). -/
def stopStream (s : State) : State :=
  if s.sby.streaming || s.sby.cutWait || s.sby.parts.isSome || s.sby.xferOpen then
    let s := { s with sby := { s.sby with streaming := false, dropping := false, lossMark := false, cutWait := false, xferOpen := false,
                                          parts := none, preImage := 0 } }
    setFs (if getF s SBY_XFER.STATE = 1 then setF s SBY_XFER.STATE 0 else s) [(SBY_STAT.XFER, 0)]
  else s

/-- The 64-bit horizon of a heartbeat: the latest cycle with those low bits that does not pass the sender's cycle. -/
def fullHorizon (h : HbInfo) : Nat :=
  let f := h.pcyc / 2 ^ 32 * 2 ^ 32 + h.horizon % 2 ^ 32
  if h.pcyc < f then f - 2 ^ 32 else f

/-- What a primary does on a heartbeat (R296, R300). -/
def hbPrimary (s : State) (h : HbInfo) : State :=
  let s := if h.mode = 8 ∨ h.mode = 9 then setF s SBY_STAT.SYNC (b2n h.sync) else setF (stopStream s) SBY_STAT.SYNC 0
  let s := if h.mode = 9 then stopStream s else s
  let s := if h.sync && !s.sby.cutWait && s.sby.parts.isNone then { s with sby := { s.sby with xferOpen := false } } else s
  if h.role = 1 then
    let own := getF s SBY_EPOCH.OWN
    let lower := epochHigher h.epoch own || (h.epoch % 65536 == own && decide (h.stn < ownStn s))
    let s := setRaise s SBY_STAT.CONFLICT 1
    if lower then { s with sby := { s.sby with demote := true } } else s
  else s

/-- What a secondary in TRACK does on a heartbeat: a partner in a mode other than RUN, RUN_EDIT, STOP and SAFE_HALT is lost to
it, unless it hands over, or has taken over and has yet to send the cut that the old primary follows (Table 10.7, R299 step 4). -/
def hbSecondary (s : State) (h : HbInfo) : State :=
  let s := if h.role = 1 then { s with sby := { s.sby with horizon := max s.sby.horizon (fullHorizon h) } } else s
  let handing := h.handover || handoverMarked s || s.sby.markSeen == some (3, 0)
  let follows := !s.sby.replaying && (h.mode == 8 || h.mode == 9)
  if isSet s SBY_STAT.SYNC && !([5, 6, 7, 10].contains h.mode) && !handing && !follows then partnerGone s
  else autoSync s

/-- A valid heartbeat (R278, R279, R295, R296, R300, R303). -/
def hbTake (s : State) (h : HbInfo) : State :=
  let was := getF s SBY_STAT.PMODE
  let s := { s with sby := { s.sby with hb := some h, hbCyc := s.core.cyc, present := true } }
  let s := setFs (ackTo s h.ackSeq) [(SBY_STAT.PMODE, h.mode), (SBY_EPOCH.PARTNER, h.epoch)]
  let s := if h.mode = 10 ∧ was ≠ 10 then setF s SBY_STAT.PARTNER_HALT 1 else s
  let s := if h.src = 6 ∧ isSet s (TIM_SRC_STAT.VALID 6) then setValidSrc s 6 false else s
  if s.ms.negotiating then enterByRole s
  else if roleNow s == 1 then hbPrimary s h
  else if s.mode == .track then hbSecondary s h
  else s

/-- SBL_HB_RX (R275, R278, R279). -/
def execSblHbRx (crcOk : Bool) (hb : HbInfo) (s : State) : Host.Outcome State Fault Refusal :=
  .next (if !sblOn s || !linkUp s then s else if !crcOk then rxBad s else hbTake s hb)

/-- PARTNER_LOSS (R279, R295, R296; case 1): LOSS_TMO has passed; a heartbeat of the same cycle wins. -/
def execPartnerLoss (s : State) : Host.Outcome State Fault Refusal :=
  .next (if !s.sby.present || s.sby.hbCyc == s.core.cyc then s
    else
      let s := note (setF { s with sby := { s.sby with present := false, fresh := true } } SBY_STAT.PARTNER_LOST 1) SBY_STAT.PARTNER_LOST
      let s := if isSet s (TIM_SRC_STAT.VALID 6) then setValidSrc s 6 false else s
      if roleNow s == 1 then setF (stopStream s) SBY_STAT.SYNC 0 else partnerGone s)

/-! ## Reception of the stream and of a transfer (R291 to R294) -/

/-- Bytes of the received events. -/
def rxUsed (s : State) : Nat := (s.sby.events.map fun e => 8 + evBytes e.2).sum

/-- A stream event of the primary is received (R284, R290, R291, R293, R299). After a MARK that ends the stream, every event up
to it is there. -/
def rxEvent (s : State) (e : Nat × StreamEv) : State :=
  let (c, ev) := e
  if s.mode != .track then s
  else match ev with
  | .mark 0 _ =>
    if isSet s SBY_STAT.SYNC && !s.sby.replaying && !s.sby.xferRx then
      { s with sby := { s.sby with replaying := true, rcyc := c, horizon := c, events := [], ends := [], lagRef := none,
                                   committedSince := [] } }
    else if s.sby.xferRx || s.sby.replaying then
      let s := setFs (if s.sby.replaying then replayStop s else s) [(SBY_STAT.SYNC, 0), (SBY_STAT.XFER, 1), (SBY_XFER.STATE, 1)]
      { s with sby := { s.sby with xferRx := true, events := [], got := [], rcyc := c, horizon := c, committedSince := [] } }
    else s
  | .mark 4 _ =>
    if s.sby.replaying then diverge s 5 ((List.range 8).find? (frozen s) |>.getD 0)
    else { s with sby := { s.sby with got := [], events := [] } }
  | _ =>
    if !(s.sby.xferRx || s.sby.replaying) then s
    else
      let ends := match ev with | .mark _ _ => true | _ => false
      let s : State := { s with sby := { s.sby with
        events := s.sby.events ++ [(c, ev)]
        horizon := if ends then max s.sby.horizon c else s.sby.horizon } }
      if s.sby.xferRx && decide (0x100000 < rxUsed s) then
        requestXfer (incStop { s with sby := { s.sby with xferRx := false } } SBY_XFER.RESTARTS)
      else s

/-- SBL_EVT_RX (R284): the events that the frame brings, one that spans several frames with the last of them. -/
def execSblEvtRx (crcOk : Bool) (lseq : Nat) (evs : List (Nat × StreamEv)) (s : State) :
    Host.Outcome State Fault Refusal :=
  .next (match partnerSeq s crcOk lseq with
    | (true, s) => evs.foldl rxEvent s
    | (false, s) => s)

/-! ## Content of a transfer (R292, Table 10.6) -/

/-- Pieces of a list. -/
def pieces {α : Type} (n : Nat) (l : List α) : List (List α) :=
  (List.range ((l.length + n - 1) / n)).map fun i => (l.drop (n * i)).take n

/-- A key of the register store holds a field of an execution object other than program bank and decode table (R304). -/
def execKey (k : Nat) : Bool :=
  ((regFields (k / 32)).getD []).any fun f => f.lo == k % 32 && f.acc == .rwt && isExec f

/-- A key of the decode table. -/
def tableKey (k : Nat) : Bool :=
  (0x50000000 ≤ k / 32 && k / 32 < 0x50002400 && k % 128 == 0) || k == CORE_DTVER.VERSION.key

/-- The words and bits that a transfer carries outside the frozen planes. -/
def xferWord (a : Nat) : Bool := 0x4000 ≤ a && a < 0x80000
@[inherit_doc xferWord] def xferBit (a : Nat) : Bool := (0x10000 ≤ a && a < 0x20000) || (0x40000 ≤ a && a < 0x100000)

/-- HELD and REARM bits of the stations. -/
def stationBits (s : State) : List (Nat × Bool) :=
  s.sp.bits.filter fun p => 0x20000 ≤ p.1 && p.1 < 0x30000 && (p.1 % 256 == 2 || p.1 % 256 == 3)

/-- The parts of a transfer in the order of Table 10.6, each of at most 1,024 bytes (log entry 43, DEDUCED). -/
def xferParts (s : State) : List XferPart :=
  (pieces 64 (activeBank s)).map .bank ++ [.bankId (activePid s).1 (activePid s).2] ++
    (pieces 64 (s.regs.filter fun p => tableKey p.1)).map .table ++
    (pieces 64 (s.sp.words.filter fun p => xferWord p.1)).map .words ++
    (pieces 128 (s.sp.bits.filter fun p => xferBit p.1)).map .bits ++
    (pieces 128 s.sp.planeB).map .planeBits ++ (pieces 64 s.sp.planeW).map .planeWords ++
    (pieces 128 s.scan.imgB).map .imageBits ++ (pieces 64 s.scan.imgW).map .imageWords ++
    (pieces 128 s.core.ctx).map (.contexts · [] [] []) ++ (pieces 128 s.core.hold).map (.contexts [] · [] []) ++
    [.contexts [] [] s.core.pcs s.core.branches] ++ (pieces 128 s.core.cells).map .cells ++ [.tmu s.core.tmu [], .tmu [] s.core.fifo,
      .accs s.core.accs s.core.macSel, .tasks s.scan.tasks] ++
    (pieces 256 (stationBits s)).map .stationBits ++ (pieces 64 s.sby.extSent).map .ext ++
    (pieces 64 (s.regs.filter fun p => execKey p.1 && !tableKey p.1)).map .regs

/-- A list of fixed length. -/
def fixLen {α : Type} (n : Nat) (d : α) (l : List α) : List α := (List.range n).map fun i => nth d l i

/-- A field of the register store takes a value, by its key. -/
def setKey (s : State) (k v : Nat) : State :=
  if 0x50000000 ≤ k / 32 ∧ k / 32 < 0x50002400 then setF s ⟨k / 32, 0, 32, .rwt, 0⟩ v
  else match (regFields (k / 32)).bind fun fs => fs.find? fun f => f.lo == k % 32 with
    | some f => setF s f v
    | none => s

/-- The regions that a transfer replaces are empty. -/
def xferClear (s : State) : State :=
  let a := getF s CORE_BANK.ACTIVE
  let c := s.core
  let bankId := if a = 0 then MemId.bankA else .bankB
  let c := if a = 0 then { c with bankA := [], badA := [] } else { c with bankB := [], badB := [] }
  let gone (m : MemId) (l : Nat) : Bool := match m with
    | .words => xferWord l
    | .bits => xferBit l
    | .dtable | .planeB | .planeW => true
    | m => m == bankId
  let s := setF (eccWipe gone s) EDT_STAT.KEEP_OK 0
  { s with
      core := { c with dtBad := [], ctx := [], hold := [], cells := [], prov := [], fifo := [] }
      regs := s.regs.filter fun p => !(tableKey p.1 || execKey p.1)
      sp := { s.sp with
        words := s.sp.words.filter fun p => !xferWord p.1
        bits := s.sp.bits.filter fun p => !(xferBit p.1 || (stationBits s).any fun q => q.1 == p.1)
        planeB := []
        planeW := [] }
      scan := { s.scan with imgB := [], imgW := [] }
      sby := { s.sby with extRec := [], extQueue := [], ends := [] } }

/-- One part takes its place. -/
def xferPart (s : State) (p : XferPart) : State :=
  match p with
  | .bank ws => ws.foldl (fun s (w : Nat × Word) => bankPut s (getF s CORE_BANK.ACTIVE) (w.1 % 0x80000) w.2) s
  | .bankId v c => setPid s (getF s CORE_BANK.ACTIVE) v c
  | .table ws => (ws.filter fun w => tableKey w.1).foldl (fun s (w : Nat × Nat) => setKey s w.1 w.2) s
  | .regs rs => (rs.filter fun w => execKey w.1).foldl (fun s (w : Nat × Nat) => setKey s w.1 w.2) s
  | .words ws => (ws.filter fun w => xferWord w.1).foldl (fun s (w : Nat × TWord) => loadWord s w.1 w.2) s
  | .bits bs => (bs.filter fun b => xferBit b.1).foldl (fun s (b : Nat × Bool) => setBit s 1 b.1 b.2) s
  | .planeBits bs => { s with sp := { s.sp with planeB := bs.foldl (fun m (b : Nat × Bool) => sset false m b.1 b.2) s.sp.planeB } }
  | .planeWords ws =>
    { s with sp := { s.sp with planeW := ws.foldl (fun m (w : Nat × TWord) => sset TWord.empty m w.1 w.2) s.sp.planeW } }
  | .imageBits bs => { s with scan := { s.scan with imgB := bs.foldl (fun m (b : Nat × Bool) => sset false m b.1 b.2) s.scan.imgB } }
  | .imageWords ws =>
    { s with scan := { s.scan with imgW := ws.foldl (fun m (w : Nat × TWord) => sset TWord.empty m w.1 w.2) s.scan.imgW } }
  | .contexts regs hold pcs branches =>
    let c := s.core
    { s with core := { c with
        ctx := regs.foldl (fun m (w : Nat × TWord) => sset TWord.empty m w.1 w.2) c.ctx
        hold := hold.foldl (fun m (w : Nat × TWord) => sset TWord.empty m w.1 w.2) c.hold
        pcs := if pcs.isEmpty then c.pcs else fixLen 8 0 pcs
        branches := if pcs.isEmpty then c.branches else fixLen 8 [] branches } }
  | .cells cs => { s with core := { s.core with cells := cs.foldl (fun m (c : Nat × (Nat × Nat)) => sset (0, 0) m c.1 c.2) s.core.cells } }
  | .tmu slots fifo =>
    let c := s.core
    { s with core := { c with tmu := if slots.isEmpty then c.tmu else fixLen 32 TmuSlot.init slots, fifo := (c.fifo ++ fifo).take 32 } }
  | .accs as sel => { s with core := { s.core with accs := fixLen 8 PhuAcc.init as, macSel := fixLen 8 0 sel } }
  | .tasks ts => { s with scan := { s.scan with tasks := fixLen 8 TaskSt.init ts } }
  | .stationBits bs =>
    (bs.filter fun b => b.1 % 256 == 2 || b.1 % 256 == 3).foldl
      (fun s (b : Nat × Bool) => setBit s 1 (0x20000 + b.1 % 0x10000) b.2) s
  | .ext es => { s with sby := { s.sby with extRec := es ++ s.sby.extRec } }

/-- The last XFER frame has arrived: every object holds its content at the cut, and the replay begins there (R293 step 5). -/
def xferDone (s : State) : State :=
  let s := tableActive (s.sby.got.foldl xferPart (xferClear s))
  setFs { s with sby := { s.sby with got := [], xferRx := false, replaying := true, lagRef := none } }
    [(SBY_STAT.XFER, 0), (SBY_XFER.STATE, 2)]

/-- SBL_XFER_RX (R293). -/
def execSblXferRx (crcOk : Bool) (lseq : Nat) (part : XferPart) (last : Bool) (s : State) :
    Host.Outcome State Fault Refusal :=
  .next (match partnerSeq s crcOk lseq with
    | (true, s) =>
      if s.mode != .track || !s.sby.xferRx then s
      else
        let s := { s with sby := { s.sby with got := s.sby.got ++ [part] } }
        if last then xferDone s else s
    | (false, s) => s)

/-! ## Sending a transfer (R293, R294) -/

/-- The unit is the primary (R272). -/
def isPrimary (s : State) : Bool := s.mode == .run || s.mode == .runEdit

/-- SBL_XCTL_RX (R293 step 1): a request of the secondary; during a transfer it begins again with a new cut. -/
def execSblXctlRx (crcOk : Bool) (lseq : Nat) (s : State) : Host.Outcome State Fault Refusal :=
  .next (match partnerSeq s crcOk lseq with
    | (true, s) =>
      if !isPrimary s then s
      else if s.sby.cutWait || s.sby.parts.isSome then xferRestart s
      else setFs { s with sby := { s.sby with cutWait := true, xferOpen := true, parts := none, xferSent := 0, preImage := 0 } }
        [(SBY_STAT.XFER, 1), (SBY_XFER.STATE, 1), (SBY_XFER.SENT, 0)]
    | (false, s) => s)

/-- XFER_CUT (R293 step 2): the quiet point of the cut. -/
def execXferCut (s : State) : Host.Outcome State Fault Refusal :=
  .next (if s.sby.cutWait && isPrimary s && quiet s && linkUp s then
      let s := { s with sby := { s.sby with cutWait := false, streaming := true, dropping := false, lossMark := false,
                                            xferSent := 0, preImage := 0 } }
      let s := setF (streamEv s (.mark 0 0)) SBY_XFER.SENT 0
      { s with sby := { s.sby with parts := some (xferParts s) } }
    else s)

/-- The place of a part's kind in the order of sending. -/
def partRank : XferPart → Nat
  | .bank _ => 0
  | .bankId _ _ => 1
  | .table _ => 2
  | .words _ => 3
  | .bits _ => 4
  | .planeBits _ => 5
  | .planeWords _ => 6
  | .imageBits _ => 7
  | .imageWords _ => 8
  | .contexts _ _ _ _ => 9
  | .cells _ => 10
  | .tmu _ _ => 11
  | .accs _ _ => 12
  | .tasks _ => 13
  | .stationBits _ => 14
  | .ext _ => 15
  | .regs _ => 16

/-- Locations of a kind whose content has changed since the cut and has not been sent: `rem` is what is still to be sent of the kind,
`now` the rank of the part that comes next, `rank` that of the kind. -/
def preCount {α : Type} [DecidableEq α] (d : α) (lo hi rank now : Nat) (rem live : List (Nat × α)) : Nat :=
  if now < rank then (deltaRange d lo hi 0 rem live).length
  else if now = rank then (deltaRange d (match rem with | p :: _ => p.1 | [] => hi) hi 0 rem live).length
  else 0

/-- Elements of a list that have changed since the cut and have not been sent. -/
def preDiff {α : Type} [DecidableEq α] (rem live : List α) : Nat :=
  if rem.isEmpty then 0 else ((List.range (max rem.length live.length)).filter fun i => rem[i]? ≠ live[i]?).length

/-- What is still to be sent of a kind. -/
def restOf {α : Type} (f : XferPart → List α) (ps : List XferPart) : List α := ps.flatMap f

/-- Bytes of the pre-image buffer in use: content that a writer has replaced before it was sent (R293 step 4; sizes by log entry 43,
DEDUCED). -/
def preUsed (s : State) (ps : List XferPart) : Nat :=
  let now := match ps with | p :: _ => partRank p | [] => 17
  let c := s.core
  preCount TWord.empty 0x4000 0x80000 3 now (restOf (fun | .words l => l | _ => []) ps) s.sp.words * 8 +
    preCount false 0x10000 0x100000 4 now (restOf (fun | .bits l => l | _ => []) ps) (s.sp.bits.filter fun p => xferBit p.1) * 4 +
    preCount false 0 (65536 * 8) 5 now (restOf (fun | .planeBits l => l | _ => []) ps) s.sp.planeB * 4 +
    preCount TWord.empty 0 (16384 * 8) 6 now (restOf (fun | .planeWords l => l | _ => []) ps) s.sp.planeW * 8 +
    preCount false 0 (2 ^ 20) 7 now (restOf (fun | .imageBits l => l | _ => []) ps) s.scan.imgB * 4 +
    preCount TWord.empty 0 (2 ^ 20) 8 now (restOf (fun | .imageWords l => l | _ => []) ps) s.scan.imgW * 8 +
    (if now ≤ 9 then
      (deltaRange TWord.empty 0 (2 ^ 16) 0 (restOf (fun | .contexts l _ _ _ => l | _ => []) ps) c.ctx).length * 8 +
      (deltaRange TWord.empty 0 (2 ^ 16) 0 (restOf (fun | .contexts _ l _ _ => l | _ => []) ps) c.hold).length * 8 +
      preDiff (restOf (fun | .contexts _ _ l _ => l | _ => []) ps) c.pcs * 4 else 0) +
    preCount (0, 0) 0 1024 10 now (restOf (fun | .cells l => l | _ => []) ps) c.cells * 8 +
    preDiff (restOf (fun | .tmu l _ => l | _ => []) ps) c.tmu * 24 +
    (if now ≤ 11 then preDiff (restOf (fun | .tmu _ l => l | _ => []) ps) c.fifo * 12 else 0) +
    preDiff (restOf (fun | .accs l _ => l | _ => []) ps) c.accs * 17 + preDiff (restOf (fun | .accs _ l => l | _ => []) ps) c.macSel +
    preDiff (restOf (fun | .tasks l => l | _ => []) ps) s.scan.tasks * 64 +
    preCount false 0x20000 0x30000 14 now (restOf (fun | .stationBits l => l | _ => []) ps) (stationBits s) * 4

/-- XFER_FRAME_SEND (R293 steps 3 and 4, R294): one part, after the stream events; a full pre-image buffer restarts. -/
def execXferFrameSend (s : State) : Host.Outcome State Fault Refusal :=
  .next (match s.sby.parts with
    | some (p :: rest) =>
      let used := preUsed s (p :: rest)
      if 262144 < used then xferRestart s
      else if !linkUp s || !txRoom s (.xfer p rest.isEmpty) then s
      else
        let s := pushSeq s (.xfer p rest.isEmpty)
        let n := s.sby.xferSent + 1
        let s := { s with sby := { s.sby with xferSent := n, preImage := used, parts := if rest.isEmpty then none else some rest } }
        let s := setF s SBY_XFER.SENT (min (n / 64) 65535)
        if rest.isEmpty then
          setFs { s with sby := { s.sby with preImage := 0 } } [(SBY_STAT.XFER, 0), (SBY_XFER.STATE, 2)]
        else s
    | _ => s)

/-- STREAM_LOSS_MARK (R291, R294): room has returned; the MARK goes out, and no event until the next cut. -/
def execStreamLossMark (s : State) : Host.Outcome State Fault Refusal :=
  .next (if s.sby.lossMark && txRoom s (.evt s.core.cyc (.mark 4 0) 0) then
      let s := pushSeq s (.evt s.core.cyc (.mark 4 0) 0)
      xferRestart { s with sby := { s.sby with lossMark := false, dropping := false, streaming := false } }
    else s)

/-! ## Replay (R285 to R290, R304) -/

/-- A replayed freeze: the deltas go into the plane, the task's run starts, and the lag is measured (R285, R289); not of a trigger that
STOP_PENDING has dropped (R75). -/
def replayFreeze (s : State) (c t scan tai : Nat) (bits : List (Nat × Bool)) (words : List (Nat × TWord)) : State :=
  if s.ms.stopPending && (task s t).st != .pending && (task s t).held.isNone then s
  else
  let s := (bits.filter fun b => b.1 < 65536).foldl (fun s b => putPlaneB s t b.1 b.2) s
  let s := (words.filter fun w => w.1 < 16384).foldl (fun s w => putPlaneW s t w.1 w.2) s
  let s := match (task s t).st, (task s t).held with
    | .idle, some i => updTask s t fun k => { k with trig := i, held := none }
    | _, _ => s
  let s := startRun { s with sby := { s.sby with lagRef := some (tai, c) } } t scan tai
  setF s SBY_LAGNOW.US (min ((s.time.tai - tai) / (1000 * nsUnit)) (2 ^ 32 - 1))

/-- A replayed END is compared with the replica's (R290, R293 step 6). -/
def replayEnd (s : State) (c t : Nat) (nocommit : Bool) (hash : Nat) : State :=
  match s.sby.ends.find? fun e => e.1 == t with
  | none => if s.ms.stopPending && !frozen s t then s else diverge s 2 t
  | some e =>
    let s := { s with sby := { s.sby with ends := s.sby.ends.erase e } }
    if e.2.1 % 2 ^ 64 ≠ c % 2 ^ 64 then diverge s 2 t
    else if e.2.2.1 ≠ nocommit then diverge s 3 t
    else if e.2.2.2 ≠ hash then diverge s 1 t
    else if s.mode == .track then setF s SBY_STAT.SYNC 1 else s

/-- The set that the secondary persists for a replayed effect (R304, R577). -/
def replaySet (s : State) (seq : Nat) (regs : List (Nat × Nat)) (patches : List (Nat × Word)) (pid : Option (Nat × Nat))
    (news : List NewVar) : NvSet :=
  let os := (regs.map fun p => objNo (p.1 / 32)).eraseDups
  let objs := os.map fun o => (o, objContent s o)
  let prog := 4 * patches.length + if os.contains 1 then 64 * 36 * 4 else 0
  { seq := seq, objs := objs, bank := pid.map fun i => (patches, i), newVars := news,
    base := ((if pid.isSome then [0] else []) ++ os).map fun o => (o, objCrc s o)
    size := prog + 8 * (objs.map fun h => h.2.length).sum + 12 * news.length, prog := prog, void := false }

/-- The part of a replayed transaction that changes the program bank: the staged bank takes the patches and becomes the active one (R304). -/
def replayBank (s : State) (patches : List (Nat × Word)) (pid : Option (Nat × Nat)) : State :=
  match pid with
  | none => s
  | some i =>
    let a := getF s CORE_BANK.ACTIVE
    let from_ := bankOf s a
    let bad := if a = 0 then s.core.badA else s.core.badB
    let s := if a = 0 then { s with core := { s.core with bankB := from_, badB := bad } }
      else { s with core := { s.core with bankA := from_, badA := bad } }
    let s := patches.foldl (fun s w => bankPut s (1 - a) (w.1 % 0x80000) w.2) s
    setFs (bankSwap (setPid s (1 - a) i.1 i.2)) [(EDT_STAT.COPY, 0), (EDT_STAT.KEEP_OK, 0)]

/-- The part of a replayed transaction that records the set in non-volatile memory, where PERSIST is set (R304). -/
def replayRecord (old s : State) (regs : List (Nat × Nat)) (patches : List (Nat × Word)) (pid : Option (Nat × Nat))
    (news : List NewVar) (persist : Bool) : State :=
  if !persist then s
  else match (freePositions s).head? with
    | none => s
    | some pos =>
      let seq := getF s NVS_TXA.NEXT
      let set := { replaySet s seq regs patches pid news with base := (replaySet old seq regs patches pid news).base }
      let s := setF s NVS_TXA.NEXT (seq + 1)
      nvRequest { s with nv := { s.nv with recording := some seq } } (deviceJob 3 (setSteps pos set))

/-- A replayed effect: the new content is active at once, the previous content stays for UNDO, and a persisted set is written
to the own NV under rank 3 (R304). -/
def replayTxn (s : State) (regs : List (Nat × Nat)) (patches : List (Nat × Word)) (pid : Option (Nat × Nat))
    (news : List NewVar) (persist : Bool) : State :=
  let regs := regs.filter fun p => tableKey p.1 || execKey p.1
  let fields : List Fld := regs.filterMap fun p =>
    if 0x50000000 ≤ p.1 / 32 then some ⟨p.1 / 32, 0, 32, .rwt, 0⟩
    else (regFields (p.1 / 32)).bind fun fs => fs.find? fun f => f.lo == p.1 % 32
  let old := s
  let undo := fields.map fun f => (f, getF s f)
  let s := clearRanges s (news.filter rangeOk)
  let s := regs.foldl (fun s p => setKey s p.1 p.2) s
  let s := if fields.any isTable then tableActive s else s
  let s := replayBank s patches pid
  let s := effectHooks old s (fields.map fun f => (f, getF s f))
  let s := { s with txn := { s.txn with undo := undo, undoBank := pid.isSome, undoPersist := persist, undoEdit := pid.isSome } }
  let s := if isSet s TXN_STAT.STATE then s else setF s TXN_STAT.UNDO_OK 1
  replayRecord old s regs patches pid news persist

/-- A replayed MARK (Table 10.7). A halt that the replay does not reproduce leads to a takeover when TKO_ON_HALT is set. -/
def replayMark (s : State) (kind cause : Nat) : State :=
  let sync := isSet s SBY_STAT.SYNC
  match kind with
  | 1 =>
    if s.mode != .track then s
    else
      let s := { s with sby := { s.sby with markSeen := some (1, cause) } }
      if sync then (if isSet s SBY_CFG.TKO_ON_HALT then startTakeover s 2 else s) else setF s SBY_STAT.PARTNER_HALT 1
  | 2 => if s.mode == .track then setF (replayStop s) SBY_STAT.SYNC 0 else s
  | 3 => if s.mode == .track && sync then startTakeover s 3 else s
  | _ => s

/-- A stream event is replayed in its primary cycle; a trigger that falls with STOP_PENDING set is dropped (R75, R284 to R290, R304). -/
def replayOne (s : State) (c : Nat) (ev : StreamEv) : State :=
  match ev with
  | .trig t i =>
    if s.ms.stopPending then countSkip s t
    else if inProgress s t then updTask s t fun k => { k with held := some i } else setPending s t i
  | .freeze t scan tai bits words => if t < 8 then replayFreeze s c t scan tai bits words else s
  | .ext t kind a v =>
    if kind = 0 then
      { s with sby := { s.sby with extRec := (2 ^ 21 * t + a, v) :: s.sby.extRec.filter fun p => p.1 != 2 ^ 21 * t + a } }
    else { s with sby := { s.sby with extQueue := s.sby.extQueue ++ [(t, a, v)] } }
  | .writeBit trip a v => if trip then writeBit rankCls s a v else userWriteBit rankHost s 1 a v
  | .writeWord a v => if a < 0x80000 then writeWord rankHost s a v else s
  | .tmu slot _ _ _ => if slot < 32 then tmuFire s slot false else s
  | .taskEnd t nc h => replayEnd s c t nc h
  | .commit t => if (task s t).st == .launchWait then commit s t false else s
  | .txn regs patches pid news persist => replayTxn s regs patches pid news persist
  | .editBegin => setFs s [(EDT_STAT.COPY, 1), (EDT_STAT.COPIED, 0), (EDT_STAT.KEEP_OK, 0)]
  | .mark kind cause => replayMark s kind cause

/-- An event that the end of its cycle brings: an END, a commit, a MARK. -/
def endsCycle : StreamEv → Bool
  | .taskEnd _ _ _ | .commit _ | .mark _ _ => true
  | _ => false

/-- A value that a run obtains in its cycle. -/
def extEvent : StreamEv → Bool
  | .ext _ _ _ _ => true
  | _ => false

/-- The first received event of a kind whose primary cycle RCYC has reached is replayed (R289). -/
def replayFirst (kind : StreamEv → Bool) (s : State) : State :=
  match s.sby.events.find? fun e => decide (e.1 ≤ s.sby.rcyc) && kind e.2 with
  | some e => replayOne { s with sby := { s.sby with events := s.sby.events.erase e } } e.1 e.2
  | none => s

/-- All received events of a kind whose cycle has come are replayed, in their order. -/
def replayDue (kind : StreamEv → Bool) (s : State) : State :=
  if replica s then s.sby.events.foldl (fun s _ => replayFirst kind s) s else s

/-! ## The takeover boundary (R298) -/

/-- Every STATION, PUBLISH and BUS entry is handed the committed image (R233, R234, R298). -/
def handAll (s : State) : State :=
  let all := (omapEntries s).filter fun e => e.kind != 1
  let owner (e : OMap) : Nat := ((List.range 8).find? fun t => covers s t e).getD 0
  let groups := (List.range 8).map fun t => (t, all.filter fun e => owner e == t)
  groups.foldl (fun s g => if g.2.isEmpty then s else handOn s g.1 true g.2) s

/-- TAKEOVER_BOUNDARY (R298): the first replica quiet point after the last received event. After a handover the boundary is the
cut of the stream that the old primary follows (R299 step 4). -/
def takeoverBoundary (s : State) : State :=
  match s.sby.tko with
  | none => s
  | some (cause, d) =>
    let us := min ((s.core.cyc - d) / 400) 65535
    let cov := s.sby.committedSince
    let rec_ := s.sby.extRec
    let s := setFs s [(SBY_TKO.CAUSE, cause), (SBY_TKO.BOUND_US, us)]
    let s := leaveStandby s
    let s := enterRun s true
    let s := { s with core := { s.core with mbx := List.replicate 16 [] } }
    let s := cov.foldl (fun s k => updHub s (k % 8) fun h => { h with live := true }) s
    let s := pulse (incWrap s SBY_CNT.TAKEOVERS) 0x30803
    let s := if cause = 3 then
        setF (streamEv { s with sby := { s.sby with streaming := true, extSent := rec_ } } (.mark 0 0)) SBY_STAT.SYNC 1
      else s
    handAll s

/-- TAKEOVER_BOUNDARY (R298). -/
def execTakeoverBoundary (s : State) : Host.Outcome State Fault Refusal :=
  .next (if s.mode == .takeover && quiet s && s.sby.events.all (fun e => decide (s.sby.horizon < e.1)) then takeoverBoundary s
    else s)

/-! ## Requests (R293, R299 to R301, R307) -/

/-- A handover is requested: refused with MODE_REFUSED except in RUN with the partner in TRACK and SYNC 1 (R299). -/
def handoverReq (s : State) (op : Option Nat) : Nat × State :=
  if s.mode == .run && s.sby.present && getF s SBY_STAT.PMODE == 8 && isSet s SBY_STAT.SYNC && s.sby.handover.isNone then
    (0, { s with sby := { s.sby with handover := some op } })
  else (0xA, s)

/-- A request over the host port. -/
def hostAnswer (addr : Nat) (dbg : Bool) (before : State) (r : Nat × State) : State :=
  if r.1 = 0 then r.2 else accErr before r.1 addr dbg

/-- HANDOVER_REQ (R299): a write to SBY_CTRL.HANDOVER. -/
def execHandoverReq (dbg : Bool) (s : State) : Host.Outcome State Fault Refusal :=
  .next (if absent s then s else hostAnswer SBY_CTRL.HANDOVER.addr dbg s (handoverReq s none))

/-- HANDOVER_MARK (R299 step 2, R286): the old primary keeps its record of the values sent, and its SYNC. A partner that is no longer
synchronised refuses by its heartbeat: the primary continues (R295; log entry 138, DEDUCED). -/
def execHandoverMark (s : State) : Host.Outcome State Fault Refusal :=
  .next (match s.sby.handover with
    | none => s
    | some op =>
      if s.mode != .run || !quiet s || !txRoom s .handover then s
      else if !(s.sby.present && getF s SBY_STAT.PMODE == 8 && isSet s SBY_STAT.SYNC) then
        opEnd? { s with sby := { s.sby with handover := none } } op 0x0A []
      else
        let s := pushSeq (streamEv s (.mark 3 0)) .handover
        let sent := s.sby.extSent
        let s := enterTrack (opEnd? { s with sby := { s.sby with handover := none } } op 0 []) true
        { s with sby := { s.sby with extRec := sent } })

/-- SBL_HANDOVER_RX (R299): a synchronised secondary takes over at the MARK; another refuses. -/
def execSblHandoverRx (crcOk : Bool) (lseq : Nat) (s : State) : Host.Outcome State Fault Refusal :=
  .next (match partnerSeq s crcOk lseq with
    | (true, s) =>
      if s.mode == .track && isSet s SBY_STAT.SYNC then { s with sby := { s.sby with markSeen := some (3, 0) } } else s
    | (false, s) => s)

/-- DEMOTION (R265, R300, R301): a demoted unit enters TRACK at its next quiet point; a unit without a partner never does (R271). -/
def execDemotion (s : State) : Host.Outcome State Fault Refusal :=
  .next (if !s.sby.demote || !isPrimary s || !quiet s || !(dirRole s == 1 || dirRole s == 2) then s
    else
      let s := if isSet s TXN_STAT.STATE ∧ isSet s TXN_STAT.EDIT then txnDiscard s 2 true 0x0F else s
      enterTrack (leaveEdit s) false)

/-- SYNC_REQ (R293; case 8): a write to SBY_CTRL.SYNC_REQ. -/
def execSyncReq (dbg : Bool) (s : State) : Host.Outcome State Fault Refusal :=
  .next (if absent s then s
    else if s.mode == .track && !isSet s SBY_STAT.SYNC then requestXfer s
    else accErr s 0xA SBY_CTRL.SYNC_REQ.addr dbg)

/-- RESET_PARTNER (R307): RSTREQ goes out on an UP link; there is nothing to send it on otherwise. -/
def execResetPartner (_dbg : Bool) (s : State) : Host.Outcome State Fault Refusal :=
  .next (if linkUp s && txRoom s .rstreq then pushSeq s .rstreq else s)

/-- SBL_RSTREQ_RX (R307, R561). -/
def execSblRstreqRx (crcOk : Bool) (lseq : Nat) (s : State) : Host.Outcome State Fault Refusal :=
  .next (match partnerSeq s crcOk lseq with
    | (true, s) => if isSet s SBY_CFG.RST_ACCEPT then resetSource s 6 false else setF s SBY_STAT.RSTREQ_REFUSED 1
    | (false, s) => s)

end Sys2Proof.Machine
end

