-- ==== Sys2Proof/Machine/Registers.lean ====
section
/-!
DEFINITION. The register and memory map as requesters reach it (spec/21_register_map.md): what a register reads, the reads with
effects, the writes with effects, the judgment of a host access, and the host SPI port and DBGREG (R522, R523, R557).
-/

namespace Sys2Proof.Machine

open Reg

/-! ## What a field reads: state that is not stored as a field -/

/-- Index of a register in an array that starts at `base` with a stride. -/
def idx (a base stride : Nat) : Nat := (a - base) / stride

/-- SYS_, TIM_, PLB_ (Tables 2.12 and 2.20, R66). -/
def liveTime (s : State) (f : Fld) : Option Nat :=
  let k := f.key
  let now := nowParts s
  if k = SYS_MODE.MODE.key then some s.mode.code
  else if k = TIM_NOW_SH.SEC_HI.key then some (nth 0 now 0)
  else if k = TIM_NOW_SL.SEC_LO.key then some (nth 0 now 1)
  else if k = TIM_NOW_NS.NS.key then some (nth 0 now 2)
  else if k = TIM_NOW_FR.FRAC.key then some (nth 0 now 3)
  else if k = PLB_STAT.NOSOURCE.key then some (b2n (getF s PLB_CTRL.SRC_MODE == 0))
  else if k = PLB_CYCLE.CYCLE.key then some s.plumb.cyc
  else if k = PLB_ANGLE.ANGLE.key then some (plbAngle s)
  else if k = PLB_FREQ.FREQ.key then some (plbFreq s)
  else none

/-- A program bank matches the table (R210). -/
def bankMatches (s : State) (b : Nat) : Bool :=
  let pid := if b = 0 then (getF s CORE_PIDA_VER.VER, getF s CORE_PIDA_CRC.CRC) else (getF s CORE_PIDB_VER.VER, getF s CORE_PIDB_CRC.CRC)
  decide (pid = (0, 0)) || decide (pid = (getF s CORE_DTVER.VERSION, getF s CORE_DTCRC.CRC))

/-- CORE_ (Tables 4.11, 6.15, 6.16, 7.9). -/
def liveCore (s : State) (f : Fld) : Option Nat :=
  let k := f.key
  if 0x40030080 ≤ f.addr ∧ f.addr < 0x400300A0 then
    let t := idx f.addr 0x40030080 4
    some (if f.lo = 31 then b2n ((task s t).st == .running) else nth 0 s.core.pcs t)
  else if k = CORE_TRK.OCC.key then some (trkOcc s)
  else if k = CORE_CYC_HI.CYC.key then some (s.core.cyc / 2 ^ 32)
  else if k = CORE_CYC_LO.CYC.key then some s.core.cyc
  else if k = CORE_TMUSTAT.PEND.key then some (s.core.tmu.filter fun x => x.ev.isSome).length
  else if k = CORE_TMUSTAT.FIFO.key then some s.core.fifo.length
  else if k = CORE_QUSTAT.BUSY.key then some (b2n (unitBusy s 13))
  else if k = CORE_MBXSTAT.NE.key then
    some (((List.range 16).map fun n => if (nth [] s.core.mbx n).isEmpty then 0 else 2 ^ n).sum)
  else if k = CORE_GTIMST.STATE.key then some (timerCell s (getF s CORE_GTIMIDX.IDX)).1
  else if k = CORE_GTIMSTART.START.key then some (timerCell s (getF s CORE_GTIMIDX.IDX)).2
  else if k = CORE_DTSTAT.ACT_MATCH.key then some (b2n (bankMatches s (getF s CORE_BANK.ACTIVE)))
  else if k = CORE_DTSTAT.INACT_MATCH.key then some (b2n (bankMatches s (1 - getF s CORE_BANK.ACTIVE)))
  else none

/-- Word w of entry i of the posted-write failure log (Table 8.15, R231). -/
def pwlogWord (s : State) (i w : Nat) : Nat :=
  match s.scan.pwlog[i]? with
  | none => 0
  | some (p, cause) =>
    match w with
    | 0 => 2 ^ 31 + cause * 2 ^ 27 + p.task * 2 ^ 24 + p.kind * 2 ^ 21 + (if p.kind = 2 then p.target else ownStn s) * 256 + p.target % 256
    | 1 => p.scan % 2 ^ 32
    | 2 => p.scan / 2 ^ 32
    | _ => p.mapEntry * 2 ^ 26 + p.daddr % 2 ^ 20

/-- SCN_ (Tables 8.10, 8.13, 8.15). -/
def liveScan (s : State) (f : Fld) : Option Nat :=
  let k := f.key
  let bits (p : Nat → Bool) : Nat := ((List.range 8).map fun t => if p t then 2 ^ t else 0).sum
  if k = SCN_STAT.QUIET.key then some (b2n (quiet s))
  else if k = SCN_STAT.FROZEN.key then some (bits (frozen s))
  else if k = SCN_STAT.PENDING.key then some (bits fun t => (task s t).st == .pending)
  else if k = SCN_PWSTAT.COUNT.key then some s.scan.pwlog.length
  else if 0x40041000 ≤ f.addr ∧ f.addr < 0x40041400 then
    some (bitsOf (pwlogWord s (idx f.addr 0x40041000 16) (f.addr / 4 % 4)) f.lo f.w)
  else if 0x40040100 ≤ f.addr ∧ f.addr < 0x40040300 then
    let t := idx f.addr 0x40040100 64
    if k = (SCN_SCANHI.SCAN t).key then some ((task s t).scan / 2 ^ 32)
    else if k = (SCN_SCANLO.SCAN t).key then some (task s t).scan
    else if k = (SCN_TSTAT.HELD_LATE t).key then some (b2n (task s t).held.isSome)
    else none
  else none

/-- CLS_, EGR_, PHM_ (Tables 11.12, 12.7, 12.9, 16.8). -/
def liveNet (s : State) (f : Fld) : Option Nat :=
  let k := f.key
  if k = CLS_STAT.PAUSED.key then some (b2n s.cls.pause.isSome)
  else if k = CLS_TADSTAT.USED.key then some s.cls.tad.length
  else if k = CLS_TADSTAT.HELD.key then some ((s.cls.tad.map fun e => e.held.length).sum)
  else if 0x40080100 ≤ f.addr ∧ f.addr < 0x40080500 then
    let p := idx f.addr 0x40080100 256
    let q := (f.addr % 256 - 0x40) / 16
    if k = (EGR_PCFG.SPD p).key then some (getF s (CLS_P_PSTAT.SPD p))
    else if k = (EGR_GSTAT.PENDING p).key then some (b2n (egrPort s p).pending)
    else if k = (EGR_GSTAT.GATES p).key then some (gatesNow s p)
    else if k = (EGR_QSTAT.DEPTH p q).key then some (nth [] (egrPort s p).queues q).length
    else if k = (EGR_QSTAT.TOKENS p q).key then some (tokensNow s p q / tokUnit)
    else none
  else if k = PHM_STAT.LIBVER.key then some (if libOk s then libWord s 1 % 65536 else 0)
  else if k = PHM_STAT.LIB_OK.key then some (b2n (libOk s))
  else if k = (PHM_E_STATE.NP 0).key then some (estNp s 0)
  else if k = (PHM_E_STATE.NP 1).key then some (estNp s 1)
  else none

/-- State of a transmit buffer (Table 13.13): free, waiting, in an attempt. A reserved buffer is not free. -/
def tbState (s : State) (n b : Nat) : Nat :=
  let t := canTb s n b
  if t.frame.isNone then b2n t.reserved else if t.attempt then 2 else 1

/-- CANn_ (Tables 13.13, 13.16; R375). -/
def liveCan (s : State) (f : Fld) : Option Nat :=
  let n := idx f.addr 0x40090000 0x8000
  let o := f.addr % 0x8000
  let k := f.key
  if k = (CAN_TBSTAT.STATE_0 n).key then some (tbState s n 0)
  else if k = (CAN_TBSTAT.STATE_1 n).key then some (tbState s n 1)
  else if k = (CAN_TBSTAT.STATE_2 n).key then some (tbState s n 2)
  else if k = (CAN_TTSTAT.CYCTIME n).key then some (if ttIn s n then min (ttTime s n) 0xFFFF else 0)
  else if k = (CAN_RXCNT.CNT n).key then some (canSt s n).fifo.length
  else if k = (CAN_HPBCNT.CNT n).key then some (canSt s n).hpb.length
  else if 0x80 ≤ o ∧ o < 0xD0 then some (nth 0 (nth [] (canSt s n).fifo 0) ((o - 0x80) / 4))
  else if 0x100 ≤ o ∧ o < 0x150 then some (nth 0 (nth [] (canSt s n).hpb 0) ((o - 0x100) / 4))
  else none

/-- FLD_: the depth of a mailbox; the mirror of a companion that is absent reads 0 (Table 14.8, R419). -/
def liveFld (s : State) (f : Fld) : Option Nat :=
  if 0x400A0100 ≤ f.addr ∧ f.addr < 0x400A0180 then
    let k := idx f.addr 0x400A0100 16
    if f.key = (FLD_MBX.DEPTH k).key then some (hubPort s k).mbx.length else none
  else if 0x400A1000 ≤ f.addr ∧ f.addr < 0x400A9000 then
    if (f.acc == .ro || f.acc == .w1c) && !hubUp s (idx f.addr 0x400A1000 0x1000) then some 0 else none
  else none

/-- Word w of entry i of the event ring: the newest event whose sequence is i modulo 256 (R525). -/
def eventWord (s : State) (i w : Nat) : Nat :=
  match s.zcp.events.find? fun e => e.seq % 256 == i with
  | none => 0
  | some e =>
    match w with
    | 0 => e.seq
    | 1 => e.sec
    | 2 => e.tns
    | 3 => e.reg
    | 4 => e.bitArg
    | _ => 0

/-- CAL_, ZCP_, NVS_, SBY_ (Tables 17.5, 18.10, 18.11, 20.11, 10.9). -/
def liveSup (s : State) (f : Fld) : Option Nat :=
  let k := f.key
  if k = CAL_STAT.DISC.key then some (b2n (calDisc s))
  else if k = CAL_STAT.SNAP_HELD.key then some (b2n (s.cal.snap.contains 16))
  else if k = CAL_STAT.CHG_ACTIVE.key then some (b2n (chgActive s))
  else if k = ZCP_STAT.SESS.key then some (s.zcp.sessions.filter (·.live)).length
  else if k = ZCP_STAT.OPS.key then some (s.zcp.ops.filter fun o => o.st != 0).length
  else if k = ZCP_STAT.QUEUE.key then some s.zcp.queue.length
  else if k = ZCP_IRQSRC.HALT.key then some (b2n (s.mode == .safeHalt))
  else if k = ZCP_IRQSRC.JLOST.key then some (b2n (isSet s ZCP_JLOST.CNT))
  else if k = ZCP_IRQSRC.EVT.key then some (b2n (getF s ZCP_ESEQ.SEQ != getF s ZCP_EACK.SEQ))
  else if k = ZCP_IRQSRC.RDY.key then some (b2n (!s.zcp.spiQueue.isEmpty))
  else if k = ZCP_SPISTAT.QFULL.key then some (b2n (decide (16 ≤ s.zcp.queue.length)))
  else if k = ZCP_SPISTAT.RDY.key then some (b2n (!s.zcp.spiQueue.isEmpty))
  else if k = ZCP_SPISTAT.COUNT.key then some s.zcp.spiQueue.length
  else if 0x400D1000 ≤ f.addr ∧ f.addr < 0x400D3000 then
    some (eventWord s (idx f.addr 0x400D1000 32) (f.addr / 4 % 8))
  else if k = NVS_STAT.BUSY.key then some (b2n (nvBusy s))
  else if k = NVS_TXA.FREE.key then some (freePositions s).length
  else if k = SBY_STAT.ROLE_NOW.key then some (roleNow s)
  else none

/-- The value a field shows that is not stored under its key. -/
def liveVal (s : State) (f : Fld) : Option Nat :=
  match f.addr / 0x10000 with
  | 0x4000 | 0x4001 | 0x4002 => liveTime s f
  | 0x4003 => liveCore s f
  | 0x4004 => liveScan s f
  | 0x4007 | 0x4008 | 0x400B => liveNet s f
  | 0x4009 => liveCan s f
  | 0x400A => liveFld s f
  | 0x4006 | 0x400C | 0x400D | 0x4010 => liveSup s f
  | _ => none

/-- What a field reads (R3): a WO field 0, state that the block shows live, else the stored value. -/
def fieldVal (s : State) (f : Fld) : Nat :=
  if f.acc == .wo then 0
  else match liveVal s f with
    | some v => v % 2 ^ f.w
    | none => getF s f

/-- The word a register reads, reserved bits 0 (R7); the bits of CAL_WTIME and CAL_WDATE that R490 calls reserved lie inside whole-word
fields of Table 17.6 and read back as written, so that a set can judge them (log entry 151, DESIGN CHOICE); windows show the entry that their selector names. -/
def regVal (s : State) (a : Nat) : Nat := (((readFields s a).getD []).map fun f => fieldVal s f * 2 ^ f.lo).sum

/-! ## Latches (R595) -/

/-- Latch groups of CORE_CYC and CORE_GTIM; SCN_SCANt has group 8 + t. -/
def cycGroup : Nat := 2
@[inherit_doc cycGroup] def gtimGroup : Nat := 3

/-- The task whose SCN_SCANHI or SCN_SCANLO stands at an address. -/
def scanTask (a base : Nat) : Option Nat :=
  if base ≤ a ∧ a < base + 0x200 ∧ (a - base) % 64 = 0 then some (idx a base 64) else none

/-- The latch a register returns: its group and its place in the latch (Table 21.2). -/
def latchOf (a : Nat) : Option (Nat × Nat) :=
  if a = TIM_NOW_SL.SEC_LO.addr then some (nowGroup, 1)
  else if a = TIM_NOW_NS.NS.addr then some (nowGroup, 2)
  else if a = TIM_NOW_FR.FRAC.addr then some (nowGroup, 3)
  else if a = PLB_ANGLE.ANGLE.addr then some (plbGroup, 0)
  else if a = PLB_FREQ.FREQ.addr then some (plbGroup, 1)
  else if a = PLB_ROCOF.ROCOF.addr then some (plbGroup, 2)
  else if a = CORE_CYC_LO.CYC.addr then some (cycGroup, 0)
  else if a = CORE_GTIMSTART.START.addr then some (gtimGroup, 0)
  else if a = CAL_TIME.SEC.addr then some (calGroup, 0)
  else if a = CAL_DATE.DAY.addr then some (calGroup, 1)
  else if a = CAL_SUB.TICKS.addr then some (calGroup, 2)
  else (scanTask a 0x40040124).map fun t => (8 + t, 0)

/-- What a read of a trigger register does to the requester's latch (Table 21.2). -/
def trigRead (s : State) (who a : Nat) : State :=
  if a = TIM_NOW_SH.SEC_HI.addr then setLatch s who nowGroup (nowParts s)
  else if a = PLB_CYCLE.CYCLE.addr then setLatch s who plbGroup [plbAngle s, plbFreq s, getF s PLB_ROCOF.ROCOF]
  else if a = CORE_CYC_HI.CYC.addr then setLatch s who cycGroup [s.core.cyc % 2 ^ 32]
  else if a = CORE_GTIMST.STATE.addr then setLatch s who gtimGroup [(timerCell s (getF s CORE_GTIMIDX.IDX)).2]
  else if a = CAL_TIME.SEC.addr then calTimeRead s who
  else match scanTask a 0x40040120 with
    | some t => setLatch s who (8 + t) [(task s t).scan % 2 ^ 32]
    | none => s

/-- The fields marked RC clear after the read; MON_EXT restarts at its reset values (R3, R538). -/
def clearRc (s : State) (a : Nat) : State :=
  ((regFields a).getD []).foldl (fun s f =>
    if f.acc == .rc then setF s f (if a = MON_EXT.TMAX.addr then f.rst else 0) else s) s

/-- A read of a register that is assigned and on, with its effects (R595). The prescaler has no command that counts it, so its
live value is a free value below 32,768 (log entry 13, DESIGN CHOICE). -/
def readReg (s : State) (who a : Nat) : Nat × State :=
  if a = TRC_RDATA.W.addr then readTrcRdata s
  else
    let s := trigRead s who a
    match (latchOf a).bind fun g => (getLatch s who g.1).map fun l => nth 0 l g.2 with
    | some v => (v, s)
    | none =>
      if a = CAL_SUB.TICKS.addr then
        let (v, s) := drawFree s
        (v % 32768, s)
      else (regVal s a, clearRc s a)

/-! ## Writes of registers (R3 to R5) -/

/-- Fields whose write goes through their owning chapter's own rule. -/
def ownRule (f : Fld) : Bool :=
  [PWR_D11CTL.OFF.key, CAL_STAT.LBF.key, MON_STAT.VWARN.key].contains f.key ||
    (0x400A1000 ≤ f.addr && f.addr < 0x400A9000)

/-- RW fields take their bits; W1C fields lose the bits written 1. -/
def writePlain (s : State) (a v : Nat) : State :=
  ((regFields a).getD []).foldl (fun s f =>
    if ownRule f then s
    else match f.acc with
      | .rw => setF s f (bitsOf v f.lo f.w)
      | .w1c => setF s f (getF s f &&& (2 ^ f.w - 1 - bitsOf v f.lo f.w))
      | _ => s) s

/-- Values that the clock refuses: the whole register keeps its value (R41). -/
def timRefused (a v : Nat) : Bool :=
  if a = TIM_CTRL.FORCE_SRC.addr then decide (7 ≤ bitsOf v 4 4) && decide (bitsOf v 4 4 ≤ 14)
  else if a = TIM_UTC.TAI_UTC.addr then bitOf v 31 && bitOf v 30
  else if 0x40010040 ≤ a ∧ a < 0x400100B0 ∧ a % 16 = 0 then
    let n := idx a 0x40010040 16
    let p := bitsOf v 4 2
    if n < 4 then decide (1 < p) else if n = 4 then decide (2 < p) else if n = 5 then decide (1 < p) else p != 0
  else false

/-- SBY_CTRL: requests of the standby function, each judged for itself (R293, R299, R307). -/
def sbyCtrl (s : State) (v : Nat) : Nat × State :=
  let (c1, s) := if !bitOf v 1 then (0, s) else if s.mode == .track && !isSet s SBY_STAT.SYNC then (0, requestXfer s) else (0xA, s)
  let (c0, s) := if bitOf v 0 then handoverReq s none else (0, s)
  let s := if bitOf v 2 && linkUp s && txRoom s .rstreq then pushSeq s .rstreq else s
  (if c1 ≠ 0 then c1 else c0, s)

/-- A mode request in SYS_MODECTL.REQ: 0 requests nothing, a code that no request has is refused (Table 3.11). -/
def modeCtl (s : State) (v : Nat) : Nat × State :=
  let req := bitsOf v 0 4
  if req = 0 then (0, s) else if [5, 6, 0xA, 0xB].contains req then modeReq s req else (4, s)

/-- W1C fields of a companion are forwarded to it, and its mirror follows its answer (R419). -/
def fldForward (s : State) (a v : Nat) : State :=
  let k := idx a 0x400A1000 0x1000
  let data := (((regFields a).getD []).map fun f => if f.acc == .w1c then bitsOf v f.lo f.w * 2 ^ f.lo else 0).sum
  if data ≠ 0 ∧ hubSends s k ∧ hubUp s k then hubOp s k 2 (a - cpnBase k) data 4 else s

/-- What a write does beyond its plain fields: status code, state. `s` has the plain fields written. -/
def writeHook (s : State) (who a v : Nat) : Nat × State :=
  match a / 0x10000 with
  | 0x4000 =>
    if a = SYS_MODECTL.REQ.addr then modeCtl s v
    else if a = SYS_ACCERR.FLAGS.addr ∧ !isSet s SYS_ACCERR.FLAGS then
      (0, setFs s [(SYS_ACCERR.FIRST, 0), (SYS_ACCERR.FIRST_DBG, 0), (SYS_ACCADDR.ADDR, 0)])
    else (0, s)
  | 0x4001 =>
    if a = TIM_CTRL.FORCE_SRC.addr then (0, reselect s)
    else if a = TIM_UTC.TAI_UTC.addr then (0, leapPending s)
    else if a = TIM_STAT.SRC_DISAGREE.addr ∨ a = TIM_DISAGREE.LIM.addr then (0, checkDisagree s)
    else if 0x40010040 ≤ a ∧ a < 0x400100B0 ∧ a % 16 = 0 then
      let n := idx a 0x40010040 16
      (0, reselect (if isSet s (TIM_SRC_CFG.EN n) then s else setValidSrc s n false))
    else (0, s)
  | 0x4003 =>
    if a = CORE_STAT.ILLEGAL.addr ∧ bitOf v CORE_STAT.ILLEGAL.lo then (0, setF s CORE_ILLREC.VALID 0)
    else if a = CORE_TAGSTAT.MISMATCH.addr ∧ bitOf v CORE_TAGSTAT.MISMATCH.lo then
      (0, setFs s [(CORE_TAGREC.VALID, 0), (CORE_DTREC.VALID, 0)])
    else (0, s)
  | 0x4004 => (0, if a = SCN_PWCTL.CLR.addr ∧ bitOf v 0 then { s with scan := { s.scan with pwlog := [] } } else s)
  | 0x4006 => if a = SBY_CTRL.HANDOVER.addr then sbyCtrl s v else (0, s)
  | 0x4009 =>
    let n := idx a 0x40090000 0x8000
    (0, if a = (CAN_TBCTL.CANCEL n).addr then canCancel s n (v % 8)
      else if a = (CAN_RXPOP.POP n).addr ∧ bitOf v 0 then canPop s n false
      else if a = (CAN_HPBPOP.POP n).addr ∧ bitOf v 0 then canPop s n true
      else s)
  | 0x400A => (0, if 0x400A1000 ≤ a then fldForward s a v else s)
  | 0x400C =>
    if a = CAL_SNAP.SNAP.addr then (0, calSnapWrite s who (bitOf v 0) (bitOf v 1))
    else if a = CAL_SET.GO.addr ∧ bitOf v 0 then
      match calSet s with
      | (true, s) => (0, s)
      | (false, s) => (0xB, s)
    else if a = CAL_STAT.LBF.addr ∧ bitOf v CAL_STAT.LBF.lo then (0, lbfClear s s.cal.vbat)
    else (0, s)
  | 0x400E =>
    if a = PWR_D11CTL.OFF.addr then d11Write s (bitOf v 0)
    else if a = MON_STAT.VWARN.addr then
      let clr : Nat := ((List.range 10).map fun r => if bitOf v r && !s.pwr.vOut.contains r then 2 ^ r else 0).sum
      (0, setF s MON_STAT.VWARN (getF s MON_STAT.VWARN &&& (1023 - clr)))
    else (0, s)
  | 0x400F => (0, if a = TRC_CTRL.EN.addr ∧ isSet s TRC_CTRL.WRAP then setF s TRC_STAT.FULL 0 else s)
  | _ => (0, s)

/-- A write of a register that is assigned and on, apart from its RW-T fields: a refused write changes no field; an invalid set
of the calendar shows in DATE_REJECT (R41, R491, Table 6.11). -/
def writeNow (s : State) (who a v : Nat) : Nat × State :=
  if timRefused a v then (4, s)
  else
    let p := writePlain s a v
    let p := if a = TRC_CTRL.EN.addr ∧ !isSet s TRC_CTRL.EN ∧ isSet p TRC_CTRL.EN then { p with trc := { p.trc with first := true } } else p
    match writeHook p who a v with
    | (0, s1) => (0, s1)
    | (0xB, s1) => (0xB, s1)
    | (c, s1) => (c, if a = SBY_CTRL.HANDOVER.addr then s1 else s)

/-- A host write: RW-T fields are staged for the host's own transaction, else they keep their value and the status says why
(R4, R245). -/
def writeHost (s : State) (a v : Nat) : Nat × State :=
  let (c, s1) := writeNow s 16 a v
  if c ≠ 0 then (c, s1)
  else if (stageFields s a).isEmpty then (0, s1)
  else match stageStatus s (isSet s TXN_STAT.OWNER_SPI) with
    | 0 => (0, stageWord s1 a v)
    | c => (c, s1)

/-- A ZCP write: a word whose staging or write is refused changes nothing (R518). -/
def writeZcp (s : State) (owns : Bool) (a v : Nat) : Nat × State :=
  let st := if (stageFields s a).isEmpty then 0 else stageStatus s owns
  if st ≠ 0 then (st, s)
  else
    let (c, s1) := writeNow s 16 a v
    if c ≠ 0 then (c, s1) else (0, stageWord s1 a v)

/-! ## Requests of the QU (R182, Table 6.11) -/

/-- A register that a task can reach: assigned, in the register space, its domain on. -/
def quReach (s : State) (a : Nat) : Bool :=
  0x40000000 ≤ a && a < 0x40110000 && a % 4 == 0 && (regFields a).isSome && domOn s (regDomain a)

/-- REG_RD: status, value, state. -/
def quRegRd (s : State) (t a : Nat) : Nat × Nat × State :=
  if quReach s a then
    let (v, s) := readReg s t a
    (0, v, s)
  else (5, 0, s)

/-- REG_WR: status, state. It never stages; RW-T fields keep their active value, and a word that a host write could not stage for
another reason than TXN_REQUIRED is REFUSED (Table 6.11). -/
def quRegWr (s : State) (t a v : Nat) : Nat × State :=
  if !quReach s a then (5, s)
  else
    let differs := ((readFields s a).getD []).any fun f => f.acc == .rwt && getF s f != bitsOf v f.lo f.w
    let host := stageStatus s (isSet s TXN_STAT.OWNER_SPI)
    if differs && host != 0 && host != 5 then (5, s)
    else match writeNow s t a v with
      | (0, s1) => (if differs then 6 else 0, s1)
      | (0xB, s1) => (0, s1)
      | (_, s1) => (5, s1)

/-! ## The regions of the host map (R130, R134, R590 to R594) -/

/-- The place of an address: nothing assigned; a move word of a bank; payload or tag of a word; four bits; a register. -/
inductive Place where
  | none
  | bank (b key : Nat)
  | payload (a : Nat)
  | tag (a : Nat)
  | bits (b : Nat)
  | reg
  deriving DecidableEq, Repr

/-- The place of an aligned address (Table 21.1, R594 step 1). -/
def placeOf (a : Nat) : Place :=
  if a < 0x400000 then .bank (a / 0x200000) (a % 0x200000 / 4)
  else if 0x10000000 ≤ a ∧ a < 0x10400000 then
    let w := (a - 0x10000000) / 8
    if a % 8 = 0 then .payload w else .tag w
  else if 0x20000000 ≤ a ∧ a < 0x20100000 then .bits (a - 0x20000000)
  else if 0x40000000 ≤ a ∧ a < 0x40110000 ∧ (regFields a).isSome then .reg
  else .none

/-- The domain of a place; the retentive words and bits lie on D0 (R155). -/
def placeDomain (a : Nat) : Nat :=
  match placeOf a with
  | .bank _ _ => 4
  | .payload w | .tag w => if 0x7E000 ≤ w then 0 else 5
  | .bits b => if 0xF0000 ≤ b then 0 else 5
  | _ => regDomain a

/-- The place is under test (Table 3.7). -/
def placeTested (s : State) (a : Nat) : Bool :=
  match placeOf a with
  | .bank _ _ => testing s 0
  | .payload _ | .tag _ => testing s 2
  | .bits _ => testing s 3
  | .reg => testing s 1 && 0x40030800 ≤ a && a < 0x40030C80
  | .none => false

/-- What a judged access returns: nothing more to judge, or the status of step 1 to 3 of R594 with the word a read returns. -/
def accJudge (s : State) (a : Nat) : Option (Nat × Nat) :=
  if a % 4 ≠ 0 then some (4, 0xFFFFFFFF)
  else if placeOf a = .none then some (4, 0)
  else if !domOn s (placeDomain a) then some (0, 0xFFFFFFFF)
  else if placeTested s a then some (2, 0xFFFFFFFF)
  else none

/-- A host read at an address: status code (0 none), word, state. -/
def hostRead (s : State) (a : Nat) : Nat × Nat × State :=
  match accJudge s a with
  | some (c, v) => (c, v, s)
  | none =>
    match placeOf a with
    | .bank b k => (0, (sget 0 (bankOf s b) k).toNat, s)
    | .payload w =>
      let (v, s) := readWord s 2 w
      (0, v.val.toNat, { s with sp := { s.sp with hostTag := some (w, v.tag) } })
    | .tag w =>
      match s.sp.hostTag with
      | some (x, t) => if x = w then (0, t.toNat, s)
        else
          let (v, s) := readWord s 2 w
          (0, v.tag.toNat, s)
      | none =>
        let (v, s) := readWord s 2 w
        (0, v.tag.toNat, s)
    | .bits b =>
      let (l, s) := readBits s 2 b 4
      (0, (l.zipIdx.map fun x => b2n x.1 * 256 ^ x.2).sum, s)
    | .reg =>
      let (v, s) := readReg s 16 a
      (0, v, s)
    | .none => (4, 0, s)

/-- A host or ZCP write to the spaces is kept out of what a replica owns (R287): the input regions stay open. -/
def spaceClosed (s : State) (word : Bool) (a : Nat) : Bool :=
  (s.mode == .track || s.mode == .takeover) && decide ((if word then 0x4000 else 0x10000) ≤ a)

/-- A word of the space takes a value from the host or ZCP; outside the input region the stream carries it (R284). -/
def hostWord (s : State) (a : Nat) (v : TWord) : State :=
  let s := writeWord rankHost s a v
  if a < 0x4000 then s else streamEv s (.writeWord a v)

/-- A bit takes a value from the host or ZCP. -/
def hostBit (s : State) (a : Nat) (v : Bool) : State :=
  let s := userWriteBit rankHost s 2 a v
  if a < 0x10000 ∨ (0x30000 ≤ a ∧ a < 0x40000) then s else streamEv s (.writeBit false a v)

/-- What a write of a program bank does to the edit (R264, R592). -/
def bankTouched (s : State) (b : Nat) : State :=
  let s := setF s EDT_STAT.KEEP_OK 0
  if b = getF s CORE_BANK.ACTIVE then s else setF s TXN_STAT.UNDO_OK 0

/-- A host write at an address: status code, state. -/
def hostWrite (s : State) (a v : Nat) : Nat × State :=
  match accJudge s a with
  | some (c, _) => (c, s)
  | none =>
    match placeOf a with
    | .bank b k => if s.mode == .stop then (0, bankTouched (bankPut s b k (BitVec.ofNat 32 v)) b) else (0xA, s)
    | .payload w =>
      if spaceClosed s true w then (0xA, s)
      else (0, { s with sp := { s.sp with hostStage := some (w, BitVec.ofNat 32 v) } })
    | .tag w =>
      if spaceClosed s true w then (0xA, s)
      else
        let own : Nat × State :=
          let (old, s) := readWord s 2 w
          (0, hostWord s w (outsideWord v old.val))
        match s.sp.hostStage with
        | some (x, pay) =>
          if x = w then (0, hostWord { s with sp := { s.sp with hostStage := none } } w (outsideWord v pay)) else own
        | none => own
    | .bits b =>
      if spaceClosed s false b then (0xA, s)
      else (0, (List.range 4).foldl (fun s i => hostBit s (b + i) (bitOf v (8 * i))) s)
    | .reg => writeHost s a v
    | .none => (4, s)

/-- The outcome of a host access: its refusal sets the sticky flag of its status (R597). -/
def flagged (s : State) (c a : Nat) (dbg : Bool) : State := if c = 0 then s else accErr s c a dbg

/-- A host read with its flag. -/
def spiWord (s : State) (a : Nat) (dbg : Bool) : Nat × State :=
  let (c, v, s) := hostRead s a
  (v, flagged s c a dbg)

/-- A host write with its flag. -/
def spiPut (s : State) (a v : Nat) (dbg : Bool) : State :=
  let (c, s) := hostWrite s a v
  flagged s c a dbg

/-! ## Commands of the host port (R522, R523, R596) -/

/-- The words of a READ burst. -/
def spiBurst : Nat → Nat → State → List Nat × State
  | 0, _, s => ([], s)
  | n + 1, a, s =>
    let (v, s) := spiWord s a false
    let (vs, s) := spiBurst n (a + 4) s
    (v :: vs, s)

/-- What HSPI_MISO returned. -/
def setMiso (s : State) (bs : List Byte) : State := { s with pins := { s.pins with miso := bs } }

/-- What the host reads in the absent states: all ones (R22, Table 1.5). -/
def misoAbsent (s : State) (n : Nat) : State := setMiso s (List.replicate n 0xFF)

/-- SPI_READ: each word is judged and sampled on its own; words go out most significant bit first. -/
def execSpiRead (addr n : Nat) (s : State) : Host.Outcome State Fault Refusal :=
  .next (if absent s then misoAbsent s (4 * n)
    else
      let (vs, s) := spiBurst n addr s
      setMiso s (vs.flatMap fun v => beBytes 4 v))

/-- The words of a WRITE burst. -/
def spiPuts : List Word → Nat → State → State
  | [], _, s => s
  | w :: ws, a, s => spiPuts ws (a + 4) (spiPut s a w.toNat false)

/-- SPI_WRITE. -/
def execSpiWrite (addr : Nat) (ws : List Word) (s : State) : Host.Outcome State Fault Refusal :=
  .next (if absent s then s else spiPuts ws addr s)

/-- SPI_STATUS: ZCP_SPISTAT. -/
def execSpiStatus (s : State) : Host.Outcome State Fault Refusal :=
  .next (if absent s then misoAbsent s 4 else setMiso s (beBytes 4 (regVal s ZCP_SPISTAT.QFULL.addr)))

/-- The peer of the host port. -/
def spiPeer : Peer := { Peer.none with tr := 3 }

/-- SPI_ZCP_PUT: the packet enters the input queue (R512, R523). -/
def execSpiZcpPut (bytes : List Byte) (s : State) : Host.Outcome State Fault Refusal :=
  .next (if absent s then s else zcpArrive s spiPeer bytes)

/-- Notices that waited for room in the SPI queue take it (R523). -/
def spiRoom (s : State) : State :=
  (List.range 8).foldl (fun s i => if (opSlot s i).noticeWaits then sendNotice s i else s) s

/-- SPI_ZCP_GET: the oldest reply or notice leaves the queue; LEN 0 when none waits. -/
def execSpiZcpGet (s : State) : Host.Outcome State Fault Refusal :=
  .next (if absent s then misoAbsent s 4
    else match s.zcp.spiQueue with
      | [] => setMiso s (beBytes 2 0)
      | p :: rest => spiRoom (setMiso { s with zcp := { s.zcp with spiQueue := rest } } (beBytes 2 p.length ++ p)))

/-- SPI_UNKNOWN_CODE: all ones, and the flag for BAD_OPCODE. The access has no address, so the address recorded is a free value. -/
def execSpiUnknownCode (code : Nat) (s : State) : Host.Outcome State Fault Refusal :=
  .next (if [0x02, 0x03, 0x05, 0x10, 0x11].contains code then s
    else if absent s then misoAbsent s 4
    else
      let (v, s) := drawFree s
      accErr (setMiso s (List.replicate 4 0xFF)) 3 (v % 2 ^ 32) false)

/-! ## Commands that name an access -/

/-- REGISTER_WRITE: a register written by the host over SPI or DBGREG, or by a task through the QU (R3 to R5, R597). -/
def execRegisterWrite (addr : Nat) (v : Word) (who : Writer) (s : State) : Host.Outcome State Fault Refusal :=
  .next (if absent s then s
    else match who with
      | .spi => spiPut s addr v.toNat false
      | .dbg => spiPut s addr v.toNat true
      | .task t => (quRegWr s t addr v.toNat).2)

/-- READ_CLEAR_FIELD: a host read of a register with RC fields (R3). -/
def execReadClearField (addr : Nat) (s : State) : Host.Outcome State Fault Refusal :=
  .next (if absent s then s else (spiWord s addr false).2)

/-- A read of a trigger register by a requester, while its domain is on. -/
def trigAccess (s : State) (who a : Nat) : State := if absent s || !domOn s (regDomain a) then s else (readReg s who a).2

/-- CORE_CYC_HI_READ (R595). -/
def execCoreCycHiRead (who : Nat) (s : State) : Host.Outcome State Fault Refusal := .next (trigAccess s who CORE_CYC_HI.CYC.addr)

/-- CORE_GTIMST_READ (R595). -/
def execCoreGtimstRead (who : Nat) (s : State) : Host.Outcome State Fault Refusal := .next (trigAccess s who CORE_GTIMST.STATE.addr)

/-- SCANHI_READ (R595). -/
def execScanhiRead (task who : Nat) (s : State) : Host.Outcome State Fault Refusal := .next (trigAccess s who (SCN_SCANHI.SCAN task).addr)

/-- SYS_ACCERR_CLEAR (R598). -/
def execSysAccerrClear (v : Word) (s : State) : Host.Outcome State Fault Refusal :=
  .next (if absent s then s else spiPut s SYS_ACCERR.FLAGS.addr v.toNat false)

/-- WORD_PAYLOAD_READ (R134): the +0 location of word `a`. -/
def execWordPayloadRead (a : Nat) (s : State) : Host.Outcome State Fault Refusal :=
  .next (if absent s then s else (spiWord s (0x10000000 + 8 * a) false).2)

/-- WORD_PAYLOAD_STAGE (R134). -/
def execWordPayloadStage (a : Nat) (v : Word) (s : State) : Host.Outcome State Fault Refusal :=
  .next (if absent s then s else spiPut s (0x10000000 + 8 * a) v.toNat false)

/-- WORD_TAG_WRITE (R134). -/
def execWordTagWrite (a : Nat) (v : Word) (s : State) : Host.Outcome State Fault Refusal :=
  .next (if absent s then s else spiPut s (0x10000004 + 8 * a) v.toNat false)

/-- BANK_HOST_WRITE (R592). -/
def execBankHostWrite (addr : Nat) (v : Word) (dbg : Bool) (s : State) : Host.Outcome State Fault Refusal :=
  .next (if absent s then s else spiPut s addr v.toNat dbg)

/-- DBGREG (R557): an Update-DR of DBGREG; with GO 1 it performs one access. A write leaves the read data as it was. -/
def execDbgreg (go write : Bool) (addr : Nat) (v : Word) (s : State) : Host.Outcome State Fault Refusal :=
  .next (
    let s := tapSelect s .dbgreg none false false
    if absent s || !go then s
    else if write then
      let (c, s1) := hostWrite s addr v.toNat
      let s1 := flagged s1 c addr true
      { s1 with tap := { s1.tap with status := c } }
    else
      let (c, d, s1) := hostRead s addr
      let s1 := flagged s1 c addr true
      { s1 with tap := { s1.tap with rdata := d, status := c } })

end Sys2Proof.Machine
end

