-- ==== Sys2Proof/Machine/Results.lean ====
section
/-!
DEFINITION. The end of an operation's latency (spec/06_units.md, R160, R172 to R174, R182 to R184; spec/07_decode_table.md, R198;
spec/05_bits_and_tagged_words.md, R146): results land in the context, stores land in the spaces, a DFT is computed from its samples,
a custom operation hands its staging registers over, and a QU operation acts outside the core.
-/

namespace Sys2Proof.Machine

open Reg

/-! ## What operations in flight read at the start of a cycle (R172, R175, R182, R199) -/

/-- An operation in flight reads at the start of a cycle: a load in its last, a DFT two samples in each, REG_RD its register in its last.
Samples stand at 256 + k. -/
def capture1 (s : State) (p : PendOp) : PendOp × State :=
  let t := p.o.task
  match p.act with
  | .load a =>
    if p.fire + 3 = s.core.cyc then
      let (v, s) := readTaskWord s t a
      ({ p with results := [(0, v)] }, s)
    else (p, s)
  | .loadPair a =>
    if p.fire + 3 = s.core.cyc then
      let (v, s) := readTaskWord s t a
      let (w, s) := readTaskWord s t (a + 1)
      ({ p with results := [(0, v), (1, w)] }, s)
    else (p, s)
  | .dft base n l st _ _ _ _ =>
    if p.fire < s.core.cyc ∧ s.core.cyc ≤ p.fire + n / 2 then
      let k := 2 * (s.core.cyc - p.fire - 1)
      let (v, s) := readTaskWord s t (dftAddr base l st k)
      let (w, s) := readTaskWord s t (dftAddr base l st (k + 1))
      ({ p with results := p.results ++ [(256 + k, v), (256 + k + 1, w)] }, s)
    else (p, s)
  | .regRd a =>
    if p.fire + 7 = s.core.cyc then
      let (c, v, s) := quRegRd s t a
      ({ p with results := [(0, mkT 3 v), (3, mkT 3 c)] }, s)
    else (p, s)
  | _ => (p, s)

/-- Every operation in flight, and the custom operation, read what they read at the start of the cycle. -/
def captureAll (s : State) : State :=
  let (ops, s) := eachOp capture1 s s.core.ops
  macCapture { s with core := { s.core with ops := ops } }

/-! ## Stores, DFT, custom operations -/

/-- Words written at rising addresses through the view of a task (R135), with the rank of their writer (R149). -/
def storeWords (rank : Nat) (s : State) (t : Nat) : Nat → List TWord → State
  | _, [] => s
  | a, w :: ws => storeWords rank (moveWriteWord rank s t a w) t (a + 1) ws

/-- The samples of a DFT, in order. -/
def dftSamples (p : PendOp) (n : Nat) : List TWord := (List.range n).map fun k => (p.results.lookup (256 + k)).getD TWord.empty

/-- The check of the samples, which stand at positions 5 and up: sample 0 is the reference (R172). A failure is recorded against OPD0,
which names the samples. -/
def dftCheck (s : State) (p : PendOp) (n : Nat) (xs : List TWord) : Checked × State :=
  let sp : Spec := { pos := (5, .ref numTags) :: (List.range (n - 1)).map fun k => (k + 6, .eqref []), res := [0, 1, 2] }
  checkTags s sp p.o none (List.replicate 5 TWord.empty ++ xs)

/-- The end of a DFT (R172, R173). -/
def dftEnd (s : State) (p : PendOp) (n h win : Nat) (rho : Word) (wts : List Nat) : State :=
  match dftCheck s p n (dftSamples p n) with
  | (.fires xs, s) =>
    let (f1, s) := drawFree s
    let (f2, s) := drawFree s
    landOp s p (dftPhasor win n h rho.toNat (nth 0 wts) (xs.drop 5) f1 f2)
  | (.poison w, s) => landOp s p ([0, 1, 2].map fun i => (i, w))
  | (.trap, s) => landOp s p []

/-- The end of a custom operation: the staging registers after this cycle's writes, re-tagged by RTAG (R198). -/
def macroEnd (s : State) (p : PendOp) (e : Nat) : State :=
  let s := macStep s
  match s.core.mac with
  | none => s
  | some r =>
    let res (i : Nat) : Nat × TWord :=
      let v := macGet r (0x1F0 + i)
      let tag := bitsOf (dtWord s e 3) (4 * i) 4
      (i, if tag = 0 then v else { v with tag := BitVec.ofNat 4 tag })
    landOp { s with core := { s.core with mac := none } } p ((List.range 4).map res)

/-! ## The QU (R182, R184, Table 6.11) -/

/-- The words that a QU operation has read, in order. -/
def copied (p : PendOp) (n : Nat) : List TWord := (List.range n).map fun k => (p.results.lookup (256 + k)).getD TWord.empty

/-- A buffer word is EMPTY or POISON. -/
def badBuf (ws : List TWord) : Bool := ws.any fun w => w.tag == 0 || w.tag == 15

/-- The bytes of a buffer: byte 4 i + j of a frame is byte j of word i. -/
def bufBytes (ws : List TWord) (len : Nat) : List Byte := (ws.flatMap fun w => leBytes w.val.toNat).take len

/-- RES3 and the other results of a QU operation; a replica takes its partner's (R190). -/
def quEnd (s : State) (p : PendOp) (rs : List (Nat × TWord)) : State :=
  let (rs, s) := obtainAll s p.o.task (16 * p.unit + p.port) rs
  landOp s p rs

/-- A status in RES3. -/
def quStatus (c : Nat) : List (Nat × TWord) := [(3, mkT 3 c)]

/-- Ports that cannot take a program frame count it (R340, R342). -/
def egrRefuse (s : State) (mask q : Nat) (f : EgrFrame) : State :=
  (List.range 4).foldl (fun s p =>
    if !bitOf mask p then s
    else if !originOk s f.origin false then incSat s (EGR_MODEDISC.CNT p) EGR_STAT.CNT_OVF
    else if !egrRoom s p q f then incSat s (EGR_DROP.CNT p q) EGR_STAT.CNT_OVF
    else s) s

/-- The end of SEND_ETH. -/
def ethEnd (s : State) (p : PendOp) (ports queue len : Nat) : State :=
  let ws := copied p ((len + 3) / 4)
  if badBuf ws then quEnd s p (quStatus 4)
  else if replica s then quEnd s p (quStatus 0)
  else
    let f : EgrFrame := { origin := 2, bytes := bufBytes ws len, slot := none, ptp := false, post := [], tc := none }
    if egrRoomAll s ports queue f then quEnd (egrSend s ports queue f false).2 p (quStatus 0)
    else quEnd (egrRefuse s ports queue f) p (quStatus 2)

/-- The buffer that a SEND_CAN has reserved. -/
def canReserved (s : State) (n : Nat) : Option Nat := [0, 1].find? fun b => (canTb s n b).reserved

/-- The end of SEND_CAN: the frame enters its buffer; a bad buffer gives it back (R379). -/
def canEnd (s : State) (p : PendOp) (n len : Nat) (fd brs ide : Bool) : State :=
  let ws := copied p (1 + (len + 3) / 4)
  let b := (canReserved s n).getD 0
  if badBuf ws then
    let s := if replica s then s else canLoad (updTb s n b fun t => { t with reserved := false }) n
    quEnd s p (quStatus 4)
  else if replica s then quEnd s p (quStatus 0)
  else
    let id := (ws.headD TWord.empty).val.toNat % 2 ^ 29
    let f : CanFrame := { id := if ide then id else id % 2 ^ 11, ide := ide, rtr := false, fd := fd, brs := brs,
                          esi := getF s (CAN_STAT.ERRSTATE n) == 2, dlc := dlcOf len, data := bufBytes (ws.drop 1) len }
    quEnd (canEnter s n b f) p (quStatus 0)

/-- The end of FLD_CMD. -/
def fldEnd (s : State) (p : PendOp) (k n : Nat) : State :=
  let ws := copied p n
  if badBuf ws then quEnd s p (quStatus 4)
  else if replica s then quEnd s p (quStatus 0)
  else
    let (ok, s) := fldCmd s k (ws.map fun w => w.val.toNat)
    quEnd s p (quStatus (if ok then 0 else 2))

/-- CORE_QUSTAT.MAXY keeps the largest number of cycles yielded (R184). -/
def quYielded (s : State) (p : PendOp) : State :=
  if p.unit = 13 ∧ 0 < copyLen p ∧ getF s CORE_QUSTAT.MAXY < p.lat - (3 + copyLen p) then
    setF s CORE_QUSTAT.MAXY (min (p.lat - (3 + copyLen p)) 0xFFFF)
  else s

/-- An operation in its last cycle. -/
def opComplete (s : State) (p : PendOp) : State :=
  let s := quYielded s p
  let t := p.o.task
  match p.act with
  | .nothing | .load _ | .loadPair _ => landOp s p p.results
  | .store a ws =>
    if p.unit = 13 then landOp s p p.results
    else landOp (storeWords (rankCore p.fire p.unit p.o.slot) s t a ws) p p.results
  | .dft _ n _ _ h win rho wts => dftEnd s p n h win rho wts
  | .custom e => macroEnd s p e
  | .sendEth _ ports queue len => ethEnd s p ports queue len
  | .sendCan _ n len fd brs ide => canEnd s p n len fd brs ide
  | .fldCmd _ k n => fldEnd s p k n
  | .regRd _ => quEnd s p p.results
  | .regWr a v =>
    let (c, s) := quRegWr s t a v.toNat
    quEnd s p (quStatus c)

end Sys2Proof.Machine
end

