-- ==== Sys2Proof/Machine/Classifier.lean ====
section
/-!
DEFINITION. The receive side of P0 to P3 (spec/11_ingress_classifier.md): ports and redundancy, the parser, the judging of
frames, payload patterns and their pause, fragments, sampled values into the image; and what Plumb and the report estimators
take from them (spec/02_two_clocks.md, R48; spec/16_line_measurement.md, R453, R455).
-/

namespace Sys2Proof.Machine

open Reg

/-! ## The parser (R314 to R316) -/

/-- A fragment: IP version 6, source and destination address, identification, protocol, offset, more fragments. -/
structure FragInfo where
  v6 : Bool
  src : List Byte
  dst : List Byte
  ident : Nat
  proto : Nat
  off : Nat
  more : Bool

/-- What the parser finds in a frame: class, anchors, fragment, sequence number of an HSR tag. -/
structure Parsed where
  cls : Nat
  l3 : Nat
  l4 : Option Nat
  l4pay : Option Nat
  frag : Option FragInfo
  hsr : Option Nat

/-- Past the tags: position of the last Ethertype and the sequence number of an HSR tag (R315). `vl` tags have been passed. -/
def passTags (bs : List Byte) : Nat → Nat → Nat → Option Nat → Nat × Option Nat
  | 0, o, _, h => (o, h)
  | n + 1, o, vl, h =>
    let t := numAt bs o 2
    if t = 0x892F ∧ h.isNone then passTags bs n (o + 6) vl (some (numAt bs (o + 4) 2))
    else if (vl = 0 ∧ (t = 0x8100 ∨ t = 0x88A8)) ∨ (vl = 1 ∧ t = 0x8100) then passTags bs n (o + 4) (vl + 1) h
    else (o, h)

/-- The class of an unfragmented UDP or TCP datagram by its destination port (Table 11.1). -/
def portClass (s : State) (udp v6 : Bool) (port : Nat) : Nat :=
  if udp then
    if port = 47121 then 13 else if port = getF s CLS_PARSE.C37_UDP then 12
    else if port = 319 ∨ port = 320 then 9 else if v6 then 6 else 5
  else if port = getF s CLS_PARSE.C37_TCP then 12 else if v6 then 8 else 7

/-- Class and anchors of the transport part of a datagram. -/
def parseL4 (s : State) (bs : List Byte) (v6 : Bool) (proto o base : Nat) : Nat × Option Nat × Option Nat :=
  if proto = 17 then (portClass s true v6 (numAt bs (o + 2) 2), some o, some (o + 8))
  else if proto = 6 then (portClass s false v6 (numAt bs (o + 2) 2), some o, some (o + numAt bs (o + 12) 1 / 16 * 4))
  else (base, none, none)

/-- The parser (R314 to R316). -/
def parse (s : State) (bs : List Byte) : Parsed :=
  let (e, hsr) := passTags bs 4 12 0 none
  let o := e + 2
  let plain (c : Nat) : Parsed := { cls := c, l3 := o, l4 := none, l4pay := none, frag := none, hsr := hsr }
  match numAt bs e 2 with
  | 0x0806 => plain 2
  | 0x88F7 => plain 9
  | 0x88BA => plain 10
  | 0x88B8 => plain 11
  | 0x88FB => plain 15
  | 0x0800 =>
    let w := numAt bs (o + 6) 2
    let proto := numAt bs (o + 9) 1
    let fr : FragInfo := { v6 := false, src := bytesAt bs (o + 12) 4, dst := bytesAt bs (o + 16) 4, ident := numAt bs (o + 4) 2,
                           proto := proto, off := w % 2 ^ 13, more := bitOf w 13 }
    if fr.off ≠ 0 then { plain 14 with frag := some fr }
    else
      let (c, a, b) := parseL4 s bs false proto (o + numAt bs o 1 % 16 * 4) 3
      { plain c with l4 := a, l4pay := b, frag := if fr.more then some fr else none }
  | 0x86DD =>
    let nh := numAt bs (o + 6) 1
    if nh = 44 then
      let w := numAt bs (o + 42) 2
      let proto := numAt bs (o + 40) 1
      let fr : FragInfo := { v6 := true, src := bytesAt bs (o + 8) 16, dst := bytesAt bs (o + 24) 16, ident := numAt bs (o + 44) 4,
                             proto := proto, off := w / 8, more := bitOf w 0 }
      if fr.off ≠ 0 then { plain 14 with frag := some fr }
      else
        let (c, a, b) := parseL4 s bs true proto (o + 48) 4
        { plain c with l4 := a, l4pay := b, frag := if fr.more then some fr else none }
    else
      let (c, a, b) := parseL4 s bs true nh (o + 40) 4
      { plain c with l4 := a, l4pay := b }
  | _ => plain 1

/-! ## Matching (R320, R321, R328, R331) -/

/-- The position of an anchor; none where it is undefined (Table 11.2). -/
def anchorAt (p : Parsed) (code : Nat) : Option Nat :=
  match code with
  | 0 => some 0
  | 1 => some p.l3
  | 2 => p.l4
  | _ => p.l4pay

/-- Four bytes at a position match a value under a mask; needed bytes lie in the header window and before the FCS (R320). -/
def bytesMatch (bs : List Byte) (at' val msk : Nat) : Bool :=
  (List.range 4).all fun j =>
    let m := bitsOf msk (24 - 8 * j) 8
    m == 0 || (at' + j < 64 && at' + j < bs.length && ((numAt bs (at' + j) 1 ^^^ bitsOf val (24 - 8 * j) 8) &&& m) == 0)

/-- A segment matches (R320). For an orphan, `orph`, segments anchored at L4 or L4PAY count as matching (R331). -/
def segMatch (bs : List Byte) (p : Parsed) (r : List Nat) (orph : Bool) (i : Nat) : Bool :=
  rMsk r i == 0 || (orph && 2 ≤ rAnc r i) ||
    match anchorAt p (rAnc r i) with
    | some a => bytesMatch bs (a + rOfs r i) (rVal r i) (rMsk r i)
    | none => false

/-- The classes that pass for an orphan (R331). -/
def orphClass (v6 : Bool) : List Nat := if v6 then [0, 4, 6, 8, 9, 12, 13] else [0, 3, 5, 7, 9, 12, 13]

/-- A rule matches a frame but for its pattern (R321); for an orphan with the adjustments of R331. -/
def ruleMatches (f : RxFrame) (p : Parsed) (orph : Bool) (r : List Nat) : Bool :=
  rValid r && bitOf (rPorts r) f.port &&
    (if orph then (orphClass ((p.frag.map FragInfo.v6).getD false)).contains (rClass r) else rClass r == 0 || rClass r == p.cls) &&
    (List.range 4).all (segMatch f.bytes p r orph)

/-- The rules that match a frame but for their patterns, in index order. -/
def ruleCands (s : State) (f : RxFrame) (p : Parsed) (orph : Bool) : List (Nat × List Nat) :=
  (validRules s f.bank).filter fun r => ruleMatches f p orph r.2

/-- A pattern occurs in the scanned bytes (R327, R328). -/
def patIn (bs pat : List Byte) : Bool :=
  let b := bs.take 1518
  (List.range (b.length + 1 - pat.length)).any fun i => (b.drop i).take pat.length == pat

/-- The pattern set with which frames are scanned now: the old one while the engines drain (R329). -/
def scanSet (s : State) : List (Nat × List Byte) :=
  (if s.cls.pause.isSome then s.cls.oldPats else patterns s).filter fun p => !s.cls.badPats.contains p.1

/-- Pattern i of a set is found in a frame. -/
def patFound (set : List (Nat × List Byte)) (bs : List Byte) (i : Nat) : Bool := set.any fun p => p.1 == i && patIn bs p.2

/-- A port has a payload engine. -/
def payPort (s : State) (p : Nat) : Bool := bitOf (getF s CLS_CTRL.PAYPORTS) p

/-- The entry of the Tadpole table for a fragment's key (R330). -/
def tadIs (g : FragInfo) (e : TadEntry) : Bool := e.src == g.src && e.dst == g.dst && e.ident == g.ident && e.proto == g.proto

/-- The verdict on a frame: what the first matching rule says, with what is known of its patterns (R321, R328, R331). `found` is
none while the scan has not completed, and the answer is none when the decision waits for it (R323). -/
def verdict (s : State) (f : RxFrame) (p : Parsed) (found : Option (Nat → Bool)) : Option Verdict :=
  match p.cls, p.frag with
  | 14, some g =>
    match (s.cls.tad.find? (tadIs g)).bind TadEntry.dec with
    | some v => some v
    | none =>
      let hit := patFound (if payPort s f.port then scanSet s else []) f.bytes
      match (ruleCands s f p true).find? fun r => !rPay r.2 || hit (rPattern r.2) with
      | some r => some (if rOrph r.2 then .orphanHold else .orphanDrop)
      | none => some .orphanDrop
  | _, _ =>
    let c := ruleCands s f p false
    match found with
    | some hit =>
      match c.find? fun r => !rPay r.2 || hit (rPattern r.2) with
      | some r => some (.rule f.bank r.1 r.2)
      | none => some .default
    | none =>
      match c with
      | [] => some .default
      | r :: _ => if rPay r.2 then none else some (.rule f.bank r.1 r.2)

/-! ## Check bits of rules and patterns (R339) -/

/-- An uncorrectable error in a rule or a pattern: it is invalid, the first is recorded, the event raised. -/
def clsEcc (s : State) (pat : Bool) (loc : Nat) : State :=
  let s := if isSet s CLS_ECCREC.VALID then s
    else setFs s [(CLS_ECCREC.VALID, 1), (CLS_ECCREC.PAT, b2n pat), (CLS_ECCREC.INDEX, loc % 1024)]
  let s := setRaise s CLS_STAT.RULE_ECC 1
  let add (l : List Nat) : List Nat := if l.contains loc then l else loc :: l
  { s with cls := if pat then { s.cls with badPats := add s.cls.badPats } else { s.cls with badRules := add s.cls.badRules } }

/-- The rules of a bank are read to judge a frame: what their check bits find (R151, R339). Location 1,024 b + index. -/
def checkRules (s : State) (b : Nat) : State :=
  (s.sp.upsets.filter fun p => p.1.1 == .rules && p.1.2 / 1024 == b).foldl (fun s p =>
    if p.2 == .correctable then eccCorr s .rules p.1.2
    else eccClear (clsEcc s false p.1.2) .rules p.1.2) s

/-- The patterns are read to scan a frame: what their check bits find (R151, R339). Location 16 i + word. -/
def checkPats (s : State) : State :=
  (s.sp.upsets.filter fun p => p.1.1 == .patterns).foldl (fun s p =>
    if p.2 == .correctable then eccCorr s .patterns p.1.2
    else eccClear (clsEcc s true (p.1.2 / 16)) .patterns p.1.2) s

/-! ## The header decision (R323, R324, R330, R356) -/

/-- The Tadpole entry of a first fragment takes its decision; a full table is counted (R330, R332). -/
def tadDecide (s : State) (g : FragInfo) (v : Verdict) : State :=
  if s.cls.tad.any (tadIs g) then
    { s with cls := { s.cls with tad := s.cls.tad.map fun e => if tadIs g e then { e with dec := some v } else e } }
  else if 64 ≤ s.cls.tad.length then incSat s CLS_TADCNT0.FULL CLS_STAT.CNT_OVF
  else
    let e : TadEntry := { src := g.src, dst := g.dst, ident := g.ident, proto := g.proto, dec := some v, held := [] }
    { s with cls := { s.cls with tad := s.cls.tad ++ [e] } }

/-- TRIP (R324); in TRACK and TAKEOVER it is counted only (R287, R337). -/
def tripWrite (s : State) (port : Nat) (r : List Nat) : State :=
  if inMode s [.track, .takeover] then incSat s (CLS_P_TRIPSUP.CNT port) CLS_STAT.CNT_OVF
  else streamEv (writeBit rankCls s (rTaddr r) (rTval r)) (.writeBit true (rTaddr r) (rTval r))

/-- The frame of a receive port as the send side forwards it (R312, R325; R32). -/
def fwdFrame (f : RxFrame) : EgrFrame :=
  { origin := 1, bytes := f.bytes, slot := none, ptp := false, post := [], tc := some (f.port, f.stamp) }

/-- Ports of a FORWARD rule, the ingress port removed (Table 11.4). -/
def fwdPorts (f : RxFrame) (r : List Nat) : List Nat := (List.range 4).filter fun p => bitOf (rArg r) p && p != f.port

/-- The header decision of a frame: hits, TRIP, the fragment's entry, the start of a cut-through (R319, R321, R323, R324, R330,
R356). `live` says that the frame is still arriving. -/
def decideFrame (s : State) (f : RxFrame) (p : Parsed) (v : Verdict) (live : Bool) : RxFrame × State :=
  let f := { f with dec := some v }
  match v with
  | .rule b i r =>
    if p.cls = 14 then (f, s)
    else
      let s := incWrap s (ruleF b i 15)
      let s := if rTrip r then tripWrite s f.port r else s
      let s := match p.frag with
        | some g => tadDecide s g v
        | none => s
      if live && rAction r == 1 && bitOf (rArg r) 8 then
        (fwdPorts f r).foldl (fun a q =>
          let qu := bitsOf (rArg r) 4 3
          if cutOk a.2 f.port q qu then ({ a.1 with cuts := q :: a.1.cuts }, cutStart a.2 q qu (fwdFrame f)) else a) (f, s)
      else (f, s)
  | .default =>
    if p.cls = 14 then (f, s)
    else
      let s := incSat s (CLS_P_NOMATCH.CNT f.port) CLS_STAT.CNT_OVF
      (f, match p.frag with
        | some g => tadDecide s g v
        | none => s)
  | _ => (f, s)

/-! ## Redundancy (R311 to R313) -/

/-- The key of a frame in a duplicate window: source address and sequence number. -/
def dupKey (bs : List Byte) (seq : Nat) : Nat × Nat := (numAt bs 6 6, seq)

/-- The key enters a window of 1,024 entries; the oldest makes room. -/
def dupEnter (s : State) (pair : Nat) (k : Nat × Nat) : State :=
  let w := nth [] s.cls.dup pair ++ [k]
  { s with cls := { s.cls with dup := s.cls.dup.set pair (w.drop (w.length - 1024)) } }

/-- The key leaves a window. -/
def dupForget (s : State) (pair : Nat) (k : Nat × Nat) : State :=
  { s with cls := { s.cls with dup := upd s.cls.dup pair fun w => w.filter fun e => e != k } }

/-- The sequence number of a redundancy control trailer (R313, R353). -/
def rctSeq (bs : List Byte) : Option Nat :=
  if 6 ≤ bs.length ∧ numAt bs (bs.length - 2) 2 = 0x88FB then some (numAt bs (bs.length - 6) 2) else none

/-- The other ring port to which a frame of an HSR pair is forwarded (R312). -/
def ringPort (s : State) (f : RxFrame) : Option Nat :=
  if redMode s (f.port / 2) = 2 ∧ f.dup = false ∧ numAt f.bytes 0 6 ≠ stnMac s (ownStn s) ∧ f.dec ≠ some .bootDefault then
    some (f.port / 2 * 2 + (1 - f.port % 2))
  else none

/-- The ring frame is cut through when it can be (R354, R356); the port is marked as 4 and its number. -/
def ringCut (s : State) (f : RxFrame) : RxFrame × State :=
  match ringPort s f with
  | some q =>
    let qu := getF s (EGR_PCFG.RINGQ q)
    if cutOk s f.port q qu then ({ f with cuts := (4 + q) :: f.cuts }, cutStart s q qu (fwdFrame f)) else (f, s)
  | none => (f, s)

/-- A stored ring frame is queued at the end of the frame (R312, R354). -/
def ringStore (s : State) (f : RxFrame) : State :=
  match ringPort s f with
  | some q => if f.cuts.contains (4 + q) then s else (egrPut s q (getF s (EGR_PCFG.RINGQ q)) (fwdFrame f) false).2
  | none => s

/-! ## Where the receive side runs (R310, R337, Table 3.7) -/

/-- The classifier runs on a port: enabled, domains on, not disabled by a self-test. -/
def rxOn (s : State) (p : Nat) : Bool := portOn s p && !absent s

/-- Frames are judged by the fixed default rule: in BOOT and SELFTEST until the rule bank is loaded, and during test 5. -/
def bootRule (s : State) : Bool := (inMode s [.boot, .selftest] && !s.ms.bootLoaded) || testing s 5

/-- Frames of a paused port are not judged (R329). -/
def pausedPort (s : State) (p : Nat) : Bool :=
  match s.cls.pause with
  | some (ports, _) => ports.contains p
  | none => false

/-- The state with the frame in flight of a port set. -/
def setFlight (s : State) (p : Nat) (f : Option RxFrame) : State :=
  { s with cls := { s.cls with flight := s.cls.flight.set p f } }

/-- The state with the payload buffer of a port changed. -/
def updPay (s : State) (p : Nat) (g : List RxFrame → List RxFrame) : State :=
  { s with cls := { s.cls with pay := upd s.cls.pay p g } }

/-- The header of a frame that is neither removed nor paused is judged (R323, R327). -/
def judgeHeader (s : State) (f : RxFrame) : RxFrame × State :=
  let p := parse s f.bytes
  let s := checkRules s f.bank
  if payPort s f.port then
    let used := ((nth [] s.cls.pay f.port).map fun g => g.bytes.length).sum
    if used + f.bytes.length ≤ 16384 then
      let (f', s) := match verdict s f p none with
        | some v => decideFrame s f p v true
        | none => (f, s)
      (f', updPay s f.port (· ++ [f']))
    else
      let s := incSat s (CLS_P_PCNT.PAYSKIP f.port) CLS_STAT.CNT_OVF
      match verdict s f p (some fun _ => false) with
      | some v => decideFrame s f p v true
      | none => (f, s)
  else match verdict s f p (some fun _ => false) with
    | some v => decideFrame s f p v true
    | none => (f, s)

/-- A frame arrives on a running port; `tag` is the sequence number of its HSR tag. -/
def headerArrives (s : State) (f : RxFrame) (tag : Option Nat) : State :=
  let pair := f.port / 2
  let hsr := redMode s pair == 2
  if hsr && numAt f.bytes 6 6 == stnMac s (ownStn s) then setFlight s f.port (some { f with dup := true })
  else
    match (if hsr then tag else none) with
    | some seq =>
      let k := dupKey f.bytes seq
      if (nth [] s.cls.dup pair).contains k then
        setFlight (incSat s (CLS_P_DUPDISC.CNT f.port) CLS_STAT.CNT_OVF) f.port (some { f with dup := true })
      else go (dupEnter s pair k)
    | none => go s
where
  /-- The frame is judged, and forwarded on its ring. -/
  go (s : State) : State :=
    if bootRule s then
      setFlight (incSat s CLS_DEFCNT.CNT CLS_STAT.CNT_OVF) f.port (some { f with dec := some .bootDefault })
    else
      let (f, s) := ringCut s f
      if pausedPort s f.port then setFlight s f.port (some f)
      else
        let (f, s) := judgeHeader s f
        setFlight s f.port (some f)

/-- An IEEE 802.3 PAUSE frame. -/
def isPause (bs : List Byte) : Bool := numAt bs 12 2 == 0x8808 && numAt bs 14 2 == 1

/-- FRAME_HEADER_DECISION (R310 to R324, R330, R356): the frame whose header decision is due, as its bytes will have been
received; `stamp` is the raw stamp of its start-frame delimiter. While the MAC is under test the frame is dropped (Table 3.7); a PAUSE
frame is dropped at its end, and no rule judges it. -/
def execFrameHeaderDecision (port : Nat) (bytes : List Byte) (stamp : Nat) (s : State) : Host.Outcome State Fault Refusal :=
  .next (if !rxOn s port || (nth none s.cls.flight port).isSome then s
    else if testing s 7 then incSat s (CLS_P_RXDROP.CNT port) CLS_STAT.CNT_OVF
    else if isPause bytes then
      setFlight s port (some { port := port, bytes := bytes, stamp := rawStamp s stamp, bank := clsBank s, dec := none, fcs := none,
                               dup := true, cls := classNow s, cuts := [] })
    else headerArrives s
      { port := port, bytes := bytes, stamp := rawStamp s stamp - getF s (TIM_PORTLAT.ING_LAT port) * nsUnit, bank := clsBank s, dec := none,
        fcs := none, dup := false, cls := classNow s, cuts := [] } (parse s bytes).hsr)

/-! ## Sampled values (R333 to R336) -/

/-- One element of an encoding of basic rules: tag, contents, rest. -/
def berOne : List Byte → Option (Nat × List Byte × List Byte)
  | t :: l :: r =>
    let cut (n : Nat) (b : List Byte) : Option (Nat × List Byte × List Byte) :=
      if n ≤ b.length then some (t.toNat, b.take n, b.drop n) else none
    if l.toNat < 128 then cut l.toNat r
    else match l.toNat, r with
      | 0x81, a :: r => cut a.toNat r
      | 0x82, a :: b :: r => cut (a.toNat * 256 + b.toNat) r
      | _, _ => none
  | _ => none

/-- The elements that fill bytes exactly. -/
def berAll : Nat → List Byte → Option (List (Nat × List Byte))
  | _, [] => some []
  | 0, _ => none
  | n + 1, b => do
    let (t, c, r) ← berOne b
    let rest ← berAll n r
    return (t, c) :: rest

/-- The tags of elements rise. -/
def tagsRise : List (Nat × List Byte) → Bool
  | a :: b :: r => decide (a.1 < b.1) && tagsRise (b :: r)
  | _ => true

/-- An ASDU: smpCnt, confRev, smpSynch, data. -/
structure Asdu where
  smp : Nat
  rev : Nat
  sync : Nat
  data : List Byte

/-- An ASDU of IEC 61850-9-2 whose data has a length (R334). -/
def asduOf (len : Nat) (b : List Byte) : Option Asdu := do
  let es ← berAll b.length b
  let el (t n : Nat) : Option (List Byte) := (es.lookup t).bind fun c => if c.length == n then some c else none
  let _ ← es.lookup 0x80
  let c ← el 0x82 2
  let r ← el 0x83 4
  let y ← el 0x85 1
  let d ← el 0x87 len
  if tagsRise es && es.all fun e => 0x80 ≤ e.1 && e.1 ≤ 0x89 then
    some { smp := beNat c, rev := beNat r, sync := beNat y, data := d }
  else none

/-- The ASDUs of a savPdu, 1 to 8 (R334). -/
def savPdu (len : Nat) (b : List Byte) : Option (List Asdu) := do
  let (t, c, _) ← berOne b
  let es ← berAll c.length c
  let n ← es.lookup 0x80
  let q ← es.lookup 0xA2
  let as ← berAll q.length q
  let k := beNat n
  if t == 0x60 && tagsRise es && (es.all fun e => [0x80, 0x81, 0xA2].contains e.1) && decide (1 ≤ k) && decide (k ≤ 8) &&
      as.length == k && as.all fun a => a.1 == 0x30 then
    as.mapM fun a => asduOf len a.2
  else none

/-- A counter that saturates rises by n. -/
def addSat (s : State) (f ovf : Fld) (n : Nat) : State :=
  if getF s f + n < 2 ^ f.w then setF s f (getF s f + n) else setFs s [(f, 2 ^ f.w - 1), (ovf, 1)]

/-- Channels of a stream. -/
def strNch (s : State) (m : Nat) : Nat := getF s (CLS_S_CFG.NCHM1 m) + 1

/-- Base of a channel's ring (R333). -/
def ringBase (s : State) (m c : Nat) : Nat := getF s (CLS_S_RING.ADDR m) + c * getF s (CLS_S_RING.RLEN m)

/-- A raw sample as the stream writes it: FLOAT32 scaled, or INT32 (R335). -/
def sampleWord (s : State) (m c raw : Nat) : TWord :=
  if isSet s (CLS_S_HDR.FLOAT m) then
    let k := getF s (CLS_SCALE.S m c)
    let x := signedOf 32 raw
    mkT 5 (if fFinite k then fRound (x * fInt k) 149 (fNeg k) else fMul (fRound x 0 false) k)
  else mkT 2 raw

/-- SYNC of a QUAL word from smpSynch (Table 5.4). -/
def syncOf (y : Nat) : Nat := if y = 0 then 0 else if y = 2 then 2 else 1

/-- The instant that a sample count names: in the TAI second nearest the frame's stamp (R48, R453). -/
def smpInstant (stamp smp rate : Nat) : Nat :=
  let t := stamp / secUnit * secUnit + smp * secUnit / max 1 rate
  if stamp + secUnit / 2 < t then t - secUnit else if t + secUnit / 2 ≤ stamp then t + secUnit else t

/-- The QUAL word of the channel whose ring starts at an address, over all enabled streams. -/
def qualAt (s : State) (a : Nat) : Option Nat :=
  (List.range 64).findSome? fun m =>
    if isSet s (CLS_S_HDR.EN m) then
      ((List.range (strNch s m)).find? fun c => ringBase s m c == a).map fun c => getF s (CLS_S_HDR.ADDR m) + 8 + c
    else none

/-- The address of the newest sample word of the channel whose ring starts at an address (R335). -/
def newestAt (s : State) (a : Nat) : Nat :=
  let hit := (List.range 64).findSome? fun m =>
    if isSet s (CLS_S_HDR.EN m) && (List.range (strNch s m)).any fun c => ringBase s m c == a then sget none s.cls.streams m else none
  a + (hit.map fun p => p.2).getD 0

/-- Plumb takes a sample set of a stream: at the channel of PLB_SRCA, with the newest sample and the quality of every channel it
tracks (R48, R50, R336). -/
def plumbSample (s : State) (m smp sync stamp : Nat) : State :=
  let srcs := if getF s PLB_CTRL.SRC_MODE = 1 then [PLB_SRCA.ADDR] else [PLB_SRCA.ADDR, PLB_SRCB.ADDR, PLB_SRCC.ADDR]
  if !plbTracks s || !(List.range (strNch s m)).any fun c => ringBase s m c == getF s PLB_SRCA.ADDR then s
  else
    let (vs, s) := readAll s (srcs.map fun f => newestAt s (getF s f))
    let (qs, s) := readAll s (srcs.filterMap fun f => qualAt s (getF s f))
    let good := qs.length == srcs.length && qs.all fun q => q.tag == 10 && q.val.toNat % 4 == 0
    let inst := if sync = 2 ∧ classNow s ≤ 1 then smpInstant stamp smp (getF s PLB_SRCCFG.RATE)
      else stamp - getF s PLB_SRCCFG.DLY * 10 * nsUnit
    plbNote (plbUpdate s vs good ((s.time.tai - inst) * 2 / (5 * nsUnit))) inst

/-- Report instants whose window ends with the newest of a list of samples, in order (R453, R454): the centre sample is the one
nearest the report instant, a tie going to the earlier; with PERSMP every sample instant is one. -/
def reportsDue (s : State) (e : Nat) (l : List Nat) : List Nat :=
  let h := estW s e * estM s / 2
  if h = 0 ∨ l.length < 2 * h then []
  else
    let c := l.getD (h - 1) 0
    if isSet s (PHM_E_CFG.PERSMP e) then [c]
    else
      let prev := l.getD h 0
      let next := if 2 ≤ h then l.getD (h - 2) 0 else c + secUnit / max 1 (getF s PLB_SRCCFG.RATE)
      let cnt (x : Nat) : Nat := x * estRr s e / (2 * secUnit)
      (List.range (cnt (c + next) - cnt (prev + c))).map fun j => (cnt (prev + c) + 1 + j) * secUnit / max 1 (estRr s e)

/-- A bit of a gap map (R455). -/
def setGap (s : State) (e i : Nat) (v : Bool) : State :=
  let f := PHM_GAP.W e (i / 32)
  let w := getF s f
  if bitOf w (i % 32) == v then s else setF s f (if v then w + 2 ^ (i % 32) else w - 2 ^ (i % 32))

/-- A sample enters the record of an estimator. -/
def putSample (s : State) (e : Nat) (x : PhmSmp) : State :=
  { s with phm := { s.phm with
      samples := s.phm.samples.set e ((x :: nth [] s.phm.samples e).take 512)
      smpCnt := s.phm.smpCnt.set e (nth 0 s.phm.smpCnt e + 1) } }

/-- Report instants of an estimator are numbered, each whether or not it is pulsed (R458); those of a land cycle but the oldest, or all
of a window that can no longer be completed, are dropped (R455, case 3). -/
def reportsFall (s : State) (e : Nat) (trs : List Nat) (complete : Bool) : State :=
  if trs.isEmpty || !phmOn s e then s
  else
    let no := nth 0 s.phm.rptNo e
    let s := { s with phm := { s.phm with rptNo := s.phm.rptNo.set e ((no + trs.length) % 2 ^ 32) } }
    if !complete then addSat s (PHM_E_CNT.DROPPED e) PHM_STAT.CNT_OVF trs.length
    else
      let s := if trs.length = 1 then s else addSat s (PHM_E_CNT.DROPPED e) PHM_STAT.CNT_OVF (trs.length - 1)
      let d : PhmDue := { at' := s.time.tai, no := no, tr := trs.headD 0, cnt := nth 0 s.phm.smpCnt e }
      pulse { s with phm := { s.phm with due := s.phm.due.set e ((d :: nth [] s.phm.due e).take 8) } } (0x30A00 + e)

/-- An index of an estimator's ring is skipped: its gap bit sets, and the instants whose window ends there are dropped (R335, R455). -/
def skipSample (s : State) (e inst idx : Nat) : State :=
  let s := putSample (setGap s e idx true) e { inst := inst, idx := idx, quals := [], sim := false, gap := true }
  reportsFall s e (reportsDue s e ((nth [] s.phm.samples e).map (·.inst))) false

/-- The PHM block takes a sample of a stream: gap maps, due pulses, reports that can no longer be completed (R453, R455). The instants
of skipped samples lie evenly between those written. -/
def phmSample (s : State) (m smp sync stamp d idx : Nat) (first sim : Bool) : State :=
  (List.range 2).foldl (fun s e =>
    if getF s (PHM_E_CFG.STREAM e) != m then s
    else
      let rlen := max 1 (getF s (CLS_S_RING.RLEN m))
      let inst := if syncOf sync = 2 then smpInstant stamp smp (getF s PLB_SRCCFG.RATE)
        else stamp - getF s (PHM_E_DLY.DLY e) * 10 * nsUnit
      let s := if first then { s with phm := { s.phm with samples := s.phm.samples.set e [] } } else s
      let last := ((nth [] s.phm.samples e).headD { inst := inst, idx := 0, quals := [], sim := false, gap := false }).inst
      let skip := if first then 0 else min (d - 1) 512
      let s := (List.range skip).foldl (fun s k =>
        skipSample s e (last + (inst - last) * (d - skip + k) / d) ((idx + rlen * d - skip + k) % rlen)) s
      let quals := (List.range (strNch s m)).map fun c => (rawWord s (getF s (CLS_S_HDR.ADDR m) + 8 + c)).val.toNat
      let s := putSample (setGap s e idx false) e { inst := inst, idx := idx, quals := quals, sim := sim, gap := false }
      reportsFall s e (reportsDue s e ((nth [] s.phm.samples e).map (·.inst))) true) s

/-- One ASDU: whether it was written, whether it followed a gap, and the state (R335). -/
def asduWrite (s : State) (m stn stamp : Nat) (sim : Bool) (a : Asdu) : Bool × Bool × State :=
  let wrap := if getF s (CLS_S_CFG.SMPWRAP m) = 0 then 65536 else getF s (CLS_S_CFG.SMPWRAP m)
  let rlen := max 1 (getF s (CLS_S_RING.RLEN m))
  let prev := sget none s.cls.streams m
  let (d, idx) := match prev with
    | none => (1, 0)
    | some (c, i) =>
      let d := (((a.smp : Int) - c) % (wrap : Int)).toNat
      (d, (i + d) % rlen)
  if d = 0 ∨ wrap < 2 * d then (false, false, incSat s (CLS_S_CNT0.OLD m) CLS_STAT.CNT_OVF)
  else
    let s := { s with cls := { s.cls with streams := sset none s.cls.streams m (some (a.smp, idx)) } }
    let s := (List.range (strNch s m)).foldl (fun s c =>
      let s := writeWord rankCls s (ringBase s m c + idx) (sampleWord s m c (beNat (bytesAt a.data (8 * c) 4)))
      writeWord rankCls s (getF s (CLS_S_HDR.ADDR m) + 8 + c)
        (mkT 10 (stn * 2 ^ 24 + syncOf a.sync * 2 ^ 16 + classNow s * 2 ^ 14 + numAt a.data (8 * c + 4) 4 % 2 ^ 14))) s
    let s := if 1 < d then addSat s (CLS_S_CNT0.GAPS m) CLS_STAT.CNT_OVF (d - 1) else s
    let s := plumbSample s m a.smp a.sync stamp
    (true, decide (1 < d), phmSample s m a.smp a.sync stamp d idx prev.isNone sim)

/-- IMAGE (R333 to R336): the frame's words land together. -/
def imageWrite (s : State) (f : RxFrame) (m stn : Nat) : State :=
  if !isSet s (CLS_S_HDR.EN m) then s
  else
    let h := getF s (CLS_S_HDR.ADDR m)
    let l3 := (parse s f.bytes).l3
    let (hi, lo) := stampWords f.cls f.stamp
    let n := (sget 0 s.cls.frames m + 1) % 2 ^ 32
    let s := { s with cls := { s.cls with frames := sset 0 s.cls.frames m n } }
    let s := writeWord rankCls (writeWord rankCls (writeWord rankCls s h (mkT 8 hi)) (h + 1) (mkT 7 lo)) (h + 5) (mkT 9 n)
    let sim := 8 * b2n (bitOf (numAt f.bytes (l3 + 4) 2) 15)
    let refused (s : State) : State := writeWord rankCls s (h + 6) (mkT 1 (4 + sim))
    match savPdu (8 * strNch s m) (f.bytes.drop (l3 + 8)) with
    | none => refused (incSat s (CLS_S_CNT1.FMT m) CLS_STAT.CNT_OVF)
    | some as =>
      let want := getF s (CLS_S_CONFREV.REV m)
      if want ≠ 0 ∧ as.any fun a => a.rev != want then refused (incSat s (CLS_S_CNT1.CREV m) CLS_STAT.CNT_OVF)
      else
        let (w, g, s) := as.foldl (fun (x : Bool × Bool × State) a =>
          let (w, g, s) := asduWrite x.2.2 m stn f.stamp (sim != 0) a
          (x.1 || w, x.2.1 || g, s)) (false, false, s)
        let s := writeWord rankCls s (h + 6) (mkT 1 (b2n w + 2 * b2n g + sim))
        let s := writeWord rankCls s (h + 7) (mkT 3 0)
        match w, sget none s.cls.streams m, as.getLast? with
        | true, some (c, i), some a =>
          writeWord rankCls (writeWord rankCls (writeWord rankCls s (h + 2) (mkT 9 c)) (h + 3) (mkT 3 i)) (h + 4) (mkT 3 a.rev)
        | _, _, _ => s

/-! ## The land cycle (R183, R323, R325, R326) -/

/-- A frame is delivered to a mailbox of 16 frames; all share 64 KiB (R183). -/
def mbxPut (s : State) (n : Nat) (f : RxFrame) : State :=
  let used := (s.core.mbx.map fun l => (l.map fun g => g.bytes.length).sum).sum
  if (nth [] s.core.mbx n).length < 16 ∧ used + f.bytes.length ≤ 65536 then
    let (hi, lo) := stampWords f.cls f.stamp
    { s with core := { s.core with mbx := upd s.core.mbx n (· ++ [{ bytes := f.bytes, sec := hi, tns := lo, port := f.port }]) } }
  else
    setF (incSat s CORE_MBXDROP.CNT CORE_MBXDROP.OVF) CORE_MBXSTAT.FULL
      (getF s CORE_MBXSTAT.FULL ||| 2 ^ n)

/-- The SYSTEM_ID of an ANNOUNCE or SYS_PREPARE that a frame carries over UDP (R506, Tables 18.2, 18.6, 18.7). -/
def frameSysId (s : State) (bs : List Byte) : Option Nat :=
  let p := parse s bs
  match p.l4pay with
  | some o =>
    if p.cls ≠ 13 ∨ numAt bs o 2 ≠ 0x5A43 then none
    else if numAt bs (o + 10) 2 = 0x000B then some (numAt bs (o + 17) 2)
    else if numAt bs (o + 10) 2 = 0x0207 then some (numAt bs (o + 20) 2)
    else none
  | none => none

/-- An accepted frame sets PRESENT of the stations whose entry holds its source address (R18, R326), but not of a sender of another
system (R14). -/
def presentBy (s : State) (src : Nat) : State :=
  if !liveMode s then s
  else (List.range 256).foldl (fun s i =>
    if i != ownStn s && isSet s (SYS_DIR_CTRL.VALID i) && isSet s (SYS_DIR_CTRL.SUPV i) && stnMac s i == src &&
        !s.zcp.foreign.contains src then
      setPresent s i true else s) s

/-- The frame-end actions of a rule (R325). -/
def landRule (s : State) (f : RxFrame) (r : List Nat) : State :=
  let src := numAt f.bytes 6 6
  let s := match frameSysId s f.bytes with
    | some id => markForeign s src (id != getF s SYS_STATION.SYSTEM_ID)
    | none => s
  let s := if rAction r = 0 then s else presentBy s src
  let s := match rAction r with
    | 1 => ((fwdPorts f r).filter fun p => !f.cuts.contains p).foldl (fun s p =>
        (egrPut s p (bitsOf (rArg r) 4 3) (fwdFrame f) false).2) s
    | 2 => mbxPut (wakeSource s 5) (rArg r % 16) f
    | 3 => imageWrite s f (rArg r % 64) ((rStn r).getD (ownStn s))
    | _ => s
  let s := if rMirror r then (egrPut s (rMport r) (rMqueue r) { fwdFrame f with tc := none } false).2 else s
  if rStamp r then
    let (hi, lo) := stampWords f.cls f.stamp
    writeWord rankCls (writeWord rankCls s (rSaddr r) (mkT 8 hi)) (rSaddr r + 1) (mkT 7 lo)
  else s

/-- An orphan of policy HOLD takes or joins the waiting entry of its key, or is discarded (R331, R332). -/
def orphanWait (s : State) (f : RxFrame) (g : FragInfo) : State :=
  let drop (s : State) : State := incSat s CLS_TADCNT0.ORPH_DROP CLS_STAT.CNT_OVF
  let used := (s.cls.tad.map fun e => (e.held.map fun h => h.bytes.length).sum).sum
  match s.cls.tad.find? (tadIs g) with
  | some e =>
    if e.held.length < 4 ∧ used + f.bytes.length ≤ 65536 then
      { s with cls := { s.cls with tad := s.cls.tad.map fun x => if tadIs g x then { x with held := x.held ++ [f] } else x } }
    else drop s
  | none =>
    if s.cls.tad.length < 64 ∧ used + f.bytes.length ≤ 65536 then
      let e : TadEntry := { src := g.src, dst := g.dst, ident := g.ident, proto := g.proto, dec := none, held := [f] }
      { s with cls := { s.cls with tad := s.cls.tad ++ [e] } }
    else drop s

/-- The frame-end actions that a verdict has for a frame with a good FCS (R325, R331). -/
def landVerdict (s : State) (f : RxFrame) (v : Verdict) : State :=
  match v with
  | .rule _ _ r => landRule s f r
  | .default => if isSet s CLS_CTRL.DEFACT then mbxPut s (getF s CLS_CTRL.DEFMBX) f else s
  | .orphanDrop => incSat s CLS_TADCNT0.ORPH_DROP CLS_STAT.CNT_OVF
  | _ => s

/-- The frames held for a first fragment take their actions after its land cycle (R331). -/
def releaseHeld (s : State) (g : FragInfo) : State :=
  match s.cls.tad.find? (tadIs g) with
  | some e =>
    match e.dec with
    | some v =>
      let s := { s with cls := { s.cls with tad := s.cls.tad.map fun x => if tadIs g x then { x with held := [] } else x } }
      e.held.foldl (fun s h => landVerdict s h v) s
    | none => s
  | none => s

/-- A decided frame with a good FCS lands, and the frames held for it after it. -/
def landFrame (s : State) (f : RxFrame) (good : Bool) : State :=
  let p := parse s f.bytes
  let s := match good, f.dec, p.frag with
    | true, some .orphanHold, some g =>
      match (s.cls.tad.find? (tadIs g)).bind TadEntry.dec with
      | some v => landVerdict s f v
      | none => orphanWait s f g
    | true, some v, _ => landVerdict s f v
    | _, _, _ => s
  match p.frag with
  | some g => if g.off = 0 then releaseHeld s g else s
  | none => s

/-- A frame that was not judged at its header is judged and lands: with the pattern set known (R328, R329). -/
def judgeAndLand (s : State) (f : RxFrame) : State :=
  let p := parse s f.bytes
  let s := checkPats (checkRules s f.bank)
  let hit := patFound (if payPort s f.port then scanSet s else []) f.bytes
  match verdict s f p (some hit) with
  | some v =>
    let (f, s) := decideFrame s f p v false
    landFrame s f true
  | none => s

/-! ## Internal consumers (R317, R507) -/

/-- An answer to an ARP request for the own address (the layout is that of ARP, log entry 18, PRESUMED). -/
def arpAnswer (s : State) (f : RxFrame) (o : Nat) : State :=
  if getF s (SYS_DIR_IP4.IPV4 (ownStn s)) != 0 && numAt f.bytes (o + 6) 2 == 1 && bytesAt f.bytes (o + 24) 4 == ownIp s false then
    sysSend s (2 ^ f.port)
      (ethHead s (numAt f.bytes (o + 8) 6) 0x0806 ++ beBytes 8 0x0001080006040002 ++ beBytes 6 (stnMac s (ownStn s)) ++ ownIp s false ++
        bytesAt f.bytes (o + 8) 10 ++ List.replicate 18 0) false false
  else s

/-- An answer to an IPv6 neighbour solicitation for the own address (log entry 18, PRESUMED). -/
def ndAnswer (s : State) (f : RxFrame) (o : Nat) : State :=
  if (List.range 4).any (fun j => isSet s (SYS_DIR_IP6.IPV6 (ownStn s) j)) && numAt f.bytes (o + 6) 1 == 58 &&
      numAt f.bytes (o + 40) 1 == 135 && bytesAt f.bytes (o + 48) 16 == ownIp s true then
    let peer := bytesAt f.bytes (o + 8) 16
    let body (ck : Nat) := [136, 0] ++ beBytes 2 ck ++ beBytes 4 0x60000000 ++ ownIp s true ++ [2, 1] ++ beBytes 6 (stnMac s (ownStn s))
    let ck := inetSum (ownIp s true ++ peer ++ beBytes 4 32 ++ beBytes 4 58 ++ body 0)
    sysSend s (2 ^ f.port)
      (ethHead s (numAt f.bytes 6 6) 0x86DD ++ beBytes 4 0x60000000 ++ beBytes 2 32 ++ [58, 255] ++ ownIp s true ++ peer ++ body ck)
      false false
  else s

/-- The group addresses of announcements over IPv4 and IPv6 (R519). -/
def announceIp (s : State) (v6 : Bool) : List Byte :=
  if v6 then beBytes 16 (0xFF15 * 2 ^ 112 + 0x4715) else beBytes 4 (getF s ZCP_ANNGRP.IP)

/-- ZCP frames to the own addresses or to the announce groups enter the queue of the interpreter (R317, R506, R507). -/
def zcpCopy (s : State) (f : RxFrame) (p : Parsed) : State :=
  match p.l4 with
  | some o =>
    let v6 := numAt f.bytes (p.l3 - 2) 2 == 0x86DD
    let src := if v6 then bytesAt f.bytes (p.l3 + 8) 16 else bytesAt f.bytes (p.l3 + 12) 4
    let dst := if v6 then bytesAt f.bytes (p.l3 + 24) 16 else bytesAt f.bytes (p.l3 + 16) 4
    let data := (bytesAt f.bytes (o + 8) (numAt f.bytes (o + 4) 2 - 8)).take (f.bytes.length - (o + 8))
    if isSet s ZCP_CFG.UDP_EN && (s.mode != .boot || s.ms.bootLoaded) && decide (data.length ≤ (if v6 then 1452 else 1472)) &&
        ((dst == ownIp s v6 && dst.any (· != 0)) || dst == announceIp s v6) then
      let words := (List.range 4).map fun j => if v6 then numAt src (4 * j) 4 else if j = 0 then beNat src else 0
      zcpArrive s { tr := if v6 then 2 else 1, addr := words, port := numAt f.bytes o 2, via := f.port, mac := numAt f.bytes 6 6 } data
    else s
  | none => s

/-- The copies of R317. PTP messages reach the time system as commands of their own; redundancy supervision keeps nothing. -/
def internalCopies (s : State) (f : RxFrame) : State :=
  let p := parse s f.bytes
  match p.cls with
  | 2 => arpAnswer s f p.l3
  | 4 => ndAnswer s f p.l3
  | 13 => if p.frag.isSome then s else zcpCopy s f p
  | _ => s

/-! ## The end of a frame (R310, R312, R313, R325) -/

/-- A frame that ends bad: dropped and counted; what is being cut through ends with the inverse FCS; its key is withdrawn from the
duplicate window (R310, R323, R357). -/
def badEnd (s : State) (f : RxFrame) : State :=
  let s := incSat s (CLS_P_RXDROP.CNT f.port) CLS_STAT.CNT_OVF
  let s := (f.cuts.map (· % 4)).foldl (fun s q =>
    updEgr s q fun x => if (x.tx.map fun t => t.2.1.tc) == some (some (f.port, f.stamp)) then { x with cutBad := true } else x) s
  let s := match (if f.dup then none else if redMode s (f.port / 2) == 2 then (parse s f.bytes).hsr else none) with
    | some seq => dupForget s (f.port / 2) (dupKey f.bytes seq)
    | none => s
  let s := updPay s f.port fun l => l.map fun g => if g.stamp == f.stamp && g.dec.isNone then { g with fcs := some false } else g
  match f.dec with
  | some _ => landFrame s f false
  | none => s

/-- The frame waits for its pattern scan (R323, R328). -/
def payWaits (s : State) (f : RxFrame) : Bool :=
  (nth [] s.cls.pay f.port).any fun g => g.stamp == f.stamp && g.dec.isNone

/-- A good frame that is no duplicate: copies, ring, then its actions, now or when its scan completes, or the pause buffer (R317,
R325, R329). -/
def goodLands (s : State) (f : RxFrame) : State :=
  let s := ringStore (internalCopies s f) f
  match f.dec with
  | some _ => landFrame s f true
  | none =>
    if payWaits s f then
      updPay s f.port fun l => l.map fun g => if g.stamp == f.stamp && g.dec.isNone then { f with fcs := some true } else g
    else if pausedPort s f.port then
      if (s.cls.held.map fun g => g.bytes.length).sum + f.bytes.length ≤ 262144 then
        { s with cls := { s.cls with held := s.cls.held ++ [{ f with fcs := some true }] } }
      else setF (incSat s (CLS_P_PCNT.PAUSEDROP f.port) CLS_STAT.CNT_OVF) CLS_STAT.PAUSE_DROP 1
    else judgeAndLand s { f with fcs := some true }

/-- A good frame ends: what the duplicate window of a PRP pair makes of it (R313). -/
def goodEnd (s : State) (f : RxFrame) : State :=
  let s := incWrap s (CLS_P_RXOK.CNT f.port)
  let pair := f.port / 2
  if f.dup then s
  else match (if redMode s pair == 1 then rctSeq f.bytes else none) with
    | some seq =>
      let k := dupKey f.bytes seq
      if (nth [] s.cls.dup pair).contains k then
        updPay (incSat s (CLS_P_DUPDISC.CNT f.port) CLS_STAT.CNT_OVF) f.port fun l =>
          l.map fun g => if g.stamp == f.stamp && g.dec.isNone then { g with fcs := some false } else g
      else goodLands (dupEnter s pair k) f
    | none => goodLands s f

/-- FRAME_END (R310, R312, R313, R317, R323, R325 to R327, R329 to R336): the last FCS byte of the frame in flight. -/
def execFrameEnd (port : Nat) (fcsOk : Bool) (s : State) : Host.Outcome State Fault Refusal :=
  .next (match nth none s.cls.flight port with
    | none => s
    | some f =>
      let s := setFlight s port none
      if !rxOn s port then s
      else if fcsOk && decide (60 ≤ f.bytes.length) && decide (f.bytes.length ≤ 1522) && !isPause f.bytes then goodEnd s f
      else badEnd s f)

/-- PAYLOAD_SCAN_DONE (R327, R328): the scan of the oldest frame of a port completes. A frame that waited is decided; it lands
when its FCS is known to be good. -/
def execPayloadScanDone (port : Nat) (s : State) : Host.Outcome State Fault Refusal :=
  .next (if !rxOn s port then s
    else match nth [] s.cls.pay port with
    | [] => s
    | f :: _ =>
      let s := updPay s port (List.drop 1)
      if f.dec.isSome then s
      else
        let p := parse s f.bytes
        let s := checkPats (checkRules s f.bank)
        match verdict s f p (some (patFound (scanSet s) f.bytes)) with
        | none => s
        | some v =>
          let (f, s) := decideFrame s f p v f.fcs.isNone
          match f.fcs, nth none s.cls.flight port with
          | some good, _ => landFrame s f good
          | none, some g => if g.stamp = f.stamp then setFlight s port (some f) else s
          | none, none => s)

/-- PAUSE_DRAIN_DONE (R329 step 2): the payload engines have finished every frame with the old set. -/
def execPauseDrainDone (s : State) : Host.Outcome State Fault Refusal :=
  .next (match s.cls.pause with
    | some (ports, 1) =>
      if s.cls.pay.all List.isEmpty then { s with cls := { s.cls with pause := some (ports, 2) } } else s
    | _ => s)

/-- PATTERN_LOAD_DONE (R329 steps 3 and 4): the new set is loaded, and the held frames are judged first, in arrival order. -/
def execPatternLoadDone (s : State) : Host.Outcome State Fault Refusal :=
  .next (match s.cls.pause with
    | some (_, 2) =>
      let held := s.cls.held
      let s := { s with cls := { s.cls with pause := none, oldPats := [], held := [] } }
      held.foldl judgeAndLand s
    | _ => s)

/-- DUP_ENTRY_FORGET (R313): CLS_RED.FORGET ms after it entered, an entry leaves its window. -/
def execDupEntryForget (pair : Nat) (src : Nat) (seq : Nat) (s : State) : Host.Outcome State Fault Refusal :=
  .next (if absent s then s else dupForget s pair (src, seq))

/-- TADPOLE_EXPIRY (R330, R331): the timer of entry i expires; the entry is freed, and frames that waited are discarded. -/
def execTadpoleExpiry (i : Nat) (s : State) : Host.Outcome State Fault Refusal :=
  .next (if absent s then s
    else match s.cls.tad[i]? with
    | none => s
    | some e =>
      let s := { s with cls := { s.cls with tad := s.cls.tad.eraseIdx i } }
      if e.held.isEmpty then s else addSat s CLS_TADCNT1.ORPH_TMO CLS_STAT.CNT_OVF e.held.length)

/-- PORT_LINK_CHANGE (R605, Table 11.10): the PHY reports link and speed. On a bank strapped to 3.3 V in-band status of 1,000 Mbit/s
leaves LINK 0. -/
def execPortLinkChange (port : Nat) (up : Bool) (spd : Nat) (s : State) : Host.Outcome State Fault Refusal :=
  .next (if !rxOn s port then s
    else
      let fixed := getF s (CLS_P_CFG.SPEED port)
      let use := if fixed = 0 then spd % 4 else fixed
      let no := fixed == 0 && spd % 4 == 3 && bitOf s.pins.vsel (if port < 2 then 1 else 2)
      if up && !no then setFs s [(CLS_P_PSTAT.LINK port, 1), (CLS_P_PSTAT.SPD port, use)]
      else setF s (CLS_P_PSTAT.LINK port) 0)

end Sys2Proof.Machine
end

