-- ==== Sys2Proof/Machine/Cycle.lean ====
section
/-!
DEFINITION. A core cycle (log entry 7, DESIGN CHOICE): what ends with the present cycle, the clocks, what comes due in the next; and the
commands by which the engine, the scheduler and the TMU act in a cycle (spec/04_move_engine.md, spec/06_units.md,
spec/08_scan_and_image.md).
-/

namespace Sys2Proof.Machine

open Reg

/-! ## The end of a cycle -/

/-- The operations whose last cycle this is end, oldest first, and the micro-move of the cycle acts (R160, R198). -/
def endOps (s : State) : State :=
  let due := s.core.ops.filter fun p => p.fire + p.lat == s.core.cyc + 1
  let s := due.foldl (fun s p => match s.core.ops.find? (sameOp p) with
    | some q => opComplete s q
    | none => s) s
  if due.any fun p => match p.act with | .custom _ => true | _ => false then s else macStep s

/-- The TMU events of this cycle fire, in slot order (R57, R181; case 1 of chapter 6). -/
def tmuAll (s : State) : State :=
  (List.range 32).foldl (fun s i => if tmuDue s i then tmuFire s i (tmuStepped s i) else s) s

/-- The sweep visits a cell; it yields to an access of a Gecko unit in the same cycle (R168). -/
def sweepCell (s : State) (cell : Nat) : State :=
  let c := timerCell s cell
  if s.core.firedNow.contains (cellMark cell 5) || s.core.firedNow.contains (cellMark cell 6) then s
  else if c.1 = 2 ∧ 2 ^ 31 ≤ (timebase s + 2 ^ 32 - c.2) % 2 ^ 32 then setCell s cell (3, c.2)
  else s

/-- Cycles in which a trigger waits, or a full fast queue holds one (R117, R119, R188, R629). -/
def endStalls (s : State) : State :=
  let s := if s.core.waiting.isEmpty then s else structStall s
  if !s.core.fastWait.isEmpty || s.core.firedNow.contains roomMark then incStop s CORE_FOSTAT.STALL else s

/-- The system bits that guards of a run are aliased to. -/
def aliased (s : State) : List Nat := (s.core.gal.flatten.filter fun a => decide (0x30000 ≤ a) && decide (a < 0x40000)).eraseDups

/-- Aliased system bits that have changed in this cycle count as written in it (R108, R109; log entry 134, DEDUCED). -/
def noteSys (s : State) : State :=
  let l := aliased s
  let on := l.filter (sysBit s)
  let s := l.foldl (fun s a => if on.contains a == s.core.sysSeen.contains a then s else logBit s a) s
  { s with core := { s.core with sysSeen := on } }

/-- What ends with the present cycle. A replica takes what its partner's cycle brought: before the ends of operations and runs, or with
them (R289). -/
def endOfCycle (s : State) : State :=
  let s := gateTick (replayDue (fun e => !endsCycle e) s)
  let s := { s with scan := { s.scan with sel := selected s } }
  let s := replayDue endsCycle (endRuns (endOps (copyAll s)))
  let s := if s.mode == .takeover then dropUncommitted s else s
  let s := sweepCell (tmuAll s) (s.core.cyc % 1024)
  noteSys (endStalls (if domOn s 2 then hubFrames s else s))

/-- The present cycle ends and the next begins, up to what stands at its start: halt causes are taken at the end of the cycle (R78), the
clocks advance, the replay counter moves on, operations in flight read. -/
def nextCycle (s : State) : State :=
  let s := setF (clockAdvance (settle (trcCycle (endOfCycle s)))) CORE_STAT.ISSUING 0
  let s := replayDue extEvent (replayAdvance (takeoverDue s))
  let s := { s with scan := { s.scan with
    stnStart := s.sp.bits.filter fun p => decide (0x20000 ≤ p.1) && decide (p.1 < 0x30000) } }
  captureAll s

/-- The present core cycle ends and the next begins, with all that comes due in it (log entry 7, DESIGN CHOICE). -/
def coreCycle (s : State) : State :=
  if !domOn s 2 then clockAdvance (trcCycle (gateTick s))
  else
    let b := nextCycle s
    startFire b (fun _ => false) b

/-- Cycles pass. -/
def passCycles : Nat → State → State
  | 0, s => s
  | n + 1, s => passCycles n (coreCycle s)

/-! ## Bundles (R94, R115 to R117) -/

/-- The bundle of the cycle that begins with a state, if a context issues one in it: `b` is that state. -/
def issueIn (b : State) : State :=
  match (if mayIssue b then issuing b else none) with
  | none => startFire b (fun _ => false) b
  | some t =>
    let pc := nth 0 b.core.pcs t
    match fetchBundle b pc with
    | (none, s) => startFire b (fun _ => false) s
    | (some ws, s) => present b s { task := t, bank := b2n (isSet s CORE_BANK.ACTIVE), pc := pc, slot := 0 } ws

/-- BUNDLE_ISSUE (R94): a new core cycle begins, and the selected context issues a bundle in it. `parity` is a parity error in
a tracker entry, which halts at the end of that cycle (R78, R116). -/
def execBundleIssue (parity : Bool) (s : State) : Host.Outcome State Fault Refusal :=
  .next (if !mayIssue s then s
    else
      let b := nextCycle s
      issueIn (if parity then halt b 5 else b))

/-! ## Resolution and waiting triggers (R110 to R113, R117, R119) -/

/-- DEFERRED_RESOLUTION (R110, R111): the cycles up to the resolution of a deferred move pass; in the last of them every move that
resolves in it lands, fires or is cancelled. -/
def execDeferredResolution (i : Nat) (s : State) : Host.Outcome State Fault Refusal :=
  .next (match s.core.deferred[i]? with
    | none => s
    | some d => if !domOn s 2 then s else passCycles (min (d.res - s.core.cyc) 64) s)

/-- WAITING_TRIGGER_FIRE (R117, R119, R629): a trigger that waits fires in the first cycle in which its unit is free and no earlier one
waits for it: in this one, or the present cycle passes. -/
def execWaitingTriggerFire (i : Nat) (s : State) : Host.Outcome State Fault Refusal :=
  .next (match s.core.waiting[i]? with
    | none => s
    | some d =>
      if !domOn s 2 then s
      else if engineOn s && unitFree s d && !(s.core.waiting.take i).any (sameQueue s d) then
        fireTrig s { s with core := { s.core with waiting := s.core.waiting.eraseIdx i } } d
      else coreCycle s)

/-- Core cycles pass until an operation has ended, which yields may put off (R160, R184). -/
def passOp : Nat → PendOp → State → State
  | 0, _, s => s
  | n + 1, p, s => if s.core.ops.any (sameOp p) then passOp n p (coreCycle s) else s

/-- OPERATION_RESULT (R160): operation i of those in flight reaches the end of its latency. -/
def execOperationResult (i : Nat) (s : State) : Host.Outcome State Fault Refusal :=
  .next (match s.core.ops[i]? with
    | none => s
    | some p => if domOn s 2 then passOp 8192 p s else s)

/-! ## Timer sweep, TMU events (R168, R180) -/

/-- TIMER_SWEEP (R168): the sweep visits the cell of the present cycle, and no other. -/
def execTimerSweep (cell : Nat) (s : State) : Host.Outcome State Fault Refusal :=
  .next (if domOn s 2 && cell == s.core.cyc % 1024 then sweepCell s cell else s)

/-- TMU_EVENT_FIRE (R57, R180, R181): a pending event's angle or instant is reached by the end of this cycle. -/
def execTmuEventFire (slot : Nat) (s : State) : Host.Outcome State Fault Refusal :=
  .next (if domOn s 2 && decide (slot < 32) && tmuDue s slot then tmuFire s slot (tmuStepped s slot) else s)

/-- TMU_FASTOUT_ENQUEUE (R180, R192): the first TMU FASTOUT action that waits and whose companion's queue has room enters it. -/
def execTmuFastoutEnqueue (s : State) : Host.Outcome State Fault Refusal :=
  .next (if domOn s 2 then fastDrain s else s)

/-! ## Replay (R289) -/

/-- REPLAY_EVENT (R289): the next received event is replayed when RCYC has reached its primary cycle; until then, and up to the end of
the cycle that brings an END, a commit or a MARK, a cycle passes. -/
def execReplayEvent (s : State) : Host.Outcome State Fault Refusal :=
  .next (match s.sby.events with
    | [] => s
    | e :: rest =>
      if !replica s then s
      else if e.1 ≤ s.sby.rcyc ∧ !endsCycle e.2 then replayOne { s with sby := { s.sby with events := rest } } e.1 e.2
      else coreCycle s)

/-! ## Freeze (R215) -/

/-- TASK_FREEZE (R215, R221): the task that the scheduler has selected in the cycle before freezes; one that it selects in the present
cycle freezes in the next. -/
def execTaskFreeze (task : Nat) (s : State) : Host.Outcome State Fault Refusal :=
  .next (if !(s.mode == .run || s.mode == .runEdit) || !waits s task then s
    else if s.scan.sel == some task then freeze s task
    else if selected s == some task then
      let s := coreCycle s
      if waits s task && (s.mode == .run || s.mode == .runEdit) then freeze s task else s
    else s)

end Sys2Proof.Machine
end

