-- ==== Sys2Proof/Machine/Ptp.lean ====
section
/-!
DEFINITION. PTP on P0 to P3 (spec/02_two_clocks.md, R29 to R31): messages received, the ordinary clock as master, the
peer-delay measurement.
-/

namespace Sys2Proof.Machine

open Reg

/-- The corrected ingress stamp of a message: raw stamp minus ING_LAT, minus what its correctionField adds (R27, R32). -/
def ptpStamp (s : State) (p : Nat) (m : PtpMsg) : Nat := rawStamp s m.stamp - getF s (TIM_PORTLAT.ING_LAT p) * nsUnit

/-- A message of the port's domain acts (R29, R30). -/
def ptpMessage (s : State) (p : Nat) (m : PtpMsg) : State :=
  let q := nth PtpPort.init s.time.ptp p
  let t := ptpStamp s p m
  match m.kind with
  | 0 => ptpAnnounce s p m
  | 1 => if m.twoStep then updPtp s p fun q => { q with twoStep := some (m.seq, ((t : Int) - m.corr).toNat) }
    else ptpOffset s p m.origin m.corr t
  | 2 => match q.twoStep with
    | some (seq, t') => if seq = m.seq then ptpOffset s p m.origin m.corr t' else s
    | none => s
  | 3 => ptpSend s p 3 m.seq true t
  | 4 => match q.pdelay with
    | some (seq, t1) =>
      if seq ≠ m.seq then s
      else if m.twoStep then updPtp s p fun q => { q with resp := some (m.origin, ((t : Int) - m.corr).toNat) }
      else ptpDelay s p ((t : Int) - t1) m.corr
    | none => s
  | 5 => match q.pdelay, q.resp with
    | some (seq, t1), some (t2, t4) =>
      if seq ≠ m.seq then s else ptpDelay s p ((t4 : Int) - t1) ((m.origin : Int) - t2 + m.corr)
    | _, _ => s
  | _ => s

/-- PTP_MESSAGE_RX (R29, R30, R36, R42, R44). -/
def execPtpMessageRx (port : Nat) (msg : PtpMsg) (s : State) : Host.Outcome State Fault Refusal :=
  .next (if port < 4 && srcOn s port && portOn s port && !testing s 7 && msg.domain == getF s (TIM_SRC_CFG.DOMAIN port) &&
        msg.udp == isSet s (TIM_SRC_CFG.TRANSPORT port) then
      ptpMessage s port msg
    else s)

/-- PTP_MASTER_SEND (R31): an Announce or a two-step Sync, on a MASTER_OK port, while the active source is not PTP. The election
of the profile's best-master algorithm is what the command reports. -/
def execPtpMasterSend (port kind : Nat) (s : State) : Host.Outcome State Fault Refusal :=
  .next (if port < 4 && srcOn s port && portOn s port && isSet s (TIM_SRC_CFG.MASTER_OK port) &&
        decide (4 ≤ getF s TIM_STAT.ACTIVE_SRC) then
      let (seq, s) := drawFree s
      if kind = 0 then ptpSend s port 11 (seq % 65536) false s.time.tai
      else ptpSend s port 0 (seq % 65536) true s.time.tai
    else s)

/-- PEER_DELAY_REQUEST (R29). -/
def execPeerDelayRequest (port : Nat) (s : State) : Host.Outcome State Fault Refusal :=
  .next (if port < 4 && srcOn s port && portOn s port then
      let (seq, s) := drawFree s
      ptpSend s port 2 (seq % 65536) false s.time.tai
    else s)

end Sys2Proof.Machine
end

