-- ==== Sys2Proof/Machine/Scrub.lean ====
section
/-!
DEFINITION. The rolling scrub of the checked memories and the write-back of corrected locations (spec/03_modes.md, R84 to R86;
spec/05_bits_and_tagged_words.md, R151 to R153; spec/07_decode_table.md, R212; spec/11_ingress_classifier.md, R339;
spec/12_egress_shaper.md, R367).
-/

namespace Sys2Proof.Machine

open Reg

/-- Place of a scrubbed memory in SYS_MODE's list of positions, and its number of locations: move words, table words, words, rows of
64 bits, rules, gate-list words (R84). -/
def scrubMem : MemId → Option (Nat × Nat)
  | .bankA => some (0, 524288)
  | .bankB => some (1, 524288)
  | .dtable => some (2, 2304)
  | .words => some (3, 524288)
  | .bits => some (4, 16384)
  | .rules => some (5, 2048)
  | .gates => some (6, 2048)
  | _ => none

/-- The key under which a location's check bits are held: rows of the bit space go by their first bit. -/
def scrubLoc (m : MemId) (pos : Nat) : Nat := if m = .bits then 64 * pos else pos

/-- What scrub finds: the worse of what the location holds and what the command reports. -/
def worse : Ecc → Ecc → Ecc
  | .uncorrectable, _ => .uncorrectable
  | _, .uncorrectable => .uncorrectable
  | .correctable, _ => .correctable
  | _, .correctable => .correctable
  | .clean, .clean => .clean

/-- A location keeps an uncorrectable error until it is rewritten. -/
def keepUpset (s : State) (m : MemId) (loc : Nat) : State :=
  { s with sp := { s.sp with upsets := ((m, loc), .uncorrectable) :: s.sp.upsets.filter fun p => p.1 != (m, loc) } }

/-- What becomes of a location with an uncorrectable error (R85, R152, R153, R212, R339, R367). -/
def scrubBad (s : State) (m : MemId) (loc : Nat) : State :=
  let k := loc / 8
  let add (l : List Nat) : List Nat := if l.contains k then l else k :: l
  match m with
  | .bankA => raise { keepUpset s m loc with core := { s.core with badA := add s.core.badA } } SYS_SCRUBCNT.UNCORR
  | .bankB => raise { keepUpset s m loc with core := { s.core with badB := add s.core.badB } } SYS_SCRUBCNT.UNCORR
  | .dtable => raise (markEntry (keepUpset s m loc) (loc / 36)) SYS_SCRUBCNT.UNCORR
  | .words =>
    let s := eccUncorrWord s 3 loc
    if mayWrite s (2 * loc + 1) rankScrub then putWord (eccClear (noteWrite s (2 * loc + 1) rankScrub) m loc) loc (poisonEcc loc) else s
  | .bits => eccClear (eccUncorrRow s 3 loc) m loc
  | .rules => clsEcc (eccClear s m loc) false loc
  | .gates =>
    let p := loc / 512
    let s := updEgr (eccClear s m loc) p fun x => { x with gclBad := true, gates := 0xFF }
    let s := if isSet s EGR_ECCREC.VALID then s
      else setFs s [(EGR_ECCREC.VALID, 1), (EGR_ECCREC.PUB, 0), (EGR_ECCREC.PORT, p)]
    setRaise s EGR_STAT.GCL_ECC 1
  | _ => s

/-- The position of scrub in a memory moves on; the end of a pass over the word space is timed (R84, R86). -/
def scrubNext (s : State) (m : MemId) (i n : Nat) : State :=
  let pos := nth 0 s.ms.scrubPos i + 1
  let done := decide (n ≤ pos)
  let s' := { s with ms := { s.ms with scrubPos := s.ms.scrubPos.set i (if done then 0 else pos) } }
  if done && m == .words then
    setF { s' with ms := { s'.ms with scrubTime := 0 } } SYS_SCRUBPASS.US (min (2 ^ 32 - 1) (s.ms.scrubTime / 400))
  else s'

/-- Another requester uses the word memory in this cycle: scrub comes last (R84, R184). -/
def wordsHeld (s : State) : Bool := wordsTaken s || s.core.ops.any (copying s)

/-- Scrub may use a memory in this cycle: PACE cycles have passed since its last access, and the core does not use it (R84). -/
def scrubFree (s : State) (m : MemId) (i : Nat) : Bool :=
  (match nth none s.ms.scrubLast i with
    | some c => decide (c + getF s SYS_SCRUB.PACE < s.core.cyc) || decide (s.core.cyc < c)
    | none => true) && !(m == .words && wordsHeld s)

/-- SCRUB_ACCESS (R84 to R86): the next location of a memory is read and checked; `found` is what its check bits say beyond what the
model holds. -/
def execScrubAccess (m : MemId) (found : Ecc) (s : State) : Host.Outcome State Fault Refusal :=
  .next (match scrubMem m with
    | none => s
    | some (i, n) =>
      if !scrubRuns s || !scrubFree s m i then s
      else
        let loc := scrubLoc m (nth 0 s.ms.scrubPos i)
        let s := { s with ms := { s.ms with scrubLast := s.ms.scrubLast.set i (some s.core.cyc) } }
        let s := if m = .words then useWords s else s
        let s := scrubNext s m i n
        match worse (eccAt s m loc) found with
        | .clean => s
        | .correctable =>
          let s := incSat (eccClear s m loc) SYS_SCRUBCNT.CORR SYS_SCRUB.CORR_OVF
          if isSet s CORE_ECCCTL.CORR_EVT then raise s SYS_SCRUBCNT.CORR else s
        | .uncorrectable => scrubBad (incSat s SYS_SCRUBCNT.UNCORR SYS_SCRUB.UNCORR_OVF) m loc)

/-- ECC_WRITE_BACK (R151): a corrected location is rewritten in a cycle in which no other requester uses its memory, unless a real write
has landed first. -/
def execEccWriteBack (m : MemId) (loc : Nat) (s : State) : Host.Outcome State Fault Refusal :=
  .next (if s.sp.writeBack.contains (m, loc) && !(m == .words && wordsHeld s) then eccClear s m loc else s)

/-! ## Flipped bits (R150) -/

/-- The checked memories by number: their domain, and the key of the location that holds place `l`. -/
def softMem (n l : Nat) : Option (MemId × Nat × Nat) :=
  match n with
  | 0 => some (.bankA, 4, l % 524288)
  | 1 => some (.bankB, 4, l % 524288)
  | 2 => some (.dtable, 4, l % 2304)
  | 3 => some (.words, 3, l % 524288)
  | 4 => some (.bits, 3, 64 * (l % 16384))
  | 5 => some (.rules, 5, l % 2048)
  | 6 => some (.gates, 6, l % 2048)
  | 7 => some (.planeW, 3, l % 131072)
  | 8 => some (.planeB, 3, 64 * (l % 8192))
  | _ => none

/-- Bits flip in a memory that holds its contents: its domain is on, and the retentive region lies on D0 (R150, R155). -/
def softError (s : State) (e : Nat × Nat × Nat × Nat) : State :=
  match softMem e.1 e.2.1 with
  | none => s
  | some (m, d, loc) =>
    if domOn s d || (m == .words && decide (0x7E000 ≤ loc)) || (m == .bits && decide (0xF0000 ≤ loc)) then upset s m loc e.2.2.1 e.2.2.2
    else s

/-- The bits that flip in one cycle. -/
def softErrors (s : State) : State :=
  let s' := (Config.softErrors s.freeCtr).foldl softError s
  { s' with freeCtr := s.freeCtr + 1 }

end Sys2Proof.Machine
end

