-- ==== Sys2Proof/Machine/ZcpForm.lean ====
section
/-!
DEFINITION. The form of ZCP commands (spec/18_command_protocol.md, R517 to R521): opcodes, classes, the parameters read from a
packet, and what the journal records of them (R528).
-/

namespace Sys2Proof.Machine

open Reg

/-- The classes of Table 3.4. -/
inductive ZClass where
  | q | w | x | p | e | m | n | t | s | z
  deriving DecidableEq, Repr

/-- The opcode of a command (Tables 18.6 and 18.7). -/
def ZOp.code : ZOp → Nat
  | .identify => 0x0001
  | .readReg _ _ => 0x0002
  | .readMem _ _ => 0x0003
  | .stageRead _ _ => 0x0004
  | .opStatus _ => 0x0005
  | .abort _ => 0x0006
  | .journalRead _ _ => 0x0007
  | .eventRead _ _ => 0x0008
  | .sessionOpen => 0x0009
  | .sessionClose => 0x000A
  | .announce _ _ _ _ _ _ => 0x000B
  | .writeReg _ _ => 0x0100
  | .writeMem _ _ => 0x0101
  | .busCancel _ _ => 0x0102
  | .imgWrite _ => 0x0103
  | .begin _ _ => 0x0200
  | .stage _ _ => 0x0201
  | .prepare => 0x0202
  | .commit _ _ _ => 0x0203
  | .rollback _ => 0x0204
  | .undo => 0x0205
  | .sysCommit _ _ _ _ _ _ => 0x0206
  | .sysPrepare _ _ _ _ _ _ _ => 0x0207
  | .sysCommitAt _ _ _ _ _ => 0x0208
  | .sysAbort _ => 0x0209
  | .sysReport _ _ _ => 0x020A
  | .loadBankOpen _ _ _ => 0x0300
  | .loadBankData _ _ => 0x0301
  | .loadBankClose _ => 0x0302
  | .loadDtData _ _ => 0x0303
  | .loadDtClose _ => 0x0304
  | .editBegin _ _ _ _ => 0x0400
  | .editPatch _ _ _ => 0x0401
  | .modeReq _ => 0x0500
  | .handover => 0x0501
  | .nvRead _ _ => 0x0600
  | .nvErase _ _ => 0x0601
  | .nvProgram _ _ => 0x0602
  | .nvImageOpen _ _ _ => 0x0603
  | .nvImageData _ _ => 0x0604
  | .nvImageClose => 0x0605
  | .nvSave => 0x0606
  | .timeSet _ _ _ _ => 0x0700
  | .selftestRun _ => 0x0800
  | .reset => 0x0900

/-- The class of an assigned opcode; COMMIT, ROLLBACK and UNDO are of class E for an edit (R517). -/
def zClass (s : State) (code : Nat) : Option ZClass :=
  if 1 ≤ code ∧ code ≤ 0x000B then some .q
  else if 0x0100 ≤ code ∧ code ≤ 0x0103 then some .w
  else if code = 0x0203 ∨ code = 0x0204 then some (if isSet s TXN_STAT.EDIT then .e else .x)
  else if code = 0x0205 then some (if s.txn.undoEdit then .e else .x)
  else if 0x0200 ≤ code ∧ code ≤ 0x020A then some .x
  else if 0x0300 ≤ code ∧ code ≤ 0x0304 then some .p
  else if code = 0x0400 ∨ code = 0x0401 then some .e
  else if code = 0x0500 ∨ code = 0x0501 then some .m
  else if 0x0600 ≤ code ∧ code ≤ 0x0606 then some .n
  else if code = 0x0700 then some .t
  else if code = 0x0800 then some .s
  else if code = 0x0900 then some .z
  else none

/-- The answer of Table 3.5 for a class in a mode other than HOLD: 0 yes, else BUSY or MODE_REFUSED (R71). -/
def modeAnswer (m : Mode) (c : ZClass) : Nat :=
  if c = .q ∨ c = .z then 0
  else match m with
    | .boot | .selftest | .takeover => 1
    | .stop => if c = .e then 0xA else 0
    | .run | .runEdit => if c = .p ∨ c = .s then 0xA else 0
    | .track | .safeHalt => if c = .p ∨ c = .e ∨ c = .s then 0xA else 0
    | _ => 0xA

/-! ## Parameters -/

/-- Words of 32 bits at an offset, most significant byte first. -/
def wordsFrom (d : List Byte) (o n : Nat) : List Word := (List.range n).map fun i => BitVec.ofNat 32 (numAt d (o + 4 * i) 4)

/-- New-variable ranges at an offset: KIND, START, LEN. -/
def rangesFrom (d : List Byte) (o n : Nat) : List NewVar :=
  (List.range n).map fun i => { isBit := numAt d (o + 9 * i) 1 == 1, start := numAt d (o + 9 * i + 1) 4, len := numAt d (o + 9 * i + 5) 4 }

/-- The parameters of IMG_WRITE (R520). -/
def imgFrom (d : List Byte) : Option ImgWrite :=
  let len := numAt d 20 2
  let isWord := numAt d 15 1 == 1
  let need := if isWord then 5 * len else (len + 7) / 8
  if d.length = 22 + need ∧ numAt d 15 1 ≤ 1 then
    some { sysId := numAt d 0 2, srcStn := numAt d 2 1, epoch := numAt d 3 2, task := numAt d 5 1, scan := numAt d 6 8,
           map := numAt d 14 1, isWord := isWord, daddr := numAt d 16 4, len := len,
           bits := if isWord then [] else (List.range len).map fun i => bitOf (numAt d (22 + i / 8) 1) (i % 8),
           words := if isWord then (List.range len).map fun i =>
             ⟨BitVec.ofNat 4 (numAt d (22 + 5 * i) 1), BitVec.ofNat 32 (numAt d (23 + 5 * i) 4)⟩ else [] }
  else none

/-- The command of an opcode and its parameters; none when the parameters do not have the form of Table 18.6 or 18.7. -/
def ZOp.parse (code : Nat) (d : List Byte) : Option ZOp :=
  let n := d.length
  let u (o w : Nat) : Nat := numAt d o w
  let fit (k : Nat) (op : ZOp) : Option ZOp := if n = k then some op else none
  match code with
  | 0x0001 => fit 0 .identify
  | 0x0002 => fit 6 (.readReg (u 0 4) (u 4 2))
  | 0x0003 => fit 6 (.readMem (u 0 4) (u 4 2))
  | 0x0004 => fit 6 (.stageRead (u 0 4) (u 4 2))
  | 0x0005 => fit 2 (.opStatus (u 0 2))
  | 0x0006 => fit 2 (.abort (u 0 2))
  | 0x0007 => fit 5 (.journalRead (u 0 4) (u 4 1))
  | 0x0008 => fit 5 (.eventRead (u 0 4) (u 4 1))
  | 0x0009 => fit 0 .sessionOpen
  | 0x000A => fit 0 .sessionClose
  | 0x000B => fit 16 (.announce (u 0 1) (u 1 2) (u 3 4) (u 7 1) (u 8 2) (u 10 6))
  | 0x0100 => fit (6 + 4 * u 4 2) (.writeReg (u 0 4) (wordsFrom d 6 (u 4 2)))
  | 0x0101 => fit (6 + u 4 2) (.writeMem (u 0 4) (d.drop 6))
  | 0x0102 => fit 2 (.busCancel (u 0 1) (u 1 1))
  | 0x0103 => (imgFrom d).map .imgWrite
  | 0x0200 => fit 5 (.begin (u 0 1) (u 1 4))
  | 0x0201 => fit (6 + 4 * u 4 2) (.stage (u 0 4) (wordsFrom d 6 (u 4 2)))
  | 0x0202 => fit 0 .prepare
  | 0x0203 => fit 9 (.commit (u 0 1) (u 1 4) (u 5 4))
  | 0x0204 => fit 1 (.rollback (u 0 1))
  | 0x0205 => fit 0 .undo
  | 0x0206 => fit 49 (.sysCommit (u 0 4) (u 4 1) (u 5 4) (u 9 4) (u 13 4) ((d.drop 17).map (·.toNat)))
  | 0x0207 => fit 23 (.sysPrepare (u 0 4) (u 4 2) (u 6 4) (u 10 1) (u 11 4) (u 15 4) (u 19 4))
  | 0x0208 => fit 17 (.sysCommitAt (u 0 4) (u 4 1) (u 5 4) (u 9 4) (u 13 4))
  | 0x0209 => fit 4 (.sysAbort (u 0 4))
  | 0x020A => fit 6 (.sysReport (u 0 4) (u 4 1) (u 5 1))
  | 0x0300 => fit 7 (.loadBankOpen (u 0 1) (u 1 2) (u 3 4))
  | 0x0301 => fit (3 + 32 * u 2 1) (.loadBankData (u 0 2) (wordsFrom d 3 (8 * u 2 1)))
  | 0x0302 => fit 1 (.loadBankClose (u 0 1))
  | 0x0303 => fit (2 + 144 * u 1 1) (.loadDtData (u 0 1) (wordsFrom d 2 (36 * u 1 1)))
  | 0x0304 => fit 2 (.loadDtClose (u 0 2))
  | 0x0400 => fit 8 (.editBegin (u 0 1) (u 1 1) (u 2 2) (u 4 4))
  | 0x0401 =>
    let k := 4 + 32 * u 2 1
    if (List.range (u 3 1)).all fun i => u (k + 9 * i) 1 ≤ 1 then
      fit (k + 9 * u 3 1) (.editPatch (u 0 2) (wordsFrom d 4 (8 * u 2 1)) (rangesFrom d k (u 3 1)))
    else none
  | 0x0500 => fit 1 (.modeReq (u 0 1))
  | 0x0501 => fit 0 .handover
  | 0x0600 => fit 6 (.nvRead (u 0 4) (u 4 2))
  | 0x0601 => fit 8 (.nvErase (u 0 4) (u 4 4))
  | 0x0602 => fit (6 + u 4 2) (.nvProgram (u 0 4) (d.drop 6))
  | 0x0603 => fit 9 (.nvImageOpen (u 0 1) (u 1 4) (u 5 4))
  | 0x0604 => fit (6 + u 4 2) (.nvImageData (u 0 4) (d.drop 6))
  | 0x0605 => fit 0 .nvImageClose
  | 0x0606 => fit 0 .nvSave
  | 0x0700 => fit 14 (.timeSet (u 0 2) (u 2 4) (u 6 4) (u 10 4))
  | 0x0800 => fit 1 (.selftestRun (u 0 1))
  | 0x0900 => fit 0 .reset
  | _ => none

/-- The first and second parameter of 32 bits of a command, each 0 where absent (R528). -/
def ZOp.params : ZOp → Nat × Nat
  | .readReg a _ | .readMem a _ | .stageRead a _ | .journalRead a _ | .eventRead a _ => (a, 0)
  | .announce _ _ c _ _ _ => (c, 0)
  | .writeReg a ws | .stage a ws => (a, (ws.headD 0).toNat)
  | .writeMem a _ => (a, 0)
  | .imgWrite w => (w.daddr, 0)
  | .begin _ x => (x, 0)
  | .commit _ a b => (a, b)
  | .sysCommit x _ t _ _ _ => (x, t)
  | .sysPrepare x _ c _ _ _ _ => (x, c)
  | .sysCommitAt x _ t _ _ => (x, t)
  | .sysAbort x | .sysReport x _ _ => (x, 0)
  | .loadBankOpen _ _ c => (c, 0)
  | .loadBankData _ ws | .loadDtData _ ws => ((nth 0 ws 0).toNat, (nth 0 ws 1).toNat)
  | .editBegin _ _ _ c => (c, 0)
  | .editPatch _ ws rs =>
    match ws, rs with
    | a :: b :: _, _ => (a.toNat, b.toNat)
    | _, r :: _ => (r.start, r.len)
    | _, _ => (0, 0)
  | .nvRead a _ | .nvProgram a _ | .nvImageData a _ => (a, 0)
  | .nvErase a n => (a, n)
  | .nvImageOpen _ n c => (n, c)
  | .timeSet _ lo ns _ => (lo, ns)
  | _ => (0, 0)

/-- OBJECT and DETAIL of a command's journal entry (R528). -/
def journalParams (s : State) (code : Nat) (op : Option ZOp) : Nat × Nat :=
  let p := (op.map ZOp.params).getD (0, 0)
  if (0x0200 ≤ code ∧ code ≤ 0x0206) ∨ code = 0x0400 ∨ code = 0x0401 then (getF s TXN_ID.ID, p.1) else p

/-- The largest packet of a transport (Table 18.1). -/
def packetLimit (tr : Nat) : Nat :=
  match tr with
  | 1 => 1472
  | 2 => 1452
  | 6 => 1024
  | _ => 2048

/-- Reply data bytes of a command whose reply can be long (R506). -/
def ZOp.replyLen : ZOp → Nat
  | .readReg _ n | .stageRead _ n => 4 * n
  | .readMem _ n | .nvRead _ n => n
  | .journalRead _ n => 5 + 64 * n
  | .eventRead _ n => 5 + 32 * n
  | _ => 0

end Sys2Proof.Machine
end

