-- ==== Sys2Proof/Machine/Zcp.lean ====
section
/-!
DEFINITION. The Zhesko Command Protocol (spec/18_command_protocol.md): packets on their transports, sessions and sequence numbers,
the request checks, every command of Tables 18.6 and 18.7, long operations, announcements.
-/

namespace Sys2Proof.Machine

open Reg

/-! ## Packets on their transports (R506, R507, R512, R523) -/

/-- A reply or notice over UDP leaves on the port where its request arrived (R507). -/
def udpOut (s : State) (p : Peer) (bytes : List Byte) : State :=
  let v6 := p.tr == 2
  let dst := if v6 then p.addr.flatMap (beBytes 4) else beBytes 4 (nth 0 p.addr 0)
  sysSend s (2 ^ p.via) (udpFrame s p.mac (ownIp s v6) dst v6 47121 p.port bytes) false true

/-- The replies and notices that wait for a transport other than SPI leave; over SBL only while the transmit buffer has room (R275). -/
def flushOut (s : State) : State :=
  s.zcp.outbox.foldl (fun s k =>
    match k.peer.tr with
    | 1 | 2 => udpOut s k.peer k.bytes
    | 4 => canSendZcp s 0 (nth 0 k.peer.addr 0) k.bytes
    | 5 => canSendZcp s 1 (nth 0 k.peer.addr 0) k.bytes
    | 6 =>
      if !zcpLink s then s
      else if txRoom s (.zcp k.bytes) then pushSeq s (.zcp k.bytes)
      else { s with zcp := { s.zcp with outbox := s.zcp.outbox ++ [k] } }
    | _ => s) { s with zcp := { s.zcp with outbox := [] } }

/-- A transport serves ZCP now: its enable holds, and the domains that receive it are on (R72, R92, Table 18.1). -/
def served (s : State) (tr : Nat) : Bool :=
  (tr == 3 || s.mode != .boot || s.ms.bootLoaded) && match tr with
    | 1 | 2 => isSet s ZCP_CFG.UDP_EN && domOn s 6 && domOn s 7
    | 3 => true
    | 4 => isSet s (CAN_ZCP_RX.EN 0) && domOn s 8
    | 5 => isSet s (CAN_ZCP_RX.EN 1) && domOn s 8
    | 6 => isSet s ZCP_CFG.SBL_EN && zcpLink s
    | _ => false

/-- ZCP_PACKET_RX (R506, R512): a packet within the limit of a transport that serves ZCP. Over SBL it comes in a sequenced frame. -/
def execZcpPacketRx (peer : Peer) (bytes : List Byte) (s : State) : Host.Outcome State Fault Refusal :=
  .next (if absent s then s
    else
      let s := if peer.tr = 6 ∧ zcpLink s then (seqRx s true s.sby.rxSeq).2 else s
      if served s peer.tr && decide (bytes.length ≤ packetLimit peer.tr) then zcpArrive s peer bytes else s)

/-! ## Sessions (R509 to R511) -/

/-- A session closes: its slot and its reply cache are free. -/
def closeSession (s : State) (i : Nat) : State := updSession s i fun x => { x with live := false, high := none, cache := [] }

/-- The next generation of a slot whose session number is neither 0 nor 0xFFFF. -/
def nextGen (g i : Nat) : Nat :=
  let bad (x : Nat) : Bool := x * 16 + i == 0 || x * 16 + i == 0xFFFF
  let a := (g + 1) % 4096
  if bad a then (a + 1) % 4096 else a

/-- A request is being executed: its reply is still to come (case 2). -/
def executing (s : State) (rq : ZReq) : Bool :=
  let same (r : ZReq) : Bool := r.session == rq.session && r.seq == rq.seq
  let job (j : NvJob) : Bool := match j.reply with | some r => same r.rq | none => false
  (match s.nv.holder with | some j => job j | none => false) || s.nv.waiting.any job ||
    (match s.txn.prepReply with | some r => same r | none => false)

/-- The interpreter executes a command whose reply waits for the NV interface (R513). -/
def interpreterBusy (s : State) : Bool :=
  (match s.nv.holder with | some j => j.reply.isSome | none => false) || s.nv.waiting.any fun j => j.reply.isSome

/-- A cached reply with REPLAYED set (R511). -/
def replayed (b : List Byte) : List Byte :=
  let h := b.take (b.length - 4)
  let h := h.take 3 ++ (bytesAt h 3 1).map (· ||| 0x10) ++ h.drop 4
  h ++ beBytes 4 (crc32 h)

/-! ## Reads (R517, R529) -/

/-- The registers of N words from an address: aligned, in the register space, assigned (Table 18.6, R599). -/
def regRange (a n : Nat) : Bool :=
  a % 4 == 0 && 0x40000000 ≤ a && a + 4 * n ≤ 0x40110000 && 1 ≤ n && n ≤ 256 &&
    (List.range n).all fun i => (regFields (a + 4 * i)).isSome

/-- A word of a memory region as READ_MEM returns it; payload and tag come from one access of their word (R130, R134). -/
def memWord (s : State) (a : Nat) : Nat × State :=
  match accJudge s a with
  | some (_, v) => (v, s)
  | none =>
    match placeOf a with
    | .payload w => let (v, s) := readWord s 2 w; (v.val.toNat, s)
    | .tag w => let (v, s) := readWord s 2 w; (v.tag.toNat, s)
    | _ => let (_, v, s) := hostRead s a; (v, s)

/-- Words from an aligned address, by a reader. -/
def wordsRead (read : State → Nat → Nat × State) : Nat → Nat → State → List Nat × State
  | 0, _, s => ([], s)
  | n + 1, a, s =>
    let (v, s) := read s a
    let (vs, s) := wordsRead read n (a + 4) s
    (v :: vs, s)

/-- The aligned words that a range of bytes covers. -/
def coverWords (a n : Nat) : List Nat := (List.range ((a % 4 + n + 3) / 4)).map fun i => a / 4 * 4 + 4 * i

/-- READ_REG. -/
def zReadReg (s : State) (a n : Nat) : ZAns × State :=
  if !regRange a n then (.done 4 [], s)
  else if (List.range n).any fun i => placeTested s (a + 4 * i) then (.done 2 [], s)
  else
    let (vs, s) := wordsRead (fun s a => (hostRead s a).2) n a s
    (.done 0 (vs.flatMap (beBytes 4)), s)

/-- READ_MEM: bytes in host-map order. -/
def zReadMem (s : State) (a n : Nat) : ZAns × State :=
  let ws := coverWords a n
  if n < 4 ∨ 1024 < n ∨ n % 4 ≠ 0 ∨ ws.any fun x => placeOf x == .none then (.done 4 [], s)
  else if ws.any (placeTested s) then (.done 2 [], s)
  else
    let (vs, s) := wordsRead memWord ws.length (a / 4 * 4) s
    (.done 0 (((vs.flatMap leBytes).drop (a % 4)).take n), s)

/-- The value of a register with what is staged of it (R5, R245). -/
def stageValue (s : State) (a : Nat) : Nat :=
  let shadow (f : Fld) : Fld := if isRule f then { f with addr := f.addr % 0x10000 + 0x51000000 + 0x10000 * (1 - clsBank s) } else f
  (((readFields s a).getD []).map fun f =>
    (if f.acc == .rwt then (s.txn.staged.lookup (shadow f)).getD (fieldVal s f) else fieldVal s f) * 2 ^ f.lo).sum

/-- STAGE_READ. -/
def zStageRead (s : State) (a n : Nat) : ZAns × State :=
  if !regRange a n then (.done 4 [], s)
  else if !isSet s TXN_STAT.STATE then (.done 5 [], s)
  else (.done 0 ((List.range n).flatMap fun i => beBytes 4 (stageValue s (a + 4 * i))), s)

/-- The slot that holds a handle (R515). -/
def handleSlot (s : State) (h : Nat) : Option Nat :=
  (List.range 8).find? fun i => (opSlot s i).st != 0 && opHandle s i == h

/-- OP_STATUS: a reading of an ended operation frees its slot. -/
def zOpStatus (s : State) (h : Nat) : ZAns × State :=
  match handleSlot s h with
  | none => (.done 0 (beBytes 6 0), s)
  | some i =>
    let o := opSlot s i
    (.done 0 (beBytes 1 o.st ++ beBytes 1 o.status ++ beBytes 4 o.progress),
      if o.st = 2 then updOp s i fun o => { o with st := 0 } else s)

/-- ABORT (R516). -/
def zAbort (s : State) (rq : ZReq) (h : Nat) : ZAns × State :=
  match handleSlot s h with
  | none => (.done 4 [], s)
  | some i =>
    let o := opSlot s i
    if o.st ≠ 1 then (.done 7 [], s)
    else if [0x0202, 0x0203, 0x0205].contains o.opcode then
      let (c, s) := txnRollback s (ownsTxn s rq.session (rq.peer.tr == 3)) false 3
      (.done c [], s)
    else if o.opcode = 0x0206 then
      if s.txn.coord.isSome ∧ s.txn.coordStep = 1 then (.done 0 [], coordAbort s) else (.done 7 [], s)
    else if 0x0600 ≤ o.opcode ∧ o.opcode ≤ 0x0606 then
      if o.pnr then (.done 7 [], s) else (.done 0 [], nvAbort s i)
    else (.done 7 [], s)

/-- Sequence of the first entry returned, and the entries, oldest first: from the later of FROM and the oldest held (R525, R529). -/
def ringFrom {α : Type} (seq : α → Nat) (ring : List α) (start n : Nat) : Nat × List α :=
  match ring.getLast? with
  | none => (start, [])
  | some o =>
    let first := if newer start (seq o) then start else seq o
    (first, (ring.reverse.drop ((first + 2 ^ 32 - seq o) % 2 ^ 32)).take n)

/-- The bytes of an event entry (R525). -/
def eventBytes (e : EventEntry) : List Byte := [e.seq, e.sec, e.tns, e.reg, e.bitArg, 0, 0, 0].flatMap (beBytes 4)

/-- JOURNAL_READ. -/
def zJournalRead (s : State) (start n : Nat) : ZAns × State :=
  if n < 1 ∨ 16 < n then (.done 4 [], s)
  else
    let (f, es) := ringFrom JournalEntry.seq s.zcp.journal start n
    (.done 0 (beBytes 4 f ++ beBytes 1 es.length ++ es.flatMap journalBytes), s)

/-- EVENT_READ. -/
def zEventRead (s : State) (start n : Nat) : ZAns × State :=
  if n < 1 ∨ 32 < n then (.done 4 [], s)
  else
    let (f, es) := ringFrom EventEntry.seq s.zcp.events start n
    (.done 0 (beBytes 4 f ++ beBytes 1 es.length ++ es.flatMap eventBytes), s)

/-- IDENTIFY. -/
def zIdentify (s : State) : ZAns × State :=
  let (ver, crc) := activePid s
  (.done 0 (beBytes 4 (regVal s SYS_ID.PART.addr) ++ beBytes 4 (regVal s SYS_STATION.STN.addr) ++ beBytes 4 (regVal s SYS_MODE.MODE.addr) ++
    beBytes 4 (regVal s SYS_DIRCRC.CRC.addr) ++ beBytes 2 (getF s CORE_DTVER.VERSION) ++ beBytes 4 (getF s CORE_DTCRC.CRC) ++
    beBytes 2 ver ++ beBytes 4 crc ++ beBytes 4 (regVal s ZCP_FW.ROM.addr)), s)

/-- SESSION_OPEN (R509). -/
def zSessionOpen (s : State) (rq : ZReq) : ZAns × State :=
  if rq.session ≠ 0 then (.done 4 [], s)
  else match (List.range 16).find? fun i => !(sessionAt s i).live with
    | none => (.done 1 [], s)
    | some i =>
      let g := nextGen (sessionAt s i).gen i
      (.done 0 (beBytes 2 (g * 16 + i)), updSession s i fun _ => { gen := g, live := true, high := none, cache := [] })

/-! ## Messages between units (R14, R20, R302, R519, R520) -/

/-- ANNOUNCE: a unit with the own station number and SYSTEM_ID is a conflict (R20). -/
def zAnnounce (s : State) (rq : ZReq) (stn sysId : Nat) : ZAns × State :=
  let s := markPeer s rq.peer (sysId != getF s SYS_STATION.SYSTEM_ID)
  if rq.peer.mac ≠ stnMac s (ownStn s) ∧ stn = ownStn s ∧ sysId = getF s SYS_STATION.SYSTEM_ID then
    (.silent, if isSet s SYS_FLAGS.STN_CONFLICT then s else setRaise s SYS_FLAGS.STN_CONFLICT 1)
  else (.silent, s)

/-- The words or bits of an IMG_WRITE land. -/
def imgLand (s : State) (w : ImgWrite) : State :=
  if w.isWord then (w.words.take w.len).zipIdx.foldl (fun s p => writeWord rankHost s (w.daddr + p.2) (outsideWord p.1.tag.toNat p.1.val)) s
  else (w.bits.take w.len).zipIdx.foldl (fun s p => writeBit rankHost s (w.daddr + p.2) p.1) s

/-- IMG_WRITE (R302, R520). The two units of a pair are a primary and its partner; a station without a role has no pair. -/
def zImgWrite (s : State) (w : ImgWrite) : ZAns × State :=
  let lim := if w.isWord then 0x4000 else 0x10000
  if w.sysId ≠ getF s SYS_STATION.SYSTEM_ID ∨ !isSet s (SYS_DIR_CTRL.VALID (w.srcStn % 256)) ∨ w.len < 1 ∨ 256 < w.len ∨
      lim < w.daddr + w.len then (.done 4 [], s)
  else if getF s (SYS_DIR_CTRL.ROLE w.srcStn) = 0 then (.done 0 [], imgLand s w)
  else
    let low := min w.srcStn (getF s (SYS_DIR_CTRL.PARTNER w.srcStn))
    match s.zcp.pairEpoch.lookup low with
    | some e =>
      if epochHigher e w.epoch then (.done 0xD [], setF s SBY_STAT.CONFLICT 1)
      else (.done 0 [], imgLand { s with zcp := { s.zcp with
        pairEpoch := (low, w.epoch) :: s.zcp.pairEpoch.filter fun p => p.1 != low } } w)
    | none => (.done 0 [], imgLand { s with zcp := { s.zcp with pairEpoch := (low, w.epoch) :: s.zcp.pairEpoch } } w)

/-- ANNOUNCE_SEND (R519): every 1,000 ms, to the groups of the families of the own addresses, on the enabled ports of the own
entry. -/
def execAnnounceSend (s : State) : Host.Outcome State Fault Refusal :=
  .next (if absent s || !isSet s ZCP_CFG.ANN_EN || !isSet s ZCP_CFG.UDP_EN || !originOk s 0 true then s
    else
      let mask := ((List.range 4).map fun p =>
        if bitOf (getF s (SYS_DIR_CTRL.PORTS (ownStn s))) p && portOn s p then 2 ^ p else 0).sum
      let data := beBytes 1 (ownStn s) ++ beBytes 2 (getF s SYS_STATION.SYSTEM_ID) ++ beBytes 4 (getF s SYS_DIRCRC.CRC) ++
        beBytes 1 s.mode.code ++ beBytes 2 (getF s SBY_EPOCH.OWN) ++ beBytes 6 (stnMac s (ownStn s))
      let pkt := zcpPacket 0 0 s.zcp.ownSeq 0x000B 0 data
      let send (s : State) (v6 : Bool) : State :=
        let g := announceIp s v6
        let mac := if v6 then 0x333300000000 + beNat g % 2 ^ 32 else 0x01005E000000 + beNat g % 2 ^ 23
        if (ownIp s v6).all (· == 0) then s
        else sysSend s mask (udpFrame s mac (ownIp s v6) g v6 47121 47121 pkt) false true
      send (send { s with zcp := { s.zcp with ownSeq := (s.zcp.ownSeq + 1) % 2 ^ 32 } } false) true)

/-! ## Writes (R518) -/

/-- The words of a WRITE_REG: status and words written before a refusal. -/
def zWriteWords (owns : Bool) : List Word → Nat → Nat → State → Nat × Nat × State
  | [], _, k, s => (0, k, s)
  | w :: ws, a, k, s =>
    match accJudge s a with
    | some (0, _) => zWriteWords owns ws (a + 4) (k + 1) s
    | some (c, _) => (c, k, s)
    | none =>
      let (c, s) := writeZcp s owns a w.toNat
      if c = 0 then zWriteWords owns ws (a + 4) (k + 1) s else (c, k, s)

/-- WRITE_REG. -/
def zWriteReg (s : State) (owns : Bool) (a : Nat) (ws : List Word) : ZAns × State :=
  if a % 4 ≠ 0 ∨ a < 0x40000000 ∨ 0x40110000 < a + 4 * ws.length ∨ ws.length < 1 ∨ 256 < ws.length then (.done 4 [], s)
  else
    let (c, k, s) := zWriteWords owns ws a 0 s
    (.done c (beBytes 2 k), s)

/-- WRITE_MEM. -/
def zWriteMem (s : State) (a : Nat) (bs : List Byte) : ZAns × State :=
  let n := bs.length
  if n < 1 ∨ 1024 < n then (.done 4 [], s)
  else if 0x10000000 ≤ a ∧ a + n ≤ 0x10400000 then
    let w := (a - 0x10000000) / 8
    if a % 8 ≠ 0 ∨ n % 8 ≠ 0 then (.done 4 [], s)
    else if !domOn s 5 then (.done 0 [], s)
    else if testing s 2 then (.done 2 [], s)
    else if (List.range (n / 8)).any fun i => spaceClosed s true (w + i) then (.done 0xA [], s)
    else (.done 0 [], (List.range (n / 8)).foldl (fun s i =>
      let v := beNat (bytesAt bs (8 * i) 4).reverse
      hostWord s (w + i) (outsideWord (numAt bs (8 * i + 4) 1) (BitVec.ofNat 32 v))) s)
  else if 0x20000000 ≤ a ∧ a + n ≤ 0x20100000 then
    let b := a - 0x20000000
    if !domOn s 5 then (.done 0 [], s)
    else if testing s 3 then (.done 2 [], s)
    else if (List.range n).any fun i => spaceClosed s false (b + i) then (.done 0xA [], s)
    else (.done 0 [], bs.zipIdx.foldl (fun s p => hostBit s (b + p.2) (bitOf p.1.toNat 0)) s)
  else (.done 4 [], s)

/-- BUS_CANCEL (R382). -/
def zBusCancel (s : State) (n mask : Nat) : ZAns × State :=
  if 1 < n ∨ 7 < mask then (.done 4 [], s)
  else if !domOn s 8 then (.done 0 (beBytes 4 0xFFFFFFFF), s)
  else
    let s := canCancel s n mask
    (.done 0 (beBytes 4 (regVal s (CAN_TBSTAT.STATE_0 n).addr)), s)

/-- STAGE (R245): only RW-T fields can be staged. -/
def zStage (s : State) (owns : Bool) (a : Nat) (ws : List Word) : ZAns × State :=
  if !regRange a ws.length ∨ (List.range ws.length).any fun i => (stageFields s (a + 4 * i)).isEmpty then (.done 4 [], s)
  else match stageStatus s owns with
    | 0 => (.done 0 [], ws.zipIdx.foldl (fun s p => stageWord s (a + 4 * p.2) p.1.toNat) s)
    | c => (.done c [], s)

/-! ## Direct loading of banks and the decode table (R208, R210, R211, R518) -/

/-- The open transaction holds the other bank. -/
def bankInTxn (s : State) : Bool := isSet s TXN_STAT.STATE && s.txn.bank

/-- LOAD_BANK_OPEN. -/
def zLoadBankOpen (s : State) (b ver crc : Nat) : ZAns × State :=
  if 1 < b ∨ s.zcp.bankLoad.isSome then (.done 4 [], s)
  else if bankInTxn s then (.done 6 [], s)
  else
    let s := { s with zcp := { s.zcp with bankLoad := some b } }
    (.done 0 [], setF (setPid s b ver crc) TXN_STAT.UNDO_OK 0)

/-- LOAD_BANK_DATA. -/
def zLoadBankData (s : State) (i : Nat) (ws : List Word) : ZAns × State :=
  let n := ws.length / 8
  match s.zcp.bankLoad with
  | none => (.done 4 [], s)
  | some b =>
    if ws.length % 8 ≠ 0 ∨ n < 1 ∨ 32 < n ∨ 65536 < i + n ∨
        (bundles ws).any fun x => bundleIllegal x || (idZero s b && bundleMac x) then (.done 4 [], s)
    else if bankInTxn s then (.done 6 [], s)
    else (.done 0 [], setFs (bankPuts s b (8 * i) ws) [(EDT_STAT.KEEP_OK, 0), (TXN_STAT.UNDO_OK, 0)])

/-- LOAD_BANK_CLOSE. -/
def zLoadBankClose (s : State) (act : Nat) : ZAns × State :=
  match s.zcp.bankLoad with
  | none => (.done 4 [], s)
  | some b =>
    if 1 < act then (.done 4 [], s)
    else if bankInTxn s then (.done 6 [], s)
    else
      let s := { s with zcp := { s.zcp with bankLoad := none } }
      (.done 0 [], if act = 1 then setFs s [(CORE_BANK.ACTIVE, b), (TXN_STAT.UNDO_OK, 0)] else s)

/-- LOAD_DT_DATA: the load buffer, key 36 n + w. -/
def zLoadDtData (s : State) (e : Nat) (ws : List Word) : ZAns × State :=
  let n := ws.length / 36
  if ws.length % 36 ≠ 0 ∨ n < 1 ∨ 4 < n ∨ 64 < e + n then (.done 4 [], s)
  else
    let old := if s.zcp.dtFresh then [] else s.zcp.dtLoad
    (.done 0 [], { s with zcp := { s.zcp with
      dtFresh := false, dtLoad := ws.zipIdx.foldl (fun m p => sset 0 m (36 * e + p.2) p.1.toNat) old } })

/-- The words of the table in the register store become those of the load buffer. -/
def putTable (s : State) : State :=
  let lower := s.regs.filter fun p => p.1 < 0x50000000 * 32
  let upper := s.regs.filter fun p => 0x50010000 * 32 ≤ p.1
  let new := s.zcp.dtLoad.map fun p => ((0x50000000 + 4 * p.1) * 32, p.2)
  eccWipe (fun m _ => m == .dtable) { s with regs := lower ++ new ++ upper, core := { s.core with dtBad := [] } }

/-- LOAD_DT_CLOSE: the buffer and VERSION become active as one set once they pass R208. -/
def zLoadDtClose (s : State) (version : Nat) : ZAns × State :=
  let fresh (s : State) : State := { s with zcp := { s.zcp with dtFresh := true } }
  if isSet s TXN_STAT.STATE && s.txn.staged.any fun p => isTable p.1 then (.done 6 [], fresh s)
  else if 65535 < version ∨ !tableOk (fun n w => sget 0 s.zcp.dtLoad (36 * n + w)) version then (.done 4 [], fresh s)
  else
    let s := tableActive (setFs (putTable (fresh s)) [(CORE_DTVER.VERSION, version), (TXN_STAT.UNDO_OK, 0)])
    (.done 0 (beBytes 4 (getF s CORE_DTCRC.CRC)), s)

/-! ## Modes, time, tests (R45, R82, R299) -/

/-- MODE_REQ (R74 to R77, R87, R517): its point of no return is its acceptance. -/
def zModeReq (s : State) (rq : ZReq) (m : Nat) : ZAns × State :=
  if !([5, 6, 0xA, 0xB].contains m) then (.done 4 [], s)
  else if s.ms.modeOp.isSome ∧ m ≠ 0xA then (.done 1 [], s)
  else match opTake s rq 0x0500 with
    | none => (.done 1 [], s)
    | some (i, s1) =>
      let s1 := if m = 0xA then s1 else { s1 with ms := { s1.ms with modeOp := some i } }
      match modeReq s1 m with
      | (0, s2) => (.accepted i, if m = 0xA then opEnd s2 i 0 (beBytes 1 s2.mode.code) else s2)
      | (c, _) => (.done c [], s)

/-- HANDOVER (R299). -/
def zHandover (s : State) (rq : ZReq) : ZAns × State :=
  match opTake s rq 0x0501 with
  | none => (.done 1 [], s)
  | some (i, s1) =>
    match handoverReq s1 (some i) with
    | (0, s2) => (.accepted i, s2)
    | (c, _) => (.done c [], s)

/-- TIME_SET (R42, R45). -/
def zTimeSet (s : State) (hi lo ns unc : Nat) : ZAns × State :=
  let t := taiOf (hi % 65536 * 2 ^ 32 + lo) ns
  let off : Int := (t : Int) - s.time.tai
  if 999999999 < ns then (.done 4 [], s)
  else if !stepAllowed s (off.natAbs / nsUnit) then (.done 0xA [], s)
  else
    let s := setUnc (stepClock s off) unc
    let s := { s with time := { s.time with manualTq := tqOf unc } }
    if getF s TIM_CTRL.FORCE_SRC = 0xF ∧ isSet s TIM_CTRL.DISC_EN then
      let s := changeActive s 0xE
      (.done 0 [], reselect { s with time := { s.time with growing := false } })
    else if getF s TIM_STAT.ACTIVE_SRC = 0xF then
      (.done 0 [], { s with time := { s.time with holdBase := unc, holdStart := s.time.tai, growing := true } })
    else (.done 0 [], s)

/-- SELFTEST_RUN (R82). -/
def zSelftestRun (s : State) (rq : ZReq) (i : Nat) : ZAns × State :=
  if 13 < i then (.done 4 [], s)
  else if i < 4 then (.done 0xA [], s)
  else if s.ms.demandTest.isSome then (.done 1 [], s)
  else match opTake s rq 0x0800 with
    | none => (.done 1 [], s)
    | some (k, s) =>
      if stSkip s i then (.accepted k, opEnd (stResult s i 3) k 0 (beBytes 1 3))
      else
        let s := { s with ms := { s.ms with demandTest := some (i, k) } }
        (.accepted k, if i = 13 then { s with trc := { s.trc with gap := some (s.time.tai, classNow s, s.time.tai) } } else s)

/-! ## The request checks (R71, R92, R506, R510 to R517) -/

/-- The reply would exceed the limit of its transport (R506). -/
def tooLong (s : State) (rq : ZReq) (op : ZOp) : Bool :=
  let n := match op with
    | .journalRead a n => 5 + 64 * (ringFrom JournalEntry.seq s.zcp.journal a n).2.length
    | .eventRead a n => 5 + 32 * (ringFrom EventEntry.seq s.zcp.events a n).2.length
    | op => op.replyLen
  decide (packetLimit rq.peer.tr < 20 + n)

/-- What a command does, at step 10 of Table 18.4. -/
def zExec (s : State) (rq : ZReq) (op : ZOp) : ZAns × State :=
  let spi := rq.peer.tr == 3
  let owns := ownsTxn s rq.session spi
  let plain (r : Nat × State) : ZAns × State := (.done r.1 [], r.2)
  let full (r : Nat × List Byte × State) : ZAns × State := (.done r.1 r.2.1, r.2.2)
  match op with
  | .identify => zIdentify s
  | .readReg a n => zReadReg s a n
  | .readMem a n => zReadMem s a n
  | .stageRead a n => zStageRead s a n
  | .opStatus h => zOpStatus s h
  | .abort h => zAbort s rq h
  | .journalRead a n => zJournalRead s a n
  | .eventRead a n => zEventRead s a n
  | .sessionOpen => zSessionOpen s rq
  | .sessionClose => (.done 0 [], closeSession s (rq.session % 16))
  | .announce stn sysId _ _ _ _ => zAnnounce s rq stn sysId
  | .writeReg a ws => zWriteReg s owns a ws
  | .writeMem a bs => zWriteMem s a bs
  | .busCancel n m => zBusCancel s n m
  | .imgWrite w => zImgWrite s w
  | .begin p x => full (txnBegin s rq.session spi p x)
  | .stage a ws => zStage s owns a ws
  | .prepare => zPrepare s rq owns
  | .commit k a b => zCommit s rq owns k a b
  | .rollback f => if 1 < f then (.done 4 [], s) else plain (txnRollback s owns (f == 1) 2)
  | .undo => zUndo s rq
  | .sysCommit x k t n a m => zSysCommit s rq x k t n a m
  | .sysPrepare x y c k t n a => zSysPrepare s rq x y c k t n a
  | .sysCommitAt x _ _ _ _ => plain (sysCommitAt s x)
  | .sysAbort x => plain (sysAbort s x)
  | .sysReport x n o => plain (0, sysReport s x n o)
  | .loadBankOpen b v c => zLoadBankOpen s b v c
  | .loadBankData i ws => zLoadBankData s i ws
  | .loadBankClose a => zLoadBankClose s a
  | .loadDtData e ws => zLoadDtData s e ws
  | .loadDtClose v => zLoadDtClose s v
  | .editBegin p k v c => full (editBegin s rq.session spi p k v c)
  | .editPatch i ws rs => plain (editPatch s owns i ws rs)
  | .modeReq m => zModeReq s rq m
  | .handover => zHandover s rq
  | .nvRead a n => zNvRead s rq a n
  | .nvErase a n => zNvErase s rq a n
  | .nvProgram a bs => zNvProgram s rq a bs
  | .nvImageOpen i n c => zNvImageOpen s rq i n c
  | .nvImageData o bs => zNvImageData s rq o bs
  | .nvImageClose => zNvImageClose s rq
  | .nvSave => zNvSave s rq
  | .timeSet a b n u => zTimeSet s a b n u
  | .selftestRun i => zSelftestRun s rq i
  | .reset => (.done 0 [], s)

/-- The journal entry of a command, under the mode in which it was executed (R527, R528). -/
def zJournal (s0 s : State) (rq : ZReq) (code : Nat) (op : Option ZOp) (status : Nat) : State :=
  let logged := (zClass s0 code != some .q && code != 0x0103) || (code == 0x0006 && status == 0)
  if !logged then s
  else
    let p := journalParams s code op
    { journalPut { s with mode := s0.mode } status rq.session code p.1 p.2 rq.peer with mode := s.mode }

/-- The acceptance reply goes ahead of what the operation has already sent; a notice that finds the SPI queue full waits in its
slot (R515, R523). -/
def zAccept (s0 s : State) (rq : ZReq) (code slot : Nat) : State :=
  let outs := s.zcp.outbox.drop s0.zcp.outbox.length
  let spis := s.zcp.spiQueue.drop s0.zcp.spiQueue.length
  let s1 := zcpReply { s with zcp := { s.zcp with outbox := s0.zcp.outbox, spiQueue := s0.zcp.spiQueue } } rq code 0 0x20
    (beBytes 2 (opHandle s slot))
  let full := decide (4 < s1.zcp.spiQueue.length + spis.length)
  let s1 := if full then updOp s1 slot fun o => { o with noticeWaits := true } else s1
  { s1 with zcp := { s1.zcp with outbox := s1.zcp.outbox ++ outs, spiQueue := s1.zcp.spiQueue ++ (if full then [] else spis) } }

/-- The outcome of a command: journal entry and reply. -/
def zFinish (s0 : State) (rq : ZReq) (code : Nat) (op : Option ZOp) (r : ZAns × State) : State :=
  match r.1 with
  | .done st data => zcpReply (zJournal s0 r.2 rq code op st) rq code st 0 (if st = 0 ∨ code = 0x0100 then data else [])
  | .accepted i => zAccept s0 (zJournal s0 r.2 rq code op 0) rq code i
  | .later => if code = 0x0207 then zJournal s0 r.2 rq code op 0 else r.2
  | .silent => r.2

/-- A class Q command reads only D0 or D1 state (R92). -/
def readsD1 (op : Option ZOp) : Bool :=
  match op with
  | some (.readReg a n) | some (.stageRead a n) => (List.range n).all fun i => decide (regDomain (a + 4 * i) ≤ 1)
  | some (.readMem a n) => (coverWords a n).all fun x => decide (placeDomain x ≤ 1)
  | some (.opStatus _) | some (.abort _) | some (.journalRead _ _) | some (.eventRead _ _) | some .sessionOpen | some .sessionClose
  | some (.announce _ _ _ _ _ _) => true
  | _ => false

/-- Steps 7 to 10 of Table 18.4. After a RESET has been answered the unit enters RESET (R518). -/
def zRun (s : State) (rq : ZReq) (code : Nat) (op : Option ZOp) : State :=
  match zClass s code with
  | none => zcpReply s rq code 3 0 []
  | some c =>
    let mode := if s.mode == .hold then (if c == .q && readsD1 op then 0 else 0xA) else modeAnswer s.mode c
    if mode ≠ 0 then zFinish s rq code op (match op with
      | some (.sysPrepare x y _ _ _ _ _) => zSysRefuse s rq x y mode
      | _ => (.done mode [], s))
    else match op with
      | none => zFinish s rq code op (.done 4 [], s)
      | some o =>
        if tooLong s rq o then zFinish s rq code op (.done 4 [], s)
        else
          let s1 := zFinish s rq code op (zExec s rq o)
          if code = 0x0900 then resetSource (flushOut s1) 5 false else s1

/-- Opcodes that session 0 may carry (R510, Table 18.7). -/
def session0 (code : Nat) : Bool := [0x0009, 0x000B, 0x0103, 0x0207, 0x0208, 0x0209, 0x020A].contains code

/-- Steps 5 and 6 of Table 18.4, and those after them (R510, R511; case 2). -/
def zRequest (s : State) (rq : ZReq) (code : Nat) (op : Option ZOp) : State :=
  if rq.session = 0 then (if session0 code then zRun s rq code op else zcpReply s rq code 0x0E 0 [])
  else match sessionSlot s rq.session with
    | none => zcpReply s rq code 0x0E 0 []
    | some i =>
      let x := sessionAt s i
      let fresh := match x.high with
        | none => true
        | some h => newer rq.seq h
      if fresh then zRun (updSession s i fun x => { x with high := some rq.seq }) rq code op
      else match x.cache.lookup rq.seq with
        | some b => sendPacket s rq.peer (replayed b)
        | none =>
          if executing s rq then s
          else sendPacket (incStop s ZCP_CNT1.STALE) rq.peer (zcpPacket 0x80 rq.session rq.seq code 9 [])

/-- The bit of SYS_WAKE that a transport's commands use (R92, Table 3.10). -/
def wakeBit (tr : Nat) : Nat :=
  match tr with
  | 3 => 0
  | 1 | 2 => 5
  | 4 | 5 => 6
  | _ => 7

/-- A command in HOLD that wakes the device instead of being executed (R92). -/
def wakes (s : State) (rq : ZReq) (op : Option ZOp) : Bool :=
  s.mode == .hold && !readsD1 op && bitOf (getF s SYS_WAKE.EN) (wakeBit rq.peer.tr)

/-! ## Packets are taken (R512, R513, R523) -/

/-- The header of a packet. -/
def pktReq (p : ZPacket) : ZReq := { peer := p.peer, session := numAt p.bytes 4 2, seq := numAt p.bytes 6 4 }

/-- The opcode of a packet. -/
def pktCode (p : ZPacket) : Nat := numAt p.bytes 10 2

/-- The command of a packet. -/
def pktOp (p : ZPacket) : Option ZOp := ZOp.parse (pktCode p) ((p.bytes.drop 16).take (p.bytes.length - 20))

/-- Steps 1 and 2 of Table 18.4: 1 for a malformed packet, 2 for a bad CRC, 0 for a good one. -/
def pktBad (p : ZPacket) : Nat :=
  let n := p.bytes.length
  if n < 20 ∨ numAt p.bytes 0 2 ≠ 0x5A43 ∨ 20 + numAt p.bytes 14 2 ≠ n then 1
  else if crc32 (p.bytes.take (n - 4)) ≠ numAt p.bytes (n - 4) 4 then 2 else 0

/-- A packet taken from the queue passes the steps of Table 18.4. -/
def takePacket (s : State) (p : ZPacket) : State :=
  match pktBad p with
  | 1 => incStop s ZCP_CNT0.BADPKT
  | 2 => incStop s ZCP_CNT0.BADCRC
  | _ =>
    if bitOf (numAt p.bytes 3 1) 7 then replyMatch s p.peer (numAt p.bytes 6 4) (pktCode p) (numAt p.bytes 12 2)
    else if numAt p.bytes 2 1 ≠ 1 then
      sendPacket s p.peer (zcpPacketOf (numAt p.bytes 2 1) 0x80 (pktReq p).session (pktReq p).seq (pktCode p) 3 [])
    else zRequest s (pktReq p) (pktCode p) (pktOp p)

/-- The packet that the interpreter takes next: the first of the queue that it may take (R523). -/
def nextPacket (s : State) : Option Nat :=
  indexOf? (fun (p : ZPacket) => p.peer.tr != 3 || decide (s.zcp.spiQueue.length < 4)) s.zcp.queue

/-- A request that repeats one still in the queue ahead of it, which waits for room in the SPI queue, is discarded without a reply
(case 2). -/
def repeats (s : State) (i : Nat) (p : ZPacket) : Bool :=
  (pktReq p).session != 0 && pktBad p == 0 && (s.zcp.queue.take i).any fun q =>
    pktBad q == 0 && (pktReq q).session == (pktReq p).session && (pktReq q).seq == (pktReq p).seq

/-- The requests that woke the device from HOLD are executed once STOP has been reached (R92). -/
def runHeld (s : State) : State :=
  if s.zcp.held.isEmpty || s.mode == .hold || s.ms.waking.isSome || interpreterBusy s then s
  else s.zcp.held.foldl (fun s r => flushOut (zRequest s r.1 r.2.code (some r.2))) { s with zcp := { s.zcp with held := [] } }

/-- ZCP_REQUEST_TAKE (R512, R513). A command that wakes the device from HOLD stays in the queue until STOP has been reached (R92). -/
def execZcpRequestTake (s : State) : Host.Outcome State Fault Refusal :=
  .next (if absent s || interpreterBusy s then s
    else
    let s := runHeld s
    match nextPacket s with
    | none => s
    | some i =>
      match s.zcp.queue[i]? with
      | none => s
      | some p =>
        if repeats s i p then { s with zcp := { s.zcp with queue := s.zcp.queue.eraseIdx i } }
        else if pktBad p = 0 ∧ !bitOf (numAt p.bytes 3 1) 7 ∧ wakes s (pktReq p) (pktOp p) then wakeSource s (wakeBit p.peer.tr)
        else (flushOut (takePacket { s with zcp := { s.zcp with queue := s.zcp.queue.eraseIdx i } } p)))

/-- A command of the protocol as its own row: steps 5 to 10 of Table 18.4. A command that wakes the device from HOLD waits until STOP
has been reached (R92). -/
def zcpRow (s : State) (rq : ZReq) (op : ZOp) : State :=
  if absent s || interpreterBusy s || !served s rq.peer.tr ||
      (rq.peer.tr == 3 && decide (4 ≤ s.zcp.spiQueue.length)) then s
  else if wakes s rq (some op) then
    wakeSource { s with zcp := { s.zcp with held := s.zcp.held ++ [(rq, op)] } } (wakeBit rq.peer.tr)
  else
    let s := runHeld s
    flushOut (zRequest s rq op.code (some op))

/-! ## Sessions and operation slots by time (R509, R515) -/

/-- SESSION_TIMEOUT (R509). -/
def execSessionTimeout (slot : Nat) (s : State) : Host.Outcome State Fault Refusal :=
  .next (if absent s then s else closeSession s slot)

/-- What an operation that has ended leaves behind no longer names its slot. -/
def unlinkOp (s : State) (i : Nat) : State :=
  let keep (o : Option Nat) : Option Nat := if o = some i then none else o
  { s with
    ms := { s.ms with modeOp := keep s.ms.modeOp }
    txn := { s.txn with prepOp := keep s.txn.prepOp, commitOp := keep s.txn.commitOp }
    nv := { s.nv with holder := s.nv.holder.map fun j => { j with op := keep j.op }
                      waiting := s.nv.waiting.map fun j => { j with op := keep j.op } }
    sby := { s.sby with handover := s.sby.handover.map keep } }

/-- LONG_OP_COMPLETE (R515, R521): a running operation ends with a status, and its notice leaves. SYS_COMMIT ends as R521 says, 10 s
after T at the latest. -/
def execLongOpComplete (i : Nat) (status : Nat) (s : State) : Host.Outcome State Fault Refusal :=
  .next (if absent s || (opSlot s i).st != 1 then s
    else
      let o := opSlot s i
      let result := if status ≠ 0 then []
        else if o.opcode = 0x0500 then beBytes 1 s.mode.code else o.result
      flushOut (if o.opcode = 0x0206 then coordEnd s else opEnd (unlinkOp s i) i status result))

/-- OP_SLOT_EXPIRY (R515): an outcome unread for 60 s is dropped. -/
def execOpSlotExpiry (i : Nat) (s : State) : Host.Outcome State Fault Refusal :=
  .next (if absent s || (opSlot s i).st != 2 then s else updOp s i fun o => { o with st := 0 })

end Sys2Proof.Machine
end

