-- ==== Sys2Proof/Machine/ZcpRows.lean ====
section
/-!
DEFINITION. The commands of the protocol as commands of the block (spec/18_command_protocol.md, Tables 18.6 and 18.7): each is
carried out by the request checks from step 5 on (R512).
-/

namespace Sys2Proof.Machine

/-- IDENTIFY returns the identity, station, mode, directory CRC and table and bank identities (R517). -/
def execZcpIdentify (rq : ZReq) (s : State) : Host.Outcome State Fault Refusal :=
  .next (zcpRow s rq (.identify))

/-- READ_REG returns N register words as the host would read them (R517). -/
def execZcpReadReg (rq : ZReq) (addr : Nat) (n : Nat) (s : State) : Host.Outcome State Fault Refusal :=
  .next (zcpRow s rq (.readReg addr n))

/-- READ_MEM returns bytes of a memory region in host-map order (R517). -/
def execZcpReadMem (rq : ZReq) (addr : Nat) (len : Nat) (s : State) : Host.Outcome State Fault Refusal :=
  .next (zcpRow s rq (.readMem addr len))

/-- STAGE_READ returns staged values, or active values where the object is not staged (R245). -/
def execZcpStageRead (rq : ZReq) (addr : Nat) (n : Nat) (s : State) : Host.Outcome State Fault Refusal :=
  .next (zcpRow s rq (.stageRead addr n))

/-- OP_STATUS returns the state and outcome of a long operation's slot (R515). -/
def execZcpOpStatus (rq : ZReq) (handle : Nat) (s : State) : Host.Outcome State Fault Refusal :=
  .next (zcpRow s rq (.opStatus handle))

/-- ABORT stops a long operation before its point of no return, or returns TOO_LATE (R516). -/
def execZcpAbort (rq : ZReq) (handle : Nat) (s : State) : Host.Outcome State Fault Refusal :=
  .next (zcpRow s rq (.abort handle))

/-- JOURNAL_READ returns journal entries from RAM (R529). -/
def execZcpJournalRead (rq : ZReq) (start : Nat) (n : Nat) (s : State) : Host.Outcome State Fault Refusal :=
  .next (zcpRow s rq (.journalRead start n))

/-- EVENT_READ returns event ring entries (R525). -/
def execZcpEventRead (rq : ZReq) (start : Nat) (n : Nat) (s : State) : Host.Outcome State Fault Refusal :=
  .next (zcpRow s rq (.eventRead start n))

/-- SESSION_OPEN takes a free session slot and returns its number (R509). -/
def execZcpSessionOpen (rq : ZReq) (s : State) : Host.Outcome State Fault Refusal :=
  .next (zcpRow s rq (.sessionOpen))

/-- SESSION_CLOSE frees the session slot and its reply cache (R509). -/
def execZcpSessionClose (rq : ZReq) (s : State) : Host.Outcome State Fault Refusal :=
  .next (zcpRow s rq (.sessionClose))

/-- A received ANNOUNCE is checked for a station conflict under R20 (R519). -/
def execZcpAnnounce (rq : ZReq) (stn : Nat) (sysId : Nat) (dirCrc : Nat) (mode : Nat) (epoch : Nat) (mac : Nat) (s : State) : Host.Outcome State Fault Refusal :=
  .next (zcpRow s rq (.announce stn sysId dirCrc mode epoch mac))

/-- WRITE_REG writes or stages register words in address order and stops at the first refusal (R518). -/
def execZcpWriteReg (rq : ZReq) (addr : Nat) (ws : List Word) (s : State) : Host.Outcome State Fault Refusal :=
  .next (zcpRow s rq (.writeReg addr ws))

/-- WRITE_MEM writes word-space or bit-space bytes, all in one cycle (R518). -/
def execZcpWriteMem (rq : ZReq) (addr : Nat) (bytes : List Byte) (s : State) : Host.Outcome State Fault Refusal :=
  .next (zcpRow s rq (.writeMem addr bytes))

/-- BUS_CANCEL requests cancellation of transmit buffers of a controller (R382). -/
def execZcpBusCancel (rq : ZReq) (n : Nat) (mask : Nat) (s : State) : Host.Outcome State Fault Refusal :=
  .next (zcpRow s rq (.busCancel n mask))

/-- IMG_WRITE from a remote station writes a range of the live input region if its system and epoch pass (R520). -/
def execZcpImgWrite (rq : ZReq) (w : ImgWrite) (s : State) : Host.Outcome State Fault Refusal :=
  .next (zcpRow s rq (.imgWrite w))

/-- BEGIN opens the device's transaction in OPEN, owned by the sender (R243). -/
def execZcpBegin (rq : ZReq) (persist : Nat) (systxn : Nat) (s : State) : Host.Outcome State Fault Refusal :=
  .next (zcpRow s rq (.begin persist systxn))

/-- STAGE writes RW-T fields into the shadows of the open transaction (R245). -/
def execZcpStage (rq : ZReq) (addr : Nat) (ws : List Word) (s : State) : Host.Outcome State Fault Refusal :=
  .next (zcpRow s rq (.stage addr ws))

/-- PREPARE validates the staged set and, with PERSIST, writes it to NV (R246). -/
def execZcpPrepare (rq : ZReq) (s : State) : Host.Outcome State Fault Refusal :=
  .next (zcpRow s rq (.prepare))

/-- COMMIT schedules the transaction's effect now, at a quiet point, or at a UTC or angle instant (R249). -/
def execZcpCommit (rq : ZReq) (kind : Nat) (when0 : Nat) (when1 : Nat) (s : State) : Host.Outcome State Fault Refusal :=
  .next (zcpRow s rq (.commit kind when0 when1))

/-- ROLLBACK discards the staged set before the commit cycle, or returns TOO_LATE (R253). -/
def execZcpRollback (rq : ZReq) (force : Nat) (s : State) : Host.Outcome State Fault Refusal :=
  .next (zcpRow s rq (.rollback force))

/-- UNDO reverts the last committed transaction as a QUIET transaction of its own (R254). -/
def execZcpUndo (rq : ZReq) (s : State) : Host.Outcome State Fault Refusal :=
  .next (zcpRow s rq (.undo))

/-- SYS_COMMIT makes the unit coordinator of a system-wide two-phase commit (R255). -/
def execZcpSysCommit (rq : ZReq) (systxn : Nat) (kind : Nat) (tS : Nat) (tNs : Nat) (a : Nat) (mask : List Nat) (s : State) : Host.Outcome State Fault Refusal :=
  .next (zcpRow s rq (.sysCommit systxn kind tS tNs a mask))

/-- SYS_PREPARE makes a participant prepare and answer READY or NOT_READY (R256). -/
def execZcpSysPrepare (rq : ZReq) (systxn : Nat) (sysId : Nat) (dirCrc : Nat) (kind : Nat) (tS : Nat) (tNs : Nat) (a : Nat) (s : State) : Host.Outcome State Fault Refusal :=
  .next (zcpRow s rq (.sysPrepare systxn sysId dirCrc kind tS tNs a))

/-- SYS_COMMIT_AT confirms the commit instant to a READY participant (R257). -/
def execZcpSysCommitAt (rq : ZReq) (systxn : Nat) (kind : Nat) (tS : Nat) (tNs : Nat) (a : Nat) (s : State) : Host.Outcome State Fault Refusal :=
  .next (zcpRow s rq (.sysCommitAt systxn kind tS tNs a))

/-- SYS_ABORT rolls back a participant's transaction before its commit cycle (R253). -/
def execZcpSysAbort (rq : ZReq) (systxn : Nat) (s : State) : Host.Outcome State Fault Refusal :=
  .next (zcpRow s rq (.sysAbort systxn))

/-- SYS_REPORT delivers a participant's outcome to the coordinator, which may set SYS_SPLIT (R258). -/
def execZcpSysReport (rq : ZReq) (systxn : Nat) (stn : Nat) (outcome : Nat) (s : State) : Host.Outcome State Fault Refusal :=
  .next (zcpRow s rq (.sysReport systxn stn outcome))

/-- LOAD_BANK_OPEN opens a direct load of a program bank and sets its identity (R518). -/
def execZcpLoadBankOpen (rq : ZReq) (bank : Nat) (ver : Nat) (crc : Nat) (s : State) : Host.Outcome State Fault Refusal :=
  .next (zcpRow s rq (.loadBankOpen bank ver crc))

/-- LOAD_BANK_DATA writes a run of bundles into the bank being loaded (R518). -/
def execZcpLoadBankData (rq : ZReq) (index : Nat) (ws : List Word) (s : State) : Host.Outcome State Fault Refusal :=
  .next (zcpRow s rq (.loadBankData index ws))

/-- LOAD_BANK_CLOSE ends the bank load and optionally makes the bank active (R518). -/
def execZcpLoadBankClose (rq : ZReq) (activate : Nat) (s : State) : Host.Outcome State Fault Refusal :=
  .next (zcpRow s rq (.loadBankClose activate))

/-- LOAD_DT_DATA fills decode-table entries in the load buffer (R518). -/
def execZcpLoadDtData (rq : ZReq) (entry : Nat) (ws : List Word) (s : State) : Host.Outcome State Fault Refusal :=
  .next (zcpRow s rq (.loadDtData entry ws))

/-- LOAD_DT_CLOSE validates the buffer and VERSION and makes the table active (R211). -/
def execZcpLoadDtClose (rq : ZReq) (version : Nat) (s : State) : Host.Outcome State Fault Refusal :=
  .next (zcpRow s rq (.loadDtClose version))

/-- EDIT_BEGIN opens a Skim edit in RUN, enters RUN_EDIT and starts the bank copy (R260). -/
def execZcpEditBegin (rq : ZReq) (persist : Nat) (keep : Nat) (ver : Nat) (crc : Nat) (s : State) : Host.Outcome State Fault Refusal :=
  .next (zcpRow s rq (.editBegin persist keep ver crc))

/-- EDIT_PATCH writes bundles and new-variable ranges into the inactive bank (R262). -/
def execZcpEditPatch (rq : ZReq) (index : Nat) (ws : List Word) (ranges : List NewVar) (s : State) : Host.Outcome State Fault Refusal :=
  .next (zcpRow s rq (.editPatch index ws ranges))

/-- The ZCP MODE_REQ command requests STOP, RUN, SAFE_HALT or HOLD as a long operation (R517). -/
def execZcpModeReq (rq : ZReq) (mode : Nat) (s : State) : Host.Outcome State Fault Refusal :=
  .next (zcpRow s rq (.modeReq mode))

/-- The ZCP HANDOVER command requests a planned handover on the primary (R299). -/
def execZcpHandover (rq : ZReq) (s : State) : Host.Outcome State Fault Refusal :=
  .next (zcpRow s rq (.handover))

/-- NV_READ returns bytes of the NOR (R517). -/
def execZcpNvRead (rq : ZReq) (addr : Nat) (len : Nat) (s : State) : Host.Outcome State Fault Refusal :=
  .next (zcpRow s rq (.nvRead addr len))

/-- NV_ERASE erases 64 KiB sectors outside the device-owned areas and the running slot (R587). -/
def execZcpNvErase (rq : ZReq) (addr : Nat) (len : Nat) (s : State) : Host.Outcome State Fault Refusal :=
  .next (zcpRow s rq (.nvErase addr len))

/-- NV_PROGRAM programs bytes within one page (R587). -/
def execZcpNvProgram (rq : ZReq) (addr : Nat) (bytes : List Byte) (s : State) : Host.Outcome State Fault Refusal :=
  .next (zcpRow s rq (.nvProgram addr bytes))

/-- NV_IMAGE_OPEN erases the target slot's record and sectors for a new image (R585). -/
def execZcpNvImageOpen (rq : ZReq) (slot : Nat) (len : Nat) (crc : Nat) (s : State) : Host.Outcome State Fault Refusal :=
  .next (zcpRow s rq (.nvImageOpen slot len crc))

/-- NV_IMAGE_DATA programs image bytes into the target slot (R585). -/
def execZcpNvImageData (rq : ZReq) (offset : Nat) (bytes : List Byte) (s : State) : Host.Outcome State Fault Refusal :=
  .next (zcpRow s rq (.nvImageData offset bytes))

/-- NV_IMAGE_CLOSE verifies the image and writes its commit record (R585). -/
def execZcpNvImageClose (rq : ZReq) (s : State) : Host.Outcome State Fault Refusal :=
  .next (zcpRow s rq (.nvImageClose))

/-- NV_SAVE builds an image from the active state and commits it to the slot not booted (R585). -/
def execZcpNvSave (rq : ZReq) (s : State) : Host.Outcome State Fault Refusal :=
  .next (zcpRow s rq (.nvSave))

/-- TIME_SET steps the TAI clock to a supplied time and uncertainty when a step is allowed (R45). -/
def execZcpTimeSet (rq : ZReq) (secHi : Nat) (secLo : Nat) (ns : Nat) (unc : Nat) (s : State) : Host.Outcome State Fault Refusal :=
  .next (zcpRow s rq (.timeSet secHi secLo ns unc))

/-- SELFTEST_RUN runs one on-demand self-test in STOP (R82). -/
def execZcpSelftestRun (rq : ZReq) (index : Nat) (s : State) : Host.Outcome State Fault Refusal :=
  .next (zcpRow s rq (.selftestRun index))

/-- The ZCP RESET command replies and then enters RESET within 1 ms (R518). -/
def execZcpReset (rq : ZReq) (s : State) : Host.Outcome State Fault Refusal :=
  .next (zcpRow s rq (.reset))

end Sys2Proof.Machine
end

