-- ==== Sys2Proof/Machine/Dispatch.lean ====
section
/-!
DEFINITION. The dispatch: one arm per command, each a direct call of its meaning.
-/

namespace Sys2Proof.Machine

def exec (i : Instr) (s : State) : Host.Outcome State Fault Refusal :=
  match i with
  | .vbatRise mv => Sys2Proof.Machine.execVbatRise mv s
  | .powerOnReset => Sys2Proof.Machine.execPowerOnReset s
  | .resetPin ns => Sys2Proof.Machine.execResetPin ns s
  | .resetPinRelease stn bootsel => Sys2Proof.Machine.execResetPinRelease stn bootsel s
  | .watchdogExpiry => Sys2Proof.Machine.execWatchdogExpiry s
  | .railResetWindow rail => Sys2Proof.Machine.execRailResetWindow rail s
  | .railLoss rail => Sys2Proof.Machine.execRailLoss rail s
  | .vbatLoss => Sys2Proof.Machine.execVbatLoss s
  | .rstoutRelease => Sys2Proof.Machine.execRstoutRelease s
  | .bootComplete => Sys2Proof.Machine.execBootComplete s
  | .seedTimeout => Sys2Proof.Machine.execSeedTimeout s
  | .selftestTestDone failed => Sys2Proof.Machine.execSelftestTestDone failed s
  | .roleNegTimeout => Sys2Proof.Machine.execRoleNegTimeout s
  | .modeReqStop dbg => Sys2Proof.Machine.execModeReqStop dbg s
  | .modeReqRun dbg => Sys2Proof.Machine.execModeReqRun dbg s
  | .modeReqHalt dbg => Sys2Proof.Machine.execModeReqHalt dbg s
  | .modeReqHold dbg => Sys2Proof.Machine.execModeReqHold dbg s
  | .stopAtQuietPoint => Sys2Proof.Machine.execStopAtQuietPoint s
  | .stopTimeout => Sys2Proof.Machine.execStopTimeout s
  | .domainPowerGood d => Sys2Proof.Machine.execDomainPowerGood d s
  | .holdEntryDone => Sys2Proof.Machine.execHoldEntryDone s
  | .wakePin ns => Sys2Proof.Machine.execWakePin ns s
  | .wakeTime => Sys2Proof.Machine.execWakeTime s
  | .holdWakeReloadDone => Sys2Proof.Machine.execHoldWakeReloadDone s
  | .wakeComplete => Sys2Proof.Machine.execWakeComplete s
  | .aliveToggle => Sys2Proof.Machine.execAliveToggle s
  | .scrubAccess m found => Sys2Proof.Machine.execScrubAccess m found s
  | .eccWriteBack m loc => Sys2Proof.Machine.execEccWriteBack m loc s
  | .stationSupvExpiry stn => Sys2Proof.Machine.execStationSupvExpiry stn s
  | .timNowShRead who => Sys2Proof.Machine.execTimNowShRead who s
  | .leapSecond => Sys2Proof.Machine.execLeapSecond s
  | .ptpMessageRx port msg => Sys2Proof.Machine.execPtpMessageRx port msg s
  | .ptpTimeout port announce => Sys2Proof.Machine.execPtpTimeout port announce s
  | .ptpMasterSend port kind => Sys2Proof.Machine.execPtpMasterSend port kind s
  | .irigbFrame f => Sys2Proof.Machine.execIrigbFrame f s
  | .ppsEdge edge => Sys2Proof.Machine.execPpsEdge edge s
  | .ppsTimeout => Sys2Proof.Machine.execPpsTimeout s
  | .sblTimexSend => Sys2Proof.Machine.execSblTimexSend s
  | .sblTimexRx x => Sys2Proof.Machine.execSblTimexRx x s
  | .sblTimexTimeout => Sys2Proof.Machine.execSblTimexTimeout s
  | .sourceQualified n => Sys2Proof.Machine.execSourceQualified n s
  | .sourceSwitch n => Sys2Proof.Machine.execSourceSwitch n s
  | .holdoverUpdate => Sys2Proof.Machine.execHoldoverUpdate s
  | .plumbSampleTimeout => Sys2Proof.Machine.execPlumbSampleTimeout s
  | .plumbCycleWrap => Sys2Proof.Machine.execPlumbCycleWrap s
  | .plbCycleRead who => Sys2Proof.Machine.execPlbCycleRead who s
  | .bundleIssue parity => Sys2Proof.Machine.execBundleIssue parity s
  | .deferredResolution k => Sys2Proof.Machine.execDeferredResolution k s
  | .waitingTriggerFire k => Sys2Proof.Machine.execWaitingTriggerFire k s
  | .operationResult k => Sys2Proof.Machine.execOperationResult k s
  | .aluAdd o u t => Sys2Proof.Machine.execAluAdd o u t s
  | .aluSub o u t => Sys2Proof.Machine.execAluSub o u t s
  | .aluAnd o u t => Sys2Proof.Machine.execAluAnd o u t s
  | .aluOr o u t => Sys2Proof.Machine.execAluOr o u t s
  | .aluXor o u t => Sys2Proof.Machine.execAluXor o u t s
  | .aluShl o u t => Sys2Proof.Machine.execAluShl o u t s
  | .aluShr o u t => Sys2Proof.Machine.execAluShr o u t s
  | .aluMin o u t => Sys2Proof.Machine.execAluMin o u t s
  | .aluMax o u t => Sys2Proof.Machine.execAluMax o u t s
  | .aluNegabs o u t => Sys2Proof.Machine.execAluNegabs o u t s
  | .aluSel o u t => Sys2Proof.Machine.execAluSel o u t s
  | .aluCvt o u t => Sys2Proof.Machine.execAluCvt o u t s
  | .gbuAnd o u t => Sys2Proof.Machine.execGbuAnd o u t s
  | .gbuOr o u t => Sys2Proof.Machine.execGbuOr o u t s
  | .gbuXor o u t => Sys2Proof.Machine.execGbuXor o u t s
  | .gbuAndn o u t => Sys2Proof.Machine.execGbuAndn o u t s
  | .gbuNot o u t => Sys2Proof.Machine.execGbuNot o u t s
  | .gbuCopy o u t => Sys2Proof.Machine.execGbuCopy o u t s
  | .gbuSr o u t => Sys2Proof.Machine.execGbuSr o u t s
  | .gbuRs o u t => Sys2Proof.Machine.execGbuRs o u t s
  | .gbuRise o u t => Sys2Proof.Machine.execGbuRise o u t s
  | .gbuFall o u t => Sys2Proof.Machine.execGbuFall o u t s
  | .gbuTon o u t => Sys2Proof.Machine.execGbuTon o u t s
  | .gbuTof o u t => Sys2Proof.Machine.execGbuTof o u t s
  | .timerSweep cell => Sys2Proof.Machine.execTimerSweep cell s
  | .mulMul o u t => Sys2Proof.Machine.execMulMul o u t s
  | .mulMulw o u t => Sys2Proof.Machine.execMulMulw o u t s
  | .mulSq o u t => Sys2Proof.Machine.execMulSq o u t s
  | .phuCmac o u t => Sys2Proof.Machine.execPhuCmac o u t s
  | .phuCmag o u t => Sys2Proof.Machine.execPhuCmag o u t s
  | .phuCrot o u t => Sys2Proof.Machine.execPhuCrot o u t s
  | .phuDft o u t => Sys2Proof.Machine.execPhuDft o u t s
  | .lsuLd o u t => Sys2Proof.Machine.execLsuLd o u t s
  | .lsuLdx o u t => Sys2Proof.Machine.execLsuLdx o u t s
  | .lsuLdp o u t => Sys2Proof.Machine.execLsuLdp o u t s
  | .lsuSt o u t => Sys2Proof.Machine.execLsuSt o u t s
  | .lsuStx o u t => Sys2Proof.Machine.execLsuStx o u t s
  | .lsuStp o u t => Sys2Proof.Machine.execLsuStp o u t s
  | .bruEq o u t => Sys2Proof.Machine.execBruEq o u t s
  | .bruNe o u t => Sys2Proof.Machine.execBruNe o u t s
  | .bruLt o u t => Sys2Proof.Machine.execBruLt o u t s
  | .bruLe o u t => Sys2Proof.Machine.execBruLe o u t s
  | .bruGt o u t => Sys2Proof.Machine.execBruGt o u t s
  | .bruGe o u t => Sys2Proof.Machine.execBruGe o u t s
  | .bruTst o u t => Sys2Proof.Machine.execBruTst o u t s
  | .bruPc o u t => Sys2Proof.Machine.execBruPc o u t s
  | .bruCall o u t => Sys2Proof.Machine.execBruCall o u t s
  | .tmuNowT o u t => Sys2Proof.Machine.execTmuNowT o u t s
  | .tmuNowA o u t => Sys2Proof.Machine.execTmuNowA o u t s
  | .tmuAdda o u t => Sys2Proof.Machine.execTmuAdda o u t s
  | .tmuSchedA o u t => Sys2Proof.Machine.execTmuSchedA o u t s
  | .tmuSchedT o u t => Sys2Proof.Machine.execTmuSchedT o u t s
  | .tmuCancel o u t => Sys2Proof.Machine.execTmuCancel o u t s
  | .tmuPop o u t => Sys2Proof.Machine.execTmuPop o u t s
  | .tmuEventFire slot => Sys2Proof.Machine.execTmuEventFire slot s
  | .tmuFastoutEnqueue => Sys2Proof.Machine.execTmuFastoutEnqueue s
  | .quRecv o u t => Sys2Proof.Machine.execQuRecv o u t s
  | .quSendEth o u t => Sys2Proof.Machine.execQuSendEth o u t s
  | .quSendCan o u t => Sys2Proof.Machine.execQuSendCan o u t s
  | .quFldCmd o u t => Sys2Proof.Machine.execQuFldCmd o u t s
  | .quRegRd o u t => Sys2Proof.Machine.execQuRegRd o u t s
  | .quRegWr o u t => Sys2Proof.Machine.execQuRegWr o u t s
  | .imgEnd o u t => Sys2Proof.Machine.execImgEnd o u t s
  | .macSel o u t => Sys2Proof.Machine.execMacSel o u t s
  | .macExec o u t => Sys2Proof.Machine.execMacExec o u t s
  | .macExecDirect o n t => Sys2Proof.Machine.execMacExecDirect o n t s
  | .fldFastout o u t => Sys2Proof.Machine.execFldFastout o u t s
  | .fastFrameLaunch k => Sys2Proof.Machine.execFastFrameLaunch k s
  | .coreCycHiRead who => Sys2Proof.Machine.execCoreCycHiRead who s
  | .coreGtimstRead who => Sys2Proof.Machine.execCoreGtimstRead who s
  | .scanhiRead task who => Sys2Proof.Machine.execScanhiRead task who s
  | .readClearField addr => Sys2Proof.Machine.execReadClearField addr s
  | .triggerPeriod task => Sys2Proof.Machine.execTriggerPeriod task s
  | .triggerAngle task => Sys2Proof.Machine.execTriggerAngle task s
  | .triggerEdge task old => Sys2Proof.Machine.execTriggerEdge task old s
  | .heldTriggerRelease task => Sys2Proof.Machine.execHeldTriggerRelease task s
  | .taskFreeze task => Sys2Proof.Machine.execTaskFreeze task s
  | .launchCommit task => Sys2Proof.Machine.execLaunchCommit task s
  | .stationAckTimeout seq => Sys2Proof.Machine.execStationAckTimeout seq s
  | .pwlogClear => Sys2Proof.Machine.execPwlogClear s
  | .txnCommitInstant => Sys2Proof.Machine.execTxnCommitInstant s
  | .txnEffect => Sys2Proof.Machine.execTxnEffect s
  | .txnQpTimeout => Sys2Proof.Machine.execTxnQpTimeout s
  | .txnRecorded => Sys2Proof.Machine.execTxnRecorded s
  | .prepareDone => Sys2Proof.Machine.execPrepareDone s
  | .editCopyBundle => Sys2Proof.Machine.execEditCopyBundle s
  | .sysTxnResend => Sys2Proof.Machine.execSysTxnResend s
  | .sysTxnGuardDeadline => Sys2Proof.Machine.execSysTxnGuardDeadline s
  | .sysReportResend => Sys2Proof.Machine.execSysReportResend s
  | .zcpReplyMatch peer seq opcode status => Sys2Proof.Machine.execZcpReplyMatch peer seq opcode status s
  | .sblLinkUp stn sysId dirCrc rtt => Sys2Proof.Machine.execSblLinkUp stn sysId dirCrc rtt s
  | .sblAlignLoss => Sys2Proof.Machine.execSblAlignLoss s
  | .sblHbSend => Sys2Proof.Machine.execSblHbSend s
  | .sblHbRx crcOk hb => Sys2Proof.Machine.execSblHbRx crcOk hb s
  | .sblAckRx crcOk seq => Sys2Proof.Machine.execSblAckRx crcOk seq s
  | .sblNakRx crcOk seq => Sys2Proof.Machine.execSblNakRx crcOk seq s
  | .sblRetxTimeout => Sys2Proof.Machine.execSblRetxTimeout s
  | .sblEvtRx crcOk lseq evs => Sys2Proof.Machine.execSblEvtRx crcOk lseq evs s
  | .sblXferRx crcOk lseq part last => Sys2Proof.Machine.execSblXferRx crcOk lseq part last s
  | .sblXctlRx crcOk lseq => Sys2Proof.Machine.execSblXctlRx crcOk lseq s
  | .sblNegRx crcOk stn sysId dirCrc => Sys2Proof.Machine.execSblNegRx crcOk stn sysId dirCrc s
  | .sblHandoverRx crcOk lseq => Sys2Proof.Machine.execSblHandoverRx crcOk lseq s
  | .sblRstreqRx crcOk lseq => Sys2Proof.Machine.execSblRstreqRx crcOk lseq s
  | .partnerLoss => Sys2Proof.Machine.execPartnerLoss s
  | .replayEvent => Sys2Proof.Machine.execReplayEvent s
  | .streamLossMark => Sys2Proof.Machine.execStreamLossMark s
  | .xferCut => Sys2Proof.Machine.execXferCut s
  | .xferFrameSend => Sys2Proof.Machine.execXferFrameSend s
  | .takeoverBoundary => Sys2Proof.Machine.execTakeoverBoundary s
  | .handoverReq dbg => Sys2Proof.Machine.execHandoverReq dbg s
  | .handoverMark => Sys2Proof.Machine.execHandoverMark s
  | .demotion => Sys2Proof.Machine.execDemotion s
  | .syncReq dbg => Sys2Proof.Machine.execSyncReq dbg s
  | .resetPartner dbg => Sys2Proof.Machine.execResetPartner dbg s
  | .frameHeaderDecision port bytes stamp => Sys2Proof.Machine.execFrameHeaderDecision port bytes stamp s
  | .frameEnd port fcsOk => Sys2Proof.Machine.execFrameEnd port fcsOk s
  | .payloadScanDone port => Sys2Proof.Machine.execPayloadScanDone port s
  | .pauseDrainDone => Sys2Proof.Machine.execPauseDrainDone s
  | .patternLoadDone => Sys2Proof.Machine.execPatternLoadDone s
  | .dupEntryForget pair src seq => Sys2Proof.Machine.execDupEntryForget pair src seq s
  | .tadpoleExpiry k => Sys2Proof.Machine.execTadpoleExpiry k s
  | .egressFrameStart port => Sys2Proof.Machine.execEgressFrameStart port s
  | .egressFrameEnd port => Sys2Proof.Machine.execEgressFrameEnd port s
  | .gateChange port => Sys2Proof.Machine.execGateChange port s
  | .gateListTakeover port => Sys2Proof.Machine.execGateListTakeover port s
  | .redsupSend pair => Sys2Proof.Machine.execRedsupSend pair s
  | .gooseRetransmit slot => Sys2Proof.Machine.execGooseRetransmit slot s
  | .canFrameRx n f stamp => Sys2Proof.Machine.execCanFrameRx n f stamp s
  | .canTxStart n => Sys2Proof.Machine.execCanTxStart n s
  | .canTxDone n => Sys2Proof.Machine.execCanTxDone n s
  | .canTxFail n => Sys2Proof.Machine.execCanTxFail n s
  | .canError n tec rec => Sys2Proof.Machine.execCanError n tec rec s
  | .busoffRecovery n => Sys2Proof.Machine.execBusoffRecovery n s
  | .canTbCancel n mask => Sys2Proof.Machine.execCanTbCancel n mask s
  | .canRxpop n => Sys2Proof.Machine.execCanRxpop n s
  | .canHpbpop n => Sys2Proof.Machine.execCanHpbpop n s
  | .ttReferenceInstant n => Sys2Proof.Machine.execTtReferenceInstant n s
  | .ttWindowOpen n w => Sys2Proof.Machine.execTtWindowOpen n w s
  | .ttTxenExpiry n => Sys2Proof.Machine.execTtTxenExpiry n s
  | .ttRefWatchTimeout n => Sys2Proof.Machine.execTtRefWatchTimeout n s
  | .canZcpCtxTimeout n peer => Sys2Proof.Machine.execCanZcpCtxTimeout n peer s
  | .fieldFrameSend => Sys2Proof.Machine.execFieldFrameSend s
  | .cpnFrameRx k link f good => Sys2Proof.Machine.execCpnFrameRx k link f good s
  | .cpnAnswerSend k link => Sys2Proof.Machine.execCpnAnswerSend k link s
  | .hubAnswerRx k a good delay => Sys2Proof.Machine.execHubAnswerRx k a good delay s
  | .hubAnswerTimeout k => Sys2Proof.Machine.execHubAnswerTimeout k s
  | .cpnLossSlot k link => Sys2Proof.Machine.execCpnLossSlot k link s
  | .cpnFastFrameRx k link set clr epoch crcOk => Sys2Proof.Machine.execCpnFastFrameRx k link set clr epoch crcOk s
  | .fastLatchTimeout k out => Sys2Proof.Machine.execFastLatchTimeout k out s
  | .failHoldTimeout k => Sys2Proof.Machine.execFailHoldTimeout k s
  | .barrierDownFrame k good => Sys2Proof.Machine.execBarrierDownFrame k good s
  | .barrierUpFrame k good => Sys2Proof.Machine.execBarrierUpFrame k good s
  | .outCurrentLimit k out on => Sys2Proof.Machine.execOutCurrentLimit k out on s
  | .outThermalShutdown k out => Sys2Proof.Machine.execOutThermalShutdown k out s
  | .outThermalRestart k out => Sys2Proof.Machine.execOutThermalRestart k out s
  | .fieldUvChange k mv => Sys2Proof.Machine.execFieldUvChange k mv s
  | .cpnReset k => Sys2Proof.Machine.execCpnReset k s
  | .cpnMgmtRead k link addr => Sys2Proof.Machine.execCpnMgmtRead k link addr s
  | .cpnMgmtWrite k link addr data => Sys2Proof.Machine.execCpnMgmtWrite k link addr data s
  | .cpnShadowTimeout k => Sys2Proof.Machine.execCpnShadowTimeout k s
  | .apply k link => Sys2Proof.Machine.execApply k link s
  | .tsdClear k link outs => Sys2Proof.Machine.execTsdClear k link outs s
  | .fastRelease k link outs => Sys2Proof.Machine.execFastRelease k link outs s
  | .cntLatch k link => Sys2Proof.Machine.execCntLatch k link s
  | .cntClear k link chs => Sys2Proof.Machine.execCntClear k link chs s
  | .ovfClear k link chs => Sys2Proof.Machine.execOvfClear k link chs s
  | .capArm k link chs => Sys2Proof.Machine.execCapArm k link chs s
  | .debouncedEdge k c subA subB => Sys2Proof.Machine.execDebouncedEdge k c subA subB s
  | .counterEdge k c rise => Sys2Proof.Machine.execCounterEdge k c rise s
  | .settlingEnd k c => Sys2Proof.Machine.execSettlingEnd k c s
  | .freqMeasurementClose k c periods ticks => Sys2Proof.Machine.execFreqMeasurementClose k c periods ticks s
  | .freqNosigTimeout k c => Sys2Proof.Machine.execFreqNosigTimeout k c s
  | .captureEdge k c rise edge subA subB => Sys2Proof.Machine.execCaptureEdge k c rise edge subA subB s
  | .tspSecond => Sys2Proof.Machine.execTspSecond s
  | .atrPoll => Sys2Proof.Machine.execAtrPoll s
  | .calSecondTick stamp => Sys2Proof.Machine.execCalSecondTick stamp s
  | .calOscStop => Sys2Proof.Machine.execCalOscStop s
  | .calSet who dbg => Sys2Proof.Machine.execCalSet who dbg s
  | .calTimeRead who => Sys2Proof.Machine.execCalTimeRead who s
  | .calSnap who alsoRelease => Sys2Proof.Machine.execCalSnap who alsoRelease s
  | .calSnapRelease who => Sys2Proof.Machine.execCalSnapRelease who s
  | .lbfSample mv => Sys2Proof.Machine.execLbfSample mv s
  | .lbfClear mv => Sys2Proof.Machine.execLbfClear mv s
  | .calDisciplinePoint => Sys2Proof.Machine.execCalDisciplinePoint s
  | .zcpPacketRx peer bytes => Sys2Proof.Machine.execZcpPacketRx peer bytes s
  | .zcpRequestTake => Sys2Proof.Machine.execZcpRequestTake s
  | .zcpIdentify rq => Sys2Proof.Machine.execZcpIdentify rq s
  | .zcpReadReg rq addr n => Sys2Proof.Machine.execZcpReadReg rq addr n s
  | .zcpReadMem rq addr len => Sys2Proof.Machine.execZcpReadMem rq addr len s
  | .zcpStageRead rq addr n => Sys2Proof.Machine.execZcpStageRead rq addr n s
  | .zcpOpStatus rq handle => Sys2Proof.Machine.execZcpOpStatus rq handle s
  | .zcpAbort rq handle => Sys2Proof.Machine.execZcpAbort rq handle s
  | .zcpJournalRead rq start n => Sys2Proof.Machine.execZcpJournalRead rq start n s
  | .zcpEventRead rq start n => Sys2Proof.Machine.execZcpEventRead rq start n s
  | .zcpSessionOpen rq => Sys2Proof.Machine.execZcpSessionOpen rq s
  | .zcpSessionClose rq => Sys2Proof.Machine.execZcpSessionClose rq s
  | .sessionTimeout slot => Sys2Proof.Machine.execSessionTimeout slot s
  | .zcpAnnounce rq stn sysId dirCrc mode epoch mac => Sys2Proof.Machine.execZcpAnnounce rq stn sysId dirCrc mode epoch mac s
  | .announceSend => Sys2Proof.Machine.execAnnounceSend s
  | .zcpWriteReg rq addr ws => Sys2Proof.Machine.execZcpWriteReg rq addr ws s
  | .zcpWriteMem rq addr bytes => Sys2Proof.Machine.execZcpWriteMem rq addr bytes s
  | .zcpBusCancel rq n mask => Sys2Proof.Machine.execZcpBusCancel rq n mask s
  | .zcpImgWrite rq w => Sys2Proof.Machine.execZcpImgWrite rq w s
  | .zcpBegin rq persist systxn => Sys2Proof.Machine.execZcpBegin rq persist systxn s
  | .zcpStage rq addr ws => Sys2Proof.Machine.execZcpStage rq addr ws s
  | .zcpPrepare rq => Sys2Proof.Machine.execZcpPrepare rq s
  | .zcpCommit rq kind when0 when1 => Sys2Proof.Machine.execZcpCommit rq kind when0 when1 s
  | .zcpRollback rq force => Sys2Proof.Machine.execZcpRollback rq force s
  | .zcpUndo rq => Sys2Proof.Machine.execZcpUndo rq s
  | .zcpSysCommit rq systxn kind tS tNs a mask => Sys2Proof.Machine.execZcpSysCommit rq systxn kind tS tNs a mask s
  | .zcpSysPrepare rq systxn sysId dirCrc kind tS tNs a => Sys2Proof.Machine.execZcpSysPrepare rq systxn sysId dirCrc kind tS tNs a s
  | .zcpSysCommitAt rq systxn kind tS tNs a => Sys2Proof.Machine.execZcpSysCommitAt rq systxn kind tS tNs a s
  | .zcpSysAbort rq systxn => Sys2Proof.Machine.execZcpSysAbort rq systxn s
  | .zcpSysReport rq systxn stn outcome => Sys2Proof.Machine.execZcpSysReport rq systxn stn outcome s
  | .zcpLoadBankOpen rq bank ver crc => Sys2Proof.Machine.execZcpLoadBankOpen rq bank ver crc s
  | .zcpLoadBankData rq index ws => Sys2Proof.Machine.execZcpLoadBankData rq index ws s
  | .zcpLoadBankClose rq activate => Sys2Proof.Machine.execZcpLoadBankClose rq activate s
  | .zcpLoadDtData rq entry ws => Sys2Proof.Machine.execZcpLoadDtData rq entry ws s
  | .zcpLoadDtClose rq version => Sys2Proof.Machine.execZcpLoadDtClose rq version s
  | .zcpEditBegin rq persist keep ver crc => Sys2Proof.Machine.execZcpEditBegin rq persist keep ver crc s
  | .zcpEditPatch rq index ws ranges => Sys2Proof.Machine.execZcpEditPatch rq index ws ranges s
  | .zcpModeReq rq mode => Sys2Proof.Machine.execZcpModeReq rq mode s
  | .zcpHandover rq => Sys2Proof.Machine.execZcpHandover rq s
  | .zcpNvRead rq addr len => Sys2Proof.Machine.execZcpNvRead rq addr len s
  | .zcpNvErase rq addr len => Sys2Proof.Machine.execZcpNvErase rq addr len s
  | .zcpNvProgram rq addr bytes => Sys2Proof.Machine.execZcpNvProgram rq addr bytes s
  | .zcpNvImageOpen rq slot len crc => Sys2Proof.Machine.execZcpNvImageOpen rq slot len crc s
  | .zcpNvImageData rq offset bytes => Sys2Proof.Machine.execZcpNvImageData rq offset bytes s
  | .zcpNvImageClose rq => Sys2Proof.Machine.execZcpNvImageClose rq s
  | .zcpNvSave rq => Sys2Proof.Machine.execZcpNvSave rq s
  | .nvOpTimeout => Sys2Proof.Machine.execNvOpTimeout s
  | .nvInterfaceGrant => Sys2Proof.Machine.execNvInterfaceGrant s
  | .zcpTimeSet rq secHi secLo ns unc => Sys2Proof.Machine.execZcpTimeSet rq secHi secLo ns unc s
  | .zcpSelftestRun rq index => Sys2Proof.Machine.execZcpSelftestRun rq index s
  | .zcpReset rq => Sys2Proof.Machine.execZcpReset rq s
  | .longOpComplete k status => Sys2Proof.Machine.execLongOpComplete k status s
  | .opSlotExpiry k => Sys2Proof.Machine.execOpSlotExpiry k s
  | .journalMirror => Sys2Proof.Machine.execJournalMirror s
  | .spiRead addr n => Sys2Proof.Machine.execSpiRead addr n s
  | .spiWrite addr ws => Sys2Proof.Machine.execSpiWrite addr ws s
  | .spiStatus => Sys2Proof.Machine.execSpiStatus s
  | .spiZcpPut bytes => Sys2Proof.Machine.execSpiZcpPut bytes s
  | .spiZcpGet => Sys2Proof.Machine.execSpiZcpGet s
  | .spiUnknownCode code => Sys2Proof.Machine.execSpiUnknownCode code s
  | .registerWrite addr v who => Sys2Proof.Machine.execRegisterWrite addr v who s
  | .sysAccerrClear v => Sys2Proof.Machine.execSysAccerrClear v s
  | .wordPayloadRead a => Sys2Proof.Machine.execWordPayloadRead a s
  | .wordPayloadStage a v => Sys2Proof.Machine.execWordPayloadStage a v s
  | .wordTagWrite a v => Sys2Proof.Machine.execWordTagWrite a v s
  | .bankHostWrite addr v dbg => Sys2Proof.Machine.execBankHostWrite addr v dbg s
  | .d11Switch off dbg => Sys2Proof.Machine.execD11Switch off dbg s
  | .railMeasure rail mv => Sys2Proof.Machine.execRailMeasure rail mv s
  | .tempMeasure sensor t => Sys2Proof.Machine.execTempMeasure sensor t s
  | .processMeasure m count => Sys2Proof.Machine.execProcessMeasure m count s
  | .avsDecision => Sys2Proof.Machine.execAvsDecision s
  | .avsRelease => Sys2Proof.Machine.execAvsRelease s
  | .avsHoldTimeout => Sys2Proof.Machine.execAvsHoldTimeout s
  | .avsReadback mv busError => Sys2Proof.Machine.execAvsReadback mv busError s
  | .pmbAlert status => Sys2Proof.Machine.execPmbAlert status s
  | .trcRdataRead => Sys2Proof.Machine.execTrcRdataRead s
  | .tapExtest cells => Sys2Proof.Machine.execTapExtest cells s
  | .tapSamplePreload cells => Sys2Proof.Machine.execTapSamplePreload cells s
  | .tapIdcode => Sys2Proof.Machine.execTapIdcode s
  | .tapClamp => Sys2Proof.Machine.execTapClamp s
  | .tapHighz => Sys2Proof.Machine.execTapHighz s
  | .tapBypass => Sys2Proof.Machine.execTapBypass s
  | .dbgreg go write addr v => Sys2Proof.Machine.execDbgreg go write addr v s
  | .retSnapshot => Sys2Proof.Machine.execRetSnapshot s
  | .referenceStable => Sys2Proof.Machine.execReferenceStable s
  | .ref25Stop => Sys2Proof.Machine.execRef25Stop s
  | .irigbPositionMarkerMissing => Sys2Proof.Machine.execIrigbPositionMarkerMissing s
  | .portLinkChange port up spd => Sys2Proof.Machine.execPortLinkChange port up spd s
  | .peerDelayRequest port => Sys2Proof.Machine.execPeerDelayRequest port s
  | .busIntegration n => Sys2Proof.Machine.execBusIntegration n s
  | .rawInputChange k c level => Sys2Proof.Machine.execRawInputChange k c level s
  | .traceFifoDrain => Sys2Proof.Machine.execTraceFifoDrain s
  | .norOperationDone => Sys2Proof.Machine.execNorOperationDone s

end Sys2Proof.Machine
end

