-- ==== Sys2Proof/Machine/Tick.lean ====
section
/-!
DEFINITION. What one core cycle does when no command waits (log entry 1, DESIGN CHOICE).
-/

namespace Sys2Proof.Machine

/-- One cycle of the core clock with no command: counters count and operations in flight advance, a HOLD entry takes its next
domain, waiting replies leave, and bits of the checked memories may flip (R150; log entry 129). In RESET only the TAI counter runs, if D1 stays powered (Table 2.8); with the reference stopped,
in OFF and in BACKUP nothing does (R62, R88). -/
def tick (s : State) : State :=
  if s.ms.refStopped || s.mode == .off || s.mode == .backup then s
  else if s.mode == .reset then clockAdvance s
  else softErrors (flushOut (runHeld (holdNext (coreCycle s))))

end Sys2Proof.Machine
end

