-- ==== Sys2Proof/Machine/Package.lean ====
section
/-!
DEFINITION. The pins as the state drives them, and the package (spec/22_package_electrical.md): interrupt lines (R524),
C0_HPI_N and C1_HPI_N (R374), the levels of R602, the strapped banks (R604), the ball map (R600, R601), ratings and
operating conditions (R607, R608), sequencing (R609), power (R611), thermal data (R621, R627), the EZ4F pins (R623), and what board,
ports and packages meet (R603, R610, R612 to R620, R622, R625, R626, R628).
-/

namespace Sys2Proof.Machine

open Reg

/-! ## Pins that follow the state -/

/-- IRQn_N is driven low (R524); in the absent states it is released (Table 1.5, R22). -/
def irqLow (s : State) (n : Nat) : Bool :=
  let m := nth 0 [getF s ZCP_IRQMASK.M0, getF s ZCP_IRQMASK.M1, getF s ZCP_IRQMASK.M2, getF s ZCP_IRQMASK.M3] n
  !absent s && (regVal s 0x400D0024 &&& m) != 0

/-- Cn_HPI_N is driven low (R374): an entry waits in the high-priority buffer and HPB_IE is 1. -/
def hpiLow (s : State) (n : Nat) : Bool :=
  !absent s && domOn s 8 && isSet s (CAN_CTRL.HPB_IE n) && decide (1 ≤ (canSt s n).hpb.length)

/-- RSTOUT_N is low: driven by the device, or by the pull-down of Table 22.3 in OFF (R562). -/
def rstoutLow (s : State) : Bool := s.mode == .off || s.pins.rstout

/-- ALIVE is high (R21); the pull-down of Table 22.3 holds it low in OFF. -/
def aliveHigh (s : State) : Bool := s.mode != .off && s.pins.alive

/-- CANn_TX is held recessive whatever the controller does: absent states, domain off (R602, Table 1.5). -/
def canTxIdle (s : State) : Bool := absent s || !domOn s 8

/-- Frames leave on link k of the hub (R404): in the absent states, or with D10 off, DN and FS are 0 (R602). -/
def fieldLinkIdle (s : State) : Bool := absent s || !domOn s 10

/-- I/O bank of a VSEL_ strap (Table 22.1): HOST, ETH01, ETH23, CAN, AUX. -/
inductive Bank where | host | eth01 | eth23 | can | aux
  deriving DecidableEq, Repr

/-- Place of a bank's strap in `vsel`. -/
def Bank.strap : Bank → Nat
  | .host => 0 | .eth01 => 1 | .eth23 => 2 | .can => 3 | .aux => 4

/-- Level of a bank in mV (R604). -/
def bankMv (s : State) (b : Bank) : Nat := if bitOf s.pins.vsel b.strap then 3300 else 1800

/-! ## The ball map of the EZ400 -/

/-- Row index i (1 to 26) of the rows A to H, J to N, P, T to W, Y, AA to AG. -/
def rowNames : List String :=
  ["A", "B", "C", "D", "E", "F", "G", "H", "J", "K", "L", "M", "N", "P", "T", "U", "V", "W", "Y",
   "AA", "AB", "AC", "AD", "AE", "AF", "AG"]

/-- What stands at one ball. -/
inductive Ball where
  | signal (name : String)
  | vbat
  | vss
  | vdd (supply : Nat)
  deriving DecidableEq, Repr

/-- Supplies of Table 22.2, numbered as its last list: CORE, SRAM, LNK18, LNK10, ETH01, ETH23, HOST, CAN, AUX. -/
def supplyNames : List String :=
  ["VDD_CORE", "VDD_SRAM", "VDD_LNK18", "VDD_LNK10", "VDDIO_ETH01", "VDDIO_ETH23", "VDDIO_HOST", "VDDIO_CAN", "VDDIO_AUX"]

/-- RGMII signals of a port, and its SGMII pairs, in the order of Table 22.1. -/
def rgmiiNames (p : String) : List String :=
  ["_TXC", "_TXD0", "_TXD1", "_TXD2", "_TXD3", "_TX_CTL", "_RXC", "_RXD0", "_RXD1", "_RXD2", "_RXD3", "_RX_CTL"].map (p ++ ·)
@[inherit_doc rgmiiNames] def sgmiiNames (p : String) : List String := ["_SG_TXP", "_SG_TXN", "_SG_RXP", "_SG_RXN"].map (p ++ ·)

/-- Rows of Table 22.1 whose balls stand side by side: row, first column, signals. -/
def ballRuns : List (Nat × Nat × List String) :=
  [(1, 2, rgmiiNames "P0"), (1, 14, rgmiiNames "P1"), (2, 2, sgmiiNames "P0"), (2, 6, sgmiiNames "P1"),
   (26, 2, rgmiiNames "P2"), (26, 14, rgmiiNames "P3"), (25, 2, sgmiiNames "P2"), (25, 6, sgmiiNames "P3"),
   (3, 3, ["STN0", "STN1", "STN2", "STN3", "STN4", "STN5", "STN6", "STN7"]), (3, 11, ["BOOTSEL0", "BOOTSEL1"]),
   (3, 13, ["VSEL_HOST", "VSEL_ETH01", "VSEL_ETH23", "VSEL_CAN", "VSEL_AUX"]),
   (3, 18, ["TRC_CLK", "TRC_CTL", "TRC_D0", "TRC_D1", "TRC_D2", "TRC_D3"]),
   (15, 1, ["SBL_TXP", "SBL_TXN"]), (16, 1, ["SBL_RXP", "SBL_RXN"]),
   (17, 1, ["QSPI_SCK", "QSPI_CS_N"]), (18, 1, ["QSPI_IO0", "QSPI_IO1"]), (19, 1, ["QSPI_IO2", "QSPI_IO3"]),
   (20, 1, ["CAN0_TX", "CAN0_RX"]), (21, 1, ["CAN1_TX", "CAN1_RX"]), (22, 1, ["C0_HPI_N", "C1_HPI_N"]),
   (23, 1, ["PMB_SCL", "PMB_SDA"]), (24, 1, ["PMB_ALERT_N"]), (24, 2, ["IRIGB"]), (24, 3, ["X32_IN", "X32_OUT"])]

/-- Rows of Table 22.1 in columns 26 and 25, in that order: row, signals. -/
def ballPairs : List (Nat × List String) :=
  [(15, ["HSPI_SCK", "HSPI_CS_N"]), (16, ["HSPI_MOSI", "HSPI_MISO"]), (17, ["IRQ0_N", "IRQ1_N"]), (18, ["IRQ2_N", "IRQ3_N"]),
   (19, ["ALIVE", "WAKE_N"]), (20, ["RESET_N", "RSTOUT_N"]), (21, ["TCK", "TMS"]), (22, ["TDI", "TDO"]),
   (23, ["TRST_N", "PPS_IN"]), (24, ["REF25"])]

/-- The field links (R600): rows C to P in threes, DN, FS, UP; P in column 1 or 26, N in column 2 or 25. -/
def linkBall (i j : Nat) : Option String :=
  if i < 3 ∨ 14 < i ∨ ¬ (j = 1 ∨ j = 2 ∨ j = 25 ∨ j = 26) then none
  else
    let k := (i - 3) / 3 + (if j < 3 then 0 else 4)
    some ("F" ++ toString k ++ nth "" ["_DN", "_FS", "_UP"] ((i - 3) % 3) ++ (if j = 1 ∨ j = 26 then "_P" else "_N"))

/-- The signal at a ball (R600). -/
def signalAt (i j : Nat) : Option String :=
  match ballRuns.find? fun r => r.1 == i && decide (r.2.1 ≤ j) && decide (j < r.2.1 + r.2.2.length) with
  | some r => some (nth "" r.2.2 (j - r.2.1))
  | none =>
    match ballPairs.find? fun r => r.1 == i && decide (j ≤ 26) && decide (27 ≤ j + r.2.length) with
    | some r => some (nth "" r.2 (26 - j))
    | none => linkBall i j

/-- The supply of the zone of a ball (Table 22.2). -/
def zoneOf (i j : Nat) : Nat :=
  if i ≤ 3 then 4
  else if 25 ≤ i then 5
  else if i = 24 then 0
  else if i ≤ 14 ∧ (j = 3 ∨ j = 4 ∨ j = 23 ∨ j = 24) then 2
  else if (i = 15 ∨ i = 16) ∧ (j = 3 ∨ j = 4) then 3
  else if (17 ≤ i ∧ i ≤ 19 ∨ i = 23) ∧ (j = 3 ∨ j = 4) then 8
  else if 20 ≤ i ∧ i ≤ 22 ∧ (j = 3 ∨ j = 4) then 7
  else if 15 ≤ i ∧ i ≤ 23 ∧ (j = 23 ∨ j = 24) then 6
  else if i = 4 ∨ i = 23 then 3
  else if 9 ≤ i ∧ i ≤ 13 then 1
  else 0

/-- What stands at the ball of row i and column j (R600, R601). -/
def ballAt (i j : Nat) : Ball :=
  match signalAt i j with
  | some n => .signal n
  | none =>
    if i = 24 ∧ (j = 5 ∨ j = 6) then .vbat
    else if (i + j) % 2 = 0 then .vss
    else .vdd (zoneOf i j)

/-- The balls of the array, row by row. -/
def balls : List Ball := (List.range 676).map fun n => ballAt (n / 26 + 1) (n % 26 + 1)

/-- How many balls are of a kind. -/
def ballCount (p : Ball → Bool) : Nat := (balls.filter p).length

/-! ## Reset states of the balls (R602) -/

/-- The state that Table 22.1 gives a ball in RESET. -/
inductive BallState where
  | low | high | input | highZ | highZPull | pullUp | pullDown | released | idle | terminated | zero | running
  deriving DecidableEq, Repr

/-- Signals of a port with a suffix. -/
def ofPorts (l : List String) : List String := (List.range 4).flatMap fun p => l.map fun x => "P" ++ toString p ++ x

/-- The last column of Table 22.1. -/
def resetStates : List (BallState × List String) :=
  [(.low, ofPorts ["_TXC", "_TXD0", "_TXD1", "_TXD2", "_TXD3", "_TX_CTL"]), (.highZ, ofPorts ["_RXC", "_RXD0", "_RXD1", "_RXD2", "_RXD3", "_RX_CTL"]),
   (.idle, ofPorts ["_SG_TXP", "_SG_TXN"]), (.terminated, ofPorts ["_SG_RXP", "_SG_RXN"]),
   (.input, ["STN0", "STN1", "STN2", "STN3", "STN4", "STN5", "STN6", "STN7", "BOOTSEL0", "BOOTSEL1",
     "VSEL_HOST", "VSEL_ETH01", "VSEL_ETH23", "VSEL_CAN", "VSEL_AUX"]),
   (.low, ["TRC_CLK", "TRC_CTL", "TRC_D0", "TRC_D1", "TRC_D2", "TRC_D3"]),
   (.zero, (List.range 8).flatMap fun k => ["_DN_P", "_DN_N", "_FS_P", "_FS_N"].map fun x => "F" ++ toString k ++ x),
   (.terminated, (List.range 8).flatMap fun k => ["_UP_P", "_UP_N"].map fun x => "F" ++ toString k ++ x),
   (.idle, ["SBL_TXP", "SBL_TXN"]), (.terminated, ["SBL_RXP", "SBL_RXN"]),
   (.low, ["QSPI_SCK"]), (.high, ["QSPI_CS_N"]), (.highZPull, ["QSPI_IO0", "QSPI_IO1", "QSPI_IO2", "QSPI_IO3"]),
   (.high, ["CAN0_TX", "CAN1_TX"]), (.input, ["CAN0_RX", "CAN1_RX"]), (.released, ["C0_HPI_N", "C1_HPI_N", "PMB_SCL", "PMB_SDA"]),
   (.input, ["PMB_ALERT_N", "IRIGB", "HSPI_SCK", "HSPI_CS_N", "HSPI_MOSI", "PPS_IN", "REF25", "TCK"]), (.highZPull, ["HSPI_MISO"]),
   (.released, ["IRQ0_N", "IRQ1_N", "IRQ2_N", "IRQ3_N"]), (.low, ["ALIVE", "RSTOUT_N"]), (.pullUp, ["WAKE_N", "RESET_N", "TMS", "TDI"]),
   (.pullDown, ["TRST_N"]), (.highZ, ["TDO"]), (.running, ["X32_IN", "X32_OUT"])]

/-- The state of a signal ball in RESET. -/
def resetState (n : String) : Option BallState := (resetStates.find? fun r => r.2.contains n).map (·.1)

/-- The domain that drives a signal ball (Table 19.1, Table 22.1). -/
def ballDomain (n : String) : Nat :=
  if (ofPorts ["_TXC", "_TXD0", "_TXD1", "_TXD2", "_TXD3", "_TX_CTL", "_RXC", "_RXD0", "_RXD1", "_RXD2", "_RXD3", "_RX_CTL",
      "_SG_TXP", "_SG_TXN", "_SG_RXP", "_SG_RXN"]).contains n then 7
  else if ["CAN0_TX", "CAN0_RX", "CAN1_TX", "CAN1_RX", "C0_HPI_N", "C1_HPI_N"].contains n then 8
  else if ["SBL_TXP", "SBL_TXN", "SBL_RXP", "SBL_RXN"].contains n then 9
  else if ((List.range 8).flatMap fun k => ["_DN_P", "_DN_N", "_FS_P", "_FS_N", "_UP_P", "_UP_N"].map fun x => "F" ++ toString k ++ x).contains n then 10
  else if ["TRC_CLK", "TRC_CTL", "TRC_D0", "TRC_D1", "TRC_D2", "TRC_D3"].contains n then 11
  else if ["X32_IN", "X32_OUT"].contains n then 0
  else 1

/-- A signal ball is held in its reset state (R602): in BACKUP and RESET, in BOOT until its block is configured, while its domain is
off. In OFF no ball is driven. -/
def ballHeld (s : State) (n : String) : Bool :=
  s.mode == .backup || s.mode == .reset || (s.mode == .boot && !s.ms.bootLoaded && 2 ≤ ballDomain n) || !domOn s (ballDomain n)

/-- The fail-safe balls (R606). -/
def failSafeBalls : List String :=
  ["HSPI_SCK", "HSPI_CS_N", "HSPI_MOSI", "RESET_N", "WAKE_N", "PPS_IN", "IRIGB", "CAN0_RX", "CAN1_RX",
   "PMB_SCL", "PMB_SDA", "PMB_ALERT_N", "TCK", "TMS", "TDI", "TRST_N"]

/-! ## The pins of the EZ4F (R623) -/

/-- The signal of a companion pin, 1 to 48 (Table 22.15). -/
def cpnPin (n : Nat) : String :=
  nth "" ["", "GNDL", "VDDL", "DNA_P", "DNA_N", "FSA_P", "FSA_N", "GNDL", "UPA_P", "UPA_N", "VDDL", "CRST_N", "GNDL",
    "DNB_P", "DNB_N", "FSB_P", "FSB_N", "GNDL", "UPB_P", "UPB_N", "VDDL", "TESTL", "NC", "VDDL", "GNDL",
    "GNDF", "VFIELD", "OUT0", "OUT1", "VFIELD", "OUT2", "OUT3", "GNDF",
    "IN0", "IN1", "IN2", "IN3", "IN4", "IN5", "IN6", "IN7", "IN8", "IN9", "IN10", "IN11", "GNDF", "GNDF", "TESTF", "GNDF"] n

/-! ## Ratings and operating conditions -/

/-- A limit: nothing below `lo`, nothing above `hi`, where the spec gives them. -/
structure Limit where
  lo : Option Int
  hi : Option Int
  deriving DecidableEq, Repr

/-- A value lies within a limit. -/
def Limit.holds (l : Limit) (v : Int) : Bool :=
  (match l.lo with
    | some a => decide (a ≤ v)
    | none => true) &&
  match l.hi with
    | some a => decide (v ≤ a)
    | none => true

/-- Absolute maximum ratings of the EZ400 in mV and m°C (R607): CORE and SRAM, LNK10, LNK18, VDDIO banks, VBAT, a signal on a
1.8 V bank, a signal on a 3.3 V bank, a fail-safe ball unpowered, an SBL or SGMII lane, junction, storage. -/
def absMax : List Limit :=
  [⟨some (-300), some 1000⟩, ⟨some (-300), some 1200⟩, ⟨some (-300), some 2100⟩, ⟨some (-300), some 3900⟩,
   ⟨some (-300), some 4000⟩, ⟨some (-300), some 2100⟩, ⟨some (-300), some 3900⟩, ⟨some (-300), some 3600⟩,
   ⟨some (-300), some 1300⟩, ⟨some (-40000), some 150000⟩, ⟨some (-55000), some 150000⟩]

/-- Operating conditions of the EZ400 in mV and m°C (R608): CORE static, SRAM, LNK10, LNK18 and 1.8 V banks, 3.3 V banks, VBAT,
junction. -/
def operating : List Limit :=
  [⟨some 720, some 880⟩, ⟨some 816, some 884⟩, ⟨some 950, some 1050⟩, ⟨some 1710, some 1890⟩, ⟨some 3135, some 3465⟩,
   ⟨some 2000, some 3600⟩, ⟨some (-40000), some 125000⟩]

/-- ESD withstand of the EZ400 in V: human-body model, charged-device model (R607). -/
def esd : List Nat := [2000, 500]

/-- VDD_CORE with ripple and transients stays within 3 % of the set voltage, here in tenths of a millivolt (R608). -/
def coreRipple (s : State) : Limit := ⟨some (getF s PWR_AVSSTAT.VSET * 97 / 10 : Nat), some (getF s PWR_AVSSTAT.VSET * 103 / 10 : Nat)⟩

/-- Absolute maximum ratings of the EZ4F in mV, mJ and m°C at levels of VDDL and VFIELD in mV (R624): VDDL, logic pins, VFIELD
continuous, VFIELD for 1 ms, inputs, outputs, switch-off energy, junction, ESD of field pins, ESD of logic pins. -/
def cpnAbsMax (vddl vfield : Int) : List Limit :=
  [⟨some (-300), some 4000⟩, ⟨some (-300), some (vddl + 300)⟩, ⟨some (-36000), some 36000⟩, ⟨none, some 45000⟩,
   ⟨some (-36000), some 36000⟩, ⟨some (vfield - 52000), some (vfield + 300)⟩, ⟨none, some 50⟩, ⟨some (-40000), some 150000⟩,
   ⟨none, some 4000000⟩, ⟨none, some 2000000⟩]

/-- The rails rise as R609 allows: all within 50 ms of the first, none more slowly than 0.1 V/ms (here 100 µV/µs). -/
def railsRise (startUs endUs slopeUvPerUs : List Nat) : Bool :=
  endUs.all (fun e => startUs.all fun b => decide (e ≤ b + 50000)) && slopeUvPerUs.all fun v => decide (100 ≤ v)

/-! ## AC limits, in ps -/

/-- Host SPI (Table 22.10): SCK period, high or low, CS to SCK, SCK to CS, CS high, MOSI setup, hold, MISO valid, MISO release. -/
def hostSpiPs : List Limit :=
  [⟨some 20000, none⟩, ⟨some 9000, none⟩, ⟨some 10000, none⟩, ⟨some 10000, none⟩, ⟨some 40000, none⟩, ⟨some 4000, none⟩,
   ⟨some 3000, none⟩, ⟨some 0, some 8000⟩, ⟨none, some 12000⟩]

/-- QSPI (Table 22.11): SCK period, CS to SCK, SCK to CS, CS high, output change, input setup, hold. -/
def qspiPs : List Limit :=
  [⟨some 10000, some 40000⟩, ⟨some 5000, none⟩, ⟨some 5000, none⟩, ⟨some 50000, none⟩, ⟨some (-1000), some 2000⟩,
   ⟨some 2000, none⟩, ⟨some 1000, none⟩]

/-- A NOR fits the QSPI period (R615): clock-to-output and round trip do not exceed the period minus 2 ns. -/
def qspiFits (periodPs clkToOutPs tripPs : Nat) : Bool := decide (clkToOutPs + tripPs + 2000 ≤ periodPs)

/-- Width of an IRIG-B element in µs that is no missing position marker (R619): 2, 5 or 8 ms, each within 0.2 ms. -/
def irigWidthOk (us : Nat) : Bool := [2000, 5000, 8000].any fun w => decide (w ≤ us + 200) && decide (us ≤ w + 200)

/-! ## What the board and the ports must meet -/

/-- A limit on a named item; the unit stands in the name. -/
structure Rating where
  item : String
  lim : Limit
  deriving DecidableEq, Repr

/-- An item of at least, of at most, and within two values. -/
def atLeast (item : String) (v : Int) : Rating := ⟨item, ⟨some v, none⟩⟩
@[inherit_doc atLeast] def atMost (item : String) (v : Int) : Rating := ⟨item, ⟨none, some v⟩⟩
@[inherit_doc atLeast] def between (item : String) (a b : Int) : Rating := ⟨item, ⟨some a, some b⟩⟩

/-- Time inputs (R619, Table 22.12); for the width of an IRIG-B element see irigWidthOk. -/
def timeInputs : List Rating :=
  [atMost "IRIGB stamped edge, ns" 100, atMost "PPS_IN stamped edge, ns" 20, between "PPS_IN pulse, ns" 100 900000000,
   between "IRIGB element period, µs" 9990 10010, atLeast "IRIGB pulse that is no glitch, ns" 1000,
   atLeast "PPS_IN pulse that is no glitch, ns" 20]

/-- The parts that the board fits (R603, Table 22.3): what, on which balls, in ohms or in picofarads. -/
def boardParts : List (String × List String × Limit) :=
  [("pull-up", ["HSPI_MISO"], ⟨none, some 10000⟩),
   ("pull-up", ["IRQ0_N", "IRQ1_N", "IRQ2_N", "IRQ3_N", "C0_HPI_N", "C1_HPI_N"], ⟨some 2200, some 10000⟩),
   ("pull-up", ["CAN0_TX", "CAN1_TX"], ⟨some 10000, some 10000⟩), ("pull-down", ["ALIVE", "RSTOUT_N"], ⟨some 10000, some 10000⟩),
   ("pull-up", ["QSPI_CS_N"], ⟨some 10000, some 10000⟩), ("bus pull-up", ["PMB_SCL", "PMB_SDA", "PMB_ALERT_N"], ⟨none, none⟩),
   ("tie to VSS or VDD_LNK18", ["STN0", "STN1", "STN2", "STN3", "STN4", "STN5", "STN6", "STN7", "BOOTSEL0", "BOOTSEL1"],
     ⟨some 0, some 4700⟩),
   ("crystal", ["X32_IN", "X32_OUT"], ⟨none, none⟩), ("series capacitor of each SGMII and SBL lane", [], ⟨some 100000, some 100000⟩)]

/-- Levels of the single-ended balls of a bank at a level in mV (R610, Table 22.6): mV, µA and pF. -/
def pinLevels (bank : Nat) : List Rating :=
  (if bank ≤ 1890 then [atLeast "VIH" (bank * 65 / 100 : Nat), atMost "VIL" (bank * 35 / 100 : Nat), atLeast "hysteresis" 100,
      atLeast "VOH at -4 mA" (bank - 450 : Int), atMost "VOL at 4 mA" 450]
    else [atLeast "VIH" 2000, atMost "VIL" 800, atLeast "hysteresis" 200, atLeast "VOH at -8 mA" 2400, atMost "VOL at 8 mA" 400]) ++
    [atMost "open-drain VOL at 8 mA" 400, between "input leakage, µA" (-5) 5, atMost "input capacitance, pF" 5]

/-- The differential balls in mV and Ω (R610, Table 22.7). -/
def laneLevels : List Rating :=
  [between "field link output" 250 450, between "field link common mode" 1125 1375, between "field link threshold" (-100) 100,
   between "field link receiver common mode" 300 2100, between "SBL output, mVppd" 800 1100, between "SGMII output, mVppd" 500 900,
   atLeast "SBL and SGMII sensitivity, mVppd" 175, between "termination, Ω" 90 110]

/-- REF25 (R612) in ppm, percent, ps and fs. -/
def ref25 : List Rating :=
  [between "25.000 MHz, ppm" (-20) 20, between "duty cycle, percent" 45 55, atMost "rise and fall, ps" 2000,
   atMost "phase jitter 12 kHz to 5 MHz, fs rms" 1000]

/-- The crystal of X32_IN and X32_OUT: 32.768 kHz (R613). -/
def crystal : List Rating :=
  [between "frequency, Hz" 32768 32768, between "load, pF" 6 9, atMost "ESR, Ω" 70000, atLeast "drive level rating, nW" 500,
   atMost "start after D0 power-up, ms" 1000]

/-- RGMII and SGMII (R616): ps, and hundredths of a unit interval. -/
def ethernetPorts : List Rating :=
  [between "TXC delay inside the EZ400" 1700 2300, atLeast "RXD, RX_CTL before RXC" 1000, atLeast "RXD, RX_CTL after RXC" 800,
   atMost "rise and fall 20 to 80 percent" 750, atMost "SGMII transmit jitter, UI/100" 25, atLeast "SGMII jitter tolerance, UI/100" 60]

/-- The standby link at 2.5 GBd (R617): ppm, hundredths of a unit interval, dB. -/
def standbyLane : List Rating :=
  [between "line rate, ppm" (-20) 20, atMost "transmit jitter, UI/100" 30, atLeast "jitter tolerance, UI/100" 65,
   between "frequency offset tolerated, ppm" (-100) 100, atMost "insertion loss at 1.25 GHz, dB" 12]

/-- The field links at 250 Mbit/s (R618): ps, percent of Ω, dB, mV, hundredths of a unit interval. -/
def fieldLane : List Rating :=
  [atMost "one-way delay" 200000, atMost "DN to FS skew" 1000, atMost "skew in a pair" 400, between "impedance, Ω" 90 110,
   atMost "loss at 125 MHz, dB" 6, between "ground offset" (-900) 900, atMost "jitter, UI/100" 15,
   between "start of the answer after the start of the frame" 99500 100500]

/-- The auxiliary ports in ps (R620, Table 22.13). -/
def auxPorts : List Rating :=
  [atLeast "TCK period" 40000, atLeast "TMS, TDI setup and hold" 5000, atMost "TCK falling to TDO" 15000,
   between "TRC_D, TRC_CTL against TRC_CLK" (-500) 500, atMost "bit edge to CAN TX" 10000, atMost "CAN RX to sampling" 10000]

/-- Period of TRC_CLK in ps (R550, R620). -/
def trcClkPs (s : State) : Nat := trcDiv s * 2500

/-- The packages in µm: EZ400 (R622) and EZ4F (R628). -/
def packageBody : List Rating :=
  [between "EZ400 body side" 26900 27100, between "EZ400 lid side" 24000 24000, atMost "EZ400 height" 2700,
   between "EZ400 ball pitch" 1000 1000, between "EZ400 ball diameter, nominal" 600 600, atMost "EZ400 coplanarity" 200,
   between "EZ4F body length" 15900 15900, between "EZ4F body width" 12000 12000, between "EZ4F lead pitch" 635 635,
   between "EZ4F lead-tip span" 16000 16000, atMost "EZ4F height" 2650]

/-- DC characteristics of the EZ4F (R625, Table 22.17): µA, mΩ, pF. -/
def cpnDc : List Rating :=
  [atMost "VDDL current" 50000, atMost "VFIELD current, outputs off" 6000, atMost "on-resistance at 125 °C" 400,
   atMost "on-resistance of a pair at 125 °C" 200, atMost "on-resistance at 25 °C" 250, atMost "on-resistance of a pair at 25 °C" 130,
   atMost "output leakage at 30 V" 10, between "barrier capacitance, pF" 2 2]

/-- Isolation of the EZ4F (R626, Table 22.18): V, kV/µs, µm. -/
def cpnIsolation : List Rating :=
  [between "VIORM, peak" 1414 1414, between "VIOTM, peak" 8000 8000, between "VIOSM, peak" 10000 10000, between "VISO, rms, 60 s" 5000 5000,
   atLeast "common-mode immunity, kV/µs" 100, atLeast "creepage and clearance" 11500, atLeast "tracking index" 600]

/-! ## Power and heat -/

/-- Power of D1 to D11, active and kept in HOLD, in mW (Table 22.8). -/
def domainMw : List (Nat × Nat) :=
  [(140, 140), (1150, 90), (480, 40), (170, 60), (420, 110), (640, 120), (560, 560), (25, 10), (190, 190), (330, 330), (160, 20)]

/-- Rail currents in mA (Table 22.9): CORE, SRAM, LNK10, LNK18, each ETH bank with SGMII at 1.8 V, HOST, CAN, AUX. -/
def railMa : List Nat := [4300, 550, 180, 170, 120, 10, 5, 30]

/-- Power of the domains that are on, in mW; D2 and D3 at their idle figures in STOP and SAFE_HALT, all of them in HOLD; 900 mW in
RESET (R611). -/
def powerMw (s : State) : Nat :=
  if s.mode == .reset then 900
  else ((List.range 11).map fun i =>
    let p := nth (0, 0) domainMw i
    if !domOn s (i + 1) then 0
    else if s.mode == .hold || ((s.mode == .stop || s.mode == .safeHalt) && (i == 1 || i == 2)) then p.2 else p.1).sum

/-- Junction temperature in m°C from the ambient in m°C, a power in mW and a thermal resistance in m°C/W (R621). -/
def junction (ambient : Int) (mw thetaMc : Nat) : Int := ambient + (mw * thetaMc / 1000 : Nat)

/-- θJC, θJB, θJA and ψJT of the EZ400, and θJA of the EZ4F, in m°C/W (Table 22.14, R627). -/
def thetas : List Nat := [150, 3200, 12000, 300, 30000]

/-- Dissipation of an EZ4F in nW (R627): VDDL and VFIELD in mV, VDDL current in µA, per output its resistance in mΩ and current
in mA, per input that is on its voltage in mV and current in µA. -/
def cpnNw (vddl iddl vfield : Nat) (outs ins : List (Nat × Nat)) : Nat :=
  vddl * iddl + vfield * 6000 + (outs.map fun o => o.1 * o.2 * o.2).sum + (ins.map fun i => i.1 * i.2).sum

end Sys2Proof.Machine
end

