-- ==== Sys2Proof/Machine/Wire.lean ====
section
/-!
DEFINITION. What the frames of the two dedicated links carry on the wire: the regular frames of the field link
(spec/14_field_link_outputs.md, R402 to R408, with the EVT field of spec/15_field_inputs.md), and the frames of the standby link
(spec/10_hot_standby.md, R274, R278). The commands that receive such a frame take its fields and the receiver's verdict on its
coding and its check (log entry 113, DESIGN CHOICE); these functions say which bits those fields are.
-/

namespace Sys2Proof.Machine

open Reg

/-- Fields, highest first, packed into one number: each is a width and a value. -/
def pack (l : List (Nat × Nat)) : Nat := l.foldl (fun a p => a * 2 ^ p.1 + p.2 % 2 ^ p.1) 0

/-- One byte into a check of `w` bits, most significant bit first. -/
def crcMsbByte (w poly c : Nat) (b : Byte) : Nat :=
  (List.range 8).foldl (fun x _ => if x / 2 ^ (w - 1) % 2 = 1 then (x * 2 % 2 ^ w) ^^^ poly else x * 2 % 2 ^ w)
    (c ^^^ (b.toNat * 2 ^ (w - 8)))

/-- The CRC-16 of a regular frame (R403). -/
def crc16 (bs : List Byte) : Nat := bs.foldl (crcMsbByte 16 0x8BB7) 0

/-- The CRC-8 of a fast frame (R408). -/
def crc8 (bs : List Byte) : Nat := bs.foldl (crcMsbByte 8 0x2F) 0xFF

/-! ## The field link -/

/-- The 128 bits of a downstream regular frame (Table 14.1). -/
def dnBits (f : DnFrame) : Nat :=
  pack [(16, f.epoch), (8, f.stn), (1, b2n f.safe), (7, 0), (4, f.outcmd), (2, f.mop), (2, 0), (8, f.mtag), (16, f.maddr),
        (32, f.mdata), (32, f.frameNo)]

/-- The fields of 128 bits received from the hub (Table 14.1). -/
def dnFields (w : Nat) : DnFrame :=
  { epoch := bitsOf w 112 16, stn := bitsOf w 104 8, safe := bitOf w 103, outcmd := bitsOf w 92 4, mop := bitsOf w 90 2,
    mtag := bitsOf w 80 8, maddr := bitsOf w 64 16, mdata := bitsOf w 32 32, frameNo := bitsOf w 0 32 }

/-- The 40 bits of the EVT field (Table 15.4). -/
def evtBits : EvtField → Nat
  | .none => 0
  | .event e => pack [(2, 1), (4, e.ch), (2, e.kind), (1, b2n e.rise), (1, b2n e.invalid), (1, b2n e.lost), (20, e.fno), (9, e.sub)]
  | .value slot vinv v => pack [(2, 2), (5, slot), (1, b2n vinv), (32, v)]

/-- The 128 bits of an upstream regular frame (Table 14.2). -/
def upBits (f : UpFrame) : Nat :=
  pack [(16, f.obepoch), (1, f.oblink), (1, b2n f.obeying), (1, b2n f.failst), (1, b2n f.conflict), (1, b2n f.barrierFail),
        (1, b2n f.nack), (1, b2n f.dcrc), (1, b2n f.fieldUv), (4, f.outstate), (4, f.outflt), (12, f.inp), (2, f.mst),
        (1, b2n f.cfglost), (1, b2n f.fref), (8, f.mtag), (32, f.mdata), (40, evtBits f.evt)]

/-- A character of a line coded in 8b/10b: a control character Kx.y or a data byte. -/
inductive LineChar where
  | k (x y : Nat)
  | d (b : Byte)
  deriving DecidableEq, Repr

/-- The 20 characters of a regular frame: K27.7, the 16 data bytes, the CRC, K29.7 (R402). -/
def regularFrame (w : Nat) : List LineChar :=
  .k 27 7 :: ((beBytes 16 w ++ beBytes 2 (crc16 (beBytes 16 w))).map .d ++ [.k 29 7])

/-- A received sequence of characters without coding violation is a good regular frame (R406). -/
def regularGood (cs : List LineChar) : Bool :=
  cs.length == 20 && cs.head? == some (.k 27 7) && cs.getLast? == some (.k 29 7) &&
    (match (cs.drop 1).take 18 |>.mapM (fun c => match c with | .d b => some b | .k _ _ => none) with
     | some bs => crc16 bs == 0
     | none => false)

/-- What DN and UP carry between frames (R402). -/
def fieldIdle : LineChar := .k 28 5

/-- The 25 bits of a fast frame (R408). -/
def fastBits (set clr epoch : Nat) : Nat :=
  let body := pack [(4, set), (4, clr), (8, epoch)]
  pack [(1, 1), (16, body), (8, crc8 (beBytes 2 body))]

/-- The check of a received fast frame holds (R408, R409). -/
def fastGood (w : Nat) : Bool := bitOf w 24 && crc8 (beBytes 2 (bitsOf w 8 16)) == bitsOf w 0 8

/-- The core cycle of the frame of number n on DN, and the cycle at the end of which its content is taken (R402). -/
def dnStart (n : Nat) : Nat := 400 * n % 2 ^ 64
@[inherit_doc dnStart] def dnContent (n : Nat) : Nat := (400 * n + 2 ^ 64 - 8) % 2 ^ 64

/-! ## The standby link -/

/-- TYPE of a frame (Table 10.2). -/
def sblType : SblPay → Nat
  | .hb _ => 0x01
  | .timex _ => 0x02
  | .ack _ => 0x03
  | .nak _ => 0x04
  | .evt _ _ _ => 0x10
  | .xfer _ _ => 0x20
  | .xctl => 0x21
  | .zcp _ => 0x30
  | .neg _ _ _ => 0x40
  | .handover => 0x41
  | .rstreq => 0x42

/-- The frame is sequenced: SEQD of its FLAGS (R275, Table 10.2). -/
def sblSeqd : SblPay → Bool
  | .evt _ _ _ | .xfer _ _ | .xctl | .zcp _ | .handover | .rstreq => true
  | _ => false

/-- The 16 bytes of the header as one number, byte 0 first (Table 10.2): TYPE, FLAGS, LSEQ, LEN, STN, 0, PCYC; the bytes of a
field stand most significant first (log entry 113, DESIGN CHOICE). -/
def sblHeader (s : State) (f : SblFrame) : Nat :=
  pack [(8, sblType f.pay), (8, b2n (sblSeqd f.pay)), (16, if sblSeqd f.pay then f.lseq else 0), (16, payBytes f.pay),
        (8, ownStn s), (8, 0), (64, f.pcyc)]

/-- The 128 bits of a heartbeat's payload (Table 10.3). -/
def hbBits (h : HbInfo) : Nat :=
  pack [(8, h.stn), (4, h.mode), (2, h.role), (1, b2n h.sync), (1, b2n h.handover), (8, h.haltCause), (16, h.epoch),
        (16, h.ackSeq), (32, h.dirCrc), (4, h.tq), (4, h.src), (32, h.horizon)]

/-- A frame of the standby link around its payload: K27.7 D21.5, header, payload, CRC-32, K29.7 D21.5 (R274). -/
def sblChars (s : State) (f : SblFrame) (payload : List Byte) : List LineChar :=
  let body := beBytes 16 (sblHeader s f) ++ payload
  [.k 27 7, .d 0xB5] ++ (body ++ leBytes (crc32 body)).map .d ++ [.k 29 7, .d 0xB5]

/-- What the standby link carries between frames: K28.5 D16.2 (R274). -/
def sblIdle : List LineChar := [.k 28 5, .d 0x50]

end Sys2Proof.Machine
end

