-- ==== Sys2Proof/Safety.lean ====
section
/-!
DEFINITION. The terms in which claims speak of runs: a command that completes, and the canonical form of the memories.
-/

namespace Sys2Proof.Machine

/-- The command completes at the state, and the next state has a property. -/
def Completes (c : Instr) (s : State) (p : State → Prop) : Prop := ∃ t, exec c s = .next t ∧ p t

/-- Every register field outside a list has the same value in both states. -/
def SameRegs (ks : List Fld) (s t : State) : Prop := ∀ f : Fld, f.key ∉ ks.map Fld.key → getF t f = getF s f

/-- Only fields of a list may differ between the states: every other field, the memories, the queue and all the rest of the
state are the same. -/
def OnlyRegs (ks : List Fld) (s t : State) : Prop := SameRegs ks s t ∧ t = { s with regs := t.regs }

/-- The memories, the NV store and the pins are the same in both states. -/
def SameStores (s t : State) : Prop := t.sp = s.sp ∧ t.nv.nor = s.nv.nor ∧ t.pins = s.pins

/-- The bits, words and planes, the NV store and the pins are the same in both states. -/
def SameSpaces (s t : State) : Prop :=
  t.sp.bits = s.sp.bits ∧ t.sp.words = s.sp.words ∧ t.sp.planeB = s.sp.planeB ∧ t.sp.planeW = s.sp.planeW ∧
    t.nv.nor = s.nv.nor ∧ t.pins = s.pins

/-- A reset source of a code has acted on a state from BOOT to HOLD (R561, R564, R60): mode, cause, what is kept. -/
def EntersReset (s : State) (code : Nat) (t : State) : Prop :=
  t.mode = .reset ∧ getF t Reg.SYS_MODE.PREV = s.mode.code ∧ bitOf (getF t Reg.RST_CAUSE.SRC) (code - 1) = true ∧
    getF t Reg.RST_CAUSE.LAST = code ∧ t.nv.nor = s.nv.nor ∧ t.zcp.journal = s.zcp.journal ∧ t.zcp.events = s.zcp.events ∧
    t.time.tai = s.time.tai ∧ t.time.running = s.time.running ∧ t.pending = s.pending ∧
    ∀ f : Fld, f.lo < 32 → regDomain f.addr = 0 → getF t f = getF s f

/-- A change of mode leaves the word space, the NV store, the counter and the queue as they were. -/
def ModeFrame (s t : State) : Prop :=
  t.sp.words = s.sp.words ∧ t.nv.nor = s.nv.nor ∧ t.time.tai = s.time.tai ∧ t.pending = s.pending

/-- In the present core cycle nothing ends, comes due, waits or leaves: D1 and D2 are on, the counter runs, no operation is in flight,
no trigger, event, launch, reply, packet of trace or gate list waits, and no frame of the field link begins. -/
def IdleCycle (s : State) : Prop :=
  s.ms.refStopped = false ∧ absent s = false ∧ domOn s 2 = true ∧ s.time.running = true ∧ s.ms.haltPend = none ∧
    s.ms.holdEntry = none ∧ s.zcp.outbox = [] ∧ s.zcp.held = [] ∧ s.core.ops = [] ∧ s.core.waiting = [] ∧ s.core.deferred = [] ∧
    s.core.fastWait = [] ∧ roomMark ∉ s.core.firedNow ∧ s.core.mac = none ∧ (∀ x ∈ s.core.tmu, x.ev = none) ∧
    s.sby.replaying = false ∧ s.sby.tko = none ∧ s.mode ≠ .takeover ∧ (∀ k ∈ s.scan.tasks, k.st ≠ .launchWait ∧ k.fin = .no) ∧
    (∀ p ∈ s.egr.ports, p.pending = false) ∧ s.trc.fifo = [] ∧ s.trc.cycle = [] ∧ frameDue s = none

/-- A frame of 200 bytes: a queue with room for it has room for every shorter frame (R342). -/
def probe : EgrFrame := { origin := 0, bytes := List.replicate 200 0, slot := none, ptp := false, post := [], tc := none }

/-! ## Triggers -/

/-- A unit is ready for a trigger of a task: the engine runs, nothing is in flight or waits, the unit has taken no trigger in this
cycle, no halt is due. -/
def UnitReady (s : State) (o : Origin) (u : Nat) : Prop :=
  engineOn s = true ∧ o.task < 8 ∧ s.core.ops = [] ∧ s.core.waiting = [] ∧ s.core.fastWait = [] ∧ s.core.mac = none ∧
    u ∉ s.core.firedNow ∧ s.ms.haltPend = none

/-- A unit has taken a trigger in this cycle: the tracker's maximum is noted, and the unit marked. -/
def fired (s : State) (u : Nat) : State :=
  let s1 := trkNote s (trkOcc s + 1)
  { s1 with core := { s1.core with firedNow := u :: s1.core.firedNow } }

/-- An operation without latency has fired: its results stand in the task's context. -/
def landed (s : State) (o : Origin) (u : Nat) (rs : List (Nat × TWord)) : State := landRes (fired s u) o.task u rs

/-- The operation that a trigger puts in flight. -/
def flight (s : State) (o : Origin) (u port lat : Nat) (rs : List (Nat × TWord)) (act : PendAct) : PendOp :=
  { o := o, unit := u, port := port, fire := s.core.cyc, lat := lat, results := rs, act := act, entry := true }

/-- An operation has fired and is in flight, as the youngest. -/
def inFlight (s : State) (o : Origin) (u port lat : Nat) (rs : List (Nat × TWord)) (act : PendAct) : State :=
  let s1 := fired s u
  { s1 with core := { s1.core with ops := s1.core.ops ++ [flight s o u port lat rs act] } }

/-- Operand i of a unit in a task's context. -/
def operand (s : State) (o : Origin) (u i : Nat) : TWord := getCtx s (opdKey o.task u i)

/-- A bit address word, a word address word. -/
def addrW (a : Nat) : TWord := mkT 12 a

/-- A bit address of the inputs, outputs, program flags or retentive bits. -/
def plainBit (a : Nat) : Prop := a < 2 ^ 20 ∧ ¬(0x20000 ≤ a ∧ a < 0x40000)

/-! ## Companions (chapters 14, 15) -/

/-- A companion has two links, twelve input channels and four outputs. -/
def CpnShape (c : CpnSt) : Prop :=
  c.links.length = 2 ∧ c.ins.length = 12 ∧ c.fast.length = 4 ∧ c.want.length = 4 ∧ c.driven.length = 4 ∧ c.tsd.length = 4 ∧
    c.lim.length = 4

/-- Companion k has a property, and nothing outside it has changed. -/
def CpnTo (s : State) (k : Nat) (p : CpnSt → Prop) (t : State) : Prop :=
  t = { s with fld := { s.fld with cpn := t.fld.cpn } } ∧ (∀ j, j ≠ k → cpnSt t j = cpnSt s j) ∧ p (cpnSt t k)

/-! ## Requests of the command protocol (chapter 18) -/

/-- A request of an open session in slot i arrives over the host port, with a sequence number that is new, and the interpreter is
free (R510 to R513, R523). -/
def Heard (s : State) (m : Mode) (rq : ZReq) (i : Nat) : Prop :=
  s.mode = m ∧ absent s = false ∧ interpreterBusy s = false ∧ s.zcp.outbox = [] ∧ s.zcp.held = [] ∧ rq.peer.tr = 3 ∧
    s.zcp.spiQueue.length < 4 ∧ s.zcp.sessions.length = 16 ∧ sessionSlot s rq.session = some i ∧
    (sessionAt s i).high.all (fun h => newer rq.seq h) = true

/-- The session has noted the request's sequence number (R511). -/
def noted (s : State) (rq : ZReq) (i : Nat) : State := updSession s i fun x => { x with high := some rq.seq }

/-- The packet that answers a request: flags beyond REPLY, status, data (R508). -/
def answer (rq : ZReq) (code status flags : Nat) (data : List Byte) : List Byte :=
  zcpPacket (0x80 + flags) rq.session rq.seq code status data

/-- One reply has joined the packets for the host port. -/
def Replied (s : State) (rq : ZReq) (code status : Nat) (data : List Byte) (t : State) : Prop :=
  t.zcp.spiQueue = s.zcp.spiQueue ++ [answer rq code status 0 data]

/-- A command is journaled with its status (R527, R528). -/
def Journaled (rq : ZReq) (code status : Nat) (t : State) : Prop :=
  ∃ e, t.zcp.journal.head? = some e ∧ e.opcode = code ∧ e.status = status ∧ e.session = rq.session

/-- A long operation has been accepted in slot k: the reply with ACCEPTED and the handle, the slot running (R515). -/
def Accepted (s : State) (rq : ZReq) (code k : Nat) (t : State) : Prop :=
  t.zcp.spiQueue = s.zcp.spiQueue ++ [answer rq code 0 0x20 (beBytes 2 (opHandle t k))] ∧ (opSlot t k).st = 1 ∧
    (opSlot t k).opcode = code ∧ (opSlot t k).session = rq.session ∧ (opSlot t k).seq = rq.seq

/-- The data spaces are in canonical form: addresses strictly rising, no entry equal to what an unlisted address reads as. -/
def Memory.wf (m : SpaceSt) : Bool :=
  swf false m.bits && swf TWord.empty m.words && swf false m.planeB && swf TWord.empty m.planeW

end Sys2Proof.Machine
end

