-- ==== Sys2Proof/Certificates/Slice0/Obligations.lean ====
section
/-!
DEFINITION. The statements for the provers, family by family. A statement names, for the commands it covers, conditions on the
state and the operands under which the command completes with its own effect, what the next state then holds, and what it leaves
as it was (`SameRegs`, `OnlyRegs`, `SameStores`, an equation for the whole next state). A free value of the model (log entry 2)
is never compared with a number.
-/

open Sys2Proof Sys2Proof.Machine Sys2Proof.Machine.Reg

/-- A step takes the command at the front of the queue and runs it on the state with the queue's rest. On an empty queue (the model's
choice, log entry 1, DESIGN CHOICE): with the reference stopped, in OFF and in BACKUP the state stays; in RESET the TAI counter
advances by its step when it runs, and registers, bits, words, NOR and pins stay; in a cycle in which nothing comes due TAI, CORE_CYC
and Plumb advance by their steps, the pulses end, and the mode, the bits, words and planes, the NOR, the pins and every register but
CORE_STAT.ISSUING and SBY_STAT.LINK stay. -/
def Obligations.StepRunsFront : Prop :=
  (∀ (s : State) (c : Instr) (rest : List Instr), s.pending = c :: rest → step s = exec c { s with pending := rest }) ∧
  (∀ s : State, s.pending = [] → s.ms.refStopped = true ∨ s.mode = .off ∨ s.mode = .backup → step s = .next s) ∧
  (∀ s : State, s.pending = [] → s.ms.refStopped = false → s.mode = .reset → ∃ t, step s = .next t ∧
    t.time.tai = (if s.time.running then s.time.tai + taiStep s else s.time.tai) ∧ t.mode = .reset ∧ t.pending = [] ∧
    t.regs = s.regs ∧ t.sp.words = s.sp.words ∧ t.sp.bits = s.sp.bits ∧ t.nv.nor = s.nv.nor ∧ t.pins = s.pins) ∧
  (∀ s : State, s.pending = [] → IdleCycle s → ∃ t, step s = .next t ∧
    t.time.tai = s.time.tai + taiStep s ∧ t.core.cyc = (s.core.cyc + 1) % 2 ^ 64 ∧
    t.plumb.acc = (s.plumb.acc + plbStep s) % 2 ^ 64 ∧ t.pulses = [] ∧ t.pending = [] ∧ t.mode = s.mode ∧
    SameRegs [CORE_STAT.ISSUING, SBY_STAT.LINK] s t ∧ SameSpaces s t)

/-- After reset BOOT is the mode, the queue of commands is empty, no register field differs from its reset value, no bit, no word and
no frozen plane holds anything, the program banks are empty, no operation is in flight, and the mailboxes, the event ring, the packet
queue and the NOR hold nothing. What the spec gives no reset value is a choice of the model (log entries 4 and 5, DESIGN CHOICE). -/
def Obligations.ResetState : Prop :=
  State.reset.mode = .boot ∧ State.reset.pending = [] ∧ (∀ f : Fld, getF State.reset f = f.rst) ∧
  (∀ a : Nat, sget false State.reset.sp.bits a = false) ∧ (∀ a : Nat, rawWord State.reset a = TWord.empty) ∧
  State.reset.sp.planeB = [] ∧ State.reset.sp.planeW = [] ∧ Memory.wf State.reset.sp = true ∧
  State.reset.core.bankA = [] ∧ State.reset.core.bankB = [] ∧ State.reset.core.ops = [] ∧
  State.reset.core.mbx = List.replicate 16 [] ∧ State.reset.zcp.events = [] ∧ State.reset.zcp.queue = [] ∧ State.reset.nv.nor = []

/-- Every step from a state whose memories are in canonical form, to a next state, leaves them in it: addresses strictly rising, no
entry equal to what an unlisted address reads as. -/
def Obligations.MemoryStaysCanonical : Prop :=
  ∀ s t : State, Memory.wf s.sp = true → step s = .next t → Memory.wf t.sp = true

/-- No command stops the machine, none touches the queue of commands, and each keeps the canonical form of the memories. -/
def Obligations.EveryCommandCompletes : Prop :=
  ∀ (c : Instr) (s : State), ∃ t : State, exec c s = .next t ∧ t.pending = s.pending ∧
    (Memory.wf s.sp = true → Memory.wf t.sp = true)

/-- The regular and fast frames of the field link as bits: the fields of a downstream frame are read back from its 128 bits for every
value that fits them; a regular frame has 20 characters and passes the receiver's check, and does not pass it with one bit of its
data bytes changed; a fast frame is a number below 2^25 that passes its check, with bit 24 set, SET in bits 23 to 20, CLR in bits 19
to 16 and the low byte of the epoch in bits 15 to 8. -/
def Obligations.FieldFrames : Prop :=
  (∀ f : DnFrame, f.epoch < 2 ^ 16 → f.stn < 2 ^ 8 → f.outcmd < 16 → f.mop < 4 → f.mtag < 256 → f.maddr < 2 ^ 16 →
      f.mdata < 2 ^ 32 → f.frameNo < 2 ^ 32 → dnBits f < 2 ^ 128 ∧ dnFields (dnBits f) = f) ∧
  (∀ w, (regularFrame w).length = 20 ∧ regularGood (regularFrame w) = true) ∧
  (∀ w i : Nat, i < 128 → regularGood ((regularFrame (w ^^^ 2 ^ i)).take 17 ++ (regularFrame w).drop 17) = false) ∧
  (∀ set clr epoch : Nat, set < 16 → clr < 16 → epoch < 256 →
      let w := fastBits set clr epoch
      w < 2 ^ 25 ∧ fastGood w = true ∧ bitOf w 24 = true ∧ bitsOf w 20 4 = set ∧ bitsOf w 16 4 = clr ∧ bitsOf w 8 8 = epoch)

/-- With the processor present, an interrupt line is driven low exactly while ZCP_IRQSRC has a bit that the line's mask selects, and,
with D8 on, the HPI ball of a controller exactly while its high-priority buffer holds an entry and HPB_IE is 1. In the absent states
both are released, the buses are recessive and the field links idle. The package has 174 signal balls, 2 of VBAT, 249 of VSS, and
127, 45, 22, 20, 11, 10, 9, 3 and 4 of the nine main supplies. -/
def Obligations.PinsAndPackage : Prop :=
  (∀ (s : State) (n : Nat), n < 4 → absent s = false → (irqLow s n = true ↔
    regVal s ZCP_IRQSRC.HALT.addr &&& nth 0 [getF s ZCP_IRQMASK.M0, getF s ZCP_IRQMASK.M1, getF s ZCP_IRQMASK.M2, getF s ZCP_IRQMASK.M3] n ≠ 0)) ∧
  (∀ (s : State) (n : Nat), n < 2 → absent s = false → domOn s 8 = true →
    (hpiLow s n = true ↔ 1 ≤ (canSt s n).hpb.length ∧ getF s (CAN_CTRL.HPB_IE n) ≠ 0)) ∧
  (∀ (s : State) (n : Nat), absent s = true → irqLow s n = false ∧ hpiLow s n = false ∧ canTxIdle s = true ∧ fieldLinkIdle s = true) ∧
  ballCount (fun b => match b with | .signal _ => true | _ => false) = 174 ∧ ballCount (· == .vbat) = 2 ∧
  ballCount (· == .vss) = 249 ∧ (List.range 9).map (fun i => ballCount (· == .vdd i)) = [127, 45, 22, 20, 11, 10, 9, 3, 4]

/-- VBAT_RISE above 2.0 V takes OFF into BACKUP, with the registers of D0 at their reset values. POWER_ON_RESET takes BACKUP and OFF
into RESET, with PREV and the cause of a power-on reset; the registers of D0 stay from BACKUP and start at their reset values from
OFF. RAIL_LOSS takes every mode beyond BACKUP into BACKUP when VBAT is at least 2.0 V, with the clock lost and the registers of D0
kept, and into OFF when it is below. VBAT_LOSS takes BACKUP into OFF. The NOR is kept by the first three and by RAIL_LOSS into
BACKUP. -/
def Obligations.SupplyTransitions : Prop :=
  (∀ (s : State) (mv : Nat), s.mode = .off → 2000 < mv → Completes (.vbatRise mv) s fun t =>
    t.mode = .backup ∧ t.cal.vbat = mv ∧ t.nv = s.nv ∧ t.pending = s.pending ∧
    ∀ f : Fld, f.lo < 32 → regDomain f.addr = 0 → getF t f = f.rst) ∧
  (∀ s : State, s.mode = .backup → Completes .powerOnReset s fun t =>
    t.mode = .reset ∧ getF t SYS_MODE.PREV = 1 ∧ getF t RST_CAUSE.LAST = 1 ∧ getF t RST_CAUSE.SRC = 1 ∧ t.nv.nor = s.nv.nor ∧
    t.cal.vbat = s.cal.vbat ∧ ∀ f : Fld, f.lo < 32 → regDomain f.addr = 0 → getF t f = getF s f) ∧
  (∀ s : State, s.mode = .off → Completes .powerOnReset s fun t =>
    t.mode = .reset ∧ getF t SYS_MODE.PREV = 0 ∧ getF t RST_CAUSE.LAST = 1 ∧ getF t RST_CAUSE.SRC = 1 ∧ t.nv.nor = s.nv.nor ∧
    ∀ f : Fld, f.lo < 32 → regDomain f.addr = 0 → getF t f = f.rst) ∧
  (∀ (s : State) (rail : Nat), rail < 9 → s.mode ≠ .off → s.mode ≠ .backup → 2000 ≤ s.cal.vbat →
    Completes (.railLoss rail) s fun t =>
    t.mode = .backup ∧ t.time = TimeSt.init ∧ t.pwr.mains = false ∧ getF t PWR_DSTAT.ON = 1 ∧ t.nv.nor = s.nv.nor ∧
    t.cal.vbat = s.cal.vbat ∧ ∀ f : Fld, f.lo < 32 → regDomain f.addr = 0 → getF t f = getF s f) ∧
  (∀ (s : State) (rail : Nat), rail < 9 → s.mode ≠ .off → s.mode ≠ .backup → s.cal.vbat < 2000 →
    Completes (.railLoss rail) s fun t => t.mode = .off ∧ getF t PWR_DSTAT.ON = 0) ∧
  (∀ s : State, s.mode = .backup → Completes .vbatLoss s fun t => t = setF { s with mode := .off } PWR_DSTAT.ON 0)

/-- From BOOT to HOLD, with no other source active, RESET_PIN of 50 ns or longer, WATCHDOG_EXPIRY and RAIL_RESET_WINDOW enter RESET:
PREV, the source's bit in RST_CAUSE.SRC and its code in LAST are set; the registers of D0, the NOR, the journal and the event ring
are kept; the TAI counter keeps its value and state, with no active source and in holdover. RESET_PIN shorter than 20 ns changes
nothing. -/
def Obligations.ResetSources : Prop :=
  (∀ s : State, absent s = false → s.ms.resetSrc = [] →
     (∀ ns : Nat, 50 ≤ ns → Completes (.resetPin ns) s (EntersReset s 3)) ∧
     Completes .watchdogExpiry s (EntersReset s 4) ∧
     (∀ rail : Nat, rail < 9 → Completes (.railResetWindow rail) s (EntersReset s 2))) ∧
  (∀ (s : State) (ns : Nat), ns < 20 → exec (.resetPin ns) s = .next s)

/-- Every reset (pin, watchdog, rail, ZCP RESET, request of the partner, power-on), and a power-up of D2, leaves every TMU slot free
with generation 0, the fire FIFO empty, every timer cell IDLE with start 0, every fast queue and mailbox empty, every accumulator
clear and every MAC selector 0. Every reset, and a power-up of D5, leaves every word of every frozen plane EMPTY and every bit 0. The
commit record, TXN_CREC_LAST, TXN_CREC_PREP and TXN_SEQ, lies on D0 and keeps its value through every reset and through the loss of
the main supplies. -/
def Obligations.ResetClears : Prop :=
  let d2 (t : State) : Prop := t.core.tmu = List.replicate 32 TmuSlot.init ∧ t.core.fifo = [] ∧ (∀ c, timerCell t c = (0, 0)) ∧
    t.core.fastQ = List.replicate 8 [] ∧ t.core.mbx = List.replicate 16 [] ∧ t.core.accs = List.replicate 8 PhuAcc.init ∧
    t.core.macSel = List.replicate 8 0
  let planes (t : State) : Prop := t.sp.planeB = [] ∧ t.sp.planeW = []
  let record (s t : State) : Prop := getF t TXN_CREC_LAST.SEQ = getF s TXN_CREC_LAST.SEQ ∧
    getF t TXN_CREC_PREP.VALID = getF s TXN_CREC_PREP.VALID ∧ getF t TXN_CREC_PREP.SEQ = getF s TXN_CREC_PREP.SEQ ∧
    getF t TXN_SEQ.SEQ = getF s TXN_SEQ.SEQ
  (∀ f : Fld, f ∈ [TXN_CREC_LAST.SEQ, TXN_CREC_PREP.VALID, TXN_CREC_PREP.SEQ, TXN_SEQ.SEQ] → regDomain f.addr = 0) ∧
  (∀ s : State, absent s = false → s.ms.resetSrc = [] →
    (∀ ns : Nat, 50 ≤ ns → Completes (.resetPin ns) s fun t => d2 t ∧ planes t ∧ record s t) ∧
    Completes .watchdogExpiry s (fun t => d2 t ∧ planes t ∧ record s t) ∧
    (∀ rail : Nat, rail < 9 → Completes (.railResetWindow rail) s fun t => d2 t ∧ planes t ∧ record s t) ∧
    (∀ (rq : ZReq) (i : Nat), Heard s .stop rq i → Completes (.zcpReset rq) s fun t => d2 t ∧ planes t ∧ record s t) ∧
    (∀ lseq : Nat, getF s SBY_STAT.LINK = 2 → s.sby.fresh = false → lseq < 65536 → lseq = s.sby.rxSeq →
      isSet s SBY_CFG.RST_ACCEPT = true → Completes (.sblRstreqRx true lseq) s fun t => d2 t ∧ planes t ∧ record s t)) ∧
  (∀ s : State, s.mode = .backup → Completes .powerOnReset s fun t => d2 t ∧ planes t ∧ record s t) ∧
  (∀ s : State, s.mode = .off → Completes .powerOnReset s fun t => d2 t ∧ planes t) ∧
  (∀ (s : State) (rail : Nat), rail < 9 → s.mode ≠ .off → s.mode ≠ .backup → 2000 ≤ s.cal.vbat →
    Completes (.railLoss rail) s (record s)) ∧
  (∀ (s : State) (rest : List Nat), s.mode ≠ .reset → s.pwr.ramp = 2 :: rest → Completes (.domainPowerGood 2) s d2) ∧
  (∀ (s : State) (rest : List Nat), s.mode ≠ .reset → s.pwr.ramp = 5 :: rest →
    Completes (.domainPowerGood 5) s planes)

/-- RESET_PIN_RELEASE samples the straps, and BOOT begins if the reference is stable; if it is not, the release is kept.
REFERENCE_STABLE begins BOOT if the release has come, and is noted otherwise. RSTOUT_RELEASE, ALIVE_TOGGLE and REF25_STOP from BOOT
to HOLD change one pin or one mark and nothing else; in the absent states ALIVE_TOGGLE changes nothing. BOOT_COMPLETE, with the
loading done, waits for the counter and then enters SELFTEST with test 0. SELFTEST_TEST_DONE without a failure writes result 1 of the
test: tests 0 to 5 of SELFTEST are followed by the next one, a test on demand ends. -/
def Obligations.ReleaseBootAndSelftest : Prop :=
  ((∀ (s : State) (stn bootsel : Nat), s.mode = .reset → s.ms.refStable = true → stn < 256 → bootsel < 4 →
     Completes (.resetPinRelease stn bootsel) s fun t =>
       t.mode = .boot ∧ t.pins.stn = stn ∧ t.pins.bootsel = bootsel ∧ t.pins.resetLow = false ∧ t.ms.resetSrc = [] ∧
       t.nv.nor = s.nv.nor ∧ t.pending = s.pending) ∧
   (∀ (s : State) (stn bootsel : Nat), s.mode = .reset → s.ms.refStable = false → Completes (.resetPinRelease stn bootsel) s fun t =>
       t.mode = .reset ∧ t.ms.released = true ∧ t.pins.stn = stn % 256 ∧ t.regs = s.regs ∧ t.sp = s.sp) ∧
   (∀ s : State, s.mode = .reset → s.ms.released = true → Completes .referenceStable s fun t =>
       t.mode = .boot ∧ t.ms.refStable = true ∧ t.ms.released = false ∧ t.nv.nor = s.nv.nor) ∧
   (∀ s : State, s.mode = .reset → s.ms.released = false → Completes .referenceStable s fun t =>
       t = { s with ms := { s.ms with refStable := true, refStopped := false } })) ∧
  (∀ s : State, absent s = false →
     exec .rstoutRelease s = .next { s with pins := { s.pins with rstout := false } } ∧
     exec .aliveToggle s = .next { s with pins := { s.pins with alive := !s.pins.alive } } ∧
     exec .ref25Stop s = .next { s with ms := { s.ms with refStopped := true } }) ∧
  (∀ s : State, absent s = true → exec .aliveToggle s = .next s) ∧
  ((∀ s : State, s.mode = .boot → s.ms.refStopped = false → s.ms.bootLoaded = true → s.time.running = false →
     exec .bootComplete s = .next s) ∧
   (∀ s : State, s.mode = .boot → s.ms.refStopped = false → s.ms.bootLoaded = true → s.time.running = true →
     isSet s SYS_MODE.NO_IMAGE = false → domOn s 11 = true →
     Completes .bootComplete s fun t => t.mode = .selftest ∧ t.ms.selftest = some 0 ∧ t.nv = s.nv ∧ ModeFrame s t) ∧
   (∀ (s : State) (i : Nat), s.mode = .selftest → s.ms.selftest = some i → i < 6 → Completes (.selftestTestDone []) s fun t =>
       bitsOf (getF t SYS_STRES.RES) (2 * i) 2 = 1 ∧ t.ms.selftest = some (i + 1) ∧ t.mode = .selftest ∧ t.sp = s.sp) ∧
   (∀ (s : State) (i op : Nat), s.ms.selftest = none → s.ms.demandTest = some (i, op) → i < 12 →
     Completes (.selftestTestDone []) s fun t =>
       bitsOf (getF t SYS_STRES.RES) (2 * i) 2 = 1 ∧ t.ms.demandTest = none ∧ t.mode = s.mode ∧ t.sp = s.sp))

/-- Mode requests of the host port that are accepted: STOP from RUN and TRACK, with no trigger held, sets STOP_PENDING and changes
nothing else; STOP from SAFE_HALT enters STOP; HALT raises halt cause 8, and a halt cause that has arisen takes the device into
SAFE_HALT at the end of the cycle; HOLD from STOP lists the domains to be switched off; RUN from STOP of a standalone unit enters
RUN. A pending STOP takes effect at a quiet point, or at its time limit with STOP_FORCED; a pending negotiation of a secondary
without SOLO ends in TRACK. -/
def Obligations.ModeChanges : Prop :=
  ((∀ (s : State) (dbg : Bool), s.mode = .run ∨ s.mode = .track → (∀ k ∈ s.scan.tasks, k.held = none) →
     exec (.modeReqStop dbg) s = .next { s with ms := { s.ms with stopPending := true } }) ∧
   (∀ (s : State) (dbg : Bool), s.mode = .safeHalt → Completes (.modeReqStop dbg) s fun t => t.mode = .stop ∧ ModeFrame s t) ∧
   (∀ (s : State) (dbg : Bool), inMode s runModes = true → s.ms.haltPend = none → Completes (.modeReqHalt dbg) s fun t =>
     t.ms.haltPend = some 8 ∧ t.mode = s.mode ∧ t.regs = (journalInt s SYS_MODE.HALT_CAUSE.addr 8).regs ∧ ModeFrame s t) ∧
   (∀ (s : State) (c : Nat), s.pending = [] → inMode s runModes = true → s.ms.haltPend = some c → c < 256 →
     IdleCycle { s with ms := { s.ms with haltPend := none } } → ∃ t, step s = .next t ∧
     t.mode = .safeHalt ∧ getF t SYS_MODE.HALT_CAUSE = c ∧ t.ms.haltPend = none) ∧
   (∀ (s : State) (dbg : Bool), s.mode = .stop → isSet s TXN_STAT.STATE = false → s.ms.demandTest = none →
     s.ms.holdEntry = none → s.ms.waking = none → s.ms.negotiating = false → holdNeedsOk s = true →
     Completes (.modeReqHold dbg) s fun t =>
       t.mode = .stop ∧ t.ms.holdEntry = some (downOrder.filter fun d => !keeps s d) ∧ t.sp = s.sp) ∧
   (∀ (s : State) (dbg : Bool), s.mode = .stop → runRefused s = false → dirRole s = 0 → Completes (.modeReqRun dbg) s fun t =>
     t.mode = .run ∧ getF t SYS_MODE.HALT_CAUSE = 0 ∧ ModeFrame s t)) ∧
  ((∀ s : State, s.mode = .run → s.ms.stopPending = true → quiet s = true → Completes .stopAtQuietPoint s fun t =>
     t.mode = .stop ∧ t.ms.stopPending = false ∧ getF t SYS_MODE.STOP_FORCED = getF s SYS_MODE.STOP_FORCED ∧ ModeFrame s t) ∧
   (∀ s : State, s.mode = .run → s.ms.stopPending = true → quiet s = false → Completes .stopTimeout s fun t =>
     t.mode = .stop ∧ t.ms.stopPending = false ∧ getF t SYS_MODE.STOP_FORCED = 1 ∧ ModeFrame s t) ∧
   (∀ s : State, s.ms.negotiating = true → dirRole s = 2 → isSet s SBY_CFG.SOLO = false → Completes .roleNegTimeout s fun t =>
     t.mode = .track ∧ t.ms.negotiating = false ∧ ModeFrame s t))

/-- A mode request that the mode does not allow (STOP in STOP, RUN_EDIT or HOLD; RUN in RUN or HOLD; HALT in STOP or HOLD; HOLD in
RUN or HOLD), with no access error recorded before, changes nothing but the record of the access error, which holds MODE_REFUSED and
the address of SYS_MODECTL. -/
def Obligations.ModeRequestsRefused : Prop :=
  ∀ (s : State) (dbg : Bool), getF s SYS_ACCERR.FLAGS = 0 →
    let t := setFs s [(SYS_ACCERR.FIRST, 10), (SYS_ACCERR.FIRST_DBG, b2n dbg), (SYS_ACCADDR.ADDR, SYS_MODECTL.REQ.addr),
      (SYS_ACCERR.FLAGS, 2 ^ 9)]
    (s.mode = .stop ∨ s.mode = .runEdit ∨ s.mode = .hold → exec (.modeReqStop dbg) s = .next t) ∧
    (s.mode = .run ∨ s.mode = .hold → exec (.modeReqRun dbg) s = .next t) ∧
    (s.mode = .stop ∨ s.mode = .hold → exec (.modeReqHalt dbg) s = .next t) ∧
    (s.mode = .run ∨ s.mode = .hold → exec (.modeReqHold dbg) s = .next t)

/-- HOLD_ENTRY_DONE switches off the domains still listed and enters HOLD. In HOLD, an enabled WAKE_PIN of 1 µs or longer, and an
enabled WAKE_TIME once TAI has reached SYS_WAKETIME, begin the wake and record their source. DOMAIN_POWER_GOOD brings up the domain
at the head of the ramp (D3 and D8 here). HOLD_WAKE_RELOAD_DONE without an accepted slot and without a bank before leaves both banks
empty with bank A active. WAKE_COMPLETE, with every domain up and the reload done, enters STOP. -/
def Obligations.HoldAndWake : Prop :=
  (∀ (s : State) (ds : List Nat), s.ms.holdEntry = some ds → Completes .holdEntryDone s fun t =>
    t.mode = .hold ∧ t.ms.holdEntry = none ∧ (∀ d ∈ ds, domOn t d = false) ∧ ModeFrame s t) ∧
  (∀ (s : State) (ns : Nat), s.mode = .hold → s.ms.waking = none → bitOf (getF s SYS_WAKE.EN) 1 = true → 1000 ≤ ns →
    Completes (.wakePin ns) s fun t => t.ms.waking ≠ none ∧ getF t SYS_WAKESRC.SRC = 2 ∧ t.mode = .hold ∧
      SameRegs [SYS_WAKESRC.SRC] s t ∧ SameStores s t) ∧
  (∀ s : State, s.mode = .hold → s.ms.waking = none → bitOf (getF s SYS_WAKE.EN) 3 = true →
    newer (getF s SYS_WAKETIME.SEC) (taiSec s.time.tai % 2 ^ 32) = false →
    Completes .wakeTime s fun t => t.ms.waking ≠ none ∧ getF t SYS_WAKESRC.SRC = 8 ∧ t.mode = .hold ∧
      SameRegs [SYS_WAKESRC.SRC] s t ∧ SameStores s t) ∧
  (∀ (s : State) (d : Nat) (rest : List Nat), s.pwr.ramp = d :: rest → d = 3 ∨ d = 8 → domOn s d = false → s.mode = .hold →
    Completes (.domainPowerGood d) s fun t => domOn t d = true ∧ t.pwr.ramp = rest ∧ t.mode = .hold ∧ t.sp = s.sp) ∧
  (∀ s : State, s.ms.wakeReload = true → getF s NVS_STAT.BOOTSLOT = 3 → s.ms.heldPid = (0, 0) → Completes .holdWakeReloadDone s fun t =>
    t.ms.wakeReload = false ∧ t.core.bankA = [] ∧ t.core.bankB = [] ∧ getF t CORE_BANK.ACTIVE = 0 ∧ t.mode = s.mode ∧
    t.sp.words = s.sp.words ∧ t.sp.bits = s.sp.bits) ∧
  (∀ (s : State) (l : List Nat), s.ms.waking = some l → s.pwr.ramp = [] → s.ms.wakeReload = false → s.mode = .hold →
    Completes .wakeComplete s fun t => t.mode = .stop ∧ t.ms.waking = none ∧ ModeFrame s t)

/-- D11_SWITCH switches D11 off, or puts it on the ramp, in the modes of Table 3.2, and is refused in HOLD. PROCESS_MEASURE,
RAIL_MEASURE and TEMP_MEASURE hold the measurement; inside the warning window nothing else changes but the highest and lowest
temperature; above it, for rail 0 and for a sensor that was inside, the warning bit sets and an event is raised. Voltage scaling: a
decision to change takes the target, holds it and writes to the regulator; a quiet cycle releases it into VSET; the time limit gives
it up; a read-back within 15 mV changes nothing, one more than 15 mV above sets FAULT. PMB_ALERT takes the status, after a held write
if there is one. -/
def Obligations.PowerMonitoring : Prop :=
  ((∀ (s : State) (dbg : Bool), inMode s d11Modes = true → domOn s 11 = true → Completes (.d11Switch true dbg) s fun t =>
     domOn t 11 = false ∧ getF t PWR_D11CTL.OFF = 1 ∧ SameRegs [PWR_D11CTL.OFF, PWR_DSTAT.ON] s t ∧ SameStores s t ∧
     t.mode = s.mode) ∧
   (∀ (s : State) (dbg : Bool), inMode s d11Modes = true → domOn s 11 = false → 11 ∉ s.pwr.ramp →
     exec (.d11Switch false dbg) s =
       .next { setF s PWR_D11CTL.OFF 0 with pwr := { s.pwr with ramp := s.pwr.ramp ++ [11] } }) ∧
   (∀ (s : State) (off dbg : Bool), s.mode = .hold → exec (.d11Switch off dbg) s = .next (accErr s 10 PWR_D11CTL.OFF.addr dbg))) ∧
  ((∀ (s : State) (m count : Nat), d1On s = true → m < 8 → exec (.processMeasure m count) s = .next (setF s (MON_PM.COUNT m) count)) ∧
   (∀ (s : State) (rail mv hi lo : Nat), d1On s = true → rail < 9 → railWindow s rail = some (hi, lo) → lo ≤ mv → mv ≤ hi →
     monTest s = false → Completes (.railMeasure rail mv) s fun t =>
       getF t (MON_VOLT.MV rail) = mv % 2 ^ (MON_VOLT.MV rail).w ∧ SameRegs [MON_VOLT.MV rail] s t ∧ SameStores s t ∧
       rail ∉ t.pwr.vOut) ∧
   (∀ (s : State) (mv : Nat), d1On s = true → 0xFFFF < mv → s.pwr.warnOff = false → monTest s = false → 0 ∉ s.pwr.vOut →
     bitOf (getF s SYS_WAKE.EN) 4 = false → getF s MON_STAT.VWARN < 2 ^ MON_STAT.VWARN.w → getF s MON_VWARN0.HI ≤ 0xFFFF →
     Completes (.railMeasure 0 mv) s fun t =>
       bitOf (getF t MON_STAT.VWARN) 0 = true ∧ t.zcp.events.head? =
         some { seq := getF s ZCP_ESEQ.SEQ, sec := taiSec s.time.tai % 2 ^ 32, tns := tlo (classNow s) s.time.tai,
                reg := MON_STAT.VWARN.addr, bitArg := MON_STAT.VWARN.lo * 2 ^ 24 + getF t MON_STAT.VWARN } ∧ t.mode = s.mode) ∧
   (∀ (s : State) (sensor : Nat) (x : Int), d1On s = true → sensor < 6 → -32768 ≤ x → x ≤ 32767 → sensor ∉ s.pwr.tOut →
     s.pwr.hot = false → x ≤ (getF s MON_TCFG.TSHUT : Int) * 4 → signedOf 8 (getF s MON_TCFG.WARN_LO) * 4 ≤ x →
     (x ≤ signedOf 8 (getF s MON_TCFG.WARN_HI) * 4 → Completes (.tempMeasure sensor x) s fun t =>
       getF t (MON_TEMP.T sensor) = unsignedOf 16 x ∧ SameRegs [MON_TEMP.T sensor, MON_EXT.TMAX, MON_EXT.TMIN] s t ∧
       SameStores s t ∧ t.mode = s.mode) ∧
     (signedOf 8 (getF s MON_TCFG.WARN_HI) * 4 < x → s.pwr.warnOff = false → monTest s = false → bitOf (getF s SYS_WAKE.EN) 4 = false →
       Completes (.tempMeasure sensor x) s fun t => bitOf (getF t MON_STAT.TWARN) sensor = true ∧ sensor ∈ t.pwr.tOut ∧
         t.zcp.events.length = min 256 (s.zcp.events.length + 1) ∧
         SameRegs [MON_TEMP.T sensor, MON_EXT.TMAX, MON_EXT.TMIN, MON_STAT.TWARN, ZCP_ESEQ.SEQ] s t ∧ SameStores s t))) ∧
  ((∀ s : State, inMode s avsModes = true → isSet s PWR_AVS.EN = true → isSet s PWR_AVSSTAT.FAULT = false → s.pwr.target = none →
     avsTarget s ≠ getF s PWR_AVSSTAT.VSET →
     Completes .avsDecision s fun t => t.pwr.target = some (avsTarget s) ∧ getF t PWR_AVSSTAT.HOLDING = 1 ∧
       t.pwr.sent.length = (if isSet s PWR_AVS.PEC then 5 else 4) ∧ t.pwr.vexp.isSome = true ∧
       SameRegs [PWR_AVSSTAT.HOLDING] s t ∧ SameStores s t ∧ t.mode = s.mode) ∧
   (∀ (s : State) (v : Nat), s.pwr.target = some v → quiet s = true → absent s = false → s.pwr.alert = none → Completes .avsRelease s fun t =>
     getF t PWR_AVSSTAT.VSET = v % 2 ^ PWR_AVSSTAT.VSET.w ∧ getF t PWR_AVSSTAT.HOLDING = 0 ∧ t.pwr.target = none ∧
     t.pwr.readback = true ∧ getF t PWR_AVSCNT.STEPS = (getF s PWR_AVSCNT.STEPS + 1) % 2 ^ PWR_AVSCNT.STEPS.w ∧
     SameRegs [PWR_AVSSTAT.VSET, PWR_AVSSTAT.HOLDING, PWR_AVSCNT.STEPS] s t ∧ SameStores s t) ∧
   (∀ (s : State) (v : Nat), s.pwr.target = some v → s.pwr.alert = none → Completes .avsHoldTimeout s fun t =>
     t.pwr.target = none ∧ getF t PWR_AVSSTAT.HOLDING = 0 ∧ getF t PWR_AVSSTAT.VSET = getF s PWR_AVSSTAT.VSET ∧
     SameRegs [PWR_AVSSTAT.HOLDING, PWR_AVSCNT.SKIP] s t ∧ SameStores s t) ∧
   (∀ (s : State) (mv : Nat), s.pwr.readback = true → getF s PWR_AVSSTAT.VSET ≤ mv + 15 → mv ≤ getF s PWR_AVSSTAT.VSET + 15 →
     exec (.avsReadback mv false) s = .next { s with pwr := { s.pwr with readback := false } }) ∧
   (∀ (s : State) (mv : Nat), s.pwr.readback = true → getF s PWR_AVSSTAT.VSET + 15 < mv → Completes (.avsReadback mv false) s fun t =>
     getF t PWR_AVSSTAT.FAULT = 1 ∧ t.zcp.events.length = min 256 (s.zcp.events.length + 1) ∧
     SameRegs [PWR_AVSSTAT.FAULT, ZCP_ESEQ.SEQ] s t ∧ SameStores s t) ∧
   (∀ (s : State) (v a : Nat), s.pwr.target = some v → s.pwr.alert = some a → Completes .avsHoldTimeout s fun t =>
     t.pwr.target = none ∧ t.pwr.alert = none ∧ getF t PWR_AVSPMB.STATUS = a % 2 ^ PWR_AVSPMB.STATUS.w ∧
     getF t PWR_AVSSTAT.ALERT = 1 ∧ SameStores s t) ∧
   (∀ (s : State) (v status : Nat), absent s = false → s.pwr.target = some v →
     exec (.pmbAlert status) s = .next { s with pwr := { s.pwr with alert := some status } }) ∧
   (∀ (s : State) (status : Nat), absent s = false → s.pwr.target = none → Completes (.pmbAlert status) s fun t =>
     getF t PWR_AVSPMB.STATUS = status % 2 ^ PWR_AVSPMB.STATUS.w ∧ getF t PWR_AVSSTAT.ALERT = 1 ∧
     SameRegs [PWR_AVSPMB.STATUS, PWR_AVSSTAT.ALERT, ZCP_ESEQ.SEQ] s t ∧ SameStores s t))

/-- While D1 is on each instruction of the test access port is selected; EXTEST and CLAMP drive the pins, and HIGHZ releases them,
only while RESET_N is low; IDCODE shifts out 0x0E400A6B in 32 bits and BYPASS one bit 0. While D1 is off EXTEST, IDCODE and BYPASS
change nothing. -/
def Obligations.TestAccessPort : Prop :=
  (∀ (s : State), d1On s = true →
     (∀ cells : Nat, cells < 2 ^ 612 → exec (.tapExtest cells) s =
       .next { s with tap := { s.tap with ir := .extest, bsr := cells, drive := s.pins.resetLow, highz := false } }) ∧
     (∀ cells : Nat, cells < 2 ^ 612 → exec (.tapSamplePreload cells) s =
       .next { s with tap := { s.tap with ir := .sample, bsr := cells, drive := false, highz := false } }) ∧
     (Completes .tapIdcode s fun t => tapDr t = (32, 0x0E400A6B) ∧
       t = { s with tap := { s.tap with ir := .idcode, drive := false, highz := false } }) ∧
     exec .tapClamp s = .next { s with tap := { s.tap with ir := .clamp, drive := s.pins.resetLow, highz := false } } ∧
     exec .tapHighz s = .next { s with tap := { s.tap with ir := .highz, drive := false, highz := s.pins.resetLow } } ∧
     (Completes .tapBypass s fun t => tapDr t = (1, 0) ∧
       t = { s with tap := { s.tap with ir := .bypass, drive := false, highz := false } })) ∧
  (∀ (s : State) (cells : Nat), d1On s = false → exec (.tapExtest cells) s = .next s ∧ exec .tapIdcode s = .next s ∧
     exec .tapBypass s = .next s)

/-- A missing 1PPS edge, a missing IRIG-B marker, a time exchange of the standby link that fails to come and missing PTP messages
clear VALID and QUALIFIED of their source and leave the counter. SOURCE_QUALIFIED: a VALID source becomes QUALIFIED. SOURCE_SWITCH:
the best-ranked source takes the place of another active one, alone selected, with LOCKED set and HOLDOVER clear. A good IRIG-B frame
of a VALID source without extensions, and a 1PPS edge of the configured polarity one second after the last within 100 µs, are
measured against the counter: the offset stands in TIM_SRC_OFFSET in ns, and the source is VALID. An edge of the other polarity
changes nothing. -/
def Obligations.TimeSources : Prop :=
  (∀ s : State,
     (srcOn s 5 = true → Completes .ppsTimeout s fun t =>
       getF t (TIM_SRC_STAT.VALID 5) = 0 ∧ getF t (TIM_SRC_STAT.QUALIFIED 5) = 0 ∧ t.time.ppsLast = none ∧
       t.time.tai = s.time.tai ∧ SameStores s t) ∧
     (srcOn s 4 = true → Completes .irigbPositionMarkerMissing s fun t =>
       getF t (TIM_SRC_STAT.VALID 4) = 0 ∧ getF t (TIM_SRC_STAT.QUALIFIED 4) = 0 ∧ t.time.irigGood = 0 ∧
       t.time.tai = s.time.tai ∧ SameStores s t) ∧
     (absent s = false → Completes .sblTimexTimeout s fun t =>
       getF t (TIM_SRC_STAT.VALID 6) = 0 ∧ getF t (TIM_SRC_STAT.QUALIFIED 6) = 0 ∧ t.time.sblEx = none ∧
       t.time.tai = s.time.tai ∧ SameStores s t) ∧
     (∀ (port : Nat) (a : Bool), absent s = false → port < 4 → s.time.ptp.length = 4 → Completes (.ptpTimeout port a) s fun t =>
       getF t (TIM_SRC_STAT.VALID port) = 0 ∧ getF t (TIM_SRC_STAT.QUALIFIED port) = 0 ∧ t.time.tai = s.time.tai ∧ SameStores s t)) ∧
  ((∀ (s : State) (n : Nat), n < 7 → srcOn s n = true → isSet s (TIM_SRC_STAT.VALID n) = true →
     isSet s (TIM_SRC_STAT.QUALIFIED n) = false → Completes (.sourceQualified n) s fun t =>
       getF t (TIM_SRC_STAT.QUALIFIED n) = 1 ∧ t.time.tai = s.time.tai ∧ t.mode = s.mode ∧ SameStores s t) ∧
   (∀ (s : State) (n : Nat), absent s = false → bestSource s = some n → getF s TIM_STAT.ACTIVE_SRC < 7 →
     getF s TIM_STAT.ACTIVE_SRC ≠ n → Completes (.sourceSwitch n) s fun t =>
       getF t TIM_STAT.ACTIVE_SRC = n ∧ getF t TIM_STAT.LOCKED = 1 ∧ getF t TIM_STAT.HOLDOVER = 0 ∧
       (∀ k, k < 7 → getF t (TIM_SRC_STAT.SELECTED k) = b2n (k == n)) ∧ t.time.tai = s.time.tai ∧ SameStores s t)) ∧
  ((∀ (s : State) (f : IrigFrame), srcOn s 4 = true → irigOk s f = true → isSet s (TIM_SRC_STAT.VALID 4) = true →
     getF s (TIM_SRC_CFG.PROFILE 4) = 0 → Completes (.irigbFrame f) s fun t =>
       getF t (TIM_SRC_OFFSET.OFFSET 4) =
         unsignedOf 32 (clampI (2 ^ 31 - 1) ((irigTai s f * secUnit - rawStamp s f.stamp) / (nsUnit : Int))) % 2 ^ 32 ∧
       isSet t (TIM_SRC_STAT.VALID 4) = true ∧ SameStores s t) ∧
   (∀ (s : State) (prev : Nat) (e : PpsEdge), srcOn s 5 = true → e.rising ≠ (getF s (TIM_SRC_CFG.PROFILE 5) % 2 == 1) →
     s.time.ppsLast = some prev → ((rawStamp s e.stamp : Int) - prev - secUnit).natAbs ≤ 100000 * nsUnit →
     Completes (.ppsEdge e) s fun t =>
       t.time.ppsLast = some (rawStamp s e.stamp) ∧ isSet t (TIM_SRC_STAT.VALID 5) = true ∧
       getF t (TIM_SRC_OFFSET.OFFSET 5) = unsignedOf 32 (clampI (2 ^ 31 - 1)
         ((((rawStamp s e.stamp + secUnit / 2) / secUnit * secUnit : Nat) - (rawStamp s e.stamp : Int)) / (nsUnit : Int))) % 2 ^ 32 ∧
       SameStores s t) ∧
   (∀ (s : State) (e : PpsEdge), e.rising = (getF s (TIM_SRC_CFG.PROFILE 5) % 2 == 1) →
     exec (.ppsEdge e) s = .next s))

/-- A PTP message of the port's domain and transport: an Announce is taken into the port's part of the time system; a one-step Sync
from a slave port's master of class 6 makes the source VALID and its offset the master's time plus correction and path delay minus
the ingress stamp; a two-step Sync is kept with its corrected stamp; a one-step peer-delay response gives the path delay. A
peer-delay request of the unit, an Announce or Sync of a master, and the answer to a peer-delay request, each enter the queue of the
unit's own frames as a PTP frame of origin SYS, and change no register. The time exchange of the standby link: a request carries the
sender's stamp and number; a request that arrives is answered with the own uncertainty and quality; a response gives offset, delay
and round trip and makes the source VALID. -/
def Obligations.TimeExchanges : Prop :=
  (∀ (s : State) (port : Nat) (m : PtpMsg), port < 4 → srcOn s port = true → portOn s port = true → testing s 7 = false →
     s.time.ptp.length = 4 → m.domain = getF s (TIM_SRC_CFG.DOMAIN port) → m.udp = isSet s (TIM_SRC_CFG.TRANSPORT port) →
     let q := nth PtpPort.init s.time.ptp port
     (m.kind = 0 → Completes (.ptpMessageRx port m) s fun t =>
       getF t (TIM_SRC_STAT.SLAVE port) = b2n m.slave ∧ (nth PtpPort.init t.time.ptp port).annOk = true ∧
       (nth PtpPort.init t.time.ptp port).clockClass = m.clockClass ∧ t.time.tai = s.time.tai ∧ SameStores s t) ∧
     (m.kind = 1 → m.twoStep = false → isSet s (TIM_SRC_STAT.SLAVE port) = true → q.annOk = true → q.clockClass = 6 →
       Completes (.ptpMessageRx port m) s fun t => isSet t (TIM_SRC_STAT.VALID port) = true ∧
         getF t (TIM_SRC_OFFSET.OFFSET port) = unsignedOf 32 (clampI (2 ^ 31 - 1)
           (((m.origin : Int) + m.corr + (getF s (TIM_SRC_DELAY.DELAY port) * nsUnit : Nat) - ptpStamp s port m) / (nsUnit : Int)))
           % 2 ^ 32 ∧ SameStores s t) ∧
     (m.kind = 1 → m.twoStep = true → Completes (.ptpMessageRx port m) s fun t =>
       (nth PtpPort.init t.time.ptp port).twoStep = some (m.seq, ((ptpStamp s port m : Int) - m.corr).toNat) ∧
       t.regs = s.regs ∧ t.time.tai = s.time.tai ∧ SameStores s t) ∧
     (∀ t1 : Nat, m.kind = 4 → m.twoStep = false → q.pdelay = some (m.seq, t1) → Completes (.ptpMessageRx port m) s fun t =>
       getF t (TIM_SRC_DELAY.DELAY port) =
         ((((ptpStamp s port m : Int) - t1 - m.corr) / 2).toNat / nsUnit) % 2 ^ (TIM_SRC_DELAY.DELAY port).w ∧
       (nth PtpPort.init t.time.ptp port).pdelay = none ∧ SameRegs [TIM_SRC_DELAY.DELAY port] s t ∧ SameStores s t)) ∧
  (∀ (s : State) (port : Nat), port < 4 → srcOn s port = true → portOn s port = true → redMode s (port / 2) ≠ 2 →
     s.egr.ports.length = 4 → (egrPort s port).queues.length = 8 → originOk s 0 true = true →
     egrRoom s port (getF s EGR_CTRL.SYSQ) probe = true → getF s EGR_CTRL.SYSQ < 8 →
     let sent (t : State) : Prop := (∃ f : EgrFrame, f.origin = 0 ∧ f.ptp = true ∧
       nth [] (egrPort t port).queues (getF s EGR_CTRL.SYSQ) = nth [] (egrPort s port).queues (getF s EGR_CTRL.SYSQ) ++ [f]) ∧
       t.regs = s.regs ∧ SameStores s t
     Completes (.peerDelayRequest port) s sent ∧
     (∀ kind : Nat, isSet s (TIM_SRC_CFG.MASTER_OK port) = true → 4 ≤ getF s TIM_STAT.ACTIVE_SRC →
       Completes (.ptpMasterSend port kind) s sent) ∧
     (∀ m : PtpMsg, m.kind = 3 → testing s 7 = false → m.domain = getF s (TIM_SRC_CFG.DOMAIN port) →
       m.udp = isSet s (TIM_SRC_CFG.TRANSPORT port) → Completes (.ptpMessageRx port m) s sent)) ∧
  (∀ s : State, srcOn s 6 = true → linkUp s = true → testing s 9 = false → Completes .sblTimexSend s fun t =>
     ∃ x, t.time = { s.time with sblEx := some (s.time.sblExNo, rawStamp s x), sblExNo := (s.time.sblExNo + 1) % 2 ^ 32 } ∧
       s.time.tai ≤ x ∧ x < s.time.tai + 5 * nsUnit / 2 ∧ t.sby = { s.sby with lastTimex := some (timexBytes
         { response := false, no := s.time.sblExNo, t1 := rawStamp s x, t2 := 0, t3 := 0, t4 := 0, unc := 0, tq := 0 }) } ∧
       t.regs = s.regs ∧ SameStores s t) ∧
  (∀ (s : State) (x : Timex), absent s = false → domOn s 9 = true → linkUp s = true → testing s 9 = false →
     (x.response = false → Completes (.sblTimexRx x) s fun t => ∃ a b, rawStamp s s.time.tai ≤ a ∧ t.sby = { s.sby with
       lastTimex := some (timexBytes { x with response := true, t2 := a, t3 := b, unc := getF s TIM_UNC.UNC, tq := getF s TIM_STAT.TQ }) } ∧
       t.time = s.time ∧ t.regs = s.regs ∧ SameStores s t) ∧
     (∀ t1 : Nat, x.response = true → srcOn s 6 = true → s.time.sblEx = some (x.no, t1) → partnerSrcOk s = true →
       let t4 := rawStamp s x.t4
       let trip : Int := ((t4 : Int) - t1) - ((x.t3 : Int) - x.t2)
       Completes (.sblTimexRx x) s fun t => t.time.sblEx = none ∧ isSet t (TIM_SRC_STAT.VALID 6) = true ∧
         getF t (TIM_SRC_DELAY.DELAY 6) = ((trip / 2).toNat / nsUnit) % 2 ^ (TIM_SRC_DELAY.DELAY 6).w ∧
         getF t SBY_RTT.NS = (trip.toNat / nsUnit) % 2 ^ SBY_RTT.NS.w ∧
         getF t (TIM_SRC_OFFSET.OFFSET 6) = unsignedOf 32 (clampI (2 ^ 31 - 1)
           (((((x.t2 : Int) - t1) + ((x.t3 : Int) - t4)) / 2) / (nsUnit : Int))) % 2 ^ 32 ∧ SameStores s t))

/-- HOLDOVER_UPDATE, while the uncertainty grows: TIM_UNC takes its value at the last correction plus TIM_HOLD_RATE pro rata of the
time since holdover began, saturating, TQ follows a time that is valid and not from the calendar, and nothing else changes.
LEAP_SECOND: when the flagged minute has ended TAI_UTC moves by one second, up with LEAP61 and down with LEAP59, the flags and
LEAP_PENDING clear, and the counter does not jump; before, nothing changes. The seed: at SEED_TIMEOUT, and at a CAL_SECOND_TICK that
comes first, the counter starts from the calendar's fields, with TQ 14, CAL_DERIVED and TIME_VALID when OSF is 0. PLUMB_CYCLE_WRAP
counts a cycle, and the angle starts again below one increment. PLUMB_SAMPLE_TIMEOUT ends tracking, copies the frequency into
PLB_HOLDF and leaves the angle. TIM_NOW_SH_READ and PLB_CYCLE_READ load the reader's own latch with one instant, and leave every
other latch and all else. -/
def Obligations.HoldoverSeedAndPlumb : Prop :=
  (∀ s : State, d1On s = true → s.time.running = true → s.time.growing = true →
     let u := min (s.time.holdBase + getF s TIM_HOLD_RATE.RATE * ((s.time.tai - s.time.holdStart) / nsUnit) / 1000000000) (2 ^ 32 - 1)
     Completes .holdoverUpdate s fun t => getF t TIM_UNC.UNC = u ∧
       getF t TIM_STAT.TQ = (if isSet s TIM_STAT.TIME_VALID && !isSet s TIM_STAT.CAL_DERIVED then tqOf u else getF s TIM_STAT.TQ) ∧
       SameRegs [TIM_UNC.UNC, TIM_STAT.TQ] s t ∧ t = { s with regs := t.regs }) ∧
  (∀ s : State, d1On s = true → s.time.running = true →
     (leapDue s = true → Completes .leapSecond s fun t =>
       getF t TIM_UTC.TAI_UTC =
         unsignedOf 16 (signedOf 16 (getF s TIM_UTC.TAI_UTC) + if isSet s TIM_UTC.LEAP61 then 1 else -1) % 2 ^ 16 ∧
       getF t TIM_UTC.LEAP61 = 0 ∧ getF t TIM_UTC.LEAP59 = 0 ∧ getF t TIM_STAT.LEAP_PENDING = 0 ∧ t.time.tai = s.time.tai ∧
       SameRegs [TIM_UTC.TAI_UTC, TIM_UTC.LEAP61, TIM_UTC.LEAP59, TIM_STAT.LEAP_PENDING] s t ∧ SameStores s t) ∧
     (leapDue s = false → exec .leapSecond s = .next s)) ∧
  (∀ s : State, seedDue s = true →
     let start (c : State) : Nat := taiOf (((calSecs c + epoch2000 : Nat) : Int) + signedOf 16 (getF s TIM_UTC.TAI_UTC)).toNat 0
     let derived (t : State) : Prop := getF t TIM_STAT.TQ = 14 ∧ getF t TIM_STAT.CAL_DERIVED = 1 ∧ getF t TIM_STAT.TIME_VALID = 1
     (Completes .seedTimeout s fun t => t.time.running = true ∧ t.time.tai = start s ∧ t.cal.ticked = true ∧
       (isSet s CAL_STAT.OSF = true → t.regs = s.regs) ∧ (isSet s CAL_STAT.OSF = false → derived t) ∧
       SameRegs [TIM_STAT.CAL_DERIVED, TIM_STAT.TQ, TIM_STAT.TIME_VALID] s t ∧ SameStores s t) ∧
     (∀ stamp : Nat, s.cal.point = none → Completes (.calSecondTick stamp) s fun t =>
       t.time.running = true ∧ t.time.tai = start t ∧ t.cal.ticked = true ∧ (isSet t CAL_STAT.OSF = false → derived t) ∧
       SameStores s t)) ∧
  ((∀ s : State, plbOn s = true → 2 ^ 64 ≤ s.plumb.acc + plbStep s → s.plumb.acc < 2 ^ 64 → plbStep s < 2 ^ 64 →
     Completes .plumbCycleWrap s fun t => t.plumb.cyc = (s.plumb.cyc + 1) % 2 ^ 32 ∧
       t.plumb.acc = s.plumb.acc + plbStep s - 2 ^ 64 ∧ t.plumb.acc < plbStep s ∧ t.regs = s.regs ∧ SameStores s t) ∧
   (∀ s : State, plbOn s = true → getF s PLB_CTRL.SRC_MODE ≠ 0 → isSet s PLB_STAT.TRACKING = true →
     Completes .plumbSampleTimeout s fun t => getF t PLB_STAT.TRACKING = 0 ∧ getF t PLB_STAT.FREERUN = 1 ∧
       getF t PLB_STAT.LOST = 1 ∧ getF t PLB_HOLDF.FREQ = getF s PLB_FREQ.FREQ % 2 ^ 32 ∧ t.plumb.corr = 0 ∧
       t.plumb.acc = s.plumb.acc ∧ t.plumb.cyc = s.plumb.cyc ∧
       SameRegs [PLB_STAT.TRACKING, PLB_STAT.FREERUN, PLB_STAT.LOST, PLB_HOLDF.FREQ, ZCP_ESEQ.SEQ] s t ∧ SameStores s t)) ∧
  ((∀ (s : State) (who : Nat), d1On s = true → Completes (.timNowShRead who) s fun t =>
     getLatch t who nowGroup = some [taiSec s.time.tai / 2 ^ 32, taiSec s.time.tai % 2 ^ 32, taiNs s.time.tai,
       s.time.tai % nsUnit / 2 ^ 16] ∧ (∀ w g, w * 16 + g ≠ who * 16 + nowGroup → getLatch t w g = getLatch s w g) ∧
     t = { s with latches := t.latches }) ∧
   (∀ (s : State) (who : Nat), plbOn s = true → Completes (.plbCycleRead who) s fun t =>
     getLatch t who plbGroup = some [plbAngle s, plbFreq s, getF s PLB_ROCOF.ROCOF] ∧
     (∀ w g, w * 16 + g ≠ who * 16 + plbGroup → getLatch t w g = getLatch s w g) ∧ t = { s with latches := t.latches }))

/-- A year from 2000 to 2399 is a leap year when it is divisible by 4 and is not 2100, 2200 or 2300, and the months have their
lengths (R487); dates and day numbers answer each other over all those years. A second tick at 2399-12-31 23:59:59 wraps the calendar
to Saturday 2000-01-01 00:00:00, sets OSF with cause 3, and sets WRAPPED (R488). -/
def Obligations.CalendarYears : Prop :=
  (∀ y m : Nat, 2000 ≤ y → y ≤ 2399 → 1 ≤ m → m ≤ 12 → monthLen y m =
    if m = 2 then (if 4 ∣ y ∧ y ≠ 2100 ∧ y ≠ 2200 ∧ y ≠ 2300 then 29 else 28) else if m ∈ [4, 6, 9, 11] then 30 else 31) ∧
  (∀ y m d : Nat, dateValid y m d 0 0 0 = true → dayDate (dateDays y m d) = (y, m, d) ∧
    (d < monthLen y m → dateDays y m (d + 1) = dateDays y m d + 1) ∧
    (d = monthLen y m → m < 12 → dateDays y (m + 1) 1 = dateDays y m d + 1) ∧
    (d = monthLen y m → m = 12 → dateDays (y + 1) 1 1 = dateDays y m d + 1)) ∧
  (∀ (s : State) (stamp : Nat), s.mode ≠ .off → getF s CAL_DATE.YEAR = 0x2399 → getF s CAL_DATE.MONTH = 0x12 →
    getF s CAL_DATE.DAY = 0x31 → getF s CAL_TIME.HOUR = 0x23 → getF s CAL_TIME.MIN = 0x59 → getF s CAL_TIME.SEC = 0x59 →
    Completes (.calSecondTick stamp) s fun t => getF t CAL_DATE.YEAR = 0x2000 ∧ getF t CAL_DATE.MONTH = 0x01 ∧
      getF t CAL_DATE.DAY = 0x01 ∧ getF t CAL_TIME.WDAY = 6 ∧ getF t CAL_TIME.HOUR = 0 ∧ getF t CAL_TIME.MIN = 0 ∧
      getF t CAL_TIME.SEC = 0 ∧ getF t CAL_STAT.OSF = 1 ∧ getF t CAL_STAT.OSF_CAUSE = 3 ∧ getF t CAL_STAT.WRAPPED = 1)

/-- A second tick advances the calendar by one second in every mode but OFF, before the end of 2399. A stop of the crystal sets OSF
with cause 2. VBAT sampled below the threshold sets LBF, with an event while D1 is on; a write clears LBF only 50 mV above the
threshold. CAL_DISCIPLINE_POINT, where discipline applies and a whole UTC second is reached: a step that is due loads the calendar
from UTC, clears OSF, sets STEPPED and counts; a point without a second tick so far waits for one; a point with a tick at most half a
second back and a phase error beyond the limit makes the next point a step. -/
def Obligations.CalendarRuns : Prop :=
  ((∀ (s : State) (stamp : Nat), s.mode ≠ .off → calSecs s + 1 < 146097 * 86400 → Completes (.calSecondTick stamp) s fun t =>
     calSecs t = calSecs s + 1 ∧ getF t CAL_SUB.TICKS = 0 ∧ t.cal.running = true ∧ SameStores s t) ∧
   (∀ s : State, s.mode ≠ .off → Completes .calOscStop s fun t =>
     getF t CAL_STAT.OSF = 1 ∧ getF t CAL_STAT.OSF_CAUSE = 2 ∧ t.cal = { s.cal with running := false } ∧
     SameRegs [CAL_STAT.OSF, CAL_STAT.OSF_CAUSE] s t ∧ SameStores s t) ∧
   (∀ (s : State) (mv : Nat), mv < lbfMv s → isSet s CAL_STAT.LBF = false →
     (s.mode = .backup → Completes (.lbfSample mv) s fun t => getF t CAL_STAT.LBF = 1 ∧
       t.cal = { s.cal with vbat := mv, lbfLate := true } ∧ SameRegs [CAL_STAT.LBF] s t ∧ SameStores s t) ∧
     (d1On s = true → Completes (.lbfSample mv) s fun t => getF t CAL_STAT.LBF = 1 ∧ t.cal = { s.cal with vbat := mv } ∧
       t.zcp.events.length = min 256 (s.zcp.events.length + 1) ∧ SameRegs [CAL_STAT.LBF, ZCP_ESEQ.SEQ] s t ∧ SameStores s t)) ∧
   (∀ (s : State) (mv : Nat), absent s = false → lbfMv s + 50 ≤ mv →
     exec (.lbfClear mv) s = .next (setF { s with cal := { s.cal with vbat := mv } } CAL_STAT.LBF 0)) ∧
   (∀ (s : State) (mv : Nat), absent s = false → mv < lbfMv s + 50 →
     exec (.lbfClear mv) s = .next { s with cal := { s.cal with vbat := mv } })) ∧
  (∀ (s : State) (p : Nat), calDisc s = true → pointNow s = some p →
     (s.cal.stepNext = true → epoch2000 ≤ utcSec s → utcSec s - epoch2000 < 146097 * 86400 → Completes .calDisciplinePoint s fun t =>
       calSecs t = utcSec s - epoch2000 ∧ getF t CAL_STAT.OSF = 0 ∧ getF t CAL_STAT.STEPPED = 1 ∧ t.cal.stepNext = false ∧
       t.cal.points = 0 ∧ getF t CAL_DISC.STEPS = (getF s CAL_DISC.STEPS + 1) % 2 ^ CAL_DISC.STEPS.w ∧ t.time = s.time ∧
       SameStores s t) ∧
     (s.cal.stepNext = false → s.cal.point = none → s.cal.ticks = [] →
       exec .calDisciplinePoint s = .next { s with cal := { s.cal with point := some p } }) ∧
     (∀ (l : Nat) (rest : List Nat), s.cal.stepNext = false → s.cal.point = none → s.cal.ticks = l :: rest → p - l ≤ secUnit / 2 →
       max 1 (getF s CAL_CTRL.PHLIM) * crystalTick < ((l : Int) - p).natAbs → Completes .calDisciplinePoint s fun t =>
       t.cal.stepNext = true ∧ t.cal.points = 0 ∧ t.cal.point = none ∧ SameRegs [CAL_DISC.PHASE] s t ∧ SameStores s t))

/-- A valid set loads date and time from CAL_WDATE and CAL_WTIME, clears the prescaler and OSF and releases every snapshot; an
invalid one changes nothing in the calendar and sets DATE_REJECT, with the access error BAD_DATE over the host port only. SNAP
latches date and time and holds them for the writer, unless it holds them already; SNAP with RELEASE latches anew; a read latches
unless the reader's snapshot is held; RELEASE gives up the writer's hold only. -/
def Obligations.CalendarSetAndRead : Prop :=
  ((∀ (s : State) (who : Nat) (dbg : Bool), absent s = false → setValid s = true → Completes (.calSet who dbg) s fun t =>
     getF t CAL_STAT.OSF = 0 ∧ getF t CAL_SUB.TICKS = 0 ∧ t.cal = { s.cal with snap := [] } ∧
     getF t CAL_DATE.YEAR = bitsOf (getF s CAL_WDATE.DATE) 16 16 ∧ getF t CAL_DATE.MONTH = bitsOf (getF s CAL_WDATE.DATE) 8 5 ∧
     getF t CAL_DATE.DAY = bitsOf (getF s CAL_WDATE.DATE) 0 6 ∧ getF t CAL_TIME.HOUR = bitsOf (getF s CAL_WTIME.HMS) 16 6 ∧
     getF t CAL_TIME.MIN = bitsOf (getF s CAL_WTIME.HMS) 8 7 ∧ getF t CAL_TIME.SEC = bitsOf (getF s CAL_WTIME.HMS) 0 7 ∧
     SameRegs [CAL_DATE.YEAR, CAL_DATE.MONTH, CAL_DATE.DAY, CAL_TIME.WDAY, CAL_TIME.HOUR, CAL_TIME.MIN, CAL_TIME.SEC, CAL_SUB.TICKS,
       CAL_STAT.OSF] s t ∧ t.time = s.time ∧ SameStores s t) ∧
   (∀ (s : State) (dbg : Bool), absent s = false → setValid s = false →
     exec (.calSet 16 dbg) s = .next (accErr (setF s CAL_STAT.DATE_REJECT 1) 11 CAL_SET.GO.addr dbg)) ∧
   (∀ (s : State) (who : Nat) (dbg : Bool), absent s = false → setValid s = false → who ≠ 16 →
     exec (.calSet who dbg) s = .next (setF s CAL_STAT.DATE_REJECT 1))) ∧
  (∀ (s : State) (who : Nat), absent s = false →
     let latched (t : State) : Prop := ∃ sub, getLatch t who calGroup = some
         [getF s CAL_TIME.WDAY * 2 ^ 24 + getF s CAL_TIME.HOUR * 2 ^ 16 + getF s CAL_TIME.MIN * 2 ^ 8 + getF s CAL_TIME.SEC,
          getF s CAL_DATE.YEAR * 2 ^ 16 + getF s CAL_DATE.MONTH * 2 ^ 8 + getF s CAL_DATE.DAY, sub]
     (who ∉ s.cal.snap → Completes (.calSnap who false) s fun t =>
       who ∈ t.cal.snap ∧ latched t ∧ t.regs = s.regs ∧ SameStores s t) ∧
     (who ∈ s.cal.snap → exec (.calSnap who false) s = .next s) ∧
     (Completes (.calSnap who true) s fun t => who ∈ t.cal.snap ∧ latched t ∧ t.regs = s.regs ∧ SameStores s t) ∧
     (who ∈ s.cal.snap → exec (.calTimeRead who) s = .next s) ∧
     (who ∉ s.cal.snap → Completes (.calTimeRead who) s fun t => latched t ∧ t.cal = s.cal ∧ t.regs = s.regs ∧ SameStores s t) ∧
     exec (.calSnapRelease who) s = .next { s with cal := { s.cal with snap := s.cal.snap.filter (· != who) } })

/-- ALU_ADD and ALU_SUB on UINT32, INT32, FIX16 and FLOAT32 words, and on COUNT and ANGLE words with a second operand of the same
tag, UINT32 or INT32; ALU_MIN and ALU_MAX and ALU_NEGABS on UINT32, INT32, FIX16 and FLOAT32 words: the result wraps, saturates or
follows binary32, and FLAGS stands in RES2. Nothing else changes but the context of the task, the marks of the firing and the
tracker's maximum. -/
def Obligations.AluArithmetic : Prop :=
  ∀ (s : State) (o : Origin) (u : Nat) (x y : BitVec 32), UnitReady s o u → 1 ≤ u → u ≤ 4 →
    let gives (i : Instr) (r : TWord) (c v : Bool) : Prop := exec i s = .next (landed s o u [(0, r), (2, flagsW c v r)])
    let sat (e : Int) : TWord := ⟨4, BitVec.ofInt 32 (max (-(2 ^ 31)) (min (2 ^ 31 - 1) e))⟩
    let beyond (e : Int) : Bool := decide (e < -(2 ^ 31) ∨ 2 ^ 31 - 1 < e)
    let f (r : Nat) : TWord := mkT 5 r
    let inf (r : Nat) : Bool := fFinite x.toNat && fFinite y.toNat && fInf r
    (operand s o u 0 = ⟨3, x⟩ →
      gives (.aluAdd o u ⟨3, y⟩) ⟨3, x + y⟩ (decide (2 ^ 32 ≤ x.toNat + y.toNat)) false ∧
      gives (.aluSub o u ⟨3, y⟩) ⟨3, x - y⟩ (decide (x.toNat < y.toNat)) false ∧
      gives (.aluMin o u ⟨3, y⟩) ⟨3, if y.ult x then y else x⟩ false false ∧
      gives (.aluMax o u ⟨3, y⟩) ⟨3, if x.ult y then y else x⟩ false false) ∧
    (operand s o u 0 = ⟨2, x⟩ →
      gives (.aluAdd o u ⟨2, y⟩) ⟨2, x + y⟩ (decide (2 ^ 32 ≤ x.toNat + y.toNat)) (beyond (x.toInt + y.toInt)) ∧
      gives (.aluSub o u ⟨2, y⟩) ⟨2, x - y⟩ (decide (x.toNat < y.toNat)) (beyond (x.toInt - y.toInt)) ∧
      gives (.aluMin o u ⟨2, y⟩) ⟨2, if y.slt x then y else x⟩ false false ∧
      gives (.aluMax o u ⟨2, y⟩) ⟨2, if x.slt y then y else x⟩ false false) ∧
    (operand s o u 0 = ⟨4, x⟩ →
      gives (.aluAdd o u ⟨4, y⟩) (sat (x.toInt + y.toInt)) false (beyond (x.toInt + y.toInt)) ∧
      gives (.aluSub o u ⟨4, y⟩) (sat (x.toInt - y.toInt)) false (beyond (x.toInt - y.toInt)) ∧
      gives (.aluMin o u ⟨4, y⟩) ⟨4, if y.slt x then y else x⟩ false false ∧
      gives (.aluMax o u ⟨4, y⟩) ⟨4, if x.slt y then y else x⟩ false false) ∧
    (operand s o u 0 = ⟨5, x⟩ →
      gives (.aluAdd o u ⟨5, y⟩) (f (fAdd x.toNat y.toNat)) false (inf (fAdd x.toNat y.toNat)) ∧
      gives (.aluSub o u ⟨5, y⟩) (f (fSub x.toNat y.toNat)) false (inf (fSub x.toNat y.toNat)) ∧
      (fNan x.toNat = false → fNan y.toNat = false →
        gives (.aluMin o u ⟨5, y⟩) ⟨5, if fKey y.toNat < fKey x.toNat then y else x⟩ false false ∧
        gives (.aluMax o u ⟨5, y⟩) ⟨5, if fKey x.toNat < fKey y.toNat then y else x⟩ false false) ∧
      (fNan x.toNat = true → fNan y.toNat = false →
        gives (.aluMin o u ⟨5, y⟩) ⟨5, y⟩ false false ∧ gives (.aluMax o u ⟨5, y⟩) ⟨5, y⟩ false false) ∧
      (fNan x.toNat = false → fNan y.toNat = true →
        gives (.aluMin o u ⟨5, y⟩) ⟨5, x⟩ false false ∧ gives (.aluMax o u ⟨5, y⟩) ⟨5, x⟩ false false) ∧
      (fNan x.toNat = true → fNan y.toNat = true →
        gives (.aluMin o u ⟨5, y⟩) (f (fNanOf x.toNat y.toNat)) false false ∧
        gives (.aluMax o u ⟨5, y⟩) (f (fNanOf x.toNat y.toNat)) false false)) ∧
    (∀ g h : BitVec 4, g = 9 ∨ g = 6 → h = g ∨ h = 3 ∨ h = 2 → operand s o u 0 = ⟨g, x⟩ →
      gives (.aluAdd o u ⟨h, y⟩) ⟨g, x + y⟩ (decide (2 ^ 32 ≤ x.toNat + y.toNat)) false ∧
      gives (.aluSub o u ⟨h, y⟩) ⟨g, x - y⟩ (decide (x.toNat < y.toNat)) false) ∧
    (let neg (i n a : TWord) (v : Bool) : Prop :=
       exec (.aluNegabs o u i) s = .next (landed s o u [(0, n), (1, a), (2, flagsW false v n)])
     neg ⟨3, y⟩ ⟨3, -y⟩ ⟨3, y⟩ false ∧
     neg ⟨2, y⟩ ⟨2, -y⟩ ⟨2, if y.msb then -y else y⟩ (y == BitVec.intMin 32) ∧
     neg ⟨4, y⟩ (sat (-y.toInt)) (if y.msb then sat (-y.toInt) else ⟨4, y⟩) (y == BitVec.intMin 32) ∧
     neg ⟨5, y⟩ (f (fNegate y.toNat)) (if y.msb then f (fNegate y.toNat) else ⟨5, y⟩) false)

/-- ALU_AND, ALU_OR and ALU_XOR on BOOL32, UINT32 and INT32 words; ALU_SHL and ALU_SHR of BOOL32, UINT32, INT32 and FIX16 words by
the low five bits of a UINT32 or INT32 count; ALU_SEL of any words by bit 0 of a BOOL32 or UINT32 word; ALU_CVT with RAW, of a word
of any tag 1 to 12, and without RAW, between numeric tags by the rules of conversion (`convert`), when a result exists. -/
def Obligations.AluLogicShiftSelect : Prop :=
  ∀ (s : State) (o : Origin) (u : Nat) (x y : BitVec 32), UnitReady s o u → 1 ≤ u → u ≤ 4 →
    let n := y.toNat % 32
    let gives (i : Instr) (r : TWord) (v : Bool) : Prop := exec i s = .next (landed s o u [(0, r), (2, flagsW false v r)])
    let sat (e : Int) : TWord := ⟨4, BitVec.ofInt 32 (max (-(2 ^ 31)) (min (2 ^ 31 - 1) e))⟩
    let beyond (e : Int) : Bool := decide (e < -(2 ^ 31) ∨ 2 ^ 31 - 1 < e)
    (∀ g : BitVec 4, g = 1 ∨ g = 2 ∨ g = 3 → operand s o u 0 = ⟨g, x⟩ →
      gives (.aluAnd o u ⟨g, y⟩) ⟨g, x &&& y⟩ false ∧ gives (.aluOr o u ⟨g, y⟩) ⟨g, x ||| y⟩ false ∧
      gives (.aluXor o u ⟨g, y⟩) ⟨g, x ^^^ y⟩ false) ∧
    (∀ h : BitVec 4, h = 2 ∨ h = 3 →
      (operand s o u 0 = ⟨3, x⟩ →
        gives (.aluShl o u ⟨h, y⟩) ⟨3, x <<< n⟩ (decide (2 ^ 32 ≤ x.toNat * 2 ^ n)) ∧
        gives (.aluShr o u ⟨h, y⟩) ⟨3, x >>> n⟩ false) ∧
      (operand s o u 0 = ⟨1, x⟩ →
        gives (.aluShl o u ⟨h, y⟩) ⟨1, x <<< n⟩ false ∧ gives (.aluShr o u ⟨h, y⟩) ⟨1, x >>> n⟩ false) ∧
      (operand s o u 0 = ⟨2, x⟩ →
        gives (.aluShl o u ⟨h, y⟩) ⟨2, x <<< n⟩ (beyond (x.toInt * 2 ^ n)) ∧
        gives (.aluShr o u ⟨h, y⟩) ⟨2, x.sshiftRight n⟩ false) ∧
      (operand s o u 0 = ⟨4, x⟩ →
        gives (.aluShl o u ⟨h, y⟩) (sat (x.toInt * 2 ^ n)) (beyond (x.toInt * 2 ^ n)) ∧
        gives (.aluShr o u ⟨h, y⟩) ⟨4, x.sshiftRight n⟩ false)) ∧
    (∀ h : BitVec 4, h = 1 ∨ h = 3 → exec (.aluSel o u ⟨h, y⟩) s =
      .next (landed s o u [(0, if y.getLsbD 0 then operand s o u 1 else operand s o u 0)])) ∧
    (∀ (tgt : Nat) (h : BitVec 4), 1 ≤ tgt → tgt ≤ 12 → 1 ≤ h.toNat → h.toNat ≤ 12 → operand s o u 0 = mkT 3 (16 + tgt) →
      gives (.aluCvt o u ⟨h, y⟩) (mkT tgt y.toNat) false) ∧
    (∀ (tgt v : Nat) (h : BitVec 4) (cut : Bool), isNum tgt = true → isNum h.toNat = true → operand s o u 0 = mkT 3 tgt →
      convert h.toNat tgt y.toNat = some (v, cut) → gives (.aluCvt o u ⟨h, y⟩) (mkT tgt v) cut)

/-- The Gecko operations: OUT goes into the bit that OPD1 names and into RES0; RISE and FALL also keep B in M. A write of a bit that
nothing else has written in this cycle gives the bit its value and leaves every other bit of the inputs, outputs, program flags and
retentive bits. GBU_TON and GBU_TOF change their timer cell by Table 6.4 and write RES0 and RES1; of two accesses in one cycle the
one of GBU1 stands. TIMER_SWEEP visits the cell CORE_CYC mod 1,024, if no Gecko unit has used it in this cycle, and makes it DONE
when it has run for 2^31 µs. -/
def Obligations.GeckoBitsAndTimers : Prop :=
  (∀ (s : State) (o : Origin) (u a b m q : Nat), UnitReady s o u → u = 5 ∨ u = 6 → s.sp.upsets = [] →
     plainBit a → plainBit b → plainBit m → plainBit q → operand s o u 1 = addrW q →
     let A := taskBit s o.task a
     let B := taskBit s o.task b
     let M := taskBit s o.task m
     let Q := taskBit s o.task q
     let put (x : State) (k : Nat) (v : Bool) : State := moveWriteBit (rankCore s.core.cyc u o.slot) x o.task k v
     let out (v : Bool) : State := landRes (put (fired s u) q v) o.task u [(0, boolW v)]
     let edge (v : Bool) : State := landRes (put (put (fired s u) q v) m B) o.task u [(0, boolW v)]
     exec (.gbuNot o u (addrW b)) s = .next (out (!B)) ∧
     exec (.gbuCopy o u (addrW b)) s = .next (out B) ∧
     (operand s o u 0 = addrW a →
       exec (.gbuAnd o u (addrW b)) s = .next (out (A && B)) ∧
       exec (.gbuOr o u (addrW b)) s = .next (out (A || B)) ∧
       exec (.gbuXor o u (addrW b)) s = .next (out (A != B)) ∧
       exec (.gbuAndn o u (addrW b)) s = .next (out (A && !B)) ∧
       exec (.gbuSr o u (addrW b)) s = .next (out (A || (Q && !B))) ∧
       exec (.gbuRs o u (addrW b)) s = .next (out (!B && (A || Q)))) ∧
     (operand s o u 2 = addrW m → m ≠ q →
       exec (.gbuRise o u (addrW b)) s = .next (edge (B && !M)) ∧
       exec (.gbuFall o u (addrW b)) s = .next (edge (!B && M)))) ∧
  (∀ (s : State) (rank task q : Nat) (v : Bool), task < 8 → plainBit q → s.sp.written.lookup (wrBit task q) = none →
     s.sp.upsets = [] → taskBit (moveWriteBit rank s task q v) task q = v ∧
     ∀ b, plainBit b → b ≠ q → taskBit (moveWriteBit rank s task q v) task b = taskBit s task b) ∧
  ((∀ (s : State) (o : Origin) (u b q c p : Nat), UnitReady s o u → u = 5 ∨ u = 6 → s.sp.upsets = [] → plainBit b → plainBit q →
     c < 1024 → p < 2 ^ 31 → operand s o u 1 = addrW q → operand s o u 2 = mkT 3 c → operand s o u 3 = mkT 3 p →
     let el := (timebase s + 2 ^ 32 - (timerCell s c).2) % 2 ^ 32
     let start := (timerCell s c).2
     let done (cell : Nat × Nat) (v : Bool) (r : Nat) : State :=
       landRes (moveWriteBit (rankCore s.core.cyc u o.slot) (cellPut (fired s u) u c cell) o.task q v) o.task u
         [(0, boolW v), (1, mkT 3 r)]
     let ton (cell : Nat × Nat) (v : Bool) (r : Nat) : Prop := exec (.gbuTon o u (addrW b)) s = .next (done cell v r)
     let tof (cell : Nat × Nat) (v : Bool) (r : Nat) : Prop := exec (.gbuTof o u (addrW b)) s = .next (done cell v r)
     let B := taskBit s o.task b
     let st := (timerCell s c).1
     (B = false → ton (0, start) false 0) ∧
     (B = true → st = 0 ∨ st = 1 → (0 < p → ton (2, timebase s) false 0) ∧ (p = 0 → ton (3, timebase s) true 0)) ∧
     (B = true → st = 2 → (el < p → ton (2, start) false el) ∧ (p ≤ el → ton (3, start) true p)) ∧
     (B = true → st = 3 → ton (3, start) true (min el p)) ∧
     (B = true → tof (1, start) true 0) ∧
     (B = false → st = 1 → (0 < p → tof (2, timebase s) true 0) ∧ (p = 0 → tof (3, timebase s) false 0)) ∧
     (B = false → st = 2 → (el < p → tof (2, start) true el) ∧ (p ≤ el → tof (3, start) false p)) ∧
     (B = false → st = 0 → tof (0, start) false 0) ∧ (B = false → st = 3 → tof (3, start) false (min el p))) ∧
   (∀ (s : State) (u c : Nat) (cell : Nat × Nat), timerCell (cellPut s u c cell) c =
     if u = 5 ∧ cellMark c 6 ∈ s.core.firedNow then timerCell s c else cell) ∧
   (∀ (s : State) (c : Nat), domOn s 2 = true → c = s.core.cyc % 1024 → cellMark c 5 ∉ s.core.firedNow →
     cellMark c 6 ∉ s.core.firedNow →
     exec (.timerSweep c) s = .next (if (timerCell s c).1 = 2 ∧
       2 ^ 31 ≤ (timebase s + 2 ^ 32 - (timerCell s c).2) % 2 ^ 32 then setCell s c (3, (timerCell s c).2) else s)))

/-- MUL_MUL, MUL_MULW and MUL_SQ are in flight for 3 cycles with their exact results wrapped, rounded or saturated. PHU_CMAC adds to
the accumulator of its context and is in flight for 4 cycles; PHU_CMAG of (0, 0) gives magnitude 0 and angle 0, PHU_CROT by angle 0
gives the magnitude within 2 LSB, both after 12 cycles, and of any other FIX16 or FLOAT32 operands they are in flight as long with a
magnitude and an angle, or a real and an imaginary part, that this statement does not bound; PHU_DFT is in flight for N/2 + 6. Loads
and stores of the LSU are in flight for 4 cycles with their addresses and words. -/
def Obligations.MulPhasorAndMemory : Prop :=
  ((∀ (s : State) (o : Origin) (x y : BitVec 32), UnitReady s o 7 →
     let gives (i : Instr) (port : Nat) (rs : List (Nat × TWord)) : Prop := exec i s = .next (inFlight s o 7 port 3 rs .nothing)
     let sat (e : Int) : TWord := ⟨4, BitVec.ofInt 32 (max (-(2 ^ 31)) (min (2 ^ 31 - 1) e))⟩
     let beyond (e : Int) : Bool := decide (e < -(2 ^ 31) ∨ 2 ^ 31 - 1 < e)
     let inf (a b r : Nat) : Bool := fFinite a && fFinite b && fInf r
     (operand s o 7 0 = ⟨3, x⟩ →
       gives (.mulMul o 7 ⟨3, y⟩) 4 [(0, ⟨3, x * y⟩), (2, flagsW false (decide (2 ^ 32 ≤ x.toNat * y.toNat)) ⟨3, x * y⟩)] ∧
       gives (.mulMulw o 7 ⟨3, y⟩) 5 [(0, mkT 3 (x.toNat * y.toNat / 2 ^ 32)), (1, ⟨3, x * y⟩)]) ∧
     (operand s o 7 0 = ⟨2, x⟩ →
       gives (.mulMul o 7 ⟨2, y⟩) 4 [(0, ⟨2, x * y⟩), (2, flagsW false (beyond (x.toInt * y.toInt)) ⟨2, x * y⟩)] ∧
       gives (.mulMulw o 7 ⟨2, y⟩) 5 [(0, ⟨2, BitVec.ofInt 32 (x.toInt * y.toInt / 2 ^ 32)⟩), (1, ⟨3, x * y⟩)]) ∧
     (operand s o 7 0 = ⟨4, x⟩ →
       gives (.mulMul o 7 ⟨4, y⟩) 4 [(0, sat (rneShrI (x.toInt * y.toInt) 16)),
         (2, flagsW false (beyond (rneShrI (x.toInt * y.toInt) 16)) (sat (rneShrI (x.toInt * y.toInt) 16)))]) ∧
     (operand s o 7 0 = ⟨5, x⟩ →
       gives (.mulMul o 7 ⟨5, y⟩) 4 [(0, mkT 5 (fMul x.toNat y.toNat)),
         (2, flagsW false (inf x.toNat y.toNat (fMul x.toNat y.toNat)) (mkT 5 (fMul x.toNat y.toNat)))]) ∧
     gives (.mulSq o 7 ⟨3, y⟩) 6 [(0, ⟨3, y * y⟩), (2, flagsW false (decide (2 ^ 32 ≤ y.toNat * y.toNat)) ⟨3, y * y⟩)] ∧
     gives (.mulSq o 7 ⟨2, y⟩) 6 [(0, ⟨2, y * y⟩), (2, flagsW false (beyond (y.toInt * y.toInt)) ⟨2, y * y⟩)] ∧
     gives (.mulSq o 7 ⟨4, y⟩) 6 [(0, sat (rneShrI (y.toInt * y.toInt) 16)),
       (2, flagsW false (beyond (rneShrI (y.toInt * y.toInt) 16)) (sat (rneShrI (y.toInt * y.toInt) 16)))] ∧
     gives (.mulSq o 7 ⟨5, y⟩) 6 [(0, mkT 5 (fMul y.toNat y.toNat)),
       (2, flagsW false (inf y.toNat y.toNat (fMul y.toNat y.toNat)) (mkT 5 (fMul y.toNat y.toNat)))]) ∧
   (∀ (s : State) (o : Origin) (a b c d : BitVec 32) (ctl : Nat), UnitReady s o 8 → s.core.accs.length = 8 → ctl < 8 →
     ctl % 2 = 1 ∨ (nth PhuAcc.init s.core.accs o.task).tag = 0 ∨
       (nth PhuAcc.init s.core.accs o.task).tag = (operand s o 8 0).tag.toNat →
     let acc := nth PhuAcc.init s.core.accs o.task
     let clr := ctl % 2 = 1
     let conj := ctl / 2 % 2 = 1
     let sub := ctl / 4 = 1;
     (operand s o 8 0 = ⟨4, a⟩ → operand s o 8 1 = ⟨4, b⟩ → operand s o 8 2 = ⟨4, c⟩ → operand s o 8 3 = ⟨4, d⟩ →
       let y : Int := if conj then -d.toInt else d.toInt
       let pr := a.toInt * c.toInt - b.toInt * y
       let pi := a.toInt * y + b.toInt * c.toInt
       let re := (if clr then 0 else acc.re) + (if sub then -pr else pr)
       let im := (if clr then 0 else acc.im) + (if sub then -pi else pi);
       -(2 ^ 63) ≤ re → re < 2 ^ 63 → -(2 ^ 63) ≤ im → im < 2 ^ 63 →
       Completes (.phuCmac o 8 (mkT 3 ctl)) s fun t =>
         nth PhuAcc.init t.core.accs o.task = { tag := 4, re := re, im := im } ∧ t.core.ops = [flight s o 8 4 4
           [(0, mkT 4 (sat32 true (rneShrI re 16)).1), (1, mkT 4 (sat32 true (rneShrI im 16)).1),
            (2, boolW ((sat32 true (rneShrI re 16)).2 || (sat32 true (rneShrI im 16)).2))] .nothing] ∧
         t.core.ctx = s.core.ctx ∧ SameRegs [CORE_TRK.MAX] s t ∧ SameStores s t) ∧
     (operand s o 8 0 = ⟨5, a⟩ → operand s o 8 1 = ⟨5, b⟩ → operand s o 8 2 = ⟨5, c⟩ → operand s o 8 3 = ⟨5, d⟩ →
       let y := if conj then fNegate d.toNat else d.toNat
       let sum (h : Int) (p : Nat) : Nat :=
         if sub then fSub (if clr then 0 else h.toNat) p else fAdd (if clr then 0 else h.toNat) p
       let re := sum acc.re (fSub (fMul a.toNat c.toNat) (fMul b.toNat y))
       let im := sum acc.im (fAdd (fMul a.toNat y) (fMul b.toNat c.toNat))
       Completes (.phuCmac o 8 (mkT 3 ctl)) s fun t =>
         nth PhuAcc.init t.core.accs o.task = { tag := 5, re := re, im := im } ∧
         t.core.ops = [flight s o 8 4 4 [(0, mkT 5 re), (1, mkT 5 im), (2, boolW false)] .nothing] ∧
         t.core.ctx = s.core.ctx ∧ SameRegs [CORE_TRK.MAX] s t ∧ SameStores s t)) ∧
   (∀ (s : State) (o : Origin) (g : BitVec 4) (x y : BitVec 32), UnitReady s o 8 → g = 4 ∨ g = 5 → operand s o 8 0 = ⟨g, x⟩ →
     (Completes (.phuCmag o 8 ⟨g, y⟩) s fun t => ∃ r a : BitVec 32,
       t.core.ops = [flight s o 8 5 12 [(0, ⟨g, r⟩), (1, ⟨6, a⟩)] .nothing] ∧ (x = 0 → y = 0 → r = 0 ∧ a = 0) ∧
       t.core.ctx = s.core.ctx ∧ SameRegs [CORE_TRK.MAX] s t ∧ SameStores s t) ∧
     (Completes (.phuCrot o 8 ⟨6, y⟩) s fun t => ∃ r i : BitVec 32,
       t.core.ops = [flight s o 8 6 12 [(0, ⟨g, r⟩), (1, ⟨g, i⟩)] .nothing] ∧
       (g = 4 → y = 0 → (r.toInt - x.toInt).natAbs ≤ 2 ∧ i.toInt.natAbs ≤ 2) ∧
       t.core.ctx = s.core.ctx ∧ SameRegs [CORE_TRK.MAX] s t ∧ SameStores s t)) ∧
   (∀ (s : State) (o : Origin) (n l st h win base : Nat) (rho : BitVec 32), UnitReady s o 8 → 2 ≤ n → n ≤ 256 → n % 2 = 0 →
     h ≤ n / 2 → win < 4 → st < 512 → l < 512 → (l ≠ 0 → n ≤ l ∧ st < l) → base < 0x80000 →
     (∀ k, k < n → dftAddr base l st k < 0x80000) → (win = 3 → dftSum 3 n (phuWin s) ≠ 0) → operand s o 8 0 = addrW base →
     operand s o 8 1 = mkT 3 (n + 512 * l) → operand s o 8 2 = mkT 3 st → operand s o 8 3 = mkT 3 (h + 512 * win) →
     exec (.phuDft o 8 ⟨6, rho⟩) s = .next (inFlight s o 8 7 (n / 2 + 6) [] (.dft base n l st h win rho
       (if win = 3 then (List.range n).map (phuWin s) else []))))) ∧
  (∀ (s : State) (o : Origin) (u a : Nat) (i : BitVec 32), UnitReady s o u → u = 9 ∨ u = 10 → a < 0x80000 →
     exec (.lsuLd o u (addrW a)) s = .next (inFlight s o u 4 4 [] (.load a)) ∧
     exec (.lsuSt o u (addrW a)) s = .next (inFlight s o u 7 4 [] (.store a [operand s o u 0])) ∧
     (operand s o u 0 = addrW a → 0 ≤ (a : Int) + i.toInt → (a : Int) + i.toInt < 0x80000 →
       exec (.lsuLdx o u ⟨2, i⟩) s = .next (inFlight s o u 5 4 [] (.load ((a : Int) + i.toInt).toNat))) ∧
     (operand s o u 1 = addrW a → 0 ≤ (a : Int) + i.toInt → (a : Int) + i.toInt < 0x80000 →
       exec (.lsuStx o u ⟨2, i⟩) s = .next (inFlight s o u 8 4 [] (.store ((a : Int) + i.toInt).toNat [operand s o u 0]))) ∧
     (a ≠ 0x7FFFF → exec (.lsuLdp o u (mkT 11 (4 * 2 ^ 28 + a))) s = .next (inFlight s o u 6 4 [] (.loadPair a)) ∧
       exec (.lsuStp o u (mkT 11 (4 * 2 ^ 28 + a))) s =
         .next (inFlight s o u 9 4 [] (.store a [operand s o u 0, operand s o u 1]))))

/-- OPERATION_RESULT: the last cycle of an operation in flight passes; its results stand in the context of its task, words of a store
in the word space, and the operation is gone. DEFERRED_RESOLUTION: the cycle before the resolution of a deferred move passes; a move
into a holding register has landed, when its guard has resolved true, and not, when it has resolved false; a trigger has fired or
not. WAITING_TRIGGER_FIRE: a waiting trigger fires when its unit is free, as a trigger that comes then; otherwise the present cycle
passes. Nothing else ends or comes due in these cycles; `IdleCycle` says so. -/
def Obligations.ResultsAndDeferred : Prop :=
  (∀ (s : State) (p : PendOp), IdleCycle { s with core := { s.core with ops := [] } } → s.core.ops = [p] →
     p.fire + p.lat = s.core.cyc + 1 → p.unit ≠ 13 → s.sp.upsets = [] →
     (p.act = .nothing ∨ (∃ a, p.act = .load a ∨ p.act = .loadPair a) → Completes (.operationResult 0) s fun t =>
       t.core.ops = [] ∧ t.core.ctx = (landRes s p.o.task p.unit p.results).core.ctx ∧ t.core.cyc = (s.core.cyc + 1) % 2 ^ 64 ∧
       SameRegs [CORE_STAT.ISSUING, SBY_STAT.LINK] s t ∧ SameSpaces s t) ∧
     (∀ (a : Nat) (ws : List TWord), p.act = .store a ws → p.results = [] → p.o.task < 8 → s.sp.written = [] →
       Completes (.operationResult 0) s fun t =>
       t.core.ops = [] ∧ t.core.ctx = s.core.ctx ∧ t.core.cyc = (s.core.cyc + 1) % 2 ^ 64 ∧
       SameRegs [CORE_STAT.ISSUING, SBY_STAT.LINK] s t ∧
       (∀ j, j < ws.length → ∃ w, ws[j]? = some w ∧ taskWord t p.o.task (a + j) = w) ∧
       (∀ b, (b < a ∨ a + ws.length ≤ b) → taskWord t p.o.task b = taskWord s p.o.task b) ∧
       t.sp.bits = s.sp.bits ∧ t.sp.planeB = s.sp.planeB)) ∧
  ((∀ (s : State) (d : Deferred), IdleCycle { s with core := { s.core with deferred := [] } } → s.core.deferred = [d] →
     d.res = s.core.cyc + 1 → s.core.cyc + 1 < 2 ^ 64 → d.acts = true → d.trace = false → d.o.task < 8 →
     (∀ n, d.dst = 0x300 + n → n < 64 → Completes (.deferredResolution 0) s fun t => t.core.deferred = [] ∧
       getHold t d.o.task n = (if d.ok then d.val else getHold s d.o.task n) ∧
       (∀ a b, 64 * a + b ≠ 64 * d.o.task + n → getHold t a b = getHold s a b) ∧ t.core.ctx = s.core.ctx ∧
       t.core.cyc = s.core.cyc + 1 ∧ SameRegs [CORE_STAT.ISSUING, SBY_STAT.LINK] s t ∧ SameSpaces s t) ∧
     (∀ (x y : BitVec 32), engineOn s = true → d.dst = 0x14 → d.val = ⟨3, y⟩ →
       d.opds = [⟨3, x⟩, TWord.empty, TWord.empty, TWord.empty] → Completes (.deferredResolution 0) s fun t =>
       t.core.deferred = [] ∧ t.core.waiting = [] ∧
       getCtx t (resKey d.o.task 1 0) = (if d.ok then ⟨3, x + y⟩ else getCtx s (resKey d.o.task 1 0)) ∧
       (∀ k, k ≠ resKey d.o.task 1 0 → k ≠ resKey d.o.task 1 2 → getCtx t k = getCtx s k) ∧
       t.core.cyc = s.core.cyc + 1 ∧ SameSpaces s t)) ∧
   (∀ (s : State) (o : Origin) (d : Deferred) (x y : BitVec 32), UnitReady { s with core := { s.core with waiting := [] } } o 1 →
     s.core.waiting = [d] → d.o = o → d.dst = 0x14 → d.val = ⟨3, y⟩ → d.opds = [⟨3, x⟩, TWord.empty, TWord.empty, TWord.empty] →
     Completes (.waitingTriggerFire 0) s fun t =>
       t.core.waiting = [] ∧ getCtx t (resKey o.task 1 0) = ⟨3, x + y⟩ ∧
       (∀ k, k ≠ resKey o.task 1 0 → k ≠ resKey o.task 1 2 → getCtx t k = getCtx s k) ∧ t.regs = s.regs ∧ SameStores s t) ∧
   (∀ (s : State) (d : Deferred), domOn s 2 = true → s.core.waiting = [d] → unitFree s d = false →
     exec (.waitingTriggerFire 0) s = .next (coreCycle s)))

/-- The compares put their outcome into CC of the task and into RES0: EQ, NE, LT, LE, GT and GE of INT32, FIX16 (signed), UINT32,
FLOAT32 (every compare with a NaN is false but NE), COUNT and ANGLE words (by the half range), TST of BOOL32 and UINT32 words. BRU_PC
and BRU_CALL: the branch is pending for two more bundles, in the place of one that is as far off, and the other branches of the
context stay; CALL leaves in RES1 the index that would have issued after the second of them. -/
def Obligations.ComparesAndBranches : Prop :=
  (∀ (s : State) (o : Origin) (x y : BitVec 32), UnitReady s o 11 →
     let out (i : Instr) (v : Bool) : Prop := exec i s = .next (landRes
       (logBit { fired s 11 with core := { (fired s 11).core with cc := s.core.cc.set o.task v } } (0x30300 + o.task))
       o.task 11 [(0, boolW v)])
     let ops (g : BitVec 4) (eq lt gt : Bool) : Prop :=
       out (.bruEq o 11 ⟨g, y⟩) eq ∧ out (.bruNe o 11 ⟨g, y⟩) (!eq) ∧ out (.bruLt o 11 ⟨g, y⟩) lt ∧
       out (.bruLe o 11 ⟨g, y⟩) (lt || eq) ∧ out (.bruGt o 11 ⟨g, y⟩) gt ∧ out (.bruGe o 11 ⟨g, y⟩) (gt || eq)
     (∀ g : BitVec 4, g = 2 ∨ g = 4 → operand s o 11 0 = ⟨g, x⟩ → ops g (x == y) (x.slt y) (y.slt x)) ∧
     (operand s o 11 0 = ⟨3, x⟩ → ops 3 (x == y) (x.ult y) (y.ult x)) ∧
     (operand s o 11 0 = ⟨5, x⟩ →
       (fNan x.toNat = false → fNan y.toNat = false →
         ops 5 (fCmpKey x.toNat == fCmpKey y.toNat) (decide (fCmpKey x.toNat < fCmpKey y.toNat))
           (decide (fCmpKey y.toNat < fCmpKey x.toNat))) ∧
       (fNan x.toNat = true ∨ fNan y.toNat = true → ops 5 false false false)) ∧
     (∀ g : BitVec 4, g = 6 ∨ g = 9 → operand s o 11 0 = ⟨g, x⟩ →
       ops g (x == y) (decide (1 ≤ (y - x).toNat ∧ (y - x).toNat ≤ 2 ^ 31 - 1))
         (decide (1 ≤ (x - y).toNat ∧ (x - y).toNat ≤ 2 ^ 31 - 1))) ∧
     (∀ g : BitVec 4, g = 1 ∨ g = 3 → operand s o 11 0 = ⟨g, x⟩ → out (.bruTst o 11 ⟨g, y⟩) ((x &&& y) != 0))) ∧
  (∀ (s : State) (o : Origin) (y : BitVec 32), UnitReady s o 11 → s.core.branches.length = 8 →
     let brs := nth [] s.core.branches o.task
     let after := brs.filter (fun b => b.1 != 2) ++ [(2, y.toNat % 65536)]
     let one := pcStep (nth 0 s.core.pcs o.task) brs
     Completes (.bruPc o 11 ⟨3, y⟩) s (fun t =>
       nth [] t.core.branches o.task = after ∧ (∀ k, k ≠ o.task → nth [] t.core.branches k = nth [] s.core.branches k) ∧
       t.core.pcs = s.core.pcs ∧ t.core.ctx = s.core.ctx ∧ SameRegs [CORE_TRK.MAX] s t ∧ SameStores s t) ∧
     Completes (.bruCall o 11 ⟨3, y⟩) s (fun t =>
       nth [] t.core.branches o.task = after ∧ (∀ k, k ≠ o.task → nth [] t.core.branches k = nth [] s.core.branches k) ∧
       t.core.pcs = s.core.pcs ∧ getCtx t (resKey o.task 11 1) = mkT 3 (pcStep one.1 one.2).1 ∧
       (brs = [] → (pcStep one.1 one.2).1 = (nth 0 s.core.pcs o.task % 65536 + 2) % 65536) ∧
       (∀ k, k ≠ resKey o.task 11 1 → getCtx t k = getCtx s k) ∧ SameRegs [CORE_TRK.MAX] s t ∧ SameStores s t))

/-- The triggers of the TMU, of a unit that neither streams to a partner nor replays: the present time, the present angle, angle
arithmetic, an event that takes the lowest free slot (here with the actions that set and clear a bit), its refusal when no slot is
free, its cancellation, a cancellation whose handle is stale, the fire FIFO, with a record and empty. -/
def Obligations.TimeManagement : Prop :=
  ∀ (s : State) (o : Origin), UnitReady s o 12 → s.sby.streaming = false → s.sby.replaying = false →
    ((∀ w, exec (.tmuNowT o 12 w) s = .next (landed s o 12
       [(0, mkT 8 (taiSec s.time.tai % 2 ^ 32)), (1, mkT 7 (classNow s * 2 ^ 30 + taiNs s.time.tai))])) ∧
     (∀ w, exec (.tmuNowA o 12 w) s = .next (landed s o 12 [(0, mkT 9 s.plumb.cyc), (1, mkT 6 (plbAngle s))])) ∧
     (∀ x y z : BitVec 32, operand s o 12 0 = ⟨9, x⟩ → operand s o 12 1 = ⟨6, y⟩ → exec (.tmuAdda o 12 ⟨6, z⟩) s =
       .next (landed s o 12 [(0, ⟨9, if 2 ^ 32 ≤ y.toNat + z.toNat then x + 1 else x⟩), (1, ⟨6, y + z⟩)])) ∧
     (∀ w, s.core.fifo = [] → exec (.tmuPop o 12 w) s =
       .next (landed s o 12 [(0, mkT 3 0), (1, mkT 8 0), (2, mkT 7 0)])) ∧
     (∀ (r h l : BitVec 32) (rest : List (Word × Word × Word)) (w : TWord), s.core.fifo = (r, h, l) :: rest →
       exec (.tmuPop o 12 w) s = .next (landed { s with core := { s.core with fifo := rest } } o 12
         [(0, ⟨3, r⟩), (1, ⟨8, h⟩), (2, ⟨7, l⟩)]))) ∧
    ((∀ (pre rest : List TmuSlot) (g k : Nat) (c a q : BitVec 32), s.core.tmu = pre ++ ⟨g, none⟩ :: rest →
       (∀ x ∈ pre, x.ev ≠ none) → k = 1 ∨ k = 2 →
       q.toNat < 2 ^ 20 → operand s o 12 0 = ⟨9, c⟩ → operand s o 12 1 = mkT 3 k → operand s o 12 2 = ⟨12, q⟩ →
       Completes (.tmuSchedA o 12 ⟨6, a⟩) s fun t =>
         t.core.ops = [flight s o 12 7 2 [(0, mkT 3 (pre.length + (g + 1) % 256 * 256))] .nothing] ∧
         t.core.tmu = pre ++ TmuSlot.mk ((g + 1) % 256) (some
           { utc := false, c := c.toNat, a := a.toNat, tai := 0,
             late := pairPast s.plumb.cyc (plbAngle s) c.toNat a.toNat, action := k, arg := q, task := o.task,
             at' := s.core.cyc }) :: rest ∧ t.core.ctx = s.core.ctx ∧ SameRegs [CORE_TRK.MAX] s t ∧ SameStores s t) ∧
     (∀ (pre rest : List TmuSlot) (g k : Nat) (sec ns q : BitVec 32), s.core.tmu = pre ++ ⟨g, none⟩ :: rest →
       (∀ x ∈ pre, x.ev ≠ none) → k = 1 ∨ k = 2 →
       q.toNat < 2 ^ 20 → ns.toNat % 2 ^ 30 ≤ 999999999 → operand s o 12 0 = ⟨8, sec⟩ → operand s o 12 1 = mkT 3 k →
       operand s o 12 2 = ⟨12, q⟩ → Completes (.tmuSchedT o 12 ⟨7, ns⟩) s fun t =>
         let tai := taiOf (taiSec s.time.tai / 2 ^ 32 * 2 ^ 32 + sec.toNat) (ns.toNat % 2 ^ 30)
         t.core.ops = [flight s o 12 8 2 [(0, mkT 3 (pre.length + (g + 1) % 256 * 256))] .nothing] ∧
         t.core.tmu = pre ++ TmuSlot.mk ((g + 1) % 256) (some
           { utc := true, c := 0, a := 0, tai := tai, late := decide (tai ≤ s.time.tai), action := k, arg := q, task := o.task,
             at' := s.core.cyc }) :: rest ∧ t.core.ctx = s.core.ctx ∧ SameRegs [CORE_TRK.MAX] s t ∧ SameStores s t) ∧
     (∀ (c a q : BitVec 32), (∀ x ∈ s.core.tmu, x.ev ≠ none) → q.toNat < 2 ^ 20 → operand s o 12 0 = ⟨9, c⟩ →
       operand s o 12 1 = mkT 3 1 → operand s o 12 2 = ⟨12, q⟩ → Completes (.tmuSchedA o 12 ⟨6, a⟩) s fun t =>
         t.core.ops = [flight s o 12 7 2 [(0, mkT 3 (2 ^ 31))] .nothing] ∧ t.core.tmu = s.core.tmu ∧
         getF t CORE_TMUSTAT.FULL = 1 ∧ t.core.ctx = s.core.ctx ∧ SameStores s t)) ∧
    (∀ (i g : Nat) (e : TmuEvt), i < 32 → s.core.tmu[i]? = some ⟨g, some e⟩ → g < 256 → tmuDue s i = false →
      exec (.tmuCancel o 12 (mkT 3 (i + g * 256))) s = .next
        (let t := inFlight s o 12 9 2 [(0, mkT 3 0)] .nothing
         { t with core := { t.core with tmu := s.core.tmu.set i ⟨g, none⟩ } })) ∧
    (∀ (i g : Nat) (x : TmuSlot), i < 32 → s.core.tmu[i]? = some x → g < 256 → x.ev = none ∨ x.gen ≠ g →
      exec (.tmuCancel o 12 (mkT 3 (i + g * 256))) s = .next (inFlight s o 12 9 2 [(0, mkT 3 1)] .nothing))

/-- TMU_EVENT_FIRE: an event that is due sets or clears its bit, or puts its command into the fast queue of its companion, and leaves
its slot. FLD_FASTOUT: a command enters the fast queue of its companion; outside RUN and RUN_EDIT it is discarded and counted.
TMU_FASTOUT_ENQUEUE: a TMU command that waits enters the queue once it has room. FAST_FRAME_LAUNCH: the oldest command of a queue
leaves, and its frame is on the lane for 40 cycles. -/
def Obligations.EventsAndFastQueues : Prop :=
  (∀ (s : State) (i : Nat) (x : TmuSlot) (e : TmuEvt), domOn s 2 = true → s.sby.streaming = false → i < 32 →
    s.core.tmu[i]? = some x → x.ev = some e → tmuDue s i = true →
    (∀ v : Bool, e.action = (if v then 1 else 2) → s.sp.upsets = [] → s.sp.written = [] → 0x40000 ≤ e.arg.toNat →
      e.arg.toNat < 2 ^ 20 → Completes (.tmuEventFire i) s fun t =>
        t.core.tmu = s.core.tmu.set i { x with ev := none } ∧ rawBit t e.arg.toNat = v ∧
        (∀ a, a ≠ e.arg.toNat → sget false t.sp.bits a = sget false s.sp.bits a) ∧ t.sp.words = s.sp.words ∧
        t.sp.planeB = s.sp.planeB ∧ t.sp.planeW = s.sp.planeW ∧ t.regs = s.regs) ∧
    (∀ k c : Nat, e.action = 3 → e.arg.toNat = k * 256 + c → k < 8 → 0 < c → c < 256 → (nth [] s.core.fastQ k).length < 4 →
      tmuMark i ∉ s.core.firedNow → fastRoom s k = true → exec (.tmuEventFire i) s = .next { s with core := { s.core with
        tmu := s.core.tmu.set i { x with ev := none }, fastQ := upd s.core.fastQ k (· ++ [c]) } })) ∧
  (∀ (s : State) (o : Origin) (k c : Nat), UnitReady s o 16 → k < 8 → 0 < c → c < 256 → (c % 16 &&& c / 16) = 0 →
    (s.mode = .run ∨ s.mode = .runEdit → fastRoom s k = true → exec (.fldFastout o 16 (mkT 3 (k * 256 + c))) s =
      .next { fired s 16 with core := { (fired s 16).core with fastQ := upd s.core.fastQ k (· ++ [c]) } }) ∧
    (s.mode ≠ .run → s.mode ≠ .runEdit → Completes (.fldFastout o 16 (mkT 3 (k * 256 + c))) s fun t =>
      getF t FLD_FDISC.CNT = min (getF s FLD_FDISC.CNT + 1) (2 ^ FLD_FDISC.CNT.w - 1) ∧ t.core.fastQ = s.core.fastQ ∧
      SameStores s t)) ∧
  ((∀ (s : State) (w : Word) (rest : List Word), domOn s 2 = true → s.core.fastWait = w :: rest →
    (nth [] s.core.fastQ (bitsOf w.toNat 8 3)).length < 4 → exec .tmuFastoutEnqueue s = .next
      { s with core := { s.core with
          fastWait := rest
          fastQ := upd s.core.fastQ (bitsOf w.toNat 8 3) (· ++ [w.toNat % 256]) } }) ∧
   (∀ (s : State), domOn s 2 = true → (∀ w ∈ s.core.fastWait, 4 ≤ (nth [] s.core.fastQ (bitsOf w.toNat 8 3)).length) →
     exec .tmuFastoutEnqueue s = .next s)) ∧
  (∀ (s : State) (k c : Nat) (rest : List Nat), hubOn s = true →
    (hubPort s k).fsBusy = none ∨ (∃ b, (hubPort s k).fsBusy = some b ∧ b ≤ s.core.cyc) → k < 8 →
    s.core.fastQ.length = 8 → nth [] s.core.fastQ k = c :: rest → s.fld.hub.length = 8 →
    Completes (.fastFrameLaunch k) s fun t => t.core.fastQ = s.core.fastQ.set k rest ∧
      (hubPort t k).fs = some (c % 16, c / 16 % 16, getF s SBY_EPOCH.OWN % 256) ∧
      (hubPort t k).fsBusy = some (s.core.cyc + 40) ∧ (∀ j, j ≠ k → hubPort t j = hubPort s j) ∧
      getF t CORE_FOSTAT.LAUNCHED = (getF s CORE_FOSTAT.LAUNCHED + 1) % 2 ^ CORE_FOSTAT.LAUNCHED.w ∧
      SameRegs [CORE_FOSTAT.LAUNCHED] s t ∧ SameStores s t)

/-- The triggers of the QU, of a unit that neither streams to a partner nor replays. QU_RECV: an empty mailbox gives status EMPTY;
else its oldest frame leaves it and, cut to the limit, is in flight to the buffer, with its length, stamp, port and whether it was
cut. QU_SEND_ETH, QU_FLD_CMD, QU_REG_RD and QU_REG_WR are in flight for their latencies. QU_SEND_CAN reserves the lower free buffer
of the program path and is in flight, or gives FULL when there is none or the controller is off the bus. -/
def Obligations.QueueUnit : Prop :=
  ∀ (s : State) (o : Origin), UnitReady s o 13 → s.sby.streaming = false → s.sby.replaying = false →
    (∀ n mx dst : Nat, n < 16 → 1 ≤ mx → mx ≤ 1522 → 0x8000 ≤ dst → operand s o 13 0 = addrW dst → operand s o 13 1 = mkT 3 mx →
      (nth [] s.core.mbx n = [] → dst ≤ 0x7FFFF → exec (.quRecv o 13 (mkT 3 n)) s = .next (inFlight s o 13 4 3
        [(0, mkT 3 0), (1, mkT 8 0), (2, mkT 7 0), (3, mkT 3 1)] (.store dst []))) ∧
      (∀ (f : MbxFrame) (rest : List MbxFrame), nth [] s.core.mbx n = f :: rest → s.core.mbx.length = 16 →
        dst + (min f.bytes.length mx + 3) / 4 ≤ 0x80000 → dst ≤ 0x7FFFF → Completes (.quRecv o 13 (mkT 3 n)) s fun t =>
          let ws := bufWords (f.bytes.take (min f.bytes.length mx))
          t.core.mbx = s.core.mbx.set n rest ∧ t.core.ops = [flight s o 13 4 (3 + ws.length)
            [(0, mkT 3 (min f.bytes.length mx)), (1, mkT 8 f.sec), (2, mkT 7 f.tns),
             (3, mkT 3 (f.port * 256 + if mx < f.bytes.length then 3 else 0))] (.store dst ws)] ∧
          ws.length = (min f.bytes.length mx + 3) / 4 ∧ t.core.ctx = s.core.ctx ∧ t.sp = s.sp)) ∧
    (∀ buf ports queue len : Nat, ports < 16 → queue < 8 → 60 ≤ len → len ≤ 1518 → buf + (len + 3) / 4 ≤ 0x80000 →
      operand s o 13 0 = mkT 3 (len * 2 ^ 16 + queue * 16 + ports) →
      exec (.quSendEth o 13 (addrW buf)) s = .next (inFlight s o 13 5 (3 + (len + 3) / 4) [] (.sendEth buf ports queue len))) ∧
    (∀ (buf n len : Nat) (fd brs ide : Bool), n < 2 → canLenOk fd len = true → (brs = true → fd = true) →
      (fd = true → isSet s (CAN_CTRL.FD_EN n) = true) → buf + 1 + (len + 3) / 4 ≤ 0x80000 →
      operand s o 13 0 = mkT 3 (len * 2 ^ 16 + b2n ide * 8 + b2n brs * 4 + b2n fd * 2 + n) →
      (∀ b, getF s (CAN_STAT.ERRSTATE n) ≠ 3 → canFree s n = some b → Completes (.quSendCan o 13 (addrW buf)) s fun t =>
        t.core.ops = [flight s o 13 6 (3 + (len + 3) / 4) [] (.sendCan buf n len fd brs ide)] ∧
        (s.can.length = 2 → (canSt s n).tbs.length = 3 → (canTb t n b).reserved = true) ∧ t.core.ctx = s.core.ctx ∧
        SameRegs [CORE_TRK.MAX] s t ∧ SameStores s t) ∧
      (getF s (CAN_STAT.ERRSTATE n) = 3 ∨ canFree s n = none → exec (.quSendCan o 13 (addrW buf)) s =
        .next (inFlight s o 13 6 3 [(3, mkT 3 2)] .nothing))) ∧
    (∀ buf k n : Nat, k < 8 → 1 ≤ n → n ≤ 8 → buf + n ≤ 0x80000 → operand s o 13 0 = mkT 3 (n * 16 + k) →
      exec (.quFldCmd o 13 (addrW buf)) s = .next (inFlight s o 13 7 (3 + n) [] (.fldCmd buf k n))) ∧
    (∀ a : BitVec 32, exec (.quRegRd o 13 ⟨3, a⟩) s = .next (inFlight s o 13 8 8 [] (.regRd a.toNat))) ∧
    (∀ (a v : BitVec 32) (g : BitVec 4), g = 1 ∨ g = 2 ∨ g = 3 → operand s o 13 0 = ⟨g, v⟩ →
      exec (.quRegWr o 13 ⟨3, a⟩) s = .next (inFlight s o 13 9 8 [] (.regWr a.toNat v)))

/-- MAC_SEL writes the selector of its task; MAC_EXEC and MAC_EXEC_DIRECT start the custom operation of a valid entry that accepts
any words and whose first micro-move meets no unit that has taken a trigger in this cycle: its inputs are taken, and it is in flight
for the entry's latency. IMG_END ends the run of its task with the present cycle: the run's length is recorded, and with NOCOMMIT,
when nothing else ends in that cycle, the task is IDLE after it with nothing committed. -/
def Obligations.MacroAndEnd : Prop :=
  (∀ (s : State) (o : Origin) (n : Nat), UnitReady s o 15 → n < 64 → Completes (.macSel o 15 (mkT 3 n)) s fun t =>
    t.core.macSel = s.core.macSel.set o.task n ∧ t.core.ctx = s.core.ctx ∧ t.core.ops = [] ∧ t.core.mac = none ∧
    SameRegs [CORE_TRK.MAX] s t ∧ SameStores s t) ∧
  (∀ (s : State) (o : Origin) (e : Nat) (w : TWord), UnitReady s o 15 → s.sp.upsets = [] → s.core.dtBad = [] →
    bitOf (dtWord s e 0) 31 = true → dtWord s e 1 = 0 → dtWord s e 2 = 0 → dtWord s e 3 = 0 →
    (∀ v, firstUnit s e = some v → v ∉ s.core.firedNow) →
    let runs (t : State) : Prop := t.core.ops.map (fun p => (p.unit, p.lat, p.act)) = [(15, entryLat s e, .custom e)] ∧
      (∃ r, t.core.mac = some r ∧ r.entry = e ∧ r.m = 0 ∧ macGet r 0xF4 = w ∧ ∀ i, i < 4 → macGet r (0xF0 + i) = operand s o 15 i) ∧
      t.core.ctx = s.core.ctx ∧ SameRegs [CORE_TRK.MAX] s t ∧ SameStores s t
    (nth 0 s.core.macSel o.task = e → Completes (.macExec o 15 w) s runs) ∧
    (e < 10 → Completes (.macExecDirect o e w) s runs)) ∧
  ((∀ (s : State) (o : Origin) (nc : Bool), UnitReady s o 14 → o.task < s.scan.tasks.length → (task s o.task).st = .running →
    (task s o.task).fin = .no → Completes (.imgEnd o 14 (mkT 3 (b2n nc))) s fun t =>
      task t o.task = { task s o.task with fin := .fromEnd nc } ∧ (∀ j, j ≠ o.task → task t j = task s j) ∧
      getF t (SCN_RUNLEN.LAST o.task) = min (s.core.cyc - (task s o.task).frzCyc + 1) 0xFFFF ∧
      t.scan.imgB = s.scan.imgB ∧ t.scan.imgW = s.scan.imgW ∧ t.core.ctx = s.core.ctx ∧ SameStores s t) ∧
   (∀ (s : State) (t0 : Nat), t0 < s.scan.tasks.length → t0 < 8 → (task s t0).fin = .fromEnd true → s.pending = [] →
    IdleCycle (updTask s t0 fun k => { k with fin := .no }) → s.sby.streaming = false → getF s PHM_CTRL.EN = 0 →
    ∃ t, step s = .next t ∧ (task t t0).st = .idle ∧ (task t t0).fin = .no ∧ (∀ j, j ≠ t0 → task t j = task s j) ∧
      t.scan.imgB = s.scan.imgB ∧ t.scan.imgW = s.scan.imgW ∧ t.core.cyc = (s.core.cyc + 1) % 2 ^ 64 ∧ SameSpaces s t))

/-- BUNDLE_ISSUE, in a unit in which nothing ends or comes due in the present cycle: a new cycle begins, and the selected task issues
the bundle at its PC; the PC moves on, from 0xFFFF to 0x0000, within the active bank, or to the target of a branch whose delay has
passed. A move of a short immediate into an operand register, here the only one of the bundle, lands in the context. A parity error
halts at the end of the cycle. When no task issues, the cycle passes; in a mode in which none may, nothing happens. -/
def Obligations.BundleIssues : Prop :=
  (∀ (s : State) (t dst imm tag : Nat) (bank parity : Bool), IdleCycle s → s.mode = .run ∨ s.mode = .runEdit → t < 8 →
    issuing (nextCycle s) = some t → s.sp.upsets = [] → isSet s CORE_BANK.ACTIVE = bank → s.core.badA = [] → s.core.badB = [] →
    isSet s TRC_CTRL.EN = false → isOpd dst = true → imm < 1024 → 1 ≤ tag → tag ≤ 12 → s.core.pcs.length = 8 →
    s.core.branches.length = 8 →
    let pc := nth 0 s.core.pcs t
    let words := if bank then s.core.bankB else s.core.bankA
    bankWord words pc 0 = 15 * 2 ^ 27 + (0x400 + imm) * 2 ^ 16 + dst * 2 ^ 6 + tag →
    (∀ i, 1 ≤ i → i < 8 → bankWord words pc i = 0xF8000000) →
    Completes (.bundleIssue parity) s fun t' =>
      nth 0 t'.core.pcs t = (match (nth [] s.core.branches t).find? fun b => b.1 == 1 with
        | some b => b.2
        | none => (pc + 1) % 65536) ∧
      t'.core.cyc = (s.core.cyc + 1) % 2 ^ 64 ∧ getCtx t' (opdKey t (dst / 16) (dst % 16)) = mkT tag (unsignedOf 32 (signedOf 10 imm)) ∧
      (∀ k, k ≠ opdKey t (dst / 16) (dst % 16) → getCtx t' k = getCtx s k) ∧
      getF t' CORE_STAT.ISSUING = 1 ∧ getF t' CORE_STAT.TASK = t ∧ isSet t' CORE_BANK.ACTIVE = bank ∧
      t'.ms.haltPend = (if parity then some 5 else none) ∧ t'.core.hold = s.core.hold ∧ SameSpaces s t') ∧
  (∀ s : State, mayIssue s = true → issuing (nextCycle s) = none → exec (.bundleIssue false) s = .next (coreCycle s)) ∧
  (∀ (s : State) (parity : Bool), mayIssue s = false → exec (.bundleIssue parity) s = .next s)

/-- While STOP_PENDING is set, every trigger that falls is dropped and counted as SKIP, with OVERRUN and the task as they were: a
period instant, every one of the instants in a forward step of the clock, an angle, an edge, a trigger replayed in TRACK. A trigger
held when STOP_PENDING sets is dropped and counted in the same way, and none is released later. -/
def Obligations.StopPendingTriggers : Prop :=
  (∀ (s : State) (t : Nat), t < 8 → s.ms.stopPending = true →
    let skips (n : Nat) (t' : State) : Prop :=
      getF t' (SCN_CNT.SKIP t) = min (getF s (SCN_CNT.SKIP t) + n) (2 ^ (SCN_CNT.SKIP t).w - 1) ∧
      getF t' (SCN_TSTAT.OVERRUN t) = getF s (SCN_TSTAT.OVERRUN t) ∧ (∀ j, j ≠ t → task t' j = task s j) ∧
      task t' t = { task s t with lastInst := (task t' t).lastInst } ∧ t'.ms = s.ms
    let from' (a : Nat) : Nat := max a ((task s t).lastInst.getD 0)
    (s.mode = .run ∨ s.mode = .runEdit → isSet s (SCN_TCFG.EN t) = true →
      (getF s (SCN_TCFG.TRIG t) = 0 → justStepped s = none → 0 < instantsIn s t (from' s.time.tai) (clockAdvance s).time.tai →
        Completes (.triggerPeriod t) s (skips 1)) ∧
      (∀ a b, getF s (SCN_TCFG.TRIG t) = 0 → justStepped s = some (a, b) → 0 < instantsIn s t (from' a) b →
        Completes (.triggerPeriod t) s (skips (instantsIn s t (from' a) b))) ∧
      (getF s (SCN_TCFG.TRIG t) = 1 → angleMark t ∉ s.core.firedNow → reachedPosition s t ≠ none →
        Completes (.triggerAngle t) s (skips 1)) ∧
      (∀ old : Bool, getF s (SCN_TCFG.TRIG t) = 2 → s.sp.upsets = [] →
        (old = false ∧ rawBit s (getF s (SCN_EDGE.ADDR t)) = true ∧ bitOf (getF s (SCN_EDGE.POL t)) 0 = true) ∨
        (old = true ∧ rawBit s (getF s (SCN_EDGE.ADDR t)) = false ∧ bitOf (getF s (SCN_EDGE.POL t)) 1 = true) →
        Completes (.triggerEdge t old) s (skips 1))) ∧
    (∀ (c : Nat) (i : TrigInfo) (rest : List (Nat × StreamEv)), replica s = true → s.sby.events = (c, .trig t i) :: rest →
      c ≤ s.sby.rcyc → Completes .replayEvent s (skips 1)) ∧
    exec (.heldTriggerRelease t) s = .next s) ∧
  (∀ (s : State) (dbg : Bool), s.mode = .run ∨ s.mode = .track → s.scan.tasks.length = 8 → Completes (.modeReqStop dbg) s fun t =>
    t.ms.stopPending = true ∧ ∀ j, j < 8 → (task t j).held = none ∧ (task t j).st = (task s j).st ∧
      getF t (SCN_TSTAT.OVERRUN j) = getF s (SCN_TSTAT.OVERRUN j) ∧
      ((task s j).held = none → getF t (SCN_CNT.SKIP j) = getF s (SCN_CNT.SKIP j)) ∧
      ((task s j).held ≠ none → getF t (SCN_CNT.SKIP j) = min (getF s (SCN_CNT.SKIP j) + 1) (2 ^ (SCN_CNT.SKIP j).w - 1)))

/-- A period instant, an angle or an edge falls as TRIGGER_PERIOD, TRIGGER_ANGLE or TRIGGER_EDGE of an enabled task, with no trace,
no stream to a partner and no STOP pending: an idle task becomes PENDING with the trigger; a task with a run in progress keeps it,
OVERRUN sets, and by OVR the trigger is skipped, held (a second one skipped), or a halt cause arises. Of the instants in a forward
step of the clock one falls as LATE. HELD_TRIGGER_RELEASE makes an idle task PENDING with the trigger it holds. -/
def Obligations.TaskTriggers : Prop :=
  ∀ (s : State) (t : Nat), t < 8 → s.mode = .run ∨ s.mode = .runEdit → s.scan.tasks.length = 8 → s.ms.stopPending = false →
    s.ms.haltPend = none → s.sby.streaming = false → isSet s TRC_CTRL.EN = false → isSet s (SCN_TCFG.EN t) = true →
    s.sp.upsets = [] →
    let from' (a : Nat) : Nat := max a ((task s t).lastInst.getD 0)
    let info (k : Nat) (late : Bool) : TrigInfo :=
      { cyc := s.plumb.cyc, ang := plbAngle s, tai := s.time.tai, k := k, late := late, freerun := isSet s PLB_STAT.FREERUN }
    let falls (i : Instr) (k : Nat) : Prop :=
      (i = .triggerPeriod t ∧ k = 0 ∧ getF s (SCN_TCFG.TRIG t) = 0 ∧ justStepped s = none ∧
        0 < instantsIn s t (from' s.time.tai) (clockAdvance s).time.tai) ∨
      (i = .triggerAngle t ∧ getF s (SCN_TCFG.TRIG t) = 1 ∧ angleMark t ∉ s.core.firedNow ∧ reachedPosition s t = some k) ∨
      (∃ old, i = .triggerEdge t old ∧ k = 0 ∧ getF s (SCN_TCFG.TRIG t) = 2 ∧
        ((old = false ∧ rawBit s (getF s (SCN_EDGE.ADDR t)) = true ∧ bitOf (getF s (SCN_EDGE.POL t)) 0 = true) ∨
         (old = true ∧ rawBit s (getF s (SCN_EDGE.ADDR t)) = false ∧ bitOf (getF s (SCN_EDGE.POL t)) 1 = true)))
    let rest (t' : State) : Prop := (∀ j, j ≠ t → task t' j = task s j) ∧ t'.core.ctx = s.core.ctx ∧ SameStores s t'
    let pends (i : TrigInfo) (t' : State) : Prop :=
      task t' t = { task s t with st := .pending, trig := i, lastInst := (task t' t).lastInst } ∧ rest t'
    let runsOn (t' : State) : Prop := getF t' (SCN_TSTAT.OVERRUN t) = 1 ∧ rest t' ∧
      ∃ h, task t' t = { task s t with held := h, lastInst := (task t' t).lastInst }
    (∀ i k, falls i k →
      ((task s t).st = .idle → Completes i s fun t' => pends (info k false) t' ∧ t'.regs = s.regs) ∧
      ((task s t).st ≠ .idle →
        (getF s (SCN_TCFG.OVR t) = 0 ∨ (getF s (SCN_TCFG.OVR t) = 1 ∧ (task s t).held ≠ none) → Completes i s fun t' =>
          runsOn t' ∧ (task t' t).held = (task s t).held ∧
          getF t' (SCN_CNT.SKIP t) = min (getF s (SCN_CNT.SKIP t) + 1) (2 ^ (SCN_CNT.SKIP t).w - 1) ∧
          SameRegs [SCN_TSTAT.OVERRUN t, SCN_CNT.SKIP t, SCN_TSTAT.SKIP_OVF t] s t') ∧
        (getF s (SCN_TCFG.OVR t) = 1 → (task s t).held = none → Completes i s fun t' =>
          runsOn t' ∧ (task t' t).held = some (info k true) ∧
          getF t' (SCN_CNT.LATE t) = min (getF s (SCN_CNT.LATE t) + 1) (2 ^ (SCN_CNT.LATE t).w - 1) ∧
          SameRegs [SCN_TSTAT.OVERRUN t, SCN_CNT.LATE t, SCN_TSTAT.LATE_OVF t] s t') ∧
        (getF s (SCN_TCFG.OVR t) = 2 → Completes i s fun t' =>
          runsOn t' ∧ (task t' t).held = (task s t).held ∧ t'.ms.haltPend = some 1 ∧ t'.mode = s.mode))) ∧
    (∀ a b, getF s (SCN_TCFG.TRIG t) = 0 → justStepped s = some (a, b) → 0 < instantsIn s t (from' a) b → (task s t).st = .idle →
      Completes (.triggerPeriod t) s fun t' => pends (info 0 true) t' ∧
        getF t' (SCN_CNT.SKIP t) = min (getF s (SCN_CNT.SKIP t) + (instantsIn s t (from' a) b - 1)) (2 ^ (SCN_CNT.SKIP t).w - 1)) ∧
    (∀ i, (task s t).st = .idle → (task s t).held = some i → Completes (.heldTriggerRelease t) s fun t' =>
      task t' t = { task s t with st := .pending, trig := i, held := none } ∧ rest t' ∧ t'.regs = s.regs)

/-- TASK_FREEZE: the task that the scheduler selected in the cycle before runs from its entry with its scan counter raised, and its
plane holds the live inputs of its windows as they stand, words with the overlay; one that it selects in the present cycle does so in
the next. LAUNCH_COMMIT: a capture whose launch comes in this cycle is marked, and at the cycle's end, in a unit that neither streams
nor has line measurement or an output map, the capture of the windows stands in the committed image and the task is IDLE. -/
def Obligations.FreezeAndCommit : Prop :=
  (∀ (s : State) (t : Nat), t < 8 → s.mode = .run ∨ s.mode = .runEdit → s.scan.tasks.length = 8 → s.core.pcs.length = 8 →
    s.sp.upsets = [] → Memory.wf s.sp = true → waits s t = true →
    (∀ w ∈ winEntries s t false, w.addr + w.len ≤ if w.word then 0x4000 else 0x10000) →
    let froze (cyc tai : Nat) (t' : State) : Prop :=
      (task t' t).st = .running ∧ (task t' t).scan = ((task s t).scan + 1) % 2 ^ 64 ∧ (task t' t).frzTai = tai ∧
      (task t' t).frzCyc = cyc ∧ nth 0 t'.core.pcs t = getF s (SCN_TCFG.ENTRY t) ∧ (∀ j, j ≠ t → task t' j = task s j) ∧
      (∀ a, a < 0x10000 → taskBit t' t a =
        if ∃ w ∈ winEntries s t false, w.word = false ∧ w.addr ≤ a ∧ a < w.addr + w.len then rawBit s a else taskBit s t a) ∧
      (∀ a, a < 0x4000 → taskWord t' t a =
        if ∃ w ∈ winEntries s t false, w.word = true ∧ w.addr ≤ a ∧ a < w.addr + w.len then overlayWord s (rawWord s a)
        else taskWord s t a) ∧
      t'.sp.words = s.sp.words ∧ t'.sp.bits = s.sp.bits ∧ t'.nv.nor = s.nv.nor ∧ t'.pins = s.pins
    (s.scan.sel = some t → Completes (.taskFreeze t) s (froze s.core.cyc s.time.tai)) ∧
    (s.scan.sel ≠ some t → selected s = some t → IdleCycle s →
      Completes (.taskFreeze t) s (froze ((s.core.cyc + 1) % 2 ^ 64) (s.time.tai + taiStep s)))) ∧
  ((∀ (s : State) (t : Nat), launchDue s t = true → exec (.launchCommit t) s =
     .next (updTask s t fun k => { k with fin := .fromLaunch (launchStepped s t) })) ∧
   (∀ (s : State) (t : Nat) (late : Bool), t < 8 → s.scan.tasks.length = 8 → s.pending = [] → s.sby.streaming = false →
     (task s t).st = .launchWait → (task s t).fin = .fromLaunch late →
     IdleCycle (updTask s t fun k => { k with st := .idle, fin := .no }) → swf false (task s t).capB = true →
     swf TWord.empty (task s t).capW = true → omapEntries s = [] → getF s PHM_CTRL.EN = 0 → ∃ t', step s = .next t' ∧
       (task t' t).st = .idle ∧ (task t' t).fin = .no ∧ (∀ j, j ≠ t → task t' j = task s j) ∧
       (late = true → getF t' (SCN_TSTAT.LATE_COMMIT t) = 1) ∧
       (∀ a, sget false t'.scan.imgB a =
         if ∃ w ∈ winEntries s t true, w.word = false ∧ w.addr ≤ a ∧ a < w.addr + w.len then sget false (task s t).capB a
         else sget false s.scan.imgB a) ∧
       (∀ a, sget TWord.empty t'.scan.imgW a =
         if ∃ w ∈ winEntries s t true, w.word = true ∧ w.addr ≤ a ∧ a < w.addr + w.len then sget TWord.empty (task s t).capW a
         else sget TWord.empty s.scan.imgW a) ∧
       SameSpaces s t'))

/-- Posted writes and stations: STATION_ACK_TIMEOUT of an IMG_WRITE enters the failure in the log, or counts it as lost when the log
is full, sets WRFAIL of the station and pulses PWLOG; PWLOG_CLEAR empties the log; ZCP_REPLY_MATCH of an IMG_WRITE ends the write,
with status 0 without a failure and with another status as a failure, that of a SYS_REPORT ends its repetition, and a reply that
matches no own request changes nothing; STATION_SUPV_EXPIRY clears PRESENT of a supervised station with its pulse. -/
def Obligations.PostedWritesAndStations : Prop :=
  (let failed (s : State) (p : Posted) (cause : Nat) (t : State) : Prop :=
     t.zcp.outstanding = [] ∧ t.scan.posted = [] ∧ rawBit t (stnBit p.target 1) = true ∧ 0x30600 ∈ t.pulses ∧
     (∀ a, a ≠ stnBit p.target 1 → sget false t.sp.bits a = sget false s.sp.bits a) ∧ t.sp.words = s.sp.words ∧ t.mode = s.mode ∧
     (s.scan.pwlog.length < 64 → t.scan.pwlog = s.scan.pwlog ++ [(p, cause)] ∧ t.regs = s.regs) ∧
     (64 ≤ s.scan.pwlog.length → t.scan.pwlog = s.scan.pwlog ∧
       getF t SCN_PWSTAT.LOST = min (getF s SCN_PWSTAT.LOST + 1) (2 ^ SCN_PWSTAT.LOST.w - 1) ∧
       SameRegs [SCN_PWSTAT.LOST, SCN_PWSTAT.LOST_OVF] s t)
   ∀ (s : State) (r : OwnReq) (p : Posted), s.zcp.outstanding = [r] → r.opcode = 0x0103 → s.scan.posted = [p] → p.kind = 2 →
     p.ref = r.seq → p.target < 256 → s.sp.upsets = [] →
     Completes (.stationAckTimeout r.seq) s (failed s p 4) ∧
     ∀ peer : Peer, absent s = false → peerIs s peer r.station = true →
       exec (.zcpReplyMatch peer r.seq 0x0103 0) s =
         .next { s with zcp := { s.zcp with outstanding := [] }, scan := { s.scan with posted := [] } } ∧
       ∀ st, 0 < st → Completes (.zcpReplyMatch peer r.seq 0x0103 st) s (failed s p 5)) ∧
  (∀ (s : State) (peer : Peer) (r : OwnReq) (st : Nat), absent s = false → s.zcp.outstanding = [r] → r.opcode = 0x020A →
    peerIs s peer r.station = true → exec (.zcpReplyMatch peer r.seq 0x020A st) s =
      .next { s with zcp := { s.zcp with outstanding := [] }, txn := { s.txn with report := none } }) ∧
  (∀ (s : State) (peer : Peer) (seq op st : Nat),
    (∀ r ∈ s.zcp.outstanding, r.seq ≠ seq ∨ r.opcode ≠ op ∨ peerIs s peer r.station = false) →
    exec (.zcpReplyMatch peer seq op st) s = .next s) ∧
  (∀ s : State, absent s = false → domOn s 2 = true → exec .pwlogClear s = .next { s with scan := { s.scan with pwlog := [] } }) ∧
  (∀ (s : State) (stn : Nat), absent s = false → stn < 256 → stn ≠ ownStn s → isSet s (SYS_DIR_CTRL.VALID stn) = true →
    isSet s (SYS_DIR_CTRL.SUPV stn) = true → s.sp.upsets = [] → Completes (.stationSupvExpiry stn) s fun t =>
      rawBit t (stnBit stn 0) = false ∧ t.regs = s.regs ∧ t.sp.words = s.sp.words ∧ t.mode = s.mode ∧
      (rawBit s (stnBit stn 0) = true → 0x30601 ∈ t.pulses) ∧
      ∀ a : Nat, a ≠ stnBit stn 0 → sget false t.sp.bits a = sget false s.sp.bits a)

/-- The states of a transaction that stages TIM_HOLD_RATE alone, or of one not system-wide: PREPARE_DONE makes it READY;
TXN_COMMIT_INSTANT of a commit that must wait for a quiet point and has none makes it wait, of one that need not it takes effect;
TXN_EFFECT and TXN_QP_TIMEOUT at a quiet point take it into effect, the limit without one ends it with outcome 4; the effect
exchanges the staged field, with the outcome, the count and UNDO_OK. TXN_RECORDED records the sequence number of the commit;
CPN_SHADOW_TIMEOUT reopens the transaction; EDIT_COPY_BUNDLE copies one readable bundle of the active bank. The messages of a
system-wide commit: SYS_TXN_RESEND sends COMMIT_AT again to the one station that owes an answer, SYS_TXN_GUARD_DEADLINE of a
coordinator without participants rolls back with outcome 3, SYS_REPORT_RESEND sends a report again. -/
def Obligations.TransactionStates : Prop :=
  ((∀ s : State, getF s TXN_STAT.STATE = 2 → nvHas s 2 = false → (∀ k, k < 8 → (hubPort s k).shadowLeft = 0) →
     isSet s TXN_STAT.SYSTEM = false → s.txn.prepOp = none → s.txn.prepReply = none → s.txn.commitAfter = none →
     Completes .prepareDone s fun t => getF t TXN_STAT.STATE = 3 ∧ OnlyRegs [TXN_STAT.STATE] s t) ∧
   (∀ s : State, getF s TXN_STAT.STATE = 4 → effectWaits s = true → effectReady s = false →
     exec .txnCommitInstant s = .next (setF s TXN_STAT.STATE 5)) ∧
   (∀ (s : State) (v : Nat), s.txn.staged = [(TIM_HOLD_RATE.RATE, v)] → s.txn.bank = false → s.txn.newVars = [] →
     isSet s TXN_STAT.SYSTEM = false → isSet s TXN_STAT.EDIT = false → isSet s TXN_STAT.PERSIST = false →
     s.sby.xferOpen = false → s.phm.switching = none → s.txn.commitOp = none →
     let took (t : State) : Prop := getF t TIM_HOLD_RATE.RATE = v % 2 ^ TIM_HOLD_RATE.RATE.w ∧ getF t TXN_STAT.STATE = 0 ∧
       getF t TXN_LAST.OUTCOME = 1 ∧ getF t TXN_CNT.COMMITS = (getF s TXN_CNT.COMMITS + 1) % 2 ^ TXN_CNT.COMMITS.w ∧
       getF t TXN_STAT.UNDO_OK = 1 ∧ t.txn.staged = [] ∧ t.txn.undo = [(TIM_HOLD_RATE.RATE, getF s TIM_HOLD_RATE.RATE)] ∧
       t.mode = s.mode ∧ SameStores s t
     (getF s TXN_STAT.STATE = 4 → getF s TXN_WHEN.KIND ≠ 1 → Completes .txnCommitInstant s took) ∧
     (getF s TXN_STAT.STATE = 5 → quiet s = true → s.ms.haltPend = none →
       Completes .txnEffect s took ∧ Completes .txnQpTimeout s took) ∧
     (getF s TXN_STAT.STATE = 5 → quiet s = false → s.txn.prepOp = none → s.txn.setSeq = none → s.txn.isUndo = false →
       Completes .txnQpTimeout s fun t => getF t TIM_HOLD_RATE.RATE = getF s TIM_HOLD_RATE.RATE ∧
         getF t TXN_STAT.STATE = 0 ∧ getF t TXN_LAST.OUTCOME = 4 ∧ t.txn.staged = [] ∧ t.mode = s.mode)) ∧
   (∀ (s : State) (q : Nat), s.nv.recording = some q → Completes .txnRecorded s fun t =>
     getF t TXN_CREC_LAST.SEQ = q % 2 ^ TXN_CREC_LAST.SEQ.w ∧ getF t TXN_STAT.RECORDED = 1 ∧ t.nv.recording = none ∧
     SameRegs [TXN_CREC_LAST.SEQ, TXN_STAT.RECORDED] s t) ∧
   (∀ (s : State) (k : Nat), getF s TXN_STAT.STATE = 2 → (hubPort s k).shadowLeft ≠ 0 → s.txn.coord = none →
     s.txn.prepReply = none → s.txn.setSeq = none → s.txn.prepOp = none → s.txn.commitOp = none →
     Completes (.cpnShadowTimeout k) s fun t => getF t TXN_STAT.STATE = 1 ∧ t.txn.staged = s.txn.staged ∧ t.mode = s.mode) ∧
   (∀ s : State, getF s EDT_STAT.COPY = 1 → getF s EDT_STAT.COPIED < 65536 → s.sp.upsets = [] →
     getF s EDT_STAT.COPIED ∉ (if getF s CORE_BANK.ACTIVE = 0 then s.core.badA else s.core.badB) →
     Completes .editCopyBundle s fun t =>
       let i := getF s EDT_STAT.COPIED
       getF t EDT_STAT.COPIED = i + 1 ∧ getF t EDT_STAT.COPY = (if i = 65535 then 2 else 1) ∧
       (getF s CORE_BANK.ACTIVE = 0 → t.core.bankA = s.core.bankA ∧
         ∀ k, sget 0 t.core.bankB k = if k / 8 = i then sget 0 s.core.bankA k else sget 0 s.core.bankB k) ∧
       (getF s CORE_BANK.ACTIVE = 1 → t.core.bankB = s.core.bankB ∧
         ∀ k, sget 0 t.core.bankA k = if k / 8 = i then sget 0 s.core.bankB k else sget 0 s.core.bankA k) ∧
       SameRegs [EDT_STAT.COPIED, EDT_STAT.COPY, EDT_STAT.KEEP_OK] s t ∧ SameSpaces s t)) ∧
  ((∀ (s : State) (c : Nat × Nat × Nat × Nat × Nat) (stn : Nat), absent s = false → isSet s SYS_FLAGS.STN_CONFLICT = false →
     s.txn.coord = some c → s.txn.coordStep = 3 →
     s.txn.coordWait = [stn] → Completes .sysTxnResend s fun t =>
       t.zcp.outstanding = s.zcp.outstanding ++
         [{ station := stn, seq := s.zcp.ownSeq, opcode := 0x0208, mapEntry := 0, task := 0, scan := 0 }] ∧
       t.zcp.ownSeq = (s.zcp.ownSeq + 1) % 2 ^ 32 ∧ t.txn = s.txn ∧ SameStores s t) ∧
   (∀ (s : State) (c : Nat × Nat × Nat × Nat × Nat), s.txn.coord = some c → s.txn.coordStep = 1 → others s = [] →
     getF s TXN_STAT.STATE = 3 → getF s TXN_ID.ID = c.1 → isSet s TXN_STAT.EDIT = false → s.txn.isUndo = false →
     s.txn.prepOp = none → s.txn.commitOp = none → s.txn.coordOp = none → s.txn.setSeq = none → isSet s TXN_STAT.SYSTEM = true →
     c.1 / 2 ^ 24 = ownStn s → Completes .sysTxnGuardDeadline s fun t =>
       getF t TXN_STAT.STATE = 0 ∧ getF t TXN_LAST.OUTCOME = 3 ∧ t.txn.coordStep = 4 ∧ t.txn.staged = [] ∧ t.mode = s.mode) ∧
   (∀ (s : State) (id o n : Nat), absent s = false → s.txn.report = some (id, o, n + 1) → Completes .sysReportResend s fun t =>
       t.txn.report = some (id, o, n) ∧ t.zcp.outstanding = s.zcp.outstanding ++
         [{ station := id / 2 ^ 24 % 256, seq := s.zcp.ownSeq, opcode := 0x020A, mapEntry := 0, task := 0, scan := 0 }] ∧
       SameStores s t))

/-- The standby link. SBL_LINK_UP and SBL_NEG_RX judge the peer's identity: the link is UP or MISMATCH; SBL_ALIGN_LOSS takes it DOWN.
SBL_ACK_RX frees what is acknowledged, SBL_NAK_RX and SBL_RETX_TIMEOUT send again and count. SBL_HB_SEND sends the unit's heartbeat;
SBL_HB_RX takes one, here in STOP. A frame with a CRC error counts and is answered by a NAK. A sequenced frame of the partner that
comes in its turn is acknowledged: in TRACK an event is buffered and a part of a transfer collected, a handover noted; in RUN a
request begins a transfer; a reset request is refused or acts. One that comes too early is answered by a NAK, an old one is
acknowledged again, and on a MISMATCH link none is taken. -/
def Obligations.StandbyLink : Prop :=
  ((∀ (s : State) (stn sysId crc rtt : Nat), sblOn s = true → s.mode ≠ .track → s.mode ≠ .hold → s.ms.holdEntry = none →
     s.ms.waking = none → Completes (.sblLinkUp stn sysId crc rtt) s fun t =>
       getF t SBY_STAT.LINK = linkJudge s stn sysId crc ∧ getF t SBY_RTT.NS = rtt % 2 ^ SBY_RTT.NS.w ∧
       (srcOn s 6 = true → getF t (TIM_SRC_DELAY.DELAY 6) = rtt / 2 % 2 ^ (TIM_SRC_DELAY.DELAY 6).w) ∧
       t.sby = { s.sby with neg := some (stn, sysId, crc), gap := false } ∧ t.mode = s.mode ∧
       SameRegs [SBY_STAT.LINK, SBY_RTT.NS, TIM_SRC_DELAY.DELAY 6] s t ∧ SameStores s t) ∧
   (∀ (s : State) (stn sysId crc lseq : Nat), 2 ≤ getF s SBY_STAT.LINK →
     (Completes (.sblNegRx true stn sysId crc) s fun t => getF t SBY_STAT.LINK = linkJudge s stn sysId crc ∧
       (linkJudge s stn sysId crc = 3 → getF t (TIM_SRC_STAT.VALID 6) = 0) ∧
       (isSet s (TIM_SRC_STAT.VALID 6) = false → SameRegs [SBY_STAT.LINK] s t) ∧ SameStores s t) ∧
     (isSet s (TIM_SRC_STAT.VALID 6) = false → s.sby.xferOpen = false → exec .sblAlignLoss s = .next (setF s SBY_STAT.LINK 0)) ∧
     (isSet s (TIM_SRC_STAT.VALID 6) = true → Completes .sblAlignLoss s fun t =>
       getF t SBY_STAT.LINK = 0 ∧ getF t (TIM_SRC_STAT.VALID 6) = 0 ∧ SameStores s t) ∧
     exec (.sblAckRx true lseq) s =
       .next { s with sby := { s.sby with tx := s.sby.tx.filter fun f => lseqAfter f.lseq lseq } } ∧
     (Completes (.sblNakRx true lseq) s fun t =>
       t.sby = { s.sby with tx := s.sby.tx.filter fun f => lseqAfter f.lseq ((lseq + 65535) % 65536) } ∧
       getF t SBY_LINKCNT.RETX = min (getF s SBY_LINKCNT.RETX + t.sby.tx.length) (2 ^ SBY_LINKCNT.RETX.w - 1) ∧
       SameRegs [SBY_LINKCNT.RETX] s t ∧ SameStores s t) ∧
     (Completes .sblRetxTimeout s fun t => t.sby = s.sby ∧
       getF t SBY_LINKCNT.RETX = min (getF s SBY_LINKCNT.RETX + s.sby.tx.length) (2 ^ SBY_LINKCNT.RETX.w - 1) ∧
       SameRegs [SBY_LINKCNT.RETX] s t ∧ SameStores s t) ∧
     (∀ (i : Instr) (part : XferPart) (last : Bool) (evs : List (Nat × StreamEv)) (hb : HbInfo),
       i ∈ [.sblNegRx false stn sysId crc, .sblAckRx false lseq, .sblNakRx false lseq, .sblEvtRx false lseq evs,
         .sblXferRx false lseq part last, .sblXctlRx false lseq, .sblHandoverRx false lseq, .sblRstreqRx false lseq] ∨
       (i = .sblHbRx false hb ∧ sblOn s = true ∧ getF s SBY_STAT.LINK = 2) → Completes i s fun t =>
         t.sby = { s.sby with lastNak := some s.sby.rxSeq, gap := true } ∧
         getF t SBY_LINKCNT.CRCERR = min (getF s SBY_LINKCNT.CRCERR + 1) (2 ^ SBY_LINKCNT.CRCERR.w - 1) ∧
         SameRegs [SBY_LINKCNT.CRCERR] s t ∧ SameStores s t)) ∧
   (∀ s : State, sblOn s = true → getF s SBY_STAT.LINK = 2 →
     exec .sblHbSend s = .next { s with sby := { s.sby with lastHb := some (heartbeat s) } } ∧
     (∀ hb : HbInfo, s.mode = .stop → s.ms.negotiating = false → hb.mode < 10 →
       hb.src ≠ 6 ∨ isSet s (TIM_SRC_STAT.VALID 6) = false →
       Completes (.sblHbRx true hb) s fun t => t.sby = { s.sby with
           present := true, hb := some hb, hbCyc := s.core.cyc, tx := s.sby.tx.filter fun f => lseqAfter f.lseq hb.ackSeq } ∧
         getF t SBY_STAT.PMODE = hb.mode ∧ getF t SBY_EPOCH.PARTNER = hb.epoch % 2 ^ SBY_EPOCH.PARTNER.w ∧
         SameRegs [SBY_STAT.PMODE, SBY_EPOCH.PARTNER] s t ∧ SameStores s t))) ∧
  (∀ (s : State) (lseq : Nat), 2 ≤ getF s SBY_STAT.LINK → s.sby.fresh = false → lseq < 65536 →
     let acked : SbySt := { s.sby with rxSeq := (lseq + 1) % 65536, gap := false, lastAck := some lseq }
     let frames (evs : List (Nat × StreamEv)) (part : XferPart) (last : Bool) : List Instr :=
       [.sblEvtRx true lseq evs, .sblXferRx true lseq part last, .sblXctlRx true lseq, .sblHandoverRx true lseq,
        .sblRstreqRx true lseq]
     (lseq = s.sby.rxSeq → getF s SBY_STAT.LINK = 2 →
       (∀ (c : Nat) (ev : StreamEv), (∀ k x, ev ≠ .mark k x) → s.mode = .track → s.sby.xferRx = false → s.sby.replaying = true →
         exec (.sblEvtRx true lseq [(c, ev)]) s =
           .next { s with sby := { acked with events := s.sby.events ++ [(c, ev)] } }) ∧
       (∀ part, s.mode = .track → s.sby.xferRx = true → exec (.sblXferRx true lseq part false) s =
           .next { s with sby := { acked with got := s.sby.got ++ [part] } }) ∧
       (s.mode = .run ∨ s.mode = .runEdit → s.sby.cutWait = false → s.sby.parts = none →
         Completes (.sblXctlRx true lseq) s fun t =>
           t.sby = { acked with cutWait := true, xferOpen := true, xferSent := 0, preImage := 0 } ∧ getF t SBY_STAT.XFER = 1 ∧
           getF t SBY_XFER.STATE = 1 ∧ getF t SBY_XFER.SENT = 0 ∧
           SameRegs [SBY_STAT.XFER, SBY_XFER.STATE, SBY_XFER.SENT] s t ∧ SameStores s t) ∧
       (s.mode = .track → isSet s SBY_STAT.SYNC = true → exec (.sblHandoverRx true lseq) s =
           .next { s with sby := { acked with markSeen := some (3, 0) } }) ∧
       (isSet s SBY_CFG.RST_ACCEPT = false → exec (.sblRstreqRx true lseq) s =
           .next (setF { s with sby := acked } SBY_STAT.RSTREQ_REFUSED 1)) ∧
       (isSet s SBY_CFG.RST_ACCEPT = true → absent s = false → s.ms.resetSrc = [] →
         Completes (.sblRstreqRx true lseq) s (EntersReset s 6))) ∧
     (∀ evs part last, ∀ i ∈ frames evs part last,
       (lseqAfter lseq s.sby.rxSeq = true → exec i s =
         .next { s with sby := { s.sby with lastNak := some s.sby.rxSeq, gap := true } }) ∧
       (lseqAfter lseq s.sby.rxSeq = false → lseq ≠ s.sby.rxSeq → exec i s =
         .next { s with sby := { s.sby with lastAck := some ((s.sby.rxSeq + 65535) % 65536) } }) ∧
       (lseq = s.sby.rxSeq → getF s SBY_STAT.LINK = 3 → exec i s = .next { s with sby := acked })))

/-- State transfer and loss of the stream at the primary: XFER_CUT starts the stream at a quiet point; XFER_FRAME_SEND sends the next
part, the last one ends the transfer, and a full pre-image buffer restarts it; STREAM_LOSS_MARK sends the MARK and stops the stream.
SYNC_REQ of an unsynchronised secondary, RESET_PARTNER, HANDOVER_REQ, and where the two are refused. Changes of role: PARTNER_LOSS
makes a synchronised secondary take over, which it begins in the next cycle, and a primary go on alone; TAKEOVER_BOUNDARY leads into
RUN; HANDOVER_MARK leads a primary into TRACK, or is refused by a partner that is no longer synchronised; DEMOTION leads a primary
into TRACK. REPLAY_EVENT replays the next event when RCYC has reached its cycle, here a host write of a word; until then a cycle
passes. -/
def Obligations.TransferAndRoles : Prop :=
  ((∀ s : State, s.mode = .run ∨ s.mode = .runEdit → s.sby.cutWait = true → quiet s = true → linkUp s = true →
     Completes .xferCut s fun t =>
       t.sby.cutWait = false ∧ t.sby.streaming = true ∧ t.sby.parts.isSome = true ∧ getF t SBY_XFER.SENT = 0 ∧ t.mode = s.mode ∧
       SameStores s t) ∧
   (∀ (s : State) (p : XferPart) (rest : List XferPart), s.sby.parts = some (p :: rest) →
     (linkUp s = true → preUsed s (p :: rest) ≤ 262144 → txRoom s (.xfer p rest.isEmpty) = true →
       Completes .xferFrameSend s fun t =>
         t.sby.parts = (if rest.isEmpty then none else some rest) ∧ t.sby.xferSent = s.sby.xferSent + 1 ∧
         getF t SBY_XFER.SENT = min ((s.sby.xferSent + 1) / 64) 65535 ∧
         t.sby.tx = s.sby.tx ++ [{ lseq := s.sby.txSeq, pcyc := s.core.cyc, pay := .xfer p rest.isEmpty }] ∧
         (rest = [] → getF t SBY_STAT.XFER = 0 ∧ getF t SBY_XFER.STATE = 2) ∧
         (rest ≠ [] → SameRegs [SBY_XFER.SENT] s t) ∧
         SameRegs [SBY_XFER.SENT, SBY_STAT.XFER, SBY_XFER.STATE] s t ∧ SameStores s t) ∧
     (262144 < preUsed s (p :: rest) → s.sby.xferOpen = true → Completes .xferFrameSend s fun t =>
         t.sby = { s.sby with parts := none, cutWait := true, preImage := 0 } ∧ getF t SBY_STAT.XFER = 1 ∧
         getF t SBY_XFER.STATE = 1 ∧ getF t SBY_XFER.RESTARTS = min (getF s SBY_XFER.RESTARTS + 1) (2 ^ SBY_XFER.RESTARTS.w - 1) ∧
         SameStores s t)) ∧
   (∀ s : State, s.sby.lossMark = true → txRoom s (.evt s.core.cyc (.mark 4 0) 0) = true → Completes .streamLossMark s fun t =>
       t.sby.lossMark = false ∧ t.sby.streaming = false ∧
       t.sby.tx = s.sby.tx ++ [{ lseq := s.sby.txSeq, pcyc := s.core.cyc, pay := .evt s.core.cyc (.mark 4 0) 0 }] ∧
       SameRegs [SBY_XFER.RESTARTS, SBY_STAT.XFER, SBY_XFER.STATE] s t ∧ SameStores s t) ∧
   (∀ (s : State) (dbg : Bool), absent s = false →
     (s.mode = .track → isSet s SBY_STAT.SYNC = false → s.sby.xferRx = false → linkUp s = true → txRoom s .xctl = true →
       Completes (.syncReq dbg) s fun t => t.sby.xferRx = true ∧ getF t SBY_STAT.XFER = 1 ∧ getF t SBY_XFER.STATE = 1 ∧
         t.sby.tx = s.sby.tx ++ [{ lseq := s.sby.txSeq, pcyc := s.core.cyc, pay := .xctl }] ∧
         SameRegs [SBY_STAT.XFER, SBY_XFER.STATE] s t ∧ SameStores s t) ∧
     (s.mode ≠ .track ∨ isSet s SBY_STAT.SYNC = true →
       exec (.syncReq dbg) s = .next (accErr s 0xA SBY_CTRL.SYNC_REQ.addr dbg)) ∧
     (let may := s.mode = .run ∧ s.sby.present = true ∧ getF s SBY_STAT.PMODE = 8 ∧ isSet s SBY_STAT.SYNC = true ∧
        s.sby.handover = none
      (may → exec (.handoverReq dbg) s = .next { s with sby := { s.sby with handover := some none } }) ∧
      (¬may → exec (.handoverReq dbg) s = .next (accErr s 0xA SBY_CTRL.HANDOVER.addr dbg)))) ∧
   (∀ (s : State) (dbg : Bool), linkUp s = true → txRoom s .rstreq = true → exec (.resetPartner dbg) s = .next
     { s with sby := { s.sby with
         tx := s.sby.tx ++ [{ lseq := s.sby.txSeq, pcyc := s.core.cyc, pay := .rstreq }]
         txSeq := (s.sby.txSeq + 1) % 65536 } })) ∧
  ((∀ s : State, s.sby.present = true → s.sby.hbCyc ≠ s.core.cyc →
     (s.mode = .track → isSet s SBY_STAT.SYNC = true → s.sby.tko = none → Completes .partnerLoss s fun t =>
       t.mode = .track ∧ t.sby.tko = some (if handoverMarked s then 3 else 1, s.core.cyc) ∧ t.sby.present = false ∧
       getF t SBY_STAT.PARTNER_LOST = 1 ∧ ModeFrame s t) ∧
     (s.mode = .run ∨ s.mode = .runEdit → Completes .partnerLoss s fun t => t.mode = s.mode ∧ t.sby.present = false ∧
       t.sby.streaming = false ∧ getF t SBY_STAT.PARTNER_LOST = 1 ∧ getF t SBY_STAT.SYNC = 0 ∧ SameStores s t)) ∧
   (∀ s : State, s.pending = [] → s.mode = .track → s.sby.tko ≠ none → s.sby.events = [] → quiet s = true →
     IdleCycle { s with sby := { s.sby with tko := none, replaying := false } } → ∃ t, step s = .next t ∧
       t.mode = .takeover ∧ t.sby.tko = s.sby.tko ∧ getF t SBY_TKO.ABANDONED = 0 ∧ t.core.cyc = (s.core.cyc + 1) % 2 ^ 64) ∧
   (∀ (s : State) (cause d : Nat), s.mode = .takeover → quiet s = true → s.sby.events = [] → s.sby.tko = some (cause, d) →
     Completes .takeoverBoundary s fun t => t.mode = .run ∧ getF t SBY_TKO.CAUSE = cause % 2 ^ SBY_TKO.CAUSE.w ∧
       t.core.mbx = List.replicate 16 []) ∧
   (∀ (s : State) (op : Option Nat), s.mode = .run → quiet s = true → s.sby.handover = some op → txRoom s .handover = true →
     (s.sby.present = true → getF s SBY_STAT.PMODE = 8 → isSet s SBY_STAT.SYNC = true → Completes .handoverMark s fun t =>
       t.mode = .track ∧ t.sby.handover = none ∧ t.sby.extRec = s.sby.extSent ∧ getF t SBY_STAT.SYNC = 1 ∧ ModeFrame s t) ∧
     (s.sby.present = false ∨ getF s SBY_STAT.PMODE ≠ 8 ∨ isSet s SBY_STAT.SYNC = false → Completes .handoverMark s fun t =>
       t.mode = .run ∧ t.sby.handover = none ∧ ModeFrame s t)) ∧
   (∀ s : State, s.mode = .run ∨ s.mode = .runEdit → quiet s = true → s.sby.demote = true → dirRole s = 1 ∨ dirRole s = 2 →
     Completes .demotion s fun t => t.mode = .track ∧ t.sby.demote = false ∧ ModeFrame s t) ∧
   (∀ (s : State) (c : Nat) (ev : StreamEv) (rest : List (Nat × StreamEv)), replica s = true → s.sby.events = (c, ev) :: rest →
     (s.sby.rcyc < c → exec .replayEvent s = .next (coreCycle s)) ∧
     (∀ (a : Nat) (v : TWord), ev = .writeWord a v → c ≤ s.sby.rcyc → a < 0x80000 → s.sp.written = [] →
       Completes .replayEvent s fun t => t.sby = { s.sby with events := rest } ∧ rawWord t a = v ∧
         (∀ b, b ≠ a → rawWord t b = rawWord s b) ∧ t.sp.bits = s.sp.bits ∧ t.regs = s.regs)))

/-- FRAME_HEADER_DECISION of a frame that is no PAUSE frame, on a port outside a redundant pair, and FRAME_END. A frame that arrives
is in flight with its stamp, less ING_LAT, and its verdict: the fixed default rule until a bank is loaded, the first matching rule,
here one without pattern, TRIP or cut-through, whose hits count, or the default action, which counts. A frame with a good FCS and a
legal length counts as received and, decided by the default action or by a rule with the QUEUE action alone, goes to its mailbox with
stamp and port when there is room; any other frame is dropped and counted. -/
def Obligations.FrameReception : Prop :=
  ∀ (s : State) (port : Nat), port < 4 → rxOn s port = true → s.cls.flight.length = 4 → redMode s (port / 2) = 0 →
    testing s 7 = false → s.sp.upsets = [] →
    (∀ (bytes : List Byte) (stamp : Nat), nth none s.cls.flight port = none → isPause bytes = false →
      let f0 : RxFrame := { port := port, bytes := bytes, stamp := rawStamp s stamp - getF s (TIM_PORTLAT.ING_LAT port) * nsUnit,
                            bank := clsBank s, dec := none, fcs := none, dup := false, cls := classNow s, cuts := [] }
      let taken (v : Verdict) (t : State) : Prop := nth none t.cls.flight port = some { f0 with dec := some v } ∧ SameStores s t
      (bootRule s = true → Completes (.frameHeaderDecision port bytes stamp) s fun t => taken .bootDefault t ∧
        getF t CLS_DEFCNT.CNT = min (getF s CLS_DEFCNT.CNT + 1) (2 ^ CLS_DEFCNT.CNT.w - 1) ∧
        SameRegs [CLS_DEFCNT.CNT, CLS_STAT.CNT_OVF] s t) ∧
      (bootRule s = false → pausedPort s port = false → payPort s port = false → (parse s bytes).frag = none →
        (parse s bytes).cls ≠ 14 →
        (ruleCands s f0 (parse s bytes) false = [] → Completes (.frameHeaderDecision port bytes stamp) s fun t =>
          taken .default t ∧
          getF t (CLS_P_NOMATCH.CNT port) = min (getF s (CLS_P_NOMATCH.CNT port) + 1) (2 ^ (CLS_P_NOMATCH.CNT port).w - 1) ∧
          SameRegs [CLS_P_NOMATCH.CNT port, CLS_STAT.CNT_OVF] s t) ∧
        (∀ (i : Nat) (r : List Nat) (more : List (Nat × List Nat)),
          ruleCands s f0 (parse s bytes) false = (i, r) :: more → rPay r = false → rTrip r = false →
          rAction r ≠ 1 ∨ bitOf (rArg r) 8 = false → Completes (.frameHeaderDecision port bytes stamp) s fun t =>
            taken (.rule (clsBank s) i r) t ∧ getF t (ruleF (clsBank s) i 15) = (getF s (ruleF (clsBank s) i 15) + 1) % 2 ^ 32 ∧
            SameRegs [ruleF (clsBank s) i 15] s t))) ∧
    (∀ f : RxFrame, nth none s.cls.flight port = some f → f.port = port → f.dup = false → f.cuts = [] →
      (parse s f.bytes).frag = none → (parse s f.bytes).cls ∉ [2, 4, 13] → frameSysId s f.bytes = none →
      let good := 60 ≤ f.bytes.length ∧ f.bytes.length ≤ 1522 ∧ isPause f.bytes = false
      let room (n : Nat) : Prop := n < 16 ∧ s.core.mbx.length = 16 ∧ (nth [] s.core.mbx n).length < 16 ∧
        (s.core.mbx.map fun l => (l.map fun g => g.bytes.length).sum).sum + f.bytes.length ≤ 65536
      let got (n : Nat) (t : State) : Prop := nth none t.cls.flight port = none ∧
        t.core.mbx = upd s.core.mbx n (· ++ [MbxFrame.mk f.bytes (taiSec f.stamp % 2 ^ 32) (f.cls * 2 ^ 30 + taiNs f.stamp) port]) ∧
        getF t (CLS_P_RXOK.CNT port) = (getF s (CLS_P_RXOK.CNT port) + 1) % 2 ^ (CLS_P_RXOK.CNT port).w
      (good → f.dec = some .default → isSet s CLS_CTRL.DEFACT = true → room (getF s CLS_CTRL.DEFMBX) →
        Completes (.frameEnd port true) s fun t =>
          got (getF s CLS_CTRL.DEFMBX) t ∧ SameRegs [CLS_P_RXOK.CNT port] s t ∧ SameStores s t) ∧
      (∀ (b i : Nat) (r : List Nat), good → f.dec = some (.rule b i r) → rAction r = 2 → rMirror r = false → rStamp r = false →
        room (rArg r % 16) → Completes (.frameEnd port true) s fun t => got (rArg r % 16) t ∧ t.sp.words = s.sp.words) ∧
      (∀ ok : Bool, ok = false ∨ ¬good → Completes (.frameEnd port ok) s (fun t =>
        nth none t.cls.flight port = none ∧ t.core = s.core ∧
        getF t (CLS_P_RXDROP.CNT port) = min (getF s (CLS_P_RXDROP.CNT port) + 1) (2 ^ (CLS_P_RXDROP.CNT port).w - 1) ∧
        SameRegs [CLS_P_RXDROP.CNT port, CLS_STAT.CNT_OVF] s t ∧ SameStores s t)))

/-- PAYLOAD_SCAN_DONE takes the oldest frame of a port out of the payload buffer; one whose decision waited and which no rule matches
is decided by the default action, and counts. PAUSE_DRAIN_DONE and PATTERN_LOAD_DONE lead through the change of a pattern set; the
frames held for it are judged in arrival order. DUP_ENTRY_FORGET takes a key out of a window of duplicates; TADPOLE_EXPIRY frees an
entry and counts the frames that waited; PORT_LINK_CHANGE takes link and speed, the speed that SPEED fixes or the one the PHY
reports; 1,000 Mbit/s reported in band on a 3.3 V bank leaves the link down. -/
def Obligations.ClassifierTables : Prop :=
  (∀ (s : State) (port : Nat) (f : RxFrame) (rest : List RxFrame), rxOn s port = true → nth [] s.cls.pay port = f :: rest →
    let popped : State := { s with cls := { s.cls with pay := upd s.cls.pay port (List.drop 1) } }
    (s.cls.pay.length = 4 → port < 4 ∧ nth [] popped.cls.pay port = rest) ∧
    (f.dec.isSome = true → exec (.payloadScanDone port) s = .next popped) ∧
    (∀ good : Bool, f.dec = none → f.fcs = some good → f.port = port → (parse s f.bytes).frag = none → (parse s f.bytes).cls ≠ 14 →
      s.sp.upsets = [] → ruleCands s f (parse s f.bytes) false = [] → good = false ∨ isSet s CLS_CTRL.DEFACT = false →
      exec (.payloadScanDone port) s = .next (incSat popped (CLS_P_NOMATCH.CNT port) CLS_STAT.CNT_OVF))) ∧
  (∀ (s : State) (ports : List Nat), s.cls.pause = some (ports, 1) → s.cls.pay.all List.isEmpty = true →
    exec .pauseDrainDone s = .next { s with cls := { s.cls with pause := some (ports, 2) } }) ∧
  (∀ (s : State) (ports : List Nat), s.cls.pause = some (ports, 2) → exec .patternLoadDone s =
    .next (s.cls.held.foldl judgeAndLand { s with cls := { s.cls with pause := none, oldPats := [], held := [] } })) ∧
  (∀ (s : State) (pair src seq : Nat), absent s = false → s.cls.dup.length = 2 → pair < 2 →
    Completes (.dupEntryForget pair src seq) s fun t =>
      nth [] t.cls.dup pair = (nth [] s.cls.dup pair).filter (fun e => e != (src, seq)) ∧
      (∀ k, k ≠ pair → nth [] t.cls.dup k = nth [] s.cls.dup k) ∧ t = { s with cls := { s.cls with dup := t.cls.dup } }) ∧
  (∀ (s : State) (i : Nat) (e : TadEntry), absent s = false → s.cls.tad[i]? = some e → Completes (.tadpoleExpiry i) s fun t =>
      t.cls = { s.cls with tad := s.cls.tad.eraseIdx i } ∧
      getF t CLS_TADCNT1.ORPH_TMO = min (getF s CLS_TADCNT1.ORPH_TMO + e.held.length) (2 ^ CLS_TADCNT1.ORPH_TMO.w - 1) ∧
      SameRegs [CLS_TADCNT1.ORPH_TMO, CLS_STAT.CNT_OVF] s t ∧ SameStores s t) ∧
  (∀ (s : State) (port spd : Nat), rxOn s port = true → spd < 4 →
    let fixed := getF s (CLS_P_CFG.SPEED port)
    let bad := fixed = 0 ∧ spd = 3 ∧ bitOf s.pins.vsel (if port < 2 then 1 else 2) = true
    (¬bad → Completes (.portLinkChange port true spd) s fun t => getF t (CLS_P_PSTAT.LINK port) = 1 ∧
      getF t (CLS_P_PSTAT.SPD port) = (if fixed = 0 then spd else fixed) ∧
      OnlyRegs [CLS_P_PSTAT.LINK port, CLS_P_PSTAT.SPD port] s t) ∧
    (bad → exec (.portLinkChange port true spd) s = .next (setF s (CLS_P_PSTAT.LINK port) 0)) ∧
    exec (.portLinkChange port false spd) s = .next (setF s (CLS_P_PSTAT.LINK port) 0))

/-- EGRESS_FRAME_START: on a ready port without a gate list the head of the highest eligible queue, here one without a token bucket
and no PTP message, starts. EGRESS_FRAME_END of a stored frame frees the link and counts. GATE_CHANGE sets the gates to what the
running list says now. GATE_LIST_TAKEOVER: a committed list that is due takes over, with its gates. -/
def Obligations.EgressPorts : Prop :=
  ∀ (s : State) (port : Nat), port < 4 → s.egr.ports.length = 4 → (egrPort s port).queues.length = 8 →
    (∀ (q : Nat) (f : EgrFrame), egrReady s port = true → (egrPort s port).gcl.en = false → chooseHead s port = some (q, f) →
      f.tc = none → f.ptp = false → isSet s (EGR_TB.EN port q) = false → Completes (.egressFrameStart port) s fun t =>
        (egrPort t port).tx = some (q, f, false) ∧ nth [] (egrPort t port).queues q = (nth [] (egrPort s port).queues q).drop 1 ∧
        (∀ r, r ≠ q → nth [] (egrPort t port).queues r = nth [] (egrPort s port).queues r) ∧
        (∀ p, p ≠ port → egrPort t p = egrPort s p) ∧ t.regs = s.regs ∧ SameStores s t) ∧
    (∀ (q : Nat) (f : EgrFrame), (egrPort s port).tx = some (q, f, false) → Completes (.egressFrameEnd port) s fun t =>
        (egrPort t port).tx = none ∧ (egrPort t port).queues = (egrPort s port).queues ∧
        getF t (EGR_TXOK.CNT port) = (getF s (EGR_TXOK.CNT port) + 1) % 2 ^ (EGR_TXOK.CNT port).w ∧
        SameRegs [EGR_TXOK.CNT port] s t ∧ SameStores s t) ∧
    (absent s = false → domOn s 6 = true → Completes (.gateChange port) s fun t => (egrPort t port).gates = gatesNow s port ∧
        (egrPort t port).queues = (egrPort s port).queues ∧ (∀ p, p ≠ port → egrPort t p = egrPort s p) ∧ t.regs = s.regs ∧
        SameStores s t) ∧
    (gateDue s port = true → Completes (.gateListTakeover port) s fun t =>
        (egrPort t port).gcl = listOf s port ∧ (egrPort t port).pending = false ∧
        (egrPort t port).gates = gatesAt (listOf s port) s.time.tai ∧ (egrPort t port).queues = (egrPort s port).queues ∧
        (∀ p, p ≠ port → egrPort t p = egrPort s p) ∧ t.regs = s.regs ∧ SameStores s t)

/-- REDSUP_SEND queues a supervision frame of 60 bytes on both ports of a PRP or HSR pair with room, with the trailer of PRP or the
tag of HSR, under one sequence number. GOOSE_RETRANSMIT of a GOOSE slot, in RUN or RUN_EDIT, counts SQNUM on, doubles the interval up
to TMAX, leaves what was last sent, and, on a slot of one port outside a redundant pair with room in its queue, queues the frame
there. -/
def Obligations.SupervisionAndGoose : Prop :=
  (∀ (s : State) (pair : Nat), pair < 2 → absent s = false → redMode s pair = 1 ∨ redMode s pair = 2 → s.egr.ports.length = 4 →
    (∀ p, p < 4 → p / 2 = pair → (egrPort s p).queues.length = 8 ∧
      egrRoom s p (getF s EGR_CTRL.SYSQ) probe = true) →
    originOk s 0 false = true → getF s EGR_CTRL.SYSQ < 8 → Completes (.redsupSend pair) s fun t =>
      (∃ (body : List Byte) (seq : Nat), body.length = 60 ∧ ∀ p, p / 2 = pair →
        nth [] (egrPort t p).queues (getF s EGR_CTRL.SYSQ) = nth [] (egrPort s p).queues (getF s EGR_CTRL.SYSQ) ++
          [{ origin := 0, bytes := if redMode s pair = 1 then body ++ rct body seq p else hsrTag body seq, slot := none, ptp := false,
             post := [], tc := none }]) ∧
      (∀ p, p / 2 ≠ pair → egrPort t p = egrPort s p) ∧
      SameRegs [EGR_REDSEQ.SEQ0, EGR_REDSEQ.SEQ1] s t ∧ SameStores s t) ∧
  (∀ (s : State) (i interval : Nat), i < 16 → s.egr.pubs.length = 16 → pubOn s i = true → s.mode = .run ∨ s.mode = .runEdit →
    (pubSlot s i).next = some interval → isSet s (EGR_SLOT_CFG.KIND i) = false → (pubSlot s i).sq < 2 ^ 32 →
    let sq := if (pubSlot s i).sq = 2 ^ 32 - 1 then 1 else (pubSlot s i).sq + 1
    let q := getF s (EGR_SLOT_CFG.QUEUE i)
    Completes (.gooseRetransmit i) s fun t =>
      let f : EgrFrame := { origin := 2, bytes := (pubSlot t i).frame, slot := some i, ptp := false, post := [], tc := none }
      (pubSlot t i).sq = sq ∧ getF t (EGR_SLOT_SQ.SQNUM i) = sq % 2 ^ 16 ∧
      (pubSlot t i).next = some (min (2 * interval) (getF s (EGR_SLOT_TIMING.TMAX i) * 1000)) ∧
      (pubSlot t i).sent = (pubSlot s i).sent ∧ (∀ j, j ≠ i → pubSlot t j = pubSlot s j) ∧ SameStores s t ∧
      (∀ p, p < 4 → getF s (EGR_SLOT_CFG.PORTS i) = 2 ^ p → redMode s (p / 2) = 0 → s.egr.ports.length = 4 →
        (egrPort s p).queues.length = 8 → (∀ x ∈ s.egr.ports, ∀ l ∈ x.queues, ∀ g ∈ l, g.slot ≠ some i) →
        egrRoom s p q f = true → nth [] (egrPort t p).queues q = nth [] (egrPort s p).queues q ++ [f]))

/-- RXPOP and HPBPOP take out the oldest entry, and CAN_ZCP_CTX_TIMEOUT the peer's context. An FD frame with FD_EN off sets PEX and
starts the integration again. Any other frame that is no reference and no request segment, judged by the filters in force, no HOLD
entry or wake being under way, goes to the high-priority buffer, to the RX FIFO with SPILL where that is full, to the FIFO by a
general filter, nowhere where that filter rejects it, is lost with RXOVF where the FIFO is full, or counts NOMATCH. Nothing else
changes but the time the bus was last seen busy. -/
def Obligations.BusReception : Prop :=
  ∀ (s : State) (n : Nat), n < 2 → s.can.length = 2 → absent s = false → domOn s 8 = true →
    exec (.canRxpop n) s = .next (updCan s n fun c => { c with fifo := c.fifo.drop 1 }) ∧
    exec (.canHpbpop n) s = .next (updCan s n fun c => { c with hpb := c.hpb.drop 1 }) ∧
    (∀ peer, canRuns s n = true → exec (.canZcpCtxTimeout n peer) s =
      .next (updCan s n fun c => { c with ctxs := c.ctxs.filter fun x => x.peer != peer })) ∧
    (∀ (f : CanFrame) (stamp : Nat), canOnBus s n = true →
      let saw (g : CanSt → CanSt) : State := updCan s n fun c => g { c with seen := s.core.cyc }
      (f.fd = true → isSet s (CAN_CTRL.FD_EN n) = false → exec (.canFrameRx n f stamp) s =
        .next (setFs (saw id) [(CAN_STAT.PEX n, 1), (CAN_STAT.ERRSTATE n, 0)])) ∧
      (f.fd = false ∨ isSet s (CAN_CTRL.FD_EN n) = true → (canSt s n).oldFlt = none → isRef s n f = false →
        isSegment s n f = false → s.mode ≠ .hold → s.ms.holdEntry = none → s.ms.waking = none →
        (hpfMatch s n f = none → afMatch s n f = none →
          exec (.canFrameRx n f stamp) s = .next (incSat (saw id) (CAN_CNT0.NOMATCH n) (CAN_STAT.CNT_OVF n))) ∧
        (∀ i, hpfMatch s n f = some i → (canSt s n).hpb.length < 4 → exec (.canFrameRx n f stamp) s =
          .next (saw fun c => { c with hpb := c.hpb ++ [rxEntry s f false (0x80 + i) stamp] })) ∧
        (∀ i, hpfMatch s n f = some i → (canSt s n).hpb.length = 4 → (canSt s n).fifo.length < 64 →
          exec (.canFrameRx n f stamp) s =
            .next (setF (saw fun c => { c with fifo := c.fifo ++ [rxEntry s f true (0x80 + i) stamp] }) (CAN_STAT.HPB_SPILL n) 1)) ∧
        (∀ i, hpfMatch s n f = none → afMatch s n f = some i → isSet s (CAN_AF_CFG.REJECT n i) = true →
          exec (.canFrameRx n f stamp) s = .next (saw id)) ∧
        (∀ i, hpfMatch s n f = none → afMatch s n f = some i → isSet s (CAN_AF_CFG.REJECT n i) = false →
          ((canSt s n).fifo.length < 64 → exec (.canFrameRx n f stamp) s =
            .next (saw fun c => { c with fifo := c.fifo ++ [rxEntry s f false i stamp] })) ∧
          ((canSt s n).fifo.length = 64 → exec (.canFrameRx n f stamp) s =
            .next (raise (setF (incSat (saw id) (CAN_CNT1.RXOVF n) (CAN_STAT.CNT_OVF n)) (CAN_STAT.RXOVF n) 1)
              (CAN_STAT.RXOVF n))))))

/-- While no object waits for a buffer, no segment waits, and no reinitialisation does. CAN_TX_START, with nothing in an attempt, no
reference waiting and no exclusive window open: the buffer the arbitration chooses starts an attempt and keeps its frame. For a
buffer that holds a program frame: CAN_TX_DONE frees it with LAST 1, or with LAST 3 and CANCEL_LATE where it was being cancelled;
CAN_TX_FAIL leaves the frame to be tried again in a mode that lets it be sent, or releases it with LAST 2 where it was being
cancelled; CAN_TB_CANCEL of that buffer marks one in its attempt and releases any other with LAST 2. -/
def Obligations.BusTransmission : Prop :=
  ∀ (s : State) (n b : Nat), n < 2 → b < 3 → s.can.length = 2 → (canSt s n).tbs.length = 3 → (canSt s n).reinit = false →
    (canSt s n).pending = [] → (canSt s n).zcpTx = [] →
    (canOnBus s n = true → (canSt s n).att = none → (canSt s n).refWait = none → (canSt s n).excl = none → tbChoose s n = some b →
      Completes (.canTxStart n) s fun t => (canSt t n).att = some (.tb b) ∧ (canTb t n b).attempt = true ∧
        (canTb t n b).frame = (canTb s n b).frame ∧ (canSt t n).attAt = s.core.cyc ∧ t.regs = s.regs ∧ SameStores s t) ∧
    (∀ f : CanFrame, (canTb s n b).frame = some (f, .prog) →
      ((canTb s n b).cancel = false → (canSt s n).att = some (.tb b) → Completes (.canTxDone n) s fun t => (canSt t n).att = none ∧
        canTb t n b = CanTb.init ∧ getF t (canLast n b) = 1 ∧ SameRegs [canLast n b] s t ∧ SameStores s t) ∧
      ((canTb s n b).cancel = true → (canSt s n).att = some (.tb b) → Completes (.canTxDone n) s fun t => (canSt t n).att = none ∧
        canTb t n b = CanTb.init ∧ getF t (canLast n b) = 3 ∧ getF t (CAN_STAT.CANCEL_LATE n) = 1 ∧
        SameRegs [canLast n b, CAN_STAT.CANCEL_LATE n] s t ∧ SameStores s t) ∧
      ((canTb s n b).cancel = false → (canSt s n).att = some (.tb b) → tbMode s b = true →
        Completes (.canTxFail n) s fun t => (canSt t n).att = none ∧
          canTb t n b = { canTb s n b with attempt := false } ∧ t.regs = s.regs ∧ SameStores s t) ∧
      ((canTb s n b).cancel = true → (canSt s n).att = some (.tb b) → Completes (.canTxFail n) s fun t => (canSt t n).att = none ∧
        canTb t n b = CanTb.init ∧ getF t (canLast n b) = 2 ∧
        SameRegs [canLast n b, CAN_CNT1.TXDROP n, CAN_STAT.CNT_OVF n] s t ∧ SameStores s t) ∧
      ((canTb s n b).attempt = true → absent s = false → domOn s 8 = true →
        exec (.canTbCancel n (2 ^ b)) s = .next (updTb s n b fun x => { x with cancel := true })) ∧
      ((canTb s n b).attempt = false → absent s = false → domOn s 8 = true → Completes (.canTbCancel n (2 ^ b)) s fun t =>
        canTb t n b = CanTb.init ∧ getF t (canLast n b) = 2 ∧
        SameRegs [canLast n b, CAN_CNT1.TXDROP n, CAN_STAT.CNT_OVF n] s t ∧ SameStores s t))

/-- CAN_ERROR stores the counters and the error state they give, bus-off above 255 with BUSOFF_SEEN. While no segment can be loaded,
BUSOFF_RECOVERY clears the counters and returns to error-active, and BUS_INTEGRATION gives the error state of the counters.
Time-triggered, with nothing in an attempt and no posted write: a master in schedule, not aligned to TAI, waits with the next count
once BCLEN has passed; an exclusive window that opens takes its object's frame; a frame whose TXEN has passed is lost; BCLEN plus
TTWATCH without a reference leaves the schedule with REF_LOST and loses the window's frame. -/
def Obligations.BusErrorsAndSchedule : Prop :=
  (∀ (s : State) (n : Nat), n < 2 → s.can.length = 2 →
     (∀ tec rec : Nat, canOnBus s n = true →
       (tec ≤ 255 → Completes (.canError n tec rec) s fun t => getF t (CAN_ERRCNT.TEC n) = tec ∧
         getF t (CAN_ERRCNT.REC n) = min rec 255 ∧
         getF t (CAN_STAT.ERRSTATE n) = (if 127 < tec ∨ 127 < rec then 2 else 1) ∧ (canSt t n).seen = s.core.cyc ∧
         SameRegs [CAN_ERRCNT.TEC n, CAN_ERRCNT.REC n, CAN_STAT.ERRSTATE n] s t ∧ SameStores s t) ∧
       (255 < tec → Completes (.canError n tec rec) s fun t => getF t (CAN_STAT.ERRSTATE n) = 3 ∧
         getF t (CAN_STAT.BUSOFF_SEEN n) = 1 ∧ SameStores s t)) ∧
     ((canTb s n 2).frame.isSome = true ∨ (canSt s n).zcpTx = [] →
       (canRuns s n = true → getF s (CAN_STAT.ERRSTATE n) = 3 → Completes (.busoffRecovery n) s fun t =>
         getF t (CAN_ERRCNT.TEC n) = 0 ∧ getF t (CAN_ERRCNT.REC n) = 0 ∧ getF t (CAN_STAT.ERRSTATE n) = 1 ∧
         OnlyRegs [CAN_ERRCNT.TEC n, CAN_ERRCNT.REC n, CAN_STAT.ERRSTATE n, CAN_TTSTAT.STATE n] s t) ∧
       (canRuns s n = true → getF s (CAN_STAT.ERRSTATE n) = 0 → getF s (CAN_ERRCNT.TEC n) ≤ 255 →
         exec (.busIntegration n) s = .next (setF s (CAN_STAT.ERRSTATE n)
           (if 127 < getF s (CAN_ERRCNT.TEC n) ∨ 127 < getF s (CAN_ERRCNT.REC n) then 2 else 1))))) ∧
  (∀ (s : State) (n : Nat), n < 2 → s.can.length = 2 → canRuns s n = true → (canSt s n).att = none → s.scan.posted = [] →
     (∀ c, ttRole s n s.mode = 2 → getF s (CAN_STAT.ERRSTATE n) ≠ 3 → isSet s (CAN_TTCFG.ALIGN n) = false → ttIn s n = true →
       (canSt s n).sched.bclen ≤ ttTime s n → (canSt s n).count = some c → exec (.ttReferenceInstant n) s =
         .next (updCan s n fun x => { x with refWait := some ((c + 1) % max 1 (canSt s n).sched.mcyc) })) ∧
     (∀ (w c j : Nat) (f : CanFrame), ttIn s n = true → ttOpens s n w = true → (canSt s n).count = some c →
       ttCell s n c w = (1, j) → canProgMode s = true → objFrame s n j = some f →
       exec (.ttWindowOpen n w) s = .next (updCan s n fun x => { x with excl := some (j, f, s.core.cyc) })) ∧
     (∀ e, (canSt s n).excl = some e → e.2.2 + (canSt s n).sched.txen * nomBit s n < s.core.cyc →
       exec (.ttTxenExpiry n) s = .next (updCan s n fun x => { x with excl := none })) ∧
     (ttIn s n = true → (canSt s n).sched.bclen + (canSt s n).sched.watch ≤ ttTime s n →
       Completes (.ttRefWatchTimeout n) s fun t => getF t (CAN_TTSTAT.STATE n) = 1 ∧ getF t (CAN_STAT.REF_LOST n) = 1 ∧
         (canSt t n).excl = none ∧ SameRegs [CAN_TTSTAT.STATE n, CAN_STAT.REF_LOST n, ZCP_ESEQ.SEQ] s t ∧ SameStores s t))

/-- The input channels of a companion: RAW_INPUT_CHANGE keeps the level and opens a measurement on a raw rising edge; DEBOUNCED_EDGE,
COUNTER_EDGE and CAPTURE_EDGE change their channel and, where an event is due and both FIFOs have room, add it to each link's FIFO; a
capture within 40 ticks counts CAPLOST; SETTLING_END ends the interval; FREQ_MEASUREMENT_CLOSE, once the gate time is over, stores
the frequency, its range flags and the next gate; FREQ_NOSIG_TIMEOUT stores no signal. Nothing outside the companion changes. -/
def Obligations.CompanionInputs : Prop :=
  ∀ (s : State) (k ch : Nat), k < 8 → s.fld.cpn.length = 8 → CpnShape (cpnSt s k) → ch < 12 →
    let c := cpnSt s k
    let i := cpnIn c ch
    let chan (j : CpnIn) (d : CpnSt) : Prop := d = { c with ins := c.ins.set ch j }
    let queued (e : Nat → CpnEvent) (j : CpnIn) (d : CpnSt) : Prop := d = { c with ins := c.ins.set ch j, links := d.links } ∧
      ∀ x, x < 2 → cpnLink d x = { cpnLink c x with fifo := (cpnLink c x).fifo ++ [{ e x with lost := (cpnLink c x).lost }], lost := false }
    let room : Prop := ∀ x, x < 2 → (cpnLink c x).fifo.length < 64
    (∀ level : Bool, Completes (.rawInputChange k ch level) s
      (CpnTo s k (chan { i with raw := level, fopen := i.fopen || (level && !i.raw && inRaw c ch && inFen c ch) }))) ∧
    (∀ a b : Nat, i.raw = i.deb → exec (.debouncedEdge k ch a b) s = .next s) ∧
    (∀ a b : Nat, i.raw ≠ i.deb →
      let j : CpnIn := { i with deb := i.raw, fopen := i.fopen || (i.raw && !inRaw c ch && inFen c ch) }
      (edgeSel (inEvt c ch) i.raw = false → Completes (.debouncedEdge k ch a b) s (CpnTo s k (chan j))) ∧
      (edgeSel (inEvt c ch) i.raw = true → room → Completes (.debouncedEdge k ch a b) s (CpnTo s k (queued (fun x =>
        CpnEvent.mk ch 0 i.raw i.settling false (cpnLink c x).fno (if x = 0 then a else b)) j)))) ∧
    (∀ rise : Bool,
      let j : CpnIn := { i with fopen := i.fopen || (rise && inFen c ch) }
      (edgeSel (inEdges c ch) rise = false → Completes (.counterEdge k ch rise) s (CpnTo s k (chan j))) ∧
      (edgeSel (inEdges c ch) rise = true → i.cnt + 1 < 2 ^ 32 →
        Completes (.counterEdge k ch rise) s (CpnTo s k (chan { j with cnt := i.cnt + 1 }))) ∧
      (edgeSel (inEdges c ch) rise = true → i.cnt = 2 ^ 32 - 1 → room → Completes (.counterEdge k ch rise) s (CpnTo s k (queued (fun _ =>
        CpnEvent.mk ch 2 false false false 0 0) { j with ovf := true, cnt := if bitOf (icfg c ch) 28 then 2 ^ 32 - 1 else 0 })))) ∧
    Completes (.settlingEnd k ch) s
      (CpnTo s k (chan { i with settling := false, fvinv := i.fvinv || (i.settling && i.fopen) })) ∧
    (inFen c ch = true → i.fopen = true →
      (∀ periods ticks : Nat, 0 < periods → 400000 * 10 ^ i.gate ≤ ticks → Completes (.freqMeasurementClose k ch periods ticks) s (CpnTo s k fun d =>
        let mhz := (periods * 4 * 10 ^ 11 * 2 + ticks) / (2 * ticks)
        (cpnIn d ch).freq % 2 ^ 29 = min mhz (2 ^ 29 - 1) ∧ bitOf (cpnIn d ch).freq 30 = false ∧
          bitOf (cpnIn d ch).freq 29 = decide ((if ch < 4 then 500000000 else 250000000) < mhz) ∧ (cpnIn d ch).fopen = true ∧
          (cpnIn d ch).freqVinv = (i.fvinv || i.settling) ∧ (cpnIn d ch).lastGate = some i.gate ∧
          (cpnIn d ch).gate = nextGate c i.gate mhz ∧ (cpnIn d ch).cnt = i.cnt ∧ chan (cpnIn d ch) d)) ∧
      Completes (.freqNosigTimeout k ch) s (CpnTo s k fun d => (cpnIn d ch).freq % 2 ^ 29 = 0 ∧ bitOf (cpnIn d ch).freq 30 = true ∧
        (cpnIn d ch).fopen = false ∧ (cpnIn d ch).cnt = i.cnt ∧ chan (cpnIn d ch) d)) ∧
    (∀ (rise : Bool) (edge a b : Nat), ch < 4 → bitOf (icfg c ch) 24 = true → edgeSel (inEvt c ch) rise = true →
      (∀ last, i.capAt = some last → edge < last + 40 →
        Completes (.captureEdge k ch rise edge a b) s (CpnTo s k fun d => d = { c with caplost := (c.caplost + 1) % 256 })) ∧
      ((∀ last, i.capAt = some last → last + 40 ≤ edge) → i.armed = true → room →
        Completes (.captureEdge k ch rise edge a b) s (CpnTo s k (queued (fun x =>
          CpnEvent.mk ch 1 rise false false (cpnLink c x).fno (if x = 0 then a else b))
          { i with capAt := some edge, armed := !bitOf (icfg c ch) 23 }))))

/-- Management reads and writes, APPLY and the command words of a companion: the result is kept for the link's next answer. A read or
write of a register that does not exist gives 3, a write of register 0 gives 2, a write of the configuration goes to the link's
shadow. APPLY takes the shadow of the obeyed link on the obeyed link, and is refused with 2 otherwise; the other command words act on
the link whose epoch is obeyed and are refused with 2 on the other. -/
def Obligations.CompanionManagement : Prop :=
  ∀ (s : State) (k x : Nat), k < 8 → s.fld.cpn.length = 8 → CpnShape (cpnSt s k) → x < 2 →
    let c := cpnSt s k
    let result (mst mdata : Nat) (d : CpnSt) : Prop := (cpnLink d x).mst = mst ∧ (cpnLink d x).mdata = mdata
    let only (mst mdata : Nat) (e d : CpnSt) : Prop :=
      d = { e with links := c.links.set x { cpnLink c x with mst := mst, mdata := mdata } }
    (∀ addr v : Nat, cpnReg c addr = some v → Completes (.cpnMgmtRead k x addr) s (CpnTo s k (only 1 v c))) ∧
    (∀ addr : Nat, cpnReg c addr = none → Completes (.cpnMgmtRead k x addr) s (CpnTo s k (only 3 0 c))) ∧
    (∀ addr v data : Nat, cfgWord c.cfg addr = some v → Completes (.cpnMgmtWrite k x addr data) s (CpnTo s k fun d =>
      result 1 0 d ∧ (cpnLink d x).shadow = cfgPut (cpnLink c x).shadow addr (data % 2 ^ 32) ∧ d.cfg = c.cfg ∧
      d = { c with links := c.links.set x (cpnLink d x) })) ∧
    (∀ addr data : Nat, cpnReg c addr = none → Completes (.cpnMgmtWrite k x addr data) s (CpnTo s k (only 3 0 c))) ∧
    (∀ data : Nat, Completes (.cpnMgmtWrite k x 0 data) s (CpnTo s k (only 2 0 c))) ∧
    (∀ data : Nat, Completes (.cpnMgmtWrite k x 4 data) s (CpnTo s k (only 1 0 { c with
      conflict := c.conflict && !bitOf data 12, fastExp := c.fastExp && !bitOf data 5, fastRef := c.fastRef && !bitOf data 4 }))) ∧
    (onLink c x = true → (cpnLink c x).obeyed = true → Completes (.apply k x) s (CpnTo s k fun d =>
      result 1 0 d ∧ d.cfg = (cpnLink c x).shadow ∧ d.cfglost = false)) ∧
    ((onLink c x && (cpnLink c x).obeyed) = false → Completes (.apply k x) s (CpnTo s k (only 2 0 c))) ∧
    (onLink c x = true → ∀ m : Nat,
      Completes (.tsdClear k x m) s (CpnTo s k fun d => result 1 0 d ∧ d.ins = c.ins ∧
        ∀ i, i < 4 → nth false d.tsd i = (nth false c.tsd i && !bitOf m i)) ∧
      Completes (.fastRelease k x m) s (CpnTo s k fun d => result 1 0 d ∧ d.ins = c.ins ∧ ∀ i, i < 4 → nth none d.fast i =
        if bitOf m i then none else nth none c.fast i) ∧
      Completes (.cntLatch k x) s (CpnTo s k (only 1 0 { c with
        ins := c.ins.map fun i => { i with clat := i.cnt }, clatf := some (cpnLink c x).fno })) ∧
      Completes (.cntClear k x m) s (CpnTo s k fun d => only 1 0 { c with ins := d.ins } d ∧ d.ins.length = 12 ∧
        ∀ i, i < 12 → cpnIn d i = if bitOf m i then { cpnIn c i with cnt := 0, vinv := false } else cpnIn c i) ∧
      Completes (.ovfClear k x m) s (CpnTo s k fun d => only 1 0 { c with ins := d.ins } d ∧ d.ins.length = 12 ∧
        ∀ i, i < 12 → cpnIn d i = if bitOf m i then { cpnIn c i with ovf := false } else cpnIn c i) ∧
      Completes (.capArm k x m) s (CpnTo s k fun d => only 1 0 { c with ins := d.ins } d ∧ d.ins.length = 12 ∧
        ∀ i, i < 12 → cpnIn d i = if i < 4 ∧ bitOf m i then { cpnIn c i with armed := true } else cpnIn c i)) ∧
    (onLink c x = false → ∀ (m : Nat) (i : Instr), i ∈ [.tsdClear k x m, .fastRelease k x m, .cntLatch k x, .cntClear k x m,
      .ovfClear k x m, .capArm k x m] → Completes i s (CpnTo s k (only 2 0 c)))

/-- A companion's outputs. A good frame that is obeyed drives the outputs, takes its epoch, link and station and ends the failures of
loss and SAFE, while nothing else holds an output; one that is not obeyed changes no output and sets CONFLICT unless it carries SAFE;
an obeyed SAFE frame brings the fail state; a bad frame counts CRC errors. The answer to a frame carries the obedience, the outputs
and the management result. A slot without a good frame counts; the eighth takes the link down. A fast frame is taken or counted as
rejected, its latch ends by time. Current limit, thermal shutdown and restart, the hold time, ten bad and sixteen good barrier
frames, undervoltage with hysteresis, and the reset act as stated. -/
def Obligations.CompanionOutputs : Prop :=
  ∀ (s : State) (k x : Nat), k < 8 → s.fld.cpn.length = 8 → CpnShape (cpnSt s k) → x < 2 →
    let c := cpnSt s k
    let sound : Prop := c.uv = false ∧ c.tsd = List.replicate 4 false ∧ bitOf c.cfg.ocfg 8 = false ∧ bitOf c.cfg.ocfg 9 = false
    (∀ f : DnFrame, f.mop = 0 → f.safe = false → cpnObeys c x f = true → sound → c.barrierFail = false → c.fast = List.replicate 4 none →
      (∀ y, y ∈ c.causes → y = 1 ∨ y = 2) → Completes (.cpnFrameRx k x f true) s (CpnTo s k fun d =>
        (∀ i, i < 4 → nth false d.driven i = bitOf f.outcmd i) ∧ d.obvalid = true ∧ d.obepoch = f.epoch ∧ d.oblink = x ∧
        d.obstn = f.stn ∧ d.causes = [] ∧ (cpnLink d x).loss = 0 ∧ (cpnLink d x).obeyed = true ∧ (cpnLink d x).nack = false ∧
        (cpnLink d x).due = true ∧ d.cfg = c.cfg ∧ d.conflict = c.conflict)) ∧
    (∀ f : DnFrame, f.mop = 0 → cpnObeys c x f = false → Completes (.cpnFrameRx k x f true) s (CpnTo s k fun d =>
        d.driven = c.driven ∧ d.obepoch = c.obepoch ∧ d.oblink = c.oblink ∧ d.causes = c.causes ∧
        d.conflict = (c.conflict || !f.safe) ∧ (cpnLink d x).obeyed = false ∧ (cpnLink d x).due = true ∧ d.ins = c.ins)) ∧
    (∀ f : DnFrame, f.mop = 0 → f.safe = true → cpnObeys c x f = true → Completes (.cpnFrameRx k x f true) s (CpnTo s k fun d =>
        2 ∈ d.causes ∧ cpnFailed d = true ∧ d.obepoch = f.epoch ∧ d.oblink = x ∧ d.cfg = c.cfg)) ∧
    (∀ f : DnFrame, Completes (.cpnFrameRx k x f false) s (CpnTo s k fun d =>
        d.driven = c.driven ∧ d.obepoch = c.obepoch ∧ d.causes = c.causes ∧ d.ins = c.ins ∧
        (if x = 0 then d.crcA = (c.crcA + 1) % 4096 ∧ d.crcB = c.crcB else d.crcB = (c.crcB + 1) % 4096 ∧ d.crcA = c.crcA) ∧
        (cpnLink d x).dcrc = true ∧ (cpnLink d x).good = 0 ∧ (cpnLink d x).due = true)) ∧
    ((cpnLink c x).due = false → exec (.cpnAnswerSend k x) s = .next s) ∧
    ((cpnLink c x).due = true → Completes (.cpnAnswerSend k x) s (CpnTo s k fun d => (cpnLink d x).due = false ∧ d.driven = c.driven ∧
      ∃ a, (cpnLink d x).answer = some a ∧ a.obepoch = c.obepoch ∧ a.oblink = c.oblink ∧ a.obeying = (cpnLink c x).obeyed ∧
        a.outstate = bitsNat c.driven ∧ a.mtag = (cpnLink c x).mtag ∧ a.mst = (cpnLink c x).mst ∧ a.mdata = (cpnLink c x).mdata)) ∧
    ((cpnLink c x).loss < 7 → Completes (.cpnLossSlot k x) s (CpnTo s k fun d =>
      d = { c with links := c.links.set x { cpnLink c x with loss := (cpnLink c x).loss + 1, good := 0, inSlot := false } })) ∧
    ((cpnLink c x).loss = 7 → Completes (.cpnLossSlot k x) s (CpnTo s k fun d => (cpnLink d x).loss = 8 ∧ (cpnLink d x).up = false ∧
      (cpnLink d x).fifo = [] ∧ (onLink c x = true → 1 ∈ d.causes) ∧ (onLink c x = false → d.causes = c.causes ∧ d.driven = c.driven))) ∧
    (∀ set clr epoch : Nat,
      let taken (ok : Bool) : Bool := onLink c x && ok && epoch == c.obepoch % 256 && !cpnFailed c && !c.cfglost
      (∀ ok : Bool, taken ok = false → Completes (.cpnFastFrameRx k x set clr epoch ok) s
        (CpnTo s k fun d => d = { c with frej := (c.frej + 1) % 256 })) ∧
      (taken true = true → sound → Completes (.cpnFastFrameRx k x set clr epoch true) s (CpnTo s k fun d =>
        (∀ i, i < 4 → (bitOf set i = true → nth none d.fast i = some true ∧ nth false d.driven i = true) ∧
          (bitOf set i = false → bitOf clr i = true → nth none d.fast i = some false ∧ nth false d.driven i = false) ∧
          (bitOf set i = false → bitOf clr i = false → nth none d.fast i = nth none c.fast i)) ∧ d.frej = c.frej ∧ d.links = c.links))) ∧
    (∀ out : Nat, out < 4 →
      (nth none c.fast out = none → exec (.fastLatchTimeout k out) s = .next s) ∧
      (∀ v, nth none c.fast out = some v → sound → Completes (.fastLatchTimeout k out) s (CpnTo s k fun d =>
        nth none d.fast out = none ∧ d.fastExp = true ∧ nth false d.driven out = bitOf c.outcmd out)) ∧
      (∀ on : Bool, Completes (.outCurrentLimit k out on) s (CpnTo s k fun d => d = { c with lim := c.lim.set out on })) ∧
      Completes (.outThermalShutdown k out) s (CpnTo s k fun d => d.tsd = c.tsd.set out true ∧ nth false d.driven out = false ∧
        d = { c with tsd := d.tsd, driven := d.driven }) ∧
      (outLatch c out = true → exec (.outThermalRestart k out) s = .next s) ∧
      (outLatch c out = false → Completes (.outThermalRestart k out) s (CpnTo s k fun d => d.tsd = c.tsd.set out false ∧
        d = { c with tsd := d.tsd, driven := d.driven }))) ∧
    (cpnFailed c = false → exec (.failHoldTimeout k) s = .next s) ∧
    (cpnFailed c = true → Completes (.failHoldTimeout k) s (CpnTo s k fun d => d.holdOver = true ∧ d.causes = c.causes ∧
      ∀ i, i < 4 → outFail c i = 2 → nth false d.driven i = false)) ∧
    Completes (.barrierDownFrame k true) s (CpnTo s k fun d => d = { c with dnBad := 0, fieldFail := false }) ∧
    (c.dnBad < 9 → Completes (.barrierDownFrame k false) s (CpnTo s k fun d => d = { c with dnBad := c.dnBad + 1 })) ∧
    (c.dnBad = 9 → c.fieldFail = false → Completes (.barrierDownFrame k false) s (CpnTo s k fun d => 3 ∈ d.causes ∧ d.fieldFail = true)) ∧
    (c.upGood < 15 → Completes (.barrierUpFrame k true) s (CpnTo s k fun d => d = { c with upBad := 0, upGood := c.upGood + 1 })) ∧
    (c.upGood = 15 → Completes (.barrierUpFrame k true) s (CpnTo s k fun d => d.barrierFail = false ∧ d.upGood = 16)) ∧
    (c.upBad = 9 → c.barrierFail = false → Completes (.barrierUpFrame k false) s (CpnTo s k fun d =>
      3 ∈ d.causes ∧ d.barrierFail = true ∧ d.upGood = 0)) ∧
    (∀ mv : Nat, mv < 17000 → Completes (.fieldUvChange k mv) s (CpnTo s k fun d => d.uv = true ∧ d.driven = List.replicate 4 false ∧
      d = { c with uv := d.uv, driven := d.driven })) ∧
    (∀ mv : Nat, 17000 ≤ mv → Completes (.fieldUvChange k mv) s (CpnTo s k fun d => d.uv = (c.uv && decide (mv < 18000)) ∧
      d = { c with uv := d.uv, driven := d.driven })) ∧
    Completes (.cpnReset k) s (CpnTo s k fun d => d = { CpnSt.init with uv := c.uv, ins := d.ins } ∧ ∀ j, j < 12 →
      cpnIn d j = { CpnIn.init with raw := (cpnIn c j).raw })

/-- FIELD_FRAME_SEND, at cycle 400 n - 8 or, while D2 is off, after frame n - 1, sends frame n to each position that sends, with the
unit's epoch and station, SAFE, the commanded outputs and the next operation; at any other cycle it does nothing. To a position whose
oldest frame carries no operation, no posted write waiting and the input words off: a good answer without FAST_REF, CFGLOST and
event, of no higher epoch, is mirrored; a bad one counts ANSCRC; its absence for 2 µs counts NOANS, and the eighth miss takes the
link down. -/
def Obligations.HubFrames : Prop :=
  (∀ (s : State) (n : Nat), s.fld.hub.length = 8 → hubOn s = true →
    (domOn s 2 = true ∧ s.core.cyc % 400 = 392 ∧ n = (s.core.cyc + 8) / 400 ∧ s.fld.frame ≠ some n) ∨
      (domOn s 2 = false ∧ ∃ m, s.fld.frame = some m ∧ n = m + 1) → Completes .fieldFrameSend s fun t => t.fld.frame = some n ∧
    (∀ k, k < 8 → hubSends s k = false → hubPort t k = hubPort s k) ∧
    (∀ k, k < 8 → hubSends s k = true → ∃ (f : DnFrame) (o : Option Mgmt),
      (hubPort t k).sent = (hubPort s k).sent ++ [(f, n, o)] ∧ o = (hubNext (hubPort s k)).1 ∧
      f.epoch = getF s SBY_EPOCH.OWN ∧ f.stn = ownStn s ∧ f.safe = hubSafe s k ∧ f.outcmd = outCmd s k ∧
      f.frameNo = n % 2 ^ 32 ∧ bitOf (getF t FLD_HSTAT.SAFE) k = hubSafe s k) ∧
    SameRegs [FLD_HSTAT.SAFE] s t ∧ SameStores s t ∧ t.fld.cpn = s.fld.cpn) ∧
  (∀ s : State, hubOn s = true → domOn s 2 = true → s.core.cyc % 400 ≠ 392 → exec .fieldFrameSend s = .next s) ∧
  (∀ (s : State) (k n delay : Nat) (f : DnFrame) (rest : List (DnFrame × Nat × Option Mgmt)), k < 8 → s.fld.hub.length = 8 →
    hubSends s k = true → s.ms.cpnOff = [] → s.scan.posted = [] → isSet s (FLD_IBASE.EN k) = false →
    (hubPort s k).sent = (f, n, none) :: rest →
    (∀ a : UpFrame, a.fref = false → a.cfglost = false → a.evt = .none → epochHigher a.obepoch (getF s SBY_EPOCH.OWN) = false →
      Completes (.hubAnswerRx k a true delay) s fun t =>
        (hubPort t k).sent = rest ∧ (hubPort t k).last = some a ∧ (hubPort t k).loss = 0 ∧
        getF t (FLD_OUT.READ k) = a.outstate % 16 ∧ getF t (FLD_IN.STATE k) = a.inp % 4096 ∧
        getF t (FLD_STAT.OBLINK k) = a.oblink % 2 ∧ bitOf (getF t FLD_HSTAT.OBEYED) k = a.obeying ∧
        (∀ j, j ≠ k → hubPort t j = hubPort s j) ∧
        SameRegs [FLD_LDLY.DLY k, FLD_LSTAT.MIRROR k, FLD_STAT.OBEPOCH k, FLD_STAT.OBLINK k, FLD_STAT.CFGLOST k, FLD_STAT.CONFLICT k,
          FLD_STAT.BARRIER_FAIL k, FLD_STAT.FIELD_UV k, FLD_STAT.FAILST k, FLD_OUT.READ k, FLD_IN.STATE k, FLD_HSTAT.OBEYED,
          FLD_HSTAT.UP] s t ∧ SameStores s t) ∧
    (∀ a : UpFrame, getF s (FLD_LCNT.ANSCRC k) + 1 < 2 ^ (FLD_LCNT.ANSCRC k).w → Completes (.hubAnswerRx k a false delay) s fun t =>
        (hubPort t k).sent = rest ∧ (hubPort t k).good = 0 ∧ getF t (FLD_LCNT.ANSCRC k) = getF s (FLD_LCNT.ANSCRC k) + 1 ∧
        SameRegs [FLD_LCNT.ANSCRC k, FLD_HSTAT.UP, FLD_HSTAT.OBEYED] s t ∧ SameStores s t) ∧
    (domOn s 2 = false ∨ 400 * n + 800 ≤ s.core.cyc → getF s (FLD_LCNT.NOANS k) + 1 < 2 ^ (FLD_LCNT.NOANS k).w → Completes (.hubAnswerTimeout k) s fun t =>
        (hubPort t k).sent = rest ∧ (hubPort t k).good = 0 ∧ getF t (FLD_LCNT.NOANS k) = getF s (FLD_LCNT.NOANS k) + 1 ∧
        (7 ≤ (hubPort s k).loss → bitOf (getF t FLD_HSTAT.UP) k = false) ∧
        SameRegs [FLD_LCNT.NOANS k, FLD_HSTAT.UP, FLD_HSTAT.OBEYED] s t ∧ SameStores s t))

/-- TSP_SECOND, with three qualified sources or more: a source that is not demoted and lies further from the median than DISAGREE is
demoted with PRIO 7 once it has done so for N seconds, its seconds count before that, and a source within DISAGREE begins anew.
ATR_POLL: while candidate 0 is in use and good it counts its milliseconds; a candidate in use that is not good, Plumb in FREERUN and
HOLD over, gives way to the next good one by a local transaction that is prepared to commit, or the switch is deferred and counted.
No word that is read is in error. -/
def Obligations.LinePolicies : Prop :=
  (∀ s : State, policyOn s = true → bitOf (getF s PHM_CTRL.EN) 5 = true → 3 ≤ (qualifiedSrcs s).length →
    ∀ n : Nat, n < 7 → s.phm.disag.length = 7 → s.phm.agree.length = 7 → isSet s (TIM_SRC_STAT.QUALIFIED n) = true →
      bitOf (getF s TSP_STAT.DEMOTED) n = false →
      let far : Bool := decide (((2 * getF s TIM_DISAGREE.LIM : Nat) : Int) <
        (2 * srcOffset s n - median2 ((qualifiedSrcs s).map (srcOffset s))).natAbs)
      (far = true → max 1 (getF s TSP_CFG.N) ≤ nth 0 s.phm.disag n + 1 → Completes .tspSecond s fun t =>
        bitOf (getF t TSP_STAT.DEMOTED) n = true ∧ getF t (TIM_SRC_CFG.PRIO n) = 7 ∧ t.sp = s.sp ∧ t.pending = s.pending) ∧
      (far = true → nth 0 s.phm.disag n + 1 < max 1 (getF s TSP_CFG.N) → Completes .tspSecond s fun t =>
        nth 0 t.phm.disag n = nth 0 s.phm.disag n + 1 ∧ getF t (TIM_SRC_CFG.PRIO n) = getF s (TIM_SRC_CFG.PRIO n)) ∧
      (far = false → Completes .tspSecond s fun t =>
        nth 0 t.phm.disag n = 0 ∧ nth 0 t.phm.agree n = nth 0 s.phm.agree n + 1 ∧
        getF t (TIM_SRC_CFG.PRIO n) = getF s (TIM_SRC_CFG.PRIO n))) ∧
  (∀ s : State, policyOn s = true → bitOf (getF s PHM_CTRL.EN) 6 = true → s.phm.switching = none → s.sp.upsets = [] →
    (candGood s (getF s ATR_STAT.CUR) = true → getF s ATR_STAT.CUR = 0 → Completes .atrPoll s fun t =>
      t.phm = { s.phm with badMs := 0, goodMs := s.phm.goodMs + 1 } ∧ t.regs = s.regs ∧ t.txn = s.txn ∧ SameSpaces s t) ∧
    (∀ i : Nat, candGood s (getF s ATR_STAT.CUR) = false → isSet s PLB_STAT.FREERUN = true → getF s ATR_CFG.HOLD ≤ s.phm.badMs + 1 → getF s ATR_STAT.CUR < 3 →
      ((List.range 2).map fun j => (getF s ATR_STAT.CUR + 1 + j) % 3).find? (candGood s) = some i →
      (getF s ATR_STAT.CUR = 0 ∨ candGood s 0 = false) → isSet s TXN_STAT.STATE = false →
      Completes .atrPoll s fun t =>
        (getF t TXN_STAT.STATE = 2 ∧ getF t TXN_STAT.OWNER = 0xFFFF ∧ t.phm.switching = some i ∧
          t.txn.staged = candStage s i ∧ t.txn.commitAfter = some (0, 0, 0)) ∨
        (getF t TXN_STAT.STATE = 0 ∧ t.phm.switching = none ∧
          getF t ATR_STAT.DEFERS = min (getF s ATR_STAT.DEFERS + 1) (max (getF s ATR_STAT.DEFERS) (2 ^ ATR_STAT.DEFERS.w - 1)))))

/-- The queries of Table 18.6, class Q, over the host port in STOP: each is answered once with the data named and changes nothing but
the protocol's own state: IDENTIFY, READ_REG of registers that read without effect, READ_MEM of one word not in error, STAGE_READ,
OP_STATUS of a free and of a running slot, ABORT of an NV operation, the journal and the event ring, closing and opening a session.
ANNOUNCE from another sender of the own station number sets STN_CONFLICT without a reply, and from any other number changes nothing.
-/
def Obligations.ZcpQueries : Prop :=
  ∀ (s : State) (rq : ZReq) (i : Nat), Heard s .stop rq i →
    let u := noted s rq i
    let only (code : Nat) (data : List Byte) (t : State) : Prop := Replied s rq code 0 data t ∧ t = { s with zcp := t.zcp }
    Completes (.zcpIdentify rq) s (only 1 (beBytes 4 (regVal u SYS_ID.PART.addr) ++ beBytes 4 (regVal u SYS_STATION.STN.addr) ++
      beBytes 4 (regVal u SYS_MODE.MODE.addr) ++ beBytes 4 (regVal u SYS_DIRCRC.CRC.addr) ++ beBytes 2 (getF s CORE_DTVER.VERSION) ++
      beBytes 4 (getF s CORE_DTCRC.CRC) ++ beBytes 2 (activePid s).1 ++ beBytes 4 (activePid s).2 ++
      beBytes 4 (regVal u ZCP_FW.ROM.addr))) ∧
    (∀ (a n : Nat) (vs : Nat → Nat), regRange a n = true → (∀ j, j < n → placeTested u (a + 4 * j) = false) →
      (∀ j, j < n → (hostRead u (a + 4 * j)).2 = (vs j, u)) →
      Completes (.zcpReadReg rq a n) s (only 2 ((List.range n).flatMap fun j => beBytes 4 (vs j)))) ∧
    (∀ w v : Nat, w < 0x80000 → v = (rawWord s w).val.toNat → s.sp.upsets = [] → domOn s 5 = true → testing s 2 = false →
      Completes (.zcpReadMem rq (0x10000000 + 8 * w) 4) s fun t =>
        Replied s rq 3 0 (leBytes v) t ∧ t.regs = s.regs ∧ SameSpaces s t) ∧
    (∀ a n : Nat, regRange a n = true → isSet s TXN_STAT.STATE = true → Completes (.zcpStageRead rq a n) s
      (only 4 ((List.range n).flatMap fun j => beBytes 4 (stageValue u (a + 4 * j))))) ∧
    (∀ h : Nat, handleSlot s h = none → Completes (.zcpOpStatus rq h) s (only 5 (beBytes 6 0))) ∧
    (∀ h k : Nat, handleSlot s h = some k → s.zcp.ops.length = 8 → Completes (.zcpOpStatus rq h) s fun t =>
      only 5 (beBytes 1 (opSlot s k).st ++ beBytes 1 (opSlot s k).status ++ beBytes 4 (opSlot s k).progress) t ∧
      (opSlot t k).st = if (opSlot s k).st = 2 then 0 else (opSlot s k).st) ∧
    (∀ (h k : Nat) (j : NvJob), handleSlot s h = some k → s.zcp.ops.length = 8 → (opSlot s k).st = 1 → (opSlot s k).opcode = 0x0601 →
      (opSlot s k).pnr = false → s.nv.holder = some j → j.op = some k → j.reply = none → Completes (.zcpAbort rq h) s fun t =>
      Replied s rq 6 0 [] t ∧ Journaled rq 6 0 t ∧ t.nv.holder = some { j with aborted := true } ∧
      SameRegs [ZCP_JSEQ.SEQ, ZCP_JLOST.CNT] s t ∧ SameStores s t) ∧
    (∀ a n : Nat, 1 ≤ n → n ≤ 16 → Completes (.zcpJournalRead rq a n) s (only 7 (
      let es := ringFrom JournalEntry.seq s.zcp.journal a n
      beBytes 4 es.1 ++ beBytes 1 es.2.length ++ es.2.flatMap journalBytes))) ∧
    (∀ a n : Nat, 1 ≤ n → n ≤ 32 → Completes (.zcpEventRead rq a n) s (only 8 (
      let es := ringFrom EventEntry.seq s.zcp.events a n
      beBytes 4 es.1 ++ beBytes 1 es.2.length ++ es.2.flatMap eventBytes))) ∧
    Completes (.zcpSessionClose rq) s (fun t => only 0xA [] t ∧ (sessionAt t i).live = false ∧ (sessionAt t i).cache = [] ∧
      ∀ j, j ≠ i → sessionAt t j = sessionAt s j) ∧
    (∀ rq0 : ZReq, rq0.session = 0 → rq0.peer.tr = 3 → (∃ k, k < 16 ∧ (sessionAt s k).live = false) →
      Completes (.zcpSessionOpen rq0) s fun t => ∃ k, k < 16 ∧ (sessionAt s k).live = false ∧ (sessionAt t k).live = true ∧
        (sessionAt t k).gen = nextGen (sessionAt s k).gen k ∧ (sessionAt t k).high = none ∧ t = { s with zcp := t.zcp } ∧
        Replied s rq0 9 0 (beBytes 2 ((sessionAt t k).gen * 16 + k)) t) ∧
    (∀ (rq0 : ZReq) (stn sysId crc md epoch mac : Nat), rq0.session = 0 → rq0.peer.tr = 3 → rq0.peer.mac ≠ stnMac s (ownStn s) →
      (stn = ownStn s → sysId = getF s SYS_STATION.SYSTEM_ID → isSet s SYS_FLAGS.STN_CONFLICT = false →
        Completes (.zcpAnnounce rq0 stn sysId crc md epoch mac) s fun t =>
          getF t SYS_FLAGS.STN_CONFLICT = 1 ∧ t.zcp.spiQueue = s.zcp.spiQueue ∧ SameStores s t) ∧
      (stn ≠ ownStn s → exec (.zcpAnnounce rq0 stn sysId crc md epoch mac) s = .next s))

/-- Over the host port: a packet of at most 2,048 bytes joins the input queue, or counts QDROP when 16 wait. The interpreter, free
and out of HOLD, takes the oldest: a malformed one counts BADPKT, a request of version 1 whose opcode is known is carried out as its
row. A session ends by time with its cache; a finished operation's slot is freed by time; LONG_OP_COMPLETE ends a running operation
with its status and its notice. ANNOUNCE_SEND counts its sequence number on and queues one frame on each enabled port of the own
entry that is on, for a unit with an IPv6 address alone. -/
def Obligations.ZcpPacketsAndSlots : Prop :=
  ∀ s : State, absent s = false →
    (∀ (p : Peer) (bytes : List Byte), p.tr = 3 → bytes.length ≤ 2048 → s.zcp.queue.length < 16 → exec (.zcpPacketRx p bytes) s =
      .next { s with zcp := { s.zcp with queue := s.zcp.queue ++ [{ peer := p, bytes := bytes }] } }) ∧
    (∀ (p : Peer) (bytes : List Byte), p.tr = 3 → bytes.length ≤ 2048 → 16 ≤ s.zcp.queue.length →
      Completes (.zcpPacketRx p bytes) s (OnlyRegs [ZCP_CNT1.QDROP] s)) ∧
    (∀ (p : ZPacket) (rest : List ZPacket), s.zcp.queue = p :: rest → p.peer.tr = 3 → s.zcp.spiQueue.length < 4 →
      interpreterBusy s = false → s.mode ≠ .hold → s.zcp.held = [] →
      let s' := { s with zcp := { s.zcp with queue := rest } }
      (pktBad p = 1 → s.zcp.outbox = [] →
        exec .zcpRequestTake s = .next (incStop s' ZCP_CNT0.BADPKT)) ∧
      (∀ op : ZOp, pktBad p = 0 → bitOf (numAt p.bytes 3 1) 7 = false → numAt p.bytes 2 1 = 1 → pktOp p = some op →
        pktCode p = op.code → exec .zcpRequestTake s = .next (zcpRow s' (pktReq p) op))) ∧
    (∀ i, i < 16 → s.zcp.sessions.length = 16 → Completes (.sessionTimeout i) s fun t => (sessionAt t i).live = false ∧
      (sessionAt t i).cache = [] ∧ (∀ j, j ≠ i → sessionAt t j = sessionAt s j) ∧ t = { s with zcp := t.zcp }) ∧
    (∀ i, i < 8 → s.zcp.ops.length = 8 →
      ((opSlot s i).st = 2 → Completes (.opSlotExpiry i) s fun t => (opSlot t i).st = 0 ∧
        (∀ j, j ≠ i → opSlot t j = opSlot s j) ∧ t = { s with zcp := t.zcp }) ∧
      (∀ status : Nat, (opSlot s i).st = 1 → (opSlot s i).opcode ≠ 0x0206 → (opSlot s i).peer.tr = 3 → s.zcp.spiQueue.length < 4 →
        s.zcp.outbox = [] → Completes (.longOpComplete i status) s fun t => (opSlot t i).st = 2 ∧ (opSlot t i).status = status ∧
          t.zcp.spiQueue = s.zcp.spiQueue ++ [noticeBytes t i] ∧ t.regs = s.regs ∧ SameStores s t)) ∧
    (isSet s ZCP_CFG.ANN_EN = true → isSet s ZCP_CFG.UDP_EN = true → originOk s 0 true = true →
      (ownIp s true).all (· == 0) = true → (ownIp s false).all (· == 0) = false → getF s EGR_CTRL.SYSQ < 8 →
      s.egr.ports.length = 4 → (∀ pair, pair < 2 → redMode s pair = 0) →
      (∀ p, p < 4 → bitOf (getF s (SYS_DIR_CTRL.PORTS (ownStn s))) p = true → portOn s p = true → (egrPort s p).queues.length = 8 ∧
        egrRoom s p (getF s EGR_CTRL.SYSQ) probe = true) →
      Completes .announceSend s fun t => t.zcp.ownSeq = (s.zcp.ownSeq + 1) % 2 ^ 32 ∧
        ∀ p, p < 4 →
          (bitOf (getF s (SYS_DIR_CTRL.PORTS (ownStn s))) p = true → portOn s p = true → ∃ f : EgrFrame, f.origin = 0 ∧
            nth [] (egrPort t p).queues (getF s EGR_CTRL.SYSQ) = nth [] (egrPort s p).queues (getF s EGR_CTRL.SYSQ) ++ [f]) ∧
          ((bitOf (getF s (SYS_DIR_CTRL.PORTS (ownStn s))) p && portOn s p) = false → egrPort t p = egrPort s p))

/-- Writes and direct loads, classes W and P, over the host port in STOP: each is answered and, but for IMG_WRITE, journaled.
WRITE_REG of one register writes as a host write does; WRITE_MEM of one word and IMG_WRITE of words or bits from a station without a
role put the values where they say and nowhere else, nothing else having written in the cycle; a cancellation with no buffer in use
returns the state; a bank is opened with its identity, loaded bundle by bundle and made active; the decode table is collected and,
when its rules hold, put in force. -/
def Obligations.ZcpWritesAndLoads : Prop :=
  ∀ (s : State) (rq : ZReq) (i : Nat), Heard s .stop rq i →
    let u := noted s rq i
    let done (code : Nat) (data : List Byte) (ks : List Fld) (t : State) : Prop := Replied s rq code 0 data t ∧ Journaled rq code 0 t ∧
      SameRegs (ZCP_JSEQ.SEQ :: ZCP_JLOST.CNT :: ks) s t ∧ t.nv = s.nv
    (∀ (a : Nat) (w : Word) (v : State), a % 4 = 0 → 0x40000000 ≤ a → a + 4 ≤ 0x40110000 → accJudge u a = none →
      writeZcp u (ownsTxn u rq.session true) a w.toNat = (0, v) → v = { u with regs := v.regs } →
      Completes (.zcpWriteReg rq a [w]) s fun t => Replied s rq 0x0100 0 (beBytes 2 1) t ∧ Journaled rq 0x0100 0 t ∧
        SameRegs [ZCP_JSEQ.SEQ, ZCP_JLOST.CNT] v t ∧ t.sp = s.sp) ∧
    (∀ (w : Nat) (bs : List Byte), 0x4000 ≤ w → w < 0x80000 → bs.length = 8 → domOn s 5 = true → testing s 2 = false →
      s.sby.streaming = false → s.sp.upsets = [] → s.sp.written = [] → Completes (.zcpWriteMem rq (0x10000000 + 8 * w) bs) s fun t =>
        done 0x0101 [] [] t ∧ ∀ a, rawWord t a = if a = w then outsideWord (numAt bs 4 1) (BitVec.ofNat 32 (beNat (bytesAt bs 0 4).reverse))
          else rawWord s a) ∧
    (∀ n m : Nat, n < 2 → m < 8 → domOn s 8 = true → (canSt s n).zcpTx = [] → (∀ b, b < 3 → (canTb s n b).frame = none) →
      Completes (.zcpBusCancel rq n m) s (done 0x0102 (beBytes 4 (regVal (canCancel u n m) (CAN_TBSTAT.STATE_0 n).addr)) [])) ∧
    (∀ w : ImgWrite, w.sysId = getF s SYS_STATION.SYSTEM_ID → w.srcStn < 256 → isSet s (SYS_DIR_CTRL.VALID w.srcStn) = true →
      getF s (SYS_DIR_CTRL.ROLE w.srcStn) = 0 → 1 ≤ w.len → w.len ≤ 256 → w.words.length = w.len → w.isWord = true →
      s.sp.written = [] → w.daddr + w.len ≤ 0x4000 → Completes (.zcpImgWrite rq w) s fun t => Replied s rq 0x0103 0 [] t ∧ t.regs = s.regs ∧
        t.sp.bits = s.sp.bits ∧ ∀ a, rawWord t a = if w.daddr ≤ a ∧ a < w.daddr + w.len then
          outsideWord (nth TWord.empty w.words (a - w.daddr)).tag.toNat (nth TWord.empty w.words (a - w.daddr)).val else rawWord s a) ∧
    (∀ w : ImgWrite, w.sysId = getF s SYS_STATION.SYSTEM_ID → w.srcStn < 256 → isSet s (SYS_DIR_CTRL.VALID w.srcStn) = true →
      getF s (SYS_DIR_CTRL.ROLE w.srcStn) = 0 → 1 ≤ w.len → w.len ≤ 256 → w.bits.length = w.len → w.isWord = false →
      s.sp.written = [] → s.sp.upsets = [] → w.daddr + w.len ≤ 0x10000 → Completes (.zcpImgWrite rq w) s fun t =>
        Replied s rq 0x0103 0 [] t ∧ t.regs = s.regs ∧ t.sp.words = s.sp.words ∧ ∀ a, sget false t.sp.bits a =
          if w.daddr ≤ a ∧ a < w.daddr + w.len then nth false w.bits (a - w.daddr) else sget false s.sp.bits a) ∧
    ((isSet s TXN_STAT.STATE && s.txn.bank) = false →
      (∀ b ver crc : Nat, b < 2 → s.zcp.bankLoad = none → Completes (.zcpLoadBankOpen rq b ver crc) s fun t =>
        done 0x0300 [] [CORE_PIDA_VER.VER, CORE_PIDA_CRC.CRC, CORE_PIDB_VER.VER, CORE_PIDB_CRC.CRC, TXN_STAT.UNDO_OK] t ∧
        t.zcp.bankLoad = some b ∧ getF t (if b = 0 then CORE_PIDA_VER.VER else CORE_PIDB_VER.VER) = ver % 65536 ∧
        getF t (if b = 0 then CORE_PIDA_CRC.CRC else CORE_PIDB_CRC.CRC) = crc % 2 ^ 32 ∧ getF t TXN_STAT.UNDO_OK = 0) ∧
      (∀ (b k : Nat) (ws : List Word), s.zcp.bankLoad = some b → b < 2 → ws.length = 8 → k < 65536 →
        bundleIllegal (ws.map (·.toNat)) = false → idZero s b = false → Completes (.zcpLoadBankData rq k ws) s fun t =>
        done 0x0301 [] [EDT_STAT.KEEP_OK, TXN_STAT.UNDO_OK] t ∧ (∀ j, j < 8 → sget 0 (bankOf t b) (8 * k + j) = nth 0 ws j) ∧
        (∀ j, j < 8 * k ∨ 8 * k + 8 ≤ j → sget 0 (bankOf t b) j = sget 0 (bankOf s b) j) ∧ bankOf t (1 - b) = bankOf s (1 - b)) ∧
      (∀ b : Nat, s.zcp.bankLoad = some b → b < 2 → Completes (.zcpLoadBankClose rq 1) s fun t =>
        done 0x0302 [] [CORE_BANK.ACTIVE, TXN_STAT.UNDO_OK] t ∧ t.zcp.bankLoad = none ∧ getF t CORE_BANK.ACTIVE = b)) ∧
    (∀ (e : Nat) (ws : List Word), e < 64 → ws.length = 36 → Completes (.zcpLoadDtData rq e ws) s fun t => done 0x0303 [] [] t ∧
      t.zcp.dtFresh = false ∧ ∀ k, sget 0 t.zcp.dtLoad k = if 36 * e ≤ k ∧ k < 36 * e + 36 then (nth 0 ws (k - 36 * e)).toNat
        else if s.zcp.dtFresh then 0 else sget 0 s.zcp.dtLoad k) ∧
    (∀ ver : Nat, ver < 65536 → isSet s TXN_STAT.STATE = false → tableOk (fun n w => sget 0 s.zcp.dtLoad (36 * n + w)) ver = true →
      Completes (.zcpLoadDtClose rq ver) s fun t => Replied s rq 0x0304 0 (beBytes 4 (getF t CORE_DTCRC.CRC)) t ∧
        Journaled rq 0x0304 0 t ∧ getF t CORE_DTVER.VERSION = ver ∧ t.zcp.dtFresh = true ∧ getF t TXN_STAT.UNDO_OK = 0)

/-- The commands over transactions and edits, classes X and E, over the host port. In STOP: BEGIN opens with the next identifier,
STAGE keeps a field's bits, PREPARE starts what validation allows, COMMIT NOW schedules a prepared one that leaves bank and table
matched, ROLLBACK ends it, UNDO schedules what the last one changed, and the system commands act for the transaction they name:
SYS_COMMIT by its coordinator, SYS_PREPARE without a station conflict at a time ahead, SYS_COMMIT_AT, SYS_ABORT, SYS_REPORT. In RUN:
EDIT_BEGIN enters RUN_EDIT and starts the copy. In RUN_EDIT: EDIT_PATCH of one legal bundle writes the inactive bank and is counted.
-/
def Obligations.ZcpTransactions : Prop :=
  ∀ (s : State) (rq : ZReq) (i : Nat), s.zcp.ops.length = 8 →
    (Heard s .stop rq i →
      let u := noted s rq i
      let owns : Prop := isSet s TXN_STAT.STATE = true ∧ ownsTxn s rq.session true = true
      (isSet s TXN_STAT.STATE = false → Completes (.zcpBegin rq 0 0) s fun t =>
        Replied s rq 0x0200 0 (beBytes 4 (getF t TXN_ID.ID)) t ∧ Journaled rq 0x0200 0 t ∧ getF t TXN_STAT.STATE = 1 ∧
        getF t TXN_STAT.OWNER = rq.session % 65536 ∧ getF t TXN_STAT.OWNER_SPI = 1 ∧ getF t TXN_STAT.PERSIST = 0 ∧
        getF t TXN_ID.ID = (ownStn s * 2 ^ 24 + getF s TXN_SEQ.SEQ) % 2 ^ 32 ∧ t.txn.staged = [] ∧ SameStores s t) ∧
      (∀ (a : Nat) (w : Word) (f : Fld), owns → getF s TXN_STAT.STATE = 1 → regRange a 1 = true → f ∈ stageFields s a →
        (stageFields s a).Nodup → Completes (.zcpStage rq a [w]) s fun t => Replied s rq 0x0201 0 [] t ∧ Journaled rq 0x0201 0 t ∧
          t.txn.staged.lookup f = some (bitsOf w.toNat f.lo f.w) ∧ SameRegs [ZCP_JSEQ.SEQ, ZCP_JLOST.CNT] s t ∧ SameStores s t) ∧
      (∀ (k : Nat) (s1 : State), owns → getF s TXN_STAT.STATE = 1 → opTake u rq 0x0202 = some (k, s1) → prepCheck s1 = 0 →
        isSet s TXN_STAT.PERSIST = false → Completes (.zcpPrepare rq) s fun t =>
          Accepted s rq 0x0202 k t ∧ Journaled rq 0x0202 0 t ∧ getF t TXN_STAT.STATE = 2 ∧ t.txn.prepOp = some k ∧ SameStores s t) ∧
      (∀ (k : Nat) (s1 : State), owns → getF s TXN_STAT.STATE = 3 → isSet s TXN_STAT.EDIT = false →
        pidMatches (applyStaged u) = true → opTake u rq 0x0203 = some (k, s1) → Completes (.zcpCommit rq 0 0 0) s fun t =>
          Accepted s rq 0x0203 k t ∧ Journaled rq 0x0203 0 t ∧ getF t TXN_STAT.STATE = 4 ∧ getF t TXN_WHEN.KIND = 0 ∧
          t.txn.commitOp = some k ∧ SameStores s t) ∧
      (owns → getF s TXN_STAT.STATE = 1 → isSet s TXN_STAT.EDIT = false → isSet s TXN_STAT.SYSTEM = false → s.txn.isUndo = false →
        s.txn.prepOp = none → s.txn.commitOp = none → Completes (.zcpRollback rq 0) s fun t =>
          Replied s rq 0x0204 0 [] t ∧ Journaled rq 0x0204 0 t ∧ getF t TXN_STAT.STATE = 0 ∧ getF t TXN_LAST.OUTCOME = 2 ∧
          t.txn.staged = [] ∧ SameStores s t) ∧
      (∀ (k : Nat) (s1 : State), isSet s TXN_STAT.STATE = false → isSet s TXN_STAT.UNDO_OK = true → s.txn.undoPersist = false →
        opTake u rq 0x0205 = some (k, s1) →
        pidMatches (applyStaged (undoTxn s1 rq k)) = true → Completes (.zcpUndo rq) s fun t =>
          Accepted s rq 0x0205 k t ∧ Journaled rq 0x0205 0 t ∧ getF t TXN_STAT.STATE = 4 ∧ getF t TXN_WHEN.KIND = 1 ∧
          t.txn.staged = s.txn.undo ∧ t.txn.isUndo = true ∧ SameStores s t) ∧
      (∀ (x kind tS tNs a k : Nat) (mask : List Nat) (s1 : State), kind = 2 ∨ kind = 3 → isSet s SYS_FLAGS.STN_CONFLICT = false →
        getF s TXN_STAT.STATE = 1 → isSet s TXN_STAT.SYSTEM = true → getF s TXN_ID.ID = x → x / 2 ^ 24 = ownStn s →
        tNs < 1000000000 → s.time.tai + 2 * max 1 (getF s TXN_CFG.GUARD) * 1000000 * nsUnit ≤ taiOf (fullSec s tS) tNs →
        opTake u rq 0x0206 = some (k, s1) → Completes (.zcpSysCommit rq x kind tS tNs a mask) s fun t =>
          (∃ r, t.zcp.spiQueue = s.zcp.spiQueue ++ answer rq 0x0206 0 0x20 (beBytes 2 (opHandle s1 k)) :: r) ∧
          t.txn.coord = some (x, kind, tS, tNs, a)) ∧
      (∀ (x kind tS tNs a : Nat), isSet s TXN_STAT.SYSTEM = true → getF s TXN_ID.ID = x → getF s TXN_STAT.STATE = 1 →
        (∀ d, d ∈ s.txn.sysDone → d.2.1 ≠ x) → isSet s SYS_FLAGS.STN_CONFLICT = false → kind = 2 ∨ kind = 3 →
        taiAhead s tS tNs = true → prepCheck u = 0 → isSet s TXN_STAT.PERSIST = false →
        Completes (.zcpSysPrepare rq x (getF s SYS_STATION.SYSTEM_ID) (getF s SYS_DIRCRC.CRC) kind tS tNs a) s fun t =>
          getF t TXN_STAT.STATE = 2 ∧ t.txn.prepReply = some rq ∧ getF t TXN_WHEN.KIND = kind ∧ t.zcp.spiQueue = s.zcp.spiQueue ∧
          Journaled rq 0x0207 0 t ∧ SameStores s t) ∧
      (∀ (x kind tS tNs a : Nat), isSet s TXN_STAT.SYSTEM = true → getF s TXN_ID.ID = x → getF s TXN_STAT.STATE = 3 →
        Completes (.zcpSysCommitAt rq x kind tS tNs a) s fun t => Replied s rq 0x0208 0 [] t ∧ getF t TXN_STAT.STATE = 4 ∧
          t.txn.commitAt = true ∧ SameStores s t) ∧
      (∀ x : Nat, isSet s TXN_STAT.SYSTEM = true → isSet s TXN_STAT.EDIT = false → getF s TXN_ID.ID = x → x / 2 ^ 24 = ownStn s →
        getF s TXN_STAT.STATE = 1 → s.txn.isUndo = false → s.txn.prepOp = none → s.txn.commitOp = none → s.txn.report = none →
        s.txn.coord = none → (0x0209, x, 0) ∉ s.txn.sysDone → Completes (.zcpSysAbort rq x) s fun t =>
          Replied s rq 0x0209 0 [] t ∧ getF t TXN_STAT.STATE = 0 ∧ getF t TXN_LAST.OUTCOME = 3 ∧ SameStores s t) ∧
      (∀ (x stn : Nat) (c : Nat × Nat × Nat × Nat × Nat), s.txn.coord = some c → c.1 = x → stn ∈ others s → s.txn.coordGot = [] →
        s.txn.coordOwn = 0 → stn < 256 → Completes (.zcpSysReport rq x stn 1) s fun t => Replied s rq 0x020A 0 [] t ∧
          t.txn.coordGot = [(stn, 1)] ∧ bitOf (getF t (TXN_RPT.M (stn / 32))) (stn % 32) = true ∧ SameStores s t)) ∧
    (Heard s .run rq i → isSet s TXN_STAT.STATE = false → s.sby.streaming = false → isSet s TRC_CTRL.EN = false →
      ∀ ver crc : Nat, Completes (.zcpEditBegin rq 0 0 ver crc) s fun t =>
        Replied s rq 0x0400 0 (beBytes 4 (getF t TXN_ID.ID)) t ∧ Journaled rq 0x0400 0 t ∧ t.mode = .runEdit ∧ getF t TXN_STAT.STATE = 1 ∧
        getF t TXN_STAT.EDIT = 1 ∧ getF t EDT_STAT.COPY = 1 ∧ getF t EDT_STAT.COPIED = 0 ∧ t.txn.bank = true) ∧
    (Heard s .runEdit rq i → getF s TXN_STAT.STATE = 1 → isSet s TXN_STAT.EDIT = true → ownsTxn s rq.session true = true →
      getF s EDT_STAT.COPY = 2 → ∀ (k : Nat) (ws : List Word), ws.length = 8 → k < 65536 → bundleIllegal (ws.map (·.toNat)) = false →
        idZero s (1 - getF s CORE_BANK.ACTIVE) = false → getF s EDT_CNT.NEWVAR ≤ 16 → Completes (.zcpEditPatch rq k ws []) s fun t =>
          Replied s rq 0x0401 0 [] t ∧ Journaled rq 0x0401 0 t ∧
          (∀ j, j < 8 → sget 0 (bankOf t (1 - getF s CORE_BANK.ACTIVE)) (8 * k + j) = nth 0 ws j) ∧
          getF t EDT_CNT.PATCHED = min 65535 (getF s EDT_CNT.PATCHED + 1) ∧
          SameRegs [ZCP_JSEQ.SEQ, ZCP_JLOST.CNT, EDT_CNT.PATCHED, EDT_CNT.NEWVAR, EDT_STAT.KEEP_OK] s t)

/-- Over the host port. In RUN: MODE_REQ STOP is accepted and waits for the quiet point; HANDOVER to a synchronised partner in TRACK
is accepted. In STOP: TIME_SET with an allowed step sets the time, its uncertainty and the flags; a self-test that is not skipped is
accepted; RESET resets with cause 5 and keeps TAI. With the NV interface free: NV_READ answers the bytes; NV_ERASE of one sector,
NV_PROGRAM within a page, NV_IMAGE_OPEN of a slot not booted from, NV_IMAGE_DATA, NV_IMAGE_CLOSE of an image whose CRC is right, and
NV_SAVE each take the interface with their steps. -/
def Obligations.ZcpLongOperations : Prop :=
  ∀ (s : State) (rq : ZReq) (i : Nat), s.zcp.ops.length = 8 →
    (Heard s .run rq i →
      let u := noted s rq i
      (∀ (k : Nat) (s1 : State), s.ms.modeOp = none → opTake u rq 0x0500 = some (k, s1) → Completes (.zcpModeReq rq 5) s fun t =>
        Accepted s rq 0x0500 k t ∧ Journaled rq 0x0500 0 t ∧ t.ms.stopPending = true ∧ t.ms.modeOp = some k ∧ t.mode = .run) ∧
      (∀ (k : Nat) (s1 : State), opTake u rq 0x0501 = some (k, s1) → s.sby.present = true → getF s SBY_STAT.PMODE = 8 →
        isSet s SBY_STAT.SYNC = true → s.sby.handover = none → Completes (.zcpHandover rq) s fun t =>
          Accepted s rq 0x0501 k t ∧ Journaled rq 0x0501 0 t ∧ t.sby.handover = some (some k) ∧ SameStores s t)) ∧
    (Heard s .stop rq i →
      let u := noted s rq i
      (∀ hi lo ns unc : Nat, hi < 65536 → lo < 2 ^ 32 → ns < 1000000000 →
        stepAllowed s ((((taiOf (hi * 2 ^ 32 + lo) ns : Nat) : Int) - s.time.tai).natAbs / nsUnit) = true →
        Completes (.zcpTimeSet rq hi lo ns unc) s fun t => Replied s rq 0x0700 0 [] t ∧ Journaled rq 0x0700 0 t ∧
          t.time.tai = taiOf (hi * 2 ^ 32 + lo) ns ∧ getF t TIM_UNC.UNC = min unc (2 ^ 32 - 1) ∧ getF t TIM_STAT.TIME_VALID = 1 ∧
          getF t TIM_STAT.STEPPED = 1 ∧ t.sp = s.sp) ∧
      (∀ (n k : Nat) (s1 : State), 4 ≤ n → n ≤ 12 → s.ms.demandTest = none → opTake u rq 0x0800 = some (k, s1) → stSkip s1 n = false →
        Completes (.zcpSelftestRun rq n) s fun t => Accepted s rq 0x0800 k t ∧ Journaled rq 0x0800 0 t ∧
          t.ms.demandTest = some (n, k) ∧ SameRegs [ZCP_JSEQ.SEQ, ZCP_JLOST.CNT] s t ∧ SameStores s t) ∧
      (s.ms.resetSrc = [] → Completes (.zcpReset rq) s fun t => t.mode = .reset ∧ getF t RST_CAUSE.LAST = 5 ∧
        bitOf (getF t RST_CAUSE.SRC) 4 = true ∧ getF t SYS_MODE.PREV = 5 ∧ Journaled rq 0x0900 0 t ∧ t.nv.nor = s.nv.nor ∧
        t.time.tai = s.time.tai) ∧
      (s.nv.holder = none → s.nv.waiting = [] → s.ms.wakeReload = false → norAbsent s = false →
        (∀ a n : Nat, 0 < n → n ≤ 1024 → a + n ≤ getF s NVS_SIZE.BYTES → touches a n 0x20000 0x20000 = false →
          touches a n 0x300000 0x800000 = false → Completes (.zcpNvRead rq a n) s fun t =>
            Replied s rq 0x0600 0 (norBytes s a n) t ∧ Journaled rq 0x0600 0 t ∧ t.nv.nor = s.nv.nor ∧ t.nv.holder = none ∧
            SameRegs [ZCP_JSEQ.SEQ, ZCP_JLOST.CNT] s t) ∧
        (∀ (a k : Nat) (s1 : State), a % 65536 = 0 → a + 65536 ≤ getF s NVS_SIZE.BYTES → deviceOwned a 65536 = false → neverWritten a 65536 = false →
          touchesSlot 0 a 65536 = false → touchesSlot 1 a 65536 = false → opTake u rq 0x0601 = some (k, s1) →
          Completes (.zcpNvErase rq a 65536) s fun t =>
            Accepted s rq 0x0601 k t ∧ Journaled rq 0x0601 0 t ∧
            (∀ b, norByte t b = if a ≤ b ∧ b < a + 65536 then 0xFF else norByte s b) ∧
            (∃ j, t.nv.holder = some j ∧ j.op = some k ∧ j.steps = [.erase a]) ∧ (opSlot t k).pnr = true ∧ t.sp = s.sp) ∧
        (∀ (a : Nat) (bs : List Byte), 0 < bs.length → a % 256 + bs.length ≤ 256 → a + bs.length ≤ getF s NVS_SIZE.BYTES →
          deviceOwned a bs.length = false → neverWritten a bs.length = false → touchesSlot 0 a bs.length = false → touchesSlot 1 a bs.length = false →
          Completes (.zcpNvProgram rq a bs) s fun t => t.zcp.spiQueue = s.zcp.spiQueue ∧ t.regs = s.regs ∧ SameStores s t ∧
            ∃ j, t.nv.holder = some j ∧ j.steps = [.program a bs] ∧ j.opcode = 0x0602 ∧ j.reply.isSome = true) ∧
        (∀ (slot len crc k : Nat) (s1 : State), slot < 2 → len ≤ 0x800000 → getF s NVS_STAT.BOOTSLOT ≠ slot →
          opTake { u with zcp := { u.zcp with imgOpen := some (slot, len, crc, newGen u) } } rq 0x0603 = some (k, s1) →
          Completes (.zcpNvImageOpen rq slot len crc) s fun t => Accepted s rq 0x0603 k t ∧ Journaled rq 0x0603 0 t ∧
            t.zcp.imgOpen = some (slot, len, crc, newGen u) ∧ recordOf t slot = none ∧
            ∃ j, t.nv.holder = some j ∧ j.op = some k ∧ j.steps.head? = some (.erase (0x10000 * slot))) ∧
        (∀ (ofs slot len crc gen : Nat) (bs : List Byte), s.zcp.imgOpen = some (slot, len, crc, gen) → 0 < bs.length → bs.length ≤ 1024 →
          ofs + bs.length ≤ len → Completes (.zcpNvImageData rq ofs bs) s fun t => t.zcp.spiQueue = s.zcp.spiQueue ∧
            ∃ j, t.nv.holder = some j ∧ j.steps = pageSteps (slotBase slot + ofs) bs ∧ j.opcode = 0x0604) ∧
        (∀ (slot len crc gen k : Nat) (s1 : State), s.zcp.imgOpen = some (slot, len, crc, gen) →
          crc32 (norBytes s (slotBase slot) len) = crc → opTake u rq 0x0605 = some (k, s1) →
          Completes (.zcpNvImageClose rq) s fun t => Accepted s rq 0x0605 k t ∧ Journaled rq 0x0605 0 t ∧ t.nv.nor = s.nv.nor ∧
            ∃ j, t.nv.holder = some j ∧ j.op = some k ∧ j.steps = [.record slot len crc (getF s TXN_CREC_LAST.SEQ) gen]) ∧
        (∀ (k : Nat) (s1 : State), (savedImage u).length ≤ 0x800000 → opTake u rq 0x0606 = some (k, s1) →
          Completes (.zcpNvSave rq) s fun t => Accepted s rq 0x0606 k t ∧ Journaled rq 0x0606 0 t ∧
            recordOf t (if getF s NVS_STAT.BOOTSLOT = 0 then 1 else 0) = none ∧ (∃ j, t.nv.holder = some j ∧ j.op = some k) ∧
            t.nv.snapshot.isSome = true)))

/-- The NV interface: the waiting user of highest rank takes it, an operation done or timed out ends its step, and the journal and
retentive mirrors ask for it (R529, R567, R582, R584). The generation of a commit of the NV store, and which of two recorded slots is
the newer (R571). -/
def Obligations.NvInterface : Prop :=
  ((∀ (s : State) (j : NvJob), s.nv.holder = none → s.ms.wakeReload = false → s.nv.waiting = [j] → j.rank < 7 → j.rank ≠ 4 → j.rank ≠ 5 →
     (∀ a bs, j.steps = [.program a bs] → exec .nvInterfaceGrant s =
       .next { s with nv := { s.nv with holder := some j, waiting := [] } })) ∧
   (∀ (s : State) (j : NvJob) (a : Nat) (bs : List Byte), s.nv.holder = some j → j.op = none → j.reply = none → j.aborted = false →
     j.opcode = 0 → j.steps = [.program a bs] →
     ((∀ k, k < bs.length → norByte s (a + k) = 0xFF) → Completes .norOperationDone s fun t => t.nv.holder = none ∧
       norBytes t a bs.length = bs ∧ (∀ b, b < a ∨ a + bs.length ≤ b → norByte t b = norByte s b) ∧ t.regs = s.regs ∧ t.sp = s.sp) ∧
     (j.rank ≠ 2 → getF s NVS_CNT.FAIL + 1 < 2 ^ NVS_CNT.FAIL.w → Completes .nvOpTimeout s fun t => t.nv.holder = none ∧
       getF t NVS_CNT.FAIL = getF s NVS_CNT.FAIL + 1 ∧ SameRegs [NVS_CNT.FAIL] s t ∧ SameStores s t)) ∧
   (∀ s : State, norAbsent s = false →
     (absent s = false → nvHas s 4 = false → journalSteps s ≠ [] →
       (s.nv.holder = none → s.ms.wakeReload = false → s.nv.waiting = [] → Completes .journalMirror s fun t => ∃ j, t.nv.holder = some j ∧ j.rank = 4 ∧
         j.steps = journalSteps s ∧ t.nv.waiting = [] ∧ t.regs = s.regs ∧ t.sp = s.sp) ∧
       (s.nv.holder ≠ none → exec .journalMirror s =
         .next { s with nv := { s.nv with waiting := s.nv.waiting ++ [deviceJob 4 []] } })) ∧
     (isSet s NVS_RETCFG.MIRROR_EN = true → s.mode = .stop → s.nv.holder = none → s.ms.wakeReload = false → s.nv.waiting = [] →
       Completes .retSnapshot s fun t =>
       ∃ j k, t.nv.holder = some j ∧ j.rank = 5 ∧ j.steps = [.clearMirror k, .wait, .mirror k (snapshotNow s)] ∧
         t.nv.mirrors = s.nv.mirrors.filter (fun p => p.1 != k) ∧ t.regs = s.regs ∧ SameStores s t))) ∧
  (∀ s : State,
     (recordOf s 0 = none → recordOf s 1 = none → newGen s = 1 ∧ newerSlot s = none) ∧
     (∀ a, recordOf s 0 = some a → recordOf s 1 = none → newGen s = (a.gen + 1) % 2 ^ 32 ∧ newerSlot s = some 0) ∧
     (∀ b, recordOf s 0 = none → recordOf s 1 = some b → newGen s = (b.gen + 1) % 2 ^ 32 ∧ newerSlot s = some 1) ∧
     (∀ a b, recordOf s 0 = some a → recordOf s 1 = some b →
       (a.gen = b.gen → newerSlot s = some 0 ∧ newGen s = (a.gen + 1) % 2 ^ 32) ∧
       (∀ n, 0 < n → n < 2 ^ 31 → b.gen % 2 ^ 32 = (a.gen + n) % 2 ^ 32 → newerSlot s = some 1 ∧ newGen s = (b.gen + 1) % 2 ^ 32) ∧
       (∀ n, 0 < n → n < 2 ^ 31 → a.gen % 2 ^ 32 = (b.gen + n) % 2 ^ 32 → newerSlot s = some 0 ∧ newGen s = (a.gen + 1) % 2 ^ 32)))

/-- The host port. In the absent states reads return ones and a write does nothing. Otherwise: a burst of reads without effect
returns its words; a read or write of an address outside every region is refused with BAD_PARAM and changes no register but the
record of it; the status word; a packet in while fewer than 16 wait, and out, when no notice waits; an unknown code returns ones and
is recorded; DBGREG without GO, and a read with it; clearing SYS_ACCERR. An access whose address bits [1:0] are not 0 reads
0xFFFF_FFFF and writes nothing, and sets the flag for BAD_PARAM (R591). -/
def Obligations.HostPort : Prop :=
  (∀ (s : State) (a n code : Nat) (ws : List Word), absent s = true → code ∉ [0x02, 0x03, 0x05, 0x10, 0x11] →
     exec (.spiRead a n) s = .next (setMiso s (List.replicate (4 * n) 0xFF)) ∧ exec (.spiWrite a ws) s = .next s ∧
     (∀ c, c ∈ [.spiStatus, .spiZcpGet, .spiUnknownCode code] → exec c s = .next (setMiso s (List.replicate 4 0xFF)))) ∧
  (∀ s : State, absent s = false →
     let flagsOnly (code : Nat) (t : State) : Prop := bitOf (getF t SYS_ACCERR.FLAGS) (code - 1) = true ∧ SameStores s { t with pins := s.pins } ∧
       SameRegs [SYS_ACCERR.FLAGS, SYS_ACCERR.FIRST, SYS_ACCERR.FIRST_DBG, SYS_ACCADDR.ADDR] s t
     (∀ (a n : Nat) (vs : Nat → Nat), (∀ j, j < n → hostRead s (a + 4 * j) = (0, vs j, s)) →
       exec (.spiRead a n) s = .next (setMiso s ((List.range n).flatMap fun j => beBytes 4 (vs j)))) ∧
     (∀ a : Nat, a % 4 = 0 → placeOf a = .none → Completes (.spiRead a 1) s fun t => t.pins.miso = beBytes 4 0 ∧ flagsOnly 4 t ∧
       (getF s SYS_ACCERR.FLAGS = 0 → getF t SYS_ACCERR.FIRST = 4 ∧ getF t SYS_ACCADDR.ADDR = a % 2 ^ 32)) ∧
     (∀ (a : Nat) (w : Word), a % 4 = 0 → placeOf a = .none → Completes (.spiWrite a [w]) s (flagsOnly 4)) ∧
     Completes .spiStatus s (fun t => bitOf (beNat t.pins.miso) ZCP_SPISTAT.QFULL.lo = decide (16 ≤ s.zcp.queue.length) ∧
       bitOf (beNat t.pins.miso) ZCP_SPISTAT.RDY.lo = !s.zcp.spiQueue.isEmpty ∧
       bitsOf (beNat t.pins.miso) ZCP_SPISTAT.COUNT.lo 3 = s.zcp.spiQueue.length % 8 ∧ t = setMiso s t.pins.miso) ∧
     (∀ bytes : List Byte, s.zcp.queue.length < 16 → exec (.spiZcpPut bytes) s =
       .next { s with zcp := { s.zcp with queue := s.zcp.queue ++ [{ peer := spiPeer, bytes := bytes }] } }) ∧
     (s.zcp.spiQueue = [] → exec .spiZcpGet s = .next (setMiso s [0, 0])) ∧
     (∀ p rest, s.zcp.spiQueue = p :: rest → (∀ k, k < 8 → (opSlot s k).noticeWaits = false) →
       exec .spiZcpGet s = .next (setMiso { s with zcp := { s.zcp with spiQueue := rest } } (beBytes 2 p.length ++ p))) ∧
     (∀ code : Nat, code ∉ [0x02, 0x03, 0x05, 0x10, 0x11] → Completes (.spiUnknownCode code) s fun t =>
       t.pins.miso = List.replicate 4 0xFF ∧ flagsOnly 3 t) ∧
     (∀ (a : Nat) (v : Word) (wr : Bool), Completes (.dbgreg false wr a v) s fun t => t.tap.ir = .dbgreg ∧ t = { s with tap := t.tap }) ∧
     (∀ (a d : Nat) (v : Word), let u := tapSelect s .dbgreg none false false
       hostRead u a = (0, d, u) → Completes (.dbgreg true false a v) s fun t => t.tap.rdata = d ∧ t.tap.status = 0 ∧ t.tap.ir = .dbgreg ∧
         t = { s with tap := t.tap }) ∧
     (∀ v : Word, domOn s 1 = true → let left := getF s SYS_ACCERR.FLAGS &&& (2 ^ 16 - 1 - bitsOf v.toNat 1 16)
       Completes (.sysAccerrClear v) s fun t => getF t SYS_ACCERR.FLAGS = left ∧
         (left = 0 → getF t SYS_ACCERR.FIRST = 0 ∧ getF t SYS_ACCERR.FIRST_DBG = 0 ∧ getF t SYS_ACCADDR.ADDR = 0) ∧
         OnlyRegs [SYS_ACCERR.FLAGS, SYS_ACCERR.FIRST, SYS_ACCERR.FIRST_DBG, SYS_ACCADDR.ADDR] s t)) ∧
  (∀ (s : State) (a : Nat) (w : Word), absent s = false → a % 4 ≠ 0 → a < 2 ^ 32 →
     let only (t : State) : Prop := bitOf (getF t SYS_ACCERR.FLAGS) 3 = true ∧ SameStores s { t with pins := s.pins } ∧
       SameRegs [SYS_ACCERR.FLAGS, SYS_ACCERR.FIRST, SYS_ACCERR.FIRST_DBG, SYS_ACCADDR.ADDR] s t
     Completes (.spiRead a 1) s (fun t => t.pins.miso = beBytes 4 0xFFFFFFFF ∧ only t) ∧
     Completes (.spiWrite a [w]) s only ∧
     Completes (.registerWrite a w .spi) s only ∧
     Completes (.dbgreg true false a w) s (fun t => t.tap.rdata = 0xFFFFFFFF ∧ only { t with tap := s.tap }) ∧
     Completes (.dbgreg true true a w) s (fun t => only { t with tap := s.tap }))

/-- Register accesses. A host or QU write of TIM_STEP_LIM, SYS_SCRUB, SYS_WAKE or SYS_HOLDCFG stores its bits; a W1C overflow flag of
SYS_SCRUB clears where 1 is written and stays otherwise; a write of a scan field that is RW-T keeps it and sets a flag without a
transaction, and is staged in the SPI's open one; reading an RC field clears it, MON_EXT to its reset value; a read of CORE_CYC_HI,
CORE_GTIMST or SCN_SCANHI holds the other half for that reader. Nothing else changes. -/
def Obligations.RegisterAccess : Prop :=
  ∀ s : State, absent s = false → domOn s 1 = true →
    (∀ (f : Fld) (v : Word) (c : Instr) (k : Nat), f ∈ [TIM_STEP_LIM.LIM, SYS_SCRUB.PACE, SYS_SCRUB.EN, SYS_WAKE.EN, SYS_HOLDCFG.KEEP] →
      c ∈ [.registerWrite f.addr v .spi, .registerWrite f.addr v .dbg, .registerWrite f.addr v (.task k), .spiWrite f.addr [v]] →
      Completes c s fun t => getF t f = bitsOf v.toNat f.lo f.w ∧ t = { s with regs := t.regs } ∧
        ∀ g : Fld, g.lo < 32 → g.addr ≠ f.addr → getF t g = getF s g) ∧
    (∀ (f : Fld) (v : Word), f ∈ [SYS_SCRUB.CORR_OVF, SYS_SCRUB.UNCORR_OVF] → getF s f < 2 → Completes (.registerWrite f.addr v .spi) s
      fun t => getF t f = if bitOf v.toNat f.lo then 0 else getF s f) ∧
    (∀ (f : Fld) (v : Word) (j : Nat), j < 8 → domOn s (regDomain f.addr) = true → f ∈ [SCN_TCFG.EN j, SCN_TCFG.ENTRY j, SCN_TCFG.TRIG j] →
      (isSet s TXN_STAT.STATE = false → Completes (.registerWrite f.addr v .spi) s fun t => getF t f = getF s f ∧
        bitOf (getF t SYS_ACCERR.FLAGS) 4 = true ∧ t.txn = s.txn ∧
        SameRegs [SYS_ACCERR.FLAGS, SYS_ACCERR.FIRST, SYS_ACCERR.FIRST_DBG, SYS_ACCADDR.ADDR] s t) ∧
      (getF s TXN_STAT.STATE = 1 → isSet s TXN_STAT.OWNER_SPI = true → Completes (.registerWrite f.addr v .spi) s fun t =>
        t.txn.staged.lookup f = some (bitsOf v.toNat f.lo f.w) ∧ t.regs = s.regs)) ∧
    (∀ f : Fld, f ∈ [SYS_SCRUBCNT.CORR, SYS_SCRUBCNT.UNCORR, SYS_WAKESRC.SRC] → Completes (.readClearField f.addr) s fun t => getF t f = 0 ∧
      t = { s with regs := t.regs } ∧ ∀ g : Fld, g.lo < 32 → g.addr ≠ f.addr → getF t g = getF s g) ∧
    (∀ f : Fld, f ∈ [MON_EXT.TMAX, MON_EXT.TMIN] → domOn s (regDomain f.addr) = true → Completes (.readClearField f.addr) s fun t =>
      getF t f = f.rst ∧ t = { s with regs := t.regs } ∧ ∀ g : Fld, g.lo < 32 → g.addr ≠ f.addr → getF t g = getF s g) ∧
    (∀ who : Nat, (domOn s (regDomain CORE_CYC_HI.CYC.addr) = true →
        Completes (.coreCycHiRead who) s (fun t => getLatch t who cycGroup = some [s.core.cyc % 2 ^ 32] ∧ t = { s with latches := t.latches }) ∧
        Completes (.coreGtimstRead who) s (fun t => getLatch t who gtimGroup = some [(timerCell s (getF s CORE_GTIMIDX.IDX)).2] ∧
          t = { s with latches := t.latches })) ∧
      (∀ j, j < 8 → domOn s (regDomain (SCN_SCANHI.SCAN j).addr) = true → Completes (.scanhiRead j who) s fun t =>
        getLatch t who (8 + j) = some [(task s j).scan % 2 ^ 32] ∧ t = { s with latches := t.latches }))

/-- With no location in error. The payload and tag of a word are read, staged and written over the host port in their two halves; a
bank word is written in STOP with KEEP_OK cleared, and refused in any other mode. TRC_RDATA advances its index. A word leaves the
trace FIFO for its sinks when they have taken the one before: none leaves without a sink or for a full buffer alone. Scrub, in a
memory that is free and not at its end, moves its position, counts a corrected error, and poisons a word with an uncorrectable one. A
write-back rewrites its location when the word memory is free. -/
def Obligations.MemoriesAndTrace : Prop :=
  ∀ s : State, absent s = false → s.sp.upsets = [] →
    (∀ (a : Nat) (v : Word), a < 0x80000 → domOn s 5 = true → testing s 2 = false →
      exec (.wordPayloadRead a) s = .next { s with sp := { s.sp with hostTag := some (a, (rawWord s a).tag), wordUse := true } } ∧
      (s.mode = .stop → exec (.wordPayloadStage a v) s = .next { s with sp := { s.sp with hostStage := some (a, v) } }) ∧
      (∀ p : Word, s.mode = .stop → s.sby.streaming = false → s.sp.written = [] → s.sp.hostStage = some (a, p) → Completes (.wordTagWrite a v) s fun t =>
        (∀ b, rawWord t b = if b = a then outsideWord v.toNat p else rawWord s b) ∧ t.sp.hostStage = none ∧ t.sp.bits = s.sp.bits ∧
        t.regs = s.regs)) ∧
    (∀ (a : Nat) (v : Word) (dbg : Bool), a < 0x400000 → a % 4 = 0 → domOn s 4 = true → testing s 0 = false →
      (s.mode = .stop → Completes (.bankHostWrite a v dbg) s fun t => sget 0 (bankOf t (a / 0x200000)) (a % 0x200000 / 4) = v ∧
        (∀ j, j ≠ a % 0x200000 / 4 → sget 0 (bankOf t (a / 0x200000)) j = sget 0 (bankOf s (a / 0x200000)) j) ∧
        bankOf t (1 - a / 0x200000) = bankOf s (1 - a / 0x200000) ∧ getF t EDT_STAT.KEEP_OK = 0 ∧
        SameRegs [EDT_STAT.KEEP_OK, TXN_STAT.UNDO_OK] s t) ∧
      (s.mode ≠ .stop → Completes (.bankHostWrite a v dbg) s fun t => t.core = s.core ∧ bitOf (getF t SYS_ACCERR.FLAGS) 9 = true)) ∧
    (domOn s 11 = true →
      Completes .trcRdataRead s (fun t => getF t TRC_RADDR.IDX = (getF s TRC_RADDR.IDX + 1) % 2 ^ TRC_RADDR.IDX.w ∧ OnlyRegs [TRC_RADDR.IDX] s t) ∧
      ∀ (w : Word) (rest : List Word), s.trc.fifo = w :: rest →
        (s.trc.wait ≠ 0 ∨ getF s TRC_CTRL.SINK = 0 ∨ (getF s TRC_CTRL.SINK = 1 ∧ isSet s TRC_STAT.FULL = true) →
          exec .traceFifoDrain s = .next s) ∧
        (s.trc.wait = 0 → getF s TRC_CTRL.SINK = 2 ∨ (getF s TRC_CTRL.SINK = 3 ∧ isSet s TRC_STAT.FULL = true) →
          exec .traceFifoDrain s = .next { s with trc := { s.trc with fifo := rest, wait := 4 * trcDiv s } }) ∧
        (s.trc.wait = 0 → getF s TRC_CTRL.SINK % 2 = 1 → isSet s TRC_STAT.FULL = false → getF s TRC_WPTR.IDX < 16383 → Completes .traceFifoDrain s fun t =>
          t.trc.fifo = rest ∧ sget 0 t.trc.buf (getF s TRC_WPTR.IDX) = w ∧ getF t TRC_WPTR.IDX = getF s TRC_WPTR.IDX + 1 ∧
          (∀ i, i ≠ getF s TRC_WPTR.IDX → sget 0 t.trc.buf i = sget 0 s.trc.buf i) ∧ SameRegs [TRC_WPTR.IDX] s t)) ∧
    (∀ (m : MemId) (i n : Nat), scrubMem m = some (i, n) → scrubRuns s = true → scrubFree s m i = true →
      s.ms.scrubPos.length = 7 → nth 0 s.ms.scrubPos i + 1 < n →
      Completes (.scrubAccess m .clean) s (fun t => nth 0 t.ms.scrubPos i = nth 0 s.ms.scrubPos i + 1 ∧ t.regs = s.regs ∧ t.core = s.core ∧
        SameSpaces s t) ∧
      (isSet s CORE_ECCCTL.CORR_EVT = false → getF s SYS_SCRUBCNT.CORR + 1 < 2 ^ SYS_SCRUBCNT.CORR.w → Completes (.scrubAccess m .correctable) s fun t =>
        nth 0 t.ms.scrubPos i = nth 0 s.ms.scrubPos i + 1 ∧ getF t SYS_SCRUBCNT.CORR = getF s SYS_SCRUBCNT.CORR + 1 ∧
        SameRegs [SYS_SCRUBCNT.CORR] s t ∧ t.sp.words = s.sp.words ∧ t.sp.bits = s.sp.bits) ∧
      (m = .words → s.sp.written = [] → getF s SYS_SCRUBCNT.UNCORR + 1 < 2 ^ SYS_SCRUBCNT.UNCORR.w → Completes (.scrubAccess m .uncorrectable) s fun t =>
        (∀ a, rawWord t a = if a = nth 0 s.ms.scrubPos i then poisonEcc a else rawWord s a) ∧
        getF t SYS_SCRUBCNT.UNCORR = getF s SYS_SCRUBCNT.UNCORR + 1 ∧ getF t CORE_ECCCTL.UNCORR_SEEN = 1 ∧ t.sp.bits = s.sp.bits)) ∧
    (∀ (m : MemId) (loc : Nat),
      ((m, loc) ∉ s.sp.writeBack → exec (.eccWriteBack m loc) s = .next s) ∧
      (m = .words → wordsHeld s = true → exec (.eccWriteBack m loc) s = .next s) ∧
      ((m, loc) ∈ s.sp.writeBack → m ≠ .words ∨ wordsHeld s = false → Completes (.eccWriteBack m loc) s fun t => (m, loc) ∉ t.sp.writeBack ∧
        (∀ x, x ≠ (m, loc) → (x ∈ t.sp.writeBack ↔ x ∈ s.sp.writeBack)) ∧ t.sp.words = s.sp.words ∧ t.sp.bits = s.sp.bits ∧
        t.regs = s.regs))
end

