-- ==== Sys2Proof/Laws/Sparse.lean ====
section
/-! SUPPORT. Laws of sparse maps: a read after a write, and the canonical form that every write, removal and filter keeps. -/

namespace Sys2Proof.Machine

variable {α : Type}

/-- Every key of a map lies above a bound. -/
def sabove (b : Nat) (m : List (Nat × α)) : Prop := ∀ p ∈ m, b < p.1

theorem sget_sput (d : α) (a b : Nat) (v : α) (m : List (Nat × α)) (h : ∀ p ∈ m, p.1 ≠ a) :
    sget d (sput a v m) b = if a = b then v else sget d m b := by
  induction m with
  | nil => simp [sput, sget]
  | cons p t ih =>
    have hp := h p List.mem_cons_self
    have ht := ih fun q hq => h q (List.mem_cons_of_mem _ hq)
    by_cases hk : p.1 < a
    · simp only [sput, hk, if_true, sget, ht]
      by_cases hpb : p.1 = b
      · have : a ≠ b := fun e => hp (hpb.trans e.symm)
        simp [hpb, this]
      · simp [hpb]
    · simp only [sput, hk, if_false, sget]

theorem mem_serase {a : Nat} {m : List (Nat × α)} {p : Nat × α} : p ∈ serase a m ↔ p ∈ m ∧ p.1 ≠ a := by
  simp [serase, List.mem_filter]

theorem serase_cons_self (v : α) (a : Nat) (m : List (Nat × α)) : serase a ((a, v) :: m) = serase a m := by
  simp [serase]

theorem serase_cons_ne {a k : Nat} (v : α) (m : List (Nat × α)) (h : k ≠ a) :
    serase a ((k, v) :: m) = (k, v) :: serase a m := by
  simp [serase, h]

theorem sget_serase (d : α) (a b : Nat) (m : List (Nat × α)) :
    sget d (serase a m) b = if a = b then d else sget d m b := by
  induction m with
  | nil => simp [serase, sget]
  | cons p t ih =>
    obtain ⟨k, v⟩ := p
    by_cases hp : k = a
    · subst hp
      rw [serase_cons_self, ih]
      by_cases hb : k = b <;> simp [sget, hb]
    · rw [serase_cons_ne v t hp]
      by_cases hb : k = b
      · have : a ≠ b := fun e => hp (hb.trans e.symm)
        simp [sget, hb, this]
      · simp [sget, hb, ih]

/-- A read after a write: the written value at its key, the old value elsewhere. -/
theorem sget_sset [DecidableEq α] (d : α) (m : List (Nat × α)) (a b : Nat) (v : α) :
    sget d (sset d m a v) b = if a = b then v else sget d m b := by
  unfold sset
  by_cases hv : v = d
  · rw [if_pos hv, sget_serase, hv]
  · rw [if_neg hv, sget_sput d a b v _ fun p hp => (mem_serase.mp hp).2, sget_serase]
    by_cases hb : a = b <;> simp [hb]

theorem sget_sset_self [DecidableEq α] (d : α) (m : List (Nat × α)) (a : Nat) (v : α) : sget d (sset d m a v) a = v := by
  simp [sget_sset]

/-- A write leaves every other key alone, whatever unlisted keys read as. -/
theorem sget_sset_ne [DecidableEq α] (d e : α) (m : List (Nat × α)) {a b : Nat} (v : α) (h : a ≠ b) :
    sget e (sset d m a v) b = sget e m b := by
  unfold sset
  split
  · rw [sget_serase, if_neg h]
  · rw [sget_sput e a b v _ fun p hp => (mem_serase.mp hp).2, if_neg h, sget_serase, if_neg h]

/-! ## Rising keys -/

theorem srising_cons {p : Nat × α} {m : List (Nat × α)} : srising (p :: m) = true ↔ sabove p.1 m ∧ srising m = true := by
  induction m generalizing p with
  | nil => simp [srising, sabove]
  | cons q t ih =>
    simp only [srising, Bool.and_eq_true, decide_eq_true_eq]
    constructor
    · intro ⟨h1, h2⟩
      refine ⟨?_, h2⟩
      intro r hr
      rcases List.mem_cons.mp hr with rfl | hr
      · exact h1
      · exact lt_trans h1 ((ih.mp h2).1 r hr)
    · intro ⟨h1, h2⟩
      exact ⟨h1 q List.mem_cons_self, h2⟩

theorem srising_filter (f : Nat × α → Bool) {m : List (Nat × α)} (h : srising m = true) : srising (m.filter f) = true := by
  induction m with
  | nil => exact h
  | cons p t ih =>
    have ⟨ha, ht⟩ := srising_cons.mp h
    by_cases hp : f p = true
    · rw [List.filter_cons_of_pos hp]
      exact srising_cons.mpr ⟨fun q hq => ha q (List.mem_filter.mp hq).1, ih ht⟩
    · rw [List.filter_cons_of_neg hp]
      exact ih ht

theorem mem_sput {a : Nat} {v : α} {m : List (Nat × α)} {p : Nat × α} : p ∈ sput a v m ↔ p = (a, v) ∨ p ∈ m := by
  induction m with
  | nil => simp [sput]
  | cons q t ih =>
    by_cases hk : q.1 < a
    · simp only [sput, hk, if_true, List.mem_cons, ih]
      tauto
    · simp only [sput, hk, if_false, List.mem_cons]

theorem srising_sput {a : Nat} {v : α} {m : List (Nat × α)} (h : srising m = true) (hn : ∀ p ∈ m, p.1 ≠ a) :
    srising (sput a v m) = true := by
  induction m with
  | nil => rfl
  | cons q t ih =>
    have ⟨ha, ht⟩ := srising_cons.mp h
    by_cases hk : q.1 < a
    · simp only [sput, hk, if_true]
      refine srising_cons.mpr ⟨?_, ih ht fun p hp => hn p (List.mem_cons_of_mem _ hp)⟩
      intro p hp
      rcases mem_sput.mp hp with rfl | hp
      · exact hk
      · exact ha p hp
    · simp only [sput, hk, if_false]
      refine srising_cons.mpr ⟨?_, h⟩
      have hq : a < q.1 := by
        have := hn q List.mem_cons_self
        omega
      intro p hp
      rcases List.mem_cons.mp hp with rfl | hp
      · exact hq
      · exact lt_trans hq (ha p hp)

theorem srising_serase (a : Nat) {m : List (Nat × α)} (h : srising m = true) : srising (serase a m) = true :=
  srising_filter _ h

theorem srising_sset [DecidableEq α] (d : α) (a : Nat) (v : α) {m : List (Nat × α)} (h : srising m = true) :
    srising (sset d m a v) = true := by
  unfold sset
  split
  · exact srising_serase a h
  · exact srising_sput (srising_serase a h) fun p hp => (mem_serase.mp hp).2

/-! ## The canonical form -/

theorem swf_iff [DecidableEq α] {d : α} {m : List (Nat × α)} :
    swf d m = true ↔ srising m = true ∧ ∀ p ∈ m, p.2 ≠ d := by
  simp [swf]

theorem swf_nil [DecidableEq α] (d : α) : swf d ([] : List (Nat × α)) = true := rfl

theorem swf_filter [DecidableEq α] {d : α} (f : Nat × α → Bool) {m : List (Nat × α)} (h : swf d m = true) :
    swf d (m.filter f) = true := by
  have ⟨h1, h2⟩ := swf_iff.mp h
  exact swf_iff.mpr ⟨srising_filter f h1, fun p hp => h2 p (List.mem_filter.mp hp).1⟩

theorem swf_sclear [DecidableEq α] {d : α} (lo hi : Nat) {m : List (Nat × α)} (h : swf d m = true) :
    swf d (sclear lo hi m) = true :=
  swf_filter _ h

theorem swf_sset [DecidableEq α] {d : α} (a : Nat) (v : α) {m : List (Nat × α)} (h : swf d m = true) :
    swf d (sset d m a v) = true := by
  have ⟨h1, h2⟩ := swf_iff.mp h
  refine swf_iff.mpr ⟨srising_sset d a v h1, ?_⟩
  unfold sset
  split
  · exact fun p hp => h2 p (mem_serase.mp hp).1
  · intro p hp
    rcases mem_sput.mp hp with rfl | hp
    · assumption
    · exact h2 p (mem_serase.mp hp).1

/-- A list of writes keeps the canonical form. -/
theorem swf_foldl_sset {β : Type} [DecidableEq α] {d : α} (k : β → Nat) (v : β → α) (l : List β) {m : List (Nat × α)}
    (h : swf d m = true) : swf d (l.foldl (fun m b => sset d m (k b) (v b)) m) = true := by
  induction l generalizing m with
  | nil => exact h
  | cons b t ih => exact ih (swf_sset (k b) (v b) h)

end Sys2Proof.Machine
end

