-- ==== Sys2Proof/Laws/Kept.lean ====
section
/-! SUPPORT. The predicate behind the invariant: the memories are canonical and the queue is as given;
how a state that has it is built from states that have it. -/

namespace Sys2Proof.Machine

/-- The memories of the state are canonical and its queue is `q`. -/
def Kept (q : List Instr) (s : State) : Prop := Memory.wf s.sp = true ∧ s.pending = q

variable {q : List Instr}

theorem kept_same {s t : State} (h : Kept q s) (h2 : t.sp = s.sp) (h3 : t.pending = s.pending) :
    Kept q t := by
  unfold Kept at *
  rw [h2, h3]
  exact h

theorem kept_bits {s : State} (h : Kept q s) : swf false s.sp.bits = true := by
  have := h.1; simp [Memory.wf] at this; exact this.1.1.1

theorem kept_words {s : State} (h : Kept q s) : swf TWord.empty s.sp.words = true := by
  have := h.1; simp [Memory.wf] at this; exact this.1.1.2

theorem kept_planeB {s : State} (h : Kept q s) : swf false s.sp.planeB = true := by
  have := h.1; simp [Memory.wf] at this; exact this.1.2

theorem kept_planeW {s : State} (h : Kept q s) : swf TWord.empty s.sp.planeW = true := by
  have := h.1; simp [Memory.wf] at this; exact this.2

/-- An update of the data spaces. -/
theorem kept_sp {s t : State} (h : Kept q s) (h3 : t.pending = s.pending)
    (w : swf false t.sp.bits = true ∧ swf TWord.empty t.sp.words = true ∧ swf false t.sp.planeB = true ∧
      swf TWord.empty t.sp.planeW = true) : Kept q t := by
  refine ⟨?_, ?_⟩
  · simp [Memory.wf, w]
  · rw [h3]; exact h.2

theorem swf_copyRange {α : Type} [DecidableEq α] {d : α} (lo hi shift : Nat) (src : List (Nat × α)) {dst : List (Nat × α)}
    (h : swf d dst = true) : swf d (copyRange d lo hi shift src dst) = true :=
  swf_foldl_sset (fun p : Nat × α => p.1 + shift) (fun p => p.2) _ (swf_sclear _ _ h)

theorem kept_pair {α : Type} {p : α × State} {a : α} {b : State} (e : p = (a, b)) (h : Kept q p.2) : Kept q b := by
  rw [e] at h; exact h

theorem kept_fst {α : Type} {p : State × α} {a : State} {b : α} (e : p = (a, b)) (h : Kept q p.1) : Kept q a := by
  rw [e] at h; exact h

theorem kept_trip {α β : Type} {p : α × β × State} {a : α} {b : β} {c : State} (e : p = (a, b, c)) (h : Kept q p.2.2) :
    Kept q c := by
  rw [e] at h; exact h

theorem kept_foldl {α : Type} {f : State → α → State} {l : List α} {s : State} (h : Kept q s)
    (hf : ∀ s x, Kept q s → Kept q (f s x)) : Kept q (l.foldl f s) := by
  induction l generalizing s with
  | nil => exact h
  | cons a t ih => exact ih (hf s a h)

theorem kept_foldr {α : Type} {f : α → State → State} {l : List α} {s : State} (h : Kept q s)
    (hf : ∀ x s, Kept q s → Kept q (f x s)) : Kept q (l.foldr f s) := by
  induction l with
  | nil => exact h
  | cons a t ih => exact hf a _ ih

/-- A fold that carries a value beside the state. -/
theorem kept_foldl_pair {α β : Type} {f : β × State → α → β × State} {l : List α} {p : β × State} (h : Kept q p.2)
    (hf : ∀ p x, Kept q p.2 → Kept q (f p x).2) : Kept q (l.foldl f p).2 := by
  induction l generalizing p with
  | nil => exact h
  | cons a t ih => exact ih (hf p a h)

/-- A fold that carries two values beside the state. -/
theorem kept_foldl_trip {α β γ : Type} {f : β × γ × State → α → β × γ × State} {l : List α} {p : β × γ × State}
    (h : Kept q p.2.2) (hf : ∀ p x, Kept q p.2.2 → Kept q (f p x).2.2) : Kept q (l.foldl f p).2.2 := by
  induction l generalizing p with
  | nil => exact h
  | cons a t ih => exact ih (hf p a h)

end Sys2Proof.Machine
end

