-- ==== Sys2Proof/Laws/KeptOps.lean ====
section
/-! SUPPORT. What keeps the memories canonical and the queue: the operations over registers, events, traces, the bus, the modes, the operands, the calendar and the clocks. -/

set_option linter.unusedVariables false

namespace Sys2Proof.Machine

open Reg

theorem eccClear_kept {pq : List Instr} (s : State) (m : MemId) (loc : Nat) (h : Kept pq s) : Kept pq (eccClear s m loc) := by
  unfold eccClear
  extract_lets +lift a1
  exact kept_sp h rfl ⟨(kept_bits h :), (kept_words h :), (kept_planeB h :), (kept_planeW h :)⟩

theorem logBit_kept {pq : List Instr} (s : State) (k : Nat) (h : Kept pq s) : Kept pq (logBit s k) := by
  unfold logBit
  exact kept_same h rfl rfl

theorem putBit_kept {pq : List Instr} (s : State) (a : Nat) (v : Bool) (h : Kept pq s) : Kept pq (putBit s a v) := by
  unfold putBit
  with_reducible apply logBit_kept
  extract_lets +lift a1
  exact kept_sp h rfl ⟨swf_sset _ _ (kept_bits h :), (kept_words h :), (kept_planeB h :), (kept_planeW h :)⟩

theorem setF_kept {pq : List Instr} (s : State) (f : Fld) (v : Nat) (h : Kept pq s) : Kept pq (setF s f v) := by
  unfold setF
  exact kept_same h rfl rfl

theorem incSat_kept {pq : List Instr} (s : State) (f : Fld) (ovf : Fld) (h : Kept pq s) : Kept pq (incSat s f ovf) := by
  unfold incSat
  split
  · with_reducible apply setF_kept
    exact h
  · with_reducible apply setF_kept
    exact h

theorem incWrap_kept {pq : List Instr} (s : State) (f : Fld) (h : Kept pq s) : Kept pq (incWrap s f) := by
  unfold incWrap
  with_reducible apply setF_kept
  exact h

theorem raiseEv_kept {pq : List Instr} (s : State) (reg : Nat) (bit : Nat) (arg : Nat) (h : Kept pq s) : Kept pq (raiseEv s reg bit arg) := by
  unfold raiseEv
  extract_lets +lift a1 a2
  with_reducible apply incWrap_kept
  exact kept_same h rfl rfl

theorem raise_kept {pq : List Instr} (s : State) (f : Fld) (h : Kept pq s) : Kept pq (raise s f) := by
  unfold raise
  with_reducible apply raiseEv_kept
  exact h

theorem eccCorr_kept {pq : List Instr} (s : State) (m : MemId) (loc : Nat) (h : Kept pq s) : Kept pq (eccCorr s m loc) := by
  unfold eccCorr
  extract_lets +lift a1 a2 a3
  have h4 : Kept pq a1 := by
      unfold a1
      with_reducible apply incSat_kept
      exact h
  clear_value a1
  have h5 : Kept pq a2 := by
      unfold a2
      split
      · with_reducible apply raise_kept
        exact h4
      · exact h4
  clear_value a2
  split
  · exact h5
  · exact kept_sp h5 rfl ⟨(kept_bits h5 :), (kept_words h5 :), (kept_planeB h5 :), (kept_planeW h5 :)⟩

theorem setFs_kept {pq : List Instr} (s : State) (l : List (Fld × Nat)) (h : Kept pq s) : Kept pq (setFs s l) := by
  induction l generalizing s with
  | nil => exact h
  | cons p t ih => exact ih _ (setF_kept _ _ _ h)

theorem eccRecord_kept {pq : List Instr} (s : State) (row : Bool) (finder : Nat) (addr : Nat) (h : Kept pq s) : Kept pq (eccRecord s row finder addr) := by
  unfold eccRecord
  split
  · exact h
  · with_reducible apply setFs_kept
    exact h

theorem setRaise_kept {pq : List Instr} (s : State) (f : Fld) (v : Nat) (h : Kept pq s) : Kept pq (setRaise s f v) := by
  unfold setRaise
  with_reducible apply raise_kept
  with_reducible apply setF_kept
  exact h

theorem logRow_kept {pq : List Instr} (s : State) (a : Nat) (h : Kept pq s) : Kept pq (logRow s a) := by
  unfold logRow
  with_reducible apply kept_foldl
  · exact h
  · intro v1 v2 v3
    with_reducible apply logBit_kept
    exact v3

theorem incStop_kept {pq : List Instr} (s : State) (f : Fld) (h : Kept pq s) : Kept pq (incStop s f) := by
  unfold incStop
  split
  · with_reducible apply setF_kept
    exact h
  · exact h

theorem journalPut_kept {pq : List Instr} (s : State) (status : Nat) (session : Nat) (opcode : Nat) (object : Nat) (detail : Nat) (peer : Peer) (h : Kept pq s) : Kept pq (journalPut s status session opcode object detail peer) := by
  unfold journalPut
  extract_lets +lift a1 a2 a3
  have h4 : Kept pq a2 := by
      unfold a2
      split
      · split
        · with_reducible apply incStop_kept
          exact h
        · exact h
      · exact h
  clear_value a2
  with_reducible apply incWrap_kept
  exact kept_same h4 rfl rfl

theorem journalInt_kept {pq : List Instr} (s : State) (reg : Nat) (arg : Nat) (h : Kept pq s) : Kept pq (journalInt s reg arg) := by
  unfold journalInt
  with_reducible apply journalPut_kept
  exact h

theorem halt_kept {pq : List Instr} (s : State) (code : Nat) (h : Kept pq s) : Kept pq (halt s code) := by
  unfold halt
  extract_lets +lift a1 a2
  have h3 : Kept pq a1 := by
      unfold a1
      with_reducible apply journalInt_kept
      exact h
  clear_value a1
  split
  · exact kept_same h3 rfl rfl
  · exact h

theorem eccUncorrRow_kept {pq : List Instr} (s : State) (finder : Nat) (a : Nat) (h : Kept pq s) : Kept pq (eccUncorrRow s finder a) := by
  unfold eccUncorrRow
  extract_lets +lift a1 a2 a3 a4
  have h5 : Kept pq a1 := by
      unfold a1
      split
      · exact h
      · with_reducible apply incSat_kept
        exact h
  clear_value a1
  have h6 : Kept pq a2 := by
      unfold a2
      with_reducible apply eccRecord_kept
      with_reducible apply setRaise_kept
      exact h5
  clear_value a2
  have h7 : Kept pq a4 := by
      unfold a4
      with_reducible apply logRow_kept
      split
      · exact h6
      · exact kept_sp h6 rfl ⟨swf_sclear _ _ (kept_bits h6 :), (kept_words h6 :), (kept_planeB h6 :), (kept_planeW h6 :)⟩
  clear_value a4
  split
  · with_reducible apply halt_kept
    exact h7
  · exact h7

theorem checkRow_kept {pq : List Instr} (s : State) (finder : Nat) (a : Nat) (h : Kept pq s) : Kept pq (checkRow s finder a) := by
  unfold checkRow
  split
  · exact h
  · with_reducible apply eccCorr_kept
    exact h
  · with_reducible apply eccClear_kept
    with_reducible apply eccUncorrRow_kept
    exact h

theorem setBit_kept {pq : List Instr} (s : State) (finder : Nat) (a : Nat) (v : Bool) (h : Kept pq s) : Kept pq (setBit s finder a v) := by
  unfold setBit
  with_reducible apply eccClear_kept
  with_reducible apply putBit_kept
  with_reducible apply checkRow_kept
  exact h

theorem noteWrite_kept {pq : List Instr} (s : State) (key : Nat) (rank : Nat) (h : Kept pq s) : Kept pq (noteWrite s key rank) := by
  unfold noteWrite
  extract_lets +lift a1
  exact kept_sp h rfl ⟨(kept_bits h :), (kept_words h :), (kept_planeB h :), (kept_planeW h :)⟩

theorem userWriteBit_kept {pq : List Instr} (rank : Nat) (s : State) (finder : Nat) (a : Nat) (v : Bool) (h : Kept pq s) : Kept pq (userWriteBit rank s finder a v) := by
  unfold userWriteBit
  split
  · exact h
  · split
    · exact h
    · with_reducible apply setBit_kept
      with_reducible apply noteWrite_kept
      exact h

theorem putWord_kept {pq : List Instr} (s : State) (a : Nat) (v : TWord) (h : Kept pq s) : Kept pq (putWord s a v) := by
  unfold putWord
  extract_lets +lift a1
  exact kept_sp h rfl ⟨(kept_bits h :), swf_sset _ _ (kept_words h :), (kept_planeB h :), (kept_planeW h :)⟩

theorem loadWord_kept {pq : List Instr} (s : State) (a : Nat) (v : TWord) (h : Kept pq s) : Kept pq (loadWord s a v) := by
  unfold loadWord
  with_reducible apply eccClear_kept
  with_reducible apply putWord_kept
  exact h

theorem markForeign_kept {pq : List Instr} (s : State) (mac : Nat) (foreign : Bool) (h : Kept pq s) : Kept pq (markForeign s mac foreign) := by
  unfold markForeign
  extract_lets +lift a1 a2
  exact kept_same h rfl rfl

theorem markPeer_kept {pq : List Instr} (s : State) (p : Peer) (foreign : Bool) (h : Kept pq s) : Kept pq (markPeer s p foreign) := by
  unfold markPeer
  split
  · with_reducible apply markForeign_kept
    exact h
  · exact h

theorem readBits_kept {pq : List Instr} (s : State) (finder : Nat) (a : Nat) (n : Nat) (h : Kept pq s) : Kept pq (readBits s finder a n).2 := by
  unfold readBits
  extract_lets +lift a1 a2
  have h3 : Kept pq a2 := by
      unfold a2
      with_reducible apply checkRow_kept
      exact h
  clear_value a2
  exact h3

theorem eccWipe_kept {pq : List Instr} (f : MemId → Nat → Bool) (s : State) (h : Kept pq s) : Kept pq (eccWipe f s) := by
  unfold eccWipe
  extract_lets +lift a1
  exact kept_sp h rfl ⟨(kept_bits h :), (kept_words h :), (kept_planeB h :), (kept_planeW h :)⟩

theorem addMark_kept {pq : List Instr} (s : State) (m : Nat) (h : Kept pq s) : Kept pq (addMark s m) := by
  unfold addMark
  exact kept_same h rfl rfl

theorem journalF_kept {pq : List Instr} (s : State) (f : Fld) (h : Kept pq s) : Kept pq (journalF s f) := by
  unfold journalF
  with_reducible apply journalInt_kept
  exact h

theorem accErr_kept {pq : List Instr} (s : State) (code : Nat) (addr : Nat) (dbg : Bool) (h : Kept pq s) : Kept pq (accErr s code addr dbg) := by
  unfold accErr
  extract_lets +lift a1 a2
  have h3 : Kept pq a1 := by
      unfold a1
      split
      · with_reducible apply setFs_kept
        exact h
      · exact h
  clear_value a1
  with_reducible apply setF_kept
  exact h3

theorem eccUncorrWord_kept {pq : List Instr} (s : State) (finder : Nat) (a : Nat) (h : Kept pq s) : Kept pq (eccUncorrWord s finder a) := by
  unfold eccUncorrWord
  extract_lets +lift a1
  have h2 : Kept pq a1 := by
      unfold a1
      split
      · exact h
      · with_reducible apply incSat_kept
        exact h
  clear_value a1
  with_reducible apply eccRecord_kept
  with_reducible apply setRaise_kept
  exact h2

theorem note_kept {pq : List Instr} (s : State) (f : Fld) (h : Kept pq s) : Kept pq (note s f) := by
  unfold note
  with_reducible apply raise_kept
  with_reducible apply journalF_kept
  exact h

theorem writeBit_kept {pq : List Instr} (rank : Nat) (s : State) (a : Nat) (v : Bool) (h : Kept pq s) : Kept pq (writeBit rank s a v) := by
  unfold writeBit
  split
  · with_reducible apply setBit_kept
    with_reducible apply noteWrite_kept
    exact h
  · exact h

theorem useWords_kept {pq : List Instr} (s : State) (h : Kept pq s) : Kept pq (useWords s) := by
  unfold useWords
  extract_lets +lift a1
  exact kept_sp h rfl ⟨(kept_bits h :), (kept_words h :), (kept_planeB h :), (kept_planeW h :)⟩

theorem readWord_kept {pq : List Instr} (s : State) (finder : Nat) (a : Nat) (h : Kept pq s) : Kept pq (readWord s finder a).2 := by
  unfold readWord
  extract_lets +lift a1 a2
  have h3 : Kept pq a1 := by
      unfold a1
      split
      · exact h
      · with_reducible apply useWords_kept
        exact h
  clear_value a1
  have h4 : Kept pq a2 := by
      unfold a2
      with_reducible apply putWord_kept
      with_reducible apply eccClear_kept
      with_reducible apply eccUncorrWord_kept
      exact h3
  clear_value a2
  split
  · exact h3
  · dsimp only
    with_reducible apply eccCorr_kept
    exact h3
  · exact h4

theorem checkTaskRow_kept {pq : List Instr} (s : State) (t : Nat) (a : Nat) (h : Kept pq s) : Kept pq (checkTaskRow s t a) := by
  unfold checkTaskRow
  extract_lets +lift a1 a2 a3 a4
  have h5 : Kept pq a2 := by
      unfold a2
      with_reducible apply incSat_kept
      exact h
  clear_value a2
  have h6 : Kept pq a3 := by
      unfold a3
      with_reducible apply eccRecord_kept
      with_reducible apply setRaise_kept
      exact h5
  clear_value a3
  split
  · split
    · exact h
    · with_reducible apply eccCorr_kept
      exact h
    · with_reducible apply eccClear_kept
      exact kept_sp h6 rfl ⟨(kept_bits h6 :), (kept_words h6 :), swf_sclear _ _ (kept_planeB h6 :), (kept_planeW h6 :)⟩
  · with_reducible apply checkRow_kept
    exact h

theorem writeWord_kept {pq : List Instr} (rank : Nat) (s : State) (a : Nat) (v : TWord) (h : Kept pq s) : Kept pq (writeWord rank s a v) := by
  unfold writeWord
  extract_lets +lift a1
  have h2 : Kept pq a1 := by
      unfold a1
      split
      · with_reducible apply useWords_kept
        exact h
      · exact h
  clear_value a1
  split
  · with_reducible apply eccClear_kept
    with_reducible apply putWord_kept
    with_reducible apply noteWrite_kept
    exact h2
  · exact h2

theorem drawFree_kept {pq : List Instr} (s : State) (h : Kept pq s) : Kept pq (drawFree s).2 := by
  unfold drawFree
  dsimp only
  exact kept_same h rfl rfl

theorem clearDomains_kept {pq : List Instr} (s : State) (ds : List Nat) (h : Kept pq s) : Kept pq (clearDomains s ds) := by
  unfold clearDomains
  exact kept_same h rfl rfl

theorem putPlaneB_kept {pq : List Instr} (s : State) (t : Nat) (a : Nat) (v : Bool) (h : Kept pq s) : Kept pq (putPlaneB s t a v) := by
  unfold putPlaneB
  extract_lets +lift a1
  exact kept_sp h rfl ⟨(kept_bits h :), (kept_words h :), swf_sset _ _ (kept_planeB h :), (kept_planeW h :)⟩

theorem moveWriteBit_kept {pq : List Instr} (rank : Nat) (s : State) (t : Nat) (a : Nat) (v : Bool) (h : Kept pq s) : Kept pq (moveWriteBit rank s t a v) := by
  unfold moveWriteBit
  split
  · split
    · with_reducible apply logBit_kept
      with_reducible apply eccClear_kept
      with_reducible apply putPlaneB_kept
      with_reducible apply checkTaskRow_kept
      with_reducible apply noteWrite_kept
      exact h
    · exact h
  · with_reducible apply userWriteBit_kept
    exact h

theorem devBit_kept {pq : List Instr} (s : State) (a : Nat) (v : Bool) (h : Kept pq s) : Kept pq (devBit s a v) := by
  unfold devBit
  with_reducible apply noteWrite_kept
  with_reducible apply setBit_kept
  exact h

theorem putPlaneW_kept {pq : List Instr} (s : State) (t : Nat) (a : Nat) (v : TWord) (h : Kept pq s) : Kept pq (putPlaneW s t a v) := by
  unfold putPlaneW
  extract_lets +lift a1
  exact kept_sp h rfl ⟨(kept_bits h :), (kept_words h :), (kept_planeB h :), swf_sset _ _ (kept_planeW h :)⟩

theorem readTaskWord_kept {pq : List Instr} (s : State) (t : Nat) (a : Nat) (h : Kept pq s) : Kept pq (readTaskWord s t a).2 := by
  unfold readTaskWord
  split
  · split
    · dsimp only
      exact h
    · dsimp only
      with_reducible apply eccCorr_kept
      exact h
    · dsimp only
      with_reducible apply putPlaneW_kept
      with_reducible apply eccClear_kept
      with_reducible apply eccUncorrWord_kept
      exact h
  · with_reducible apply readWord_kept
    exact h

theorem setLatch_kept {pq : List Instr} (s : State) (who : Nat) (group : Nat) (v : List Nat) (h : Kept pq s) : Kept pq (setLatch s who group v) := by
  unfold setLatch
  exact kept_same h rfl rfl

theorem drawBit_kept {pq : List Instr} (s : State) (h : Kept pq s) : Kept pq (drawBit s).2 := by
  unfold drawBit
  split
  · rename_i x1 x2 x3 x4
    have h5 : Kept pq x3 := by
        refine kept_pair x4 ?_
        with_reducible apply drawFree_kept
        exact h
    dsimp only
    exact h5

theorem drawBytes_kept {pq : List Instr} (n : Nat) (s : State) (h : Kept pq s) : Kept pq (drawBytes n s).2 := by
  induction n generalizing s with
  | zero => exact h
  | succ n ih => exact ih _ (drawFree_kept _ h)

theorem updTask_kept {pq : List Instr} (s : State) (t : Nat) (f : TaskSt → TaskSt) (h : Kept pq s) : Kept pq (updTask s t f) := by
  unfold updTask
  exact kept_same h rfl rfl

theorem readBit_kept {pq : List Instr} (s : State) (finder : Nat) (a : Nat) (h : Kept pq s) : Kept pq (readBit s finder a).2 := by
  unfold readBit
  extract_lets +lift a1 a2
  have h3 : Kept pq a2 := by
      unfold a2
      with_reducible apply checkRow_kept
      exact h
  clear_value a2
  exact h3

theorem readAll_kept {pq : List Instr} (s : State) (l : List Nat) (h : Kept pq s) : Kept pq (readAll s l).2 := by
  induction l generalizing s with
  | nil => exact h
  | cons a rest ih => exact ih _ (readWord_kept _ _ _ h)

theorem clearSpaces_kept {pq : List Instr} (s : State) (h : Kept pq s) : Kept pq (clearSpaces s) := by
  unfold clearSpaces
  extract_lets +lift a1 a2
  exact kept_sp h rfl ⟨swf_filter _ (kept_bits h :), swf_filter _ (kept_words h :), rfl, rfl⟩

theorem upset_kept {pq : List Instr} (s : State) (m : MemId) (loc : Nat) (flips : Nat) (f : Nat) (h : Kept pq s) : Kept pq (upset s m loc flips f) := by
  unfold upset
  extract_lets +lift a1
  split
  · with_reducible apply eccClear_kept
    exact h
  · exact kept_sp h rfl ⟨(kept_bits h :), (kept_words h :), (kept_planeB h :), (kept_planeW h :)⟩

theorem raiseBit_kept {pq : List Instr} (s : State) (a : Nat) (v : Bool) (h : Kept pq s) : Kept pq (raiseBit s a v) := by
  unfold raiseBit
  with_reducible apply raiseEv_kept
  exact h

theorem putReg_kept {pq : List Instr} (s : State) (a : Nat) (v : Nat) (h : Kept pq s) : Kept pq (putReg s a v) := by
  unfold putReg
  with_reducible apply kept_foldl
  · exact h
  · intro v1 v2 v3
    with_reducible apply setF_kept
    exact v3

theorem dropLatches_kept {pq : List Instr} (s : State) (group : Nat) (h : Kept pq s) : Kept pq (dropLatches s group) := by
  unfold dropLatches
  exact kept_same h rfl rfl

theorem readTaskBit_kept {pq : List Instr} (s : State) (t : Nat) (a : Nat) (h : Kept pq s) : Kept pq (readTaskBit s t a).2 := by
  unfold readTaskBit
  extract_lets +lift a1 a2
  have h3 : Kept pq a2 := by
      unfold a2
      with_reducible apply checkTaskRow_kept
      exact h
  clear_value a2
  exact h3

theorem moveWriteWord_kept {pq : List Instr} (rank : Nat) (s : State) (t : Nat) (a : Nat) (v : TWord) (h : Kept pq s) : Kept pq (moveWriteWord rank s t a v) := by
  unfold moveWriteWord
  split
  · split
    · with_reducible apply eccClear_kept
      with_reducible apply putPlaneW_kept
      with_reducible apply noteWrite_kept
      exact h
    · exact h
  · with_reducible apply writeWord_kept
    exact h

theorem pulse_kept {pq : List Instr} (s : State) (a : Nat) (h : Kept pq s) : Kept pq (pulse s a) := by
  unfold pulse
  split
  · exact h
  · exact kept_same h rfl rfl

theorem trcQueue_kept {pq : List Instr} (s : State) (p : TrcPkt) (h : Kept pq s) : Kept pq (trcQueue s p) := by
  unfold trcQueue
  extract_lets +lift a1
  split
  · exact kept_same h rfl rfl
  · exact h

theorem trcPacket_kept {pq : List Instr} (s : State) (rank : Nat) (always : Bool) (w0 : Nat) (ws : List Nat) (h : Kept pq s) : Kept pq (trcPacket s rank always w0 ws) := by
  unfold trcPacket
  with_reducible apply trcQueue_kept
  exact h

theorem trcMode_kept {pq : List Instr} (s : State) (new : Mode) (prev : Mode) (h : Kept pq s) : Kept pq (trcMode s new prev) := by
  unfold trcMode
  with_reducible apply trcPacket_kept
  exact h

theorem trcClear.clearFields_kept {pq : List Instr} (s : State) (fs : List Fld) (h : Kept pq s) : Kept pq (trcClear.clearFields s fs) := by
  unfold trcClear.clearFields
  with_reducible apply kept_foldl
  · exact h
  · intro v1 v2 v3
    with_reducible apply setF_kept
    exact v3

theorem trcDrain_kept {pq : List Instr} (s : State) (h : Kept pq s) : Kept pq (trcDrain s) := by
  unfold trcDrain
  extract_lets +lift a1 a2 a3
  split
  · exact h
  · extract_lets +lift a4 a5 a6 a7
    have h8 : Kept pq a4 := by
        unfold a4
        exact kept_same h rfl rfl
    clear_value a4
    have h9 : Kept pq a7 := by
        unfold a7
        exact kept_same h8 rfl rfl
    clear_value a7
    split
    · exact h
    · split
      · exact h8
      · split
        · with_reducible apply setF_kept
          with_reducible apply setF_kept
          exact h9
        · with_reducible apply incWrap_kept
          exact h9

theorem trcPush_kept {pq : List Instr} (s : State) (ws : List Nat) (h : Kept pq s) : Kept pq (trcPush s ws) := by
  unfold trcPush
  exact kept_same h rfl rfl

theorem trcSync_kept {pq : List Instr} (s : State) (h : Kept pq s) : Kept pq (trcSync s) := by
  unfold trcSync
  extract_lets +lift a1 a2
  have h3 : Kept pq a1 := by
      unfold a1
      with_reducible apply trcPush_kept
      exact h
  clear_value a1
  exact kept_same h3 rfl rfl

theorem trcEnter_kept {pq : List Instr} (s : State) (always : Bool) (ws : List Nat) (h : Kept pq s) : Kept pq (trcEnter s always ws) := by
  unfold trcEnter
  extract_lets +lift a1 a2 a3 a4 a5 a6 a7 a8
  have h9 : Kept pq a3 := by
      unfold a3
      split
      · exact h
      · with_reducible apply trcSync_kept
        with_reducible apply trcPush_kept
        exact kept_same h rfl rfl
  clear_value a3
  have h10 : Kept pq a4 := by
      unfold a4
      with_reducible apply trcPush_kept
      exact h9
  clear_value a4
  have h11 : Kept pq a6 := by
      unfold a6
      exact kept_same h10 rfl rfl
  clear_value a6
  have h12 : Kept pq a7 := by
      unfold a7
      with_reducible apply incSat_kept
      exact h
  clear_value a7
  split
  · split
    · with_reducible apply trcSync_kept
      exact h11
    · exact h11
  · exact kept_same h12 rfl rfl

theorem trcStart_kept {pq : List Instr} (s : State) (h : Kept pq s) : Kept pq (trcStart s) := by
  unfold trcStart
  extract_lets +lift a1 a2
  have h3 : Kept pq a1 := by
      unfold a1
      split
      · with_reducible apply trcSync_kept
        exact h
      · exact h
  clear_value a1
  split
  · with_reducible apply trcEnter_kept
    exact kept_same h3 rfl rfl
  · exact h3

theorem trcEmit_kept {pq : List Instr} (s : State) (p : TrcPkt) (h : Kept pq s) : Kept pq (trcEmit s p) := by
  unfold trcEmit
  extract_lets +lift a1 a2
  have h3 : Kept pq a1 := by
      unfold a1
      split
      · with_reducible apply trcStart_kept
        exact h
      · split
        · with_reducible apply trcSync_kept
          exact h
        · exact h
  clear_value a1
  split
  · exact h3
  · split
    · with_reducible apply trcEnter_kept
      exact h3
    · split
      rename_i x4 x5 x6 x7
      have h8 : Kept pq x5 := by
          refine kept_fst x7 ?_
          split
          · dsimp only
            with_reducible apply trcSync_kept
            exact h3
          · split
            · dsimp only
              with_reducible apply trcEnter_kept
              exact h3
            · exact h3
      with_reducible apply trcEnter_kept
      exact h8

theorem trcFlush_kept {pq : List Instr} (s : State) (h : Kept pq s) : Kept pq (trcFlush s) := by
  unfold trcFlush
  extract_lets +lift a1 a2 a3
  have h4 : Kept pq a3 := by
      unfold a3
      exact kept_same h rfl rfl
  clear_value a3
  split
  · exact h
  · split
    · with_reducible apply kept_foldl
      · exact h4
      · intro v5 v6 v7
        with_reducible apply trcEmit_kept
        exact v7
    · exact h4

theorem trcCycle_kept {pq : List Instr} (s : State) (h : Kept pq s) : Kept pq (trcCycle s) := by
  unfold trcCycle
  extract_lets +lift a1 a2
  have h3 : Kept pq a1 := by
      unfold a1
      split
      · with_reducible apply trcDrain_kept
        exact h
      · exact h
  clear_value a1
  with_reducible apply trcFlush_kept
  exact kept_same h3 rfl rfl

theorem trcScan_kept {pq : List Instr} (s : State) (t : Nat) (evt : Nat) (h : Kept pq s) : Kept pq (trcScan s t evt) := by
  unfold trcScan
  split
  · with_reducible apply trcPacket_kept
    exact h
  · exact h

theorem trcLost_kept {pq : List Instr} (s : State) (h : Kept pq s) : Kept pq (trcLost s) := by
  unfold trcLost
  extract_lets +lift a1
  with_reducible apply trcQueue_kept
  exact kept_same h rfl rfl

theorem trcClear_kept {pq : List Instr} (s : State) (h : Kept pq s) : Kept pq (trcClear s) := by
  unfold trcClear
  extract_lets +lift a1 a2
  have h3 : Kept pq a1 := by
      unfold a1
      with_reducible apply trcClear.clearFields_kept
      exact h
  clear_value a1
  exact kept_same h3 rfl rfl

theorem trcPortw_kept {pq : List Instr} (s : State) (t : Nat) (slot : Nat) (dst : Nat) (st : Nat) (mod : Bool) (v : TWord) (h : Kept pq s) : Kept pq (trcPortw s t slot dst st mod v) := by
  unfold trcPortw
  split
  · with_reducible apply trcPacket_kept
    exact h
  · exact h

theorem trcHoldExit_kept {pq : List Instr} (s : State) (h : Kept pq s) : Kept pq (trcHoldExit s) := by
  unfold trcHoldExit
  extract_lets +lift a1 a2 a3
  have h4 : Kept pq a2 := by
      unfold a2
      with_reducible apply trcQueue_kept
      exact h
  clear_value a2
  exact kept_same h4 rfl rfl

theorem readTrcRdata_kept {pq : List Instr} (s : State) (h : Kept pq s) : Kept pq (readTrcRdata s).2 := by
  unfold readTrcRdata
  dsimp only
  with_reducible apply incWrap_kept
  exact h

theorem execTrcRdataRead_kept {pq : List Instr} (s : State) (h : Kept pq s) :
    ∃ s', execTrcRdataRead s = .next s' ∧ Kept pq s' := by
  unfold execTrcRdataRead
  refine ⟨_, rfl, ?_⟩
  split
  · with_reducible apply readTrcRdata_kept
    exact h
  · exact h

theorem trcGuard_kept {pq : List Instr} (s : State) (t : Nat) (slots : Nat) (ago : Nat) (res : Bool) (ok : Bool) (h : Kept pq s) : Kept pq (trcGuard s t slots ago res ok) := by
  unfold trcGuard
  split
  · exact h
  · with_reducible apply trcPacket_kept
    exact h

theorem trcFlow_kept {pq : List Instr} (s : State) (t : Nat) (bank : Nat) (pc : Nat) (h : Kept pq s) : Kept pq (trcFlow s t bank pc) := by
  unfold trcFlow
  extract_lets +lift a1 a2 a3
  have h4 : Kept pq a3 := by
      unfold a3
      exact kept_same h rfl rfl
  clear_value a3
  split
  · exact h4
  · with_reducible apply trcPacket_kept
    exact h4

theorem trcHoldEnter_kept {pq : List Instr} (s : State) (h : Kept pq s) : Kept pq (trcHoldEnter s) := by
  unfold trcHoldEnter
  extract_lets +lift a1 a2
  have h3 : Kept pq a1 := by
      unfold a1
      with_reducible apply trcPacket_kept
      exact h
  clear_value a1
  exact kept_same h3 rfl rfl

theorem execTraceFifoDrain_kept {pq : List Instr} (s : State) (h : Kept pq s) :
    ∃ s', execTraceFifoDrain s = .next s' ∧ Kept pq s' := by
  unfold execTraceFifoDrain
  refine ⟨_, rfl, ?_⟩
  split
  · with_reducible apply trcDrain_kept
    exact h
  · exact h

theorem updOp_kept {pq : List Instr} (s : State) (i : Nat) (f : OpSlot → OpSlot) (h : Kept pq s) : Kept pq (updOp s i f) := by
  unfold updOp
  exact kept_same h rfl rfl

theorem sendPacket_kept {pq : List Instr} (s : State) (p : Peer) (bytes : List Byte) (h : Kept pq s) : Kept pq (sendPacket s p bytes) := by
  unfold sendPacket
  extract_lets +lift a1
  split
  · exact kept_same h rfl rfl
  · exact kept_same h rfl rfl

theorem sendNotice_kept {pq : List Instr} (s : State) (i : Nat) (h : Kept pq s) : Kept pq (sendNotice s i) := by
  unfold sendNotice
  split
  · with_reducible apply updOp_kept
    exact h
  · with_reducible apply updOp_kept
    with_reducible apply sendPacket_kept
    exact h

theorem opEnd_kept {pq : List Instr} (s : State) (i : Nat) (status : Nat) (result : List Byte) (h : Kept pq s) : Kept pq (opEnd s i status result) := by
  unfold opEnd
  split
  · with_reducible apply sendNotice_kept
    with_reducible apply updOp_kept
    exact h
  · exact h

theorem opEnd?_kept {pq : List Instr} (s : State) (i : Option Nat) (status : Nat) (result : List Byte) (h : Kept pq s) : Kept pq (opEnd? s i status result) := by
  unfold opEnd?
  split
  · with_reducible apply opEnd_kept
    exact h
  · exact h

theorem pushSeq_kept {pq : List Instr} (s : State) (p : SblPay) (h : Kept pq s) : Kept pq (pushSeq s p) := by
  unfold pushSeq
  exact kept_same h rfl rfl

theorem requestXfer_kept {pq : List Instr} (s : State) (h : Kept pq s) : Kept pq (requestXfer s) := by
  unfold requestXfer
  extract_lets +lift a1 a2
  have h3 : Kept pq a1 := by
      unfold a1
      with_reducible apply pushSeq_kept
      exact h
  clear_value a1
  split
  · exact h
  · with_reducible apply setFs_kept
    exact kept_same h3 rfl rfl

theorem autoSync_kept {pq : List Instr} (s : State) (h : Kept pq s) : Kept pq (autoSync s) := by
  unfold autoSync
  split
  · with_reducible apply requestXfer_kept
    exact h
  · exact h

theorem streamEv_kept {pq : List Instr} (s : State) (ev : StreamEv) (h : Kept pq s) : Kept pq (streamEv s ev) := by
  unfold streamEv
  extract_lets +lift a1 a2
  split
  · exact h
  · split
    · with_reducible apply kept_foldl
      · exact h
      · intro v3 v4 v5
        with_reducible apply pushSeq_kept
        exact v5
    · with_reducible apply setF_kept
      exact kept_same h rfl rfl

theorem zcpArrive_kept {pq : List Instr} (s : State) (p : Peer) (bytes : List Byte) (h : Kept pq s) : Kept pq (zcpArrive s p bytes) := by
  unfold zcpArrive
  extract_lets +lift a1
  split
  · exact kept_same h rfl rfl
  · with_reducible apply incStop_kept
    exact h

theorem sblTrain_kept {pq : List Instr} (s : State) (h : Kept pq s) : Kept pq (sblTrain s) := by
  unfold sblTrain
  split
  · with_reducible apply setF_kept
    exact h
  · exact h

theorem wrFail_kept {pq : List Instr} (s : State) (p : Posted) (h : Kept pq s) : Kept pq (wrFail s p) := by
  unfold wrFail
  split
  · with_reducible apply devBit_kept
    exact h
  · with_reducible apply devBit_kept
    exact h
  · with_reducible apply devBit_kept
    exact h

theorem postedFail_kept {pq : List Instr} (s : State) (p : Posted) (cause : Nat) (h : Kept pq s) : Kept pq (postedFail s p cause) := by
  unfold postedFail
  extract_lets +lift a1 a2
  have h3 : Kept pq a2 := by
      unfold a2
      split
      · exact kept_same h rfl rfl
      · with_reducible apply incSat_kept
        exact h
  clear_value a2
  with_reducible apply pulse_kept
  with_reducible apply wrFail_kept
  exact h3

theorem postedFails_kept {pq : List Instr} (s : State) (ps : List Posted) (cause : Nat) (h : Kept pq s) : Kept pq (postedFails s ps cause) := by
  unfold postedFails
  with_reducible apply kept_foldl
  · exact h
  · intro v1 v2 v3
    with_reducible apply postedFail_kept
    exact v3

theorem postedDone_kept {pq : List Instr} (s : State) (which : Posted → Bool) (cause : Option Nat) (h : Kept pq s) : Kept pq (postedDone s which cause) := by
  unfold postedDone
  extract_lets +lift a1 a2 a3
  have h4 : Kept pq a3 := by
      unfold a3
      exact kept_same h rfl rfl
  clear_value a3
  split
  · with_reducible apply postedFails_kept
    exact h4
  · exact h4

theorem execPwlogClear_kept {pq : List Instr} (s : State) (h : Kept pq s) :
    ∃ s', execPwlogClear s = .next s' ∧ Kept pq s' := by
  unfold execPwlogClear
  refine ⟨_, rfl, ?_⟩
  extract_lets +lift a1
  split
  · exact h
  · exact kept_same h rfl rfl

theorem updCan_kept {pq : List Instr} (s : State) (n : Nat) (f : CanSt → CanSt) (h : Kept pq s) : Kept pq (updCan s n f) := by
  unfold updCan
  exact kept_same h rfl rfl

theorem updTb_kept {pq : List Instr} (s : State) (n : Nat) (b : Nat) (f : CanTb → CanTb) (h : Kept pq s) : Kept pq (updTb s n b f) := by
  unfold updTb
  with_reducible apply updCan_kept
  exact h

theorem canLoadZcp_kept {pq : List Instr} (s : State) (n : Nat) (h : Kept pq s) : Kept pq (canLoadZcp s n) := by
  unfold canLoadZcp
  extract_lets +lift a1
  split
  · split
    · with_reducible apply updCan_kept
      with_reducible apply updTb_kept
      exact h
    · exact h
  · exact h

theorem canLoadSched_kept {pq : List Instr} (s : State) (n : Nat) (h : Kept pq s) : Kept pq (canLoadSched s n) := by
  unfold canLoadSched
  extract_lets +lift a1
  with_reducible apply updCan_kept
  exact h

theorem canRelease_kept {pq : List Instr} (s : State) (n : Nat) (b : Nat) (last : Nat) (h : Kept pq s) : Kept pq (canRelease s n b last) := by
  unfold canRelease
  extract_lets +lift a1 a2 a3
  have h4 : Kept pq a2 := by
      unfold a2
      with_reducible apply updTb_kept
      exact h
  clear_value a2
  have h5 : Kept pq a3 := by
      unfold a3
      with_reducible apply setF_kept
      exact h4
  clear_value a3
  split
  · split
    · with_reducible apply incSat_kept
      exact h4
    · exact h4
  · split
    · with_reducible apply incSat_kept
      exact h5
    · with_reducible apply postedDone_kept
      exact h5
    · with_reducible apply updCan_kept
      exact h5

theorem canEnter_kept {pq : List Instr} (s : State) (n : Nat) (b : Nat) (f : CanFrame) (h : Kept pq s) : Kept pq (canEnter s n b f) := by
  unfold canEnter
  extract_lets +lift a1 a2
  have h3 : Kept pq a2 := by
      unfold a2
      with_reducible apply updTb_kept
      exact h
  clear_value a2
  split
  · exact h
  · split
    · exact h3
    · with_reducible apply canRelease_kept
      exact h3

theorem canClearPending_kept {pq : List Instr} (s : State) (n : Nat) (h : Kept pq s) : Kept pq (canClearPending s n) := by
  unfold canClearPending
  extract_lets +lift a1
  with_reducible apply kept_foldl
  · with_reducible apply updCan_kept
    exact h
  · intro v2 v3 v4
    with_reducible apply postedDone_kept
    exact v4

theorem canLoseExcl_kept {pq : List Instr} (s : State) (n : Nat) (h : Kept pq s) : Kept pq (canLoseExcl s n) := by
  unfold canLoseExcl
  split
  · with_reducible apply postedDone_kept
    with_reducible apply updCan_kept
    exact h
  · exact h

theorem canModeDrop_kept {pq : List Instr} (s : State) (n : Nat) (h : Kept pq s) : Kept pq (canModeDrop s n) := by
  unfold canModeDrop
  extract_lets +lift a1 a2
  have h3 : Kept pq a1 := by
      unfold a1
      with_reducible apply kept_foldl
      · exact h
      · intro v4 v5 v6
        split
        · with_reducible apply canRelease_kept
          exact v6
        · exact v6
  clear_value a1
  have h7 : Kept pq a2 := by
      unfold a2
      with_reducible apply canClearPending_kept
      exact h3
  clear_value a2
  split
  · exact h7
  · with_reducible apply canLoseExcl_kept
    exact h7

theorem canReleaseAll_kept {pq : List Instr} (s : State) (n : Nat) (last : Nat) (h : Kept pq s) : Kept pq (canReleaseAll s n last) := by
  unfold canReleaseAll
  extract_lets +lift a1 a2 a3
  have h4 : Kept pq a1 := by
      unfold a1
      with_reducible apply kept_foldl
      · exact h
      · intro v5 v6 v7
        with_reducible apply canRelease_kept
        exact v7
  clear_value a1
  have h8 : Kept pq a2 := by
      unfold a2
      with_reducible apply canLoseExcl_kept
      with_reducible apply canClearPending_kept
      exact h4
  clear_value a2
  have h9 : Kept pq a3 := by
      unfold a3
      with_reducible apply updCan_kept
      exact h8
  clear_value a3
  with_reducible apply setF_kept
  exact h9

theorem canReinitNow_kept {pq : List Instr} (s : State) (n : Nat) (h : Kept pq s) : Kept pq (canReinitNow s n) := by
  unfold canReinitNow
  with_reducible apply setF_kept
  with_reducible apply canReleaseAll_kept
  exact h

theorem canReinit_kept {pq : List Instr} (s : State) (n : Nat) (h : Kept pq s) : Kept pq (canReinit s n) := by
  unfold canReinit
  split
  · with_reducible apply updCan_kept
    exact h
  · with_reducible apply canReinitNow_kept
    exact h

theorem busTake_kept {pq : List Instr} (s : State) (n : Nat) (j : Nat) (ref : Nat) (h : Kept pq s) : Kept pq (busTake s n j ref) := by
  unfold busTake
  exact kept_same h rfl rfl

theorem canLoad_kept {pq : List Instr} (s : State) (n : Nat) (h : Kept pq s) : Kept pq (canLoad s n) := by
  unfold canLoad
  with_reducible apply kept_foldl
  · exact h
  · intro v1 v2 v3
    extract_lets +lift a4
    split
    · extract_lets +lift a5
      have h6 : Kept pq a5 := by
          unfold a5
          with_reducible apply updCan_kept
          exact v3
      clear_value a5
      split
      · extract_lets +lift a7
        have h8 : Kept pq a7 := by
            unfold a7
            with_reducible apply updCan_kept
            exact h6
        clear_value a7
        with_reducible apply busTake_kept
        with_reducible apply updTb_kept
        exact h8
      · with_reducible apply postedDone_kept
        exact h6
    · exact v3

theorem busMode_kept {pq : List Instr} (s : State) (prev : Mode) (h : Kept pq s) : Kept pq (busMode s prev) := by
  unfold busMode
  with_reducible apply kept_foldl
  · exact h
  · intro v1 v2 v3
    extract_lets +lift a4
    have h5 : Kept pq a4 := by
        unfold a4
        split
        · exact v3
        · with_reducible apply canModeDrop_kept
          exact v3
    clear_value a4
    split
    · exact h5
    · with_reducible apply canReinit_kept
      exact h5

theorem objRequest_kept {pq : List Instr} (s : State) (n : Nat) (j : Nat) (posts : List Posted) (h : Kept pq s) : Kept pq (objRequest s n j posts) := by
  unfold objRequest
  extract_lets +lift a1 a2 a3
  have h4 : Kept pq a2 := by
      unfold a2
      split
      · with_reducible apply postedDone_kept
        exact h
      · exact h
  clear_value a2
  have h5 : Kept pq a3 := by
      unfold a3
      with_reducible apply updCan_kept
      exact h4
  clear_value a3
  split
  · exact h
  · extract_lets +lift a6 a7
    split
    · unfold a1
      extract_lets +lift a8
      exact kept_same h rfl rfl
    · split
      · split
        · with_reducible apply postedFails_kept
          exact h
        · with_reducible apply canLoad_kept
          unfold a1
          extract_lets +lift a9
          exact kept_same h5 rfl rfl
      · exact h

theorem canReserve_kept {pq : List Instr} (s : State) (n : Nat) (h : Kept pq s) : Kept pq (canReserve s n).2 := by
  unfold canReserve
  split
  · dsimp only
    exact h
  · split
    · dsimp only
      with_reducible apply updTb_kept
      exact h
    · dsimp only
      exact h

theorem canSendZcp_kept {pq : List Instr} (s : State) (n : Nat) (peer : Nat) (bytes : List Byte) (h : Kept pq s) : Kept pq (canSendZcp s n peer bytes) := by
  unfold canSendZcp
  split
  · extract_lets +lift a1 a2 a3
    with_reducible apply canLoadZcp_kept
    with_reducible apply updCan_kept
    exact h

theorem objWrite_kept {pq : List Instr} (s : State) (n : Nat) (j : Nat) (bs : List (Nat × Byte)) (h : Kept pq s) : Kept pq (objWrite s n j bs) := by
  unfold objWrite
  with_reducible apply kept_foldl
  · exact h
  · intro v1 v2 v3
    extract_lets +lift a4 a5 a6
    with_reducible apply setF_kept
    exact v3

theorem countSkip_kept {pq : List Instr} (s : State) (t : Nat) (h : Kept pq s) : Kept pq (countSkip s t) := by
  unfold countSkip
  with_reducible apply trcScan_kept
  with_reducible apply incSat_kept
  exact h

theorem raiseEpoch_kept {pq : List Instr} (s : State) (h : Kept pq s) : Kept pq (raiseEpoch s) := by
  unfold raiseEpoch
  extract_lets +lift a1 a2
  with_reducible apply setF_kept
  exact h

theorem allTasks_kept {pq : List Instr} (s : State) (f : State → Nat → State) (h : Kept pq s) (hf : ∀ s t, Kept pq s → Kept pq (f s t)) : Kept pq (allTasks s f) := by
  exact kept_foldl h hf

theorem domainOff_kept {pq : List Instr} (s : State) (d : Nat) (h : Kept pq s) : Kept pq (domainOff s d) := by
  unfold domainOff
  extract_lets +lift a1 a2
  have h3 : Kept pq a1 := by
      unfold a1
      with_reducible apply setF_kept
      exact h
  clear_value a1
  split
  · split
    · exact kept_same h3 rfl rfl
    · split
      · with_reducible apply setF_kept
        exact h3
      · exact h3
  · exact h

theorem d11Follow_kept {pq : List Instr} (s : State) (h : Kept pq s) : Kept pq (d11Follow s) := by
  unfold d11Follow
  split
  · with_reducible apply domainOff_kept
    exact h
  · exact h

theorem modeOpEnd_kept {pq : List Instr} (s : State) (status : Nat) (h : Kept pq s) : Kept pq (modeOpEnd s status) := by
  unfold modeOpEnd
  extract_lets +lift a1 a2
  have h3 : Kept pq a1 := by
      unfold a1
      with_reducible apply opEnd?_kept
      exact h
  clear_value a1
  exact kept_same h3 rfl rfl

theorem egrPrune_kept {pq : List Instr} (s : State) (h : Kept pq s) : Kept pq (egrPrune s) := by
  unfold egrPrune
  with_reducible apply kept_foldl
  · exact h
  · intro v1 v2 v3
    extract_lets +lift a4 a5 a6 a7 a8
    have h9 : Kept pq a8 := by
        unfold a8
        exact kept_same v3 rfl rfl
    clear_value a8
    with_reducible apply kept_foldl
    · exact h9
    · intro v10 v11 v12
      with_reducible apply incSat_kept
      exact v12

theorem transition_kept {pq : List Instr} (s : State) (m : Mode) (h : Kept pq s) : Kept pq (transition s m) := by
  unfold transition
  extract_lets +lift a1 a2 a3 a4 a5
  have h6 : Kept pq a2 := by
      unfold a2
      with_reducible apply busMode_kept
      with_reducible apply egrPrune_kept
      with_reducible apply trcMode_kept
      exact kept_same h rfl rfl
  clear_value a2
  have h7 : Kept pq a3 := by
      unfold a3
      with_reducible apply setF_kept
      exact h6
  clear_value a3
  have h8 : Kept pq a4 := by
      unfold a4
      with_reducible apply devBit_kept
      exact h7
  clear_value a4
  have h9 : Kept pq a5 := by
      unfold a5
      with_reducible apply setF_kept
      with_reducible apply journalInt_kept
      exact h8
  clear_value a5
  split
  · exact h7
  · with_reducible apply raiseEv_kept
    exact h9

theorem enterRun_kept {pq : List Instr} (s : State) (raise : Bool) (h : Kept pq s) : Kept pq (enterRun s raise) := by
  unfold enterRun
  extract_lets +lift a1 a2 a3 a4 a5 a6
  have h7 : Kept pq a1 := by
      unfold a1
      split
      · with_reducible apply raiseEpoch_kept
        exact h
      · exact h
  clear_value a1
  have h8 : Kept pq a2 := by
      unfold a2
      with_reducible apply allTasks_kept
      · exact h7
      · intro v9 v10 v11
        with_reducible apply updTask_kept
        exact v11
  clear_value a2
  have h12 : Kept pq a4 := by
      unfold a4
      exact kept_same h8 rfl rfl
  clear_value a4
  have h13 : Kept pq a6 := by
      unfold a6
      with_reducible apply setF_kept
      exact kept_same h12 rfl rfl
  clear_value a6
  with_reducible apply d11Follow_kept
  with_reducible apply modeOpEnd_kept
  with_reducible apply transition_kept
  exact h13

theorem dropPending_kept {pq : List Instr} (s : State) (t : Nat) (h : Kept pq s) : Kept pq (dropPending s t) := by
  unfold dropPending
  split
  · with_reducible apply countSkip_kept
    with_reducible apply updTask_kept
    exact h
  · exact h

theorem dropHeld_kept {pq : List Instr} (s : State) (t : Nat) (h : Kept pq s) : Kept pq (dropHeld s t) := by
  unfold dropHeld
  split
  · with_reducible apply countSkip_kept
    with_reducible apply updTask_kept
    exact h
  · exact h

theorem dropLive_kept {pq : List Instr} (s : State) (h : Kept pq s) : Kept pq (dropLive s) := by
  unfold dropLive
  exact kept_same h rfl rfl

theorem leaveStandby_kept {pq : List Instr} (s : State) (h : Kept pq s) : Kept pq (leaveStandby s) := by
  unfold leaveStandby
  extract_lets +lift a1 a2 a3 a4
  have h5 : Kept pq a2 := by
      unfold a2
      with_reducible apply opEnd?_kept
      exact h
  clear_value a2
  have h6 : Kept pq a3 := by
      unfold a3
      exact kept_same h5 rfl rfl
  clear_value a3
  have h7 : Kept pq a4 := by
      unfold a4
      split
      · with_reducible apply setF_kept
        exact h6
      · exact h6
  clear_value a4
  with_reducible apply setFs_kept
  exact h7

theorem enterTrack_kept {pq : List Instr} (s : State) (keepSync : Bool) (h : Kept pq s) : Kept pq (enterTrack s keepSync) := by
  unfold enterTrack
  extract_lets +lift a1 a2 a3 a4 a5 a6
  have h7 : Kept pq a2 := by
      unfold a2
      with_reducible apply allTasks_kept
      · with_reducible apply allTasks_kept
        · exact h
        · intro v8 v9 v10
          with_reducible apply dropPending_kept
          exact v10
      · intro v11 v12 v13
        with_reducible apply dropHeld_kept
        exact v13
  clear_value a2
  have h14 : Kept pq a3 := by
      unfold a3
      with_reducible apply dropLive_kept
      with_reducible apply leaveStandby_kept
      exact h7
  clear_value a3
  have h15 : Kept pq a4 := by
      unfold a4
      split
      · with_reducible apply setF_kept
        exact h14
      · exact h14
  clear_value a4
  have h16 : Kept pq a6 := by
      unfold a6
      exact kept_same h15 rfl rfl
  clear_value a6
  with_reducible apply autoSync_kept
  with_reducible apply d11Follow_kept
  with_reducible apply modeOpEnd_kept
  with_reducible apply transition_kept
  exact h16

theorem negotiationEnds_kept {pq : List Instr} (s : State) (h : Kept pq s) : Kept pq (negotiationEnds s) := by
  unfold negotiationEnds
  split
  · with_reducible apply enterRun_kept
    exact h
  · with_reducible apply enterTrack_kept
    exact h

theorem nvDropRank_kept {pq : List Instr} (s : State) (r : Nat) (h : Kept pq s) : Kept pq (nvDropRank s r) := by
  unfold nvDropRank
  exact kept_same h rfl rfl

theorem leaveEdit_kept {pq : List Instr} (s : State) (h : Kept pq s) : Kept pq (leaveEdit s) := by
  unfold leaveEdit
  split
  · with_reducible apply transition_kept
    exact h
  · exact h

theorem oweReport_kept {pq : List Instr} (s : State) (o : Nat) (h : Kept pq s) : Kept pq (oweReport s o) := by
  unfold oweReport
  extract_lets +lift a1
  split
  · exact kept_same h rfl rfl
  · exact h

theorem cancelDeferred_kept {pq : List Instr} (s : State) (h : Kept pq s) : Kept pq (cancelDeferred s) := by
  unfold cancelDeferred
  exact kept_same h rfl rfl

theorem dropShadow_kept {pq : List Instr} (s : State) (h : Kept pq s) : Kept pq (dropShadow s) := by
  unfold dropShadow
  exact kept_same h rfl rfl

theorem resetRegs_kept {pq : List Instr} (s : State) (d1Kept : Bool) (h : Kept pq s) : Kept pq (resetRegs s d1Kept) := by
  unfold resetRegs
  exact kept_same h rfl rfl

theorem voidSet_kept {pq : List Instr} (s : State) (h : Kept pq s) : Kept pq (voidSet s) := by
  unfold voidSet
  extract_lets +lift a1
  split
  · exact h
  · exact kept_same h rfl rfl

theorem txnOutcome_kept {pq : List Instr} (s : State) (o : Nat) (late : Bool) (presumed : Bool) (mode : Bool) (seq : Nat) (h : Kept pq s) : Kept pq (txnOutcome s o late presumed mode seq) := by
  unfold txnOutcome
  extract_lets +lift a1
  have h2 : Kept pq a1 := by
      unfold a1
      with_reducible apply setFs_kept
      exact h
  clear_value a1
  split
  · with_reducible apply pulse_kept
    with_reducible apply incSat_kept
    exact h2
  · exact h2

theorem txnIdle_kept {pq : List Instr} (s : State) (h : Kept pq s) : Kept pq (txnIdle s) := by
  unfold txnIdle
  extract_lets +lift a1 a2 a3 a4 a5
  have h6 : Kept pq a4 := by
      unfold a4
      exact kept_same h rfl rfl
  clear_value a4
  have h7 : Kept pq a5 := by
      unfold a5
      with_reducible apply dropShadow_kept
      exact h6
  clear_value a5
  with_reducible apply setFs_kept
  exact h7

theorem txnDiscard_kept {pq : List Instr} (s : State) (o : Nat) (mode : Bool) (status : Nat) (h : Kept pq s) : Kept pq (txnDiscard s o mode status) := by
  unfold txnDiscard
  extract_lets +lift a1 a2 a3 a4 a5 a6 a7
  have h8 : Kept pq a3 := by
      unfold a3
      with_reducible apply oweReport_kept
      with_reducible apply nvDropRank_kept
      with_reducible apply voidSet_kept
      exact h
  clear_value a3
  have h9 : Kept pq a4 := by
      unfold a4
      with_reducible apply txnOutcome_kept
      exact h8
  clear_value a4
  have h10 : Kept pq a5 := by
      unfold a5
      with_reducible apply opEnd?_kept
      with_reducible apply opEnd?_kept
      exact h9
  clear_value a5
  have h11 : Kept pq a6 := by
      unfold a6
      split
      · with_reducible apply setF_kept
        exact h10
      · exact h10
  clear_value a6
  have h12 : Kept pq a7 := by
      unfold a7
      split
      · with_reducible apply setF_kept
        exact h11
      · exact h10
  clear_value a7
  with_reducible apply txnIdle_kept
  exact h12

theorem endRun_kept {pq : List Instr} (s : State) (t : Nat) (h : Kept pq s) : Kept pq (endRun s t) := by
  unfold endRun
  split
  · with_reducible apply updTask_kept
    exact h
  · exact h

theorem abandonTmu_kept {pq : List Instr} (s : State) (h : Kept pq s) : Kept pq (abandonTmu s) := by
  unfold abandonTmu
  exact kept_same h rfl rfl

theorem enterStop_kept {pq : List Instr} (s : State) (h : Kept pq s) : Kept pq (enterStop s) := by
  unfold enterStop
  extract_lets +lift a1 a2 a3 a4 a5 a6 a7
  have h8 : Kept pq a1 := by
      unfold a1
      split
      · exact h
      · with_reducible apply cancelDeferred_kept
        with_reducible apply allTasks_kept
        · exact h
        · intro v9 v10 v11
          with_reducible apply endRun_kept
          exact v11
  clear_value a1
  have h12 : Kept pq a2 := by
      unfold a2
      with_reducible apply abandonTmu_kept
      with_reducible apply allTasks_kept
      · with_reducible apply allTasks_kept
        · exact h8
        · intro v13 v14 v15
          with_reducible apply dropPending_kept
          exact v15
      · intro v16 v17 v18
        with_reducible apply dropHeld_kept
        exact v18
  clear_value a2
  have h19 : Kept pq a3 := by
      unfold a3
      with_reducible apply dropLive_kept
      with_reducible apply leaveStandby_kept
      with_reducible apply streamEv_kept
      exact h12
  clear_value a3
  have h20 : Kept pq a5 := by
      unfold a5
      exact kept_same h19 rfl rfl
  clear_value a5
  have h21 : Kept pq a6 := by
      unfold a6
      with_reducible apply transition_kept
      exact h20
  clear_value a6
  have h22 : Kept pq a7 := by
      unfold a7
      split
      · with_reducible apply modeOpEnd_kept
        exact h21
      · exact h21
  clear_value a7
  with_reducible apply d11Follow_kept
  exact h22

theorem enterByRole_kept {pq : List Instr} (s : State) (h : Kept pq s) : Kept pq (enterByRole s) := by
  unfold enterByRole
  extract_lets +lift a1 a2
  split
  · with_reducible apply enterRun_kept
    exact h
  · split
    · split
      · with_reducible apply enterTrack_kept
        exact h
      · split
        · with_reducible apply enterRun_kept
          exact h
        · with_reducible apply enterTrack_kept
          exact h
    · exact kept_same h rfl rfl

theorem modeReq_kept {pq : List Instr} (s : State) (req : Nat) (h : Kept pq s) : Kept pq (modeReq s req).2 := by
  unfold modeReq
  extract_lets +lift a1 a2 a3
  have h4 : Kept pq a2 := by
      unfold a2
      with_reducible apply trcHoldEnter_kept
      exact h
  clear_value a2
  split
  · split
    · dsimp only
      with_reducible apply allTasks_kept
      · exact kept_same h rfl rfl
      · intro v5 v6 v7
        with_reducible apply dropHeld_kept
        exact v7
    · split
      · dsimp only
        with_reducible apply enterStop_kept
        exact h
      · exact h
  · split
    · dsimp only
      with_reducible apply enterByRole_kept
      exact h
    · exact h
  · split
    · dsimp only
      with_reducible apply halt_kept
      exact h
    · exact h
  · split
    · exact h
    · split
      · exact h
      · dsimp only
        exact kept_same h4 rfl rfl
  · exact h

theorem enterHalt_kept {pq : List Instr} (s : State) (cause : Nat) (h : Kept pq s) : Kept pq (enterHalt s cause) := by
  unfold enterHalt
  extract_lets +lift a1 a2 a3 a4 a5 a6 a7
  have h8 : Kept pq a1 := by
      unfold a1
      with_reducible apply allTasks_kept
      · with_reducible apply allTasks_kept
        · with_reducible apply allTasks_kept
          · exact h
          · intro v9 v10 v11
            with_reducible apply endRun_kept
            exact v11
        · intro v12 v13 v14
          with_reducible apply dropPending_kept
          exact v14
      · intro v15 v16 v17
        with_reducible apply dropHeld_kept
        exact v17
  clear_value a1
  have h18 : Kept pq a2 := by
      unfold a2
      with_reducible apply abandonTmu_kept
      with_reducible apply cancelDeferred_kept
      exact h8
  clear_value a2
  have h19 : Kept pq a3 := by
      unfold a3
      split
      · with_reducible apply txnDiscard_kept
        exact h18
      · exact h18
  clear_value a3
  have h20 : Kept pq a4 := by
      unfold a4
      with_reducible apply leaveStandby_kept
      with_reducible apply streamEv_kept
      exact h19
  clear_value a4
  have h21 : Kept pq a5 := by
      unfold a5
      with_reducible apply setF_kept
      with_reducible apply dropLive_kept
      exact h20
  clear_value a5
  have h22 : Kept pq a7 := by
      unfold a7
      exact kept_same h21 rfl rfl
  clear_value a7
  with_reducible apply d11Follow_kept
  with_reducible apply modeOpEnd_kept
  with_reducible apply transition_kept
  exact h22

theorem settle_kept {pq : List Instr} (s : State) (h : Kept pq s) : Kept pq (settle s) := by
  unfold settle
  extract_lets +lift a1
  split
  · with_reducible apply enterHalt_kept
    exact kept_same h rfl rfl
  · exact h

theorem setPresent_kept {pq : List Instr} (s : State) (stn : Nat) (v : Bool) (h : Kept pq s) : Kept pq (setPresent s stn v) := by
  unfold setPresent
  split
  · exact h
  · with_reducible apply pulse_kept
    with_reducible apply devBit_kept
    exact h

theorem refreshPresent_kept {pq : List Instr} (s : State) (h : Kept pq s) : Kept pq (refreshPresent s) := by
  unfold refreshPresent
  with_reducible apply kept_foldl
  · exact h
  · intro v1 v2 v3
    split
    · exact v3
    · split
      · with_reducible apply setPresent_kept
        exact v3
      · split
        · with_reducible apply setPresent_kept
          exact v3
        · exact v3

theorem strapWarn_kept {pq : List Instr} (s : State) (h : Kept pq s) : Kept pq (strapWarn s) := by
  unfold strapWarn
  with_reducible apply kept_foldl
  · exact h
  · intro v1 v2 v3
    split
    · with_reducible apply setFs_kept
      exact v3
    · exact v3

theorem rebaseTokens_kept {pq : List Instr} (s : State) (h : Kept pq s) : Kept pq (rebaseTokens s) := by
  unfold rebaseTokens
  extract_lets +lift a1
  exact kept_same h rfl rfl

theorem domainInit_kept {pq : List Instr} (s : State) (d : Nat) (h : Kept pq s) : Kept pq (domainInit s d) := by
  unfold domainInit
  extract_lets +lift a1 a2 a3 a4 a5 a6 a7 a8 a9 a10
  have h11 : Kept pq a1 := by
      unfold a1
      with_reducible apply rebaseTokens_kept
      exact h
  clear_value a1
  have h12 : Kept pq a6 := by
      unfold a6
      with_reducible apply clearSpaces_kept
      exact h
  clear_value a6
  split
  · exact kept_same h11 rfl rfl
  · exact kept_same h rfl rfl
  · with_reducible apply setFs_kept
    with_reducible apply eccWipe_kept
    exact kept_same h rfl rfl
  · exact kept_sp h12 rfl ⟨(kept_bits h12 :), (kept_words h12 :), (kept_planeB h12 :), (kept_planeW h12 :)⟩
  · exact kept_same h rfl rfl
  · exact kept_same h rfl rfl
  · exact kept_same h rfl rfl
  · with_reducible apply setF_kept
    exact kept_same h rfl rfl
  · exact kept_same h rfl rfl
  · with_reducible apply trcClear_kept
    exact h
  · exact h

theorem resetParts_kept {pq : List Instr} (s : State) (d1Kept : Bool) (h : Kept pq s) : Kept pq (resetParts s d1Kept) := by
  unfold resetParts
  extract_lets +lift a1 a2 a3 a4 a5 a6 a7 a8 a9 a10
  have h11 : Kept pq a1 := by
      unfold a1
      with_reducible apply kept_foldl
      · exact h
      · intro v12 v13 v14
        with_reducible apply domainInit_kept
        exact v14
  clear_value a1
  exact kept_same h11 rfl rfl

theorem powerUp_kept {pq : List Instr} (s : State) (h : Kept pq s) : Kept pq (powerUp s) := by
  unfold powerUp
  extract_lets +lift a1 a2 a3 a4
  have h5 : Kept pq a2 := by
      unfold a2
      with_reducible apply strapWarn_kept
      with_reducible apply resetParts_kept
      with_reducible apply resetRegs_kept
      exact h
  clear_value a2
  with_reducible apply setFs_kept
  exact kept_same h5 rfl rfl

theorem recordCause_kept {pq : List Instr} (s : State) (code : Nat) (h : Kept pq s) : Kept pq (recordCause s code) := by
  unfold recordCause
  extract_lets +lift a1 a2
  with_reducible apply setFs_kept
  exact h

theorem clearD10_kept {pq : List Instr} (s : State) (h : Kept pq s) : Kept pq (clearD10 s) := by
  unfold clearD10
  exact kept_same h rfl rfl

theorem modeReqHost_kept {pq : List Instr} (s : State) (req : Nat) (dbg : Bool) (h : Kept pq s) : Kept pq (modeReqHost s req dbg) := by
  unfold modeReqHost
  split
  · rename_i x1 x2 x3
    have h4 : Kept pq x2 := by
        refine kept_pair x3 ?_
        with_reducible apply modeReq_kept
        exact h
    exact h4
  · rename_i x5 x6 x7 x8 x9
    have h10 : Kept pq x7 := by
        refine kept_pair x9 ?_
        with_reducible apply modeReq_kept
        exact h
    with_reducible apply accErr_kept
    exact h

theorem domainUp_kept {pq : List Instr} (s : State) (d : Nat) (h : Kept pq s) : Kept pq (domainUp s d) := by
  unfold domainUp
  extract_lets +lift a1 a2 a3 a4 a5 a6
  have h7 : Kept pq a1 := by
      unfold a1
      split
      · exact h
      · with_reducible apply setF_kept
        exact h
  clear_value a1
  have h8 : Kept pq a3 := by
      unfold a3
      split
      · exact kept_same h7 rfl rfl
      · exact h7
  clear_value a3
  have h9 : Kept pq a4 := by
      unfold a4
      split
      · with_reducible apply clearD10_kept
        exact h8
      · split
        · exact h8
        · with_reducible apply clearDomains_kept
          exact h8
  clear_value a4
  have h10 : Kept pq a5 := by
      unfold a5
      with_reducible apply domainInit_kept
      exact h9
  clear_value a5
  split
  · exact h7
  · split
    · with_reducible apply refreshPresent_kept
      exact h10
    · split
      · split
        · exact kept_same h10 rfl rfl
        · with_reducible apply trcLost_kept
          exact h10
      · exact h10

theorem timeHoldover_kept {pq : List Instr} (s : State) (h : Kept pq s) : Kept pq (timeHoldover s) := by
  unfold timeHoldover
  extract_lets +lift a1 a2 a3 a4
  have h5 : Kept pq a4 := by
      unfold a4
      exact kept_same h rfl rfl
  clear_value a4
  with_reducible apply setFs_kept
  exact h5

theorem toReset_kept {pq : List Instr} (s : State) (code : Nat) (lasting : Bool) (h : Kept pq s) : Kept pq (toReset s code lasting) := by
  unfold toReset
  extract_lets +lift a1 a2 a3 a4 a5
  have h6 : Kept pq a1 := by
      unfold a1
      with_reducible apply recordCause_kept
      exact h
  clear_value a1
  have h7 : Kept pq a3 := by
      unfold a3
      split
      · exact kept_same h6 rfl rfl
      · exact h6
  clear_value a3
  have h8 : Kept pq a5 := by
      unfold a5
      with_reducible apply timeHoldover_kept
      with_reducible apply strapWarn_kept
      with_reducible apply resetParts_kept
      with_reducible apply resetRegs_kept
      exact h7
  clear_value a5
  split
  · exact h7
  · with_reducible apply setFs_kept
    exact kept_same h8 rfl rfl

theorem wakeSource_kept {pq : List Instr} (s : State) (bit : Nat) (h : Kept pq s) : Kept pq (wakeSource s bit) := by
  unfold wakeSource
  extract_lets +lift a1 a2 a3 a4
  have h5 : Kept pq a2 := by
      unfold a2
      with_reducible apply setF_kept
      exact h
  clear_value a2
  split
  · exact h
  · split
    · split
      · with_reducible apply setF_kept
        exact h
      · exact h
    · split
      · exact kept_same h5 rfl rfl
      · exact h

theorem updSession_kept {pq : List Instr} (s : State) (i : Nat) (f : Session → Session) (h : Kept pq s) : Kept pq (updSession s i f) := by
  unfold updSession
  exact kept_same h rfl rfl

theorem zcpReply_kept {pq : List Instr} (s : State) (rq : ZReq) (opcode : Nat) (status : Nat) (flags : Nat) (data : List Byte) (h : Kept pq s) : Kept pq (zcpReply s rq opcode status flags data) := by
  unfold zcpReply
  extract_lets +lift a1 a2
  have h3 : Kept pq a2 := by
      unfold a2
      split
      · with_reducible apply updSession_kept
        exact h
      · exact h
  clear_value a2
  with_reducible apply sendPacket_kept
  exact h3

theorem opProgress_kept {pq : List Instr} (s : State) (i : Option Nat) (n : Nat) (h : Kept pq s) : Kept pq (opProgress s i n) := by
  unfold opProgress
  split
  · with_reducible apply updOp_kept
    exact h
  · exact h

theorem opTake_kept {pq : List Instr} {s : State} {rq : ZReq} {code i : Nat} {t : State} (e : opTake s rq code = some (i, t)) (h : Kept pq s) : Kept pq t := by
  unfold opTake at e
  cases hf : (List.range 8).find? fun i => (opSlot s i).st == 0 with
  | none => rw [hf] at e; cases e
  | some j =>
    rw [hf] at e
    cases e
    exact updOp_kept _ _ _ h

theorem opPnr_kept {pq : List Instr} (s : State) (i : Option Nat) (h : Kept pq s) : Kept pq (opPnr s i) := by
  unfold opPnr
  split
  · with_reducible apply updOp_kept
    exact h
  · exact h

theorem recordFail_kept {pq : List Instr} (s : State) (o : Origin) (micro : Option (Nat × Nat)) (opnd : Nat) (found : Nat) (addrf : Bool) (h : Kept pq s) : Kept pq (recordFail s o micro opnd found addrf) := by
  unfold recordFail
  extract_lets +lift a1 a2 a3 a4
  have h5 : Kept pq a1 := by
      unfold a1
      with_reducible apply setF_kept
      with_reducible apply incSat_kept
      exact h
  clear_value a1
  have h6 : Kept pq a4 := by
      unfold a4
      split
      · exact h5
      · with_reducible apply setFs_kept
        exact kept_same h5 rfl rfl
  clear_value a4
  split
  · split
    · exact h6
    · with_reducible apply setFs_kept
      exact h6
  · exact h6

theorem opFault_kept {pq : List Instr} (s : State) (o : Origin) (micro : Option (Nat × Nat)) (vals : List TWord) (idx : Nat) (cause : Nat) (h : Kept pq s) : Kept pq (opFault s o micro vals idx cause).2 := by
  unfold opFault
  extract_lets +lift a1
  have h2 : Kept pq a1 := by
      unfold a1
      with_reducible apply recordFail_kept
      exact h
  clear_value a1
  split
  · dsimp only
    with_reducible apply halt_kept
    exact h2
  · dsimp only
    with_reducible apply setF_kept
    exact h2

theorem squash_kept {pq : List Instr} (s : State) (h : Kept pq s) : Kept pq (squash s) := by
  unfold squash
  with_reducible apply setF_kept
  with_reducible apply incSat_kept
  exact h

theorem addrFault_kept {pq : List Instr} (s : State) (sp : Spec) (o : Origin) (micro : Option (Nat × Nat)) (vals : List TWord) (idx : Nat) (h : Kept pq s) : Kept pq (addrFault s sp o micro vals idx).2 := by
  unfold addrFault
  extract_lets +lift a1
  have h2 : Kept pq a1 := by
      unfold a1
      with_reducible apply recordFail_kept
      exact h
  clear_value a1
  split
  · dsimp only
    with_reducible apply halt_kept
    exact h2
  · split
    · dsimp only
      exact h2
    · dsimp only
      with_reducible apply setF_kept
      exact h2

theorem checkTags_kept {pq : List Instr} (s : State) (sp : Spec) (o : Origin) (micro : Option (Nat × Nat)) (vals : List TWord) (h : Kept pq s) : Kept pq (checkTags s sp o micro vals).2 := by
  unfold checkTags
  extract_lets +lift a1 a2
  split
  · dsimp only
    split
    · dsimp only
      exact h
    · split
      · split
        · dsimp only
          with_reducible apply halt_kept
          with_reducible apply halt_kept
          with_reducible apply recordFail_kept
          exact h
        · dsimp only
          with_reducible apply halt_kept
          with_reducible apply recordFail_kept
          exact h
      · split
        · dsimp only
          with_reducible apply halt_kept
          with_reducible apply recordFail_kept
          exact h
        · dsimp only
          with_reducible apply recordFail_kept
          exact h
  · split
    · dsimp only
      split
      · dsimp only
        exact h
      · dsimp only
        with_reducible apply recordFail_kept
        exact h
    · split
      · dsimp only
        split
        · dsimp only
          exact h
        · split
          · split
            · split
              · dsimp only
                with_reducible apply setF_kept
                with_reducible apply setF_kept
                with_reducible apply recordFail_kept
                exact h
              · dsimp only
                with_reducible apply setF_kept
                with_reducible apply recordFail_kept
                exact h
            · split
              · dsimp only
                with_reducible apply setF_kept
                with_reducible apply recordFail_kept
                exact h
              · dsimp only
                with_reducible apply recordFail_kept
                exact h
          · split
            · split
              · dsimp only
                with_reducible apply setF_kept
                with_reducible apply setF_kept
                with_reducible apply setF_kept
                with_reducible apply recordFail_kept
                exact h
              · dsimp only
                with_reducible apply setF_kept
                with_reducible apply setF_kept
                with_reducible apply recordFail_kept
                exact h
            · split
              · dsimp only
                with_reducible apply setF_kept
                with_reducible apply setF_kept
                with_reducible apply recordFail_kept
                exact h
              · dsimp only
                with_reducible apply setF_kept
                with_reducible apply recordFail_kept
                exact h
      · dsimp only
        split
        · dsimp only
          exact h
        · split
          · split
            · dsimp only
              with_reducible apply setF_kept
              with_reducible apply setF_kept
              with_reducible apply setF_kept
              with_reducible apply recordFail_kept
              exact h
            · dsimp only
              with_reducible apply setF_kept
              with_reducible apply setF_kept
              with_reducible apply recordFail_kept
              exact h
          · split
            · dsimp only
              with_reducible apply setF_kept
              with_reducible apply setF_kept
              with_reducible apply recordFail_kept
              exact h
            · dsimp only
              with_reducible apply setF_kept
              with_reducible apply recordFail_kept
              exact h

theorem obtain_kept {pq : List Instr} (s : State) (t : Nat) (a : Nat) (own : TWord) (h : Kept pq s) : Kept pq (obtain s t a own).2 := by
  unfold obtain
  extract_lets +lift a1
  split
  · split
    · dsimp only
      exact kept_same h rfl rfl
    · dsimp only
      exact h
  · dsimp only
    with_reducible apply streamEv_kept
    exact h

theorem setHold_kept {pq : List Instr} (s : State) (t : Nat) (n : Nat) (v : TWord) (h : Kept pq s) : Kept pq (setHold s t n v) := by
  unfold setHold
  exact kept_same h rfl rfl

theorem setCtx_kept {pq : List Instr} (s : State) (k : Nat) (v : TWord) (h : Kept pq s) : Kept pq (setCtx s k v) := by
  unfold setCtx
  exact kept_same h rfl rfl

theorem obtainBit_kept {pq : List Instr} (s : State) (t : Nat) (a : Nat) (own : Bool) (h : Kept pq s) : Kept pq (obtainBit s t a own).2 := by
  unfold obtainBit
  extract_lets +lift a1 a2 a3
  have h4 : Kept pq a2 := by
      unfold a2
      with_reducible apply streamEv_kept
      exact h
  clear_value a2
  split
  · split
    · dsimp only
      exact h
    · dsimp only
      exact h
  · split
    · dsimp only
      exact h
    · dsimp only
      exact kept_same h4 rfl rfl

theorem runBit_kept {pq : List Instr} (s : State) (t : Nat) (a : Nat) (h : Kept pq s) : Kept pq (runBit s t a).2 := by
  unfold runBit
  split
  · rename_i x1 x2 x3 x4
    have h5 : Kept pq x3 := by
        refine kept_pair x4 ?_
        with_reducible apply readTaskBit_kept
        exact h
    split
    · with_reducible apply obtainBit_kept
      exact h5
    · dsimp only
      exact h5

theorem readSrc_kept {pq : List Instr} (s : State) (t : Nat) (p : Nat) (h : Kept pq s) : Kept pq (readSrc s t p).2 := by
  unfold readSrc
  extract_lets +lift a1
  split
  · dsimp only
    exact h
  · split
    · dsimp only
      exact h
    · split
      · dsimp only
        exact h
      · dsimp only
        exact h
      · with_reducible apply obtain_kept
        exact h
      · with_reducible apply obtain_kept
        exact h
      · with_reducible apply obtain_kept
        exact h
      · with_reducible apply obtain_kept
        exact h
      · dsimp only
        exact h
      · dsimp only
        exact h
      · dsimp only
        exact h
      · dsimp only
        exact h
      · dsimp only
        exact h
      · with_reducible apply obtain_kept
        exact h
      · dsimp only
        exact h

theorem evalGuard_kept {pq : List Instr} (s : State) (t : Nat) (m : Move) (h : Kept pq s) : Kept pq (evalGuard s t m).2 := by
  unfold evalGuard
  extract_lets +lift a1
  split
  · dsimp only
    exact h
  · split
    · rename_i x2 x3 x4 x5
      have h6 : Kept pq x4 := by
          refine kept_pair x5 ?_
          with_reducible apply runBit_kept
          exact h
      extract_lets +lift a7
      dsimp only
      exact h6

theorem firePure_kept {pq : List Instr} (s : State) (op : PureOp) (o : Origin) (micro : Option (Nat × Nat)) (vals : List TWord) (h : Kept pq s) : Kept pq (firePure s op o micro vals).2 := by
  unfold firePure
  extract_lets +lift a1 a2
  split
  · rename_i x3 x4 x5 x6
    have h7 : Kept pq x5 := by
        refine kept_pair x6 ?_
        with_reducible apply checkTags_kept
        exact h
    split
    · rename_i x8 x9 x10 x11
      have h12 : Kept pq x10 := by
          refine kept_pair x11 ?_
          split
          · with_reducible apply drawFree_kept
            exact h7
          · dsimp only
            exact h7
      split
      · rename_i x13 x14 x15 x16
        have h17 : Kept pq x15 := by
            refine kept_pair x16 ?_
            split
            · with_reducible apply drawFree_kept
              exact h12
            · dsimp only
              exact h12
        split
        · dsimp only
          exact h17
        · unfold a2
          split
          · rename_i x18 x19 x20 x21
            have h22 : Kept pq x20 := by
                refine kept_pair x21 ?_
                with_reducible apply opFault_kept
                exact h17
            dsimp only
            exact h22
          · rename_i x23 x24 x25 x26 x27
            have h28 : Kept pq x25 := by
                refine kept_pair x27 ?_
                with_reducible apply opFault_kept
                exact h17
            dsimp only
            exact h28
  · unfold a2
    split
    · rename_i x29 x30 x31 x32
      have h33 : Kept pq x31 := by
          refine kept_pair x32 ?_
          with_reducible apply checkTags_kept
          exact h
      dsimp only
      exact h33
    · rename_i x34 x35 x36 x37 x38
      have h39 : Kept pq x36 := by
          refine kept_pair x38 ?_
          with_reducible apply checkTags_kept
          exact h
      dsimp only
      exact h39

theorem calLatch_kept {pq : List Instr} (s : State) (who : Nat) (h : Kept pq s) : Kept pq (calLatch s who) := by
  unfold calLatch
  extract_lets +lift a1 a2
  split
  · rename_i x3 x4 x5 x6
    have h7 : Kept pq x5 := by
        refine kept_pair x6 ?_
        with_reducible apply drawFree_kept
        exact h
    with_reducible apply setLatch_kept
    exact h7

theorem calTimeRead_kept {pq : List Instr} (s : State) (who : Nat) (h : Kept pq s) : Kept pq (calTimeRead s who) := by
  unfold calTimeRead
  split
  · exact h
  · with_reducible apply calLatch_kept
    exact h

theorem calSnapWrite_kept {pq : List Instr} (s : State) (who : Nat) (snap : Bool) (release : Bool) (h : Kept pq s) : Kept pq (calSnapWrite s who snap release) := by
  unfold calSnapWrite
  extract_lets +lift a1 a2 a3 a4
  have h5 : Kept pq a2 := by
      unfold a2
      split
      · exact kept_same h rfl rfl
      · exact h
  clear_value a2
  have h6 : Kept pq a3 := by
      unfold a3
      with_reducible apply calTimeRead_kept
      exact h5
  clear_value a3
  split
  · split
    · exact h6
    · exact kept_same h6 rfl rfl
  · exact h5

theorem execCalSnap_kept {pq : List Instr} (who : Nat) (alsoRelease : Bool) (s : State) (h : Kept pq s) :
    ∃ s', execCalSnap who alsoRelease s = .next s' ∧ Kept pq s' := by
  unfold execCalSnap
  refine ⟨_, rfl, ?_⟩
  split
  · with_reducible apply calSnapWrite_kept
    exact h
  · exact h

theorem calLoad_kept {pq : List Instr} (s : State) (t : Nat) (h : Kept pq s) : Kept pq (calLoad s t) := by
  unfold calLoad
  extract_lets +lift a1
  split
  · with_reducible apply setFs_kept
    exact h

theorem calSet_kept {pq : List Instr} (s : State) (h : Kept pq s) : Kept pq (calSet s).2 := by
  unfold calSet
  have hc : ∀ (x : State) (c : CalSt), Kept pq x → Kept pq { x with cal := c } := fun x c hx => kept_same hx rfl rfl
  split
  · dsimp only
    with_reducible apply setF_kept
    apply hc
    with_reducible apply calLoad_kept
    exact h
  · dsimp only
    with_reducible apply setF_kept
    exact h

theorem trimAdjust_kept {pq : List Instr} (s : State) (h : Kept pq s) : Kept pq (trimAdjust s) := by
  unfold trimAdjust
  split
  · extract_lets +lift a1 a2 a3
    have h4 : Kept pq a3 := by
        unfold a3
        with_reducible apply setF_kept
        exact h
    clear_value a3
    split
    · with_reducible apply setF_kept
      exact h4
    · exact h4
  · exact h

theorem calJudge_kept {pq : List Instr} (s : State) (point : Nat) (tick : Nat) (h : Kept pq s) : Kept pq (calJudge s point tick) := by
  unfold calJudge
  extract_lets +lift a1 a2 a3 a4 a5 a6 a7
  have h8 : Kept pq a4 := by
      unfold a4
      with_reducible apply setF_kept
      exact kept_same h rfl rfl
  clear_value a4
  split
  · exact kept_same h8 rfl rfl
  · split
    · with_reducible apply trimAdjust_kept
      exact kept_same h8 rfl rfl
    · exact kept_same h8 rfl rfl

theorem execCalDisciplinePoint_kept {pq : List Instr} (s : State) (h : Kept pq s) :
    ∃ s', execCalDisciplinePoint s = .next s' ∧ Kept pq s' := by
  have hc : ∀ (x : State) (c : CalSt), Kept pq x → Kept pq { x with cal := c } := fun x c hx => kept_same hx rfl rfl
  unfold execCalDisciplinePoint
  refine ⟨_, rfl, ?_⟩
  split
  · exact h
  · refine iteInduction (motive := Kept pq) (fun _ => ?_) (fun _ => ?_)
    · exact hc _ _ (incWrap_kept _ _ (setFs_kept _ _ (calLoad_kept _ _ h)))
    · split
      · refine iteInduction (motive := Kept pq) (fun _ => ?_) (fun _ => ?_)
        · exact calJudge_kept _ _ _ h
        · exact hc _ _ h
      · exact hc _ _ h
      · exact hc _ _ h

theorem lbfClear_kept {pq : List Instr} (s : State) (mv : Nat) (h : Kept pq s) : Kept pq (lbfClear s mv) := by
  unfold lbfClear
  split
  · with_reducible apply setF_kept
    exact h
  · exact h

theorem setLeapAt_kept {pq : List Instr} (s : State) (h : Kept pq s) : Kept pq (setLeapAt s) := by
  unfold setLeapAt
  extract_lets +lift a1
  exact kept_same h rfl rfl

theorem execCalSnapRelease_kept {pq : List Instr} (who : Nat) (s : State) (h : Kept pq s) :
    ∃ s', execCalSnapRelease who s = .next s' ∧ Kept pq s' := by
  unfold execCalSnapRelease
  refine ⟨_, rfl, ?_⟩
  split
  · with_reducible apply calSnapWrite_kept
    exact h
  · exact h

theorem execLbfSample_kept {pq : List Instr} (mv : Nat) (s : State) (h : Kept pq s) :
    ∃ s', execLbfSample mv s = .next s' ∧ Kept pq s' := by
  unfold execLbfSample
  refine ⟨_, rfl, ?_⟩
  extract_lets +lift a1 a2 a3 a4
  have h5 : Kept pq a2 := by
      unfold a2
      exact kept_same h rfl rfl
  clear_value a2
  have h6 : Kept pq a3 := by
      unfold a3
      with_reducible apply setF_kept
      exact h5
  clear_value a3
  split
  · exact h
  · split
    · exact h5
    · split
      · with_reducible apply setRaise_kept
        exact h5
      · exact kept_same h6 rfl rfl

theorem osfSet_kept {pq : List Instr} (s : State) (cause : Nat) (h : Kept pq s) : Kept pq (osfSet s cause) := by
  unfold osfSet
  with_reducible apply setFs_kept
  exact h

theorem execCalOscStop_kept {pq : List Instr} (s : State) (h : Kept pq s) :
    ∃ s', execCalOscStop s = .next s' ∧ Kept pq s' := by
  unfold execCalOscStop
  refine ⟨_, rfl, ?_⟩
  extract_lets +lift a1
  split
  · exact h
  · with_reducible apply osfSet_kept
    exact kept_same h rfl rfl

theorem execLbfClear_kept {pq : List Instr} (mv : Nat) (s : State) (h : Kept pq s) :
    ∃ s', execLbfClear mv s = .next s' ∧ Kept pq s' := by
  unfold execLbfClear
  refine ⟨_, rfl, ?_⟩
  extract_lets +lift a1
  split
  · with_reducible apply lbfClear_kept
    exact kept_same h rfl rfl
  · exact h

theorem seed_kept {pq : List Instr} (s : State) (h : Kept pq s) : Kept pq (seed s) := by
  unfold seed
  extract_lets +lift a1 a2 a3 a4
  have h5 : Kept pq a3 := by
      unfold a3
      exact kept_same h rfl rfl
  clear_value a3
  have h6 : Kept pq a4 := by
      unfold a4
      split
      · with_reducible apply setLeapAt_kept
        exact h5
      · exact h5
  clear_value a4
  split
  · exact h6
  · with_reducible apply setFs_kept
    exact h6

theorem execSeedTimeout_kept {pq : List Instr} (s : State) (h : Kept pq s) :
    ∃ s', execSeedTimeout s = .next s' ∧ Kept pq s' := by
  unfold execSeedTimeout
  refine ⟨_, rfl, ?_⟩
  extract_lets +lift a1
  split
  · with_reducible apply seed_kept
    exact kept_same h rfl rfl
  · exact h

theorem calAlarm_kept {pq : List Instr} (s : State) (h : Kept pq s) : Kept pq (calAlarm s) := by
  unfold calAlarm
  split
  · dsimp only
    split
    · exact wakeSource_kept _ _ (pulse_kept _ _ (setF_kept _ _ _ h))
    · exact setF_kept _ _ _ h
  · exact h

theorem d0PowerUp_kept {pq : List Instr} (s : State) (h : Kept pq s) : Kept pq (d0PowerUp s) := by
  unfold d0PowerUp
  extract_lets +lift a1 a2
  have h3 : Kept pq a1 := by
      unfold a1
      with_reducible apply clearDomains_kept
      exact h
  clear_value a1
  exact kept_sp h3 rfl ⟨swf_filter _ (kept_bits h3 :), swf_filter _ (kept_words h3 :), (kept_planeB h3 :), (kept_planeW h3 :)⟩

theorem execCalTimeRead_kept {pq : List Instr} (who : Nat) (s : State) (h : Kept pq s) :
    ∃ s', execCalTimeRead who s = .next s' ∧ Kept pq s' := by
  unfold execCalTimeRead
  refine ⟨_, rfl, ?_⟩
  split
  · with_reducible apply calTimeRead_kept
    exact h
  · exact h

theorem calTickD1_kept {pq : List Instr} (stamp : Nat) (s : State) (h : Kept pq s) : Kept pq (calTickD1 stamp s) := by
  unfold calTickD1
  extract_lets +lift a1 a2 a3 a4 a5 a6 a7 a8
  have h9 : Kept pq a3 := by
      unfold a3
      exact kept_same h rfl rfl
  clear_value a3
  have h10 : Kept pq a4 := by
      unfold a4
      split
      · with_reducible apply seed_kept
        exact h9
      · exact h9
  clear_value a4
  have h11 : Kept pq a8 := by
      unfold a8
      exact kept_same h10 rfl rfl
  clear_value a8
  split
  · split
    · exact h11
    · clear_value a5
      clear_value a6
      split
      · split
        · with_reducible apply calJudge_kept
          exact h11
        · with_reducible apply calJudge_kept
          exact h11
      · with_reducible apply calJudge_kept
        exact h11
  · exact h

theorem execCalSecondTick_kept {pq : List Instr} (stamp : Nat) (s : State) (h : Kept pq s) :
    ∃ s', execCalSecondTick stamp s = .next s' ∧ Kept pq s' := by
  unfold execCalSecondTick
  refine ⟨_, rfl, ?_⟩
  split
  · exact h
  · have hc : ∀ x : State, Kept pq x → Kept pq { x with cal := { x.cal with running := true } } := fun x hx => kept_same hx rfl rfl
    refine calTickD1_kept _ _ (calAlarm_kept _ (hc _ ?_))
    split
    · with_reducible apply setF_kept
      with_reducible apply osfSet_kept
      with_reducible apply calLoad_kept
      exact h
    · with_reducible apply calLoad_kept
      exact h

theorem execCalSet_kept {pq : List Instr} (who : Nat) (dbg : Bool) (s : State) (h : Kept pq s) :
    ∃ s', execCalSet who dbg s = .next s' ∧ Kept pq s' := by
  unfold execCalSet
  refine ⟨_, rfl, ?_⟩
  split
  · split
    · rename_i x1 x2 x3
      have h4 : Kept pq x2 := by
          refine kept_pair x3 ?_
          with_reducible apply calSet_kept
          exact h
      exact h4
    · rename_i x5 x6 x7
      have h8 : Kept pq x6 := by
          refine kept_pair x7 ?_
          with_reducible apply calSet_kept
          exact h
      split
      · with_reducible apply accErr_kept
        exact h8
      · exact h8
  · exact h

theorem updPtp_kept {pq : List Instr} (s : State) (p : Nat) (f : PtpPort → PtpPort) (h : Kept pq s) : Kept pq (updPtp s p f) := by
  unfold updPtp
  exact kept_same h rfl rfl

theorem checkDisagree_kept {pq : List Instr} (s : State) (h : Kept pq s) : Kept pq (checkDisagree s) := by
  unfold checkDisagree
  extract_lets +lift a1 a2 a3
  have h4 : Kept pq a3 := by
      unfold a3
      exact kept_same h rfl rfl
  clear_value a3
  split
  · split
    · with_reducible apply setF_kept
      exact h4
    · with_reducible apply setRaise_kept
      exact h4
  · exact h4

theorem stepClock_kept {pq : List Instr} (s : State) (off : ℤ) (h : Kept pq s) : Kept pq (stepClock s off) := by
  unfold stepClock
  extract_lets +lift a1 a2 a3
  have h4 : Kept pq a3 := by
      unfold a3
      exact kept_same h rfl rfl
  clear_value a3
  with_reducible apply setRaise_kept
  exact h4

theorem slew_kept {pq : List Instr} (s : State) (h : Kept pq s) : Kept pq (slew s) := by
  unfold slew
  split
  · rename_i x1 x2 x3 x4
    have h5 : Kept pq x3 := by
        refine kept_pair x4 ?_
        with_reducible apply drawFree_kept
        exact h
    extract_lets +lift a6
    with_reducible apply setFs_kept
    exact h5

theorem setUnc_kept {pq : List Instr} (s : State) (unc : Nat) (h : Kept pq s) : Kept pq (setUnc s unc) := by
  unfold setUnc
  extract_lets +lift a1
  with_reducible apply setFs_kept
  exact h

theorem correct_kept {pq : List Instr} (s : State) (n : Nat) (off : ℤ) (h : Kept pq s) : Kept pq (correct s n off) := by
  unfold correct
  extract_lets +lift a1
  have h2 : Kept pq a1 := by
      unfold a1
      split
      · with_reducible apply stepClock_kept
        exact h
      · with_reducible apply slew_kept
        exact h
  clear_value a1
  with_reducible apply setUnc_kept
  exact h2

theorem measured_kept {pq : List Instr} (s : State) (n : Nat) (off : ℤ) (h : Kept pq s) : Kept pq (measured s n off) := by
  unfold measured
  extract_lets +lift a1 a2 a3 a4 a5
  have h6 : Kept pq a2 := by
      unfold a2
      with_reducible apply setF_kept
      exact h
  clear_value a2
  have h7 : Kept pq a4 := by
      unfold a4
      exact kept_same h6 rfl rfl
  clear_value a4
  have h8 : Kept pq a5 := by
      unfold a5
      with_reducible apply checkDisagree_kept
      exact h7
  clear_value a5
  split
  · with_reducible apply correct_kept
    exact h8
  · exact h8

theorem changeActive_kept {pq : List Instr} (s : State) (n : Nat) (h : Kept pq s) : Kept pq (changeActive s n) := by
  unfold changeActive
  extract_lets +lift a1 a2 a3 a4 a5 a6
  have h7 : Kept pq a1 := by
      unfold a1
      with_reducible apply kept_foldl
      · exact h
      · intro v8 v9 v10
        with_reducible apply setF_kept
        exact v10
  clear_value a1
  have h11 : Kept pq a3 := by
      unfold a3
      split
      · exact kept_same h7 rfl rfl
      · exact h7
  clear_value a3
  have h12 : Kept pq a4 := by
      unfold a4
      with_reducible apply setFs_kept
      exact h11
  clear_value a4
  have h13 : Kept pq a6 := by
      unfold a6
      split
      · exact kept_same h12 rfl rfl
      · exact h12
  clear_value a6
  split
  · exact h
  · with_reducible apply note_kept
    exact h13

theorem reselect_kept {pq : List Instr} (s : State) (h : Kept pq s) : Kept pq (reselect s) := by
  unfold reselect
  extract_lets +lift a1 a2 a3
  split
  · exact h
  · split
    · split
      · exact h
      · with_reducible apply changeActive_kept
        exact h
    · split
      · exact h
      · with_reducible apply changeActive_kept
        exact h

theorem setValidSrc_kept {pq : List Instr} (s : State) (n : Nat) (v : Bool) (h : Kept pq s) : Kept pq (setValidSrc s n v) := by
  unfold setValidSrc
  extract_lets +lift a1
  have h2 : Kept pq a1 := by
      unfold a1
      with_reducible apply setF_kept
      exact h
  clear_value a1
  split
  · exact h2
  · with_reducible apply checkDisagree_kept
    with_reducible apply reselect_kept
    with_reducible apply setF_kept
    exact h2

theorem ptpJudge_kept {pq : List Instr} (s : State) (p : Nat) (h : Kept pq s) : Kept pq (ptpJudge s p) := by
  unfold ptpJudge
  extract_lets +lift a1
  with_reducible apply setValidSrc_kept
  exact h

theorem ptpOffset_kept {pq : List Instr} (s : State) (p : Nat) (origin : Nat) (corr : ℤ) (stamp : Nat) (h : Kept pq s) : Kept pq (ptpOffset s p origin corr stamp) := by
  unfold ptpOffset
  extract_lets +lift a1
  have h2 : Kept pq a1 := by
      unfold a1
      with_reducible apply ptpJudge_kept
      with_reducible apply updPtp_kept
      exact h
  clear_value a1
  split
  · with_reducible apply measured_kept
    exact h2
  · exact h2

theorem plbAdvance_kept {pq : List Instr} (s : State) (h : Kept pq s) : Kept pq (plbAdvance s) := by
  unfold plbAdvance
  extract_lets +lift a1 a2
  split
  · exact kept_same h rfl rfl
  · exact h

theorem execPlumbCycleWrap_kept {pq : List Instr} (s : State) (h : Kept pq s) :
    ∃ s', execPlumbCycleWrap s = .next s' ∧ Kept pq s' := by
  unfold execPlumbCycleWrap
  refine ⟨_, rfl, ?_⟩
  split
  · with_reducible apply plbAdvance_kept
    exact h
  · exact h

theorem leapPending_kept {pq : List Instr} (s : State) (h : Kept pq s) : Kept pq (leapPending s) := by
  unfold leapPending
  extract_lets +lift a1
  with_reducible apply setF_kept
  split
  · with_reducible apply setLeapAt_kept
    exact h
  · exact h

theorem loadLeap_kept {pq : List Instr} (s : State) (l61 : Bool) (l59 : Bool) (h : Kept pq s) : Kept pq (loadLeap s l61 l59) := by
  unfold loadLeap
  split
  · exact h
  · with_reducible apply leapPending_kept
    with_reducible apply setFs_kept
    exact h

theorem execTimNowShRead_kept {pq : List Instr} (who : Nat) (s : State) (h : Kept pq s) :
    ∃ s', execTimNowShRead who s = .next s' ∧ Kept pq s' := by
  unfold execTimNowShRead
  refine ⟨_, rfl, ?_⟩
  split
  · with_reducible apply setLatch_kept
    exact h
  · exact h

theorem ownStamp_kept {pq : List Instr} (s : State) (ahead : Nat) (h : Kept pq s) : Kept pq (ownStamp s ahead).2 := by
  unfold ownStamp
  split
  rename_i x1 x2 x3 x4
  have h5 : Kept pq x3 := by
      refine kept_pair x4 ?_
      with_reducible apply drawFree_kept
      exact h
  exact h5

theorem sendTimex_kept {pq : List Instr} (s : State) (x : Timex) (h : Kept pq s) : Kept pq (sendTimex s x) := by
  unfold sendTimex
  exact kept_same h rfl rfl

theorem setSrcUnc_kept {pq : List Instr} (s : State) (n : Nat) (unc : Nat) (h : Kept pq s) : Kept pq (setSrcUnc s n unc) := by
  unfold setSrcUnc
  extract_lets +lift a1 a2
  have h3 : Kept pq a2 := by
      unfold a2
      with_reducible apply setF_kept
      exact kept_same h rfl rfl
  clear_value a2
  split
  · with_reducible apply reselect_kept
    exact h3
  · exact h3

theorem execSblTimexRx_kept {pq : List Instr} (x : Timex) (s : State) (h : Kept pq s) :
    ∃ s', execSblTimexRx x s = .next s' ∧ Kept pq s' := by
  unfold execSblTimexRx
  refine ⟨_, rfl, ?_⟩
  extract_lets +lift a1 a2 a3
  have h4 : Kept pq a3 := by
      unfold a3
      with_reducible apply setSrcUnc_kept
      exact kept_same h rfl rfl
  clear_value a3
  split
  · exact h
  · split
    · split
      rename_i x5 x6 x7 x8
      have h9 : Kept pq x7 := by
          refine kept_pair x8 ?_
          with_reducible apply ownStamp_kept
          exact h
      split
      rename_i x10 x11 x12 x13
      have h14 : Kept pq x12 := by
          refine kept_pair x13 ?_
          with_reducible apply drawFree_kept
          exact h9
      with_reducible apply sendTimex_kept
      exact h14
    · split
      · exact h
      · extract_lets +lift a15 a16 a17
        have h18 : Kept pq a17 := by
            unfold a17
            with_reducible apply setFs_kept
            exact h4
        clear_value a17
        split
        · exact h
        · split
          · with_reducible apply measured_kept
            with_reducible apply setValidSrc_kept
            exact h18
          · with_reducible apply setValidSrc_kept
            exact h18

theorem plbPhase_kept {pq : List Instr} (s : State) (ws : List TWord) (age : Nat) (h : Kept pq s) : Kept pq (plbPhase s ws age).2.2 := by
  unfold plbPhase
  extract_lets +lift a1 a2 a3 a4 a5 a6
  dsimp only
  exact kept_same h rfl rfl

theorem plbOut_kept {pq : List Instr} (s : State) (age : Nat) (h : Kept pq s) : Kept pq (plbOut s age) := by
  unfold plbOut
  extract_lets +lift a1 a2 a3 a4
  have h5 : Kept pq a2 := by
      unfold a2
      with_reducible apply writeWord_kept
      exact h
  clear_value a2
  have h6 : Kept pq a3 := by
      unfold a3
      with_reducible apply writeWord_kept
      exact h5
  clear_value a3
  have h7 : Kept pq a4 := by
      unfold a4
      with_reducible apply writeWord_kept
      exact h6
  clear_value a4
  split
  · exact h
  · with_reducible apply writeWord_kept
    exact h7

theorem plbRange_kept {pq : List Instr} (s : State) (rocof : Int) (h : Kept pq s) : Kept pq (plbRange s rocof) := by
  unfold plbRange
  extract_lets +lift a1 a2 a3 a4 a5 a6 a7 a8 a9
  split
  · exact h
  · with_reducible apply setF_kept
    exact kept_same h rfl rfl

theorem plbClose_kept {pq : List Instr} (s : State) (good : Bool) (h : Kept pq s) : Kept pq (plbClose s good) := by
  unfold plbClose
  extract_lets +lift a1 a2 a3 a4 a5 a6
  have h7 : Kept pq a2 := by
      unfold a2
      split
      · with_reducible apply plbRange_kept
        exact h
      · exact h
  clear_value a2
  have h8 : Kept pq a5 := by
      unfold a5
      split
      · with_reducible apply setF_kept
        exact h7
      · with_reducible apply setF_kept
        exact h7
  clear_value a5
  exact kept_same h8 rfl rfl

theorem plbGood_kept {pq : List Instr} (s : State) (est : Nat) (corr : Nat) (perr : Int) (h : Kept pq s) : Kept pq (plbGood s est corr perr) := by
  unfold plbGood
  extract_lets +lift a1 a2 a3 a4 a5 a6 a7
  have h8 : Kept pq a4 := by
      unfold a4
      with_reducible apply setFs_kept
      exact h
  clear_value a4
  have h9 : Kept pq a6 := by
      unfold a6
      exact kept_same h8 rfl rfl
  clear_value a6
  have h10 : Kept pq a7 := by
      unfold a7
      with_reducible apply plbClose_kept
      exact h9
  clear_value a7
  split
  · with_reducible apply setFs_kept
    exact h10
  · exact h10

theorem plbLost_kept {pq : List Instr} (s : State) (h : Kept pq s) : Kept pq (plbLost s) := by
  unfold plbLost
  extract_lets +lift a1 a2
  have h3 : Kept pq a1 := by
      unfold a1
      with_reducible apply setFs_kept
      exact h
  clear_value a1
  with_reducible apply setRaise_kept
  exact kept_same h3 rfl rfl

theorem plbBad_kept {pq : List Instr} (s : State) (h : Kept pq s) : Kept pq (plbBad s) := by
  unfold plbBad
  extract_lets +lift a1 a2
  have h3 : Kept pq a2 := by
      unfold a2
      with_reducible apply plbClose_kept
      exact kept_same h rfl rfl
  clear_value a2
  split
  · with_reducible apply plbLost_kept
    exact h3
  · exact h3

theorem plbUpdate_kept {pq : List Instr} (s : State) (ws : List TWord) (good : Bool) (age : Nat) (h : Kept pq s) : Kept pq (plbUpdate s ws good age) := by
  unfold plbUpdate
  split
  · exact h
  · split
    rename_i x1 x2 x3 x4 x5
    have h6 : Kept pq x4 := by
        refine kept_trip x5 ?_
        with_reducible apply plbPhase_kept
        exact h
    extract_lets +lift a7 a8 a9
    with_reducible apply plbOut_kept
    split
    · with_reducible apply plbGood_kept
      exact h6
    · with_reducible apply plbBad_kept
      exact h6

theorem irigBad_kept {pq : List Instr} (s : State) (h : Kept pq s) : Kept pq (irigBad s) := by
  unfold irigBad
  with_reducible apply setValidSrc_kept
  exact kept_same h rfl rfl

theorem execIrigbFrame_kept {pq : List Instr} (f : IrigFrame) (s : State) (h : Kept pq s) :
    ∃ s', execIrigbFrame f s = .next s' ∧ Kept pq s' := by
  unfold execIrigbFrame
  refine ⟨_, rfl, ?_⟩
  extract_lets +lift a1 a2 a3 a4 a5 a6
  have h7 : Kept pq a2 := by
      unfold a2
      with_reducible apply setSrcUnc_kept
      exact h
  clear_value a2
  have h8 : Kept pq a4 := by
      unfold a4
      exact kept_same h7 rfl rfl
  clear_value a4
  have h9 : Kept pq a5 := by
      unfold a5
      split
      · with_reducible apply setValidSrc_kept
        exact h8
      · exact h8
  clear_value a5
  have h10 : Kept pq a6 := by
      unfold a6
      split
      · with_reducible apply loadLeap_kept
        exact h9
      · exact h9
  clear_value a6
  split
  · exact h
  · split
    · with_reducible apply irigBad_kept
      exact h
    · split
      · with_reducible apply measured_kept
        exact h10
      · exact h10

theorem plbNote_kept {pq : List Instr} (s : State) (inst : Nat) (h : Kept pq s) : Kept pq (plbNote s inst) := by
  unfold plbNote
  extract_lets +lift a1
  exact kept_same h rfl rfl

theorem plbFixed_kept {pq : List Instr} (s : State) (h : Kept pq s) : Kept pq (plbFixed s) := by
  unfold plbFixed
  split
  · exact h
  · with_reducible apply setF_kept
    exact h

theorem plbNominal_kept {pq : List Instr} (s : State) (h : Kept pq s) : Kept pq (plbNominal s) := by
  unfold plbNominal
  with_reducible apply plbFixed_kept
  with_reducible apply setFs_kept
  exact h

theorem plbStart_kept {pq : List Instr} (s : State) (h : Kept pq s) : Kept pq (plbStart s) := by
  unfold plbStart
  with_reducible apply plbNominal_kept
  with_reducible apply setFs_kept
  exact kept_same h rfl rfl

theorem execPpsTimeout_kept {pq : List Instr} (s : State) (h : Kept pq s) :
    ∃ s', execPpsTimeout s = .next s' ∧ Kept pq s' := by
  unfold execPpsTimeout
  refine ⟨_, rfl, ?_⟩
  extract_lets +lift a1
  split
  · with_reducible apply setValidSrc_kept
    exact kept_same h rfl rfl
  · exact h

theorem execPtpTimeout_kept {pq : List Instr} (port : Nat) (announce : Bool) (s : State) (h : Kept pq s) :
    ∃ s', execPtpTimeout port announce s = .next s' ∧ Kept pq s' := by
  unfold execPtpTimeout
  refine ⟨_, rfl, ?_⟩
  split
  · exact h
  · with_reducible apply ptpJudge_kept
    with_reducible apply updPtp_kept
    exact h

theorem ptpDelay_kept {pq : List Instr} (s : State) (p : Nat) (trip : ℤ) (turn : ℤ) (h : Kept pq s) : Kept pq (ptpDelay s p trip turn) := by
  unfold ptpDelay
  with_reducible apply setF_kept
  with_reducible apply updPtp_kept
  exact h

theorem execIrigbPositionMarkerMissing_kept {pq : List Instr} (s : State) (h : Kept pq s) :
    ∃ s', execIrigbPositionMarkerMissing s = .next s' ∧ Kept pq s' := by
  unfold execIrigbPositionMarkerMissing
  refine ⟨_, rfl, ?_⟩
  split
  · with_reducible apply irigBad_kept
    exact h
  · exact h

theorem clockNote_kept {pq : List Instr} (s : State) (h : Kept pq s) : Kept pq (clockNote s) := by
  unfold clockNote
  extract_lets +lift a1 a2
  split
  · exact h
  · exact kept_same h rfl rfl

theorem clockAdvance_kept {pq : List Instr} (s : State) (h : Kept pq s) : Kept pq (clockAdvance s) := by
  unfold clockAdvance
  extract_lets +lift a1 a2 a3 a4 a5 a6 a7 a8 a9
  have h10 : Kept pq a2 := by
      unfold a2
      split
      · exact kept_same h rfl rfl
      · exact h
  clear_value a2
  have h11 : Kept pq a3 := by
      unfold a3
      with_reducible apply plbAdvance_kept
      exact h10
  clear_value a3
  have h12 : Kept pq a5 := by
      unfold a5
      split
      · exact kept_same h11 rfl rfl
      · exact h11
  clear_value a5
  have h13 : Kept pq a7 := by
      unfold a7
      split
      · exact kept_same h12 rfl rfl
      · exact h12
  clear_value a7
  have h14 : Kept pq a8 := by
      unfold a8
      with_reducible apply clockNote_kept
      exact h13
  clear_value a8
  with_reducible apply sblTrain_kept
  exact kept_sp h14 rfl ⟨(kept_bits h14 :), (kept_words h14 :), (kept_planeB h14 :), (kept_planeW h14 :)⟩

theorem execHoldoverUpdate_kept {pq : List Instr} (s : State) (h : Kept pq s) :
    ∃ s', execHoldoverUpdate s = .next s' ∧ Kept pq s' := by
  unfold execHoldoverUpdate
  refine ⟨_, rfl, ?_⟩
  extract_lets +lift a1 a2 a3
  have h4 : Kept pq a3 := by
      unfold a3
      with_reducible apply setF_kept
      exact h
  clear_value a3
  split
  · split
    · with_reducible apply setF_kept
      exact h4
    · exact h4
  · exact h

theorem execPlbCycleRead_kept {pq : List Instr} (who : Nat) (s : State) (h : Kept pq s) :
    ∃ s', execPlbCycleRead who s = .next s' ∧ Kept pq s' := by
  unfold execPlbCycleRead
  refine ⟨_, rfl, ?_⟩
  split
  · with_reducible apply setLatch_kept
    exact h
  · exact h

theorem execSblTimexSend_kept {pq : List Instr} (s : State) (h : Kept pq s) :
    ∃ s', execSblTimexSend s = .next s' ∧ Kept pq s' := by
  unfold execSblTimexSend
  refine ⟨_, rfl, ?_⟩
  extract_lets +lift a1
  split
  · split
    rename_i x2 x3 x4 x5
    have h6 : Kept pq x4 := by
        refine kept_pair x5 ?_
        with_reducible apply ownStamp_kept
        exact h
    extract_lets +lift a7 a8
    have h9 : Kept pq a8 := by
        unfold a8
        exact kept_same h6 rfl rfl
    clear_value a8
    with_reducible apply sendTimex_kept
    exact h9
  · exact h

theorem execPpsEdge_kept {pq : List Instr} (edge : PpsEdge) (s : State) (h : Kept pq s) :
    ∃ s', execPpsEdge edge s = .next s' ∧ Kept pq s' := by
  unfold execPpsEdge
  refine ⟨_, rfl, ?_⟩
  extract_lets +lift a1 a2 a3 a4 a5 a6
  have h7 : Kept pq a5 := by
      unfold a5
      with_reducible apply setSrcUnc_kept
      exact kept_same h rfl rfl
  clear_value a5
  have h8 : Kept pq a6 := by
      unfold a6
      split
      · with_reducible apply setValidSrc_kept
        exact h7
      · exact h7
  clear_value a6
  split
  · exact h
  · split
    · with_reducible apply measured_kept
      exact h8
    · exact h8

theorem execLeapSecond_kept {pq : List Instr} (s : State) (h : Kept pq s) :
    ∃ s', execLeapSecond s = .next s' ∧ Kept pq s' := by
  unfold execLeapSecond
  refine ⟨_, rfl, ?_⟩
  extract_lets +lift a1 a2 a3 a4
  have h5 : Kept pq a2 := by
      unfold a2
      with_reducible apply setF_kept
      exact h
  clear_value a2
  have h6 : Kept pq a3 := by
      unfold a3
      with_reducible apply leapPending_kept
      with_reducible apply setFs_kept
      exact h5
  clear_value a3
  split
  · exact kept_same h6 rfl rfl
  · exact h

theorem ptpAnnounce_kept {pq : List Instr} (s : State) (p : Nat) (m : PtpMsg) (h : Kept pq s) : Kept pq (ptpAnnounce s p m) := by
  unfold ptpAnnounce
  extract_lets +lift a1 a2 a3 a4 a5
  have h6 : Kept pq a3 := by
      unfold a3
      with_reducible apply updPtp_kept
      exact h
  clear_value a3
  have h7 : Kept pq a4 := by
      unfold a4
      with_reducible apply setSrcUnc_kept
      with_reducible apply setF_kept
      exact h6
  clear_value a4
  have h8 : Kept pq a5 := by
      unfold a5
      with_reducible apply ptpJudge_kept
      exact h7
  clear_value a5
  split
  · split
    · with_reducible apply loadLeap_kept
      with_reducible apply setF_kept
      exact h8
    · exact h8
  · exact h8

theorem execSourceQualified_kept {pq : List Instr} (n : Nat) (s : State) (h : Kept pq s) :
    ∃ s', execSourceQualified n s = .next s' ∧ Kept pq s' := by
  unfold execSourceQualified
  refine ⟨_, rfl, ?_⟩
  split
  · with_reducible apply checkDisagree_kept
    with_reducible apply reselect_kept
    with_reducible apply setF_kept
    exact h
  · exact h

theorem execSblTimexTimeout_kept {pq : List Instr} (s : State) (h : Kept pq s) :
    ∃ s', execSblTimexTimeout s = .next s' ∧ Kept pq s' := by
  unfold execSblTimexTimeout
  refine ⟨_, rfl, ?_⟩
  extract_lets +lift a1
  split
  · exact h
  · with_reducible apply setValidSrc_kept
    exact kept_same h rfl rfl

theorem execPlumbSampleTimeout_kept {pq : List Instr} (s : State) (h : Kept pq s) :
    ∃ s', execPlumbSampleTimeout s = .next s' ∧ Kept pq s' := by
  unfold execPlumbSampleTimeout
  refine ⟨_, rfl, ?_⟩
  split
  · with_reducible apply plbLost_kept
    exact h
  · exact h

theorem execSourceSwitch_kept {pq : List Instr} (n : Nat) (s : State) (h : Kept pq s) :
    ∃ s', execSourceSwitch n s = .next s' ∧ Kept pq s' := by
  unfold execSourceSwitch
  refine ⟨_, rfl, ?_⟩
  split
  · with_reducible apply changeActive_kept
    exact h
  · exact h

theorem plbRestart_kept {pq : List Instr} (s : State) (h : Kept pq s) : Kept pq (plbRestart s) := by
  unfold plbRestart
  extract_lets +lift a1 a2
  have h3 : Kept pq a2 := by
      unfold a2
      with_reducible apply setF_kept
      exact kept_same h rfl rfl
  clear_value a2
  split
  · with_reducible apply setFs_kept
    exact h3
  · exact h3

end Sys2Proof.Machine
end

