-- ==== Sys2Proof/Laws/KeptPlanes.lean ====
section
/-! SUPPORT. What keeps the memories canonical and the queue: the companion, the hub, the egress ports, the reports, the library runs, the tasks and the units. -/

set_option linter.unusedVariables false

namespace Sys2Proof.Machine

open Reg

theorem updCpn_kept {pq : List Instr} (s : State) (k : Nat) (f : CpnSt → CpnSt) (h : Kept pq s) : Kept pq (updCpn s k f) := by
  unfold updCpn
  exact kept_same h rfl rfl

theorem execCapArm_kept {pq : List Instr} (k : Nat) (link : Nat) (chs : Nat) (s : State) (h : Kept pq s) :
    ∃ s', execCapArm k link chs s = .next s' ∧ Kept pq s' := by
  unfold execCapArm
  refine ⟨_, rfl, ?_⟩
  with_reducible apply updCpn_kept
  exact h

theorem execOutCurrentLimit_kept {pq : List Instr} (k : Nat) (out : Nat) (on : Bool) (s : State) (h : Kept pq s) :
    ∃ s', execOutCurrentLimit k out on s = .next s' ∧ Kept pq s' := by
  unfold execOutCurrentLimit
  refine ⟨_, rfl, ?_⟩
  with_reducible apply updCpn_kept
  exact h

theorem execOvfClear_kept {pq : List Instr} (k : Nat) (link : Nat) (chs : Nat) (s : State) (h : Kept pq s) :
    ∃ s', execOvfClear k link chs s = .next s' ∧ Kept pq s' := by
  unfold execOvfClear
  refine ⟨_, rfl, ?_⟩
  with_reducible apply updCpn_kept
  exact h

theorem execOutThermalRestart_kept {pq : List Instr} (k : Nat) (out : Nat) (s : State) (h : Kept pq s) :
    ∃ s', execOutThermalRestart k out s = .next s' ∧ Kept pq s' := by
  unfold execOutThermalRestart
  refine ⟨_, rfl, ?_⟩
  with_reducible apply updCpn_kept
  exact h

theorem execOutThermalShutdown_kept {pq : List Instr} (k : Nat) (out : Nat) (s : State) (h : Kept pq s) :
    ∃ s', execOutThermalShutdown k out s = .next s' ∧ Kept pq s' := by
  unfold execOutThermalShutdown
  refine ⟨_, rfl, ?_⟩
  with_reducible apply updCpn_kept
  exact h

theorem execCaptureEdge_kept {pq : List Instr} (k : Nat) (c : Nat) (rise : Bool) (edge : Nat) (subA : Nat) (subB : Nat) (s : State) (h : Kept pq s) :
    ∃ s', execCaptureEdge k c rise edge subA subB s = .next s' ∧ Kept pq s' := by
  unfold execCaptureEdge
  refine ⟨_, rfl, ?_⟩
  with_reducible apply updCpn_kept
  exact h

theorem execFreqNosigTimeout_kept {pq : List Instr} (k : Nat) (c : Nat) (s : State) (h : Kept pq s) :
    ∃ s', execFreqNosigTimeout k c s = .next s' ∧ Kept pq s' := by
  unfold execFreqNosigTimeout
  refine ⟨_, rfl, ?_⟩
  with_reducible apply updCpn_kept
  exact h

theorem execBarrierDownFrame_kept {pq : List Instr} (k : Nat) (good : Bool) (s : State) (h : Kept pq s) :
    ∃ s', execBarrierDownFrame k good s = .next s' ∧ Kept pq s' := by
  unfold execBarrierDownFrame
  refine ⟨_, rfl, ?_⟩
  with_reducible apply updCpn_kept
  exact h

theorem execCpnLossSlot_kept {pq : List Instr} (k : Nat) (link : Nat) (s : State) (h : Kept pq s) :
    ∃ s', execCpnLossSlot k link s = .next s' ∧ Kept pq s' := by
  unfold execCpnLossSlot
  refine ⟨_, rfl, ?_⟩
  with_reducible apply updCpn_kept
  exact h

theorem execCpnReset_kept {pq : List Instr} (k : Nat) (s : State) (h : Kept pq s) :
    ∃ s', execCpnReset k s = .next s' ∧ Kept pq s' := by
  unfold execCpnReset
  refine ⟨_, rfl, ?_⟩
  with_reducible apply updCpn_kept
  exact h

theorem execRawInputChange_kept {pq : List Instr} (k : Nat) (c : Nat) (level : Bool) (s : State) (h : Kept pq s) :
    ∃ s', execRawInputChange k c level s = .next s' ∧ Kept pq s' := by
  unfold execRawInputChange
  refine ⟨_, rfl, ?_⟩
  with_reducible apply updCpn_kept
  exact h

theorem execFastLatchTimeout_kept {pq : List Instr} (k : Nat) (out : Nat) (s : State) (h : Kept pq s) :
    ∃ s', execFastLatchTimeout k out s = .next s' ∧ Kept pq s' := by
  unfold execFastLatchTimeout
  refine ⟨_, rfl, ?_⟩
  with_reducible apply updCpn_kept
  exact h

theorem execCntLatch_kept {pq : List Instr} (k : Nat) (link : Nat) (s : State) (h : Kept pq s) :
    ∃ s', execCntLatch k link s = .next s' ∧ Kept pq s' := by
  unfold execCntLatch
  refine ⟨_, rfl, ?_⟩
  with_reducible apply updCpn_kept
  exact h

theorem execCpnMgmtRead_kept {pq : List Instr} (k : Nat) (link : Nat) (addr : Nat) (s : State) (h : Kept pq s) :
    ∃ s', execCpnMgmtRead k link addr s = .next s' ∧ Kept pq s' := by
  unfold execCpnMgmtRead
  refine ⟨_, rfl, ?_⟩
  with_reducible apply updCpn_kept
  exact h

theorem execCpnMgmtWrite_kept {pq : List Instr} (k : Nat) (link : Nat) (addr : Nat) (data : Nat) (s : State) (h : Kept pq s) :
    ∃ s', execCpnMgmtWrite k link addr data s = .next s' ∧ Kept pq s' := by
  unfold execCpnMgmtWrite
  refine ⟨_, rfl, ?_⟩
  with_reducible apply updCpn_kept
  exact h

theorem execCpnFastFrameRx_kept {pq : List Instr} (k : Nat) (link : Nat) (set : Nat) (clr : Nat) (epoch : Nat) (crcOk : Bool) (s : State) (h : Kept pq s) :
    ∃ s', execCpnFastFrameRx k link set clr epoch crcOk s = .next s' ∧ Kept pq s' := by
  unfold execCpnFastFrameRx
  refine ⟨_, rfl, ?_⟩
  with_reducible apply updCpn_kept
  exact h

theorem execFailHoldTimeout_kept {pq : List Instr} (k : Nat) (s : State) (h : Kept pq s) :
    ∃ s', execFailHoldTimeout k s = .next s' ∧ Kept pq s' := by
  unfold execFailHoldTimeout
  refine ⟨_, rfl, ?_⟩
  with_reducible apply updCpn_kept
  exact h

theorem execCpnAnswerSend_kept {pq : List Instr} (k : Nat) (link : Nat) (s : State) (h : Kept pq s) :
    ∃ s', execCpnAnswerSend k link s = .next s' ∧ Kept pq s' := by
  unfold execCpnAnswerSend
  refine ⟨_, rfl, ?_⟩
  with_reducible apply updCpn_kept
  exact h

theorem execCpnFrameRx_kept {pq : List Instr} (k : Nat) (link : Nat) (f : DnFrame) (good : Bool) (s : State) (h : Kept pq s) :
    ∃ s', execCpnFrameRx k link f good s = .next s' ∧ Kept pq s' := by
  unfold execCpnFrameRx
  refine ⟨_, rfl, ?_⟩
  with_reducible apply updCpn_kept
  exact h

theorem execFieldUvChange_kept {pq : List Instr} (k : Nat) (mv : Nat) (s : State) (h : Kept pq s) :
    ∃ s', execFieldUvChange k mv s = .next s' ∧ Kept pq s' := by
  unfold execFieldUvChange
  refine ⟨_, rfl, ?_⟩
  with_reducible apply updCpn_kept
  exact h

theorem execCntClear_kept {pq : List Instr} (k : Nat) (link : Nat) (chs : Nat) (s : State) (h : Kept pq s) :
    ∃ s', execCntClear k link chs s = .next s' ∧ Kept pq s' := by
  unfold execCntClear
  refine ⟨_, rfl, ?_⟩
  with_reducible apply updCpn_kept
  exact h

theorem execTsdClear_kept {pq : List Instr} (k : Nat) (link : Nat) (outs : Nat) (s : State) (h : Kept pq s) :
    ∃ s', execTsdClear k link outs s = .next s' ∧ Kept pq s' := by
  unfold execTsdClear
  refine ⟨_, rfl, ?_⟩
  with_reducible apply updCpn_kept
  exact h

theorem execBarrierUpFrame_kept {pq : List Instr} (k : Nat) (good : Bool) (s : State) (h : Kept pq s) :
    ∃ s', execBarrierUpFrame k good s = .next s' ∧ Kept pq s' := by
  unfold execBarrierUpFrame
  refine ⟨_, rfl, ?_⟩
  with_reducible apply updCpn_kept
  exact h

theorem execDebouncedEdge_kept {pq : List Instr} (k : Nat) (c : Nat) (subA : Nat) (subB : Nat) (s : State) (h : Kept pq s) :
    ∃ s', execDebouncedEdge k c subA subB s = .next s' ∧ Kept pq s' := by
  unfold execDebouncedEdge
  refine ⟨_, rfl, ?_⟩
  with_reducible apply updCpn_kept
  exact h

theorem execFastRelease_kept {pq : List Instr} (k : Nat) (link : Nat) (outs : Nat) (s : State) (h : Kept pq s) :
    ∃ s', execFastRelease k link outs s = .next s' ∧ Kept pq s' := by
  unfold execFastRelease
  refine ⟨_, rfl, ?_⟩
  with_reducible apply updCpn_kept
  exact h

theorem execSettlingEnd_kept {pq : List Instr} (k : Nat) (c : Nat) (s : State) (h : Kept pq s) :
    ∃ s', execSettlingEnd k c s = .next s' ∧ Kept pq s' := by
  unfold execSettlingEnd
  refine ⟨_, rfl, ?_⟩
  with_reducible apply updCpn_kept
  exact h

theorem execApply_kept {pq : List Instr} (k : Nat) (link : Nat) (s : State) (h : Kept pq s) :
    ∃ s', execApply k link s = .next s' ∧ Kept pq s' := by
  unfold execApply
  refine ⟨_, rfl, ?_⟩
  with_reducible apply updCpn_kept
  exact h

theorem execCounterEdge_kept {pq : List Instr} (k : Nat) (c : Nat) (rise : Bool) (s : State) (h : Kept pq s) :
    ∃ s', execCounterEdge k c rise s = .next s' ∧ Kept pq s' := by
  unfold execCounterEdge
  refine ⟨_, rfl, ?_⟩
  with_reducible apply updCpn_kept
  exact h

theorem execFreqMeasurementClose_kept {pq : List Instr} (k : Nat) (c : Nat) (periods : Nat) (ticks : Nat) (s : State) (h : Kept pq s) :
    ∃ s', execFreqMeasurementClose k c periods ticks s = .next s' ∧ Kept pq s' := by
  unfold execFreqMeasurementClose
  refine ⟨_, rfl, ?_⟩
  with_reducible apply updCpn_kept
  exact h

theorem updHub_kept {pq : List Instr} (s : State) (k : Nat) (f : HubPort → HubPort) (h : Kept pq s) : Kept pq (updHub s k f) := by
  unfold updHub
  exact kept_same h rfl rfl

theorem hubRetry_kept {pq : List Instr} (s : State) (k : Nat) (o : Mgmt) (h : Kept pq s) : Kept pq (hubRetry s k o) := by
  unfold hubRetry
  extract_lets +lift a1
  have h2 : Kept pq a1 := by
      unfold a1
      with_reducible apply incStop_kept
      exact h
  clear_value a1
  split
  · exact h
  · split
    · with_reducible apply updHub_kept
      exact h
    · split
      · with_reducible apply updHub_kept
        exact h2
      · exact h2

theorem putBitF_kept {pq : List Instr} (s : State) (f : Fld) (i : Nat) (v : Bool) (h : Kept pq s) : Kept pq (putBitF s f i v) := by
  unfold putBitF
  extract_lets +lift a1
  split
  · exact h
  · with_reducible apply setF_kept
    exact h

theorem hubSendOne_kept {pq : List Instr} (s : State) (n : Nat) (k : Nat) (h : Kept pq s) : Kept pq (hubSendOne s n k) := by
  unfold hubSendOne
  split
  · exact h
  · split
    · extract_lets +lift a1 a2 a3 a4 a5
      have h6 : Kept pq a3 := by
          unfold a3
          with_reducible apply updHub_kept
          exact h
      clear_value a3
      have h7 : Kept pq a4 := by
          unfold a4
          with_reducible apply putBitF_kept
          exact h6
      clear_value a4
      exact kept_same h7 rfl rfl

theorem putStamp_kept {pq : List Instr} (s : State) (a : Nat) (tai : Nat) (h : Kept pq s) : Kept pq (putStamp s a tai) := by
  unfold putStamp
  split
  · with_reducible apply writeWord_kept
    with_reducible apply writeWord_kept
    exact h

theorem inputEvt_kept {pq : List Instr} (s : State) (k : Nat) (n : Nat) (ev : EvtField) (h : Kept pq s) : Kept pq (inputEvt s k n ev) := by
  unfold inputEvt
  extract_lets +lift a1 a2 a3
  have h4 : Kept pq a3 := by
      unfold a3
      with_reducible apply incWrap_kept
      exact h
  clear_value a3
  split
  · exact h
  · extract_lets +lift a5 a6
    have h7 : Kept pq a5 := by
        unfold a5
        split
        · with_reducible apply wakeSource_kept
          exact h4
        · exact h4
    clear_value a5
    split
    · split
      · with_reducible apply incStop_kept
        exact h7
      · split
        · with_reducible apply putStamp_kept
          exact h7
        · exact h7
    · split
      · clear_value a2
        clear_value a6
        dsimp only
        with_reducible apply writeWord_kept
        with_reducible apply putStamp_kept
        with_reducible apply readWord_kept
        exact h7
      · split
        · with_reducible apply putBitF_kept
          exact h7
        · exact h7
  · extract_lets +lift a8
    dsimp only
    split
    · split
      · with_reducible apply writeWord_kept
        with_reducible apply updHub_kept
        with_reducible apply setF_kept
        exact h
      · with_reducible apply updHub_kept
        with_reducible apply setF_kept
        exact h
    · split
      · split
        · with_reducible apply writeWord_kept
          with_reducible apply updHub_kept
          with_reducible apply setF_kept
          exact h
        · with_reducible apply updHub_kept
          with_reducible apply setF_kept
          exact h
      · with_reducible apply setFs_kept
        exact h

theorem hubPop_kept {pq : List Instr} (s : State) (k : Nat) (h : Kept pq s) : Kept pq (hubPop s k).2 := by
  unfold hubPop
  split
  · dsimp only
    with_reducible apply updHub_kept
    exact h
  · dsimp only
    exact h

theorem hubMirror_kept {pq : List Instr} (s : State) (k : Nat) (a : UpFrame) (h : Kept pq s) : Kept pq (hubMirror s k a) := by
  unfold hubMirror
  extract_lets +lift a1
  with_reducible apply setFs_kept
  exact h

theorem hubOp_kept {pq : List Instr} (s : State) (k : Nat) (mop : Nat) (addr : Nat) (data : Nat) (cls : Nat) (h : Kept pq s) : Kept pq (hubOp s k mop addr data cls) := by
  unfold hubOp
  with_reducible apply updHub_kept
  exact h

theorem hubShadow_kept {pq : List Instr} (s : State) (k : Nat) (words : List (Nat × Nat)) (h : Kept pq s) : Kept pq (hubShadow s k words) := by
  unfold hubShadow
  extract_lets +lift a1
  have h2 : Kept pq a1 := by
      unfold a1
      with_reducible apply kept_foldl
      · exact h
      · intro v3 v4 v5
        with_reducible apply hubOp_kept
        exact v5
  clear_value a1
  with_reducible apply updHub_kept
  exact h2

theorem hubApply_kept {pq : List Instr} (s : State) (k : Nat) (h : Kept pq s) : Kept pq (hubApply s k) := by
  unfold hubApply
  with_reducible apply hubOp_kept
  exact h

theorem hubFrames_kept {pq : List Instr} (s : State) (h : Kept pq s) : Kept pq (hubFrames s) := by
  unfold hubFrames
  extract_lets +lift a1
  split
  · with_reducible apply kept_foldl
    · exact kept_same h rfl rfl
    · intro v2 v3 v4
      with_reducible apply hubSendOne_kept
      exact v4
  · exact h

theorem hubDone_kept {pq : List Instr} (s : State) (k : Nat) (o : Mgmt) (data : Nat) (h : Kept pq s) : Kept pq (hubDone s k o data) := by
  unfold hubDone
  split
  · with_reducible apply updHub_kept
    exact h
  · with_reducible apply updHub_kept
    exact h
  · with_reducible apply kept_foldl
    · exact h
    · intro v1 v2 v3
      split
      · with_reducible apply setF_kept
        exact v3
      · exact v3
  · with_reducible apply putReg_kept
    exact h
  · exact h

theorem inputState_kept {pq : List Instr} (s : State) (k : Nat) (h : Kept pq s) : Kept pq (inputState s k) := by
  unfold inputState
  extract_lets +lift a1 a2 a3 a4 a5
  have h6 : Kept pq a5 := by
      unfold a5
      with_reducible apply kept_foldl
      · exact h
      · intro v7 v8 v9
        with_reducible apply writeBit_kept
        exact v9
  clear_value a5
  split
  · exact h
  · with_reducible apply kept_foldl
    · exact h6
    · intro v10 v11 v12
      with_reducible apply writeWord_kept
      with_reducible apply writeWord_kept
      exact v12

theorem hubLink_kept {pq : List Instr} (s : State) (k : Nat) (up : Bool) (h : Kept pq s) : Kept pq (hubLink s k up) := by
  unfold hubLink
  extract_lets +lift a1
  have h2 : Kept pq a1 := by
      unfold a1
      with_reducible apply putBitF_kept
      exact h
  clear_value a1
  split
  · exact h
  · with_reducible apply inputState_kept
    split
    · exact h2
    · with_reducible apply putBitF_kept
      exact h2

theorem hubDelay_kept {pq : List Instr} (s : State) (k : Nat) (delay : Nat) (h : Kept pq s) : Kept pq (hubDelay s k delay) := by
  unfold hubDelay
  extract_lets +lift a1 a2
  have h3 : Kept pq a1 := by
      unfold a1
      with_reducible apply updHub_kept
      exact h
  clear_value a1
  with_reducible apply setF_kept
  exact h3

theorem cfgReload_kept {pq : List Instr} (s : State) (k : Nat) (h : Kept pq s) : Kept pq (cfgReload s k) := by
  unfold cfgReload
  extract_lets +lift a1 a2
  have h3 : Kept pq a1 := by
      unfold a1
      with_reducible apply kept_foldl
      · exact h
      · intro v4 v5 v6
        with_reducible apply hubOp_kept
        exact v6
  clear_value a1
  have h7 : Kept pq a2 := by
      unfold a2
      with_reducible apply hubOp_kept
      exact h3
  clear_value a2
  split
  · exact h
  · with_reducible apply updHub_kept
    with_reducible apply incStop_kept
    exact h7

theorem hubOutranked_kept {pq : List Instr} (s : State) (a : UpFrame) (h : Kept pq s) : Kept pq (hubOutranked s a) := by
  unfold hubOutranked
  extract_lets +lift a1 a2 a3 a4
  have h5 : Kept pq a2 := by
      unfold a2
      with_reducible apply setFs_kept
      exact h
  clear_value a2
  have h6 : Kept pq a3 := by
      unfold a3
      split
      · exact h5
      · with_reducible apply raise_kept
        exact h5
  clear_value a3
  split
  · exact h
  · split
    · exact kept_same h6 rfl rfl
    · exact h6

theorem hubGood_kept {pq : List Instr} (s : State) (k : Nat) (n : Nat) (o : Option Mgmt) (a : UpFrame) (delay : Nat) (h : Kept pq s) : Kept pq (hubGood s k n o a delay) := by
  unfold hubGood
  extract_lets +lift a1 a2 a3 a4 a5 a6 a7 a8
  have h9 : Kept pq a1 := by
      unfold a1
      with_reducible apply updHub_kept
      exact h
  clear_value a1
  have h10 : Kept pq a2 := by
      unfold a2
      with_reducible apply hubMirror_kept
      with_reducible apply hubDelay_kept
      exact h9
  clear_value a2
  have h11 : Kept pq a3 := by
      unfold a3
      with_reducible apply putBitF_kept
      exact h10
  clear_value a3
  have h12 : Kept pq a4 := by
      unfold a4
      split
      · with_reducible apply hubLink_kept
        exact h11
      · exact h11
  clear_value a4
  have h13 : Kept pq a5 := by
      unfold a5
      with_reducible apply postedDone_kept
      exact h12
  clear_value a5
  have h14 : Kept pq a6 := by
      unfold a6
      split
      · split
        · with_reducible apply hubDone_kept
          exact h13
        · with_reducible apply hubRetry_kept
          exact h13
      · exact h13
  clear_value a6
  have h15 : Kept pq a7 := by
      unfold a7
      split
      · with_reducible apply raiseEv_kept
        exact h14
      · exact h14
  clear_value a7
  have h16 : Kept pq a8 := by
      unfold a8
      split
      · with_reducible apply cfgReload_kept
        exact h15
      · exact h15
  clear_value a8
  with_reducible apply inputState_kept
  with_reducible apply inputEvt_kept
  with_reducible apply hubOutranked_kept
  exact h16

theorem fastEnter_kept {pq : List Instr} (s : State) (k : Nat) (cmd : Nat) (h : Kept pq s) : Kept pq (fastEnter s k cmd) := by
  unfold fastEnter
  extract_lets +lift a1
  split
  · exact kept_same h rfl rfl
  · with_reducible apply incSat_kept
    exact h

theorem hubMiss_kept {pq : List Instr} (s : State) (k : Nat) (h : Kept pq s) : Kept pq (hubMiss s k) := by
  unfold hubMiss
  extract_lets +lift a1
  have h2 : Kept pq a1 := by
      unfold a1
      with_reducible apply updHub_kept
      exact h
  clear_value a1
  split
  · with_reducible apply hubLink_kept
    exact h2
  · exact h2

theorem execHubAnswerRx_kept {pq : List Instr} (k : Nat) (a : UpFrame) (good : Bool) (delay : Nat) (s : State) (h : Kept pq s) :
    ∃ s', execHubAnswerRx k a good delay s = .next s' ∧ Kept pq s' := by
  unfold execHubAnswerRx
  refine ⟨_, rfl, ?_⟩
  split
  · exact h
  · split
    · rename_i x1 x2 x3
      have h4 : Kept pq x2 := by
          refine kept_pair x3 ?_
          with_reducible apply hubPop_kept
          exact h
      exact h4
    · rename_i x5 x6 x7 x8 x9 x10
      have h11 : Kept pq x9 := by
          refine kept_pair x10 ?_
          with_reducible apply hubPop_kept
          exact h
      extract_lets +lift a12 a13
      have h14 : Kept pq a12 := by
          unfold a12
          with_reducible apply hubMiss_kept
          with_reducible apply incStop_kept
          exact h11
      clear_value a12
      have h15 : Kept pq a13 := by
          unfold a13
          with_reducible apply postedDone_kept
          exact h14
      clear_value a13
      split
      · with_reducible apply hubGood_kept
        exact h11
      · split
        · with_reducible apply hubRetry_kept
          exact h15
        · exact h15

theorem execFieldFrameSend_kept {pq : List Instr} (s : State) (h : Kept pq s) :
    ∃ s', execFieldFrameSend s = .next s' ∧ Kept pq s' := by
  unfold execFieldFrameSend
  refine ⟨_, rfl, ?_⟩
  with_reducible apply hubFrames_kept
  exact h

theorem fldCmd_kept {pq : List Instr} (s : State) (k : Nat) (ws : List Nat) (h : Kept pq s) : Kept pq (fldCmd s k ws).2 := by
  unfold fldCmd
  split
  · dsimp only
    with_reducible apply updHub_kept
    exact h
  · dsimp only
    with_reducible apply setF_kept
    exact h

theorem execFastFrameLaunch_kept {pq : List Instr} (k : Nat) (s : State) (h : Kept pq s) :
    ∃ s', execFastFrameLaunch k s = .next s' ∧ Kept pq s' := by
  unfold execFastFrameLaunch
  refine ⟨_, rfl, ?_⟩
  extract_lets +lift a1 a2
  split
  · exact h
  · extract_lets +lift a3
    have h4 : Kept pq a3 := by
        unfold a3
        with_reducible apply incWrap_kept
        exact kept_same h rfl rfl
    clear_value a3
    split
    · exact h
    · with_reducible apply updHub_kept
      exact h4

theorem execHubAnswerTimeout_kept {pq : List Instr} (k : Nat) (s : State) (h : Kept pq s) :
    ∃ s', execHubAnswerTimeout k s = .next s' ∧ Kept pq s' := by
  unfold execHubAnswerTimeout
  refine ⟨_, rfl, ?_⟩
  split
  · exact h
  · split
    · rename_i x1 x2 x3
      have h4 : Kept pq x2 := by
          refine kept_pair x3 ?_
          with_reducible apply hubPop_kept
          exact h
      exact h4
    · rename_i x5 x6 x7 x8 x9 x10
      have h11 : Kept pq x9 := by
          refine kept_pair x10 ?_
          with_reducible apply hubPop_kept
          exact h
      extract_lets +lift a12 a13
      have h14 : Kept pq a12 := by
          unfold a12
          with_reducible apply hubMiss_kept
          with_reducible apply incStop_kept
          exact h11
      clear_value a12
      have h15 : Kept pq a13 := by
          unfold a13
          with_reducible apply postedDone_kept
          exact h14
      clear_value a13
      split
      · with_reducible apply hubRetry_kept
        exact h15
      · exact h15

theorem updEgr_kept {pq : List Instr} (s : State) (p : Nat) (f : EgrPort → EgrPort) (h : Kept pq s) : Kept pq (updEgr s p f) := by
  unfold updEgr
  exact kept_same h rfl rfl

theorem egrPut_kept {pq : List Instr} (s : State) (p : Nat) (q : Nat) (f : EgrFrame) (early : Bool) (h : Kept pq s) : Kept pq (egrPut s p q f early).2 := by
  unfold egrPut
  split
  · dsimp only
    with_reducible apply incSat_kept
    exact h
  · split
    · dsimp only
      with_reducible apply incSat_kept
      exact h
    · dsimp only
      with_reducible apply updEgr_kept
      exact h

theorem nextRed_kept {pq : List Instr} (s : State) (pair : Nat) (h : Kept pq s) : Kept pq (nextRed s pair).2 := by
  unfold nextRed
  extract_lets +lift a1
  dsimp only
  with_reducible apply incWrap_kept
  exact h

theorem egrPair_kept {pq : List Instr} (s : State) (pair : Nat) (mask : Nat) (q : Nat) (f : EgrFrame) (early : Bool) (h : Kept pq s) : Kept pq (egrPair s pair mask q f early).2 := by
  unfold egrPair
  extract_lets +lift a1 a2 a3
  split
  · dsimp only
    exact h
  · split
    · with_reducible apply kept_foldl_pair
      · dsimp only
        exact h
      · intro v4 v5 v6
        split
        · rename_i x7 x8 x9 x10
          have h11 : Kept pq x9 := by
              refine kept_pair x10 ?_
              with_reducible apply egrPut_kept
              exact v6
          dsimp only
          exact h11
    · split
      · split
        · rename_i x12 x13 x14 x15
          have h16 : Kept pq x14 := by
              refine kept_pair x15 ?_
              split
              · with_reducible apply nextRed_kept
                exact h
              · dsimp only
                exact h
          with_reducible apply kept_foldl_pair
          · dsimp only
            exact h16
          · intro v17 v18 v19
            split
            · rename_i x20 x21 x22 x23
              have h24 : Kept pq x22 := by
                  refine kept_pair x23 ?_
                  with_reducible apply egrPut_kept
                  exact v19
              dsimp only
              exact h24
      · split
        · rename_i x25 x26 x27 x28
          have h29 : Kept pq x27 := by
              refine kept_pair x28 ?_
              with_reducible apply nextRed_kept
              exact h
          with_reducible apply kept_foldl_pair
          · dsimp only
            exact h29
          · intro v30 v31 v32
            split
            · rename_i x33 x34 x35 x36
              have h37 : Kept pq x35 := by
                  refine kept_pair x36 ?_
                  with_reducible apply egrPut_kept
                  exact v32
              dsimp only
              exact h37

theorem egrSend_kept {pq : List Instr} (s : State) (mask : Nat) (q : Nat) (f : EgrFrame) (early : Bool) (h : Kept pq s) : Kept pq (egrSend s mask q f early).2 := by
  unfold egrSend
  split
  · rename_i x1 x2 x3 x4
    have h5 : Kept pq x3 := by
        refine kept_pair x4 ?_
        with_reducible apply egrPair_kept
        exact h
    split
    · rename_i x6 x7 x8 x9
      have h10 : Kept pq x8 := by
          refine kept_pair x9 ?_
          with_reducible apply egrPair_kept
          exact h5
      dsimp only
      exact h10

theorem sysSend_kept {pq : List Instr} (s : State) (mask : Nat) (bytes : List Byte) (ptp : Bool) (early : Bool) (h : Kept pq s) : Kept pq (sysSend s mask bytes ptp early) := by
  unfold sysSend
  with_reducible apply egrSend_kept
  exact h

theorem execRedsupSend_kept {pq : List Instr} (pair : Nat) (s : State) (h : Kept pq s) :
    ∃ s', execRedsupSend pair s = .next s' ∧ Kept pq s' := by
  unfold execRedsupSend
  refine ⟨_, rfl, ?_⟩
  split
  · exact h
  · split
    · rename_i x1 x2 x3 x4
      have h5 : Kept pq x3 := by
          refine kept_pair x4 ?_
          with_reducible apply drawBytes_kept
          exact h
      with_reducible apply sysSend_kept
      exact h5

theorem execGateChange_kept {pq : List Instr} (port : Nat) (s : State) (h : Kept pq s) :
    ∃ s', execGateChange port s = .next s' ∧ Kept pq s' := by
  unfold execGateChange
  refine ⟨_, rfl, ?_⟩
  split
  · exact h
  · with_reducible apply updEgr_kept
    exact h

theorem updPub_kept {pq : List Instr} (s : State) (i : Nat) (f : PubSt → PubSt) (h : Kept pq s) : Kept pq (updPub s i f) := by
  unfold updPub
  exact kept_same h rfl rfl

theorem takeTokens_kept {pq : List Instr} (s : State) (p : Nat) (q : Nat) (n : ℤ) (h : Kept pq s) : Kept pq (takeTokens s p q n) := by
  unfold takeTokens
  extract_lets +lift a1
  with_reducible apply updEgr_kept
  exact h

theorem egrStamp_kept {pq : List Instr} (s : State) (p : Nat) (h : Kept pq s) : Kept pq (egrStamp s p).2 := by
  unfold egrStamp
  split
  rename_i x1 x2 x3 x4
  have h5 : Kept pq x3 := by
      refine kept_pair x4 ?_
      with_reducible apply ownStamp_kept
      exact h
  exact h5

theorem transparent_kept {pq : List Instr} (s : State) (p : Nat) (f : EgrFrame) (stamp : Nat) (h : Kept pq s) : Kept pq (transparent s p f stamp).2 := by
  unfold transparent
  split
  · extract_lets +lift a1 a2 a3 a4
    split
    · dsimp only
      exact h
    · split
      · dsimp only
        with_reducible apply updEgr_kept
        exact h
      · split
        · dsimp only
          exact h
        · split
          · split
            · dsimp only
              with_reducible apply updEgr_kept
              exact h
            · dsimp only
              exact h
          · dsimp only
            exact h
  · dsimp only
    exact h

theorem cutStart_kept {pq : List Instr} (s : State) (p : Nat) (q : Nat) (f : EgrFrame) (h : Kept pq s) : Kept pq (cutStart s p q f) := by
  unfold cutStart
  extract_lets +lift a1
  have h2 : Kept pq a1 := by
      unfold a1
      split
      · with_reducible apply takeTokens_kept
        exact h
      · exact h
  clear_value a1
  split
  rename_i x3 x4 x5 x6
  have h7 : Kept pq x5 := by
      refine kept_pair x6 ?_
      with_reducible apply egrStamp_kept
      exact h2
  split
  rename_i x8 x9 x10 x11
  have h12 : Kept pq x10 := by
      refine kept_pair x11 ?_
      with_reducible apply transparent_kept
      exact h7
  with_reducible apply updEgr_kept
  exact h12

theorem announceBody_kept {pq : List Instr} (s : State) (p : Nat) (h : Kept pq s) : Kept pq (announceBody s p).2 := by
  unfold announceBody
  split
  · rename_i x1 x2 x3 x4
    have h5 : Kept pq x3 := by
        refine kept_pair x4 ?_
        with_reducible apply drawBytes_kept
        exact h
    split
    · rename_i x6 x7 x8 x9
      have h10 : Kept pq x8 := by
          refine kept_pair x9 ?_
          with_reducible apply drawBytes_kept
          exact h5
      split
      · rename_i x11 x12 x13 x14
        have h15 : Kept pq x13 := by
            refine kept_pair x14 ?_
            with_reducible apply drawBytes_kept
            exact h10
        split
        · rename_i x16 x17 x18 x19
          have h20 : Kept pq x18 := by
              refine kept_pair x19 ?_
              with_reducible apply drawBytes_kept
              exact h15
          extract_lets +lift a21
          dsimp only
          exact h20

theorem pubQueue_kept {pq : List Instr} (s : State) (i : Nat) (bytes : List Byte) (post : List Posted) (h : Kept pq s) : Kept pq (pubQueue s i bytes post).2 := by
  unfold pubQueue
  extract_lets +lift a1 a2
  have h3 : Kept pq a2 := by
      unfold a2
      with_reducible apply kept_foldl
      · exact h
      · intro v4 v5 v6
        split
        · with_reducible apply incWrap_kept
          with_reducible apply updEgr_kept
          exact v6
        · exact v6
  clear_value a2
  with_reducible apply egrSend_kept
  exact h3

theorem pubSend_kept {pq : List Instr} (s : State) (i : Nat) (stn : Nat) (sq : Nat) (interval : Nat) (fresh : Bool) (post : List Posted) (h : Kept pq s) : Kept pq (pubSend s i stn sq interval fresh post).2 := by
  unfold pubSend
  extract_lets +lift a1 a2 a3 a4
  split
  rename_i x5 x6 x7 x8
  have h9 : Kept pq x7 := by
      refine kept_pair x8 ?_
      split
      · exact h
      · with_reducible apply drawBytes_kept
        exact h
  extract_lets +lift a10 a11 a12 a13 a14
  have h15 : Kept pq a12 := by
      unfold a12
      with_reducible apply updPub_kept
      exact h9
  clear_value a12
  have h16 : Kept pq a13 := by
      unfold a13
      with_reducible apply setF_kept
      exact h15
  clear_value a13
  have h17 : Kept pq a14 := by
      unfold a14
      split
      · with_reducible apply setF_kept
        exact h16
      · exact h16
  clear_value a14
  with_reducible apply pubQueue_kept
  exact h17

theorem execGooseRetransmit_kept {pq : List Instr} (slot : Nat) (s : State) (h : Kept pq s) :
    ∃ s', execGooseRetransmit slot s = .next s' ∧ Kept pq s' := by
  unfold execGooseRetransmit
  refine ⟨_, rfl, ?_⟩
  extract_lets +lift a1 a2
  have h3 : Kept pq a1 := by
      unfold a1
      with_reducible apply updPub_kept
      exact h
  clear_value a1
  split
  · exact h
  · extract_lets +lift a4
    split
    · exact h
    · split
      · with_reducible apply pubQueue_kept
        exact h3
      · with_reducible apply pubSend_kept
        exact h

theorem gateTake_kept {pq : List Instr} (s : State) (p : Nat) (h : Kept pq s) : Kept pq (gateTake s p) := by
  unfold gateTake
  extract_lets +lift a1
  have h2 : Kept pq a1 := by
      unfold a1
      with_reducible apply updEgr_kept
      exact h
  clear_value a1
  with_reducible apply updEgr_kept
  exact h2

theorem gateTick_kept {pq : List Instr} (s : State) (h : Kept pq s) : Kept pq (gateTick s) := by
  unfold gateTick
  with_reducible apply kept_foldl
  · exact h
  · intro v1 v2 v3
    split
    · with_reducible apply gateTake_kept
      exact v3
    · exact v3

theorem pubCheck_kept {pq : List Instr} (s : State) (i : Nat) (h : Kept pq s) : Kept pq (pubCheck s i) := by
  unfold pubCheck
  with_reducible apply kept_foldl
  · exact h
  · intro v1 v2 v3
    extract_lets +lift a4 a5
    have h6 : Kept pq a4 := by
        unfold a4
        with_reducible apply updPub_kept
        with_reducible apply eccClear_kept
        exact v3
    clear_value a4
    have h7 : Kept pq a5 := by
        unfold a5
        split
        · exact h6
        · with_reducible apply setFs_kept
          exact h6
    clear_value a5
    split
    · with_reducible apply eccCorr_kept
      exact v3
    · with_reducible apply setRaise_kept
      exact h7

theorem execEgressFrameEnd_kept {pq : List Instr} (port : Nat) (s : State) (h : Kept pq s) :
    ∃ s', execEgressFrameEnd port s = .next s' ∧ Kept pq s' := by
  unfold execEgressFrameEnd
  refine ⟨_, rfl, ?_⟩
  split
  · exact h
  · extract_lets +lift a1 a2 a3
    have h4 : Kept pq a2 := by
        unfold a2
        split
        · with_reducible apply takeTokens_kept
          exact h
        · exact h
    clear_value a2
    have h5 : Kept pq a3 := by
        unfold a3
        split
        · with_reducible apply incSat_kept
          exact h4
        · exact h4
    clear_value a3
    with_reducible apply incWrap_kept
    with_reducible apply updEgr_kept
    exact h5

theorem publish_kept {pq : List Instr} (s : State) (i : Nat) (vals : List (Nat × List Byte)) (post : List Posted) (change : Bool) (h : Kept pq s) : Kept pq (publish s i vals post change) := by
  unfold publish
  extract_lets +lift a1 a2 a3 a4 a5 a6 a7 a8
  have h9 : Kept pq a1 := by
      unfold a1
      with_reducible apply pubCheck_kept
      exact h
  clear_value a1
  have h10 : Kept pq a4 := by
      unfold a4
      with_reducible apply updPub_kept
      exact h9
  clear_value a4
  have h11 : Kept pq a8 := by
      unfold a8
      with_reducible apply updPub_kept
      exact h10
  clear_value a8
  split
  · exact h9
  · split
    · unfold a6
      split
      · with_reducible apply pubQueue_kept
        exact h10
      · with_reducible apply postedFails_kept
        with_reducible apply pubQueue_kept
        exact h10
    · split
      · unfold a6
        split
        · with_reducible apply pubSend_kept
          exact h10
        · with_reducible apply postedFails_kept
          with_reducible apply pubSend_kept
          exact h10
      · split
        · unfold a6
          split
          · split
            · with_reducible apply pubSend_kept
              exact h11
            · with_reducible apply postedFails_kept
              with_reducible apply pubSend_kept
              exact h11
          · split
            · with_reducible apply pubSend_kept
              exact h11
            · with_reducible apply postedFails_kept
              with_reducible apply pubSend_kept
              exact h11
        · exact h10

theorem ptpSend_kept {pq : List Instr} (s : State) (p : Nat) (kind : Nat) (seq : Nat) (two : Bool) (time : Nat) (h : Kept pq s) : Kept pq (ptpSend s p kind seq two time) := by
  unfold ptpSend
  extract_lets +lift a1
  split
  · rename_i x2 x3 x4 x5
    have h6 : Kept pq x4 := by
        refine kept_pair x5 ?_
        with_reducible apply drawBytes_kept
        exact h
    split
    · rename_i x7 x8 x9 x10
      have h11 : Kept pq x9 := by
          refine kept_pair x10 ?_
          with_reducible apply drawBytes_kept
          exact h6
      split
      · rename_i x12 x13 x14 x15
        have h16 : Kept pq x14 := by
            refine kept_pair x15 ?_
            split
            · with_reducible apply announceBody_kept
              exact h11
            · split
              · dsimp only
                exact h11
              · dsimp only
                exact h11
        split
        · rename_i x17 x18 x19 x20
          have h21 : Kept pq x19 := by
              refine kept_pair x20 ?_
              with_reducible apply drawBytes_kept
              exact h16
          extract_lets +lift a22
          with_reducible apply sysSend_kept
          exact h21

theorem execGateListTakeover_kept {pq : List Instr} (port : Nat) (s : State) (h : Kept pq s) :
    ∃ s', execGateListTakeover port s = .next s' ∧ Kept pq s' := by
  unfold execGateListTakeover
  refine ⟨_, rfl, ?_⟩
  split
  · with_reducible apply gateTake_kept
    exact h
  · exact h

theorem ptpStamped_kept {pq : List Instr} (s : State) (p : Nat) (f : EgrFrame) (stamp : Nat) (h : Kept pq s) : Kept pq (ptpStamped s p f stamp) := by
  unfold ptpStamped
  split
  · extract_lets +lift a1
    split
    · with_reducible apply ptpSend_kept
      exact h
    · with_reducible apply updPtp_kept
      exact h
    · with_reducible apply ptpSend_kept
      exact h
    · exact h
  · exact h

theorem pubReset_kept {pq : List Instr} (s : State) (i : Nat) (h : Kept pq s) : Kept pq (pubReset s i) := by
  unfold pubReset
  with_reducible apply setFs_kept
  with_reducible apply updPub_kept
  exact h

theorem dropOversize_kept {pq : List Instr} (s : State) (p : Nat) (q : Nat) (h : Kept pq s) : Kept pq (dropOversize s p q) := by
  unfold dropOversize
  extract_lets +lift a1
  split
  · extract_lets +lift a2 a3
    have h4 : Kept pq a3 := by
        unfold a3
        with_reducible apply updEgr_kept
        exact h
    clear_value a3
    with_reducible apply kept_foldl
    · exact h4
    · intro v5 v6 v7
      with_reducible apply postedFails_kept
      with_reducible apply incSat_kept
      exact v7
  · exact h

theorem execEgressFrameStart_kept {pq : List Instr} (port : Nat) (s : State) (h : Kept pq s) :
    ∃ s', execEgressFrameStart port s = .next s' ∧ Kept pq s' := by
  unfold execEgressFrameStart
  refine ⟨_, rfl, ?_⟩
  extract_lets +lift a1
  have h2 : Kept pq a1 := by
      unfold a1
      with_reducible apply kept_foldl
      · exact h
      · intro v3 v4 v5
        with_reducible apply dropOversize_kept
        exact v5
  clear_value a1
  split
  · exact h
  · split
    · exact h2
    · extract_lets +lift a6
      have h7 : Kept pq a6 := by
          unfold a6
          split
          · with_reducible apply takeTokens_kept
            exact h2
          · exact h2
      clear_value a6
      split
      rename_i x8 x9 x10 x11
      have h12 : Kept pq x10 := by
          refine kept_pair x11 ?_
          with_reducible apply egrStamp_kept
          exact h7
      split
      rename_i x13 x14 x15 x16
      have h17 : Kept pq x15 := by
          refine kept_pair x16 ?_
          with_reducible apply transparent_kept
          exact h12
      extract_lets +lift a18
      have h19 : Kept pq a18 := by
          unfold a18
          with_reducible apply updEgr_kept
          exact h17
      clear_value a18
      with_reducible apply ptpStamped_kept
      exact h19

theorem sendReport_kept {pq : List Instr} (s : State) (p : State) (e : Nat) (h1 : Kept pq s) (h2 : Kept pq p) : Kept pq (sendReport s p e) := by
  unfold sendReport
  extract_lets +lift a1 a2 a3
  split
  rename_i x4 x5 x6 x7
  have h8 : Kept pq x6 := by
      refine kept_pair x7 ?_
      with_reducible apply egrSend_kept
      exact h1
  extract_lets +lift a9
  have h10 : Kept pq a9 := by
      unfold a9
      with_reducible apply setF_kept
      with_reducible apply incWrap_kept
      exact h8
  clear_value a9
  split
  · split
    · with_reducible apply setF_kept
      exact h10
    · exact h10
  · split
    · with_reducible apply incSat_kept
      exact h8
    · exact h8

theorem libRemote_kept {pq : List Instr} (s : State) (bs : List Byte) (h : Kept pq s) : Kept pq (libRemote s bs) := by
  unfold libRemote
  extract_lets +lift a1
  have h2 : Kept pq a1 := by
      unfold a1
      with_reducible apply incSat_kept
      exact h
  clear_value a1
  split
  · exact h2
  · split
    · with_reducible apply incWrap_kept
      exact h
    · exact h2

theorem withPrm_kept {pq : List Instr} (s : State) (prm : List (Nat × Nat)) (h : Kept pq s) : Kept pq (withPrm s prm) := by
  unfold withPrm
  exact kept_same h rfl rfl

theorem locCommit_kept {pq : List Instr} (s : State) (t : Nat) (h : Kept pq s) : Kept pq (locCommit s t) := by
  unfold locCommit
  split
  · exact h
  · extract_lets +lift a1
    split
    · with_reducible apply setFs_kept
      exact h
    · exact h

theorem faultCommitted_kept {pq : List Instr} (s : State) (ns : Nat) (h : Kept pq s) : Kept pq (faultCommitted s ns) := by
  unfold faultCommitted
  extract_lets +lift a1
  split
  · split
    · exact kept_same h rfl rfl
    · exact h
  · exact h

theorem fdReads_kept {pq : List Instr} (s : State) (b : Nat) (h : Kept pq s) : Kept pq (fdReads s b) := by
  unfold fdReads
  with_reducible apply kept_foldl
  · exact h
  · intro v1 v2 v3
    split
    · exact v3
    · with_reducible apply checkRow_kept
      exact v3

theorem detector_kept {pq : List Instr} (s : State) (h : Kept pq s) : Kept pq (detector s) := by
  unfold detector
  extract_lets +lift a1 a2 a3 a4 a5 a6 a7
  have h8 : Kept pq a5 := by
      unfold a5
      with_reducible apply setFs_kept
      with_reducible apply fdReads_kept
      exact h
  clear_value a5
  have h9 : Kept pq a6 := by
      unfold a6
      with_reducible apply incWrap_kept
      exact h8
  clear_value a6
  have h10 : Kept pq a7 := by
      unfold a7
      split
      · with_reducible apply incSat_kept
        exact h9
      · exact h9
  clear_value a7
  split
  · split
    · with_reducible apply setF_kept
      exact h10
    · exact h9
  · exact h8

theorem estCommit_kept {pq : List Instr} (s : State) (t : Nat) (e : Nat) (h : Kept pq s) : Kept pq (estCommit s t e) := by
  unfold estCommit
  split
  · exact h
  · extract_lets +lift a1 a2 a3 a4 a5 a6
    have h7 : Kept pq a1 := by
        unfold a1
        with_reducible apply withPrm_kept
        exact h
    clear_value a1
    have h8 : Kept pq a3 := by
        unfold a3
        split
        · with_reducible apply incSat_kept
          exact h
        · exact h
    clear_value a3
    have h9 : Kept pq a5 := by
        unfold a5
        split
        · with_reducible apply setF_kept
          exact h8
        · exact h8
    clear_value a5
    have h10 : Kept pq a6 := by
        unfold a6
        split
        · with_reducible apply detector_kept
          with_reducible apply faultCommitted_kept
          exact h9
        · exact h9
    clear_value a6
    split
    · split
      · with_reducible apply sendReport_kept
        · exact h10
        · exact h7
      · exact h10
    · exact h

theorem phmCommit_kept {pq : List Instr} (s : State) (t : Nat) (h : Kept pq s) : Kept pq (phmCommit s t) := by
  unfold phmCommit
  with_reducible apply locCommit_kept
  with_reducible apply estCommit_kept
  with_reducible apply estCommit_kept
  exact h

theorem libSend_kept {pq : List Instr} (s : State) (e : Nat) (data : List Byte) (h : Kept pq s) : Kept pq (libSend s e data) := by
  unfold libSend
  with_reducible apply egrSend_kept
  exact kept_same h rfl rfl

theorem libCommand_kept {pq : List Instr} (s : State) (e : Nat) (bs : List Byte) (h : Kept pq s) : Kept pq (libCommand s e bs) := by
  unfold libCommand
  extract_lets +lift a1
  have h2 : Kept pq a1 := by
      unfold a1
      with_reducible apply incSat_kept
      exact h
  clear_value a1
  split
  · exact h2
  · split
    · exact h2
    · split
      · with_reducible apply setF_kept
        exact h
      · with_reducible apply setF_kept
        exact h
      · with_reducible apply libSend_kept
        exact h
      · with_reducible apply libSend_kept
        exact h
      · with_reducible apply libSend_kept
        exact h
      · exact h2

theorem libRecv_kept {pq : List Instr} (s : State) (t : Nat) (mbx : Nat) (bs : List Byte) (h : Kept pq s) : Kept pq (libRecv s t mbx bs) := by
  unfold libRecv
  extract_lets +lift a1 a2
  have h3 : Kept pq a2 := by
      unfold a2
      unfold a1
      split
      · split
        · with_reducible apply libCommand_kept
          with_reducible apply libCommand_kept
          exact h
        · with_reducible apply libCommand_kept
          exact h
      · split
        · with_reducible apply libCommand_kept
          exact h
        · exact h
  clear_value a2
  split
  · with_reducible apply libRemote_kept
    exact h3
  · exact h3

theorem fdReport_kept {pq : List Instr} (p : State) (s : State) (n : Nat) (ws : List TWord) (h : Kept pq s) : Kept pq (fdReport p s n ws) := by
  unfold fdReport
  extract_lets +lift a1 a2 a3 a4 a5 a6 a7 a8
  exact kept_same h rfl rfl

theorem libBits_kept {pq : List Instr} (s : State) (t a : Nat) (l : List Bool) (h : Kept pq s) : Kept pq (libBits s t a l) := by
  induction l generalizing s a with
  | nil => simpa only [libBits] using h
  | cons b bs ih =>
    rw [libBits]
    exact ih _ _ (moveWriteBit_kept _ _ _ _ _ h)

theorem libWords_kept {pq : List Instr} (s : State) (t a : Nat) (l : List TWord) (h : Kept pq s) : Kept pq (libWords s t a l) := by
  induction l generalizing s a with
  | nil => simpa only [libWords] using h
  | cons b bs ih =>
    rw [libWords]
    exact ih _ _ (moveWriteWord_kept _ _ _ _ _ h)

theorem libStore_kept {pq : List Instr} (s : State) (t : Nat) (h : Kept pq s) : Kept pq (libStore s t) := by
  unfold libStore
  extract_lets +lift a1
  with_reducible apply kept_foldl
  · exact kept_same h rfl rfl
  · intro v2 v3 v4
    with_reducible apply moveWriteWord_kept
    exact v4

theorem libObtain_kept {pq : List Instr} (s : State) (t : Nat) (l : List TWord) (h : Kept pq s) : Kept pq (libObtain s t l).2 := by
  induction l generalizing s with
  | nil => exact h
  | cons v vs ih => exact ih _ (obtain_kept _ _ _ _ h)

theorem libReport_kept {pq : List Instr} (p : State) (s : State) (r : LibRun) (n : Nat) (ws : List TWord) (h : Kept pq s) : Kept pq (libReport p s r n ws) := by
  unfold libReport
  extract_lets +lift a1 a2 a3 a4 a5 a6
  have h7 : Kept pq a4 := by
      unfold a4
      split
      · exact kept_same h rfl rfl
      · exact h
  clear_value a4
  have h8 : Kept pq a5 := by
      unfold a5
      with_reducible apply fdReport_kept
      exact h7
  clear_value a5
  split
  · with_reducible apply libBits_kept
    with_reducible apply libWords_kept
    exact h8
  · with_reducible apply libWords_kept
    exact h7

theorem libEstimate_kept {pq : List Instr} (s : State) (r : LibRun) (h : Kept pq s) : Kept pq (libEstimate s r) := by
  unfold libEstimate
  extract_lets +lift a1 a2 a3 a4 a5 a6
  have h7 : Kept pq a1 := by
      unfold a1
      with_reducible apply withPrm_kept
      exact h
  clear_value a1
  have h8 : Kept pq a6 := by
      unfold a6
      exact kept_same h rfl rfl
  clear_value a6
  split
  rename_i x9 x10 x11 x12
  have h13 : Kept pq x11 := by
      refine kept_pair x12 ?_
      with_reducible apply libObtain_kept
      exact h8
  split
  · exact h13
  · split
    rename_i x14 x15 x16 x17
    have h18 : Kept pq x16 := by
        refine kept_pair x17 ?_
        with_reducible apply libObtain_kept
        exact h13
    with_reducible apply libReport_kept
    exact h18

theorem locEnd_kept {pq : List Instr} (p : State) (s : State) (t : Nat) (q : FaultRec) (res : List TWord) (h : Kept pq s) : Kept pq (locEnd p s t q res) := by
  unfold locEnd
  extract_lets +lift a1 a2 a3 a4 a5
  have h6 : Kept pq a2.2 := by
      unfold a2
      with_reducible apply libObtain_kept
      exact h
  clear_value a2
  have h7 : Kept pq a3 := by
      unfold a3
      exact h6
  clear_value a3
  have h8 : Kept pq a5 := by
      unfold a5
      with_reducible apply libWords_kept
      exact kept_same h7 rfl rfl
  clear_value a5
  with_reducible apply libBits_kept
  exact h8

theorem libLocate_kept {pq : List Instr} (s : State) (r : LibRun) (h : Kept pq s) : Kept pq (libLocate s r) := by
  unfold libLocate
  extract_lets +lift a1 a2 a3 a4 a5 a6 a7
  have h8 : Kept pq a1 := by
      unfold a1
      with_reducible apply withPrm_kept
      exact h
  clear_value a1
  have h9 : Kept pq a4 := by
      unfold a4
      exact kept_same h rfl rfl
  clear_value a4
  have h10 : Kept pq a7 := by
      unfold a7
      split
      · exact kept_same h9 rfl rfl
      · exact h9
  clear_value a7
  split
  rename_i x11 x12 x13 x14
  have h15 : Kept pq x13 := by
      refine kept_pair x14 ?_
      with_reducible apply libObtain_kept
      exact h10
  extract_lets +lift a16
  have h17 : Kept pq a16 := by
      unfold a16
      split
      · with_reducible apply libWords_kept
        exact h15
      · exact h15
  clear_value a16
  split
  · exact h17
  · extract_lets +lift a18 a19
    split
    rename_i x20 x21 x22 x23
    have h24 : Kept pq x22 := by
        refine kept_pair x23 ?_
        with_reducible apply libObtain_kept
        exact h17
    split
    · exact h24
    · with_reducible apply locEnd_kept
      exact h24

theorem libEnd_kept {pq : List Instr} (s : State) (t : Nat) (h : Kept pq s) : Kept pq (libEnd s t) := by
  unfold libEnd
  with_reducible apply kept_foldl
  · exact h
  · intro v1 v2 v3
    with_reducible apply libStore_kept
    split
    · with_reducible apply libEstimate_kept
      exact v3
    · with_reducible apply libLocate_kept
      exact v3

theorem libFreeze_kept {pq : List Instr} (s : State) (t : Nat) (h : Kept pq s) : Kept pq (libFreeze s t) := by
  unfold libFreeze
  extract_lets +lift a1 a2
  exact kept_same h rfl rfl

theorem setPending_kept {pq : List Instr} (s : State) (t : Nat) (i : TrigInfo) (h : Kept pq s) : Kept pq (setPending s t i) := by
  unfold setPending
  with_reducible apply updTask_kept
  exact h

theorem acceptTrigger_kept {pq : List Instr} (s : State) (t : Nat) (i : TrigInfo) (h : Kept pq s) : Kept pq (acceptTrigger s t i) := by
  unfold acceptTrigger
  extract_lets +lift a1 a2 a3
  have h4 : Kept pq a1 := by
      unfold a1
      with_reducible apply trcScan_kept
      with_reducible apply setF_kept
      exact h
  clear_value a1
  have h5 : Kept pq a3 := by
      unfold a3
      with_reducible apply streamEv_kept
      with_reducible apply updTask_kept
      exact h4
  clear_value a3
  split
  · with_reducible apply countSkip_kept
    exact h
  · split
    · with_reducible apply trcScan_kept
      with_reducible apply streamEv_kept
      with_reducible apply setPending_kept
      exact h
    · split
      · split
        · with_reducible apply countSkip_kept
          exact h4
        · with_reducible apply trcScan_kept
          with_reducible apply incSat_kept
          exact h5
      · with_reducible apply halt_kept
        exact h4
      · with_reducible apply countSkip_kept
        exact h4

theorem execTriggerAngle_kept {pq : List Instr} (task : Nat) (s : State) (h : Kept pq s) :
    ∃ s', execTriggerAngle task s = .next s' ∧ Kept pq s' := by
  unfold execTriggerAngle
  refine ⟨_, rfl, ?_⟩
  split
  · exact h
  · split
    · with_reducible apply acceptTrigger_kept
      with_reducible apply addMark_kept
      exact h
    · exact h

theorem replayStop_kept {pq : List Instr} (s : State) (h : Kept pq s) : Kept pq (replayStop s) := by
  unfold replayStop
  extract_lets +lift a1 a2
  have h3 : Kept pq a1 := by
      unfold a1
      with_reducible apply cancelDeferred_kept
      with_reducible apply allTasks_kept
      · exact h
      · intro v4 v5 v6
        with_reducible apply updTask_kept
        exact v6
  clear_value a1
  with_reducible apply setF_kept
  exact kept_same h3 rfl rfl

theorem imageCommit_kept {pq : List Instr} (s : State) (t : Nat) (h : Kept pq s) : Kept pq (imageCommit s t) := by
  unfold imageCommit
  with_reducible apply kept_foldl
  · exact h
  · intro v1 v2 v3
    extract_lets +lift a4
    split
    · exact kept_same v3 rfl rfl
    · exact kept_same v3 rfl rfl

theorem addPosted_kept {pq : List Instr} (s : State) (p : Posted) (h : Kept pq s) : Kept pq (addPosted s p) := by
  unfold addPosted
  exact kept_same h rfl rfl

theorem sendField_kept {pq : List Instr} (s : State) (t : Nat) (e : OMap) (h : Kept pq s) : Kept pq (sendField s t e) := by
  unfold sendField
  with_reducible apply updHub_kept
  with_reducible apply addPosted_kept
  exact h

theorem freezeWin_kept {pq : List Instr} (s : State) (t : Nat) (w : Win) (h : Kept pq s) : Kept pq (freezeWin s t w) := by
  unfold freezeWin
  extract_lets +lift a1 a2 a3
  split
  · exact kept_sp h rfl ⟨(kept_bits h :), (kept_words h :), (kept_planeB h :), swf_copyRange _ _ _ _ (kept_planeW h :)⟩
  · exact kept_sp h rfl ⟨(kept_bits h :), (kept_words h :), swf_copyRange _ _ _ _ (kept_planeB h :), (kept_planeW h :)⟩

theorem stnRequest_kept {pq : List Instr} (s : State) (stn : Nat) (queue : Nat) (opcode : Nat) (data : List Byte) (h : Kept pq s) : Kept pq (stnRequest s stn queue opcode data).2.2 := by
  unfold stnRequest
  extract_lets +lift a1 a2 a3 a4 a5 a6 a7 a8
  have h9 : Kept pq a3 := by
      unfold a3
      exact kept_same h rfl rfl
  clear_value a3
  split
  · dsimp only
    exact h9
  · split
    · rename_i x10 x11 x12 x13
      have h14 : Kept pq x12 := by
          refine kept_pair x13 ?_
          with_reducible apply egrSend_kept
          exact h9
      dsimp only
      exact h14

theorem sendStation_kept {pq : List Instr} (s : State) (t : Nat) (e : OMap) (h : Kept pq s) : Kept pq (sendStation s t e) := by
  unfold sendStation
  split
  · rename_i x1 x2 x3 x4 x5
    have h6 : Kept pq x4 := by
        refine kept_trip x5 ?_
        with_reducible apply stnRequest_kept
        exact h
    extract_lets +lift a7 a8
    split
    · with_reducible apply addPosted_kept
      exact kept_same h6 rfl rfl
    · with_reducible apply postedFail_kept
      exact h6

theorem sendEntries_kept {pq : List Instr} (s : State) (t : Nat) (change : Bool) (all : List OMap) (h : Kept pq s) : Kept pq (sendEntries s t change all) := by
  unfold sendEntries
  with_reducible apply kept_foldl
  · exact h
  · intro v1 v2 v3
    extract_lets +lift a4 a5
    split
    · with_reducible apply sendField_kept
      exact v3
    · with_reducible apply sendStation_kept
      exact v3
    · split
      · with_reducible apply publish_kept
        exact v3
      · exact v3
    · split
      · with_reducible apply objRequest_kept
        with_reducible apply kept_foldl
        · exact v3
        · intro v6 v7 v8
          with_reducible apply objWrite_kept
          exact v8
      · exact v3

theorem stnMark_kept {pq : List Instr} (s : State) (stn : Nat) (h : Kept pq s) : Kept pq (stnMark s stn) := by
  unfold stnMark
  split
  · exact h
  · with_reducible apply devBit_kept
    exact h
  · with_reducible apply devBit_kept
    with_reducible apply devBit_kept
    exact h

theorem handOn_kept {pq : List Instr} (s : State) (t : Nat) (change : Bool) (cov : List OMap) (h : Kept pq s) : Kept pq (handOn s t change cov) := by
  unfold handOn
  extract_lets +lift a1 a2 a3 a4
  with_reducible apply sendEntries_kept
  with_reducible apply kept_foldl
  · exact h
  · intro v5 v6 v7
    with_reducible apply stnMark_kept
    exact v7

theorem commit_kept {pq : List Instr} (s : State) (t : Nat) (late : Bool) (h : Kept pq s) : Kept pq (commit s t late) := by
  unfold commit
  extract_lets +lift a1 a2 a3 a4 a5 a6 a7 a8
  have h9 : Kept pq a1 := by
      unfold a1
      with_reducible apply imageCommit_kept
      exact h
  clear_value a1
  have h10 : Kept pq a5 := by
      unfold a5
      split
      · with_reducible apply handOn_kept
        exact h9
      · exact kept_same h9 rfl rfl
  clear_value a5
  have h11 : Kept pq a6 := by
      unfold a6
      with_reducible apply phmCommit_kept
      exact h10
  clear_value a6
  have h12 : Kept pq a7 := by
      unfold a7
      split
      · with_reducible apply setF_kept
        exact h11
      · exact h11
  clear_value a7
  have h13 : Kept pq a8 := by
      unfold a8
      with_reducible apply updTask_kept
      exact h12
  clear_value a8
  split
  · with_reducible apply trcScan_kept
    with_reducible apply streamEv_kept
    exact h13
  · exact h13

theorem execTriggerEdge_kept {pq : List Instr} (task : Nat) (old : Bool) (s : State) (h : Kept pq s) :
    ∃ s', execTriggerEdge task old s = .next s' ∧ Kept pq s' := by
  unfold execTriggerEdge
  refine ⟨_, rfl, ?_⟩
  extract_lets +lift a1
  split
  · exact h
  · split
    rename_i x2 x3 x4 x5
    have h6 : Kept pq x4 := by
        refine kept_pair x5 ?_
        with_reducible apply readBit_kept
        exact h
    extract_lets +lift a7 a8
    have h9 : Kept pq a7 := by
        unfold a7
        split
        · with_reducible apply obtainBit_kept
          exact h6
        · exact h6
    clear_value a7
    split
    · with_reducible apply acceptTrigger_kept
      exact h9
    · exact h9

theorem checkRange_kept {pq : List Instr} (finder : Nat) (s : State) (w : Win) (h : Kept pq s) : Kept pq (checkRange finder s w) := by
  unfold checkRange
  with_reducible apply kept_foldl
  · exact h
  · intro v1 v2 v3
    extract_lets +lift a4
    split
    · split
      · with_reducible apply readWord_kept
        exact v3
      · exact v3
    · split
      · with_reducible apply checkRow_kept
        exact v3
      · exact v3

theorem capture_kept {pq : List Instr} (s : State) (t : Nat) (h : Kept pq s) : Kept pq (capture s t) := by
  unfold capture
  extract_lets +lift a1
  have h2 : Kept pq a1 := by
      unfold a1
      with_reducible apply kept_foldl
      · exact h
      · intro v3 v4 v5
        with_reducible apply checkRange_kept
        exact v5
  clear_value a1
  with_reducible apply kept_foldl
  · exact h2
  · intro v6 v7 v8
    with_reducible apply updTask_kept
    exact v8

theorem endNow_kept {pq : List Instr} (s : State) (t : Nat) (nocommit : Bool) (h : Kept pq s) : Kept pq (endNow s t nocommit) := by
  unfold endNow
  extract_lets +lift a1 a2 a3 a4 a5
  have h6 : Kept pq a1 := by
      unfold a1
      with_reducible apply libEnd_kept
      exact h
  clear_value a1
  have h7 : Kept pq a2 := by
      unfold a2
      split
      · exact h6
      · with_reducible apply capture_kept
        exact h6
  clear_value a2
  have h8 : Kept pq a5 := by
      unfold a5
      split
      · exact kept_same h7 rfl rfl
      · with_reducible apply streamEv_kept
        exact h7
  clear_value a5
  split
  · with_reducible apply updTask_kept
    exact h8
  · split
    · with_reducible apply commit_kept
      exact h8
    · split
      · with_reducible apply updTask_kept
        exact h8
      · split
        · with_reducible apply commit_kept
          exact h8
        · split
          · with_reducible apply commit_kept
            exact h8
          · with_reducible apply updTask_kept
            exact h8

theorem runLength_kept {pq : List Instr} (s : State) (t : Nat) (h : Kept pq s) : Kept pq (runLength s t) := by
  unfold runLength
  extract_lets +lift a1 a2 a3
  have h4 : Kept pq a2 := by
      unfold a2
      with_reducible apply setF_kept
      exact h
  clear_value a2
  have h5 : Kept pq a3 := by
      unfold a3
      split
      · with_reducible apply setF_kept
        exact h4
      · exact h4
  clear_value a3
  split
  · with_reducible apply setF_kept
    exact h5
  · exact h5

theorem fireEnd_kept {pq : List Instr} (s : State) (t : Nat) (nocommit : Bool) (h : Kept pq s) : Kept pq (fireEnd s t nocommit) := by
  unfold fireEnd
  extract_lets +lift a1
  have h2 : Kept pq a1 := by
      unfold a1
      with_reducible apply trcScan_kept
      with_reducible apply runLength_kept
      exact h
  clear_value a1
  split
  · exact h
  · with_reducible apply updTask_kept
    exact h2

theorem startRun_kept {pq : List Instr} (s : State) (t : Nat) (scan : Nat) (tai : Nat) (h : Kept pq s) : Kept pq (startRun s t scan tai) := by
  unfold startRun
  extract_lets +lift a1 a2 a3 a4
  have h5 : Kept pq a1 := by
      unfold a1
      with_reducible apply libFreeze_kept
      exact h
  clear_value a1
  have h6 : Kept pq a2 := by
      unfold a2
      with_reducible apply updTask_kept
      exact h5
  clear_value a2
  have h7 : Kept pq a4 := by
      unfold a4
      exact kept_same h6 rfl rfl
  clear_value a4
  with_reducible apply trcScan_kept
  exact h7

theorem freeze_kept {pq : List Instr} (s : State) (t : Nat) (h : Kept pq s) : Kept pq (freeze s t) := by
  unfold freeze
  extract_lets +lift a1 a2 a3 a4 a5 a6 a7 a8
  have h9 : Kept pq a3 := by
      unfold a3
      with_reducible apply kept_foldl
      · exact h
      · intro v10 v11 v12
        with_reducible apply checkRange_kept
        exact v12
  clear_value a3
  have h13 : Kept pq a4 := by
      unfold a4
      with_reducible apply kept_foldl
      · exact h9
      · intro v14 v15 v16
        with_reducible apply freezeWin_kept
        exact v16
  clear_value a4
  have h17 : Kept pq a6 := by
      unfold a6
      with_reducible apply startRun_kept
      exact h13
  clear_value a6
  split
  · with_reducible apply streamEv_kept
    exact h17
  · exact h17

theorem execStationAckTimeout_kept {pq : List Instr} (seq : Nat) (s : State) (h : Kept pq s) :
    ∃ s', execStationAckTimeout seq s = .next s' ∧ Kept pq s' := by
  unfold execStationAckTimeout
  refine ⟨_, rfl, ?_⟩
  extract_lets +lift a1 a2
  have h3 : Kept pq a2 := by
      unfold a2
      exact kept_same h rfl rfl
  clear_value a2
  split
  · with_reducible apply postedDone_kept
    exact h3
  · exact h

theorem diverge_kept {pq : List Instr} (s : State) (cause : Nat) (t : Nat) (h : Kept pq s) : Kept pq (diverge s cause t) := by
  unfold diverge
  extract_lets +lift a1 a2 a3 a4
  have h5 : Kept pq a1 := by
      unfold a1
      with_reducible apply setFs_kept
      exact h
  clear_value a1
  have h6 : Kept pq a2 := by
      unfold a2
      split
      · exact h5
      · with_reducible apply setFs_kept
        exact h5
  clear_value a2
  have h7 : Kept pq a3 := by
      unfold a3
      with_reducible apply pulse_kept
      with_reducible apply raise_kept
      with_reducible apply incSat_kept
      exact h6
  clear_value a3
  have h8 : Kept pq a4 := by
      unfold a4
      with_reducible apply replayStop_kept
      exact h7
  clear_value a4
  split
  · split
    · with_reducible apply requestXfer_kept
      exact h8
    · exact h8
  · exact h7

theorem noteInstant_kept {pq : List Instr} (s : State) (t : Nat) (b : Nat) (h : Kept pq s) : Kept pq (noteInstant s t b) := by
  unfold noteInstant
  with_reducible apply updTask_kept
  exact h

theorem execTriggerPeriod_kept {pq : List Instr} (task : Nat) (s : State) (h : Kept pq s) :
    ∃ s', execTriggerPeriod task s = .next s' ∧ Kept pq s' := by
  unfold execTriggerPeriod
  refine ⟨_, rfl, ?_⟩
  extract_lets +lift a1 a2 a3
  have h7 : ∀ y4 y5 y6, Kept pq (a2 y4 y5 y6) := by
      intro y4 y5 y6
      unfold a2
      extract_lets +lift a8
      have h9 : Kept pq a8 := by
          unfold a8
          with_reducible apply noteInstant_kept
          exact h
      clear_value a8
      dsimp only
      with_reducible apply acceptTrigger_kept
      with_reducible apply kept_foldl
      · exact h9
      · intro v10 v11 v12
        with_reducible apply countSkip_kept
        exact v12
  clear_value a2
  split
  · exact h
  · split
    extract_lets +lift a13
    split
    · with_reducible apply h7
    · split
      · with_reducible apply h7
      · exact h

theorem endRuns_kept {pq : List Instr} (s : State) (h : Kept pq s) : Kept pq (endRuns s) := by
  unfold endRuns
  with_reducible apply allTasks_kept
  · exact h
  · intro v1 v2 v3
    extract_lets +lift a4 a5
    have h6 : Kept pq a5 := by
        unfold a5
        with_reducible apply updTask_kept
        exact v3
    clear_value a5
    clear_value a4
    split
    · exact h6
    · with_reducible apply endNow_kept
      exact h6
    · with_reducible apply commit_kept
      exact h6

theorem execLaunchCommit_kept {pq : List Instr} (task : Nat) (s : State) (h : Kept pq s) :
    ∃ s', execLaunchCommit task s = .next s' ∧ Kept pq s' := by
  unfold execLaunchCommit
  refine ⟨_, rfl, ?_⟩
  split
  · with_reducible apply updTask_kept
    exact h
  · exact h

theorem execHeldTriggerRelease_kept {pq : List Instr} (task : Nat) (s : State) (h : Kept pq s) :
    ∃ s', execHeldTriggerRelease task s = .next s' ∧ Kept pq s' := by
  unfold execHeldTriggerRelease
  refine ⟨_, rfl, ?_⟩
  split
  · split
    · exact h
    · with_reducible apply updTask_kept
      with_reducible apply setPending_kept
      exact h
  · exact h

theorem landRes_kept {pq : List Instr} (s : State) (t : Nat) (u : Nat) (rs : List (Nat × TWord)) (h : Kept pq s) : Kept pq (landRes s t u rs) := by
  unfold landRes
  with_reducible apply kept_foldl
  · exact h
  · intro v1 v2 v3
    with_reducible apply setCtx_kept
    exact v3

theorem landOp_kept {pq : List Instr} (s : State) (p : PendOp) (rs : List (Nat × TWord)) (h : Kept pq s) : Kept pq (landOp s p rs) := by
  unfold landOp
  extract_lets +lift a1 a2 a3
  with_reducible apply landRes_kept
  exact kept_same h rfl rfl

theorem finish_kept {pq : List Instr} (s : State) (d : Deferred) (lat : Nat) (rs : List (Nat × TWord)) (act : PendAct) (entry : Bool) (h : Kept pq s) : Kept pq (finish s d lat rs act entry) := by
  unfold finish
  extract_lets +lift a1 a2
  split
  · with_reducible apply landOp_kept
    exact h
  · exact kept_same h rfl rfl

theorem failed_kept {pq : List Instr} (s : State) (c : Checked) (d : Deferred) (lat : Nat) (res : List Nat) (sclass : Bool) (h : Kept pq s) : Kept pq (failed s c d lat res sclass) := by
  unfold failed
  extract_lets +lift a1
  have h2 : Kept pq a1 := by
      unfold a1
      split
      · with_reducible apply squash_kept
        exact h
      · exact h
  clear_value a1
  split
  · split
    · exact h2
    · with_reducible apply finish_kept
      exact h2
  · exact h

theorem withCheck_kept {pq : List Instr} (s : State) (sp : Spec) (d : Deferred) (lat : Nat) (sclass : Bool) (k : List TWord → State → State) (h : Kept pq s) (hk : ∀ vs s, Kept pq s → Kept pq (k vs s)) : Kept pq (withCheck s sp d lat sclass k) := by
  unfold withCheck
  have hc := checkTags_kept s sp d.o none (trigVals d) h
  split
  · rename_i vs s' e
    rw [e] at hc
    exact hk _ _ hc
  · rename_i c s' _ e
    rw [e] at hc
    exact failed_kept _ _ _ _ _ _ hc

theorem fireCancel_kept {pq : List Instr} (s : State) (d : Deferred) (h : Kept pq s) : Kept pq (fireCancel s d) := by
  unfold fireCancel
  with_reducible apply withCheck_kept
  · exact h
  · intro v1 v2 v3
    extract_lets +lift a4 a5 a6
    split
    · with_reducible apply finish_kept
      exact kept_same v3 rfl rfl
    · with_reducible apply finish_kept
      exact v3

theorem gbuBit_kept {pq : List Instr} (base : State) (s : State) (t : Nat) (a : Nat) (h1 : Kept pq base) (h2 : Kept pq s) : Kept pq (gbuBit base s t a).2 := by
  unfold gbuBit
  extract_lets +lift a1
  have h2 : Kept pq a1 := by
      unfold a1
      with_reducible apply checkTaskRow_kept
      exact h2
  clear_value a1
  split
  · rename_i x3 x4 x5 x6
    have h7 : Kept pq x5 := by
        refine kept_pair x6 ?_
        with_reducible apply readTaskBit_kept
        exact h1
    split
    · with_reducible apply obtainBit_kept
      exact h2
    · dsimp only
      exact h2

theorem obtainAll_kept {pq : List Instr} (s : State) (t dst : Nat) (l : List (Nat × TWord)) (h : Kept pq s) : Kept pq (obtainAll s t dst l).2 := by
  induction l generalizing s with
  | nil => exact h
  | cons r rest ih => exact ih _ (obtain_kept _ _ _ _ h)

theorem addrOut_kept {pq : List Instr} (s : State) (sp : Spec) (d : Deferred) (idx : Nat) (lat : Nat) (sclass : Bool) (h : Kept pq s) : Kept pq (addrOut s sp d idx lat sclass) := by
  unfold addrOut
  split
  · rename_i x1 x2 x3 x4
    have h5 : Kept pq x3 := by
        refine kept_pair x4 ?_
        with_reducible apply addrFault_kept
        exact h
    with_reducible apply failed_kept
    exact h5

theorem fireLsu_kept {pq : List Instr} (s : State) (d : Deferred) (h : Kept pq s) : Kept pq (fireLsu s d) := by
  unfold fireLsu
  extract_lets +lift a1 a2
  with_reducible apply withCheck_kept
  · exact h
  · intro v3 v4 v5
    split
    · split
      · clear_value a1
        split
        · with_reducible apply finish_kept
          exact v5
        · with_reducible apply finish_kept
          exact v5
        · with_reducible apply finish_kept
          exact v5
        · with_reducible apply finish_kept
          exact v5
        · with_reducible apply finish_kept
          exact v5
        · with_reducible apply finish_kept
          exact v5
      · clear_value a1
        split
        · with_reducible apply finish_kept
          exact v5
        · with_reducible apply finish_kept
          exact v5
        · with_reducible apply finish_kept
          exact v5
        · with_reducible apply finish_kept
          exact v5
        · with_reducible apply addrOut_kept
          exact v5
        · with_reducible apply finish_kept
          exact v5
    · split
      · clear_value a1
        split
        · with_reducible apply finish_kept
          exact v5
        · with_reducible apply addrOut_kept
          exact v5
        · with_reducible apply finish_kept
          exact v5
        · with_reducible apply finish_kept
          exact v5
        · with_reducible apply finish_kept
          exact v5
        · with_reducible apply finish_kept
          exact v5
      · clear_value a1
        split
        · with_reducible apply finish_kept
          exact v5
        · with_reducible apply addrOut_kept
          exact v5
        · with_reducible apply finish_kept
          exact v5
        · with_reducible apply finish_kept
          exact v5
        · with_reducible apply addrOut_kept
          exact v5
        · with_reducible apply finish_kept
          exact v5

theorem faultOut_kept {pq : List Instr} (s : State) (sp : Spec) (d : Deferred) (idx : Nat) (cause : Nat) (lat : Nat) (sclass : Bool) (h : Kept pq s) : Kept pq (faultOut s sp d idx cause lat sclass) := by
  unfold faultOut
  split
  · rename_i x1 x2 x3 x4
    have h5 : Kept pq x3 := by
        refine kept_pair x4 ?_
        with_reducible apply opFault_kept
        exact h
    with_reducible apply failed_kept
    exact h5

theorem fireSendCan_kept {pq : List Instr} (s : State) (d : Deferred) (h : Kept pq s) : Kept pq (fireSendCan s d) := by
  unfold fireSendCan
  extract_lets +lift a1
  with_reducible apply withCheck_kept
  · exact h
  · intro v2 v3 v4
    dsimp only
    split
    · with_reducible apply faultOut_kept
      exact v4
    · split
      · with_reducible apply addrOut_kept
        exact v4
      · split
        · with_reducible apply finish_kept
          exact v4
        · split
          · rename_i x5 x6 x7 x8
            have h9 : Kept pq x7 := by
                refine kept_pair x8 ?_
                with_reducible apply canReserve_kept
                exact v4
            with_reducible apply finish_kept
            exact h9
          · rename_i x10 x11 x12
            have h13 : Kept pq x11 := by
                refine kept_pair x12 ?_
                with_reducible apply canReserve_kept
                exact v4
            with_reducible apply finish_kept
            with_reducible apply obtainAll_kept
            exact h13

theorem takeWords_kept {pq : List Instr} (s : State) (t n a : Nat) (h : Kept pq s) : Kept pq (takeWords s t n a).2 := by
  induction n generalizing s a with
  | zero => exact h
  | succ n ih => exact ih _ _ (obtain_kept _ _ _ _ h)

theorem tmuTake_kept {pq : List Instr} (s : State) (ev : TmuEvt) (h : Kept pq s) : Kept pq (tmuTake s ev).2 := by
  unfold tmuTake
  extract_lets +lift a1
  split
  · extract_lets +lift a2
    dsimp only
    exact kept_same h rfl rfl
  · dsimp only
    with_reducible apply setF_kept
    with_reducible apply incSat_kept
    exact h

theorem fireSched_kept {pq : List Instr} (s : State) (d : Deferred) (utc : Bool) (h : Kept pq s) : Kept pq (fireSched s d utc) := by
  unfold fireSched
  extract_lets +lift a1 a2
  with_reducible apply withCheck_kept
  · exact h
  · intro v3 v4 v5
    extract_lets +lift a6 a7 a8
    split
    · with_reducible apply faultOut_kept
      exact v5
    · split
      · with_reducible apply faultOut_kept
        exact v5
      · split
        · with_reducible apply faultOut_kept
          exact v5
        · split
          · rename_i x9 x10 x11 x12
            have h13 : Kept pq x11 := by
                refine kept_pair x12 ?_
                with_reducible apply tmuTake_kept
                exact v5
            with_reducible apply finish_kept
            exact h13

theorem firePop_kept {pq : List Instr} (s : State) (d : Deferred) (h : Kept pq s) : Kept pq (firePop s d) := by
  unfold firePop
  extract_lets +lift a1
  split
  · rename_i x2 x3 x4 x5
    have h6 : Kept pq x4 := by
        refine kept_pair x5 ?_
        split
        · dsimp only
          exact h
        · dsimp only
          exact kept_same h rfl rfl
    split
    · rename_i x7 x8 x9 x10
      have h11 : Kept pq x9 := by
          refine kept_pair x10 ?_
          with_reducible apply obtainAll_kept
          exact h6
      with_reducible apply finish_kept
      exact h11

theorem fireTmu_kept {pq : List Instr} (s : State) (d : Deferred) (h : Kept pq s) : Kept pq (fireTmu s d) := by
  unfold fireTmu
  extract_lets +lift a1
  split
  · split
    · rename_i x2 x3 x4 x5
      have h6 : Kept pq x4 := by
          refine kept_pair x5 ?_
          with_reducible apply obtainAll_kept
          exact h
      with_reducible apply finish_kept
      exact h6
  · split
    · rename_i x7 x8 x9 x10
      have h11 : Kept pq x9 := by
          refine kept_pair x10 ?_
          with_reducible apply obtainAll_kept
          exact h
      with_reducible apply finish_kept
      exact h11
  · with_reducible apply fireSched_kept
    exact h
  · with_reducible apply fireSched_kept
    exact h
  · with_reducible apply fireCancel_kept
    exact h
  · with_reducible apply firePop_kept
    exact h
  · exact h

theorem fireFld_kept {pq : List Instr} (s : State) (d : Deferred) (h : Kept pq s) : Kept pq (fireFld s d) := by
  unfold fireFld
  refine withCheck_kept _ _ _ _ _ _ h fun vs s h => ?_
  dsimp only
  by_cases c1 : (!fastOk (opn vs 4)) = true
  · rw [if_pos c1]
    exact faultOut_kept _ _ _ _ _ _ _ h
  · rw [if_neg c1]
    by_cases c2 : fastNames (opn vs 4) = true
    · rw [if_pos c2]
      exact fastEnter_kept _ _ _ h
    · rw [if_neg c2]
      exact h

theorem fireDft_kept {pq : List Instr} (s : State) (d : Deferred) (h : Kept pq s) : Kept pq (fireDft s d) := by
  unfold fireDft
  with_reducible apply withCheck_kept
  · exact h
  · intro v1 v2 v3
    split
    · with_reducible apply faultOut_kept
      exact v3
    · extract_lets +lift a4
      split
      · with_reducible apply faultOut_kept
        exact v3
      · split
        · with_reducible apply addrOut_kept
          exact v3
        · with_reducible apply finish_kept
          exact v3

theorem selPut_kept {pq : List Instr} (s : State) (t : Nat) (iss : Nat) (n : Nat) (h : Kept pq s) : Kept pq (selPut s t iss n) := by
  unfold selPut
  extract_lets +lift a1 a2
  exact kept_same h rfl rfl

theorem setCell_kept {pq : List Instr} (s : State) (i : Nat) (c : Nat × Nat) (h : Kept pq s) : Kept pq (setCell s i c) := by
  unfold setCell
  exact kept_same h rfl rfl

theorem fireImg_kept {pq : List Instr} (s : State) (d : Deferred) (h : Kept pq s) : Kept pq (fireImg s d) := by
  unfold fireImg
  extract_lets +lift a1
  with_reducible apply withCheck_kept
  · exact h
  · intro v2 v3 v4
    split
    · with_reducible apply faultOut_kept
      exact v4
    · with_reducible apply fireEnd_kept
      exact v4

theorem tmuFast_kept {pq : List Instr} (s : State) (w : Word) (h : Kept pq s) : Kept pq (tmuFast s w) := by
  unfold tmuFast
  extract_lets +lift a1 a2 a3
  split
  · exact h
  · split
    · with_reducible apply fastEnter_kept
      exact h
    · exact kept_same h rfl rfl

theorem tmuEarly_kept {pq : List Instr} (s : State) (i : Nat) (h : Kept pq s) : Kept pq (tmuEarly s i) := by
  unfold tmuEarly
  split
  · split
    · with_reducible apply addMark_kept
      with_reducible apply tmuFast_kept
      exact h
    · exact h
  · exact h

theorem addBranch_kept {pq : List Instr} (s : State) (t : Nat) (target : Nat) (h : Kept pq s) : Kept pq (addBranch s t target) := by
  unfold addBranch
  exact kept_same h rfl rfl

theorem fireBru_kept {pq : List Instr} (s : State) (d : Deferred) (h : Kept pq s) : Kept pq (fireBru s d) := by
  unfold fireBru
  extract_lets +lift a1 a2 a3
  split
  · with_reducible apply withCheck_kept
    · exact h
    · intro v4 v5 v6
      extract_lets +lift a7 a8
      have h9 : Kept pq a8 := by
          unfold a8
          with_reducible apply logBit_kept
          exact kept_same v6 rfl rfl
      clear_value a8
      with_reducible apply finish_kept
      exact h9
  · with_reducible apply withCheck_kept
    · exact h
    · intro v10 v11 v12
      extract_lets +lift a13
      with_reducible apply finish_kept
      with_reducible apply addBranch_kept
      exact v12

theorem fifoPut_kept {pq : List Instr} (s : State) (rec : Nat) (hi : Nat) (lo : Nat) (h : Kept pq s) : Kept pq (fifoPut s rec hi lo) := by
  unfold fifoPut
  extract_lets +lift a1 a2 a3 a4
  have h5 : Kept pq a3 := by
      unfold a3
      with_reducible apply setF_kept
      with_reducible apply incSat_kept
      exact h
  clear_value a3
  split
  · exact kept_same h rfl rfl
  · exact kept_same h5 rfl rfl

theorem giveWords_kept {pq : List Instr} (s : State) (t : Nat) (ws : List TWord) (a : Nat) (h : Kept pq s) : Kept pq (giveWords s t ws a) := by
  unfold giveWords
  with_reducible apply kept_foldl
  · exact h
  · intro v1 v2 v3
    with_reducible apply streamEv_kept
    exact v3

theorem cellPut_kept {pq : List Instr} (s : State) (unit : Nat) (cell : Nat) (c : Nat × Nat) (h : Kept pq s) : Kept pq (cellPut s unit cell c) := by
  unfold cellPut
  extract_lets +lift a1
  have h2 : Kept pq a1 := by
      unfold a1
      with_reducible apply addMark_kept
      exact h
  clear_value a1
  split
  · exact h2
  · with_reducible apply setCell_kept
    exact h2

theorem fireGbu_kept {pq : List Instr} (base : State) (s : State) (d : Deferred) (h1 : Kept pq base) (h2 : Kept pq s) : Kept pq (fireGbu base s d) := by
  unfold fireGbu
  extract_lets +lift a1 a2 a3 a4
  with_reducible apply withCheck_kept
  · exact h2
  · intro v5 v6 v7
    split
    · split
      · with_reducible apply faultOut_kept
        exact v7
      · split
        · with_reducible apply faultOut_kept
          exact v7
        · split
          rename_i x8 x9 x10 x11
          have h12 : Kept pq x10 := by
              refine kept_pair x11 ?_
              with_reducible apply gbuBit_kept
              · exact h1
              · exact v7
          extract_lets +lift a13
          split
          extract_lets +lift a14
          have h15 : Kept pq a14 := by
              unfold a14
              with_reducible apply moveWriteBit_kept
              with_reducible apply cellPut_kept
              exact h12
          clear_value a14
          with_reducible apply finish_kept
          exact h15
    · split
      · with_reducible apply faultOut_kept
        exact v7
      · split
        rename_i x16 x17 x18 x19
        have h20 : Kept pq x18 := by
            refine kept_pair x19 ?_
            with_reducible apply gbuBit_kept
            · exact h1
            · exact v7
        split
        rename_i x21 x22 x23 x24
        have h25 : Kept pq x23 := by
            refine kept_pair x24 ?_
            split
            · with_reducible apply gbuBit_kept
              · exact h1
              · exact h20
            · exact h20
        split
        rename_i x26 x27 x28 x29
        have h30 : Kept pq x28 := by
            refine kept_pair x29 ?_
            split
            · with_reducible apply gbuBit_kept
              · exact h1
              · exact h25
            · exact h25
        split
        · clear_value a1
          clear_value a2
          clear_value a4
          dsimp only
          with_reducible apply finish_kept
          with_reducible apply moveWriteBit_kept
          with_reducible apply moveWriteBit_kept
          with_reducible apply gbuBit_kept
          · exact h1
          · exact h30
        · clear_value a1
          clear_value a2
          clear_value a4
          dsimp only
          with_reducible apply finish_kept
          with_reducible apply moveWriteBit_kept
          exact h30

theorem tmuFire_kept {pq : List Instr} (s : State) (i : Nat) (stepped : Bool) (h : Kept pq s) : Kept pq (tmuFire s i stepped) := by
  unfold tmuFire
  extract_lets +lift a1
  split
  · exact h
  · extract_lets +lift a2 a3 a4 a5 a6 a7
    have h8 : Kept pq a2 := by
        unfold a2
        with_reducible apply streamEv_kept
        exact h
    clear_value a2
    have h9 : Kept pq a4 := by
        unfold a4
        exact kept_same h8 rfl rfl
    clear_value a4
    have h10 : Kept pq a5 := by
        unfold a5
        split
        · with_reducible apply userWriteBit_kept
          exact h9
        · with_reducible apply userWriteBit_kept
          exact h9
        · split
          · exact h9
          · with_reducible apply tmuFast_kept
            exact h9
        · exact h9
    clear_value a5
    split
    · with_reducible apply fifoPut_kept
      exact h10
    · exact h10

theorem markEntry_kept {pq : List Instr} (s : State) (e : Nat) (h : Kept pq s) : Kept pq (markEntry s e) := by
  unfold markEntry
  extract_lets +lift a1 a2 a3
  have h4 : Kept pq a1 := by
      unfold a1
      split
      · exact h
      · with_reducible apply setF_kept
        exact h
  clear_value a1
  have h5 : Kept pq a2 := by
      unfold a2
      with_reducible apply setF_kept
      exact h4
  clear_value a2
  split
  · exact h5
  · exact kept_same h5 rfl rfl

theorem fetchDt_kept {pq : List Instr} (s : State) (e : Nat) (w : Nat) (h : Kept pq s) : Kept pq (fetchDt s e w).2 := by
  unfold fetchDt
  split
  · dsimp only
    exact h
  · dsimp only
    with_reducible apply eccCorr_kept
    exact h
  · dsimp only
    with_reducible apply halt_kept
    with_reducible apply markEntry_kept
    exact h

theorem fireCmac_kept {pq : List Instr} (s : State) (d : Deferred) (h : Kept pq s) : Kept pq (fireCmac s d) := by
  unfold fireCmac
  with_reducible apply withCheck_kept
  · exact h
  · intro v1 v2 v3
    split
    · rename_i x4 x5 x6 x7
      have h8 : Kept pq x6 := by
          refine kept_pair x7 ?_
          with_reducible apply drawFree_kept
          exact v3
      extract_lets +lift a9
      split
      · with_reducible apply finish_kept
        exact kept_same h8 rfl rfl
      · with_reducible apply faultOut_kept
        exact h8

theorem mbxTake_kept {pq : List Instr} (s : State) (n : Nat) (h : Kept pq s) : Kept pq (mbxTake s n).2 := by
  unfold mbxTake
  extract_lets +lift a1
  split
  · dsimp only
    exact h
  · dsimp only
    exact kept_same h rfl rfl

theorem firePureTrig_kept {pq : List Instr} (s : State) (d : Deferred) (op : PureOp) (h : Kept pq s) : Kept pq (firePureTrig s d op) := by
  unfold firePureTrig
  split
  · rename_i x1 x2 x3 x4
    have h5 : Kept pq x3 := by
        refine kept_pair x4 ?_
        with_reducible apply firePure_kept
        exact h
    with_reducible apply finish_kept
    exact h5
  · rename_i x6 x7 x8
    have h9 : Kept pq x7 := by
        refine kept_pair x8 ?_
        with_reducible apply firePure_kept
        exact h
    exact h9

theorem fireFldCmd_kept {pq : List Instr} (s : State) (d : Deferred) (h : Kept pq s) : Kept pq (fireFldCmd s d) := by
  unfold fireFldCmd
  refine withCheck_kept _ _ _ _ _ _ h fun vs s h => ?_
  dsimp only
  by_cases c1 : 256 ≤ opn vs 0 ∨ bitOf (opn vs 0) 3 = true ∨ bitsOf (opn vs 0) 4 4 < 1 ∨ 8 < bitsOf (opn vs 0) 4 4
  · rw [if_pos c1]
    exact faultOut_kept _ _ _ _ _ _ _ h
  · rw [if_neg c1]
    by_cases c2 : 0x80000 < opn vs 4 + bitsOf (opn vs 0) 4 4
    · rw [if_pos c2]
      exact addrOut_kept _ _ _ _ _ _ h
    · rw [if_neg c2]
      exact finish_kept _ _ _ _ _ _ h

theorem fireRecv_kept {pq : List Instr} (s : State) (d : Deferred) (h : Kept pq s) : Kept pq (fireRecv s d) := by
  unfold fireRecv
  extract_lets +lift a1 a2
  with_reducible apply withCheck_kept
  · exact h
  · intro v3 v4 v5
    extract_lets +lift a6 a7 a8 a9
    split
    · with_reducible apply faultOut_kept
      exact v5
    · split
      · with_reducible apply faultOut_kept
        exact v5
      · split
        · with_reducible apply addrOut_kept
          exact v5
        · split
          · with_reducible apply addrOut_kept
            exact v5
          · split
            · rename_i x10 x11 x12 x13
              have h14 : Kept pq x12 := by
                  refine kept_pair x13 ?_
                  with_reducible apply mbxTake_kept
                  exact v5
              extract_lets +lift a15
              split
              · dsimp only
                with_reducible apply finish_kept
                split
                · with_reducible apply takeWords_kept
                  with_reducible apply obtainAll_kept
                  exact h14
                · with_reducible apply libRecv_kept
                  with_reducible apply takeWords_kept
                  with_reducible apply obtainAll_kept
                  exact h14
              · dsimp only
                with_reducible apply finish_kept
                split
                · with_reducible apply giveWords_kept
                  with_reducible apply obtainAll_kept
                  exact h14
                · with_reducible apply libRecv_kept
                  with_reducible apply giveWords_kept
                  with_reducible apply obtainAll_kept
                  exact h14

theorem fireSendEth_kept {pq : List Instr} (s : State) (d : Deferred) (h : Kept pq s) : Kept pq (fireSendEth s d) := by
  unfold fireSendEth
  refine withCheck_kept _ _ _ _ _ _ h fun vs s h => ?_
  dsimp only
  by_cases c1 : opn vs 0 / 2 ^ 27 ≠ 0 ∨ bitsOf (opn vs 0) 7 9 ≠ 0 ∨ bitsOf (opn vs 0) 16 11 < 60 ∨
      1518 < bitsOf (opn vs 0) 16 11
  · rw [if_pos c1]
    exact faultOut_kept _ _ _ _ _ _ _ h
  · rw [if_neg c1]
    by_cases c2 : 0x80000 < opn vs 4 + (bitsOf (opn vs 0) 16 11 + 3) / 4
    · rw [if_pos c2]
      exact addrOut_kept _ _ _ _ _ _ h
    · rw [if_neg c2]
      exact finish_kept _ _ _ _ _ _ h

theorem fireQu_kept {pq : List Instr} (s : State) (d : Deferred) (h : Kept pq s) : Kept pq (fireQu s d) := by
  unfold fireQu
  split
  · with_reducible apply fireRecv_kept
    exact h
  · with_reducible apply fireSendEth_kept
    exact h
  · with_reducible apply fireSendCan_kept
    exact h
  · with_reducible apply fireFldCmd_kept
    exact h
  · with_reducible apply withCheck_kept
    · exact h
    · intro v1 v2 v3
      with_reducible apply finish_kept
      exact v3
  · with_reducible apply withCheck_kept
    · exact h
    · intro v4 v5 v6
      with_reducible apply finish_kept
      exact v6

theorem fireMac_kept {pq : List Instr} (s : State) (d : Deferred) (h : Kept pq s) : Kept pq (fireMac s d) := by
  unfold fireMac
  extract_lets +lift a1 a2 a3 a4 a5
  split
  · with_reducible apply withCheck_kept
    · exact h
    · intro v6 v7 v8
      split
      · with_reducible apply faultOut_kept
        exact v8
      · with_reducible apply selPut_kept
        exact v8
  · split
    rename_i x9 x10 x11 x12
    have h13 : Kept pq x11 := by
        refine kept_pair x12 ?_
        with_reducible apply kept_foldl_pair
        · exact h
        · intro v14 v15 v16
          split
          · with_reducible apply fetchDt_kept
            exact v16
          · exact v16
    extract_lets +lift a17
    split
    · exact h13
    · split
      · with_reducible apply halt_kept
        exact h13
      · split
        · with_reducible apply faultOut_kept
          exact h13
        · with_reducible apply withCheck_kept
          · exact h13
          · intro v18 v19 v20
            extract_lets +lift a21
            with_reducible apply finish_kept
            exact kept_same v20 rfl rfl

theorem fireTrig_kept {pq : List Instr} (base : State) (s : State) (d : Deferred) (h1 : Kept pq base) (h2 : Kept pq s) : Kept pq (fireTrig base s d) := by
  unfold fireTrig
  extract_lets +lift a1 a2 a3 a4
  have h5 : Kept pq a4 := by
      unfold a4
      split
      · exact h2
      · exact kept_same h2 rfl rfl
  clear_value a4
  split
  · with_reducible apply firePureTrig_kept
    exact h5
  · clear_value a1
    split
    · with_reducible apply fireGbu_kept
      · exact h1
      · exact h5
    · with_reducible apply fireGbu_kept
      · exact h1
      · exact h5
    · split
      · with_reducible apply fireCmac_kept
        exact h5
      · with_reducible apply fireDft_kept
        exact h5
    · with_reducible apply fireLsu_kept
      exact h5
    · with_reducible apply fireLsu_kept
      exact h5
    · with_reducible apply fireBru_kept
      exact h5
    · with_reducible apply fireTmu_kept
      exact h5
    · with_reducible apply fireQu_kept
      exact h5
    · with_reducible apply fireImg_kept
      exact h5
    · with_reducible apply fireMac_kept
      exact h5
    · with_reducible apply fireFld_kept
      exact h5
    · exact h5

theorem fastDrain_kept {pq : List Instr} (s : State) (h : Kept pq s) : Kept pq (fastDrain s) := by
  unfold fastDrain
  extract_lets +lift a1 a2
  split
  · extract_lets +lift a3
    exact kept_same h rfl rfl
  · exact h

end Sys2Proof.Machine
end

