-- ==== Sys2Proof/Laws/KeptCore.lean ====
section
/-! SUPPORT. What keeps the memories canonical and the queue: the rules, the NV interface, the buses, the transactions, the rows of the units and the engine. -/

set_option linter.unusedVariables false

namespace Sys2Proof.Machine

open Reg

theorem nvFinish_kept {pq : List Instr} (s : State) (status : Nat) (h : Kept pq s) : Kept pq (nvFinish s status) := by
  unfold nvFinish
  extract_lets +lift a1 a2 a3 a4
  have h5 : Kept pq a2 := by
      unfold a2
      exact kept_same h rfl rfl
  clear_value a2
  have h6 : Kept pq a3 := by
      unfold a3
      split
      · with_reducible apply incStop_kept
        exact h5
      · exact h5
  clear_value a3
  split
  · exact h
  · extract_lets +lift a7 a8 a9
    have h10 : Kept pq a7 := by
        unfold a7
        split
        · exact kept_same h6 rfl rfl
        · exact h6
    clear_value a7
    have h11 : Kept pq a9 := by
        unfold a9
        with_reducible apply opEnd?_kept
        exact h10
    clear_value a9
    split
    · with_reducible apply zcpReply_kept
      with_reducible apply journalPut_kept
      exact h11
    · exact h11

theorem nvRead_kept {pq : List Instr} (s : State) (a : Nat) (n : Nat) (h : Kept pq s) : Kept pq (nvRead s a n).2 := by
  unfold nvRead
  split
  · rename_i x1 x2 x3 x4
    have h5 : Kept pq x3 := by
        refine kept_pair x4 ?_
        with_reducible apply drawBytes_kept
        exact h
    split
    · dsimp only
      exact h5
    · dsimp only
      exact h

theorem updHolder_kept {pq : List Instr} (s : State) (f : NvJob → NvJob) (h : Kept pq s) : Kept pq (updHolder s f) := by
  unfold updHolder
  exact kept_same h rfl rfl

theorem norErase_kept {pq : List Instr} (s : State) (a : Nat) (h : Kept pq s) : Kept pq (norErase s a) := by
  unfold norErase
  exact kept_same h rfl rfl

theorem nvBegin_kept {pq : List Instr} (s : State) (j : NvJob) (st : NvStep) (rest : List NvStep) (h : Kept pq s) : Kept pq (nvBegin s j st rest) := by
  unfold nvBegin
  extract_lets +lift a1 a2
  split
  · with_reducible apply norErase_kept
    split
    · with_reducible apply opPnr_kept
      exact h
    · exact h
  · exact kept_same h rfl rfl
  · exact kept_same h rfl rfl
  · with_reducible apply opPnr_kept
    exact h
  · exact h

theorem nvGo_kept {pq : List Instr} (l : List NvStep) (s : State) (h : Kept pq s) : Kept pq (nvGo l s) := by
  induction l generalizing s with
  | nil => exact nvFinish_kept _ _ h
  | cons st r ih =>
    cases st with
    | verify a b c =>
      simp only [nvGo]
      split
      · exact ih _ h
      · exact nvFinish_kept _ _ h
    | read a n => exact ih _ (updHolder_kept _ _ (nvRead_kept _ _ _ h))
    | journal n => exact ih _ (setF_kept _ _ _ h)
    | _ =>
      simp only [nvGo]
      split
      · exact nvBegin_kept _ _ _ _ (updHolder_kept _ _ h)
      · exact h

theorem noNor_kept {pq : List Instr} (s : State) (h : Kept pq s) : Kept pq (noNor s).2 := by
  unfold noNor
  dsimp only
  with_reducible apply incStop_kept
  exact h

theorem nvTake_kept {pq : List Instr} (s : State) (j : NvJob) (h : Kept pq s) : Kept pq (nvTake s j) := by
  unfold nvTake
  extract_lets +lift a1 a2 a3 a4
  have h5 : Kept pq a3 := by
      unfold a3
      split
      · exact kept_same h rfl rfl
      · exact h
  clear_value a3
  with_reducible apply nvGo_kept
  exact kept_same h5 rfl rfl

theorem nvRequest_kept {pq : List Instr} (s : State) (j : NvJob) (h : Kept pq s) : Kept pq (nvRequest s j) := by
  unfold nvRequest
  extract_lets +lift a1
  split
  · with_reducible apply nvTake_kept
    exact h
  · exact kept_same h rfl rfl

theorem selfRefused_kept {pq : List Instr} (s : State) (h : Kept pq s) : Kept pq (selfRefused s).2 := by
  unfold selfRefused
  dsimp only
  with_reducible apply incStop_kept
  exact h

theorem nvSoon_kept {pq : List Instr} (s : State) (rq : ZReq) (opcode : Nat) (object : Nat) (detail : Nat) (steps : List NvStep) (h : Kept pq s) : Kept pq (nvSoon s rq opcode object detail steps).2 := by
  unfold nvSoon
  extract_lets +lift a1 a2
  dsimp only
  with_reducible apply nvRequest_kept
  exact h

theorem zNvProgram_kept {pq : List Instr} (s : State) (rq : ZReq) (a : Nat) (bs : List Byte) (h : Kept pq s) : Kept pq (zNvProgram s rq a bs).2 := by
  unfold zNvProgram
  extract_lets +lift a1
  split
  · dsimp only
    exact h
  · split
    · dsimp only
      exact h
    · split
      · with_reducible apply noNor_kept
        exact h
      · split
        · with_reducible apply selfRefused_kept
          exact h
        · split
          · dsimp only
            exact h
          · with_reducible apply nvSoon_kept
            exact h

theorem nvAbort_kept {pq : List Instr} (s : State) (i : Nat) (h : Kept pq s) : Kept pq (nvAbort s i) := by
  unfold nvAbort
  extract_lets +lift a1 a2 a3 a4 a5
  have h6 : Kept pq a3 := by
      unfold a3
      exact kept_same h rfl rfl
  clear_value a3
  have h7 : Kept pq a5 := by
      unfold a5
      split
      · exact kept_same h6 rfl rfl
      · exact h6
  clear_value a5
  split
  · split
    · with_reducible apply updHolder_kept
      exact h
    · with_reducible apply opEnd_kept
      exact h7
  · split
    · with_reducible apply updHolder_kept
      exact h
    · with_reducible apply opEnd_kept
      exact h7

theorem execNvInterfaceGrant_kept {pq : List Instr} (s : State) (h : Kept pq s) :
    ∃ s', execNvInterfaceGrant s = .next s' ∧ Kept pq s' := by
  unfold execNvInterfaceGrant
  refine ⟨_, rfl, ?_⟩
  extract_lets +lift a1
  split
  · exact h
  · split
    · exact h
    · split
      · exact h
      · with_reducible apply nvTake_kept
        exact kept_same h rfl rfl

theorem nvLong_kept {pq : List Instr} (s : State) (rq : ZReq) (opcode : Nat) (steps : List NvStep) (result : List Byte) (h : Kept pq s) : Kept pq (nvLong s rq opcode steps result).2 := by
  unfold nvLong
  extract_lets +lift a1
  split
  · dsimp only
    exact h
  · rename_i x2 x3 x4 x5
    have h6 : Kept pq x4 := by
        refine opTake_kept x5 ?_
        exact h
    dsimp only
    with_reducible apply nvRequest_kept
    exact h6

theorem takeSnapshot_kept {pq : List Instr} (s : State) (h : Kept pq s) : Kept pq (takeSnapshot s) := by
  unfold takeSnapshot
  extract_lets +lift a1 a2
  have h3 : Kept pq a1 := by
      unfold a1
      with_reducible apply nvDropRank_kept
      exact h
  clear_value a1
  split
  · exact h
  · with_reducible apply nvRequest_kept
    exact kept_same h3 rfl rfl

theorem execRetSnapshot_kept {pq : List Instr} (s : State) (h : Kept pq s) :
    ∃ s', execRetSnapshot s = .next s' ∧ Kept pq s' := by
  unfold execRetSnapshot
  refine ⟨_, rfl, ?_⟩
  split
  · with_reducible apply takeSnapshot_kept
    exact h
  · exact h

theorem zNvRead_kept {pq : List Instr} (s : State) (rq : ZReq) (a : Nat) (n : Nat) (h : Kept pq s) : Kept pq (zNvRead s rq a n).2 := by
  unfold zNvRead
  split
  · dsimp only
    exact h
  · split
    · dsimp only
      exact h
    · split
      · with_reducible apply noNor_kept
        exact h
      · split
        · dsimp only
          exact h
        · with_reducible apply nvSoon_kept
          exact h

theorem norProgram_kept {pq : List Instr} (s : State) (a : Nat) (bs : List Byte) (h : Kept pq s) : Kept pq (norProgram s a bs) := by
  unfold norProgram
  exact kept_same h rfl rfl

theorem foldSets_kept {pq : List Instr} (s : State) (base : Nat) (h : Kept pq s) : Kept pq (foldSets s base) := by
  unfold foldSets
  exact kept_same h rfl rfl

theorem nvDone_kept {pq : List Instr} (s : State) (j : NvJob) (st : NvStep) (h : Kept pq s) : Kept pq (nvDone s j st).2 := by
  unfold nvDone
  extract_lets +lift a1
  split
  · dsimp only
    with_reducible apply opProgress_kept
    exact h
  · extract_lets +lift a2
    have h3 : Kept pq a2 := by
        unfold a2
        with_reducible apply norProgram_kept
        exact h
    clear_value a2
    dsimp only
    with_reducible apply opProgress_kept
    exact h3
  · dsimp only
    exact kept_same h rfl rfl
  · dsimp only
    with_reducible apply setFs_kept
    exact kept_same h rfl rfl
  · extract_lets +lift a4 a5 a6 a7
    have h8 : Kept pq a5 := by
        unfold a5
        with_reducible apply norProgram_kept
        exact h
    clear_value a5
    have h9 : Kept pq a6 := by
        unfold a6
        with_reducible apply setF_kept
        with_reducible apply foldSets_kept
        exact h8
    clear_value a6
    split
    · dsimp only
      split
      · exact kept_same h9 rfl rfl
      · exact h9
    · exact h8
  · exact h

theorem zNvImageClose_kept {pq : List Instr} (s : State) (rq : ZReq) (h : Kept pq s) : Kept pq (zNvImageClose s rq).2 := by
  unfold zNvImageClose
  split
  · dsimp only
    exact h
  · split
    · with_reducible apply noNor_kept
      exact h
    · split
      · dsimp only
        exact h
      · with_reducible apply nvLong_kept
        exact h

theorem zNvImageData_kept {pq : List Instr} (s : State) (rq : ZReq) (ofs : Nat) (bs : List Byte) (h : Kept pq s) : Kept pq (zNvImageData s rq ofs bs).2 := by
  unfold zNvImageData
  split
  · dsimp only
    exact h
  · split
    · dsimp only
      exact h
    · split
      · with_reducible apply noNor_kept
        exact h
      · split
        · dsimp only
          exact h
        · split
          · dsimp only
            exact h
          · with_reducible apply nvSoon_kept
            exact h

theorem zNvErase_kept {pq : List Instr} (s : State) (rq : ZReq) (a : Nat) (n : Nat) (h : Kept pq s) : Kept pq (zNvErase s rq a n).2 := by
  unfold zNvErase
  split
  · dsimp only
    exact h
  · split
    · dsimp only
      exact h
    · split
      · with_reducible apply noNor_kept
        exact h
      · split
        · with_reducible apply selfRefused_kept
          exact h
        · split
          · dsimp only
            exact h
          · with_reducible apply nvLong_kept
            exact h

theorem zNvImageOpen_kept {pq : List Instr} (s : State) (rq : ZReq) (slot : Nat) (len : Nat) (crc : Nat) (h : Kept pq s) : Kept pq (zNvImageOpen s rq slot len crc).2 := by
  unfold zNvImageOpen
  extract_lets +lift a1
  split
  · dsimp only
    exact h
  · split
    · dsimp only
      exact h
    · split
      · with_reducible apply noNor_kept
        exact h
      · split
        · with_reducible apply selfRefused_kept
          exact h
        · split
          · rename_i x2 x3 x4 x5
            have h6 : Kept pq x4 := by
                refine kept_pair x5 ?_
                with_reducible apply nvLong_kept
                exact kept_same h rfl rfl
            dsimp only
            exact h6
          · rename_i x7 x8 x9 x10 x11
            have h12 : Kept pq x9 := by
                refine kept_pair x11 ?_
                with_reducible apply nvLong_kept
                exact kept_same h rfl rfl
            dsimp only
            exact h

theorem zNvSave_kept {pq : List Instr} (s : State) (rq : ZReq) (h : Kept pq s) : Kept pq (zNvSave s rq).2 := by
  unfold zNvSave
  extract_lets +lift a1 a2 a3
  split
  · dsimp only
    exact h
  · split
    · with_reducible apply noNor_kept
      exact h
    · split
      · dsimp only
        exact h
      · split
        · rename_i x4 x5 x6 x7
          have h8 : Kept pq x6 := by
              refine kept_pair x7 ?_
              with_reducible apply nvLong_kept
              exact h
          dsimp only
          with_reducible apply takeSnapshot_kept
          exact h8
        · rename_i x9 x10 x11 x12 x13
          have h14 : Kept pq x11 := by
              refine kept_pair x13 ?_
              with_reducible apply nvLong_kept
              exact h
          dsimp only
          exact h14

theorem execNorOperationDone_kept {pq : List Instr} (s : State) (h : Kept pq s) :
    ∃ s', execNorOperationDone s = .next s' ∧ Kept pq s' := by
  unfold execNorOperationDone
  refine ⟨_, rfl, ?_⟩
  split
  · exact h
  · split
    · exact h
    · split
      · rename_i x1 x2 x3 x4
        have h5 : Kept pq x3 := by
            refine kept_pair x4 ?_
            with_reducible apply nvDone_kept
            exact h
        split
        · with_reducible apply nvFinish_kept
          exact h5
        · split
          · with_reducible apply nvFinish_kept
            exact h5
          · with_reducible apply nvGo_kept
            exact h5

theorem execJournalMirror_kept {pq : List Instr} (s : State) (h : Kept pq s) :
    ∃ s', execJournalMirror s = .next s' ∧ Kept pq s' := by
  unfold execJournalMirror
  refine ⟨_, rfl, ?_⟩
  split
  · exact h
  · with_reducible apply nvRequest_kept
    exact h

theorem ruleShadow_kept {pq : List Instr} (s : State) (h : Kept pq s) : Kept pq (ruleShadow s) := by
  unfold ruleShadow
  extract_lets +lift a1 a2 a3 a4 a5 a6 a7 a8 a9
  exact kept_same h rfl rfl

theorem ruleSwap_kept {pq : List Instr} (s : State) (h : Kept pq s) : Kept pq (ruleSwap s) := by
  unfold ruleSwap
  extract_lets +lift a1 a2
  with_reducible apply setF_kept
  exact kept_same h rfl rfl

theorem canPop_kept {pq : List Instr} (s : State) (n : Nat) (hpb : Bool) (h : Kept pq s) : Kept pq (canPop s n hpb) := by
  unfold canPop
  with_reducible apply updCan_kept
  exact h

theorem rxFifo_kept {pq : List Instr} (s : State) (n : Nat) (e : List Nat) (h : Kept pq s) : Kept pq (rxFifo s n e) := by
  unfold rxFifo
  split
  · with_reducible apply updCan_kept
    exact h
  · with_reducible apply setRaise_kept
    with_reducible apply incSat_kept
    exact h

theorem canFilter_kept {pq : List Instr} (s : State) (sf : State) (n : Nat) (f : CanFrame) (stamp : Nat) (h1 : Kept pq s) (h2 : Kept pq sf) : Kept pq (canFilter s sf n f stamp) := by
  unfold canFilter
  extract_lets +lift a1
  have h2 : Kept pq a1 := by
      unfold a1
      with_reducible apply wakeSource_kept
      exact h1
  clear_value a1
  split
  · split
    · with_reducible apply updCan_kept
      exact h2
    · with_reducible apply rxFifo_kept
      with_reducible apply setF_kept
      exact h2
  · split
    · split
      · exact h1
      · with_reducible apply rxFifo_kept
        with_reducible apply wakeSource_kept
        exact h1
    · with_reducible apply incSat_kept
      exact h1

theorem canAfter_kept {pq : List Instr} (s : State) (n : Nat) (h : Kept pq s) : Kept pq (canAfter s n) := by
  unfold canAfter
  extract_lets +lift a1
  have h2 : Kept pq a1 := by
      unfold a1
      split
      · with_reducible apply canReinitNow_kept
        exact h
      · exact h
  clear_value a1
  with_reducible apply canLoadZcp_kept
  split
  · with_reducible apply canLoad_kept
    exact h2
  · exact h2

theorem execTtRefWatchTimeout_kept {pq : List Instr} (n : Nat) (s : State) (h : Kept pq s) :
    ∃ s', execTtRefWatchTimeout n s = .next s' ∧ Kept pq s' := by
  unfold execTtRefWatchTimeout
  refine ⟨_, rfl, ?_⟩
  extract_lets +lift a1
  have h2 : Kept pq a1 := by
      unfold a1
      split
      · exact h
      · with_reducible apply canLoseExcl_kept
        exact h
  clear_value a1
  split
  · with_reducible apply setRaise_kept
    with_reducible apply setF_kept
    exact h2
  · exact h

theorem canSaw_kept {pq : List Instr} (s : State) (n : Nat) (h : Kept pq s) : Kept pq (canSaw s n) := by
  unfold canSaw
  with_reducible apply updCan_kept
  exact h

theorem syncMark_kept {pq : List Instr} (s : State) (n : Nat) (count : Nat) (prio : Nat) (sent : Bool) (cyc : Nat) (h : Kept pq s) : Kept pq (syncMark s n count prio sent cyc) := by
  unfold syncMark
  extract_lets +lift a1 a2 a3
  have h4 : Kept pq a1 := by
      unfold a1
      split
      · with_reducible apply canLoadSched_kept
        exact h
      · exact h
  clear_value a1
  have h5 : Kept pq a2 := by
      unfold a2
      with_reducible apply updCan_kept
      exact h4
  clear_value a2
  with_reducible apply pulse_kept
  with_reducible apply setFs_kept
  exact h5

theorem execCanTxDone_kept {pq : List Instr} (n : Nat) (s : State) (h : Kept pq s) :
    ∃ s', execCanTxDone n s = .next s' ∧ Kept pq s' := by
  unfold execCanTxDone
  refine ⟨_, rfl, ?_⟩
  extract_lets +lift a1 a2
  have h3 : Kept pq a2 := by
      unfold a2
      with_reducible apply updCan_kept
      exact h
  clear_value a2
  split
  · exact h
  · extract_lets +lift a4
    have h5 : Kept pq a4 := by
        unfold a4
        split
        · extract_lets +lift a6 a7 a8
          have h9 : Kept pq a7 := by
              unfold a7
              with_reducible apply updTb_kept
              exact h3
          clear_value a7
          have h10 : Kept pq a8 := by
              unfold a8
              split
              · with_reducible apply setFs_kept
                exact h9
              · with_reducible apply setF_kept
                exact h9
          clear_value a8
          split
          · with_reducible apply postedDone_kept
            exact h10
          · exact h10
        · split
          · with_reducible apply postedDone_kept
            with_reducible apply updCan_kept
            exact h3
          · exact h3
        · split
          · with_reducible apply syncMark_kept
            exact h3
          · exact h3
    clear_value a4
    with_reducible apply canAfter_kept
    exact h5

theorem canAttempt_kept {pq : List Instr} (s : State) (n : Nat) (a : CanAtt) (h : Kept pq s) : Kept pq (canAttempt s n a) := by
  unfold canAttempt
  with_reducible apply updCan_kept
  exact h

theorem execCanTxStart_kept {pq : List Instr} (n : Nat) (s : State) (h : Kept pq s) :
    ∃ s', execCanTxStart n s = .next s' ∧ Kept pq s' := by
  unfold execCanTxStart
  refine ⟨_, rfl, ?_⟩
  extract_lets +lift a1
  split
  · exact h
  · split
    · with_reducible apply canAttempt_kept
      exact h
    · split
      · with_reducible apply canAttempt_kept
        exact h
      · split
        · with_reducible apply canAttempt_kept
          with_reducible apply updTb_kept
          exact h
        · exact h

theorem dropCtx_kept {pq : List Instr} (s : State) (n : Nat) (peer : Nat) (h : Kept pq s) : Kept pq (dropCtx s n peer) := by
  unfold dropCtx
  with_reducible apply updCan_kept
  exact h

theorem ctxGrown_kept {pq : List Instr} (s : State) (n : Nat) (x : CanCtx) (last : Bool) (h : Kept pq s) : Kept pq (ctxGrown s n x last) := by
  unfold ctxGrown
  extract_lets +lift a1 a2 a3
  have h4 : Kept pq a1 := by
      unfold a1
      with_reducible apply dropCtx_kept
      exact h
  clear_value a1
  have h5 : Kept pq a2 := by
      unfold a2
      with_reducible apply updCan_kept
      exact h4
  clear_value a2
  have h6 : Kept pq a3 := by
      unfold a3
      with_reducible apply updCan_kept
      exact h4
  clear_value a3
  split
  · exact h4
  · split
    · exact h5
    · with_reducible apply zcpArrive_kept
      exact h6

theorem zcpSegment_kept {pq : List Instr} (s : State) (n : Nat) (f : CanFrame) (h : Kept pq s) : Kept pq (zcpSegment s n f) := by
  unfold zcpSegment
  extract_lets +lift a1 a2 a3 a4 a5 a6 a7
  have h8 : Kept pq a6 := by
      unfold a6
      with_reducible apply incSat_kept
      exact h
  clear_value a6
  split
  · split
    · exact h8
    · split
      · with_reducible apply incSat_kept
        exact h
      · with_reducible apply ctxGrown_kept
        exact h
  · clear_value a5
    split
    · exact h
    · split
      · exact h8
      · split
        · with_reducible apply ctxGrown_kept
          exact h
        · with_reducible apply dropCtx_kept
          with_reducible apply incSat_kept
          exact h

theorem execCanFrameRx_kept {pq : List Instr} (n : Nat) (f : CanFrame) (stamp : Nat) (s : State) (h : Kept pq s) :
    ∃ s', execCanFrameRx n f stamp s = .next s' ∧ Kept pq s' := by
  unfold execCanFrameRx
  refine ⟨_, rfl, ?_⟩
  extract_lets +lift a1 a2 a3 a4 a5
  have h6 : Kept pq a1 := by
      unfold a1
      with_reducible apply canSaw_kept
      exact h
  clear_value a1
  have h7 : Kept pq a2 := by
      unfold a2
      split
      · split
        · exact kept_same h6 rfl rfl
        · exact h6
      · exact h6
  clear_value a2
  have h8 : Kept pq a4 := by
      unfold a4
      with_reducible apply canFilter_kept
      · exact h6
      · exact h7
  clear_value a4
  have h9 : Kept pq a5 := by
      unfold a5
      split
      · with_reducible apply syncMark_kept
        exact h8
      · exact h8
  clear_value a5
  split
  · exact h
  · split
    · with_reducible apply setFs_kept
      with_reducible apply canSaw_kept
      exact h
    · split
      · with_reducible apply zcpSegment_kept
        exact h9
      · exact h9

theorem execBusIntegration_kept {pq : List Instr} (n : Nat) (s : State) (h : Kept pq s) :
    ∃ s', execBusIntegration n s = .next s' ∧ Kept pq s' := by
  unfold execBusIntegration
  refine ⟨_, rfl, ?_⟩
  extract_lets +lift a1
  have h2 : Kept pq a1 := by
      unfold a1
      split
      · with_reducible apply setF_kept
        exact h
      · exact h
  clear_value a1
  split
  · with_reducible apply canLoadZcp_kept
    with_reducible apply setF_kept
    exact h2
  · exact h

theorem busOff_kept {pq : List Instr} (s : State) (n : Nat) (h : Kept pq s) : Kept pq (busOff s n) := by
  unfold busOff
  extract_lets +lift a1 a2
  have h3 : Kept pq a1 := by
      unfold a1
      with_reducible apply canReleaseAll_kept
      exact h
  clear_value a1
  have h4 : Kept pq a2 := by
      unfold a2
      with_reducible apply incSat_kept
      with_reducible apply setF_kept
      exact h3
  clear_value a2
  with_reducible apply setRaise_kept
  exact h4

theorem execCanError_kept {pq : List Instr} (n : Nat) (tec : Nat) (rec : Nat) (s : State) (h : Kept pq s) :
    ∃ s', execCanError n tec rec s = .next s' ∧ Kept pq s' := by
  unfold execCanError
  refine ⟨_, rfl, ?_⟩
  extract_lets +lift a1
  have h2 : Kept pq a1 := by
      unfold a1
      with_reducible apply setFs_kept
      exact h
  clear_value a1
  split
  · exact h
  · split
    · with_reducible apply busOff_kept
      exact h2
    · with_reducible apply setF_kept
      exact h2

theorem execCanRxpop_kept {pq : List Instr} (n : Nat) (s : State) (h : Kept pq s) :
    ∃ s', execCanRxpop n s = .next s' ∧ Kept pq s' := by
  unfold execCanRxpop
  refine ⟨_, rfl, ?_⟩
  split
  · with_reducible apply canPop_kept
    exact h
  · exact h

theorem execCanHpbpop_kept {pq : List Instr} (n : Nat) (s : State) (h : Kept pq s) :
    ∃ s', execCanHpbpop n s = .next s' ∧ Kept pq s' := by
  unfold execCanHpbpop
  refine ⟨_, rfl, ?_⟩
  split
  · with_reducible apply canPop_kept
    exact h
  · exact h

theorem execTtWindowOpen_kept {pq : List Instr} (n : Nat) (w : Nat) (s : State) (h : Kept pq s) :
    ∃ s', execTtWindowOpen n w s = .next s' ∧ Kept pq s' := by
  unfold execTtWindowOpen
  refine ⟨_, rfl, ?_⟩
  extract_lets +lift a1
  have h2 : Kept pq a1 := by
      unfold a1
      split
      · exact h
      · with_reducible apply canLoseExcl_kept
        exact h
  clear_value a1
  split
  · split
    · split
      · split
        · with_reducible apply busTake_kept
          with_reducible apply updCan_kept
          exact h2
        · exact h2
      · exact h2
  · exact h

theorem execCanZcpCtxTimeout_kept {pq : List Instr} (n : Nat) (peer : Nat) (s : State) (h : Kept pq s) :
    ∃ s', execCanZcpCtxTimeout n peer s = .next s' ∧ Kept pq s' := by
  unfold execCanZcpCtxTimeout
  refine ⟨_, rfl, ?_⟩
  split
  · with_reducible apply dropCtx_kept
    exact h
  · exact h

theorem canCancel_kept {pq : List Instr} (s : State) (n : Nat) (mask : Nat) (h : Kept pq s) : Kept pq (canCancel s n mask) := by
  unfold canCancel
  extract_lets +lift a1
  have h2 : Kept pq a1 := by
      unfold a1
      with_reducible apply kept_foldl
      · exact h
      · intro v3 v4 v5
        split
        · exact v5
        · split
          · with_reducible apply updTb_kept
            exact v5
          · with_reducible apply canRelease_kept
            exact v5
  clear_value a1
  with_reducible apply canLoadZcp_kept
  split
  · with_reducible apply canLoad_kept
    exact h2
  · exact h2

theorem execBusoffRecovery_kept {pq : List Instr} (n : Nat) (s : State) (h : Kept pq s) :
    ∃ s', execBusoffRecovery n s = .next s' ∧ Kept pq s' := by
  unfold execBusoffRecovery
  refine ⟨_, rfl, ?_⟩
  split
  · with_reducible apply canLoadZcp_kept
    with_reducible apply setFs_kept
    exact h
  · exact h

theorem execTtTxenExpiry_kept {pq : List Instr} (n : Nat) (s : State) (h : Kept pq s) :
    ∃ s', execTtTxenExpiry n s = .next s' ∧ Kept pq s' := by
  unfold execTtTxenExpiry
  refine ⟨_, rfl, ?_⟩
  split
  · with_reducible apply canLoseExcl_kept
    exact h
  · exact h

theorem canEffect_kept {pq : List Instr} (old : State) (s : State) (n : Nat) (h1 : Kept pq old) (h2 : Kept pq s) : Kept pq (canEffect old s n) := by
  unfold canEffect
  extract_lets +lift a1 a2 a3 a4 a5 a6 a7
  have h8 : Kept pq a3 := by
      unfold a3
      split
      · exact h2
      · with_reducible apply updCan_kept
        exact h2
  clear_value a3
  have h9 : Kept pq a4 := by
      unfold a4
      with_reducible apply kept_foldl
      · exact h8
      · intro v10 v11 v12
        split
        · with_reducible apply kept_foldl
          · exact v12
          · intro v13 v14 v15
            with_reducible apply setF_kept
            exact v15
        · exact v12
  clear_value a4
  have h16 : Kept pq a7 := by
      unfold a7
      split
      · exact h9
      · split
        · with_reducible apply updCan_kept
          exact h9
        · with_reducible apply canLoadSched_kept
          exact h9
  clear_value a7
  split
  · with_reducible apply canReinit_kept
    exact h16
  · exact h16

theorem execCanTxFail_kept {pq : List Instr} (n : Nat) (s : State) (h : Kept pq s) :
    ∃ s', execCanTxFail n s = .next s' ∧ Kept pq s' := by
  unfold execCanTxFail
  refine ⟨_, rfl, ?_⟩
  extract_lets +lift a1
  have h2 : Kept pq a1 := by
      unfold a1
      with_reducible apply updCan_kept
      exact h
  clear_value a1
  split
  · exact h
  · extract_lets +lift a3
    have h4 : Kept pq a3 := by
        unfold a3
        split
        · extract_lets +lift a5
          split
          · with_reducible apply canRelease_kept
            exact h2
          · split
            · with_reducible apply canRelease_kept
              exact h2
            · with_reducible apply updTb_kept
              exact h2
        · with_reducible apply canLoseExcl_kept
          exact h2
        · with_reducible apply updCan_kept
          exact h2
    clear_value a3
    with_reducible apply canAfter_kept
    exact h4

theorem execTtReferenceInstant_kept {pq : List Instr} (n : Nat) (s : State) (h : Kept pq s) :
    ∃ s', execTtReferenceInstant n s = .next s' ∧ Kept pq s' := by
  unfold execTtReferenceInstant
  refine ⟨_, rfl, ?_⟩
  extract_lets +lift a1 a2 a3
  split
  · with_reducible apply updCan_kept
    exact h
  · exact h

theorem execCanTbCancel_kept {pq : List Instr} (n : Nat) (mask : Nat) (s : State) (h : Kept pq s) :
    ∃ s', execCanTbCancel n mask s = .next s' ∧ Kept pq s' := by
  unfold execCanTbCancel
  refine ⟨_, rfl, ?_⟩
  split
  · with_reducible apply canCancel_kept
    exact h
  · exact h

theorem tableActive_kept {pq : List Instr} (s : State) (h : Kept pq s) : Kept pq (tableActive s) := by
  unfold tableActive
  with_reducible apply setF_kept
  exact h

theorem applyFields_kept {pq : List Instr} (s : State) (staged : List (Fld × Nat)) (h : Kept pq s) : Kept pq (applyFields s staged) := by
  unfold applyFields
  extract_lets +lift a1
  have h2 : Kept pq a1 := by
      unfold a1
      split
      · with_reducible apply ruleSwap_kept
        with_reducible apply setFs_kept
        with_reducible apply ruleShadow_kept
        exact h
      · split
        · with_reducible apply setFs_kept
          with_reducible apply ruleSwap_kept
          exact h
        · with_reducible apply setFs_kept
          exact h
  clear_value a1
  split
  · with_reducible apply tableActive_kept
    exact h2
  · exact h2

theorem bankSwap_kept {pq : List Instr} (s : State) (h : Kept pq s) : Kept pq (bankSwap s) := by
  unfold bankSwap
  with_reducible apply setF_kept
  exact h

theorem applyStaged_kept {pq : List Instr} (s : State) (h : Kept pq s) : Kept pq (applyStaged s) := by
  unfold applyStaged
  extract_lets +lift a1
  have h2 : Kept pq a1 := by
      unfold a1
      with_reducible apply applyFields_kept
      exact h
  clear_value a1
  split
  · with_reducible apply bankSwap_kept
    exact h2
  · exact h2

theorem stageWord_kept {pq : List Instr} (s : State) (a : Nat) (v : Nat) (h : Kept pq s) : Kept pq (stageWord s a v) := by
  unfold stageWord
  with_reducible apply kept_foldl
  · exact h
  · intro v1 v2 v3
    exact kept_same v3 rfl rfl

theorem txnOpen_kept {pq : List Instr} (s : State) (session : Nat) (spi : Bool) (persist : Nat) (systxn : Nat) (edit : Bool) (h : Kept pq s) : Kept pq (txnOpen s session spi persist systxn edit) := by
  unfold txnOpen
  extract_lets +lift a1 a2 a3 a4 a5 a6 a7
  have h8 : Kept pq a3 := by
      unfold a3
      split
      · with_reducible apply setF_kept
        exact h
      · exact h
  clear_value a3
  have h9 : Kept pq a5 := by
      unfold a5
      with_reducible apply txnIdle_kept
      exact kept_same h8 rfl rfl
  clear_value a5
  have h10 : Kept pq a7 := by
      unfold a7
      exact kept_same h9 rfl rfl
  clear_value a7
  with_reducible apply setFs_kept
  exact h10

theorem bankPut_kept {pq : List Instr} (s : State) (b : Nat) (k : Nat) (w : Word) (h : Kept pq s) : Kept pq (bankPut s b k w) := by
  unfold bankPut
  extract_lets +lift a1 a2
  have h3 : Kept pq a1 := by
      unfold a1
      with_reducible apply setF_kept
      with_reducible apply eccClear_kept
      exact h
  clear_value a1
  split
  · exact kept_same h3 rfl rfl
  · exact kept_same h3 rfl rfl

theorem bankPuts_kept {pq : List Instr} (s : State) (b k : Nat) (ws : List Word) (h : Kept pq s) : Kept pq (bankPuts s b k ws) := by
  induction ws generalizing s k with
  | nil => exact h
  | cons w ws ih => exact ih _ _ (bankPut_kept _ _ _ _ h)

theorem editPatch_kept {pq : List Instr} (s : State) (owns : Bool) (index : Nat) (ws : List Word) (rs : List NewVar) (h : Kept pq s) : Kept pq (editPatch s owns index ws rs).2 := by
  unfold editPatch
  extract_lets +lift a1 a2 a3 a4
  have h5 : Kept pq a2 := by
      unfold a2
      with_reducible apply bankPuts_kept
      exact h
  clear_value a2
  have h6 : Kept pq a4 := by
      unfold a4
      exact kept_same h5 rfl rfl
  clear_value a4
  split
  · dsimp only
    exact h
  · split
    · dsimp only
      exact h
    · split
      · dsimp only
        exact h
      · split
        · dsimp only
          exact h
        · split
          · dsimp only
            exact h
          · dsimp only
            with_reducible apply setFs_kept
            exact h6

theorem sysSendTo_kept {pq : List Instr} (s : State) (opcode : Nat) (data : List Byte) (stn : Nat) (h : Kept pq s) : Kept pq (sysSendTo s opcode data stn) := by
  unfold sysSendTo
  split
  · rename_i x1 x2 x3 x4 x5
    have h6 : Kept pq x4 := by
        refine kept_trip x5 ?_
        with_reducible apply stnRequest_kept
        exact h
    exact kept_same h6 rfl rfl

theorem coordSend_kept {pq : List Instr} (s : State) (h : Kept pq s) : Kept pq (coordSend s) := by
  unfold coordSend
  split
  · exact h
  · split
    · with_reducible apply kept_foldl
      · exact h
      · intro v1 v2 v3
        with_reducible apply sysSendTo_kept
        exact v3
    · exact h

theorem execSysTxnResend_kept {pq : List Instr} (s : State) (h : Kept pq s) :
    ∃ s', execSysTxnResend s = .next s' ∧ Kept pq s' := by
  unfold execSysTxnResend
  refine ⟨_, rfl, ?_⟩
  split
  · exact h
  · with_reducible apply coordSend_kept
    exact h

theorem sysCommitAt_kept {pq : List Instr} (s : State) (systxn : Nat) (h : Kept pq s) : Kept pq (sysCommitAt s systxn).2 := by
  unfold sysCommitAt
  extract_lets +lift a1
  split
  · split
    · dsimp only
      with_reducible apply setF_kept
      exact kept_same h rfl rfl
    · split
      · dsimp only
        exact h
      · dsimp only
        exact h
  · split
    · dsimp only
      exact h
    · dsimp only
      exact h

theorem undoTxn_kept {pq : List Instr} (s : State) (rq : ZReq) (i : Nat) (h : Kept pq s) : Kept pq (undoTxn s rq i) := by
  unfold undoTxn
  extract_lets +lift a1 a2
  have h3 : Kept pq a2 := by
      unfold a2
      exact kept_same h rfl rfl
  clear_value a2
  with_reducible apply setFs_kept
  exact h3

theorem coordReady_kept {pq : List Instr} (s : State) (h : Kept pq s) : Kept pq (coordReady s) := by
  unfold coordReady
  extract_lets +lift a1 a2 a3
  have h4 : Kept pq a1 := by
      unfold a1
      with_reducible apply opPnr_kept
      exact h
  clear_value a1
  have h5 : Kept pq a3 := by
      unfold a3
      exact kept_same h4 rfl rfl
  clear_value a3
  split
  · exact h
  · split
    · with_reducible apply coordSend_kept
      with_reducible apply setF_kept
      exact h5
    · exact h

theorem maskSet_kept {pq : List Instr} (s : State) (m : Nat → Fld) (stn : Nat) (h : Kept pq s) : Kept pq (maskSet s m stn) := by
  unfold maskSet
  with_reducible apply setF_kept
  exact h

theorem coordEnd_kept {pq : List Instr} (s : State) (h : Kept pq s) : Kept pq (coordEnd s) := by
  unfold coordEnd
  extract_lets +lift a1 a2 a3
  have h4 : Kept pq a2 := by
      unfold a2
      with_reducible apply opEnd?_kept
      exact h
  clear_value a2
  exact kept_same h4 rfl rfl

theorem coordCheck_kept {pq : List Instr} (s : State) (h : Kept pq s) : Kept pq (coordCheck s) := by
  unfold coordCheck
  split
  · with_reducible apply coordEnd_kept
    exact h
  · exact h

theorem coordSplit_kept {pq : List Instr} (s : State) (o : Nat) (h : Kept pq s) : Kept pq (coordSplit s o) := by
  unfold coordSplit
  split
  · with_reducible apply setRaise_kept
    exact h
  · exact h

theorem coordOutcome_kept {pq : List Instr} (s : State) (id : Nat) (o : Nat) (h : Kept pq s) : Kept pq (coordOutcome s id o) := by
  unfold coordOutcome
  extract_lets +lift a1 a2 a3
  have h4 : Kept pq a2 := by
      unfold a2
      exact kept_same h rfl rfl
  clear_value a2
  have h5 : Kept pq a3 := by
      unfold a3
      split
      · with_reducible apply maskSet_kept
        exact h4
      · exact h4
  clear_value a3
  split
  · exact h
  · split
    · exact h
    · with_reducible apply coordCheck_kept
      with_reducible apply kept_foldl
      · exact h5
      · intro v6 v7 v8
        with_reducible apply coordSplit_kept
        exact v8

theorem reportSend_kept {pq : List Instr} (s : State) (h : Kept pq s) : Kept pq (reportSend s) := by
  unfold reportSend
  extract_lets +lift a1
  split
  · exact h
  · extract_lets +lift a2
    have h3 : Kept pq a2 := by
        unfold a2
        exact kept_same h rfl rfl
    clear_value a2
    split
    · exact kept_same h rfl rfl
    · with_reducible apply sysSendTo_kept
      exact h3

theorem txnEnd_kept {pq : List Instr} (s : State) (o : Nat) (status : Nat) (h : Kept pq s) : Kept pq (txnEnd s o status) := by
  unfold txnEnd
  extract_lets +lift a1 a2 a3 a4 a5
  have h6 : Kept pq a4 := by
      unfold a4
      with_reducible apply txnDiscard_kept
      exact h
  clear_value a4
  have h7 : Kept pq a5 := by
      unfold a5
      split
      · with_reducible apply coordOutcome_kept
        split
        · with_reducible apply reportSend_kept
          exact h6
        · exact h6
      · exact h6
  clear_value a5
  split
  · with_reducible apply leaveEdit_kept
    exact h7
  · exact h7

theorem coordAbort_kept {pq : List Instr} (s : State) (h : Kept pq s) : Kept pq (coordAbort s) := by
  unfold coordAbort
  extract_lets +lift a1 a2 a3
  have h4 : Kept pq a2 := by
      unfold a2
      exact kept_same h rfl rfl
  clear_value a2
  have h5 : Kept pq a3 := by
      unfold a3
      with_reducible apply coordSend_kept
      exact h4
  clear_value a3
  split
  · exact h
  · split
    · with_reducible apply txnEnd_kept
      exact h5
    · with_reducible apply coordOutcome_kept
      exact h5

theorem coordAnswer_kept {pq : List Instr} (s : State) (stn : Nat) (opcode : Nat) (status : Nat) (h : Kept pq s) : Kept pq (coordAnswer s stn opcode status) := by
  unfold coordAnswer
  extract_lets +lift a1 a2 a3
  have h4 : Kept pq a3 := by
      unfold a3
      exact kept_same h rfl rfl
  clear_value a3
  split
  · exact h
  · split
    · split
      · with_reducible apply coordReady_kept
        with_reducible apply maskSet_kept
        exact h4
      · with_reducible apply coordAbort_kept
        exact h4
    · exact h4

theorem replyMatch_kept {pq : List Instr} (s : State) (peer : Peer) (seq : Nat) (opcode : Nat) (status : Nat) (h : Kept pq s) : Kept pq (replyMatch s peer seq opcode status) := by
  unfold replyMatch
  extract_lets +lift a1
  split
  · exact h
  · extract_lets +lift a2 a3
    have h4 : Kept pq a2 := by
        unfold a2
        exact kept_same h rfl rfl
    clear_value a2
    split
    · with_reducible apply postedDone_kept
      exact h4
    · split
      · exact kept_same h4 rfl rfl
      · with_reducible apply coordAnswer_kept
        exact h4

theorem sysAbort_kept {pq : List Instr} (s : State) (systxn : Nat) (h : Kept pq s) : Kept pq (sysAbort s systxn).2 := by
  unfold sysAbort
  extract_lets +lift a1 a2
  have h3 : Kept pq a1 := by
      unfold a1
      with_reducible apply txnEnd_kept
      exact h
  clear_value a1
  split
  · dsimp only
    exact h
  · split
    · split
      · dsimp only
        exact h
      · dsimp only
        exact kept_same h3 rfl rfl
    · dsimp only
      exact h

theorem tspRestore_kept {pq : List Instr} (s : State) (h : Kept pq s) : Kept pq (tspRestore s) := by
  unfold tspRestore
  extract_lets +lift a1 a2 a3
  have h4 : Kept pq a1 := by
      unfold a1
      with_reducible apply kept_foldl
      · exact h
      · intro v5 v6 v7
        split
        · with_reducible apply setF_kept
          exact v7
        · exact v7
  clear_value a1
  have h8 : Kept pq a3 := by
      unfold a3
      exact kept_same h4 rfl rfl
  clear_value a3
  with_reducible apply reselect_kept
  with_reducible apply setFs_kept
  exact h8

theorem egrEffect_kept {pq : List Instr} (old : State) (s : State) (h1 : Kept pq old) (h2 : Kept pq s) : Kept pq (egrEffect old s) := by
  unfold egrEffect
  extract_lets +lift a1
  have h2 : Kept pq a1 := by
      unfold a1
      with_reducible apply kept_foldl
      · exact h2
      · intro v3 v4 v5
        extract_lets +lift a6 a7 a8
        have h9 : Kept pq a8 := by
            unfold a8
            split
            · exact v5
            · split
              · with_reducible apply updEgr_kept
                exact v5
              · with_reducible apply updEgr_kept
                exact v5
        clear_value a8
        with_reducible apply kept_foldl
        · exact h9
        · intro v10 v11 v12
          split
          · with_reducible apply updEgr_kept
            exact v12
          · split
            · with_reducible apply updEgr_kept
              exact v12
            · exact v12
  clear_value a1
  with_reducible apply kept_foldl
  · exact h2
  · intro v13 v14 v15
    extract_lets +lift a16
    split
    · exact v15
    · with_reducible apply pubReset_kept
      exact v15

theorem notReady_kept {pq : List Instr} (s : State) (id : Nat) (h : Kept pq s) : Kept pq (notReady s id) := by
  unfold notReady
  extract_lets +lift a1 a2
  have h3 : Kept pq a1 := by
      unfold a1
      split
      · with_reducible apply txnEnd_kept
        exact h
      · with_reducible apply txnOutcome_kept
        exact h
  clear_value a1
  split
  · with_reducible apply txnEnd_kept
    exact h
  · split
    · exact h3
    · with_reducible apply reportSend_kept
      exact kept_same h3 rfl rfl

theorem prepFail_kept {pq : List Instr} (s : State) (status : Nat) (h : Kept pq s) : Kept pq (prepFail s status) := by
  unfold prepFail
  extract_lets +lift a1 a2 a3 a4 a5 a6 a7 a8
  have h9 : Kept pq a2 := by
      unfold a2
      with_reducible apply dropShadow_kept
      with_reducible apply nvDropRank_kept
      with_reducible apply voidSet_kept
      exact h
  clear_value a2
  have h10 : Kept pq a4 := by
      unfold a4
      with_reducible apply setF_kept
      exact kept_same h9 rfl rfl
  clear_value a4
  have h11 : Kept pq a5 := by
      unfold a5
      with_reducible apply opEnd?_kept
      with_reducible apply opEnd?_kept
      exact h10
  clear_value a5
  have h12 : Kept pq a8 := by
      unfold a8
      exact kept_same h11 rfl rfl
  clear_value a8
  split
  · with_reducible apply notReady_kept
    with_reducible apply zcpReply_kept
    exact h12
  · split
    · with_reducible apply coordAbort_kept
      exact h11
    · exact h11

theorem phmEffect_kept {pq : List Instr} (old : State) (s : State) (h1 : Kept pq old) (h2 : Kept pq s) : Kept pq (phmEffect old s) := by
  unfold phmEffect
  with_reducible apply kept_foldl
  · exact h2
  · intro v1 v2 v3
    extract_lets +lift a4 a5 a6 a7
    split
    · with_reducible apply setF_kept
      exact v3
    · exact v3

theorem patEffect_kept {pq : List Instr} (old : State) (s : State) (staged : List (Fld × Nat)) (h1 : Kept pq old) (h2 : Kept pq s) : Kept pq (patEffect old s staged) := by
  unfold patEffect
  extract_lets +lift a1 a2 a3 a4
  split
  · exact h2
  · exact kept_same h2 rfl rfl

theorem effectHooks_kept {pq : List Instr} (old : State) (s : State) (staged : List (Fld × Nat)) (h1 : Kept pq old) (h2 : Kept pq s) : Kept pq (effectHooks old s staged) := by
  unfold effectHooks
  extract_lets +lift a1 a2 a3 a4 a5 a6 a7 a8 a9 a10 a11 a12 a13 a14 a15
  have h16 : Kept pq a2 := by
      unfold a2
      split
      · with_reducible apply refreshPresent_kept
        with_reducible apply setF_kept
        exact h2
      · exact h2
  clear_value a2
  have h17 : Kept pq a3 := by
      unfold a3
      split
      · with_reducible apply plbRestart_kept
        exact h16
      · exact h16
  clear_value a3
  have h18 : Kept pq a4 := by
      unfold a4
      split
      · with_reducible apply setFs_kept
        exact h17
      · exact h17
  clear_value a4
  have h19 : Kept pq a5 := by
      unfold a5
      split
      · with_reducible apply plbFixed_kept
        exact h18
      · exact h18
  clear_value a5
  have h20 : Kept pq a6 := by
      unfold a6
      split
      · with_reducible apply egrEffect_kept
        · exact h1
        · exact h19
      · exact h19
  clear_value a6
  have h21 : Kept pq a7 := by
      unfold a7
      split
      · with_reducible apply canEffect_kept
        · exact h1
        · with_reducible apply canEffect_kept
          · exact h1
          · exact h20
      · exact h20
  clear_value a7
  have h22 : Kept pq a8 := by
      unfold a8
      with_reducible apply kept_foldl
      · exact h21
      · intro v23 v24 v25
        split
        · with_reducible apply hubApply_kept
          exact v25
        · exact v25
  clear_value a8
  have h26 : Kept pq a9 := by
      unfold a9
      with_reducible apply phmEffect_kept
      · exact h1
      · with_reducible apply patEffect_kept
        · exact h1
        · exact h22
  clear_value a9
  have h27 : Kept pq a10 := by
      unfold a10
      split
      · with_reducible apply tspRestore_kept
        exact h26
      · exact h26
  clear_value a10
  have h28 : Kept pq a13 := by
      unfold a13
      with_reducible apply eccWipe_kept
      exact h27
  clear_value a13
  exact kept_same h28 rfl rfl

theorem clearRanges_kept {pq : List Instr} (s : State) (l : List NewVar) (h : Kept pq s) : Kept pq (clearRanges s l) := by
  induction l generalizing s with
  | nil => exact h
  | cons v rest ih =>
    refine ih _ (kept_foldl h ?_)
    intro s x h
    split
    · exact setBit_kept _ _ _ _ h
    · exact loadWord_kept _ _ _ h

theorem xferRestart_kept {pq : List Instr} (s : State) (h : Kept pq s) : Kept pq (xferRestart s) := by
  unfold xferRestart
  extract_lets +lift a1 a2
  have h3 : Kept pq a2 := by
      unfold a2
      exact kept_same h rfl rfl
  clear_value a2
  split
  · with_reducible apply setFs_kept
    with_reducible apply incStop_kept
    exact h3
  · exact h

theorem atrSwitched_kept {pq : List Instr} (s : State) (cand : Option Nat) (h : Kept pq s) : Kept pq (atrSwitched s cand) := by
  unfold atrSwitched
  split
  · with_reducible apply pulse_kept
    with_reducible apply journalF_kept
    with_reducible apply incWrap_kept
    with_reducible apply setF_kept
    exact h
  · exact h

theorem takeEffect_kept {pq : List Instr} (s : State) (late : Bool) (h : Kept pq s) : Kept pq (takeEffect s late) := by
  unfold takeEffect
  extract_lets +lift a1 a2 a3 a4 a5 a6 a7 a8 a9 a10 a11 a12 a13 a14 a15 a16 a17 a18 a19 a20 a21 a22 a23 a24
  have h25 : Kept pq a1 := by
      unfold a1
      exact h
  clear_value a1
  have h26 : Kept pq a10 := by
      unfold a10
      with_reducible apply effectHooks_kept
      · exact h25
      · with_reducible apply applyStaged_kept
        with_reducible apply clearRanges_kept
        exact h
  clear_value a10
  have h27 : Kept pq a11 := by
      unfold a11
      split
      · with_reducible apply streamEv_kept
        exact h26
      · exact h26
  clear_value a11
  have h28 : Kept pq a12 := by
      unfold a12
      with_reducible apply xferRestart_kept
      exact h27
  clear_value a12
  have h29 : Kept pq a13 := by
      unfold a13
      with_reducible apply oweReport_kept
      exact h28
  clear_value a13
  have h30 : Kept pq a15 := by
      unfold a15
      exact kept_same h29 rfl rfl
  clear_value a15
  have h31 : Kept pq a16 := by
      unfold a16
      with_reducible apply txnOutcome_kept
      exact h30
  clear_value a16
  have h32 : Kept pq a18 := by
      unfold a18
      exact kept_same h31 rfl rfl
  clear_value a18
  have h33 : Kept pq a19 := by
      unfold a19
      with_reducible apply setFs_kept
      exact h32
  clear_value a19
  have h34 : Kept pq a20 := by
      unfold a20
      split
      · with_reducible apply setF_kept
        exact h33
      · exact h33
  clear_value a20
  have h35 : Kept pq a21 := by
      unfold a21
      with_reducible apply pulse_kept
      with_reducible apply incWrap_kept
      exact h34
  clear_value a21
  have h36 : Kept pq a22 := by
      unfold a22
      with_reducible apply journalF_kept
      exact h35
  clear_value a22
  have h37 : Kept pq a23 := by
      unfold a23
      with_reducible apply atrSwitched_kept
      with_reducible apply opEnd?_kept
      with_reducible apply txnIdle_kept
      exact h36
  clear_value a23
  have h38 : Kept pq a24 := by
      unfold a24
      split
      · with_reducible apply coordOutcome_kept
        split
        · with_reducible apply reportSend_kept
          exact h37
        · exact h37
      · exact h37
  clear_value a24
  split
  · with_reducible apply leaveEdit_kept
    exact h38
  · exact h38

theorem execTxnCommitInstant_kept {pq : List Instr} (s : State) (h : Kept pq s) :
    ∃ s', execTxnCommitInstant s = .next s' ∧ Kept pq s' := by
  unfold execTxnCommitInstant
  refine ⟨_, rfl, ?_⟩
  extract_lets +lift a1
  have h2 : Kept pq a1 := by
      unfold a1
      with_reducible apply setF_kept
      exact h
  clear_value a1
  split
  · split
    · exact h2
    · with_reducible apply takeEffect_kept
      exact h2
  · exact h

theorem persistSet_kept {pq : List Instr} (s : State) (h : Kept pq s) : Kept pq (persistSet s) := by
  unfold persistSet
  extract_lets +lift a1 a2 a3
  split
  · exact h
  · extract_lets +lift a4
    have h5 : Kept pq a4 := by
        unfold a4
        with_reducible apply setF_kept
        exact kept_same h rfl rfl
    clear_value a4
    with_reducible apply nvRequest_kept
    exact h5

theorem prepStart_kept {pq : List Instr} (s : State) (h : Kept pq s) : Kept pq (prepStart s) := by
  unfold prepStart
  extract_lets +lift a1 a2
  have h3 : Kept pq a1 := by
      unfold a1
      with_reducible apply setF_kept
      exact h
  clear_value a1
  have h4 : Kept pq a2 := by
      unfold a2
      split
      · with_reducible apply persistSet_kept
        exact h3
      · exact h3
  clear_value a2
  with_reducible apply kept_foldl
  · exact h4
  · intro v5 v6 v7
    extract_lets +lift a8
    split
    · with_reducible apply hubShadow_kept
      exact v7
    · exact v7

theorem execCpnShadowTimeout_kept {pq : List Instr} (k : Nat) (s : State) (h : Kept pq s) :
    ∃ s', execCpnShadowTimeout k s = .next s' ∧ Kept pq s' := by
  unfold execCpnShadowTimeout
  refine ⟨_, rfl, ?_⟩
  split
  · with_reducible apply prepFail_kept
    exact h
  · exact h

theorem txnSchedule_kept {pq : List Instr} (s : State) (kind : Nat) (w0 : Nat) (w1 : Nat) (h : Kept pq s) : Kept pq (txnSchedule s kind w0 w1) := by
  unfold txnSchedule
  with_reducible apply setFs_kept
  exact h

theorem zCommit_kept {pq : List Instr} (s : State) (rq : ZReq) (owns : Bool) (kind : Nat) (w0 : Nat) (w1 : Nat) (h : Kept pq s) : Kept pq (zCommit s rq owns kind w0 w1).2 := by
  unfold zCommit
  extract_lets +lift a1
  split
  · exact h
  · split
    · exact h
    · rename_i x2 x3
      have h4 : Kept pq x2 := by
          refine opTake_kept x3 ?_
          exact h
      extract_lets +lift a5 a6 a7
      have h8 : Kept pq a6 := by
          unfold a6
          exact kept_same h4 rfl rfl
      clear_value a6
      dsimp only
      split
      · with_reducible apply prepStart_kept
        exact kept_same h8 rfl rfl
      · with_reducible apply txnSchedule_kept
        exact h8

theorem sysReport_kept {pq : List Instr} (s : State) (systxn : Nat) (stn : Nat) (o : Nat) (h : Kept pq s) : Kept pq (sysReport s systxn stn o) := by
  unfold sysReport
  extract_lets +lift a1 a2 a3
  have h4 : Kept pq a2 := by
      unfold a2
      exact kept_same h rfl rfl
  clear_value a2
  have h5 : Kept pq a3 := by
      unfold a3
      split
      · with_reducible apply maskSet_kept
        exact h4
      · exact h4
  clear_value a3
  split
  · exact h
  · split
    · exact h
    · with_reducible apply coordCheck_kept
      with_reducible apply coordSplit_kept
      exact h5

theorem txnRollback_kept {pq : List Instr} (s : State) (owns : Bool) (force : Bool) (o : Nat) (h : Kept pq s) : Kept pq (txnRollback s owns force o).2 := by
  unfold txnRollback
  extract_lets +lift a1 a2
  have h3 : Kept pq a2 := by
      unfold a2
      split
      · with_reducible apply coordSend_kept
        exact kept_same h rfl rfl
      · exact h
  clear_value a2
  split
  · dsimp only
    exact h
  · split
    · dsimp only
      exact h
    · split
      · dsimp only
        exact h
      · dsimp only
        with_reducible apply txnEnd_kept
        exact h3

theorem editCopy_kept {pq : List Instr} (s : State) (keep : Nat) (h : Kept pq s) : Kept pq (editCopy s keep) := by
  unfold editCopy
  extract_lets +lift a1 a2
  have h3 : Kept pq a1 := by
      unfold a1
      with_reducible apply setFs_kept
      exact h
  clear_value a1
  split
  · with_reducible apply setF_kept
    exact h3
  · with_reducible apply setFs_kept
    exact kept_same h3 rfl rfl

theorem setPid_kept {pq : List Instr} (s : State) (b : Nat) (ver : Nat) (crc : Nat) (h : Kept pq s) : Kept pq (setPid s b ver crc) := by
  unfold setPid
  split
  · with_reducible apply setFs_kept
    exact h
  · with_reducible apply setFs_kept
    exact h

theorem editOpen_kept {pq : List Instr} (s : State) (session : Nat) (spi : Bool) (p : Nat) (ver : Nat) (crc : Nat) (h : Kept pq s) : Kept pq (editOpen s session spi p ver crc) := by
  unfold editOpen
  extract_lets +lift a1 a2
  have h3 : Kept pq a1 := by
      unfold a1
      with_reducible apply txnOpen_kept
      exact h
  clear_value a1
  with_reducible apply setPid_kept
  exact kept_same h3 rfl rfl

theorem editBegin_kept {pq : List Instr} (s : State) (session : Nat) (spi : Bool) (persist : Nat) (keep : Nat) (ver : Nat) (crc : Nat) (h : Kept pq s) : Kept pq (editBegin s session spi persist keep ver crc).2.2 := by
  unfold editBegin
  split
  · exact h
  · split
    · exact h
    · split
      · exact h
      · extract_lets +lift a1
        have h2 : Kept pq a1 := by
            unfold a1
            with_reducible apply transition_kept
            with_reducible apply streamEv_kept
            with_reducible apply editCopy_kept
            with_reducible apply editOpen_kept
            exact h
        clear_value a1
        split
        · exact h
        · exact h2

theorem prepReady_kept {pq : List Instr} (s : State) (h : Kept pq s) : Kept pq (prepReady s) := by
  unfold prepReady
  extract_lets +lift a1 a2 a3 a4 a5 a6 a7 a8 a9 a10
  have h11 : Kept pq a2 := by
      unfold a2
      with_reducible apply setF_kept
      exact kept_same h rfl rfl
  clear_value a2
  have h12 : Kept pq a6 := by
      unfold a6
      split
      · with_reducible apply setFs_kept
        exact kept_same h11 rfl rfl
      · exact h11
  clear_value a6
  have h13 : Kept pq a7 := by
      unfold a7
      with_reducible apply opEnd?_kept
      exact h12
  clear_value a7
  have h14 : Kept pq a9 := by
      unfold a9
      split
      · with_reducible apply zcpReply_kept
        exact kept_same h13 rfl rfl
      · exact h13
  clear_value a9
  have h15 : Kept pq a10 := by
      unfold a10
      split
      · with_reducible apply txnSchedule_kept
        exact h14
      · exact h14
  clear_value a10
  split
  · with_reducible apply coordReady_kept
    with_reducible apply maskSet_kept
    exact h15
  · exact h15

theorem execPrepareDone_kept {pq : List Instr} (s : State) (h : Kept pq s) :
    ∃ s', execPrepareDone s = .next s' ∧ Kept pq s' := by
  unfold execPrepareDone
  refine ⟨_, rfl, ?_⟩
  split
  · split
    · with_reducible apply prepFail_kept
      exact h
    · with_reducible apply prepReady_kept
      exact h
  · exact h

theorem prepNo_kept {pq : List Instr} (s : State) (systxn : Nat) (st : Nat) (h : Kept pq s) : Kept pq (prepNo s systxn st).2 := by
  unfold prepNo
  extract_lets +lift a1
  dsimp only
  with_reducible apply notReady_kept
  exact kept_same h rfl rfl

theorem zSysRefuse_kept {pq : List Instr} (s : State) (rq : ZReq) (systxn : Nat) (sysId : Nat) (st : Nat) (h : Kept pq s) : Kept pq (zSysRefuse s rq systxn sysId st).2 := by
  unfold zSysRefuse
  extract_lets +lift a1 a2
  have h3 : Kept pq a2 := by
      unfold a2
      with_reducible apply markPeer_kept
      exact h
  clear_value a2
  split
  · exact h3
  · with_reducible apply prepNo_kept
    exact h3

theorem zPrepare_kept {pq : List Instr} (s : State) (rq : ZReq) (owns : Bool) (h : Kept pq s) : Kept pq (zPrepare s rq owns).2 := by
  unfold zPrepare
  split
  · dsimp only
    exact h
  · split
    · dsimp only
      exact h
    · split
      · dsimp only
        exact h
      · rename_i x1 x2 x3 x4
        have h5 : Kept pq x3 := by
            refine opTake_kept x4 ?_
            exact h
        extract_lets +lift a6
        split
        · dsimp only
          with_reducible apply prepStart_kept
          exact kept_same h5 rfl rfl
        · dsimp only
          with_reducible apply opEnd_kept
          exact h5

theorem sysInstant_kept {pq : List Instr} (s : State) (kind : Nat) (tS : Nat) (tNs : Nat) (a : Nat) (h : Kept pq s) : Kept pq (sysInstant s kind tS tNs a) := by
  unfold sysInstant
  with_reducible apply setFs_kept
  exact h

theorem zSysCommit_kept {pq : List Instr} (s : State) (rq : ZReq) (systxn : Nat) (kind : Nat) (tS : Nat) (tNs : Nat) (a : Nat) (mask : List Nat) (h : Kept pq s) : Kept pq (zSysCommit s rq systxn kind tS tNs a mask).2 := by
  unfold zSysCommit
  extract_lets +lift a1
  split
  · dsimp only
    exact h
  · split
    · dsimp only
      exact h
    · split
      · dsimp only
        exact h
      · split
        · dsimp only
          exact h
        · rename_i x2 x3 x4 x5
          have h6 : Kept pq x4 := by
              refine opTake_kept x5 ?_
              exact h
          extract_lets +lift a7 a8 a9 a10 a11
          have h12 : Kept pq a7 := by
              unfold a7
              with_reducible apply kept_foldl
              · exact h6
              · intro v13 v14 v15
                with_reducible apply setFs_kept
                exact v15
          clear_value a7
          have h16 : Kept pq a8 := by
              unfold a8
              with_reducible apply sysInstant_kept
              exact h12
          clear_value a8
          have h17 : Kept pq a10 := by
              unfold a10
              exact kept_same h16 rfl rfl
          clear_value a10
          have h18 : Kept pq a11 := by
              unfold a11
              with_reducible apply coordSend_kept
              exact h17
          clear_value a11
          split
          · dsimp only
            with_reducible apply prepStart_kept
            exact h18
          · dsimp only
            with_reducible apply coordAbort_kept
            exact h18

theorem zSysPrepare_kept {pq : List Instr} (s : State) (rq : ZReq) (systxn : Nat) (sysId : Nat) (crc : Nat) (kind : Nat) (tS : Nat) (tNs : Nat) (a : Nat) (h : Kept pq s) : Kept pq (zSysPrepare s rq systxn sysId crc kind tS tNs a).2 := by
  unfold zSysPrepare
  extract_lets +lift a1 a2 a3 a4
  have h5 : Kept pq a3 := by
      unfold a3
      with_reducible apply markPeer_kept
      exact h
  clear_value a3
  split
  · exact h5
  · split
    · exact h5
    · split
      · with_reducible apply prepNo_kept
        exact h5
      · split
        · with_reducible apply prepNo_kept
          with_reducible apply setF_kept
          exact h5
        · split
          · dsimp only
            exact kept_same h5 rfl rfl
          · split
            · with_reducible apply prepNo_kept
              exact h5
            · split
              · with_reducible apply prepNo_kept
                exact h5
              · split
                · dsimp only
                  with_reducible apply prepStart_kept
                  with_reducible apply sysInstant_kept
                  exact kept_same h5 rfl rfl
                · with_reducible apply prepNo_kept
                  exact h5

theorem execZcpReplyMatch_kept {pq : List Instr} (peer : Peer) (seq : Nat) (opcode : Nat) (status : Nat) (s : State) (h : Kept pq s) :
    ∃ s', execZcpReplyMatch peer seq opcode status s = .next s' ∧ Kept pq s' := by
  unfold execZcpReplyMatch
  refine ⟨_, rfl, ?_⟩
  split
  · exact h
  · with_reducible apply replyMatch_kept
    exact h

theorem copyBundle_kept {pq : List Instr} (s : State) (h : Kept pq s) : Kept pq (copyBundle s) := by
  unfold copyBundle
  extract_lets +lift a1 a2 a3 a4 a5 a6 a7 a8 a9 a10 a11
  have h12 : Kept pq a7 := by
      unfold a7
      with_reducible apply kept_foldl
      · exact h
      · intro v13 v14 v15
        split
        · with_reducible apply eccCorr_kept
          exact v15
        · exact v15
  clear_value a7
  have h16 : Kept pq a8 := by
      unfold a8
      with_reducible apply bankPuts_kept
      exact h12
  clear_value a8
  have h17 : Kept pq a10 := by
      unfold a10
      split
      · with_reducible apply setF_kept
        split
        · exact kept_same h16 rfl rfl
        · exact kept_same h16 rfl rfl
      · exact h16
  clear_value a10
  have h18 : Kept pq a11 := by
      unfold a11
      with_reducible apply setF_kept
      exact h17
  clear_value a11
  split
  · with_reducible apply setF_kept
    exact h18
  · exact h18

theorem execEditCopyBundle_kept {pq : List Instr} (s : State) (h : Kept pq s) :
    ∃ s', execEditCopyBundle s = .next s' ∧ Kept pq s' := by
  unfold execEditCopyBundle
  refine ⟨_, rfl, ?_⟩
  split
  · with_reducible apply copyBundle_kept
    exact h
  · exact h

theorem txnBegin_kept {pq : List Instr} (s : State) (session : Nat) (spi : Bool) (persist : Nat) (systxn : Nat) (h : Kept pq s) : Kept pq (txnBegin s session spi persist systxn).2.2 := by
  unfold txnBegin
  split
  · dsimp only
    exact h
  · split
    · dsimp only
      exact h
    · extract_lets +lift a1
      have h2 : Kept pq a1 := by
          unfold a1
          with_reducible apply txnOpen_kept
          exact h
      clear_value a1
      dsimp only
      exact h2

theorem execTxnRecorded_kept {pq : List Instr} (s : State) (h : Kept pq s) :
    ∃ s', execTxnRecorded s = .next s' ∧ Kept pq s' := by
  unfold execTxnRecorded
  refine ⟨_, rfl, ?_⟩
  extract_lets +lift a1
  split
  · with_reducible apply setFs_kept
    exact kept_same h rfl rfl
  · exact h

theorem execTxnEffect_kept {pq : List Instr} (s : State) (h : Kept pq s) :
    ∃ s', execTxnEffect s = .next s' ∧ Kept pq s' := by
  unfold execTxnEffect
  refine ⟨_, rfl, ?_⟩
  split
  · with_reducible apply takeEffect_kept
    exact h
  · exact h

theorem execTxnQpTimeout_kept {pq : List Instr} (s : State) (h : Kept pq s) :
    ∃ s', execTxnQpTimeout s = .next s' ∧ Kept pq s' := by
  unfold execTxnQpTimeout
  refine ⟨_, rfl, ?_⟩
  split
  · split
    · with_reducible apply takeEffect_kept
      exact h
    · with_reducible apply txnEnd_kept
      exact h
  · exact h

theorem execNvOpTimeout_kept {pq : List Instr} (s : State) (h : Kept pq s) :
    ∃ s', execNvOpTimeout s = .next s' ∧ Kept pq s' := by
  unfold execNvOpTimeout
  refine ⟨_, rfl, ?_⟩
  split
  · exact h
  · split
    · with_reducible apply prepFail_kept
      with_reducible apply nvFinish_kept
      exact h
    · with_reducible apply nvFinish_kept
      exact h

theorem execSysReportResend_kept {pq : List Instr} (s : State) (h : Kept pq s) :
    ∃ s', execSysReportResend s = .next s' ∧ Kept pq s' := by
  unfold execSysReportResend
  refine ⟨_, rfl, ?_⟩
  split
  · exact h
  · with_reducible apply reportSend_kept
    exact h

theorem zUndo_kept {pq : List Instr} (s : State) (rq : ZReq) (h : Kept pq s) : Kept pq (zUndo s rq).2 := by
  unfold zUndo
  split
  · exact h
  · split
    · exact h
    · rename_i x1 x2
      have h3 : Kept pq x1 := by
          refine opTake_kept x2 ?_
          exact h
      extract_lets +lift a4 a5
      have h6 : Kept pq a4 := by
          unfold a4
          with_reducible apply undoTxn_kept
          exact h3
      clear_value a4
      split
      · exact h
      · split
        · split
          · exact h
          · dsimp only
            with_reducible apply prepStart_kept
            exact kept_same h6 rfl rfl
        · dsimp only
          with_reducible apply txnSchedule_kept
          exact h6

theorem execSysTxnGuardDeadline_kept {pq : List Instr} (s : State) (h : Kept pq s) :
    ∃ s', execSysTxnGuardDeadline s = .next s' ∧ Kept pq s' := by
  unfold execSysTxnGuardDeadline
  refine ⟨_, rfl, ?_⟩
  split
  · with_reducible apply coordAbort_kept
    exact h
  · exact h

theorem markRoom_kept {pq : List Instr} (s : State) (d : Deferred) (h : Kept pq s) : Kept pq (markRoom s d) := by
  unfold markRoom
  split
  · with_reducible apply addMark_kept
    exact h
  · exact h

theorem reachUnit_kept {pq : List Instr} (base : State) (s : State) (d : Deferred) (h1 : Kept pq base) (h2 : Kept pq s) : Kept pq (reachUnit base s d) := by
  unfold reachUnit
  extract_lets +lift a1
  split
  · with_reducible apply fireTrig_kept
    · exact h1
    · exact h2
  · with_reducible apply markRoom_kept
    exact kept_same h2 rfl rfl

theorem trkNote_kept {pq : List Instr} (s : State) (n : Nat) (h : Kept pq s) : Kept pq (trkNote s n) := by
  unfold trkNote
  split
  · with_reducible apply setF_kept
    exact h
  · exact h

theorem trigRow_kept {pq : List Instr} (units : List Nat) (port : Nat) (o : Origin) (u : Nat) (t : TWord) (s : State) (h : Kept pq s) : Kept pq (trigRow units port o u t s) := by
  unfold trigRow
  split
  · with_reducible apply reachUnit_kept
    · exact h
    · with_reducible apply trkNote_kept
      exact h
  · exact h

theorem execGbuRs_kept {pq : List Instr} (o : Origin) (u : Nat) (t : TWord) (s : State) (h : Kept pq s) :
    ∃ s', execGbuRs o u t s = .next s' ∧ Kept pq s' := by
  unfold execGbuRs
  refine ⟨_, rfl, ?_⟩
  with_reducible apply trigRow_kept
  exact h

theorem execAluNegabs_kept {pq : List Instr} (o : Origin) (u : Nat) (t : TWord) (s : State) (h : Kept pq s) :
    ∃ s', execAluNegabs o u t s = .next s' ∧ Kept pq s' := by
  unfold execAluNegabs
  refine ⟨_, rfl, ?_⟩
  with_reducible apply trigRow_kept
  exact h

theorem execMacSel_kept {pq : List Instr} (o : Origin) (u : Nat) (t : TWord) (s : State) (h : Kept pq s) :
    ∃ s', execMacSel o u t s = .next s' ∧ Kept pq s' := by
  unfold execMacSel
  refine ⟨_, rfl, ?_⟩
  with_reducible apply trigRow_kept
  exact h

theorem execMacExecDirect_kept {pq : List Instr} (o : Origin) (n : Nat) (t : TWord) (s : State) (h : Kept pq s) :
    ∃ s', execMacExecDirect o n t s = .next s' ∧ Kept pq s' := by
  unfold execMacExecDirect
  refine ⟨_, rfl, ?_⟩
  split
  · with_reducible apply trigRow_kept
    exact h
  · exact h

theorem execAluShl_kept {pq : List Instr} (o : Origin) (u : Nat) (t : TWord) (s : State) (h : Kept pq s) :
    ∃ s', execAluShl o u t s = .next s' ∧ Kept pq s' := by
  unfold execAluShl
  refine ⟨_, rfl, ?_⟩
  with_reducible apply trigRow_kept
  exact h

theorem execAluMin_kept {pq : List Instr} (o : Origin) (u : Nat) (t : TWord) (s : State) (h : Kept pq s) :
    ∃ s', execAluMin o u t s = .next s' ∧ Kept pq s' := by
  unfold execAluMin
  refine ⟨_, rfl, ?_⟩
  with_reducible apply trigRow_kept
  exact h

theorem execTmuPop_kept {pq : List Instr} (o : Origin) (u : Nat) (t : TWord) (s : State) (h : Kept pq s) :
    ∃ s', execTmuPop o u t s = .next s' ∧ Kept pq s' := by
  unfold execTmuPop
  refine ⟨_, rfl, ?_⟩
  with_reducible apply trigRow_kept
  exact h

theorem execTmuNowT_kept {pq : List Instr} (o : Origin) (u : Nat) (t : TWord) (s : State) (h : Kept pq s) :
    ∃ s', execTmuNowT o u t s = .next s' ∧ Kept pq s' := by
  unfold execTmuNowT
  refine ⟨_, rfl, ?_⟩
  with_reducible apply trigRow_kept
  exact h

theorem execBruPc_kept {pq : List Instr} (o : Origin) (u : Nat) (t : TWord) (s : State) (h : Kept pq s) :
    ∃ s', execBruPc o u t s = .next s' ∧ Kept pq s' := by
  unfold execBruPc
  refine ⟨_, rfl, ?_⟩
  with_reducible apply trigRow_kept
  exact h

theorem execPhuCrot_kept {pq : List Instr} (o : Origin) (u : Nat) (t : TWord) (s : State) (h : Kept pq s) :
    ∃ s', execPhuCrot o u t s = .next s' ∧ Kept pq s' := by
  unfold execPhuCrot
  refine ⟨_, rfl, ?_⟩
  with_reducible apply trigRow_kept
  exact h

theorem execQuSendEth_kept {pq : List Instr} (o : Origin) (u : Nat) (t : TWord) (s : State) (h : Kept pq s) :
    ∃ s', execQuSendEth o u t s = .next s' ∧ Kept pq s' := by
  unfold execQuSendEth
  refine ⟨_, rfl, ?_⟩
  with_reducible apply trigRow_kept
  exact h

theorem execFldFastout_kept {pq : List Instr} (o : Origin) (u : Nat) (t : TWord) (s : State) (h : Kept pq s) :
    ∃ s', execFldFastout o u t s = .next s' ∧ Kept pq s' := by
  unfold execFldFastout
  refine ⟨_, rfl, ?_⟩
  with_reducible apply trigRow_kept
  exact h

theorem execMulMul_kept {pq : List Instr} (o : Origin) (u : Nat) (t : TWord) (s : State) (h : Kept pq s) :
    ∃ s', execMulMul o u t s = .next s' ∧ Kept pq s' := by
  unfold execMulMul
  refine ⟨_, rfl, ?_⟩
  with_reducible apply trigRow_kept
  exact h

theorem execGbuAndn_kept {pq : List Instr} (o : Origin) (u : Nat) (t : TWord) (s : State) (h : Kept pq s) :
    ∃ s', execGbuAndn o u t s = .next s' ∧ Kept pq s' := by
  unfold execGbuAndn
  refine ⟨_, rfl, ?_⟩
  with_reducible apply trigRow_kept
  exact h

theorem execGbuNot_kept {pq : List Instr} (o : Origin) (u : Nat) (t : TWord) (s : State) (h : Kept pq s) :
    ∃ s', execGbuNot o u t s = .next s' ∧ Kept pq s' := by
  unfold execGbuNot
  refine ⟨_, rfl, ?_⟩
  with_reducible apply trigRow_kept
  exact h

theorem execAluXor_kept {pq : List Instr} (o : Origin) (u : Nat) (t : TWord) (s : State) (h : Kept pq s) :
    ∃ s', execAluXor o u t s = .next s' ∧ Kept pq s' := by
  unfold execAluXor
  refine ⟨_, rfl, ?_⟩
  with_reducible apply trigRow_kept
  exact h

theorem execLsuLdx_kept {pq : List Instr} (o : Origin) (u : Nat) (t : TWord) (s : State) (h : Kept pq s) :
    ∃ s', execLsuLdx o u t s = .next s' ∧ Kept pq s' := by
  unfold execLsuLdx
  refine ⟨_, rfl, ?_⟩
  with_reducible apply trigRow_kept
  exact h

theorem execGbuSr_kept {pq : List Instr} (o : Origin) (u : Nat) (t : TWord) (s : State) (h : Kept pq s) :
    ∃ s', execGbuSr o u t s = .next s' ∧ Kept pq s' := by
  unfold execGbuSr
  refine ⟨_, rfl, ?_⟩
  with_reducible apply trigRow_kept
  exact h

theorem execTmuNowA_kept {pq : List Instr} (o : Origin) (u : Nat) (t : TWord) (s : State) (h : Kept pq s) :
    ∃ s', execTmuNowA o u t s = .next s' ∧ Kept pq s' := by
  unfold execTmuNowA
  refine ⟨_, rfl, ?_⟩
  with_reducible apply trigRow_kept
  exact h

theorem execAluCvt_kept {pq : List Instr} (o : Origin) (u : Nat) (t : TWord) (s : State) (h : Kept pq s) :
    ∃ s', execAluCvt o u t s = .next s' ∧ Kept pq s' := by
  unfold execAluCvt
  refine ⟨_, rfl, ?_⟩
  with_reducible apply trigRow_kept
  exact h

theorem execLsuLd_kept {pq : List Instr} (o : Origin) (u : Nat) (t : TWord) (s : State) (h : Kept pq s) :
    ∃ s', execLsuLd o u t s = .next s' ∧ Kept pq s' := by
  unfold execLsuLd
  refine ⟨_, rfl, ?_⟩
  with_reducible apply trigRow_kept
  exact h

theorem execAluShr_kept {pq : List Instr} (o : Origin) (u : Nat) (t : TWord) (s : State) (h : Kept pq s) :
    ∃ s', execAluShr o u t s = .next s' ∧ Kept pq s' := by
  unfold execAluShr
  refine ⟨_, rfl, ?_⟩
  with_reducible apply trigRow_kept
  exact h

theorem execAluOr_kept {pq : List Instr} (o : Origin) (u : Nat) (t : TWord) (s : State) (h : Kept pq s) :
    ∃ s', execAluOr o u t s = .next s' ∧ Kept pq s' := by
  unfold execAluOr
  refine ⟨_, rfl, ?_⟩
  with_reducible apply trigRow_kept
  exact h

theorem execQuSendCan_kept {pq : List Instr} (o : Origin) (u : Nat) (t : TWord) (s : State) (h : Kept pq s) :
    ∃ s', execQuSendCan o u t s = .next s' ∧ Kept pq s' := by
  unfold execQuSendCan
  refine ⟨_, rfl, ?_⟩
  with_reducible apply trigRow_kept
  exact h

theorem execAluMax_kept {pq : List Instr} (o : Origin) (u : Nat) (t : TWord) (s : State) (h : Kept pq s) :
    ∃ s', execAluMax o u t s = .next s' ∧ Kept pq s' := by
  unfold execAluMax
  refine ⟨_, rfl, ?_⟩
  with_reducible apply trigRow_kept
  exact h

theorem execAluSel_kept {pq : List Instr} (o : Origin) (u : Nat) (t : TWord) (s : State) (h : Kept pq s) :
    ∃ s', execAluSel o u t s = .next s' ∧ Kept pq s' := by
  unfold execAluSel
  refine ⟨_, rfl, ?_⟩
  with_reducible apply trigRow_kept
  exact h

theorem execBruNe_kept {pq : List Instr} (o : Origin) (u : Nat) (t : TWord) (s : State) (h : Kept pq s) :
    ∃ s', execBruNe o u t s = .next s' ∧ Kept pq s' := by
  unfold execBruNe
  refine ⟨_, rfl, ?_⟩
  with_reducible apply trigRow_kept
  exact h

theorem execGbuCopy_kept {pq : List Instr} (o : Origin) (u : Nat) (t : TWord) (s : State) (h : Kept pq s) :
    ∃ s', execGbuCopy o u t s = .next s' ∧ Kept pq s' := by
  unfold execGbuCopy
  refine ⟨_, rfl, ?_⟩
  with_reducible apply trigRow_kept
  exact h

theorem execAluAdd_kept {pq : List Instr} (o : Origin) (u : Nat) (t : TWord) (s : State) (h : Kept pq s) :
    ∃ s', execAluAdd o u t s = .next s' ∧ Kept pq s' := by
  unfold execAluAdd
  refine ⟨_, rfl, ?_⟩
  with_reducible apply trigRow_kept
  exact h

theorem execPhuCmag_kept {pq : List Instr} (o : Origin) (u : Nat) (t : TWord) (s : State) (h : Kept pq s) :
    ∃ s', execPhuCmag o u t s = .next s' ∧ Kept pq s' := by
  unfold execPhuCmag
  refine ⟨_, rfl, ?_⟩
  with_reducible apply trigRow_kept
  exact h

theorem execMulSq_kept {pq : List Instr} (o : Origin) (u : Nat) (t : TWord) (s : State) (h : Kept pq s) :
    ∃ s', execMulSq o u t s = .next s' ∧ Kept pq s' := by
  unfold execMulSq
  refine ⟨_, rfl, ?_⟩
  with_reducible apply trigRow_kept
  exact h

theorem execGbuFall_kept {pq : List Instr} (o : Origin) (u : Nat) (t : TWord) (s : State) (h : Kept pq s) :
    ∃ s', execGbuFall o u t s = .next s' ∧ Kept pq s' := by
  unfold execGbuFall
  refine ⟨_, rfl, ?_⟩
  with_reducible apply trigRow_kept
  exact h

theorem execLsuSt_kept {pq : List Instr} (o : Origin) (u : Nat) (t : TWord) (s : State) (h : Kept pq s) :
    ∃ s', execLsuSt o u t s = .next s' ∧ Kept pq s' := by
  unfold execLsuSt
  refine ⟨_, rfl, ?_⟩
  with_reducible apply trigRow_kept
  exact h

theorem execQuRecv_kept {pq : List Instr} (o : Origin) (u : Nat) (t : TWord) (s : State) (h : Kept pq s) :
    ∃ s', execQuRecv o u t s = .next s' ∧ Kept pq s' := by
  unfold execQuRecv
  refine ⟨_, rfl, ?_⟩
  with_reducible apply trigRow_kept
  exact h

theorem execTmuAdda_kept {pq : List Instr} (o : Origin) (u : Nat) (t : TWord) (s : State) (h : Kept pq s) :
    ∃ s', execTmuAdda o u t s = .next s' ∧ Kept pq s' := by
  unfold execTmuAdda
  refine ⟨_, rfl, ?_⟩
  with_reducible apply trigRow_kept
  exact h

theorem execTmuSchedA_kept {pq : List Instr} (o : Origin) (u : Nat) (t : TWord) (s : State) (h : Kept pq s) :
    ∃ s', execTmuSchedA o u t s = .next s' ∧ Kept pq s' := by
  unfold execTmuSchedA
  refine ⟨_, rfl, ?_⟩
  with_reducible apply trigRow_kept
  exact h

theorem execQuFldCmd_kept {pq : List Instr} (o : Origin) (u : Nat) (t : TWord) (s : State) (h : Kept pq s) :
    ∃ s', execQuFldCmd o u t s = .next s' ∧ Kept pq s' := by
  unfold execQuFldCmd
  refine ⟨_, rfl, ?_⟩
  with_reducible apply trigRow_kept
  exact h

theorem execAluAnd_kept {pq : List Instr} (o : Origin) (u : Nat) (t : TWord) (s : State) (h : Kept pq s) :
    ∃ s', execAluAnd o u t s = .next s' ∧ Kept pq s' := by
  unfold execAluAnd
  refine ⟨_, rfl, ?_⟩
  with_reducible apply trigRow_kept
  exact h

theorem execGbuTon_kept {pq : List Instr} (o : Origin) (u : Nat) (t : TWord) (s : State) (h : Kept pq s) :
    ∃ s', execGbuTon o u t s = .next s' ∧ Kept pq s' := by
  unfold execGbuTon
  refine ⟨_, rfl, ?_⟩
  with_reducible apply trigRow_kept
  exact h

theorem execPhuCmac_kept {pq : List Instr} (o : Origin) (u : Nat) (t : TWord) (s : State) (h : Kept pq s) :
    ∃ s', execPhuCmac o u t s = .next s' ∧ Kept pq s' := by
  unfold execPhuCmac
  refine ⟨_, rfl, ?_⟩
  with_reducible apply trigRow_kept
  exact h

theorem execBruTst_kept {pq : List Instr} (o : Origin) (u : Nat) (t : TWord) (s : State) (h : Kept pq s) :
    ∃ s', execBruTst o u t s = .next s' ∧ Kept pq s' := by
  unfold execBruTst
  refine ⟨_, rfl, ?_⟩
  with_reducible apply trigRow_kept
  exact h

theorem execGbuAnd_kept {pq : List Instr} (o : Origin) (u : Nat) (t : TWord) (s : State) (h : Kept pq s) :
    ∃ s', execGbuAnd o u t s = .next s' ∧ Kept pq s' := by
  unfold execGbuAnd
  refine ⟨_, rfl, ?_⟩
  with_reducible apply trigRow_kept
  exact h

theorem execLsuStp_kept {pq : List Instr} (o : Origin) (u : Nat) (t : TWord) (s : State) (h : Kept pq s) :
    ∃ s', execLsuStp o u t s = .next s' ∧ Kept pq s' := by
  unfold execLsuStp
  refine ⟨_, rfl, ?_⟩
  with_reducible apply trigRow_kept
  exact h

theorem execPhuDft_kept {pq : List Instr} (o : Origin) (u : Nat) (t : TWord) (s : State) (h : Kept pq s) :
    ∃ s', execPhuDft o u t s = .next s' ∧ Kept pq s' := by
  unfold execPhuDft
  refine ⟨_, rfl, ?_⟩
  with_reducible apply trigRow_kept
  exact h

theorem execBruLe_kept {pq : List Instr} (o : Origin) (u : Nat) (t : TWord) (s : State) (h : Kept pq s) :
    ∃ s', execBruLe o u t s = .next s' ∧ Kept pq s' := by
  unfold execBruLe
  refine ⟨_, rfl, ?_⟩
  with_reducible apply trigRow_kept
  exact h

theorem execLsuLdp_kept {pq : List Instr} (o : Origin) (u : Nat) (t : TWord) (s : State) (h : Kept pq s) :
    ∃ s', execLsuLdp o u t s = .next s' ∧ Kept pq s' := by
  unfold execLsuLdp
  refine ⟨_, rfl, ?_⟩
  with_reducible apply trigRow_kept
  exact h

theorem execQuRegRd_kept {pq : List Instr} (o : Origin) (u : Nat) (t : TWord) (s : State) (h : Kept pq s) :
    ∃ s', execQuRegRd o u t s = .next s' ∧ Kept pq s' := by
  unfold execQuRegRd
  refine ⟨_, rfl, ?_⟩
  with_reducible apply trigRow_kept
  exact h

theorem execBruEq_kept {pq : List Instr} (o : Origin) (u : Nat) (t : TWord) (s : State) (h : Kept pq s) :
    ∃ s', execBruEq o u t s = .next s' ∧ Kept pq s' := by
  unfold execBruEq
  refine ⟨_, rfl, ?_⟩
  with_reducible apply trigRow_kept
  exact h

theorem execBruLt_kept {pq : List Instr} (o : Origin) (u : Nat) (t : TWord) (s : State) (h : Kept pq s) :
    ∃ s', execBruLt o u t s = .next s' ∧ Kept pq s' := by
  unfold execBruLt
  refine ⟨_, rfl, ?_⟩
  with_reducible apply trigRow_kept
  exact h

theorem execGbuOr_kept {pq : List Instr} (o : Origin) (u : Nat) (t : TWord) (s : State) (h : Kept pq s) :
    ∃ s', execGbuOr o u t s = .next s' ∧ Kept pq s' := by
  unfold execGbuOr
  refine ⟨_, rfl, ?_⟩
  with_reducible apply trigRow_kept
  exact h

theorem execGbuRise_kept {pq : List Instr} (o : Origin) (u : Nat) (t : TWord) (s : State) (h : Kept pq s) :
    ∃ s', execGbuRise o u t s = .next s' ∧ Kept pq s' := by
  unfold execGbuRise
  refine ⟨_, rfl, ?_⟩
  with_reducible apply trigRow_kept
  exact h

theorem execLsuStx_kept {pq : List Instr} (o : Origin) (u : Nat) (t : TWord) (s : State) (h : Kept pq s) :
    ∃ s', execLsuStx o u t s = .next s' ∧ Kept pq s' := by
  unfold execLsuStx
  refine ⟨_, rfl, ?_⟩
  with_reducible apply trigRow_kept
  exact h

theorem execTmuCancel_kept {pq : List Instr} (o : Origin) (u : Nat) (t : TWord) (s : State) (h : Kept pq s) :
    ∃ s', execTmuCancel o u t s = .next s' ∧ Kept pq s' := by
  unfold execTmuCancel
  refine ⟨_, rfl, ?_⟩
  with_reducible apply trigRow_kept
  exact h

theorem execMacExec_kept {pq : List Instr} (o : Origin) (u : Nat) (t : TWord) (s : State) (h : Kept pq s) :
    ∃ s', execMacExec o u t s = .next s' ∧ Kept pq s' := by
  unfold execMacExec
  refine ⟨_, rfl, ?_⟩
  with_reducible apply trigRow_kept
  exact h

theorem execGbuXor_kept {pq : List Instr} (o : Origin) (u : Nat) (t : TWord) (s : State) (h : Kept pq s) :
    ∃ s', execGbuXor o u t s = .next s' ∧ Kept pq s' := by
  unfold execGbuXor
  refine ⟨_, rfl, ?_⟩
  with_reducible apply trigRow_kept
  exact h

theorem execBruGt_kept {pq : List Instr} (o : Origin) (u : Nat) (t : TWord) (s : State) (h : Kept pq s) :
    ∃ s', execBruGt o u t s = .next s' ∧ Kept pq s' := by
  unfold execBruGt
  refine ⟨_, rfl, ?_⟩
  with_reducible apply trigRow_kept
  exact h

theorem execQuRegWr_kept {pq : List Instr} (o : Origin) (u : Nat) (t : TWord) (s : State) (h : Kept pq s) :
    ∃ s', execQuRegWr o u t s = .next s' ∧ Kept pq s' := by
  unfold execQuRegWr
  refine ⟨_, rfl, ?_⟩
  with_reducible apply trigRow_kept
  exact h

theorem execBruGe_kept {pq : List Instr} (o : Origin) (u : Nat) (t : TWord) (s : State) (h : Kept pq s) :
    ∃ s', execBruGe o u t s = .next s' ∧ Kept pq s' := by
  unfold execBruGe
  refine ⟨_, rfl, ?_⟩
  with_reducible apply trigRow_kept
  exact h

theorem execBruCall_kept {pq : List Instr} (o : Origin) (u : Nat) (t : TWord) (s : State) (h : Kept pq s) :
    ∃ s', execBruCall o u t s = .next s' ∧ Kept pq s' := by
  unfold execBruCall
  refine ⟨_, rfl, ?_⟩
  with_reducible apply trigRow_kept
  exact h

theorem execTmuSchedT_kept {pq : List Instr} (o : Origin) (u : Nat) (t : TWord) (s : State) (h : Kept pq s) :
    ∃ s', execTmuSchedT o u t s = .next s' ∧ Kept pq s' := by
  unfold execTmuSchedT
  refine ⟨_, rfl, ?_⟩
  with_reducible apply trigRow_kept
  exact h

theorem execImgEnd_kept {pq : List Instr} (o : Origin) (u : Nat) (t : TWord) (s : State) (h : Kept pq s) :
    ∃ s', execImgEnd o u t s = .next s' ∧ Kept pq s' := by
  unfold execImgEnd
  refine ⟨_, rfl, ?_⟩
  with_reducible apply trigRow_kept
  exact h

theorem execGbuTof_kept {pq : List Instr} (o : Origin) (u : Nat) (t : TWord) (s : State) (h : Kept pq s) :
    ∃ s', execGbuTof o u t s = .next s' ∧ Kept pq s' := by
  unfold execGbuTof
  refine ⟨_, rfl, ?_⟩
  with_reducible apply trigRow_kept
  exact h

theorem execAluSub_kept {pq : List Instr} (o : Origin) (u : Nat) (t : TWord) (s : State) (h : Kept pq s) :
    ∃ s', execAluSub o u t s = .next s' ∧ Kept pq s' := by
  unfold execAluSub
  refine ⟨_, rfl, ?_⟩
  with_reducible apply trigRow_kept
  exact h

theorem execMulMulw_kept {pq : List Instr} (o : Origin) (u : Nat) (t : TWord) (s : State) (h : Kept pq s) :
    ∃ s', execMulMulw o u t s = .next s' ∧ Kept pq s' := by
  unfold execMulMulw
  refine ⟨_, rfl, ?_⟩
  with_reducible apply trigRow_kept
  exact h

theorem fireWaiting_kept {pq : List Instr} (base : State) (hold : Deferred → Bool) (s : State) (d : Deferred) (h1 : Kept pq base) (h2 : Kept pq s) : Kept pq (fireWaiting base hold s d) := by
  unfold fireWaiting
  extract_lets +lift a1 a2
  split
  · with_reducible apply fireTrig_kept
    · exact h1
    · exact kept_same h2 rfl rfl
  · with_reducible apply markRoom_kept
    exact h2

theorem microCheck_kept {pq : List Instr} (s : State) (r : MacRun) (unit lat : Nat) (sp : Spec) (c : Checked × State) (k : List TWord → State → Option MacRun × State) (h : Kept pq c.2) (hk : ∀ vs s, Kept pq s → Kept pq (k vs s).2) : Kept pq (microCheck s r unit lat sp c k).2 := by
  unfold microCheck
  split
  · exact hk _ _ h
  · exact h
  · exact h

theorem microLoad_kept {pq : List Instr} (s : State) (r : MacRun) (unit : Nat) (port : Nat) (vals : List TWord) (h : Kept pq s) : Kept pq (microLoad s r unit port vals).2 := by
  unfold microLoad
  extract_lets +lift a1 a2 a3
  with_reducible apply microCheck_kept
  · with_reducible apply checkTags_kept
    exact h
  · intro v4 v5 v6
    split
    · dsimp only
      exact v6
    · split
      · dsimp only
        exact v6
      · with_reducible apply microCheck_kept
        · with_reducible apply addrFault_kept
          exact v6
        · intro v7 v8 v9
          dsimp only
          exact v9
    · dsimp only
      exact v6

theorem microFire_kept {pq : List Instr} (s : State) (r : MacRun) (dst : Nat) (v : TWord) (h : Kept pq s) : Kept pq (microFire s r dst v).2 := by
  unfold microFire
  extract_lets +lift a1 a2 a3
  split
  · split
    · rename_i x4 x5 x6 x7
      have h8 : Kept pq x6 := by
          refine kept_pair x7 ?_
          with_reducible apply firePure_kept
          exact h
      dsimp only
      exact h8
    · rename_i x9 x10 x11
      have h12 : Kept pq x10 := by
          refine kept_pair x11 ?_
          with_reducible apply firePure_kept
          exact h
      dsimp only
      exact h12
  · split
    · with_reducible apply microCheck_kept
      · with_reducible apply checkTags_kept
        exact h
      · intro v13 v14 v15
        split
        · rename_i x16 x17 x18 x19
          have h20 : Kept pq x18 := by
              refine kept_pair x19 ?_
              with_reducible apply drawFree_kept
              exact v15
          dsimp only
          split
          · dsimp only
            exact h20
          · with_reducible apply microCheck_kept
            · with_reducible apply opFault_kept
              exact h20
            · intro v21 v22 v23
              dsimp only
              exact v23
    · split
      · with_reducible apply microLoad_kept
        exact h
      · dsimp only
        exact h

theorem traceResolve_kept {pq : List Instr} (s : State) (g : List Deferred) (h : Kept pq s) : Kept pq (traceResolve s g) := by
  unfold traceResolve
  extract_lets +lift a1
  split
  · exact h
  · extract_lets +lift a2 a3 a4
    have h5 : Kept pq a3 := by
        unfold a3
        with_reducible apply trcGuard_kept
        exact h
    clear_value a3
    have h6 : Kept pq a4 := by
        unfold a4
        with_reducible apply trcGuard_kept
        exact h5
    clear_value a4
    dsimp only
    with_reducible apply kept_foldl
    · exact h6
    · intro v7 v8 v9
      with_reducible apply trcPortw_kept
      exact v9

theorem macDrop_kept {pq : List Instr} (s : State) (h : Kept pq s) : Kept pq (macDrop s) := by
  unfold macDrop
  exact kept_same h rfl rfl

theorem noteIllegal_kept {pq : List Instr} (s : State) (o : Origin) (slots : List Nat) (h : Kept pq s) : Kept pq (noteIllegal s o slots) := by
  unfold noteIllegal
  extract_lets +lift a1 a2 a3
  have h4 : Kept pq a2 := by
      unfold a2
      with_reducible apply setF_kept
      exact h
  clear_value a2
  have h5 : Kept pq a3 := by
      unfold a3
      with_reducible apply kept_foldl
      · exact h4
      · intro v6 v7 v8
        with_reducible apply incSat_kept
        exact v8
  clear_value a3
  split
  · exact h
  · extract_lets +lift a9
    have h10 : Kept pq a9 := by
        unfold a9
        split
        · exact h5
        · with_reducible apply setFs_kept
          exact h5
    clear_value a9
    split
    · dsimp only
      with_reducible apply raise_kept
      exact h10
    · dsimp only
      exact h10

theorem traceIssue_kept {pq : List Instr} (s : State) (o : Origin) (p : Plan) (ms : List Planned) (h : Kept pq s) : Kept pq (traceIssue s o p ms) := by
  unfold traceIssue
  extract_lets +lift a1 a2 a3 a4 a5
  have h6 : Kept pq a1 := by
      unfold a1
      with_reducible apply trcFlow_kept
      exact h
  clear_value a1
  have h7 : Kept pq a3 := by
      unfold a3
      with_reducible apply trcGuard_kept
      exact h6
  clear_value a3
  have h8 : Kept pq a4 := by
      unfold a4
      split
      · with_reducible apply trcGuard_kept
        exact h7
      · exact h6
  clear_value a4
  have h9 : Kept pq a5 := by
      unfold a5
      with_reducible apply trcGuard_kept
      exact h8
  clear_value a5
  with_reducible apply kept_foldl
  · exact h9
  · intro v10 v11 v12
    with_reducible apply trcPortw_kept
    exact v12

theorem fireBundle_kept {pq : List Instr} (base : State) (s : State) (ds : List Deferred) (h1 : Kept pq base) (h2 : Kept pq s) : Kept pq (fireBundle base s ds) := by
  unfold fireBundle
  with_reducible apply kept_foldl
  · exact h2
  · intro v1 v2 v3
    with_reducible apply reachUnit_kept
    · exact h1
    · exact v3

theorem issueMoves_kept {pq : List Instr} (base : State) (s : State) (o : Origin) (plan : Plan) (all : List (Planned × Nat)) (lives : List (Planned × Nat)) (need : Nat) (h1 : Kept pq base) (h2 : Kept pq s) : Kept pq (issueMoves base s o plan all lives need) := by
  unfold issueMoves
  extract_lets +lift a1 a2 a3 a4 a5 a6 a7 a8 a9 a10 a11 a12
  have h13 : Kept pq a4 := by
      unfold a4
      with_reducible apply noteIllegal_kept
      with_reducible apply traceIssue_kept
      exact h2
  clear_value a4
  have h14 : Kept pq a5 := by
      unfold a5
      split
      · with_reducible apply setF_kept
        exact h13
      · exact h13
  clear_value a5
  have h15 : Kept pq a6 := by
      unfold a6
      with_reducible apply setFs_kept
      with_reducible apply trkNote_kept
      exact h14
  clear_value a6
  have h16 : Kept pq a7 := by
      unfold a7
      with_reducible apply updTask_kept
      exact h15
  clear_value a7
  have h17 : Kept pq a8 := by
      unfold a8
      with_reducible apply kept_foldl
      · exact h16
      · intro v18 v19 v20
        with_reducible apply setHold_kept
        exact v20
  clear_value a8
  have h21 : Kept pq a12 := by
      unfold a12
      exact kept_same h17 rfl rfl
  clear_value a12
  with_reducible apply fireBundle_kept
  · exact h1
  · exact h21

theorem macCapture_kept {pq : List Instr} (s : State) (h : Kept pq s) : Kept pq (macCapture s) := by
  unfold macCapture
  split
  · exact h
  · extract_lets +lift a1
    split
    · rename_i x2 x3 x4 x5
      have h6 : Kept pq x4 := by
          refine kept_pair x5 ?_
          with_reducible apply kept_foldl_pair
          · dsimp only
            exact h
          · intro v7 v8 v9
            split
            · dsimp only
              with_reducible apply readTaskWord_kept
              with_reducible apply readTaskWord_kept
              exact v9
            · dsimp only
              with_reducible apply readTaskWord_kept
              exact v9
      extract_lets +lift a10
      exact kept_same h6 rfl rfl

theorem copyStep_kept {pq : List Instr} (s : State) (p : PendOp) (h : Kept pq s) : Kept pq (copyStep s p).2 := by
  unfold copyStep
  extract_lets +lift a1 a2
  have h4 : ∀ y3, Kept pq (a2 y3).2 := by
      intro y3
      unfold a2
      split
      rename_i x5 x6 x7 x8
      have h9 : Kept pq x7 := by
          refine kept_pair x8 ?_
          with_reducible apply readTaskWord_kept
          exact h
      exact h9
  clear_value a2
  split
  · exact h
  · split
    · exact h
    · split
      · dsimp only
        with_reducible apply moveWriteWord_kept
        exact h
      · with_reducible apply h4
      · with_reducible apply h4
      · with_reducible apply h4
      · exact h

theorem eachOp_kept {pq : List Instr} (f : State → PendOp → PendOp × State) (s : State) (l : List PendOp) (h : Kept pq s)
    (hf : ∀ s p, Kept pq s → Kept pq (f s p).2) : Kept pq (eachOp f s l).2 := by
  induction l generalizing s with
  | nil => exact h
  | cons p rest ih => exact ih _ (hf _ _ h)

theorem copyAll_kept {pq : List Instr} (s : State) (h : Kept pq s) : Kept pq (copyAll s) := by
  unfold copyAll
  split
  rename_i x1 x2 x3 x4
  have h5 : Kept pq x3 := by
      refine kept_pair x4 ?_
      with_reducible apply eachOp_kept
      · exact h
      · intro v6 v7 v8
        with_reducible apply copyStep_kept
        exact v8
  extract_lets +lift a9
  exact kept_same h5 rfl rfl

theorem pruneProv_kept {pq : List Instr} (s : State) (h : Kept pq s) : Kept pq (pruneProv s) := by
  unfold pruneProv
  exact kept_same h rfl rfl

theorem fetchBundle_kept {pq : List Instr} (s : State) (pc : Nat) (h : Kept pq s) : Kept pq (fetchBundle s pc).2 := by
  unfold fetchBundle
  extract_lets +lift a1 a2 a3 a4 a5
  have h6 : Kept pq a5 := by
      unfold a5
      with_reducible apply kept_foldl
      · exact h
      · intro v7 v8 v9
        split
        · with_reducible apply eccCorr_kept
          exact v9
        · exact v9
  clear_value a5
  split
  · dsimp only
    with_reducible apply halt_kept
    exact h
  · dsimp only
    exact h6

theorem moveVal_kept {pq : List Instr} (s : State) (t : Nat) (ws : List Nat) (i : Nat) (m : Move) (h : Kept pq s) : Kept pq (moveVal s t ws i m).2 := by
  unfold moveVal
  split
  · dsimp only
    exact h
  · split
    · dsimp only
      exact h
    · with_reducible apply readSrc_kept
      exact h

theorem planSlot_kept {pq : List Instr} (t : Nat) (ws : List Nat) (acc : Plan × State) (i : Nat) (h : Kept pq acc.2) : Kept pq (planSlot t ws acc i).2 := by
  obtain ⟨p, s⟩ := acc
  have hg := evalGuard_kept s t (Move.ofWord (nth 0 ws i)) h
  unfold planSlot
  dsimp only
  split
  · exact h
  · split
    · exact h
    · split
      · exact hg
      · exact moveVal_kept _ _ _ _ _ hg

theorem planBundle_kept {pq : List Instr} (s : State) (t : Nat) (ws : List Nat) (h : Kept pq s) : Kept pq (planBundle s t ws).2 := by
  unfold planBundle
  exact kept_foldl_pair h fun p x hp => planSlot_kept t ws p x hp

theorem resolveOne_kept {pq : List Instr} (s : State) (d : Deferred) (h : Kept pq s) : Kept pq (resolveOne s d) := by
  unfold resolveOne
  extract_lets +lift a1
  split
  · exact h
  · split
    · exact kept_same h rfl rfl
    · split
      · with_reducible apply setHold_kept
        exact h
      · exact h

theorem setProv_kept {pq : List Instr} (s : State) (k : Nat) (v : Nat) (h : Kept pq s) : Kept pq (setProv s k v) := by
  unfold setProv
  extract_lets +lift a1 a2
  exact kept_same h rfl rfl

theorem opdWrite_kept {pq : List Instr} (t : Nat) (s : State) (p : Planned) (h : Kept pq s) : Kept pq (opdWrite t s p) := by
  unfold opdWrite
  extract_lets +lift a1 a2
  have h3 : Kept pq a2 := by
      unfold a2
      split
      · with_reducible apply setCtx_kept
        exact h
      · exact h
  clear_value a2
  split
  · with_reducible apply setProv_kept
    exact h3
  · with_reducible apply setProv_kept
    exact h3

theorem countStall_kept {pq : List Instr} (s : State) (flag : Fld) (cnt : Fld) (ovf : Fld) (h : Kept pq s) : Kept pq (countStall s flag cnt ovf) := by
  unfold countStall
  extract_lets +lift a1 a2
  have h3 : Kept pq a2 := by
      unfold a2
      with_reducible apply setF_kept
      with_reducible apply incSat_kept
      exact h
  clear_value a2
  split
  · with_reducible apply raise_kept
    exact h3
  · exact h3

theorem microWrite_kept {pq : List Instr} (s : State) (r : MacRun) (dst : Nat) (v : TWord) (h : Kept pq s) : Kept pq (microWrite s r dst v).2 := by
  unfold microWrite
  split
  · with_reducible apply microFire_kept
    exact h
  · split
    · dsimp only
      exact h
    · split
      · dsimp only
        exact h
      · split
        · dsimp only
          exact h
        · dsimp only
          exact h

theorem pcAdvance_kept {pq : List Instr} (s : State) (t : Nat) (h : Kept pq s) : Kept pq (pcAdvance s t) := by
  unfold pcAdvance
  extract_lets +lift a1
  split
  exact kept_same h rfl rfl

theorem traceAll_kept {pq : List Instr} (s : State) (due : List Deferred) (h : Kept pq s) : Kept pq (traceAll s due) := by
  unfold traceAll
  extract_lets +lift a1
  with_reducible apply kept_foldl
  · exact h
  · intro v2 v3 v4
    with_reducible apply traceResolve_kept
    exact v4

theorem resolveDue_kept {pq : List Instr} (s : State) (h : Kept pq s) : Kept pq (resolveDue s) := by
  unfold resolveDue
  extract_lets +lift a1 a2 a3 a4
  have h5 : Kept pq a4 := by
      unfold a4
      exact kept_same h rfl rfl
  clear_value a4
  with_reducible apply kept_foldl
  · with_reducible apply traceAll_kept
    exact h5
  · intro v6 v7 v8
    with_reducible apply resolveOne_kept
    exact v8

theorem startFire_kept {pq : List Instr} (base : State) (hold : Deferred → Bool) (s : State) (h1 : Kept pq base) (h2 : Kept pq s) : Kept pq (startFire base hold s) := by
  unfold startFire
  extract_lets +lift a1 a2 a3
  have h4 : Kept pq a1 := by
      unfold a1
      with_reducible apply kept_foldl
      · exact h2
      · intro v5 v6 v7
        with_reducible apply fastDrain_kept
        exact v7
  clear_value a1
  have h8 : Kept pq a2 := by
      unfold a2
      with_reducible apply kept_foldl
      · exact h4
      · intro v9 v10 v11
        with_reducible apply tmuEarly_kept
        exact v11
  clear_value a2
  have h12 : Kept pq a3 := by
      unfold a3
      with_reducible apply resolveDue_kept
      exact h8
  clear_value a3
  split
  · with_reducible apply kept_foldl
    · exact h12
    · intro v13 v14 v15
      with_reducible apply fireWaiting_kept
      · exact h1
      · exact v15
  · exact h12

theorem structStall_kept {pq : List Instr} (s : State) (h : Kept pq s) : Kept pq (structStall s) := by
  unfold structStall
  split
  · exact h
  · with_reducible apply addMark_kept
    with_reducible apply countStall_kept
    exact h

theorem present_kept {pq : List Instr} (base : State) (s : State) (o : Origin) (ws : List Nat) (h1 : Kept pq base) (h2 : Kept pq s) : Kept pq (present base s o ws) := by
  unfold present
  extract_lets +lift a1 a2 a3 a4 a5 a6 a7 a8 a9 a10 a11 a12 a13 a14 a15 a16
  have h17 : Kept pq a3.2 := by
      unfold a3
      with_reducible apply planBundle_kept
      exact h2
  clear_value a3
  have h18 : Kept pq a6 := by
      unfold a6
      with_reducible apply kept_foldl
      · with_reducible apply pruneProv_kept
        exact h17
      · intro v19 v20 v21
        with_reducible apply opdWrite_kept
        exact v21
  clear_value a6
  have h22 : Kept pq a11 := by
      unfold a11
      with_reducible apply startFire_kept
      · exact h1
      · with_reducible apply pcAdvance_kept
        exact h18
  clear_value a11
  have h23 : Kept pq a14 := by
      unfold a14
      with_reducible apply startFire_kept
      · exact h1
      · exact h2
  clear_value a14
  have h24 : Kept pq a15 := by
      unfold a15
      split
      · with_reducible apply countStall_kept
        exact h23
      · exact h23
  clear_value a15
  have h25 : Kept pq a16 := by
      unfold a16
      split
      · exact h24
      · with_reducible apply structStall_kept
        exact h24
  clear_value a16
  split
  · with_reducible apply kept_foldl
    · exact h25
    · intro v26 v27 v28
      with_reducible apply markRoom_kept
      exact v28
  · with_reducible apply issueMoves_kept
    · exact h1
    · exact h22

theorem replayAdvance_kept {pq : List Instr} (s : State) (h : Kept pq s) : Kept pq (replayAdvance s) := by
  unfold replayAdvance
  extract_lets +lift a1 a2 a3 a4 a5 a6 a7
  have h8 : Kept pq a3 := by
      unfold a3
      split
      · exact kept_same h rfl rfl
      · exact h
  clear_value a3
  have h10 : ∀ y9, Kept pq (a6 y9) := by
      intro y9
      unfold a6
      exact kept_same h8 rfl rfl
  clear_value a6
  split
  · exact h
  · split
    · split
      · with_reducible apply h10
      · split
        · exact h8
        · split
          · with_reducible apply diverge_kept
            exact kept_same h8 rfl rfl
          · exact h8
    · split
      · with_reducible apply h10
      · split
        · split
          · with_reducible apply h10
          · split
            · exact h8
            · with_reducible apply h10
        · with_reducible apply h10

theorem macEnd_kept {pq : List Instr} (s : State) (r : MacRun) (h : Kept pq s) : Kept pq (macEnd s r) := by
  unfold macEnd
  extract_lets +lift a1
  split
  · rename_i x2 x3 x4 x5
    have h6 : Kept pq x4 := by
        refine kept_pair x5 ?_
        split
        · extract_lets +lift a7
          with_reducible apply microWrite_kept
          exact h
        · dsimp only
          exact h
    extract_lets +lift a8
    split
    · with_reducible apply macDrop_kept
      exact h6
    · extract_lets +lift a9 a10
      exact kept_same h6 rfl rfl

theorem macStep_kept {pq : List Instr} (s : State) (h : Kept pq s) : Kept pq (macStep s) := by
  unfold macStep
  split
  · exact h
  · split
    · split
      · rename_i x1 x2 x3 x4
        have h5 : Kept pq x3 := by
            refine kept_pair x4 ?_
            with_reducible apply fetchDt_kept
            exact h
        split
        · with_reducible apply macEnd_kept
          exact h5
        · with_reducible apply macDrop_kept
          exact h5
    · with_reducible apply macEnd_kept
      exact h

theorem ptpMessage_kept {pq : List Instr} (s : State) (p : Nat) (m : PtpMsg) (h : Kept pq s) : Kept pq (ptpMessage s p m) := by
  unfold ptpMessage
  extract_lets +lift a1 a2
  split
  · with_reducible apply ptpAnnounce_kept
    exact h
  · split
    · with_reducible apply updPtp_kept
      exact h
    · with_reducible apply ptpOffset_kept
      exact h
  · split
    · split
      · with_reducible apply ptpOffset_kept
        exact h
      · exact h
    · exact h
  · with_reducible apply ptpSend_kept
    exact h
  · split
    · split
      · exact h
      · split
        · with_reducible apply updPtp_kept
          exact h
        · with_reducible apply ptpDelay_kept
          exact h
    · exact h
  · split
    · split
      · exact h
      · with_reducible apply ptpDelay_kept
        exact h
    · exact h
  · exact h

theorem execPeerDelayRequest_kept {pq : List Instr} (port : Nat) (s : State) (h : Kept pq s) :
    ∃ s', execPeerDelayRequest port s = .next s' ∧ Kept pq s' := by
  unfold execPeerDelayRequest
  refine ⟨_, rfl, ?_⟩
  split
  · split
    · rename_i x1 x2 x3 x4
      have h5 : Kept pq x3 := by
          refine kept_pair x4 ?_
          with_reducible apply drawFree_kept
          exact h
      with_reducible apply ptpSend_kept
      exact h5
  · exact h

theorem execPtpMessageRx_kept {pq : List Instr} (port : Nat) (msg : PtpMsg) (s : State) (h : Kept pq s) :
    ∃ s', execPtpMessageRx port msg s = .next s' ∧ Kept pq s' := by
  unfold execPtpMessageRx
  refine ⟨_, rfl, ?_⟩
  split
  · with_reducible apply ptpMessage_kept
    exact h
  · exact h

theorem execPtpMasterSend_kept {pq : List Instr} (port : Nat) (kind : Nat) (s : State) (h : Kept pq s) :
    ∃ s', execPtpMasterSend port kind s = .next s' ∧ Kept pq s' := by
  unfold execPtpMasterSend
  refine ⟨_, rfl, ?_⟩
  split
  · split
    · rename_i x1 x2 x3 x4
      have h5 : Kept pq x3 := by
          refine kept_pair x4 ?_
          with_reducible apply drawFree_kept
          exact h
      split
      · with_reducible apply ptpSend_kept
        exact h5
      · with_reducible apply ptpSend_kept
        exact h5
  · exact h

end Sys2Proof.Machine
end

