-- ==== Sys2Proof/Laws/KeptTxn.lean ====
section
/-! SUPPORT. What keeps the memories canonical and the queue: the supplies, the start, the standby pair and the line measurement. -/

set_option linter.unusedVariables false

namespace Sys2Proof.Machine

open Reg

theorem holdOff_kept {pq : List Instr} (s : State) (d : Nat) (h : Kept pq s) : Kept pq (holdOff s d) := by
  unfold holdOff
  extract_lets +lift a1 a2 a3
  have h4 : Kept pq a1 := by
      unfold a1
      with_reducible apply domainOff_kept
      exact h
  clear_value a1
  have h5 : Kept pq a3 := by
      unfold a3
      split
      · with_reducible apply kept_foldl
        · exact h4
        · intro v6 v7 v8
          with_reducible apply setValidSrc_kept
          with_reducible apply updPtp_kept
          exact v8
      · split
        · with_reducible apply setValidSrc_kept
          exact kept_same h4 rfl rfl
        · exact h4
  clear_value a3
  split
  · with_reducible apply plbLost_kept
    exact h5
  · exact h5

theorem holdNext_kept {pq : List Instr} (s : State) (h : Kept pq s) : Kept pq (holdNext s) := by
  unfold holdNext
  extract_lets +lift a1
  split
  · split
    · exact h
    · with_reducible apply holdOff_kept
      exact kept_same h rfl rfl
  · exact h

theorem execDomainPowerGood_kept {pq : List Instr} (d : Nat) (s : State) (h : Kept pq s) :
    ∃ s', execDomainPowerGood d s = .next s' ∧ Kept pq s' := by
  unfold execDomainPowerGood
  refine ⟨_, rfl, ?_⟩
  extract_lets +lift a1
  split
  · extract_lets +lift a2 a3
    have h4 : Kept pq a2 := by
        unfold a2
        with_reducible apply domainUp_kept
        exact kept_same h rfl rfl
    clear_value a2
    split
    · split
      · exact kept_same h4 rfl rfl
      · exact h4
    · exact h
  · exact h

theorem warn_kept {pq : List Instr} (s : State) (f : Fld) (i : Nat) (h : Kept pq s) : Kept pq (warn s f i) := by
  unfold warn
  with_reducible apply wakeSource_kept
  with_reducible apply setRaise_kept
  exact h

theorem resetSource_kept {pq : List Instr} (s : State) (code : Nat) (lasting : Bool) (h : Kept pq s) : Kept pq (resetSource s code lasting) := by
  unfold resetSource
  extract_lets +lift a1 a2
  have h3 : Kept pq a1 := by
      unfold a1
      with_reducible apply toReset_kept
      exact h
  clear_value a1
  split
  · exact h
  · exact kept_same h3 rfl rfl

theorem execRailResetWindow_kept {pq : List Instr} (rail : Nat) (s : State) (h : Kept pq s) :
    ∃ s', execRailResetWindow rail s = .next s' ∧ Kept pq s' := by
  unfold execRailResetWindow
  refine ⟨_, rfl, ?_⟩
  extract_lets +lift a1 a2
  have h3 : Kept pq a1 := by
      unfold a1
      with_reducible apply resetSource_kept
      exact h
  clear_value a1
  split
  · exact kept_same h3 rfl rfl
  · exact h

theorem execHoldEntryDone_kept {pq : List Instr} (s : State) (h : Kept pq s) :
    ∃ s', execHoldEntryDone s = .next s' ∧ Kept pq s' := by
  unfold execHoldEntryDone
  refine ⟨_, rfl, ?_⟩
  split
  · exact h
  · extract_lets +lift a1 a2
    have h3 : Kept pq a1 := by
        unfold a1
        with_reducible apply kept_foldl
        · exact h
        · intro v4 v5 v6
          with_reducible apply holdOff_kept
          exact v6
    clear_value a1
    with_reducible apply modeOpEnd_kept
    with_reducible apply transition_kept
    exact kept_same h3 rfl rfl

theorem pmbWrite_kept {pq : List Instr} (s : State) (mv : Nat) (h : Kept pq s) : Kept pq (pmbWrite s mv) := by
  unfold pmbWrite
  split
  rename_i x1 x2 x3 x4
  have h5 : Kept pq x3 := by
      refine kept_pair x4 ?_
      split
      · exact h
      · split
        rename_i x6 x7 x8 x9
        have h10 : Kept pq x8 := by
            refine kept_pair x9 ?_
            with_reducible apply drawFree_kept
            exact h
        exact h10
  extract_lets +lift a11 a12 a13
  exact kept_same h5 rfl rfl

theorem enterBoot_kept {pq : List Instr} (s : State) (h : Kept pq s) : Kept pq (enterBoot s) := by
  unfold enterBoot
  extract_lets +lift a1 a2 a3 a4 a5 a6 a7 a8 a9 a10 a11
  have h12 : Kept pq a2 := by
      unfold a2
      with_reducible apply setFs_kept
      exact kept_same h rfl rfl
  clear_value a2
  have h13 : Kept pq a3 := by
      unfold a3
      with_reducible apply pmbWrite_kept
      exact h12
  clear_value a3
  have h14 : Kept pq a5 := by
      unfold a5
      split
      · with_reducible apply setF_kept
        exact kept_same h13 rfl rfl
      · exact h12
  clear_value a5
  have h15 : Kept pq a9 := by
      unfold a9
      split
      · extract_lets +lift a16 a17
        have h18 : Kept pq a16 := by
            unfold a16
            with_reducible apply note_kept
            exact kept_same h14 rfl rfl
        clear_value a16
        exact kept_same h18 rfl rfl
      · exact h14
  clear_value a9
  have h19 : Kept pq a11 := by
      unfold a11
      split
      · with_reducible apply raise_kept
        exact kept_same h15 rfl rfl
      · exact h15
  clear_value a11
  with_reducible apply transition_kept
  exact kept_same h19 rfl rfl

theorem tapSelect_kept {pq : List Instr} (s : State) (ir : TapIr) (cells : Option Nat) (drive : Bool) (highz : Bool) (h : Kept pq s) : Kept pq (tapSelect s ir cells drive highz) := by
  unfold tapSelect
  extract_lets +lift a1
  split
  · exact kept_same h rfl rfl
  · exact h

theorem execModeReqHold_kept {pq : List Instr} (dbg : Bool) (s : State) (h : Kept pq s) :
    ∃ s', execModeReqHold dbg s = .next s' ∧ Kept pq s' := by
  unfold execModeReqHold
  refine ⟨_, rfl, ?_⟩
  split
  · with_reducible apply modeReqHost_kept
    exact h
  · exact h

theorem execWakePin_kept {pq : List Instr} (ns : Nat) (s : State) (h : Kept pq s) :
    ∃ s', execWakePin ns s = .next s' ∧ Kept pq s' := by
  unfold execWakePin
  refine ⟨_, rfl, ?_⟩
  split
  · with_reducible apply wakeSource_kept
    exact h
  · exact h

theorem execWakeComplete_kept {pq : List Instr} (s : State) (h : Kept pq s) :
    ∃ s', execWakeComplete s = .next s' ∧ Kept pq s' := by
  unfold execWakeComplete
  refine ⟨_, rfl, ?_⟩
  extract_lets +lift a1 a2 a3 a4
  have h5 : Kept pq a1 := by
      unfold a1
      split
      · with_reducible apply plbStart_kept
        exact h
      · exact h
  clear_value a1
  have h6 : Kept pq a3 := by
      unfold a3
      exact kept_same h5 rfl rfl
  clear_value a3
  have h7 : Kept pq a4 := by
      unfold a4
      split
      · with_reducible apply transition_kept
        exact h6
      · exact h6
  clear_value a4
  split
  · with_reducible apply modeOpEnd_kept
    with_reducible apply trcHoldExit_kept
    exact h7
  · exact h

theorem crossing_kept {pq : List Instr} (s : State) (f : Fld) (i : Nat) (code : Nat) (was : Bool) (out : Bool) (h : Kept pq s) : Kept pq (crossing s f i code was out) := by
  unfold crossing
  extract_lets +lift a1
  split
  · exact h
  · split
    · exact kept_same h rfl rfl
    · split
      · with_reducible apply warn_kept
        exact h
      · exact h

theorem goHot_kept {pq : List Instr} (s : State) (h : Kept pq s) : Kept pq (goHot s) := by
  unfold goHot
  extract_lets +lift a1
  split
  · exact h
  · with_reducible apply halt_kept
    with_reducible apply wakeSource_kept
    with_reducible apply setRaise_kept
    exact kept_same h rfl rfl

theorem overheat_kept {pq : List Instr} (s : State) (sensor : Nat) (t : Int) (h : Kept pq s) : Kept pq (overheat s sensor t) := by
  unfold overheat
  extract_lets +lift a1 a2 a3 a4 a5 a6 a7
  have h8 : Kept pq a4 := by
      unfold a4
      exact kept_same h rfl rfl
  clear_value a4
  split
  · exact h8
  · split
    · exact kept_same h8 rfl rfl
    · split
      · with_reducible apply goHot_kept
        exact h8
      · split
        · exact kept_same h8 rfl rfl
        · exact h8

theorem execTempMeasure_kept {pq : List Instr} (sensor : Nat) (t : Int) (s : State) (h : Kept pq s) :
    ∃ s', execTempMeasure sensor t s = .next s' ∧ Kept pq s' := by
  unfold execTempMeasure
  refine ⟨_, rfl, ?_⟩
  extract_lets +lift a1 a2 a3 a4 a5 a6 a7 a8
  have h9 : Kept pq a2 := by
      unfold a2
      with_reducible apply setF_kept
      exact h
  clear_value a2
  have h10 : Kept pq a3 := by
      unfold a3
      split
      · with_reducible apply setF_kept
        exact h9
      · exact h9
  clear_value a3
  have h11 : Kept pq a4 := by
      unfold a4
      split
      · with_reducible apply setF_kept
        exact h10
      · exact h10
  clear_value a4
  have h12 : Kept pq a8 := by
      unfold a8
      with_reducible apply crossing_kept
      exact kept_same h11 rfl rfl
  clear_value a8
  split
  · with_reducible apply overheat_kept
    exact h12
  · exact h

theorem d11Write_kept {pq : List Instr} (s : State) (off : Bool) (h : Kept pq s) : Kept pq (d11Write s off).2 := by
  unfold d11Write
  extract_lets +lift a1 a2 a3
  have h4 : Kept pq a1 := by
      unfold a1
      with_reducible apply setF_kept
      exact h
  clear_value a1
  have h5 : Kept pq a2 := by
      unfold a2
      with_reducible apply domainOff_kept
      exact h4
  clear_value a2
  split
  · dsimp only
    exact h
  · split
    · dsimp only
      exact kept_same h5 rfl rfl
    · split
      · dsimp only
        exact h4
      · dsimp only
        exact kept_same h4 rfl rfl

theorem execD11Switch_kept {pq : List Instr} (off : Bool) (dbg : Bool) (s : State) (h : Kept pq s) :
    ∃ s', execD11Switch off dbg s = .next s' ∧ Kept pq s' := by
  unfold execD11Switch
  refine ⟨_, rfl, ?_⟩
  split
  · split
    · rename_i x1 x2 x3
      have h4 : Kept pq x2 := by
          refine kept_pair x3 ?_
          with_reducible apply d11Write_kept
          exact h
      exact h4
    · rename_i x5 x6 x7 x8 x9
      have h10 : Kept pq x7 := by
          refine kept_pair x9 ?_
          with_reducible apply d11Write_kept
          exact h
      with_reducible apply accErr_kept
      exact h10
  · exact h

theorem execProcessMeasure_kept {pq : List Instr} (m : Nat) (count : Nat) (s : State) (h : Kept pq s) :
    ∃ s', execProcessMeasure m count s = .next s' ∧ Kept pq s' := by
  unfold execProcessMeasure
  refine ⟨_, rfl, ?_⟩
  split
  · with_reducible apply setF_kept
    exact h
  · exact h

theorem mainsLost_kept {pq : List Instr} (s : State) (m : Mode) (h : Kept pq s) : Kept pq (mainsLost s m) := by
  unfold mainsLost
  extract_lets +lift a1 a2
  have h3 : Kept pq a1 := by
      unfold a1
      with_reducible apply resetParts_kept
      with_reducible apply resetRegs_kept
      exact h
  clear_value a1
  with_reducible apply setF_kept
  exact kept_same h3 rfl rfl

theorem execRailLoss_kept {pq : List Instr} (rail : Nat) (s : State) (h : Kept pq s) :
    ∃ s', execRailLoss rail s = .next s' ∧ Kept pq s' := by
  unfold execRailLoss
  refine ⟨_, rfl, ?_⟩
  split
  · with_reducible apply mainsLost_kept
    exact h
  · exact h

theorem execRstoutRelease_kept {pq : List Instr} (s : State) (h : Kept pq s) :
    ∃ s', execRstoutRelease s = .next s' ∧ Kept pq s' := by
  unfold execRstoutRelease
  refine ⟨_, rfl, ?_⟩
  extract_lets +lift a1
  split
  · exact kept_same h rfl rfl
  · exact h

theorem execResetPin_kept {pq : List Instr} (ns : Nat) (s : State) (h : Kept pq s) :
    ∃ s', execResetPin ns s = .next s' ∧ Kept pq s' := by
  unfold execResetPin
  refine ⟨_, rfl, ?_⟩
  split
  · exact h
  · split
    · rename_i x1 x2 x3 x4
      have h5 : Kept pq x3 := by
          refine kept_pair x4 ?_
          split
          · dsimp only
            exact h
          · with_reducible apply drawBit_kept
            exact h
      extract_lets +lift a6
      split
      · with_reducible apply resetSource_kept
        exact kept_same h5 rfl rfl
      · exact h5

theorem execAvsDecision_kept {pq : List Instr} (s : State) (h : Kept pq s) :
    ∃ s', execAvsDecision s = .next s' ∧ Kept pq s' := by
  unfold execAvsDecision
  refine ⟨_, rfl, ?_⟩
  extract_lets +lift a1 a2
  have h3 : Kept pq a1 := by
      unfold a1
      with_reducible apply pmbWrite_kept
      exact h
  clear_value a1
  split
  · with_reducible apply setF_kept
    exact kept_same h3 rfl rfl
  · exact h

theorem execTapSamplePreload_kept {pq : List Instr} (cells : Nat) (s : State) (h : Kept pq s) :
    ∃ s', execTapSamplePreload cells s = .next s' ∧ Kept pq s' := by
  unfold execTapSamplePreload
  refine ⟨_, rfl, ?_⟩
  with_reducible apply tapSelect_kept
  exact h

theorem execRailMeasure_kept {pq : List Instr} (rail : Nat) (mv : Nat) (s : State) (h : Kept pq s) :
    ∃ s', execRailMeasure rail mv s = .next s' ∧ Kept pq s' := by
  unfold execRailMeasure
  refine ⟨_, rfl, ?_⟩
  extract_lets +lift a1 a2 a3 a4 a5
  have h6 : Kept pq a1 := by
      unfold a1
      with_reducible apply setF_kept
      exact h
  clear_value a1
  have h7 : Kept pq a3 := by
      unfold a3
      split
      · with_reducible apply setF_kept
        exact kept_same h6 rfl rfl
      · exact h6
  clear_value a3
  split
  · split
    · exact h7
    · extract_lets +lift a8
      with_reducible apply crossing_kept
      exact kept_same h7 rfl rfl
  · exact h

theorem execTapExtest_kept {pq : List Instr} (cells : Nat) (s : State) (h : Kept pq s) :
    ∃ s', execTapExtest cells s = .next s' ∧ Kept pq s' := by
  unfold execTapExtest
  refine ⟨_, rfl, ?_⟩
  with_reducible apply tapSelect_kept
  exact h

theorem pmbAlert_kept {pq : List Instr} (s : State) (status : Nat) (h : Kept pq s) : Kept pq (pmbAlert s status) := by
  unfold pmbAlert
  with_reducible apply setRaise_kept
  with_reducible apply setF_kept
  exact h

theorem pmbFree_kept {pq : List Instr} (s : State) (h : Kept pq s) : Kept pq (pmbFree s) := by
  unfold pmbFree
  extract_lets +lift a1
  split
  · with_reducible apply pmbAlert_kept
    exact kept_same h rfl rfl
  · exact h

theorem execAvsHoldTimeout_kept {pq : List Instr} (s : State) (h : Kept pq s) :
    ∃ s', execAvsHoldTimeout s = .next s' ∧ Kept pq s' := by
  unfold execAvsHoldTimeout
  refine ⟨_, rfl, ?_⟩
  extract_lets +lift a1
  split
  · with_reducible apply pmbFree_kept
    with_reducible apply incStop_kept
    with_reducible apply setF_kept
    exact kept_same h rfl rfl
  · exact h

theorem execVbatRise_kept {pq : List Instr} (mv : Nat) (s : State) (h : Kept pq s) :
    ∃ s', execVbatRise mv s = .next s' ∧ Kept pq s' := by
  unfold execVbatRise
  refine ⟨_, rfl, ?_⟩
  extract_lets +lift a1 a2 a3
  have h4 : Kept pq a1 := by
      unfold a1
      with_reducible apply d0PowerUp_kept
      exact h
  clear_value a1
  split
  · exact kept_same h4 rfl rfl
  · exact h

theorem execRoleNegTimeout_kept {pq : List Instr} (s : State) (h : Kept pq s) :
    ∃ s', execRoleNegTimeout s = .next s' ∧ Kept pq s' := by
  unfold execRoleNegTimeout
  refine ⟨_, rfl, ?_⟩
  split
  · with_reducible apply negotiationEnds_kept
    exact h
  · exact h

theorem execTapClamp_kept {pq : List Instr} (s : State) (h : Kept pq s) :
    ∃ s', execTapClamp s = .next s' ∧ Kept pq s' := by
  unfold execTapClamp
  refine ⟨_, rfl, ?_⟩
  with_reducible apply tapSelect_kept
  exact h

theorem execTapIdcode_kept {pq : List Instr} (s : State) (h : Kept pq s) :
    ∃ s', execTapIdcode s = .next s' ∧ Kept pq s' := by
  unfold execTapIdcode
  refine ⟨_, rfl, ?_⟩
  with_reducible apply tapSelect_kept
  exact h

theorem execPmbAlert_kept {pq : List Instr} (status : Nat) (s : State) (h : Kept pq s) :
    ∃ s', execPmbAlert status s = .next s' ∧ Kept pq s' := by
  unfold execPmbAlert
  refine ⟨_, rfl, ?_⟩
  extract_lets +lift a1
  split
  · exact h
  · split
    · exact kept_same h rfl rfl
    · with_reducible apply pmbAlert_kept
      exact h

theorem execVbatLoss_kept {pq : List Instr} (s : State) (h : Kept pq s) :
    ∃ s', execVbatLoss s = .next s' ∧ Kept pq s' := by
  unfold execVbatLoss
  refine ⟨_, rfl, ?_⟩
  split
  · with_reducible apply setF_kept
    exact kept_same h rfl rfl
  · exact h

theorem execStationSupvExpiry_kept {pq : List Instr} (stn : Nat) (s : State) (h : Kept pq s) :
    ∃ s', execStationSupvExpiry stn s = .next s' ∧ Kept pq s' := by
  unfold execStationSupvExpiry
  refine ⟨_, rfl, ?_⟩
  split
  · with_reducible apply setPresent_kept
    exact h
  · exact h

theorem execTapBypass_kept {pq : List Instr} (s : State) (h : Kept pq s) :
    ∃ s', execTapBypass s = .next s' ∧ Kept pq s' := by
  unfold execTapBypass
  refine ⟨_, rfl, ?_⟩
  with_reducible apply tapSelect_kept
  exact h

theorem execStopAtQuietPoint_kept {pq : List Instr} (s : State) (h : Kept pq s) :
    ∃ s', execStopAtQuietPoint s = .next s' ∧ Kept pq s' := by
  unfold execStopAtQuietPoint
  refine ⟨_, rfl, ?_⟩
  split
  · with_reducible apply enterStop_kept
    exact h
  · exact h

theorem execTapHighz_kept {pq : List Instr} (s : State) (h : Kept pq s) :
    ∃ s', execTapHighz s = .next s' ∧ Kept pq s' := by
  unfold execTapHighz
  refine ⟨_, rfl, ?_⟩
  with_reducible apply tapSelect_kept
  exact h

theorem execModeReqStop_kept {pq : List Instr} (dbg : Bool) (s : State) (h : Kept pq s) :
    ∃ s', execModeReqStop dbg s = .next s' ∧ Kept pq s' := by
  unfold execModeReqStop
  refine ⟨_, rfl, ?_⟩
  split
  · with_reducible apply modeReqHost_kept
    exact h
  · exact h

theorem execModeReqRun_kept {pq : List Instr} (dbg : Bool) (s : State) (h : Kept pq s) :
    ∃ s', execModeReqRun dbg s = .next s' ∧ Kept pq s' := by
  unfold execModeReqRun
  refine ⟨_, rfl, ?_⟩
  split
  · with_reducible apply modeReqHost_kept
    exact h
  · exact h

theorem execStopTimeout_kept {pq : List Instr} (s : State) (h : Kept pq s) :
    ∃ s', execStopTimeout s = .next s' ∧ Kept pq s' := by
  unfold execStopTimeout
  refine ⟨_, rfl, ?_⟩
  extract_lets +lift a1 a2
  have h3 : Kept pq a2 := by
      unfold a2
      with_reducible apply enterStop_kept
      exact h
  clear_value a2
  split
  · split
    · with_reducible apply setF_kept
      exact h3
    · exact h3
  · exact h

theorem monTestEnd_kept {pq : List Instr} (s : State) (h : Kept pq s) : Kept pq (monTestEnd s) := by
  unfold monTestEnd
  extract_lets +lift a1 a2
  with_reducible apply kept_foldr
  · exact kept_same h rfl rfl
  · intro v3 v4 v5
    split
    · with_reducible apply warn_kept
      exact v5
    · split
      · with_reducible apply warn_kept
        exact v5
      · with_reducible apply goHot_kept
        exact v5

theorem execAliveToggle_kept {pq : List Instr} (s : State) (h : Kept pq s) :
    ∃ s', execAliveToggle s = .next s' ∧ Kept pq s' := by
  unfold execAliveToggle
  refine ⟨_, rfl, ?_⟩
  extract_lets +lift a1
  split
  · exact kept_same h rfl rfl
  · exact h

theorem execWakeTime_kept {pq : List Instr} (s : State) (h : Kept pq s) :
    ∃ s', execWakeTime s = .next s' ∧ Kept pq s' := by
  unfold execWakeTime
  refine ⟨_, rfl, ?_⟩
  split
  · exact h
  · with_reducible apply wakeSource_kept
    exact h

theorem execResetPinRelease_kept {pq : List Instr} (stn : Nat) (bootsel : Nat) (s : State) (h : Kept pq s) :
    ∃ s', execResetPinRelease stn bootsel s = .next s' ∧ Kept pq s' := by
  unfold execResetPinRelease
  refine ⟨_, rfl, ?_⟩
  extract_lets +lift a1 a2 a3 a4 a5
  have h6 : Kept pq a5 := by
      unfold a5
      exact kept_same h rfl rfl
  clear_value a5
  split
  · split
    · with_reducible apply enterBoot_kept
      exact h6
    · exact h6
  · exact h

theorem execWatchdogExpiry_kept {pq : List Instr} (s : State) (h : Kept pq s) :
    ∃ s', execWatchdogExpiry s = .next s' ∧ Kept pq s' := by
  unfold execWatchdogExpiry
  refine ⟨_, rfl, ?_⟩
  split
  · with_reducible apply resetSource_kept
    exact h
  · exact h

theorem execAvsReadback_kept {pq : List Instr} (mv : Nat) (busError : Bool) (s : State) (h : Kept pq s) :
    ∃ s', execAvsReadback mv busError s = .next s' ∧ Kept pq s' := by
  unfold execAvsReadback
  refine ⟨_, rfl, ?_⟩
  extract_lets +lift a1 a2 a3
  have h4 : Kept pq a2 := by
      unfold a2
      exact kept_same h rfl rfl
  clear_value a2
  split
  · split
    · with_reducible apply setF_kept
      exact h4
    · split
      · with_reducible apply setRaise_kept
        exact h4
      · exact h4
  · exact h

theorem execRef25Stop_kept {pq : List Instr} (s : State) (h : Kept pq s) :
    ∃ s', execRef25Stop s = .next s' ∧ Kept pq s' := by
  unfold execRef25Stop
  refine ⟨_, rfl, ?_⟩
  extract_lets +lift a1
  split
  · exact kept_same h rfl rfl
  · exact h

theorem execPowerOnReset_kept {pq : List Instr} (s : State) (h : Kept pq s) :
    ∃ s', execPowerOnReset s = .next s' ∧ Kept pq s' := by
  unfold execPowerOnReset
  refine ⟨_, rfl, ?_⟩
  split
  · with_reducible apply powerUp_kept
    with_reducible apply d0PowerUp_kept
    exact h
  · split
    · with_reducible apply powerUp_kept
      exact h
    · exact h

theorem execReferenceStable_kept {pq : List Instr} (s : State) (h : Kept pq s) :
    ∃ s', execReferenceStable s = .next s' ∧ Kept pq s' := by
  unfold execReferenceStable
  refine ⟨_, rfl, ?_⟩
  extract_lets +lift a1 a2
  have h3 : Kept pq a2 := by
      unfold a2
      exact kept_same h rfl rfl
  clear_value a2
  split
  · with_reducible apply enterBoot_kept
    exact h3
  · exact h3

theorem execModeReqHalt_kept {pq : List Instr} (dbg : Bool) (s : State) (h : Kept pq s) :
    ∃ s', execModeReqHalt dbg s = .next s' ∧ Kept pq s' := by
  unfold execModeReqHalt
  refine ⟨_, rfl, ?_⟩
  split
  · with_reducible apply modeReqHost_kept
    exact h
  · exact h

theorem execAvsRelease_kept {pq : List Instr} (s : State) (h : Kept pq s) :
    ∃ s', execAvsRelease s = .next s' ∧ Kept pq s' := by
  unfold execAvsRelease
  refine ⟨_, rfl, ?_⟩
  extract_lets +lift a1
  split
  · split
    · with_reducible apply pmbFree_kept
      with_reducible apply incWrap_kept
      with_reducible apply setFs_kept
      exact kept_same h rfl rfl
    · exact h
  · exact h

theorem loadTable_kept {pq : List Instr} (s : State) (ws : List Nat) (h : Kept pq s) : Kept pq (loadTable s ws) := by
  unfold loadTable
  extract_lets +lift a1
  have h2 : Kept pq a1 := by
      unfold a1
      with_reducible apply setF_kept
      exact h
  clear_value a1
  with_reducible apply tableActive_kept
  with_reducible apply kept_foldl
  · exact h2
  · intro v3 v4 v5
    with_reducible apply setF_kept
    exact v5

theorem loadProgram_kept {pq : List Instr} (s : State) (ws : List Nat) (h : Kept pq s) : Kept pq (loadProgram s ws) := by
  unfold loadProgram
  extract_lets +lift a1 a2
  have h3 : Kept pq a2 := by
      unfold a2
      with_reducible apply setF_kept
      exact kept_same h rfl rfl
  clear_value a2
  with_reducible apply setPid_kept
  with_reducible apply bankPuts_kept
  exact h3

theorem configPut_kept {pq : List Instr} (s : State) (p : Nat × Nat) (h : Kept pq s) : Kept pq (configPut s p) := by
  unfold configPut
  extract_lets +lift a1
  have h2 : Kept pq a1 := by
      unfold a1
      with_reducible apply kept_foldl
      · exact h
      · intro v3 v4 v5
        split
        · with_reducible apply setF_kept
          exact v5
        · exact v5
  clear_value a1
  split
  · with_reducible apply setF_kept
    exact h
  · split
    · with_reducible apply tableActive_kept
      exact h2
    · exact h2

theorem loadSlot_kept {pq : List Instr} (s : State) (slot : Nat) (h : Kept pq s) : Kept pq (loadSlot s slot) := by
  unfold loadSlot
  extract_lets +lift a1
  have h2 : Kept pq a1 := by
      unfold a1
      with_reducible apply loadTable_kept
      with_reducible apply loadProgram_kept
      exact h
  clear_value a1
  with_reducible apply kept_foldl
  · exact h2
  · intro v3 v4 v5
    with_reducible apply configPut_kept
    exact v5

theorem crecBoot_kept {pq : List Instr} (s : State) (h : Kept pq s) : Kept pq (crecBoot s) := by
  unfold crecBoot
  extract_lets +lift a1
  split
  · exact h
  · with_reducible apply setF_kept
    exact h

theorem mapPuts_kept {pq : List Instr} (word bit : Nat → Bool) (s : State) (a : Nat) (st : Option (Nat × Nat)) (l : List Nat) (h : Kept pq s) : Kept pq (mapPuts word bit s a st l) := by
  induction l generalizing s a st with
  | nil => simpa only [mapPuts] using h
  | cons w r ih =>
    rw [mapPuts]
    split
    · refine ih _ _ _ (kept_foldl h ?_)
      intro s x h
      dsimp only
      split
      · exact setBit_kept _ _ _ _ h
      · exact h
    · split
      · dsimp only
        split
        · exact ih _ _ _ h
        · refine ih _ _ _ ?_
          split
          · exact loadWord_kept _ _ _ h
          · exact h
      · exact ih _ _ _ h

theorem runPuts_kept {pq : List Instr} (word bit : Nat → Bool) (n : Nat) (s : State) (l : List Nat) (h : Kept pq s) : Kept pq (runPuts word bit n s l) := by
  induction n generalizing s l with
  | zero => simpa only [runPuts] using h
  | succ n ih =>
    rcases l with _ | ⟨a, _ | ⟨c, r⟩⟩
    · exact h
    · exact h
    · exact ih _ _ (mapPuts_kept _ _ _ _ _ _ h)

theorem retBoot_kept {pq : List Instr} (s : State) (slot : Option Nat) (h : Kept pq s) : Kept pq (retBoot s slot) := by
  unfold retBoot
  split
  · exact h
  · split
    · extract_lets +lift a1 a2
      have h3 : Kept pq a1 := by
          unfold a1
          with_reducible apply kept_foldl
          · exact h
          · intro v4 v5 v6
            with_reducible apply loadWord_kept
            exact v6
      clear_value a1
      have h7 : Kept pq a2 := by
          unfold a2
          with_reducible apply kept_foldl
          · exact h3
          · intro v8 v9 v10
            with_reducible apply setBit_kept
            exact v10
      clear_value a2
      with_reducible apply setFs_kept
      exact h7
    · extract_lets +lift a11
      with_reducible apply runPuts_kept
      exact h
    · exact h

theorem voidSets_kept {pq : List Instr} (s : State) (count : Bool) (h : Kept pq s) : Kept pq (voidSets s count) := by
  unfold voidSets
  extract_lets +lift a1 a2 a3 a4 a5
  have h6 : Kept pq a5 := by
      unfold a5
      exact kept_same h rfl rfl
  clear_value a5
  split
  · with_reducible apply setF_kept
    exact h6
  · exact h6

theorem putObject_kept {pq : List Instr} (s : State) (o : Nat) (kvs : List (Nat × Nat)) (h : Kept pq s) : Kept pq (putObject s o kvs) := by
  unfold putObject
  extract_lets +lift a1 a2 a3 a4
  have h5 : Kept pq a2 := by
      unfold a2
      exact kept_same h rfl rfl
  clear_value a2
  have h6 : Kept pq a4 := by
      unfold a4
      with_reducible apply kept_foldl
      · exact h5
      · intro v7 v8 v9
        extract_lets +lift a10
        split
        · with_reducible apply setF_kept
          exact v9
        · split
          · with_reducible apply setF_kept
            exact v9
          · exact v9
  clear_value a4
  split
  · with_reducible apply tableActive_kept
    exact h6
  · exact h6

theorem applySet_kept {pq : List Instr} (which : Nat → Bool) (s : State) (p : NvSet) (h : Kept pq s) : Kept pq (applySet which s p) := by
  unfold applySet
  extract_lets +lift a1 a2
  have h3 : Kept pq a1 := by
      unfold a1
      with_reducible apply kept_foldl
      · exact h
      · intro v4 v5 v6
        with_reducible apply putObject_kept
        exact v6
  clear_value a1
  have h7 : Kept pq a2 := by
      unfold a2
      split
      · split
        · with_reducible apply setPid_kept
          with_reducible apply kept_foldl
          · exact h3
          · intro v8 v9 v10
            with_reducible apply bankPut_kept
            exact v10
        · exact h3
      · exact h3
  clear_value a2
  with_reducible apply clearRanges_kept
  exact h7

theorem replaySets_kept {pq : List Instr} (s : State) (l : List NvSet) (h : Kept pq s) : Kept pq (replaySets s l) := by
  induction l generalizing s with
  | nil => simpa only [replaySets] using h
  | cons p r ih =>
    rw [replaySets]
    split
    · exact ih _ (setF_kept _ _ _ (applySet_kept _ _ _ h))
    · exact txnOutcome_kept _ _ _ _ _ _ h

theorem resetOutcome_kept {pq : List Instr} (s : State) (h : Kept pq s) : Kept pq (resetOutcome s) := by
  unfold resetOutcome
  extract_lets +lift a1 a2 a3 a4 a5
  have h6 : Kept pq a2 := by
      unfold a2
      split
      · with_reducible apply txnOutcome_kept
        exact kept_same h rfl rfl
      · exact h
  clear_value a2
  have h7 : Kept pq a4 := by
      unfold a4
      with_reducible apply txnOutcome_kept
      with_reducible apply setFs_kept
      exact h6
  clear_value a4
  split
  · split
    · exact h7
    · exact kept_same h7 rfl rfl
  · exact h6

theorem journalBoot_kept {pq : List Instr} (s : State) (h : Kept pq s) : Kept pq (journalBoot s) := by
  unfold journalBoot
  split
  · exact h
  · with_reducible apply kept_foldl
    · exact h
    · intro v1 v2 v3
      split
      · with_reducible apply norErase_kept
        exact v3
      · with_reducible apply norProgram_kept
        exact v3
      · with_reducible apply setF_kept
        exact v3
      · exact v3

theorem bootLoad_kept {pq : List Instr} (s : State) (h : Kept pq s) : Kept pq (bootLoad s) := by
  unfold bootLoad
  extract_lets +lift a1 a2
  have h3 : Kept pq a2 := by
      unfold a2
      with_reducible apply setFs_kept
      exact h
  clear_value a2
  split
  · extract_lets +lift a4 a5 a6 a7 a8 a9 a10 a11 a12
    have h13 : Kept pq a4 := by
        unfold a4
        with_reducible apply setFs_kept
        exact h3
    clear_value a4
    have h14 : Kept pq a5 := by
        unfold a5
        split
        · exact h13
        · with_reducible apply kept_foldl
          · exact h13
          · intro v15 v16 v17
            split
            · with_reducible apply setF_kept
              exact v17
            · exact v17
    clear_value a5
    have h18 : Kept pq a6 := by
        unfold a6
        split
        · with_reducible apply setFs_kept
          exact h14
        · exact h14
    clear_value a6
    have h19 : Kept pq a7 := by
        unfold a7
        split
        · extract_lets +lift a20 a21
          have h22 : Kept pq a20 := by
              unfold a20
              with_reducible apply setF_kept
              exact h18
          clear_value a20
          have h23 : Kept pq a21 := by
              unfold a21
              split
              · split
                · with_reducible apply setF_kept
                  exact h22
                · with_reducible apply setF_kept
                  exact h22
              · with_reducible apply setF_kept
                exact h22
          clear_value a21
          with_reducible apply loadSlot_kept
          exact h23
        · exact h18
    clear_value a7
    have h24 : Kept pq a8 := by
        unfold a8
        with_reducible apply crecBoot_kept
        with_reducible apply retBoot_kept
        exact h19
    clear_value a8
    have h25 : Kept pq a9 := by
        unfold a9
        with_reducible apply voidSets_kept
        exact h24
    clear_value a9
    have h26 : Kept pq a10 := by
        unfold a10
        split
        · exact h24
        · split
          · with_reducible apply replaySets_kept
            exact h25
          · exact h25
    clear_value a10
    have h27 : Kept pq a11 := by
        unfold a11
        with_reducible apply resetOutcome_kept
        with_reducible apply setF_kept
        exact h26
    clear_value a11
    with_reducible apply journalBoot_kept
    with_reducible apply setF_kept
    exact h27

theorem initData_kept {pq : List Instr} (s : State) (slot : Nat) (h : Kept pq s) : Kept pq (initData s slot) := by
  unfold initData
  extract_lets +lift a1
  with_reducible apply runPuts_kept
  exact h

theorem stReload_kept {pq : List Instr} (s : State) (h : Kept pq s) : Kept pq (stReload s) := by
  unfold stReload
  extract_lets +lift a1 a2 a3 a4 a5 a6
  have h7 : Kept pq a2 := by
      unfold a2
      with_reducible apply eccWipe_kept
      with_reducible apply clearSpaces_kept
      exact kept_same h rfl rfl
  clear_value a2
  have h8 : Kept pq a3 := by
      unfold a3
      exact kept_same h7 rfl rfl
  clear_value a3
  have h9 : Kept pq a4 := by
      unfold a4
      with_reducible apply refreshPresent_kept
      with_reducible apply setFs_kept
      exact h8
  clear_value a4
  have h10 : Kept pq a6 := by
      unfold a6
      with_reducible apply initData_kept
      with_reducible apply loadTable_kept
      with_reducible apply loadProgram_kept
      exact h9
  clear_value a6
  split
  · exact h9
  · with_reducible apply kept_foldl
    · exact h10
    · intro v11 v12 v13
      with_reducible apply applySet_kept
      exact v13

theorem stLeave_kept {pq : List Instr} (s : State) (fatal : Bool) (h : Kept pq s) : Kept pq (stLeave s fatal) := by
  unfold stLeave
  extract_lets +lift a1 a2
  have h3 : Kept pq a2 := by
      unfold a2
      with_reducible apply stReload_kept
      exact kept_same h rfl rfl
  clear_value a2
  split
  · with_reducible apply enterHalt_kept
    with_reducible apply journalInt_kept
    exact h3
  · split
    · with_reducible apply d11Follow_kept
      with_reducible apply transition_kept
      exact h3
    · with_reducible apply enterByRole_kept
      exact h3

theorem stResult_kept {pq : List Instr} (s : State) (i : Nat) (code : Nat) (h : Kept pq s) : Kept pq (stResult s i code) := by
  unfold stResult
  extract_lets +lift a1 a2
  have h3 : Kept pq a2 := by
      unfold a2
      with_reducible apply setF_kept
      exact h
  clear_value a2
  with_reducible apply setF_kept
  exact h3

theorem stStart_kept {pq : List Instr} (s : State) (i : Nat) (h : Kept pq s) : Kept pq (stStart s i) := by
  unfold stStart
  extract_lets +lift a1 a2 a3
  have h4 : Kept pq a2 := by
      unfold a2
      exact kept_same h rfl rfl
  clear_value a2
  split
  · exact kept_same h4 rfl rfl
  · exact h4

theorem stNext_kept {pq : List Instr} (l : List Nat) (s : State) (h : Kept pq s) : Kept pq (stNext l s) := by
  induction l generalizing s with
  | nil => exact stLeave_kept _ _ h
  | cons i r ih =>
    rw [stNext]
    split
    · exact ih _ (stResult_kept _ _ _ h)
    · exact stStart_kept _ _ h

theorem stEnd_kept {pq : List Instr} (s : State) (i : Nat) (h : Kept pq s) : Kept pq (stEnd s i) := by
  unfold stEnd
  split
  · with_reducible apply monTestEnd_kept
    exact h
  · split
    · with_reducible apply trcLost_kept
      with_reducible apply trcClear_kept
      exact h
    · exact h

theorem loadHooks_kept {pq : List Instr} (old : State) (s : State) (h1 : Kept pq old) (h2 : Kept pq s) : Kept pq (loadHooks old s) := by
  unfold loadHooks
  extract_lets +lift a1 a2
  have h3 : Kept pq a1 := by
      unfold a1
      with_reducible apply plbNominal_kept
      with_reducible apply refreshPresent_kept
      with_reducible apply setF_kept
      exact h2
  clear_value a1
  have h4 : Kept pq a2 := by
      unfold a2
      with_reducible apply canEffect_kept
      · exact h1
      · with_reducible apply canEffect_kept
        · exact h1
        · with_reducible apply egrEffect_kept
          · exact h1
          · exact h3
  clear_value a2
  with_reducible apply phmEffect_kept
  · exact h1
  · exact h4

theorem stDisable_kept {pq : List Instr} (s : State) (i : Nat) (failed : List Nat) (h : Kept pq s) : Kept pq (stDisable s i failed) := by
  unfold stDisable
  extract_lets +lift a1 a2
  split
  · exact h
  · split
    · exact kept_same h rfl rfl
    · exact kept_same h rfl rfl
    · with_reducible apply setF_kept
      exact kept_same h rfl rfl
    · exact kept_same h rfl rfl
    · exact kept_same h rfl rfl
    · exact kept_same h rfl rfl
    · exact kept_same h rfl rfl
    · exact h

theorem execHoldWakeReloadDone_kept {pq : List Instr} (s : State) (h : Kept pq s) :
    ∃ s', execHoldWakeReloadDone s = .next s' ∧ Kept pq s' := by
  unfold execHoldWakeReloadDone
  refine ⟨_, rfl, ?_⟩
  extract_lets +lift a1 a2 a3 a4 a5 a6 a7 a8 a9 a10
  have h11 : Kept pq a3 := by
      unfold a3
      exact kept_same h rfl rfl
  clear_value a3
  have h12 : Kept pq a5 := by
      unfold a5
      with_reducible apply setFs_kept
      exact h11
  clear_value a5
  have h13 : Kept pq a7 := by
      unfold a7
      exact kept_same h12 rfl rfl
  clear_value a7
  have h14 : Kept pq a9 := by
      unfold a9
      with_reducible apply loadTable_kept
      with_reducible apply loadProgram_kept
      exact h13
  clear_value a9
  have h15 : Kept pq a10 := by
      unfold a10
      split
      · with_reducible apply setFs_kept
        exact kept_same h13 rfl rfl
      · with_reducible apply kept_foldl
        · exact h14
        · intro v16 v17 v18
          with_reducible apply applySet_kept
          exact v18
  clear_value a10
  split
  · exact h
  · split
    · exact h15
    · with_reducible apply setRaise_kept
      exact h15

theorem execBootComplete_kept {pq : List Instr} (s : State) (h : Kept pq s) :
    ∃ s', execBootComplete s = .next s' ∧ Kept pq s' := by
  unfold execBootComplete
  refine ⟨_, rfl, ?_⟩
  extract_lets +lift a1 a2 a3
  have h4 : Kept pq a2 := by
      unfold a2
      split
      · exact h
      · with_reducible apply loadHooks_kept
        · exact h
        · with_reducible apply bootLoad_kept
          exact kept_same h rfl rfl
  clear_value a2
  have h5 : Kept pq a3 := by
      unfold a3
      with_reducible apply transition_kept
      exact h4
  clear_value a3
  split
  · exact h
  · split
    · exact h4
    · with_reducible apply stNext_kept
      split
      · exact h5
      · with_reducible apply domainUp_kept
        exact h5

theorem execSelftestTestDone_kept {pq : List Instr} (failed : List Nat) (s : State) (h : Kept pq s) :
    ∃ s', execSelftestTestDone failed s = .next s' ∧ Kept pq s' := by
  have hm : ∀ (x : State) (c : ModeSt), Kept pq x → Kept pq { x with ms := c } := fun x c hx => kept_same hx rfl rfl
  unfold execSelftestTestDone
  refine ⟨_, rfl, ?_⟩
  dsimp only
  split
  · refine iteInduction (motive := Kept pq) (fun _ => h) (fun _ => ?_)
    refine iteInduction (motive := Kept pq) (fun _ => ?_) (fun _ => ?_)
    · exact stLeave_kept _ _ (stDisable_kept _ _ _ (stEnd_kept _ _ (hm _ _ (stResult_kept _ _ _ h))))
    · exact stNext_kept _ _ (stDisable_kept _ _ _ (stEnd_kept _ _ (hm _ _ (stResult_kept _ _ _ h))))
  · exact opEnd_kept _ _ _ _ (stEnd_kept _ _ (hm _ _ (stResult_kept _ _ _ h)))
  · exact h

theorem startTakeover_kept {pq : List Instr} (s : State) (cause : Nat) (h : Kept pq s) : Kept pq (startTakeover s cause) := by
  unfold startTakeover
  extract_lets +lift a1
  split
  · exact h
  · exact kept_same h rfl rfl

theorem replayMark_kept {pq : List Instr} (s : State) (kind : Nat) (cause : Nat) (h : Kept pq s) : Kept pq (replayMark s kind cause) := by
  unfold replayMark
  extract_lets +lift a1 a2 a3
  have h4 : Kept pq a3 := by
      unfold a3
      exact kept_same h rfl rfl
  clear_value a3
  split
  · split
    · exact h
    · split
      · split
        · with_reducible apply startTakeover_kept
          exact h4
        · exact h4
      · with_reducible apply setF_kept
        exact h4
  · split
    · with_reducible apply setF_kept
      with_reducible apply replayStop_kept
      exact h
    · exact h
  · split
    · with_reducible apply startTakeover_kept
      exact h
    · exact h
  · exact h

theorem replayFreeze_kept {pq : List Instr} (s : State) (c : Nat) (t : Nat) (scan : Nat) (tai : Nat) (bits : List (Nat × Bool)) (words : List (Nat × TWord)) (h : Kept pq s) : Kept pq (replayFreeze s c t scan tai bits words) := by
  unfold replayFreeze
  extract_lets +lift a1 a2 a3 a4 a5
  have h6 : Kept pq a1 := by
      unfold a1
      with_reducible apply kept_foldl
      · exact h
      · intro v7 v8 v9
        with_reducible apply putPlaneB_kept
        exact v9
  clear_value a1
  have h10 : Kept pq a2 := by
      unfold a2
      with_reducible apply kept_foldl
      · exact h6
      · intro v11 v12 v13
        with_reducible apply putPlaneW_kept
        exact v13
  clear_value a2
  have h14 : Kept pq a3 := by
      unfold a3
      split
      · with_reducible apply updTask_kept
        exact h10
      · exact h10
  clear_value a3
  have h15 : Kept pq a5 := by
      unfold a5
      with_reducible apply startRun_kept
      exact kept_same h14 rfl rfl
  clear_value a5
  split
  · exact h
  · with_reducible apply setF_kept
    exact h15

theorem replayEnd_kept {pq : List Instr} (s : State) (c : Nat) (t : Nat) (nocommit : Bool) (hash : Nat) (h : Kept pq s) : Kept pq (replayEnd s c t nocommit hash) := by
  unfold replayEnd
  extract_lets +lift a1
  split
  · split
    · exact h
    · with_reducible apply diverge_kept
      exact h
  · extract_lets +lift a2
    have h3 : Kept pq a2 := by
        unfold a2
        exact kept_same h rfl rfl
    clear_value a2
    split
    · with_reducible apply diverge_kept
      exact h3
    · split
      · with_reducible apply diverge_kept
        exact h3
      · split
        · with_reducible apply diverge_kept
          exact h3
        · split
          · with_reducible apply setF_kept
            exact h3
          · exact h3

theorem setKey_kept {pq : List Instr} (s : State) (k : Nat) (v : Nat) (h : Kept pq s) : Kept pq (setKey s k v) := by
  unfold setKey
  split
  · with_reducible apply setF_kept
    exact h
  · split
    · with_reducible apply setF_kept
      exact h
    · exact h

theorem replayBank_kept {pq : List Instr} (s : State) (patches : List (Nat × Word)) (pid : Option (Nat × Nat)) (h : Kept pq s) : Kept pq (replayBank s patches pid) := by
  unfold replayBank
  split
  · exact h
  · with_reducible apply setFs_kept
    with_reducible apply bankSwap_kept
    with_reducible apply setPid_kept
    with_reducible apply kept_foldl
    · split
      · exact kept_same h rfl rfl
      · exact kept_same h rfl rfl
    · intro v33 v34 v35
      with_reducible apply bankPut_kept
      exact v35

theorem replayRecord_kept {pq : List Instr} (old s : State) (regs : List (Nat × Nat)) (patches : List (Nat × Word)) (pid : Option (Nat × Nat)) (news : List NewVar) (persist : Bool) (h : Kept pq s) : Kept pq (replayRecord old s regs patches pid news persist) := by
  unfold replayRecord
  split
  · exact h
  · split
    · exact h
    · with_reducible apply nvRequest_kept
      exact kept_same (setF_kept s NVS_TXA.NEXT (getF s NVS_TXA.NEXT + 1) h) rfl rfl

theorem replayTxn_kept {pq : List Instr} (s : State) (regs : List (Nat × Nat)) (patches : List (Nat × Word)) (pid : Option (Nat × Nat)) (news : List NewVar) (persist : Bool) (h : Kept pq s) : Kept pq (replayTxn s regs patches pid news persist) := by
  unfold replayTxn
  with_reducible apply replayRecord_kept
  have h1 : ∀ x : State, Kept pq x → Kept pq (if isSet x TXN_STAT.STATE then x else setF x TXN_STAT.UNDO_OK 1) := by
    intro x hx
    split
    · exact hx
    · exact setF_kept _ _ _ hx
  apply h1
  refine kept_same (effectHooks_kept _ _ _ h (replayBank_kept _ _ _ ?_)) rfl rfl
  split
  · with_reducible apply tableActive_kept
    with_reducible apply kept_foldl
    · exact clearRanges_kept _ _ h
    · intro v27 v28 v29
      exact setKey_kept _ _ _ v29
  · with_reducible apply kept_foldl
    · exact clearRanges_kept _ _ h
    · intro v27 v28 v29
      exact setKey_kept _ _ _ v29

theorem replayOne_kept {pq : List Instr} (s : State) (c : Nat) (ev : StreamEv) (h : Kept pq s) : Kept pq (replayOne s c ev) := by
  unfold replayOne
  extract_lets +lift a1
  split
  · split
    · with_reducible apply countSkip_kept
      exact h
    · split
      · with_reducible apply updTask_kept
        exact h
      · with_reducible apply setPending_kept
        exact h
  · split
    · with_reducible apply replayFreeze_kept
      exact h
    · exact h
  · split
    · exact kept_same h rfl rfl
    · exact kept_same h rfl rfl
  · split
    · with_reducible apply writeBit_kept
      exact h
    · with_reducible apply userWriteBit_kept
      exact h
  · split
    · with_reducible apply writeWord_kept
      exact h
    · exact h
  · split
    · with_reducible apply tmuFire_kept
      exact h
    · exact h
  · with_reducible apply replayEnd_kept
    exact h
  · split
    · with_reducible apply commit_kept
      exact h
    · exact h
  · with_reducible apply replayTxn_kept
    exact h
  · with_reducible apply setFs_kept
    exact h
  · with_reducible apply replayMark_kept
    exact h

theorem replayFirst_kept {pq : List Instr} (kind : StreamEv → Bool) (s : State) (h : Kept pq s) : Kept pq (replayFirst kind s) := by
  unfold replayFirst
  extract_lets +lift a1
  split
  · with_reducible apply replayOne_kept
    exact kept_same h rfl rfl
  · exact h

theorem execSyncReq_kept {pq : List Instr} (dbg : Bool) (s : State) (h : Kept pq s) :
    ∃ s', execSyncReq dbg s = .next s' ∧ Kept pq s' := by
  unfold execSyncReq
  refine ⟨_, rfl, ?_⟩
  split
  · exact h
  · split
    · with_reducible apply requestXfer_kept
      exact h
    · with_reducible apply accErr_kept
      exact h

theorem execHandoverMark_kept {pq : List Instr} (s : State) (h : Kept pq s) :
    ∃ s', execHandoverMark s = .next s' ∧ Kept pq s' := by
  unfold execHandoverMark
  refine ⟨_, rfl, ?_⟩
  extract_lets +lift a1 a2 a3 a4
  have h5 : Kept pq a2 := by
      unfold a2
      with_reducible apply pushSeq_kept
      with_reducible apply streamEv_kept
      exact h
  clear_value a2
  split
  · exact h
  · extract_lets +lift a6 a7
    have h8 : Kept pq a6 := by
        unfold a6
        with_reducible apply enterTrack_kept
        with_reducible apply opEnd?_kept
        exact kept_same h5 rfl rfl
    clear_value a6
    split
    · exact h
    · split
      · with_reducible apply opEnd?_kept
        exact kept_same h rfl rfl
      · exact kept_same h8 rfl rfl

theorem execResetPartner_kept {pq : List Instr} (_dbg : Bool) (s : State) (h : Kept pq s) :
    ∃ s', execResetPartner _dbg s = .next s' ∧ Kept pq s' := by
  unfold execResetPartner
  refine ⟨_, rfl, ?_⟩
  split
  · with_reducible apply pushSeq_kept
    exact h
  · exact h

theorem sendNak_kept {pq : List Instr} (s : State) (h : Kept pq s) : Kept pq (sendNak s) := by
  unfold sendNak
  exact kept_same h rfl rfl

theorem rxBad_kept {pq : List Instr} (s : State) (h : Kept pq s) : Kept pq (rxBad s) := by
  unfold rxBad
  with_reducible apply sendNak_kept
  with_reducible apply incStop_kept
  exact h

theorem ackTo_kept {pq : List Instr} (s : State) (seq : Nat) (h : Kept pq s) : Kept pq (ackTo s seq) := by
  unfold ackTo
  exact kept_same h rfl rfl

theorem stopStream_kept {pq : List Instr} (s : State) (h : Kept pq s) : Kept pq (stopStream s) := by
  unfold stopStream
  extract_lets +lift a1 a2
  have h3 : Kept pq a2 := by
      unfold a2
      exact kept_same h rfl rfl
  clear_value a2
  split
  · with_reducible apply setFs_kept
    split
    · with_reducible apply setF_kept
      exact h3
    · exact h3
  · exact h

theorem hbPrimary_kept {pq : List Instr} (s : State) (h : HbInfo) (hk : Kept pq s) : Kept pq (hbPrimary s h) := by
  unfold hbPrimary
  extract_lets +lift a1 a2 a3 a4 a5 a6 a7 a8
  have h9 : Kept pq a1 := by
      unfold a1
      split
      · with_reducible apply setF_kept
        exact hk
      · with_reducible apply setF_kept
        with_reducible apply stopStream_kept
        exact hk
  clear_value a1
  have h10 : Kept pq a2 := by
      unfold a2
      split
      · with_reducible apply stopStream_kept
        exact h9
      · exact h9
  clear_value a2
  have h11 : Kept pq a4 := by
      unfold a4
      split
      · exact kept_same h10 rfl rfl
      · exact h10
  clear_value a4
  have h12 : Kept pq a7 := by
      unfold a7
      with_reducible apply setRaise_kept
      exact h11
  clear_value a7
  split
  · split
    · exact kept_same h12 rfl rfl
    · exact h12
  · exact h11

theorem partnerGone_kept {pq : List Instr} (s : State) (h : Kept pq s) : Kept pq (partnerGone s) := by
  unfold partnerGone
  extract_lets +lift a1
  split
  · exact h
  · split
    · with_reducible apply startTakeover_kept
      exact h
    · split
      · with_reducible apply setFs_kept
        exact kept_same h rfl rfl
      · exact h

theorem hbSecondary_kept {pq : List Instr} (s : State) (h : HbInfo) (hk : Kept pq s) : Kept pq (hbSecondary s h) := by
  unfold hbSecondary
  extract_lets +lift a1 a2 a3
  have h4 : Kept pq a2 := by
      unfold a2
      split
      · exact kept_same hk rfl rfl
      · exact hk
  clear_value a2
  split
  · with_reducible apply partnerGone_kept
    exact h4
  · with_reducible apply autoSync_kept
    exact h4

theorem hbTake_kept {pq : List Instr} (s : State) (h : HbInfo) (hk : Kept pq s) : Kept pq (hbTake s h) := by
  unfold hbTake
  extract_lets +lift a1 a2 a3 a4 a5 a6
  have h7 : Kept pq a3 := by
      unfold a3
      exact kept_same hk rfl rfl
  clear_value a3
  have h8 : Kept pq a4 := by
      unfold a4
      with_reducible apply setFs_kept
      with_reducible apply ackTo_kept
      exact h7
  clear_value a4
  have h9 : Kept pq a5 := by
      unfold a5
      split
      · with_reducible apply setF_kept
        exact h8
      · exact h8
  clear_value a5
  have h10 : Kept pq a6 := by
      unfold a6
      split
      · with_reducible apply setValidSrc_kept
        exact h9
      · exact h9
  clear_value a6
  split
  · with_reducible apply enterByRole_kept
    exact h10
  · split
    · with_reducible apply hbPrimary_kept
      exact h10
    · split
      · with_reducible apply hbSecondary_kept
        exact h10
      · exact h10

theorem execSblHbRx_kept {pq : List Instr} (crcOk : Bool) (hb : HbInfo) (s : State) (h : Kept pq s) :
    ∃ s', execSblHbRx crcOk hb s = .next s' ∧ Kept pq s' := by
  unfold execSblHbRx
  refine ⟨_, rfl, ?_⟩
  split
  · exact h
  · split
    · with_reducible apply rxBad_kept
      exact h
    · with_reducible apply hbTake_kept
      exact h

theorem hostAnswer_kept {pq : List Instr} (addr : Nat) (dbg : Bool) (before : State) (r : Nat × State) (h : Kept pq before) (hr : Kept pq r.2) : Kept pq (hostAnswer addr dbg before r) := by
  unfold hostAnswer
  split
  · exact hr
  · exact accErr_kept _ _ _ _ h

theorem execStreamLossMark_kept {pq : List Instr} (s : State) (h : Kept pq s) :
    ∃ s', execStreamLossMark s = .next s' ∧ Kept pq s' := by
  unfold execStreamLossMark
  refine ⟨_, rfl, ?_⟩
  extract_lets +lift a1 a2
  have h3 : Kept pq a1 := by
      unfold a1
      with_reducible apply pushSeq_kept
      exact h
  clear_value a1
  split
  · with_reducible apply xferRestart_kept
    exact kept_same h3 rfl rfl
  · exact h

theorem sblSource_kept {pq : List Instr} (s : State) (h : Kept pq s) : Kept pq (sblSource s) := by
  unfold sblSource
  extract_lets +lift a1
  split
  · with_reducible apply setValidSrc_kept
    exact kept_same h rfl rfl
  · exact h

theorem execSblAlignLoss_kept {pq : List Instr} (s : State) (h : Kept pq s) :
    ∃ s', execSblAlignLoss s = .next s' ∧ Kept pq s' := by
  unfold execSblAlignLoss
  refine ⟨_, rfl, ?_⟩
  split
  · with_reducible apply setF_kept
    exact h
  · with_reducible apply xferRestart_kept
    with_reducible apply sblSource_kept
    with_reducible apply setF_kept
    exact h

theorem abandonRun_kept {pq : List Instr} (s : State) (t : Nat) (h : Kept pq s) : Kept pq (abandonRun s t) := by
  unfold abandonRun
  extract_lets +lift a1 a2
  have h3 : Kept pq a1 := by
      unfold a1
      with_reducible apply endRun_kept
      exact h
  clear_value a1
  exact kept_same h3 rfl rfl

theorem dropUncommitted_kept {pq : List Instr} (s : State) (h : Kept pq s) : Kept pq (dropUncommitted s) := by
  unfold dropUncommitted
  with_reducible apply kept_foldl
  · exact h
  · intro v1 v2 v3
    with_reducible apply abandonRun_kept
    exact v3

theorem execSblLinkUp_kept {pq : List Instr} (stn : Nat) (sysId : Nat) (crc : Nat) (rtt : Nat) (s : State) (h : Kept pq s) :
    ∃ s', execSblLinkUp stn sysId crc rtt s = .next s' ∧ Kept pq s' := by
  unfold execSblLinkUp
  refine ⟨_, rfl, ?_⟩
  extract_lets +lift a1 a2 a3 a4
  have h5 : Kept pq a2 := by
      unfold a2
      exact kept_same h rfl rfl
  clear_value a2
  have h6 : Kept pq a3 := by
      unfold a3
      with_reducible apply setFs_kept
      exact h5
  clear_value a3
  have h7 : Kept pq a4 := by
      unfold a4
      split
      · with_reducible apply setF_kept
        exact h6
      · exact h6
  clear_value a4
  split
  · exact h
  · with_reducible apply autoSync_kept
    with_reducible apply wakeSource_kept
    exact h7

theorem execXferCut_kept {pq : List Instr} (s : State) (h : Kept pq s) :
    ∃ s', execXferCut s = .next s' ∧ Kept pq s' := by
  unfold execXferCut
  refine ⟨_, rfl, ?_⟩
  extract_lets +lift a1 a2 a3 a4
  have h5 : Kept pq a2 := by
      unfold a2
      exact kept_same h rfl rfl
  clear_value a2
  have h6 : Kept pq a3 := by
      unfold a3
      with_reducible apply setF_kept
      with_reducible apply streamEv_kept
      exact h5
  clear_value a3
  split
  · exact kept_same h6 rfl rfl
  · exact h

theorem seqRx_kept {pq : List Instr} (s : State) (crcOk : Bool) (lseq : Nat) (h : Kept pq s) : Kept pq (seqRx s crcOk lseq).2 := by
  unfold seqRx
  extract_lets +lift a1 a2 a3 a4
  have h5 : Kept pq a3 := by
      unfold a3
      split
      · exact kept_same h rfl rfl
      · exact h
  clear_value a3
  split
  · dsimp only
    exact h
  · split
    · dsimp only
      with_reducible apply rxBad_kept
      exact h
    · split
      · dsimp only
        exact kept_same h5 rfl rfl
      · split
        · dsimp only
          with_reducible apply sendNak_kept
          exact h5
        · dsimp only
          exact kept_same h5 rfl rfl

theorem handAll_kept {pq : List Instr} (s : State) (h : Kept pq s) : Kept pq (handAll s) := by
  unfold handAll
  extract_lets +lift a1 a2 a3
  with_reducible apply kept_foldl
  · exact h
  · intro v4 v5 v6
    split
    · exact v6
    · with_reducible apply handOn_kept
      exact v6

theorem takeoverBoundary_kept {pq : List Instr} (s : State) (h : Kept pq s) : Kept pq (takeoverBoundary s) := by
  unfold takeoverBoundary
  extract_lets +lift a1 a2
  split
  · exact h
  · extract_lets +lift a3 a4 a5 a6 a7 a8 a9 a10 a11 a12
    have h13 : Kept pq a4 := by
        unfold a4
        with_reducible apply setFs_kept
        exact h
    clear_value a4
    have h14 : Kept pq a5 := by
        unfold a5
        with_reducible apply leaveStandby_kept
        exact h13
    clear_value a5
    have h15 : Kept pq a6 := by
        unfold a6
        with_reducible apply enterRun_kept
        exact h14
    clear_value a6
    have h16 : Kept pq a8 := by
        unfold a8
        exact kept_same h15 rfl rfl
    clear_value a8
    have h17 : Kept pq a9 := by
        unfold a9
        with_reducible apply kept_foldl
        · exact h16
        · intro v18 v19 v20
          with_reducible apply updHub_kept
          exact v20
    clear_value a9
    have h21 : Kept pq a10 := by
        unfold a10
        with_reducible apply pulse_kept
        with_reducible apply incWrap_kept
        exact h17
    clear_value a10
    have h22 : Kept pq a12 := by
        unfold a12
        split
        · with_reducible apply setF_kept
          with_reducible apply streamEv_kept
          exact kept_same h21 rfl rfl
        · exact h21
    clear_value a12
    with_reducible apply handAll_kept
    exact h22

theorem execSblHbSend_kept {pq : List Instr} (s : State) (h : Kept pq s) :
    ∃ s', execSblHbSend s = .next s' ∧ Kept pq s' := by
  unfold execSblHbSend
  refine ⟨_, rfl, ?_⟩
  extract_lets +lift a1
  split
  · exact kept_same h rfl rfl
  · exact h

theorem execXferFrameSend_kept {pq : List Instr} (s : State) (h : Kept pq s) :
    ∃ s', execXferFrameSend s = .next s' ∧ Kept pq s' := by
  unfold execXferFrameSend
  refine ⟨_, rfl, ?_⟩
  split
  · extract_lets +lift a1 a2 a3 a4 a5 a6 a7
    have h8 : Kept pq a2 := by
        unfold a2
        with_reducible apply pushSeq_kept
        exact h
    clear_value a2
    have h9 : Kept pq a5 := by
        unfold a5
        exact kept_same h8 rfl rfl
    clear_value a5
    have h10 : Kept pq a6 := by
        unfold a6
        with_reducible apply setF_kept
        exact h9
    clear_value a6
    split
    · with_reducible apply xferRestart_kept
      exact h
    · split
      · exact h
      · split
        · with_reducible apply setFs_kept
          exact kept_same h10 rfl rfl
        · exact h10
  · exact h

theorem beginTakeover_kept {pq : List Instr} (s : State) (h : Kept pq s) : Kept pq (beginTakeover s) := by
  unfold beginTakeover
  extract_lets +lift a1 a2
  have h3 : Kept pq a2 := by
      unfold a2
      with_reducible apply kept_foldl
      · exact h
      · intro v4 v5 v6
        with_reducible apply abandonRun_kept
        exact v6
  clear_value a2
  split
  extract_lets +lift a7 a8 a9 a10 a11
  have h12 : Kept pq a7 := by
      unfold a7
      with_reducible apply setF_kept
      exact h3
  clear_value a7
  have h13 : Kept pq a11 := by
      unfold a11
      exact kept_same h12 rfl rfl
  clear_value a11
  with_reducible apply transition_kept
  with_reducible apply setF_kept
  exact h13

theorem takeoverDue_kept {pq : List Instr} (s : State) (h : Kept pq s) : Kept pq (takeoverDue s) := by
  unfold takeoverDue
  split
  · with_reducible apply beginTakeover_kept
    exact h
  · exact h

theorem rxEvent_kept {pq : List Instr} (s : State) (e : Nat × StreamEv) (h : Kept pq s) : Kept pq (rxEvent s e) := by
  unfold rxEvent
  extract_lets +lift a1 a2 a3
  have h4 : Kept pq a2 := by
      unfold a2
      with_reducible apply setFs_kept
      split
      · with_reducible apply replayStop_kept
        exact h
      · exact h
  clear_value a2
  split
  extract_lets +lift a5 a6 a7
  have h8 : Kept pq a6 := by
      unfold a6
      exact kept_same h rfl rfl
  clear_value a6
  split
  · exact h
  · split
    · split
      · exact kept_same h rfl rfl
      · split
        · exact kept_same h4 rfl rfl
        · exact h
    · split
      · with_reducible apply diverge_kept
        exact h
      · exact kept_same h rfl rfl
    · split
      · exact h
      · split
        · with_reducible apply requestXfer_kept
          with_reducible apply incStop_kept
          exact kept_same h8 rfl rfl
        · exact h8

theorem replayDue_kept {pq : List Instr} (kind : StreamEv → Bool) (s : State) (h : Kept pq s) : Kept pq (replayDue kind s) := by
  unfold replayDue
  split
  · with_reducible apply kept_foldl
    · exact h
    · intro v1 v2 v3
      with_reducible apply replayFirst_kept
      exact v3
  · exact h

theorem partnerSeq_kept {pq : List Instr} (s : State) (crcOk : Bool) (lseq : Nat) (h : Kept pq s) : Kept pq (partnerSeq s crcOk lseq).2 := by
  unfold partnerSeq
  split
  · rename_i x1 x2 x3 x4
    have h5 : Kept pq x3 := by
        refine kept_pair x4 ?_
        with_reducible apply seqRx_kept
        exact h
    dsimp only
    exact h5

theorem xferPart_kept {pq : List Instr} (s : State) (p : XferPart) (h : Kept pq s) : Kept pq (xferPart s p) := by
  unfold xferPart
  extract_lets +lift a1 a2 a3 a4
  split
  · with_reducible apply kept_foldl
    · exact h
    · intro v5 v6 v7
      with_reducible apply bankPut_kept
      exact v7
  · with_reducible apply setPid_kept
    exact h
  · with_reducible apply kept_foldl
    · exact h
    · intro v8 v9 v10
      with_reducible apply setKey_kept
      exact v10
  · with_reducible apply kept_foldl
    · exact h
    · intro v11 v12 v13
      with_reducible apply setKey_kept
      exact v13
  · with_reducible apply kept_foldl
    · exact h
    · intro v14 v15 v16
      with_reducible apply loadWord_kept
      exact v16
  · with_reducible apply kept_foldl
    · exact h
    · intro v17 v18 v19
      with_reducible apply setBit_kept
      exact v19
  · exact kept_sp h rfl ⟨(kept_bits h :), (kept_words h :), swf_foldl_sset _ _ _ (kept_planeB h :), (kept_planeW h :)⟩
  · exact kept_sp h rfl ⟨(kept_bits h :), (kept_words h :), (kept_planeB h :), swf_foldl_sset _ _ _ (kept_planeW h :)⟩
  · exact kept_same h rfl rfl
  · exact kept_same h rfl rfl
  · exact kept_same h rfl rfl
  · exact kept_same h rfl rfl
  · exact kept_same h rfl rfl
  · exact kept_same h rfl rfl
  · exact kept_same h rfl rfl
  · with_reducible apply kept_foldl
    · exact h
    · intro v20 v21 v22
      with_reducible apply setBit_kept
      exact v22
  · exact kept_same h rfl rfl

theorem xferClear_kept {pq : List Instr} (s : State) (h : Kept pq s) : Kept pq (xferClear s) := by
  unfold xferClear
  extract_lets +lift a1 a2 a3 a4 a5 a6 a7
  exact kept_sp h rfl ⟨swf_filter _ (kept_bits h :), swf_filter _ (kept_words h :), rfl, rfl⟩

theorem xferDone_kept {pq : List Instr} (s : State) (h : Kept pq s) : Kept pq (xferDone s) := by
  unfold xferDone
  extract_lets +lift a1 a2
  have h3 : Kept pq a1 := by
      unfold a1
      with_reducible apply tableActive_kept
      with_reducible apply kept_foldl
      · with_reducible apply xferClear_kept
        exact h
      · intro v4 v5 v6
        with_reducible apply xferPart_kept
        exact v6
  clear_value a1
  with_reducible apply setFs_kept
  exact kept_same h3 rfl rfl

theorem execSblXferRx_kept {pq : List Instr} (crcOk : Bool) (lseq : Nat) (part : XferPart) (last : Bool) (s : State) (h : Kept pq s) :
    ∃ s', execSblXferRx crcOk lseq part last s = .next s' ∧ Kept pq s' := by
  unfold execSblXferRx
  refine ⟨_, rfl, ?_⟩
  split
  · rename_i x1 x2 x3
    have h4 : Kept pq x2 := by
        refine kept_pair x3 ?_
        with_reducible apply partnerSeq_kept
        exact h
    extract_lets +lift a5 a6
    have h7 : Kept pq a6 := by
        unfold a6
        exact kept_same h4 rfl rfl
    clear_value a6
    split
    · exact h4
    · split
      · with_reducible apply xferDone_kept
        exact h7
      · exact h7
  · rename_i x8 x9 x10
    have h11 : Kept pq x9 := by
        refine kept_pair x10 ?_
        with_reducible apply partnerSeq_kept
        exact h
    exact h11

theorem handoverReq_kept {pq : List Instr} (s : State) (op : Option Nat) (h : Kept pq s) : Kept pq (handoverReq s op).2 := by
  unfold handoverReq
  extract_lets +lift a1
  split
  · dsimp only
    exact kept_same h rfl rfl
  · dsimp only
    exact h

theorem execHandoverReq_kept {pq : List Instr} (dbg : Bool) (s : State) (h : Kept pq s) :
    ∃ s', execHandoverReq dbg s = .next s' ∧ Kept pq s' := by
  unfold execHandoverReq
  refine ⟨_, rfl, ?_⟩
  split
  · exact h
  · with_reducible apply hostAnswer_kept
    · exact h
    · with_reducible apply handoverReq_kept
      exact h

theorem execSblRstreqRx_kept {pq : List Instr} (crcOk : Bool) (lseq : Nat) (s : State) (h : Kept pq s) :
    ∃ s', execSblRstreqRx crcOk lseq s = .next s' ∧ Kept pq s' := by
  unfold execSblRstreqRx
  refine ⟨_, rfl, ?_⟩
  split
  · rename_i x1 x2 x3
    have h4 : Kept pq x2 := by
        refine kept_pair x3 ?_
        with_reducible apply partnerSeq_kept
        exact h
    split
    · with_reducible apply resetSource_kept
      exact h4
    · with_reducible apply setF_kept
      exact h4
  · rename_i x5 x6 x7
    have h8 : Kept pq x6 := by
        refine kept_pair x7 ?_
        with_reducible apply partnerSeq_kept
        exact h
    exact h8

theorem resend_kept {pq : List Instr} (s : State) (n : Nat) (h : Kept pq s) : Kept pq (resend s n) := by
  unfold resend
  with_reducible apply kept_foldl
  · exact h
  · intro v1 v2 v3
    with_reducible apply incStop_kept
    exact v3

theorem execSblNakRx_kept {pq : List Instr} (crcOk : Bool) (seq : Nat) (s : State) (h : Kept pq s) :
    ∃ s', execSblNakRx crcOk seq s = .next s' ∧ Kept pq s' := by
  unfold execSblNakRx
  refine ⟨_, rfl, ?_⟩
  extract_lets +lift a1
  have h2 : Kept pq a1 := by
      unfold a1
      with_reducible apply ackTo_kept
      exact h
  clear_value a1
  split
  · exact h
  · split
    · with_reducible apply rxBad_kept
      exact h
    · with_reducible apply resend_kept
      exact h2

theorem execSblNegRx_kept {pq : List Instr} (crcOk : Bool) (stn : Nat) (sysId : Nat) (crc : Nat) (s : State) (h : Kept pq s) :
    ∃ s', execSblNegRx crcOk stn sysId crc s = .next s' ∧ Kept pq s' := by
  unfold execSblNegRx
  refine ⟨_, rfl, ?_⟩
  extract_lets +lift a1
  split
  · exact h
  · split
    · with_reducible apply rxBad_kept
      exact h
    · with_reducible apply sblSource_kept
      with_reducible apply setF_kept
      exact kept_same h rfl rfl

theorem execTakeoverBoundary_kept {pq : List Instr} (s : State) (h : Kept pq s) :
    ∃ s', execTakeoverBoundary s = .next s' ∧ Kept pq s' := by
  unfold execTakeoverBoundary
  refine ⟨_, rfl, ?_⟩
  split
  · with_reducible apply takeoverBoundary_kept
    exact h
  · exact h

theorem execDemotion_kept {pq : List Instr} (s : State) (h : Kept pq s) :
    ∃ s', execDemotion s = .next s' ∧ Kept pq s' := by
  unfold execDemotion
  refine ⟨_, rfl, ?_⟩
  extract_lets +lift a1
  have h2 : Kept pq a1 := by
      unfold a1
      split
      · with_reducible apply txnDiscard_kept
        exact h
      · exact h
  clear_value a1
  split
  · exact h
  · with_reducible apply enterTrack_kept
    with_reducible apply leaveEdit_kept
    exact h2

theorem execSblHandoverRx_kept {pq : List Instr} (crcOk : Bool) (lseq : Nat) (s : State) (h : Kept pq s) :
    ∃ s', execSblHandoverRx crcOk lseq s = .next s' ∧ Kept pq s' := by
  unfold execSblHandoverRx
  refine ⟨_, rfl, ?_⟩
  split
  · rename_i x1 x2 x3
    have h4 : Kept pq x2 := by
        refine kept_pair x3 ?_
        with_reducible apply partnerSeq_kept
        exact h
    extract_lets +lift a5
    split
    · exact kept_same h4 rfl rfl
    · exact h4
  · rename_i x6 x7 x8
    have h9 : Kept pq x7 := by
        refine kept_pair x8 ?_
        with_reducible apply partnerSeq_kept
        exact h
    exact h9

theorem execSblRetxTimeout_kept {pq : List Instr} (s : State) (h : Kept pq s) :
    ∃ s', execSblRetxTimeout s = .next s' ∧ Kept pq s' := by
  unfold execSblRetxTimeout
  refine ⟨_, rfl, ?_⟩
  split
  · exact h
  · with_reducible apply resend_kept
    exact h

theorem execSblXctlRx_kept {pq : List Instr} (crcOk : Bool) (lseq : Nat) (s : State) (h : Kept pq s) :
    ∃ s', execSblXctlRx crcOk lseq s = .next s' ∧ Kept pq s' := by
  unfold execSblXctlRx
  refine ⟨_, rfl, ?_⟩
  split
  · rename_i x1 x2 x3
    have h4 : Kept pq x2 := by
        refine kept_pair x3 ?_
        with_reducible apply partnerSeq_kept
        exact h
    extract_lets +lift a5
    split
    · exact h4
    · split
      · with_reducible apply xferRestart_kept
        exact h4
      · with_reducible apply setFs_kept
        exact kept_same h4 rfl rfl
  · rename_i x6 x7 x8
    have h9 : Kept pq x7 := by
        refine kept_pair x8 ?_
        with_reducible apply partnerSeq_kept
        exact h
    exact h9

theorem execPartnerLoss_kept {pq : List Instr} (s : State) (h : Kept pq s) :
    ∃ s', execPartnerLoss s = .next s' ∧ Kept pq s' := by
  unfold execPartnerLoss
  refine ⟨_, rfl, ?_⟩
  extract_lets +lift a1 a2 a3
  have h4 : Kept pq a2 := by
      unfold a2
      with_reducible apply note_kept
      with_reducible apply setF_kept
      exact kept_same h rfl rfl
  clear_value a2
  have h5 : Kept pq a3 := by
      unfold a3
      split
      · with_reducible apply setValidSrc_kept
        exact h4
      · exact h4
  clear_value a3
  split
  · exact h
  · split
    · with_reducible apply setF_kept
      with_reducible apply stopStream_kept
      exact h5
    · with_reducible apply partnerGone_kept
      exact h5

theorem execSblAckRx_kept {pq : List Instr} (crcOk : Bool) (seq : Nat) (s : State) (h : Kept pq s) :
    ∃ s', execSblAckRx crcOk seq s = .next s' ∧ Kept pq s' := by
  unfold execSblAckRx
  refine ⟨_, rfl, ?_⟩
  split
  · exact h
  · split
    · with_reducible apply rxBad_kept
      exact h
    · with_reducible apply ackTo_kept
      exact h

theorem execSblEvtRx_kept {pq : List Instr} (crcOk : Bool) (lseq : Nat) (evs : List (Nat × StreamEv)) (s : State) (h : Kept pq s) :
    ∃ s', execSblEvtRx crcOk lseq evs s = .next s' ∧ Kept pq s' := by
  unfold execSblEvtRx
  refine ⟨_, rfl, ?_⟩
  split
  · rename_i x1 x2 x3
    have h4 : Kept pq x2 := by
        refine kept_pair x3 ?_
        with_reducible apply partnerSeq_kept
        exact h
    with_reducible apply kept_foldl
    · exact h4
    · intro v5 v6 v7
      with_reducible apply rxEvent_kept
      exact v7
  · rename_i x8 x9 x10
    have h11 : Kept pq x9 := by
        refine kept_pair x10 ?_
        with_reducible apply partnerSeq_kept
        exact h
    exact h11

theorem tspDemote_kept {pq : List Instr} (s : State) (n : Nat) (h : Kept pq s) : Kept pq (tspDemote s n) := by
  unfold tspDemote
  extract_lets +lift a1 a2 a3 a4
  have h5 : Kept pq a3 := by
      unfold a3
      with_reducible apply setF_kept
      exact h
  clear_value a3
  have h6 : Kept pq a4 := by
      unfold a4
      with_reducible apply setFs_kept
      exact h5
  clear_value a4
  with_reducible apply pulse_kept
  with_reducible apply journalF_kept
  with_reducible apply incWrap_kept
  exact h6

theorem tspSource_kept {pq : List Instr} (med2 : ℤ) (s : State) (n : Nat) (h : Kept pq s) : Kept pq (tspSource med2 s n) := by
  unfold tspSource
  extract_lets +lift a1 a2 a3 a4 a5 a6 a7
  have h8 : Kept pq a7 := by
      unfold a7
      exact kept_same h rfl rfl
  clear_value a7
  split
  · with_reducible apply tspDemote_kept
    exact h8
  · split
    · with_reducible apply setFs_kept
      exact h8
    · split
      · with_reducible apply setF_kept
        exact h8
      · exact h8

theorem execTspSecond_kept {pq : List Instr} (s : State) (h : Kept pq s) :
    ∃ s', execTspSecond s = .next s' ∧ Kept pq s' := by
  unfold execTspSecond
  refine ⟨_, rfl, ?_⟩
  extract_lets +lift a1
  have h2 : Kept pq a1 := by
      unfold a1
      with_reducible apply kept_foldl
      · exact h
      · intro v3 v4 v5
        with_reducible apply tspSource_kept
        exact v5
  clear_value a1
  split
  · exact h
  · with_reducible apply reselect_kept
    with_reducible apply setF_kept
    exact h2

theorem atrSwitch_kept {pq : List Instr} (s : State) (i : Nat) (h : Kept pq s) : Kept pq (atrSwitch s i) := by
  unfold atrSwitch
  extract_lets +lift a1 a2 a3 a4 a5 a6
  have h7 : Kept pq a2 := by
      unfold a2
      with_reducible apply txnOpen_kept
      exact kept_same h rfl rfl
  clear_value a2
  have h8 : Kept pq a4 := by
      unfold a4
      exact kept_same h7 rfl rfl
  clear_value a4
  split
  · split
    · exact h
    · with_reducible apply incSat_kept
      exact kept_same h rfl rfl
  · split
    · with_reducible apply prepStart_kept
      exact kept_same h8 rfl rfl
    · with_reducible apply incSat_kept
      with_reducible apply txnEnd_kept
      exact h8

theorem candReads_kept {pq : List Instr} (s : State) (h : Kept pq s) : Kept pq (candReads s) := by
  unfold candReads
  with_reducible apply readAll_kept
  exact h

theorem execAtrPoll_kept {pq : List Instr} (s : State) (h : Kept pq s) :
    ∃ s', execAtrPoll s = .next s' ∧ Kept pq s' := by
  unfold execAtrPoll
  refine ⟨_, rfl, ?_⟩
  extract_lets +lift a1 a2 a3 a4 a5 a6
  have h7 : Kept pq a5 := by
      unfold a5
      with_reducible apply candReads_kept
      exact kept_same h rfl rfl
  clear_value a5
  split
  · exact h
  · split
    · with_reducible apply atrSwitch_kept
      exact h7
    · split
      · clear_value a6
        split
        · with_reducible apply atrSwitch_kept
          exact h7
        · exact h7
      · exact h7

end Sys2Proof.Machine
end

