-- ==== Sys2Proof/Laws/KeptRegisters.lean ====
section
/-! SUPPORT. What keeps the memories canonical and the queue: the registers, the results, the classifier, the core cycle and scrub. -/

set_option linter.unusedVariables false

namespace Sys2Proof.Machine

open Reg

theorem spiRoom_kept {pq : List Instr} (s : State) (h : Kept pq s) : Kept pq (spiRoom s) := by
  unfold spiRoom
  with_reducible apply kept_foldl
  · exact h
  · intro v1 v2 v3
    split
    · with_reducible apply sendNotice_kept
      exact v3
    · exact v3

theorem bankTouched_kept {pq : List Instr} (s : State) (b : Nat) (h : Kept pq s) : Kept pq (bankTouched s b) := by
  unfold bankTouched
  extract_lets +lift a1
  have h2 : Kept pq a1 := by
      unfold a1
      with_reducible apply setF_kept
      exact h
  clear_value a1
  split
  · exact h2
  · with_reducible apply setF_kept
    exact h2

theorem hostWord_kept {pq : List Instr} (s : State) (a : Nat) (v : TWord) (h : Kept pq s) : Kept pq (hostWord s a v) := by
  unfold hostWord
  extract_lets +lift a1
  have h2 : Kept pq a1 := by
      unfold a1
      with_reducible apply writeWord_kept
      exact h
  clear_value a1
  split
  · exact h2
  · with_reducible apply streamEv_kept
    exact h2

theorem hostBit_kept {pq : List Instr} (s : State) (a : Nat) (v : Bool) (h : Kept pq s) : Kept pq (hostBit s a v) := by
  unfold hostBit
  extract_lets +lift a1
  have h2 : Kept pq a1 := by
      unfold a1
      with_reducible apply userWriteBit_kept
      exact h
  clear_value a1
  split
  · exact h2
  · with_reducible apply streamEv_kept
    exact h2

theorem writePlain_kept {pq : List Instr} (s : State) (a : Nat) (v : Nat) (h : Kept pq s) : Kept pq (writePlain s a v) := by
  unfold writePlain
  with_reducible apply kept_foldl
  · exact h
  · intro v1 v2 v3
    split
    · exact v3
    · split
      · with_reducible apply setF_kept
        exact v3
      · with_reducible apply setF_kept
        exact v3
      · exact v3

theorem modeCtl_kept {pq : List Instr} (s : State) (v : Nat) (h : Kept pq s) : Kept pq (modeCtl s v).2 := by
  unfold modeCtl
  extract_lets +lift a1
  split
  · dsimp only
    exact h
  · split
    · with_reducible apply modeReq_kept
      exact h
    · dsimp only
      exact h

theorem sbyCtrl_kept {pq : List Instr} (s : State) (v : Nat) (h : Kept pq s) : Kept pq (sbyCtrl s v).2 := by
  unfold sbyCtrl
  split
  · rename_i x1 x2 x3 x4
    have h5 : Kept pq x3 := by
        refine kept_pair x4 ?_
        split
        · dsimp only
          exact h
        · split
          · dsimp only
            with_reducible apply requestXfer_kept
            exact h
          · dsimp only
            exact h
    split
    · rename_i x6 x7 x8 x9
      have h10 : Kept pq x8 := by
          refine kept_pair x9 ?_
          split
          · with_reducible apply handoverReq_kept
            exact h5
          · dsimp only
            exact h5
      extract_lets +lift a11
      have h12 : Kept pq a11 := by
          unfold a11
          split
          · with_reducible apply pushSeq_kept
            exact h10
          · exact h10
      clear_value a11
      split
      · dsimp only
        exact h12
      · dsimp only
        exact h12

theorem fldForward_kept {pq : List Instr} (s : State) (a : Nat) (v : Nat) (h : Kept pq s) : Kept pq (fldForward s a v) := by
  unfold fldForward
  extract_lets +lift a1 a2
  split
  · with_reducible apply hubOp_kept
    exact h
  · exact h

theorem writeHook_kept {pq : List Instr} (s : State) (who : Nat) (a : Nat) (v : Nat) (h : Kept pq s) : Kept pq (writeHook s who a v).2 := by
  unfold writeHook
  extract_lets +lift a1 a2 a3 a4
  split
  · split
    · with_reducible apply modeCtl_kept
      exact h
    · split
      · dsimp only
        with_reducible apply setFs_kept
        exact h
      · exact h
  · split
    · dsimp only
      with_reducible apply reselect_kept
      exact h
    · split
      · dsimp only
        with_reducible apply leapPending_kept
        exact h
      · split
        · dsimp only
          with_reducible apply checkDisagree_kept
          exact h
        · split
          · dsimp only
            with_reducible apply reselect_kept
            split
            · exact h
            · with_reducible apply setValidSrc_kept
              exact h
          · exact h
  · split
    · dsimp only
      with_reducible apply setF_kept
      exact h
    · split
      · dsimp only
        with_reducible apply setFs_kept
        exact h
      · exact h
  · dsimp only
    split
    · exact kept_same h rfl rfl
    · exact h
  · split
    · with_reducible apply sbyCtrl_kept
      exact h
    · exact h
  · dsimp only
    split
    · with_reducible apply canCancel_kept
      exact h
    · split
      · with_reducible apply canPop_kept
        exact h
      · split
        · with_reducible apply canPop_kept
          exact h
        · exact h
  · dsimp only
    split
    · with_reducible apply fldForward_kept
      exact h
    · exact h
  · split
    · dsimp only
      with_reducible apply calSnapWrite_kept
      exact h
    · split
      · split
        · rename_i x5 x6 x7
          have h8 : Kept pq x6 := by
              refine kept_pair x7 ?_
              with_reducible apply calSet_kept
              exact h
          exact h8
        · rename_i x9 x10 x11
          have h12 : Kept pq x10 := by
              refine kept_pair x11 ?_
              with_reducible apply calSet_kept
              exact h
          exact h12
      · split
        · dsimp only
          with_reducible apply lbfClear_kept
          exact h
        · exact h
  · split
    · with_reducible apply d11Write_kept
      exact h
    · split
      · dsimp only
        with_reducible apply setF_kept
        exact h
      · exact h
  · dsimp only
    split
    · with_reducible apply setF_kept
      exact h
    · exact h
  · exact h

theorem writeNow_kept {pq : List Instr} (s : State) (who : Nat) (a : Nat) (v : Nat) (h : Kept pq s) : Kept pq (writeNow s who a v).2 := by
  unfold writeNow
  extract_lets +lift a1 a2 a3
  have h4 : Kept pq a1 := by
      unfold a1
      with_reducible apply writePlain_kept
      exact h
  clear_value a1
  have h5 : Kept pq a3 := by
      unfold a3
      split
      · exact kept_same h4 rfl rfl
      · exact h4
  clear_value a3
  split
  · dsimp only
    exact h
  · split
    · rename_i x6 x7 x8
      have h9 : Kept pq x7 := by
          refine kept_pair x8 ?_
          with_reducible apply writeHook_kept
          exact h5
      dsimp only
      exact h9
    · rename_i x10 x11 x12
      have h13 : Kept pq x11 := by
          refine kept_pair x12 ?_
          with_reducible apply writeHook_kept
          exact h5
      dsimp only
      exact h13
    · rename_i x14 x15 x16 x17 x18 x19
      have h20 : Kept pq x16 := by
          refine kept_pair x19 ?_
          with_reducible apply writeHook_kept
          exact h5
      split
      · dsimp only
        exact h20
      · dsimp only
        exact h

theorem writeHost_kept {pq : List Instr} (s : State) (a : Nat) (v : Nat) (h : Kept pq s) : Kept pq (writeHost s a v).2 := by
  unfold writeHost
  split
  · rename_i x1 x2 x3 x4
    have h5 : Kept pq x3 := by
        refine kept_pair x4 ?_
        with_reducible apply writeNow_kept
        exact h
    split
    · dsimp only
      exact h5
    · split
      · dsimp only
        exact h5
      · split
        · dsimp only
          with_reducible apply stageWord_kept
          exact h5
        · dsimp only
          exact h5

theorem hostWrite_kept {pq : List Instr} (s : State) (a : Nat) (v : Nat) (h : Kept pq s) : Kept pq (hostWrite s a v).2 := by
  unfold hostWrite
  extract_lets +lift a1
  split
  · exact h
  · split
    · split
      · dsimp only
        with_reducible apply bankTouched_kept
        with_reducible apply bankPut_kept
        exact h
      · exact h
    · split
      · exact h
      · dsimp only
        exact kept_sp h rfl ⟨(kept_bits h :), (kept_words h :), (kept_planeB h :), (kept_planeW h :)⟩
    · extract_lets +lift a2
      have h3 : Kept pq a2.2 := by
          unfold a2
          split
          rename_i x4 x5 x6 x7
          have h8 : Kept pq x6 := by
              refine kept_pair x7 ?_
              with_reducible apply readWord_kept
              exact h
          dsimp only
          with_reducible apply hostWord_kept
          exact h8
      clear_value a2
      split
      · exact h
      · split
        · split
          · dsimp only
            with_reducible apply hostWord_kept
            exact kept_sp h rfl ⟨(kept_bits h :), (kept_words h :), (kept_planeB h :), (kept_planeW h :)⟩
          · exact h3
        · exact h3
    · split
      · exact h
      · dsimp only
        with_reducible apply kept_foldl
        · exact h
        · intro v9 v10 v11
          with_reducible apply hostBit_kept
          exact v11
    · with_reducible apply writeHost_kept
      exact h
    · exact h

theorem flagged_kept {pq : List Instr} (s : State) (c : Nat) (a : Nat) (dbg : Bool) (h : Kept pq s) : Kept pq (flagged s c a dbg) := by
  unfold flagged
  split
  · exact h
  · with_reducible apply accErr_kept
    exact h

theorem spiPut_kept {pq : List Instr} (s : State) (a : Nat) (v : Nat) (dbg : Bool) (h : Kept pq s) : Kept pq (spiPut s a v dbg) := by
  unfold spiPut
  split
  · rename_i x1 x2 x3 x4
    have h5 : Kept pq x3 := by
        refine kept_pair x4 ?_
        with_reducible apply hostWrite_kept
        exact h
    with_reducible apply flagged_kept
    exact h5

theorem spiPuts_kept {pq : List Instr} (l : List Word) (a : Nat) (s : State) (h : Kept pq s) : Kept pq (spiPuts l a s) := by
  induction l generalizing s a with
  | nil => exact h
  | cons w ws ih => exact ih _ _ (spiPut_kept _ _ _ _ h)

theorem clearRc_kept {pq : List Instr} (s : State) (a : Nat) (h : Kept pq s) : Kept pq (clearRc s a) := by
  unfold clearRc
  with_reducible apply kept_foldl
  · exact h
  · intro v1 v2 v3
    split
    · with_reducible apply setF_kept
      exact v3
    · exact v3

theorem execBankHostWrite_kept {pq : List Instr} (addr : Nat) (v : Word) (dbg : Bool) (s : State) (h : Kept pq s) :
    ∃ s', execBankHostWrite addr v dbg s = .next s' ∧ Kept pq s' := by
  unfold execBankHostWrite
  refine ⟨_, rfl, ?_⟩
  split
  · exact h
  · with_reducible apply spiPut_kept
    exact h

theorem setMiso_kept {pq : List Instr} (s : State) (bs : List Byte) (h : Kept pq s) : Kept pq (setMiso s bs) := by
  unfold setMiso
  exact kept_same h rfl rfl

theorem misoAbsent_kept {pq : List Instr} (s : State) (n : Nat) (h : Kept pq s) : Kept pq (misoAbsent s n) := by
  unfold misoAbsent
  with_reducible apply setMiso_kept
  exact h

theorem execSpiStatus_kept {pq : List Instr} (s : State) (h : Kept pq s) :
    ∃ s', execSpiStatus s = .next s' ∧ Kept pq s' := by
  unfold execSpiStatus
  refine ⟨_, rfl, ?_⟩
  split
  · exact h
  · with_reducible apply setMiso_kept
    exact h

theorem trigRead_kept {pq : List Instr} (s : State) (who : Nat) (a : Nat) (h : Kept pq s) : Kept pq (trigRead s who a) := by
  unfold trigRead
  split
  · with_reducible apply setLatch_kept
    exact h
  · split
    · with_reducible apply setLatch_kept
      exact h
    · split
      · with_reducible apply setLatch_kept
        exact h
      · split
        · with_reducible apply setLatch_kept
          exact h
        · split
          · with_reducible apply calTimeRead_kept
            exact h
          · split
            · with_reducible apply setLatch_kept
              exact h
            · exact h

theorem readReg_kept {pq : List Instr} (s : State) (who : Nat) (a : Nat) (h : Kept pq s) : Kept pq (readReg s who a).2 := by
  unfold readReg
  extract_lets +lift a1
  have h2 : Kept pq a1 := by
      unfold a1
      with_reducible apply trigRead_kept
      exact h
  clear_value a1
  split
  · with_reducible apply readTrcRdata_kept
    exact h
  · split
    · dsimp only
      exact h2
    · split
      · split
        · rename_i x3 x4 x5 x6
          have h7 : Kept pq x5 := by
              refine kept_pair x6 ?_
              with_reducible apply drawFree_kept
              exact h2
          dsimp only
          exact h7
      · dsimp only
        with_reducible apply clearRc_kept
        exact h2

theorem hostRead_kept {pq : List Instr} (s : State) (a : Nat) (h : Kept pq s) : Kept pq (hostRead s a).2.2 := by
  unfold hostRead
  split
  · exact h
  · split
    · exact h
    · split
      rename_i x1 x2 x3 x4
      have h5 : Kept pq x3 := by
          refine kept_pair x4 ?_
          with_reducible apply readWord_kept
          exact h
      extract_lets +lift a6
      dsimp only
      exact kept_sp h5 rfl ⟨(kept_bits h5 :), (kept_words h5 :), (kept_planeB h5 :), (kept_planeW h5 :)⟩
    · split
      · split
        · exact h
        · split
          rename_i x7 x8 x9 x10
          have h11 : Kept pq x9 := by
              refine kept_pair x10 ?_
              with_reducible apply readWord_kept
              exact h
          exact h11
      · split
        rename_i x12 x13 x14 x15
        have h16 : Kept pq x14 := by
            refine kept_pair x15 ?_
            with_reducible apply readWord_kept
            exact h
        exact h16
    · split
      rename_i x17 x18 x19 x20
      have h21 : Kept pq x19 := by
          refine kept_pair x20 ?_
          with_reducible apply readBits_kept
          exact h
      exact h21
    · split
      rename_i x22 x23 x24 x25
      have h26 : Kept pq x24 := by
          refine kept_pair x25 ?_
          with_reducible apply readReg_kept
          exact h
      exact h26
    · exact h

theorem spiWord_kept {pq : List Instr} (s : State) (a : Nat) (dbg : Bool) (h : Kept pq s) : Kept pq (spiWord s a dbg).2 := by
  unfold spiWord
  split
  · rename_i x1 x2 x3 x4 x5
    have h6 : Kept pq x4 := by
        refine kept_trip x5 ?_
        with_reducible apply hostRead_kept
        exact h
    dsimp only
    with_reducible apply flagged_kept
    exact h6

theorem spiBurst_kept {pq : List Instr} (n a : Nat) (s : State) (h : Kept pq s) : Kept pq (spiBurst n a s).2 := by
  induction n generalizing s a with
  | zero => exact h
  | succ n ih => exact ih _ _ (spiWord_kept _ _ _ h)

theorem trigAccess_kept {pq : List Instr} (s : State) (who : Nat) (a : Nat) (h : Kept pq s) : Kept pq (trigAccess s who a) := by
  unfold trigAccess
  split
  · exact h
  · with_reducible apply readReg_kept
    exact h

theorem execCoreCycHiRead_kept {pq : List Instr} (who : Nat) (s : State) (h : Kept pq s) :
    ∃ s', execCoreCycHiRead who s = .next s' ∧ Kept pq s' := by
  unfold execCoreCycHiRead
  refine ⟨_, rfl, ?_⟩
  with_reducible apply trigAccess_kept
  exact h

theorem execScanhiRead_kept {pq : List Instr} (task : Nat) (who : Nat) (s : State) (h : Kept pq s) :
    ∃ s', execScanhiRead task who s = .next s' ∧ Kept pq s' := by
  unfold execScanhiRead
  refine ⟨_, rfl, ?_⟩
  with_reducible apply trigAccess_kept
  exact h

theorem execSpiUnknownCode_kept {pq : List Instr} (code : Nat) (s : State) (h : Kept pq s) :
    ∃ s', execSpiUnknownCode code s = .next s' ∧ Kept pq s' := by
  unfold execSpiUnknownCode
  refine ⟨_, rfl, ?_⟩
  split
  · exact h
  · split
    · with_reducible apply misoAbsent_kept
      exact h
    · split
      rename_i x1 x2 x3 x4
      have h5 : Kept pq x3 := by
          refine kept_pair x4 ?_
          with_reducible apply drawFree_kept
          exact h
      with_reducible apply accErr_kept
      with_reducible apply setMiso_kept
      exact h5

theorem execSysAccerrClear_kept {pq : List Instr} (v : Word) (s : State) (h : Kept pq s) :
    ∃ s', execSysAccerrClear v s = .next s' ∧ Kept pq s' := by
  unfold execSysAccerrClear
  refine ⟨_, rfl, ?_⟩
  split
  · exact h
  · with_reducible apply spiPut_kept
    exact h

theorem quRegWr_kept {pq : List Instr} (s : State) (t : Nat) (a : Nat) (v : Nat) (h : Kept pq s) : Kept pq (quRegWr s t a v).2 := by
  unfold quRegWr
  extract_lets +lift a1 a2
  split
  · exact h
  · split
    · exact h
    · split
      · rename_i x3 x4 x5
        have h6 : Kept pq x4 := by
            refine kept_pair x5 ?_
            with_reducible apply writeNow_kept
            exact h
        exact h6
      · rename_i x7 x8 x9
        have h10 : Kept pq x8 := by
            refine kept_pair x9 ?_
            with_reducible apply writeNow_kept
            exact h
        exact h10
      · rename_i x11 x12 x13 x14 x15 x16
        have h17 : Kept pq x13 := by
            refine kept_pair x16 ?_
            with_reducible apply writeNow_kept
            exact h
        exact h17

theorem execWordPayloadStage_kept {pq : List Instr} (a : Nat) (v : Word) (s : State) (h : Kept pq s) :
    ∃ s', execWordPayloadStage a v s = .next s' ∧ Kept pq s' := by
  unfold execWordPayloadStage
  refine ⟨_, rfl, ?_⟩
  split
  · exact h
  · with_reducible apply spiPut_kept
    exact h

theorem quRegRd_kept {pq : List Instr} (s : State) (t : Nat) (a : Nat) (h : Kept pq s) : Kept pq (quRegRd s t a).2.2 := by
  unfold quRegRd
  split
  · split
    · rename_i x1 x2 x3 x4
      have h5 : Kept pq x3 := by
          refine kept_pair x4 ?_
          with_reducible apply readReg_kept
          exact h
      dsimp only
      exact h5
  · dsimp only
    exact h

theorem execWordPayloadRead_kept {pq : List Instr} (a : Nat) (s : State) (h : Kept pq s) :
    ∃ s', execWordPayloadRead a s = .next s' ∧ Kept pq s' := by
  unfold execWordPayloadRead
  refine ⟨_, rfl, ?_⟩
  split
  · exact h
  · with_reducible apply spiWord_kept
    exact h

theorem execRegisterWrite_kept {pq : List Instr} (addr : Nat) (v : Word) (who : Writer) (s : State) (h : Kept pq s) :
    ∃ s', execRegisterWrite addr v who s = .next s' ∧ Kept pq s' := by
  unfold execRegisterWrite
  refine ⟨_, rfl, ?_⟩
  split
  · exact h
  · split
    · with_reducible apply spiPut_kept
      exact h
    · with_reducible apply spiPut_kept
      exact h
    · with_reducible apply quRegWr_kept
      exact h

theorem execReadClearField_kept {pq : List Instr} (addr : Nat) (s : State) (h : Kept pq s) :
    ∃ s', execReadClearField addr s = .next s' ∧ Kept pq s' := by
  unfold execReadClearField
  refine ⟨_, rfl, ?_⟩
  split
  · exact h
  · with_reducible apply spiWord_kept
    exact h

theorem execSpiWrite_kept {pq : List Instr} (addr : Nat) (ws : List Word) (s : State) (h : Kept pq s) :
    ∃ s', execSpiWrite addr ws s = .next s' ∧ Kept pq s' := by
  unfold execSpiWrite
  refine ⟨_, rfl, ?_⟩
  split
  · exact h
  · with_reducible apply spiPuts_kept
    exact h

theorem writeZcp_kept {pq : List Instr} (s : State) (owns : Bool) (a : Nat) (v : Nat) (h : Kept pq s) : Kept pq (writeZcp s owns a v).2 := by
  unfold writeZcp
  extract_lets +lift a1
  split
  · dsimp only
    exact h
  · split
    · rename_i x2 x3 x4 x5
      have h6 : Kept pq x4 := by
          refine kept_pair x5 ?_
          with_reducible apply writeNow_kept
          exact h
      split
      · dsimp only
        exact h6
      · dsimp only
        with_reducible apply stageWord_kept
        exact h6

theorem execWordTagWrite_kept {pq : List Instr} (a : Nat) (v : Word) (s : State) (h : Kept pq s) :
    ∃ s', execWordTagWrite a v s = .next s' ∧ Kept pq s' := by
  unfold execWordTagWrite
  refine ⟨_, rfl, ?_⟩
  split
  · exact h
  · with_reducible apply spiPut_kept
    exact h

theorem execSpiZcpPut_kept {pq : List Instr} (bytes : List Byte) (s : State) (h : Kept pq s) :
    ∃ s', execSpiZcpPut bytes s = .next s' ∧ Kept pq s' := by
  unfold execSpiZcpPut
  refine ⟨_, rfl, ?_⟩
  split
  · exact h
  · with_reducible apply zcpArrive_kept
    exact h

theorem execDbgreg_kept {pq : List Instr} (go : Bool) (write : Bool) (addr : Nat) (v : Word) (s : State) (h : Kept pq s) :
    ∃ s', execDbgreg go write addr v s = .next s' ∧ Kept pq s' := by
  unfold execDbgreg
  refine ⟨_, rfl, ?_⟩
  extract_lets +lift a1
  have h2 : Kept pq a1 := by
      unfold a1
      with_reducible apply tapSelect_kept
      exact h
  clear_value a1
  split
  · exact h2
  · split
    · split
      rename_i x3 x4 x5 x6
      have h7 : Kept pq x5 := by
          refine kept_pair x6 ?_
          with_reducible apply hostWrite_kept
          exact h2
      extract_lets +lift a8 a9
      have h10 : Kept pq a8 := by
          unfold a8
          with_reducible apply flagged_kept
          exact h7
      clear_value a8
      exact kept_same h10 rfl rfl
    · split
      rename_i x11 x12 x13 x14 x15
      have h16 : Kept pq x14 := by
          refine kept_trip x15 ?_
          with_reducible apply hostRead_kept
          exact h2
      extract_lets +lift a17 a18
      have h19 : Kept pq a17 := by
          unfold a17
          with_reducible apply flagged_kept
          exact h16
      clear_value a17
      exact kept_same h19 rfl rfl

theorem execCoreGtimstRead_kept {pq : List Instr} (who : Nat) (s : State) (h : Kept pq s) :
    ∃ s', execCoreGtimstRead who s = .next s' ∧ Kept pq s' := by
  unfold execCoreGtimstRead
  refine ⟨_, rfl, ?_⟩
  with_reducible apply trigAccess_kept
  exact h

theorem execSpiZcpGet_kept {pq : List Instr} (s : State) (h : Kept pq s) :
    ∃ s', execSpiZcpGet s = .next s' ∧ Kept pq s' := by
  unfold execSpiZcpGet
  refine ⟨_, rfl, ?_⟩
  extract_lets +lift a1
  split
  · exact h
  · split
    · with_reducible apply setMiso_kept
      exact h
    · with_reducible apply spiRoom_kept
      with_reducible apply setMiso_kept
      exact kept_same h rfl rfl

theorem execSpiRead_kept {pq : List Instr} (addr : Nat) (n : Nat) (s : State) (h : Kept pq s) :
    ∃ s', execSpiRead addr n s = .next s' ∧ Kept pq s' := by
  unfold execSpiRead
  refine ⟨_, rfl, ?_⟩
  split
  · with_reducible apply misoAbsent_kept
    exact h
  · split
    rename_i x1 x2 x3 x4
    have h5 : Kept pq x3 := by
        refine kept_pair x4 ?_
        with_reducible apply spiBurst_kept
        exact h
    with_reducible apply setMiso_kept
    exact h5

theorem quEnd_kept {pq : List Instr} (s : State) (p : PendOp) (rs : List (Nat × TWord)) (h : Kept pq s) : Kept pq (quEnd s p rs) := by
  unfold quEnd
  split
  · rename_i x1 x2 x3 x4
    have h5 : Kept pq x3 := by
        refine kept_pair x4 ?_
        with_reducible apply obtainAll_kept
        exact h
    with_reducible apply landOp_kept
    exact h5

theorem canEnd_kept {pq : List Instr} (s : State) (p : PendOp) (n : Nat) (len : Nat) (fd : Bool) (brs : Bool) (ide : Bool) (h : Kept pq s) : Kept pq (canEnd s p n len fd brs ide) := by
  unfold canEnd
  extract_lets +lift a1 a2 a3 a4 a5
  have h6 : Kept pq a3 := by
      unfold a3
      split
      · exact h
      · with_reducible apply canLoad_kept
        with_reducible apply updTb_kept
        exact h
  clear_value a3
  split
  · with_reducible apply quEnd_kept
    exact h6
  · split
    · with_reducible apply quEnd_kept
      exact h
    · with_reducible apply quEnd_kept
      with_reducible apply canEnter_kept
      exact h

theorem quYielded_kept {pq : List Instr} (s : State) (p : PendOp) (h : Kept pq s) : Kept pq (quYielded s p) := by
  unfold quYielded
  split
  · with_reducible apply setF_kept
    exact h
  · exact h

theorem dftCheck_kept {pq : List Instr} (s : State) (p : PendOp) (n : Nat) (xs : List TWord) (h : Kept pq s) : Kept pq (dftCheck s p n xs).2 := by
  unfold dftCheck
  extract_lets +lift a1
  with_reducible apply checkTags_kept
  exact h

theorem storeWords_kept {pq : List Instr} (rank : Nat) (s : State) (t a : Nat) (l : List TWord) (h : Kept pq s) :
    Kept pq (storeWords rank s t a l) := by
  induction l generalizing s a with
  | nil => simpa only [storeWords] using h
  | cons w ws ih =>
    rw [storeWords]
    exact ih _ _ (moveWriteWord_kept _ _ _ _ _ h)

theorem dftEnd_kept {pq : List Instr} (s : State) (p : PendOp) (n : Nat) (h : Nat) (win : Nat) (rho : Word) (wts : List Nat) (hk : Kept pq s) : Kept pq (dftEnd s p n h win rho wts) := by
  unfold dftEnd
  split
  · rename_i x1 x2 x3 x4
    have h5 : Kept pq x3 := by
        refine kept_pair x4 ?_
        with_reducible apply dftCheck_kept
        exact hk
    split
    rename_i x6 x7 x8 x9
    have h10 : Kept pq x8 := by
        refine kept_pair x9 ?_
        with_reducible apply drawFree_kept
        exact h5
    split
    rename_i x11 x12 x13 x14
    have h15 : Kept pq x13 := by
        refine kept_pair x14 ?_
        with_reducible apply drawFree_kept
        exact h10
    with_reducible apply landOp_kept
    exact h15
  · rename_i x16 x17 x18 x19
    have h20 : Kept pq x18 := by
        refine kept_pair x19 ?_
        with_reducible apply dftCheck_kept
        exact hk
    with_reducible apply landOp_kept
    exact h20
  · rename_i x21 x22 x23
    have h24 : Kept pq x22 := by
        refine kept_pair x23 ?_
        with_reducible apply dftCheck_kept
        exact hk
    with_reducible apply landOp_kept
    exact h24

theorem macroEnd_kept {pq : List Instr} (s : State) (p : PendOp) (e : Nat) (h : Kept pq s) : Kept pq (macroEnd s p e) := by
  unfold macroEnd
  extract_lets +lift a1 a2
  have h3 : Kept pq a1 := by
      unfold a1
      with_reducible apply macStep_kept
      exact h
  clear_value a1
  split
  · exact h3
  · extract_lets +lift a4
    with_reducible apply landOp_kept
    exact kept_same h3 rfl rfl

theorem egrRefuse_kept {pq : List Instr} (s : State) (mask : Nat) (q : Nat) (f : EgrFrame) (h : Kept pq s) : Kept pq (egrRefuse s mask q f) := by
  unfold egrRefuse
  with_reducible apply kept_foldl
  · exact h
  · intro v1 v2 v3
    split
    · exact v3
    · split
      · with_reducible apply incSat_kept
        exact v3
      · split
        · with_reducible apply incSat_kept
          exact v3
        · exact v3

theorem ethEnd_kept {pq : List Instr} (s : State) (p : PendOp) (ports : Nat) (queue : Nat) (len : Nat) (h : Kept pq s) : Kept pq (ethEnd s p ports queue len) := by
  unfold ethEnd
  extract_lets +lift a1 a2
  split
  · with_reducible apply quEnd_kept
    exact h
  · split
    · with_reducible apply quEnd_kept
      exact h
    · split
      · with_reducible apply quEnd_kept
        with_reducible apply egrSend_kept
        exact h
      · with_reducible apply quEnd_kept
        with_reducible apply egrRefuse_kept
        exact h

theorem fldEnd_kept {pq : List Instr} (s : State) (p : PendOp) (k : Nat) (n : Nat) (h : Kept pq s) : Kept pq (fldEnd s p k n) := by
  unfold fldEnd
  extract_lets +lift a1
  split
  · with_reducible apply quEnd_kept
    exact h
  · split
    · with_reducible apply quEnd_kept
      exact h
    · split
      rename_i x2 x3 x4 x5
      have h6 : Kept pq x4 := by
          refine kept_pair x5 ?_
          with_reducible apply fldCmd_kept
          exact h
      with_reducible apply quEnd_kept
      exact h6

theorem opComplete_kept {pq : List Instr} (s : State) (p : PendOp) (h : Kept pq s) : Kept pq (opComplete s p) := by
  unfold opComplete
  extract_lets +lift a1 a2
  have h3 : Kept pq a1 := by
      unfold a1
      with_reducible apply quYielded_kept
      exact h
  clear_value a1
  split
  · with_reducible apply landOp_kept
    exact h3
  · with_reducible apply landOp_kept
    exact h3
  · with_reducible apply landOp_kept
    exact h3
  · split
    · with_reducible apply landOp_kept
      exact h3
    · with_reducible apply landOp_kept
      with_reducible apply storeWords_kept
      exact h3
  · with_reducible apply dftEnd_kept
    exact h3
  · with_reducible apply macroEnd_kept
    exact h3
  · with_reducible apply ethEnd_kept
    exact h3
  · with_reducible apply canEnd_kept
    exact h3
  · with_reducible apply fldEnd_kept
    exact h3
  · with_reducible apply quEnd_kept
    exact h3
  · split
    rename_i x4 x5 x6 x7
    have h8 : Kept pq x6 := by
        refine kept_pair x7 ?_
        with_reducible apply quRegWr_kept
        exact h3
    with_reducible apply quEnd_kept
    exact h8

theorem capture1_kept {pq : List Instr} (s : State) (p : PendOp) (h : Kept pq s) : Kept pq (capture1 s p).2 := by
  unfold capture1
  extract_lets +lift a1 a2
  split
  · split
    · split
      rename_i x3 x4 x5 x6
      have h7 : Kept pq x5 := by
          refine kept_pair x6 ?_
          with_reducible apply readTaskWord_kept
          exact h
      exact h7
    · exact h
  · split
    · split
      rename_i x8 x9 x10 x11
      have h12 : Kept pq x10 := by
          refine kept_pair x11 ?_
          with_reducible apply readTaskWord_kept
          exact h
      split
      rename_i x13 x14 x15 x16
      have h17 : Kept pq x15 := by
          refine kept_pair x16 ?_
          with_reducible apply readTaskWord_kept
          exact h12
      exact h17
    · exact h
  · split
    · split
      rename_i x18 x19 x20 x21
      have h22 : Kept pq x20 := by
          refine kept_pair x21 ?_
          with_reducible apply readTaskWord_kept
          exact h
      split
      rename_i x23 x24 x25 x26
      have h27 : Kept pq x25 := by
          refine kept_pair x26 ?_
          with_reducible apply readTaskWord_kept
          exact h22
      exact h27
    · exact h
  · split
    · split
      rename_i x28 x29 x30 x31 x32
      have h33 : Kept pq x31 := by
          refine kept_trip x32 ?_
          with_reducible apply quRegRd_kept
          exact h
      exact h33
    · exact h
  · exact h

theorem captureAll_kept {pq : List Instr} (s : State) (h : Kept pq s) : Kept pq (captureAll s) := by
  unfold captureAll
  split
  rename_i x1 x2 x3 x4
  have h5 : Kept pq x3 := by
      refine kept_pair x4 ?_
      with_reducible apply eachOp_kept
      · exact h
      · intro v6 v7 v8
        with_reducible apply capture1_kept
        exact v8
  extract_lets +lift a9
  with_reducible apply macCapture_kept
  exact kept_same h5 rfl rfl

theorem presentBy_kept {pq : List Instr} (s : State) (src : Nat) (h : Kept pq s) : Kept pq (presentBy s src) := by
  unfold presentBy
  split
  · exact h
  · with_reducible apply kept_foldl
    · exact h
    · intro v1 v2 v3
      split
      · with_reducible apply setPresent_kept
        exact v3
      · exact v3

theorem mbxPut_kept {pq : List Instr} (s : State) (n : Nat) (f : RxFrame) (h : Kept pq s) : Kept pq (mbxPut s n f) := by
  unfold mbxPut
  extract_lets +lift a1 a2
  split
  · split
    · exact kept_same h rfl rfl
  · with_reducible apply setF_kept
    with_reducible apply incSat_kept
    exact h

theorem addSat_kept {pq : List Instr} (s : State) (f : Fld) (ovf : Fld) (n : Nat) (h : Kept pq s) : Kept pq (addSat s f ovf n) := by
  unfold addSat
  split
  · with_reducible apply setF_kept
    exact h
  · with_reducible apply setFs_kept
    exact h

theorem plumbSample_kept {pq : List Instr} (s : State) (m : Nat) (smp : Nat) (sync : Nat) (stamp : Nat) (h : Kept pq s) : Kept pq (plumbSample s m smp sync stamp) := by
  unfold plumbSample
  extract_lets +lift a1
  split
  · exact h
  · split
    rename_i x2 x3 x4 x5
    have h6 : Kept pq x4 := by
        refine kept_pair x5 ?_
        with_reducible apply readAll_kept
        exact h
    clear_value a1
    dsimp only
    with_reducible apply plbNote_kept
    with_reducible apply plbUpdate_kept
    with_reducible apply readAll_kept
    exact h6

theorem putSample_kept {pq : List Instr} (s : State) (e : Nat) (x : PhmSmp) (h : Kept pq s) : Kept pq (putSample s e x) := by
  unfold putSample
  extract_lets +lift a1
  exact kept_same h rfl rfl

theorem setGap_kept {pq : List Instr} (s : State) (e : Nat) (i : Nat) (v : Bool) (h : Kept pq s) : Kept pq (setGap s e i v) := by
  unfold setGap
  extract_lets +lift a1 a2
  split
  · exact h
  · with_reducible apply setF_kept
    exact h

theorem reportsFall_kept {pq : List Instr} (s : State) (e : Nat) (trs : List Nat) (complete : Bool) (h : Kept pq s) : Kept pq (reportsFall s e trs complete) := by
  unfold reportsFall
  extract_lets +lift a1 a2 a3 a4 a5 a6
  have h7 : Kept pq a3 := by
      unfold a3
      exact kept_same h rfl rfl
  clear_value a3
  have h8 : Kept pq a4 := by
      unfold a4
      split
      · exact h7
      · with_reducible apply addSat_kept
        exact h7
  clear_value a4
  split
  · exact h
  · split
    · with_reducible apply addSat_kept
      exact h7
    · with_reducible apply pulse_kept
      exact kept_same h8 rfl rfl

theorem skipSample_kept {pq : List Instr} (s : State) (e : Nat) (inst : Nat) (idx : Nat) (h : Kept pq s) : Kept pq (skipSample s e inst idx) := by
  unfold skipSample
  extract_lets +lift a1
  have h2 : Kept pq a1 := by
      unfold a1
      with_reducible apply putSample_kept
      with_reducible apply setGap_kept
      exact h
  clear_value a1
  with_reducible apply reportsFall_kept
  exact h2

theorem phmSample_kept {pq : List Instr} (s : State) (m : Nat) (smp : Nat) (sync : Nat) (stamp : Nat) (d : Nat) (idx : Nat) (first : Bool) (sim : Bool) (h : Kept pq s) : Kept pq (phmSample s m smp sync stamp d idx first sim) := by
  unfold phmSample
  extract_lets +lift a1
  with_reducible apply kept_foldl
  · exact h
  · intro v2 v3 v4
    extract_lets +lift a5 a6 a7 a8 a9 a10
    have h11 : Kept pq a6 := by
        unfold a6
        split
        · exact kept_same v4 rfl rfl
        · exact v4
    clear_value a6
    have h12 : Kept pq a8 := by
        unfold a8
        with_reducible apply kept_foldl
        · exact h11
        · intro v13 v14 v15
          with_reducible apply skipSample_kept
          exact v15
    clear_value a8
    have h16 : Kept pq a10 := by
        unfold a10
        with_reducible apply putSample_kept
        with_reducible apply setGap_kept
        exact h12
    clear_value a10
    split
    · exact v4
    · with_reducible apply reportsFall_kept
      exact h16

theorem asduWrite_kept {pq : List Instr} (s : State) (m : Nat) (stn : Nat) (stamp : Nat) (sim : Bool) (a : Asdu) (h : Kept pq s) : Kept pq (asduWrite s m stn stamp sim a).2.2 := by
  unfold asduWrite
  extract_lets +lift a1 a2 a3 a4
  split
  extract_lets +lift a5 a6 a7 a8
  have h9 : Kept pq a5 := by
      unfold a5
      exact kept_same h rfl rfl
  clear_value a5
  have h10 : Kept pq a6 := by
      unfold a6
      with_reducible apply kept_foldl
      · exact h9
      · intro v11 v12 v13
        extract_lets +lift a14
        have h15 : Kept pq a14 := by
            unfold a14
            with_reducible apply writeWord_kept
            exact v13
        clear_value a14
        with_reducible apply writeWord_kept
        exact h15
  clear_value a6
  have h16 : Kept pq a7 := by
      unfold a7
      split
      · with_reducible apply addSat_kept
        exact h10
      · exact h10
  clear_value a7
  have h17 : Kept pq a8 := by
      unfold a8
      with_reducible apply plumbSample_kept
      exact h16
  clear_value a8
  split
  · dsimp only
    with_reducible apply incSat_kept
    exact h
  · dsimp only
    with_reducible apply phmSample_kept
    exact h17

theorem imageWrite_kept {pq : List Instr} (s : State) (f : RxFrame) (m : Nat) (stn : Nat) (h : Kept pq s) : Kept pq (imageWrite s f m stn) := by
  unfold imageWrite
  extract_lets +lift a1 a2 a3 a4 a5 a6 a7
  have h8 : Kept pq a5 := by
      unfold a5
      exact kept_same h rfl rfl
  clear_value a5
  split
  · exact h
  · split
    · extract_lets +lift a9 a10
      have h11 : Kept pq a9 := by
          unfold a9
          with_reducible apply writeWord_kept
          with_reducible apply writeWord_kept
          with_reducible apply writeWord_kept
          exact h8
      clear_value a9
      split
      · unfold a7
        with_reducible apply writeWord_kept
        with_reducible apply incSat_kept
        exact h11
      · split
        · unfold a7
          with_reducible apply writeWord_kept
          with_reducible apply incSat_kept
          exact h11
        · split
          · rename_i x12 x13 x14 x15 x16
            have h17 : Kept pq x15 := by
                refine kept_trip x16 ?_
                with_reducible apply kept_foldl_trip
                · dsimp only
                  exact h11
                · intro v18 v19 v20
                  split
                  · rename_i x21 x22 x23 x24 x25
                    have h26 : Kept pq x24 := by
                        refine kept_trip x25 ?_
                        with_reducible apply asduWrite_kept
                        exact v20
                    dsimp only
                    exact h26
            extract_lets +lift a27 a28
            have h29 : Kept pq a27 := by
                unfold a27
                with_reducible apply writeWord_kept
                exact h17
            clear_value a27
            have h30 : Kept pq a28 := by
                unfold a28
                with_reducible apply writeWord_kept
                exact h29
            clear_value a28
            split
            · with_reducible apply writeWord_kept
              with_reducible apply writeWord_kept
              with_reducible apply writeWord_kept
              exact h30
            · exact h30

theorem landRule_kept {pq : List Instr} (s : State) (f : RxFrame) (r : List Nat) (h : Kept pq s) : Kept pq (landRule s f r) := by
  unfold landRule
  extract_lets +lift a1 a2 a3 a4 a5 a6
  have h7 : Kept pq a2 := by
      unfold a2
      split
      · with_reducible apply markForeign_kept
        exact h
      · exact h
  clear_value a2
  have h8 : Kept pq a3 := by
      unfold a3
      split
      · exact h7
      · with_reducible apply presentBy_kept
        exact h7
  clear_value a3
  have h9 : Kept pq a4 := by
      unfold a4
      split
      · with_reducible apply kept_foldl
        · exact h8
        · intro v10 v11 v12
          with_reducible apply egrPut_kept
          exact v12
      · with_reducible apply mbxPut_kept
        with_reducible apply wakeSource_kept
        exact h8
      · with_reducible apply imageWrite_kept
        exact h8
      · exact h8
  clear_value a4
  have h13 : Kept pq a6 := by
      unfold a6
      split
      · with_reducible apply egrPut_kept
        exact h9
      · exact h9
  clear_value a6
  split
  · split
    with_reducible apply writeWord_kept
    with_reducible apply writeWord_kept
    exact h13
  · exact h13

theorem landVerdict_kept {pq : List Instr} (s : State) (f : RxFrame) (v : Verdict) (h : Kept pq s) : Kept pq (landVerdict s f v) := by
  unfold landVerdict
  split
  · with_reducible apply landRule_kept
    exact h
  · split
    · with_reducible apply mbxPut_kept
      exact h
    · exact h
  · with_reducible apply incSat_kept
    exact h
  · exact h

theorem orphanWait_kept {pq : List Instr} (s : State) (f : RxFrame) (g : FragInfo) (h : Kept pq s) : Kept pq (orphanWait s f g) := by
  unfold orphanWait
  extract_lets +lift a1 a2 a3 a4
  split
  · split
    · exact kept_same h rfl rfl
    · unfold a1
      with_reducible apply incSat_kept
      exact h
  · split
    · exact kept_same h rfl rfl
    · unfold a1
      with_reducible apply incSat_kept
      exact h

theorem releaseHeld_kept {pq : List Instr} (s : State) (g : FragInfo) (h : Kept pq s) : Kept pq (releaseHeld s g) := by
  unfold releaseHeld
  extract_lets +lift a1 a2
  have h3 : Kept pq a2 := by
      unfold a2
      exact kept_same h rfl rfl
  clear_value a2
  split
  · split
    · with_reducible apply kept_foldl
      · exact h3
      · intro v4 v5 v6
        with_reducible apply landVerdict_kept
        exact v6
    · exact h
  · exact h

theorem landFrame_kept {pq : List Instr} (s : State) (f : RxFrame) (good : Bool) (h : Kept pq s) : Kept pq (landFrame s f good) := by
  unfold landFrame
  extract_lets +lift a1 a2
  have h3 : Kept pq a2 := by
      unfold a2
      split
      · split
        · with_reducible apply landVerdict_kept
          exact h
        · with_reducible apply orphanWait_kept
          exact h
      · with_reducible apply landVerdict_kept
        exact h
      · exact h
  clear_value a2
  split
  · split
    · with_reducible apply releaseHeld_kept
      exact h3
    · exact h3
  · exact h3

theorem setFlight_kept {pq : List Instr} (s : State) (p : Nat) (f : Option RxFrame) (h : Kept pq s) : Kept pq (setFlight s p f) := by
  unfold setFlight
  exact kept_same h rfl rfl

theorem updPay_kept {pq : List Instr} (s : State) (p : Nat) (g : List RxFrame → List RxFrame) (h : Kept pq s) : Kept pq (updPay s p g) := by
  unfold updPay
  exact kept_same h rfl rfl

theorem ringStore_kept {pq : List Instr} (s : State) (f : RxFrame) (h : Kept pq s) : Kept pq (ringStore s f) := by
  unfold ringStore
  split
  · split
    · exact h
    · with_reducible apply egrPut_kept
      exact h
  · exact h

theorem arpAnswer_kept {pq : List Instr} (s : State) (f : RxFrame) (o : Nat) (h : Kept pq s) : Kept pq (arpAnswer s f o) := by
  unfold arpAnswer
  split
  · with_reducible apply sysSend_kept
    exact h
  · exact h

theorem ndAnswer_kept {pq : List Instr} (s : State) (f : RxFrame) (o : Nat) (h : Kept pq s) : Kept pq (ndAnswer s f o) := by
  unfold ndAnswer
  extract_lets +lift a1 a2 a3
  split
  · with_reducible apply sysSend_kept
    exact h
  · exact h

theorem zcpCopy_kept {pq : List Instr} (s : State) (f : RxFrame) (p : Parsed) (h : Kept pq s) : Kept pq (zcpCopy s f p) := by
  unfold zcpCopy
  extract_lets +lift a1 a2 a3 a4
  split
  · extract_lets +lift a5
    split
    · split
      · with_reducible apply zcpArrive_kept
        exact h
      · exact h
    · split
      · with_reducible apply zcpArrive_kept
        exact h
      · exact h
  · exact h

theorem internalCopies_kept {pq : List Instr} (s : State) (f : RxFrame) (h : Kept pq s) : Kept pq (internalCopies s f) := by
  unfold internalCopies
  extract_lets +lift a1
  split
  · with_reducible apply arpAnswer_kept
    exact h
  · with_reducible apply ndAnswer_kept
    exact h
  · split
    · exact h
    · with_reducible apply zcpCopy_kept
      exact h
  · exact h

theorem clsEcc_kept {pq : List Instr} (s : State) (pat : Bool) (loc : Nat) (h : Kept pq s) : Kept pq (clsEcc s pat loc) := by
  unfold clsEcc
  extract_lets +lift a1 a2 a3 a4
  have h5 : Kept pq a1 := by
      unfold a1
      split
      · exact h
      · with_reducible apply setFs_kept
        exact h
  clear_value a1
  have h6 : Kept pq a2 := by
      unfold a2
      with_reducible apply setRaise_kept
      exact h5
  clear_value a2
  exact kept_same h6 rfl rfl

theorem checkPats_kept {pq : List Instr} (s : State) (h : Kept pq s) : Kept pq (checkPats s) := by
  unfold checkPats
  with_reducible apply kept_foldl
  · exact h
  · intro v1 v2 v3
    split
    · with_reducible apply eccCorr_kept
      exact v3
    · with_reducible apply eccClear_kept
      with_reducible apply clsEcc_kept
      exact v3

theorem checkRules_kept {pq : List Instr} (s : State) (b : Nat) (h : Kept pq s) : Kept pq (checkRules s b) := by
  unfold checkRules
  with_reducible apply kept_foldl
  · exact h
  · intro v1 v2 v3
    split
    · with_reducible apply eccCorr_kept
      exact v3
    · with_reducible apply eccClear_kept
      with_reducible apply clsEcc_kept
      exact v3

theorem tripWrite_kept {pq : List Instr} (s : State) (port : Nat) (r : List Nat) (h : Kept pq s) : Kept pq (tripWrite s port r) := by
  unfold tripWrite
  split
  · with_reducible apply incSat_kept
    exact h
  · with_reducible apply streamEv_kept
    with_reducible apply writeBit_kept
    exact h

theorem tadDecide_kept {pq : List Instr} (s : State) (g : FragInfo) (v : Verdict) (h : Kept pq s) : Kept pq (tadDecide s g v) := by
  unfold tadDecide
  extract_lets +lift a1 a2
  split
  · exact kept_same h rfl rfl
  · split
    · with_reducible apply incSat_kept
      exact h
    · exact kept_same h rfl rfl

theorem decideFrame_kept {pq : List Instr} (s : State) (f : RxFrame) (p : Parsed) (v : Verdict) (live : Bool) (h : Kept pq s) : Kept pq (decideFrame s f p v live).2 := by
  unfold decideFrame
  dsimp only
  split
  · rename_i b i r
    refine iteInduction (motive := fun p : RxFrame × State => Kept pq p.2) (fun _ => h) (fun _ => ?_)
    have h1 : Kept pq (if rTrip r = true then tripWrite (incWrap s (ruleF b i 15)) f.port r
        else incWrap s (ruleF b i 15)) :=
      iteInduction (motive := Kept pq) (fun _ => tripWrite_kept _ _ _ (incWrap_kept _ _ h)) (fun _ => incWrap_kept _ _ h)
    revert h1
    generalize (if rTrip r = true then tripWrite (incWrap s (ruleF b i 15)) f.port r
        else incWrap s (ruleF b i 15)) = s1
    intro h1
    cases p.frag with
    | none =>
      refine iteInduction (motive := fun p : RxFrame × State => Kept pq p.2) (fun _ => ?_) (fun _ => h1)
      refine kept_foldl_pair h1 fun a x ha => ?_
      refine iteInduction (motive := fun p : RxFrame × State => Kept pq p.2) (fun _ => ?_) (fun _ => ha)
      exact cutStart_kept _ _ _ _ ha
    | some g =>
      have h2 := tadDecide_kept s1 g (.rule b i r) h1
      refine iteInduction (motive := fun p : RxFrame × State => Kept pq p.2) (fun _ => ?_) (fun _ => h2)
      refine kept_foldl_pair h2 fun a x ha => ?_
      refine iteInduction (motive := fun p : RxFrame × State => Kept pq p.2) (fun _ => ?_) (fun _ => ha)
      exact cutStart_kept _ _ _ _ ha
  · refine iteInduction (motive := fun p : RxFrame × State => Kept pq p.2) (fun _ => h) (fun _ => ?_)
    dsimp only
    split
    · exact tadDecide_kept _ _ _ (incSat_kept _ _ _ h)
    · exact incSat_kept _ _ _ h
  · exact h

theorem judgeAndLand_kept {pq : List Instr} (s : State) (f : RxFrame) (h : Kept pq s) : Kept pq (judgeAndLand s f) := by
  unfold judgeAndLand
  extract_lets +lift a1 a2 a3
  have h4 : Kept pq a2 := by
      unfold a2
      with_reducible apply checkPats_kept
      with_reducible apply checkRules_kept
      exact h
  clear_value a2
  split
  · split
    · rename_i x5 x6 x7 x8
      have h9 : Kept pq x7 := by
          refine kept_pair x8 ?_
          with_reducible apply decideFrame_kept
          exact h4
      with_reducible apply landFrame_kept
      exact h9
  · exact h4

theorem goodLands_kept {pq : List Instr} (s : State) (f : RxFrame) (h : Kept pq s) : Kept pq (goodLands s f) := by
  unfold goodLands
  extract_lets +lift a1 a2
  have h3 : Kept pq a1 := by
      unfold a1
      with_reducible apply ringStore_kept
      with_reducible apply internalCopies_kept
      exact h
  clear_value a1
  split
  · with_reducible apply landFrame_kept
    exact h3
  · split
    · with_reducible apply updPay_kept
      exact h3
    · split
      · split
        · exact kept_same h3 rfl rfl
        · with_reducible apply setF_kept
          with_reducible apply incSat_kept
          exact h3
      · with_reducible apply judgeAndLand_kept
        exact h3

theorem dupEnter_kept {pq : List Instr} (s : State) (pair : Nat) (k : Nat × Nat) (h : Kept pq s) : Kept pq (dupEnter s pair k) := by
  unfold dupEnter
  extract_lets +lift a1 a2
  exact kept_same h rfl rfl

theorem goodEnd_kept {pq : List Instr} (s : State) (f : RxFrame) (h : Kept pq s) : Kept pq (goodEnd s f) := by
  unfold goodEnd
  extract_lets +lift a1 a2
  have h3 : Kept pq a1 := by
      unfold a1
      with_reducible apply incWrap_kept
      exact h
  clear_value a1
  split
  · exact h3
  · split
    · extract_lets +lift a4
      split
      · with_reducible apply updPay_kept
        with_reducible apply incSat_kept
        exact h3
      · with_reducible apply goodLands_kept
        with_reducible apply dupEnter_kept
        exact h3
    · with_reducible apply goodLands_kept
      exact h3

theorem dupForget_kept {pq : List Instr} (s : State) (pair : Nat) (k : Nat × Nat) (h : Kept pq s) : Kept pq (dupForget s pair k) := by
  unfold dupForget
  exact kept_same h rfl rfl

theorem badEnd_kept {pq : List Instr} (s : State) (f : RxFrame) (h : Kept pq s) : Kept pq (badEnd s f) := by
  unfold badEnd
  extract_lets +lift a1 a2 a3 a4
  have h5 : Kept pq a1 := by
      unfold a1
      with_reducible apply incSat_kept
      exact h
  clear_value a1
  have h6 : Kept pq a2 := by
      unfold a2
      with_reducible apply kept_foldl
      · exact h5
      · intro v7 v8 v9
        with_reducible apply updEgr_kept
        exact v9
  clear_value a2
  have h10 : Kept pq a3 := by
      unfold a3
      split
      · with_reducible apply dupForget_kept
        exact h6
      · exact h6
  clear_value a3
  have h11 : Kept pq a4 := by
      unfold a4
      with_reducible apply updPay_kept
      exact h10
  clear_value a4
  split
  · with_reducible apply landFrame_kept
    exact h11
  · exact h11

theorem execFrameEnd_kept {pq : List Instr} (port : Nat) (fcsOk : Bool) (s : State) (h : Kept pq s) :
    ∃ s', execFrameEnd port fcsOk s = .next s' ∧ Kept pq s' := by
  unfold execFrameEnd
  refine ⟨_, rfl, ?_⟩
  extract_lets +lift a1
  have h2 : Kept pq a1 := by
      unfold a1
      with_reducible apply setFlight_kept
      exact h
  clear_value a1
  split
  · exact h
  · split
    · exact h2
    · split
      · with_reducible apply goodEnd_kept
        exact h2
      · with_reducible apply badEnd_kept
        exact h2

theorem judgeHeader_kept {pq : List Instr} (s : State) (f : RxFrame) (h : Kept pq s) : Kept pq (judgeHeader s f).2 := by
  unfold judgeHeader
  extract_lets +lift a1 a2 a3 a4
  have h5 : Kept pq a2 := by
      unfold a2
      with_reducible apply checkRules_kept
      exact h
  clear_value a2
  have h6 : Kept pq a4 := by
      unfold a4
      with_reducible apply incSat_kept
      exact h5
  clear_value a4
  split
  · split
    · split
      · rename_i x7 x8 x9 x10
        have h11 : Kept pq x9 := by
            refine kept_pair x10 ?_
            split
            · with_reducible apply decideFrame_kept
              exact h5
            · dsimp only
              exact h5
        dsimp only
        with_reducible apply updPay_kept
        exact h11
    · split
      · with_reducible apply decideFrame_kept
        exact h6
      · dsimp only
        exact h6
  · split
    · with_reducible apply decideFrame_kept
      exact h5
    · dsimp only
      exact h5

theorem execPatternLoadDone_kept {pq : List Instr} (s : State) (h : Kept pq s) :
    ∃ s', execPatternLoadDone s = .next s' ∧ Kept pq s' := by
  unfold execPatternLoadDone
  refine ⟨_, rfl, ?_⟩
  extract_lets +lift a1 a2 a3
  have h4 : Kept pq a3 := by
      unfold a3
      exact kept_same h rfl rfl
  clear_value a3
  split
  · with_reducible apply kept_foldl
    · exact h4
    · intro v5 v6 v7
      with_reducible apply judgeAndLand_kept
      exact v7
  · exact h

theorem ringCut_kept {pq : List Instr} (s : State) (f : RxFrame) (h : Kept pq s) : Kept pq (ringCut s f).2 := by
  unfold ringCut
  split
  · extract_lets +lift a1
    split
    · dsimp only
      with_reducible apply cutStart_kept
      exact h
    · dsimp only
      exact h
  · dsimp only
    exact h

theorem headerArrives.go_kept {pq : List Instr} (f : RxFrame) (s : State) (h : Kept pq s) : Kept pq (headerArrives.go f s) := by
  unfold headerArrives.go
  split
  · with_reducible apply setFlight_kept
    with_reducible apply incSat_kept
    exact h
  · split
    rename_i x1 x2 x3 x4
    have h5 : Kept pq x3 := by
        refine kept_pair x4 ?_
        with_reducible apply ringCut_kept
        exact h
    split
    · with_reducible apply setFlight_kept
      exact h5
    · split
      rename_i x6 x7 x8 x9
      have h10 : Kept pq x8 := by
          refine kept_pair x9 ?_
          with_reducible apply judgeHeader_kept
          exact h5
      with_reducible apply setFlight_kept
      exact h10

theorem execDupEntryForget_kept {pq : List Instr} (pair : Nat) (src : Nat) (seq : Nat) (s : State) (h : Kept pq s) :
    ∃ s', execDupEntryForget pair src seq s = .next s' ∧ Kept pq s' := by
  unfold execDupEntryForget
  refine ⟨_, rfl, ?_⟩
  split
  · exact h
  · with_reducible apply dupForget_kept
    exact h

theorem headerArrives_kept {pq : List Instr} (s : State) (f : RxFrame) (tag : Option Nat) (h : Kept pq s) : Kept pq (headerArrives s f tag) := by
  unfold headerArrives
  extract_lets +lift a1 a2
  split
  · with_reducible apply setFlight_kept
    exact h
  · split
    · extract_lets +lift a3
      split
      · with_reducible apply setFlight_kept
        with_reducible apply incSat_kept
        exact h
      · with_reducible apply headerArrives.go_kept
        with_reducible apply dupEnter_kept
        exact h
    · with_reducible apply headerArrives.go_kept
      exact h

theorem execFrameHeaderDecision_kept {pq : List Instr} (port : Nat) (bytes : List Byte) (stamp : Nat) (s : State) (h : Kept pq s) :
    ∃ s', execFrameHeaderDecision port bytes stamp s = .next s' ∧ Kept pq s' := by
  unfold execFrameHeaderDecision
  refine ⟨_, rfl, ?_⟩
  split
  · exact h
  · split
    · with_reducible apply incSat_kept
      exact h
    · split
      · with_reducible apply setFlight_kept
        exact h
      · with_reducible apply headerArrives_kept
        exact h

theorem execTadpoleExpiry_kept {pq : List Instr} (i : Nat) (s : State) (h : Kept pq s) :
    ∃ s', execTadpoleExpiry i s = .next s' ∧ Kept pq s' := by
  unfold execTadpoleExpiry
  refine ⟨_, rfl, ?_⟩
  extract_lets +lift a1 a2
  have h3 : Kept pq a2 := by
      unfold a2
      exact kept_same h rfl rfl
  clear_value a2
  split
  · exact h
  · split
    · exact h
    · split
      · exact h3
      · with_reducible apply addSat_kept
        exact h3

theorem execPortLinkChange_kept {pq : List Instr} (port : Nat) (up : Bool) (spd : Nat) (s : State) (h : Kept pq s) :
    ∃ s', execPortLinkChange port up spd s = .next s' ∧ Kept pq s' := by
  unfold execPortLinkChange
  refine ⟨_, rfl, ?_⟩
  extract_lets +lift a1 a2 a3
  split
  · exact h
  · split
    · with_reducible apply setFs_kept
      exact h
    · with_reducible apply setF_kept
      exact h

theorem execPauseDrainDone_kept {pq : List Instr} (s : State) (h : Kept pq s) :
    ∃ s', execPauseDrainDone s = .next s' ∧ Kept pq s' := by
  unfold execPauseDrainDone
  refine ⟨_, rfl, ?_⟩
  extract_lets +lift a1
  split
  · split
    · exact kept_same h rfl rfl
    · exact h
  · exact h

theorem execPayloadScanDone_kept {pq : List Instr} (port : Nat) (s : State) (h : Kept pq s) :
    ∃ s', execPayloadScanDone port s = .next s' ∧ Kept pq s' := by
  unfold execPayloadScanDone
  refine ⟨_, rfl, ?_⟩
  extract_lets +lift a1
  have h2 : Kept pq a1 := by
      unfold a1
      with_reducible apply updPay_kept
      exact h
  clear_value a1
  split
  · exact h
  · dsimp only
    split
    · exact h
    · split
      · exact h2
      · split
        · with_reducible apply checkPats_kept
          with_reducible apply checkRules_kept
          exact h2
        · split
          · with_reducible apply landFrame_kept
            with_reducible apply decideFrame_kept
            with_reducible apply checkPats_kept
            with_reducible apply checkRules_kept
            exact h2
          · split
            · with_reducible apply setFlight_kept
              with_reducible apply decideFrame_kept
              with_reducible apply checkPats_kept
              with_reducible apply checkRules_kept
              exact h2
            · with_reducible apply decideFrame_kept
              with_reducible apply checkPats_kept
              with_reducible apply checkRules_kept
              exact h2
          · with_reducible apply decideFrame_kept
            with_reducible apply checkPats_kept
            with_reducible apply checkRules_kept
            exact h2

theorem execTmuEventFire_kept {pq : List Instr} (slot : Nat) (s : State) (h : Kept pq s) :
    ∃ s', execTmuEventFire slot s = .next s' ∧ Kept pq s' := by
  unfold execTmuEventFire
  refine ⟨_, rfl, ?_⟩
  split
  · with_reducible apply tmuFire_kept
    exact h
  · exact h

theorem endOps_kept {pq : List Instr} (s : State) (h : Kept pq s) : Kept pq (endOps s) := by
  unfold endOps
  extract_lets +lift a1 a2
  have h3 : Kept pq a2 := by
      unfold a2
      with_reducible apply kept_foldl
      · exact h
      · intro v4 v5 v6
        split
        · with_reducible apply opComplete_kept
          exact v6
        · exact v6
  clear_value a2
  split
  · exact h3
  · with_reducible apply macStep_kept
    exact h3

theorem sweepCell_kept {pq : List Instr} (s : State) (cell : Nat) (h : Kept pq s) : Kept pq (sweepCell s cell) := by
  unfold sweepCell
  extract_lets +lift a1
  split
  · exact h
  · split
    · with_reducible apply setCell_kept
      exact h
    · exact h

theorem tmuAll_kept {pq : List Instr} (s : State) (h : Kept pq s) : Kept pq (tmuAll s) := by
  unfold tmuAll
  with_reducible apply kept_foldl
  · exact h
  · intro v1 v2 v3
    split
    · with_reducible apply tmuFire_kept
      exact v3
    · exact v3

theorem noteSys_kept {pq : List Instr} (s : State) (h : Kept pq s) : Kept pq (noteSys s) := by
  unfold noteSys
  extract_lets +lift a1 a2 a3 a4
  have h5 : Kept pq a3 := by
      unfold a3
      with_reducible apply kept_foldl
      · exact h
      · intro v6 v7 v8
        split
        · exact v8
        · with_reducible apply logBit_kept
          exact v8
  clear_value a3
  exact kept_same h5 rfl rfl

theorem endStalls_kept {pq : List Instr} (s : State) (h : Kept pq s) : Kept pq (endStalls s) := by
  unfold endStalls
  extract_lets +lift a1
  have h2 : Kept pq a1 := by
      unfold a1
      split
      · exact h
      · with_reducible apply structStall_kept
        exact h
  clear_value a1
  split
  · with_reducible apply incStop_kept
    exact h2
  · exact h2

theorem endOfCycle_kept {pq : List Instr} (s : State) (h : Kept pq s) : Kept pq (endOfCycle s) := by
  unfold endOfCycle
  extract_lets +lift a1 a2 a3 a4 a5 a6
  have h7 : Kept pq a1 := by
      unfold a1
      with_reducible apply gateTick_kept
      with_reducible apply replayDue_kept
      exact h
  clear_value a1
  have h8 : Kept pq a3 := by
      unfold a3
      exact kept_same h7 rfl rfl
  clear_value a3
  have h9 : Kept pq a4 := by
      unfold a4
      with_reducible apply replayDue_kept
      with_reducible apply endRuns_kept
      with_reducible apply endOps_kept
      with_reducible apply copyAll_kept
      exact h8
  clear_value a4
  have h10 : Kept pq a5 := by
      unfold a5
      split
      · with_reducible apply dropUncommitted_kept
        exact h9
      · exact h9
  clear_value a5
  have h11 : Kept pq a6 := by
      unfold a6
      with_reducible apply sweepCell_kept
      with_reducible apply tmuAll_kept
      exact h10
  clear_value a6
  with_reducible apply noteSys_kept
  with_reducible apply endStalls_kept
  split
  · with_reducible apply hubFrames_kept
    exact h11
  · exact h11

theorem nextCycle_kept {pq : List Instr} (s : State) (h : Kept pq s) : Kept pq (nextCycle s) := by
  unfold nextCycle
  extract_lets +lift a1 a2 a3 a4
  have h5 : Kept pq a1 := by
      unfold a1
      with_reducible apply setF_kept
      with_reducible apply clockAdvance_kept
      with_reducible apply settle_kept
      with_reducible apply trcCycle_kept
      with_reducible apply endOfCycle_kept
      exact h
  clear_value a1
  have h6 : Kept pq a2 := by
      unfold a2
      with_reducible apply replayDue_kept
      with_reducible apply replayAdvance_kept
      with_reducible apply takeoverDue_kept
      exact h5
  clear_value a2
  have h7 : Kept pq a4 := by
      unfold a4
      exact kept_same h6 rfl rfl
  clear_value a4
  with_reducible apply captureAll_kept
  exact h7

theorem coreCycle_kept {pq : List Instr} (s : State) (h : Kept pq s) : Kept pq (coreCycle s) := by
  unfold coreCycle
  extract_lets +lift a1
  have h2 : Kept pq a1 := by
      unfold a1
      with_reducible apply nextCycle_kept
      exact h
  clear_value a1
  split
  · with_reducible apply clockAdvance_kept
    with_reducible apply trcCycle_kept
    with_reducible apply gateTick_kept
    exact h
  · with_reducible apply startFire_kept
    · exact h2
    · exact h2

theorem execWaitingTriggerFire_kept {pq : List Instr} (i : Nat) (s : State) (h : Kept pq s) :
    ∃ s', execWaitingTriggerFire i s = .next s' ∧ Kept pq s' := by
  unfold execWaitingTriggerFire
  refine ⟨_, rfl, ?_⟩
  extract_lets +lift a1
  split
  · exact h
  · split
    · exact h
    · split
      · with_reducible apply fireTrig_kept
        · exact h
        · exact kept_same h rfl rfl
      · with_reducible apply coreCycle_kept
        exact h

theorem passOp_kept {pq : List Instr} (n : Nat) (p : PendOp) (s : State) (h : Kept pq s) : Kept pq (passOp n p s) := by
  induction n generalizing s with
  | zero => exact h
  | succ n ih =>
    rw [passOp]
    split
    · exact ih _ (coreCycle_kept _ h)
    · exact h

theorem execOperationResult_kept {pq : List Instr} (i : Nat) (s : State) (h : Kept pq s) :
    ∃ s', execOperationResult i s = .next s' ∧ Kept pq s' := by
  unfold execOperationResult
  refine ⟨_, rfl, ?_⟩
  split
  · exact h
  · split
    · with_reducible apply passOp_kept
      exact h
    · exact h

theorem execReplayEvent_kept {pq : List Instr} (s : State) (h : Kept pq s) :
    ∃ s', execReplayEvent s = .next s' ∧ Kept pq s' := by
  unfold execReplayEvent
  refine ⟨_, rfl, ?_⟩
  extract_lets +lift a1
  split
  · exact h
  · split
    · exact h
    · split
      · with_reducible apply replayOne_kept
        exact kept_same h rfl rfl
      · with_reducible apply coreCycle_kept
        exact h

theorem execTimerSweep_kept {pq : List Instr} (cell : Nat) (s : State) (h : Kept pq s) :
    ∃ s', execTimerSweep cell s = .next s' ∧ Kept pq s' := by
  unfold execTimerSweep
  refine ⟨_, rfl, ?_⟩
  split
  · with_reducible apply sweepCell_kept
    exact h
  · exact h

theorem passCycles_kept {pq : List Instr} (n : Nat) (s : State) (h : Kept pq s) : Kept pq (passCycles n s) := by
  induction n generalizing s with
  | zero => exact h
  | succ n ih => exact ih _ (coreCycle_kept _ h)

theorem execDeferredResolution_kept {pq : List Instr} (i : Nat) (s : State) (h : Kept pq s) :
    ∃ s', execDeferredResolution i s = .next s' ∧ Kept pq s' := by
  unfold execDeferredResolution
  refine ⟨_, rfl, ?_⟩
  split
  · exact h
  · split
    · exact h
    · with_reducible apply passCycles_kept
      exact h

theorem issueIn_kept {pq : List Instr} (b : State) (h : Kept pq b) : Kept pq (issueIn b) := by
  unfold issueIn
  split
  · with_reducible apply startFire_kept
    · exact h
    · exact h
  · extract_lets +lift a1
    split
    · rename_i x2 x3 x4
      have h5 : Kept pq x3 := by
          refine kept_pair x4 ?_
          with_reducible apply fetchBundle_kept
          exact h
      with_reducible apply startFire_kept
      · exact h
      · exact h5
    · rename_i x6 x7 x8 x9
      have h10 : Kept pq x8 := by
          refine kept_pair x9 ?_
          with_reducible apply fetchBundle_kept
          exact h
      with_reducible apply present_kept
      · exact h
      · exact h10

theorem execBundleIssue_kept {pq : List Instr} (parity : Bool) (s : State) (h : Kept pq s) :
    ∃ s', execBundleIssue parity s = .next s' ∧ Kept pq s' := by
  unfold execBundleIssue
  refine ⟨_, rfl, ?_⟩
  extract_lets +lift a1
  have h2 : Kept pq a1 := by
      unfold a1
      with_reducible apply nextCycle_kept
      exact h
  clear_value a1
  split
  · exact h
  · with_reducible apply issueIn_kept
    split
    · with_reducible apply halt_kept
      exact h2
    · exact h2

theorem execTaskFreeze_kept {pq : List Instr} (task : Nat) (s : State) (h : Kept pq s) :
    ∃ s', execTaskFreeze task s = .next s' ∧ Kept pq s' := by
  unfold execTaskFreeze
  refine ⟨_, rfl, ?_⟩
  extract_lets +lift a1
  have h2 : Kept pq a1 := by
      unfold a1
      with_reducible apply coreCycle_kept
      exact h
  clear_value a1
  split
  · exact h
  · split
    · with_reducible apply freeze_kept
      exact h
    · split
      · split
        · with_reducible apply freeze_kept
          exact h2
        · exact h2
      · exact h

theorem execTmuFastoutEnqueue_kept {pq : List Instr} (s : State) (h : Kept pq s) :
    ∃ s', execTmuFastoutEnqueue s = .next s' ∧ Kept pq s' := by
  unfold execTmuFastoutEnqueue
  refine ⟨_, rfl, ?_⟩
  split
  · with_reducible apply fastDrain_kept
    exact h
  · exact h

theorem softError_kept {pq : List Instr} (s : State) (e : Nat × Nat × Nat × Nat) (h : Kept pq s) : Kept pq (softError s e) := by
  unfold softError
  split
  · exact h
  · split
    · with_reducible apply upset_kept
      exact h
    · exact h

theorem scrubNext_kept {pq : List Instr} (s : State) (m : MemId) (i : Nat) (n : Nat) (h : Kept pq s) : Kept pq (scrubNext s m i n) := by
  unfold scrubNext
  extract_lets +lift a1 a2 a3 a4 a5 a6
  have h7 : Kept pq a4 := by
      unfold a4
      exact kept_same h rfl rfl
  clear_value a4
  split
  · with_reducible apply setF_kept
    exact kept_same h7 rfl rfl
  · exact h7

theorem keepUpset_kept {pq : List Instr} (s : State) (m : MemId) (loc : Nat) (h : Kept pq s) : Kept pq (keepUpset s m loc) := by
  unfold keepUpset
  extract_lets +lift a1
  exact kept_sp h rfl ⟨(kept_bits h :), (kept_words h :), (kept_planeB h :), (kept_planeW h :)⟩

theorem scrubBad_kept {pq : List Instr} (s : State) (m : MemId) (loc : Nat) (h : Kept pq s) : Kept pq (scrubBad s m loc) := by
  unfold scrubBad
  extract_lets +lift a1 a2 a3 a4 a5 a6 a7 a8
  have h9 : Kept pq a3 := by
      unfold a3
      with_reducible apply keepUpset_kept
      exact h
  clear_value a3
  have h10 : Kept pq a5 := by
      unfold a5
      with_reducible apply eccUncorrWord_kept
      exact h
  clear_value a5
  have h11 : Kept pq a7 := by
      unfold a7
      with_reducible apply updEgr_kept
      with_reducible apply eccClear_kept
      exact h
  clear_value a7
  have h12 : Kept pq a8 := by
      unfold a8
      split
      · exact h11
      · with_reducible apply setFs_kept
        exact h11
  clear_value a8
  split
  · with_reducible apply raise_kept
    exact kept_same h9 rfl rfl
  · with_reducible apply raise_kept
    exact kept_same h9 rfl rfl
  · with_reducible apply raise_kept
    with_reducible apply markEntry_kept
    with_reducible apply keepUpset_kept
    exact h
  · split
    · with_reducible apply putWord_kept
      with_reducible apply eccClear_kept
      with_reducible apply noteWrite_kept
      exact h10
    · exact h10
  · with_reducible apply eccClear_kept
    with_reducible apply eccUncorrRow_kept
    exact h
  · with_reducible apply clsEcc_kept
    with_reducible apply eccClear_kept
    exact h
  · with_reducible apply setRaise_kept
    exact h12
  · exact h

theorem execScrubAccess_kept {pq : List Instr} (m : MemId) (found : Ecc) (s : State) (h : Kept pq s) :
    ∃ s', execScrubAccess m found s = .next s' ∧ Kept pq s' := by
  unfold execScrubAccess
  refine ⟨_, rfl, ?_⟩
  extract_lets +lift a1
  split
  · clear_value a1
    dsimp only
    split
    · exact h
    · split
      · exact h
      · split
        · with_reducible apply scrubNext_kept
          with_reducible apply useWords_kept
          exact kept_same h rfl rfl
        · split
          · with_reducible apply raise_kept
            with_reducible apply incSat_kept
            with_reducible apply eccClear_kept
            with_reducible apply scrubNext_kept
            with_reducible apply useWords_kept
            exact kept_same h rfl rfl
          · with_reducible apply incSat_kept
            with_reducible apply eccClear_kept
            with_reducible apply scrubNext_kept
            with_reducible apply useWords_kept
            exact kept_same h rfl rfl
        · with_reducible apply scrubBad_kept
          with_reducible apply incSat_kept
          with_reducible apply scrubNext_kept
          with_reducible apply useWords_kept
          exact kept_same h rfl rfl
  · clear_value a1
    dsimp only
    split
    · exact h
    · split
      · exact h
      · split
        · with_reducible apply scrubNext_kept
          exact kept_same h rfl rfl
        · split
          · with_reducible apply raise_kept
            with_reducible apply incSat_kept
            with_reducible apply eccClear_kept
            with_reducible apply scrubNext_kept
            exact kept_same h rfl rfl
          · with_reducible apply incSat_kept
            with_reducible apply eccClear_kept
            with_reducible apply scrubNext_kept
            exact kept_same h rfl rfl
        · with_reducible apply scrubBad_kept
          with_reducible apply incSat_kept
          with_reducible apply scrubNext_kept
          exact kept_same h rfl rfl

theorem softErrors_kept {pq : List Instr} (s : State) (h : Kept pq s) : Kept pq (softErrors s) := by
  unfold softErrors
  extract_lets +lift a1
  have h2 : Kept pq a1 := by
      unfold a1
      with_reducible apply kept_foldl
      · exact h
      · intro v3 v4 v5
        with_reducible apply softError_kept
        exact v5
  clear_value a1
  exact kept_same h2 rfl rfl

theorem execEccWriteBack_kept {pq : List Instr} (m : MemId) (loc : Nat) (s : State) (h : Kept pq s) :
    ∃ s', execEccWriteBack m loc s = .next s' ∧ Kept pq s' := by
  unfold execEccWriteBack
  refine ⟨_, rfl, ?_⟩
  split
  · with_reducible apply eccClear_kept
    exact h
  · exact h

end Sys2Proof.Machine
end

