-- ==== Sys2Proof/Laws/KeptZcp.lean ====
section
/-! SUPPORT. What keeps the memories canonical and the queue: the commands of the host and network interface, and the tick. -/

set_option linter.unusedVariables false

namespace Sys2Proof.Machine

open Reg

theorem memWord_kept {pq : List Instr} (s : State) (a : Nat) (h : Kept pq s) : Kept pq (memWord s a).2 := by
  unfold memWord
  split
  · dsimp only
    exact h
  · split
    · split
      · rename_i x1 x2 x3 x4
        have h5 : Kept pq x3 := by
            refine kept_pair x4 ?_
            with_reducible apply readWord_kept
            exact h
        dsimp only
        exact h5
    · split
      · rename_i x6 x7 x8 x9
        have h10 : Kept pq x8 := by
            refine kept_pair x9 ?_
            with_reducible apply readWord_kept
            exact h
        dsimp only
        exact h10
    · split
      · rename_i x11 x12 x13 x14 x15
        have h16 : Kept pq x14 := by
            refine kept_trip x15 ?_
            with_reducible apply hostRead_kept
            exact h
        dsimp only
        exact h16

theorem zLoadDtData_kept {pq : List Instr} (s : State) (e : Nat) (ws : List Word) (h : Kept pq s) : Kept pq (zLoadDtData s e ws).2 := by
  unfold zLoadDtData
  extract_lets +lift a1 a2 a3
  split
  · dsimp only
    exact h
  · dsimp only
    exact kept_same h rfl rfl

theorem execZcpPacketRx_kept {pq : List Instr} (peer : Peer) (bytes : List Byte) (s : State) (h : Kept pq s) :
    ∃ s', execZcpPacketRx peer bytes s = .next s' ∧ Kept pq s' := by
  unfold execZcpPacketRx
  refine ⟨_, rfl, ?_⟩
  extract_lets +lift a1
  have h2 : Kept pq a1 := by
      unfold a1
      split
      · with_reducible apply seqRx_kept
        exact h
      · exact h
  clear_value a1
  split
  · exact h
  · split
    · with_reducible apply zcpArrive_kept
      exact h2
    · exact h2

theorem udpOut_kept {pq : List Instr} (s : State) (p : Peer) (bytes : List Byte) (h : Kept pq s) : Kept pq (udpOut s p bytes) := by
  unfold udpOut
  extract_lets +lift a1 a2
  with_reducible apply sysSend_kept
  exact h

theorem zHandover_kept {pq : List Instr} (s : State) (rq : ZReq) (h : Kept pq s) : Kept pq (zHandover s rq).2 := by
  unfold zHandover
  split
  · dsimp only
    exact h
  · rename_i x1 x2 x3 x4
    have h5 : Kept pq x3 := by
        refine opTake_kept x4 ?_
        exact h
    split
    · rename_i x6 x7 x8
      have h9 : Kept pq x7 := by
          refine kept_pair x8 ?_
          with_reducible apply handoverReq_kept
          exact h5
      dsimp only
      exact h9
    · rename_i x10 x11 x12 x13 x14
      have h15 : Kept pq x12 := by
          refine kept_pair x14 ?_
          with_reducible apply handoverReq_kept
          exact h5
      dsimp only
      exact h

theorem zSessionOpen_kept {pq : List Instr} (s : State) (rq : ZReq) (h : Kept pq s) : Kept pq (zSessionOpen s rq).2 := by
  unfold zSessionOpen
  split
  · dsimp only
    exact h
  · split
    · dsimp only
      exact h
    · extract_lets +lift a1
      dsimp only
      with_reducible apply updSession_kept
      exact h

theorem zJournalRead_kept {pq : List Instr} (s : State) (start : Nat) (n : Nat) (h : Kept pq s) : Kept pq (zJournalRead s start n).2 := by
  unfold zJournalRead
  split
  · dsimp only
    exact h
  · split
    · dsimp only
      exact h

theorem zIdentify_kept {pq : List Instr} (s : State) (h : Kept pq s) : Kept pq (zIdentify s).2 := by
  unfold zIdentify
  split
  · dsimp only
    exact h

theorem wordsRead_kept {pq : List Instr} (read : State → Nat → Nat × State) (n a : Nat) (s : State) (h : Kept pq s) (hr : ∀ s a, Kept pq s → Kept pq (read s a).2) : Kept pq (wordsRead read n a s).2 := by
  induction n generalizing s a with
  | zero => exact h
  | succ n ih => exact ih _ _ (hr _ _ h)

theorem zReadReg_kept {pq : List Instr} (s : State) (a : Nat) (n : Nat) (h : Kept pq s) : Kept pq (zReadReg s a n).2 := by
  unfold zReadReg
  split
  · dsimp only
    exact h
  · split
    · dsimp only
      exact h
    · split
      · rename_i x1 x2 x3 x4
        have h5 : Kept pq x3 := by
            refine kept_pair x4 ?_
            with_reducible apply wordsRead_kept
            · exact h
            · intro v6 v7 v8
              with_reducible apply hostRead_kept
              exact v8
        dsimp only
        exact h5

theorem zReadMem_kept {pq : List Instr} (s : State) (a : Nat) (n : Nat) (h : Kept pq s) : Kept pq (zReadMem s a n).2 := by
  unfold zReadMem
  extract_lets +lift a1
  split
  · dsimp only
    exact h
  · split
    · dsimp only
      exact h
    · split
      · rename_i x2 x3 x4 x5
        have h6 : Kept pq x4 := by
            refine kept_pair x5 ?_
            with_reducible apply wordsRead_kept
            · exact h
            · intro v7 v8 v9
              with_reducible apply memWord_kept
              exact v9
        dsimp only
        exact h6

theorem zStageRead_kept {pq : List Instr} (s : State) (a : Nat) (n : Nat) (h : Kept pq s) : Kept pq (zStageRead s a n).2 := by
  unfold zStageRead
  split
  · dsimp only
    exact h
  · split
    · dsimp only
      exact h
    · dsimp only
      exact h

theorem zOpStatus_kept {pq : List Instr} (s : State) (h : Nat) (hk : Kept pq s) : Kept pq (zOpStatus s h).2 := by
  unfold zOpStatus
  split
  · dsimp only
    exact hk
  · extract_lets +lift a1
    split
    · dsimp only
      with_reducible apply updOp_kept
      exact hk
    · dsimp only
      exact hk

theorem zAbort_kept {pq : List Instr} (s : State) (rq : ZReq) (h : Nat) (hk : Kept pq s) : Kept pq (zAbort s rq h).2 := by
  unfold zAbort
  split
  · dsimp only
    exact hk
  · extract_lets +lift a1
    split
    · dsimp only
      exact hk
    · split
      · split
        · rename_i x2 x3 x4 x5
          have h6 : Kept pq x4 := by
              refine kept_pair x5 ?_
              with_reducible apply txnRollback_kept
              exact hk
          dsimp only
          exact h6
      · split
        · split
          · dsimp only
            with_reducible apply coordAbort_kept
            exact hk
          · dsimp only
            exact hk
        · split
          · split
            · dsimp only
              exact hk
            · dsimp only
              with_reducible apply nvAbort_kept
              exact hk
          · dsimp only
            exact hk

theorem zEventRead_kept {pq : List Instr} (s : State) (start : Nat) (n : Nat) (h : Kept pq s) : Kept pq (zEventRead s start n).2 := by
  unfold zEventRead
  split
  · dsimp only
    exact h
  · split
    · dsimp only
      exact h

theorem closeSession_kept {pq : List Instr} (s : State) (i : Nat) (h : Kept pq s) : Kept pq (closeSession s i) := by
  unfold closeSession
  with_reducible apply updSession_kept
  exact h

theorem zAnnounce_kept {pq : List Instr} (s : State) (rq : ZReq) (stn : Nat) (sysId : Nat) (h : Kept pq s) : Kept pq (zAnnounce s rq stn sysId).2 := by
  unfold zAnnounce
  extract_lets +lift a1
  have h2 : Kept pq a1 := by
      unfold a1
      with_reducible apply markPeer_kept
      exact h
  clear_value a1
  split
  · dsimp only
    split
    · exact h2
    · with_reducible apply setRaise_kept
      exact h2
  · exact h2

theorem zWriteWords_kept {pq : List Instr} (owns : Bool) (l : List Word) (a k : Nat) (s : State) (h : Kept pq s) : Kept pq (zWriteWords owns l a k s).2.2 := by
  induction l generalizing s a k with
  | nil => exact h
  | cons w ws ih =>
    rw [zWriteWords]
    split
    · exact ih _ _ _ h
    · exact h
    · have hw := writeZcp_kept s owns a w.toNat h
      rcases hx : writeZcp s owns a w.toNat with ⟨c, s'⟩
      rw [hx] at hw
      dsimp only
      split
      · exact ih _ _ _ hw
      · exact hw

theorem zWriteReg_kept {pq : List Instr} (s : State) (owns : Bool) (a : Nat) (ws : List Word) (h : Kept pq s) : Kept pq (zWriteReg s owns a ws).2 := by
  unfold zWriteReg
  split
  · dsimp only
    exact h
  · split
    · rename_i x1 x2 x3 x4 x5
      have h6 : Kept pq x4 := by
          refine kept_trip x5 ?_
          with_reducible apply zWriteWords_kept
          exact h
      dsimp only
      exact h6

theorem zWriteMem_kept {pq : List Instr} (s : State) (a : Nat) (bs : List Byte) (h : Kept pq s) : Kept pq (zWriteMem s a bs).2 := by
  unfold zWriteMem
  extract_lets +lift a1 a2 a3
  split
  · dsimp only
    exact h
  · split
    · split
      · dsimp only
        exact h
      · split
        · dsimp only
          exact h
        · split
          · dsimp only
            exact h
          · split
            · dsimp only
              exact h
            · dsimp only
              with_reducible apply kept_foldl
              · exact h
              · intro v4 v5 v6
                with_reducible apply hostWord_kept
                exact v6
    · split
      · split
        · dsimp only
          exact h
        · split
          · dsimp only
            exact h
          · split
            · dsimp only
              exact h
            · dsimp only
              with_reducible apply kept_foldl
              · exact h
              · intro v7 v8 v9
                with_reducible apply hostBit_kept
                exact v9
      · dsimp only
        exact h

theorem zBusCancel_kept {pq : List Instr} (s : State) (n : Nat) (mask : Nat) (h : Kept pq s) : Kept pq (zBusCancel s n mask).2 := by
  unfold zBusCancel
  extract_lets +lift a1
  have h2 : Kept pq a1 := by
      unfold a1
      with_reducible apply canCancel_kept
      exact h
  clear_value a1
  split
  · dsimp only
    exact h
  · split
    · dsimp only
      exact h
    · dsimp only
      exact h2

theorem imgLand_kept {pq : List Instr} (s : State) (w : ImgWrite) (h : Kept pq s) : Kept pq (imgLand s w) := by
  unfold imgLand
  split
  · with_reducible apply kept_foldl
    · exact h
    · intro v1 v2 v3
      with_reducible apply writeWord_kept
      exact v3
  · with_reducible apply kept_foldl
    · exact h
    · intro v4 v5 v6
      with_reducible apply writeBit_kept
      exact v6

theorem zImgWrite_kept {pq : List Instr} (s : State) (w : ImgWrite) (h : Kept pq s) : Kept pq (zImgWrite s w).2 := by
  unfold zImgWrite
  extract_lets +lift a1 a2 a3
  split
  · dsimp only
    exact h
  · split
    · dsimp only
      with_reducible apply imgLand_kept
      exact h
    · split
      · split
        · dsimp only
          with_reducible apply setF_kept
          exact h
        · dsimp only
          with_reducible apply imgLand_kept
          exact kept_same h rfl rfl
      · dsimp only
        with_reducible apply imgLand_kept
        exact kept_same h rfl rfl

theorem zStage_kept {pq : List Instr} (s : State) (owns : Bool) (a : Nat) (ws : List Word) (h : Kept pq s) : Kept pq (zStage s owns a ws).2 := by
  unfold zStage
  split
  · dsimp only
    exact h
  · split
    · dsimp only
      with_reducible apply kept_foldl
      · exact h
      · intro v1 v2 v3
        with_reducible apply stageWord_kept
        exact v3
    · dsimp only
      exact h

theorem zLoadBankOpen_kept {pq : List Instr} (s : State) (b : Nat) (ver : Nat) (crc : Nat) (h : Kept pq s) : Kept pq (zLoadBankOpen s b ver crc).2 := by
  unfold zLoadBankOpen
  extract_lets +lift a1 a2
  have h3 : Kept pq a2 := by
      unfold a2
      exact kept_same h rfl rfl
  clear_value a2
  split
  · dsimp only
    exact h
  · split
    · dsimp only
      exact h
    · dsimp only
      with_reducible apply setF_kept
      with_reducible apply setPid_kept
      exact h3

theorem zLoadBankData_kept {pq : List Instr} (s : State) (i : Nat) (ws : List Word) (h : Kept pq s) : Kept pq (zLoadBankData s i ws).2 := by
  unfold zLoadBankData
  extract_lets +lift a1
  split
  · dsimp only
    exact h
  · split
    · dsimp only
      exact h
    · split
      · dsimp only
        exact h
      · dsimp only
        with_reducible apply setFs_kept
        with_reducible apply bankPuts_kept
        exact h

theorem zLoadBankClose_kept {pq : List Instr} (s : State) (act : Nat) (h : Kept pq s) : Kept pq (zLoadBankClose s act).2 := by
  unfold zLoadBankClose
  extract_lets +lift a1 a2
  have h3 : Kept pq a2 := by
      unfold a2
      exact kept_same h rfl rfl
  clear_value a2
  split
  · dsimp only
    exact h
  · split
    · dsimp only
      exact h
    · split
      · dsimp only
        exact h
      · split
        · dsimp only
          with_reducible apply setFs_kept
          exact h3
        · dsimp only
          exact h3

theorem putTable_kept {pq : List Instr} (s : State) (h : Kept pq s) : Kept pq (putTable s) := by
  unfold putTable
  extract_lets +lift a1 a2 a3 a4
  with_reducible apply eccWipe_kept
  exact kept_same h rfl rfl

theorem zLoadDtClose_kept {pq : List Instr} (s : State) (version : Nat) (h : Kept pq s) : Kept pq (zLoadDtClose s version).2 := by
  unfold zLoadDtClose
  extract_lets +lift a1 a2
  have h3 : Kept pq a2 := by
      unfold a2
      with_reducible apply tableActive_kept
      with_reducible apply setFs_kept
      with_reducible apply putTable_kept
      unfold a1
      extract_lets +lift a4
      exact kept_same h rfl rfl
  clear_value a2
  split
  · dsimp only
    unfold a1
    extract_lets +lift a5
    exact kept_same h rfl rfl
  · split
    · dsimp only
      unfold a1
      extract_lets +lift a6
      exact kept_same h rfl rfl
    · dsimp only
      exact h3

theorem zModeReq_kept {pq : List Instr} (s : State) (rq : ZReq) (m : Nat) (h : Kept pq s) : Kept pq (zModeReq s rq m).2 := by
  unfold zModeReq
  split
  · dsimp only
    exact h
  · split
    · dsimp only
      exact h
    · split
      · dsimp only
        exact h
      · rename_i x1 x2 x3 x4
        have h5 : Kept pq x3 := by
            refine opTake_kept x4 ?_
            exact h
        extract_lets +lift a6 a7
        have h8 : Kept pq a7 := by
            unfold a7
            split
            · exact h5
            · exact kept_same h5 rfl rfl
        clear_value a7
        split
        · rename_i x9 x10 x11
          have h12 : Kept pq x10 := by
              refine kept_pair x11 ?_
              with_reducible apply modeReq_kept
              exact h8
          split
          · dsimp only
            with_reducible apply opEnd_kept
            exact h12
          · dsimp only
            exact h12
        · rename_i x13 x14 x15 x16 x17
          have h18 : Kept pq x15 := by
              refine kept_pair x17 ?_
              with_reducible apply modeReq_kept
              exact h8
          dsimp only
          exact h

theorem zTimeSet_kept {pq : List Instr} (s : State) (hi : Nat) (lo : Nat) (ns : Nat) (unc : Nat) (h : Kept pq s) : Kept pq (zTimeSet s hi lo ns unc).2 := by
  unfold zTimeSet
  extract_lets +lift a1 a2 a3 a4 a5 a6 a7 a8
  have h9 : Kept pq a3 := by
      unfold a3
      with_reducible apply setUnc_kept
      with_reducible apply stepClock_kept
      exact h
  clear_value a3
  have h10 : Kept pq a5 := by
      unfold a5
      exact kept_same h9 rfl rfl
  clear_value a5
  have h11 : Kept pq a6 := by
      unfold a6
      with_reducible apply changeActive_kept
      exact h10
  clear_value a6
  split
  · exact h
  · split
    · exact h
    · split
      · dsimp only
        with_reducible apply reselect_kept
        exact kept_same h11 rfl rfl
      · split
        · dsimp only
          exact kept_same h10 rfl rfl
        · exact h10

theorem zSelftestRun_kept {pq : List Instr} (s : State) (rq : ZReq) (i : Nat) (h : Kept pq s) : Kept pq (zSelftestRun s rq i).2 := by
  unfold zSelftestRun
  split
  · dsimp only
    exact h
  · split
    · dsimp only
      exact h
    · split
      · dsimp only
        exact h
      · split
        · dsimp only
          exact h
        · rename_i x1 x2 x3 x4
          have h5 : Kept pq x3 := by
              refine opTake_kept x4 ?_
              exact h
          extract_lets +lift a6 a7 a8
          have h9 : Kept pq a7 := by
              unfold a7
              exact kept_same h5 rfl rfl
          clear_value a7
          split
          · dsimp only
            with_reducible apply opEnd_kept
            with_reducible apply stResult_kept
            exact h5
          · split
            · dsimp only
              exact kept_same h9 rfl rfl
            · dsimp only
              exact h9

theorem zExec_kept {pq : List Instr} (s : State) (rq : ZReq) (op : ZOp) (h : Kept pq s) : Kept pq (zExec s rq op).2 := by
  unfold zExec
  extract_lets +lift a1 a2 a3 a4
  split
  · with_reducible apply zIdentify_kept
    exact h
  · with_reducible apply zReadReg_kept
    exact h
  · with_reducible apply zReadMem_kept
    exact h
  · with_reducible apply zStageRead_kept
    exact h
  · with_reducible apply zOpStatus_kept
    exact h
  · with_reducible apply zAbort_kept
    exact h
  · with_reducible apply zJournalRead_kept
    exact h
  · with_reducible apply zEventRead_kept
    exact h
  · with_reducible apply zSessionOpen_kept
    exact h
  · dsimp only
    with_reducible apply closeSession_kept
    exact h
  · with_reducible apply zAnnounce_kept
    exact h
  · with_reducible apply zWriteReg_kept
    exact h
  · with_reducible apply zWriteMem_kept
    exact h
  · with_reducible apply zBusCancel_kept
    exact h
  · with_reducible apply zImgWrite_kept
    exact h
  · unfold a4
    dsimp only
    with_reducible apply txnBegin_kept
    exact h
  · with_reducible apply zStage_kept
    exact h
  · with_reducible apply zPrepare_kept
    exact h
  · with_reducible apply zCommit_kept
    exact h
  · split
    · dsimp only
      exact h
    · unfold a3
      dsimp only
      with_reducible apply txnRollback_kept
      exact h
  · with_reducible apply zUndo_kept
    exact h
  · with_reducible apply zSysCommit_kept
    exact h
  · with_reducible apply zSysPrepare_kept
    exact h
  · unfold a3
    dsimp only
    with_reducible apply sysCommitAt_kept
    exact h
  · unfold a3
    dsimp only
    with_reducible apply sysAbort_kept
    exact h
  · unfold a3
    dsimp only
    with_reducible apply sysReport_kept
    exact h
  · with_reducible apply zLoadBankOpen_kept
    exact h
  · with_reducible apply zLoadBankData_kept
    exact h
  · with_reducible apply zLoadBankClose_kept
    exact h
  · with_reducible apply zLoadDtData_kept
    exact h
  · with_reducible apply zLoadDtClose_kept
    exact h
  · unfold a4
    dsimp only
    with_reducible apply editBegin_kept
    exact h
  · unfold a3
    dsimp only
    with_reducible apply editPatch_kept
    exact h
  · with_reducible apply zModeReq_kept
    exact h
  · with_reducible apply zHandover_kept
    exact h
  · with_reducible apply zNvRead_kept
    exact h
  · with_reducible apply zNvErase_kept
    exact h
  · with_reducible apply zNvProgram_kept
    exact h
  · with_reducible apply zNvImageOpen_kept
    exact h
  · with_reducible apply zNvImageData_kept
    exact h
  · with_reducible apply zNvImageClose_kept
    exact h
  · with_reducible apply zNvSave_kept
    exact h
  · with_reducible apply zTimeSet_kept
    exact h
  · with_reducible apply zSelftestRun_kept
    exact h
  · dsimp only
    exact h

theorem zJournal_kept {pq : List Instr} (s0 : State) (s : State) (rq : ZReq) (code : Nat) (op : Option ZOp) (status : Nat) (h1 : Kept pq s0) (h2 : Kept pq s) : Kept pq (zJournal s0 s rq code op status) := by
  unfold zJournal
  extract_lets +lift a1 a2 a3
  have h4 : Kept pq a3 := by
      unfold a3
      with_reducible apply journalPut_kept
      exact kept_same h2 rfl rfl
  clear_value a3
  split
  · exact h2
  · exact kept_same h4 rfl rfl

theorem flushOut_kept {pq : List Instr} (s : State) (h : Kept pq s) : Kept pq (flushOut s) := by
  unfold flushOut
  extract_lets +lift a1
  with_reducible apply kept_foldl
  · exact kept_same h rfl rfl
  · intro v2 v3 v4
    split
    · with_reducible apply udpOut_kept
      exact v4
    · with_reducible apply udpOut_kept
      exact v4
    · with_reducible apply canSendZcp_kept
      exact v4
    · with_reducible apply canSendZcp_kept
      exact v4
    · split
      · exact v4
      · split
        · with_reducible apply pushSeq_kept
          exact v4
        · exact kept_same v4 rfl rfl
    · exact v4

theorem zAccept_kept {pq : List Instr} (s0 : State) (s : State) (rq : ZReq) (code : Nat) (slot : Nat) (h1 : Kept pq s0) (h2 : Kept pq s) : Kept pq (zAccept s0 s rq code slot) := by
  unfold zAccept
  extract_lets +lift a1 a2 a3 a4 a5 a6 a7
  have h8 : Kept pq a4 := by
      unfold a4
      with_reducible apply zcpReply_kept
      exact kept_same h2 rfl rfl
  clear_value a4
  have h9 : Kept pq a6 := by
      unfold a6
      split
      · with_reducible apply updOp_kept
        exact h8
      · exact h8
  clear_value a6
  exact kept_same h9 rfl rfl

theorem zFinish_kept {pq : List Instr} (s0 : State) (rq : ZReq) (code : Nat) (op : Option ZOp) (r : ZAns × State) (h : Kept pq s0) (hr : Kept pq r.2) : Kept pq (zFinish s0 rq code op r) := by
  unfold zFinish
  split
  · exact zcpReply_kept _ _ _ _ _ _ (zJournal_kept _ _ _ _ _ _ h hr)
  · exact zAccept_kept _ _ _ _ _ h (zJournal_kept _ _ _ _ _ _ h hr)
  · split
    · exact zJournal_kept _ _ _ _ _ _ h hr
    · exact hr
  · exact hr

theorem zRun_kept {pq : List Instr} (s : State) (rq : ZReq) (code : Nat) (op : Option ZOp) (h : Kept pq s) : Kept pq (zRun s rq code op) := by
  unfold zRun
  split
  · with_reducible apply zcpReply_kept
    exact h
  · extract_lets +lift a1
    split
    · with_reducible apply zFinish_kept
      · exact h
      · split
        · with_reducible apply zSysRefuse_kept
          exact h
        · exact h
    · split
      · with_reducible apply zFinish_kept
        · exact h
        · exact h
      · extract_lets +lift a2
        have h3 : Kept pq a2 := by
            unfold a2
            with_reducible apply zFinish_kept
            · exact h
            · with_reducible apply zExec_kept
              exact h
        clear_value a2
        split
        · with_reducible apply zFinish_kept
          · exact h
          · exact h
        · split
          · with_reducible apply resetSource_kept
            with_reducible apply flushOut_kept
            exact h3
          · exact h3

theorem zRequest_kept {pq : List Instr} (s : State) (rq : ZReq) (code : Nat) (op : Option ZOp) (h : Kept pq s) : Kept pq (zRequest s rq code op) := by
  unfold zRequest
  split
  · split
    · with_reducible apply zRun_kept
      exact h
    · with_reducible apply zcpReply_kept
      exact h
  · split
    · with_reducible apply zcpReply_kept
      exact h
    · extract_lets +lift a1 a2
      split
      · with_reducible apply zRun_kept
        with_reducible apply updSession_kept
        exact h
      · split
        · with_reducible apply sendPacket_kept
          exact h
        · split
          · exact h
          · with_reducible apply sendPacket_kept
            with_reducible apply incStop_kept
            exact h

theorem runHeld_kept {pq : List Instr} (s : State) (h : Kept pq s) : Kept pq (runHeld s) := by
  unfold runHeld
  extract_lets +lift a1
  split
  · exact h
  · with_reducible apply kept_foldl
    · exact kept_same h rfl rfl
    · intro v2 v3 v4
      with_reducible apply flushOut_kept
      with_reducible apply zRequest_kept
      exact v4

theorem takePacket_kept {pq : List Instr} (s : State) (p : ZPacket) (h : Kept pq s) : Kept pq (takePacket s p) := by
  unfold takePacket
  split
  · with_reducible apply incStop_kept
    exact h
  · with_reducible apply incStop_kept
    exact h
  · split
    · with_reducible apply replyMatch_kept
      exact h
    · split
      · with_reducible apply sendPacket_kept
        exact h
      · with_reducible apply zRequest_kept
        exact h

theorem execZcpRequestTake_kept {pq : List Instr} (s : State) (h : Kept pq s) :
    ∃ s', execZcpRequestTake s = .next s' ∧ Kept pq s' := by
  unfold execZcpRequestTake
  refine ⟨_, rfl, ?_⟩
  extract_lets +lift a1 a2
  have h3 : Kept pq a1 := by
      unfold a1
      with_reducible apply runHeld_kept
      exact h
  clear_value a1
  split
  · exact h
  · split
    · exact h3
    · split
      · exact h3
      · split
        · exact kept_same h3 rfl rfl
        · split
          · with_reducible apply wakeSource_kept
            exact h3
          · with_reducible apply flushOut_kept
            with_reducible apply takePacket_kept
            exact kept_same h3 rfl rfl

theorem execSessionTimeout_kept {pq : List Instr} (slot : Nat) (s : State) (h : Kept pq s) :
    ∃ s', execSessionTimeout slot s = .next s' ∧ Kept pq s' := by
  unfold execSessionTimeout
  refine ⟨_, rfl, ?_⟩
  split
  · exact h
  · with_reducible apply closeSession_kept
    exact h

theorem execAnnounceSend_kept {pq : List Instr} (s : State) (h : Kept pq s) :
    ∃ s', execAnnounceSend s = .next s' ∧ Kept pq s' := by
  unfold execAnnounceSend
  refine ⟨_, rfl, ?_⟩
  extract_lets +lift a1 a2 a3 a4 a5
  split
  · exact h
  · unfold a4
    extract_lets +lift a6 a7 a8 a9
    split
    · split
      · exact kept_same h rfl rfl
      · with_reducible apply sysSend_kept
        exact kept_same h rfl rfl
    · split
      · with_reducible apply sysSend_kept
        exact kept_same h rfl rfl
      · with_reducible apply sysSend_kept
        with_reducible apply sysSend_kept
        exact kept_same h rfl rfl

theorem zcpRow_kept {pq : List Instr} (s : State) (rq : ZReq) (op : ZOp) (h : Kept pq s) : Kept pq (zcpRow s rq op) := by
  unfold zcpRow
  extract_lets +lift a1 a2
  have h3 : Kept pq a2 := by
      unfold a2
      with_reducible apply runHeld_kept
      exact h
  clear_value a2
  split
  · exact h
  · split
    · with_reducible apply wakeSource_kept
      exact kept_same h rfl rfl
    · with_reducible apply flushOut_kept
      with_reducible apply zRequest_kept
      exact h3

theorem unlinkOp_kept {pq : List Instr} (s : State) (i : Nat) (h : Kept pq s) : Kept pq (unlinkOp s i) := by
  unfold unlinkOp
  extract_lets +lift a1 a2 a3 a4 a5
  exact kept_same h rfl rfl

theorem execOpSlotExpiry_kept {pq : List Instr} (i : Nat) (s : State) (h : Kept pq s) :
    ∃ s', execOpSlotExpiry i s = .next s' ∧ Kept pq s' := by
  unfold execOpSlotExpiry
  refine ⟨_, rfl, ?_⟩
  split
  · exact h
  · with_reducible apply updOp_kept
    exact h

theorem execLongOpComplete_kept {pq : List Instr} (i : Nat) (status : Nat) (s : State) (h : Kept pq s) :
    ∃ s', execLongOpComplete i status s = .next s' ∧ Kept pq s' := by
  unfold execLongOpComplete
  refine ⟨_, rfl, ?_⟩
  extract_lets +lift a1 a2
  split
  · exact h
  · with_reducible apply flushOut_kept
    split
    · with_reducible apply coordEnd_kept
      exact h
    · with_reducible apply opEnd_kept
      with_reducible apply unlinkOp_kept
      exact h

theorem execZcpReadReg_kept {pq : List Instr} (rq : ZReq) (addr : Nat) (n : Nat) (s : State) (h : Kept pq s) :
    ∃ s', execZcpReadReg rq addr n s = .next s' ∧ Kept pq s' := by
  unfold execZcpReadReg
  refine ⟨_, rfl, ?_⟩
  with_reducible apply zcpRow_kept
  exact h

theorem execZcpStage_kept {pq : List Instr} (rq : ZReq) (addr : Nat) (ws : List Word) (s : State) (h : Kept pq s) :
    ∃ s', execZcpStage rq addr ws s = .next s' ∧ Kept pq s' := by
  unfold execZcpStage
  refine ⟨_, rfl, ?_⟩
  with_reducible apply zcpRow_kept
  exact h

theorem execZcpLoadBankOpen_kept {pq : List Instr} (rq : ZReq) (bank : Nat) (ver : Nat) (crc : Nat) (s : State) (h : Kept pq s) :
    ∃ s', execZcpLoadBankOpen rq bank ver crc s = .next s' ∧ Kept pq s' := by
  unfold execZcpLoadBankOpen
  refine ⟨_, rfl, ?_⟩
  with_reducible apply zcpRow_kept
  exact h

theorem execZcpAbort_kept {pq : List Instr} (rq : ZReq) (handle : Nat) (s : State) (h : Kept pq s) :
    ∃ s', execZcpAbort rq handle s = .next s' ∧ Kept pq s' := by
  unfold execZcpAbort
  refine ⟨_, rfl, ?_⟩
  with_reducible apply zcpRow_kept
  exact h

theorem execZcpSessionOpen_kept {pq : List Instr} (rq : ZReq) (s : State) (h : Kept pq s) :
    ∃ s', execZcpSessionOpen rq s = .next s' ∧ Kept pq s' := by
  unfold execZcpSessionOpen
  refine ⟨_, rfl, ?_⟩
  with_reducible apply zcpRow_kept
  exact h

theorem execZcpSysPrepare_kept {pq : List Instr} (rq : ZReq) (systxn : Nat) (sysId : Nat) (dirCrc : Nat) (kind : Nat) (tS : Nat) (tNs : Nat) (a : Nat) (s : State) (h : Kept pq s) :
    ∃ s', execZcpSysPrepare rq systxn sysId dirCrc kind tS tNs a s = .next s' ∧ Kept pq s' := by
  unfold execZcpSysPrepare
  refine ⟨_, rfl, ?_⟩
  with_reducible apply zcpRow_kept
  exact h

theorem execZcpWriteMem_kept {pq : List Instr} (rq : ZReq) (addr : Nat) (bytes : List Byte) (s : State) (h : Kept pq s) :
    ∃ s', execZcpWriteMem rq addr bytes s = .next s' ∧ Kept pq s' := by
  unfold execZcpWriteMem
  refine ⟨_, rfl, ?_⟩
  with_reducible apply zcpRow_kept
  exact h

theorem execZcpSelftestRun_kept {pq : List Instr} (rq : ZReq) (index : Nat) (s : State) (h : Kept pq s) :
    ∃ s', execZcpSelftestRun rq index s = .next s' ∧ Kept pq s' := by
  unfold execZcpSelftestRun
  refine ⟨_, rfl, ?_⟩
  with_reducible apply zcpRow_kept
  exact h

theorem execZcpPrepare_kept {pq : List Instr} (rq : ZReq) (s : State) (h : Kept pq s) :
    ∃ s', execZcpPrepare rq s = .next s' ∧ Kept pq s' := by
  unfold execZcpPrepare
  refine ⟨_, rfl, ?_⟩
  with_reducible apply zcpRow_kept
  exact h

theorem execZcpSysCommit_kept {pq : List Instr} (rq : ZReq) (systxn : Nat) (kind : Nat) (tS : Nat) (tNs : Nat) (a : Nat) (mask : List Nat) (s : State) (h : Kept pq s) :
    ∃ s', execZcpSysCommit rq systxn kind tS tNs a mask s = .next s' ∧ Kept pq s' := by
  unfold execZcpSysCommit
  refine ⟨_, rfl, ?_⟩
  with_reducible apply zcpRow_kept
  exact h

theorem execZcpSysCommitAt_kept {pq : List Instr} (rq : ZReq) (systxn : Nat) (kind : Nat) (tS : Nat) (tNs : Nat) (a : Nat) (s : State) (h : Kept pq s) :
    ∃ s', execZcpSysCommitAt rq systxn kind tS tNs a s = .next s' ∧ Kept pq s' := by
  unfold execZcpSysCommitAt
  refine ⟨_, rfl, ?_⟩
  with_reducible apply zcpRow_kept
  exact h

theorem execZcpModeReq_kept {pq : List Instr} (rq : ZReq) (mode : Nat) (s : State) (h : Kept pq s) :
    ∃ s', execZcpModeReq rq mode s = .next s' ∧ Kept pq s' := by
  unfold execZcpModeReq
  refine ⟨_, rfl, ?_⟩
  with_reducible apply zcpRow_kept
  exact h

theorem execZcpReadMem_kept {pq : List Instr} (rq : ZReq) (addr : Nat) (len : Nat) (s : State) (h : Kept pq s) :
    ∃ s', execZcpReadMem rq addr len s = .next s' ∧ Kept pq s' := by
  unfold execZcpReadMem
  refine ⟨_, rfl, ?_⟩
  with_reducible apply zcpRow_kept
  exact h

theorem execZcpStageRead_kept {pq : List Instr} (rq : ZReq) (addr : Nat) (n : Nat) (s : State) (h : Kept pq s) :
    ∃ s', execZcpStageRead rq addr n s = .next s' ∧ Kept pq s' := by
  unfold execZcpStageRead
  refine ⟨_, rfl, ?_⟩
  with_reducible apply zcpRow_kept
  exact h

theorem execZcpLoadBankClose_kept {pq : List Instr} (rq : ZReq) (activate : Nat) (s : State) (h : Kept pq s) :
    ∃ s', execZcpLoadBankClose rq activate s = .next s' ∧ Kept pq s' := by
  unfold execZcpLoadBankClose
  refine ⟨_, rfl, ?_⟩
  with_reducible apply zcpRow_kept
  exact h

theorem execZcpLoadDtData_kept {pq : List Instr} (rq : ZReq) (entry : Nat) (ws : List Word) (s : State) (h : Kept pq s) :
    ∃ s', execZcpLoadDtData rq entry ws s = .next s' ∧ Kept pq s' := by
  unfold execZcpLoadDtData
  refine ⟨_, rfl, ?_⟩
  with_reducible apply zcpRow_kept
  exact h

theorem execZcpEventRead_kept {pq : List Instr} (rq : ZReq) (start : Nat) (n : Nat) (s : State) (h : Kept pq s) :
    ∃ s', execZcpEventRead rq start n s = .next s' ∧ Kept pq s' := by
  unfold execZcpEventRead
  refine ⟨_, rfl, ?_⟩
  with_reducible apply zcpRow_kept
  exact h

theorem execZcpRollback_kept {pq : List Instr} (rq : ZReq) (force : Nat) (s : State) (h : Kept pq s) :
    ∃ s', execZcpRollback rq force s = .next s' ∧ Kept pq s' := by
  unfold execZcpRollback
  refine ⟨_, rfl, ?_⟩
  with_reducible apply zcpRow_kept
  exact h

theorem execZcpHandover_kept {pq : List Instr} (rq : ZReq) (s : State) (h : Kept pq s) :
    ∃ s', execZcpHandover rq s = .next s' ∧ Kept pq s' := by
  unfold execZcpHandover
  refine ⟨_, rfl, ?_⟩
  with_reducible apply zcpRow_kept
  exact h

theorem execZcpNvImageClose_kept {pq : List Instr} (rq : ZReq) (s : State) (h : Kept pq s) :
    ∃ s', execZcpNvImageClose rq s = .next s' ∧ Kept pq s' := by
  unfold execZcpNvImageClose
  refine ⟨_, rfl, ?_⟩
  with_reducible apply zcpRow_kept
  exact h

theorem execZcpNvErase_kept {pq : List Instr} (rq : ZReq) (addr : Nat) (len : Nat) (s : State) (h : Kept pq s) :
    ∃ s', execZcpNvErase rq addr len s = .next s' ∧ Kept pq s' := by
  unfold execZcpNvErase
  refine ⟨_, rfl, ?_⟩
  with_reducible apply zcpRow_kept
  exact h

theorem execZcpLoadDtClose_kept {pq : List Instr} (rq : ZReq) (version : Nat) (s : State) (h : Kept pq s) :
    ∃ s', execZcpLoadDtClose rq version s = .next s' ∧ Kept pq s' := by
  unfold execZcpLoadDtClose
  refine ⟨_, rfl, ?_⟩
  with_reducible apply zcpRow_kept
  exact h

theorem execZcpNvRead_kept {pq : List Instr} (rq : ZReq) (addr : Nat) (len : Nat) (s : State) (h : Kept pq s) :
    ∃ s', execZcpNvRead rq addr len s = .next s' ∧ Kept pq s' := by
  unfold execZcpNvRead
  refine ⟨_, rfl, ?_⟩
  with_reducible apply zcpRow_kept
  exact h

theorem execZcpNvSave_kept {pq : List Instr} (rq : ZReq) (s : State) (h : Kept pq s) :
    ∃ s', execZcpNvSave rq s = .next s' ∧ Kept pq s' := by
  unfold execZcpNvSave
  refine ⟨_, rfl, ?_⟩
  with_reducible apply zcpRow_kept
  exact h

theorem execZcpOpStatus_kept {pq : List Instr} (rq : ZReq) (handle : Nat) (s : State) (h : Kept pq s) :
    ∃ s', execZcpOpStatus rq handle s = .next s' ∧ Kept pq s' := by
  unfold execZcpOpStatus
  refine ⟨_, rfl, ?_⟩
  with_reducible apply zcpRow_kept
  exact h

theorem execZcpNvImageOpen_kept {pq : List Instr} (rq : ZReq) (slot : Nat) (len : Nat) (crc : Nat) (s : State) (h : Kept pq s) :
    ∃ s', execZcpNvImageOpen rq slot len crc s = .next s' ∧ Kept pq s' := by
  unfold execZcpNvImageOpen
  refine ⟨_, rfl, ?_⟩
  with_reducible apply zcpRow_kept
  exact h

theorem execZcpEditBegin_kept {pq : List Instr} (rq : ZReq) (persist : Nat) (keep : Nat) (ver : Nat) (crc : Nat) (s : State) (h : Kept pq s) :
    ∃ s', execZcpEditBegin rq persist keep ver crc s = .next s' ∧ Kept pq s' := by
  unfold execZcpEditBegin
  refine ⟨_, rfl, ?_⟩
  with_reducible apply zcpRow_kept
  exact h

theorem execZcpReset_kept {pq : List Instr} (rq : ZReq) (s : State) (h : Kept pq s) :
    ∃ s', execZcpReset rq s = .next s' ∧ Kept pq s' := by
  unfold execZcpReset
  refine ⟨_, rfl, ?_⟩
  with_reducible apply zcpRow_kept
  exact h

theorem execZcpUndo_kept {pq : List Instr} (rq : ZReq) (s : State) (h : Kept pq s) :
    ∃ s', execZcpUndo rq s = .next s' ∧ Kept pq s' := by
  unfold execZcpUndo
  refine ⟨_, rfl, ?_⟩
  with_reducible apply zcpRow_kept
  exact h

theorem execZcpCommit_kept {pq : List Instr} (rq : ZReq) (kind : Nat) (when0 : Nat) (when1 : Nat) (s : State) (h : Kept pq s) :
    ∃ s', execZcpCommit rq kind when0 when1 s = .next s' ∧ Kept pq s' := by
  unfold execZcpCommit
  refine ⟨_, rfl, ?_⟩
  with_reducible apply zcpRow_kept
  exact h

theorem execZcpSysAbort_kept {pq : List Instr} (rq : ZReq) (systxn : Nat) (s : State) (h : Kept pq s) :
    ∃ s', execZcpSysAbort rq systxn s = .next s' ∧ Kept pq s' := by
  unfold execZcpSysAbort
  refine ⟨_, rfl, ?_⟩
  with_reducible apply zcpRow_kept
  exact h

theorem execZcpAnnounce_kept {pq : List Instr} (rq : ZReq) (stn : Nat) (sysId : Nat) (dirCrc : Nat) (mode : Nat) (epoch : Nat) (mac : Nat) (s : State) (h : Kept pq s) :
    ∃ s', execZcpAnnounce rq stn sysId dirCrc mode epoch mac s = .next s' ∧ Kept pq s' := by
  unfold execZcpAnnounce
  refine ⟨_, rfl, ?_⟩
  with_reducible apply zcpRow_kept
  exact h

theorem execZcpLoadBankData_kept {pq : List Instr} (rq : ZReq) (index : Nat) (ws : List Word) (s : State) (h : Kept pq s) :
    ∃ s', execZcpLoadBankData rq index ws s = .next s' ∧ Kept pq s' := by
  unfold execZcpLoadBankData
  refine ⟨_, rfl, ?_⟩
  with_reducible apply zcpRow_kept
  exact h

theorem execZcpImgWrite_kept {pq : List Instr} (rq : ZReq) (w : ImgWrite) (s : State) (h : Kept pq s) :
    ∃ s', execZcpImgWrite rq w s = .next s' ∧ Kept pq s' := by
  unfold execZcpImgWrite
  refine ⟨_, rfl, ?_⟩
  with_reducible apply zcpRow_kept
  exact h

theorem execZcpBegin_kept {pq : List Instr} (rq : ZReq) (persist : Nat) (systxn : Nat) (s : State) (h : Kept pq s) :
    ∃ s', execZcpBegin rq persist systxn s = .next s' ∧ Kept pq s' := by
  unfold execZcpBegin
  refine ⟨_, rfl, ?_⟩
  with_reducible apply zcpRow_kept
  exact h

theorem execZcpTimeSet_kept {pq : List Instr} (rq : ZReq) (secHi : Nat) (secLo : Nat) (ns : Nat) (unc : Nat) (s : State) (h : Kept pq s) :
    ∃ s', execZcpTimeSet rq secHi secLo ns unc s = .next s' ∧ Kept pq s' := by
  unfold execZcpTimeSet
  refine ⟨_, rfl, ?_⟩
  with_reducible apply zcpRow_kept
  exact h

theorem execZcpSessionClose_kept {pq : List Instr} (rq : ZReq) (s : State) (h : Kept pq s) :
    ∃ s', execZcpSessionClose rq s = .next s' ∧ Kept pq s' := by
  unfold execZcpSessionClose
  refine ⟨_, rfl, ?_⟩
  with_reducible apply zcpRow_kept
  exact h

theorem execZcpWriteReg_kept {pq : List Instr} (rq : ZReq) (addr : Nat) (ws : List Word) (s : State) (h : Kept pq s) :
    ∃ s', execZcpWriteReg rq addr ws s = .next s' ∧ Kept pq s' := by
  unfold execZcpWriteReg
  refine ⟨_, rfl, ?_⟩
  with_reducible apply zcpRow_kept
  exact h

theorem execZcpEditPatch_kept {pq : List Instr} (rq : ZReq) (index : Nat) (ws : List Word) (ranges : List NewVar) (s : State) (h : Kept pq s) :
    ∃ s', execZcpEditPatch rq index ws ranges s = .next s' ∧ Kept pq s' := by
  unfold execZcpEditPatch
  refine ⟨_, rfl, ?_⟩
  with_reducible apply zcpRow_kept
  exact h

theorem execZcpBusCancel_kept {pq : List Instr} (rq : ZReq) (n : Nat) (mask : Nat) (s : State) (h : Kept pq s) :
    ∃ s', execZcpBusCancel rq n mask s = .next s' ∧ Kept pq s' := by
  unfold execZcpBusCancel
  refine ⟨_, rfl, ?_⟩
  with_reducible apply zcpRow_kept
  exact h

theorem execZcpJournalRead_kept {pq : List Instr} (rq : ZReq) (start : Nat) (n : Nat) (s : State) (h : Kept pq s) :
    ∃ s', execZcpJournalRead rq start n s = .next s' ∧ Kept pq s' := by
  unfold execZcpJournalRead
  refine ⟨_, rfl, ?_⟩
  with_reducible apply zcpRow_kept
  exact h

theorem execZcpNvProgram_kept {pq : List Instr} (rq : ZReq) (addr : Nat) (bytes : List Byte) (s : State) (h : Kept pq s) :
    ∃ s', execZcpNvProgram rq addr bytes s = .next s' ∧ Kept pq s' := by
  unfold execZcpNvProgram
  refine ⟨_, rfl, ?_⟩
  with_reducible apply zcpRow_kept
  exact h

theorem execZcpNvImageData_kept {pq : List Instr} (rq : ZReq) (offset : Nat) (bytes : List Byte) (s : State) (h : Kept pq s) :
    ∃ s', execZcpNvImageData rq offset bytes s = .next s' ∧ Kept pq s' := by
  unfold execZcpNvImageData
  refine ⟨_, rfl, ?_⟩
  with_reducible apply zcpRow_kept
  exact h

theorem execZcpIdentify_kept {pq : List Instr} (rq : ZReq) (s : State) (h : Kept pq s) :
    ∃ s', execZcpIdentify rq s = .next s' ∧ Kept pq s' := by
  unfold execZcpIdentify
  refine ⟨_, rfl, ?_⟩
  with_reducible apply zcpRow_kept
  exact h

theorem execZcpSysReport_kept {pq : List Instr} (rq : ZReq) (systxn : Nat) (stn : Nat) (outcome : Nat) (s : State) (h : Kept pq s) :
    ∃ s', execZcpSysReport rq systxn stn outcome s = .next s' ∧ Kept pq s' := by
  unfold execZcpSysReport
  refine ⟨_, rfl, ?_⟩
  with_reducible apply zcpRow_kept
  exact h

theorem tick_kept {pq : List Instr} (s : State) (h : Kept pq s) : Kept pq (tick s) := by
  unfold tick
  split
  · exact h
  · split
    · with_reducible apply clockAdvance_kept
      exact h
    · with_reducible apply softErrors_kept
      with_reducible apply flushOut_kept
      with_reducible apply runHeld_kept
      with_reducible apply holdNext_kept
      with_reducible apply coreCycle_kept
      exact h

end Sys2Proof.Machine
end

