-- ==== Sys2Proof/Laws/State.lean ====
section
/-! SUPPORT. What each update of the state leaves alone: one lemma per field per update, so that no proof unfolds a record
update. -/

namespace Sys2Proof.Machine

/-! ## One register field -/

@[simp] theorem setF_mode (s : State) (f : Fld) (v : Nat) : (setF s f v).mode = s.mode := rfl
@[simp] theorem setF_ms (s : State) (f : Fld) (v : Nat) : (setF s f v).ms = s.ms := rfl
@[simp] theorem setF_time (s : State) (f : Fld) (v : Nat) : (setF s f v).time = s.time := rfl
@[simp] theorem setF_plumb (s : State) (f : Fld) (v : Nat) : (setF s f v).plumb = s.plumb := rfl
@[simp] theorem setF_sp (s : State) (f : Fld) (v : Nat) : (setF s f v).sp = s.sp := rfl
@[simp] theorem setF_zcp (s : State) (f : Fld) (v : Nat) : (setF s f v).zcp = s.zcp := rfl
@[simp] theorem setF_core (s : State) (f : Fld) (v : Nat) : (setF s f v).core = s.core := rfl
@[simp] theorem setF_scan (s : State) (f : Fld) (v : Nat) : (setF s f v).scan = s.scan := rfl
@[simp] theorem setF_txn (s : State) (f : Fld) (v : Nat) : (setF s f v).txn = s.txn := rfl
@[simp] theorem setF_sby (s : State) (f : Fld) (v : Nat) : (setF s f v).sby = s.sby := rfl
@[simp] theorem setF_cls (s : State) (f : Fld) (v : Nat) : (setF s f v).cls = s.cls := rfl
@[simp] theorem setF_egr (s : State) (f : Fld) (v : Nat) : (setF s f v).egr = s.egr := rfl
@[simp] theorem setF_can (s : State) (f : Fld) (v : Nat) : (setF s f v).can = s.can := rfl
@[simp] theorem setF_fld (s : State) (f : Fld) (v : Nat) : (setF s f v).fld = s.fld := rfl
@[simp] theorem setF_phm (s : State) (f : Fld) (v : Nat) : (setF s f v).phm = s.phm := rfl
@[simp] theorem setF_cal (s : State) (f : Fld) (v : Nat) : (setF s f v).cal = s.cal := rfl
@[simp] theorem setF_pwr (s : State) (f : Fld) (v : Nat) : (setF s f v).pwr = s.pwr := rfl
@[simp] theorem setF_trc (s : State) (f : Fld) (v : Nat) : (setF s f v).trc = s.trc := rfl
@[simp] theorem setF_tap (s : State) (f : Fld) (v : Nat) : (setF s f v).tap = s.tap := rfl
@[simp] theorem setF_nv (s : State) (f : Fld) (v : Nat) : (setF s f v).nv = s.nv := rfl
@[simp] theorem setF_pins (s : State) (f : Fld) (v : Nat) : (setF s f v).pins = s.pins := rfl
@[simp] theorem setF_pulses (s : State) (f : Fld) (v : Nat) : (setF s f v).pulses = s.pulses := rfl
@[simp] theorem setF_latches (s : State) (f : Fld) (v : Nat) : (setF s f v).latches = s.latches := rfl
@[simp] theorem setF_pulsesPrev (s : State) (f : Fld) (v : Nat) : (setF s f v).pulsesPrev = s.pulsesPrev := rfl
@[simp] theorem setF_freeCtr (s : State) (f : Fld) (v : Nat) : (setF s f v).freeCtr = s.freeCtr := rfl
@[simp] theorem setF_pending (s : State) (f : Fld) (v : Nat) : (setF s f v).pending = s.pending := rfl

/-! ## Several register fields -/

@[simp] theorem setFs_mode (s : State) (l : List (Fld × Nat)) : (setFs s l).mode = s.mode := by
  induction l generalizing s with
  | nil => rfl
  | cons p t ih => exact ih _
@[simp] theorem setFs_ms (s : State) (l : List (Fld × Nat)) : (setFs s l).ms = s.ms := by
  induction l generalizing s with
  | nil => rfl
  | cons p t ih => exact ih _
@[simp] theorem setFs_time (s : State) (l : List (Fld × Nat)) : (setFs s l).time = s.time := by
  induction l generalizing s with
  | nil => rfl
  | cons p t ih => exact ih _
@[simp] theorem setFs_plumb (s : State) (l : List (Fld × Nat)) : (setFs s l).plumb = s.plumb := by
  induction l generalizing s with
  | nil => rfl
  | cons p t ih => exact ih _
@[simp] theorem setFs_sp (s : State) (l : List (Fld × Nat)) : (setFs s l).sp = s.sp := by
  induction l generalizing s with
  | nil => rfl
  | cons p t ih => exact ih _
@[simp] theorem setFs_zcp (s : State) (l : List (Fld × Nat)) : (setFs s l).zcp = s.zcp := by
  induction l generalizing s with
  | nil => rfl
  | cons p t ih => exact ih _
@[simp] theorem setFs_core (s : State) (l : List (Fld × Nat)) : (setFs s l).core = s.core := by
  induction l generalizing s with
  | nil => rfl
  | cons p t ih => exact ih _
@[simp] theorem setFs_scan (s : State) (l : List (Fld × Nat)) : (setFs s l).scan = s.scan := by
  induction l generalizing s with
  | nil => rfl
  | cons p t ih => exact ih _
@[simp] theorem setFs_txn (s : State) (l : List (Fld × Nat)) : (setFs s l).txn = s.txn := by
  induction l generalizing s with
  | nil => rfl
  | cons p t ih => exact ih _
@[simp] theorem setFs_sby (s : State) (l : List (Fld × Nat)) : (setFs s l).sby = s.sby := by
  induction l generalizing s with
  | nil => rfl
  | cons p t ih => exact ih _
@[simp] theorem setFs_cls (s : State) (l : List (Fld × Nat)) : (setFs s l).cls = s.cls := by
  induction l generalizing s with
  | nil => rfl
  | cons p t ih => exact ih _
@[simp] theorem setFs_egr (s : State) (l : List (Fld × Nat)) : (setFs s l).egr = s.egr := by
  induction l generalizing s with
  | nil => rfl
  | cons p t ih => exact ih _
@[simp] theorem setFs_can (s : State) (l : List (Fld × Nat)) : (setFs s l).can = s.can := by
  induction l generalizing s with
  | nil => rfl
  | cons p t ih => exact ih _
@[simp] theorem setFs_fld (s : State) (l : List (Fld × Nat)) : (setFs s l).fld = s.fld := by
  induction l generalizing s with
  | nil => rfl
  | cons p t ih => exact ih _
@[simp] theorem setFs_phm (s : State) (l : List (Fld × Nat)) : (setFs s l).phm = s.phm := by
  induction l generalizing s with
  | nil => rfl
  | cons p t ih => exact ih _
@[simp] theorem setFs_cal (s : State) (l : List (Fld × Nat)) : (setFs s l).cal = s.cal := by
  induction l generalizing s with
  | nil => rfl
  | cons p t ih => exact ih _
@[simp] theorem setFs_pwr (s : State) (l : List (Fld × Nat)) : (setFs s l).pwr = s.pwr := by
  induction l generalizing s with
  | nil => rfl
  | cons p t ih => exact ih _
@[simp] theorem setFs_trc (s : State) (l : List (Fld × Nat)) : (setFs s l).trc = s.trc := by
  induction l generalizing s with
  | nil => rfl
  | cons p t ih => exact ih _
@[simp] theorem setFs_tap (s : State) (l : List (Fld × Nat)) : (setFs s l).tap = s.tap := by
  induction l generalizing s with
  | nil => rfl
  | cons p t ih => exact ih _
@[simp] theorem setFs_nv (s : State) (l : List (Fld × Nat)) : (setFs s l).nv = s.nv := by
  induction l generalizing s with
  | nil => rfl
  | cons p t ih => exact ih _
@[simp] theorem setFs_pins (s : State) (l : List (Fld × Nat)) : (setFs s l).pins = s.pins := by
  induction l generalizing s with
  | nil => rfl
  | cons p t ih => exact ih _
@[simp] theorem setFs_pulses (s : State) (l : List (Fld × Nat)) : (setFs s l).pulses = s.pulses := by
  induction l generalizing s with
  | nil => rfl
  | cons p t ih => exact ih _
@[simp] theorem setFs_latches (s : State) (l : List (Fld × Nat)) : (setFs s l).latches = s.latches := by
  induction l generalizing s with
  | nil => rfl
  | cons p t ih => exact ih _
@[simp] theorem setFs_pulsesPrev (s : State) (l : List (Fld × Nat)) : (setFs s l).pulsesPrev = s.pulsesPrev := by
  induction l generalizing s with
  | nil => rfl
  | cons p t ih => exact ih _
@[simp] theorem setFs_freeCtr (s : State) (l : List (Fld × Nat)) : (setFs s l).freeCtr = s.freeCtr := by
  induction l generalizing s with
  | nil => rfl
  | cons p t ih => exact ih _
@[simp] theorem setFs_pending (s : State) (l : List (Fld × Nat)) : (setFs s l).pending = s.pending := by
  induction l generalizing s with
  | nil => rfl
  | cons p t ih => exact ih _

/-! ## Counters -/

@[simp] theorem incSat_mode (s : State) (f g : Fld) : (incSat s f g).mode = s.mode := by unfold incSat; split <;> rfl
@[simp] theorem incSat_ms (s : State) (f g : Fld) : (incSat s f g).ms = s.ms := by unfold incSat; split <;> rfl
@[simp] theorem incSat_time (s : State) (f g : Fld) : (incSat s f g).time = s.time := by unfold incSat; split <;> rfl
@[simp] theorem incSat_plumb (s : State) (f g : Fld) : (incSat s f g).plumb = s.plumb := by unfold incSat; split <;> rfl
@[simp] theorem incSat_sp (s : State) (f g : Fld) : (incSat s f g).sp = s.sp := by unfold incSat; split <;> rfl
@[simp] theorem incSat_zcp (s : State) (f g : Fld) : (incSat s f g).zcp = s.zcp := by unfold incSat; split <;> rfl
@[simp] theorem incSat_core (s : State) (f g : Fld) : (incSat s f g).core = s.core := by unfold incSat; split <;> rfl
@[simp] theorem incSat_scan (s : State) (f g : Fld) : (incSat s f g).scan = s.scan := by unfold incSat; split <;> rfl
@[simp] theorem incSat_txn (s : State) (f g : Fld) : (incSat s f g).txn = s.txn := by unfold incSat; split <;> rfl
@[simp] theorem incSat_sby (s : State) (f g : Fld) : (incSat s f g).sby = s.sby := by unfold incSat; split <;> rfl
@[simp] theorem incSat_cls (s : State) (f g : Fld) : (incSat s f g).cls = s.cls := by unfold incSat; split <;> rfl
@[simp] theorem incSat_egr (s : State) (f g : Fld) : (incSat s f g).egr = s.egr := by unfold incSat; split <;> rfl
@[simp] theorem incSat_can (s : State) (f g : Fld) : (incSat s f g).can = s.can := by unfold incSat; split <;> rfl
@[simp] theorem incSat_fld (s : State) (f g : Fld) : (incSat s f g).fld = s.fld := by unfold incSat; split <;> rfl
@[simp] theorem incSat_phm (s : State) (f g : Fld) : (incSat s f g).phm = s.phm := by unfold incSat; split <;> rfl
@[simp] theorem incSat_cal (s : State) (f g : Fld) : (incSat s f g).cal = s.cal := by unfold incSat; split <;> rfl
@[simp] theorem incSat_pwr (s : State) (f g : Fld) : (incSat s f g).pwr = s.pwr := by unfold incSat; split <;> rfl
@[simp] theorem incSat_trc (s : State) (f g : Fld) : (incSat s f g).trc = s.trc := by unfold incSat; split <;> rfl
@[simp] theorem incSat_tap (s : State) (f g : Fld) : (incSat s f g).tap = s.tap := by unfold incSat; split <;> rfl
@[simp] theorem incSat_nv (s : State) (f g : Fld) : (incSat s f g).nv = s.nv := by unfold incSat; split <;> rfl
@[simp] theorem incSat_pins (s : State) (f g : Fld) : (incSat s f g).pins = s.pins := by unfold incSat; split <;> rfl
@[simp] theorem incSat_pulses (s : State) (f g : Fld) : (incSat s f g).pulses = s.pulses := by unfold incSat; split <;> rfl
@[simp] theorem incSat_latches (s : State) (f g : Fld) : (incSat s f g).latches = s.latches := by unfold incSat; split <;> rfl
@[simp] theorem incSat_pulsesPrev (s : State) (f g : Fld) : (incSat s f g).pulsesPrev = s.pulsesPrev := by unfold incSat; split <;> rfl
@[simp] theorem incSat_freeCtr (s : State) (f g : Fld) : (incSat s f g).freeCtr = s.freeCtr := by unfold incSat; split <;> rfl
@[simp] theorem incSat_pending (s : State) (f g : Fld) : (incSat s f g).pending = s.pending := by unfold incSat; split <;> rfl

@[simp] theorem incStop_mode (s : State) (f : Fld) : (incStop s f).mode = s.mode := by unfold incStop; split <;> rfl
@[simp] theorem incStop_ms (s : State) (f : Fld) : (incStop s f).ms = s.ms := by unfold incStop; split <;> rfl
@[simp] theorem incStop_time (s : State) (f : Fld) : (incStop s f).time = s.time := by unfold incStop; split <;> rfl
@[simp] theorem incStop_plumb (s : State) (f : Fld) : (incStop s f).plumb = s.plumb := by unfold incStop; split <;> rfl
@[simp] theorem incStop_sp (s : State) (f : Fld) : (incStop s f).sp = s.sp := by unfold incStop; split <;> rfl
@[simp] theorem incStop_zcp (s : State) (f : Fld) : (incStop s f).zcp = s.zcp := by unfold incStop; split <;> rfl
@[simp] theorem incStop_core (s : State) (f : Fld) : (incStop s f).core = s.core := by unfold incStop; split <;> rfl
@[simp] theorem incStop_scan (s : State) (f : Fld) : (incStop s f).scan = s.scan := by unfold incStop; split <;> rfl
@[simp] theorem incStop_txn (s : State) (f : Fld) : (incStop s f).txn = s.txn := by unfold incStop; split <;> rfl
@[simp] theorem incStop_sby (s : State) (f : Fld) : (incStop s f).sby = s.sby := by unfold incStop; split <;> rfl
@[simp] theorem incStop_cls (s : State) (f : Fld) : (incStop s f).cls = s.cls := by unfold incStop; split <;> rfl
@[simp] theorem incStop_egr (s : State) (f : Fld) : (incStop s f).egr = s.egr := by unfold incStop; split <;> rfl
@[simp] theorem incStop_can (s : State) (f : Fld) : (incStop s f).can = s.can := by unfold incStop; split <;> rfl
@[simp] theorem incStop_fld (s : State) (f : Fld) : (incStop s f).fld = s.fld := by unfold incStop; split <;> rfl
@[simp] theorem incStop_phm (s : State) (f : Fld) : (incStop s f).phm = s.phm := by unfold incStop; split <;> rfl
@[simp] theorem incStop_cal (s : State) (f : Fld) : (incStop s f).cal = s.cal := by unfold incStop; split <;> rfl
@[simp] theorem incStop_pwr (s : State) (f : Fld) : (incStop s f).pwr = s.pwr := by unfold incStop; split <;> rfl
@[simp] theorem incStop_trc (s : State) (f : Fld) : (incStop s f).trc = s.trc := by unfold incStop; split <;> rfl
@[simp] theorem incStop_tap (s : State) (f : Fld) : (incStop s f).tap = s.tap := by unfold incStop; split <;> rfl
@[simp] theorem incStop_nv (s : State) (f : Fld) : (incStop s f).nv = s.nv := by unfold incStop; split <;> rfl
@[simp] theorem incStop_pins (s : State) (f : Fld) : (incStop s f).pins = s.pins := by unfold incStop; split <;> rfl
@[simp] theorem incStop_pulses (s : State) (f : Fld) : (incStop s f).pulses = s.pulses := by unfold incStop; split <;> rfl
@[simp] theorem incStop_latches (s : State) (f : Fld) : (incStop s f).latches = s.latches := by unfold incStop; split <;> rfl
@[simp] theorem incStop_pulsesPrev (s : State) (f : Fld) : (incStop s f).pulsesPrev = s.pulsesPrev := by unfold incStop; split <;> rfl
@[simp] theorem incStop_freeCtr (s : State) (f : Fld) : (incStop s f).freeCtr = s.freeCtr := by unfold incStop; split <;> rfl
@[simp] theorem incStop_pending (s : State) (f : Fld) : (incStop s f).pending = s.pending := by unfold incStop; split <;> rfl

@[simp] theorem incWrap_mode (s : State) (f : Fld) : (incWrap s f).mode = s.mode := rfl
@[simp] theorem incWrap_ms (s : State) (f : Fld) : (incWrap s f).ms = s.ms := rfl
@[simp] theorem incWrap_time (s : State) (f : Fld) : (incWrap s f).time = s.time := rfl
@[simp] theorem incWrap_plumb (s : State) (f : Fld) : (incWrap s f).plumb = s.plumb := rfl
@[simp] theorem incWrap_sp (s : State) (f : Fld) : (incWrap s f).sp = s.sp := rfl
@[simp] theorem incWrap_zcp (s : State) (f : Fld) : (incWrap s f).zcp = s.zcp := rfl
@[simp] theorem incWrap_core (s : State) (f : Fld) : (incWrap s f).core = s.core := rfl
@[simp] theorem incWrap_scan (s : State) (f : Fld) : (incWrap s f).scan = s.scan := rfl
@[simp] theorem incWrap_txn (s : State) (f : Fld) : (incWrap s f).txn = s.txn := rfl
@[simp] theorem incWrap_sby (s : State) (f : Fld) : (incWrap s f).sby = s.sby := rfl
@[simp] theorem incWrap_cls (s : State) (f : Fld) : (incWrap s f).cls = s.cls := rfl
@[simp] theorem incWrap_egr (s : State) (f : Fld) : (incWrap s f).egr = s.egr := rfl
@[simp] theorem incWrap_can (s : State) (f : Fld) : (incWrap s f).can = s.can := rfl
@[simp] theorem incWrap_fld (s : State) (f : Fld) : (incWrap s f).fld = s.fld := rfl
@[simp] theorem incWrap_phm (s : State) (f : Fld) : (incWrap s f).phm = s.phm := rfl
@[simp] theorem incWrap_cal (s : State) (f : Fld) : (incWrap s f).cal = s.cal := rfl
@[simp] theorem incWrap_pwr (s : State) (f : Fld) : (incWrap s f).pwr = s.pwr := rfl
@[simp] theorem incWrap_trc (s : State) (f : Fld) : (incWrap s f).trc = s.trc := rfl
@[simp] theorem incWrap_tap (s : State) (f : Fld) : (incWrap s f).tap = s.tap := rfl
@[simp] theorem incWrap_nv (s : State) (f : Fld) : (incWrap s f).nv = s.nv := rfl
@[simp] theorem incWrap_pins (s : State) (f : Fld) : (incWrap s f).pins = s.pins := rfl
@[simp] theorem incWrap_pulses (s : State) (f : Fld) : (incWrap s f).pulses = s.pulses := rfl
@[simp] theorem incWrap_latches (s : State) (f : Fld) : (incWrap s f).latches = s.latches := rfl
@[simp] theorem incWrap_pulsesPrev (s : State) (f : Fld) : (incWrap s f).pulsesPrev = s.pulsesPrev := rfl
@[simp] theorem incWrap_freeCtr (s : State) (f : Fld) : (incWrap s f).freeCtr = s.freeCtr := rfl
@[simp] theorem incWrap_pending (s : State) (f : Fld) : (incWrap s f).pending = s.pending := rfl

/-! ## Events and the journal -/

@[simp] theorem raiseEv_mode (s : State) (r b a : Nat) : (raiseEv s r b a).mode = s.mode := rfl
@[simp] theorem raiseEv_ms (s : State) (r b a : Nat) : (raiseEv s r b a).ms = s.ms := rfl
@[simp] theorem raiseEv_time (s : State) (r b a : Nat) : (raiseEv s r b a).time = s.time := rfl
@[simp] theorem raiseEv_plumb (s : State) (r b a : Nat) : (raiseEv s r b a).plumb = s.plumb := rfl
@[simp] theorem raiseEv_sp (s : State) (r b a : Nat) : (raiseEv s r b a).sp = s.sp := rfl
@[simp] theorem raiseEv_core (s : State) (r b a : Nat) : (raiseEv s r b a).core = s.core := rfl
@[simp] theorem raiseEv_scan (s : State) (r b a : Nat) : (raiseEv s r b a).scan = s.scan := rfl
@[simp] theorem raiseEv_txn (s : State) (r b a : Nat) : (raiseEv s r b a).txn = s.txn := rfl
@[simp] theorem raiseEv_sby (s : State) (r b a : Nat) : (raiseEv s r b a).sby = s.sby := rfl
@[simp] theorem raiseEv_cls (s : State) (r b a : Nat) : (raiseEv s r b a).cls = s.cls := rfl
@[simp] theorem raiseEv_egr (s : State) (r b a : Nat) : (raiseEv s r b a).egr = s.egr := rfl
@[simp] theorem raiseEv_can (s : State) (r b a : Nat) : (raiseEv s r b a).can = s.can := rfl
@[simp] theorem raiseEv_fld (s : State) (r b a : Nat) : (raiseEv s r b a).fld = s.fld := rfl
@[simp] theorem raiseEv_phm (s : State) (r b a : Nat) : (raiseEv s r b a).phm = s.phm := rfl
@[simp] theorem raiseEv_cal (s : State) (r b a : Nat) : (raiseEv s r b a).cal = s.cal := rfl
@[simp] theorem raiseEv_pwr (s : State) (r b a : Nat) : (raiseEv s r b a).pwr = s.pwr := rfl
@[simp] theorem raiseEv_trc (s : State) (r b a : Nat) : (raiseEv s r b a).trc = s.trc := rfl
@[simp] theorem raiseEv_tap (s : State) (r b a : Nat) : (raiseEv s r b a).tap = s.tap := rfl
@[simp] theorem raiseEv_nv (s : State) (r b a : Nat) : (raiseEv s r b a).nv = s.nv := rfl
@[simp] theorem raiseEv_pins (s : State) (r b a : Nat) : (raiseEv s r b a).pins = s.pins := rfl
@[simp] theorem raiseEv_pulses (s : State) (r b a : Nat) : (raiseEv s r b a).pulses = s.pulses := rfl
@[simp] theorem raiseEv_latches (s : State) (r b a : Nat) : (raiseEv s r b a).latches = s.latches := rfl
@[simp] theorem raiseEv_pulsesPrev (s : State) (r b a : Nat) : (raiseEv s r b a).pulsesPrev = s.pulsesPrev := rfl
@[simp] theorem raiseEv_freeCtr (s : State) (r b a : Nat) : (raiseEv s r b a).freeCtr = s.freeCtr := rfl
@[simp] theorem raiseEv_pending (s : State) (r b a : Nat) : (raiseEv s r b a).pending = s.pending := rfl

@[simp] theorem raise_mode (s : State) (f : Fld) : (raise s f).mode = s.mode := rfl
@[simp] theorem raise_ms (s : State) (f : Fld) : (raise s f).ms = s.ms := rfl
@[simp] theorem raise_time (s : State) (f : Fld) : (raise s f).time = s.time := rfl
@[simp] theorem raise_plumb (s : State) (f : Fld) : (raise s f).plumb = s.plumb := rfl
@[simp] theorem raise_sp (s : State) (f : Fld) : (raise s f).sp = s.sp := rfl
@[simp] theorem raise_core (s : State) (f : Fld) : (raise s f).core = s.core := rfl
@[simp] theorem raise_scan (s : State) (f : Fld) : (raise s f).scan = s.scan := rfl
@[simp] theorem raise_txn (s : State) (f : Fld) : (raise s f).txn = s.txn := rfl
@[simp] theorem raise_sby (s : State) (f : Fld) : (raise s f).sby = s.sby := rfl
@[simp] theorem raise_cls (s : State) (f : Fld) : (raise s f).cls = s.cls := rfl
@[simp] theorem raise_egr (s : State) (f : Fld) : (raise s f).egr = s.egr := rfl
@[simp] theorem raise_can (s : State) (f : Fld) : (raise s f).can = s.can := rfl
@[simp] theorem raise_fld (s : State) (f : Fld) : (raise s f).fld = s.fld := rfl
@[simp] theorem raise_phm (s : State) (f : Fld) : (raise s f).phm = s.phm := rfl
@[simp] theorem raise_cal (s : State) (f : Fld) : (raise s f).cal = s.cal := rfl
@[simp] theorem raise_pwr (s : State) (f : Fld) : (raise s f).pwr = s.pwr := rfl
@[simp] theorem raise_trc (s : State) (f : Fld) : (raise s f).trc = s.trc := rfl
@[simp] theorem raise_tap (s : State) (f : Fld) : (raise s f).tap = s.tap := rfl
@[simp] theorem raise_nv (s : State) (f : Fld) : (raise s f).nv = s.nv := rfl
@[simp] theorem raise_pins (s : State) (f : Fld) : (raise s f).pins = s.pins := rfl
@[simp] theorem raise_pulses (s : State) (f : Fld) : (raise s f).pulses = s.pulses := rfl
@[simp] theorem raise_latches (s : State) (f : Fld) : (raise s f).latches = s.latches := rfl
@[simp] theorem raise_pulsesPrev (s : State) (f : Fld) : (raise s f).pulsesPrev = s.pulsesPrev := rfl
@[simp] theorem raise_freeCtr (s : State) (f : Fld) : (raise s f).freeCtr = s.freeCtr := rfl
@[simp] theorem raise_pending (s : State) (f : Fld) : (raise s f).pending = s.pending := rfl

@[simp] theorem raiseBit_mode (s : State) (a : Nat) (v : Bool) : (raiseBit s a v).mode = s.mode := rfl
@[simp] theorem raiseBit_ms (s : State) (a : Nat) (v : Bool) : (raiseBit s a v).ms = s.ms := rfl
@[simp] theorem raiseBit_time (s : State) (a : Nat) (v : Bool) : (raiseBit s a v).time = s.time := rfl
@[simp] theorem raiseBit_plumb (s : State) (a : Nat) (v : Bool) : (raiseBit s a v).plumb = s.plumb := rfl
@[simp] theorem raiseBit_sp (s : State) (a : Nat) (v : Bool) : (raiseBit s a v).sp = s.sp := rfl
@[simp] theorem raiseBit_core (s : State) (a : Nat) (v : Bool) : (raiseBit s a v).core = s.core := rfl
@[simp] theorem raiseBit_scan (s : State) (a : Nat) (v : Bool) : (raiseBit s a v).scan = s.scan := rfl
@[simp] theorem raiseBit_txn (s : State) (a : Nat) (v : Bool) : (raiseBit s a v).txn = s.txn := rfl
@[simp] theorem raiseBit_sby (s : State) (a : Nat) (v : Bool) : (raiseBit s a v).sby = s.sby := rfl
@[simp] theorem raiseBit_cls (s : State) (a : Nat) (v : Bool) : (raiseBit s a v).cls = s.cls := rfl
@[simp] theorem raiseBit_egr (s : State) (a : Nat) (v : Bool) : (raiseBit s a v).egr = s.egr := rfl
@[simp] theorem raiseBit_can (s : State) (a : Nat) (v : Bool) : (raiseBit s a v).can = s.can := rfl
@[simp] theorem raiseBit_fld (s : State) (a : Nat) (v : Bool) : (raiseBit s a v).fld = s.fld := rfl
@[simp] theorem raiseBit_phm (s : State) (a : Nat) (v : Bool) : (raiseBit s a v).phm = s.phm := rfl
@[simp] theorem raiseBit_cal (s : State) (a : Nat) (v : Bool) : (raiseBit s a v).cal = s.cal := rfl
@[simp] theorem raiseBit_pwr (s : State) (a : Nat) (v : Bool) : (raiseBit s a v).pwr = s.pwr := rfl
@[simp] theorem raiseBit_trc (s : State) (a : Nat) (v : Bool) : (raiseBit s a v).trc = s.trc := rfl
@[simp] theorem raiseBit_tap (s : State) (a : Nat) (v : Bool) : (raiseBit s a v).tap = s.tap := rfl
@[simp] theorem raiseBit_nv (s : State) (a : Nat) (v : Bool) : (raiseBit s a v).nv = s.nv := rfl
@[simp] theorem raiseBit_pins (s : State) (a : Nat) (v : Bool) : (raiseBit s a v).pins = s.pins := rfl
@[simp] theorem raiseBit_pulses (s : State) (a : Nat) (v : Bool) : (raiseBit s a v).pulses = s.pulses := rfl
@[simp] theorem raiseBit_latches (s : State) (a : Nat) (v : Bool) : (raiseBit s a v).latches = s.latches := rfl
@[simp] theorem raiseBit_pulsesPrev (s : State) (a : Nat) (v : Bool) : (raiseBit s a v).pulsesPrev = s.pulsesPrev := rfl
@[simp] theorem raiseBit_freeCtr (s : State) (a : Nat) (v : Bool) : (raiseBit s a v).freeCtr = s.freeCtr := rfl
@[simp] theorem raiseBit_pending (s : State) (a : Nat) (v : Bool) : (raiseBit s a v).pending = s.pending := rfl

@[simp] theorem setRaise_mode (s : State) (f : Fld) (v : Nat) : (setRaise s f v).mode = s.mode := rfl
@[simp] theorem setRaise_ms (s : State) (f : Fld) (v : Nat) : (setRaise s f v).ms = s.ms := rfl
@[simp] theorem setRaise_time (s : State) (f : Fld) (v : Nat) : (setRaise s f v).time = s.time := rfl
@[simp] theorem setRaise_plumb (s : State) (f : Fld) (v : Nat) : (setRaise s f v).plumb = s.plumb := rfl
@[simp] theorem setRaise_sp (s : State) (f : Fld) (v : Nat) : (setRaise s f v).sp = s.sp := rfl
@[simp] theorem setRaise_core (s : State) (f : Fld) (v : Nat) : (setRaise s f v).core = s.core := rfl
@[simp] theorem setRaise_scan (s : State) (f : Fld) (v : Nat) : (setRaise s f v).scan = s.scan := rfl
@[simp] theorem setRaise_txn (s : State) (f : Fld) (v : Nat) : (setRaise s f v).txn = s.txn := rfl
@[simp] theorem setRaise_sby (s : State) (f : Fld) (v : Nat) : (setRaise s f v).sby = s.sby := rfl
@[simp] theorem setRaise_cls (s : State) (f : Fld) (v : Nat) : (setRaise s f v).cls = s.cls := rfl
@[simp] theorem setRaise_egr (s : State) (f : Fld) (v : Nat) : (setRaise s f v).egr = s.egr := rfl
@[simp] theorem setRaise_can (s : State) (f : Fld) (v : Nat) : (setRaise s f v).can = s.can := rfl
@[simp] theorem setRaise_fld (s : State) (f : Fld) (v : Nat) : (setRaise s f v).fld = s.fld := rfl
@[simp] theorem setRaise_phm (s : State) (f : Fld) (v : Nat) : (setRaise s f v).phm = s.phm := rfl
@[simp] theorem setRaise_cal (s : State) (f : Fld) (v : Nat) : (setRaise s f v).cal = s.cal := rfl
@[simp] theorem setRaise_pwr (s : State) (f : Fld) (v : Nat) : (setRaise s f v).pwr = s.pwr := rfl
@[simp] theorem setRaise_trc (s : State) (f : Fld) (v : Nat) : (setRaise s f v).trc = s.trc := rfl
@[simp] theorem setRaise_tap (s : State) (f : Fld) (v : Nat) : (setRaise s f v).tap = s.tap := rfl
@[simp] theorem setRaise_nv (s : State) (f : Fld) (v : Nat) : (setRaise s f v).nv = s.nv := rfl
@[simp] theorem setRaise_pins (s : State) (f : Fld) (v : Nat) : (setRaise s f v).pins = s.pins := rfl
@[simp] theorem setRaise_pulses (s : State) (f : Fld) (v : Nat) : (setRaise s f v).pulses = s.pulses := rfl
@[simp] theorem setRaise_latches (s : State) (f : Fld) (v : Nat) : (setRaise s f v).latches = s.latches := rfl
@[simp] theorem setRaise_pulsesPrev (s : State) (f : Fld) (v : Nat) : (setRaise s f v).pulsesPrev = s.pulsesPrev := rfl
@[simp] theorem setRaise_freeCtr (s : State) (f : Fld) (v : Nat) : (setRaise s f v).freeCtr = s.freeCtr := rfl
@[simp] theorem setRaise_pending (s : State) (f : Fld) (v : Nat) : (setRaise s f v).pending = s.pending := rfl

@[simp] theorem journalPut_mode (s : State) (a b c d e : Nat) (p : Peer) : (journalPut s a b c d e p).mode = s.mode := by
  unfold journalPut; dsimp only; split <;> try split
  all_goals simp
@[simp] theorem journalPut_ms (s : State) (a b c d e : Nat) (p : Peer) : (journalPut s a b c d e p).ms = s.ms := by
  unfold journalPut; dsimp only; split <;> try split
  all_goals simp
@[simp] theorem journalPut_time (s : State) (a b c d e : Nat) (p : Peer) : (journalPut s a b c d e p).time = s.time := by
  unfold journalPut; dsimp only; split <;> try split
  all_goals simp
@[simp] theorem journalPut_plumb (s : State) (a b c d e : Nat) (p : Peer) : (journalPut s a b c d e p).plumb = s.plumb := by
  unfold journalPut; dsimp only; split <;> try split
  all_goals simp
@[simp] theorem journalPut_sp (s : State) (a b c d e : Nat) (p : Peer) : (journalPut s a b c d e p).sp = s.sp := by
  unfold journalPut; dsimp only; split <;> try split
  all_goals simp
@[simp] theorem journalPut_core (s : State) (a b c d e : Nat) (p : Peer) : (journalPut s a b c d e p).core = s.core := by
  unfold journalPut; dsimp only; split <;> try split
  all_goals simp
@[simp] theorem journalPut_scan (s : State) (a b c d e : Nat) (p : Peer) : (journalPut s a b c d e p).scan = s.scan := by
  unfold journalPut; dsimp only; split <;> try split
  all_goals simp
@[simp] theorem journalPut_txn (s : State) (a b c d e : Nat) (p : Peer) : (journalPut s a b c d e p).txn = s.txn := by
  unfold journalPut; dsimp only; split <;> try split
  all_goals simp
@[simp] theorem journalPut_sby (s : State) (a b c d e : Nat) (p : Peer) : (journalPut s a b c d e p).sby = s.sby := by
  unfold journalPut; dsimp only; split <;> try split
  all_goals simp
@[simp] theorem journalPut_cls (s : State) (a b c d e : Nat) (p : Peer) : (journalPut s a b c d e p).cls = s.cls := by
  unfold journalPut; dsimp only; split <;> try split
  all_goals simp
@[simp] theorem journalPut_egr (s : State) (a b c d e : Nat) (p : Peer) : (journalPut s a b c d e p).egr = s.egr := by
  unfold journalPut; dsimp only; split <;> try split
  all_goals simp
@[simp] theorem journalPut_can (s : State) (a b c d e : Nat) (p : Peer) : (journalPut s a b c d e p).can = s.can := by
  unfold journalPut; dsimp only; split <;> try split
  all_goals simp
@[simp] theorem journalPut_fld (s : State) (a b c d e : Nat) (p : Peer) : (journalPut s a b c d e p).fld = s.fld := by
  unfold journalPut; dsimp only; split <;> try split
  all_goals simp
@[simp] theorem journalPut_phm (s : State) (a b c d e : Nat) (p : Peer) : (journalPut s a b c d e p).phm = s.phm := by
  unfold journalPut; dsimp only; split <;> try split
  all_goals simp
@[simp] theorem journalPut_cal (s : State) (a b c d e : Nat) (p : Peer) : (journalPut s a b c d e p).cal = s.cal := by
  unfold journalPut; dsimp only; split <;> try split
  all_goals simp
@[simp] theorem journalPut_pwr (s : State) (a b c d e : Nat) (p : Peer) : (journalPut s a b c d e p).pwr = s.pwr := by
  unfold journalPut; dsimp only; split <;> try split
  all_goals simp
@[simp] theorem journalPut_trc (s : State) (a b c d e : Nat) (p : Peer) : (journalPut s a b c d e p).trc = s.trc := by
  unfold journalPut; dsimp only; split <;> try split
  all_goals simp
@[simp] theorem journalPut_tap (s : State) (a b c d e : Nat) (p : Peer) : (journalPut s a b c d e p).tap = s.tap := by
  unfold journalPut; dsimp only; split <;> try split
  all_goals simp
@[simp] theorem journalPut_nv (s : State) (a b c d e : Nat) (p : Peer) : (journalPut s a b c d e p).nv = s.nv := by
  unfold journalPut; dsimp only; split <;> try split
  all_goals simp
@[simp] theorem journalPut_pins (s : State) (a b c d e : Nat) (p : Peer) : (journalPut s a b c d e p).pins = s.pins := by
  unfold journalPut; dsimp only; split <;> try split
  all_goals simp
@[simp] theorem journalPut_pulses (s : State) (a b c d e : Nat) (p : Peer) : (journalPut s a b c d e p).pulses = s.pulses := by
  unfold journalPut; dsimp only; split <;> try split
  all_goals simp
@[simp] theorem journalPut_latches (s : State) (a b c d e : Nat) (p : Peer) : (journalPut s a b c d e p).latches = s.latches := by
  unfold journalPut; dsimp only; split <;> try split
  all_goals simp
@[simp] theorem journalPut_pulsesPrev (s : State) (a b c d e : Nat) (p : Peer) : (journalPut s a b c d e p).pulsesPrev = s.pulsesPrev := by
  unfold journalPut; dsimp only; split <;> try split
  all_goals simp
@[simp] theorem journalPut_freeCtr (s : State) (a b c d e : Nat) (p : Peer) : (journalPut s a b c d e p).freeCtr = s.freeCtr := by
  unfold journalPut; dsimp only; split <;> try split
  all_goals simp
@[simp] theorem journalPut_pending (s : State) (a b c d e : Nat) (p : Peer) : (journalPut s a b c d e p).pending = s.pending := by
  unfold journalPut; dsimp only; split <;> try split
  all_goals simp

@[simp] theorem journalInt_mode (s : State) (r a : Nat) : (journalInt s r a).mode = s.mode := by simp [journalInt]
@[simp] theorem journalInt_ms (s : State) (r a : Nat) : (journalInt s r a).ms = s.ms := by simp [journalInt]
@[simp] theorem journalInt_time (s : State) (r a : Nat) : (journalInt s r a).time = s.time := by simp [journalInt]
@[simp] theorem journalInt_plumb (s : State) (r a : Nat) : (journalInt s r a).plumb = s.plumb := by simp [journalInt]
@[simp] theorem journalInt_sp (s : State) (r a : Nat) : (journalInt s r a).sp = s.sp := by simp [journalInt]
@[simp] theorem journalInt_core (s : State) (r a : Nat) : (journalInt s r a).core = s.core := by simp [journalInt]
@[simp] theorem journalInt_scan (s : State) (r a : Nat) : (journalInt s r a).scan = s.scan := by simp [journalInt]
@[simp] theorem journalInt_txn (s : State) (r a : Nat) : (journalInt s r a).txn = s.txn := by simp [journalInt]
@[simp] theorem journalInt_sby (s : State) (r a : Nat) : (journalInt s r a).sby = s.sby := by simp [journalInt]
@[simp] theorem journalInt_cls (s : State) (r a : Nat) : (journalInt s r a).cls = s.cls := by simp [journalInt]
@[simp] theorem journalInt_egr (s : State) (r a : Nat) : (journalInt s r a).egr = s.egr := by simp [journalInt]
@[simp] theorem journalInt_can (s : State) (r a : Nat) : (journalInt s r a).can = s.can := by simp [journalInt]
@[simp] theorem journalInt_fld (s : State) (r a : Nat) : (journalInt s r a).fld = s.fld := by simp [journalInt]
@[simp] theorem journalInt_phm (s : State) (r a : Nat) : (journalInt s r a).phm = s.phm := by simp [journalInt]
@[simp] theorem journalInt_cal (s : State) (r a : Nat) : (journalInt s r a).cal = s.cal := by simp [journalInt]
@[simp] theorem journalInt_pwr (s : State) (r a : Nat) : (journalInt s r a).pwr = s.pwr := by simp [journalInt]
@[simp] theorem journalInt_trc (s : State) (r a : Nat) : (journalInt s r a).trc = s.trc := by simp [journalInt]
@[simp] theorem journalInt_tap (s : State) (r a : Nat) : (journalInt s r a).tap = s.tap := by simp [journalInt]
@[simp] theorem journalInt_nv (s : State) (r a : Nat) : (journalInt s r a).nv = s.nv := by simp [journalInt]
@[simp] theorem journalInt_pins (s : State) (r a : Nat) : (journalInt s r a).pins = s.pins := by simp [journalInt]
@[simp] theorem journalInt_pulses (s : State) (r a : Nat) : (journalInt s r a).pulses = s.pulses := by simp [journalInt]
@[simp] theorem journalInt_latches (s : State) (r a : Nat) : (journalInt s r a).latches = s.latches := by simp [journalInt]
@[simp] theorem journalInt_pulsesPrev (s : State) (r a : Nat) : (journalInt s r a).pulsesPrev = s.pulsesPrev := by simp [journalInt]
@[simp] theorem journalInt_freeCtr (s : State) (r a : Nat) : (journalInt s r a).freeCtr = s.freeCtr := by simp [journalInt]
@[simp] theorem journalInt_pending (s : State) (r a : Nat) : (journalInt s r a).pending = s.pending := by simp [journalInt]

@[simp] theorem journalF_mode (s : State) (f : Fld) : (journalF s f).mode = s.mode := by simp [journalF]
@[simp] theorem journalF_ms (s : State) (f : Fld) : (journalF s f).ms = s.ms := by simp [journalF]
@[simp] theorem journalF_time (s : State) (f : Fld) : (journalF s f).time = s.time := by simp [journalF]
@[simp] theorem journalF_plumb (s : State) (f : Fld) : (journalF s f).plumb = s.plumb := by simp [journalF]
@[simp] theorem journalF_sp (s : State) (f : Fld) : (journalF s f).sp = s.sp := by simp [journalF]
@[simp] theorem journalF_core (s : State) (f : Fld) : (journalF s f).core = s.core := by simp [journalF]
@[simp] theorem journalF_scan (s : State) (f : Fld) : (journalF s f).scan = s.scan := by simp [journalF]
@[simp] theorem journalF_txn (s : State) (f : Fld) : (journalF s f).txn = s.txn := by simp [journalF]
@[simp] theorem journalF_sby (s : State) (f : Fld) : (journalF s f).sby = s.sby := by simp [journalF]
@[simp] theorem journalF_cls (s : State) (f : Fld) : (journalF s f).cls = s.cls := by simp [journalF]
@[simp] theorem journalF_egr (s : State) (f : Fld) : (journalF s f).egr = s.egr := by simp [journalF]
@[simp] theorem journalF_can (s : State) (f : Fld) : (journalF s f).can = s.can := by simp [journalF]
@[simp] theorem journalF_fld (s : State) (f : Fld) : (journalF s f).fld = s.fld := by simp [journalF]
@[simp] theorem journalF_phm (s : State) (f : Fld) : (journalF s f).phm = s.phm := by simp [journalF]
@[simp] theorem journalF_cal (s : State) (f : Fld) : (journalF s f).cal = s.cal := by simp [journalF]
@[simp] theorem journalF_pwr (s : State) (f : Fld) : (journalF s f).pwr = s.pwr := by simp [journalF]
@[simp] theorem journalF_trc (s : State) (f : Fld) : (journalF s f).trc = s.trc := by simp [journalF]
@[simp] theorem journalF_tap (s : State) (f : Fld) : (journalF s f).tap = s.tap := by simp [journalF]
@[simp] theorem journalF_nv (s : State) (f : Fld) : (journalF s f).nv = s.nv := by simp [journalF]
@[simp] theorem journalF_pins (s : State) (f : Fld) : (journalF s f).pins = s.pins := by simp [journalF]
@[simp] theorem journalF_pulses (s : State) (f : Fld) : (journalF s f).pulses = s.pulses := by simp [journalF]
@[simp] theorem journalF_latches (s : State) (f : Fld) : (journalF s f).latches = s.latches := by simp [journalF]
@[simp] theorem journalF_pulsesPrev (s : State) (f : Fld) : (journalF s f).pulsesPrev = s.pulsesPrev := by simp [journalF]
@[simp] theorem journalF_freeCtr (s : State) (f : Fld) : (journalF s f).freeCtr = s.freeCtr := by simp [journalF]
@[simp] theorem journalF_pending (s : State) (f : Fld) : (journalF s f).pending = s.pending := by simp [journalF]

@[simp] theorem note_mode (s : State) (f : Fld) : (note s f).mode = s.mode := by simp [note]
@[simp] theorem note_ms (s : State) (f : Fld) : (note s f).ms = s.ms := by simp [note]
@[simp] theorem note_time (s : State) (f : Fld) : (note s f).time = s.time := by simp [note]
@[simp] theorem note_plumb (s : State) (f : Fld) : (note s f).plumb = s.plumb := by simp [note]
@[simp] theorem note_sp (s : State) (f : Fld) : (note s f).sp = s.sp := by simp [note]
@[simp] theorem note_core (s : State) (f : Fld) : (note s f).core = s.core := by simp [note]
@[simp] theorem note_scan (s : State) (f : Fld) : (note s f).scan = s.scan := by simp [note]
@[simp] theorem note_txn (s : State) (f : Fld) : (note s f).txn = s.txn := by simp [note]
@[simp] theorem note_sby (s : State) (f : Fld) : (note s f).sby = s.sby := by simp [note]
@[simp] theorem note_cls (s : State) (f : Fld) : (note s f).cls = s.cls := by simp [note]
@[simp] theorem note_egr (s : State) (f : Fld) : (note s f).egr = s.egr := by simp [note]
@[simp] theorem note_can (s : State) (f : Fld) : (note s f).can = s.can := by simp [note]
@[simp] theorem note_fld (s : State) (f : Fld) : (note s f).fld = s.fld := by simp [note]
@[simp] theorem note_phm (s : State) (f : Fld) : (note s f).phm = s.phm := by simp [note]
@[simp] theorem note_cal (s : State) (f : Fld) : (note s f).cal = s.cal := by simp [note]
@[simp] theorem note_pwr (s : State) (f : Fld) : (note s f).pwr = s.pwr := by simp [note]
@[simp] theorem note_trc (s : State) (f : Fld) : (note s f).trc = s.trc := by simp [note]
@[simp] theorem note_tap (s : State) (f : Fld) : (note s f).tap = s.tap := by simp [note]
@[simp] theorem note_nv (s : State) (f : Fld) : (note s f).nv = s.nv := by simp [note]
@[simp] theorem note_pins (s : State) (f : Fld) : (note s f).pins = s.pins := by simp [note]
@[simp] theorem note_pulses (s : State) (f : Fld) : (note s f).pulses = s.pulses := by simp [note]
@[simp] theorem note_latches (s : State) (f : Fld) : (note s f).latches = s.latches := by simp [note]
@[simp] theorem note_pulsesPrev (s : State) (f : Fld) : (note s f).pulsesPrev = s.pulsesPrev := by simp [note]
@[simp] theorem note_freeCtr (s : State) (f : Fld) : (note s f).freeCtr = s.freeCtr := by simp [note]
@[simp] theorem note_pending (s : State) (f : Fld) : (note s f).pending = s.pending := by simp [note]

@[simp] theorem accErr_mode (s : State) (c a : Nat) (d : Bool) : (accErr s c a d).mode = s.mode := by unfold accErr; dsimp only; split <;> simp
@[simp] theorem accErr_ms (s : State) (c a : Nat) (d : Bool) : (accErr s c a d).ms = s.ms := by unfold accErr; dsimp only; split <;> simp
@[simp] theorem accErr_time (s : State) (c a : Nat) (d : Bool) : (accErr s c a d).time = s.time := by unfold accErr; dsimp only; split <;> simp
@[simp] theorem accErr_plumb (s : State) (c a : Nat) (d : Bool) : (accErr s c a d).plumb = s.plumb := by unfold accErr; dsimp only; split <;> simp
@[simp] theorem accErr_sp (s : State) (c a : Nat) (d : Bool) : (accErr s c a d).sp = s.sp := by unfold accErr; dsimp only; split <;> simp
@[simp] theorem accErr_zcp (s : State) (c a : Nat) (d : Bool) : (accErr s c a d).zcp = s.zcp := by unfold accErr; dsimp only; split <;> simp
@[simp] theorem accErr_core (s : State) (c a : Nat) (d : Bool) : (accErr s c a d).core = s.core := by unfold accErr; dsimp only; split <;> simp
@[simp] theorem accErr_scan (s : State) (c a : Nat) (d : Bool) : (accErr s c a d).scan = s.scan := by unfold accErr; dsimp only; split <;> simp
@[simp] theorem accErr_txn (s : State) (c a : Nat) (d : Bool) : (accErr s c a d).txn = s.txn := by unfold accErr; dsimp only; split <;> simp
@[simp] theorem accErr_sby (s : State) (c a : Nat) (d : Bool) : (accErr s c a d).sby = s.sby := by unfold accErr; dsimp only; split <;> simp
@[simp] theorem accErr_cls (s : State) (c a : Nat) (d : Bool) : (accErr s c a d).cls = s.cls := by unfold accErr; dsimp only; split <;> simp
@[simp] theorem accErr_egr (s : State) (c a : Nat) (d : Bool) : (accErr s c a d).egr = s.egr := by unfold accErr; dsimp only; split <;> simp
@[simp] theorem accErr_can (s : State) (c a : Nat) (d : Bool) : (accErr s c a d).can = s.can := by unfold accErr; dsimp only; split <;> simp
@[simp] theorem accErr_fld (s : State) (c a : Nat) (d : Bool) : (accErr s c a d).fld = s.fld := by unfold accErr; dsimp only; split <;> simp
@[simp] theorem accErr_phm (s : State) (c a : Nat) (d : Bool) : (accErr s c a d).phm = s.phm := by unfold accErr; dsimp only; split <;> simp
@[simp] theorem accErr_cal (s : State) (c a : Nat) (d : Bool) : (accErr s c a d).cal = s.cal := by unfold accErr; dsimp only; split <;> simp
@[simp] theorem accErr_pwr (s : State) (c a : Nat) (d : Bool) : (accErr s c a d).pwr = s.pwr := by unfold accErr; dsimp only; split <;> simp
@[simp] theorem accErr_trc (s : State) (c a : Nat) (d : Bool) : (accErr s c a d).trc = s.trc := by unfold accErr; dsimp only; split <;> simp
@[simp] theorem accErr_tap (s : State) (c a : Nat) (d : Bool) : (accErr s c a d).tap = s.tap := by unfold accErr; dsimp only; split <;> simp
@[simp] theorem accErr_nv (s : State) (c a : Nat) (d : Bool) : (accErr s c a d).nv = s.nv := by unfold accErr; dsimp only; split <;> simp
@[simp] theorem accErr_pins (s : State) (c a : Nat) (d : Bool) : (accErr s c a d).pins = s.pins := by unfold accErr; dsimp only; split <;> simp
@[simp] theorem accErr_pulses (s : State) (c a : Nat) (d : Bool) : (accErr s c a d).pulses = s.pulses := by unfold accErr; dsimp only; split <;> simp
@[simp] theorem accErr_latches (s : State) (c a : Nat) (d : Bool) : (accErr s c a d).latches = s.latches := by unfold accErr; dsimp only; split <;> simp
@[simp] theorem accErr_pulsesPrev (s : State) (c a : Nat) (d : Bool) : (accErr s c a d).pulsesPrev = s.pulsesPrev := by unfold accErr; dsimp only; split <;> simp
@[simp] theorem accErr_freeCtr (s : State) (c a : Nat) (d : Bool) : (accErr s c a d).freeCtr = s.freeCtr := by unfold accErr; dsimp only; split <;> simp
@[simp] theorem accErr_pending (s : State) (c a : Nat) (d : Bool) : (accErr s c a d).pending = s.pending := by unfold accErr; dsimp only; split <;> simp

/-! ## Free values, pulses, latches -/

@[simp] theorem drawFree_mode (s : State) : ((drawFree s).2).mode = s.mode := rfl
@[simp] theorem drawFree_ms (s : State) : ((drawFree s).2).ms = s.ms := rfl
@[simp] theorem drawFree_time (s : State) : ((drawFree s).2).time = s.time := rfl
@[simp] theorem drawFree_plumb (s : State) : ((drawFree s).2).plumb = s.plumb := rfl
@[simp] theorem drawFree_sp (s : State) : ((drawFree s).2).sp = s.sp := rfl
@[simp] theorem drawFree_zcp (s : State) : ((drawFree s).2).zcp = s.zcp := rfl
@[simp] theorem drawFree_core (s : State) : ((drawFree s).2).core = s.core := rfl
@[simp] theorem drawFree_scan (s : State) : ((drawFree s).2).scan = s.scan := rfl
@[simp] theorem drawFree_txn (s : State) : ((drawFree s).2).txn = s.txn := rfl
@[simp] theorem drawFree_sby (s : State) : ((drawFree s).2).sby = s.sby := rfl
@[simp] theorem drawFree_cls (s : State) : ((drawFree s).2).cls = s.cls := rfl
@[simp] theorem drawFree_egr (s : State) : ((drawFree s).2).egr = s.egr := rfl
@[simp] theorem drawFree_can (s : State) : ((drawFree s).2).can = s.can := rfl
@[simp] theorem drawFree_fld (s : State) : ((drawFree s).2).fld = s.fld := rfl
@[simp] theorem drawFree_phm (s : State) : ((drawFree s).2).phm = s.phm := rfl
@[simp] theorem drawFree_cal (s : State) : ((drawFree s).2).cal = s.cal := rfl
@[simp] theorem drawFree_pwr (s : State) : ((drawFree s).2).pwr = s.pwr := rfl
@[simp] theorem drawFree_trc (s : State) : ((drawFree s).2).trc = s.trc := rfl
@[simp] theorem drawFree_tap (s : State) : ((drawFree s).2).tap = s.tap := rfl
@[simp] theorem drawFree_nv (s : State) : ((drawFree s).2).nv = s.nv := rfl
@[simp] theorem drawFree_pins (s : State) : ((drawFree s).2).pins = s.pins := rfl
@[simp] theorem drawFree_pulses (s : State) : ((drawFree s).2).pulses = s.pulses := rfl
@[simp] theorem drawFree_latches (s : State) : ((drawFree s).2).latches = s.latches := rfl
@[simp] theorem drawFree_pulsesPrev (s : State) : ((drawFree s).2).pulsesPrev = s.pulsesPrev := rfl
@[simp] theorem drawFree_pending (s : State) : ((drawFree s).2).pending = s.pending := rfl
@[simp] theorem drawFree_regs (s : State) : ((drawFree s).2).regs = s.regs := rfl

@[simp] theorem pulse_mode (s : State) (a : Nat) : (pulse s a).mode = s.mode := by unfold pulse; split <;> rfl
@[simp] theorem pulse_ms (s : State) (a : Nat) : (pulse s a).ms = s.ms := by unfold pulse; split <;> rfl
@[simp] theorem pulse_time (s : State) (a : Nat) : (pulse s a).time = s.time := by unfold pulse; split <;> rfl
@[simp] theorem pulse_plumb (s : State) (a : Nat) : (pulse s a).plumb = s.plumb := by unfold pulse; split <;> rfl
@[simp] theorem pulse_sp (s : State) (a : Nat) : (pulse s a).sp = s.sp := by unfold pulse; split <;> rfl
@[simp] theorem pulse_zcp (s : State) (a : Nat) : (pulse s a).zcp = s.zcp := by unfold pulse; split <;> rfl
@[simp] theorem pulse_core (s : State) (a : Nat) : (pulse s a).core = s.core := by unfold pulse; split <;> rfl
@[simp] theorem pulse_scan (s : State) (a : Nat) : (pulse s a).scan = s.scan := by unfold pulse; split <;> rfl
@[simp] theorem pulse_txn (s : State) (a : Nat) : (pulse s a).txn = s.txn := by unfold pulse; split <;> rfl
@[simp] theorem pulse_sby (s : State) (a : Nat) : (pulse s a).sby = s.sby := by unfold pulse; split <;> rfl
@[simp] theorem pulse_cls (s : State) (a : Nat) : (pulse s a).cls = s.cls := by unfold pulse; split <;> rfl
@[simp] theorem pulse_egr (s : State) (a : Nat) : (pulse s a).egr = s.egr := by unfold pulse; split <;> rfl
@[simp] theorem pulse_can (s : State) (a : Nat) : (pulse s a).can = s.can := by unfold pulse; split <;> rfl
@[simp] theorem pulse_fld (s : State) (a : Nat) : (pulse s a).fld = s.fld := by unfold pulse; split <;> rfl
@[simp] theorem pulse_phm (s : State) (a : Nat) : (pulse s a).phm = s.phm := by unfold pulse; split <;> rfl
@[simp] theorem pulse_cal (s : State) (a : Nat) : (pulse s a).cal = s.cal := by unfold pulse; split <;> rfl
@[simp] theorem pulse_pwr (s : State) (a : Nat) : (pulse s a).pwr = s.pwr := by unfold pulse; split <;> rfl
@[simp] theorem pulse_trc (s : State) (a : Nat) : (pulse s a).trc = s.trc := by unfold pulse; split <;> rfl
@[simp] theorem pulse_tap (s : State) (a : Nat) : (pulse s a).tap = s.tap := by unfold pulse; split <;> rfl
@[simp] theorem pulse_nv (s : State) (a : Nat) : (pulse s a).nv = s.nv := by unfold pulse; split <;> rfl
@[simp] theorem pulse_pins (s : State) (a : Nat) : (pulse s a).pins = s.pins := by unfold pulse; split <;> rfl
@[simp] theorem pulse_latches (s : State) (a : Nat) : (pulse s a).latches = s.latches := by unfold pulse; split <;> rfl
@[simp] theorem pulse_pulsesPrev (s : State) (a : Nat) : (pulse s a).pulsesPrev = s.pulsesPrev := by unfold pulse; split <;> rfl
@[simp] theorem pulse_freeCtr (s : State) (a : Nat) : (pulse s a).freeCtr = s.freeCtr := by unfold pulse; split <;> rfl
@[simp] theorem pulse_pending (s : State) (a : Nat) : (pulse s a).pending = s.pending := by unfold pulse; split <;> rfl
@[simp] theorem pulse_regs (s : State) (a : Nat) : (pulse s a).regs = s.regs := by unfold pulse; split <;> rfl

@[simp] theorem setLatch_mode (s : State) (w g : Nat) (v : List Nat) : (setLatch s w g v).mode = s.mode := rfl
@[simp] theorem setLatch_ms (s : State) (w g : Nat) (v : List Nat) : (setLatch s w g v).ms = s.ms := rfl
@[simp] theorem setLatch_time (s : State) (w g : Nat) (v : List Nat) : (setLatch s w g v).time = s.time := rfl
@[simp] theorem setLatch_plumb (s : State) (w g : Nat) (v : List Nat) : (setLatch s w g v).plumb = s.plumb := rfl
@[simp] theorem setLatch_sp (s : State) (w g : Nat) (v : List Nat) : (setLatch s w g v).sp = s.sp := rfl
@[simp] theorem setLatch_zcp (s : State) (w g : Nat) (v : List Nat) : (setLatch s w g v).zcp = s.zcp := rfl
@[simp] theorem setLatch_core (s : State) (w g : Nat) (v : List Nat) : (setLatch s w g v).core = s.core := rfl
@[simp] theorem setLatch_scan (s : State) (w g : Nat) (v : List Nat) : (setLatch s w g v).scan = s.scan := rfl
@[simp] theorem setLatch_txn (s : State) (w g : Nat) (v : List Nat) : (setLatch s w g v).txn = s.txn := rfl
@[simp] theorem setLatch_sby (s : State) (w g : Nat) (v : List Nat) : (setLatch s w g v).sby = s.sby := rfl
@[simp] theorem setLatch_cls (s : State) (w g : Nat) (v : List Nat) : (setLatch s w g v).cls = s.cls := rfl
@[simp] theorem setLatch_egr (s : State) (w g : Nat) (v : List Nat) : (setLatch s w g v).egr = s.egr := rfl
@[simp] theorem setLatch_can (s : State) (w g : Nat) (v : List Nat) : (setLatch s w g v).can = s.can := rfl
@[simp] theorem setLatch_fld (s : State) (w g : Nat) (v : List Nat) : (setLatch s w g v).fld = s.fld := rfl
@[simp] theorem setLatch_phm (s : State) (w g : Nat) (v : List Nat) : (setLatch s w g v).phm = s.phm := rfl
@[simp] theorem setLatch_cal (s : State) (w g : Nat) (v : List Nat) : (setLatch s w g v).cal = s.cal := rfl
@[simp] theorem setLatch_pwr (s : State) (w g : Nat) (v : List Nat) : (setLatch s w g v).pwr = s.pwr := rfl
@[simp] theorem setLatch_trc (s : State) (w g : Nat) (v : List Nat) : (setLatch s w g v).trc = s.trc := rfl
@[simp] theorem setLatch_tap (s : State) (w g : Nat) (v : List Nat) : (setLatch s w g v).tap = s.tap := rfl
@[simp] theorem setLatch_nv (s : State) (w g : Nat) (v : List Nat) : (setLatch s w g v).nv = s.nv := rfl
@[simp] theorem setLatch_pins (s : State) (w g : Nat) (v : List Nat) : (setLatch s w g v).pins = s.pins := rfl
@[simp] theorem setLatch_pulses (s : State) (w g : Nat) (v : List Nat) : (setLatch s w g v).pulses = s.pulses := rfl
@[simp] theorem setLatch_pulsesPrev (s : State) (w g : Nat) (v : List Nat) : (setLatch s w g v).pulsesPrev = s.pulsesPrev := rfl
@[simp] theorem setLatch_freeCtr (s : State) (w g : Nat) (v : List Nat) : (setLatch s w g v).freeCtr = s.freeCtr := rfl
@[simp] theorem setLatch_pending (s : State) (w g : Nat) (v : List Nat) : (setLatch s w g v).pending = s.pending := rfl
@[simp] theorem setLatch_regs (s : State) (w g : Nat) (v : List Nat) : (setLatch s w g v).regs = s.regs := rfl

/-! ## Bits and words of the live spaces -/

@[simp] theorem putBit_mode (s : State) (a : Nat) (v : Bool) : (putBit s a v).mode = s.mode := rfl
@[simp] theorem putBit_ms (s : State) (a : Nat) (v : Bool) : (putBit s a v).ms = s.ms := rfl
@[simp] theorem putBit_time (s : State) (a : Nat) (v : Bool) : (putBit s a v).time = s.time := rfl
@[simp] theorem putBit_plumb (s : State) (a : Nat) (v : Bool) : (putBit s a v).plumb = s.plumb := rfl
@[simp] theorem putBit_zcp (s : State) (a : Nat) (v : Bool) : (putBit s a v).zcp = s.zcp := rfl
@[simp] theorem putBit_scan (s : State) (a : Nat) (v : Bool) : (putBit s a v).scan = s.scan := rfl
@[simp] theorem putBit_txn (s : State) (a : Nat) (v : Bool) : (putBit s a v).txn = s.txn := rfl
@[simp] theorem putBit_sby (s : State) (a : Nat) (v : Bool) : (putBit s a v).sby = s.sby := rfl
@[simp] theorem putBit_cls (s : State) (a : Nat) (v : Bool) : (putBit s a v).cls = s.cls := rfl
@[simp] theorem putBit_egr (s : State) (a : Nat) (v : Bool) : (putBit s a v).egr = s.egr := rfl
@[simp] theorem putBit_can (s : State) (a : Nat) (v : Bool) : (putBit s a v).can = s.can := rfl
@[simp] theorem putBit_fld (s : State) (a : Nat) (v : Bool) : (putBit s a v).fld = s.fld := rfl
@[simp] theorem putBit_phm (s : State) (a : Nat) (v : Bool) : (putBit s a v).phm = s.phm := rfl
@[simp] theorem putBit_cal (s : State) (a : Nat) (v : Bool) : (putBit s a v).cal = s.cal := rfl
@[simp] theorem putBit_pwr (s : State) (a : Nat) (v : Bool) : (putBit s a v).pwr = s.pwr := rfl
@[simp] theorem putBit_trc (s : State) (a : Nat) (v : Bool) : (putBit s a v).trc = s.trc := rfl
@[simp] theorem putBit_tap (s : State) (a : Nat) (v : Bool) : (putBit s a v).tap = s.tap := rfl
@[simp] theorem putBit_nv (s : State) (a : Nat) (v : Bool) : (putBit s a v).nv = s.nv := rfl
@[simp] theorem putBit_pins (s : State) (a : Nat) (v : Bool) : (putBit s a v).pins = s.pins := rfl
@[simp] theorem putBit_pulses (s : State) (a : Nat) (v : Bool) : (putBit s a v).pulses = s.pulses := rfl
@[simp] theorem putBit_latches (s : State) (a : Nat) (v : Bool) : (putBit s a v).latches = s.latches := rfl
@[simp] theorem putBit_pulsesPrev (s : State) (a : Nat) (v : Bool) : (putBit s a v).pulsesPrev = s.pulsesPrev := rfl
@[simp] theorem putBit_freeCtr (s : State) (a : Nat) (v : Bool) : (putBit s a v).freeCtr = s.freeCtr := rfl
@[simp] theorem putBit_pending (s : State) (a : Nat) (v : Bool) : (putBit s a v).pending = s.pending := rfl
@[simp] theorem putBit_regs (s : State) (a : Nat) (v : Bool) : (putBit s a v).regs = s.regs := rfl

@[simp] theorem putWord_mode (s : State) (a : Nat) (v : TWord) : (putWord s a v).mode = s.mode := rfl
@[simp] theorem putWord_ms (s : State) (a : Nat) (v : TWord) : (putWord s a v).ms = s.ms := rfl
@[simp] theorem putWord_time (s : State) (a : Nat) (v : TWord) : (putWord s a v).time = s.time := rfl
@[simp] theorem putWord_plumb (s : State) (a : Nat) (v : TWord) : (putWord s a v).plumb = s.plumb := rfl
@[simp] theorem putWord_zcp (s : State) (a : Nat) (v : TWord) : (putWord s a v).zcp = s.zcp := rfl
@[simp] theorem putWord_core (s : State) (a : Nat) (v : TWord) : (putWord s a v).core = s.core := rfl
@[simp] theorem putWord_scan (s : State) (a : Nat) (v : TWord) : (putWord s a v).scan = s.scan := rfl
@[simp] theorem putWord_txn (s : State) (a : Nat) (v : TWord) : (putWord s a v).txn = s.txn := rfl
@[simp] theorem putWord_sby (s : State) (a : Nat) (v : TWord) : (putWord s a v).sby = s.sby := rfl
@[simp] theorem putWord_cls (s : State) (a : Nat) (v : TWord) : (putWord s a v).cls = s.cls := rfl
@[simp] theorem putWord_egr (s : State) (a : Nat) (v : TWord) : (putWord s a v).egr = s.egr := rfl
@[simp] theorem putWord_can (s : State) (a : Nat) (v : TWord) : (putWord s a v).can = s.can := rfl
@[simp] theorem putWord_fld (s : State) (a : Nat) (v : TWord) : (putWord s a v).fld = s.fld := rfl
@[simp] theorem putWord_phm (s : State) (a : Nat) (v : TWord) : (putWord s a v).phm = s.phm := rfl
@[simp] theorem putWord_cal (s : State) (a : Nat) (v : TWord) : (putWord s a v).cal = s.cal := rfl
@[simp] theorem putWord_pwr (s : State) (a : Nat) (v : TWord) : (putWord s a v).pwr = s.pwr := rfl
@[simp] theorem putWord_trc (s : State) (a : Nat) (v : TWord) : (putWord s a v).trc = s.trc := rfl
@[simp] theorem putWord_tap (s : State) (a : Nat) (v : TWord) : (putWord s a v).tap = s.tap := rfl
@[simp] theorem putWord_nv (s : State) (a : Nat) (v : TWord) : (putWord s a v).nv = s.nv := rfl
@[simp] theorem putWord_pins (s : State) (a : Nat) (v : TWord) : (putWord s a v).pins = s.pins := rfl
@[simp] theorem putWord_pulses (s : State) (a : Nat) (v : TWord) : (putWord s a v).pulses = s.pulses := rfl
@[simp] theorem putWord_latches (s : State) (a : Nat) (v : TWord) : (putWord s a v).latches = s.latches := rfl
@[simp] theorem putWord_pulsesPrev (s : State) (a : Nat) (v : TWord) : (putWord s a v).pulsesPrev = s.pulsesPrev := rfl
@[simp] theorem putWord_freeCtr (s : State) (a : Nat) (v : TWord) : (putWord s a v).freeCtr = s.freeCtr := rfl
@[simp] theorem putWord_pending (s : State) (a : Nat) (v : TWord) : (putWord s a v).pending = s.pending := rfl
@[simp] theorem putWord_regs (s : State) (a : Nat) (v : TWord) : (putWord s a v).regs = s.regs := rfl

@[simp] theorem updTask_mode (s : State) (t : Nat) (g : TaskSt → TaskSt) : (updTask s t g).mode = s.mode := rfl
@[simp] theorem updTask_ms (s : State) (t : Nat) (g : TaskSt → TaskSt) : (updTask s t g).ms = s.ms := rfl
@[simp] theorem updTask_time (s : State) (t : Nat) (g : TaskSt → TaskSt) : (updTask s t g).time = s.time := rfl
@[simp] theorem updTask_plumb (s : State) (t : Nat) (g : TaskSt → TaskSt) : (updTask s t g).plumb = s.plumb := rfl
@[simp] theorem updTask_sp (s : State) (t : Nat) (g : TaskSt → TaskSt) : (updTask s t g).sp = s.sp := rfl
@[simp] theorem updTask_zcp (s : State) (t : Nat) (g : TaskSt → TaskSt) : (updTask s t g).zcp = s.zcp := rfl
@[simp] theorem updTask_core (s : State) (t : Nat) (g : TaskSt → TaskSt) : (updTask s t g).core = s.core := rfl
@[simp] theorem updTask_txn (s : State) (t : Nat) (g : TaskSt → TaskSt) : (updTask s t g).txn = s.txn := rfl
@[simp] theorem updTask_sby (s : State) (t : Nat) (g : TaskSt → TaskSt) : (updTask s t g).sby = s.sby := rfl
@[simp] theorem updTask_cls (s : State) (t : Nat) (g : TaskSt → TaskSt) : (updTask s t g).cls = s.cls := rfl
@[simp] theorem updTask_egr (s : State) (t : Nat) (g : TaskSt → TaskSt) : (updTask s t g).egr = s.egr := rfl
@[simp] theorem updTask_can (s : State) (t : Nat) (g : TaskSt → TaskSt) : (updTask s t g).can = s.can := rfl
@[simp] theorem updTask_fld (s : State) (t : Nat) (g : TaskSt → TaskSt) : (updTask s t g).fld = s.fld := rfl
@[simp] theorem updTask_phm (s : State) (t : Nat) (g : TaskSt → TaskSt) : (updTask s t g).phm = s.phm := rfl
@[simp] theorem updTask_cal (s : State) (t : Nat) (g : TaskSt → TaskSt) : (updTask s t g).cal = s.cal := rfl
@[simp] theorem updTask_pwr (s : State) (t : Nat) (g : TaskSt → TaskSt) : (updTask s t g).pwr = s.pwr := rfl
@[simp] theorem updTask_trc (s : State) (t : Nat) (g : TaskSt → TaskSt) : (updTask s t g).trc = s.trc := rfl
@[simp] theorem updTask_tap (s : State) (t : Nat) (g : TaskSt → TaskSt) : (updTask s t g).tap = s.tap := rfl
@[simp] theorem updTask_nv (s : State) (t : Nat) (g : TaskSt → TaskSt) : (updTask s t g).nv = s.nv := rfl
@[simp] theorem updTask_pins (s : State) (t : Nat) (g : TaskSt → TaskSt) : (updTask s t g).pins = s.pins := rfl
@[simp] theorem updTask_pulses (s : State) (t : Nat) (g : TaskSt → TaskSt) : (updTask s t g).pulses = s.pulses := rfl
@[simp] theorem updTask_latches (s : State) (t : Nat) (g : TaskSt → TaskSt) : (updTask s t g).latches = s.latches := rfl
@[simp] theorem updTask_pulsesPrev (s : State) (t : Nat) (g : TaskSt → TaskSt) : (updTask s t g).pulsesPrev = s.pulsesPrev := rfl
@[simp] theorem updTask_freeCtr (s : State) (t : Nat) (g : TaskSt → TaskSt) : (updTask s t g).freeCtr = s.freeCtr := rfl
@[simp] theorem updTask_pending (s : State) (t : Nat) (g : TaskSt → TaskSt) : (updTask s t g).pending = s.pending := rfl
@[simp] theorem updTask_regs (s : State) (t : Nat) (g : TaskSt → TaskSt) : (updTask s t g).regs = s.regs := rfl

end Sys2Proof.Machine
end

