-- ==== Sys2Proof/Laws/Registers.lean ====
section
/-! SUPPORT. Laws of the named operations over register fields: what a field reads after each of them. -/

namespace Sys2Proof.Machine

/-! ## A field after a write (R3, R6) -/

@[simp] theorem getF_setF_self (s : State) (f : Fld) (v : Nat) : getF (setF s f v) f = v % 2 ^ f.w := sget_sset_self ..

theorem getF_setF_ne (s : State) {f g : Fld} (v : Nat) (h : f.key ≠ g.key) : getF (setF s f v) g = getF s g :=
  by
  unfold getF setF; exact sget_sset_ne _ _ _ _ h

theorem getF_setFs_ne (s : State) (l : List (Fld × Nat)) {g : Fld} (h : ∀ p ∈ l, p.1.key ≠ g.key) :
    getF (setFs s l) g = getF s g := by
  induction l generalizing s with
  | nil => rfl
  | cons p t ih =>
    rw [setFs, ih _ fun q hq => h q (List.mem_cons_of_mem _ hq), getF_setF_ne _ _ (h p List.mem_cons_self)]

/-- A field reads the same in two states with one register store. -/
theorem getF_regs {s t : State} (h : s.regs = t.regs) (f : Fld) : getF s f = getF t f := by
  unfold getF; rw [h]

theorem isSet_setF_one (s : State) (f : Fld) (h : f.w ≠ 0) : isSet (setF s f 1) f = true := by
  have : 1 % 2 ^ f.w = 1 := Nat.mod_eq_of_lt (Nat.one_lt_two_pow h)
  simp [isSet, this]

/-! ## Counters (R8) -/

theorem getF_incWrap_self (s : State) (f : Fld) : getF (incWrap s f) f = (getF s f + 1) % 2 ^ f.w := getF_setF_self ..

theorem getF_incWrap_ne (s : State) {f g : Fld} (h : f.key ≠ g.key) : getF (incWrap s f) g = getF s g :=
  getF_setF_ne _ _ h

theorem getF_incStop_self (s : State) (f : Fld) (h : getF s f < 2 ^ f.w) :
    getF (incStop s f) f = min (getF s f + 1) (2 ^ f.w - 1) := by
  unfold incStop
  split
  · rw [getF_setF_self, Nat.mod_eq_of_lt ‹_›]; omega
  · omega

theorem getF_incStop_ne (s : State) {f g : Fld} (h : f.key ≠ g.key) : getF (incStop s f) g = getF s g := by
  unfold incStop
  split
  · exact getF_setF_ne _ _ h
  · rfl

theorem getF_incSat_ne (s : State) {f o g : Fld} (h : f.key ≠ g.key) (h' : o.key ≠ g.key) :
    getF (incSat s f o) g = getF s g := by
  unfold incSat
  split
  · exact getF_setF_ne _ _ h
  · exact getF_setF_ne _ _ h'

/-! ## Events and the journal touch their sequence and no other field -/

theorem getF_raiseEv_ne (s : State) (r b a : Nat) {g : Fld} (h : Reg.ZCP_ESEQ.SEQ.key ≠ g.key) :
    getF (raiseEv s r b a) g = getF s g := by
  unfold raiseEv
  exact (getF_incWrap_ne _ h).trans (getF_regs rfl g)

theorem getF_raise_ne (s : State) (f : Fld) {g : Fld} (h : Reg.ZCP_ESEQ.SEQ.key ≠ g.key) : getF (raise s f) g = getF s g :=
  getF_raiseEv_ne _ _ _ _ h

theorem getF_journalPut_ne (s : State) (a b c d e : Nat) (p : Peer) {g : Fld} (h : Reg.ZCP_JSEQ.SEQ.key ≠ g.key)
    (h' : Reg.ZCP_JLOST.CNT.key ≠ g.key) : getF (journalPut s a b c d e p) g = getF s g := by
  unfold journalPut
  refine (getF_incWrap_ne _ h).trans ((getF_regs rfl g).trans ?_)
  dsimp only
  split
  · split
    · exact getF_incStop_ne _ h'
    · rfl
  · rfl

theorem getF_journalInt_ne (s : State) (r a : Nat) {g : Fld} (h : Reg.ZCP_JSEQ.SEQ.key ≠ g.key)
    (h' : Reg.ZCP_JLOST.CNT.key ≠ g.key) : getF (journalInt s r a) g = getF s g :=
  getF_journalPut_ne _ _ _ _ _ _ _ h h'

/-! ## The data spaces -/

theorem rawWord_putWord (s : State) (a b : Nat) (v : TWord) : rawWord (putWord s a v) b = if a = b then v else rawWord s b :=
  sget_sset ..

theorem sget_putBit (s : State) (a b : Nat) (v : Bool) :
    sget false (putBit s a v).sp.bits b = if a = b then v else sget false s.sp.bits b :=
  sget_sset ..

end Sys2Proof.Machine
end

