-- ==== Sys2Proof/WellFormed.lean ====
section
/-!
DEFINITION. What a well-formed command is: every unit, task, port, position and index operand lies in the range the spec
gives it. A value that a request may carry and that the block itself judges (a parameter of a ZCP command) is bounded by its
width only.
-/

namespace Sys2Proof

open Machine

/-- A move's place: a task, a bank, a bundle index and a slot (R93, R146). -/
def Machine.Origin.wf (o : Origin) : Bool := o.task < 8 && o.bank < 2 && o.pc < 65536 && o.slot < 8

/-- A requester of R595: a task, or the host. -/
def isRequester (who : Nat) : Bool := who < 8 || who == 16

/-- A direct writer: a task has a number below 8. -/
def Machine.Writer.wf : Writer → Bool
  | .task t => t < 8
  | _ => true

/-- A peer of Table 18.1 with the four address words of R528. -/
def Machine.Peer.wf (p : Peer) : Bool :=
  p.tr < 7 && p.addr.length == 4 && p.addr.all (· < 2 ^ 32) && p.port < 65536 && p.via < 4 && p.mac < 2 ^ 48

/-- A ZCP request: its peer, a 16-bit session number, a 32-bit sequence number (Table 18.2). -/
def Machine.ZReq.wf (r : ZReq) : Bool := r.peer.wf && r.session < 65536 && r.seq < 2 ^ 32

/-- A frame of a priority bus: identifier within its format, data length code within 4 bits (R368). -/
def Machine.CanFrame.wf (f : CanFrame) : Bool := (f.id < if f.ide then 2 ^ 29 else 2 ^ 11) && f.dlc < 16

/-- A well-formed command. -/
def Instr.wf : Instr → Bool
  | .vbatRise _ => true
  | .powerOnReset => true
  | .resetPin _ => true
  | .resetPinRelease stn bootsel => decide (stn < 256) && decide (bootsel < 4)
  | .watchdogExpiry => true
  | .railResetWindow rail => decide (rail < 9)
  | .railLoss rail => decide (rail < 9)
  | .vbatLoss => true
  | .rstoutRelease => true
  | .bootComplete => true
  | .seedTimeout => true
  | .selftestTestDone _ => true
  | .roleNegTimeout => true
  | .modeReqStop _ => true
  | .modeReqRun _ => true
  | .modeReqHalt _ => true
  | .modeReqHold _ => true
  | .stopAtQuietPoint => true
  | .stopTimeout => true
  | .domainPowerGood d => decide (d < 12)
  | .holdEntryDone => true
  | .wakePin _ => true
  | .wakeTime => true
  | .holdWakeReloadDone => true
  | .wakeComplete => true
  | .aliveToggle => true
  | .scrubAccess _ _ => true
  | .eccWriteBack _ _ => true
  | .stationSupvExpiry stn => decide (stn < 256)
  | .timNowShRead who => isRequester who
  | .leapSecond => true
  | .ptpMessageRx port _ => decide (port < 4)
  | .ptpTimeout port _ => decide (port < 4)
  | .ptpMasterSend port kind => decide (port < 4) && decide (kind < 6)
  | .irigbFrame _ => true
  | .ppsEdge _ => true
  | .ppsTimeout => true
  | .sblTimexSend => true
  | .sblTimexRx _ => true
  | .sblTimexTimeout => true
  | .sourceQualified n => decide (n < 7)
  | .sourceSwitch n => decide (n < 16)
  | .holdoverUpdate => true
  | .plumbSampleTimeout => true
  | .plumbCycleWrap => true
  | .plbCycleRead who => isRequester who
  | .bundleIssue _ => true
  | .deferredResolution _ => true
  | .waitingTriggerFire _ => true
  | .operationResult _ => true
  | .aluAdd o u _ => o.wf && [1, 2, 3, 4].contains u
  | .aluSub o u _ => o.wf && [1, 2, 3, 4].contains u
  | .aluAnd o u _ => o.wf && [1, 2, 3, 4].contains u
  | .aluOr o u _ => o.wf && [1, 2, 3, 4].contains u
  | .aluXor o u _ => o.wf && [1, 2, 3, 4].contains u
  | .aluShl o u _ => o.wf && [1, 2, 3, 4].contains u
  | .aluShr o u _ => o.wf && [1, 2, 3, 4].contains u
  | .aluMin o u _ => o.wf && [1, 2, 3, 4].contains u
  | .aluMax o u _ => o.wf && [1, 2, 3, 4].contains u
  | .aluNegabs o u _ => o.wf && [1, 2, 3, 4].contains u
  | .aluSel o u _ => o.wf && [1, 2, 3, 4].contains u
  | .aluCvt o u _ => o.wf && [1, 2, 3, 4].contains u
  | .gbuAnd o u _ => o.wf && [5, 6].contains u
  | .gbuOr o u _ => o.wf && [5, 6].contains u
  | .gbuXor o u _ => o.wf && [5, 6].contains u
  | .gbuAndn o u _ => o.wf && [5, 6].contains u
  | .gbuNot o u _ => o.wf && [5, 6].contains u
  | .gbuCopy o u _ => o.wf && [5, 6].contains u
  | .gbuSr o u _ => o.wf && [5, 6].contains u
  | .gbuRs o u _ => o.wf && [5, 6].contains u
  | .gbuRise o u _ => o.wf && [5, 6].contains u
  | .gbuFall o u _ => o.wf && [5, 6].contains u
  | .gbuTon o u _ => o.wf && [5, 6].contains u
  | .gbuTof o u _ => o.wf && [5, 6].contains u
  | .timerSweep cell => decide (cell < 1024)
  | .mulMul o u _ => o.wf && [7].contains u
  | .mulMulw o u _ => o.wf && [7].contains u
  | .mulSq o u _ => o.wf && [7].contains u
  | .phuCmac o u _ => o.wf && [8].contains u
  | .phuCmag o u _ => o.wf && [8].contains u
  | .phuCrot o u _ => o.wf && [8].contains u
  | .phuDft o u _ => o.wf && [8].contains u
  | .lsuLd o u _ => o.wf && [9, 10].contains u
  | .lsuLdx o u _ => o.wf && [9, 10].contains u
  | .lsuLdp o u _ => o.wf && [9, 10].contains u
  | .lsuSt o u _ => o.wf && [9, 10].contains u
  | .lsuStx o u _ => o.wf && [9, 10].contains u
  | .lsuStp o u _ => o.wf && [9, 10].contains u
  | .bruEq o u _ => o.wf && [11].contains u
  | .bruNe o u _ => o.wf && [11].contains u
  | .bruLt o u _ => o.wf && [11].contains u
  | .bruLe o u _ => o.wf && [11].contains u
  | .bruGt o u _ => o.wf && [11].contains u
  | .bruGe o u _ => o.wf && [11].contains u
  | .bruTst o u _ => o.wf && [11].contains u
  | .bruPc o u _ => o.wf && [11].contains u
  | .bruCall o u _ => o.wf && [11].contains u
  | .tmuNowT o u _ => o.wf && [12].contains u
  | .tmuNowA o u _ => o.wf && [12].contains u
  | .tmuAdda o u _ => o.wf && [12].contains u
  | .tmuSchedA o u _ => o.wf && [12].contains u
  | .tmuSchedT o u _ => o.wf && [12].contains u
  | .tmuCancel o u _ => o.wf && [12].contains u
  | .tmuPop o u _ => o.wf && [12].contains u
  | .tmuEventFire slot => decide (slot < 32)
  | .tmuFastoutEnqueue => true
  | .quRecv o u _ => o.wf && [13].contains u
  | .quSendEth o u _ => o.wf && [13].contains u
  | .quSendCan o u _ => o.wf && [13].contains u
  | .quFldCmd o u _ => o.wf && [13].contains u
  | .quRegRd o u _ => o.wf && [13].contains u
  | .quRegWr o u _ => o.wf && [13].contains u
  | .imgEnd o u _ => o.wf && [14].contains u
  | .macSel o u _ => o.wf && [15].contains u
  | .macExec o u _ => o.wf && [15].contains u
  | .macExecDirect o n _ => o.wf && decide (n < 10)
  | .fldFastout o u _ => o.wf && [16].contains u
  | .fastFrameLaunch k => decide (k < 8)
  | .coreCycHiRead who => isRequester who
  | .coreGtimstRead who => isRequester who
  | .scanhiRead task who => decide (task < 8) && isRequester who
  | .readClearField addr => decide (addr < 2 ^ 32)
  | .triggerPeriod task => decide (task < 8)
  | .triggerAngle task => decide (task < 8)
  | .triggerEdge task _ => decide (task < 8)
  | .heldTriggerRelease task => decide (task < 8)
  | .taskFreeze task => decide (task < 8)
  | .launchCommit task => decide (task < 8)
  | .stationAckTimeout seq => decide (seq < 2 ^ 32)
  | .pwlogClear => true
  | .txnCommitInstant => true
  | .txnEffect => true
  | .txnQpTimeout => true
  | .txnRecorded => true
  | .prepareDone => true
  | .editCopyBundle => true
  | .sysTxnResend => true
  | .sysTxnGuardDeadline => true
  | .sysReportResend => true
  | .zcpReplyMatch peer seq opcode status => peer.wf && decide (seq < 2 ^ 32) && decide (opcode < 65536) && decide (status < 65536)
  | .sblLinkUp stn sysId dirCrc _ => decide (stn < 256) && decide (sysId < 65536) && decide (dirCrc < 2 ^ 32)
  | .sblAlignLoss => true
  | .sblHbSend => true
  | .sblHbRx _ _ => true
  | .sblAckRx _ seq => decide (seq < 65536)
  | .sblNakRx _ seq => decide (seq < 65536)
  | .sblRetxTimeout => true
  | .sblEvtRx _ lseq _ => decide (lseq < 65536)
  | .sblXferRx _ lseq _ _ => decide (lseq < 65536)
  | .sblXctlRx _ lseq => decide (lseq < 65536)
  | .sblNegRx _ stn sysId dirCrc => decide (stn < 256) && decide (sysId < 65536) && decide (dirCrc < 2 ^ 32)
  | .sblHandoverRx _ lseq => decide (lseq < 65536)
  | .sblRstreqRx _ lseq => decide (lseq < 65536)
  | .partnerLoss => true
  | .replayEvent => true
  | .streamLossMark => true
  | .xferCut => true
  | .xferFrameSend => true
  | .takeoverBoundary => true
  | .handoverReq _ => true
  | .handoverMark => true
  | .demotion => true
  | .syncReq _ => true
  | .resetPartner _ => true
  | .frameHeaderDecision port _ _ => decide (port < 4)
  | .frameEnd port _ => decide (port < 4)
  | .payloadScanDone port => decide (port < 4)
  | .pauseDrainDone => true
  | .patternLoadDone => true
  | .dupEntryForget pair _ seq => decide (pair < 2) && decide (seq < 65536)
  | .tadpoleExpiry _ => true
  | .egressFrameStart port => decide (port < 4)
  | .egressFrameEnd port => decide (port < 4)
  | .gateChange port => decide (port < 4)
  | .gateListTakeover port => decide (port < 4)
  | .redsupSend pair => decide (pair < 2)
  | .gooseRetransmit slot => decide (slot < 16)
  | .canFrameRx n f _ => decide (n < 2) && f.wf
  | .canTxStart n => decide (n < 2)
  | .canTxDone n => decide (n < 2)
  | .canTxFail n => decide (n < 2)
  | .canError n tec rec => decide (n < 2) && decide (tec < 512) && decide (rec < 512)
  | .busoffRecovery n => decide (n < 2)
  | .canTbCancel n mask => decide (n < 2) && decide (mask < 256)
  | .canRxpop n => decide (n < 2)
  | .canHpbpop n => decide (n < 2)
  | .ttReferenceInstant n => decide (n < 2)
  | .ttWindowOpen n w => decide (n < 2) && decide (w < 32)
  | .ttTxenExpiry n => decide (n < 2)
  | .ttRefWatchTimeout n => decide (n < 2)
  | .canZcpCtxTimeout n _ => decide (n < 2)
  | .fieldFrameSend => true
  | .cpnFrameRx k link _ _ => decide (k < 8) && decide (link < 2)
  | .cpnAnswerSend k link => decide (k < 8) && decide (link < 2)
  | .hubAnswerRx k _ _ _ => decide (k < 8)
  | .hubAnswerTimeout k => decide (k < 8)
  | .cpnLossSlot k link => decide (k < 8) && decide (link < 2)
  | .cpnFastFrameRx k link set clr epoch _ => decide (k < 8) && decide (link < 2) && decide (set < 16) && decide (clr < 16) && decide (epoch < 256)
  | .fastLatchTimeout k out => decide (k < 8) && decide (out < 4)
  | .failHoldTimeout k => decide (k < 8)
  | .barrierDownFrame k _ => decide (k < 8)
  | .barrierUpFrame k _ => decide (k < 8)
  | .outCurrentLimit k out _ => decide (k < 8) && decide (out < 4)
  | .outThermalShutdown k out => decide (k < 8) && decide (out < 4)
  | .outThermalRestart k out => decide (k < 8) && decide (out < 4)
  | .fieldUvChange k _ => decide (k < 8)
  | .cpnReset k => decide (k < 8)
  | .cpnMgmtRead k link addr => decide (k < 8) && decide (link < 2) && decide (addr < 65536)
  | .cpnMgmtWrite k link addr data => decide (k < 8) && decide (link < 2) && decide (addr < 65536) && decide (data < 2 ^ 32)
  | .cpnShadowTimeout k => decide (k < 8)
  | .apply k link => decide (k < 8) && decide (link < 2)
  | .tsdClear k link outs => decide (k < 8) && decide (link < 2) && decide (outs < 16)
  | .fastRelease k link outs => decide (k < 8) && decide (link < 2) && decide (outs < 16)
  | .cntLatch k link => decide (k < 8) && decide (link < 2)
  | .cntClear k link chs => decide (k < 8) && decide (link < 2) && decide (chs < 4096)
  | .ovfClear k link chs => decide (k < 8) && decide (link < 2) && decide (chs < 4096)
  | .capArm k link chs => decide (k < 8) && decide (link < 2) && decide (chs < 4096)
  | .debouncedEdge k c subA subB => decide (k < 8) && decide (c < 12) && decide (subA < 2 ^ 32) && decide (subB < 2 ^ 32)
  | .counterEdge k c _ => decide (k < 8) && decide (c < 12)
  | .settlingEnd k c => decide (k < 8) && decide (c < 12)
  | .freqMeasurementClose k c periods ticks => decide (k < 8) && decide (c < 12) && decide (periods < 2 ^ 32) && decide (ticks < 2 ^ 32)
  | .freqNosigTimeout k c => decide (k < 8) && decide (c < 12)
  | .captureEdge k c _ _ subA subB => decide (k < 8) && decide (c < 12) && decide (subA < 2 ^ 32) && decide (subB < 2 ^ 32)
  | .tspSecond => true
  | .atrPoll => true
  | .calSecondTick _ => true
  | .calOscStop => true
  | .calSet who _ => isRequester who
  | .calTimeRead who => isRequester who
  | .calSnap who _ => isRequester who
  | .calSnapRelease who => isRequester who
  | .lbfSample _ => true
  | .lbfClear _ => true
  | .calDisciplinePoint => true
  | .zcpPacketRx peer _ => peer.wf
  | .zcpRequestTake => true
  | .zcpIdentify rq => rq.wf
  | .zcpReadReg rq addr n => rq.wf && decide (addr < 2 ^ 32) && decide (n < 65536)
  | .zcpReadMem rq addr len => rq.wf && decide (addr < 2 ^ 32) && decide (len < 65536)
  | .zcpStageRead rq addr n => rq.wf && decide (addr < 2 ^ 32) && decide (n < 65536)
  | .zcpOpStatus rq handle => rq.wf && decide (handle < 65536)
  | .zcpAbort rq handle => rq.wf && decide (handle < 65536)
  | .zcpJournalRead rq start n => rq.wf && decide (start < 2 ^ 32) && decide (n < 256)
  | .zcpEventRead rq start n => rq.wf && decide (start < 2 ^ 32) && decide (n < 256)
  | .zcpSessionOpen rq => rq.wf
  | .zcpSessionClose rq => rq.wf
  | .sessionTimeout slot => decide (slot < 16)
  | .zcpAnnounce rq stn sysId dirCrc mode epoch mac => rq.wf && decide (stn < 256) && decide (sysId < 65536) && decide (dirCrc < 2 ^ 32) && decide (mode < 256) && decide (epoch < 65536) && decide (mac < 2 ^ 48)
  | .announceSend => true
  | .zcpWriteReg rq addr _ => rq.wf && decide (addr < 2 ^ 32)
  | .zcpWriteMem rq addr _ => rq.wf && decide (addr < 2 ^ 32)
  | .zcpBusCancel rq n mask => rq.wf && decide (n < 256) && decide (mask < 256)
  | .zcpImgWrite rq _ => rq.wf
  | .zcpBegin rq persist systxn => rq.wf && decide (persist < 256) && decide (systxn < 2 ^ 32)
  | .zcpStage rq addr _ => rq.wf && decide (addr < 2 ^ 32)
  | .zcpPrepare rq => rq.wf
  | .zcpCommit rq kind when0 when1 => rq.wf && decide (kind < 256) && decide (when0 < 2 ^ 32) && decide (when1 < 2 ^ 32)
  | .zcpRollback rq force => rq.wf && decide (force < 256)
  | .zcpUndo rq => rq.wf
  | .zcpSysCommit rq systxn kind tS tNs a mask => rq.wf && decide (systxn < 2 ^ 32) && decide (kind < 256) && decide (tS < 2 ^ 32) && decide (tNs < 2 ^ 32) && decide (a < 2 ^ 32) && mask.length == 32 && mask.all (· < 256)
  | .zcpSysPrepare rq systxn sysId dirCrc kind tS tNs a => rq.wf && decide (systxn < 2 ^ 32) && decide (sysId < 65536) && decide (dirCrc < 2 ^ 32) && decide (kind < 256) && decide (tS < 2 ^ 32) && decide (tNs < 2 ^ 32) && decide (a < 2 ^ 32)
  | .zcpSysCommitAt rq systxn kind tS tNs a => rq.wf && decide (systxn < 2 ^ 32) && decide (kind < 256) && decide (tS < 2 ^ 32) && decide (tNs < 2 ^ 32) && decide (a < 2 ^ 32)
  | .zcpSysAbort rq systxn => rq.wf && decide (systxn < 2 ^ 32)
  | .zcpSysReport rq systxn stn outcome => rq.wf && decide (systxn < 2 ^ 32) && decide (stn < 256) && decide (outcome < 256)
  | .zcpLoadBankOpen rq bank ver crc => rq.wf && decide (bank < 256) && decide (ver < 65536) && decide (crc < 2 ^ 32)
  | .zcpLoadBankData rq index _ => rq.wf && decide (index < 65536)
  | .zcpLoadBankClose rq activate => rq.wf && decide (activate < 256)
  | .zcpLoadDtData rq entry _ => rq.wf && decide (entry < 256)
  | .zcpLoadDtClose rq version => rq.wf && decide (version < 65536)
  | .zcpEditBegin rq persist keep ver crc => rq.wf && decide (persist < 256) && decide (keep < 256) && decide (ver < 65536) && decide (crc < 2 ^ 32)
  | .zcpEditPatch rq index _ _ => rq.wf && decide (index < 65536)
  | .zcpModeReq rq mode => rq.wf && decide (mode < 256)
  | .zcpHandover rq => rq.wf
  | .zcpNvRead rq addr len => rq.wf && decide (addr < 2 ^ 32) && decide (len < 65536)
  | .zcpNvErase rq addr len => rq.wf && decide (addr < 2 ^ 32) && decide (len < 2 ^ 32)
  | .zcpNvProgram rq addr _ => rq.wf && decide (addr < 2 ^ 32)
  | .zcpNvImageOpen rq slot len crc => rq.wf && decide (slot < 256) && decide (len < 2 ^ 32) && decide (crc < 2 ^ 32)
  | .zcpNvImageData rq offset _ => rq.wf && decide (offset < 2 ^ 32)
  | .zcpNvImageClose rq => rq.wf
  | .zcpNvSave rq => rq.wf
  | .nvOpTimeout => true
  | .nvInterfaceGrant => true
  | .zcpTimeSet rq secHi secLo ns unc => rq.wf && decide (secHi < 65536) && decide (secLo < 2 ^ 32) && decide (ns < 2 ^ 32) && decide (unc < 2 ^ 32)
  | .zcpSelftestRun rq index => rq.wf && decide (index < 256)
  | .zcpReset rq => rq.wf
  | .longOpComplete _ status => decide (status < 65536)
  | .opSlotExpiry _ => true
  | .journalMirror => true
  | .spiRead addr _ => decide (addr < 2 ^ 32)
  | .spiWrite addr _ => decide (addr < 2 ^ 32)
  | .spiStatus => true
  | .spiZcpPut _ => true
  | .spiZcpGet => true
  | .spiUnknownCode code => !([0x02, 0x03, 0x05, 0x10, 0x11].contains code)
  | .registerWrite addr _ who => decide (addr < 2 ^ 32) && who.wf
  | .sysAccerrClear _ => true
  | .wordPayloadRead a => decide (a < 2 ^ 32)
  | .wordPayloadStage a _ => decide (a < 2 ^ 32)
  | .wordTagWrite a _ => decide (a < 2 ^ 32)
  | .bankHostWrite addr _ _ => decide (addr < 2 ^ 32)
  | .d11Switch _ _ => true
  | .railMeasure rail _ => decide (rail < 10)
  | .tempMeasure sensor _ => decide (sensor < 6)
  | .processMeasure m _ => decide (m < 8)
  | .avsDecision => true
  | .avsRelease => true
  | .avsHoldTimeout => true
  | .avsReadback _ _ => true
  | .pmbAlert status => decide (status < 65536)
  | .trcRdataRead => true
  | .tapExtest cells => decide (cells < 2 ^ 612)
  | .tapSamplePreload cells => decide (cells < 2 ^ 612)
  | .tapIdcode => true
  | .tapClamp => true
  | .tapHighz => true
  | .tapBypass => true
  | .dbgreg _ _ addr _ => decide (addr < 2 ^ 32)
  | .retSnapshot => true
  | .referenceStable => true
  | .ref25Stop => true
  | .irigbPositionMarkerMissing => true
  | .portLinkChange port _ _ => decide (port < 4)
  | .peerDelayRequest port => decide (port < 4)
  | .busIntegration n => decide (n < 2)
  | .rawInputChange k c _ => decide (k < 8) && decide (c < 12)
  | .traceFifoDrain => true
  | .norOperationDone => true

end Sys2Proof
end

