-- ==== Sys2Proof/Tests/Slice0.lean ====
section
/-!
SUPPORT. Tests: ill-formed commands are refused by `Instr.wf`; states and operands that meet the hypotheses of every statement
(a boundary value where a range has one); a few effects worked out by hand from the spec's rules and tables.
-/

set_option Elab.async false

namespace Sys2Proof.Tests

open Sys2Proof.Machine Sys2Proof.Machine.Reg

/-! ## Well-formed commands -/

def o0 : Origin := { task := 2, bank := 0, pc := 7, slot := 1 }
def oX : Origin := { task := 8, bank := 0, pc := 0, slot := 0 }
def w0 : TWord := mkT 3 0
def p0 : Peer := { Peer.none with tr := 3 }
def pX : Peer := { Peer.none with tr := 7 }
def q0 : ZReq := { peer := p0, session := 83, seq := 10 }
def qX : ZReq := { peer := p0, session := 65536, seq := 10 }
def f0 : CanFrame := { id := 5, ide := false, rtr := false, fd := false, brs := false, esi := false, dlc := 2, data := [1, 2] }
def fX : CanFrame := { f0 with id := 2 ^ 11 }
def m0 : List Nat := List.replicate 32 0
def mX : List Nat := List.replicate 32 256

/-- The parts of operands: an origin, a peer, a request, a bus frame and a writer, each with a field out of its range. -/
theorem test_wf_parts :
    o0.wf = true ∧ p0.wf = true ∧ q0.wf = true ∧ f0.wf = true ∧ oX.wf = false ∧ { o0 with bank := 2 }.wf = false ∧
    { o0 with pc := 65536 }.wf = false ∧ { o0 with slot := 8 }.wf = false ∧ pX.wf = false ∧ { p0 with addr := [0] }.wf = false ∧
    { p0 with addr := [2 ^ 32, 0, 0, 0] }.wf = false ∧ { p0 with port := 65536 }.wf = false ∧ { p0 with via := 4 }.wf = false ∧
    { p0 with mac := 2 ^ 48 }.wf = false ∧ qX.wf = false ∧ { q0 with peer := pX }.wf = false ∧ { q0 with seq := 2 ^ 32 }.wf = false ∧
    fX.wf = false ∧ { f0 with ide := true, id := 2 ^ 29 }.wf = false ∧ { f0 with dlc := 16 }.wf = false ∧
    (Writer.task 8).wf = false ∧ (Writer.task 7).wf = true := by decide +kernel

/-- Commands with one operand out of its range, part 1. -/
theorem test_wf_refuses_1 :
    ([.resetPinRelease 256 0, .resetPinRelease 0 4, .railResetWindow 9, .railLoss 9, .domainPowerGood 12,
      .stationSupvExpiry 256, .timNowShRead 8, .ptpMessageRx 4 default, .ptpTimeout 4 false, .ptpMasterSend 4 0,
      .ptpMasterSend 0 6, .sourceQualified 7, .sourceSwitch 16, .plbCycleRead 8, .aluAdd oX 1 w0, .aluAdd o0 0 w0,
      .aluSub oX 1 w0, .aluSub o0 0 w0, .aluAnd oX 1 w0, .aluAnd o0 0 w0, .aluOr oX 1 w0, .aluOr o0 0 w0, .aluXor oX 1 w0,
      .aluXor o0 0 w0, .aluShl oX 1 w0, .aluShl o0 0 w0, .aluShr oX 1 w0, .aluShr o0 0 w0, .aluMin oX 1 w0, .aluMin o0 0 w0,
      .aluMax oX 1 w0, .aluMax o0 0 w0, .aluNegabs oX 1 w0, .aluNegabs o0 0 w0, .aluSel oX 1 w0, .aluSel o0 0 w0,
      .aluCvt oX 1 w0, .aluCvt o0 0 w0, .gbuAnd oX 5 w0, .gbuAnd o0 0 w0, .gbuOr oX 5 w0, .gbuOr o0 0 w0, .gbuXor oX 5 w0,
      .gbuXor o0 0 w0, .gbuAndn oX 5 w0, .gbuAndn o0 0 w0, .gbuNot oX 5 w0, .gbuNot o0 0 w0, .gbuCopy oX 5 w0, .gbuCopy o0 0 w0,
      .gbuSr oX 5 w0, .gbuSr o0 0 w0, .gbuRs oX 5 w0, .gbuRs o0 0 w0, .gbuRise oX 5 w0, .gbuRise o0 0 w0, .gbuFall oX 5 w0,
      .gbuFall o0 0 w0, .gbuTon oX 5 w0, .gbuTon o0 0 w0, .gbuTof oX 5 w0, .gbuTof o0 0 w0, .timerSweep 1024, .mulMul oX 7 w0,
      .mulMul o0 0 w0, .mulMulw oX 7 w0, .mulMulw o0 0 w0, .mulSq oX 7 w0, .mulSq o0 0 w0, .phuCmac oX 8 w0] : List Instr).all (fun i => !i.wf) = true := by decide +kernel

/-- Commands with one operand out of its range, part 2. -/
theorem test_wf_refuses_2 :
    ([.phuCmac o0 0 w0, .phuCmag oX 8 w0, .phuCmag o0 0 w0, .phuCrot oX 8 w0, .phuCrot o0 0 w0, .phuDft oX 8 w0,
      .phuDft o0 0 w0, .lsuLd oX 9 w0, .lsuLd o0 0 w0, .lsuLdx oX 9 w0, .lsuLdx o0 0 w0, .lsuLdp oX 9 w0, .lsuLdp o0 0 w0,
      .lsuSt oX 9 w0, .lsuSt o0 0 w0, .lsuStx oX 9 w0, .lsuStx o0 0 w0, .lsuStp oX 9 w0, .lsuStp o0 0 w0, .bruEq oX 11 w0,
      .bruEq o0 0 w0, .bruNe oX 11 w0, .bruNe o0 0 w0, .bruLt oX 11 w0, .bruLt o0 0 w0, .bruLe oX 11 w0, .bruLe o0 0 w0,
      .bruGt oX 11 w0, .bruGt o0 0 w0, .bruGe oX 11 w0, .bruGe o0 0 w0, .bruTst oX 11 w0, .bruTst o0 0 w0, .bruPc oX 11 w0,
      .bruPc o0 0 w0, .bruCall oX 11 w0, .bruCall o0 0 w0, .tmuNowT oX 12 w0, .tmuNowT o0 0 w0, .tmuNowA oX 12 w0,
      .tmuNowA o0 0 w0, .tmuAdda oX 12 w0, .tmuAdda o0 0 w0, .tmuSchedA oX 12 w0, .tmuSchedA o0 0 w0, .tmuSchedT oX 12 w0,
      .tmuSchedT o0 0 w0, .tmuCancel oX 12 w0, .tmuCancel o0 0 w0, .tmuPop oX 12 w0, .tmuPop o0 0 w0, .tmuEventFire 32,
      .quRecv oX 13 w0, .quRecv o0 0 w0, .quSendEth oX 13 w0, .quSendEth o0 0 w0, .quSendCan oX 13 w0, .quSendCan o0 0 w0,
      .quFldCmd oX 13 w0, .quFldCmd o0 0 w0, .quRegRd oX 13 w0, .quRegRd o0 0 w0, .quRegWr oX 13 w0, .quRegWr o0 0 w0,
      .imgEnd oX 14 w0, .imgEnd o0 0 w0, .macSel oX 15 w0, .macSel o0 0 w0, .macExec oX 15 w0, .macExec o0 0 w0] : List Instr).all (fun i => !i.wf) = true := by decide +kernel

/-- Commands with one operand out of its range, part 3. -/
theorem test_wf_refuses_3 :
    ([.macExecDirect o0 10 w0, .macExecDirect oX 0 w0, .fldFastout oX 16 w0, .fldFastout o0 0 w0, .fastFrameLaunch 8,
      .coreCycHiRead 8, .coreGtimstRead 8, .scanhiRead 8 0, .scanhiRead 0 8, .readClearField (2 ^ 32), .triggerPeriod 8,
      .triggerAngle 8, .triggerEdge 8 false, .heldTriggerRelease 8, .taskFreeze 8, .launchCommit 8, .stationAckTimeout (2 ^ 32),
      .zcpReplyMatch p0 (2 ^ 32) 0 0, .zcpReplyMatch p0 0 65536 0, .zcpReplyMatch p0 0 0 65536, .zcpReplyMatch pX 0 0 0,
      .sblLinkUp 256 0 0 0, .sblLinkUp 0 65536 0 0, .sblLinkUp 0 0 (2 ^ 32) 0, .sblAckRx false 65536, .sblNakRx false 65536,
      .sblXferRx false 65536 (.cells []) false, .sblXctlRx false 65536, .sblNegRx false 256 0 0, .sblNegRx false 0 65536 0,
      .sblNegRx false 0 0 (2 ^ 32), .sblHandoverRx false 65536, .sblRstreqRx false 65536, .frameHeaderDecision 4 [] 0,
      .frameEnd 4 false, .payloadScanDone 4, .dupEntryForget 2 0 0, .dupEntryForget 0 0 65536, .egressFrameStart 4,
      .egressFrameEnd 4, .gateChange 4, .gateListTakeover 4, .redsupSend 2, .gooseRetransmit 16, .canFrameRx 2 f0 0,
      .canFrameRx 0 fX 0, .canTxStart 2, .canTxDone 2, .canTxFail 2, .canError 2 0 0, .canError 0 512 0, .canError 0 0 512,
      .busoffRecovery 2, .canTbCancel 2 0, .canTbCancel 0 256, .canRxpop 2, .canHpbpop 2, .ttReferenceInstant 2,
      .ttWindowOpen 2 0, .ttWindowOpen 0 32, .ttTxenExpiry 2, .ttRefWatchTimeout 2, .canZcpCtxTimeout 2 0,
      .cpnFrameRx 8 0 default false, .cpnFrameRx 0 2 default false, .cpnAnswerSend 8 0, .cpnAnswerSend 0 2,
      .hubAnswerRx 8 default false 0, .hubAnswerTimeout 8, .cpnLossSlot 8 0] : List Instr).all (fun i => !i.wf) = true := by decide +kernel

/-- Commands with one operand out of its range, part 4. -/
theorem test_wf_refuses_4 :
    ([.cpnLossSlot 0 2, .cpnFastFrameRx 8 0 0 0 0 false, .cpnFastFrameRx 0 2 0 0 0 false, .cpnFastFrameRx 0 0 16 0 0 false,
      .cpnFastFrameRx 0 0 0 16 0 false, .cpnFastFrameRx 0 0 0 0 256 false, .fastLatchTimeout 8 0, .fastLatchTimeout 0 4,
      .failHoldTimeout 8, .barrierDownFrame 8 false, .barrierUpFrame 8 false, .outCurrentLimit 8 0 false,
      .outCurrentLimit 0 4 false, .outThermalShutdown 8 0, .outThermalShutdown 0 4, .outThermalRestart 8 0,
      .outThermalRestart 0 4, .fieldUvChange 8 0, .cpnReset 8, .cpnMgmtRead 8 0 0, .cpnMgmtRead 0 2 0, .cpnMgmtRead 0 0 65536,
      .cpnMgmtWrite 8 0 0 0, .cpnMgmtWrite 0 2 0 0, .cpnMgmtWrite 0 0 65536 0, .cpnMgmtWrite 0 0 0 (2 ^ 32),
      .cpnShadowTimeout 8, .apply 8 0, .apply 0 2, .tsdClear 8 0 0, .tsdClear 0 2 0, .tsdClear 0 0 16, .fastRelease 8 0 0,
      .fastRelease 0 2 0, .fastRelease 0 0 16, .cntLatch 8 0, .cntLatch 0 2, .cntClear 8 0 0, .cntClear 0 2 0,
      .cntClear 0 0 4096, .ovfClear 8 0 0, .ovfClear 0 2 0, .ovfClear 0 0 4096, .capArm 8 0 0, .capArm 0 2 0, .capArm 0 0 4096,
      .debouncedEdge 8 0 0 0, .debouncedEdge 0 12 0 0, .debouncedEdge 0 0 (2 ^ 32) 0, .debouncedEdge 0 0 0 (2 ^ 32),
      .counterEdge 8 0 false, .counterEdge 0 12 false, .settlingEnd 8 0, .settlingEnd 0 12, .freqMeasurementClose 8 0 0 0,
      .freqMeasurementClose 0 12 0 0, .freqMeasurementClose 0 0 (2 ^ 32) 0, .freqMeasurementClose 0 0 0 (2 ^ 32),
      .freqNosigTimeout 8 0, .freqNosigTimeout 0 12, .captureEdge 8 0 false 0 0 0, .captureEdge 0 12 false 0 0 0,
      .captureEdge 0 0 false 0 (2 ^ 32) 0, .captureEdge 0 0 false 0 0 (2 ^ 32), .calSet 8 false, .calTimeRead 8,
      .calSnap 8 false, .calSnapRelease 8, .zcpPacketRx pX [], .zcpIdentify qX] : List Instr).all (fun i => !i.wf) = true := by decide +kernel

/-- Commands with one operand out of its range, part 5. -/
theorem test_wf_refuses_5 :
    ([.zcpReadReg q0 (2 ^ 32) 0, .zcpReadReg q0 0 65536, .zcpReadReg qX 0 0, .zcpReadMem q0 (2 ^ 32) 0, .zcpReadMem q0 0 65536,
      .zcpReadMem qX 0 0, .zcpStageRead q0 (2 ^ 32) 0, .zcpStageRead q0 0 65536, .zcpStageRead qX 0 0, .zcpOpStatus q0 65536,
      .zcpOpStatus qX 0, .zcpAbort q0 65536, .zcpAbort qX 0, .zcpJournalRead q0 (2 ^ 32) 0, .zcpJournalRead q0 0 256,
      .zcpJournalRead qX 0 0, .zcpEventRead q0 (2 ^ 32) 0, .zcpEventRead q0 0 256, .zcpEventRead qX 0 0, .zcpSessionOpen qX,
      .zcpSessionClose qX, .sessionTimeout 16, .zcpAnnounce q0 256 0 0 0 0 0, .zcpAnnounce q0 0 65536 0 0 0 0,
      .zcpAnnounce q0 0 0 (2 ^ 32) 0 0 0, .zcpAnnounce q0 0 0 0 256 0 0, .zcpAnnounce q0 0 0 0 0 65536 0,
      .zcpAnnounce q0 0 0 0 0 0 (2 ^ 48), .zcpAnnounce qX 0 0 0 0 0 0, .zcpWriteReg q0 (2 ^ 32) [], .zcpWriteReg qX 0 [],
      .zcpWriteMem q0 (2 ^ 32) [], .zcpWriteMem qX 0 [], .zcpBusCancel q0 256 0, .zcpBusCancel q0 0 256, .zcpBusCancel qX 0 0,
      .zcpImgWrite qX default, .zcpBegin q0 256 0, .zcpBegin q0 0 (2 ^ 32), .zcpBegin qX 0 0, .zcpStage q0 (2 ^ 32) [],
      .zcpStage qX 0 [], .zcpPrepare qX, .zcpCommit q0 256 0 0, .zcpCommit q0 0 (2 ^ 32) 0, .zcpCommit q0 0 0 (2 ^ 32),
      .zcpCommit qX 0 0 0, .zcpRollback q0 256, .zcpRollback qX 0, .zcpUndo qX, .zcpSysCommit q0 (2 ^ 32) 0 0 0 0 m0,
      .zcpSysCommit q0 0 256 0 0 0 m0, .zcpSysCommit q0 0 0 (2 ^ 32) 0 0 m0, .zcpSysCommit q0 0 0 0 (2 ^ 32) 0 m0,
      .zcpSysCommit q0 0 0 0 0 (2 ^ 32) m0, .zcpSysCommit qX 0 0 0 0 0 m0, .zcpSysCommit q0 0 0 0 0 0 [],
      .zcpSysCommit q0 0 0 0 0 0 mX, .zcpSysPrepare q0 (2 ^ 32) 0 0 0 0 0 0, .zcpSysPrepare q0 0 65536 0 0 0 0 0,
      .zcpSysPrepare q0 0 0 (2 ^ 32) 0 0 0 0, .zcpSysPrepare q0 0 0 0 256 0 0 0, .zcpSysPrepare q0 0 0 0 0 (2 ^ 32) 0 0,
      .zcpSysPrepare q0 0 0 0 0 0 (2 ^ 32) 0, .zcpSysPrepare q0 0 0 0 0 0 0 (2 ^ 32), .zcpSysPrepare qX 0 0 0 0 0 0 0,
      .zcpSysCommitAt q0 (2 ^ 32) 0 0 0 0, .zcpSysCommitAt q0 0 256 0 0 0, .zcpSysCommitAt q0 0 0 (2 ^ 32) 0 0,
      .zcpSysCommitAt q0 0 0 0 (2 ^ 32) 0] : List Instr).all (fun i => !i.wf) = true := by decide +kernel

/-- Commands with one operand out of its range, part 6. -/
theorem test_wf_refuses_6 :
    ([.zcpSysCommitAt q0 0 0 0 0 (2 ^ 32), .zcpSysCommitAt qX 0 0 0 0 0, .zcpSysAbort q0 (2 ^ 32), .zcpSysAbort qX 0,
      .zcpSysReport q0 (2 ^ 32) 0 0, .zcpSysReport q0 0 256 0, .zcpSysReport q0 0 0 256, .zcpSysReport qX 0 0 0,
      .zcpLoadBankOpen q0 256 0 0, .zcpLoadBankOpen q0 0 65536 0, .zcpLoadBankOpen q0 0 0 (2 ^ 32), .zcpLoadBankOpen qX 0 0 0,
      .zcpLoadBankData q0 65536 [], .zcpLoadBankData qX 0 [], .zcpLoadBankClose q0 256, .zcpLoadBankClose qX 0,
      .zcpLoadDtData q0 256 [], .zcpLoadDtData qX 0 [], .zcpLoadDtClose q0 65536, .zcpLoadDtClose qX 0,
      .zcpEditBegin q0 256 0 0 0, .zcpEditBegin q0 0 256 0 0, .zcpEditBegin q0 0 0 65536 0, .zcpEditBegin q0 0 0 0 (2 ^ 32),
      .zcpEditBegin qX 0 0 0 0, .zcpEditPatch q0 65536 [] [], .zcpEditPatch qX 0 [] [], .zcpModeReq q0 256, .zcpModeReq qX 0,
      .zcpHandover qX, .zcpNvRead q0 (2 ^ 32) 0, .zcpNvRead q0 0 65536, .zcpNvRead qX 0 0, .zcpNvErase q0 (2 ^ 32) 0,
      .zcpNvErase q0 0 (2 ^ 32), .zcpNvErase qX 0 0, .zcpNvProgram q0 (2 ^ 32) [], .zcpNvProgram qX 0 [],
      .zcpNvImageOpen q0 256 0 0, .zcpNvImageOpen q0 0 (2 ^ 32) 0, .zcpNvImageOpen q0 0 0 (2 ^ 32), .zcpNvImageOpen qX 0 0 0,
      .zcpNvImageData q0 (2 ^ 32) [], .zcpNvImageData qX 0 [], .zcpNvImageClose qX, .zcpNvSave qX, .zcpTimeSet q0 65536 0 0 0,
      .zcpTimeSet q0 0 (2 ^ 32) 0 0, .zcpTimeSet q0 0 0 (2 ^ 32) 0, .zcpTimeSet q0 0 0 0 (2 ^ 32), .zcpTimeSet qX 0 0 0 0,
      .zcpSelftestRun q0 256, .zcpSelftestRun qX 0, .zcpReset qX, .longOpComplete 0 65536, .spiRead (2 ^ 32) 0,
      .spiWrite (2 ^ 32) [], .spiUnknownCode 0x10, .registerWrite (2 ^ 32) 0 .spi, .registerWrite 0 0 (.task 8),
      .wordPayloadRead (2 ^ 32), .wordPayloadStage (2 ^ 32) 0, .wordTagWrite (2 ^ 32) 0, .bankHostWrite (2 ^ 32) 0 false,
      .railMeasure 10 0, .tempMeasure 6 0, .processMeasure 8 0, .pmbAlert 65536, .tapExtest (2 ^ 612),
      .tapSamplePreload (2 ^ 612)] : List Instr).all (fun i => !i.wf) = true := by decide +kernel

/-- Commands with one operand out of its range, part 7. -/
theorem test_wf_refuses_7 :
    ([.dbgreg false false (2 ^ 32) 0, .portLinkChange 4 false 0, .peerDelayRequest 4, .busIntegration 2,
      .rawInputChange 8 0 false, .rawInputChange 0 12 false] : List Instr).all (fun i => !i.wf) = true := by decide +kernel

/-! ## States of the tests -/

/-- RUN with every domain on and the counter running. -/
def w : State := setF { State.reset with mode := .run, time := { State.reset.time with running := true, tai := 5000000000 * 2 ^ 32 * 400 } } PWR_DSTAT.ON 0xFFF
def wm (m : Mode) : State := { w with mode := m }
def ws (l : List (Fld × Nat)) : State := setFs w l
def wms (m : Mode) (l : List (Fld × Nat)) : State := setFs (wm m) l
def vb (mv : Nat) : State := { w with cal := { w.cal with vbat := mv } }
/-- A session is open in slot 3. -/
def sess (s : State) : State :=
  { s with zcp := { s.zcp with sessions := s.zcp.sessions.set 3 { gen := 5, live := true, high := some 9, cache := [] } } }
def linked (m : Mode) (l : List (Fld × Nat)) : State :=
  { setFs (wm m) ((SBY_STAT.LINK, 2) :: l) with sby := { w.sby with rxSeq := 65535, fresh := false } }
def running (s : State) (st : TaskState) : State := updTask s 2 fun k => { k with st := st }
def opd (s : State) (u : Nat) : List (Nat × TWord) → State
  | [] => s
  | (i, v) :: l => opd (setCtx s (opdKey o0.task u i) v) u l
def src (n : Nat) (l : List (Fld × Nat)) : State := ws ([(TIM_SRC_CFG.EN n, 1), (TIM_SRC_STAT.VALID n, 1), (TIM_CTRL.DISC_EN, 1)] ++ l)
def port1 (l : List (Fld × Nat)) : State :=
  src 1 ([(CLS_P_CFG.EN 1, 1), (CLS_P_PSTAT.LINK 1, 1), (TIM_SRC_CFG.MASTER_OK 1, 1), (TIM_STAT.ACTIVE_SRC, 5)] ++ l)
def seeding (osf : Nat) : State := setF { w with time := { w.time with running := false } } CAL_STAT.OSF osf
def setting (d : Nat) : State := ws [(CAL_WTIME.HMS, 0x235958), (CAL_WDATE.DATE, d), (CAL_STAT.OSF, 1)]
def lastSecond : State := ws [(CAL_DATE.YEAR, 0x2399), (CAL_DATE.MONTH, 0x12), (CAL_DATE.DAY, 0x31), (CAL_TIME.HOUR, 0x23),
  (CAL_TIME.MIN, 0x59), (CAL_TIME.SEC, 0x59)]
def partner : HbInfo := { (default : HbInfo) with src := 1 }
def alu (t : Nat) (x : Word) : State := opd w 2 [(0, ⟨t, x⟩)]
def gecko : State :=
  let s := opd w 5 [(0, addrW 0x100), (1, addrW 0xF0001), (2, addrW 0x1FFFF)]
  { s with sp := { s.sp with bits := [(0x40005, true), (0xF0001, true)] } }
/-- Timer cell 9 in a state, with B set or clear; 2 µs have passed since its start. -/
def timing (st start : Nat) (b : Bool) : State :=
  let s := opd w 6 [(1, addrW 0xF0001), (2, mkT 3 9), (3, mkT 3 5)]
  { s with core := { s.core with cyc := 800, cells := [(9, (st, start))] }
           sp := { s.sp with bits := if b then [(0x40005, true)] else [] } }
def phasor (a b c d : Word) : State := opd w 8 [(0, ⟨4, a⟩), (1, ⟨4, b⟩), (2, ⟨4, c⟩), (3, ⟨4, d⟩)]
def dft (n h : Nat) : State := opd w 8 [(0, addrW (0x80000 - n)), (1, mkT 3 n), (2, mkT 3 0), (3, mkT 3 h)]
def flying (a : PendAct) (rs : List (Nat × TWord)) : State :=
  { w with core := { w.core with cyc := 3, ops := [{ o := o0, unit := 9, port := 4, fire := 0, lat := 4, results := rs, act := a, entry := true }] } }
def tmu (l : List (Nat × TWord)) (g : Nat) (e : Option TmuEvt) : State :=
  opd { w with core := { w.core with tmu := w.core.tmu.set 0 ⟨g, e⟩ } } 12 l
def evt (arg : Nat) : TmuEvt := { utc := true, c := 0, a := 0, tai := 5, late := false, action := 1, arg := BitVec.ofNat 32 arg, task := 0, at' := 0 }
def fastQueued (l : List Nat) : State := { w with core := { w.core with fastQ := w.core.fastQ.set 3 l } }
def fastWaiting : State := { w with core := { w.core with fastWait := [0x30F] } }
def qu (l : List (Nat × TWord)) : State := opd w 13 l
def mbxOne (n mx : Nat) : State :=
  let s := qu [(0, addrW 0x7FE6F), (1, mkT 3 mx)]
  { s with core := { s.core with mbx := s.core.mbx.set n [{ bytes := List.replicate mx 1, sec := 9, tns := 8, port := 2 }] } }
/-- Entry 5 of the decode table is valid, with no microcode words but its own, and a latency of 4. -/
def macro5 : State := ws [(dtF 5 0, 2 ^ 31 + 4 * 2 ^ 16)]
def atEnd : State := updTask w 2 fun k => { k with st := .running, frzCyc := 3 }
/-- Task 2 is about to issue one move of a short immediate. -/
def bundle (dst imm tag : Nat) : State :=
  { w with
    core := { w.core with
      bankA := (8 * 100, BitVec.ofNat 32 (15 * 2 ^ 27 + (0x400 + imm) * 2 ^ 16 + dst * 2 ^ 6 + tag)) ::
        [1, 2, 3, 4, 5, 6, 7].map fun i => (8 * 100 + i, 0xF8000000)
      pcs := [0, 0, 100, 0, 0, 0, 0, 0], cyc := 50 }
    scan := { w.scan with tasks := w.scan.tasks.set 2 { TaskSt.init with st := .running, frzCyc := 3 } } }
def held (ok : Bool) : Deferred := { o := o0, dst := 0x33F, val := mkT 3 9, opds := [], iss := 3, res := 5, ok := ok }
def aluWaits : Deferred :=
  { o := o0, dst := 0x14, val := ⟨3, 9⟩, opds := [⟨3, 7⟩, TWord.empty, TWord.empty, TWord.empty], iss := 3, res := 5, ok := true }
def tsk (st : TaskState) (l : List (Fld × Nat)) : State :=
  setFs (updTask w 2 fun k => { k with st := st }) ((SCN_TCFG.EN 2, 1) :: l)
/-- Task 2 is pending, with a window over the last 50 input bits. -/
def freezing : State :=
  let s := tsk .pending [(SCN_WIN_BASE.EN 2 0, 1), (SCN_WIN_BASE.ADDR 2 0, 0xFFCE), (SCN_WIN_LEN.LEN 2 0, 50), (SCN_TCFG.ENTRY 2, 77)]
  { s with sp := { s.sp with bits := [(99, true), (0xFFFF, true)] } }
def launching : State :=
  updTask (tsk .launchWait [(SCN_WIN_BASE.EN 2 0, 1), (SCN_WIN_BASE.OUT 2 0, 1), (SCN_WIN_BASE.ADDR 2 0, 0x10000), (SCN_WIN_LEN.LEN 2 0, 50)]) 2
    fun k => { k with capB := [(0x10002, true)] }
def posted9 : Posted := { mapEntry := 1, kind := 2, target := 255, daddr := 0, task := 2, scan := 3, ref := 55 }
def owed (stn op : Nat) : OwnReq := { station := stn, seq := 55, opcode := op, mapEntry := 1, task := 2, scan := 3 }
def posting : State :=
  { w with zcp := { w.zcp with outstanding := [owed 255 0x0103] }, scan := { w.scan with posted := [posted9] } }
def peerEth : Peer := { Peer.none with tr := 2 }
/-- A transaction with one staged register, in a state. -/
def txn (l : List (Fld × Nat)) : State :=
  setFs { w with txn := { w.txn with staged := [(TIM_HOLD_RATE.RATE, 7)] } } l
def txnBusy : State := updTask (txn [(TXN_STAT.STATE, 5), (TXN_WHEN.KIND, 1)]) 2 fun k => { k with st := .running }
def coord5 : Nat × Nat × Nat × Nat × Nat := (5, 2, 3, 4, 5)
def coordinating (step : Nat) (wait : List Nat) (l : List (Fld × Nat)) : State :=
  setFs { w with txn := { w.txn with coord := some coord5, coordStep := step, coordWait := wait, staged := [(TIM_HOLD_RATE.RATE, 7)] } } l
def evExt : StreamEv := .ext 2 1 9 (mkT 3 3)
def stale (s : State) : State := { s with core := { s.core with cyc := 1000 }, sby := { s.sby with present := true } }
def rxs (l : List (Fld × Nat)) : State := ws ([(CLS_P_CFG.EN 1, 1), (CLS_CTRL.DEFACT, 1), (CLS_CTRL.DEFMBX, 15)] ++ l)
def bytes60 : List Byte := List.replicate 12 1 ++ [0x12, 0x34] ++ List.replicate 46 7
def rx60 : RxFrame := { (default : RxFrame) with bytes := bytes60, port := 1, dec := some .default, dup := false, cuts := [] }
def booting : State := { rxs [] with mode := .boot, ms := { w.ms with bootLoaded := false } }
def egrF : EgrFrame := { origin := 0, bytes := bytes60, slot := none, ptp := false, post := [], tc := none }
def egrQ : State := updEgr (rxs []) 1 fun x => { x with queues := upd x.queues 7 (· ++ [egrF]) }
def egrTx : State := updEgr (rxs []) 1 fun x => { x with tx := some (7, egrF, false) }
def prp : State := rxs [(CLS_P_CFG.EN 0, 1), (CLS_RED.MODE0, 1)]
def goose : State :=
  updPub (rxs [(EGR_SLOT_CFG.EN 15, 1), (EGR_SLOT_TIMING.TMAX 15, 100)]) 15 fun x => { x with next := some 5000, sq := 2 ^ 32 - 2, frame := bytes60 }
def bus (l : List (Fld × Nat)) : State := ws ([(CAN_CTRL.EN 1, 1), (CAN_STAT.ERRSTATE 1, 1)] ++ l)
def busTb (b : Nat) (a : Bool) : State :=
  updTb (updCan (bus []) 1 fun c => { c with att := if a then some (.tb b) else none }) 1 b
    fun t => { t with frame := some (f0, .prog), attempt := a }
def busTt (l : List (Fld × Nat)) : State :=
  updCan (bus ([(CAN_CTRL.MODE 1, 1), (CAN_TTCFG.MASTER 1, 1), (CAN_TTSTAT.STATE 1, 4)] ++ l)) 1
    fun c => { c with count := some 3, sched := { c.sched with mcyc := 4, cells := [(32 * 3 + 2, 32 + 0)], objs := [(0, [0, 0, 0, 0, 2, 5])] } }
def cpnS (f : CpnSt → CpnSt) : State := updCpn w 7 f
/-- Companion 7 with channel 3 in a state, and its configuration word. -/
def chanS (cfgw : Nat) (j : CpnIn) : State :=
  cpnS fun c => { c with ins := c.ins.set 3 j, cfg := { c.cfg with icfg := c.cfg.icfg.set 3 cfgw } }
def c7 (s : State) : CpnSt := cpnSt s 7
def onA (c : CpnSt) : CpnSt :=
  { c with obvalid := true, obepoch := 5, oblink := 0, causes := [], cfglost := false,
           links := (c.links.set 0 { cpnLink c 0 with obeyed := true, loss := 7, due := true, up := true }).set 1 { cpnLink c 1 with loss := 6 } }
def dn (ep : Nat) (sf : Bool) : DnFrame :=
  { epoch := ep, stn := 9, safe := sf, outcmd := 5, mop := 0, mtag := 7, maddr := 0, mdata := 0, frameNo := 9 }
def hub : State :=
  updHub (setFs { w with core := { w.core with cyc := 40001 } } [(FLD_HCTL.EN, 0x80), (SBY_EPOCH.OWN, 77)]) 7
    fun h => { h with sent := [(dn 77 false, 100, none)], loss := 7 }
def up77 : UpFrame := { (default : UpFrame) with obepoch := 77, obeying := true, evt := .none, fref := false, cfglost := false }
/-- Four sources are qualified; source 1 is off by a number of ns, and has disagreed for some seconds. -/
def tsp (off secs : Nat) : State :=
  let s := ws ([(PHM_CTRL.EN, 0x7F), (TSP_CFG.N, 3), (TIM_DISAGREE.LIM, 100), (TIM_CTRL.DISC_EN, 1)] ++ [0, 1, 2, 5].flatMap fun n =>
    [(TIM_SRC_STAT.QUALIFIED n, 1), (TIM_SRC_STAT.VALID n, 1), (TIM_SRC_OFFSET.OFFSET n, if n = 1 then off else 50)])
  { s with phm := { s.phm with disag := s.phm.disag.set 1 secs } }
def atr (bad : Nat) : State :=
  let s := ws [(PHM_CTRL.EN, 0x7F), (ATR_CFG.HOLD, 3), (PLB_STAT.FREERUN, 1), (ATR_CAND_MODE.VALID 0, 1), (ATR_CAND_MODE.VALID 1, 1),
    (ATR_CAND_MODE.SRC_MODE 1, 1), (ATR_CAND_A.ADDR 1, 0x1000), (CLS_S_HDR.EN 4, 1), (CLS_S_RING.ADDR 4, 0x1000), (CLS_S_RING.RLEN 4, 16),
    (CLS_S_HDR.ADDR 4, 0x500)]
  let s := putWord s 0x508 (mkT 10 0)
  { s with phm := { s.phm with badMs := bad } }
/-- A request of the open session in slot 3. -/
def rqS : ZReq := { peer := p0, session := 5 * 16 + 3, seq := 10 }
def rqNew : ZReq := { peer := { p0 with mac := 5 }, session := 0, seq := 1 }
def zs (m : Mode) (l : List (Fld × Nat)) : State := sess (wms m ([(TXN_STAT.OWNER, 83), (TXN_STAT.OWNER_SPI, 1)] ++ l))
def zu (m : Mode) (l : List (Fld × Nat)) : State := noted (zs m l) rqS 3
def opWith (st : Nat) : State :=
  updOp (zs .stop []) 2 fun _ => { OpSlot.init with st := st, gen := 7, opcode := 0x0601, status := 3, progress := 77, peer := p0, session := 83, seq := 4 }
def job (op : Option Nat) (steps : List NvStep) : NvJob :=
  { rank := 6, op := op, reply := none, opcode := 0x0601, steps := steps, result := [], aborted := false }
def takes (s : State) (code : Nat) (p : State → Bool) : Bool := match opTake (noted s rqS 3) rqS code with
  | some (_, s1) => p s1
  | none => false
def pkt (b : List Byte) : ZPacket := { peer := p0, bytes := b }
def identifyBytes : List Byte :=
  let b := beBytes 2 0x5A43 ++ [1, 0] ++ beBytes 2 83 ++ beBytes 4 10 ++ beBytes 2 1 ++ beBytes 2 0 ++ beBytes 2 0
  b ++ beBytes 4 (crc32 b)
def announcing : State :=
  setFs w [(ZCP_CFG.ANN_EN, 1), (ZCP_CFG.UDP_EN, 1), (SYS_STATION.STN, 4), (SYS_DIR_IP4.IPV4 4, 0x0A000001), (SYS_DIR_CTRL.PORTS 4, 5),
    (CLS_P_CFG.EN 0, 1), (CLS_P_CFG.EN 2, 1), (CLS_P_PSTAT.LINK 0, 1), (CLS_P_PSTAT.LINK 2, 1)]
/-- From a session that has seen sequence number 9, a request with sequence number 10 is heard. -/
def img2 : ImgWrite :=
  { sysId := getF w SYS_STATION.SYSTEM_ID, srcStn := 255, epoch := 0, task := 0, scan := 0, map := 0, isWord := true, daddr := 0x3FFE,
    len := 2, bits := [], words := [⟨5, 77⟩, ⟨9, 78⟩] }
def loading (b : Nat) : State :=
  let s := zs .stop [(CORE_PIDA_VER.VER, 3), (CORE_PIDB_CRC.CRC, 3)]
  { s with zcp := { s.zcp with bankLoad := some b } }
def legal8 : List Word := [0x80000000, 0, 0x80000000, 0, 0, 0, 0, 0]
def zt (st : Nat) : State := zs .stop [(TXN_STAT.STATE, st)]
def zsys (st : Nat) : State := zs .stop [(TXN_STAT.STATE, st), (TXN_STAT.SYSTEM, 1), (TXN_ID.ID, 4 * 2 ^ 24 + 5), (SYS_STATION.STN, 4)]
def soon : Nat := (taiSec w.time.tai + 100) % 2 ^ 32
def editing : State := zs .runEdit [(TXN_STAT.STATE, 1), (TXN_STAT.EDIT, 1), (TXN_STAT.OWNER_SPI, 1), (EDT_STAT.COPY, 2), (CORE_PIDB_VER.VER, 3)]
def nvS : State := zs .stop [(NVS_SIZE.BYTES, 0x2000000), (NVS_STAT.BOOTSLOT, 3)]
def imaging : State := { nvS with zcp := { nvS.zcp with imgOpen := some (1, 4, crc32 (norBytes nvS (slotBase 1) 4), 8) } }
def jobD (rank : Nat) (steps : List NvStep) : NvJob :=
  { rank := rank, op := none, reply := none, opcode := 0, steps := steps, result := [], aborted := false }
/-- Records of generations a and b in slots 0 and 1. -/
def recorded (a b : Nat) : State := norProgram (norProgram nvS 0 (recordBytes 0 a 4 0 0 0)) 0x10000 (recordBytes 1 b 4 0 0 0)
def journaled : State := raise (journalF (zs .stop [(NVS_SIZE.BYTES, 0x2000000)]) SYS_MODE.MODE) SYS_MODE.MODE
def hostS (l : List (Fld × Nat)) : State := wms .stop l
def queued : State := { hostS [] with zcp := { w.zcp with queue := List.replicate 16 (pkt []), spiQueue := [[1], [2], [3]] } }
def waitingOne : State := { w with pending := [.aliveToggle] }
/-- Something stands in every part that a reset clears. -/
def full (m : Mode) : State :=
  { wms m [(TXN_SEQ.SEQ, 7), (TXN_CREC_LAST.SEQ, 4)] with
    core := { w.core with fifo := [(1, 2, 3)], tmu := w.core.tmu.set 0 ⟨3, some (evt 5)⟩, mbx := w.core.mbx.set 1 [default],
                          fastQ := w.core.fastQ.set 0 [5], cells := [(3, ⟨2, 5⟩)] }
    sp := { w.sp with planeB := [(5, true)], planeW := [(6, mkT 3 3)] } }
def ramping (d : Nat) : State := { wms .hold [(PWR_DSTAT.ON, 0xFFF - 2 ^ d)] with pwr := { w.pwr with ramp := [d] } }
def inReset (stable released : Bool) : State := { wm .reset with ms := { w.ms with refStable := stable, released := released } }
def loaded (run : Bool) : State :=
  { wm .boot with ms := { w.ms with bootLoaded := true }, time := { w.time with running := run } }
def selfTest (i : Nat) : State := { wm .selftest with ms := { w.ms with selftest := some i } }
def demand (i : Nat) : State := { wm .stop with ms := { w.ms with demandTest := some (i, 1) } }
def runnable : State := { wm .stop with core := { w.core with bankA := [(0, 5)] } }
def stopComing : State := { w with ms := { w.ms with stopPending := true } }
def negotiating : State := { wms .stop [(SYS_DIR_CTRL.ROLE 0, 2)] with ms := { w.ms with negotiating := true } }
def halting : State := { w with ms := { w.ms with haltPend := some 255 } }
def running2 : State := running stopComing .running
def endingHold : State := { wm .stop with ms := { w.ms with holdEntry := some [7, 2] } }
def waking (en : Nat) : State := { wms .hold [(SYS_WAKE.EN, en)] with ms := { w.ms with waking := none } }
def reloading (r : Bool) : State :=
  { wms .hold [(NVS_STAT.BOOTSLOT, 3)] with ms := { w.ms with waking := some [2], wakeReload := r } }
def avs (tgt al : Option Nat) (rb : Bool) : State :=
  { ws [(PWR_AVS.EN, 1), (PWR_AVSSTAT.VSET, 123), (PWR_AVSSTAT.HOLDING, 1)] with
    pwr := { w.pwr with target := tgt, alert := al, readback := rb } }
def awake (l : List (Fld × Nat)) : State := ws ((SYS_WAKE.EN, 15) :: l)
def best (n : Nat) : State := src n [(TIM_SRC_STAT.QUALIFIED n, 1), (TIM_STAT.ACTIVE_SRC, 1)]
def irig1 : IrigFrame := { (default : IrigFrame) with parityOk := true, markersOk := true, day := 1 }
def pps : State := { src 5 [] with time := { w.time with ppsLast := some (7 * secUnit + 5000) } }
def ptpM (k : Nat) (two : Bool) : PtpMsg :=
  { (default : PtpMsg) with kind := k, twoStep := two, slave := true, clockClass := 6, stamp := w.time.tai - 100, origin := w.time.tai - 200, seq := 7 }
def slave1 : State :=
  let s := port1 [(TIM_SRC_STAT.SLAVE 1, 1)]
  { s with time := { s.time with ptp := s.time.ptp.set 1 { PtpPort.init with annOk := true, clockClass := 6, pdelay := some (7, w.time.tai - 100000) } } }
def sblTime (l : List (Fld × Nat)) : State := src 6 ((SBY_STAT.LINK, 2) :: l)
def asked : State :=
  { sblTime [] with time := { w.time with sblEx := some (4, w.time.tai - 5000) }, sby := { w.sby with hb := some partner, present := true } }
def timex (r : Bool) : Timex :=
  { (default : Timex) with response := r, no := 4, t4 := w.time.tai - 10, t2 := w.time.tai, t3 := w.time.tai + 5 }
def growing : State := { w with time := { w.time with growing := true, holdBase := 2 ^ 32 - 1, holdStart := 0 } }
def leaping (l61 at' : Nat) : State :=
  { ws [(TIM_UTC.LEAP61, l61), (TIM_UTC.LEAP59, 1 - l61), (TIM_UTC.TAI_UTC, 37), (TIM_STAT.LEAP_PENDING, 1)] with time := { w.time with leapAt := at' } }
def lastAngle : State := { w with plumb := { w.plumb with acc := 2 ^ 64 - 1 } }
def tracking : State := ws [(PLB_CTRL.SRC_MODE, 1), (PLB_STAT.TRACKING, 1)]
def whole (l : List (Fld × Nat)) (step : Bool) (ticks : List Nat) : State :=
  setFs { w with time := { w.time with tai := taiOf (946684800 + 50) 0 }, cal := { w.cal with running := true, stepNext := step, ticks := ticks } }
    ([(CAL_CTRL.DISC_EN, 1), (TIM_STAT.TIME_VALID, 1), (TIM_STAT.TQ, 4)] ++ l)
def whole0 : Nat := taiOf (946684800 + 50) 0
def snapped : State := { setting 0x20240229 with cal := { w.cal with snap := [16, 3] } }
def mul (t : Nat) (x : Word) : State := opd w 7 [(0, ⟨t, x⟩)]
def phasorF : State := opd w 8 [(0, ⟨5, 0x7F7FFFFF⟩), (1, ⟨5, 1⟩), (2, ⟨5, 2⟩), (3, ⟨5, 3⟩)]
def memory (a b : Nat) : State := opd (opd w 9 [(0, addrW a), (1, addrW b)]) 10 [(0, addrW a), (1, addrW b)]
def pend (a : PendAct) (rs : List (Nat × TWord)) : PendOp :=
  { o := o0, unit := 9, port := 4, fire := 0, lat := 4, results := rs, act := a, entry := true }
def deferring (d : Deferred) : State := { w with core := { w.core with cyc := 4, deferred := [d] } }
def waitingAlu (used : List Nat) : State := { w with core := { w.core with waiting := [aluWaits], firedNow := used } }
/-- Cycle 9: an event of slot 0 is due. -/
def due (e : TmuEvt) : State := { tmu [] 7 (some e) with core := { (tmu [] 7 (some e)).core with cyc := 9 } }
def evt2 (e : TmuEvt) (k : Nat) : TmuEvt := { e with action := k }
def allTaken (l : List (Nat × TWord)) : State :=
  opd { w with core := { w.core with tmu := List.replicate 32 ⟨4, some { evt 5 with tai := 2 ^ 90 }⟩ } } 12 l
def recording : State := { w with core := { w.core with fifo := [(1, 2, 3)] } }
/-- The timer with a preset of 0. -/
def timing0 (st : Nat) (b : Bool) : State := setCtx (timing st 0 b) (opdKey 2 6 3) (mkT 3 0)
def canQ (es : Nat) : State := opd (ws [(CAN_STAT.ERRSTATE 1, es), (CAN_CTRL.FD_EN 1, 1)]) 13 [(0, mkT 3 (64 * 2 ^ 16 + 15))]
def macroSel : State := { macro5 with core := { macro5.core with macSel := macro5.core.macSel.set 2 5 } }
def ended : State := updTask atEnd 2 fun k => { k with fin := .fromEnd true }
/-- A period of 250 ns and a position at angle 0 are reached within the cycle. -/
def atInstant (trig : Nat) (st : TaskState) (l : List (Fld × Nat)) : State :=
  let s := tsk st ([(SCN_TCFG.TRIG 2, trig), (SCN_PERIOD.PERIOD 2, 1), (SCN_ANG.N 2, 4), (SCN_ANG.COUNT 2, 2), (SCN_EDGE.POL 2, 3),
    (SCN_EDGE.ADDR 2, 0x40000)] ++ l)
  { s with time := { s.time with tai := s.time.tai - 1 }, plumb := { s.plumb with acc := 2 ^ 64 - 1 } }
def bitOn (s : State) : State := { s with sp := { s.sp with bits := [(0x40000, true)] } }
def pendingStop (s : State) : State := { s with ms := { s.ms with stopPending := true } }
def stepped (s : State) : State := { s with time := { s.time with skipped := some (s.time.tai - 1000 * nsUnit, s.time.tai) } }
def holds (s : State) : State := updTask s 2 fun k => { k with held := some (trigNow w 0 true) }
def replays : State :=
  pendingStop { wm .track with sby := { w.sby with replaying := true, events := [(0, .trig 2 (trigNow w 0 true))], horizon := 5 } }
def selects : State := { freezing with scan := { freezing.scan with sel := some 2 } }
def launchNow : State := { launching with time := { launching.time with tai := 1 } }
def launched (late : Bool) : State := updTask launching 2 fun k => { k with fin := .fromLaunch late }
def stationDir : State := setFs posting [(SYS_DIR_CTRL.VALID 255, 1), (SYS_DIR_CTRL.SUPV 255, 1)]
def reporting : State := { w with zcp := { w.zcp with outstanding := [owed 255 0x020A] }, txn := { w.txn with report := some (5, 1, 0 + 1) } }
def shadowing : State := updHub (txn [(TXN_STAT.STATE, 2)]) 3 fun h => { h with shadowLeft := 2 }
def recordingSeq : State := { w with nv := { w.nv with recording := some 9 } }
def hb9 (src : Nat) : HbInfo := { (default : HbInfo) with mode := 9, src := src }
def sourced (m : Mode) : State := linked m [(TIM_SRC_STAT.VALID 6, 1), (TIM_SRC_CFG.EN 6, 1)]
def replaying : State := { linked .track [] with sby := { (linked .track []).sby with replaying := true } }
def receiving : State := { linked .track [] with sby := { (linked .track []).sby with xferRx := true } }
def cutting : State := { linked .run [] with sby := { (linked .run []).sby with cutWait := true } }
def sending (l : List XferPart) : State := { linked .run [] with sby := { (linked .run []).sby with parts := some l, xferOpen := true } }
def overfull (n : Nat) : State := { sending [.bank []] with core := { w.core with cells := List.replicate n (0, (1, 1)) } }
def lossy : State := { linked .run [] with sby := { (linked .run []).sby with lossMark := true, streaming := true } }
def handing (l : List (Fld × Nat)) (p : Bool) : State :=
  { linked .run l with sby := { (linked .run []).sby with handover := some none, present := p } }
def mayHand : State := { linked .run [(SBY_STAT.PMODE, 8), (SBY_STAT.SYNC, 1)] with sby := { (linked .run []).sby with present := true } }
def tkoWaits : State := { wm .track with sby := { w.sby with tko := some (2, 5), replaying := true } }
def tkoEnds : State := { wm .takeover with sby := { w.sby with tko := some (2, 5) } }
def demoting : State := { wms .run [(SYS_DIR_CTRL.ROLE 0, 2)] with sby := { w.sby with demote := true } }
def replaying1 (c : Nat) : State :=
  { wm .track with sby := { w.sby with replaying := true, events := [(c, .writeWord 0x7FFFF (mkT 3 8))], horizon := 9, rcyc := 5 } }
/-- Rule 5 of bank 0 sends the frames of port 1 to mailbox 9. -/
def ruled (st : State) : State := setFs st [(ruleF 0 5 0, 2 ^ 31 + 2 * 2 ^ 27 + 2 * 2 ^ 19), (ruleF 0 5 10, 9)]
def ruleW : List Nat := [2 ^ 31 + 2 * 2 ^ 27 + 2 * 2 ^ 19] ++ List.replicate 9 0 ++ [9] ++ List.replicate 5 0
def inFlightOf (d : Verdict) (b : List Byte) : RxFrame := { rx60 with dec := some d, bytes := b }
def arrived (d : Verdict) (b : List Byte) : State := { ruled (rxs []) with cls := { w.cls with flight := w.cls.flight.set 1 (some (inFlightOf d b)) } }
def rxWait : RxFrame := { rx60 with dec := none, fcs := some false }
def paying (f : RxFrame) : State := { rxs [] with cls := { w.cls with pay := w.cls.pay.set 1 [f] } }
def pausing (n : Nat) : State := { w with cls := { w.cls with pause := some ([1], n), held := [rxWait] } }
def tadE : TadEntry := { (default : TadEntry) with held := [rx60, rx60] }
def waitsFor : State := { w with cls := { w.cls with tad := [tadE] } }
def lowBank : State := { rxs [] with pins := { w.pins with vsel := 7 } }
def gateWaits : State :=
  let s := setFs w [(EGR_GCL.EN 1, 1), (EGR_GCL.LEN 1, 1), (EGR_GCYCLE.NS 1, 1000), (EGR_GATE.W 1 0 0, 0x55), (EGR_GATE.W 1 0 1, 1000)]
  updEgr { s with time := { s.time with tai := s.time.tai - 1 } } 1 fun x => { x with pending := true }
def fd0 : CanFrame := { f0 with fd := true }
def busFull (h r : Nat) (l : List (Fld × Nat)) : State :=
  updCan (bus l) 1 fun c => { c with hpb := List.replicate h (List.replicate 20 1), fifo := List.replicate r (List.replicate 20 1) }
def cancels (b : Nat) : State := updTb (busTb b true) 1 b fun t => { t with cancel := true }
def opens : State :=
  updCan (busTt []) 1 fun c => { c with sched := { c.sched with marks := [1, 2, 0] } }
def lateRef : State := let s := busTt []; { s with core := { s.core with cyc := 2 ^ 40 } }
def exclusive : State := updCan lateRef 1 fun c => { c with excl := some (0, f0, 5) }
def chan (j : CpnIn) : State := chanS 0xFFFFFFFF j
def still : State := chanS 0 { CpnIn.init with raw := true, deb := false }
def capd : State := chan { CpnIn.init with capAt := some 60, armed := true }
def gated : State := chan { CpnIn.init with fopen := true, gate := 0 }
def linkA : State := cpnS onA
def failing : State := cpnS fun c => { onA c with causes := [1], holdOver := false }
def latched : State := cpnS fun c => { onA c with fast := [none, none, none, some true] }
def barred : State := cpnS fun c => { onA c with dnBad := 9, upBad := 9, upGood := 15 }
def retrying : State := cpnS fun c => { c with cfg := { c.cfg with ocfg := 0xFFFFFFFF } }
def hubAt (c : Nat) : State := { hub with core := { hub.core with cyc := c }, fld := { hub.fld with frame := some 5 } }
/-- Candidate 0 of the autotune list is in use and good. -/
def atrGood : State := setFs (atr 2) [(ATR_CAND_MODE.SRC_MODE 0, 1), (ATR_CAND_A.ADDR 0, 0x1000)]
def abortable : State := { opWith 1 with nv := { w.nv with holder := some (job (some 2) [.erase 0]) } }
def hubLate : State := { hub with core := { hub.core with cyc := 40800 } }
/-- The slot that a long operation takes, and the state after it. -/
def took (s : State) (code : Nat) : Nat × State := (opTake (noted s rqS 3) rqS code).getD (99, s)
def vals (s : State) (a : Nat) : Nat → Nat := fun j => (hostRead s (a + 4 * j)).2.1
def known : State := zs .stop [(SYS_DIR_CTRL.VALID 255, 1)]
def imgB : ImgWrite := { img2 with isWord := false, daddr := 0xFFFE, bits := [true, false], words := [] }
def limWrite : Nat × State := writeZcp (zu .stop []) true TIM_STEP_LIM.LIM.addr 0x1234
def wmem : List Byte := [1, 2, 3, 4, 0, 0, 0, 5]
def undoable : State := zs .stop [(TXN_STAT.UNDO_OK, 1)]
def coordS : State := let s := setF (zsys 1) (TXN_PART.M 7) (2 ^ 31); { s with txn := { s.txn with coord := some (5, 2, 3, 4, 5) } }
def handZ : State := { zs .run [(SBY_STAT.PMODE, 8), (SBY_STAT.SYNC, 1)] with sby := { w.sby with present := true } }
def opening (slot : Nat) : State :=
  let s := noted nvS rqS 3
  { s with zcp := { s.zcp with imgOpen := some (slot, 0x800000, 5, newGen s) } }
def tookOpen (slot : Nat) : Nat × State := (opTake (opening slot) rqS 0x0603).getD (99, nvS)
def pack1 : State := { w with zcp := { w.zcp with queue := [pkt [1]] } }
def packId : State := { w with zcp := { w.zcp with queue := [pkt identifyBytes] } }
def queue16 : State := { w with zcp := { w.zcp with queue := List.replicate 16 (pkt []) } }
def nr (g : Nat) : NvRecord := { gen := g, len := 4, crc := 0, base := 0, sec := 0 }
def nvWait : State := { nvS with nv := { nvS.nv with waiting := [jobD 3 [.program 0x100 [1, 2]]] } }
def nvHeld : State := { nvS with nv := { nvS.nv with holder := some (jobD 3 [.program 0xE00000 [1, 2]]) } }
def journaledHeld : State := { journaled with nv := { journaled.nv with holder := some (jobD 3 [.program 0x100 [1, 2]]) } }
def mirroring : State := zs .stop [(NVS_SIZE.BYTES, 0x2000000), (NVS_RETCFG.MIRROR_EN, 1)]
def norOne (i : Nat) : State := norProgram nvS (0x10000 * i) (recordBytes i 5 4 0 0 0)
def off : State := { w with mode := .off }
def scanned (l : List (Fld × Nat)) : State := hostS ([(SYS_SCRUB.CORR_OVF, 1), (SYS_WAKESRC.SRC, 3), (MON_EXT.TMAX, 9), (MON_EXT.TMIN, 5), (SCN_TCFG.EN 7, 1)] ++ l)
def stagingS : State := scanned [(TXN_STAT.STATE, 1), (TXN_STAT.OWNER_SPI, 1)]
def memS (m : Mode) (l : List (Fld × Nat)) : State :=
  { wms m ([(EDT_STAT.KEEP_OK, 1)] ++ l) with sp := { (wms m []).sp with hostStage := some (0x7FFFF, 0xFFFFFFFF), writeBack := [(.bits, 3), (.words, 5)] } }
def traceS (wt : Nat) (l : List (Fld × Nat)) : State :=
  let s := memS .stop ([(TRC_WPTR.IDX, 16382), (TRC_RADDR.IDX, 16383)] ++ l)
  { s with trc := { s.trc with fifo := [1, 2], wait := wt } }
def scrubS : State :=
  let s := memS .stop [(SYS_SCRUB.EN, 1), (SYS_SCRUB.PACE, 1), (CORE_ECCCTL.CORR_EVT, 0), (SYS_SCRUBCNT.UNCORR, 65534)]
  { s with ms := { s.ms with scrubPos := [7, 7, 7, 7, 7, 7, 7] } }
def memHeld : State := { memS .stop [] with sp := { (memS .stop []).sp with wordUse := true } }
def copying (n a : Nat) : State := wms .runEdit [(EDT_STAT.COPY, 1), (EDT_STAT.COPIED, n), (CORE_BANK.ACTIVE, a)]

/-! ## States that meet the hypotheses of the statements

For each statement, the hypotheses of each of its clauses at a state and operands named; where two clauses share one, it stands once. -/

/-- What has been replaced in the cells of `overfull` takes 8 bytes for each. -/
theorem cells_replaced (n : Nat) : 8 * n ≤ preUsed (overfull n) [.bank []] := by
  have h : preCount (0, 0) 0 1024 10 0 [] (List.replicate n (0, (1, 1))) = n := by simp [preCount, deltaRange, sget]
  show 8 * n ≤ _ + preCount (0, 0) 0 1024 10 0 [] (List.replicate n (0, (1, 1))) * 8 + _ + _ + _ + _ + _ + _
  rw [h]
  omega
theorem test_hyps_xfer_restart : (overfull 32769).sby.parts = some [.bank []] ∧ (overfull 32769).sby.xferOpen = true ∧
    262144 < preUsed (overfull 32769) [.bank []] :=
  ⟨rfl, rfl, Nat.lt_of_lt_of_le (by decide) (cells_replaced 32769)⟩
theorem test_hyps_memory : Memory.wf waitingOne.sp = true ∧
    step waitingOne = .next { w with pins := { w.pins with alive := !w.pins.alive } } := ⟨by decide +kernel, rfl⟩
/-- The first clause of RegisterAccess, and the reads of the host port in the absent states. -/
theorem test_hyps_register_write : absent (scanned []) = false ∧ domOn (scanned []) 1 = true ∧
    SYS_HOLDCFG.KEEP ∈ [TIM_STEP_LIM.LIM, SYS_SCRUB.PACE, SYS_SCRUB.EN, SYS_WAKE.EN, SYS_HOLDCFG.KEEP] ∧
    Instr.registerWrite SYS_HOLDCFG.KEEP.addr 0xFFFFFFFF (.task 7) ∈ [Instr.registerWrite SYS_HOLDCFG.KEEP.addr 0xFFFFFFFF .spi,
      .registerWrite SYS_HOLDCFG.KEEP.addr 0xFFFFFFFF .dbg, .registerWrite SYS_HOLDCFG.KEEP.addr 0xFFFFFFFF (.task 7),
      .spiWrite SYS_HOLDCFG.KEEP.addr [0xFFFFFFFF]] ∧
    absent off = true ∧ 0 ∉ [0x02, 0x03, 0x05, 0x10, 0x11] ∧
    Instr.spiUnknownCode 0 ∈ [Instr.spiStatus, .spiZcpGet, .spiUnknownCode 0] := by decide +kernel

theorem test_hyps_step_runs_front :
    waitingOne.pending = [Instr.aliveToggle] ∧ (wm Mode.off).pending = [] ∧
    ((wm Mode.off).ms.refStopped = true ∨ (wm Mode.off).mode = Mode.off ∨ (wm Mode.off).mode = Mode.backup) ∧
    (wm Mode.reset).pending = [] ∧ (wm Mode.reset).ms.refStopped = false ∧ (wm Mode.reset).mode = Mode.reset ∧ w.pending = [] ∧
    IdleCycle w := by
  refine ⟨?_, ?_, ?_, ?_, ?_, ?_, ?_, ?_⟩ <;> first | decide +kernel | (unfold IdleCycle; decide +kernel)

theorem test_hyps_every_command_completes :
    Memory.wf w.sp = true := by
  decide +kernel

theorem test_hyps_pins_and_package :
    3 < 4 ∧ absent w = false ∧ 1 < 2 ∧ domOn w 8 = true ∧ absent (wm Mode.off) = true := by
  refine ⟨?_, ?_, ?_, ?_, ?_⟩ <;> decide +kernel

theorem test_hyps_supply_transitions :
    (wm Mode.off).mode = Mode.off ∧ 2000 < 2001 ∧ (wm Mode.backup).mode = Mode.backup ∧ 8 < 9 ∧ w.mode ≠ Mode.off ∧
    w.mode ≠ Mode.backup ∧ 2000 ≤ w.cal.vbat ∧ (vb 1999).mode ≠ Mode.off ∧ (vb 1999).mode ≠ Mode.backup ∧ (vb 1999).cal.vbat < 2000 := by
  refine ⟨?_, ?_, ?_, ?_, ?_, ?_, ?_, ?_, ?_, ?_⟩ <;> decide +kernel

theorem test_hyps_reset_sources :
    absent w = false ∧ w.ms.resetSrc = [] ∧ 50 ≤ 50 ∧ 8 < 9 ∧ 8 < 20 := by
  refine ⟨?_, ?_, ?_, ?_, ?_⟩ <;> decide +kernel

theorem test_hyps_reset_clears :
    absent (linked Mode.run [(SBY_CFG.RST_ACCEPT, 1)]) = false ∧ (linked Mode.run [(SBY_CFG.RST_ACCEPT, 1)]).ms.resetSrc = [] ∧
    50 ≤ 65535 ∧ 8 < 9 ∧ absent (zs Mode.stop []) = false ∧ (zs Mode.stop []).ms.resetSrc = [] ∧
    Heard (zs Mode.stop []) Mode.stop rqS 3 ∧ getF (linked Mode.run [(SBY_CFG.RST_ACCEPT, 1)]) SBY_STAT.LINK = 2 ∧
    (linked Mode.run [(SBY_CFG.RST_ACCEPT, 1)]).sby.fresh = false ∧ 65535 < 65536 ∧
    65535 = (linked Mode.run [(SBY_CFG.RST_ACCEPT, 1)]).sby.rxSeq ∧
    isSet (linked Mode.run [(SBY_CFG.RST_ACCEPT, 1)]) SBY_CFG.RST_ACCEPT = true ∧ (full Mode.backup).mode = Mode.backup ∧
    (full Mode.off).mode = Mode.off ∧ (linked Mode.run [(SBY_CFG.RST_ACCEPT, 1)]).mode ≠ Mode.off ∧
    (linked Mode.run [(SBY_CFG.RST_ACCEPT, 1)]).mode ≠ Mode.backup ∧ 2000 ≤ (linked Mode.run [(SBY_CFG.RST_ACCEPT, 1)]).cal.vbat ∧
    (ramping 2).mode ≠ Mode.reset ∧ (ramping 2).pwr.ramp = [2] ∧ (ramping 5).mode ≠ Mode.reset ∧ (ramping 5).pwr.ramp = [5] := by
  refine ⟨?_, ?_, ?_, ?_, ?_, ?_, ?_, ?_, ?_, ?_, ?_, ?_, ?_, ?_, ?_, ?_, ?_, ?_, ?_, ?_, ?_⟩ <;> first | decide +kernel | (unfold Heard; decide +kernel)

theorem test_hyps_release_boot_and_selftest :
    (inReset true true).mode = Mode.reset ∧ (inReset true true).ms.refStable = true ∧ 255 < 256 ∧ 3 < 4 ∧
    (inReset false false).mode = Mode.reset ∧ (inReset false false).ms.refStable = false ∧ (inReset true true).ms.released = true ∧
    (inReset true false).mode = Mode.reset ∧ (inReset true false).ms.released = false ∧ absent (wm Mode.boot) = false ∧
    absent (wm Mode.off) = true ∧ (loaded false).mode = Mode.boot ∧ (loaded false).ms.refStopped = false ∧
    (loaded false).ms.bootLoaded = true ∧ (loaded false).time.running = false ∧ (loaded true).mode = Mode.boot ∧
    (loaded true).ms.refStopped = false ∧ (loaded true).ms.bootLoaded = true ∧ (loaded true).time.running = true ∧
    isSet (loaded true) SYS_MODE.NO_IMAGE = false ∧ domOn (loaded true) 11 = true ∧ (selfTest 5).mode = Mode.selftest ∧
    (selfTest 5).ms.selftest = some 5 ∧ 5 < 6 ∧ (demand 11).ms.selftest = none ∧ (demand 11).ms.demandTest = some (11, 1) ∧ 11 < 12 := by
  refine ⟨?_, ?_, ?_, ?_, ?_, ?_, ?_, ?_, ?_, ?_, ?_, ?_, ?_, ?_, ?_, ?_, ?_, ?_, ?_, ?_, ?_, ?_, ?_, ?_, ?_, ?_, ?_⟩ <;> decide +kernel

theorem test_hyps_mode_changes :
    (w.mode = Mode.run ∨ w.mode = Mode.track) ∧ (∀ k ∈ w.scan.tasks, k.held = none) ∧ (wm Mode.safeHalt).mode = Mode.safeHalt ∧
    inMode w runModes = true ∧ w.ms.haltPend = none ∧ halting.pending = [] ∧ inMode halting runModes = true ∧
    halting.ms.haltPend = some 255 ∧ 255 < 256 ∧ IdleCycle { halting with ms := { halting.ms with haltPend := none } } ∧
    (wm Mode.stop).mode = Mode.stop ∧ isSet (wm Mode.stop) TXN_STAT.STATE = false ∧ (wm Mode.stop).ms.demandTest = none ∧
    (wm Mode.stop).ms.holdEntry = none ∧ (wm Mode.stop).ms.waking = none ∧ (wm Mode.stop).ms.negotiating = false ∧
    holdNeedsOk (wm Mode.stop) = true ∧ runnable.mode = Mode.stop ∧ runRefused runnable = false ∧ dirRole runnable = 0 ∧
    stopComing.mode = Mode.run ∧ stopComing.ms.stopPending = true ∧ quiet stopComing = true ∧ running2.mode = Mode.run ∧
    running2.ms.stopPending = true ∧ quiet running2 = false ∧ negotiating.ms.negotiating = true ∧ dirRole negotiating = 2 ∧
    isSet negotiating SBY_CFG.SOLO = false := by
  refine ⟨?_, ?_, ?_, ?_, ?_, ?_, ?_, ?_, ?_, ?_, ?_, ?_, ?_, ?_, ?_, ?_, ?_, ?_, ?_, ?_, ?_, ?_, ?_, ?_, ?_, ?_, ?_, ?_, ?_⟩ <;> first | decide +kernel | (unfold IdleCycle; decide +kernel)

theorem test_hyps_mode_requests_refused :
    getF (wm Mode.stop) SYS_ACCERR.FLAGS = 0 ∧
    ((wm Mode.stop).mode = Mode.stop ∨ (wm Mode.stop).mode = Mode.runEdit ∨ (wm Mode.stop).mode = Mode.hold) ∧
    getF w SYS_ACCERR.FLAGS = 0 ∧ (w.mode = Mode.run ∨ w.mode = Mode.hold) ∧
    ((wm Mode.stop).mode = Mode.stop ∨ (wm Mode.stop).mode = Mode.hold) := by
  refine ⟨?_, ?_, ?_, ?_, ?_⟩ <;> decide +kernel

theorem test_hyps_hold_and_wake :
    endingHold.ms.holdEntry = some [7, 2] ∧ (waking 2).mode = Mode.hold ∧ (waking 2).ms.waking = none ∧
    bitOf (getF (waking 2) SYS_WAKE.EN) 1 = true ∧ 1000 ≤ 1000 ∧ (waking 8).mode = Mode.hold ∧ (waking 8).ms.waking = none ∧
    bitOf (getF (waking 8) SYS_WAKE.EN) 3 = true ∧
    newer (getF (waking 8) SYS_WAKETIME.SEC) (taiSec (waking 8).time.tai % 2 ^ 32) = false ∧ (ramping 3).pwr.ramp = [3] ∧
    (3 = 3 ∨ 3 = 8) ∧ domOn (ramping 3) 3 = false ∧ (ramping 3).mode = Mode.hold ∧ (reloading true).ms.wakeReload = true ∧
    getF (reloading true) NVS_STAT.BOOTSLOT = 3 ∧ (reloading true).ms.heldPid = (0, 0) ∧ (reloading false).ms.waking = some [2] ∧
    (reloading false).pwr.ramp = [] ∧ (reloading false).ms.wakeReload = false ∧ (reloading false).mode = Mode.hold := by
  refine ⟨?_, ?_, ?_, ?_, ?_, ?_, ?_, ?_, ?_, ?_, ?_, ?_, ?_, ?_, ?_, ?_, ?_, ?_, ?_, ?_⟩ <;> decide +kernel

theorem test_hyps_power_monitoring :
    inMode w d11Modes = true ∧ domOn w 11 = true ∧ inMode (ws [(PWR_DSTAT.ON, 2047)]) d11Modes = true ∧
    domOn (ws [(PWR_DSTAT.ON, 2047)]) 11 = false ∧ 11 ∉ (ws [(PWR_DSTAT.ON, 2047)]).pwr.ramp ∧ (wm Mode.hold).mode = Mode.hold ∧
    d1On (awake []) = true ∧ 0 < 8 ∧ 0 < 9 ∧ railWindow (awake []) 0 = some (getF w MON_VWARN0.HI, getF w MON_VWARN0.LO) ∧
    getF w MON_VWARN0.LO ≤ getF w MON_VWARN0.HI ∧ getF w MON_VWARN0.HI ≤ getF w MON_VWARN0.HI ∧ monTest (awake []) = false ∧
    65535 < 65536 ∧ (awake []).pwr.warnOff = false ∧ 0 ∉ (awake []).pwr.vOut ∧ bitOf (getF (awake []) SYS_WAKE.EN) 4 = false ∧
    getF (awake []) MON_STAT.VWARN < 2 ^ MON_STAT.VWARN.w ∧ getF (awake []) MON_VWARN0.HI ≤ 65535 ∧ 5 < 6 ∧ -32768 ≤ 400 ∧
    400 ≤ 32767 ∧ 5 ∉ (awake []).pwr.tOut ∧ (awake []).pwr.hot = false ∧ 400 ≤ Int.ofNat (getF (awake []) MON_TCFG.TSHUT) * 4 ∧
    signedOf 8 (getF (awake []) MON_TCFG.WARN_LO) * 4 ≤ 400 ∧ 400 ≤ signedOf 8 (getF (awake []) MON_TCFG.WARN_HI) * 4 ∧
    -32768 ≤ 500 ∧ 500 ≤ 32767 ∧ 500 ≤ Int.ofNat (getF (awake []) MON_TCFG.TSHUT) * 4 ∧
    signedOf 8 (getF (awake []) MON_TCFG.WARN_LO) * 4 ≤ 500 ∧ signedOf 8 (getF (awake []) MON_TCFG.WARN_HI) * 4 < 500 ∧
    inMode (avs none none false) avsModes = true ∧ isSet (avs none none false) PWR_AVS.EN = true ∧
    isSet (avs none none false) PWR_AVSSTAT.FAULT = false ∧ (avs none none false).pwr.target = none ∧
    avsTarget (avs none none false) ≠ getF (avs none none false) PWR_AVSSTAT.VSET ∧
    (avs (some 90) none false).pwr.target = some 90 ∧ quiet (avs (some 90) none false) = true ∧
    absent (avs (some 90) none false) = false ∧ (avs (some 90) none false).pwr.alert = none ∧
    (avs none none true).pwr.readback = true ∧ getF (avs none none true) PWR_AVSSTAT.VSET ≤ 138 + 15 ∧
    138 ≤ getF (avs none none true) PWR_AVSSTAT.VSET + 15 ∧ getF (avs none none true) PWR_AVSSTAT.VSET + 15 < 139 ∧
    (avs (some 90) (some 70) false).pwr.target = some 90 ∧ (avs (some 90) (some 70) false).pwr.alert = some 70 ∧
    absent (awake []) = false ∧ (awake []).pwr.target = none := by
  refine ⟨?_, ?_, ?_, ?_, ?_, ?_, ?_, ?_, ?_, ?_, ?_, ?_, ?_, ?_, ?_, ?_, ?_, ?_, ?_, ?_, ?_, ?_, ?_, ?_, ?_, ?_, ?_, ?_, ?_, ?_, ?_, ?_, ?_, ?_, ?_, ?_, ?_, ?_, ?_, ?_, ?_, ?_, ?_, ?_, ?_, ?_, ?_, ?_, ?_⟩ <;> decide +kernel

theorem test_hyps_test_access_port :
    d1On w = true ∧ 2 ^ 612 - 1 < 2 ^ 612 ∧ d1On (wm Mode.off) = false := by
  refine ⟨?_, ?_, ?_⟩ <;> decide +kernel

theorem test_hyps_time_sources :
    srcOn (src 5 []) 5 = true ∧ srcOn (src 4 []) 4 = true ∧ absent (src 5 []) = false ∧ 3 < 4 ∧ (src 5 []).time.ptp.length = 4 ∧
    3 < 7 ∧ srcOn (src 3 []) 3 = true ∧ isSet (src 3 []) (TIM_SRC_STAT.VALID 3) = true ∧
    isSet (src 3 []) (TIM_SRC_STAT.QUALIFIED 3) = false ∧ absent (best 3) = false ∧ bestSource (best 3) = some 3 ∧
    getF (best 3) TIM_STAT.ACTIVE_SRC < 7 ∧ getF (best 3) TIM_STAT.ACTIVE_SRC ≠ 3 ∧ irigOk (src 4 []) irig1 = true ∧
    isSet (src 4 []) (TIM_SRC_STAT.VALID 4) = true ∧ getF (src 4 []) (TIM_SRC_CFG.PROFILE 4) = 0 ∧ srcOn pps 5 = true ∧
    true ≠ (getF pps (TIM_SRC_CFG.PROFILE 5) % 2 == 1) ∧ pps.time.ppsLast = some (7 * secUnit + 5000) ∧
    (Int.ofNat (rawStamp pps (8 * secUnit + 5000 + 100000 * nsUnit)) - Int.ofNat (7 * secUnit + 5000) - Int.ofNat secUnit).natAbs ≤
      100000 * nsUnit ∧ false = (getF (src 5 []) (TIM_SRC_CFG.PROFILE 5) % 2 == 1) := by
  refine ⟨?_, ?_, ?_, ?_, ?_, ?_, ?_, ?_, ?_, ?_, ?_, ?_, ?_, ?_, ?_, ?_, ?_, ?_, ?_, ?_, ?_⟩ <;> decide +kernel

theorem test_hyps_time_exchanges :
    1 < 4 ∧ srcOn slave1 1 = true ∧ portOn slave1 1 = true ∧ testing slave1 7 = false ∧ slave1.time.ptp.length = 4 ∧
    (ptpM 0 false).domain = getF slave1 (TIM_SRC_CFG.DOMAIN 1) ∧ (ptpM 0 false).udp = isSet slave1 (TIM_SRC_CFG.TRANSPORT 1) ∧
    (ptpM 0 false).kind = 0 ∧ (ptpM 1 false).domain = getF slave1 (TIM_SRC_CFG.DOMAIN 1) ∧
    (ptpM 1 false).udp = isSet slave1 (TIM_SRC_CFG.TRANSPORT 1) ∧ (ptpM 1 false).kind = 1 ∧ (ptpM 1 false).twoStep = false ∧
    isSet slave1 (TIM_SRC_STAT.SLAVE 1) = true ∧ (nth PtpPort.init slave1.time.ptp 1).annOk = true ∧
    (nth PtpPort.init slave1.time.ptp 1).clockClass = 6 ∧ (ptpM 1 true).domain = getF slave1 (TIM_SRC_CFG.DOMAIN 1) ∧
    (ptpM 1 true).udp = isSet slave1 (TIM_SRC_CFG.TRANSPORT 1) ∧ (ptpM 1 true).kind = 1 ∧ (ptpM 1 true).twoStep = true ∧
    (ptpM 4 false).domain = getF slave1 (TIM_SRC_CFG.DOMAIN 1) ∧ (ptpM 4 false).udp = isSet slave1 (TIM_SRC_CFG.TRANSPORT 1) ∧
    (ptpM 4 false).kind = 4 ∧ (ptpM 4 false).twoStep = false ∧
    (nth PtpPort.init slave1.time.ptp 1).pdelay = some ((ptpM 4 false).seq, w.time.tai - 100000) ∧ redMode slave1 (1 / 2) ≠ 2 ∧
    slave1.egr.ports.length = 4 ∧ (egrPort slave1 1).queues.length = 8 ∧ originOk slave1 0 true = true ∧
    egrRoom slave1 1 (getF slave1 EGR_CTRL.SYSQ) probe = true ∧ getF slave1 EGR_CTRL.SYSQ < 8 ∧
    isSet slave1 (TIM_SRC_CFG.MASTER_OK 1) = true ∧ 4 ≤ getF slave1 TIM_STAT.ACTIVE_SRC ∧ (ptpM 3 false).kind = 3 ∧
    (ptpM 3 false).domain = getF slave1 (TIM_SRC_CFG.DOMAIN 1) ∧ (ptpM 3 false).udp = isSet slave1 (TIM_SRC_CFG.TRANSPORT 1) ∧
    srcOn (sblTime []) 6 = true ∧ linkUp (sblTime []) = true ∧ testing (sblTime []) 9 = false ∧ absent (sblTime []) = false ∧
    domOn (sblTime []) 9 = true ∧ (timex false).response = false ∧ absent asked = false ∧ domOn asked 9 = true ∧
    linkUp asked = true ∧ testing asked 9 = false ∧ (timex true).response = true ∧ srcOn asked 6 = true ∧
    asked.time.sblEx = some ((timex true).no, w.time.tai - 5000) ∧ partnerSrcOk asked = true := by
  refine ⟨?_, ?_, ?_, ?_, ?_, ?_, ?_, ?_, ?_, ?_, ?_, ?_, ?_, ?_, ?_, ?_, ?_, ?_, ?_, ?_, ?_, ?_, ?_, ?_, ?_, ?_, ?_, ?_, ?_, ?_, ?_, ?_, ?_, ?_, ?_, ?_, ?_, ?_, ?_, ?_, ?_, ?_, ?_, ?_, ?_, ?_, ?_, ?_, ?_⟩ <;> decide +kernel

theorem test_hyps_holdover_seed_and_plumb :
    d1On growing = true ∧ growing.time.running = true ∧ growing.time.growing = true ∧ d1On (leaping 1 100) = true ∧
    (leaping 1 100).time.running = true ∧ leapDue (leaping 1 100) = true ∧ leapDue growing = false ∧ seedDue (seeding 1) = true ∧
    (seeding 1).cal.point = none ∧ plbOn lastAngle = true ∧ 2 ^ 64 ≤ lastAngle.plumb.acc + plbStep lastAngle ∧
    lastAngle.plumb.acc < 2 ^ 64 ∧ plbStep lastAngle < 2 ^ 64 ∧ plbOn tracking = true ∧ getF tracking PLB_CTRL.SRC_MODE ≠ 0 ∧
    isSet tracking PLB_STAT.TRACKING = true ∧ plbOn growing = true := by
  refine ⟨?_, ?_, ?_, ?_, ?_, ?_, ?_, ?_, ?_, ?_, ?_, ?_, ?_, ?_, ?_, ?_, ?_⟩ <;> decide +kernel

theorem test_hyps_calendar_years :
    2000 ≤ 2399 ∧ 2399 ≤ 2399 ∧ 1 ≤ 12 ∧ 12 ≤ 12 ∧ dateValid 2399 12 12 0 0 0 = true ∧ 12 < monthLen 2399 12 ∧
    dateValid 2000 2 29 0 0 0 = true ∧ 29 = monthLen 2000 2 ∧ 2 < 12 ∧ dateValid 2399 12 31 0 0 0 = true ∧ 31 = monthLen 2399 12 ∧
    12 = 12 ∧ lastSecond.mode ≠ Mode.off ∧ getF lastSecond CAL_DATE.YEAR = 9113 ∧ getF lastSecond CAL_DATE.MONTH = 18 ∧
    getF lastSecond CAL_DATE.DAY = 49 ∧ getF lastSecond CAL_TIME.HOUR = 35 ∧ getF lastSecond CAL_TIME.MIN = 89 ∧
    getF lastSecond CAL_TIME.SEC = 89 := by
  refine ⟨?_, ?_, ?_, ?_, ?_, ?_, ?_, ?_, ?_, ?_, ?_, ?_, ?_, ?_, ?_, ?_, ?_, ?_, ?_⟩ <;> decide +kernel

theorem test_hyps_calendar_runs :
    w.mode ≠ Mode.off ∧ calSecs w + 1 < 146097 * 86400 ∧ 2399 < lbfMv (wm Mode.backup) ∧
    isSet (wm Mode.backup) CAL_STAT.LBF = false ∧ (wm Mode.backup).mode = Mode.backup ∧ 2399 < lbfMv w ∧
    isSet w CAL_STAT.LBF = false ∧ d1On w = true ∧ absent w = false ∧ lbfMv w + 50 ≤ 2450 ∧ 2399 < lbfMv w + 50 ∧
    calDisc (whole [(CAL_STAT.OSF, 1)] true []) = true ∧ pointNow (whole [(CAL_STAT.OSF, 1)] true []) = some whole0 ∧
    (whole [(CAL_STAT.OSF, 1)] true []).cal.stepNext = true ∧ epoch2000 ≤ utcSec (whole [(CAL_STAT.OSF, 1)] true []) ∧
    utcSec (whole [(CAL_STAT.OSF, 1)] true []) - epoch2000 < 146097 * 86400 ∧ calDisc (whole [] false []) = true ∧
    pointNow (whole [] false []) = some whole0 ∧ (whole [] false []).cal.stepNext = false ∧ (whole [] false []).cal.point = none ∧
    (whole [] false []).cal.ticks = [] ∧ calDisc (whole [] false [whole0 - secUnit / 2]) = true ∧
    pointNow (whole [] false [whole0 - secUnit / 2]) = some whole0 ∧ (whole [] false [whole0 - secUnit / 2]).cal.stepNext = false ∧
    (whole [] false [whole0 - secUnit / 2]).cal.point = none ∧
    (whole [] false [whole0 - secUnit / 2]).cal.ticks = [whole0 - secUnit / 2] ∧ whole0 - (whole0 - secUnit / 2) ≤ secUnit / 2 ∧
    max 1 (getF (whole [] false [whole0 - secUnit / 2]) CAL_CTRL.PHLIM) * crystalTick < (Int.ofNat (whole0 - secUnit / 2) -
      Int.ofNat whole0).natAbs := by
  refine ⟨?_, ?_, ?_, ?_, ?_, ?_, ?_, ?_, ?_, ?_, ?_, ?_, ?_, ?_, ?_, ?_, ?_, ?_, ?_, ?_, ?_, ?_, ?_, ?_, ?_, ?_, ?_, ?_⟩ <;> decide +kernel

theorem test_hyps_calendar_set_and_read :
    absent (setting 539230761) = false ∧ setValid (setting 539230761) = true ∧ absent (setting 539296297) = false ∧
    setValid (setting 539296297) = false ∧ 3 ≠ 16 ∧ 16 ∉ (setting 539230761).cal.snap ∧ absent snapped = false ∧
    16 ∈ snapped.cal.snap := by
  refine ⟨?_, ?_, ?_, ?_, ?_, ?_, ?_, ?_⟩ <;> decide +kernel

theorem test_hyps_alu_arithmetic :
    UnitReady (alu 3 4294967295) o0 2 ∧ 1 ≤ 2 ∧ 2 ≤ 4 ∧ operand (alu 3 4294967295) o0 2 0 = { tag := 3, val := 4294967295 } ∧
    UnitReady (alu 2 2147483648) o0 2 ∧ operand (alu 2 2147483648) o0 2 0 = { tag := 2, val := 2147483648 } ∧
    UnitReady (alu 4 2147483648) o0 2 ∧ operand (alu 4 2147483648) o0 2 0 = { tag := 4, val := 2147483648 } ∧
    UnitReady (alu 5 2139095040) o0 2 ∧ operand (alu 5 2139095040) o0 2 0 = { tag := 5, val := 2139095040 } ∧
    fNan (2139095040) = false ∧ UnitReady (alu 5 2143289344) o0 2 ∧
    operand (alu 5 2143289344) o0 2 0 = { tag := 5, val := 2143289344 } ∧ fNan (2143289344) = true ∧
    UnitReady (alu 9 2147483648) o0 2 ∧ (9 = 9 ∨ 9 = 6) ∧ (9 = 9 ∨ 9 = 3 ∨ 9 = 2) ∧
    operand (alu 9 2147483648) o0 2 0 = { tag := 9, val := 2147483648 } := by
  refine ⟨?_, ?_, ?_, ?_, ?_, ?_, ?_, ?_, ?_, ?_, ?_, ?_, ?_, ?_, ?_, ?_, ?_, ?_⟩ <;> first | decide +kernel | (unfold UnitReady; decide +kernel)

theorem test_hyps_alu_logic_shift_select :
    UnitReady (alu 3 4294967295) o0 2 ∧ 1 ≤ 2 ∧ 2 ≤ 4 ∧ (3 = 1 ∨ 3 = 2 ∨ 3 = 3) ∧
    operand (alu 3 4294967295) o0 2 0 = { tag := 3, val := 4294967295 } ∧ (3 = 2 ∨ 3 = 3) ∧ UnitReady (alu 1 4294967295) o0 2 ∧
    operand (alu 1 4294967295) o0 2 0 = { tag := 1, val := 4294967295 } ∧ UnitReady (alu 2 2147483648) o0 2 ∧
    operand (alu 2 2147483648) o0 2 0 = { tag := 2, val := 2147483648 } ∧ UnitReady (alu 4 2147483648) o0 2 ∧
    operand (alu 4 2147483648) o0 2 0 = { tag := 4, val := 2147483648 } ∧ (3 = 1 ∨ 3 = 3) ∧ UnitReady (alu 3 17) o0 2 ∧ 1 ≤ 1 ∧
    1 ≤ 12 ∧ 12 ≤ 12 ∧ operand (alu 3 17) o0 2 0 = mkT 3 (16 + 1) ∧ UnitReady (alu 3 4) o0 2 ∧ isNum 4 = true ∧ isNum (5) = true ∧
    operand (alu 3 4) o0 2 0 = mkT 3 4 ∧ convert (5) 4 (2139095040) = some (2147483647, true) := by
  refine ⟨?_, ?_, ?_, ?_, ?_, ?_, ?_, ?_, ?_, ?_, ?_, ?_, ?_, ?_, ?_, ?_, ?_, ?_, ?_, ?_, ?_, ?_, ?_⟩ <;> first | decide +kernel | (unfold UnitReady; decide +kernel)

theorem test_hyps_gecko_bits_and_timers :
    UnitReady gecko o0 5 ∧ (5 = 5 ∨ 5 = 6) ∧ gecko.sp.upsets = [] ∧ plainBit 5 ∧ plainBit 983041 ∧
    operand gecko o0 5 1 = addrW 983041 ∧ plainBit 256 ∧ operand gecko o0 5 0 = addrW 256 ∧ plainBit 131071 ∧
    operand gecko o0 5 2 = addrW 131071 ∧ 131071 ≠ 983041 ∧ 5 < 8 ∧ List.lookup (wrBit 5 5) gecko.sp.written = none ∧ 983041 ≠ 5 ∧
    UnitReady (timing 0 0 false) o0 6 ∧ (6 = 5 ∨ 6 = 6) ∧ (timing 0 0 false).sp.upsets = [] ∧ plainBit 6 ∧ 9 < 1024 ∧ 5 < 2 ^ 31 ∧
    operand (timing 0 0 false) o0 6 1 = addrW 983041 ∧ operand (timing 0 0 false) o0 6 2 = mkT 3 9 ∧
    operand (timing 0 0 false) o0 6 3 = mkT 3 5 ∧ taskBit (timing 0 0 false) o0.task 6 = false ∧ UnitReady (timing 0 0 true) o0 6 ∧
    (timing 0 0 true).sp.upsets = [] ∧ plainBit 262149 ∧ operand (timing 0 0 true) o0 6 1 = addrW 983041 ∧
    operand (timing 0 0 true) o0 6 2 = mkT 3 9 ∧ operand (timing 0 0 true) o0 6 3 = mkT 3 5 ∧
    taskBit (timing 0 0 true) o0.task 262149 = true ∧
    ((timerCell (timing 0 0 true) 9).1 = 0 ∨ (timerCell (timing 0 0 true) 9).1 = 1) ∧ 0 < 5 ∧ UnitReady (timing0 0 true) o0 6 ∧
    (timing0 0 true).sp.upsets = [] ∧ 0 < 2 ^ 31 ∧ operand (timing0 0 true) o0 6 1 = addrW 983041 ∧
    operand (timing0 0 true) o0 6 2 = mkT 3 9 ∧ operand (timing0 0 true) o0 6 3 = mkT 3 0 ∧
    taskBit (timing0 0 true) o0.task 262149 = true ∧ ((timerCell (timing0 0 true) 9).1 = 0 ∨ (timerCell (timing0 0 true) 9).1 = 1) ∧
    0 = 0 ∧ UnitReady (timing 2 0 true) o0 6 ∧ (timing 2 0 true).sp.upsets = [] ∧ operand (timing 2 0 true) o0 6 1 = addrW 983041 ∧
    operand (timing 2 0 true) o0 6 2 = mkT 3 9 ∧ operand (timing 2 0 true) o0 6 3 = mkT 3 5 ∧
    taskBit (timing 2 0 true) o0.task 262149 = true ∧ (timerCell (timing 2 0 true) 9).1 = 2 ∧
    (timebase (timing 2 0 true) + 2 ^ 32 - (timerCell (timing 2 0 true) 9).2) % 2 ^ 32 < 5 ∧
    UnitReady (timing 2 (2 ^ 32 - 3) true) o0 6 ∧ (timing 2 (2 ^ 32 - 3) true).sp.upsets = [] ∧
    operand (timing 2 (2 ^ 32 - 3) true) o0 6 1 = addrW 983041 ∧ operand (timing 2 (2 ^ 32 - 3) true) o0 6 2 = mkT 3 9 ∧
    operand (timing 2 (2 ^ 32 - 3) true) o0 6 3 = mkT 3 5 ∧ taskBit (timing 2 (2 ^ 32 - 3) true) o0.task 262149 = true ∧
    (timerCell (timing 2 (2 ^ 32 - 3) true) 9).1 = 2 ∧
    5 ≤ (timebase (timing 2 (2 ^ 32 - 3) true) + 2 ^ 32 - (timerCell (timing 2 (2 ^ 32 - 3) true) 9).2) % 2 ^ 32 ∧
    UnitReady (timing 3 0 true) o0 6 ∧ (timing 3 0 true).sp.upsets = [] ∧ operand (timing 3 0 true) o0 6 1 = addrW 983041 ∧
    operand (timing 3 0 true) o0 6 2 = mkT 3 9 ∧ operand (timing 3 0 true) o0 6 3 = mkT 3 5 ∧
    taskBit (timing 3 0 true) o0.task 262149 = true ∧ (timerCell (timing 3 0 true) 9).1 = 3 ∧ UnitReady (timing 1 0 false) o0 6 ∧
    (timing 1 0 false).sp.upsets = [] ∧ operand (timing 1 0 false) o0 6 1 = addrW 983041 ∧
    operand (timing 1 0 false) o0 6 2 = mkT 3 9 ∧ operand (timing 1 0 false) o0 6 3 = mkT 3 5 ∧
    taskBit (timing 1 0 false) o0.task 6 = false ∧ (timerCell (timing 1 0 false) 9).1 = 1 ∧ UnitReady (timing0 1 false) o0 6 ∧
    (timing0 1 false).sp.upsets = [] ∧ operand (timing0 1 false) o0 6 1 = addrW 983041 ∧
    operand (timing0 1 false) o0 6 2 = mkT 3 9 ∧ operand (timing0 1 false) o0 6 3 = mkT 3 0 ∧
    taskBit (timing0 1 false) o0.task 262149 = false ∧ (timerCell (timing0 1 false) 9).1 = 1 ∧
    taskBit (timing 2 0 true) o0.task 6 = false ∧ taskBit (timing 2 (2 ^ 32 - 3) true) o0.task 6 = false ∧
    (timerCell (timing 0 0 false) 9).1 = 0 ∧ taskBit (timing 3 0 true) o0.task 6 = false ∧ domOn w 2 = true ∧
    0 = w.core.cyc % 1024 ∧ cellMark 0 5 ∉ w.core.firedNow ∧ cellMark 0 6 ∉ w.core.firedNow := by
  refine ⟨?_, ?_, ?_, ?_, ?_, ?_, ?_, ?_, ?_, ?_, ?_, ?_, ?_, ?_, ?_, ?_, ?_, ?_, ?_, ?_, ?_, ?_, ?_, ?_, ?_, ?_, ?_, ?_, ?_, ?_, ?_, ?_, ?_, ?_, ?_, ?_, ?_, ?_, ?_, ?_, ?_, ?_, ?_, ?_, ?_, ?_, ?_, ?_, ?_, ?_, ?_, ?_, ?_, ?_, ?_, ?_, ?_, ?_, ?_, ?_, ?_, ?_, ?_, ?_, ?_, ?_, ?_, ?_, ?_, ?_, ?_, ?_, ?_, ?_, ?_, ?_, ?_, ?_, ?_, ?_, ?_, ?_, ?_, ?_, ?_, ?_, ?_⟩ <;> first | decide +kernel | (unfold UnitReady; decide +kernel) | (unfold plainBit; decide +kernel)

theorem test_hyps_mul_phasor_and_memory :
    UnitReady (mul 3 4294967295) o0 7 ∧ operand (mul 3 4294967295) o0 7 0 = { tag := 3, val := 4294967295 } ∧
    UnitReady (mul 2 2147483648) o0 7 ∧ operand (mul 2 2147483648) o0 7 0 = { tag := 2, val := 2147483648 } ∧
    UnitReady (mul 4 2147483648) o0 7 ∧ operand (mul 4 2147483648) o0 7 0 = { tag := 4, val := 2147483648 } ∧
    UnitReady (mul 5 2139095039) o0 7 ∧ operand (mul 5 2139095039) o0 7 0 = { tag := 5, val := 2139095039 } ∧
    UnitReady (phasor 2147483647 2147483648 1 2) o0 8 ∧ (phasor 2147483647 2147483648 1 2).core.accs.length = 8 ∧ 7 < 8 ∧
    (7 % 2 = 1 ∨ (nth PhuAcc.init (phasor 2147483647 2147483648 1 2).core.accs o0.task).tag = 0 ∨ (nth PhuAcc.init (phasor
      2147483647 2147483648 1 2).core.accs o0.task).tag = (operand (phasor 2147483647 2147483648 1 2) o0 8 0).tag.toNat) ∧
    operand (phasor 2147483647 2147483648 1 2) o0 8 0 = { tag := 4, val := 2147483647 } ∧
    operand (phasor 2147483647 2147483648 1 2) o0 8 1 = { tag := 4, val := 2147483648 } ∧
    operand (phasor 2147483647 2147483648 1 2) o0 8 2 = { tag := 4, val := 1 } ∧
    operand (phasor 2147483647 2147483648 1 2) o0 8 3 = { tag := 4, val := 2 } ∧
    (-2 ^ 63 ≤ (if 7 % 2 = 1 then 0 else (nth PhuAcc.init (phasor 2147483647 2147483648 1 2).core.accs o0.task).re) + if 7 / 4 = 1
      then -((2147483647 : Word).toInt * (1 : Word).toInt - (2147483648 : Word).toInt * if 7 / 2 % 2 = 1 then -(2 : Word).toInt else
      (2 : Word).toInt) else (2147483647 : Word).toInt * (1 : Word).toInt - (2147483648 : Word).toInt * if 7 / 2 % 2 = 1 then -(2 :
      Word).toInt else (2 : Word).toInt) ∧
    (((if 7 % 2 = 1 then 0 else (nth PhuAcc.init (phasor 2147483647 2147483648 1 2).core.accs o0.task).re) + if 7 / 4 = 1 then
      -((2147483647 : Word).toInt * (1 : Word).toInt - (2147483648 : Word).toInt * if 7 / 2 % 2 = 1 then -(2 : Word).toInt else (2 :
      Word).toInt) else (2147483647 : Word).toInt * (1 : Word).toInt - (2147483648 : Word).toInt * if 7 / 2 % 2 = 1 then -(2 :
      Word).toInt else (2 : Word).toInt) < 2 ^ 63) ∧
    (-2 ^ 63 ≤ (if 7 % 2 = 1 then 0 else (nth PhuAcc.init (phasor 2147483647 2147483648 1 2).core.accs o0.task).im) + if 7 / 4 = 1
      then -(((2147483647 : Word).toInt * if 7 / 2 % 2 = 1 then -(2 : Word).toInt else (2 : Word).toInt) + (2147483648 : Word).toInt
      * (1 : Word).toInt) else ((2147483647 : Word).toInt * if 7 / 2 % 2 = 1 then -(2 : Word).toInt else (2 : Word).toInt) +
      (2147483648 : Word).toInt * (1 : Word).toInt) ∧
    (((if 7 % 2 = 1 then 0 else (nth PhuAcc.init (phasor 2147483647 2147483648 1 2).core.accs o0.task).im) + if 7 / 4 = 1 then
      -(((2147483647 : Word).toInt * if 7 / 2 % 2 = 1 then -(2 : Word).toInt else (2 : Word).toInt) + (2147483648 : Word).toInt * (1
      : Word).toInt) else ((2147483647 : Word).toInt * if 7 / 2 % 2 = 1 then -(2 : Word).toInt else (2 : Word).toInt) + (2147483648
      : Word).toInt * (1 : Word).toInt) < 2 ^ 63) ∧ UnitReady phasorF o0 8 ∧ phasorF.core.accs.length = 8 ∧
    (7 % 2 = 1 ∨ (nth PhuAcc.init phasorF.core.accs o0.task).tag = 0 ∨ (nth PhuAcc.init phasorF.core.accs o0.task).tag = (operand
      phasorF o0 8 0).tag.toNat) ∧ operand phasorF o0 8 0 = { tag := 5, val := 2139095039 } ∧
    operand phasorF o0 8 1 = { tag := 5, val := 1 } ∧ operand phasorF o0 8 2 = { tag := 5, val := 2 } ∧
    operand phasorF o0 8 3 = { tag := 5, val := 3 } ∧ (4 = 4 ∨ 4 = 5) ∧ UnitReady (dft 256 128) o0 8 ∧ 2 ≤ 256 ∧ 256 ≤ 256 ∧
    256 % 2 = 0 ∧ 128 ≤ 256 / 2 ∧ 0 < 4 ∧ 0 < 512 ∧ (0 ≠ 0 → 256 ≤ 0 ∧ 0 < 0) ∧ 524032 < 524288 ∧
    (∀ k < 256, dftAddr 524032 0 0 k < 524288) ∧ (0 = 3 → dftSum 3 256 (phuWin (dft 256 128)) ≠ 0) ∧
    operand (dft 256 128) o0 8 0 = addrW 524032 ∧ operand (dft 256 128) o0 8 1 = mkT 3 (256 + 512 * 0) ∧
    operand (dft 256 128) o0 8 2 = mkT 3 0 ∧ operand (dft 256 128) o0 8 3 = mkT 3 (128 + 512 * 0) ∧
    UnitReady (memory 524286 524286) o0 9 ∧ (9 = 9 ∨ 9 = 10) ∧ 9 < 524288 ∧ 524286 < 524288 ∧
    operand (memory 524286 524286) o0 9 0 = addrW 524286 ∧ 0 ≤ Int.ofNat 524286 + (4294967295 : Word).toInt ∧
    Int.ofNat 524286 + (4294967295 : Word).toInt < 524288 ∧ operand (memory 524286 524286) o0 9 1 = addrW 524286 ∧ 9 ≠ 524287 := by
  refine ⟨?_, ?_, ?_, ?_, ?_, ?_, ?_, ?_, ?_, ?_, ?_, ?_, ?_, ?_, ?_, ?_, ?_, ?_, ?_, ?_, ?_, ?_, ?_, ?_, ?_, ?_, ?_, ?_, ?_, ?_, ?_, ?_, ?_, ?_, ?_, ?_, ?_, ?_, ?_, ?_, ?_, ?_, ?_, ?_, ?_, ?_, ?_, ?_, ?_, ?_, ?_, ?_⟩ <;> first | decide +kernel | (unfold UnitReady; decide +kernel)

theorem test_hyps_results_and_deferred :
    ((pend PendAct.nothing [(0, { tag := 3, val := 1 })]).act = PendAct.nothing ∨ ∃ a, (pend PendAct.nothing [(0,
      { tag := 3, val := 1 })]).act = PendAct.load a ∨ (pend PendAct.nothing [(0, { tag := 3, val := 1 })]).act = PendAct.loadPair
      a) ∧
    IdleCycle
      { (flying PendAct.nothing [(0, { tag := 3, val := 1 })]) with core := { ((flying PendAct.nothing [(0, { tag := 3, val := 1 })]).core) with ops := [] } }
      ∧ (flying PendAct.nothing [(0, { tag := 3, val := 1 })]).core.ops = [pend PendAct.nothing [(0, { tag := 3, val := 1 })]] ∧
    (pend PendAct.nothing [(0, { tag := 3, val := 1 })]).fire + (pend PendAct.nothing [(0, { tag := 3, val := 1 })]).lat = (flying
      PendAct.nothing [(0, { tag := 3, val := 1 })]).core.cyc + 1 ∧ (pend PendAct.nothing [(0, { tag := 3, val := 1 })]).unit ≠ 13 ∧
    (flying PendAct.nothing [(0, { tag := 3, val := 1 })]).sp.upsets = [] ∧
    IdleCycle
      { (flying (PendAct.store 36864 [{ tag := 3, val := 1 }, { tag := 4, val := 2 }]) []) with core := { ((flying (PendAct.store 36864 [{ tag := 3, val := 1 }, { tag := 4, val := 2 }]) []).core) with ops := [] } }
      ∧
    (flying (PendAct.store 36864 [{ tag := 3, val := 1 }, { tag := 4, val := 2 }]) []).core.ops = [pend (PendAct.store 36864
      [{ tag := 3, val := 1 }, { tag := 4, val := 2 }]) []] ∧
    (pend (PendAct.store 36864 [{ tag := 3, val := 1 }, { tag := 4, val := 2 }]) []).fire + (pend (PendAct.store 36864
      [{ tag := 3, val := 1 }, { tag := 4, val := 2 }]) []).lat = (flying (PendAct.store 36864 [{ tag := 3, val := 1 },
      { tag := 4, val := 2 }]) []).core.cyc + 1 ∧
    (pend (PendAct.store 36864 [{ tag := 3, val := 1 }, { tag := 4, val := 2 }]) []).unit ≠ 13 ∧
    (flying (PendAct.store 36864 [{ tag := 3, val := 1 }, { tag := 4, val := 2 }]) []).sp.upsets = [] ∧
    (pend (PendAct.store 36864 [{ tag := 3, val := 1 }, { tag := 4, val := 2 }]) []).act = PendAct.store 36864
      [{ tag := 3, val := 1 }, { tag := 4, val := 2 }] ∧
    (pend (PendAct.store 36864 [{ tag := 3, val := 1 }, { tag := 4, val := 2 }]) []).results = [] ∧
    (pend (PendAct.store 36864 [{ tag := 3, val := 1 }, { tag := 4, val := 2 }]) []).o.task < 8 ∧
    (flying (PendAct.store 36864 [{ tag := 3, val := 1 }, { tag := 4, val := 2 }]) []).sp.written = [] ∧
    IdleCycle { (deferring (held true)) with core := { ((deferring (held true)).core) with deferred := [] } } ∧
    (deferring (held true)).core.deferred = [held true] ∧ (held true).res = (deferring (held true)).core.cyc + 1 ∧
    (deferring (held true)).core.cyc + 1 < 2 ^ 64 ∧ (held true).acts = true ∧ (held true).trace = false ∧ (held true).o.task < 8 ∧
    (held true).dst = 768 + 63 ∧ 63 < 64 ∧
    IdleCycle { (deferring aluWaits) with core := { ((deferring aluWaits).core) with deferred := [] } } ∧
    (deferring aluWaits).core.deferred = [aluWaits] ∧ aluWaits.res = (deferring aluWaits).core.cyc + 1 ∧
    (deferring aluWaits).core.cyc + 1 < 2 ^ 64 ∧ aluWaits.acts = true ∧ aluWaits.trace = false ∧ aluWaits.o.task < 8 ∧
    engineOn (deferring aluWaits) = true ∧ aluWaits.dst = 20 ∧ aluWaits.val = { tag := 3, val := 9 } ∧
    aluWaits.opds = [{ tag := 3, val := 7 }, TWord.empty, TWord.empty, TWord.empty] ∧
    UnitReady { (waitingAlu []) with core := { ((waitingAlu []).core) with waiting := [] } } o0 1 ∧
    (waitingAlu []).core.waiting = [aluWaits] ∧ aluWaits.o = o0 ∧ domOn (waitingAlu [1]) 2 = true ∧
    (waitingAlu [1]).core.waiting = [aluWaits] ∧ unitFree (waitingAlu [1]) aluWaits = false :=
  ⟨Or.inl rfl, by refine ⟨?_, ?_, ?_, ?_, ?_, ?_, ?_, ?_, ?_, ?_, ?_, ?_, ?_, ?_, ?_, ?_, ?_, ?_, ?_, ?_, ?_, ?_, ?_, ?_, ?_, ?_, ?_, ?_, ?_, ?_, ?_, ?_, ?_, ?_, ?_, ?_, ?_, ?_, ?_, ?_⟩ <;> first | decide +kernel | (unfold UnitReady; decide +kernel) | (unfold IdleCycle; decide +kernel)⟩

theorem test_hyps_compares_and_branches :
    UnitReady (Tests.opd w 11 [(0, { tag := 2, val := 2147483648 })]) o0 11 ∧ (2 = 2 ∨ 2 = 4) ∧
    operand (Tests.opd w 11 [(0, { tag := 2, val := 2147483648 })]) o0 11 0 = { tag := 2, val := 2147483648 } ∧
    UnitReady (Tests.opd w 11 [(0, { tag := 3, val := 2147483648 })]) o0 11 ∧
    operand (Tests.opd w 11 [(0, { tag := 3, val := 2147483648 })]) o0 11 0 = { tag := 3, val := 2147483648 } ∧
    UnitReady (Tests.opd w 11 [(0, { tag := 5, val := 2147483648 })]) o0 11 ∧
    operand (Tests.opd w 11 [(0, { tag := 5, val := 2147483648 })]) o0 11 0 = { tag := 5, val := 2147483648 } ∧
    fNan (2147483648) = false ∧ (fNan (2147483648) = true ∨ fNan (2143289344) = true) ∧
    UnitReady (Tests.opd w 11 [(0, { tag := 6, val := 2147483648 })]) o0 11 ∧ (6 = 6 ∨ 6 = 9) ∧
    operand (Tests.opd w 11 [(0, { tag := 6, val := 2147483648 })]) o0 11 0 = { tag := 6, val := 2147483648 } ∧ (3 = 1 ∨ 3 = 3) ∧
    (Tests.opd w 11 [(0, { tag := 2, val := 2147483648 })]).core.branches.length = 8 := by
  refine ⟨?_, ?_, ?_, ?_, ?_, ?_, ?_, ?_, ?_, ?_, ?_, ?_, ?_, ?_⟩ <;> first | decide +kernel | (unfold UnitReady; decide +kernel)

theorem test_hyps_time_management :
    UnitReady (tmu [(0, { tag := 9, val := 5 }), (1, mkT 3 1), (2, { tag := 12, val := 1048575 })] 255 none) o0 12 ∧
    (tmu [(0, { tag := 9, val := 5 }), (1, mkT 3 1), (2, { tag := 12, val := 1048575 })] 255 none).sby.streaming = false ∧
    (tmu [(0, { tag := 9, val := 5 }), (1, mkT 3 1), (2, { tag := 12, val := 1048575 })] 255 none).sby.replaying = false ∧
    UnitReady (tmu [(0, { tag := 9, val := 5 }), (1, { tag := 6, val := 4294967295 })] 0 none) o0 12 ∧
    (tmu [(0, { tag := 9, val := 5 }), (1, { tag := 6, val := 4294967295 })] 0 none).sby.streaming = false ∧
    (tmu [(0, { tag := 9, val := 5 }), (1, { tag := 6, val := 4294967295 })] 0 none).sby.replaying = false ∧
    operand (tmu [(0, { tag := 9, val := 5 }), (1, { tag := 6, val := 4294967295 })] 0 none) o0 12 0 = { tag := 9, val := 5 } ∧
    operand (tmu [(0, { tag := 9, val := 5 }), (1, { tag := 6, val := 4294967295 })] 0 none) o0 12 1 =
      { tag := 6, val := 4294967295 } ∧
    (tmu [(0, { tag := 9, val := 5 }), (1, mkT 3 1), (2, { tag := 12, val := 1048575 })] 255 none).core.fifo = [] ∧
    UnitReady recording o0 12 ∧ recording.sby.streaming = false ∧ recording.sby.replaying = false ∧
    recording.core.fifo = [(1, 2, 3)] ∧
    (tmu [(0, { tag := 9, val := 5 }), (1, mkT 3 1), (2, { tag := 12, val := 1048575 })] 255 none).core.tmu = [] ++
      { gen := 255, ev := none } :: List.drop 1 w.core.tmu ∧ (∀ x ∈ ([] : List TmuSlot), x.ev ≠ none) ∧ (1 = 1 ∨ 1 = 2) ∧
    1048575 < 2 ^ 20 ∧
    operand (tmu [(0, { tag := 9, val := 5 }), (1, mkT 3 1), (2, { tag := 12, val := 1048575 })] 255 none) o0 12 0 =
      { tag := 9, val := 5 } ∧
    operand (tmu [(0, { tag := 9, val := 5 }), (1, mkT 3 1), (2, { tag := 12, val := 1048575 })] 255 none) o0 12 1 = mkT 3 1 ∧
    operand (tmu [(0, { tag := 9, val := 5 }), (1, mkT 3 1), (2, { tag := 12, val := 1048575 })] 255 none) o0 12 2 =
      { tag := 12, val := 1048575 } ∧
    UnitReady (tmu [(0, { tag := 8, val := 5 }), (1, mkT 3 2), (2, { tag := 12, val := 1048575 })] 255 none) o0 12 ∧
    (tmu [(0, { tag := 8, val := 5 }), (1, mkT 3 2), (2, { tag := 12, val := 1048575 })] 255 none).sby.streaming = false ∧
    (tmu [(0, { tag := 8, val := 5 }), (1, mkT 3 2), (2, { tag := 12, val := 1048575 })] 255 none).sby.replaying = false ∧
    (tmu [(0, { tag := 8, val := 5 }), (1, mkT 3 2), (2, { tag := 12, val := 1048575 })] 255 none).core.tmu = [] ++
      { gen := 255, ev := none } :: List.drop 1 w.core.tmu ∧ (2 = 1 ∨ 2 = 2) ∧ 1048575 % 2 ^ 30 ≤ 999999999 ∧
    operand (tmu [(0, { tag := 8, val := 5 }), (1, mkT 3 2), (2, { tag := 12, val := 1048575 })] 255 none) o0 12 0 =
      { tag := 8, val := 5 } ∧
    operand (tmu [(0, { tag := 8, val := 5 }), (1, mkT 3 2), (2, { tag := 12, val := 1048575 })] 255 none) o0 12 1 = mkT 3 2 ∧
    operand (tmu [(0, { tag := 8, val := 5 }), (1, mkT 3 2), (2, { tag := 12, val := 1048575 })] 255 none) o0 12 2 =
      { tag := 12, val := 1048575 } ∧
    UnitReady (allTaken [(0, { tag := 9, val := 5 }), (1, mkT 3 1), (2, { tag := 12, val := 1048575 })]) o0 12 ∧
    (allTaken [(0, { tag := 9, val := 5 }), (1, mkT 3 1), (2, { tag := 12, val := 1048575 })]).sby.streaming = false ∧
    (allTaken [(0, { tag := 9, val := 5 }), (1, mkT 3 1), (2, { tag := 12, val := 1048575 })]).sby.replaying = false ∧
    (∀ x ∈ (allTaken [(0, { tag := 9, val := 5 }), (1, mkT 3 1), (2, { tag := 12, val := 1048575 })]).core.tmu, x.ev ≠ none) ∧
    operand (allTaken [(0, { tag := 9, val := 5 }), (1, mkT 3 1), (2, { tag := 12, val := 1048575 })]) o0 12 0 =
      { tag := 9, val := 5 } ∧
    operand (allTaken [(0, { tag := 9, val := 5 }), (1, mkT 3 1), (2, { tag := 12, val := 1048575 })]) o0 12 1 = mkT 3 1 ∧
    operand (allTaken [(0, { tag := 9, val := 5 }), (1, mkT 3 1), (2, { tag := 12, val := 1048575 })]) o0 12 2 =
      { tag := 12, val := 1048575 } ∧ UnitReady (allTaken []) o0 12 ∧ (allTaken []).sby.streaming = false ∧
    (allTaken []).sby.replaying = false ∧ 31 < 32 ∧
    (allTaken []).core.tmu[31]? = some { gen := 4, ev := some ({ (evt 5) with tai := 2 ^ 90 }) } ∧ 4 < 256 ∧
    tmuDue (allTaken []) 31 = false ∧ UnitReady (tmu [] 255 none) o0 12 ∧ (tmu [] 255 none).sby.streaming = false ∧
    (tmu [] 255 none).sby.replaying = false ∧ 0 < 32 ∧ (tmu [] 255 none).core.tmu[0]? = some { gen := 255, ev := none } ∧ 0 < 256 ∧
    (({ gen := 255, ev := none } : TmuSlot).ev = none ∨ ({ gen := 255, ev := none } : TmuSlot).gen ≠ 0) := by
  refine ⟨?_, ?_, ?_, ?_, ?_, ?_, ?_, ?_, ?_, ?_, ?_, ?_, ?_, ?_, ?_, ?_, ?_, ?_, ?_, ?_, ?_, ?_, ?_, ?_, ?_, ?_, ?_, ?_, ?_, ?_, ?_, ?_, ?_, ?_, ?_, ?_, ?_, ?_, ?_, ?_, ?_, ?_, ?_, ?_, ?_, ?_, ?_, ?_, ?_, ?_⟩ <;> first | decide +kernel | (unfold UnitReady; decide +kernel)

theorem test_hyps_events_and_fast_queues :
    (∀ w ∈ (wm Mode.track).core.fastWait, 4 ≤ (nth [] (wm Mode.track).core.fastQ (bitsOf (BitVec.toNat w) 8 3)).length) ∧
    ((hubPort (fastQueued [15]) 3).fsBusy = none ∨ ∃ b, (hubPort (fastQueued [15]) 3).fsBusy = some b ∧ b ≤ (fastQueued
      [15]).core.cyc) ∧ domOn (due (evt 1048575)) 2 = true ∧ (due (evt 1048575)).sby.streaming = false ∧ 0 < 32 ∧
    (due (evt 1048575)).core.tmu[0]? = some { gen := 7, ev := some (evt 1048575) } ∧
    ({ gen := 7, ev := some (evt 1048575) } : TmuSlot).ev = some (evt 1048575) ∧ tmuDue (due (evt 1048575)) 0 = true ∧
    ((evt 1048575).action = if true = true then 1 else 2) ∧ (due (evt 1048575)).sp.upsets = [] ∧
    (due (evt 1048575)).sp.written = [] ∧ 262144 ≤ BitVec.toNat (evt 1048575).arg ∧ BitVec.toNat (evt 1048575).arg < 2 ^ 20 ∧
    domOn (due (evt2 (evt 2047) 3)) 2 = true ∧ (due (evt2 (evt 2047) 3)).sby.streaming = false ∧
    (due (evt2 (evt 2047) 3)).core.tmu[0]? = some { gen := 7, ev := some (evt2 (evt 2047) 3) } ∧
    ({ gen := 7, ev := some (evt2 (evt 2047) 3) } : TmuSlot).ev = some (evt2 (evt 2047) 3) ∧
    tmuDue (due (evt2 (evt 2047) 3)) 0 = true ∧ (evt2 (evt 2047) 3).action = 3 ∧
    BitVec.toNat (evt2 (evt 2047) 3).arg = 7 * 256 + 255 ∧ 7 < 8 ∧ 0 < 255 ∧ 255 < 256 ∧
    (nth [] (due (evt2 (evt 2047) 3)).core.fastQ 7).length < 4 ∧ tmuMark 0 ∉ (due (evt2 (evt 2047) 3)).core.firedNow ∧
    fastRoom (due (evt2 (evt 2047) 3)) 7 = true ∧ UnitReady w o0 16 ∧ 3 < 8 ∧ 0 < 3 ∧ 3 < 256 ∧ 3 % 16 &&& 3 / 16 = 0 ∧
    (w.mode = Mode.run ∨ w.mode = Mode.runEdit) ∧ fastRoom w 3 = true ∧ UnitReady (wm Mode.track) o0 16 ∧ 0 < 240 ∧ 240 < 256 ∧
    240 % 16 &&& 240 / 16 = 0 ∧ (wm Mode.track).mode ≠ Mode.run ∧ (wm Mode.track).mode ≠ Mode.runEdit ∧ domOn fastWaiting 2 = true ∧
    fastWaiting.core.fastWait = [783] ∧ (nth [] fastWaiting.core.fastQ (bitsOf (783) 8 3)).length < 4 ∧
    domOn (wm Mode.track) 2 = true ∧ hubOn (fastQueued [15]) = true ∧ (fastQueued [15]).core.fastQ.length = 8 ∧
    nth [] (fastQueued [15]).core.fastQ 3 = [15] ∧ (fastQueued [15]).fld.hub.length = 8 :=
  ⟨fun _ h => absurd h List.not_mem_nil, Or.inl (by decide +kernel), by refine ⟨?_, ?_, ?_, ?_, ?_, ?_, ?_, ?_, ?_, ?_, ?_, ?_, ?_, ?_, ?_, ?_, ?_, ?_, ?_, ?_, ?_, ?_, ?_, ?_, ?_, ?_, ?_, ?_, ?_, ?_, ?_, ?_, ?_, ?_, ?_, ?_, ?_, ?_, ?_, ?_, ?_, ?_, ?_, ?_, ?_⟩ <;> first | decide +kernel | (unfold UnitReady; decide +kernel)⟩

theorem test_hyps_queue_unit :
    UnitReady (qu [(0, addrW 524287), (1, mkT 3 1522)]) o0 13 ∧ (qu [(0, addrW 524287), (1, mkT 3 1522)]).sby.streaming = false ∧
    (qu [(0, addrW 524287), (1, mkT 3 1522)]).sby.replaying = false ∧ 15 < 16 ∧ 1 ≤ 1522 ∧ 1522 ≤ 1522 ∧ 32768 ≤ 524287 ∧
    operand (qu [(0, addrW 524287), (1, mkT 3 1522)]) o0 13 0 = addrW 524287 ∧
    operand (qu [(0, addrW 524287), (1, mkT 3 1522)]) o0 13 1 = mkT 3 1522 ∧
    nth [] (qu [(0, addrW 524287), (1, mkT 3 1522)]).core.mbx 15 = [] ∧ 524287 ≤ 524287 ∧ UnitReady (mbxOne 15 1522) o0 13 ∧
    (mbxOne 15 1522).sby.streaming = false ∧ (mbxOne 15 1522).sby.replaying = false ∧ 32768 ≤ 523887 ∧
    operand (mbxOne 15 1522) o0 13 0 = addrW 523887 ∧ operand (mbxOne 15 1522) o0 13 1 = mkT 3 1522 ∧
    nth [] (mbxOne 15 1522).core.mbx 15 = [{ bytes := List.replicate 1522 1, sec := 9, tns := 8, port := 2 }] ∧
    (mbxOne 15 1522).core.mbx.length = 16 ∧ 523887 + (min (List.replicate 1522 (1 : Byte)).length 1522 + 3) / 4 ≤ 524288 ∧
    523887 ≤ 524287 ∧ UnitReady (qu [(0, mkT 3 (1518 * 2 ^ 16 + 7 * 16 + 15))]) o0 13 ∧
    (qu [(0, mkT 3 (1518 * 2 ^ 16 + 7 * 16 + 15))]).sby.streaming = false ∧
    (qu [(0, mkT 3 (1518 * 2 ^ 16 + 7 * 16 + 15))]).sby.replaying = false ∧ 7 < 8 ∧ 60 ≤ 1518 ∧ 1518 ≤ 1518 ∧
    524288 - 380 + (1518 + 3) / 4 ≤ 524288 ∧
    operand (qu [(0, mkT 3 (1518 * 2 ^ 16 + 7 * 16 + 15))]) o0 13 0 = mkT 3 (1518 * 2 ^ 16 + 7 * 16 + 15) ∧
    UnitReady (canQ 2) o0 13 ∧ (canQ 2).sby.streaming = false ∧ (canQ 2).sby.replaying = false ∧ 1 < 2 ∧ canLenOk true 64 = true ∧
    (true = true → true = true) ∧ (true = true → isSet (canQ 2) (CAN_CTRL.FD_EN 1) = true) ∧
    524288 - 17 + 1 + (64 + 3) / 4 ≤ 524288 ∧
    operand (canQ 2) o0 13 0 = mkT 3 (64 * 2 ^ 16 + b2n true * 8 + b2n true * 4 + b2n true * 2 + 1) ∧
    getF (canQ 2) (CAN_STAT.ERRSTATE 1) ≠ 3 ∧ canFree (canQ 2) 1 = some 0 ∧ UnitReady (canQ 3) o0 13 ∧
    (canQ 3).sby.streaming = false ∧ (canQ 3).sby.replaying = false ∧ (true = true → isSet (canQ 3) (CAN_CTRL.FD_EN 1) = true) ∧
    operand (canQ 3) o0 13 0 = mkT 3 (64 * 2 ^ 16 + b2n true * 8 + b2n true * 4 + b2n true * 2 + 1) ∧
    (getF (canQ 3) (CAN_STAT.ERRSTATE 1) = 3 ∨ canFree (canQ 3) 1 = none) ∧ UnitReady (qu [(0, mkT 3 135)]) o0 13 ∧
    (qu [(0, mkT 3 135)]).sby.streaming = false ∧ (qu [(0, mkT 3 135)]).sby.replaying = false ∧ 1 ≤ 8 ∧ 8 ≤ 8 ∧
    524280 + 8 ≤ 524288 ∧ operand (qu [(0, mkT 3 135)]) o0 13 0 = mkT 3 (8 * 16 + 7) ∧ (3 = 1 ∨ 3 = 2 ∨ 3 = 3) ∧
    operand (qu [(0, mkT 3 (1518 * 2 ^ 16 + 7 * 16 + 15))]) o0 13 0 = { tag := 3, val := 99483775 } := by
  refine ⟨?_, ?_, ?_, ?_, ?_, ?_, ?_, ?_, ?_, ?_, ?_, ?_, ?_, ?_, ?_, ?_, ?_, ?_, ?_, ?_, ?_, ?_, ?_, ?_, ?_, ?_, ?_, ?_, ?_, ?_, ?_, ?_, ?_, ?_, ?_, ?_, ?_, ?_, ?_, ?_, ?_, ?_, ?_, ?_, ?_, ?_, ?_, ?_, ?_, ?_, ?_, ?_, ?_, ?_, ?_⟩ <;> first | decide +kernel | (unfold UnitReady; decide +kernel)

theorem test_hyps_macro_and_end :
    UnitReady w o0 15 ∧ 63 < 64 ∧ UnitReady macroSel o0 15 ∧ macroSel.sp.upsets = [] ∧ macroSel.core.dtBad = [] ∧
    bitOf (dtWord macroSel 5 0) 31 = true ∧ dtWord macroSel 5 1 = 0 ∧ dtWord macroSel 5 2 = 0 ∧ dtWord macroSel 5 3 = 0 ∧
    (∀ (v : Nat), firstUnit macroSel 5 = some v → v ∉ macroSel.core.firedNow) ∧ nth 0 macroSel.core.macSel o0.task = 5 ∧ 5 < 10 ∧
    UnitReady atEnd o0 14 ∧ o0.task < atEnd.scan.tasks.length ∧ (task atEnd o0.task).st = TaskState.running ∧
    (task atEnd o0.task).fin = RunEnd.no ∧ 2 < ended.scan.tasks.length ∧ 2 < 8 ∧ (task ended 2).fin = RunEnd.fromEnd true ∧
    ended.pending = [] ∧ IdleCycle (updTask ended 2 fun k => { k with fin := RunEnd.no }) ∧ ended.sby.streaming = false ∧
    getF ended PHM_CTRL.EN = 0 := by
  refine ⟨?_, ?_, ?_, ?_, ?_, ?_, ?_, ?_, ?_, ?_, ?_, ?_, ?_, ?_, ?_, ?_, ?_, ?_, ?_, ?_, ?_, ?_, ?_⟩ <;> first | decide +kernel | (unfold UnitReady; decide +kernel) | (unfold IdleCycle; decide +kernel)

theorem test_hyps_bundle_issues :
    IdleCycle (bundle 259 1023 12) ∧ ((bundle 259 1023 12).mode = Mode.run ∨ (bundle 259 1023 12).mode = Mode.runEdit) ∧ 2 < 8 ∧
    issuing (nextCycle (bundle 259 1023 12)) = some 2 ∧ (bundle 259 1023 12).sp.upsets = [] ∧
    isSet (bundle 259 1023 12) CORE_BANK.ACTIVE = false ∧ (bundle 259 1023 12).core.badA = [] ∧
    (bundle 259 1023 12).core.badB = [] ∧ isSet (bundle 259 1023 12) TRC_CTRL.EN = false ∧ isOpd 259 = true ∧ 1023 < 1024 ∧ 1 ≤ 12 ∧
    12 ≤ 12 ∧ (bundle 259 1023 12).core.pcs.length = 8 ∧ (bundle 259 1023 12).core.branches.length = 8 ∧
    (bankWord (if false = true then (bundle 259 1023 12).core.bankB else (bundle 259 1023 12).core.bankA) (nth 0 (bundle 259 1023
      12).core.pcs 2) 0 = 15 * 2 ^ 27 + (1024 + 1023) * 2 ^ 16 + 259 * 2 ^ 6 + 12) ∧
    (∀ (i : Nat), 1 ≤ i → i < 8 → bankWord (if false = true then (bundle 259 1023 12).core.bankB else (bundle 259 1023
      12).core.bankA) (nth 0 (bundle 259 1023 12).core.pcs 2) i = 4160749568) ∧ mayIssue w = true ∧ issuing (nextCycle w) = none ∧
    mayIssue (wm Mode.stop) = false := by
  refine ⟨?_, ?_, ?_, ?_, ?_, ?_, ?_, ?_, ?_, ?_, ?_, ?_, ?_, ?_, ?_, ?_, ?_, ?_, ?_, ?_⟩ <;> first | decide +kernel | (unfold IdleCycle; decide +kernel)

theorem test_hyps_stop_pending_triggers :
    2 < 8 ∧ (pendingStop (atInstant 0 TaskState.running [])).ms.stopPending = true ∧
    ((pendingStop (atInstant 0 TaskState.running [])).mode = Mode.run ∨ (pendingStop (atInstant 0 TaskState.running [])).mode =
      Mode.runEdit) ∧ isSet (pendingStop (atInstant 0 TaskState.running [])) (SCN_TCFG.EN 2) = true ∧
    getF (pendingStop (atInstant 0 TaskState.running [])) (SCN_TCFG.TRIG 2) = 0 ∧
    justStepped (pendingStop (atInstant 0 TaskState.running [])) = none ∧
    0 < instantsIn (pendingStop (atInstant 0 TaskState.running [])) 2 ((fun a => max a ((task (pendingStop (atInstant 0
      TaskState.running [])) 2).lastInst.getD 0)) (pendingStop (atInstant 0 TaskState.running [])).time.tai) (clockAdvance
      (pendingStop (atInstant 0 TaskState.running []))).time.tai ∧
    (pendingStop (stepped (atInstant 0 TaskState.running []))).ms.stopPending = true ∧
    ((pendingStop (stepped (atInstant 0 TaskState.running []))).mode = Mode.run ∨ (pendingStop (stepped (atInstant 0
      TaskState.running []))).mode = Mode.runEdit) ∧
    isSet (pendingStop (stepped (atInstant 0 TaskState.running []))) (SCN_TCFG.EN 2) = true ∧
    getF (pendingStop (stepped (atInstant 0 TaskState.running []))) (SCN_TCFG.TRIG 2) = 0 ∧
    justStepped (pendingStop (stepped (atInstant 0 TaskState.running []))) = some ((atInstant 0 TaskState.running []).time.tai -
      1000 * nsUnit, (atInstant 0 TaskState.running []).time.tai) ∧
    0 < instantsIn (pendingStop (stepped (atInstant 0 TaskState.running []))) 2 ((fun a => max a ((task (pendingStop (stepped
      (atInstant 0 TaskState.running []))) 2).lastInst.getD 0)) ((atInstant 0 TaskState.running []).time.tai - 1000 * nsUnit))
      (atInstant 0 TaskState.running []).time.tai ∧ (pendingStop (atInstant 1 TaskState.idle [])).ms.stopPending = true ∧
    ((pendingStop (atInstant 1 TaskState.idle [])).mode = Mode.run ∨ (pendingStop (atInstant 1 TaskState.idle [])).mode =
      Mode.runEdit) ∧ isSet (pendingStop (atInstant 1 TaskState.idle [])) (SCN_TCFG.EN 2) = true ∧
    getF (pendingStop (atInstant 1 TaskState.idle [])) (SCN_TCFG.TRIG 2) = 1 ∧
    angleMark 2 ∉ (pendingStop (atInstant 1 TaskState.idle [])).core.firedNow ∧
    reachedPosition (pendingStop (atInstant 1 TaskState.idle [])) 2 ≠ none ∧
    (pendingStop (bitOn (atInstant 2 TaskState.idle []))).ms.stopPending = true ∧
    ((pendingStop (bitOn (atInstant 2 TaskState.idle []))).mode = Mode.run ∨ (pendingStop (bitOn (atInstant 2 TaskState.idle
      []))).mode = Mode.runEdit) ∧ isSet (pendingStop (bitOn (atInstant 2 TaskState.idle []))) (SCN_TCFG.EN 2) = true ∧
    getF (pendingStop (bitOn (atInstant 2 TaskState.idle []))) (SCN_TCFG.TRIG 2) = 2 ∧
    (pendingStop (bitOn (atInstant 2 TaskState.idle []))).sp.upsets = [] ∧
    (false = false ∧ rawBit (pendingStop (bitOn (atInstant 2 TaskState.idle []))) (getF (pendingStop (bitOn (atInstant 2
      TaskState.idle []))) (SCN_EDGE.ADDR 2)) = true ∧ bitOf (getF (pendingStop (bitOn (atInstant 2 TaskState.idle [])))
      (SCN_EDGE.POL 2)) 0 = true ∨ false = true ∧ rawBit (pendingStop (bitOn (atInstant 2 TaskState.idle []))) (getF (pendingStop
      (bitOn (atInstant 2 TaskState.idle []))) (SCN_EDGE.ADDR 2)) = false ∧ bitOf (getF (pendingStop (bitOn (atInstant 2
      TaskState.idle []))) (SCN_EDGE.POL 2)) 1 = true) ∧ replays.ms.stopPending = true ∧ replica replays = true ∧
    replays.sby.events = [(0, StreamEv.trig 2 (trigNow w 0 true))] ∧ 0 ≤ replays.sby.rcyc ∧
    (replays.mode = Mode.run ∨ replays.mode = Mode.track) ∧ replays.scan.tasks.length = 8 := by
  refine ⟨?_, ?_, ?_, ?_, ?_, ?_, ?_, ?_, ?_, ?_, ?_, ?_, ?_, ?_, ?_, ?_, ?_, ?_, ?_, ?_, ?_, ?_, ?_, ?_, ?_, ?_, ?_, ?_, ?_, ?_, ?_⟩ <;> decide +kernel

theorem test_hyps_task_triggers :
    2 < 8 ∧ ((atInstant 0 TaskState.idle []).mode = Mode.run ∨ (atInstant 0 TaskState.idle []).mode = Mode.runEdit) ∧
    (atInstant 0 TaskState.idle []).scan.tasks.length = 8 ∧ (atInstant 0 TaskState.idle []).ms.stopPending = false ∧
    (atInstant 0 TaskState.idle []).ms.haltPend = none ∧ (atInstant 0 TaskState.idle []).sby.streaming = false ∧
    isSet (atInstant 0 TaskState.idle []) TRC_CTRL.EN = false ∧ isSet (atInstant 0 TaskState.idle []) (SCN_TCFG.EN 2) = true ∧
    (atInstant 0 TaskState.idle []).sp.upsets = [] ∧
    ((fun i k => i = Instr.triggerPeriod 2 ∧ k = 0 ∧ getF (atInstant 0 TaskState.idle []) (SCN_TCFG.TRIG 2) = 0 ∧ justStepped
      (atInstant 0 TaskState.idle []) = none ∧ 0 < instantsIn (atInstant 0 TaskState.idle []) 2 ((fun a => max a ((task (atInstant 0
      TaskState.idle []) 2).lastInst.getD 0)) (atInstant 0 TaskState.idle []).time.tai) (clockAdvance (atInstant 0 TaskState.idle
      [])).time.tai ∨ i = Instr.triggerAngle 2 ∧ getF (atInstant 0 TaskState.idle []) (SCN_TCFG.TRIG 2) = 1 ∧ angleMark 2 ∉
      (atInstant 0 TaskState.idle []).core.firedNow ∧ reachedPosition (atInstant 0 TaskState.idle []) 2 = some k ∨ ∃ old, i =
      Instr.triggerEdge 2 old ∧ k = 0 ∧ getF (atInstant 0 TaskState.idle []) (SCN_TCFG.TRIG 2) = 2 ∧ (old = false ∧ rawBit
      (atInstant 0 TaskState.idle []) (getF (atInstant 0 TaskState.idle []) (SCN_EDGE.ADDR 2)) = true ∧ bitOf (getF (atInstant 0
      TaskState.idle []) (SCN_EDGE.POL 2)) 0 = true ∨ old = true ∧ rawBit (atInstant 0 TaskState.idle []) (getF (atInstant 0
      TaskState.idle []) (SCN_EDGE.ADDR 2)) = false ∧ bitOf (getF (atInstant 0 TaskState.idle []) (SCN_EDGE.POL 2)) 1 = true))
      (Instr.triggerPeriod 2) 0) ∧ (task (atInstant 0 TaskState.idle []) 2).st = TaskState.idle ∧
    ((atInstant 1 TaskState.running [(SCN_TCFG.OVR 2, 0)]).mode = Mode.run ∨ (atInstant 1 TaskState.running [(SCN_TCFG.OVR 2,
      0)]).mode = Mode.runEdit) ∧ (atInstant 1 TaskState.running [(SCN_TCFG.OVR 2, 0)]).scan.tasks.length = 8 ∧
    (atInstant 1 TaskState.running [(SCN_TCFG.OVR 2, 0)]).ms.stopPending = false ∧
    (atInstant 1 TaskState.running [(SCN_TCFG.OVR 2, 0)]).ms.haltPend = none ∧
    (atInstant 1 TaskState.running [(SCN_TCFG.OVR 2, 0)]).sby.streaming = false ∧
    isSet (atInstant 1 TaskState.running [(SCN_TCFG.OVR 2, 0)]) TRC_CTRL.EN = false ∧
    isSet (atInstant 1 TaskState.running [(SCN_TCFG.OVR 2, 0)]) (SCN_TCFG.EN 2) = true ∧
    (atInstant 1 TaskState.running [(SCN_TCFG.OVR 2, 0)]).sp.upsets = [] ∧
    ((fun i k => i = Instr.triggerPeriod 2 ∧ k = 0 ∧ getF (atInstant 1 TaskState.running [(SCN_TCFG.OVR 2, 0)]) (SCN_TCFG.TRIG 2) =
      0 ∧ justStepped (atInstant 1 TaskState.running [(SCN_TCFG.OVR 2, 0)]) = none ∧ 0 < instantsIn (atInstant 1 TaskState.running
      [(SCN_TCFG.OVR 2, 0)]) 2 ((fun a => max a ((task (atInstant 1 TaskState.running [(SCN_TCFG.OVR 2, 0)]) 2).lastInst.getD 0))
      (atInstant 1 TaskState.running [(SCN_TCFG.OVR 2, 0)]).time.tai) (clockAdvance (atInstant 1 TaskState.running [(SCN_TCFG.OVR 2,
      0)])).time.tai ∨ i = Instr.triggerAngle 2 ∧ getF (atInstant 1 TaskState.running [(SCN_TCFG.OVR 2, 0)]) (SCN_TCFG.TRIG 2) = 1 ∧
      angleMark 2 ∉ (atInstant 1 TaskState.running [(SCN_TCFG.OVR 2, 0)]).core.firedNow ∧ reachedPosition (atInstant 1
      TaskState.running [(SCN_TCFG.OVR 2, 0)]) 2 = some k ∨ ∃ old, i = Instr.triggerEdge 2 old ∧ k = 0 ∧ getF (atInstant 1
      TaskState.running [(SCN_TCFG.OVR 2, 0)]) (SCN_TCFG.TRIG 2) = 2 ∧ (old = false ∧ rawBit (atInstant 1 TaskState.running
      [(SCN_TCFG.OVR 2, 0)]) (getF (atInstant 1 TaskState.running [(SCN_TCFG.OVR 2, 0)]) (SCN_EDGE.ADDR 2)) = true ∧ bitOf (getF
      (atInstant 1 TaskState.running [(SCN_TCFG.OVR 2, 0)]) (SCN_EDGE.POL 2)) 0 = true ∨ old = true ∧ rawBit (atInstant 1
      TaskState.running [(SCN_TCFG.OVR 2, 0)]) (getF (atInstant 1 TaskState.running [(SCN_TCFG.OVR 2, 0)]) (SCN_EDGE.ADDR 2)) =
      false ∧ bitOf (getF (atInstant 1 TaskState.running [(SCN_TCFG.OVR 2, 0)]) (SCN_EDGE.POL 2)) 1 = true)) (Instr.triggerAngle 2)
      0) ∧ (task (atInstant 1 TaskState.running [(SCN_TCFG.OVR 2, 0)]) 2).st ≠ TaskState.idle ∧
    (getF (atInstant 1 TaskState.running [(SCN_TCFG.OVR 2, 0)]) (SCN_TCFG.OVR 2) = 0 ∨ getF (atInstant 1 TaskState.running
      [(SCN_TCFG.OVR 2, 0)]) (SCN_TCFG.OVR 2) = 1 ∧ (task (atInstant 1 TaskState.running [(SCN_TCFG.OVR 2, 0)]) 2).held ≠ none) ∧
    ((atInstant 1 TaskState.running [(SCN_TCFG.OVR 2, 1)]).mode = Mode.run ∨ (atInstant 1 TaskState.running [(SCN_TCFG.OVR 2,
      1)]).mode = Mode.runEdit) ∧ (atInstant 1 TaskState.running [(SCN_TCFG.OVR 2, 1)]).scan.tasks.length = 8 ∧
    (atInstant 1 TaskState.running [(SCN_TCFG.OVR 2, 1)]).ms.stopPending = false ∧
    (atInstant 1 TaskState.running [(SCN_TCFG.OVR 2, 1)]).ms.haltPend = none ∧
    (atInstant 1 TaskState.running [(SCN_TCFG.OVR 2, 1)]).sby.streaming = false ∧
    isSet (atInstant 1 TaskState.running [(SCN_TCFG.OVR 2, 1)]) TRC_CTRL.EN = false ∧
    isSet (atInstant 1 TaskState.running [(SCN_TCFG.OVR 2, 1)]) (SCN_TCFG.EN 2) = true ∧
    (atInstant 1 TaskState.running [(SCN_TCFG.OVR 2, 1)]).sp.upsets = [] ∧
    ((fun i k => i = Instr.triggerPeriod 2 ∧ k = 0 ∧ getF (atInstant 1 TaskState.running [(SCN_TCFG.OVR 2, 1)]) (SCN_TCFG.TRIG 2) =
      0 ∧ justStepped (atInstant 1 TaskState.running [(SCN_TCFG.OVR 2, 1)]) = none ∧ 0 < instantsIn (atInstant 1 TaskState.running
      [(SCN_TCFG.OVR 2, 1)]) 2 ((fun a => max a ((task (atInstant 1 TaskState.running [(SCN_TCFG.OVR 2, 1)]) 2).lastInst.getD 0))
      (atInstant 1 TaskState.running [(SCN_TCFG.OVR 2, 1)]).time.tai) (clockAdvance (atInstant 1 TaskState.running [(SCN_TCFG.OVR 2,
      1)])).time.tai ∨ i = Instr.triggerAngle 2 ∧ getF (atInstant 1 TaskState.running [(SCN_TCFG.OVR 2, 1)]) (SCN_TCFG.TRIG 2) = 1 ∧
      angleMark 2 ∉ (atInstant 1 TaskState.running [(SCN_TCFG.OVR 2, 1)]).core.firedNow ∧ reachedPosition (atInstant 1
      TaskState.running [(SCN_TCFG.OVR 2, 1)]) 2 = some k ∨ ∃ old, i = Instr.triggerEdge 2 old ∧ k = 0 ∧ getF (atInstant 1
      TaskState.running [(SCN_TCFG.OVR 2, 1)]) (SCN_TCFG.TRIG 2) = 2 ∧ (old = false ∧ rawBit (atInstant 1 TaskState.running
      [(SCN_TCFG.OVR 2, 1)]) (getF (atInstant 1 TaskState.running [(SCN_TCFG.OVR 2, 1)]) (SCN_EDGE.ADDR 2)) = true ∧ bitOf (getF
      (atInstant 1 TaskState.running [(SCN_TCFG.OVR 2, 1)]) (SCN_EDGE.POL 2)) 0 = true ∨ old = true ∧ rawBit (atInstant 1
      TaskState.running [(SCN_TCFG.OVR 2, 1)]) (getF (atInstant 1 TaskState.running [(SCN_TCFG.OVR 2, 1)]) (SCN_EDGE.ADDR 2)) =
      false ∧ bitOf (getF (atInstant 1 TaskState.running [(SCN_TCFG.OVR 2, 1)]) (SCN_EDGE.POL 2)) 1 = true)) (Instr.triggerAngle 2)
      0) ∧ (task (atInstant 1 TaskState.running [(SCN_TCFG.OVR 2, 1)]) 2).st ≠ TaskState.idle ∧
    getF (atInstant 1 TaskState.running [(SCN_TCFG.OVR 2, 1)]) (SCN_TCFG.OVR 2) = 1 ∧
    (task (atInstant 1 TaskState.running [(SCN_TCFG.OVR 2, 1)]) 2).held = none ∧
    ((atInstant 1 TaskState.running [(SCN_TCFG.OVR 2, 2)]).mode = Mode.run ∨ (atInstant 1 TaskState.running [(SCN_TCFG.OVR 2,
      2)]).mode = Mode.runEdit) ∧ (atInstant 1 TaskState.running [(SCN_TCFG.OVR 2, 2)]).scan.tasks.length = 8 ∧
    (atInstant 1 TaskState.running [(SCN_TCFG.OVR 2, 2)]).ms.stopPending = false ∧
    (atInstant 1 TaskState.running [(SCN_TCFG.OVR 2, 2)]).ms.haltPend = none ∧
    (atInstant 1 TaskState.running [(SCN_TCFG.OVR 2, 2)]).sby.streaming = false ∧
    isSet (atInstant 1 TaskState.running [(SCN_TCFG.OVR 2, 2)]) TRC_CTRL.EN = false ∧
    isSet (atInstant 1 TaskState.running [(SCN_TCFG.OVR 2, 2)]) (SCN_TCFG.EN 2) = true ∧
    (atInstant 1 TaskState.running [(SCN_TCFG.OVR 2, 2)]).sp.upsets = [] ∧
    ((fun i k => i = Instr.triggerPeriod 2 ∧ k = 0 ∧ getF (atInstant 1 TaskState.running [(SCN_TCFG.OVR 2, 2)]) (SCN_TCFG.TRIG 2) =
      0 ∧ justStepped (atInstant 1 TaskState.running [(SCN_TCFG.OVR 2, 2)]) = none ∧ 0 < instantsIn (atInstant 1 TaskState.running
      [(SCN_TCFG.OVR 2, 2)]) 2 ((fun a => max a ((task (atInstant 1 TaskState.running [(SCN_TCFG.OVR 2, 2)]) 2).lastInst.getD 0))
      (atInstant 1 TaskState.running [(SCN_TCFG.OVR 2, 2)]).time.tai) (clockAdvance (atInstant 1 TaskState.running [(SCN_TCFG.OVR 2,
      2)])).time.tai ∨ i = Instr.triggerAngle 2 ∧ getF (atInstant 1 TaskState.running [(SCN_TCFG.OVR 2, 2)]) (SCN_TCFG.TRIG 2) = 1 ∧
      angleMark 2 ∉ (atInstant 1 TaskState.running [(SCN_TCFG.OVR 2, 2)]).core.firedNow ∧ reachedPosition (atInstant 1
      TaskState.running [(SCN_TCFG.OVR 2, 2)]) 2 = some k ∨ ∃ old, i = Instr.triggerEdge 2 old ∧ k = 0 ∧ getF (atInstant 1
      TaskState.running [(SCN_TCFG.OVR 2, 2)]) (SCN_TCFG.TRIG 2) = 2 ∧ (old = false ∧ rawBit (atInstant 1 TaskState.running
      [(SCN_TCFG.OVR 2, 2)]) (getF (atInstant 1 TaskState.running [(SCN_TCFG.OVR 2, 2)]) (SCN_EDGE.ADDR 2)) = true ∧ bitOf (getF
      (atInstant 1 TaskState.running [(SCN_TCFG.OVR 2, 2)]) (SCN_EDGE.POL 2)) 0 = true ∨ old = true ∧ rawBit (atInstant 1
      TaskState.running [(SCN_TCFG.OVR 2, 2)]) (getF (atInstant 1 TaskState.running [(SCN_TCFG.OVR 2, 2)]) (SCN_EDGE.ADDR 2)) =
      false ∧ bitOf (getF (atInstant 1 TaskState.running [(SCN_TCFG.OVR 2, 2)]) (SCN_EDGE.POL 2)) 1 = true)) (Instr.triggerAngle 2)
      0) ∧ (task (atInstant 1 TaskState.running [(SCN_TCFG.OVR 2, 2)]) 2).st ≠ TaskState.idle ∧
    getF (atInstant 1 TaskState.running [(SCN_TCFG.OVR 2, 2)]) (SCN_TCFG.OVR 2) = 2 ∧
    ((stepped (atInstant 0 TaskState.idle [])).mode = Mode.run ∨ (stepped (atInstant 0 TaskState.idle [])).mode = Mode.runEdit) ∧
    (stepped (atInstant 0 TaskState.idle [])).scan.tasks.length = 8 ∧
    (stepped (atInstant 0 TaskState.idle [])).ms.stopPending = false ∧
    (stepped (atInstant 0 TaskState.idle [])).ms.haltPend = none ∧ (stepped (atInstant 0 TaskState.idle [])).sby.streaming = false ∧
    isSet (stepped (atInstant 0 TaskState.idle [])) TRC_CTRL.EN = false ∧
    isSet (stepped (atInstant 0 TaskState.idle [])) (SCN_TCFG.EN 2) = true ∧
    (stepped (atInstant 0 TaskState.idle [])).sp.upsets = [] ∧
    getF (stepped (atInstant 0 TaskState.idle [])) (SCN_TCFG.TRIG 2) = 0 ∧
    justStepped (stepped (atInstant 0 TaskState.idle [])) = some ((atInstant 0 TaskState.running []).time.tai - 1000 * nsUnit,
      (atInstant 0 TaskState.running []).time.tai) ∧
    0 < instantsIn (stepped (atInstant 0 TaskState.idle [])) 2 ((fun a => max a ((task (stepped (atInstant 0 TaskState.idle []))
      2).lastInst.getD 0)) ((atInstant 0 TaskState.running []).time.tai - 1000 * nsUnit)) (atInstant 0 TaskState.running
      []).time.tai ∧ (task (stepped (atInstant 0 TaskState.idle [])) 2).st = TaskState.idle ∧
    ((holds (atInstant 1 TaskState.idle [])).mode = Mode.run ∨ (holds (atInstant 1 TaskState.idle [])).mode = Mode.runEdit) ∧
    (holds (atInstant 1 TaskState.idle [])).scan.tasks.length = 8 ∧ (holds (atInstant 1 TaskState.idle [])).ms.stopPending = false ∧
    (holds (atInstant 1 TaskState.idle [])).ms.haltPend = none ∧ (holds (atInstant 1 TaskState.idle [])).sby.streaming = false ∧
    isSet (holds (atInstant 1 TaskState.idle [])) TRC_CTRL.EN = false ∧
    isSet (holds (atInstant 1 TaskState.idle [])) (SCN_TCFG.EN 2) = true ∧ (holds (atInstant 1 TaskState.idle [])).sp.upsets = [] ∧
    (task (holds (atInstant 1 TaskState.idle [])) 2).st = TaskState.idle ∧
    (task (holds (atInstant 1 TaskState.idle [])) 2).held = some (trigNow w 0 true) := by
  refine ⟨?_, ?_, ?_, ?_, ?_, ?_, ?_, ?_, ?_, ?_, ?_, ?_, ?_, ?_, ?_, ?_, ?_, ?_, ?_, ?_, ?_, ?_, ?_, ?_, ?_, ?_, ?_, ?_, ?_, ?_, ?_, ?_, ?_, ?_, ?_, ?_, ?_, ?_, ?_, ?_, ?_, ?_, ?_, ?_, ?_, ?_, ?_, ?_, ?_, ?_, ?_, ?_, ?_, ?_, ?_, ?_, ?_, ?_, ?_, ?_, ?_, ?_, ?_, ?_, ?_, ?_, ?_⟩ <;> decide +kernel

theorem test_hyps_freeze_and_commit :
    2 < 8 ∧ (selects.mode = Mode.run ∨ selects.mode = Mode.runEdit) ∧ selects.scan.tasks.length = 8 ∧ selects.core.pcs.length = 8 ∧
    selects.sp.upsets = [] ∧ Memory.wf selects.sp = true ∧ waits selects 2 = true ∧
    (∀ w ∈ winEntries selects 2 false, w.addr + w.len ≤ if w.word = true then 16384 else 65536) ∧ selects.scan.sel = some 2 ∧
    (freezing.mode = Mode.run ∨ freezing.mode = Mode.runEdit) ∧ freezing.scan.tasks.length = 8 ∧ freezing.core.pcs.length = 8 ∧
    freezing.sp.upsets = [] ∧ Memory.wf freezing.sp = true ∧ waits freezing 2 = true ∧
    (∀ w ∈ winEntries freezing 2 false, w.addr + w.len ≤ if w.word = true then 16384 else 65536) ∧ freezing.scan.sel ≠ some 2 ∧
    selected freezing = some 2 ∧ IdleCycle freezing ∧ launchDue launchNow 2 = true ∧ (launched true).scan.tasks.length = 8 ∧
    (launched true).pending = [] ∧ (launched true).sby.streaming = false ∧ (task (launched true) 2).st = TaskState.launchWait ∧
    (task (launched true) 2).fin = RunEnd.fromLaunch true ∧
    IdleCycle (updTask (launched true) 2 fun k => { k with st := TaskState.idle, fin := RunEnd.no }) ∧
    swf false (task (launched true) 2).capB = true ∧ swf TWord.empty (task (launched true) 2).capW = true ∧
    omapEntries (launched true) = [] ∧ getF (launched true) PHM_CTRL.EN = 0 := by
  refine ⟨?_, ?_, ?_, ?_, ?_, ?_, ?_, ?_, ?_, ?_, ?_, ?_, ?_, ?_, ?_, ?_, ?_, ?_, ?_, ?_, ?_, ?_, ?_, ?_, ?_, ?_, ?_, ?_, ?_, ?_⟩ <;> first | decide +kernel | (unfold IdleCycle; decide +kernel)

theorem test_hyps_posted_writes_and_stations :
    posting.zcp.outstanding = [owed 255 259] ∧ (owed 255 259).opcode = 259 ∧ posting.scan.posted = [posted9] ∧ posted9.kind = 2 ∧
    posted9.ref = (owed 255 259).seq ∧ posted9.target < 256 ∧ posting.sp.upsets = [] ∧ absent posting = false ∧
    peerIs posting peerEth (owed 255 259).station = true ∧ 0 < 1 ∧ absent reporting = false ∧
    reporting.zcp.outstanding = [owed 255 522] ∧ (owed 255 522).opcode = 522 ∧
    peerIs reporting peerEth (owed 255 522).station = true ∧
    (∀ r ∈ reporting.zcp.outstanding, r.seq ≠ 3 ∨ r.opcode ≠ 522 ∨ peerIs reporting peerEth r.station = false) ∧
    domOn reporting 2 = true ∧ absent stationDir = false ∧ 255 < 256 ∧ 255 ≠ ownStn stationDir ∧
    isSet stationDir (SYS_DIR_CTRL.VALID 255) = true ∧ isSet stationDir (SYS_DIR_CTRL.SUPV 255) = true ∧ stationDir.sp.upsets = [] := by
  refine ⟨?_, ?_, ?_, ?_, ?_, ?_, ?_, ?_, ?_, ?_, ?_, ?_, ?_, ?_, ?_, ?_, ?_, ?_, ?_, ?_, ?_, ?_⟩ <;> decide +kernel

theorem test_hyps_transaction_states :
    getF (txn [(TXN_STAT.STATE, 2)]) TXN_STAT.STATE = 2 ∧ nvHas (txn [(TXN_STAT.STATE, 2)]) 2 = false ∧
    (∀ k < 8, (hubPort (txn [(TXN_STAT.STATE, 2)]) k).shadowLeft = 0) ∧ isSet (txn [(TXN_STAT.STATE, 2)]) TXN_STAT.SYSTEM = false ∧
    (txn [(TXN_STAT.STATE, 2)]).txn.prepOp = none ∧ (txn [(TXN_STAT.STATE, 2)]).txn.prepReply = none ∧
    (txn [(TXN_STAT.STATE, 2)]).txn.commitAfter = none ∧ getF (setF txnBusy TXN_STAT.STATE 4) TXN_STAT.STATE = 4 ∧
    effectWaits (setF txnBusy TXN_STAT.STATE 4) = true ∧ effectReady (setF txnBusy TXN_STAT.STATE 4) = false ∧
    (txn [(TXN_STAT.STATE, 4)]).txn.staged = [(TIM_HOLD_RATE.RATE, 7)] ∧ (txn [(TXN_STAT.STATE, 4)]).txn.bank = false ∧
    (txn [(TXN_STAT.STATE, 4)]).txn.newVars = [] ∧ isSet (txn [(TXN_STAT.STATE, 4)]) TXN_STAT.SYSTEM = false ∧
    isSet (txn [(TXN_STAT.STATE, 4)]) TXN_STAT.EDIT = false ∧ isSet (txn [(TXN_STAT.STATE, 4)]) TXN_STAT.PERSIST = false ∧
    (txn [(TXN_STAT.STATE, 4)]).sby.xferOpen = false ∧ (txn [(TXN_STAT.STATE, 4)]).phm.switching = none ∧
    (txn [(TXN_STAT.STATE, 4)]).txn.commitOp = none ∧ getF (txn [(TXN_STAT.STATE, 4)]) TXN_STAT.STATE = 4 ∧
    getF (txn [(TXN_STAT.STATE, 4)]) TXN_WHEN.KIND ≠ 1 ∧ (txn [(TXN_STAT.STATE, 5)]).txn.staged = [(TIM_HOLD_RATE.RATE, 7)] ∧
    (txn [(TXN_STAT.STATE, 5)]).txn.bank = false ∧ (txn [(TXN_STAT.STATE, 5)]).txn.newVars = [] ∧
    isSet (txn [(TXN_STAT.STATE, 5)]) TXN_STAT.SYSTEM = false ∧ isSet (txn [(TXN_STAT.STATE, 5)]) TXN_STAT.EDIT = false ∧
    isSet (txn [(TXN_STAT.STATE, 5)]) TXN_STAT.PERSIST = false ∧ (txn [(TXN_STAT.STATE, 5)]).sby.xferOpen = false ∧
    (txn [(TXN_STAT.STATE, 5)]).phm.switching = none ∧ (txn [(TXN_STAT.STATE, 5)]).txn.commitOp = none ∧
    getF (txn [(TXN_STAT.STATE, 5)]) TXN_STAT.STATE = 5 ∧ quiet (txn [(TXN_STAT.STATE, 5)]) = true ∧
    (txn [(TXN_STAT.STATE, 5)]).ms.haltPend = none ∧ txnBusy.txn.staged = [(TIM_HOLD_RATE.RATE, 7)] ∧ txnBusy.txn.bank = false ∧
    txnBusy.txn.newVars = [] ∧ isSet txnBusy TXN_STAT.SYSTEM = false ∧ isSet txnBusy TXN_STAT.EDIT = false ∧
    isSet txnBusy TXN_STAT.PERSIST = false ∧ txnBusy.sby.xferOpen = false ∧ txnBusy.phm.switching = none ∧
    txnBusy.txn.commitOp = none ∧ getF txnBusy TXN_STAT.STATE = 5 ∧ quiet txnBusy = false ∧ txnBusy.txn.prepOp = none ∧
    txnBusy.txn.setSeq = none ∧ txnBusy.txn.isUndo = false ∧ recordingSeq.nv.recording = some 9 ∧
    getF shadowing TXN_STAT.STATE = 2 ∧ (hubPort shadowing 3).shadowLeft ≠ 0 ∧ shadowing.txn.coord = none ∧
    shadowing.txn.prepReply = none ∧ shadowing.txn.setSeq = none ∧ shadowing.txn.prepOp = none ∧ shadowing.txn.commitOp = none ∧
    getF (Tests.copying 65535 0) EDT_STAT.COPY = 1 ∧ getF (Tests.copying 65535 0) EDT_STAT.COPIED < 65536 ∧
    (Tests.copying 65535 0).sp.upsets = [] ∧
    (getF (Tests.copying 65535 0) EDT_STAT.COPIED ∉ if getF (Tests.copying 65535 0) CORE_BANK.ACTIVE = 0 then (Tests.copying 65535
      0).core.badA else (Tests.copying 65535 0).core.badB) ∧ absent (coordinating 3 [7] []) = false ∧
    isSet (coordinating 3 [7] []) SYS_FLAGS.STN_CONFLICT = false ∧ (coordinating 3 [7] []).txn.coord = some coord5 ∧
    (coordinating 3 [7] []).txn.coordStep = 3 ∧ (coordinating 3 [7] []).txn.coordWait = [7] ∧
    (coordinating 1 [] [(TXN_STAT.STATE, 3), (TXN_ID.ID, 5), (TXN_STAT.SYSTEM, 1)]).txn.coord = some coord5 ∧
    (coordinating 1 [] [(TXN_STAT.STATE, 3), (TXN_ID.ID, 5), (TXN_STAT.SYSTEM, 1)]).txn.coordStep = 1 ∧
    others (coordinating 1 [] [(TXN_STAT.STATE, 3), (TXN_ID.ID, 5), (TXN_STAT.SYSTEM, 1)]) = [] ∧
    getF (coordinating 1 [] [(TXN_STAT.STATE, 3), (TXN_ID.ID, 5), (TXN_STAT.SYSTEM, 1)]) TXN_STAT.STATE = 3 ∧
    getF (coordinating 1 [] [(TXN_STAT.STATE, 3), (TXN_ID.ID, 5), (TXN_STAT.SYSTEM, 1)]) TXN_ID.ID = coord5.1 ∧
    isSet (coordinating 1 [] [(TXN_STAT.STATE, 3), (TXN_ID.ID, 5), (TXN_STAT.SYSTEM, 1)]) TXN_STAT.EDIT = false ∧
    (coordinating 1 [] [(TXN_STAT.STATE, 3), (TXN_ID.ID, 5), (TXN_STAT.SYSTEM, 1)]).txn.isUndo = false ∧
    (coordinating 1 [] [(TXN_STAT.STATE, 3), (TXN_ID.ID, 5), (TXN_STAT.SYSTEM, 1)]).txn.prepOp = none ∧
    (coordinating 1 [] [(TXN_STAT.STATE, 3), (TXN_ID.ID, 5), (TXN_STAT.SYSTEM, 1)]).txn.commitOp = none ∧
    (coordinating 1 [] [(TXN_STAT.STATE, 3), (TXN_ID.ID, 5), (TXN_STAT.SYSTEM, 1)]).txn.coordOp = none ∧
    (coordinating 1 [] [(TXN_STAT.STATE, 3), (TXN_ID.ID, 5), (TXN_STAT.SYSTEM, 1)]).txn.setSeq = none ∧
    isSet (coordinating 1 [] [(TXN_STAT.STATE, 3), (TXN_ID.ID, 5), (TXN_STAT.SYSTEM, 1)]) TXN_STAT.SYSTEM = true ∧
    coord5.1 / 2 ^ 24 = ownStn (coordinating 1 [] [(TXN_STAT.STATE, 3), (TXN_ID.ID, 5), (TXN_STAT.SYSTEM, 1)]) ∧
    absent reporting = false ∧ reporting.txn.report = some (5, 1, 0 + 1) := by
  refine ⟨?_, ?_, ?_, ?_, ?_, ?_, ?_, ?_, ?_, ?_, ?_, ?_, ?_, ?_, ?_, ?_, ?_, ?_, ?_, ?_, ?_, ?_, ?_, ?_, ?_, ?_, ?_, ?_, ?_, ?_, ?_, ?_, ?_, ?_, ?_, ?_, ?_, ?_, ?_, ?_, ?_, ?_, ?_, ?_, ?_, ?_, ?_, ?_, ?_, ?_, ?_, ?_, ?_, ?_, ?_, ?_, ?_, ?_, ?_, ?_, ?_, ?_, ?_, ?_, ?_, ?_, ?_, ?_, ?_, ?_, ?_, ?_, ?_, ?_, ?_, ?_, ?_, ?_, ?_⟩ <;> decide +kernel

theorem test_hyps_standby_link :
    (∀ (k x : Nat), evExt ≠ StreamEv.mark k x) ∧ sblOn (linked Mode.run []) = true ∧ (linked Mode.run []).mode ≠ Mode.track ∧
    (linked Mode.run []).mode ≠ Mode.hold ∧ (linked Mode.run []).ms.holdEntry = none ∧ (linked Mode.run []).ms.waking = none ∧
    2 ≤ getF (linked Mode.run []) SBY_STAT.LINK ∧ isSet (linked Mode.run []) (TIM_SRC_STAT.VALID 6) = false ∧
    (linked Mode.run []).sby.xferOpen = false ∧ 2 ≤ getF (sourced Mode.run) SBY_STAT.LINK ∧
    isSet (sourced Mode.run) (TIM_SRC_STAT.VALID 6) = true ∧
    (Instr.sblNegRx false 255 3 4 ∈ [Instr.sblNegRx false 255 3 4, Instr.sblAckRx false 65535, Instr.sblNakRx false 65535,
      Instr.sblEvtRx false 65535 [], Instr.sblXferRx false 65535 (XferPart.cells []) true, Instr.sblXctlRx false 65535,
      Instr.sblHandoverRx false 65535, Instr.sblRstreqRx false 65535] ∨ Instr.sblNegRx false 255 3 4 = Instr.sblHbRx false (hb9 5) ∧
      sblOn (linked Mode.run []) = true ∧ getF (linked Mode.run []) SBY_STAT.LINK = 2) ∧
    getF (linked Mode.run []) SBY_STAT.LINK = 2 ∧ sblOn (linked Mode.stop []) = true ∧
    getF (linked Mode.stop []) SBY_STAT.LINK = 2 ∧ (linked Mode.stop []).mode = Mode.stop ∧
    (linked Mode.stop []).ms.negotiating = false ∧ (hb9 5).mode < 10 ∧
    ((hb9 5).src ≠ 6 ∨ isSet (linked Mode.stop []) (TIM_SRC_STAT.VALID 6) = false) ∧ 2 ≤ getF replaying SBY_STAT.LINK ∧
    replaying.sby.fresh = false ∧ 65535 < 65536 ∧ 65535 = replaying.sby.rxSeq ∧ getF replaying SBY_STAT.LINK = 2 ∧
    replaying.mode = Mode.track ∧ replaying.sby.xferRx = false ∧ replaying.sby.replaying = true ∧ 2 ≤ getF receiving SBY_STAT.LINK ∧
    receiving.sby.fresh = false ∧ 65535 = receiving.sby.rxSeq ∧ getF receiving SBY_STAT.LINK = 2 ∧ receiving.mode = Mode.track ∧
    receiving.sby.xferRx = true ∧ (linked Mode.run []).sby.fresh = false ∧ 65535 = (linked Mode.run []).sby.rxSeq ∧
    ((linked Mode.run []).mode = Mode.run ∨ (linked Mode.run []).mode = Mode.runEdit) ∧ (linked Mode.run []).sby.cutWait = false ∧
    (linked Mode.run []).sby.parts = none ∧ 2 ≤ getF (linked Mode.track [(SBY_STAT.SYNC, 1)]) SBY_STAT.LINK ∧
    (linked Mode.track [(SBY_STAT.SYNC, 1)]).sby.fresh = false ∧ 65535 = (linked Mode.track [(SBY_STAT.SYNC, 1)]).sby.rxSeq ∧
    getF (linked Mode.track [(SBY_STAT.SYNC, 1)]) SBY_STAT.LINK = 2 ∧ (linked Mode.track [(SBY_STAT.SYNC, 1)]).mode = Mode.track ∧
    isSet (linked Mode.track [(SBY_STAT.SYNC, 1)]) SBY_STAT.SYNC = true ∧ isSet (linked Mode.run []) SBY_CFG.RST_ACCEPT = false ∧
    2 ≤ getF (linked Mode.run [(SBY_CFG.RST_ACCEPT, 1)]) SBY_STAT.LINK ∧
    (linked Mode.run [(SBY_CFG.RST_ACCEPT, 1)]).sby.fresh = false ∧ 65535 = (linked Mode.run [(SBY_CFG.RST_ACCEPT, 1)]).sby.rxSeq ∧
    getF (linked Mode.run [(SBY_CFG.RST_ACCEPT, 1)]) SBY_STAT.LINK = 2 ∧
    isSet (linked Mode.run [(SBY_CFG.RST_ACCEPT, 1)]) SBY_CFG.RST_ACCEPT = true ∧
    absent (linked Mode.run [(SBY_CFG.RST_ACCEPT, 1)]) = false ∧ (linked Mode.run [(SBY_CFG.RST_ACCEPT, 1)]).ms.resetSrc = [] ∧
    2 ≤ getF (linked Mode.track []) SBY_STAT.LINK ∧ (linked Mode.track []).sby.fresh = false ∧ 0 < 65536 ∧
    Instr.sblHandoverRx true 0 ∈ (fun evs part last => [Instr.sblEvtRx true 0 evs, Instr.sblXferRx true 0 part last, Instr.sblXctlRx
      true 0, Instr.sblHandoverRx true 0, Instr.sblRstreqRx true 0]) [(3, evExt)] (XferPart.cells []) true ∧
    lseqAfter 0 (linked Mode.track []).sby.rxSeq = true ∧ 65534 < 65536 ∧
    Instr.sblHandoverRx true 65534 ∈ (fun evs part last => [Instr.sblEvtRx true 65534 evs, Instr.sblXferRx true 65534 part last,
      Instr.sblXctlRx true 65534, Instr.sblHandoverRx true 65534, Instr.sblRstreqRx true 65534]) [(3, evExt)] (XferPart.cells [])
      true ∧ lseqAfter 65534 (linked Mode.track []).sby.rxSeq = false ∧ 65534 ≠ (linked Mode.track []).sby.rxSeq ∧
    2 ≤ getF (linked Mode.run [(SBY_STAT.LINK, 3)]) SBY_STAT.LINK ∧ (linked Mode.run [(SBY_STAT.LINK, 3)]).sby.fresh = false ∧
    Instr.sblEvtRx true 65535 [(3, evExt)] ∈ (fun evs part last => [Instr.sblEvtRx true 65535 evs, Instr.sblXferRx true 65535 part
      last, Instr.sblXctlRx true 65535, Instr.sblHandoverRx true 65535, Instr.sblRstreqRx true 65535]) [(3, evExt)] (XferPart.cells
      []) true ∧ 65535 = (linked Mode.run [(SBY_STAT.LINK, 3)]).sby.rxSeq ∧
    getF (linked Mode.run [(SBY_STAT.LINK, 3)]) SBY_STAT.LINK = 3 :=
  ⟨fun _ _ => by simp [evExt], by refine ⟨?_, ?_, ?_, ?_, ?_, ?_, ?_, ?_, ?_, ?_, ?_, ?_, ?_, ?_, ?_, ?_, ?_, ?_, ?_, ?_, ?_, ?_, ?_, ?_, ?_, ?_, ?_, ?_, ?_, ?_, ?_, ?_, ?_, ?_, ?_, ?_, ?_, ?_, ?_, ?_, ?_, ?_, ?_, ?_, ?_, ?_, ?_, ?_, ?_, ?_, ?_, ?_, ?_, ?_, ?_, ?_, ?_, ?_, ?_, ?_, ?_, ?_, ?_, ?_, ?_⟩ <;> decide +kernel⟩

theorem test_hyps_transfer_and_roles :
    (cutting.mode = Mode.run ∨ cutting.mode = Mode.runEdit) ∧ cutting.sby.cutWait = true ∧ quiet cutting = true ∧
    linkUp cutting = true ∧ (sending [XferPart.cells []]).sby.parts = some [XferPart.cells []] ∧
    linkUp (sending [XferPart.cells []]) = true ∧ preUsed (sending [XferPart.cells []]) [XferPart.cells []] ≤ 262144 ∧
    txRoom (sending [XferPart.cells []]) (SblPay.xfer (XferPart.cells []) true) = true ∧ lossy.sby.lossMark = true ∧
    txRoom lossy (SblPay.evt lossy.core.cyc (StreamEv.mark 4 0) 0) = true ∧ absent (linked Mode.track []) = false ∧
    (linked Mode.track []).mode = Mode.track ∧ isSet (linked Mode.track []) SBY_STAT.SYNC = false ∧
    (linked Mode.track []).sby.xferRx = false ∧ linkUp (linked Mode.track []) = true ∧
    txRoom (linked Mode.track []) SblPay.xctl = true ∧ absent lossy = false ∧
    (lossy.mode ≠ Mode.track ∨ isSet lossy SBY_STAT.SYNC = true) ∧ absent mayHand = false ∧
    mayHand.mode = Mode.run ∧ mayHand.sby.present = true ∧ getF mayHand SBY_STAT.PMODE = 8 ∧ isSet mayHand SBY_STAT.SYNC = true ∧
      mayHand.sby.handover = none ∧
    ¬(lossy.mode = Mode.run ∧ lossy.sby.present = true ∧ getF lossy SBY_STAT.PMODE = 8 ∧ isSet lossy SBY_STAT.SYNC = true ∧
      lossy.sby.handover = none) ∧ linkUp lossy = true ∧ txRoom lossy SblPay.rstreq = true ∧
    (stale (linked Mode.track [(SBY_STAT.SYNC, 1)])).sby.present = true ∧
    (stale (linked Mode.track [(SBY_STAT.SYNC, 1)])).sby.hbCyc ≠ (stale (linked Mode.track [(SBY_STAT.SYNC, 1)])).core.cyc ∧
    (stale (linked Mode.track [(SBY_STAT.SYNC, 1)])).mode = Mode.track ∧
    isSet (stale (linked Mode.track [(SBY_STAT.SYNC, 1)])) SBY_STAT.SYNC = true ∧
    (stale (linked Mode.track [(SBY_STAT.SYNC, 1)])).sby.tko = none ∧ (stale (linked Mode.run [])).sby.present = true ∧
    (stale (linked Mode.run [])).sby.hbCyc ≠ (stale (linked Mode.run [])).core.cyc ∧
    ((stale (linked Mode.run [])).mode = Mode.run ∨ (stale (linked Mode.run [])).mode = Mode.runEdit) ∧ tkoWaits.pending = [] ∧
    tkoWaits.mode = Mode.track ∧ tkoWaits.sby.tko ≠ none ∧ tkoWaits.sby.events = [] ∧ quiet tkoWaits = true ∧
    IdleCycle { tkoWaits with sby := { tkoWaits.sby with replaying := false, tko := none } } ∧ tkoEnds.mode = Mode.takeover ∧
    quiet tkoEnds = true ∧ tkoEnds.sby.events = [] ∧ tkoEnds.sby.tko = some (2, 5) ∧
    (handing [(SBY_STAT.PMODE, 8), (SBY_STAT.SYNC, 1)] true).mode = Mode.run ∧
    quiet (handing [(SBY_STAT.PMODE, 8), (SBY_STAT.SYNC, 1)] true) = true ∧
    (handing [(SBY_STAT.PMODE, 8), (SBY_STAT.SYNC, 1)] true).sby.handover = some none ∧
    txRoom (handing [(SBY_STAT.PMODE, 8), (SBY_STAT.SYNC, 1)] true) SblPay.handover = true ∧
    (handing [(SBY_STAT.PMODE, 8), (SBY_STAT.SYNC, 1)] true).sby.present = true ∧
    getF (handing [(SBY_STAT.PMODE, 8), (SBY_STAT.SYNC, 1)] true) SBY_STAT.PMODE = 8 ∧
    isSet (handing [(SBY_STAT.PMODE, 8), (SBY_STAT.SYNC, 1)] true) SBY_STAT.SYNC = true ∧ (handing [] false).mode = Mode.run ∧
    quiet (handing [] false) = true ∧ (handing [] false).sby.handover = some none ∧
    txRoom (handing [] false) SblPay.handover = true ∧
    ((handing [] false).sby.present = false ∨ getF (handing [] false) SBY_STAT.PMODE ≠ 8 ∨ isSet (handing [] false) SBY_STAT.SYNC =
      false) ∧ (demoting.mode = Mode.run ∨ demoting.mode = Mode.runEdit) ∧ quiet demoting = true ∧ demoting.sby.demote = true ∧
    (dirRole demoting = 1 ∨ dirRole demoting = 2) ∧ replica (replaying1 6) = true ∧
    (replaying1 6).sby.events = [(6, StreamEv.writeWord 524287 (mkT 3 8))] ∧ (replaying1 6).sby.rcyc < 6 ∧
    replica (replaying1 5) = true ∧ (replaying1 5).sby.events = [(5, StreamEv.writeWord 524287 (mkT 3 8))] ∧
    StreamEv.writeWord 524287 (mkT 3 8) = StreamEv.writeWord 524287 (mkT 3 8) ∧ 5 ≤ (replaying1 5).sby.rcyc ∧ 524287 < 524288 ∧
    (replaying1 5).sp.written = [] := by
  refine ⟨?_, ?_, ?_, ?_, ?_, ?_, ?_, ?_, ?_, ?_, ?_, ?_, ?_, ?_, ?_, ?_, ?_, ?_, ?_, ?_, ?_, ?_, ?_, ?_, ?_, ?_, ?_, ?_, ?_, ?_, ?_, ?_, ?_, ?_, ?_, ?_, ?_, ?_, ?_, ?_, ?_, ?_, ?_, ?_, ?_, ?_, ?_, ?_, ?_, ?_, ?_, ?_, ?_, ?_, ?_, ?_, ?_, ?_, ?_, ?_, ?_, ?_, ?_, ?_, ?_, ?_⟩ <;> first | decide +kernel | (unfold IdleCycle; decide +kernel)

theorem test_hyps_frame_reception :
    1 < 4 ∧ rxOn booting 1 = true ∧ booting.cls.flight.length = 4 ∧ redMode booting (1 / 2) = 0 ∧ testing booting 7 = false ∧
    booting.sp.upsets = [] ∧ nth none booting.cls.flight 1 = none ∧ isPause bytes60 = false ∧ bootRule booting = true ∧
    rxOn (rxs []) 1 = true ∧ (rxs []).cls.flight.length = 4 ∧ redMode (rxs []) (1 / 2) = 0 ∧ testing (rxs []) 7 = false ∧
    (rxs []).sp.upsets = [] ∧ nth none (rxs []).cls.flight 1 = none ∧ bootRule (rxs []) = false ∧ pausedPort (rxs []) 1 = false ∧
    payPort (rxs []) 1 = false ∧ (parse (rxs []) bytes60).frag = none ∧ (parse (rxs []) bytes60).cls ≠ 14 ∧
    ruleCands (rxs [])
      { port := 1, bytes := bytes60, stamp := rawStamp (rxs []) w.time.tai - getF (rxs []) (TIM_PORTLAT.ING_LAT 1) * nsUnit, bank := clsBank (rxs []), dec := none, fcs := none, dup := false, cls := classNow (rxs []), cuts := [] }
      (parse (rxs []) bytes60) false = [] ∧ rxOn (ruled (rxs [])) 1 = true ∧ (ruled (rxs [])).cls.flight.length = 4 ∧
    redMode (ruled (rxs [])) (1 / 2) = 0 ∧ testing (ruled (rxs [])) 7 = false ∧ (ruled (rxs [])).sp.upsets = [] ∧
    nth none (ruled (rxs [])).cls.flight 1 = none ∧ bootRule (ruled (rxs [])) = false ∧ pausedPort (ruled (rxs [])) 1 = false ∧
    payPort (ruled (rxs [])) 1 = false ∧ (parse (ruled (rxs [])) bytes60).frag = none ∧ (parse (ruled (rxs [])) bytes60).cls ≠ 14 ∧
    ruleCands (ruled (rxs []))
      { port := 1, bytes := bytes60, stamp := rawStamp (ruled (rxs [])) w.time.tai - getF (ruled (rxs [])) (TIM_PORTLAT.ING_LAT 1) * nsUnit, bank := clsBank (ruled (rxs [])), dec := none, fcs := none, dup := false, cls := classNow (ruled (rxs [])), cuts := [] }
      (parse (ruled (rxs [])) bytes60) false = [(5, ruleW)] ∧ rPay ruleW = false ∧ rTrip ruleW = false ∧
    (rAction ruleW ≠ 1 ∨ bitOf (rArg ruleW) 8 = false) ∧ rxOn (arrived Verdict.default bytes60) 1 = true ∧
    (arrived Verdict.default bytes60).cls.flight.length = 4 ∧ redMode (arrived Verdict.default bytes60) (1 / 2) = 0 ∧
    testing (arrived Verdict.default bytes60) 7 = false ∧ (arrived Verdict.default bytes60).sp.upsets = [] ∧
    nth none (arrived Verdict.default bytes60).cls.flight 1 = some (inFlightOf Verdict.default bytes60) ∧
    (inFlightOf Verdict.default bytes60).port = 1 ∧ (inFlightOf Verdict.default bytes60).dup = false ∧
    (inFlightOf Verdict.default bytes60).cuts = [] ∧
    (parse (arrived Verdict.default bytes60) (inFlightOf Verdict.default bytes60).bytes).frag = none ∧
    (parse (arrived Verdict.default bytes60) (inFlightOf Verdict.default bytes60).bytes).cls ∉ [2, 4, 13] ∧
    frameSysId (arrived Verdict.default bytes60) (inFlightOf Verdict.default bytes60).bytes = none ∧
    60 ≤ (inFlightOf Verdict.default bytes60).bytes.length ∧ (inFlightOf Verdict.default bytes60).bytes.length ≤ 1522 ∧ isPause
      (inFlightOf Verdict.default bytes60).bytes = false ∧ (inFlightOf Verdict.default bytes60).dec = some Verdict.default ∧
    isSet (arrived Verdict.default bytes60) CLS_CTRL.DEFACT = true ∧
    (fun n => n < 16 ∧ (arrived Verdict.default bytes60).core.mbx.length = 16 ∧ (nth [] (arrived Verdict.default bytes60).core.mbx
      n).length < 16 ∧ (List.map (fun l => (List.map (fun g => g.bytes.length) l).sum) (arrived Verdict.default
      bytes60).core.mbx).sum + (inFlightOf Verdict.default bytes60).bytes.length ≤ 65536) (getF (arrived Verdict.default bytes60)
      CLS_CTRL.DEFMBX) ∧ rxOn (arrived (Verdict.rule 0 5 ruleW) bytes60) 1 = true ∧
    (arrived (Verdict.rule 0 5 ruleW) bytes60).cls.flight.length = 4 ∧
    redMode (arrived (Verdict.rule 0 5 ruleW) bytes60) (1 / 2) = 0 ∧ testing (arrived (Verdict.rule 0 5 ruleW) bytes60) 7 = false ∧
    (arrived (Verdict.rule 0 5 ruleW) bytes60).sp.upsets = [] ∧
    nth none (arrived (Verdict.rule 0 5 ruleW) bytes60).cls.flight 1 = some (inFlightOf (Verdict.rule 0 5 ruleW) bytes60) ∧
    (inFlightOf (Verdict.rule 0 5 ruleW) bytes60).port = 1 ∧ (inFlightOf (Verdict.rule 0 5 ruleW) bytes60).dup = false ∧
    (inFlightOf (Verdict.rule 0 5 ruleW) bytes60).cuts = [] ∧
    (parse (arrived (Verdict.rule 0 5 ruleW) bytes60) (inFlightOf (Verdict.rule 0 5 ruleW) bytes60).bytes).frag = none ∧
    (parse (arrived (Verdict.rule 0 5 ruleW) bytes60) (inFlightOf (Verdict.rule 0 5 ruleW) bytes60).bytes).cls ∉ [2, 4, 13] ∧
    frameSysId (arrived (Verdict.rule 0 5 ruleW) bytes60) (inFlightOf (Verdict.rule 0 5 ruleW) bytes60).bytes = none ∧
    60 ≤ (inFlightOf (Verdict.rule 0 5 ruleW) bytes60).bytes.length ∧ (inFlightOf (Verdict.rule 0 5 ruleW) bytes60).bytes.length ≤
      1522 ∧ isPause (inFlightOf (Verdict.rule 0 5 ruleW) bytes60).bytes = false ∧
    (inFlightOf (Verdict.rule 0 5 ruleW) bytes60).dec = some (Verdict.rule 0 5 ruleW) ∧ rAction ruleW = 2 ∧ rMirror ruleW = false ∧
    rStamp ruleW = false ∧
    (fun n => n < 16 ∧ (arrived (Verdict.rule 0 5 ruleW) bytes60).core.mbx.length = 16 ∧ (nth [] (arrived (Verdict.rule 0 5 ruleW)
      bytes60).core.mbx n).length < 16 ∧ (List.map (fun l => (List.map (fun g => g.bytes.length) l).sum) (arrived (Verdict.rule 0 5
      ruleW) bytes60).core.mbx).sum + (inFlightOf (Verdict.rule 0 5 ruleW) bytes60).bytes.length ≤ 65536) (rArg ruleW % 16) ∧
    rxOn (arrived Verdict.default (List.drop 1 bytes60)) 1 = true ∧
    (arrived Verdict.default (List.drop 1 bytes60)).cls.flight.length = 4 ∧
    redMode (arrived Verdict.default (List.drop 1 bytes60)) (1 / 2) = 0 ∧
    testing (arrived Verdict.default (List.drop 1 bytes60)) 7 = false ∧
    (arrived Verdict.default (List.drop 1 bytes60)).sp.upsets = [] ∧
    nth none (arrived Verdict.default (List.drop 1 bytes60)).cls.flight 1 = some (inFlightOf Verdict.default (List.drop 1 bytes60))
      ∧ (inFlightOf Verdict.default (List.drop 1 bytes60)).port = 1 ∧
    (inFlightOf Verdict.default (List.drop 1 bytes60)).dup = false ∧ (inFlightOf Verdict.default (List.drop 1 bytes60)).cuts = [] ∧
    (parse (arrived Verdict.default (List.drop 1 bytes60)) (inFlightOf Verdict.default (List.drop 1 bytes60)).bytes).frag = none ∧
    (parse (arrived Verdict.default (List.drop 1 bytes60)) (inFlightOf Verdict.default (List.drop 1 bytes60)).bytes).cls ∉ [2, 4,
      13] ∧
    frameSysId (arrived Verdict.default (List.drop 1 bytes60)) (inFlightOf Verdict.default (List.drop 1 bytes60)).bytes = none ∧
    (true = false ∨ ¬(60 ≤ (inFlightOf Verdict.default (List.drop 1 bytes60)).bytes.length ∧ (inFlightOf Verdict.default (List.drop
      1 bytes60)).bytes.length ≤ 1522 ∧ isPause (inFlightOf Verdict.default (List.drop 1 bytes60)).bytes = false)) := by
  refine ⟨?_, ?_, ?_, ?_, ?_, ?_, ?_, ?_, ?_, ?_, ?_, ?_, ?_, ?_, ?_, ?_, ?_, ?_, ?_, ?_, ?_, ?_, ?_, ?_, ?_, ?_, ?_, ?_, ?_, ?_, ?_, ?_, ?_, ?_, ?_, ?_, ?_, ?_, ?_, ?_, ?_, ?_, ?_, ?_, ?_, ?_, ?_, ?_, ?_, ?_, ?_, ?_, ?_, ?_, ?_, ?_, ?_, ?_, ?_, ?_, ?_, ?_, ?_, ?_, ?_, ?_, ?_, ?_, ?_, ?_, ?_, ?_, ?_, ?_, ?_, ?_, ?_, ?_, ?_, ?_, ?_, ?_, ?_⟩ <;> decide +kernel

theorem test_hyps_classifier_tables :
    rxOn (paying rx60) 1 = true ∧ nth [] (paying rx60).cls.pay 1 = [rx60] ∧ (paying rx60).cls.pay.length = 4 ∧
    rx60.dec.isSome = true ∧ rxOn (paying rxWait) 1 = true ∧ nth [] (paying rxWait).cls.pay 1 = [rxWait] ∧ rxWait.dec = none ∧
    rxWait.fcs = some false ∧ rxWait.port = 1 ∧ (parse (paying rxWait) rxWait.bytes).frag = none ∧
    (parse (paying rxWait) rxWait.bytes).cls ≠ 14 ∧ (paying rxWait).sp.upsets = [] ∧
    ruleCands (paying rxWait) rxWait (parse (paying rxWait) rxWait.bytes) false = [] ∧
    (false = false ∨ isSet (paying rxWait) CLS_CTRL.DEFACT = false) ∧ (pausing 1).cls.pause = some ([1], 1) ∧
    (pausing 1).cls.pay.all List.isEmpty = true ∧ (pausing 2).cls.pause = some ([1], 2) ∧ absent (pausing 1) = false ∧
    (pausing 1).cls.dup.length = 2 ∧ 1 < 2 ∧ absent waitsFor = false ∧ waitsFor.cls.tad[0]? = some tadE ∧ rxOn (rxs []) 1 = true ∧
    3 < 4 ∧ (¬(getF (rxs []) (CLS_P_CFG.SPEED 1) = 0 ∧ 3 = 3 ∧ bitOf (rxs []).pins.vsel (if 1 < 2 then 1 else 2) = true)) ∧
    rxOn lowBank 1 = true ∧ (getF lowBank (CLS_P_CFG.SPEED 1) = 0 ∧ 3 = 3 ∧ bitOf lowBank.pins.vsel (if 1 < 2 then 1 else 2) = true) := by
  refine ⟨?_, ?_, ?_, ?_, ?_, ?_, ?_, ?_, ?_, ?_, ?_, ?_, ?_, ?_, ?_, ?_, ?_, ?_, ?_, ?_, ?_, ?_, ?_, ?_, ?_, ?_, ?_⟩ <;> decide +kernel

theorem test_hyps_egress_ports :
    1 < 4 ∧ egrQ.egr.ports.length = 4 ∧ (egrPort egrQ 1).queues.length = 8 ∧ egrReady egrQ 1 = true ∧
    (egrPort egrQ 1).gcl.en = false ∧ chooseHead egrQ 1 = some (7, egrF) ∧ egrF.tc = none ∧ egrF.ptp = false ∧
    isSet egrQ (EGR_TB.EN 1 7) = false ∧ egrTx.egr.ports.length = 4 ∧ (egrPort egrTx 1).queues.length = 8 ∧
    (egrPort egrTx 1).tx = some (7, egrF, false) ∧ absent egrQ = false ∧ domOn egrQ 6 = true ∧ gateWaits.egr.ports.length = 4 ∧
    (egrPort gateWaits 1).queues.length = 8 ∧ gateDue gateWaits 1 = true := by
  refine ⟨?_, ?_, ?_, ?_, ?_, ?_, ?_, ?_, ?_, ?_, ?_, ?_, ?_, ?_, ?_, ?_, ?_⟩ <;> decide +kernel

theorem test_hyps_supervision_and_goose :
    0 < 2 ∧ absent prp = false ∧ (redMode prp 0 = 1 ∨ redMode prp 0 = 2) ∧ prp.egr.ports.length = 4 ∧
    (∀ p < 4, p / 2 = 0 → (egrPort prp p).queues.length = 8 ∧ egrRoom prp p (getF prp EGR_CTRL.SYSQ) probe = true) ∧
    originOk prp 0 false = true ∧ getF prp EGR_CTRL.SYSQ < 8 ∧ 15 < 16 ∧ goose.egr.pubs.length = 16 ∧ pubOn goose 15 = true ∧
    (goose.mode = Mode.run ∨ goose.mode = Mode.runEdit) ∧ (pubSlot goose 15).next = some 5000 ∧
    isSet goose (EGR_SLOT_CFG.KIND 15) = false ∧ (pubSlot goose 15).sq < 2 ^ 32 := by
  refine ⟨?_, ?_, ?_, ?_, ?_, ?_, ?_, ?_, ?_, ?_, ?_, ?_, ?_, ?_⟩ <;> decide +kernel

theorem test_hyps_bus_reception :
    1 < 2 ∧ (bus []).can.length = 2 ∧ absent (bus []) = false ∧ domOn (bus []) 8 = true ∧ canRuns (bus []) 1 = true ∧
    canOnBus (bus []) 1 = true ∧ fd0.fd = true ∧ isSet (bus []) (CAN_CTRL.FD_EN 1) = false ∧
    (f0.fd = false ∨ isSet (bus []) (CAN_CTRL.FD_EN 1) = true) ∧ (canSt (bus []) 1).oldFlt = none ∧ isRef (bus []) 1 f0 = false ∧
    isSegment (bus []) 1 f0 = false ∧ (bus []).mode ≠ Mode.hold ∧ (bus []).ms.holdEntry = none ∧ (bus []).ms.waking = none ∧
    hpfMatch (bus []) 1 f0 = none ∧ afMatch (bus []) 1 f0 = none ∧ (bus [(CAN_HPF_CFG.VALID 1 3, 1)]).can.length = 2 ∧
    absent (bus [(CAN_HPF_CFG.VALID 1 3, 1)]) = false ∧ domOn (bus [(CAN_HPF_CFG.VALID 1 3, 1)]) 8 = true ∧
    canOnBus (bus [(CAN_HPF_CFG.VALID 1 3, 1)]) 1 = true ∧
    (f0.fd = false ∨ isSet (bus [(CAN_HPF_CFG.VALID 1 3, 1)]) (CAN_CTRL.FD_EN 1) = true) ∧
    (canSt (bus [(CAN_HPF_CFG.VALID 1 3, 1)]) 1).oldFlt = none ∧ isRef (bus [(CAN_HPF_CFG.VALID 1 3, 1)]) 1 f0 = false ∧
    isSegment (bus [(CAN_HPF_CFG.VALID 1 3, 1)]) 1 f0 = false ∧ (bus [(CAN_HPF_CFG.VALID 1 3, 1)]).mode ≠ Mode.hold ∧
    (bus [(CAN_HPF_CFG.VALID 1 3, 1)]).ms.holdEntry = none ∧ (bus [(CAN_HPF_CFG.VALID 1 3, 1)]).ms.waking = none ∧
    hpfMatch (bus [(CAN_HPF_CFG.VALID 1 3, 1)]) 1 f0 = some 3 ∧ (canSt (bus [(CAN_HPF_CFG.VALID 1 3, 1)]) 1).hpb.length < 4 ∧
    (busFull 4 63 [(CAN_HPF_CFG.VALID 1 3, 1)]).can.length = 2 ∧ absent (busFull 4 63 [(CAN_HPF_CFG.VALID 1 3, 1)]) = false ∧
    domOn (busFull 4 63 [(CAN_HPF_CFG.VALID 1 3, 1)]) 8 = true ∧ canOnBus (busFull 4 63 [(CAN_HPF_CFG.VALID 1 3, 1)]) 1 = true ∧
    (f0.fd = false ∨ isSet (busFull 4 63 [(CAN_HPF_CFG.VALID 1 3, 1)]) (CAN_CTRL.FD_EN 1) = true) ∧
    (canSt (busFull 4 63 [(CAN_HPF_CFG.VALID 1 3, 1)]) 1).oldFlt = none ∧
    isRef (busFull 4 63 [(CAN_HPF_CFG.VALID 1 3, 1)]) 1 f0 = false ∧
    isSegment (busFull 4 63 [(CAN_HPF_CFG.VALID 1 3, 1)]) 1 f0 = false ∧
    (busFull 4 63 [(CAN_HPF_CFG.VALID 1 3, 1)]).mode ≠ Mode.hold ∧ (busFull 4 63 [(CAN_HPF_CFG.VALID 1 3, 1)]).ms.holdEntry = none ∧
    (busFull 4 63 [(CAN_HPF_CFG.VALID 1 3, 1)]).ms.waking = none ∧
    hpfMatch (busFull 4 63 [(CAN_HPF_CFG.VALID 1 3, 1)]) 1 f0 = some 3 ∧
    (canSt (busFull 4 63 [(CAN_HPF_CFG.VALID 1 3, 1)]) 1).hpb.length = 4 ∧
    (canSt (busFull 4 63 [(CAN_HPF_CFG.VALID 1 3, 1)]) 1).fifo.length < 64 ∧
    (bus [(CAN_AF_CFG.VALID 1 3, 1), (CAN_AF_CFG.REJECT 1 3, 1)]).can.length = 2 ∧
    absent (bus [(CAN_AF_CFG.VALID 1 3, 1), (CAN_AF_CFG.REJECT 1 3, 1)]) = false ∧
    domOn (bus [(CAN_AF_CFG.VALID 1 3, 1), (CAN_AF_CFG.REJECT 1 3, 1)]) 8 = true ∧
    canOnBus (bus [(CAN_AF_CFG.VALID 1 3, 1), (CAN_AF_CFG.REJECT 1 3, 1)]) 1 = true ∧
    (f0.fd = false ∨ isSet (bus [(CAN_AF_CFG.VALID 1 3, 1), (CAN_AF_CFG.REJECT 1 3, 1)]) (CAN_CTRL.FD_EN 1) = true) ∧
    (canSt (bus [(CAN_AF_CFG.VALID 1 3, 1), (CAN_AF_CFG.REJECT 1 3, 1)]) 1).oldFlt = none ∧
    isRef (bus [(CAN_AF_CFG.VALID 1 3, 1), (CAN_AF_CFG.REJECT 1 3, 1)]) 1 f0 = false ∧
    isSegment (bus [(CAN_AF_CFG.VALID 1 3, 1), (CAN_AF_CFG.REJECT 1 3, 1)]) 1 f0 = false ∧
    (bus [(CAN_AF_CFG.VALID 1 3, 1), (CAN_AF_CFG.REJECT 1 3, 1)]).mode ≠ Mode.hold ∧
    (bus [(CAN_AF_CFG.VALID 1 3, 1), (CAN_AF_CFG.REJECT 1 3, 1)]).ms.holdEntry = none ∧
    (bus [(CAN_AF_CFG.VALID 1 3, 1), (CAN_AF_CFG.REJECT 1 3, 1)]).ms.waking = none ∧
    hpfMatch (bus [(CAN_AF_CFG.VALID 1 3, 1), (CAN_AF_CFG.REJECT 1 3, 1)]) 1 f0 = none ∧
    afMatch (bus [(CAN_AF_CFG.VALID 1 3, 1), (CAN_AF_CFG.REJECT 1 3, 1)]) 1 f0 = some 3 ∧
    isSet (bus [(CAN_AF_CFG.VALID 1 3, 1), (CAN_AF_CFG.REJECT 1 3, 1)]) (CAN_AF_CFG.REJECT 1 3) = true ∧
    (bus [(CAN_AF_CFG.VALID 1 3, 1)]).can.length = 2 ∧ absent (bus [(CAN_AF_CFG.VALID 1 3, 1)]) = false ∧
    domOn (bus [(CAN_AF_CFG.VALID 1 3, 1)]) 8 = true ∧ canOnBus (bus [(CAN_AF_CFG.VALID 1 3, 1)]) 1 = true ∧
    (f0.fd = false ∨ isSet (bus [(CAN_AF_CFG.VALID 1 3, 1)]) (CAN_CTRL.FD_EN 1) = true) ∧
    (canSt (bus [(CAN_AF_CFG.VALID 1 3, 1)]) 1).oldFlt = none ∧ isRef (bus [(CAN_AF_CFG.VALID 1 3, 1)]) 1 f0 = false ∧
    isSegment (bus [(CAN_AF_CFG.VALID 1 3, 1)]) 1 f0 = false ∧ (bus [(CAN_AF_CFG.VALID 1 3, 1)]).mode ≠ Mode.hold ∧
    (bus [(CAN_AF_CFG.VALID 1 3, 1)]).ms.holdEntry = none ∧ (bus [(CAN_AF_CFG.VALID 1 3, 1)]).ms.waking = none ∧
    hpfMatch (bus [(CAN_AF_CFG.VALID 1 3, 1)]) 1 f0 = none ∧ afMatch (bus [(CAN_AF_CFG.VALID 1 3, 1)]) 1 f0 = some 3 ∧
    isSet (bus [(CAN_AF_CFG.VALID 1 3, 1)]) (CAN_AF_CFG.REJECT 1 3) = false ∧
    (canSt (bus [(CAN_AF_CFG.VALID 1 3, 1)]) 1).fifo.length < 64 ∧ (busFull 0 64 [(CAN_AF_CFG.VALID 1 3, 1)]).can.length = 2 ∧
    absent (busFull 0 64 [(CAN_AF_CFG.VALID 1 3, 1)]) = false ∧ domOn (busFull 0 64 [(CAN_AF_CFG.VALID 1 3, 1)]) 8 = true ∧
    canOnBus (busFull 0 64 [(CAN_AF_CFG.VALID 1 3, 1)]) 1 = true ∧
    (f0.fd = false ∨ isSet (busFull 0 64 [(CAN_AF_CFG.VALID 1 3, 1)]) (CAN_CTRL.FD_EN 1) = true) ∧
    (canSt (busFull 0 64 [(CAN_AF_CFG.VALID 1 3, 1)]) 1).oldFlt = none ∧
    isRef (busFull 0 64 [(CAN_AF_CFG.VALID 1 3, 1)]) 1 f0 = false ∧
    isSegment (busFull 0 64 [(CAN_AF_CFG.VALID 1 3, 1)]) 1 f0 = false ∧
    (busFull 0 64 [(CAN_AF_CFG.VALID 1 3, 1)]).mode ≠ Mode.hold ∧ (busFull 0 64 [(CAN_AF_CFG.VALID 1 3, 1)]).ms.holdEntry = none ∧
    (busFull 0 64 [(CAN_AF_CFG.VALID 1 3, 1)]).ms.waking = none ∧ hpfMatch (busFull 0 64 [(CAN_AF_CFG.VALID 1 3, 1)]) 1 f0 = none ∧
    afMatch (busFull 0 64 [(CAN_AF_CFG.VALID 1 3, 1)]) 1 f0 = some 3 ∧
    isSet (busFull 0 64 [(CAN_AF_CFG.VALID 1 3, 1)]) (CAN_AF_CFG.REJECT 1 3) = false ∧
    (canSt (busFull 0 64 [(CAN_AF_CFG.VALID 1 3, 1)]) 1).fifo.length = 64 := by
  refine ⟨?_, ?_, ?_, ?_, ?_, ?_, ?_, ?_, ?_, ?_, ?_, ?_, ?_, ?_, ?_, ?_, ?_, ?_, ?_, ?_, ?_, ?_, ?_, ?_, ?_, ?_, ?_, ?_, ?_, ?_, ?_, ?_, ?_, ?_, ?_, ?_, ?_, ?_, ?_, ?_, ?_, ?_, ?_, ?_, ?_, ?_, ?_, ?_, ?_, ?_, ?_, ?_, ?_, ?_, ?_, ?_, ?_, ?_, ?_, ?_, ?_, ?_, ?_, ?_, ?_, ?_, ?_, ?_, ?_, ?_, ?_, ?_, ?_, ?_, ?_, ?_, ?_, ?_, ?_, ?_, ?_, ?_, ?_, ?_, ?_, ?_, ?_, ?_⟩ <;> decide +kernel

theorem test_hyps_bus_transmission :
    1 < 2 ∧ 2 < 3 ∧ (busTb 2 false).can.length = 2 ∧ (canSt (busTb 2 false) 1).tbs.length = 3 ∧
    (canSt (busTb 2 false) 1).reinit = false ∧ (canSt (busTb 2 false) 1).pending = [] ∧ (canSt (busTb 2 false) 1).zcpTx = [] ∧
    canOnBus (busTb 2 false) 1 = true ∧ (canSt (busTb 2 false) 1).att = none ∧ (canSt (busTb 2 false) 1).refWait = none ∧
    (canSt (busTb 2 false) 1).excl = none ∧ tbChoose (busTb 2 false) 1 = some 2 ∧ (busTb 2 true).can.length = 2 ∧
    (canSt (busTb 2 true) 1).tbs.length = 3 ∧ (canSt (busTb 2 true) 1).reinit = false ∧ (canSt (busTb 2 true) 1).pending = [] ∧
    (canSt (busTb 2 true) 1).zcpTx = [] ∧ (canTb (busTb 2 true) 1 2).frame = some (f0, CanSrc.prog) ∧
    (canTb (busTb 2 true) 1 2).cancel = false ∧ (canSt (busTb 2 true) 1).att = some (CanAtt.tb 2) ∧ (cancels 2).can.length = 2 ∧
    (canSt (cancels 2) 1).tbs.length = 3 ∧ (canSt (cancels 2) 1).reinit = false ∧ (canSt (cancels 2) 1).pending = [] ∧
    (canSt (cancels 2) 1).zcpTx = [] ∧ (canTb (cancels 2) 1 2).frame = some (f0, CanSrc.prog) ∧
    (canTb (cancels 2) 1 2).cancel = true ∧ (canSt (cancels 2) 1).att = some (CanAtt.tb 2) ∧ tbMode (busTb 2 true) 2 = true ∧
    (canTb (busTb 2 true) 1 2).attempt = true ∧ absent (busTb 2 true) = false ∧ domOn (busTb 2 true) 8 = true ∧
    (canTb (busTb 2 false) 1 2).frame = some (f0, CanSrc.prog) ∧ (canTb (busTb 2 false) 1 2).attempt = false ∧
    absent (busTb 2 false) = false ∧ domOn (busTb 2 false) 8 = true := by
  refine ⟨?_, ?_, ?_, ?_, ?_, ?_, ?_, ?_, ?_, ?_, ?_, ?_, ?_, ?_, ?_, ?_, ?_, ?_, ?_, ?_, ?_, ?_, ?_, ?_, ?_, ?_, ?_, ?_, ?_, ?_, ?_, ?_, ?_, ?_, ?_, ?_⟩ <;> decide +kernel

theorem test_hyps_bus_errors_and_schedule :
    1 < 2 ∧ (bus []).can.length = 2 ∧ canOnBus (bus []) 1 = true ∧ 255 ≤ 255 ∧ 255 < 256 ∧
    (bus [(CAN_STAT.ERRSTATE 1, 3)]).can.length = 2 ∧
    ((canTb (bus [(CAN_STAT.ERRSTATE 1, 3)]) 1 2).frame.isSome = true ∨ (canSt (bus [(CAN_STAT.ERRSTATE 1, 3)]) 1).zcpTx = []) ∧
    canRuns (bus [(CAN_STAT.ERRSTATE 1, 3)]) 1 = true ∧ getF (bus [(CAN_STAT.ERRSTATE 1, 3)]) (CAN_STAT.ERRSTATE 1) = 3 ∧
    (bus [(CAN_STAT.ERRSTATE 1, 0)]).can.length = 2 ∧
    ((canTb (bus [(CAN_STAT.ERRSTATE 1, 0)]) 1 2).frame.isSome = true ∨ (canSt (bus [(CAN_STAT.ERRSTATE 1, 0)]) 1).zcpTx = []) ∧
    canRuns (bus [(CAN_STAT.ERRSTATE 1, 0)]) 1 = true ∧ getF (bus [(CAN_STAT.ERRSTATE 1, 0)]) (CAN_STAT.ERRSTATE 1) = 0 ∧
    getF (bus [(CAN_STAT.ERRSTATE 1, 0)]) (CAN_ERRCNT.TEC 1) ≤ 255 ∧ lateRef.can.length = 2 ∧ canRuns lateRef 1 = true ∧
    (canSt lateRef 1).att = none ∧ lateRef.scan.posted = [] ∧ ttRole lateRef 1 lateRef.mode = 2 ∧
    getF lateRef (CAN_STAT.ERRSTATE 1) ≠ 3 ∧ isSet lateRef (CAN_TTCFG.ALIGN 1) = false ∧ ttIn lateRef 1 = true ∧
    (canSt lateRef 1).sched.bclen ≤ ttTime lateRef 1 ∧ (canSt lateRef 1).count = some 3 ∧ opens.can.length = 2 ∧
    canRuns opens 1 = true ∧ (canSt opens 1).att = none ∧ opens.scan.posted = [] ∧ ttIn opens 1 = true ∧ ttOpens opens 1 2 = true ∧
    (canSt opens 1).count = some 3 ∧ ttCell opens 1 3 2 = (1, 0) ∧ canProgMode opens = true ∧
    objFrame opens 1 0 = some (objFrame opens 1 0).get! ∧ exclusive.can.length = 2 ∧ canRuns exclusive 1 = true ∧
    (canSt exclusive 1).att = none ∧ exclusive.scan.posted = [] ∧ (canSt exclusive 1).excl = some (0, f0, 5) ∧
    (0, f0, 5).2.2 + (canSt exclusive 1).sched.txen * nomBit exclusive 1 < exclusive.core.cyc ∧
    (canSt lateRef 1).sched.bclen + (canSt lateRef 1).sched.watch ≤ ttTime lateRef 1 := by
  refine ⟨?_, ?_, ?_, ?_, ?_, ?_, ?_, ?_, ?_, ?_, ?_, ?_, ?_, ?_, ?_, ?_, ?_, ?_, ?_, ?_, ?_, ?_, ?_, ?_, ?_, ?_, ?_, ?_, ?_, ?_, ?_, ?_, ?_, ?_, ?_, ?_, ?_, ?_, ?_, ?_, ?_⟩ <;> decide +kernel

theorem test_hyps_companion_inputs :
    7 < 8 ∧ capd.fld.cpn.length = 8 ∧ CpnShape (cpnSt capd 7) ∧ 3 < 12 ∧
    (cpnIn (cpnSt capd 7) 3).raw = (cpnIn (cpnSt capd 7) 3).deb ∧ still.fld.cpn.length = 8 ∧ CpnShape (cpnSt still 7) ∧
    (cpnIn (cpnSt still 7) 3).raw ≠ (cpnIn (cpnSt still 7) 3).deb ∧
    edgeSel (inEvt (cpnSt still 7) 3) (cpnIn (cpnSt still 7) 3).raw = false ∧
    (chan ({ CpnIn.init with raw := true, cnt := 2 ^ 32 - 1 })).fld.cpn.length = 8 ∧
    CpnShape (cpnSt (chan ({ CpnIn.init with raw := true, cnt := 2 ^ 32 - 1 })) 7) ∧
    (cpnIn (cpnSt (chan ({ CpnIn.init with raw := true, cnt := 2 ^ 32 - 1 })) 7) 3).raw ≠ (cpnIn (cpnSt (chan
      ({ CpnIn.init with raw := true, cnt := 2 ^ 32 - 1 })) 7) 3).deb ∧
    edgeSel (inEvt (cpnSt (chan ({ CpnIn.init with raw := true, cnt := 2 ^ 32 - 1 })) 7) 3) (cpnIn (cpnSt (chan
      ({ CpnIn.init with raw := true, cnt := 2 ^ 32 - 1 })) 7) 3).raw = true ∧
    (∀ x < 2, (cpnLink (cpnSt (chan ({ CpnIn.init with raw := true, cnt := 2 ^ 32 - 1 })) 7) x).fifo.length < 64) ∧
    edgeSel (inEdges (cpnSt still 7) 3) true = false ∧ edgeSel (inEdges (cpnSt capd 7) 3) true = true ∧
    (cpnIn (cpnSt capd 7) 3).cnt + 1 < 2 ^ 32 ∧
    edgeSel (inEdges (cpnSt (chan ({ CpnIn.init with raw := true, cnt := 2 ^ 32 - 1 })) 7) 3) true = true ∧
    (cpnIn (cpnSt (chan ({ CpnIn.init with raw := true, cnt := 2 ^ 32 - 1 })) 7) 3).cnt = 2 ^ 32 - 1 ∧ gated.fld.cpn.length = 8 ∧
    CpnShape (cpnSt gated 7) ∧ inFen (cpnSt gated 7) 3 = true ∧ (cpnIn (cpnSt gated 7) 3).fopen = true ∧ 0 < 1 ∧
    400000 * 10 ^ (cpnIn (cpnSt gated 7) 3).gate ≤ 400000 ∧ 3 < 4 ∧ bitOf (icfg (cpnSt capd 7) 3) 24 = true ∧
    edgeSel (inEvt (cpnSt capd 7) 3) true = true ∧ (cpnIn (cpnSt capd 7) 3).capAt = some 60 ∧ 99 < 60 + 40 ∧
    (∀ (last : Nat), (cpnIn (cpnSt capd 7) 3).capAt = some last → last + 40 ≤ 100) ∧ (cpnIn (cpnSt capd 7) 3).armed = true ∧
    (∀ x < 2, (cpnLink (cpnSt capd 7) x).fifo.length < 64) := by
  refine ⟨?_, ?_, ?_, ?_, ?_, ?_, ?_, ?_, ?_, ?_, ?_, ?_, ?_, ?_, ?_, ?_, ?_, ?_, ?_, ?_, ?_, ?_, ?_, ?_, ?_, ?_, ?_, ?_, ?_, ?_, ?_, ?_, ?_⟩ <;> first | decide +kernel | (unfold CpnShape; decide +kernel)

theorem test_hyps_companion_management :
    7 < 8 ∧ linkA.fld.cpn.length = 8 ∧ CpnShape (cpnSt linkA 7) ∧ 0 < 2 ∧
    cpnReg (cpnSt linkA 7) 32 = some (cfgWord (c7 linkA).cfg 32).get! ∧ cpnReg (cpnSt linkA 7) 65535 = none ∧
    cfgWord (cpnSt linkA 7).cfg 32 = some (cfgWord (c7 linkA).cfg 32).get! ∧ onLink (cpnSt linkA 7) 0 = true ∧
    (cpnLink (cpnSt linkA 7) 0).obeyed = true ∧ 1 < 2 ∧ (onLink (cpnSt linkA 7) 1 && (cpnLink (cpnSt linkA 7) 1).obeyed) = false ∧
    onLink (cpnSt linkA 7) 1 = false ∧
    Instr.cntLatch 7 1 ∈ [Instr.tsdClear 7 1 4095, Instr.fastRelease 7 1 4095, Instr.cntLatch 7 1, Instr.cntClear 7 1 4095,
      Instr.ovfClear 7 1 4095, Instr.capArm 7 1 4095] := by
  refine ⟨?_, ?_, ?_, ?_, ?_, ?_, ?_, ?_, ?_, ?_, ?_, ?_, ?_⟩ <;> first | decide +kernel | (unfold CpnShape; decide +kernel)

theorem test_hyps_companion_outputs :
    7 < 8 ∧ linkA.fld.cpn.length = 8 ∧ CpnShape (cpnSt linkA 7) ∧ 0 < 2 ∧ (dn 5 false).mop = 0 ∧ (dn 5 false).safe = false ∧
    cpnObeys (cpnSt linkA 7) 0 (dn 5 false) = true ∧
    (cpnSt linkA 7).uv = false ∧ (cpnSt linkA 7).tsd = List.replicate 4 false ∧ bitOf (cpnSt linkA 7).cfg.ocfg 8 = false ∧ bitOf
      (cpnSt linkA 7).cfg.ocfg 9 = false ∧ (cpnSt linkA 7).barrierFail = false ∧ (cpnSt linkA 7).fast = List.replicate 4 none ∧
    (∀ y ∈ (cpnSt linkA 7).causes, y = 1 ∨ y = 2) ∧ (dn 4 false).mop = 0 ∧ cpnObeys (cpnSt linkA 7) 0 (dn 4 false) = false ∧
    (dn 5 true).mop = 0 ∧ (dn 5 true).safe = true ∧ cpnObeys (cpnSt linkA 7) 0 (dn 5 true) = true ∧ 1 < 2 ∧
    (cpnLink (cpnSt linkA 7) 1).due = false ∧ (cpnLink (cpnSt linkA 7) 0).due = true ∧ (cpnLink (cpnSt linkA 7) 1).loss < 7 ∧
    (cpnLink (cpnSt linkA 7) 0).loss = 7 ∧
    (fun ok => onLink (cpnSt linkA 7) 0 && ok && 5 == (cpnSt linkA 7).obepoch % 256 && !cpnFailed (cpnSt linkA 7) && !(cpnSt linkA
      7).cfglost) false = false ∧
    (fun ok => onLink (cpnSt linkA 7) 0 && ok && 5 == (cpnSt linkA 7).obepoch % 256 && !cpnFailed (cpnSt linkA 7) && !(cpnSt linkA
      7).cfglost) true = true ∧ 3 < 4 ∧ nth none (cpnSt linkA 7).fast 3 = none ∧ latched.fld.cpn.length = 8 ∧
    CpnShape (cpnSt latched 7) ∧ nth none (cpnSt latched 7).fast 3 = some true ∧
    (cpnSt latched 7).uv = false ∧ (cpnSt latched 7).tsd = List.replicate 4 false ∧ bitOf (cpnSt latched 7).cfg.ocfg 8 = false ∧
      bitOf (cpnSt latched 7).cfg.ocfg 9 = false ∧ retrying.fld.cpn.length = 8 ∧ CpnShape (cpnSt retrying 7) ∧
    outLatch (cpnSt retrying 7) 3 = true ∧ outLatch (cpnSt linkA 7) 3 = false ∧ cpnFailed (cpnSt linkA 7) = false ∧
    failing.fld.cpn.length = 8 ∧ CpnShape (cpnSt failing 7) ∧ cpnFailed (cpnSt failing 7) = true ∧ (cpnSt linkA 7).dnBad < 9 ∧
    barred.fld.cpn.length = 8 ∧ CpnShape (cpnSt barred 7) ∧ (cpnSt barred 7).dnBad = 9 ∧ (cpnSt barred 7).fieldFail = false ∧
    (cpnSt linkA 7).upGood < 15 ∧ (cpnSt barred 7).upGood = 15 ∧ (cpnSt barred 7).upBad = 9 ∧ (cpnSt barred 7).barrierFail = false ∧
    16999 < 17000 ∧ 17000 ≤ 17000 := by
  refine ⟨?_, ?_, ?_, ?_, ?_, ?_, ?_, ?_, ?_, ?_, ?_, ?_, ?_, ?_, ?_, ?_, ?_, ?_, ?_, ?_, ?_, ?_, ?_, ?_, ?_, ?_, ?_, ?_, ?_, ?_, ?_, ?_, ?_, ?_, ?_, ?_, ?_, ?_, ?_, ?_, ?_, ?_, ?_, ?_, ?_, ?_, ?_, ?_⟩ <;> first | decide +kernel | (unfold CpnShape; decide +kernel)

theorem test_hyps_hub_frames :
    (hubAt 392).fld.hub.length = 8 ∧ hubOn (hubAt 392) = true ∧
    (domOn (hubAt 392) 2 = true ∧ (hubAt 392).core.cyc % 400 = 392 ∧ 1 = ((hubAt 392).core.cyc + 8) / 400 ∧ (hubAt 392).fld.frame ≠
      some 1 ∨ domOn (hubAt 392) 2 = false ∧ ∃ m, (hubAt 392).fld.frame = some m ∧ 1 = m + 1) ∧ hubOn (hubAt 7) = true ∧
    domOn (hubAt 7) 2 = true ∧ (hubAt 7).core.cyc % 400 ≠ 392 ∧ 7 < 8 ∧ hub.fld.hub.length = 8 ∧ hubSends hub 7 = true ∧
    hub.ms.cpnOff = [] ∧ hub.scan.posted = [] ∧ isSet hub (FLD_IBASE.EN 7) = false ∧
    (hubPort hub 7).sent = [(dn 77 false, 100, none)] ∧ up77.fref = false ∧ up77.cfglost = false ∧ up77.evt = EvtField.none ∧
    epochHigher up77.obepoch (getF hub SBY_EPOCH.OWN) = false ∧ getF hub (FLD_LCNT.ANSCRC 7) + 1 < 2 ^ (FLD_LCNT.ANSCRC 7).w ∧
    hubLate.fld.hub.length = 8 ∧ hubSends hubLate 7 = true ∧ hubLate.ms.cpnOff = [] ∧ hubLate.scan.posted = [] ∧
    isSet hubLate (FLD_IBASE.EN 7) = false ∧ (hubPort hubLate 7).sent = [(dn 77 false, 100, none)] ∧
    (domOn hubLate 2 = false ∨ 400 * 100 + 800 ≤ hubLate.core.cyc) ∧ getF hubLate (FLD_LCNT.NOANS 7) + 1 < 2 ^ (FLD_LCNT.NOANS 7).w := by
  refine ⟨?_, ?_, ?_, ?_, ?_, ?_, ?_, ?_, ?_, ?_, ?_, ?_, ?_, ?_, ?_, ?_, ?_, ?_, ?_, ?_, ?_, ?_, ?_, ?_, ?_, ?_⟩ <;> decide +kernel

theorem test_hyps_line_policies :
    policyOn (tsp 151 2) = true ∧ bitOf (getF (tsp 151 2) PHM_CTRL.EN) 5 = true ∧ 3 ≤ (qualifiedSrcs (tsp 151 2)).length ∧ 1 < 7 ∧
    (tsp 151 2).phm.disag.length = 7 ∧ (tsp 151 2).phm.agree.length = 7 ∧ isSet (tsp 151 2) (TIM_SRC_STAT.QUALIFIED 1) = true ∧
    bitOf (getF (tsp 151 2) TSP_STAT.DEMOTED) 1 = false ∧
    decide (Int.ofNat (2 * getF (tsp 151 2) TIM_DISAGREE.LIM) < Int.ofNat (2 * srcOffset (tsp 151 2) 1 - median2 (List.map
      (srcOffset (tsp 151 2)) (qualifiedSrcs (tsp 151 2)))).natAbs) = true ∧
    max 1 (getF (tsp 151 2) TSP_CFG.N) ≤ nth 0 (tsp 151 2).phm.disag 1 + 1 ∧ policyOn (tsp 151 0) = true ∧
    bitOf (getF (tsp 151 0) PHM_CTRL.EN) 5 = true ∧ 3 ≤ (qualifiedSrcs (tsp 151 0)).length ∧ (tsp 151 0).phm.disag.length = 7 ∧
    (tsp 151 0).phm.agree.length = 7 ∧ isSet (tsp 151 0) (TIM_SRC_STAT.QUALIFIED 1) = true ∧
    bitOf (getF (tsp 151 0) TSP_STAT.DEMOTED) 1 = false ∧
    decide (Int.ofNat (2 * getF (tsp 151 0) TIM_DISAGREE.LIM) < Int.ofNat (2 * srcOffset (tsp 151 0) 1 - median2 (List.map
      (srcOffset (tsp 151 0)) (qualifiedSrcs (tsp 151 0)))).natAbs) = true ∧
    nth 0 (tsp 151 0).phm.disag 1 + 1 < max 1 (getF (tsp 151 0) TSP_CFG.N) ∧ policyOn (tsp 150 0) = true ∧
    bitOf (getF (tsp 150 0) PHM_CTRL.EN) 5 = true ∧ 3 ≤ (qualifiedSrcs (tsp 150 0)).length ∧ (tsp 150 0).phm.disag.length = 7 ∧
    (tsp 150 0).phm.agree.length = 7 ∧ isSet (tsp 150 0) (TIM_SRC_STAT.QUALIFIED 1) = true ∧
    bitOf (getF (tsp 150 0) TSP_STAT.DEMOTED) 1 = false ∧
    decide (Int.ofNat (2 * getF (tsp 150 0) TIM_DISAGREE.LIM) < Int.ofNat (2 * srcOffset (tsp 150 0) 1 - median2 (List.map
      (srcOffset (tsp 150 0)) (qualifiedSrcs (tsp 150 0)))).natAbs) = false ∧ policyOn atrGood = true ∧
    bitOf (getF atrGood PHM_CTRL.EN) 6 = true ∧ atrGood.phm.switching = none ∧ atrGood.sp.upsets = [] ∧
    candGood atrGood (getF atrGood ATR_STAT.CUR) = true ∧ getF atrGood ATR_STAT.CUR = 0 ∧ policyOn (atr 2) = true ∧
    bitOf (getF (atr 2) PHM_CTRL.EN) 6 = true ∧ (atr 2).phm.switching = none ∧ (atr 2).sp.upsets = [] ∧
    candGood (atr 2) (getF (atr 2) ATR_STAT.CUR) = false ∧ isSet (atr 2) PLB_STAT.FREERUN = true ∧
    getF (atr 2) ATR_CFG.HOLD ≤ (atr 2).phm.badMs + 1 ∧ getF (atr 2) ATR_STAT.CUR < 3 ∧
    List.find? (candGood (atr 2)) (List.map (fun j => (getF (atr 2) ATR_STAT.CUR + 1 + j) % 3) (List.range 2)) = some 1 ∧
    (getF (atr 2) ATR_STAT.CUR = 0 ∨ candGood (atr 2) 0 = false) ∧ isSet (atr 2) TXN_STAT.STATE = false := by
  refine ⟨?_, ?_, ?_, ?_, ?_, ?_, ?_, ?_, ?_, ?_, ?_, ?_, ?_, ?_, ?_, ?_, ?_, ?_, ?_, ?_, ?_, ?_, ?_, ?_, ?_, ?_, ?_, ?_, ?_, ?_, ?_, ?_, ?_, ?_, ?_, ?_, ?_, ?_, ?_, ?_, ?_, ?_, ?_, ?_⟩ <;> decide +kernel

theorem test_hyps_zcp_queries :
    Heard (zs Mode.stop []) Mode.stop rqS 3 ∧ regRange 1073741824 2 = true ∧
    (∀ j < 2, placeTested (noted (zs Mode.stop []) rqS 3) (1073741824 + 4 * j) = false) ∧
    (∀ j < 2, (hostRead (noted (zs Mode.stop []) rqS 3) (1073741824 + 4 * j)).2 = (vals (zu Mode.stop []) 1073741824 j, noted (zs
      Mode.stop []) rqS 3)) ∧ 524287 < 524288 ∧ 0 = BitVec.toNat (rawWord (zs Mode.stop []) 524287).val ∧
    (zs Mode.stop []).sp.upsets = [] ∧ domOn (zs Mode.stop []) 5 = true ∧ testing (zs Mode.stop []) 2 = false ∧
    Heard (zs Mode.stop [(TXN_STAT.STATE, 1)]) Mode.stop rqS 3 ∧ regRange 1073741824 1 = true ∧
    isSet (zs Mode.stop [(TXN_STAT.STATE, 1)]) TXN_STAT.STATE = true ∧ handleSlot (zs Mode.stop []) 1794 = none ∧
    Heard (opWith 1) Mode.stop rqS 3 ∧ handleSlot (opWith 1) 1794 = some 2 ∧ (opWith 1).zcp.ops.length = 8 ∧
    Heard abortable Mode.stop rqS 3 ∧ handleSlot abortable 1794 = some 2 ∧ abortable.zcp.ops.length = 8 ∧
    (opSlot abortable 2).st = 1 ∧ (opSlot abortable 2).opcode = 1537 ∧ (opSlot abortable 2).pnr = false ∧
    abortable.nv.holder = some (job (some 2) [NvStep.erase 0]) ∧ (job (some 2) [NvStep.erase 0]).op = some 2 ∧
    (job (some 2) [NvStep.erase 0]).reply = none ∧ 1 ≤ 16 ∧ 16 ≤ 16 ∧ 16 ≤ 32 ∧ rqNew.session = 0 ∧ rqNew.peer.tr = 3 ∧
    (∃ k < 16, (sessionAt (zs Mode.stop []) k).live = false) ∧
    rqNew.peer.mac ≠ stnMac (zs Mode.stop []) (ownStn (zs Mode.stop [])) ∧
    getF (zs Mode.stop []) SYS_STATION.STN = ownStn (zs Mode.stop []) ∧
    getF w SYS_STATION.SYSTEM_ID = getF (zs Mode.stop []) SYS_STATION.SYSTEM_ID ∧
    isSet (zs Mode.stop []) SYS_FLAGS.STN_CONFLICT = false ∧ 77 ≠ ownStn (zs Mode.stop []) := by
  refine ⟨?_, ?_, ?_, ?_, ?_, ?_, ?_, ?_, ?_, ?_, ?_, ?_, ?_, ?_, ?_, ?_, ?_, ?_, ?_, ?_, ?_, ?_, ?_, ?_, ?_, ?_, ?_, ?_, ?_, ?_, ?_, ?_, ?_, ?_, ?_, ?_⟩ <;> first | decide +kernel | (unfold Heard; decide +kernel)

theorem test_hyps_zcp_packets_and_slots :
    absent w = false ∧ p0.tr = 3 ∧ (List.replicate 2048 3).length ≤ 2048 ∧ w.zcp.queue.length < 16 ∧ absent queue16 = false ∧
    16 ≤ queue16.zcp.queue.length ∧ absent pack1 = false ∧ pack1.zcp.queue = [pkt [1]] ∧ (pkt [1]).peer.tr = 3 ∧
    pack1.zcp.spiQueue.length < 4 ∧ interpreterBusy pack1 = false ∧ pack1.mode ≠ Mode.hold ∧ pack1.zcp.held = [] ∧
    pktBad (pkt [1]) = 1 ∧ pack1.zcp.outbox = [] ∧ absent packId = false ∧ packId.zcp.queue = [pkt identifyBytes] ∧
    (pkt identifyBytes).peer.tr = 3 ∧ packId.zcp.spiQueue.length < 4 ∧ interpreterBusy packId = false ∧ packId.mode ≠ Mode.hold ∧
    packId.zcp.held = [] ∧ pktBad (pkt identifyBytes) = 0 ∧ bitOf (numAt (pkt identifyBytes).bytes 3 1) 7 = false ∧
    numAt (pkt identifyBytes).bytes 2 1 = 1 ∧ pktOp (pkt identifyBytes) = some ZOp.identify ∧
    pktCode (pkt identifyBytes) = ZOp.identify.code ∧ absent announcing = false ∧ 2 < 16 ∧ announcing.zcp.sessions.length = 16 ∧
    absent (opWith 2) = false ∧ 2 < 8 ∧ (opWith 2).zcp.ops.length = 8 ∧ (opSlot (opWith 2) 2).st = 2 ∧ absent (opWith 1) = false ∧
    (opWith 1).zcp.ops.length = 8 ∧ (opSlot (opWith 1) 2).st = 1 ∧ (opSlot (opWith 1) 2).opcode ≠ 518 ∧
    (opSlot (opWith 1) 2).peer.tr = 3 ∧ (opWith 1).zcp.spiQueue.length < 4 ∧ (opWith 1).zcp.outbox = [] ∧
    isSet announcing ZCP_CFG.ANN_EN = true ∧ isSet announcing ZCP_CFG.UDP_EN = true ∧ originOk announcing 0 true = true ∧
    ((ownIp announcing true).all fun x => x == 0) = true ∧ ((ownIp announcing false).all fun x => x == 0) = false ∧
    getF announcing EGR_CTRL.SYSQ < 8 ∧ announcing.egr.ports.length = 4 ∧ (∀ pair < 2, redMode announcing pair = 0) ∧
    (∀ p < 4, bitOf (getF announcing (SYS_DIR_CTRL.PORTS (ownStn announcing))) p = true → portOn announcing p = true → (egrPort
      announcing p).queues.length = 8 ∧ egrRoom announcing p (getF announcing EGR_CTRL.SYSQ) probe = true) := by
  refine ⟨?_, ?_, ?_, ?_, ?_, ?_, ?_, ?_, ?_, ?_, ?_, ?_, ?_, ?_, ?_, ?_, ?_, ?_, ?_, ?_, ?_, ?_, ?_, ?_, ?_, ?_, ?_, ?_, ?_, ?_, ?_, ?_, ?_, ?_, ?_, ?_, ?_, ?_, ?_, ?_, ?_, ?_, ?_, ?_, ?_, ?_, ?_, ?_, ?_, ?_⟩ <;> decide +kernel

theorem test_hyps_zcp_writes_and_loads :
    Heard (zs Mode.stop []) Mode.stop rqS 3 ∧ TIM_STEP_LIM.LIM.addr % 4 = 0 ∧ 1073741824 ≤ TIM_STEP_LIM.LIM.addr ∧
    TIM_STEP_LIM.LIM.addr + 4 ≤ 1074855936 ∧ accJudge (noted (zs Mode.stop []) rqS 3) TIM_STEP_LIM.LIM.addr = none ∧
    writeZcp (noted (zs Mode.stop []) rqS 3) (ownsTxn (noted (zs Mode.stop []) rqS 3) rqS.session true) TIM_STEP_LIM.LIM.addr (4660)
      = (0, limWrite.2) ∧ limWrite.2 = { (noted (zs Mode.stop []) rqS 3) with regs := limWrite.2.regs } ∧ 16384 ≤ 524287 ∧
    524287 < 524288 ∧ wmem.length = 8 ∧ domOn (zs Mode.stop []) 5 = true ∧ testing (zs Mode.stop []) 2 = false ∧
    (zs Mode.stop []).sby.streaming = false ∧ (zs Mode.stop []).sp.upsets = [] ∧ (zs Mode.stop []).sp.written = [] ∧ 1 < 2 ∧ 7 < 8 ∧
    domOn (zs Mode.stop []) 8 = true ∧ (canSt (zs Mode.stop []) 1).zcpTx = [] ∧
    (∀ b < 3, (canTb (zs Mode.stop []) 1 b).frame = none) ∧ Heard known Mode.stop rqS 3 ∧
    img2.sysId = getF known SYS_STATION.SYSTEM_ID ∧ img2.srcStn < 256 ∧ isSet known (SYS_DIR_CTRL.VALID img2.srcStn) = true ∧
    getF known (SYS_DIR_CTRL.ROLE img2.srcStn) = 0 ∧ 1 ≤ img2.len ∧ img2.len ≤ 256 ∧ img2.words.length = img2.len ∧
    img2.isWord = true ∧ known.sp.written = [] ∧ img2.daddr + img2.len ≤ 16384 ∧ imgB.sysId = getF known SYS_STATION.SYSTEM_ID ∧
    imgB.srcStn < 256 ∧ isSet known (SYS_DIR_CTRL.VALID imgB.srcStn) = true ∧ getF known (SYS_DIR_CTRL.ROLE imgB.srcStn) = 0 ∧
    1 ≤ imgB.len ∧ imgB.len ≤ 256 ∧ imgB.bits.length = imgB.len ∧ imgB.isWord = false ∧ known.sp.upsets = [] ∧
    imgB.daddr + imgB.len ≤ 65536 ∧ (isSet (zs Mode.stop []) TXN_STAT.STATE && (zs Mode.stop []).txn.bank) = false ∧
    (zs Mode.stop []).zcp.bankLoad = none ∧ Heard (loading 0) Mode.stop rqS 3 ∧
    (isSet (loading 0) TXN_STAT.STATE && (loading 0).txn.bank) = false ∧ (loading 0).zcp.bankLoad = some 0 ∧ 0 < 2 ∧
    legal8.length = 8 ∧ 65535 < 65536 ∧ bundleIllegal (List.map (fun x => BitVec.toNat x) legal8) = false ∧
    idZero (loading 0) 0 = false ∧ 63 < 64 ∧ (List.replicate 36 7).length = 36 ∧ isSet known TXN_STAT.STATE = false ∧
    tableOk (fun n w => sget 0 known.zcp.dtLoad (36 * n + w)) 65535 = true := by
  refine ⟨?_, ?_, ?_, ?_, ?_, ?_, ?_, ?_, ?_, ?_, ?_, ?_, ?_, ?_, ?_, ?_, ?_, ?_, ?_, ?_, ?_, ?_, ?_, ?_, ?_, ?_, ?_, ?_, ?_, ?_, ?_, ?_, ?_, ?_, ?_, ?_, ?_, ?_, ?_, ?_, ?_, ?_, ?_, ?_, ?_, ?_, ?_, ?_, ?_, ?_, ?_, ?_, ?_, ?_, ?_⟩ <;> first | decide +kernel | (unfold Heard; decide +kernel)

theorem test_hyps_zcp_transactions :
    undoable.zcp.ops.length = 8 ∧ Heard undoable Mode.stop rqS 3 ∧ isSet undoable TXN_STAT.STATE = false ∧
    (zt 1).zcp.ops.length = 8 ∧ Heard (zt 1) Mode.stop rqS 3 ∧
    isSet (zt 1) TXN_STAT.STATE = true ∧ ownsTxn (zt 1) rqS.session true = true ∧ getF (zt 1) TXN_STAT.STATE = 1 ∧
    regRange (SCN_TCFG.EN 0).addr 1 = true ∧ SCN_TCFG.EN 0 ∈ stageFields (zt 1) (SCN_TCFG.EN 0).addr ∧
    (stageFields (zt 1) (SCN_TCFG.EN 0).addr).Nodup ∧
    opTake (noted (zt 1) rqS 3) rqS 514 = some ((took (zt 1) 514).1, (took (zt 1) 514).2) ∧ prepCheck (took (zt 1) 514).2 = 0 ∧
    isSet (zt 1) TXN_STAT.PERSIST = false ∧ (zt 3).zcp.ops.length = 8 ∧ Heard (zt 3) Mode.stop rqS 3 ∧
    isSet (zt 3) TXN_STAT.STATE = true ∧ ownsTxn (zt 3) rqS.session true = true ∧ getF (zt 3) TXN_STAT.STATE = 3 ∧
    isSet (zt 3) TXN_STAT.EDIT = false ∧ pidMatches (applyStaged (noted (zt 3) rqS 3)) = true ∧
    opTake (noted (zt 3) rqS 3) rqS 515 = some ((took (zt 1) 514).1, (took (zt 3) 515).2) ∧ isSet (zt 1) TXN_STAT.EDIT = false ∧
    isSet (zt 1) TXN_STAT.SYSTEM = false ∧ (zt 1).txn.isUndo = false ∧ (zt 1).txn.prepOp = none ∧ (zt 1).txn.commitOp = none ∧
    isSet undoable TXN_STAT.UNDO_OK = true ∧ undoable.txn.undoPersist = false ∧
    opTake (noted undoable rqS 3) rqS 517 = some ((took undoable 517).1, (took undoable 517).2) ∧
    pidMatches (applyStaged (undoTxn (took undoable 517).2 rqS (took undoable 517).1)) = true ∧ (zsys 1).zcp.ops.length = 8 ∧
    Heard (zsys 1) Mode.stop rqS 3 ∧ (2 = 2 ∨ 2 = 3) ∧ isSet (zsys 1) SYS_FLAGS.STN_CONFLICT = false ∧
    getF (zsys 1) TXN_STAT.STATE = 1 ∧ isSet (zsys 1) TXN_STAT.SYSTEM = true ∧ getF (zsys 1) TXN_ID.ID = 4 * 2 ^ 24 + 5 ∧
    (4 * 2 ^ 24 + 5) / 2 ^ 24 = ownStn (zsys 1) ∧ 999999999 < 1000000000 ∧
    (zsys 1).time.tai + 2 * max 1 (getF (zsys 1) TXN_CFG.GUARD) * 1000000 * nsUnit ≤ taiOf (fullSec (zsys 1) soon) 999999999 ∧
    opTake (noted (zsys 1) rqS 3) rqS 518 = some ((took (zsys 1) 518).1, (took (zsys 1) 518).2) ∧
    (∀ d ∈ (zsys 1).txn.sysDone, d.2.1 ≠ 4 * 2 ^ 24 + 5) ∧ taiAhead (zsys 1) soon 999999999 = true ∧
    prepCheck (noted (zsys 1) rqS 3) = 0 ∧ isSet (zsys 1) TXN_STAT.PERSIST = false ∧ (zsys 3).zcp.ops.length = 8 ∧
    Heard (zsys 3) Mode.stop rqS 3 ∧ isSet (zsys 3) TXN_STAT.SYSTEM = true ∧ getF (zsys 3) TXN_ID.ID = 4 * 2 ^ 24 + 5 ∧
    getF (zsys 3) TXN_STAT.STATE = 3 ∧ isSet (zsys 1) TXN_STAT.EDIT = false ∧ (zsys 1).txn.isUndo = false ∧
    (zsys 1).txn.prepOp = none ∧ (zsys 1).txn.commitOp = none ∧ (zsys 1).txn.report = none ∧ (zsys 1).txn.coord = none ∧
    (521, 4 * 2 ^ 24 + 5, 0) ∉ (zsys 1).txn.sysDone ∧ coordS.zcp.ops.length = 8 ∧ Heard coordS Mode.stop rqS 3 ∧
    coordS.txn.coord = some (5, 2, 3, 4, 5) ∧ (5, 2, 3, 4, 5).1 = 5 ∧ 255 ∈ others coordS ∧ coordS.txn.coordGot = [] ∧
    coordS.txn.coordOwn = 0 ∧ 255 < 256 ∧ (zs Mode.run []).zcp.ops.length = 8 ∧ Heard (zs Mode.run []) Mode.run rqS 3 ∧
    isSet (zs Mode.run []) TXN_STAT.STATE = false ∧ (zs Mode.run []).sby.streaming = false ∧
    isSet (zs Mode.run []) TRC_CTRL.EN = false ∧ editing.zcp.ops.length = 8 ∧ Heard editing Mode.runEdit rqS 3 ∧
    getF editing TXN_STAT.STATE = 1 ∧ isSet editing TXN_STAT.EDIT = true ∧ ownsTxn editing rqS.session true = true ∧
    getF editing EDT_STAT.COPY = 2 ∧ legal8.length = 8 ∧ 65535 < 65536 ∧
    bundleIllegal (List.map (fun x => BitVec.toNat x) legal8) = false ∧ idZero editing (1 - getF editing CORE_BANK.ACTIVE) = false ∧
    getF editing EDT_CNT.NEWVAR ≤ 16 := by
  refine ⟨?_, ?_, ?_, ?_, ?_, ?_, ?_, ?_, ?_, ?_, ?_, ?_, ?_, ?_, ?_, ?_, ?_, ?_, ?_, ?_, ?_, ?_, ?_, ?_, ?_, ?_, ?_, ?_, ?_, ?_, ?_, ?_, ?_, ?_, ?_, ?_, ?_, ?_, ?_, ?_, ?_, ?_, ?_, ?_, ?_, ?_, ?_, ?_, ?_, ?_, ?_, ?_, ?_, ?_, ?_, ?_, ?_, ?_, ?_, ?_, ?_, ?_, ?_, ?_, ?_, ?_, ?_, ?_, ?_, ?_, ?_, ?_, ?_, ?_, ?_, ?_, ?_, ?_, ?_, ?_⟩ <;> first | decide +kernel | (unfold Heard; decide +kernel)

theorem test_hyps_zcp_long_operations :
    (zs Mode.run []).zcp.ops.length = 8 ∧ Heard (zs Mode.run []) Mode.run rqS 3 ∧ (zs Mode.run []).ms.modeOp = none ∧
    opTake (noted (zs Mode.run []) rqS 3) rqS 1280 = some ((took (zs Mode.run []) 1280).1, (took (zs Mode.run []) 1280).2) ∧
    handZ.zcp.ops.length = 8 ∧ Heard handZ Mode.run rqS 3 ∧
    opTake (noted handZ rqS 3) rqS 1281 = some ((took handZ 1281).1, (took handZ 1281).2) ∧ handZ.sby.present = true ∧
    getF handZ SBY_STAT.PMODE = 8 ∧ isSet handZ SBY_STAT.SYNC = true ∧ handZ.sby.handover = none ∧
    (zs Mode.stop []).zcp.ops.length = 8 ∧ Heard (zs Mode.stop []) Mode.stop rqS 3 ∧ 65535 < 65536 ∧ 2 ^ 32 - 1 < 2 ^ 32 ∧
    999999999 < 1000000000 ∧
    stepAllowed (zs Mode.stop []) ((Int.ofNat (taiOf (65535 * 2 ^ 32 + (2 ^ 32 - 1)) 999999999) - Int.ofNat (zs Mode.stop
      []).time.tai).natAbs / nsUnit) = true ∧ 4 ≤ 4 ∧ 4 ≤ 12 ∧ (zs Mode.stop []).ms.demandTest = none ∧
    opTake (noted (zs Mode.stop []) rqS 3) rqS 2048 = some ((took (zs Mode.stop []) 2048).1, (took (zs Mode.stop []) 2048).2) ∧
    stSkip (took (zs Mode.stop []) 2048).2 4 = false ∧ (zs Mode.stop []).ms.resetSrc = [] ∧ nvS.zcp.ops.length = 8 ∧
    Heard nvS Mode.stop rqS 3 ∧ nvS.nv.holder = none ∧ nvS.nv.waiting = [] ∧ nvS.ms.wakeReload = false ∧ norAbsent nvS = false ∧
    0 < 1024 ∧ 1024 ≤ 1024 ∧ 14680064 + 1024 ≤ getF nvS NVS_SIZE.BYTES ∧ touches 14680064 1024 131072 131072 = false ∧
    touches 14680064 1024 3145728 8388608 = false ∧ 14680064 % 65536 = 0 ∧ 14680064 + 65536 ≤ getF nvS NVS_SIZE.BYTES ∧
    deviceOwned 14680064 65536 = false ∧ neverWritten 14680064 65536 = false ∧ touchesSlot 0 14680064 65536 = false ∧
    touchesSlot 1 14680064 65536 = false ∧ opTake (noted nvS rqS 3) rqS 1537 = some ((took nvS 1537).1, (took nvS 1537).2) ∧
    0 < (List.replicate 256 5).length ∧ 14680064 % 256 + (List.replicate 256 5).length ≤ 256 ∧
    14680064 + (List.replicate 256 5).length ≤ getF nvS NVS_SIZE.BYTES ∧
    deviceOwned 14680064 (List.replicate 256 5).length = false ∧ neverWritten 14680064 (List.replicate 256 5).length = false ∧
    touchesSlot 0 14680064 (List.replicate 256 5).length = false ∧ touchesSlot 1 14680064 (List.replicate 256 5).length = false ∧
    0 < 2 ∧ 8388608 ≤ 8388608 ∧ getF nvS NVS_STAT.BOOTSLOT ≠ 0 ∧
    opTake
      { (noted nvS rqS 3) with zcp := { ((noted nvS rqS 3).zcp) with imgOpen := some (0, 8388608, 5, newGen (noted nvS rqS 3)) } }
      rqS 1539 = some ((tookOpen 0).1, (tookOpen 0).2) ∧ imaging.zcp.ops.length = 8 ∧ Heard imaging Mode.stop rqS 3 ∧
    imaging.nv.holder = none ∧ imaging.nv.waiting = [] ∧ imaging.ms.wakeReload = false ∧ norAbsent imaging = false ∧
    imaging.zcp.imgOpen = some (1, 4, crc32 (norBytes nvS (slotBase 1) 4), 8) ∧ 0 < [1, 2].length ∧ [1, 2].length ≤ 1024 ∧
    2 + [1, 2].length ≤ 4 ∧ crc32 (norBytes imaging (slotBase 1) 4) = crc32 (norBytes nvS (slotBase 1) 4) ∧
    opTake (noted imaging rqS 3) rqS 1541 = some ((took imaging 1541).1, (took imaging 1541).2) ∧
    (savedImage (noted nvS rqS 3)).length ≤ 8388608 ∧
    opTake (noted nvS rqS 3) rqS 1542 = some ((took nvS 1537).1, (took nvS 1542).2) := by
  refine ⟨?_, ?_, ?_, ?_, ?_, ?_, ?_, ?_, ?_, ?_, ?_, ?_, ?_, ?_, ?_, ?_, ?_, ?_, ?_, ?_, ?_, ?_, ?_, ?_, ?_, ?_, ?_, ?_, ?_, ?_, ?_, ?_, ?_, ?_, ?_, ?_, ?_, ?_, ?_, ?_, ?_, ?_, ?_, ?_, ?_, ?_, ?_, ?_, ?_, ?_, ?_, ?_, ?_, ?_, ?_, ?_, ?_, ?_, ?_, ?_, ?_, ?_, ?_, ?_, ?_, ?_⟩ <;> first | decide +kernel | (unfold Heard; decide +kernel)

theorem test_hyps_nv_interface :
    nvWait.nv.holder = none ∧ nvWait.ms.wakeReload = false ∧ nvWait.nv.waiting = [jobD 3 [NvStep.program 256 [1, 2]]] ∧
    (jobD 3 [NvStep.program 256 [1, 2]]).rank < 7 ∧ (jobD 3 [NvStep.program 256 [1, 2]]).rank ≠ 4 ∧
    (jobD 3 [NvStep.program 256 [1, 2]]).rank ≠ 5 ∧ (jobD 3 [NvStep.program 256 [1, 2]]).steps = [NvStep.program 256 [1, 2]] ∧
    nvHeld.nv.holder = some (jobD 3 [NvStep.program 14680064 [1, 2]]) ∧ (jobD 3 [NvStep.program 14680064 [1, 2]]).op = none ∧
    (jobD 3 [NvStep.program 14680064 [1, 2]]).reply = none ∧ (jobD 3 [NvStep.program 14680064 [1, 2]]).aborted = false ∧
    (jobD 3 [NvStep.program 14680064 [1, 2]]).opcode = 0 ∧
    (jobD 3 [NvStep.program 14680064 [1, 2]]).steps = [NvStep.program 14680064 [1, 2]] ∧
    (∀ k < [1, 2].length, norByte nvHeld (14680064 + k) = 255) ∧ (jobD 3 [NvStep.program 14680064 [1, 2]]).rank ≠ 2 ∧
    getF nvHeld NVS_CNT.FAIL + 1 < 2 ^ NVS_CNT.FAIL.w ∧ norAbsent journaled = false ∧ absent journaled = false ∧
    nvHas journaled 4 = false ∧ journalSteps journaled ≠ [] ∧ journaled.nv.holder = none ∧ journaled.ms.wakeReload = false ∧
    journaled.nv.waiting = [] ∧ norAbsent journaledHeld = false ∧ absent journaledHeld = false ∧ nvHas journaledHeld 4 = false ∧
    journalSteps journaledHeld ≠ [] ∧ journaledHeld.nv.holder ≠ none ∧ norAbsent mirroring = false ∧
    isSet mirroring NVS_RETCFG.MIRROR_EN = true ∧ mirroring.mode = Mode.stop ∧ mirroring.nv.holder = none ∧
    mirroring.ms.wakeReload = false ∧ mirroring.nv.waiting = [] ∧ recordOf nvWait 0 = none ∧ recordOf nvWait 1 = none ∧
    recordOf (norOne 0) 0 = some (nr 5) ∧ recordOf (norOne 0) 1 = none ∧ recordOf (norOne 1) 0 = none ∧
    recordOf (norOne 1) 1 = some (nr 5) ∧ recordOf (recorded 5 5) 0 = some (nr 5) ∧ recordOf (recorded 5 5) 1 = some (nr 5) ∧
    (nr 5).gen = (nr 5).gen ∧ recordOf (recorded 4294967295 2) 0 = some (nr 4294967295) ∧
    recordOf (recorded 4294967295 2) 1 = some (nr 2) ∧ 0 < 3 ∧ 3 < 2 ^ 31 ∧
    (nr 2).gen % 2 ^ 32 = ((nr 4294967295).gen + 3) % 2 ^ 32 ∧ recordOf (recorded 2 4294967295) 0 = some (nr 2) ∧
    recordOf (recorded 2 4294967295) 1 = some (nr 4294967295) := by
  refine ⟨?_, ?_, ?_, ?_, ?_, ?_, ?_, ?_, ?_, ?_, ?_, ?_, ?_, ?_, ?_, ?_, ?_, ?_, ?_, ?_, ?_, ?_, ?_, ?_, ?_, ?_, ?_, ?_, ?_, ?_, ?_, ?_, ?_, ?_, ?_, ?_, ?_, ?_, ?_, ?_, ?_, ?_, ?_, ?_, ?_, ?_, ?_, ?_, ?_, ?_⟩ <;> decide +kernel

theorem test_hyps_host_port :
    absent off = true ∧ 0 ∉ [2, 3, 5, 16, 17] ∧ absent (hostS []) = false ∧
    (∀ j < 1, hostRead (hostS []) (SYS_SCRUB.EN.addr + 4 * j) = (0, (fun _ => (hostRead (hostS []) SYS_SCRUB.EN.addr).2.1) j, hostS
      [])) ∧ 8388604 % 4 = 0 ∧ placeOf 8388604 = Place.none ∧ (hostS []).zcp.queue.length < 16 ∧ (hostS []).zcp.spiQueue = [] ∧
    absent queued = false ∧ queued.zcp.spiQueue = [[1], [2], [3]] ∧ (∀ k < 8, (opSlot queued k).noticeWaits = false) ∧
    255 ∉ [2, 3, 5, 16, 17] ∧
    hostRead (tapSelect (hostS []) TapIr.dbgreg none false false) SYS_SCRUB.EN.addr = (0, (hostRead (hostS [])
      SYS_SCRUB.EN.addr).2.1, tapSelect (hostS []) TapIr.dbgreg none false false) ∧ domOn (hostS []) 1 = true ∧ 524289 % 4 ≠ 0 ∧
    524289 < 2 ^ 32 := by
  refine ⟨?_, ?_, ?_, ?_, ?_, ?_, ?_, ?_, ?_, ?_, ?_, ?_, ?_, ?_, ?_, ?_⟩ <;> decide +kernel

theorem test_hyps_register_access :
    absent (scanned []) = false ∧ domOn (scanned []) 1 = true ∧ SYS_SCRUB.CORR_OVF ∈ [SYS_SCRUB.CORR_OVF, SYS_SCRUB.UNCORR_OVF] ∧
    getF (scanned []) SYS_SCRUB.CORR_OVF < 2 ∧ 7 < 8 ∧ domOn (scanned []) (regDomain (SCN_TCFG.EN 7).addr) = true ∧
    SCN_TCFG.EN 7 ∈ [SCN_TCFG.EN 7, SCN_TCFG.ENTRY 7, SCN_TCFG.TRIG 7] ∧ isSet (scanned []) TXN_STAT.STATE = false ∧
    absent stagingS = false ∧ domOn stagingS 1 = true ∧ domOn stagingS (regDomain (SCN_TCFG.EN 7).addr) = true ∧
    getF stagingS TXN_STAT.STATE = 1 ∧ isSet stagingS TXN_STAT.OWNER_SPI = true ∧
    SYS_SCRUBCNT.CORR ∈ [SYS_SCRUBCNT.CORR, SYS_SCRUBCNT.UNCORR, SYS_WAKESRC.SRC] ∧ MON_EXT.TMAX ∈ [MON_EXT.TMAX, MON_EXT.TMIN] ∧
    domOn (scanned []) (regDomain MON_EXT.TMAX.addr) = true ∧ domOn (scanned []) (regDomain CORE_CYC_HI.CYC.addr) = true ∧
    domOn (scanned []) (regDomain (SCN_SCANHI.SCAN 7).addr) = true := by
  refine ⟨?_, ?_, ?_, ?_, ?_, ?_, ?_, ?_, ?_, ?_, ?_, ?_, ?_, ?_, ?_, ?_, ?_, ?_⟩ <;> decide +kernel

theorem test_hyps_memories_and_trace :
    absent (memS Mode.stop []) = false ∧ (memS Mode.stop []).sp.upsets = [] ∧ 524287 < 524288 ∧ domOn (memS Mode.stop []) 5 = true ∧
    testing (memS Mode.stop []) 2 = false ∧ (memS Mode.stop []).mode = Mode.stop ∧ (memS Mode.stop []).sby.streaming = false ∧
    (memS Mode.stop []).sp.written = [] ∧ (memS Mode.stop []).sp.hostStage = some (524287, 4294967295) ∧ 4194300 < 4194304 ∧
    4194300 % 4 = 0 ∧ domOn (memS Mode.stop []) 4 = true ∧ testing (memS Mode.stop []) 0 = false ∧
    absent (memS Mode.run []) = false ∧ (memS Mode.run []).sp.upsets = [] ∧ domOn (memS Mode.run []) 4 = true ∧
    testing (memS Mode.run []) 0 = false ∧ (memS Mode.run []).mode ≠ Mode.stop ∧ domOn (memS Mode.stop []) 11 = true ∧
    absent (traceS 3 [(TRC_CTRL.SINK, 1)]) = false ∧ (traceS 3 [(TRC_CTRL.SINK, 1)]).sp.upsets = [] ∧
    domOn (traceS 3 [(TRC_CTRL.SINK, 1)]) 11 = true ∧ (traceS 3 [(TRC_CTRL.SINK, 1)]).trc.fifo = [1, 2] ∧
    ((traceS 3 [(TRC_CTRL.SINK, 1)]).trc.wait ≠ 0 ∨ getF (traceS 3 [(TRC_CTRL.SINK, 1)]) TRC_CTRL.SINK = 0 ∨ getF (traceS 3
      [(TRC_CTRL.SINK, 1)]) TRC_CTRL.SINK = 1 ∧ isSet (traceS 3 [(TRC_CTRL.SINK, 1)]) TRC_STAT.FULL = true) ∧
    absent (traceS 0 [(TRC_CTRL.SINK, 2)]) = false ∧ (traceS 0 [(TRC_CTRL.SINK, 2)]).sp.upsets = [] ∧
    domOn (traceS 0 [(TRC_CTRL.SINK, 2)]) 11 = true ∧ (traceS 0 [(TRC_CTRL.SINK, 2)]).trc.fifo = [1, 2] ∧
    (traceS 0 [(TRC_CTRL.SINK, 2)]).trc.wait = 0 ∧
    (getF (traceS 0 [(TRC_CTRL.SINK, 2)]) TRC_CTRL.SINK = 2 ∨ getF (traceS 0 [(TRC_CTRL.SINK, 2)]) TRC_CTRL.SINK = 3 ∧ isSet (traceS
      0 [(TRC_CTRL.SINK, 2)]) TRC_STAT.FULL = true) ∧ absent (traceS 0 []) = false ∧ (traceS 0 []).sp.upsets = [] ∧
    domOn (traceS 0 []) 11 = true ∧ (traceS 0 []).trc.fifo = [1, 2] ∧ (traceS 0 []).trc.wait = 0 ∧
    getF (traceS 0 []) TRC_CTRL.SINK % 2 = 1 ∧ isSet (traceS 0 []) TRC_STAT.FULL = false ∧ getF (traceS 0 []) TRC_WPTR.IDX < 16383 ∧
    scrubMem MemId.words = some (3, 524288) ∧ scrubRuns (memS Mode.stop []) = true ∧
    scrubFree (memS Mode.stop []) MemId.words 3 = true ∧ (memS Mode.stop []).ms.scrubPos.length = 7 ∧
    nth 0 (memS Mode.stop []).ms.scrubPos 3 + 1 < 524288 ∧ isSet (memS Mode.stop []) CORE_ECCCTL.CORR_EVT = false ∧
    getF (memS Mode.stop []) SYS_SCRUBCNT.CORR + 1 < 2 ^ SYS_SCRUBCNT.CORR.w ∧ MemId.words = MemId.words ∧
    getF (memS Mode.stop []) SYS_SCRUBCNT.UNCORR + 1 < 2 ^ SYS_SCRUBCNT.UNCORR.w ∧ absent scrubS = false ∧ scrubS.sp.upsets = [] ∧
    (MemId.bits, 5) ∉ scrubS.sp.writeBack ∧ absent memHeld = false ∧ memHeld.sp.upsets = [] ∧ wordsHeld memHeld = true ∧
    (MemId.words, 5) ∈ (memS Mode.stop []).sp.writeBack ∧ (MemId.words ≠ MemId.words ∨ wordsHeld (memS Mode.stop []) = false) := by
  refine ⟨?_, ?_, ?_, ?_, ?_, ?_, ?_, ?_, ?_, ?_, ?_, ?_, ?_, ?_, ?_, ?_, ?_, ?_, ?_, ?_, ?_, ?_, ?_, ?_, ?_, ?_, ?_, ?_, ?_, ?_, ?_, ?_, ?_, ?_, ?_, ?_, ?_, ?_, ?_, ?_, ?_, ?_, ?_, ?_, ?_, ?_, ?_, ?_, ?_, ?_, ?_, ?_, ?_, ?_, ?_⟩ <;> decide +kernel

/-! ## Words, memories and steps -/

/-- The table gives no row bits: no word spells a command. -/
theorem test_no_words : decodeTableWord 16 0 = none ∧ decodeTableWord 32 0xFFFFFFFF = none ∧ (w.withFetchWord 16 5).pending = [] := by
  decide +kernel

theorem test_reset_memory : Memory.wf State.reset.sp = true := by decide +kernel

/-- Writing what an unlisted address reads as removes the entry. -/
theorem test_canonical : (putWord (putWord w 5 (mkT 3 7)) 5 TWord.empty).sp.words = [] ∧
    (putWord (putWord w 5 (mkT 3 7)) 2 (mkT 4 1)).sp.words = [(2, mkT 4 1), (5, mkT 3 7)] := by decide +kernel

/-! ## Effects worked out by hand -/

def after (o : Host.Outcome State Fault Refusal) : State := match o with
  | .next t => t
  | _ => State.reset
def res (s : State) (u i : Nat) : TWord := getCtx s (resKey o0.task u i)

/-- Table 6.2: UINT32 wraps with CARRY, INT32 with OVF, FIX16 saturates. FLAGS has CARRY in bit 0 and OVF in bit 1. -/
theorem test_alu_add : res (after (exec (.aluAdd o0 2 ⟨3, 1⟩) (alu 3 0xFFFFFFFF))) 2 0 = ⟨3, 0⟩ ∧
    res (after (exec (.aluAdd o0 2 ⟨4, 1⟩) (alu 4 0x7FFFFFFF))) 2 0 = ⟨4, 0x7FFFFFFF⟩ := by decide +kernel

theorem test_alu_sub : res (after (exec (.aluSub o0 2 ⟨2, 1⟩) (alu 2 0x80000000))) 2 0 = ⟨2, 0x7FFFFFFF⟩ ∧
    res (after (exec (.aluSub o0 2 ⟨4, 1⟩) (alu 4 0x80000000))) 2 0 = ⟨4, 0x80000000⟩ := by decide +kernel

/-- Table 6.2: SHR of INT32 is arithmetic; the count is taken modulo 32. -/
theorem test_alu_shr : res (after (exec (.aluShr o0 2 ⟨3, 33⟩) (alu 2 0x80000000))) 2 0 = ⟨2, 0xC0000000⟩ ∧
    res (after (exec (.aluShr o0 2 ⟨3, 4⟩) (alu 3 0x80000000))) 2 0 = ⟨3, 0x08000000⟩ := by decide +kernel

/-- Table 6.8: LT compares INT32 signed and UINT32 unsigned. -/
theorem test_bru_lt : nth false (after (exec (.bruLt o0 11 ⟨2, 1⟩) (opd w 11 [(0, ⟨2, 0xFFFFFFFF⟩)]))).core.cc 2 = true ∧
    nth false (after (exec (.bruLt o0 11 ⟨3, 1⟩) (opd w 11 [(0, ⟨3, 0xFFFFFFFF⟩)]))).core.cc 2 = false := by decide +kernel

/-- R487, R488: the last second of 2399 is followed by Saturday 2000-01-01. -/
theorem test_cal_wrap : getF (after (exec (.calSecondTick 0) lastSecond)) CAL_DATE.YEAR = 0x2000 ∧
    getF (after (exec (.calSecondTick 0) lastSecond)) CAL_TIME.WDAY = 6 := by decide +kernel

/-- R591: a misaligned read of the host port answers ones. -/
theorem test_spi_misaligned : (after (exec (.spiRead 0x40000002 1) (hostS []))).pins.miso = [0xFF, 0xFF, 0xFF, 0xFF] := by decide +kernel

/-- R384: above 255 the transmit error counter takes the controller to bus-off. -/
theorem test_can_bus_off : getF (after (exec (.canError 1 256 0) (bus []))) (CAN_STAT.ERRSTATE 1) = 3 ∧
    getF (after (exec (.canError 1 255 0) (bus []))) (CAN_STAT.ERRSTATE 1) = 2 := by decide +kernel

/-- R562: 50 ns resets, 19 ns does not. -/
theorem test_reset_pin : (after (exec (.resetPin 50) w)).mode = .reset ∧ (after (exec (.resetPin 19) w)).mode = .run := by decide +kernel

/-- R20: a unit with the own number has been heard. -/
theorem test_announce : getF (after (exec (.zcpAnnounce rqNew 0 0 0 0 0 0) (zs .stop []))) SYS_FLAGS.STN_CONFLICT =
    (if ownStn w = 0 ∧ getF w SYS_STATION.SYSTEM_ID = 0 then 1 else 0) := by decide +kernel

/-- R417: below 17.0 V no output is driven. -/
theorem test_field_uv : (c7 (after (exec (.fieldUvChange 7 16999) (cpnS fun c => { onA c with driven := [true, true, true, true] })))).driven =
    [false, false, false, false] := by decide +kernel

/-- The worked case of chapter 4 (Table 4.5): task T0 at bundle B0. -/
def b0 : List Word := [0x7801140C, 0x00000105, 0x7801144C, 0x00040020, 0x7801150C, 0x00000106, 0xF8000000, 0xF8000000]
def b1 : List Word := [0x24014103, 0x23020800] ++ List.replicate 6 0xF8000000
def b2 : List Word := 0x7B030900 :: List.replicate 7 0xF8000000
def tripCase (b : Bool) : State :=
  let s := updTask (ws [(CORE_GAL.ADDR 4, 0x40020)]) 0 fun k => { k with st := .running }
  let s := setHold (setHold s 0 2 (mkT 3 100)) 0 3 (mkT 3 23)
  { s with core := { s.core with gal := s.core.gal.set 0 ((nth [] s.core.gal 0).set 4 0x40020), bankA := ((b0 ++ b1 ++ b2).zipIdx.map fun p => (p.2, p.1)).filter fun p => p.2 != 0 }
           sp := { s.sp with planeB := if b then [(planeKeyB 0 0x105, true), (planeKeyB 0 0x106, true)] else [(planeKeyB 0 0x105, true)] } }

/-- The worked case: B0 writes the flag with the AND of the two input bits. -/
theorem test_worked_case : rawBit (after (exec (.bundleIssue false) (tripCase true))) 0x40020 = true ∧
    rawBit (after (exec (.bundleIssue false) (tripCase false))) 0x40020 = false := by decide +kernel

/-! ## Frames of the field link -/

def dn0 : DnFrame :=
  { epoch := 0xFFFF, stn := 0xFF, safe := true, outcmd := 15, mop := 3, mtag := 255, maddr := 0xFFFC, mdata := 0xFFFFFFFF,
    frameNo := 0xFFFFFFFF }

/-- The hypotheses of FieldFrames at the top of each range, and a bit of each end. -/
theorem test_hyps_field_frames : dn0.epoch < 2 ^ 16 ∧ dn0.stn < 2 ^ 8 ∧ dn0.outcmd < 16 ∧ dn0.mop < 4 ∧ dn0.mtag < 256 ∧
    dn0.maddr < 2 ^ 16 ∧ dn0.mdata < 2 ^ 32 ∧ dn0.frameNo < 2 ^ 32 ∧ 127 < 128 ∧ 0 < 128 ∧ 15 < 16 ∧ 255 < 256 := by decide

/-- The published check values of the two polynomials of R403 and R408 over the nine digits (the second without its inversion). -/
theorem test_crc_check_values :
    crc16 (([0x31, 0x32, 0x33, 0x34, 0x35, 0x36, 0x37, 0x38, 0x39] : List Nat).map (BitVec.ofNat 8)) = 0xD0DB ∧
    crc8 (([0x31, 0x32, 0x33, 0x34, 0x35, 0x36, 0x37, 0x38, 0x39] : List Nat).map (BitVec.ofNat 8)) = 0x20 := by decide +kernel

/-- Table 14.1 by hand: EPOCH 1, STN 2, SAFE, OUT0 on, a command with tag 3 to offset 4. -/
theorem test_dn_bits :
    dnBits { epoch := 1, stn := 2, safe := true, outcmd := 1, mop := 3, mtag := 3, maddr := 4, mdata := 5, frameNo := 6 } =
      0x000102801C0300040000000500000006 := by decide +kernel

end Sys2Proof.Tests
end

section
/-! SUPPORT. One reasoning rule per operation on registers: which fields a run of register operations may change, and what a
register write, a read with effects, a refusal and a staging leave behind. -/

namespace Sys2Proof.Machine

open Reg

/-! ## States that differ in listed fields only -/

theorem onlyRegs_refl (ks : List Fld) (s : State) : OnlyRegs ks s s := ⟨fun _ _ => rfl, rfl⟩

/-- The fields that two operations in a row may change are those of either. -/
theorem OnlyRegs.append {ks ls : List Fld} {s t u : State} (h : OnlyRegs ks s t) (h' : OnlyRegs ls t u) :
    OnlyRegs (ks ++ ls) s u := by
  obtain ⟨hst, est⟩ := h
  obtain ⟨htu, etu⟩ := h'
  refine ⟨fun f hf => ?_, by rw [etu, est]⟩
  rw [List.map_append, List.mem_append, not_or] at hf
  exact (htu f hf.2).trans (hst f hf.1)

theorem OnlyRegs.mono {ks ls : List Fld} {s t : State} (h : OnlyRegs ks s t) (hk : ks ⊆ ls) : OnlyRegs ls s t :=
  ⟨fun f hf => h.1 f fun hm => hf (List.map_subset _ hk hm), h.2⟩

theorem onlyRegs_setF (s : State) (f : Fld) (v : Nat) : OnlyRegs [f] s (setF s f v) :=
  ⟨fun _ hg => getF_setF_ne s v fun e => hg (by simp [e]), rfl⟩

theorem onlyRegs_setFs (s : State) (l : List (Fld × Nat)) : OnlyRegs (l.map Prod.fst) s (setFs s l) := by
  induction l generalizing s with
  | nil => exact onlyRegs_refl _ _
  | cons p l ih => exact (onlyRegs_setF s p.1 p.2).append (ih _)

/-- A pass over a list of fields that touches one field at a time changes no field outside the list. -/
theorem onlyRegs_foldl {op : State → Fld → State} (hop : ∀ s f, OnlyRegs [f] s (op s f)) (fs : List Fld) (s : State) :
    OnlyRegs fs s (fs.foldl op s) := by
  induction fs generalizing s with
  | nil => exact onlyRegs_refl _ _
  | cons f fs ih => exact (hop s f).append (ih _)

/-- In such a pass over fields with different keys, each field is touched once: it ends with what its own turn makes of its old
value. -/
theorem getF_foldl_of_mem {op : State → Fld → State} (hop : ∀ s f, OnlyRegs [f] s (op s f)) {f : Fld} {new : Nat → Nat}
    (hnew : ∀ s, getF (op s f) f = new (getF s f)) {fs : List Fld} (hf : f ∈ fs) (hfs : (fs.map Fld.key).Nodup) (s : State) :
    getF (fs.foldl op s) f = new (getF s f) := by
  induction fs generalizing s with
  | nil => cases hf
  | cons x fs ih =>
    obtain ⟨hx, hfs⟩ := List.nodup_cons.mp hfs
    rw [List.foldl_cons]
    rcases List.mem_cons.mp hf with rfl | hf
    · rw [(onlyRegs_foldl hop fs _).1 f hx, hnew]
    · have hne : f.key ≠ x.key := fun e => hx (e ▸ List.mem_map_of_mem hf)
      rw [ih hf hfs, (hop s x).1 f (by simpa using hne)]

/-! ## The register map -/

/-- A row of the map as chapter 21 lays registers out: fields begin inside the 32 bits, at different bits. -/
def RegRow.fits (r : RegRow) : Bool := r.flds.all (fun f => decide (f.lo < 32)) && decide ((r.flds.map Fld.lo).Nodup)

theorem regBlockRows_fits (a : Nat) : (regBlockRows a).all RegRow.fits = true := by
  unfold regBlockRows
  split <;> decide +kernel

theorem mem_of_findRow {rs : List RegRow} {a : Nat} {p : RegRow × Nat} (h : findRow rs a = some p) : p.1 ∈ rs := by
  induction rs with
  | nil => cases h
  | cons r rs ih =>
    unfold findRow at h
    split at h
    · cases h; exact List.mem_cons_self
    · exact List.mem_cons_of_mem _ (ih h)

/-- The fields of a register are the fields of a row of the map, moved to the register's address. -/
theorem regFields_eq_some {a : Nat} {fs : List Fld} (h : regFields a = some fs) :
    ∃ r ∈ regBlockRows a, ∃ rst : Fld → Nat, fs = r.flds.map fun f => { f with addr := a, rst := rst f } := by
  unfold regFields at h
  split at h
  · rename_i r i hr
    cases h
    exact ⟨r, mem_of_findRow hr, _, rfl⟩
  · cases h

theorem fits_of_mem {a : Nat} {r : RegRow} (h : r ∈ regBlockRows a) :
    (∀ f ∈ r.flds, f.lo < 32) ∧ (r.flds.map Fld.lo).Nodup := by
  have := List.all_eq_true.mp (regBlockRows_fits a) r h
  simpa [RegRow.fits] using this

theorem regFields_addr_lo {a : Nat} {f : Fld} (hf : f ∈ (regFields a).getD []) : f.addr = a ∧ f.lo < 32 := by
  cases h : regFields a with
  | none => simp [h] at hf
  | some fs =>
    obtain ⟨r, hr, rst, rfl⟩ := regFields_eq_some h
    rw [h, Option.getD_some] at hf
    obtain ⟨x, hx, rfl⟩ := List.mem_map.mp hf
    exact ⟨rfl, (fits_of_mem hr).1 x hx⟩

theorem regFields_keys_nodup (a : Nat) : (((regFields a).getD []).map Fld.key).Nodup := by
  cases h : regFields a with
  | none => exact List.nodup_nil
  | some fs =>
    obtain ⟨r, hr, rst, rfl⟩ := regFields_eq_some h
    have : (((r.flds.map Fld.lo).map fun lo => a * 32 + lo)).Nodup := (fits_of_mem hr).2.map fun _ _ e => Nat.add_left_cancel e
    simpa [Function.comp_def, Fld.key] using this

/-- What changes only fields of one register leaves every field of every other register. -/
theorem OnlyRegs.getF_of_addr_ne {a : Nat} {s t : State} (h : OnlyRegs ((regFields a).getD []) s t) {g : Fld} (hlo : g.lo < 32)
    (hg : g.addr ≠ a) : getF t g = getF s g := by
  refine h.1 g fun hm => ?_
  obtain ⟨f, hf, hk⟩ := List.mem_map.mp hm
  obtain ⟨ha, hf⟩ := regFields_addr_lo hf
  unfold Fld.key at hk
  omega

/-! ## A write of the plain fields of a register (R3) -/

/-- What a plain write makes of a field: an RW field its bits, a W1C field what is left of it (Table 0.3). -/
def plainNew (f : Fld) (v old : Nat) : Nat :=
  match f.acc with
  | .rw => bitsOf v f.lo f.w
  | .w1c => old &&& (2 ^ f.w - 1 - bitsOf v f.lo f.w)
  | _ => old

/-- The turn of one field in `writePlain`. -/
def writeFld (v : Nat) (s : State) (f : Fld) : State :=
  if ownRule f then s
  else match f.acc with
    | .rw => setF s f (bitsOf v f.lo f.w)
    | .w1c => setF s f (getF s f &&& (2 ^ f.w - 1 - bitsOf v f.lo f.w))
    | _ => s

theorem writePlain_eq (s : State) (a v : Nat) : writePlain s a v = ((regFields a).getD []).foldl (writeFld v) s := rfl

theorem onlyRegs_writeFld (v : Nat) (s : State) (f : Fld) : OnlyRegs [f] s (writeFld v s f) := by
  unfold writeFld
  split
  · exact onlyRegs_refl _ _
  · split
    · exact onlyRegs_setF ..
    · exact onlyRegs_setF ..
    · exact onlyRegs_refl _ _

theorem getF_writeFld (v : Nat) (s : State) {f : Fld} (h : ownRule f = false) :
    getF (writeFld v s f) f = plainNew f v (getF s f) := by
  unfold writeFld plainNew
  rw [h, if_neg Bool.false_ne_true]
  cases f.acc with
  | rw => exact (getF_setF_self ..).trans (Nat.mod_mod ..)
  | w1c =>
    refine (getF_setF_self ..).trans (Nat.mod_eq_of_lt (Nat.and_lt_two_pow _ ?_))
    have := Nat.two_pow_pos f.w
    omega
  | ro | wo | rc | rwt => rfl

theorem writeFld_of_acc (v : Nat) (s : State) {f : Fld} (h : f.acc ≠ .rw) (h' : f.acc ≠ .w1c) : writeFld v s f = s := by
  unfold writeFld
  split
  · rfl
  · split
    · contradiction
    · contradiction
    · rfl

theorem onlyRegs_writePlain (s : State) (a v : Nat) : OnlyRegs ((regFields a).getD []) s (writePlain s a v) :=
  onlyRegs_foldl (onlyRegs_writeFld v) _ s

theorem getF_writePlain (s : State) (v : Nat) {a : Nat} {f : Fld} (hf : f ∈ (regFields a).getD []) (h : ownRule f = false) :
    getF (writePlain s a v) f = plainNew f v (getF s f) :=
  getF_foldl_of_mem (onlyRegs_writeFld v) (fun s => getF_writeFld v s h) hf (regFields_keys_nodup a) s

theorem writePlain_of_acc (s : State) (v : Nat) {a : Nat} (h : ∀ f ∈ (regFields a).getD [], f.acc ≠ .rw ∧ f.acc ≠ .w1c) :
    writePlain s a v = s := by
  rw [writePlain_eq]
  exact List.foldlRecOn _ _ (motive := (· = s)) rfl fun t ht f hf =>
    (writeFld_of_acc v t (h f hf).1 (h f hf).2).trans ht

theorem bitsOf_one (v i : Nat) : bitsOf v i 1 = if bitOf v i then 1 else 0 := by
  unfold bitsOf bitOf
  rcases Nat.mod_two_eq_zero_or_one (v / 2 ^ i) with h | h <;> simp [h]

theorem plainNew_w1c_bit (v old : Nat) {f : Fld} (hacc : f.acc = .w1c) (hw : f.w = 1) (h : old < 2) :
    plainNew f v old = if bitOf v f.lo then 0 else old := by
  simp only [plainNew, hacc, hw, bitsOf_one]
  split
  · exact Nat.and_zero old
  · exact (Nat.and_two_pow_sub_one_eq_mod old 1).trans (Nat.mod_eq_of_lt h)

/-! ## Writes with no effect beyond the plain fields -/

/-- A write of the register does what its fields' access codes say, whoever writes what, and no more. -/
def PlainWrite (a : Nat) : Prop := ∀ (s : State) (who v : Nat), writeNow s who a v = (0, writePlain s a v)

theorem plainWrite_of_hook {a : Nat} (ht : ∀ v, timRefused a v = false) (hc : a ≠ TRC_CTRL.EN.addr)
    (hh : ∀ s who v, writeHook s who a v = (0, s)) : PlainWrite a := fun s who v => by
  simp [writeNow, ht, hc, hh]

theorem timRefused_of_block {a : Nat} (h : a / 0x10000 ≠ 0x4001) (v : Nat) : timRefused a v = false := by
  have h1 : a ≠ TIM_CTRL.FORCE_SRC.addr := fun e => h (by rw [e]; rfl)
  have h2 : a ≠ TIM_UTC.TAI_UTC.addr := fun e => h (by rw [e]; rfl)
  have h3 : ¬(0x40010040 ≤ a ∧ a < 0x400100B0 ∧ a % 16 = 0) := by omega
  simp only [timRefused, if_neg h1, if_neg h2, if_neg h3]

/-- In the SYS block only the mode request and the access errors have a rule of their own (R76, R598). -/
theorem plainWrite_sys {a : Nat} (h : a / 0x10000 = 0x4000) (h1 : a ≠ SYS_MODECTL.REQ.addr) (h2 : a ≠ SYS_ACCERR.FLAGS.addr) :
    PlainWrite a := by
  refine plainWrite_of_hook (timRefused_of_block (by omega)) (fun e => absurd (e ▸ h) (by decide)) fun s who v => ?_
  simp [writeHook, h, h1, h2]

theorem plainWrite_timStepLim : PlainWrite TIM_STEP_LIM.LIM.addr :=
  plainWrite_of_hook (fun _ => rfl) (by decide) fun _ _ _ => rfl

/-- In the SCN block only the clear of the posted-write log has a rule of its own (R231). -/
theorem plainWrite_scn {a : Nat} (h : a / 0x10000 = 0x4004) (h1 : a ≠ SCN_PWCTL.CLR.addr) : PlainWrite a := by
  refine plainWrite_of_hook (timRefused_of_block (by omega)) (fun e => absurd (e ▸ h) (by decide)) fun s who v => ?_
  simp [writeHook, h, h1]

/-! ## Ordinary registers: assigned, and no window onto a table -/

/-- The address is that of an assigned register outside the windows of the decode table and of the rule banks. -/
def ordinaryReg (a : Nat) : Bool :=
  a % 4 == 0 && placeOf a == .reg && !(0x40030800 ≤ a && a < 0x40030C80) && !(0x40070040 ≤ a && a < 0x40070080)

theorem ordinaryReg_iff {a : Nat} : ordinaryReg a = true ↔ a % 4 = 0 ∧ placeOf a = .reg ∧
    ¬(0x40030800 ≤ a ∧ a < 0x40030C80) ∧ ¬(0x40070040 ≤ a ∧ a < 0x40070080) := by
  simp only [ordinaryReg, Bool.and_eq_true, Bool.not_eq_true', Bool.and_eq_false_iff, beq_iff_eq, decide_eq_false_iff_not,
    not_and_or, and_assoc]

theorem placeOf_eq_reg {a : Nat} (h : placeOf a = .reg) :
    0x40000000 ≤ a ∧ a < 0x40110000 ∧ (regFields a).isSome = true := by
  unfold placeOf at h
  split at h
  · cases h
  · split at h
    · dsimp only at h; split at h <;> cases h
    · split at h
      · cases h
      · split at h
        · assumption
        · cases h

/-- An access to a register that is on passes the steps of R594. -/
theorem accJudge_ordinary {s : State} {a : Nat} (h : ordinaryReg a = true) (hd : domOn s (regDomain a) = true) :
    accJudge s a = none := by
  obtain ⟨h4, hp, hw, -⟩ := ordinaryReg_iff.mp h
  have ht : placeTested s a = false := by
    simp only [placeTested, hp]
    simp only [not_and, not_lt] at hw
    by_cases hl : 0x40030800 ≤ a
    · simp [hw hl]
    · simp [hl]
  simp [accJudge, h4, hp, placeDomain, hd, ht]

theorem hostWrite_ordinary {s : State} {a : Nat} (h : ordinaryReg a = true) (hd : domOn s (regDomain a) = true) (v : Nat) :
    hostWrite s a v = writeHost s a v := by
  simp only [hostWrite, accJudge_ordinary h hd, (ordinaryReg_iff.mp h).2.1]

theorem hostRead_ordinary {s : State} {a : Nat} (h : ordinaryReg a = true) (hd : domOn s (regDomain a) = true) :
    hostRead s a = (0, readReg s 16 a) := by
  simp only [hostRead, accJudge_ordinary h hd, (ordinaryReg_iff.mp h).2.1]

theorem quReach_ordinary {s : State} {a : Nat} (h : ordinaryReg a = true) (hd : domOn s (regDomain a) = true) :
    quReach s a = true := by
  obtain ⟨h4, hp, -, -⟩ := ordinaryReg_iff.mp h
  obtain ⟨hlo, hhi, hs⟩ := placeOf_eq_reg hp
  simp [quReach, h4, hlo, hhi, hs, hd]

theorem readFields_ordinary {a : Nat} (h : ordinaryReg a = true) (s : State) : readFields s a = regFields a := by
  obtain ⟨-, -, hw, hw'⟩ := ordinaryReg_iff.mp h
  have h1 : ¬(0x40030800 ≤ a ∧ a < 0x40030C00) := by omega
  have h2 : ¬(0x40030C00 ≤ a ∧ a < 0x40030C80) := by omega
  simp only [readFields, if_neg h1, if_neg h2, if_neg hw']

theorem stageFields_ordinary {a : Nat} (h : ordinaryReg a = true) (s : State) :
    stageFields s a = ((regFields a).getD []).filter fun f => f.acc == .rwt := by
  obtain ⟨-, -, -, hw⟩ := ordinaryReg_iff.mp h
  have h1 : ¬(0x40070040 ≤ a ∧ a < 0x4007007C) := by omega
  have h2 : ¬(0x4007007C ≤ a ∧ a < 0x40070080) := by omega
  simp only [stageFields, if_neg h1, if_neg h2, readFields_ordinary h]

/-! ## Writes by the host and by a task -/

/-- No field of the register is RW-T: a write has nothing to stage. -/
def noStaging (a : Nat) : Bool := ((regFields a).getD []).all fun f => f.acc != .rwt

theorem acc_ne_rwt {a : Nat} (hn : noStaging a = true) {f : Fld} (hf : f ∈ (regFields a).getD []) : f.acc ≠ .rwt := by
  simpa using List.all_eq_true.mp hn f hf

theorem writeHost_plain {a : Nat} (h : ordinaryReg a = true) (hp : PlainWrite a) (hn : noStaging a = true) (s : State) (v : Nat) :
    writeHost s a v = (0, writePlain s a v) := by
  have hs : stageFields s a = [] := by
    rw [stageFields_ordinary h, List.filter_eq_nil_iff]
    exact fun f hf => by simpa using acc_ne_rwt hn hf
  simp [writeHost, hp s, hs]

theorem spiPut_plain {s : State} {a : Nat} (h : ordinaryReg a = true) (hd : domOn s (regDomain a) = true) (hp : PlainWrite a)
    (hn : noStaging a = true) (v : Nat) (dbg : Bool) : spiPut s a v dbg = writePlain s a v := by
  simp [spiPut, hostWrite_ordinary h hd, writeHost_plain h hp hn, flagged]

theorem quRegWr_plain {s : State} {a : Nat} (h : ordinaryReg a = true) (hd : domOn s (regDomain a) = true) (hp : PlainWrite a)
    (hn : noStaging a = true) (t v : Nat) : quRegWr s t a v = (0, writePlain s a v) := by
  have hdiff : (((readFields s a).getD []).any fun f => f.acc == .rwt && getF s f != bitsOf v f.lo f.w) = false := by
    rw [readFields_ordinary h, List.any_eq_false]
    exact fun f hf => by simp [acc_ne_rwt hn hf]
  simp [quRegWr, quReach_ordinary h hd, hdiff, hp s]

theorem exec_registerWrite_spi {s : State} (h : absent s = false) (a : Nat) (v : Word) :
    exec (.registerWrite a v .spi) s = .next (spiPut s a v.toNat false) := by
  simp [exec, execRegisterWrite, h]

theorem exec_registerWrite_dbg {s : State} (h : absent s = false) (a : Nat) (v : Word) :
    exec (.registerWrite a v .dbg) s = .next (spiPut s a v.toNat true) := by
  simp [exec, execRegisterWrite, h]

theorem exec_registerWrite_task {s : State} (h : absent s = false) (a t : Nat) (v : Word) :
    exec (.registerWrite a v (.task t)) s = .next (quRegWr s t a v.toNat).2 := by
  simp [exec, execRegisterWrite, h]

theorem exec_spiWrite_one {s : State} (h : absent s = false) (a : Nat) (v : Word) :
    exec (.spiWrite a [v]) s = .next (spiPut s a v.toNat false) := by
  simp [exec, execSpiWrite, spiPuts, h]

/-- The four commands that write one word of a register: the host over its port and over DBGREG, a task, a burst of one word. -/
theorem exec_plainWrite {s : State} {a : Nat} (ha : absent s = false) (h : ordinaryReg a = true)
    (hd : domOn s (regDomain a) = true) (hp : PlainWrite a) (hn : noStaging a = true) {v : Word} {t : Nat} {c : Instr}
    (hc : c ∈ [.registerWrite a v .spi, .registerWrite a v .dbg, .registerWrite a v (.task t), .spiWrite a [v]]) :
    exec c s = .next (writePlain s a v.toNat) := by
  simp only [List.mem_cons, List.not_mem_nil, or_false] at hc
  rcases hc with rfl | rfl | rfl | rfl
  · rw [exec_registerWrite_spi ha, spiPut_plain h hd hp hn]
  · rw [exec_registerWrite_dbg ha, spiPut_plain h hd hp hn]
  · rw [exec_registerWrite_task ha, quRegWr_plain h hd hp hn]
  · rw [exec_spiWrite_one ha, spiPut_plain h hd hp hn]

/-! ## Access errors (R597) -/

theorem bitOf_eq_testBit (v i : Nat) : bitOf v i = v.testBit i := by
  simp [bitOf, Nat.testBit_eq_decide_div_mod_eq, beq_eq_decide]

theorem onlyRegs_accErr (s : State) (c a : Nat) (dbg : Bool) :
    OnlyRegs [SYS_ACCERR.FLAGS, SYS_ACCERR.FIRST, SYS_ACCERR.FIRST_DBG, SYS_ACCADDR.ADDR] s (accErr s c a dbg) := by
  have first : OnlyRegs [SYS_ACCERR.FIRST, SYS_ACCERR.FIRST_DBG, SYS_ACCADDR.ADDR] s
      (if getF s SYS_ACCERR.FLAGS = 0 then
        setFs s [(SYS_ACCERR.FIRST, c), (SYS_ACCERR.FIRST_DBG, b2n dbg), (SYS_ACCADDR.ADDR, a)] else s) := by
    split
    · exact onlyRegs_setFs s [(SYS_ACCERR.FIRST, c), (SYS_ACCERR.FIRST_DBG, b2n dbg), (SYS_ACCADDR.ADDR, a)]
    · exact onlyRegs_refl _ _
  exact (first.append (onlyRegs_setF _ SYS_ACCERR.FLAGS _)).mono (by simp)

/-- The flag of a status code is up after its access error. -/
theorem bitOf_accErr_flags (s : State) {c : Nat} (hc : c - 1 < 16) (a : Nat) (dbg : Bool) :
    bitOf (getF (accErr s c a dbg) SYS_ACCERR.FLAGS) (c - 1) = true := by
  unfold accErr
  rw [getF_setF_self, bitOf_eq_testBit, Nat.testBit_mod_two_pow, Bool.and_eq_true, decide_eq_true_eq]
  refine ⟨hc, ?_⟩
  split
  · rwa [← bitOf_eq_testBit]
  · rename_i hf
    rw [bitOf_eq_testBit, Bool.not_eq_true] at hf
    rw [Nat.add_comm, Nat.testBit_two_pow_add_eq, hf, Bool.not_false]

/-! ## Staging (R4, R244, R245) -/

/-- No field of the register is RW or W1C: a write changes no field at once. -/
def onlyStaging (a : Nat) : Bool := ((regFields a).getD []).all fun f => f.acc != .rw && f.acc != .w1c

theorem writeNow_onlyStaging {a : Nat} (hp : PlainWrite a) (ho : onlyStaging a = true) (s : State) (who v : Nat) :
    writeNow s who a v = (0, s) := by
  rw [hp, writePlain_of_acc s v fun f hf => by simpa using List.all_eq_true.mp ho f hf]

theorem stageStatus_closed {s : State} (h : isSet s TXN_STAT.STATE = false) (owns : Bool) : stageStatus s owns = 5 := by
  simp [stageStatus, h]

theorem stageStatus_open {s : State} (h : getF s TXN_STAT.STATE = 1) : stageStatus s true = 0 := by
  simp [stageStatus, isSet, h]

/-- The turn of one field in `stageWord`. -/
def stageFld (v : Nat) (s : State) (f : Fld) : State :=
  { s with txn := { s.txn with staged := (s.txn.staged.filter fun p => p.1 != f) ++ [(f, bitsOf v f.lo f.w)] } }

theorem stageWord_eq (s : State) (a v : Nat) : stageWord s a v = (stageFields s a).foldl (stageFld v) s := rfl

theorem regs_stageWord (s : State) (a v : Nat) : (stageWord s a v).regs = s.regs := by
  rw [stageWord_eq]
  exact List.foldlRecOn _ _ (motive := fun t : State => t.regs = s.regs) rfl fun _ ht _ _ => ht

theorem lookup_filter_self (f : Fld) (l : List (Fld × Nat)) : (l.filter fun p => p.1 != f).lookup f = none := by
  rw [List.lookup_eq_none_iff]
  intro p hp
  have hne := (List.mem_filter.mp hp).2
  rw [bne_iff_ne] at hne ⊢
  exact hne.symm

theorem lookup_filter_ne {f g : Fld} (h : g ≠ f) (l : List (Fld × Nat)) :
    (l.filter fun p => p.1 != f).lookup g = l.lookup g := by
  induction l with
  | nil => rfl
  | cons p l ih =>
    by_cases hp : p.1 = f
    · have hg : (g == p.1) = false := by simpa [hp] using h
      rw [List.filter_cons_of_neg (by simp [hp]), ih, List.lookup_cons, hg]
    · rw [List.filter_cons_of_pos (by simpa using hp), List.lookup_cons, List.lookup_cons, ih]

/-- A field holds its bits of the word once it has had its turn, and no other field's turn takes them away. -/
theorem lookup_stageFld (v : Nat) (s : State) (f g : Fld) : (stageFld v s f).txn.staged.lookup g =
    if g = f then some (bitsOf v f.lo f.w) else s.txn.staged.lookup g := by
  unfold stageFld
  rw [List.lookup_append]
  split
  · rename_i h
    rw [h, lookup_filter_self]
    simp
  · rename_i h
    have hg : (g == f) = false := by simpa using h
    simp [lookup_filter_ne h, List.lookup_cons, hg]

theorem lookup_stageWord (s : State) (v : Nat) {a : Nat} {f : Fld} (h : f ∈ stageFields s a) :
    (stageWord s a v).txn.staged.lookup f = some (bitsOf v f.lo f.w) := by
  have pass (fs : List Fld) (t : State) (ht : f ∈ fs ∨ t.txn.staged.lookup f = some (bitsOf v f.lo f.w)) :
      (fs.foldl (stageFld v) t).txn.staged.lookup f = some (bitsOf v f.lo f.w) := by
    induction fs generalizing t with
    | nil => simpa using ht
    | cons x fs ih =>
      refine ih _ ?_
      rw [lookup_stageFld]
      by_cases hx : f = x
      · simp [hx]
      · simpa [hx] using ht
  exact pass _ s (.inl h)

/-- A staging write without a transaction is refused with the flag of TXN_REQUIRED, and nothing else happens (R4). -/
theorem spiPut_unstaged {s : State} {a : Nat} (h : ordinaryReg a = true) (hd : domOn s (regDomain a) = true) (hp : PlainWrite a)
    (ho : onlyStaging a = true) (hn : noStaging a = false) (ht : isSet s TXN_STAT.STATE = false) (v : Nat) (dbg : Bool) :
    spiPut s a v dbg = accErr s 5 a dbg := by
  have hs : (stageFields s a).isEmpty = false := by
    rw [stageFields_ordinary h]
    simpa [noStaging] using hn
  simp [spiPut, hostWrite_ordinary h hd, writeHost, writeNow_onlyStaging hp ho, hs, stageStatus_closed ht, flagged]

/-- In the port's own open transaction a staging write is staged, and changes nothing else (R245). -/
theorem spiPut_staged {s : State} {a : Nat} (h : ordinaryReg a = true) (hd : domOn s (regDomain a) = true) (hp : PlainWrite a)
    (ho : onlyStaging a = true) (hn : noStaging a = false) (ht : getF s TXN_STAT.STATE = 1)
    (hw : isSet s TXN_STAT.OWNER_SPI = true) (v : Nat) (dbg : Bool) : spiPut s a v dbg = stageWord s a v := by
  have hs : (stageFields s a).isEmpty = false := by
    rw [stageFields_ordinary h]
    simpa [noStaging] using hn
  simp [spiPut, hostWrite_ordinary h hd, writeHost, writeNow_onlyStaging hp ho, hs, hw, stageStatus_open ht, flagged]

/-! ## Reads with effects (R3, R538, R595) -/

/-- What a read leaves in an RC field: 0, and in MON_EXT the reset value. -/
def clearedRc (f : Fld) : Nat := (if f.addr = MON_EXT.TMAX.addr then f.rst else 0) % 2 ^ f.w

/-- The turn of one field in `clearRc`. -/
def clearFld (a : Nat) (s : State) (f : Fld) : State :=
  if f.acc == .rc then setF s f (if a = MON_EXT.TMAX.addr then f.rst else 0) else s

theorem clearRc_eq (s : State) (a : Nat) : clearRc s a = ((regFields a).getD []).foldl (clearFld a) s := rfl

theorem onlyRegs_clearFld (a : Nat) (s : State) (f : Fld) : OnlyRegs [f] s (clearFld a s f) := by
  unfold clearFld
  split
  · exact onlyRegs_setF ..
  · exact onlyRegs_refl _ _

theorem onlyRegs_clearRc (s : State) (a : Nat) : OnlyRegs ((regFields a).getD []) s (clearRc s a) :=
  onlyRegs_foldl (onlyRegs_clearFld a) _ s

theorem getF_clearRc (s : State) {a : Nat} {f : Fld} (hf : f ∈ (regFields a).getD []) (h : f.acc = .rc) :
    getF (clearRc s a) f = clearedRc f := by
  refine getF_foldl_of_mem (new := fun _ => clearedRc f) (onlyRegs_clearFld a) (fun s => ?_) hf (regFields_keys_nodup a) s
  obtain ⟨rfl, -⟩ := regFields_addr_lo hf
  simp [clearFld, h, clearedRc]

theorem clearRc_of_acc (s : State) {a : Nat} (h : ∀ f ∈ (regFields a).getD [], f.acc ≠ .rc) : clearRc s a = s := by
  rw [clearRc_eq]
  refine List.foldlRecOn _ _ (motive := (· = s)) rfl fun t ht f hf => ?_
  rw [clearFld, if_neg (by simpa using h f hf), ht]

/-- A read of a register that returns no latch clears its RC fields, after what it does to the latches. -/
theorem readReg_snd {a : Nat} (h : latchOf a = none) (h1 : a ≠ TRC_RDATA.W.addr) (h2 : a ≠ CAL_SUB.TICKS.addr) (s : State)
    (who : Nat) : (readReg s who a).2 = clearRc (trigRead s who a) a := by
  simp [readReg, h, h1, h2]

theorem exec_readClearField {s : State} {a : Nat} (ha : absent s = false) (h : ordinaryReg a = true)
    (hd : domOn s (regDomain a) = true) (hl : latchOf a = none) (h1 : a ≠ TRC_RDATA.W.addr) (h2 : a ≠ CAL_SUB.TICKS.addr)
    (ht : trigRead s 16 a = s) : exec (.readClearField a) s = .next (clearRc s a) := by
  have hr : (readReg s 16 a).2 = clearRc s a := by rw [readReg_snd hl h1 h2, ht]
  simp [exec, execReadClearField, ha, spiWord, hostRead_ordinary h hd, flagged, hr]

@[simp] theorem getLatch_setLatch_self (s : State) (who group : Nat) (v : List Nat) :
    getLatch (setLatch s who group v) who group = some v := by
  simp [getLatch, setLatch]

theorem setLatch_eq (s : State) (who group : Nat) (v : List Nat) :
    setLatch s who group v = { s with latches := (setLatch s who group v).latches } := rfl

/-- A read of a trigger register without RC fields loads the reader's latch and does nothing else (Table 21.2). -/
theorem trigAccess_eq_setLatch {s : State} {who a group : Nat} {v : List Nat} (ha : absent s = false)
    (hd : domOn s (regDomain a) = true) (hl : latchOf a = none) (h1 : a ≠ TRC_RDATA.W.addr) (h2 : a ≠ CAL_SUB.TICKS.addr)
    (hacc : ∀ f ∈ (regFields a).getD [], f.acc ≠ .rc) (ht : trigRead s who a = setLatch s who group v) :
    trigAccess s who a = setLatch s who group v := by
  have hr : (readReg s who a).2 = setLatch s who group v := by rw [readReg_snd hl h1 h2, ht, clearRc_of_acc _ hacc]
  simp [trigAccess, ha, hd, hr]

theorem completes_of_setLatch {c : Instr} {s : State} {who group : Nat} {v : List Nat}
    (h : exec c s = .next (setLatch s who group v)) :
    Completes c s fun t => getLatch t who group = some v ∧ t = { s with latches := t.latches } :=
  ⟨_, h, getLatch_setLatch_self .., setLatch_eq ..⟩

end Sys2Proof.Machine
end

section
/-! SUPPORT. The statements of chapter 0 settled: the state after reset, and the accesses to registers. -/

namespace Sys2Proof.Machine

open Reg

/-! ## The registers of the statement -/

/-- The plain RW fields and the flags of SYS_SCRUB: their registers are ordinary, stage nothing and have no rule of their own. -/
theorem plain_field_register {f : Fld}
    (hf : f ∈ [TIM_STEP_LIM.LIM, SYS_SCRUB.PACE, SYS_SCRUB.EN, SYS_WAKE.EN, SYS_HOLDCFG.KEEP, SYS_SCRUB.CORR_OVF,
      SYS_SCRUB.UNCORR_OVF]) :
    ordinaryReg f.addr = true ∧ regDomain f.addr = 1 ∧ noStaging f.addr = true ∧ f ∈ (regFields f.addr).getD [] ∧
      ownRule f = false ∧ PlainWrite f.addr := by
  have table : ∀ g ∈ [TIM_STEP_LIM.LIM, SYS_SCRUB.PACE, SYS_SCRUB.EN, SYS_WAKE.EN, SYS_HOLDCFG.KEEP, SYS_SCRUB.CORR_OVF,
      SYS_SCRUB.UNCORR_OVF], ordinaryReg g.addr = true ∧ regDomain g.addr = 1 ∧ noStaging g.addr = true ∧
      g ∈ (regFields g.addr).getD [] ∧ ownRule g = false ∧ (g = TIM_STEP_LIM.LIM ∨
        g.addr / 0x10000 = 0x4000 ∧ g.addr ≠ SYS_MODECTL.REQ.addr ∧ g.addr ≠ SYS_ACCERR.FLAGS.addr) := by decide +kernel
  obtain ⟨ho, hd, hn, hm, hr, rfl | ⟨hb, h1, h2⟩⟩ := table f hf
  · exact ⟨ho, hd, hn, hm, hr, plainWrite_timStepLim⟩
  · exact ⟨ho, hd, hn, hm, hr, plainWrite_sys hb h1 h2⟩

/-- SCN_TCFG of each task: ordinary, all fields RW-T. -/
theorem tcfg_register {j : Nat} (hj : j < 8) :
    ordinaryReg (SCN_TCFG.EN j).addr = true ∧ onlyStaging (SCN_TCFG.EN j).addr = true ∧ noStaging (SCN_TCFG.EN j).addr = false ∧
      (regFields (SCN_TCFG.EN j).addr).getD [] =
        [SCN_TCFG.EN j, SCN_TCFG.TRIG j, SCN_TCFG.OVR j, SCN_TCFG.CMODE j, SCN_TCFG.ENTRY j] := by
  revert j
  decide +kernel

theorem plainWrite_tcfg {j : Nat} (hj : j < 8) : PlainWrite (SCN_TCFG.EN j).addr :=
  plainWrite_scn (by simp only [SCN_TCFG.EN]; omega) (by simp only [SCN_TCFG.EN, SCN_PWCTL.CLR]; omega)

theorem mem_stageFields_tcfg {j : Nat} (hj : j < 8) {f : Fld} (hf : f ∈ [SCN_TCFG.EN j, SCN_TCFG.ENTRY j, SCN_TCFG.TRIG j])
    (s : State) : f ∈ stageFields s (SCN_TCFG.EN j).addr := by
  obtain ⟨ho, -, -, hfs⟩ := tcfg_register hj
  rw [stageFields_ordinary ho, hfs]
  simp only [List.mem_cons, List.not_mem_nil, or_false] at hf
  rcases hf with rfl | rfl | rfl <;> simp [SCN_TCFG.EN, SCN_TCFG.ENTRY, SCN_TCFG.TRIG, SCN_TCFG.OVR, SCN_TCFG.CMODE]

theorem tcfg_addr {j : Nat} {f : Fld} (hf : f ∈ [SCN_TCFG.EN j, SCN_TCFG.ENTRY j, SCN_TCFG.TRIG j]) :
    f.addr = (SCN_TCFG.EN j).addr := by
  simp only [List.mem_cons, List.not_mem_nil, or_false] at hf
  rcases hf with rfl | rfl | rfl <;> rfl

/-- The registers with RC fields of the statement: ordinary, in D1, with no latch. -/
theorem rc_register {f : Fld}
    (hf : f ∈ [SYS_SCRUBCNT.CORR, SYS_SCRUBCNT.UNCORR, SYS_WAKESRC.SRC, MON_EXT.TMAX, MON_EXT.TMIN]) :
    ordinaryReg f.addr = true ∧ regDomain f.addr = 1 ∧ f ∈ (regFields f.addr).getD [] ∧ f.acc = .rc ∧
      latchOf f.addr = none ∧ f.addr ≠ TRC_RDATA.W.addr ∧ f.addr ≠ CAL_SUB.TICKS.addr := by
  revert f
  decide +kernel

theorem trigRead_rc_register {f : Fld}
    (hf : f ∈ [SYS_SCRUBCNT.CORR, SYS_SCRUBCNT.UNCORR, SYS_WAKESRC.SRC, MON_EXT.TMAX, MON_EXT.TMIN]) (s : State) (who : Nat) :
    trigRead s who f.addr = s := by
  simp only [List.mem_cons, List.not_mem_nil, or_false] at hf
  rcases hf with rfl | rfl | rfl | rfl | rfl <;> rfl

/-! ## The clauses -/

/-- What a read of RC fields leaves: the cleared value in each, and every other register and part of the state as it was. -/
theorem completes_readClearField {s : State} (ha : absent s = false) (hd : domOn s 1 = true) {f : Fld}
    (hf : f ∈ [SYS_SCRUBCNT.CORR, SYS_SCRUBCNT.UNCORR, SYS_WAKESRC.SRC, MON_EXT.TMAX, MON_EXT.TMIN]) :
    Completes (.readClearField f.addr) s fun t => getF t f = clearedRc f ∧ t = { s with regs := t.regs } ∧
      ∀ g : Fld, g.lo < 32 → g.addr ≠ f.addr → getF t g = getF s g := by
  obtain ⟨ho, hdom, hm, hacc, hl, h1, h2⟩ := rc_register hf
  have only := onlyRegs_clearRc s f.addr
  exact ⟨_, exec_readClearField ha ho (by rwa [hdom]) hl h1 h2 (trigRead_rc_register hf s 16), getF_clearRc s hm hacc, only.2,
    fun g hlo hg => only.getF_of_addr_ne hlo hg⟩

theorem exec_coreCycHiRead {s : State} (who : Nat) (ha : absent s = false)
    (hd : domOn s (regDomain CORE_CYC_HI.CYC.addr) = true) :
    exec (.coreCycHiRead who) s = .next (setLatch s who cycGroup [s.core.cyc % 2 ^ 32]) :=
  congrArg Host.Outcome.next
    (trigAccess_eq_setLatch ha hd (by decide) (by decide) (by decide) (by decide +kernel) rfl)

theorem exec_coreGtimstRead {s : State} (who : Nat) (ha : absent s = false)
    (hd : domOn s (regDomain CORE_GTIMST.STATE.addr) = true) :
    exec (.coreGtimstRead who) s = .next (setLatch s who gtimGroup [(timerCell s (getF s CORE_GTIMIDX.IDX)).2]) :=
  congrArg Host.Outcome.next
    (trigAccess_eq_setLatch ha hd (by decide) (by decide) (by decide) (by decide +kernel) rfl)

theorem trigRead_scanhi {j : Nat} (hj : j < 8) (s : State) (who : Nat) :
    trigRead s who (SCN_SCANHI.SCAN j).addr = setLatch s who (8 + j) [(task s j).scan % 2 ^ 32] := by
  interval_cases j <;> rfl

theorem scanhi_register {j : Nat} (hj : j < 8) : latchOf (SCN_SCANHI.SCAN j).addr = none ∧
    (SCN_SCANHI.SCAN j).addr ≠ TRC_RDATA.W.addr ∧ (SCN_SCANHI.SCAN j).addr ≠ CAL_SUB.TICKS.addr ∧
    ∀ f ∈ (regFields (SCN_SCANHI.SCAN j).addr).getD [], f.acc ≠ .rc := by
  revert j
  decide +kernel

theorem exec_scanhiRead {s : State} {j : Nat} (hj : j < 8) (who : Nat) (ha : absent s = false)
    (hd : domOn s (regDomain (SCN_SCANHI.SCAN j).addr) = true) :
    exec (.scanhiRead j who) s = .next (setLatch s who (8 + j) [(task s j).scan % 2 ^ 32]) := by
  obtain ⟨hl, h1, h2, hacc⟩ := scanhi_register hj
  exact congrArg Host.Outcome.next (trigAccess_eq_setLatch ha hd hl h1 h2 hacc (trigRead_scanhi hj s who))

end Sys2Proof.Machine

open Sys2Proof Sys2Proof.Machine Sys2Proof.Machine.Reg

/-- Settles O2: each part of the state after reset is the initial value that the model gives it. -/
theorem resetState : Obligations.ResetState := by
  unfold Obligations.ResetState
  exact ⟨rfl, rfl, fun _ => rfl, fun _ => rfl, fun _ => rfl, rfl, rfl, rfl, rfl, rfl, rfl, rfl, rfl, rfl, rfl⟩

/-- Settles O59: a register's write, its read with effects and its refusal are passes over the register's own fields, each of
which touches one field. -/
theorem registerAccess : Obligations.RegisterAccess := by
  unfold Obligations.RegisterAccess
  intro s ha hd
  refine ⟨?rw, ?w1c, ?rwt, ?rc, ?monExt, ?latches⟩
  case rw =>
    intro f v c k hf hc
    obtain ⟨ho, hdom, hn, hm, hr, hp⟩ := plain_field_register (List.mem_append_left [SYS_SCRUB.CORR_OVF, SYS_SCRUB.UNCORR_OVF] hf)
    have hacc : ∀ g ∈ [TIM_STEP_LIM.LIM, SYS_SCRUB.PACE, SYS_SCRUB.EN, SYS_WAKE.EN, SYS_HOLDCFG.KEEP], g.acc = .rw := by decide
    have hnew : plainNew f v.toNat (getF s f) = bitsOf v.toNat f.lo f.w := by rw [plainNew, hacc f hf]
    have only := onlyRegs_writePlain s f.addr v.toNat
    exact ⟨_, exec_plainWrite ha ho (by rwa [hdom]) hp hn hc, (getF_writePlain s _ hm hr).trans hnew, only.2,
      fun g hlo hg => only.getF_of_addr_ne hlo hg⟩
  case w1c =>
    intro f v hf hlt
    obtain ⟨ho, hdom, hn, hm, hr, hp⟩ := plain_field_register (List.mem_append_right
      [TIM_STEP_LIM.LIM, SYS_SCRUB.PACE, SYS_SCRUB.EN, SYS_WAKE.EN, SYS_HOLDCFG.KEEP] hf)
    have hacc : ∀ g ∈ [SYS_SCRUB.CORR_OVF, SYS_SCRUB.UNCORR_OVF], g.acc = .w1c ∧ g.w = 1 := by decide
    obtain ⟨hacc, hw⟩ := hacc f hf
    exact ⟨_, exec_plainWrite (t := 0) ha ho (by rwa [hdom]) hp hn List.mem_cons_self,
      (getF_writePlain s _ hm hr).trans (plainNew_w1c_bit _ _ hacc hw hlt)⟩
  case rwt =>
    intro f v j hj hdf hf
    obtain ⟨ho, hs, hn, -⟩ := tcfg_register hj
    rw [tcfg_addr hf] at hdf ⊢
    refine ⟨fun hclosed => ⟨accErr s 5 (SCN_TCFG.EN j).addr false, ?_, ?_, ?_, ?_, ?_⟩,
      fun hopen howner => ⟨stageWord s (SCN_TCFG.EN j).addr v.toNat, ?_, ?_, ?_⟩⟩
    · rw [exec_registerWrite_spi ha, spiPut_unstaged ho hdf (plainWrite_tcfg hj) hs hn hclosed]
    · refine (onlyRegs_accErr s 5 _ false).1 f fun hm => ?_
      have hk := tcfg_addr hf
      simp only [SYS_ACCERR.FLAGS, SYS_ACCERR.FIRST, SYS_ACCERR.FIRST_DBG, SYS_ACCADDR.ADDR, SCN_TCFG.EN, Fld.key, List.map_cons,
        List.map_nil, List.mem_cons, List.not_mem_nil, or_false] at hm hk
      omega
    · exact bitOf_accErr_flags s (c := 5) (by decide) _ false
    · simp
    · exact (onlyRegs_accErr s 5 _ false).1
    · rw [exec_registerWrite_spi ha, spiPut_staged ho hdf (plainWrite_tcfg hj) hs hn hopen howner]
    · exact lookup_stageWord s _ (mem_stageFields_tcfg hj hf s)
    · exact regs_stageWord s _ _
  case rc =>
    intro f hf
    have hzero : ∀ g ∈ [SYS_SCRUBCNT.CORR, SYS_SCRUBCNT.UNCORR, SYS_WAKESRC.SRC], clearedRc g = 0 := by decide
    rw [← hzero f hf]
    exact completes_readClearField ha hd (List.mem_append_left [MON_EXT.TMAX, MON_EXT.TMIN] hf)
  case monExt =>
    intro f hf _
    have hrst : ∀ g ∈ [MON_EXT.TMAX, MON_EXT.TMIN], clearedRc g = g.rst := by decide
    rw [← hrst f hf]
    exact completes_readClearField ha hd (List.mem_append_right [SYS_SCRUBCNT.CORR, SYS_SCRUBCNT.UNCORR, SYS_WAKESRC.SRC] hf)
  case latches =>
    exact fun who => ⟨fun hdc => ⟨completes_of_setLatch (exec_coreCycHiRead who ha hdc),
      completes_of_setLatch (exec_coreGtimstRead who ha hdc)⟩,
      fun j hj hdj => completes_of_setLatch (exec_scanhiRead hj who ha hdj)⟩
end

section
/-! SUPPORT. One reasoning rule per operation on the way of a posted write's failure and of a station's status bits: saturating
counters, pulses, bits that the device writes where no row holds an upset, a failure's entry in the log. -/

namespace Sys2Proof.Machine

open Reg

/-! ## Counters and pulses -/

/-- A saturating counter counts below its maximum and stays from there on. -/
theorem getF_incSat_self (s : State) {f o : Fld} (h : o.key ≠ f.key) :
    getF (incSat s f o) f = if getF s f + 1 < 2 ^ f.w then getF s f + 1 else getF s f := by
  unfold incSat
  split
  · rw [getF_setF_self, Nat.mod_eq_of_lt ‹_›]
  · exact getF_setF_ne s 1 h

theorem onlyRegs_incSat (s : State) (f o : Fld) : OnlyRegs [f, o] s (incSat s f o) := by
  unfold incSat
  split
  · exact (onlyRegs_setF s f _).mono (by simp)
  · exact (onlyRegs_setF s o 1).mono (by simp)

theorem mem_pulses_pulse (s : State) (a : Nat) : a ∈ (pulse s a).pulses := by
  unfold pulse
  split
  next h => exact List.contains_iff_mem.mp h
  next => exact List.mem_cons_self

/-! ## A bit that the device writes (R149) -/

/-- From the one state to the other a stored bit takes a value, and no other bit, no word and no register changes, nor do the mode,
the posted writes with their log and the own requests. -/
def TakesBit (a : Nat) (v : Bool) (s t : State) : Prop :=
  (∀ b, sget false t.sp.bits b = if a = b then v else sget false s.sp.bits b) ∧ t.sp.words = s.sp.words ∧ t.regs = s.regs ∧
    t.mode = s.mode ∧ t.scan = s.scan ∧ t.zcp = s.zcp

theorem TakesBit.pulse {a : Nat} {v : Bool} {s t : State} (h : TakesBit a v s t) (b : Nat) : TakesBit a v s (pulse t b) := by
  simpa [TakesBit] using h

theorem checkRow_of_no_upsets {s : State} (h : s.sp.upsets = []) (finder a : Nat) : checkRow s finder a = s := by
  simp [checkRow, eccAt, h]

theorem takesBit_devBit {s : State} (h : s.sp.upsets = []) (a : Nat) (v : Bool) : TakesBit a v s (devBit s a v) := by
  unfold devBit setBit
  rw [checkRow_of_no_upsets h]
  exact ⟨fun b => sget_putBit s a b v, rfl, rfl, rfl, rfl, rfl⟩

/-! ## The status bits of a station (Table 8.6) -/

theorem rawBit_stnBit (s : State) {stn o : Nat} (hs : stn < 256) (ho : o < 256) :
    rawBit s (stnBit stn o) = sget false s.sp.bits (stnBit stn o) := by
  unfold rawBit
  rw [if_neg (by unfold stnBit; omega)]

theorem TakesBit.rawBit_stnBit {stn o : Nat} {v : Bool} {s t : State} (h : TakesBit (stnBit stn o) v s t) (hs : stn < 256)
    (ho : o < 256) : rawBit t (stnBit stn o) = v := by
  rw [Machine.rawBit_stnBit t hs ho, h.1, if_pos rfl]

/-! ## The failure of a posted write (R230, R231) -/

/-- The entry of a failure in the log, or its count among the lost ones. -/
def logFailure (s : State) (p : Posted) (cause : Nat) : State :=
  if s.scan.pwlog.length < 64 then { s with scan := { s.scan with pwlog := s.scan.pwlog ++ [(p, cause)] } }
  else incSat s SCN_PWSTAT.LOST SCN_PWSTAT.LOST_OVF

theorem logFailure_of_room {s : State} (h : s.scan.pwlog.length < 64) (p : Posted) (cause : Nat) :
    logFailure s p cause = { s with scan := { s.scan with pwlog := s.scan.pwlog ++ [(p, cause)] } } := if_pos h

theorem logFailure_of_full {s : State} (h : 64 ≤ s.scan.pwlog.length) (p : Posted) (cause : Nat) :
    logFailure s p cause = incSat s SCN_PWSTAT.LOST SCN_PWSTAT.LOST_OVF := if_neg (by omega)

@[simp] theorem logFailure_sp (s : State) (p : Posted) (cause : Nat) : (logFailure s p cause).sp = s.sp := by
  unfold logFailure; split <;> simp
@[simp] theorem logFailure_mode (s : State) (p : Posted) (cause : Nat) : (logFailure s p cause).mode = s.mode := by
  unfold logFailure; split <;> simp
@[simp] theorem logFailure_zcp (s : State) (p : Posted) (cause : Nat) : (logFailure s p cause).zcp = s.zcp := by
  unfold logFailure; split <;> simp
@[simp] theorem logFailure_posted (s : State) (p : Posted) (cause : Nat) :
    (logFailure s p cause).scan.posted = s.scan.posted := by
  unfold logFailure; split <;> simp

/-- A failure of a write to a station is its log entry, then the station's WRFAIL, then the pulse. -/
theorem postedFail_station (s : State) {p : Posted} (h : p.kind = 2) (cause : Nat) :
    postedFail s p cause = pulse (devBit (logFailure s p cause) (stnBit p.target 1) true) 0x30600 := by
  unfold postedFail wrFail
  rw [h]
  rfl

theorem takesBit_postedFail {s : State} (hu : s.sp.upsets = []) {p : Posted} (h : p.kind = 2) (cause : Nat) :
    TakesBit (stnBit p.target 1) true (logFailure s p cause) (postedFail s p cause) := by
  rw [postedFail_station s h]
  exact (takesBit_devBit (by simpa using hu) _ _).pulse _

/-- With the log full, a failure is one more count of LOST. -/
theorem getF_lost_postedFail {s : State} (hu : s.sp.upsets = []) {p : Posted} (h : p.kind = 2) (cause : Nat)
    (hfull : 64 ≤ s.scan.pwlog.length) : getF (postedFail s p cause) SCN_PWSTAT.LOST =
      if getF s SCN_PWSTAT.LOST + 1 < 2 ^ SCN_PWSTAT.LOST.w then getF s SCN_PWSTAT.LOST + 1 else getF s SCN_PWSTAT.LOST := by
  obtain ⟨-, -, hregs, -⟩ := takesBit_postedFail hu h cause
  rw [getF_regs hregs, logFailure_of_full hfull]
  exact getF_incSat_self s (by decide)

end Sys2Proof.Machine
end

section
/-! SUPPORT. The clauses of chapter 1 on posted writes and stations: the commands that end the own request of an IMG_WRITE or of a
SYS_REPORT, the clear of the log, and the expiry of a supervision. -/

namespace Sys2Proof.Machine

open Reg

/-- The state once the only own request and the only posted write have left their lists. -/
def requestEnded (s : State) : State :=
  { s with zcp := { s.zcp with outstanding := [] }, scan := { s.scan with posted := [] } }

/-! ## The end of an IMG_WRITE (R230, R521) -/

/-- What a failure of the only posted write leaves: the lists of writes and requests empty, WRFAIL and the pulse, the log or the
count of lost failures. -/
def WriteFailed (s : State) (p : Posted) (cause : Nat) (t : State) : Prop :=
  t.zcp.outstanding = [] ∧ t.scan.posted = [] ∧ rawBit t (stnBit p.target 1) = true ∧ 0x30600 ∈ t.pulses ∧
    (∀ a, a ≠ stnBit p.target 1 → sget false t.sp.bits a = sget false s.sp.bits a) ∧ t.sp.words = s.sp.words ∧
    t.mode = s.mode ∧ (s.scan.pwlog.length < 64 → t.scan.pwlog = s.scan.pwlog ++ [(p, cause)] ∧ t.regs = s.regs) ∧
    (64 ≤ s.scan.pwlog.length → t.scan.pwlog = s.scan.pwlog ∧
      getF t SCN_PWSTAT.LOST = min (getF s SCN_PWSTAT.LOST + 1) (2 ^ SCN_PWSTAT.LOST.w - 1) ∧
      SameRegs [SCN_PWSTAT.LOST, SCN_PWSTAT.LOST_OVF] s t)

/-- The clause of the statement on failures, in a state whose LOST holds what its width can hold. -/
theorem writeFailed_postedFail {s : State} {p : Posted} (hkind : p.kind = 2) (htgt : p.target < 256) (hu : s.sp.upsets = [])
    (hlost : getF s SCN_PWSTAT.LOST < 2 ^ SCN_PWSTAT.LOST.w) (cause : Nat) :
    WriteFailed s p cause (postedFail (requestEnded s) p cause) := by
  have hbit := takesBit_postedFail (s := requestEnded s) hu hkind cause
  have hwr := hbit.rawBit_stnBit htgt (by decide)
  obtain ⟨hbits, hwords, hregs, hmode, hscan, hzcp⟩ := hbit
  rw [logFailure_sp] at hbits hwords
  rw [logFailure_mode] at hmode
  rw [logFailure_zcp] at hzcp
  have hposted : (postedFail (requestEnded s) p cause).scan.posted = [] := by rw [hscan, logFailure_posted]; rfl
  refine ⟨by rw [hzcp]; rfl, hposted, hwr, ?pulse, fun a ha => ?bits, hwords, hmode, fun hroom => ?room, fun hfull => ?full⟩
  case pulse =>
    rw [postedFail_station _ hkind]
    exact mem_pulses_pulse _ _
  case bits => rw [hbits, if_neg (Ne.symm ha)]; rfl
  case room =>
    rw [logFailure_of_room (s := requestEnded s) hroom] at hscan hregs
    exact ⟨by rw [hscan]; rfl, hregs⟩
  case full =>
    have hcount := getF_lost_postedFail (s := requestEnded s) hu hkind cause hfull
    rw [getF_regs (s := requestEnded s) (t := s) rfl] at hcount
    rw [logFailure_of_full (s := requestEnded s) hfull] at hscan hregs
    refine ⟨by rw [hscan, incSat_scan]; rfl, ?_, fun f hf => ?_⟩
    · rw [hcount]
      split <;> omega
    · exact (getF_regs hregs f).trans ((onlyRegs_incSat (requestEnded s) _ _).1 f hf)

section ImgWrite

variable {s : State} {r : OwnReq} {p : Posted} (hout : s.zcp.outstanding = [r]) (hop : r.opcode = 0x0103)
  (hposted : s.scan.posted = [p]) (hkind : p.kind = 2) (href : p.ref = r.seq)

include hout hop hposted hkind href

theorem exec_stationAckTimeout : exec (.stationAckTimeout r.seq) s = .next (postedFail (requestEnded s) p 4) := by
  simp [exec, execStationAckTimeout, postedDone, postedFails, requestEnded, hout, hop, hposted, hkind, href]

theorem exec_zcpReplyMatch_imgWrite {peer : Peer} (ha : absent s = false) (hpeer : peerIs s peer r.station = true) (st : Nat) :
    exec (.zcpReplyMatch peer r.seq 0x0103 st) s =
      .next (if st = 0 then requestEnded s else postedFail (requestEnded s) p 5) := by
  by_cases hst : st = 0 <;>
    simp [exec, execZcpReplyMatch, replyMatch, postedDone, postedFails, requestEnded, ha, hout, hop, hposted, hkind, href, hpeer,
      hst]

theorem completes_stationAckTimeout (htgt : p.target < 256) (hu : s.sp.upsets = [])
    (hlost : getF s SCN_PWSTAT.LOST < 2 ^ SCN_PWSTAT.LOST.w) :
    Completes (.stationAckTimeout r.seq) s (WriteFailed s p 4) :=
  ⟨_, exec_stationAckTimeout hout hop hposted hkind href, writeFailed_postedFail hkind htgt hu hlost 4⟩

theorem completes_zcpReplyMatch_refused {peer : Peer} (ha : absent s = false) (hpeer : peerIs s peer r.station = true) {st : Nat}
    (hst : 0 < st) (htgt : p.target < 256) (hu : s.sp.upsets = []) (hlost : getF s SCN_PWSTAT.LOST < 2 ^ SCN_PWSTAT.LOST.w) :
    Completes (.zcpReplyMatch peer r.seq 0x0103 st) s (WriteFailed s p 5) :=
  ⟨_, (exec_zcpReplyMatch_imgWrite hout hop hposted hkind href ha hpeer st).trans (by rw [if_neg (by omega)]),
    writeFailed_postedFail hkind htgt hu hlost 5⟩

end ImgWrite

/-! ## Replies to other own requests, and to none (R258, R521) -/

theorem exec_zcpReplyMatch_report {s : State} {peer : Peer} {r : OwnReq} (ha : absent s = false) (hout : s.zcp.outstanding = [r])
    (hop : r.opcode = 0x020A) (hpeer : peerIs s peer r.station = true) (st : Nat) :
    exec (.zcpReplyMatch peer r.seq 0x020A st) s =
      .next { s with zcp := { s.zcp with outstanding := [] }, txn := { s.txn with report := none } } := by
  simp [exec, execZcpReplyMatch, replyMatch, ha, hout, hop, hpeer]

theorem exec_zcpReplyMatch_unmatched {s : State} {peer : Peer} {seq op : Nat}
    (h : ∀ r ∈ s.zcp.outstanding, r.seq ≠ seq ∨ r.opcode ≠ op ∨ peerIs s peer r.station = false) (st : Nat) :
    exec (.zcpReplyMatch peer seq op st) s = .next s := by
  have hnone : (s.zcp.outstanding.find? fun r => r.seq == seq && r.opcode == op && peerIs s peer r.station) = none := by
    rw [List.find?_eq_none]
    intro r hr
    rcases h r hr with h | h | h <;> simp [h]
  simp [exec, execZcpReplyMatch, replyMatch, hnone]

/-! ## The clear of the log (R231), and the expiry of a supervision (R18) -/

theorem exec_pwlogClear {s : State} (ha : absent s = false) (hd : domOn s 2 = true) :
    exec .pwlogClear s = .next { s with scan := { s.scan with pwlog := [] } } := by
  simp [exec, execPwlogClear, ha, hd]

theorem exec_stationSupvExpiry {s : State} {stn : Nat} (ha : absent s = false) (hs : stn < 256) (hown : stn ≠ ownStn s)
    (hv : isSet s (SYS_DIR_CTRL.VALID stn) = true) (hsupv : isSet s (SYS_DIR_CTRL.SUPV stn) = true) :
    exec (.stationSupvExpiry stn) s = .next (setPresent s stn false) := by
  simp [exec, execStationSupvExpiry, liveMode, ha, hs, hown, hv, hsupv]

/-- A station that was present loses PRESENT with the pulse of a loss; one that was not is left as it is. -/
theorem setPresent_false (s : State) (stn : Nat) : setPresent s stn false =
    if rawBit s (stnBit stn 0) = true then pulse (devBit s (stnBit stn 0) false) 0x30601 else s := by
  unfold setPresent
  cases rawBit s (stnBit stn 0) <;> rfl

theorem completes_stationSupvExpiry {s : State} {stn : Nat} (ha : absent s = false) (hs : stn < 256) (hown : stn ≠ ownStn s)
    (hv : isSet s (SYS_DIR_CTRL.VALID stn) = true) (hsupv : isSet s (SYS_DIR_CTRL.SUPV stn) = true) (hu : s.sp.upsets = []) :
    Completes (.stationSupvExpiry stn) s fun t =>
      rawBit t (stnBit stn 0) = false ∧ t.regs = s.regs ∧ t.sp.words = s.sp.words ∧ t.mode = s.mode ∧
      (rawBit s (stnBit stn 0) = true → 0x30601 ∈ t.pulses) ∧
      ∀ a : Nat, a ≠ stnBit stn 0 → sget false t.sp.bits a = sget false s.sp.bits a := by
  refine ⟨_, exec_stationSupvExpiry ha hs hown hv hsupv, ?_⟩
  rw [setPresent_false]
  split
  next hp =>
    have hbit := (takesBit_devBit hu (stnBit stn 0) false).pulse 0x30601
    have hclear := hbit.rawBit_stnBit hs (by decide)
    obtain ⟨hbits, hwords, hregs, hmode, -, -⟩ := hbit
    exact ⟨hclear, hregs, hwords, hmode, fun _ => mem_pulses_pulse _ _, fun a ha => by rw [hbits, if_neg (Ne.symm ha)]⟩
  next hp => exact ⟨by simpa using hp, rfl, rfl, rfl, fun h => absurd h hp, fun _ _ => rfl⟩

/-! ## A count of lost failures beyond its width -/

/-- The own request and the posted write of an IMG_WRITE to station 1. -/
def imgWriteReq : OwnReq := { station := 1, seq := 0, opcode := 0x0103, mapEntry := 0, task := 0, scan := 0 }
@[inherit_doc imgWriteReq] def imgWritePosted : Posted :=
  { mapEntry := 0, kind := 2, target := 1, daddr := 0, task := 0, scan := 0, ref := 0 }

/-- The reset state with that write under way, the log full, and the store of registers holding 0x1_0000 for the 16 bits of LOST. -/
def lostBeyondWidth : State :=
  { State.reset with
    regs := [(SCN_PWSTAT.LOST.key, 0x10000)]
    zcp := { State.reset.zcp with outstanding := [imgWriteReq] }
    scan := { State.reset.scan with posted := [imgWritePosted], pwlog := List.replicate 64 (imgWritePosted, 4) } }

end Sys2Proof.Machine

open Sys2Proof Sys2Proof.Machine Sys2Proof.Machine.Reg

/-- Refutes O36: the statement asks of every state that LOST becomes the lesser of the next count and 0xFFFF, and a state whose
register store holds 0x1_0000 for LOST keeps that number, as a saturated counter does. The statement lacks the premise that LOST is
within its 16 bits; with it the clause holds (`completes_stationAckTimeout`, `completes_zcpReplyMatch_refused`). -/
theorem not_postedWritesAndStations : ¬ Obligations.PostedWritesAndStations := by
  unfold Obligations.PostedWritesAndStations
  rintro ⟨himg, -⟩
  obtain ⟨⟨t, ht, -, -, -, -, -, -, -, -, hfull⟩, -⟩ :=
    himg lostBeyondWidth imgWriteReq imgWritePosted rfl rfl rfl rfl rfl (by decide) rfl
  have hexec := exec_stationAckTimeout (s := lostBeyondWidth) (r := imgWriteReq) (p := imgWritePosted) rfl rfl rfl rfl rfl
  obtain rfl : postedFail (requestEnded lostBeyondWidth) imgWritePosted 4 = t := Host.Outcome.next.inj (hexec.symm.trans ht)
  obtain ⟨-, hlost, -⟩ := hfull (by decide)
  have hkept := getF_lost_postedFail (s := requestEnded lostBeyondWidth) rfl (p := imgWritePosted) rfl 4 (by decide)
  exact absurd (hlost.symm.trans hkept) (by decide)
end

section
/-! SUPPORT. What an empty queue lets pass (R23, R46; log entry 1): the parts of a core cycle that leave the state alone when they find
nothing to do, and what the others change. -/

namespace Sys2Proof.Machine

open Reg

/-! ## The parts of a cycle that find nothing to do -/

theorem nth_of_forall {α : Type} {p : α → Prop} {d : α} {l : List α} (hl : ∀ x ∈ l, p x) (hd : p d) (i : Nat) : p (nth d l i) := by
  unfold nth
  rw [List.getD_eq_getElem?_getD]
  cases h : l[i]? with
  | none => exact hd
  | some x => exact hl x (List.mem_of_getElem? h)

theorem upd_of_fixed {α : Type} {l : List α} {f : α → α} (h : ∀ x ∈ l, f x = x) (i : Nat) : upd l i f = l := by
  unfold upd
  apply List.ext_getElem?
  intro j
  rw [List.getElem?_modify]
  cases hx : l[j]? with
  | none => simp
  | some x => simp [h x (List.mem_of_getElem? hx)]

theorem gateTick_of_no_list {s : State} (h : ∀ p ∈ s.egr.ports, p.pending = false) : gateTick s = s := by
  refine List.foldl_fixed' (fun p => ?_) _
  have hp : (egrPort s p).pending = false := nth_of_forall (p := fun x : EgrPort => x.pending = false) h rfl p
  simp [gateDue, hp]

theorem replayDue_of_not_replaying {s : State} (h : s.sby.replaying = false) (kind : StreamEv → Bool) : replayDue kind s = s := by
  simp [replayDue, replica, h]

theorem replayAdvance_of_not_replaying {s : State} (h : s.sby.replaying = false) : replayAdvance s = s := by
  simp [replayAdvance, replica, h]

theorem takeoverDue_of_none {s : State} (h : s.sby.tko = none) : takeoverDue s = s := by simp [takeoverDue, h]

theorem with_ops_self {s : State} {l : List PendOp} (h : s.core.ops = l) : { s with core := { s.core with ops := l } } = s := by
  rw [← h]

theorem copyAll_of_no_ops {s : State} (h : s.core.ops = []) : copyAll s = s := by
  simp only [copyAll, h, eachOp]
  exact with_ops_self h

theorem captureAll_of_no_ops {s : State} (h : s.core.ops = []) (hm : s.core.mac = none) : captureAll s = s := by
  unfold captureAll
  rw [h]
  simp only [eachOp]
  rw [with_ops_self h]
  simp [macCapture, hm]

theorem endOps_of_no_ops {s : State} (h : s.core.ops = []) (hm : s.core.mac = none) : endOps s = s := by
  simp [endOps, h, macStep, hm]

/-- No run ends or is launched: the mark of each task's end is cleared, which it is already. -/
theorem endRuns_of_no_end {s : State} (h : ∀ k ∈ s.scan.tasks, k.st ≠ .launchWait ∧ k.fin = .no) : endRuns s = s := by
  refine List.foldl_fixed' (fun t => ?_) _
  obtain ⟨hst, hfin⟩ : (task s t).st ≠ .launchWait ∧ (task s t).fin = .no :=
    nth_of_forall (p := fun k : TaskSt => k.st ≠ .launchWait ∧ k.fin = .no) h (by decide) t
  have hself : updTask s t (fun k => { k with fin := .no }) = s := by
    unfold updTask
    rw [upd_of_fixed fun k hk => by rw [← (h k hk).2]]
  have hdue : launchDue s t = false := by simp [launchDue, hst]
  simp [hdue, hfin, hself]

theorem tmuAll_of_no_event {s : State} (h : ∀ x ∈ s.core.tmu, x.ev = none) : tmuAll s = s := by
  refine List.foldl_fixed' (fun i => ?_) _
  have hev : (nth TmuSlot.init s.core.tmu i).ev = none := nth_of_forall (p := fun x : TmuSlot => x.ev = none) h rfl i
  simp [tmuDue, hev]

theorem endStalls_of_none {s : State} (hw : s.core.waiting = []) (hf : s.core.fastWait = []) (hm : roomMark ∉ s.core.firedNow) :
    endStalls s = s := by
  simp [endStalls, hw, hf, hm]

theorem hubFrames_of_none {s : State} (h : frameDue s = none) : hubFrames s = s := by simp [hubFrames, h]

theorem settle_of_none {s : State} (h : s.ms.haltPend = none) : settle s = s := by simp [settle, h]

theorem holdNext_of_none {s : State} (h : s.ms.holdEntry = none) : holdNext s = s := by simp [holdNext, h]

theorem runHeld_of_none {s : State} (h : s.zcp.held = []) : runHeld s = s := by simp [runHeld, h]

theorem flushOut_of_none {s : State} (h : s.zcp.outbox = []) : flushOut s = s := by
  have hself : { s with zcp := { s.zcp with outbox := [] } } = s := by rw [← h]
  simp only [flushOut, h, List.foldl_nil, hself]

theorem resolveDue_of_none {s : State} (h : s.core.deferred = []) : resolveDue s = s := by
  have hself : { s with core := { s.core with deferred := [] } } = s := by rw [← h]
  simp only [resolveDue, h, List.filter_nil, List.foldl_nil, traceAll, List.map_nil, List.eraseDups_nil, hself]

theorem startFire_of_none {s : State} (hf : s.core.fastWait = []) (ht : ∀ x ∈ s.core.tmu, x.ev = none) (hd : s.core.deferred = [])
    (hw : s.core.waiting = []) (base : State) (hold : Deferred → Bool) : startFire base hold s = s := by
  have hearly : (List.range 32).foldl tmuEarly s = s := by
    refine List.foldl_fixed' (fun i => ?_) _
    have hev : (nth TmuSlot.init s.core.tmu i).ev = none := nth_of_forall (p := fun x : TmuSlot => x.ev = none) ht rfl i
    simp [tmuEarly, hev]
  simp [startFire, hf, hearly, resolveDue_of_none hd, hw]

/-! ## What the other parts change -/

theorem sweepCell_eq (s : State) (cell : Nat) :
    ∃ cells, sweepCell s cell = { s with core := { s.core with cells := cells } } := by
  unfold sweepCell setCell
  dsimp only
  split
  · exact ⟨_, rfl⟩
  · split
    · exact ⟨_, rfl⟩
    · exact ⟨_, rfl⟩

/-- The aliased system bits are looked at: only the log of bit writes and what was seen change. -/
theorem noteSys_eq (s : State) :
    ∃ writes seen, noteSys s = { s with core := { s.core with bitWrites := writes, sysSeen := seen } } := by
  have hlog : ∀ (on l : List Nat) (u : State), ∃ writes,
      l.foldl (fun s a => if on.contains a == s.core.sysSeen.contains a then s else logBit s a) u =
        { u with core := { u.core with bitWrites := writes } } := by
    intro on l
    induction l with
    | nil => exact fun u => ⟨_, rfl⟩
    | cons a l ih =>
      intro u
      rw [List.foldl_cons]
      split
      · exact ih u
      · obtain ⟨writes, h⟩ := ih (logBit u a)
        exact ⟨writes, h⟩
  obtain ⟨writes, h⟩ := hlog ((aliased s).filter (sysBit s)) (aliased s) s
  unfold noteSys
  dsimp only
  rw [h]
  exact ⟨_, _, rfl⟩

theorem trcCycle_of_no_packet {s : State} (hf : s.trc.fifo = []) (hc : s.trc.cycle = []) :
    trcCycle s = { s with trc := { s.trc with wait := s.trc.wait - 1 } } := by
  have hdrain : trcDrain s = s := by simp [trcDrain, hf]
  simp [trcCycle, hdrain, trcFlush, hc]

theorem upset_eq (s : State) (m : MemId) (loc flips f : Nat) :
    ∃ upsets back, upset s m loc flips f = { s with sp := { s.sp with upsets := upsets, writeBack := back } } := by
  unfold upset
  split
  · exact ⟨_, _, rfl⟩
  · exact ⟨_, _, rfl⟩

/-- Flipped bits show in the check bits only. -/
theorem softErrors_eq (s : State) : ∃ upsets back,
    softErrors s = { s with sp := { s.sp with upsets := upsets, writeBack := back }, freeCtr := s.freeCtr + 1 } := by
  have hone : ∀ (u : State) (e : Nat × Nat × Nat × Nat),
      ∃ upsets back, softError u e = { u with sp := { u.sp with upsets := upsets, writeBack := back } } := by
    intro u e
    unfold softError
    split
    · exact ⟨_, _, rfl⟩
    · split
      · exact upset_eq ..
      · exact ⟨_, _, rfl⟩
  have hall : ∀ (l : List (Nat × Nat × Nat × Nat)) (u : State),
      ∃ upsets back, l.foldl softError u = { u with sp := { u.sp with upsets := upsets, writeBack := back } } := by
    intro l
    induction l with
    | nil => exact fun u => ⟨_, _, rfl⟩
    | cons e l ih =>
      intro u
      obtain ⟨up, back, h⟩ := hone u e
      rw [List.foldl_cons, h]
      exact ih _
  obtain ⟨up, back, h⟩ := hall (Config.softErrors s.freeCtr) s
  exact ⟨up, back, by rw [softErrors, h]⟩

/-! ## The clocks (R23, R46) -/

/-- The stages of `clockAdvance`: the counter, CORE_CYC, the time of a scrub pass, the pulses and the writers of the cycle. -/
def taiAdvance (s : State) : State :=
  if d1On s && s.time.running then { s with time := { s.time with tai := s.time.tai + taiStep s } } else s
@[inherit_doc taiAdvance] def cycAdvance (s : State) : State :=
  if plbOn s then { s with core := { s.core with cyc := (s.core.cyc + 1) % 2 ^ 64, firedNow := [] } } else s
@[inherit_doc taiAdvance] def scrubAdvance (s : State) : State :=
  if scrubRuns s then { s with ms := { s.ms with scrubTime := s.ms.scrubTime + 1 } } else s
@[inherit_doc taiAdvance] def pulsesEnd (s : State) : State :=
  { s with pulses := [], pulsesPrev := s.pulses, sp := { s.sp with written := [], wordUse := false } }

theorem clockAdvance_eq_stages (s : State) :
    clockAdvance s = sblTrain (pulsesEnd (clockNote (scrubAdvance (cycAdvance (plbAdvance (taiAdvance s)))))) := rfl

theorem plbAdvance_of_on {s : State} (h : plbOn s = true) : ∃ incs, plbAdvance s =
    { s with plumb := { s.plumb with
      acc := (s.plumb.acc + plbStep s) % 2 ^ 64
      cyc := (s.plumb.cyc + (s.plumb.acc + plbStep s) / 2 ^ 64) % 2 ^ 32, incs := incs } } := by
  unfold plbAdvance
  rw [if_pos h]
  exact ⟨_, rfl⟩

theorem scrubAdvance_eq (s : State) : ∃ time, scrubAdvance s = { s with ms := { s.ms with scrubTime := time } } := by
  unfold scrubAdvance
  split
  · exact ⟨_, rfl⟩
  · exact ⟨_, rfl⟩

theorem clockNote_eq (s : State) : ∃ phm, clockNote s = { s with phm := phm } := by
  unfold clockNote
  dsimp only
  split
  · exact ⟨_, rfl⟩
  · exact ⟨_, rfl⟩

theorem onlyRegs_sblTrain (s : State) : OnlyRegs [SBY_STAT.LINK] s (sblTrain s) := by
  unfold sblTrain
  split
  · exact onlyRegs_setF s _ 1
  · exact onlyRegs_refl _ s

/-- The clocks while they all run: each advances by its step, the pulses end, and of the registers only SBY_STAT.LINK may change. -/
theorem clockAdvance_of_on {s : State} (h1 : d1On s = true) (hr : s.time.running = true) (h2 : plbOn s = true) :
    ∃ incs scrub phm, OnlyRegs [SBY_STAT.LINK]
      { s with
        time := { s.time with tai := s.time.tai + taiStep s }
        plumb := { s.plumb with
          acc := (s.plumb.acc + plbStep s) % 2 ^ 64
          cyc := (s.plumb.cyc + (s.plumb.acc + plbStep s) / 2 ^ 64) % 2 ^ 32, incs := incs }
        core := { s.core with cyc := (s.core.cyc + 1) % 2 ^ 64, firedNow := [] }
        ms := { s.ms with scrubTime := scrub }
        phm := phm, pulses := [], pulsesPrev := s.pulses, sp := { s.sp with written := [], wordUse := false } }
      (clockAdvance s) := by
  have htai : taiAdvance s = { s with time := { s.time with tai := s.time.tai + taiStep s } } := if_pos (by rw [h1, hr]; rfl)
  obtain ⟨incs, hplb⟩ := plbAdvance_of_on (s := { s with time := { s.time with tai := s.time.tai + taiStep s } }) h2
  have hcyc : cycAdvance (plbAdvance (taiAdvance s)) = { s with
      time := { s.time with tai := s.time.tai + taiStep s }
      plumb := { s.plumb with
        acc := (s.plumb.acc + plbStep s) % 2 ^ 64
        cyc := (s.plumb.cyc + (s.plumb.acc + plbStep s) / 2 ^ 64) % 2 ^ 32, incs := incs }
      core := { s.core with cyc := (s.core.cyc + 1) % 2 ^ 64, firedNow := [] } } := by
    rw [htai, hplb]
    exact if_pos h2
  obtain ⟨scrub, hscrub⟩ := scrubAdvance_eq (cycAdvance (plbAdvance (taiAdvance s)))
  obtain ⟨phm, hnote⟩ := clockNote_eq (scrubAdvance (cycAdvance (plbAdvance (taiAdvance s))))
  rw [hscrub, hcyc] at hnote
  refine ⟨incs, scrub, phm, ?_⟩
  have hlast := onlyRegs_sblTrain (pulsesEnd (clockNote (scrubAdvance (cycAdvance (plbAdvance (taiAdvance s))))))
  rw [← clockAdvance_eq_stages] at hlast
  have hbase : pulsesEnd (clockNote (scrubAdvance (cycAdvance (plbAdvance (taiAdvance s))))) = { s with
      time := { s.time with tai := s.time.tai + taiStep s }
      plumb := { s.plumb with
        acc := (s.plumb.acc + plbStep s) % 2 ^ 64
        cyc := (s.plumb.cyc + (s.plumb.acc + plbStep s) / 2 ^ 64) % 2 ^ 32, incs := incs }
      core := { s.core with cyc := (s.core.cyc + 1) % 2 ^ 64, firedNow := [] }
      ms := { s.ms with scrubTime := scrub }
      phm := phm, pulses := [], pulsesPrev := s.pulses, sp := { s.sp with written := [], wordUse := false } } := by
    rw [hscrub, hcyc, hnote]
    rfl
  rwa [hbase] at hlast

/-- In RESET the counter advances if it runs, and the rest of the machine stands still (Table 2.8). -/
theorem clockAdvance_in_reset {s : State} (h : s.mode = .reset) : ∃ phm,
    clockAdvance s = { s with
      time := { s.time with tai := if s.time.running then s.time.tai + taiStep s else s.time.tai }
      phm := phm, pulses := [], pulsesPrev := s.pulses, sp := { s.sp with written := [], wordUse := false } } := by
  have htai : taiAdvance s =
      { s with time := { s.time with tai := if s.time.running then s.time.tai + taiStep s else s.time.tai } } := by
    have h1 : d1On s = true := by simp [d1On, h]
    unfold taiAdvance
    rw [h1]
    cases s.time.running <;> rfl
  have off (u : State) (hu : u.mode = .reset) : absent u = true := by simp [absent, inMode, hu]
  have hplb : plbAdvance (taiAdvance s) = taiAdvance s := if_neg (by simp [plbOn, off, htai, h])
  have hcyc : cycAdvance (taiAdvance s) = taiAdvance s := if_neg (by simp [plbOn, off, htai, h])
  have hscrub : scrubAdvance (taiAdvance s) = taiAdvance s := if_neg (by simp [scrubRuns, inMode, htai, h])
  obtain ⟨phm, hnote⟩ := clockNote_eq (taiAdvance s)
  have htrain (u : State) (hu : u.mode = .reset) : sblTrain u = u := if_neg (by simp [sblOn, off u hu])
  refine ⟨phm, ?_⟩
  rw [clockAdvance_eq_stages, hplb, hcyc, hscrub, htrain _ (by rw [hnote, htai]; exact h), hnote, htai]
  rfl

/-! ## An idle cycle -/

/-- What ends with an idle cycle: the scheduler has selected, the sweep has visited a cell, the aliased system bits are noted. -/
theorem endOfCycle_of_idle {s : State} (h : IdleCycle s) : ∃ cells writes seen sel, endOfCycle s =
    { s with
      core := { s.core with cells := cells, bitWrites := writes, sysSeen := seen }
      scan := { s.scan with sel := sel } } := by
  obtain ⟨-, -, hd2, -, -, -, -, -, hops, hwait, -, hfast, hroom, hmac, htmu, hrep, -, hmode, htasks, hports, -, -, hframe⟩ := h
  have hstays (u : State) : (if s.mode == .takeover then dropUncommitted u else u) = u := if_neg (by simpa using hmode)
  unfold endOfCycle
  rw [replayDue_of_not_replaying hrep, gateTick_of_no_list hports]
  dsimp only
  rw [copyAll_of_no_ops (by exact hops), endOps_of_no_ops (by exact hops) (by exact hmac), endRuns_of_no_end (by exact htasks),
    replayDue_of_not_replaying (by exact hrep), hstays, tmuAll_of_no_event (by exact htmu)]
  obtain ⟨cells, hcells⟩ := sweepCell_eq { s with scan := { s.scan with sel := selected s } } (s.core.cyc % 1024)
  rw [hcells, hubFrames_of_none (by exact hframe), ite_self,
    endStalls_of_none (by exact hwait) (by exact hfast) (by exact hroom)]
  obtain ⟨writes, seen, hnote⟩ := noteSys_eq { s with
    core := { s.core with cells := cells }
    scan := { s.scan with sel := selected s } }
  exact ⟨cells, writes, seen, selected s, hnote⟩

/-- From a state to one that follows an idle cycle: the clocks have advanced by their steps, the pulses have ended, and there is
still nothing that waits, comes due or leaves. -/
structure AfterIdle (s t : State) : Prop where
  tai : t.time.tai = s.time.tai + taiStep s
  cyc : t.core.cyc = (s.core.cyc + 1) % 2 ^ 64
  acc : t.plumb.acc = (s.plumb.acc + plbStep s) % 2 ^ 64
  pulses : t.pulses = []
  regs : SameRegs [CORE_STAT.ISSUING, SBY_STAT.LINK] s t
  spaces : SameSpaces s t
  mode : t.mode = s.mode
  pending : t.pending = s.pending
  none_fires : t.core.fastWait = [] ∧ (∀ x ∈ t.core.tmu, x.ev = none) ∧ t.core.deferred = [] ∧ t.core.waiting = []
  none_leaves : t.ms.holdEntry = none ∧ t.zcp.held = [] ∧ t.zcp.outbox = []

theorem afterIdle_nextCycle {s : State} (h : IdleCycle s) : AfterIdle s (nextCycle s) := by
  obtain ⟨cells, writes, seen, sel, hend⟩ := endOfCycle_of_idle h
  obtain ⟨-, habs, hd2, hrun, hhalt, hhold, hout, hheld, hops, hwait, hdef, hfast, -, hmac, htmu, hrep, htko, -, -, -, hfifo, hpkt,
    -⟩ := h
  have h1 : d1On s = true := by
    simp only [absent, inMode, List.contains_cons, Bool.or_eq_false_iff] at habs
    simp [d1On, bne, habs]
  have h2 : plbOn s = true := by simp [plbOn, hd2, habs]
  unfold nextCycle
  rw [hend, trcCycle_of_no_packet (by exact hfifo) (by exact hpkt), settle_of_none (by exact hhalt)]
  obtain ⟨u, hu⟩ : ∃ u : State, u = { s with
    core := { s.core with cells := cells, bitWrites := writes, sysSeen := seen }
    scan := { s.scan with sel := sel }, trc := { s.trc with wait := s.trc.wait - 1 } } := ⟨_, rfl⟩
  obtain ⟨incs, scrub, phm, hadv⟩ := clockAdvance_of_on (s := u) (by rw [hu]; exact h1) (by rw [hu]; exact hrun)
    (by rw [hu]; exact h2)
  obtain ⟨hregs, hform⟩ := hadv.append (onlyRegs_setF (clockAdvance u) CORE_STAT.ISSUING 0)
  rw [← hu]
  generalize setF (clockAdvance u) CORE_STAT.ISSUING 0 = v at hregs hform ⊢
  have hcore : v.core = { u.core with cyc := (u.core.cyc + 1) % 2 ^ 64, firedNow := [] } := (congrArg State.core hform :)
  have hms : v.ms = { u.ms with scrubTime := scrub } := (congrArg State.ms hform :)
  have hsp : v.sp = { u.sp with written := [], wordUse := false } := (congrArg State.sp hform :)
  have hsby : v.sby = u.sby := (congrArg State.sby hform :)
  have hzcp : v.zcp = u.zcp := (congrArg State.zcp hform :)
  have htime : v.time = { u.time with tai := u.time.tai + taiStep u } := (congrArg State.time hform :)
  have hplumb : v.plumb.acc = (u.plumb.acc + plbStep u) % 2 ^ 64 := (congrArg (fun x => x.plumb.acc) hform :)
  have hpulses : v.pulses = [] := (congrArg State.pulses hform :)
  have hmode : v.mode = u.mode := (congrArg State.mode hform :)
  have hpending : v.pending = u.pending := (congrArg State.pending hform :)
  have hnv : v.nv = u.nv := (congrArg State.nv hform :)
  have hpins : v.pins = u.pins := (congrArg State.pins hform :)
  clear hform hadv
  subst hu
  dsimp only
  rw [takeoverDue_of_none (by rw [hsby]; exact htko), replayAdvance_of_not_replaying (by rw [hsby]; exact hrep),
    replayDue_of_not_replaying (by rw [hsby]; exact hrep), captureAll_of_no_ops (by rw [hcore]; exact hops) (by rw [hcore]; exact hmac)]
  exact {
    tai := by rw [htime]; rfl
    cyc := by rw [hcore]
    acc := hplumb
    pulses := hpulses
    regs := fun f hf => hregs f (by simpa [or_comm] using hf)
    spaces := by unfold SameSpaces; rw [hsp, hnv, hpins]; exact ⟨rfl, rfl, rfl, rfl, rfl, rfl⟩
    mode := hmode
    pending := hpending
    none_fires := by rw [hcore]; exact ⟨hfast, htmu, hdef, hwait⟩
    none_leaves := by rw [hms, hzcp]; exact ⟨hhold, hheld, hout⟩ }

/-- With nothing that waits, comes due or leaves, the rest of the cycle flips check bits at most. -/
theorem tick_of_idle {s : State} (h : IdleCycle s) : ∃ upsets back ctr,
    tick s = { nextCycle s with sp := { (nextCycle s).sp with upsets := upsets, writeBack := back }, freeCtr := ctr } := by
  obtain ⟨hfast, htmu, hdef, hwait⟩ := (afterIdle_nextCycle h).none_fires
  obtain ⟨hhold, hheld, hout⟩ := (afterIdle_nextCycle h).none_leaves
  obtain ⟨hstop, habs, hd2, -⟩ := h
  have hcycle : coreCycle s = nextCycle s := by
    unfold coreCycle
    rw [if_neg (by simp [hd2])]
    exact startFire_of_none hfast htmu hdef hwait _ _
  obtain ⟨upsets, back, hsoft⟩ := softErrors_eq (nextCycle s)
  refine ⟨upsets, back, (nextCycle s).freeCtr + 1, ?_⟩
  rw [tick, if_neg ?_, if_neg ?_, hcycle, holdNext_of_none hhold, runHeld_of_none hheld, flushOut_of_none hout, hsoft]
  all_goals
    simp only [absent, inMode, List.contains_cons, Bool.or_eq_false_iff] at habs
    simp [hstop, habs]

theorem AfterIdle.with_flips {s t : State} (h : AfterIdle s t) (upsets : List ((MemId × Nat) × Ecc)) (back : List (MemId × Nat))
    (ctr : Nat) :
    AfterIdle s { t with sp := { t.sp with upsets := upsets, writeBack := back }, freeCtr := ctr } := by
  obtain ⟨tai, cyc, acc, pulses, regs, spaces, mode, pending, fires, leaves⟩ := h
  exact ⟨tai, cyc, acc, pulses, regs, spaces, mode, pending, fires, leaves⟩

/-- In an idle cycle the clocks advance by their steps, and the machine is as it was. -/
theorem afterIdle_tick {s : State} (h : IdleCycle s) : AfterIdle s (tick s) := by
  obtain ⟨upsets, back, ctr, htick⟩ := tick_of_idle h
  rw [htick]
  exact (afterIdle_nextCycle h).with_flips upsets back ctr

end Sys2Proof.Machine

open Sys2Proof Sys2Proof.Machine Sys2Proof.Machine.Reg

/-- Settles O1: on an empty queue every part of a cycle but the clocks finds nothing to do. -/
theorem stepRunsFront : Obligations.StepRunsFront := by
  unfold Obligations.StepRunsFront
  have hempty (s : State) (h : s.pending = []) : step s = .next (tick s) := by rw [step, h]
  refine ⟨fun s c rest h => by rw [step, h], fun s h hoff => ?stopped, fun s h hstop hmode => ?reset, fun s h hidle => ?idle⟩
  case stopped =>
    rw [hempty s h, tick, if_pos]
    rcases hoff with hoff | hoff | hoff <;> simp [hoff]
  case reset =>
    obtain ⟨phm, hclock⟩ := clockAdvance_in_reset hmode
    refine ⟨_, hempty s h, ?_⟩
    rw [tick, if_neg (by simp [hstop, hmode]), if_pos (by simp [hmode]), hclock]
    exact ⟨rfl, hmode, h, rfl, rfl, rfl, rfl, rfl⟩
  case idle =>
    obtain ⟨tai, cyc, acc, pulses, regs, spaces, mode, pending, -, -⟩ := afterIdle_tick hidle
    exact ⟨_, hempty s h, tai, cyc, acc, pulses, pending.trans h, mode, regs, spaces⟩
end

section
/-! SUPPORT. Which fields an operation may change that also enters an event, a journal entry or a wake: the rules of registers
(`OnlyRegs`) without the equality of all the rest. -/

namespace Sys2Proof.Machine

open Reg

/-! ## Fields outside a list -/

theorem sameRegs_refl (ks : List Fld) (s : State) : SameRegs ks s s := fun _ _ => rfl

theorem sameRegs_of_regs {s t : State} (h : t.regs = s.regs) (ks : List Fld) : SameRegs ks s t := fun f _ => getF_regs h f

theorem SameRegs.append {ks ls : List Fld} {s t u : State} (h : SameRegs ks s t) (h' : SameRegs ls t u) : SameRegs (ks ++ ls) s u := by
  intro f hf
  rw [List.map_append, List.mem_append, not_or] at hf
  exact (h' f hf.2).trans (h f hf.1)

theorem SameRegs.mono {ks ls : List Fld} {s t : State} (h : SameRegs ks s t) (hk : ks ⊆ ls) : SameRegs ls s t :=
  fun f hf => h f fun hm => hf (List.map_subset _ hk hm)

theorem SameRegs.isSet {ks : List Fld} {s t : State} (h : SameRegs ks s t) {f : Fld} (hf : f.key ∉ ks.map Fld.key) :
    Machine.isSet t f = Machine.isSet s f := by
  simp only [Machine.isSet, h f hf]

theorem isSet_setF_ne (s : State) {f g : Fld} (v : Nat) (h : f.key ≠ g.key) : isSet (setF s f v) g = isSet s g := by
  simp only [isSet, getF_setF_ne s v h]

/-- A field that several are set, the last time to a value it can hold. -/
theorem getF_setF_of_lt (s : State) (f : Fld) {v : Nat} (h : v < 2 ^ f.w) : getF (setF s f v) f = v := by
  rw [getF_setF_self, Nat.mod_eq_of_lt h]

theorem getF_setFs_cons_of_ne (s : State) {f : Fld} {v : Nat} {l : List (Fld × Nat)} (h : ∀ p ∈ l, p.1.key ≠ f.key) :
    getF (setFs s ((f, v) :: l)) f = v % 2 ^ f.w := by
  rw [setFs, getF_setFs_ne _ _ h, getF_setF_self]

/-- A field that is written once among others holds its value. -/
theorem getF_setFs_of_mem (s : State) {l : List (Fld × Nat)} (hl : (l.map fun p => p.1.key).Nodup) {f : Fld} {v : Nat}
    (h : (f, v) ∈ l) : getF (setFs s l) f = v % 2 ^ f.w := by
  induction l generalizing s with
  | nil => cases h
  | cons p l ih =>
    rw [List.map_cons, List.nodup_cons, List.mem_map] at hl
    rcases List.mem_cons.mp h with rfl | h
    · exact getF_setFs_cons_of_ne s fun q hq e => hl.1 ⟨q, hq, e⟩
    · exact ih (setF s p.1 p.2) hl.2 h

/-! ## Events and the journal -/

theorem sameRegs_raise (s : State) (f : Fld) : SameRegs [ZCP_ESEQ.SEQ] s (raise s f) :=
  fun g hg => getF_raise_ne s f fun e => hg (by simp [e])

theorem sameRegs_setRaise (s : State) (f : Fld) (v : Nat) : SameRegs [f, ZCP_ESEQ.SEQ] s (setRaise s f v) :=
  (onlyRegs_setF s f v).1.append (sameRegs_raise (setF s f v) f)

theorem sameRegs_journalPut (s : State) (a b c d e : Nat) (p : Peer) :
    SameRegs [ZCP_JSEQ.SEQ, ZCP_JLOST.CNT] s (journalPut s a b c d e p) :=
  fun g hg => getF_journalPut_ne s a b c d e p (fun e => hg (by simp [e])) fun e => hg (by simp [e])

theorem sameRegs_note (s : State) (f : Fld) : SameRegs [ZCP_JSEQ.SEQ, ZCP_JLOST.CNT, ZCP_ESEQ.SEQ] s (note s f) :=
  (sameRegs_journalPut s 0 0 0 f.addr _ Peer.none).append (sameRegs_raise (journalF s f) f)

theorem getF_setRaise_self (s : State) (f : Fld) (v : Nat) (h : ZCP_ESEQ.SEQ.key ≠ f.key) :
    getF (setRaise s f v) f = v % 2 ^ f.w :=
  (getF_raise_ne _ f h).trans (getF_setF_self ..)

/-! ## Lists -/

theorem nth_upd_self {α : Type} (d : α) {l : List α} {i : Nat} (h : i < l.length) (f : α → α) : nth d (upd l i f) i = f (nth d l i) := by
  simp [nth, upd, h]

end Sys2Proof.Machine
end

section
/-! SUPPORT. The clauses of chapter 2 on holdover, the leap second, the seed of the counter, Plumb's wrap and loss, and the reads that
latch one instant. -/

namespace Sys2Proof.Machine

open Reg

/-! ## Holdover and the leap second (R26, R43) -/

/-- TIM_UNC in holdover: its value at the last correction, grown pro rata, saturating (R43). -/
def holdUnc (s : State) : Nat :=
  min (s.time.holdBase + getF s TIM_HOLD_RATE.RATE * ((s.time.tai - s.time.holdStart) / nsUnit) / 1000000000) (2 ^ 32 - 1)

theorem tqOf_lt (u : Nat) : tqOf u < 16 := by
  unfold tqOf
  repeat' split
  all_goals decide

theorem exec_holdoverUpdate {s : State} (h1 : d1On s = true) (hr : s.time.running = true) (hg : s.time.growing = true) :
    exec .holdoverUpdate s = .next (if isSet s TIM_STAT.TIME_VALID && !isSet s TIM_STAT.CAL_DERIVED then
      setF (setF s TIM_UNC.UNC (holdUnc s)) TIM_STAT.TQ (tqOf (holdUnc s)) else setF s TIM_UNC.UNC (holdUnc s)) := by
  simp only [exec, execHoldoverUpdate, h1, hr, hg, Bool.and_self, if_true]
  rw [isSet_setF_ne s _ (by decide), isSet_setF_ne s _ (by decide)]
  rfl

theorem completes_holdoverUpdate {s : State} (h1 : d1On s = true) (hr : s.time.running = true) (hg : s.time.growing = true) :
    Completes .holdoverUpdate s fun t => getF t TIM_UNC.UNC = holdUnc s ∧
      getF t TIM_STAT.TQ =
        (if isSet s TIM_STAT.TIME_VALID && !isSet s TIM_STAT.CAL_DERIVED then tqOf (holdUnc s) else getF s TIM_STAT.TQ) ∧
      OnlyRegs [TIM_UNC.UNC, TIM_STAT.TQ] s t := by
  refine ⟨_, exec_holdoverUpdate h1 hr hg, ?_⟩
  have hunc : getF (setF s TIM_UNC.UNC (holdUnc s)) TIM_UNC.UNC = holdUnc s :=
    getF_setF_of_lt s _ (by simp only [holdUnc, TIM_UNC.UNC]; omega)
  split
  · exact ⟨(getF_setF_ne _ _ (by decide)).trans hunc, getF_setF_of_lt _ _ (tqOf_lt _), (onlyRegs_setF s _ _).append (onlyRegs_setF _ _ _)⟩
  · exact ⟨hunc, getF_setF_ne _ _ (by decide), (onlyRegs_setF s _ _).mono (by simp)⟩

/-- With no flag set, LEAP_PENDING clears and no midnight is named. -/
theorem leapPending_of_no_flag {s : State} (h61 : getF s TIM_UTC.LEAP61 = 0) (h59 : getF s TIM_UTC.LEAP59 = 0) :
    leapPending s = setF s TIM_STAT.LEAP_PENDING 0 := by
  simp [leapPending, isSet, h61, h59, b2n]

/-- What a leap second writes: TAI_UTC moves, the flags clear. -/
def leapFields (s : State) : List (Fld × Nat) :=
  [(TIM_UTC.TAI_UTC, unsignedOf 16 (signedOf 16 (getF s TIM_UTC.TAI_UTC) + if isSet s TIM_UTC.LEAP61 then 1 else -1)),
    (TIM_UTC.LEAP61, 0), (TIM_UTC.LEAP59, 0), (TIM_STAT.LEAP_PENDING, 0)]

theorem exec_leapSecond {s : State} (h1 : d1On s = true) (hr : s.time.running = true) :
    exec .leapSecond s = .next (if leapDue s then
      { setFs s (leapFields s) with
        cal := { s.cal with leapEnd := s.time.tai + 10 * secUnit }
        time := { s.time with leapDone := some s.time.tai } } else s) := by
  simp only [exec, execLeapSecond, h1, hr, Bool.true_and]
  cases leapDue s with
  | false => rfl
  | true =>
    simp only [if_true]
    rw [leapPending_of_no_flag]
    · have hregs (v : Nat) : setF (setFs (setF s TIM_UTC.TAI_UTC v) [(TIM_UTC.LEAP61, 0), (TIM_UTC.LEAP59, 0)]) TIM_STAT.LEAP_PENDING 0 =
          setFs s [(TIM_UTC.TAI_UTC, v), (TIM_UTC.LEAP61, 0), (TIM_UTC.LEAP59, 0), (TIM_STAT.LEAP_PENDING, 0)] := rfl
      rw [hregs, leapFields]
      simp [hr]
    · rw [getF_setFs_cons_of_ne _ (by decide)]; rfl
    · rw [setFs, getF_setFs_cons_of_ne _ (by decide)]; rfl

theorem completes_leapSecond {s : State} (h1 : d1On s = true) (hr : s.time.running = true) (hd : leapDue s = true) :
    Completes .leapSecond s fun t =>
      getF t TIM_UTC.TAI_UTC =
        unsignedOf 16 (signedOf 16 (getF s TIM_UTC.TAI_UTC) + if isSet s TIM_UTC.LEAP61 then 1 else -1) % 2 ^ 16 ∧
      getF t TIM_UTC.LEAP61 = 0 ∧ getF t TIM_UTC.LEAP59 = 0 ∧ getF t TIM_STAT.LEAP_PENDING = 0 ∧ t.time.tai = s.time.tai ∧
      SameRegs [TIM_UTC.TAI_UTC, TIM_UTC.LEAP61, TIM_UTC.LEAP59, TIM_STAT.LEAP_PENDING] s t ∧ SameStores s t := by
  refine ⟨_, (exec_leapSecond h1 hr).trans (by rw [if_pos hd]), ?_⟩
  have hfield (f : Fld) : getF { setFs s (leapFields s) with
      cal := { s.cal with leapEnd := s.time.tai + 10 * secUnit }
      time := { s.time with leapDone := some s.time.tai } } f = getF (setFs s (leapFields s)) f := rfl
  have only : SameRegs [TIM_UTC.TAI_UTC, TIM_UTC.LEAP61, TIM_UTC.LEAP59, TIM_STAT.LEAP_PENDING] s (setFs s (leapFields s)) :=
    (onlyRegs_setFs s (leapFields s)).1
  simp only [hfield]
  refine ⟨?_, ?_, ?_, ?_, trivial, only, ?_⟩
  · exact getF_setFs_cons_of_ne _ (by decide)
  · rw [leapFields, setFs, getF_setFs_cons_of_ne _ (by decide)]; rfl
  · rw [leapFields, setFs, setFs, getF_setFs_cons_of_ne _ (by decide)]; rfl
  · rw [leapFields, setFs, setFs, setFs, getF_setFs_cons_of_ne _ (by decide)]; rfl
  · simp [SameStores, leapFields]

/-! ## The seed (R60, R499) -/

/-- The counter's start: the calendar's time as TAI (R60). -/
def seedTai (s : State) : Nat := taiOf (((calSecs s + epoch2000 : Nat) : Int) + signedOf 16 (getF s TIM_UTC.TAI_UTC)).toNat 0

/-- What the seed writes to registers: nothing while OSF is set. -/
def seedFields (s : State) : List (Fld × Nat) :=
  if isSet s CAL_STAT.OSF then [] else [(TIM_STAT.CAL_DERIVED, 1), (TIM_STAT.TQ, 0xE), (TIM_STAT.TIME_VALID, 1)]

theorem setLeapAt_if_eq (s : State) (c : Bool) : ∃ midnight, (if c then setLeapAt s else s) =
    { s with time := { s.time with leapAt := midnight } } := by
  cases c
  · exact ⟨_, rfl⟩
  · exact ⟨_, rfl⟩

theorem seed_eq (s : State) : ∃ midnight, seed s = { setFs s (seedFields s) with
    time := { s.time with tai := seedTai s, running := true, holdStart := seedTai s, leapAt := midnight } } := by
  unfold seed
  dsimp only
  obtain ⟨midnight, hleap⟩ := setLeapAt_if_eq
    { s with time := { s.time with tai := seedTai s, running := true, holdStart := seedTai s } } (isSet s TIM_STAT.LEAP_PENDING)
  refine ⟨midnight, ?_⟩
  have hleap' : (if isSet { s with time := { s.time with tai := seedTai s, running := true, holdStart := seedTai s } }
      TIM_STAT.LEAP_PENDING then _ else _) = _ := hleap
  unfold seedTai at hleap'
  rw [hleap']
  unfold seedFields
  split <;> rename_i h
  · rw [if_pos (by exact h)]; rfl
  · rw [if_neg (by exact h)]; rfl

/-- The parts of the state that the seed leaves alone, and the fields that it may write. -/
theorem seed_frame (s : State) : (seed s).time.running = true ∧ (seed s).time.tai = seedTai s ∧
    SameRegs [TIM_STAT.CAL_DERIVED, TIM_STAT.TQ, TIM_STAT.TIME_VALID] s (seed s) ∧ SameStores s (seed s) ∧
    (seed s).cal = s.cal ∧ (seed s).mode = s.mode := by
  obtain ⟨midnight, h⟩ := seed_eq s
  rw [h]
  refine ⟨rfl, rfl, ?_, ?_, by simp, by simp⟩
  · have only := (onlyRegs_setFs s (seedFields s)).1
    unfold seedFields at only ⊢
    split
    · exact (sameRegs_refl _ s)
    · rw [if_neg ‹_›] at only
      exact only
  · simp [SameStores]

theorem seed_regs_of_osf {s : State} (h : isSet s CAL_STAT.OSF = true) : (seed s).regs = s.regs := by
  obtain ⟨midnight, hs⟩ := seed_eq s
  rw [hs, seedFields, if_pos h]
  rfl

/-- With the calendar's time valid the clock is valid too, with the time quality of a calendar (R60). -/
def CalDerived (t : State) : Prop :=
  getF t TIM_STAT.TQ = 14 ∧ getF t TIM_STAT.CAL_DERIVED = 1 ∧ getF t TIM_STAT.TIME_VALID = 1

theorem seed_derives {s : State} (h : isSet s CAL_STAT.OSF = false) : CalDerived (seed s) := by
  obtain ⟨midnight, hs⟩ := seed_eq s
  have hregs : (seed s).regs = (setFs s [(TIM_STAT.CAL_DERIVED, 1), (TIM_STAT.TQ, 0xE), (TIM_STAT.TIME_VALID, 1)]).regs := by
    rw [hs, seedFields, if_neg (by simp [h])]
  unfold CalDerived
  simp only [getF_regs hregs]
  refine ⟨?_, ?_, ?_⟩
  · rw [setFs, getF_setFs_cons_of_ne _ (by decide)]; rfl
  · rw [getF_setFs_cons_of_ne _ (by decide)]; rfl
  · rw [setFs, setFs, getF_setFs_cons_of_ne _ (by decide)]; rfl

theorem completes_seedTimeout {s : State} (h : seedDue s = true) :
    Completes .seedTimeout s fun t => t.time.running = true ∧ t.time.tai = seedTai s ∧ t.cal.ticked = true ∧
      (isSet s CAL_STAT.OSF = true → t.regs = s.regs) ∧ (isSet s CAL_STAT.OSF = false → CalDerived t) ∧
      SameRegs [TIM_STAT.CAL_DERIVED, TIM_STAT.TQ, TIM_STAT.TIME_VALID] s t ∧ SameStores s t := by
  obtain ⟨hrun, htai, hregs, hstores, hcal, -⟩ := seed_frame { s with cal := { s.cal with ticked := true } }
  exact ⟨seed { s with cal := { s.cal with ticked := true } }, by simp [exec, execSeedTimeout, h], hrun, htai, by rw [hcal],
    fun ho => seed_regs_of_osf (s := { s with cal := { s.cal with ticked := true } }) ho,
    fun ho => seed_derives (s := { s with cal := { s.cal with ticked := true } }) ho, hregs, hstores⟩

/-! ## The second tick (R486, R495, R499) -/

/-- From the one state to the other the clock, what waits for the tick, the mode and the stores are the same, and the fields outside
a list. -/
def TickFrame (ks : List Fld) (s t : State) : Prop :=
  SameRegs ks s t ∧ SameStores s t ∧ t.time = s.time ∧ (t.cal.ticked = s.cal.ticked ∧ t.cal.point = s.cal.point) ∧ t.mode = s.mode

theorem TickFrame.append {ks ls : List Fld} {s t u : State} (h : TickFrame ks s t) (h' : TickFrame ls t u) :
    TickFrame (ks ++ ls) s u := by
  obtain ⟨hr, ⟨hsp, hnor, hpins⟩, htime, ⟨hticked, hpoint⟩, hmode⟩ := h
  obtain ⟨hr', ⟨hsp', hnor', hpins'⟩, htime', ⟨hticked', hpoint'⟩, hmode'⟩ := h'
  exact ⟨hr.append hr', ⟨hsp'.trans hsp, hnor'.trans hnor, hpins'.trans hpins⟩, htime'.trans htime,
    ⟨hticked'.trans hticked, hpoint'.trans hpoint⟩, hmode'.trans hmode⟩

theorem TickFrame.mono {ks ls : List Fld} {s t : State} (h : TickFrame ks s t) (hk : ks ⊆ ls) : TickFrame ls s t :=
  ⟨h.1.mono hk, h.2⟩

theorem tickFrame_setFs (s : State) (l : List (Fld × Nat)) : TickFrame (l.map Prod.fst) s (setFs s l) :=
  ⟨(onlyRegs_setFs s l).1, by simp [SameStores], by simp, by simp, by simp⟩

theorem tickFrame_wakeSource (s : State) (bit : Nat) : TickFrame [SYS_WAKESRC.SRC] s (wakeSource s bit) := by
  have hset (v : Nat) : TickFrame [SYS_WAKESRC.SRC] s (setF s SYS_WAKESRC.SRC v) := tickFrame_setFs s [(SYS_WAKESRC.SRC, v)]
  have hself : TickFrame [SYS_WAKESRC.SRC] s s := ⟨sameRegs_refl _ s, ⟨rfl, rfl, rfl⟩, rfl, ⟨rfl, rfl⟩, rfl⟩
  unfold wakeSource
  split
  · exact hself
  · split
    · split
      · exact hset _
      · exact hself
    · split
      · exact hset _
      · exact hself

theorem tickFrame_pulse (s : State) (a : Nat) : TickFrame [] s (pulse s a) :=
  ⟨sameRegs_of_regs (by simp) _, by simp [SameStores], by simp, by simp, by simp⟩

theorem tickFrame_calAlarm (s : State) : TickFrame [CAL_STAT.ALARM, SYS_WAKESRC.SRC] s (calAlarm s) := by
  have hself : TickFrame [CAL_STAT.ALARM, SYS_WAKESRC.SRC] s s := ⟨sameRegs_refl _ s, ⟨rfl, rfl, rfl⟩, rfl, ⟨rfl, rfl⟩, rfl⟩
  have hset : TickFrame [CAL_STAT.ALARM] s (setF s CAL_STAT.ALARM 1) := tickFrame_setFs s [(CAL_STAT.ALARM, 1)]
  unfold calAlarm
  split
  · dsimp only
    split
    · exact (hset.append ((tickFrame_pulse _ _).append (tickFrame_wakeSource _ _))).mono (by simp)
    · exact hset.mono (by simp)
  · exact hself

/-- The fields that show the calendar's time. -/
def calFields : List Fld :=
  [CAL_DATE.YEAR, CAL_DATE.MONTH, CAL_DATE.DAY, CAL_TIME.WDAY, CAL_TIME.HOUR, CAL_TIME.MIN, CAL_TIME.SEC, CAL_SUB.TICKS]

theorem tickFrame_calLoad (s : State) (t : Nat) : TickFrame calFields s (calLoad s t) := by
  unfold calLoad
  obtain ⟨y, m, d⟩ := dayDate (t / 86400)
  exact tickFrame_setFs s [(CAL_DATE.YEAR, _), (CAL_DATE.MONTH, _), (CAL_DATE.DAY, _), (CAL_TIME.WDAY, _), (CAL_TIME.HOUR, _),
    (CAL_TIME.MIN, _), (CAL_TIME.SEC, _), (CAL_SUB.TICKS, _)]

/-- The calendar has moved on by a second (R486, R488), and the alarm has been looked at (R495). -/
def tickDate (s : State) : State :=
  let t := calSecs s + 1
  if t % 86400 == 0 && t / 86400 == 146097 then setF (osfSet (calLoad s t) 3) CAL_STAT.WRAPPED 1 else calLoad s t
@[inherit_doc tickDate] def tickCalendar (s : State) : State :=
  calAlarm { tickDate s with cal := { (tickDate s).cal with running := true } }

theorem exec_calSecondTick {s : State} (h : s.mode ≠ .off) (stamp : Nat) :
    exec (.calSecondTick stamp) s = .next (calTickD1 stamp (tickCalendar s)) :=
  congrArg Host.Outcome.next (if_neg (by simpa using h))

/-- The fields that a second tick may write: the calendar's time and status, and the wake source. -/
def tickFields : List Fld := calFields ++ [CAL_STAT.OSF, CAL_STAT.OSF_CAUSE, CAL_STAT.WRAPPED, CAL_STAT.ALARM, SYS_WAKESRC.SRC]

theorem tickFrame_tickDate (s : State) : TickFrame (calFields ++ [CAL_STAT.OSF, CAL_STAT.OSF_CAUSE, CAL_STAT.WRAPPED]) s (tickDate s) := by
  unfold tickDate
  dsimp only
  split
  · exact (tickFrame_calLoad s _).append (tickFrame_setFs _ [(CAL_STAT.OSF, 1), (CAL_STAT.OSF_CAUSE, 3), (CAL_STAT.WRAPPED, 1)])
  · exact (tickFrame_calLoad s _).mono (by simp)

theorem tickFrame_tickCalendar (s : State) : TickFrame tickFields s (tickCalendar s) := by
  have hrun (u : State) : TickFrame [] u { u with cal := { u.cal with running := true } } :=
    ⟨sameRegs_refl _ u, ⟨rfl, rfl, rfl⟩, rfl, ⟨rfl, rfl⟩, rfl⟩
  exact ((tickFrame_tickDate s).append ((hrun _).append (tickFrame_calAlarm _))).mono (by decide)

/-- The second tick at which the seed is due, with no discipline point waiting: the counter starts. -/
theorem calTickD1_of_seedDue {u : State} (h : seedDue u = true) (hp : u.cal.point = none) (stamp : Nat) : ∃ ticks,
    calTickD1 stamp u =
      { seed { u with cal := { u.cal with ticked := true } } with cal := { u.cal with ticked := true, ticks := ticks } } := by
  have h1 : d1On u = true := by
    simp only [seedDue, Bool.and_eq_true] at h
    exact h.1.1
  obtain ⟨-, -, -, -, hcal, -⟩ := seed_frame { u with cal := { u.cal with ticked := true } }
  unfold calTickD1
  rw [if_pos h1, h]
  dsimp only
  rw [if_pos rfl, hcal, hp]
  exact ⟨_, rfl⟩

theorem calSecs_of_sameRegs {ks : List Fld} {s t : State} (h : SameRegs ks s t) (hk : ∀ f ∈ calFields, f.key ∉ ks.map Fld.key) :
    calSecs t = calSecs s := by
  have hf : ∀ f ∈ calFields, getF t f = getF s f := fun f hf => h f (hk f hf)
  simp only [calFields, List.mem_cons, List.not_mem_nil, or_false, forall_eq_or_imp, forall_eq] at hf
  simp only [calSecs, hf]

theorem completes_calSecondTick_of_seedDue {s : State} (h : seedDue s = true) (hp : s.cal.point = none) (stamp : Nat) :
    Completes (.calSecondTick stamp) s fun t => t.time.running = true ∧
      t.time.tai = taiOf (((calSecs t + epoch2000 : Nat) : Int) + signedOf 16 (getF s TIM_UTC.TAI_UTC)).toNat 0 ∧
      t.cal.ticked = true ∧ (isSet t CAL_STAT.OSF = false → CalDerived t) ∧ SameStores s t := by
  obtain ⟨hregs, ⟨hsp, hnor, hpins⟩, htime, ⟨hticked, hpoint⟩, hmode⟩ := tickFrame_tickCalendar s
  have hdue : seedDue (tickCalendar s) = true := by rwa [seedDue, d1On, hmode, htime, hticked]
  have hoff : s.mode ≠ .off := by
    rintro hoff
    simp [seedDue, d1On, hoff] at h
  obtain ⟨ticks, htick⟩ := calTickD1_of_seedDue hdue (hpoint.trans hp) stamp
  refine ⟨_, exec_calSecondTick hoff stamp, ?_⟩
  rw [htick]
  have hold : getF (tickCalendar s) TIM_UTC.TAI_UTC = getF s TIM_UTC.TAI_UTC := hregs _ (by decide)
  generalize tickCalendar s = u at *
  obtain ⟨hrun, htai, hseed, ⟨hsp', hnor', hpins'⟩, -⟩ := seed_frame { u with cal := { u.cal with ticked := true } }
  have hsecs : calSecs (seed { u with cal := { u.cal with ticked := true } }) = calSecs u := calSecs_of_sameRegs hseed (by decide)
  refine ⟨hrun, htai.trans ?_, rfl, fun ho => ?_, hsp'.trans hsp, hnor'.trans hnor, hpins'.trans hpins⟩
  · rw [← hold]
    exact congrArg (fun n : Nat => taiOf (((n + epoch2000 : Nat) : Int) + signedOf 16 (getF u TIM_UTC.TAI_UTC)).toNat 0) hsecs.symm
  · exact seed_derives (s := { u with cal := { u.cal with ticked := true } }) ((hseed.isSet (by decide)).symm.trans ho)

/-! ## Plumb (R46, R47, R51) -/

theorem completes_plumbCycleWrap {s : State} (h : plbOn s = true) (hw : 2 ^ 64 ≤ s.plumb.acc + plbStep s)
    (ha : s.plumb.acc < 2 ^ 64) (hi : plbStep s < 2 ^ 64) :
    Completes .plumbCycleWrap s fun t => t.plumb.cyc = (s.plumb.cyc + 1) % 2 ^ 32 ∧
      t.plumb.acc = s.plumb.acc + plbStep s - 2 ^ 64 ∧ t.plumb.acc < plbStep s ∧ t.regs = s.regs ∧ SameStores s t := by
  obtain ⟨incs, hadv⟩ := plbAdvance_of_on h
  refine ⟨plbAdvance s, congrArg Host.Outcome.next (if_pos (by rw [h, decide_eq_true hw]; rfl)), ?_⟩
  rw [hadv]
  have hdiv : (s.plumb.acc + plbStep s) / 2 ^ 64 = 1 := by omega
  have hmod : (s.plumb.acc + plbStep s) % 2 ^ 64 = s.plumb.acc + plbStep s - 2 ^ 64 := by omega
  exact ⟨congrArg (fun n => (s.plumb.cyc + n) % 2 ^ 32) hdiv, hmod, hmod.trans_lt (by omega), rfl, rfl, rfl, rfl⟩

/-- What the loss of Plumb's source writes before its event (R51). -/
def lostFields (s : State) : List (Fld × Nat) :=
  [(PLB_STAT.TRACKING, 0), (PLB_STAT.FREERUN, 1), (PLB_HOLDF.FREQ, getF s PLB_FREQ.FREQ)]

/-- The loss of Plumb's source: the fields, then LOST with its event, on a state whose correction is 0. -/
theorem plbLost_eq (s : State) : plbLost s = setRaise { setFs s (lostFields s) with
    plumb := { s.plumb with goodRun := 0, badRun := 0, corr := 0 } } PLB_STAT.LOST 1 := rfl

theorem completes_plumbSampleTimeout {s : State} (h : plbOn s = true) (hm : getF s PLB_CTRL.SRC_MODE ≠ 0)
    (ht : isSet s PLB_STAT.TRACKING = true) :
    Completes .plumbSampleTimeout s fun t => getF t PLB_STAT.TRACKING = 0 ∧ getF t PLB_STAT.FREERUN = 1 ∧
      getF t PLB_STAT.LOST = 1 ∧ getF t PLB_HOLDF.FREQ = getF s PLB_FREQ.FREQ % 2 ^ 32 ∧ t.plumb.corr = 0 ∧
      t.plumb.acc = s.plumb.acc ∧ t.plumb.cyc = s.plumb.cyc ∧
      SameRegs [PLB_STAT.TRACKING, PLB_STAT.FREERUN, PLB_STAT.LOST, PLB_HOLDF.FREQ, ZCP_ESEQ.SEQ] s t ∧ SameStores s t := by
  refine ⟨plbLost s, by simp [exec, execPlumbSampleTimeout, h, hm, ht], ?_⟩
  rw [plbLost_eq]
  have hl : SameRegs ((lostFields s).map Prod.fst) s (setFs s (lostFields s)) := (onlyRegs_setFs s (lostFields s)).1
  have hTracking : getF (setFs s (lostFields s)) PLB_STAT.TRACKING = 0 := by
    rw [lostFields, getF_setFs_cons_of_ne _ (by simp; decide)]; rfl
  have hFreerun : getF (setFs s (lostFields s)) PLB_STAT.FREERUN = 1 := by
    rw [lostFields, setFs, getF_setFs_cons_of_ne _ (by simp; decide)]; rfl
  have hHoldf : getF (setFs s (lostFields s)) PLB_HOLDF.FREQ = getF s PLB_FREQ.FREQ % 2 ^ 32 := by
    rw [lostFields, setFs, setFs, getF_setFs_cons_of_ne _ (by decide)]; rfl
  obtain ⟨u, hu⟩ : ∃ u : State, u = { setFs s (lostFields s) with
    plumb := { s.plumb with goodRun := 0, badRun := 0, corr := 0 } } := ⟨_, rfl⟩
  have hregs (f : Fld) : getF u f = getF (setFs s (lostFields s)) f := by rw [hu]; rfl
  have hlost := sameRegs_setRaise u PLB_STAT.LOST 1
  have hplumb : u.plumb = { s.plumb with goodRun := 0, badRun := 0, corr := 0 } := by rw [hu]
  have hstores : SameStores s u := by rw [hu]; simp [SameStores]
  rw [← hu]
  clear hu
  refine ⟨?_, ?_, getF_setRaise_self u _ _ (by decide), ?_, by simp [hplumb], by simp [hplumb], by simp [hplumb], ?_, ?_⟩
  · rw [hlost _ (by decide), hregs, hTracking]
  · rw [hlost _ (by decide), hregs, hFreerun]
  · rw [hlost _ (by decide), hregs, hHoldf]
  · have hu' : SameRegs ((lostFields s).map Prod.fst) s u := fun f hf => (hregs f).trans (hl f hf)
    exact (hu'.append hlost).mono (by simp [lostFields])
  · simpa [SameStores] using hstores

/-! ## Latched reads (R25, R595) -/

theorem lookup_filter_key_ne {α : Type} {a b : Nat} (h : a ≠ b) (l : List (Nat × α)) :
    (l.filter fun p => p.1 != b).lookup a = l.lookup a := by
  induction l with
  | nil => rfl
  | cons p l ih =>
    by_cases hp : p.1 = b
    · have ha : (a == p.1) = false := by simpa [hp] using h
      rw [List.filter_cons_of_neg (by simp [hp]), ih, List.lookup_cons, ha]
    · rw [List.filter_cons_of_pos (by simpa using hp), List.lookup_cons, List.lookup_cons, ih]

theorem getLatch_setLatch_ne (s : State) {w g who group : Nat} (v : List Nat) (h : w * 16 + g ≠ who * 16 + group) :
    getLatch (setLatch s who group v) w g = getLatch s w g := by
  have hne : (w * 16 + g == who * 16 + group) = false := by simpa using h
  rw [getLatch, setLatch, List.lookup_cons, hne]
  exact lookup_filter_key_ne h s.latches

/-- A read that latches: the reader's own latch has the parts of one instant, and no other latch and nothing else changes. -/
theorem completes_of_latch {c : Instr} {s : State} {who group : Nat} {v : List Nat} (h : exec c s = .next (setLatch s who group v)) :
    Completes c s fun t => getLatch t who group = some v ∧
      (∀ w g, w * 16 + g ≠ who * 16 + group → getLatch t w g = getLatch s w g) ∧ t = { s with latches := t.latches } :=
  ⟨_, h, getLatch_setLatch_self .., fun _ _ hne => getLatch_setLatch_ne s v hne, setLatch_eq ..⟩

end Sys2Proof.Machine

open Sys2Proof Sys2Proof.Machine Sys2Proof.Machine.Reg

/-- Settles O18: each clause is the lemma of its command. -/
theorem holdoverSeedAndPlumb : Obligations.HoldoverSeedAndPlumb := by
  refine ⟨fun s h1 hr hg => completes_holdoverUpdate h1 hr hg,
    fun s h1 hr => ⟨completes_leapSecond h1 hr, fun hd => (exec_leapSecond h1 hr).trans (by simp [hd])⟩,
    fun s h => ⟨completes_seedTimeout h, fun stamp hp => completes_calSecondTick_of_seedDue h hp stamp⟩,
    ⟨fun s h hw ha hi => completes_plumbCycleWrap h hw ha hi, fun s h hm ht => completes_plumbSampleTimeout h hm ht⟩,
    fun s who h1 => completes_of_latch ?_, fun s who h => completes_of_latch ?_⟩
  · simp [exec, execTimNowShRead, h1, nowParts]
  · simp [exec, execPlbCycleRead, h]
end

section
/-! SUPPORT. What the operations on the clock's sources do (R36, R39, R40, R43, R44): the fields that selection writes, what selection
and measurement leave alone, and what VALID, QUALIFIED and OFFSET hold after them. -/

namespace Sys2Proof.Machine

open Reg

/-! ## Stores -/

theorem sameStores_refl (s : State) : SameStores s s := ⟨rfl, rfl, rfl⟩

theorem SameStores.trans {s t u : State} (h : SameStores s t) (h' : SameStores t u) : SameStores s u := by
  obtain ⟨hsp, hnor, hpins⟩ := h
  obtain ⟨hsp', hnor', hpins'⟩ := h'
  exact ⟨hsp'.trans hsp, hnor'.trans hnor, hpins'.trans hpins⟩

/-! ## The frame of a selection -/

/-- What is heard of the sources: the parts of the time system that only their own commands write. -/
def Heeds (a b : TimeSt) : Prop :=
  b.ptp = a.ptp ∧ b.irigGood = a.irigGood ∧ b.ppsLast = a.ppsLast ∧ b.sblEx = a.sblEx

theorem heeds_refl (a : TimeSt) : Heeds a a := ⟨rfl, rfl, rfl, rfl⟩

theorem Heeds.trans {a b c : TimeSt} (h : Heeds a b) (h' : Heeds b c) : Heeds a c := by
  obtain ⟨hptp, hgood, hlast, hex⟩ := h
  obtain ⟨hptp', hgood', hlast', hex'⟩ := h'
  exact ⟨hptp'.trans hptp, hgood'.trans hgood, hlast'.trans hlast, hex'.trans hex⟩

/-- An operation of the selection: it writes fields of a list, the journal and the events, and its own parts of the time system;
the counter, what is heard of the sources and all the rest stay. -/
structure Selects (ks : List Fld) (s t : State) : Prop where
  regs : SameRegs ks s t
  rest : t = { s with
    regs := t.regs
    time := t.time
    zcp := { s.zcp with journal := t.zcp.journal, events := t.zcp.events } }
  heeds : Heeds s.time t.time
  tai : t.time.tai = s.time.tai

theorem selects_refl (s : State) : Selects [] s s := ⟨sameRegs_refl _ s, rfl, heeds_refl _, rfl⟩

theorem Selects.append {ks ls : List Fld} {s t u : State} (h : Selects ks s t) (h' : Selects ls t u) : Selects (ks ++ ls) s u where
  regs := h.regs.append h'.regs
  rest := h'.rest.trans (congrArg (fun x : State => { x with
    regs := u.regs
    time := u.time
    zcp := { x.zcp with journal := u.zcp.journal, events := u.zcp.events } }) h.rest)
  heeds := h.heeds.trans h'.heeds
  tai := h'.tai.trans h.tai

theorem Selects.mono {ks ls : List Fld} {s t : State} (h : Selects ks s t) (hk : ks ⊆ ls) : Selects ls s t :=
  { h with regs := h.regs.mono hk }

theorem Selects.sameStores {ks : List Fld} {s t : State} (h : Selects ks s t) : SameStores s t :=
  ⟨(congrArg State.sp h.rest :), (congrArg (fun x => x.nv.nor) h.rest :), (congrArg State.pins h.rest :)⟩

theorem Selects.mode {ks : List Fld} {s t : State} (h : Selects ks s t) : t.mode = s.mode := (congrArg State.mode h.rest :)

theorem Selects.ms {ks : List Fld} {s t : State} (h : Selects ks s t) : t.ms = s.ms := (congrArg State.ms h.rest :)

theorem selects_setF (s : State) (f : Fld) (v : Nat) : Selects [f] s (setF s f v) :=
  ⟨(onlyRegs_setF s f v).1, rfl, heeds_refl _, rfl⟩

theorem selects_setFs (s : State) (l : List (Fld × Nat)) : Selects (l.map Prod.fst) s (setFs s l) :=
  ⟨(onlyRegs_setFs s l).1, (onlyRegs_setFs s l).2.trans (by simp), by simp [heeds_refl], by simp⟩

theorem selects_time (s : State) (a : TimeSt) (h : Heeds s.time a) (ht : a.tai = s.time.tai) : Selects [] s { s with time := a } :=
  ⟨sameRegs_of_regs rfl _, rfl, h, ht⟩

theorem selects_raise (s : State) (f : Fld) : Selects [ZCP_ESEQ.SEQ] s (raise s f) :=
  ⟨sameRegs_raise s f, rfl, heeds_refl _, rfl⟩

theorem selects_setRaise (s : State) (f : Fld) (v : Nat) : Selects [f, ZCP_ESEQ.SEQ] s (setRaise s f v) :=
  (selects_setF s f v).append (selects_raise _ f)

theorem selects_journalF (s : State) (f : Fld) : Selects [ZCP_JSEQ.SEQ, ZCP_JLOST.CNT] s (journalF s f) := by
  refine ⟨sameRegs_journalPut s 0 0 0 f.addr _ Peer.none, ?_, by simp [heeds_refl], by simp⟩
  unfold journalF journalInt journalPut incStop
  dsimp only
  split
  · split
    · split <;> rfl
    · rfl
  · rfl

theorem selects_note (s : State) (f : Fld) : Selects [ZCP_JSEQ.SEQ, ZCP_JLOST.CNT, ZCP_ESEQ.SEQ] s (note s f) :=
  (selects_journalF s f).append (selects_raise _ f)

/-! ## The operations of the selection -/

/-- The fields that a selection may write. -/
def selFields : List Fld :=
  (List.range 7).map TIM_SRC_STAT.SELECTED ++
    [TIM_STAT.ACTIVE_SRC, TIM_STAT.LOCKED, TIM_STAT.HOLDOVER, TIM_STAT.SRC_DISAGREE, ZCP_JSEQ.SEQ, ZCP_JLOST.CNT, ZCP_ESEQ.SEQ]

/-- What a change of the active source writes (R40, R43). -/
def activeFields (n : Nat) : List (Fld × Nat) :=
  (List.range 7).map (fun i => (TIM_SRC_STAT.SELECTED i, b2n (i == n))) ++
    [(TIM_STAT.ACTIVE_SRC, n), (TIM_STAT.LOCKED, b2n (n < 7)), (TIM_STAT.HOLDOVER, b2n (n == 0xF))]

theorem changeActive_of_ne {s : State} {n : Nat} (h : getF s TIM_STAT.ACTIVE_SRC ≠ n) : ∃ a b c d,
    changeActive s n = note { setFs s (activeFields n) with
      time := { s.time with holdSet := a, holdBase := b, holdStart := c, growing := d } } TIM_STAT.ACTIVE_SRC := by
  unfold changeActive
  rw [if_neg h]
  dsimp only
  split
  · split
    · exact ⟨_, _, _, _, rfl⟩
    · exact ⟨_, _, _, _, rfl⟩
  · split
    · exact ⟨_, _, _, _, rfl⟩
    · exact ⟨_, _, _, _, rfl⟩

theorem map_fst_activeFields (n : Nat) : (activeFields n).map Prod.fst =
    (List.range 7).map TIM_SRC_STAT.SELECTED ++ [TIM_STAT.ACTIVE_SRC, TIM_STAT.LOCKED, TIM_STAT.HOLDOVER] := rfl

theorem selects_changeActive (s : State) (n : Nat) : Selects selFields s (changeActive s n) := by
  by_cases h : getF s TIM_STAT.ACTIVE_SRC = n
  · rw [changeActive, if_pos h]
    exact (selects_refl s).mono (by simp)
  · obtain ⟨a, b, c, d, hc⟩ := changeActive_of_ne h
    rw [hc]
    have hset := selects_setFs s (activeFields n)
    have htime := selects_time (setFs s (activeFields n)) { s.time with holdSet := a, holdBase := b, holdStart := c, growing := d }
      (by simp [Heeds]) (by simp)
    exact ((hset.append htime).append (selects_note _ _)).mono (by rw [map_fst_activeFields]; decide)

theorem reselect_eq (s : State) : reselect s = s ∨ ∃ n, reselect s = changeActive s n := by
  unfold reselect
  dsimp only
  split
  · exact .inl rfl
  · split
    · split
      · exact .inl rfl
      · exact .inr ⟨_, rfl⟩
    · split
      · exact .inl rfl
      · exact .inr ⟨_, rfl⟩

theorem selects_reselect (s : State) : Selects selFields s (reselect s) := by
  rcases reselect_eq s with h | ⟨n, h⟩
  · rw [h]
    exact (selects_refl s).mono (by simp)
  · rw [h]
    exact selects_changeActive s n

theorem selects_checkDisagree (s : State) : Selects selFields s (checkDisagree s) := by
  have htime := selects_time s { s.time with disagree := disagreeNow s } ⟨rfl, rfl, rfl, rfl⟩ rfl
  unfold checkDisagree
  dsimp only
  split
  · split
    · exact (htime.append (selects_setF _ _ _)).mono (by simp [selFields])
    · exact (htime.append (selects_setRaise _ _ _)).mono (by simp [selFields])
  · exact htime.mono (by simp)

theorem selects_setValidSrc_true (s : State) (n : Nat) : Selects [TIM_SRC_STAT.VALID n] s (setValidSrc s n true) :=
  selects_setF s _ _

theorem selects_setSrcUnc (s : State) (n unc : Nat) : Selects (TIM_SRC_STAT.TQ n :: selFields) s (setSrcUnc s n unc) := by
  have hset := (selects_time s { s.time with srcUnc := s.time.srcUnc.set n unc } ⟨rfl, rfl, rfl, rfl⟩ rfl).append
    (selects_setF _ (TIM_SRC_STAT.TQ n) (tqOf unc))
  unfold setSrcUnc
  dsimp only
  split
  · exact hset.append (selects_reselect _)
  · exact hset.mono (by simp)

/-! ## VALID and QUALIFIED -/

/-- The fields of the sources that a selection does not write. -/
def srcFields (n : Nat) : List Fld :=
  [TIM_SRC_STAT.VALID n, TIM_SRC_STAT.QUALIFIED n, TIM_SRC_OFFSET.OFFSET n, TIM_SRC_STAT.SLAVE n, TIM_SRC_DELAY.DELAY n]

theorem srcFields_notin_selFields {n : Nat} (hn : n < 7) : ∀ f ∈ srcFields n, f.key ∉ (TIM_SRC_STAT.TQ n :: selFields).map Fld.key := by
  interval_cases n
  all_goals decide

theorem Selects.srcField {n : Nat} (hn : n < 7) {s t : State} (h : Selects selFields s t) {f : Fld} (hf : f ∈ srcFields n) :
    getF t f = getF s f :=
  h.regs f fun hm => srcFields_notin_selFields hn f hf (List.mem_cons_of_mem _ hm)

theorem selects_setValidSrc_false (s : State) (n : Nat) :
    Selects ([TIM_SRC_STAT.VALID n, TIM_SRC_STAT.QUALIFIED n] ++ selFields) s (setValidSrc s n false) := by
  have hset := selects_setFs s [(TIM_SRC_STAT.VALID n, 0), (TIM_SRC_STAT.QUALIFIED n, 0)]
  exact ((hset.append (selects_reselect _)).append (selects_checkDisagree _)).mono (by simp)

/-- A source that loses VALID loses QUALIFIED with it (R39). -/
theorem cleared_setValidSrc_false (s : State) {n : Nat} (hn : n < 7) :
    getF (setValidSrc s n false) (TIM_SRC_STAT.VALID n) = 0 ∧ getF (setValidSrc s n false) (TIM_SRC_STAT.QUALIFIED n) = 0 := by
  have hsel : Selects selFields (setFs s [(TIM_SRC_STAT.VALID n, 0), (TIM_SRC_STAT.QUALIFIED n, 0)]) (setValidSrc s n false) :=
    ((selects_reselect _).append (selects_checkDisagree _)).mono (by simp)
  rw [hsel.srcField hn (f := TIM_SRC_STAT.VALID n) (by simp [srcFields]),
    hsel.srcField hn (f := TIM_SRC_STAT.QUALIFIED n) (by simp [srcFields])]
  have hkey : (TIM_SRC_STAT.QUALIFIED n).key ≠ (TIM_SRC_STAT.VALID n).key := by interval_cases n <;> decide
  exact ⟨by rw [getF_setFs_cons_of_ne _ (by simpa using hkey)]; rfl, by rw [setFs, getF_setFs_cons_of_ne _ (by simp)]; rfl⟩

/-- A source is lost: VALID and QUALIFIED clear, and the counter and the stores stay. -/
def SourceLost (n : Nat) (s t : State) : Prop :=
  getF t (TIM_SRC_STAT.VALID n) = 0 ∧ getF t (TIM_SRC_STAT.QUALIFIED n) = 0 ∧ Heeds s.time t.time ∧ t.time.tai = s.time.tai ∧
    SameStores s t

theorem sourceLost_setValidSrc (s : State) {n : Nat} (hn : n < 7) : SourceLost n s (setValidSrc s n false) := by
  obtain ⟨hv, hq⟩ := cleared_setValidSrc_false s hn
  have hsel := selects_setValidSrc_false s n
  exact ⟨hv, hq, hsel.heeds, hsel.tai, hsel.sameStores⟩

/-! ## Selection (R39, R40) -/

theorem bestSource_lt {s : State} {n : Nat} (h : bestSource s = some n) : n < 7 := by
  unfold bestSource at h
  split at h
  · cases h
  · refine List.foldlRecOn (motive := fun b : Option Nat => ∀ x, b = some x → x < 7) _ _ (by simp) (fun b hb a ha x hx => ?_) n h
    have ha7 : a < 7 := List.mem_range.mp (List.mem_of_mem_filter ha)
    cases b with
    | none => exact Option.some.inj hx ▸ ha7
    | some m =>
      have hm := hb m rfl
      dsimp only at hx
      split at hx
      · exact Option.some.inj hx ▸ ha7
      · exact Option.some.inj hx ▸ hm

theorem completes_sourceQualified {s : State} {n : Nat} (hn : n < 7) (hs : srcOn s n = true)
    (hv : isSet s (TIM_SRC_STAT.VALID n) = true) (hq : isSet s (TIM_SRC_STAT.QUALIFIED n) = false) :
    Completes (.sourceQualified n) s fun t =>
      getF t (TIM_SRC_STAT.QUALIFIED n) = 1 ∧ t.time.tai = s.time.tai ∧ t.mode = s.mode ∧ SameStores s t := by
  have hset := selects_setF s (TIM_SRC_STAT.QUALIFIED n) 1
  have hsel : Selects selFields (setF s (TIM_SRC_STAT.QUALIFIED n) 1) (checkDisagree (reselect (setF s (TIM_SRC_STAT.QUALIFIED n) 1))) :=
    ((selects_reselect _).append (selects_checkDisagree _)).mono (by simp)
  have hall := hset.append hsel
  refine ⟨_, by simp [exec, execSourceQualified, hs, hv, hq], ?_, hall.tai, hall.mode, hall.sameStores⟩
  rw [hsel.srcField hn (by simp [srcFields]), getF_setF_self]
  rfl

theorem completes_sourceSwitch {s : State} {n : Nat} (ha : absent s = false) (hb : bestSource s = some n)
    (hact : getF s TIM_STAT.ACTIVE_SRC < 7) (hne : getF s TIM_STAT.ACTIVE_SRC ≠ n) :
    Completes (.sourceSwitch n) s fun t =>
      getF t TIM_STAT.ACTIVE_SRC = n ∧ getF t TIM_STAT.LOCKED = 1 ∧ getF t TIM_STAT.HOLDOVER = 0 ∧
      (∀ k, k < 7 → getF t (TIM_SRC_STAT.SELECTED k) = b2n (k == n)) ∧ t.time.tai = s.time.tai ∧ SameStores s t := by
  have hn := bestSource_lt hb
  have hsel := selects_changeActive s n
  refine ⟨changeActive s n, by simp [exec, execSourceSwitch, ha, hb, hact], ?_⟩
  obtain ⟨a, b, c, d, hc⟩ := changeActive_of_ne hne
  have hkeys : ((activeFields n).map fun p => p.1.key).Nodup := by
    have hmap : (activeFields n).map (fun p => p.1.key) = ((activeFields n).map Prod.fst).map Fld.key := rfl
    rw [hmap, map_fst_activeFields]
    decide
  have hfield {f : Fld} {v : Nat} (hf : (f, v) ∈ activeFields n) (hnote : f.key ∉ [ZCP_JSEQ.SEQ, ZCP_JLOST.CNT, ZCP_ESEQ.SEQ].map Fld.key) :
      getF (changeActive s n) f = v % 2 ^ f.w := by
    rw [hc, (selects_note _ _).regs f hnote]
    exact getF_setFs_of_mem s hkeys hf
  refine ⟨?_, ?_, ?_, fun k hk => ?_, hsel.tai, hsel.sameStores⟩
  · exact (hfield (v := n) (by simp [activeFields]) (by decide)).trans (Nat.mod_eq_of_lt (by simp only [TIM_STAT.ACTIVE_SRC]; omega))
  · exact (hfield (v := b2n (n < 7)) (by simp [activeFields]) (by decide)).trans (by simp [hn, b2n, TIM_STAT.LOCKED])
  · exact (hfield (v := b2n (n == 0xF)) (by simp [activeFields]) (by decide)).trans (by simp [b2n, TIM_STAT.HOLDOVER, show n ≠ 15 by omega])
  · have hkey : (TIM_SRC_STAT.SELECTED k).key ∉ [ZCP_JSEQ.SEQ, ZCP_JLOST.CNT, ZCP_ESEQ.SEQ].map Fld.key := by
      interval_cases k
      all_goals decide
    refine (hfield (v := b2n (k == n)) (List.mem_append_left _ (List.mem_map.mpr ⟨k, List.mem_range.mpr hk, rfl⟩)) hkey).trans (Nat.mod_eq_of_lt ?_)
    simp only [b2n, TIM_SRC_STAT.SELECTED]
    split <;> decide

/-! ## Measured offsets (R36, R42) -/

/-- A correction: it writes fields of a list, may move the counter, and leaves what is heard of the sources and the stores alone. -/
def Corrects (ks : List Fld) (s t : State) : Prop := SameRegs ks s t ∧ Heeds s.time t.time ∧ SameStores s t

theorem Corrects.append {ks ls : List Fld} {s t u : State} (h : Corrects ks s t) (h' : Corrects ls t u) : Corrects (ks ++ ls) s u := by
  obtain ⟨hregs, hheeds, hstores⟩ := h
  obtain ⟨hregs', hheeds', hstores'⟩ := h'
  exact ⟨hregs.append hregs', hheeds.trans hheeds', hstores.trans hstores'⟩

theorem Corrects.mono {ks ls : List Fld} {s t : State} (h : Corrects ks s t) (hk : ks ⊆ ls) : Corrects ls s t :=
  ⟨h.1.mono hk, h.2⟩

theorem Selects.corrects {ks : List Fld} {s t : State} (h : Selects ks s t) : Corrects ks s t := ⟨h.regs, h.heeds, h.sameStores⟩

theorem corrects_stepClock (s : State) (off : Int) : Corrects [TIM_STAT.STEPPED, ZCP_ESEQ.SEQ] s (stepClock s off) :=
  ⟨sameRegs_setRaise { s with time := { s.time with
    tai := ((s.time.tai : Int) + off).toNat
    skipped := if 0 < off then some (s.time.tai, ((s.time.tai : Int) + off).toNat) else none } } TIM_STAT.STEPPED 1,
    ⟨rfl, rfl, rfl, rfl⟩, rfl, rfl, rfl⟩

theorem corrects_slew (s : State) : Corrects [TIM_FADJ.FADJ, TIM_STAT.SLEWING] s (slew s) :=
  ⟨(onlyRegs_setFs (drawFree s).2 [(TIM_FADJ.FADJ, _), (TIM_STAT.SLEWING, _)]).1, heeds_refl _, sameStores_refl _⟩

theorem selects_setUnc (s : State) (unc : Nat) :
    Selects [TIM_UNC.UNC, TIM_STAT.TQ, TIM_STAT.CAL_DERIVED, TIM_STAT.TIME_VALID] s (setUnc s unc) :=
  selects_setFs s [(TIM_UNC.UNC, _), (TIM_STAT.TQ, _), (TIM_STAT.CAL_DERIVED, 0), (TIM_STAT.TIME_VALID, 1)]

/-- The fields that a correction may write. -/
def corrFields : List Fld :=
  [TIM_STAT.STEPPED, ZCP_ESEQ.SEQ, TIM_FADJ.FADJ, TIM_STAT.SLEWING, TIM_UNC.UNC, TIM_STAT.TQ, TIM_STAT.CAL_DERIVED, TIM_STAT.TIME_VALID]

theorem corrects_correct (s : State) (n : Nat) (off : Int) : Corrects corrFields s (correct s n off) := by
  have hmove : Corrects [TIM_STAT.STEPPED, ZCP_ESEQ.SEQ, TIM_FADJ.FADJ, TIM_STAT.SLEWING] s
      (if stepAllowed s (off.natAbs / nsUnit) then stepClock s off else slew s) := by
    split
    · exact (corrects_stepClock s off).mono (by simp)
    · exact (corrects_slew s).mono (by simp)
  unfold correct
  dsimp only
  exact ((hmove.append (selects_time _ _ ⟨rfl, rfl, rfl, rfl⟩ rfl).corrects).append (selects_setUnc _ _).corrects).mono
    (by simp [corrFields])

/-- A measured offset in ns as TIM_SRC_OFFSET holds it (R36). -/
def offsetNs (off : Int) : Nat := unsignedOf 32 (clampI (2 ^ 31 - 1) (off / (nsUnit : Int))) % 2 ^ 32

theorem srcFields_notin_corrFields {n : Nat} (hn : n < 7) : ∀ f ∈ srcFields n, f.key ∉ (selFields ++ corrFields).map Fld.key := by
  interval_cases n
  all_goals decide

/-- A measurement (R36): the offset stands in its register, and beyond it only selection and correction write. -/
theorem corrects_measured (s : State) (n : Nat) (off : Int) : ∃ u : State, getF u (TIM_SRC_OFFSET.OFFSET n) = offsetNs off ∧
    Corrects [TIM_SRC_OFFSET.OFFSET n] s u ∧ Corrects (selFields ++ corrFields) u (measured s n off) := by
  have hset := (selects_setF s (TIM_SRC_OFFSET.OFFSET n) (unsignedOf 32 (clampI (2 ^ 31 - 1) (off / (nsUnit : Int))))).append
    (selects_time _ { s.time with offs := upd s.time.offs n fun l => (off / (nsUnit : Int) :: l).take 16 } ⟨rfl, rfl, rfl, rfl⟩ rfl)
  refine ⟨_, ?_, hset.corrects.mono (by simp), ?_⟩
  · exact getF_setF_self s _ _
  · unfold measured
    dsimp only
    split
    · exact (selects_checkDisagree _).corrects.append (corrects_correct _ _ _)
    · exact (selects_checkDisagree _).corrects.mono (by simp)

/-- What a measurement of a source gives: its offset, VALID as it was, and the stores and what is heard as they were. -/
theorem measured_spec (s : State) {n : Nat} (hn : n < 7) (off : Int) :
    getF (measured s n off) (TIM_SRC_OFFSET.OFFSET n) = offsetNs off ∧
    isSet (measured s n off) (TIM_SRC_STAT.VALID n) = isSet s (TIM_SRC_STAT.VALID n) ∧
    Corrects ([TIM_SRC_OFFSET.OFFSET n] ++ (selFields ++ corrFields)) s (measured s n off) := by
  obtain ⟨u, hoff, hset, hrest⟩ := corrects_measured s n off
  have hkeep {f : Fld} (hf : f ∈ srcFields n) : getF (measured s n off) f = getF u f :=
    hrest.1 f (srcFields_notin_corrFields hn f hf)
  have hkey : (TIM_SRC_STAT.VALID n).key ≠ (TIM_SRC_OFFSET.OFFSET n).key := by interval_cases n <;> decide
  refine ⟨(hkeep (by simp [srcFields])).trans hoff, ?_, hset.append hrest⟩
  simp only [isSet]
  rw [hkeep (by simp [srcFields]), hset.1 _ (by simpa using hkey)]

/-! ## The sources' own commands (R30, R33 to R35) -/

theorem rawStamp_of_ms {s t : State} (h : t.ms = s.ms) (x : Nat) : rawStamp t x = rawStamp s x := by
  have hcoarse : (t.ms.interpOff || testing t 11) = (s.ms.interpOff || testing s 11) := by rw [testing, testing, h]
  simp only [rawStamp, stampUnit, hcoarse]

theorem irigTai_of_fields {s t : State} (hy : getF t CAL_DATE.YEAR = getF s CAL_DATE.YEAR)
    (hp : getF t (TIM_SRC_CFG.PROFILE 4) = getF s (TIM_SRC_CFG.PROFILE 4)) (hu : getF t TIM_UTC.TAI_UTC = getF s TIM_UTC.TAI_UTC)
    (f : IrigFrame) : irigTai t f = irigTai s f := by
  simp only [irigTai, hy, hp, hu]

theorem completes_ppsTimeout {s : State} (h : srcOn s 5 = true) : Completes .ppsTimeout s fun t =>
    getF t (TIM_SRC_STAT.VALID 5) = 0 ∧ getF t (TIM_SRC_STAT.QUALIFIED 5) = 0 ∧ t.time.ppsLast = none ∧
    t.time.tai = s.time.tai ∧ SameStores s t := by
  obtain ⟨hv, hq, ⟨-, -, hlast, -⟩, htai, hstores⟩ := sourceLost_setValidSrc
    { s with time := { s.time with ppsLast := none } } (n := 5) (by decide)
  exact ⟨_, congrArg Host.Outcome.next (if_pos h), hv, hq, hlast, htai, hstores⟩

theorem completes_irigbPositionMarkerMissing {s : State} (h : srcOn s 4 = true) : Completes .irigbPositionMarkerMissing s fun t =>
    getF t (TIM_SRC_STAT.VALID 4) = 0 ∧ getF t (TIM_SRC_STAT.QUALIFIED 4) = 0 ∧ t.time.irigGood = 0 ∧
    t.time.tai = s.time.tai ∧ SameStores s t := by
  obtain ⟨hv, hq, ⟨-, hgood, -, -⟩, htai, hstores⟩ := sourceLost_setValidSrc
    { s with time := { s.time with irigGood := 0 } } (n := 4) (by decide)
  exact ⟨_, congrArg Host.Outcome.next (if_pos h), hv, hq, hgood, htai, hstores⟩

theorem completes_sblTimexTimeout {s : State} (h : absent s = false) : Completes .sblTimexTimeout s fun t =>
    getF t (TIM_SRC_STAT.VALID 6) = 0 ∧ getF t (TIM_SRC_STAT.QUALIFIED 6) = 0 ∧ t.time.sblEx = none ∧
    t.time.tai = s.time.tai ∧ SameStores s t := by
  obtain ⟨hv, hq, ⟨-, -, -, hex⟩, htai, hstores⟩ := sourceLost_setValidSrc
    { s with time := { s.time with sblEx := none } } (n := 6) (by decide)
  exact ⟨_, congrArg Host.Outcome.next (if_neg (by simp [h])), hv, hq, hex, htai, hstores⟩

/-- A port that hears no Announce or no Sync is judged invalid (R30). -/
theorem ptpJudge_of_silent {s : State} {port : Nat}
    (h : (nth PtpPort.init s.time.ptp port).annOk = false ∨ (nth PtpPort.init s.time.ptp port).syncOk = false) :
    ptpJudge s port = setValidSrc s port false := by
  rcases h with h | h
  · simp [ptpJudge, h]
  · simp [ptpJudge, h]

theorem ptp_updPtp (s : State) {port : Nat} (h : port < s.time.ptp.length) (f : PtpPort → PtpPort) :
    nth PtpPort.init (updPtp s port f).time.ptp port = f (nth PtpPort.init s.time.ptp port) := nth_upd_self _ h f

theorem completes_ptpTimeout {s : State} {port : Nat} (a : Bool) (h : absent s = false) (hp : port < 4) (hl : s.time.ptp.length = 4) :
    Completes (.ptpTimeout port a) s fun t =>
      getF t (TIM_SRC_STAT.VALID port) = 0 ∧ getF t (TIM_SRC_STAT.QUALIFIED port) = 0 ∧ t.time.tai = s.time.tai ∧ SameStores s t := by
  have hsilent (f : PtpPort → PtpPort) (hf : ∀ q, (f q).annOk = false ∨ (f q).syncOk = false) :
      ptpJudge (updPtp s port f) port = setValidSrc (updPtp s port f) port false :=
    ptpJudge_of_silent (by rw [ptp_updPtp s (by omega)]; exact hf _)
  have hlost (f : PtpPort → PtpPort) := sourceLost_setValidSrc (updPtp s port f) (n := port) (by omega)
  refine ⟨_, congrArg Host.Outcome.next (if_neg (by simp [h])), ?_⟩
  rw [hsilent _ (fun q => by cases a <;> simp)]
  obtain ⟨hv, hq, -, htai, hstores⟩ := hlost fun q => if a then { q with annOk := false } else { q with syncOk := false }
  exact ⟨hv, hq, htai, hstores⟩

/-- The IRIG-B source after a good frame, before the measurement: its uncertainty and the count of good frames. -/
def irigCounted (s : State) (f : IrigFrame) : State :=
  let u := setSrcUnc s 4 (irigUnc s f)
  { u with time := { u.time with irigGood := min 3 (u.time.irigGood + 1) } }

/-- VALID sets at the third good frame (R33). -/
def irigJudged (s : State) (f : IrigFrame) : State :=
  if (irigCounted s f).time.irigGood = 3 then setValidSrc (irigCounted s f) 4 true else irigCounted s f

theorem irigCounted_frame (s : State) (f : IrigFrame) : SameRegs (TIM_SRC_STAT.TQ 4 :: selFields) s (irigCounted s f) ∧
    (irigCounted s f).ms = s.ms ∧ SameStores s (irigCounted s f) := by
  have hunc := selects_setSrcUnc s 4 (irigUnc s f)
  exact ⟨hunc.regs, hunc.ms, hunc.sameStores⟩

theorem setValidSrc_true_valid (s : State) (n : Nat) : isSet (setValidSrc s n true) (TIM_SRC_STAT.VALID n) = true := by
  rw [isSet, setValidSrc, if_pos rfl, getF_setF_self]
  rfl

theorem irigJudged_spec (s : State) (f : IrigFrame) : SameRegs (TIM_SRC_STAT.VALID 4 :: TIM_SRC_STAT.TQ 4 :: selFields) s (irigJudged s f) ∧
    (isSet s (TIM_SRC_STAT.VALID 4) = true → isSet (irigJudged s f) (TIM_SRC_STAT.VALID 4) = true) ∧
    (irigJudged s f).ms = s.ms ∧ SameStores s (irigJudged s f) := by
  obtain ⟨hsame, hms, hstores⟩ := irigCounted_frame s f
  unfold irigJudged
  split
  · have hset := selects_setValidSrc_true (irigCounted s f) 4
    exact ⟨(hsame.append hset.regs).mono (by simp), fun _ => setValidSrc_true_valid _ _, hset.ms.trans hms,
      hstores.trans hset.sameStores⟩
  · exact ⟨hsame.mono (by simp),
      (hsame.isSet (srcFields_notin_selFields (by decide) _ (by simp [srcFields]))).trans, hms, hstores⟩

theorem exec_irigbFrame_of_good {s : State} {f : IrigFrame} (hs : srcOn s 4 = true) (hf : irigOk s f = true)
    (hp : getF s (TIM_SRC_CFG.PROFILE 4) = 0) (hv : isSet (irigJudged s f) (TIM_SRC_STAT.VALID 4) = true) :
    exec (.irigbFrame f) s = .next (measured (irigJudged s f) 4
      (irigTai (irigJudged s f) f * secUnit - rawStamp (irigJudged s f) f.stamp)) := by
  have hext : (getF s (TIM_SRC_CFG.PROFILE 4) != 0) = false := by simp [hp]
  simp only [exec, execIrigbFrame, hs, hf, hext, Bool.false_and, Bool.not_true, Bool.false_eq_true, if_false]
  exact congrArg Host.Outcome.next (if_pos hv)

theorem completes_irigbFrame {s : State} {f : IrigFrame} (hs : srcOn s 4 = true) (hf : irigOk s f = true)
    (hv : isSet s (TIM_SRC_STAT.VALID 4) = true) (hp : getF s (TIM_SRC_CFG.PROFILE 4) = 0) :
    Completes (.irigbFrame f) s fun t =>
      getF t (TIM_SRC_OFFSET.OFFSET 4) = offsetNs (irigTai s f * secUnit - rawStamp s f.stamp) ∧
      isSet t (TIM_SRC_STAT.VALID 4) = true ∧ SameStores s t := by
  obtain ⟨hregs, hvalid, hms, hstores⟩ := irigJudged_spec s f
  refine ⟨_, exec_irigbFrame_of_good hs hf hp (hvalid hv), ?_⟩
  rw [rawStamp_of_ms hms, irigTai_of_fields (hregs _ (by decide)) (hregs _ (by decide)) (hregs _ (by decide))]
  obtain ⟨hoff, hkeep, -, -, hstores'⟩ := measured_spec (irigJudged s f) (n := 4) (by decide)
    (irigTai s f * secUnit - rawStamp s f.stamp)
  exact ⟨hoff, hkeep.trans (hvalid hv), hstores.trans hstores'⟩

/-- The 1PPS source after an edge one second after the last, before the measurement. -/
def ppsJudged (s : State) (e : PpsEdge) : State :=
  setValidSrc (setSrcUnc { s with time := { s.time with ppsLast := some (rawStamp s e.stamp) } } 5
    (getF s (TIM_SRC_CFG.SRC_UNC 5) * 10)) 5 true

/-- The whole second nearest a stamp (R34). -/
def nearSecond (x : Nat) : Nat := (x + secUnit / 2) / secUnit * secUnit

theorem ppsJudged_valid (s : State) (e : PpsEdge) : isSet (ppsJudged s e) (TIM_SRC_STAT.VALID 5) = true := setValidSrc_true_valid _ _

theorem exec_ppsEdge_of_regular {s : State} {prev : Nat} {e : PpsEdge} (hs : srcOn s 5 = true)
    (he : e.rising ≠ (getF s (TIM_SRC_CFG.PROFILE 5) % 2 == 1)) (hl : s.time.ppsLast = some prev)
    (hd : ((rawStamp s e.stamp : Int) - prev - secUnit).natAbs ≤ 100000 * nsUnit) :
    exec (.ppsEdge e) s = .next (measured (ppsJudged s e) 5 ((nearSecond (rawStamp s e.stamp) : Int) - rawStamp s e.stamp)) := by
  have hpol : (e.rising == (getF s (TIM_SRC_CFG.PROFILE 5) % 2 == 1)) = false := by simpa using he
  simp only [exec, execPpsEdge, hs, hpol, hl, decide_eq_true hd, Bool.not_true, Bool.or_self, Bool.false_eq_true, if_false, if_true]
  exact congrArg Host.Outcome.next (if_pos (ppsJudged_valid s e))

theorem completes_ppsEdge {s : State} {prev : Nat} {e : PpsEdge} (hs : srcOn s 5 = true)
    (he : e.rising ≠ (getF s (TIM_SRC_CFG.PROFILE 5) % 2 == 1)) (hl : s.time.ppsLast = some prev)
    (hd : ((rawStamp s e.stamp : Int) - prev - secUnit).natAbs ≤ 100000 * nsUnit) :
    Completes (.ppsEdge e) s fun t =>
      t.time.ppsLast = some (rawStamp s e.stamp) ∧ isSet t (TIM_SRC_STAT.VALID 5) = true ∧
      getF t (TIM_SRC_OFFSET.OFFSET 5) = offsetNs ((nearSecond (rawStamp s e.stamp) : Int) - rawStamp s e.stamp) ∧ SameStores s t := by
  have hjudged := (selects_setSrcUnc { s with time := { s.time with ppsLast := some (rawStamp s e.stamp) } } 5
    (getF s (TIM_SRC_CFG.SRC_UNC 5) * 10)).append (selects_setValidSrc_true _ 5)
  obtain ⟨hoff, hvalid, -, hheeds, hstores⟩ := measured_spec (ppsJudged s e) (n := 5) (by decide)
    ((nearSecond (rawStamp s e.stamp) : Int) - rawStamp s e.stamp)
  obtain ⟨-, -, hlast, -⟩ := hjudged.heeds.trans hheeds
  exact ⟨_, exec_ppsEdge_of_regular hs he hl hd, hlast, hvalid.trans (ppsJudged_valid s e), hoff, hjudged.sameStores.trans hstores⟩

theorem exec_ppsEdge_of_other {s : State} {e : PpsEdge} (h : e.rising = (getF s (TIM_SRC_CFG.PROFILE 5) % 2 == 1)) :
    exec (.ppsEdge e) s = .next s :=
  congrArg Host.Outcome.next (if_pos (by simp [h]))

end Sys2Proof.Machine

open Sys2Proof Sys2Proof.Machine Sys2Proof.Machine.Reg

/-- Settles O16: each clause is the lemma of its command; what is lost, selected or measured is said once, of `setValidSrc`,
`changeActive` and `measured`. -/
theorem timeSources : Obligations.TimeSources :=
  ⟨fun _ => ⟨completes_ppsTimeout, completes_irigbPositionMarkerMissing, completes_sblTimexTimeout,
      fun _ a h hp hl => completes_ptpTimeout a h hp hl⟩,
    ⟨fun _ _ hn hs hv hq => completes_sourceQualified hn hs hv hq, fun _ _ ha hb hact hne => completes_sourceSwitch ha hb hact hne⟩,
    fun _ _ hs hf hv hp => completes_irigbFrame hs hf hv hp, fun _ _ _ hs he hl hd => completes_ppsEdge hs he hl hd,
    fun _ _ h => exec_ppsEdge_of_other h⟩
end

section
/-! SUPPORT. A PTP message of the unit enters the queue of its own frames (R29, R31, R340): how long its frame is, which port and queue
take it, and that nothing else of the state than the free values and the queue changes. -/

namespace Sys2Proof.Machine

open Reg

/-! ## Lengths of what is sent -/

@[simp] theorem length_beBytes (n v : Nat) : (beBytes n v).length = n := by
  induction n generalizing v with
  | zero => rfl
  | succ n ih => simp [beBytes, ih]

/-- Bytes that the spec leaves open: so many, and only the counter of the free values moves. -/
theorem drawBytes_eq (n : Nat) (s : State) : ∃ l k, drawBytes n s = (l, { s with freeCtr := k }) ∧ l.length = n := by
  induction n generalizing s with
  | zero => exact ⟨[], s.freeCtr, rfl, rfl⟩
  | succ n ih =>
    obtain ⟨l, k, hl, hlen⟩ := ih (drawFree s).2
    refine ⟨BitVec.ofNat 8 (drawFree s).1 :: l, k, ?_, by simp [hlen]⟩
    rw [drawBytes]
    dsimp only
    rw [hl]
    rfl

theorem announceBody_eq (s : State) (p : Nat) : ∃ l k, announceBody s p = (l, { s with freeCtr := k }) ∧ l.length ≤ 52 := by
  obtain ⟨a, k1, h1, ha⟩ := drawBytes_eq 13 s
  obtain ⟨b, k2, h2, hb⟩ := drawBytes_eq 3 { s with freeCtr := k1 }
  obtain ⟨c, k3, h3, hc⟩ := drawBytes_eq 11 { s with freeCtr := k2 }
  obtain ⟨d, k4, h4, hd⟩ := drawBytes_eq 6 { s with freeCtr := k3 }
  rw [announceBody]
  simp only [h1, h2, h3, h4]
  refine ⟨_, k4, rfl, ?_⟩
  split
  · simp [ha, hb, hc, hd]
  · simp [ha, hb, hc]

@[simp] theorem length_ethHead (s : State) (dst etype : Nat) : (ethHead s dst etype).length = 14 := by simp [ethHead]

@[simp] theorem length_udpBytes (src dst : List Byte) (v6 : Bool) (sport dport : Nat) (data : List Byte) :
    (udpBytes src dst v6 sport dport data).length = data.length + 8 := by
  simp [udpBytes]
  omega

theorem length_ownIp (s : State) (v6 : Bool) : (ownIp s v6).length = if v6 then 16 else 4 := by
  cases v6
  · simp [ownIp]
  · simp [ownIp, List.range_succ]

theorem length_ptpFrame_le (s : State) (p : Nat) (peer event : Bool) (msg : List Byte) :
    (ptpFrame s p peer event msg).length ≤ msg.length + 62 := by
  unfold ptpFrame
  dsimp only
  split
  · simp
    omega
  · split
    · simp [udpFrame, length_ownIp]
      omega
    · simp [udpFrame, length_ownIp]
      omega

/-- A PTP message leaves as a system frame of at most 148 bytes for its port; before it only free values have been taken. -/
theorem ptpSend_eq (s : State) (p kind seq : Nat) (two : Bool) (time : Nat) : ∃ k bytes, bytes.length ≤ 148 ∧
    ptpSend s p kind seq two time = sysSend { s with freeCtr := k } (2 ^ p) bytes true true := by
  obtain ⟨pid, k1, h1, hpid⟩ := drawBytes_eq 14 s
  obtain ⟨tail, k2, h2, htail⟩ := drawBytes_eq 10 { s with freeCtr := k1 }
  obtain ⟨body, k3, h3, hbody⟩ : ∃ body k, (if kind = 11 then announceBody { s with freeCtr := k2 } p
      else (beBytes 6 (taiSec time) ++ beBytes 4 (taiNs time) ++ (if kind = 2 ∨ kind = 3 ∨ kind = 10 then tail else []),
        { s with freeCtr := k2 })) = (body, { s with freeCtr := k }) ∧ body.length ≤ 52 := by
    split
    · exact announceBody_eq { s with freeCtr := k2 } p
    · refine ⟨_, k2, rfl, ?_⟩
      split
      · simp [htail]
      · simp
  obtain ⟨ctl, k4, h4, hctl⟩ := drawBytes_eq 2 { s with freeCtr := k3 }
  rw [ptpSend]
  simp only [h1, h2, h3, h4]
  refine ⟨k4, _, (length_ptpFrame_le ..).trans ?_, rfl⟩
  simp [hpid, hctl]
  omega

/-! ## The queue of the unit's own frames (R340) -/

/-- The port takes system frames: its links' redundancy does not duplicate PTP, and the queue of the unit's own frames has room. -/
structure TakesSystemFrames (s : State) (port : Nat) : Prop where
  port_lt : port < 4
  red : redMode s (port / 2) ≠ 2
  ports : s.egr.ports.length = 4
  queues : (egrPort s port).queues.length = 8
  origin : originOk s 0 true = true
  room : egrRoom s port (getF s EGR_CTRL.SYSQ) probe = true
  sysq : getF s EGR_CTRL.SYSQ < 8

/-- A PTP frame of origin SYS has entered the queue of the unit's own frames; registers and stores stay. -/
def PtpQueued (s : State) (port : Nat) (t : State) : Prop :=
  (∃ f : EgrFrame, f.origin = 0 ∧ f.ptp = true ∧
    nth [] (egrPort t port).queues (getF s EGR_CTRL.SYSQ) = nth [] (egrPort s port).queues (getF s EGR_CTRL.SYSQ) ++ [f]) ∧
    t.regs = s.regs ∧ SameStores s t

theorem egrRoom_of_shorter {s : State} {p q : Nat} {f g : EgrFrame} (h : egrRoom s p q f = true) (hl : g.bytes.length ≤ f.bytes.length) :
    egrRoom s p q g = true := by
  simp only [egrRoom, Bool.and_eq_true, decide_eq_true_eq] at h ⊢
  obtain ⟨hon, hroom⟩ := h
  exact ⟨hon, by omega⟩

theorem egrPut_of_room {s : State} {p q : Nat} {f : EgrFrame} {early : Bool} (ho : originOk s f.origin early = true)
    (hr : egrRoom s p q f = true) :
    (egrPut s p q f early).2 = updEgr s p fun x => { x with queues := upd x.queues q (· ++ [f]) } := by
  simp [egrPut, ho, hr]

/-- A frame for one port passes the other pair by. -/
theorem egrPair_of_other (s : State) {pair p : Nat} (hp : p < 4) (hpair : pair < 2) (h : p / 2 ≠ pair) (q : Nat) (f : EgrFrame)
    (early : Bool) : egrPair s pair (2 ^ p) q f early = (true, s) := by
  have hnamed : [2 * pair, 2 * pair + 1].filter (fun i => bitOf (2 ^ p) i) = [] := by
    revert h
    interval_cases p <;> interval_cases pair <;> decide
  simp [egrPair, hnamed]

/-- A PTP frame goes to its one port of a pair that does not tag it. -/
theorem egrPair_of_own {s : State} {p q : Nat} {f : EgrFrame} {early : Bool} (hp : p < 4) (hf : f.ptp = true)
    (hred : redMode s (p / 2) ≠ 2) : (egrPair s (p / 2) (2 ^ p) q f early).2 = (egrPut s p q f early).2 := by
  have hnamed : [2 * (p / 2), 2 * (p / 2) + 1].filter (fun i => bitOf (2 ^ p) i) = [p] := by
    interval_cases p <;> rfl
  by_cases h0 : redMode s (p / 2) = 0
  · simp [egrPair, hnamed, h0]
  · simp [egrPair, hnamed, h0, hf, hred]

theorem egrSend_ptp {s : State} {p q : Nat} {f : EgrFrame} {early : Bool} (hp : p < 4) (hf : f.ptp = true)
    (hred : redMode s (p / 2) ≠ 2) : (egrSend s (2 ^ p) q f early).2 = (egrPut s p q f early).2 := by
  unfold egrSend
  dsimp only
  rcases (by omega : p / 2 = 0 ∨ p / 2 = 1) with h | h
  · have hown := egrPair_of_own (q := q) (early := early) hp hf hred
    rw [h] at hown
    rw [hown, egrPair_of_other _ hp (by decide) (by omega)]
  · have hown := egrPair_of_own (q := q) (early := early) hp hf hred
    rw [h] at hown
    rw [egrPair_of_other s hp (by decide) (by omega)]
    exact hown

theorem ptpQueued_sysSend {s : State} {port : Nat} (h : TakesSystemFrames s port) {bytes : List Byte} (hl : bytes.length ≤ 200) :
    PtpQueued s port (sysSend s (2 ^ port) bytes true true) := by
  obtain ⟨hp, hred, hports, hqueues, horigin, hroom, hsysq⟩ := h
  rw [sysSend, egrSend_ptp hp rfl hred, egrPut_of_room horigin (egrRoom_of_shorter hroom hl)]
  refine ⟨⟨{ origin := 0, bytes := bytes, slot := none, ptp := true, post := [], tc := none }, rfl, rfl, ?_⟩, rfl, rfl, rfl, rfl⟩
  rw [egrPort, updEgr, nth_upd_self _ (by omega)]
  exact nth_upd_self _ (hqueues ▸ hsysq) _

theorem ptpQueued_ptpSend {s : State} {port : Nat} (h : TakesSystemFrames s port) (n kind seq : Nat) (two : Bool) (time : Nat) :
    PtpQueued s port (ptpSend { s with freeCtr := n } port kind seq two time) := by
  obtain ⟨k, bytes, hl, hsend⟩ := ptpSend_eq { s with freeCtr := n } port kind seq two time
  rw [hsend]
  obtain ⟨hp, hred, hports, hqueues, horigin, hroom, hsysq⟩ := h
  exact ptpQueued_sysSend (s := { s with freeCtr := k }) ⟨hp, hred, hports, hqueues, horigin, hroom, hsysq⟩ (by omega)

theorem completes_peerDelayRequest {s : State} {port : Nat} (h : TakesSystemFrames s port) (hs : srcOn s port = true)
    (ho : portOn s port = true) : Completes (.peerDelayRequest port) s (PtpQueued s port) :=
  ⟨_, congrArg Host.Outcome.next (if_pos (by simp [h.port_lt, hs, ho])), ptpQueued_ptpSend h _ _ _ _ _⟩

theorem completes_ptpMasterSend {s : State} {port : Nat} (h : TakesSystemFrames s port) (hs : srcOn s port = true)
    (ho : portOn s port = true) (kind : Nat) (hm : isSet s (TIM_SRC_CFG.MASTER_OK port) = true) (ha : 4 ≤ getF s TIM_STAT.ACTIVE_SRC) :
    Completes (.ptpMasterSend port kind) s (PtpQueued s port) := by
  refine ⟨_, congrArg Host.Outcome.next (if_pos (by simp [h.port_lt, hs, ho, hm, ha])), ?_⟩
  dsimp only
  split
  · exact ptpQueued_ptpSend h _ _ _ _ _
  · exact ptpQueued_ptpSend h _ _ _ _ _

end Sys2Proof.Machine
end

section
/-! SUPPORT. PTP messages that arrive (R29, R30) and the time exchange of the standby link (R35). -/

namespace Sys2Proof.Machine

open Reg

/-! ## PTP messages in (R29, R30) -/

/-- A message reaches the time system: the port's source and receiver are on, and domain and transport are the port's. -/
structure HearsPtp (s : State) (port : Nat) (m : PtpMsg) : Prop where
  port_lt : port < 4
  src : srcOn s port = true
  on : portOn s port = true
  test : testing s 7 = false
  domain : m.domain = getF s (TIM_SRC_CFG.DOMAIN port)
  transport : m.udp = isSet s (TIM_SRC_CFG.TRANSPORT port)

theorem exec_ptpMessageRx {s : State} {port : Nat} {m : PtpMsg} (h : HearsPtp s port m) :
    exec (.ptpMessageRx port m) s = .next (ptpMessage s port m) := by
  obtain ⟨hp, hs, ho, ht, hd, hu⟩ := h
  exact congrArg Host.Outcome.next (if_pos (by simp [hp, hs, ho, ht, hd, hu]))

theorem selects_leapPending (s : State) : Selects [TIM_STAT.LEAP_PENDING] s (leapPending s) := by
  have htime := selects_time s { s.time with leapAt := (utcSec s / 86400 + 1) * 86400 } ⟨rfl, rfl, rfl, rfl⟩ rfl
  unfold leapPending
  dsimp only
  split
  · exact htime.append (selects_setF _ _ _)
  · exact selects_setF _ _ _

/-- The fields of the leap flags. -/
def leapFlags : List Fld := [TIM_UTC.LEAP61, TIM_UTC.LEAP59, TIM_STAT.LEAP_PENDING]

theorem selects_loadLeap (s : State) (a b : Bool) : Selects leapFlags s (loadLeap s a b) := by
  unfold loadLeap
  split
  · exact (selects_refl s).mono (by simp)
  · exact ((selects_setFs s [(TIM_UTC.LEAP61, b2n a), (TIM_UTC.LEAP59, b2n b)]).append (selects_leapPending _)).mono (by simp [leapFlags])

theorem selects_setValidSrc (s : State) (n : Nat) (v : Bool) :
    Selects ([TIM_SRC_STAT.VALID n, TIM_SRC_STAT.QUALIFIED n] ++ selFields) s (setValidSrc s n v) := by
  cases v
  · exact selects_setValidSrc_false s n
  · exact (selects_setValidSrc_true s n).mono (by simp)

/-- The port's part of the time system that an Announce leaves (R26, R30). -/
def heardAnnounce (m : PtpMsg) (q : PtpPort) : PtpPort :=
  { q with annOk := true, clockClass := m.clockClass, utc := m.utc.map fun u => (unsignedOf 16 u.1, u.2.1, u.2.2) }

/-- The fields that an Announce may write, beyond SLAVE. -/
def announceFields (p : Nat) : List Fld :=
  TIM_SRC_STAT.TQ p :: TIM_SRC_STAT.VALID p :: TIM_SRC_STAT.QUALIFIED p :: TIM_UTC.TAI_UTC :: (leapFlags ++ selFields)

theorem slave_notin_announceFields {p : Nat} (hp : p < 4) : (TIM_SRC_STAT.SLAVE p).key ∉ (announceFields p).map Fld.key := by
  interval_cases p
  all_goals decide

/-- TAI_UTC and the leap flags as the Announce of the active source gives them (R26). -/
def loadAnnounced (s : State) (p : Nat) (m : PtpMsg) : State :=
  match m.utc with
  | some (off, l61, l59) => if getF s TIM_STAT.ACTIVE_SRC = p then
      loadLeap (setF s TIM_UTC.TAI_UTC (unsignedOf 16 off)) l61 l59 else s
  | none => s

theorem selects_loadAnnounced (s : State) (p : Nat) (m : PtpMsg) : Selects (TIM_UTC.TAI_UTC :: leapFlags) s (loadAnnounced s p m) := by
  unfold loadAnnounced
  split
  · split
    · exact (selects_setF _ _ _).append (selects_loadLeap _ _ _)
    · exact (selects_refl s).mono (by simp)
  · exact (selects_refl s).mono (by simp)

theorem ptpAnnounce_eq (s : State) (p : Nat) (m : PtpMsg) : ∃ unc, ptpAnnounce s p m = loadAnnounced
    (ptpJudge (setSrcUnc (setF (updPtp s p (heardAnnounce m)) (TIM_SRC_STAT.SLAVE p) (b2n m.slave)) p unc) p) p m := ⟨_, rfl⟩

/-- An Announce: the port's part and SLAVE, then only selection and the leap flags (R26, R30, R36). -/
theorem selects_ptpAnnounce (s : State) (p : Nat) (m : PtpMsg) :
    Selects (announceFields p) (setF (updPtp s p (heardAnnounce m)) (TIM_SRC_STAT.SLAVE p) (b2n m.slave)) (ptpAnnounce s p m) := by
  obtain ⟨unc, h⟩ := ptpAnnounce_eq s p m
  rw [h]
  refine (((selects_setSrcUnc _ p unc).append (selects_setValidSrc _ p _)).append (selects_loadAnnounced _ p m)).mono fun f => ?_
  simp only [announceFields, List.mem_append, List.mem_cons]
  tauto

theorem completes_announce {s : State} {port : Nat} {m : PtpMsg} (h : HearsPtp s port m) (hl : s.time.ptp.length = 4) (hk : m.kind = 0) :
    Completes (.ptpMessageRx port m) s fun t =>
      getF t (TIM_SRC_STAT.SLAVE port) = b2n m.slave ∧ (nth PtpPort.init t.time.ptp port).annOk = true ∧
      (nth PtpPort.init t.time.ptp port).clockClass = m.clockClass ∧ t.time.tai = s.time.tai ∧ SameStores s t := by
  have hsel := selects_ptpAnnounce s port m
  have hport := ptp_updPtp s (port := port) (by have := h.port_lt; omega) (heardAnnounce m)
  obtain ⟨hptp, -, -, -⟩ := hsel.heeds
  refine ⟨ptpAnnounce s port m, (exec_ptpMessageRx h).trans (by simp only [ptpMessage, hk]), ?_, ?_, ?_, hsel.tai, hsel.sameStores⟩
  · rw [hsel.regs _ (slave_notin_announceFields h.port_lt), getF_setF_self]
    cases m.slave <;> rfl
  · rw [hptp]
    exact (congrArg PtpPort.annOk hport).trans rfl
  · rw [hptp]
    exact (congrArg PtpPort.clockClass hport).trans rfl

/-- A port that hears its master of class 6 is judged valid (R30). -/
theorem ptpJudge_of_heard {s : State} {p : Nat} (hs : isSet s (TIM_SRC_STAT.SLAVE p) = true)
    (ha : (nth PtpPort.init s.time.ptp p).annOk = true) (hy : (nth PtpPort.init s.time.ptp p).syncOk = true)
    (hc : (nth PtpPort.init s.time.ptp p).clockClass = 6) : ptpJudge s p = setValidSrc s p true := by
  simp [ptpJudge, hs, ha, hy, hc]

theorem ptpOffset_of_heard {s : State} {p : Nat} (hp : p < s.time.ptp.length) (hp7 : p < 7) (hs : isSet s (TIM_SRC_STAT.SLAVE p) = true)
    (ha : (nth PtpPort.init s.time.ptp p).annOk = true) (hc : (nth PtpPort.init s.time.ptp p).clockClass = 6)
    (origin : Nat) (corr : Int) (stamp : Nat) : ∃ u, isSet u (TIM_SRC_STAT.VALID p) = true ∧ SameStores s u ∧
      ptpOffset s p origin corr stamp =
        measured u p ((origin : Int) + corr + (getF s (TIM_SRC_DELAY.DELAY p) * nsUnit : Nat) - stamp) := by
  have hport := ptp_updPtp s hp fun q => { q with syncOk := true, twoStep := none }
  have hjudge : ptpJudge (updPtp s p fun q => { q with syncOk := true, twoStep := none }) p =
      setValidSrc (updPtp s p fun q => { q with syncOk := true, twoStep := none }) p true :=
    ptpJudge_of_heard hs (by rw [hport]; exact ha) (by rw [hport]) (by rw [hport]; exact hc)
  have hset := selects_setValidSrc_true (updPtp s p fun q => { q with syncOk := true, twoStep := none }) p
  have hkey : (TIM_SRC_DELAY.DELAY p).key ∉ [TIM_SRC_STAT.VALID p].map Fld.key := by
    interval_cases p
    all_goals decide
  refine ⟨_, setValidSrc_true_valid _ p, hset.sameStores, ?_⟩
  unfold ptpOffset
  dsimp only
  rw [hjudge, if_pos (setValidSrc_true_valid _ p), hset.regs _ hkey]
  rfl

theorem completes_sync {s : State} {port : Nat} {m : PtpMsg} (h : HearsPtp s port m) (hl : s.time.ptp.length = 4) (hk : m.kind = 1)
    (h2 : m.twoStep = false) (hs : isSet s (TIM_SRC_STAT.SLAVE port) = true) (ha : (nth PtpPort.init s.time.ptp port).annOk = true)
    (hc : (nth PtpPort.init s.time.ptp port).clockClass = 6) :
    Completes (.ptpMessageRx port m) s fun t => isSet t (TIM_SRC_STAT.VALID port) = true ∧
      getF t (TIM_SRC_OFFSET.OFFSET port) = offsetNs ((m.origin : Int) + m.corr +
        (getF s (TIM_SRC_DELAY.DELAY port) * nsUnit : Nat) - ptpStamp s port m) ∧ SameStores s t := by
  have hp := h.port_lt
  obtain ⟨u, hvalid, hstores, hoff⟩ := ptpOffset_of_heard (by omega) (by omega) hs ha hc m.origin m.corr (ptpStamp s port m)
  refine ⟨_, (exec_ptpMessageRx h).trans (by simp only [ptpMessage, hk, h2]; rfl), ?_⟩
  rw [hoff]
  obtain ⟨ho, hv, -, -, hstores'⟩ := measured_spec u (n := port) (by omega)
    ((m.origin : Int) + m.corr + (getF s (TIM_SRC_DELAY.DELAY port) * nsUnit : Nat) - ptpStamp s port m)
  exact ⟨hv.trans hvalid, ho, hstores.trans hstores'⟩

theorem completes_twoStepSync {s : State} {port : Nat} {m : PtpMsg} (h : HearsPtp s port m) (hl : s.time.ptp.length = 4)
    (hk : m.kind = 1) (h2 : m.twoStep = true) : Completes (.ptpMessageRx port m) s fun t =>
      (nth PtpPort.init t.time.ptp port).twoStep = some (m.seq, ((ptpStamp s port m : Int) - m.corr).toNat) ∧
      t.regs = s.regs ∧ t.time.tai = s.time.tai ∧ SameStores s t := by
  have hp := h.port_lt
  exact ⟨_, (exec_ptpMessageRx h).trans (by simp only [ptpMessage, hk, h2]; rfl),
    (congrArg PtpPort.twoStep (ptp_updPtp s (by omega) _)).trans rfl, rfl, rfl, rfl, rfl, rfl⟩

theorem completes_peerDelayResponse {s : State} {port t1 : Nat} {m : PtpMsg} (h : HearsPtp s port m) (hl : s.time.ptp.length = 4)
    (hk : m.kind = 4) (h2 : m.twoStep = false) (hq : (nth PtpPort.init s.time.ptp port).pdelay = some (m.seq, t1)) :
    Completes (.ptpMessageRx port m) s fun t =>
      getF t (TIM_SRC_DELAY.DELAY port) =
        ((((ptpStamp s port m : Int) - t1 - m.corr) / 2).toNat / nsUnit) % 2 ^ (TIM_SRC_DELAY.DELAY port).w ∧
      (nth PtpPort.init t.time.ptp port).pdelay = none ∧ SameRegs [TIM_SRC_DELAY.DELAY port] s t ∧ SameStores s t := by
  have hp := h.port_lt
  refine ⟨ptpDelay s port ((ptpStamp s port m : Int) - t1) m.corr,
    (exec_ptpMessageRx h).trans (by simp only [ptpMessage, hk, h2, hq]; simp), getF_setF_self _ _ _,
    (congrArg PtpPort.pdelay (ptp_updPtp s (by omega) _)).trans rfl, ?_, rfl, rfl, rfl⟩
  exact (onlyRegs_setF (updPtp s port fun q => { q with pdelay := none, resp := none }) (TIM_SRC_DELAY.DELAY port) _).1

theorem completes_peerDelayAnswer {s : State} {port : Nat} {m : PtpMsg} (h : HearsPtp s port m) (hf : TakesSystemFrames s port)
    (hk : m.kind = 3) : Completes (.ptpMessageRx port m) s (PtpQueued s port) :=
  ⟨ptpSend s port 3 m.seq true (ptpStamp s port m), (exec_ptpMessageRx h).trans (by simp only [ptpMessage, hk]),
    ptpQueued_ptpSend hf s.freeCtr _ _ _ _⟩

/-! ## The time exchange of the standby link (R35) -/

theorem rawStamp_le_rawStamp (s : State) {x y : Nat} (h : x ≤ y) : rawStamp s x ≤ rawStamp s y :=
  Nat.mul_le_mul_right _ (Nat.div_le_div_right h)

theorem completes_sblTimexSend {s : State} (hs : srcOn s 6 = true) (hu : linkUp s = true) (ht : testing s 9 = false) :
    Completes .sblTimexSend s fun t =>
      ∃ x, t.time = { s.time with sblEx := some (s.time.sblExNo, rawStamp s x), sblExNo := (s.time.sblExNo + 1) % 2 ^ 32 } ∧
        s.time.tai ≤ x ∧ x < s.time.tai + 5 * nsUnit / 2 ∧ t.sby = { s.sby with lastTimex := some (timexBytes
          { response := false, no := s.time.sblExNo, t1 := rawStamp s x, t2 := 0, t3 := 0, t4 := 0, unc := 0, tq := 0 }) } ∧
        t.regs = s.regs ∧ SameStores s t := by
  refine ⟨_, congrArg Host.Outcome.next (if_pos (by simp [hs, hu, ht])),
    s.time.tai + 0 + (drawFree s).1 % (5 * nsUnit / 2), rfl, by omega, ?_, rfl, rfl, rfl, rfl, rfl⟩
  have hlt : (drawFree s).1 % (5 * nsUnit / 2) < 5 * nsUnit / 2 := Nat.mod_lt _ (by decide)
  omega

/-- A frame of the exchange is heard: the link's domain is on, the link is up and not under test. -/
structure HearsTimex (s : State) : Prop where
  present : absent s = false
  dom : domOn s 9 = true
  up : linkUp s = true
  test : testing s 9 = false

theorem HearsTimex.guard {s : State} (h : HearsTimex s) : ¬ (absent s || !domOn s 9 || !linkUp s || testing s 9) = true := by
  obtain ⟨ha, hd, hu, ht⟩ := h
  simp [ha, hd, hu, ht]

theorem completes_timexRequest {s : State} (h : HearsTimex s) {x : Timex} (hx : x.response = false) :
    Completes (.sblTimexRx x) s fun t => ∃ a b, rawStamp s s.time.tai ≤ a ∧ t.sby = { s.sby with
      lastTimex := some (timexBytes { x with response := true, t2 := a, t3 := b, unc := getF s TIM_UNC.UNC, tq := getF s TIM_STAT.TQ }) } ∧
      t.time = s.time ∧ t.regs = s.regs ∧ SameStores s t :=
  ⟨_, congrArg Host.Outcome.next ((if_neg h.guard).trans (if_pos (by simp [hx]))), _, _,
    rawStamp_le_rawStamp s (x := s.time.tai) (y := s.time.tai + 0 + (drawFree s).1 % (5 * nsUnit / 2)) (by omega), rfl, rfl, rfl, rfl, rfl, rfl⟩

/-- What a response gives before it is judged: no exchange in progress, the partner's uncertainty, delay and round trip. -/
def timexTaken (s : State) (unc : Nat) (trip : Int) : State :=
  setFs (setSrcUnc { s with time := { s.time with sblEx := none } } 6 unc)
    [(TIM_SRC_DELAY.DELAY 6, (trip / 2).toNat / nsUnit), (SBY_RTT.NS, trip.toNat / nsUnit)]

theorem selects_timexTaken (s : State) (unc : Nat) (trip : Int) :
    Selects (TIM_SRC_STAT.TQ 6 :: (selFields ++ [TIM_SRC_DELAY.DELAY 6, SBY_RTT.NS])) { s with time := { s.time with sblEx := none } }
      (timexTaken s unc trip) :=
  (selects_setSrcUnc _ 6 unc).append (selects_setFs _ [(TIM_SRC_DELAY.DELAY 6, _), (SBY_RTT.NS, _)])

theorem partnerSrcOk_timexTaken (s : State) (unc : Nat) (trip : Int) : partnerSrcOk (timexTaken s unc trip) = partnerSrcOk s := by
  have hsby : (timexTaken s unc trip).sby = s.sby := (congrArg State.sby (selects_timexTaken s unc trip).rest :)
  rw [partnerSrcOk, partnerSrcOk, hsby]

theorem timexTaken_fields (s : State) (unc : Nat) (trip : Int) :
    getF (timexTaken s unc trip) (TIM_SRC_DELAY.DELAY 6) = ((trip / 2).toNat / nsUnit) % 2 ^ (TIM_SRC_DELAY.DELAY 6).w ∧
    getF (timexTaken s unc trip) SBY_RTT.NS = (trip.toNat / nsUnit) % 2 ^ SBY_RTT.NS.w := by
  have hkeys : ([(TIM_SRC_DELAY.DELAY 6, (trip / 2).toNat / nsUnit), (SBY_RTT.NS, trip.toNat / nsUnit)].map fun p => p.1.key).Nodup := by
    simp only [List.map_cons, List.map_nil]
    decide
  exact ⟨getF_setFs_of_mem _ hkeys (by simp), getF_setFs_of_mem _ hkeys (by simp)⟩

theorem exec_timexResponse {s : State} (h : HearsTimex s) {x : Timex} {t1 : Nat} (hx : x.response = true) (hs : srcOn s 6 = true)
    (he : s.time.sblEx = some (x.no, t1)) (hp : partnerSrcOk s = true) :
    exec (.sblTimexRx x) s = .next (measured
      (setValidSrc (timexTaken s x.unc (((rawStamp s x.t4 : Int) - t1) - ((x.t3 : Int) - x.t2))) 6 true) 6
      ((((x.t2 : Int) - t1) + ((x.t3 : Int) - rawStamp s x.t4)) / 2)) := by
  have hno : ¬ (x.no ≠ x.no ∨ (!srcOn s 6) = true) := by simp [hs]
  simp only [exec, execSblTimexRx, if_neg h.guard, hx, he, if_neg hno]
  exact congrArg Host.Outcome.next (if_pos ((partnerSrcOk_timexTaken ..).trans hp))

theorem completes_timexResponse {s : State} (h : HearsTimex s) {x : Timex} {t1 : Nat} (hx : x.response = true) (hs : srcOn s 6 = true)
    (he : s.time.sblEx = some (x.no, t1)) (hp : partnerSrcOk s = true) :
    let t4 := rawStamp s x.t4
    let trip : Int := ((t4 : Int) - t1) - ((x.t3 : Int) - x.t2)
    Completes (.sblTimexRx x) s fun t => t.time.sblEx = none ∧ isSet t (TIM_SRC_STAT.VALID 6) = true ∧
      getF t (TIM_SRC_DELAY.DELAY 6) = ((trip / 2).toNat / nsUnit) % 2 ^ (TIM_SRC_DELAY.DELAY 6).w ∧
      getF t SBY_RTT.NS = (trip.toNat / nsUnit) % 2 ^ SBY_RTT.NS.w ∧
      getF t (TIM_SRC_OFFSET.OFFSET 6) = offsetNs ((((x.t2 : Int) - t1) + ((x.t3 : Int) - t4)) / 2) ∧ SameStores s t := by
  intro t4 trip
  obtain ⟨hdelay, hrtt⟩ := timexTaken_fields s x.unc trip
  have hset := selects_setValidSrc_true (timexTaken s x.unc trip) 6
  have htaken := selects_timexTaken s x.unc trip
  obtain ⟨hoff, hkeep, hregs, hheeds, hstores⟩ := measured_spec (setValidSrc (timexTaken s x.unc trip) 6 true) (n := 6) (by decide)
    ((((x.t2 : Int) - t1) + ((x.t3 : Int) - t4)) / 2)
  obtain ⟨-, -, -, hex⟩ := (htaken.heeds.trans hset.heeds).trans hheeds
  exact ⟨_, exec_timexResponse h hx hs he hp, hex, hkeep.trans (setValidSrc_true_valid _ 6),
    ((hregs _ (by decide)).trans (hset.regs _ (by decide))).trans hdelay, ((hregs _ (by decide)).trans (hset.regs _ (by decide))).trans hrtt,
    hoff, (htaken.sameStores.trans hset.sameStores).trans hstores⟩

end Sys2Proof.Machine

open Sys2Proof Sys2Proof.Machine Sys2Proof.Machine.Reg

/-- Settles O17: each clause is the lemma of its command; the frames that leave enter the queue by `ptpQueued_ptpSend`, the offsets
that arrive stand in their registers by `measured_spec`. -/
theorem timeExchanges : Obligations.TimeExchanges := by
  refine ⟨fun s port m hp hs ho ht hl hd hu => ?_, fun s port hp hs ho hred hports hqueues horigin hroom hsysq => ?_,
    fun s hs hu ht => completes_sblTimexSend hs hu ht,
    fun s x ha hd hu ht => ⟨completes_timexRequest ⟨ha, hd, hu, ht⟩, fun t1 => completes_timexResponse ⟨ha, hd, hu, ht⟩⟩⟩
  · have h : HearsPtp s port m := ⟨hp, hs, ho, ht, hd, hu⟩
    exact ⟨completes_announce h hl, completes_sync h hl, completes_twoStepSync h hl, fun t1 => completes_peerDelayResponse h hl⟩
  · have h : TakesSystemFrames s port := ⟨hp, hred, hports, hqueues, horigin, hroom, hsysq⟩
    exact ⟨completes_peerDelayRequest h hs ho, fun kind hm ha => completes_ptpMasterSend h hs ho kind hm ha,
      fun m hk ht hd hu => completes_peerDelayAnswer ⟨hp, hs, ho, ht, hd, hu⟩ h hk⟩
end

section
/-! SUPPORT. A command over the host port (R506 to R517, R527): it passes the checks, runs, is journaled and answered, and beyond what it
does itself only the journal, its session and the queue of the host port change. -/

namespace Sys2Proof.Machine

open Reg

/-! ## The journal entry -/

/-- A command has been journaled, and nothing else has changed. -/
structure Logged (rq : ZReq) (code status : Nat) (v w : State) : Prop where
  journaled : Journaled rq code status w
  regs : SameRegs [ZCP_JSEQ.SEQ, ZCP_JLOST.CNT] v w
  rest : w = { v with regs := w.regs, zcp := { v.zcp with journal := w.zcp.journal } }

theorem journalPut_eq (s : State) (a b c d e : Nat) (p : Peer) : ∃ regs entry, journalPut s a b c d e p =
    { s with regs := regs, zcp := { s.zcp with journal := (entry :: s.zcp.journal).take 4096 } } ∧
    entry.opcode = c ∧ entry.status = a ∧ entry.session = b := by
  unfold journalPut incStop
  dsimp only
  split
  · split
    · split
      · exact ⟨_, _, rfl, rfl, rfl, rfl⟩
      · exact ⟨_, _, rfl, rfl, rfl, rfl⟩
    · exact ⟨_, _, rfl, rfl, rfl, rfl⟩
  · exact ⟨_, _, rfl, rfl, rfl, rfl⟩

theorem logged_journalPut (v : State) (rq : ZReq) (code status object detail : Nat) (p : Peer) :
    Logged rq code status v (journalPut v status rq.session code object detail p) := by
  obtain ⟨regs, e, hput, hcode, hstatus, hsession⟩ := journalPut_eq v status rq.session code object detail p
  refine ⟨?_, sameRegs_journalPut v status rq.session code object detail p, ?_⟩
  · rw [Journaled, hput]
    exact ⟨e, rfl, hcode, hstatus, hsession⟩
  · rw [hput]

theorem logged_zJournal {s0 : State} {code : Nat} (hq : zClass s0 code ≠ some .q) (hi : code ≠ 0x0103) (v : State) (rq : ZReq)
    (op : Option ZOp) (status : Nat) : Logged rq code status v (zJournal s0 v rq code op status) := by
  obtain ⟨hj, hregs, hrest⟩ := logged_journalPut { v with mode := s0.mode } rq code status (journalParams v code op).1
    (journalParams v code op).2 rq.peer
  have hz : zJournal s0 v rq code op status = { journalPut { v with mode := s0.mode } status rq.session code (journalParams v code op).1
      (journalParams v code op).2 rq.peer with mode := v.mode } := by
    simp [zJournal, hq, hi]
  rw [hz]
  exact ⟨hj, hregs, (congrArg (fun x : State => { x with mode := v.mode }) hrest :)⟩

/-! ## The reply -/

/-- A command has been journaled and its reply has joined the packets for the host port; nothing else has changed but its session's
cache of replies. -/
structure Answered (rq : ZReq) (code status flags : Nat) (data : List Byte) (v t : State) : Prop where
  spi : t.zcp.spiQueue = v.zcp.spiQueue ++ [answer rq code status flags data]
  journaled : Journaled rq code status t
  regs : SameRegs [ZCP_JSEQ.SEQ, ZCP_JLOST.CNT] v t
  rest : t = { v with
    regs := t.regs
    zcp := { v.zcp with journal := t.zcp.journal, sessions := t.zcp.sessions, spiQueue := t.zcp.spiQueue } }

section
variable {rq : ZReq} {code status flags : Nat} {data : List Byte} {v t : State} (h : Answered rq code status flags data v t)
include h

theorem Answered.nv : t.nv = v.nv := (congrArg State.nv h.rest :)
theorem Answered.sp : t.sp = v.sp := (congrArg State.sp h.rest :)
theorem Answered.time : t.time = v.time := (congrArg State.time h.rest :)
theorem Answered.ms : t.ms = v.ms := (congrArg State.ms h.rest :)
theorem Answered.mode : t.mode = v.mode := (congrArg State.mode h.rest :)
theorem Answered.ops : t.zcp.ops = v.zcp.ops := (congrArg (fun x => x.zcp.ops) h.rest :)
theorem Answered.outbox : t.zcp.outbox = v.zcp.outbox := (congrArg (fun x => x.zcp.outbox) h.rest :)
theorem Answered.sameStores : SameStores v t := ⟨h.sp, congrArg NvSt.nor h.nv, (congrArg State.pins h.rest :)⟩
end

/-- A reply over the host port. -/
theorem zcpReply_eq {rq : ZReq} (h : rq.peer.tr = 3) (s : State) (code status flags : Nat) (data : List Byte) : ∃ sessions,
    zcpReply s rq code status flags data = { s with zcp := { s.zcp with
      sessions := sessions
      spiQueue := s.zcp.spiQueue ++ [answer rq code status flags data] } } := by
  unfold zcpReply sendPacket
  dsimp only
  rw [if_pos h]
  split
  · exact ⟨_, rfl⟩
  · exact ⟨_, rfl⟩

theorem Logged.answered {rq : ZReq} {code status : Nat} {v w : State} (h : Logged rq code status v w) (htr : rq.peer.tr = 3)
    (flags : Nat) (data : List Byte) : Answered rq code status flags data v (zcpReply w rq code status flags data) := by
  obtain ⟨sessions, hz⟩ := zcpReply_eq htr w code status flags data
  have hspi : w.zcp.spiQueue = v.zcp.spiQueue := (congrArg (fun x => x.zcp.spiQueue) h.rest :)
  rw [hz]
  refine ⟨by rw [hspi], h.journaled, h.regs, ?_⟩
  exact (congrArg (fun x : State => { x with zcp := { x.zcp with
    sessions := sessions
    spiQueue := w.zcp.spiQueue ++ [answer rq code status flags data] } }) h.rest :)

/-- The acceptance of an operation that has not sent anything yet. -/
theorem zAccept_eq {s0 w : State} (hspi : w.zcp.spiQueue = s0.zcp.spiQueue) (hout : w.zcp.outbox = s0.zcp.outbox)
    (hlen : s0.zcp.spiQueue.length < 4) {rq : ZReq} (htr : rq.peer.tr = 3) (code k : Nat) :
    zAccept s0 w rq code k = zcpReply w rq code 0 0x20 (beBytes 2 (opHandle w k)) := by
  have hw : { w with zcp := { w.zcp with outbox := s0.zcp.outbox, spiQueue := s0.zcp.spiQueue } } = w := by rw [← hspi, ← hout]
  obtain ⟨sessions, hz⟩ := zcpReply_eq htr w code 0 0x20 (beBytes 2 (opHandle w k))
  have hqueue := congrArg (fun x => x.zcp.spiQueue.length) hz
  unfold zAccept
  dsimp only at hqueue ⊢
  rw [hw, hspi, hout, List.drop_length, List.drop_length]
  generalize zcpReply w rq code 0 0x20 (beBytes 2 (opHandle w k)) = t at *
  have hfull : decide (4 < t.zcp.spiQueue.length + ([] : List (List Byte)).length) = false := by
    rw [hqueue, List.length_append, hspi]
    simp
    omega
  rw [hfull]
  simp only [Bool.false_eq_true, if_false, List.append_nil]

/-! ## Operation slots (R515) -/

/-- A request's operation runs in a slot. -/
def SlotHeld (rq : ZReq) (code k : Nat) (v : State) : Prop :=
  (opSlot v k).st = 1 ∧ (opSlot v k).opcode = code ∧ (opSlot v k).session = rq.session ∧ (opSlot v k).seq = rq.seq

theorem opSlot_of_ops {v t : State} (h : t.zcp.ops = v.zcp.ops) (k : Nat) : opSlot t k = opSlot v k :=
  congrArg (nth OpSlot.init · k) h

theorem opHandle_of_ops {v t : State} (h : t.zcp.ops = v.zcp.ops) (k : Nat) : opHandle t k = opHandle v k := by
  rw [opHandle, opHandle, opSlot_of_ops h]

theorem SlotHeld.of_ops {rq : ZReq} {code k : Nat} {v t : State} (h : SlotHeld rq code k v) (ho : t.zcp.ops = v.zcp.ops) :
    SlotHeld rq code k t := by
  rw [SlotHeld, opSlot_of_ops ho]
  exact h

/-- A slot is taken: only the table of operations changes. -/
theorem opTake_spec {u v : State} {rq : ZReq} {code k : Nat} (h : opTake u rq code = some (k, v)) (hl : u.zcp.ops.length = 8) :
    k < 8 ∧ SlotHeld rq code k v ∧ v = { u with zcp := { u.zcp with ops := v.zcp.ops } } := by
  obtain ⟨i, hi, hv⟩ := Option.map_eq_some_iff.mp h
  cases hv
  have hk : k < 8 := List.mem_range.mp (List.mem_of_find?_eq_some hi)
  refine ⟨hk, ?_, rfl⟩
  have hslot := nth_upd_self OpSlot.init (l := u.zcp.ops) (i := k) (by omega) fun o => { OpSlot.init with
    gen := (o.gen + 1) % 256, st := 1, opcode := code, peer := rq.peer, session := rq.session, seq := rq.seq }
  simp only [SlotHeld, opSlot, updOp, hslot, and_self]

theorem Answered.accepted {s v t : State} {rq : ZReq} {code k : Nat} (h : Answered rq code 0 0x20 (beBytes 2 (opHandle v k)) v t)
    (hspi : v.zcp.spiQueue = s.zcp.spiQueue) (hslot : SlotHeld rq code k v) : Accepted s rq code k t := by
  refine ⟨?_, hslot.of_ops h.ops⟩
  rw [opHandle_of_ops h.ops, ← hspi]
  exact h.spi

/-! ## The checks of a request (R506, R510 to R512, R71) -/

theorem zRequest_of_fresh {s : State} {rq : ZReq} {i : Nat} (hs : sessionSlot s rq.session = some i)
    (hf : (sessionAt s i).high.all (fun h => newer rq.seq h) = true) (code : Nat) (op : Option ZOp) :
    zRequest s rq code op = zRun (noted s rq i) rq code op := by
  have h0 : rq.session ≠ 0 := by
    intro h
    simp [sessionSlot, h] at hs
  rw [zRequest, if_neg h0, hs, noted]
  dsimp only
  cases hh : (sessionAt s i).high with
  | none => exact if_pos rfl
  | some h =>
    have hnew : newer rq.seq h = true := ((Option.all_eq_true _ _).mp hf) h hh
    dsimp only
    rw [if_pos hnew]

/-- A request over the host port that is heard is run. -/
theorem zcpRow_of_heard {s : State} {m : Mode} {rq : ZReq} {i : Nat} (h : Heard s m rq i) (hm : m ≠ .hold) (op : ZOp) :
    zcpRow s rq op = flushOut (zRun (noted s rq i) rq op.code (some op)) := by
  obtain ⟨hmode, ha, hbusy, hout, hheld, htr, hlen, -, hs, hf⟩ := h
  have hrefused : ¬ (absent s || interpreterBusy s || !served s rq.peer.tr ||
      (rq.peer.tr == 3 && decide (4 ≤ s.zcp.spiQueue.length))) = true := by
    simp [ha, hbusy, htr, served, hlen]
  have hwakes : ¬ wakes s rq (some op) = true := by simp [wakes, hmode, hm]
  have hrun : runHeld s = s := by simp [runHeld, hheld]
  rw [zcpRow, if_neg hrefused, if_neg hwakes]
  dsimp only
  rw [hrun, zRequest_of_fresh hs hf]

/-- A command that its mode allows and whose reply fits is executed. -/
theorem zRun_of_allowed {s : State} {rq : ZReq} {op : ZOp} {c : ZClass} (hc : zClass s op.code = some c) (hm : s.mode ≠ .hold)
    (ha : modeAnswer s.mode c = 0) (hl : tooLong s rq op = false) :
    zRun s rq op.code (some op) = if op.code = 0x0900 then
      resetSource (flushOut (zFinish s rq op.code (some op) (zExec s rq op))) 5 false
      else zFinish s rq op.code (some op) (zExec s rq op) := by
  have hmode : (s.mode == .hold) = false := by simpa using hm
  simp [zRun, hc, hmode, ha, hl]

end Sys2Proof.Machine
end

section
/-! SUPPORT. The three outcomes of a command over the host port (R513 to R515): done with its reply, accepted as a long operation, or
answered later; and the commands that change the mode, hand over, set the time and start a test. -/

namespace Sys2Proof.Machine

open Reg

/-! ## Outcomes -/

/-- A command that a mode allows, that is journaled, and whose reply fits its transport. -/
structure Permitted (s : State) (m : Mode) (rq : ZReq) (op : ZOp) (c : ZClass) : Prop where
  cls : zClass s op.code = some c
  allowed : modeAnswer m c = 0
  notQuery : c ≠ .q
  notImage : op.code ≠ 0x0103
  fits : ∀ u, tooLong u rq op = false

theorem zcpRow_of_permitted {s : State} {m : Mode} {rq : ZReq} {i : Nat} {op : ZOp} {c : ZClass} (h : Heard s m rq i) (hm : m ≠ .hold)
    (hp : Permitted s m rq op c) (hr : op.code ≠ 0x0900) :
    zcpRow s rq op = flushOut (zFinish (noted s rq i) rq op.code (some op) (zExec (noted s rq i) rq op)) := by
  have hmode : (noted s rq i).mode = m := h.1
  rw [zcpRow_of_heard h hm, zRun_of_allowed (s := noted s rq i) (c := c) hp.cls (by rwa [hmode]) (by rw [hmode]; exact hp.allowed) (hp.fits _), if_neg hr]

theorem Permitted.logged {s : State} {m : Mode} {rq : ZReq} {op : ZOp} {c : ZClass} (hp : Permitted s m rq op c) (i : Nat) (v : State)
    (status : Nat) : Logged rq op.code status v (zJournal (noted s rq i) v rq op.code (some op) status) := by
  have hcls : zClass (noted s rq i) op.code = some c := hp.cls
  exact logged_zJournal (by rw [hcls]; simpa using hp.notQuery) hp.notImage v rq (some op) status

theorem Heard.spi {s : State} {m : Mode} {rq : ZReq} {i : Nat} (h : Heard s m rq i) : rq.peer.tr = 3 ∧ s.zcp.spiQueue.length < 4 ∧
    s.zcp.outbox = [] := by
  obtain ⟨-, -, -, hout, -, htr, hlen, -⟩ := h
  exact ⟨htr, hlen, hout⟩

/-- A command accepted as a long operation: the reply carries the handle of its slot. -/
theorem zcpRow_accepted {s v : State} {m : Mode} {rq : ZReq} {i k : Nat} {op : ZOp} {c : ZClass} (h : Heard s m rq i) (hm : m ≠ .hold)
    (hp : Permitted s m rq op c) (hr : op.code ≠ 0x0900) (hx : zExec (noted s rq i) rq op = (.accepted k, v))
    (hspi : v.zcp.spiQueue = s.zcp.spiQueue) (hout : v.zcp.outbox = []) :
    Answered rq op.code 0 0x20 (beBytes 2 (opHandle v k)) v (zcpRow s rq op) := by
  obtain ⟨htr, hlen, hsout⟩ := h.spi
  have hlog := hp.logged i v 0
  rw [zcpRow_of_permitted h hm hp hr, hx, zFinish]
  dsimp only
  have hjspi : (zJournal (noted s rq i) v rq op.code (some op) 0).zcp.spiQueue = v.zcp.spiQueue :=
    (congrArg (fun x => x.zcp.spiQueue) hlog.rest :)
  have hjout : (zJournal (noted s rq i) v rq op.code (some op) 0).zcp.outbox = v.zcp.outbox :=
    (congrArg (fun x => x.zcp.outbox) hlog.rest :)
  have hjops : (zJournal (noted s rq i) v rq op.code (some op) 0).zcp.ops = v.zcp.ops :=
    (congrArg (fun x => x.zcp.ops) hlog.rest :)
  rw [zAccept_eq (s0 := noted s rq i) (hjspi.trans hspi) (hjout.trans (hout.trans hsout.symm)) hlen htr, opHandle_of_ops hjops]
  have hans := hlog.answered htr 0x20 (beBytes 2 (opHandle v k))
  rw [flushOut_of_none (hans.outbox.trans hout)]
  exact hans

/-- A command done at once: the reply carries its data. -/
theorem zcpRow_done {s v : State} {m : Mode} {rq : ZReq} {i : Nat} {data : List Byte} {op : ZOp} {c : ZClass} (h : Heard s m rq i)
    (hm : m ≠ .hold) (hp : Permitted s m rq op c) (hr : op.code ≠ 0x0900) (hx : zExec (noted s rq i) rq op = (.done 0 data, v))
    (hout : v.zcp.outbox = []) : Answered rq op.code 0 0 data v (zcpRow s rq op) := by
  obtain ⟨htr, -, -⟩ := h.spi
  have hans := (hp.logged i v 0).answered htr 0 data
  rw [zcpRow_of_permitted h hm hp hr, hx, zFinish]
  dsimp only
  rw [if_pos (Or.inl rfl), flushOut_of_none (hans.outbox.trans hout)]
  exact hans

/-- A command whose reply comes later leaves what it has done. -/
theorem zcpRow_later {s v : State} {m : Mode} {rq : ZReq} {i : Nat} {op : ZOp} {c : ZClass} (h : Heard s m rq i)
    (hm : m ≠ .hold) (hp : Permitted s m rq op c) (hr : op.code ≠ 0x0900) (h7 : op.code ≠ 0x0207)
    (hx : zExec (noted s rq i) rq op = (.later, v)) (hout : v.zcp.outbox = []) : zcpRow s rq op = v := by
  rw [zcpRow_of_permitted h hm hp hr, hx, zFinish]
  dsimp only
  rw [if_neg h7, flushOut_of_none hout]

/-- A command with a short reply over the host port. -/
theorem tooLong_of_short {rq : ZReq} (htr : rq.peer.tr = 3) {op : ZOp} (hl : op.replyLen ≤ 1024) (hj : ∀ a n, op ≠ .journalRead a n)
    (he : ∀ a n, op ≠ .eventRead a n) (u : State) : tooLong u rq op = false := by
  unfold tooLong
  dsimp only
  split
  · exact absurd rfl (hj _ _)
  · exact absurd rfl (he _ _)
  · simp [htr, packetLimit]
    omega

/-! ## MODE_REQ and HANDOVER (R74, R299) -/

theorem trcQueue_frame (s : State) (p : TrcPkt) :
    (trcQueue s p).zcp = s.zcp ∧ (trcQueue s p).ms = s.ms ∧ (trcQueue s p).mode = s.mode := by
  unfold trcQueue
  split
  · exact ⟨rfl, rfl, rfl⟩
  · exact ⟨rfl, rfl, rfl⟩

theorem trcScan_frame (s : State) (t evt : Nat) :
    (trcScan s t evt).zcp = s.zcp ∧ (trcScan s t evt).ms = s.ms ∧ (trcScan s t evt).mode = s.mode := by
  unfold trcScan trcPacket
  split
  · exact trcQueue_frame s _
  · exact ⟨rfl, rfl, rfl⟩

theorem dropHeld_frame (s : State) (t : Nat) :
    (dropHeld s t).zcp = s.zcp ∧ (dropHeld s t).ms = s.ms ∧ (dropHeld s t).mode = s.mode := by
  unfold dropHeld countSkip
  split
  · obtain ⟨hz, hms, hmode⟩ := trcScan_frame (incSat (updTask s t fun k => { k with held := none }) (SCN_CNT.SKIP t) (SCN_TSTAT.SKIP_OVF t)) t 5
    exact ⟨hz.trans (by simp), hms.trans (by simp), hmode.trans (by simp)⟩
  · exact ⟨rfl, rfl, rfl⟩

theorem allTasks_dropHeld_frame (s : State) :
    (allTasks s dropHeld).zcp = s.zcp ∧ (allTasks s dropHeld).ms = s.ms ∧ (allTasks s dropHeld).mode = s.mode := by
  refine List.foldlRecOn (motive := fun u : State => u.zcp = s.zcp ∧ u.ms = s.ms ∧ u.mode = s.mode) _ _ ⟨rfl, rfl, rfl⟩
    fun u hu t _ => ?_
  obtain ⟨hz, hms, hmode⟩ := hu
  obtain ⟨hz', hms', hmode'⟩ := dropHeld_frame u t
  exact ⟨hz'.trans hz, hms'.trans hms, hmode'.trans hmode⟩

theorem completes_zcpModeReq {s s1 : State} {rq : ZReq} {i k : Nat} (h : Heard s .run rq i) (hl : s.zcp.ops.length = 8)
    (hop : s.ms.modeOp = none) (ht : opTake (noted s rq i) rq 0x0500 = some (k, s1)) :
    Completes (.zcpModeReq rq 5) s fun t =>
      Accepted s rq 0x0500 k t ∧ Journaled rq 0x0500 0 t ∧ t.ms.stopPending = true ∧ t.ms.modeOp = some k ∧ t.mode = .run := by
  obtain ⟨-, hslot, hs1⟩ := opTake_spec ht hl
  obtain ⟨htr, -, hout⟩ := h.spi
  obtain ⟨v, hv⟩ : ∃ v : State, v = allTasks { s1 with ms := { s1.ms with modeOp := some k, stopPending := true } } dropHeld := ⟨_, rfl⟩
  have hmode : s1.mode = .run := (congrArg State.mode hs1).trans h.1
  have hx : zExec (noted s rq i) rq (.modeReq 5) = (.accepted k, v) := by
    rw [hv]
    simp only [zExec, zModeReq, ht]
    rw [if_neg (by decide), if_neg (by simp [noted, updSession, hop])]
    simp [modeReq, hmode]
  obtain ⟨hz, hms, hm⟩ := allTasks_dropHeld_frame { s1 with ms := { s1.ms with modeOp := some k, stopPending := true } }
  rw [← hv] at hz hms hm
  have hspi : v.zcp.spiQueue = s.zcp.spiQueue := by rw [hz, hs1]; rfl
  have hvout : v.zcp.outbox = [] := by rw [hz, hs1]; exact hout
  have hp : Permitted s .run rq (.modeReq 5) .m :=
    ⟨rfl, rfl, by decide, by decide, tooLong_of_short htr (by decide) (by simp) (by simp)⟩
  have hans := zcpRow_accepted h (by decide) hp (by decide) hx hspi hvout
  exact ⟨_, rfl, hans.accepted hspi (hslot.of_ops (by rw [hz])), hans.journaled, by rw [hans.ms, hms], by rw [hans.ms, hms],
    by rw [hans.mode, hm, hmode]⟩

theorem completes_zcpHandover {s s1 : State} {rq : ZReq} {i k : Nat} (h : Heard s .run rq i) (hl : s.zcp.ops.length = 8)
    (ht : opTake (noted s rq i) rq 0x0501 = some (k, s1)) (hp : s.sby.present = true) (hm : getF s SBY_STAT.PMODE = 8)
    (hs : isSet s SBY_STAT.SYNC = true) (hh : s.sby.handover = none) :
    Completes (.zcpHandover rq) s fun t =>
      Accepted s rq 0x0501 k t ∧ Journaled rq 0x0501 0 t ∧ t.sby.handover = some (some k) ∧ SameStores s t := by
  obtain ⟨-, hslot, hs1⟩ := opTake_spec ht hl
  obtain ⟨htr, -, hout⟩ := h.spi
  have hmode : s1.mode = .run := (congrArg State.mode hs1).trans h.1
  have hregs (f : Fld) : getF s1 f = getF s f := getF_regs (by rw [hs1]; rfl) f
  have hsby : s1.sby = s.sby := by rw [hs1]; rfl
  have hx : zExec (noted s rq i) rq .handover = (.accepted k, { s1 with sby := { s1.sby with handover := some (some k) } }) := by
    simp only [zExec, zHandover, ht, handoverReq, hmode, hsby, hp, isSet, hregs, hm, hh]
    simp only [isSet] at hs
    simp [hs]
  have hspi : s1.zcp.spiQueue = s.zcp.spiQueue := by rw [hs1]; rfl
  have hvout : s1.zcp.outbox = [] := by rw [hs1]; exact hout
  have hperm : Permitted s .run rq .handover .m :=
    ⟨rfl, rfl, by decide, by decide, tooLong_of_short htr (by decide) (by simp) (by simp)⟩
  have hans := zcpRow_accepted h (by decide) hperm (by decide) hx hspi hvout
  have hstores : SameStores s s1 := by rw [hs1]; exact sameStores_refl s
  exact ⟨_, rfl, hans.accepted hspi hslot, hans.journaled, (congrArg (fun x => x.sby.handover) hans.rest :),
    hstores.trans hans.sameStores⟩

/-! ## SELFTEST_RUN (R82) -/

theorem completes_zcpSelftestRun {s s1 : State} {rq : ZReq} {i n k : Nat} (h : Heard s .stop rq i) (hl : s.zcp.ops.length = 8)
    (hn : 4 ≤ n) (hn' : n ≤ 12) (hd : s.ms.demandTest = none) (ht : opTake (noted s rq i) rq 0x0800 = some (k, s1))
    (hskip : stSkip s1 n = false) :
    Completes (.zcpSelftestRun rq n) s fun t => Accepted s rq 0x0800 k t ∧ Journaled rq 0x0800 0 t ∧
      t.ms.demandTest = some (n, k) ∧ SameRegs [ZCP_JSEQ.SEQ, ZCP_JLOST.CNT] s t ∧ SameStores s t := by
  obtain ⟨-, hslot, hs1⟩ := opTake_spec ht hl
  obtain ⟨htr, -, hout⟩ := h.spi
  have hx : zExec (noted s rq i) rq (.selftestRun n) = (.accepted k, { s1 with ms := { s1.ms with demandTest := some (n, k) } }) := by
    simp only [zExec, zSelftestRun, ht, hskip]
    rw [if_neg (by omega), if_neg (by omega), if_neg (by simp [noted, updSession, hd])]
    simp only [Bool.false_eq_true, if_false]
    rw [if_neg (by omega)]
  have hspi : s1.zcp.spiQueue = s.zcp.spiQueue := by rw [hs1]; rfl
  have hvout : s1.zcp.outbox = [] := by rw [hs1]; exact hout
  have hp : Permitted s .stop rq (.selftestRun n) .s :=
    ⟨rfl, rfl, by decide, by simp [ZOp.code], tooLong_of_short htr (by simp [ZOp.replyLen]) (by simp) (by simp)⟩
  have hans := zcpRow_accepted h (by decide) hp (by simp [ZOp.code]) hx hspi hvout
  have hstores : SameStores s s1 := by rw [hs1]; exact sameStores_refl s
  have hregs (f : Fld) : getF s1 f = getF s f := getF_regs (by rw [hs1]; rfl) f
  exact ⟨_, rfl, hans.accepted hspi hslot, hans.journaled, by rw [hans.ms], fun f hf => (hans.regs f hf).trans (hregs f),
    hstores.trans hans.sameStores⟩

end Sys2Proof.Machine
end

section
/-! SUPPORT. TIME_SET (R42, R45) and RESET (R561, R564) over the host port. -/

namespace Sys2Proof.Machine

open Reg

/-! ## TIME_SET (R42, R45) -/

/-- The counter stepped to a manual time, with its uncertainty (R45). -/
def manualTime (s : State) (t unc : Nat) : State :=
  let u := setUnc (stepClock s ((t : Int) - s.time.tai)) unc
  { u with time := { u.time with manualTq := tqOf unc } }

theorem manualTime_spec (s : State) (t unc : Nat) :
    (manualTime s t unc).time.tai = t ∧ getF (manualTime s t unc) TIM_UNC.UNC = min unc (2 ^ 32 - 1) ∧
    getF (manualTime s t unc) TIM_STAT.TIME_VALID = 1 ∧ getF (manualTime s t unc) TIM_STAT.STEPPED = 1 ∧
    (manualTime s t unc).sp = s.sp ∧ (manualTime s t unc).zcp.spiQueue = s.zcp.spiQueue ∧
    (manualTime s t unc).zcp.outbox = s.zcp.outbox := by
  obtain ⟨u, hu⟩ : ∃ u, u = stepClock s ((t : Int) - s.time.tai) := ⟨_, rfl⟩
  have htai : u.time.tai = t := by
    have hstep : u.time.tai = ((s.time.tai : Int) + ((t : Int) - s.time.tai)).toNat := by rw [hu]; rfl
    omega
  have hstepped : getF u TIM_STAT.STEPPED = 1 := by rw [hu]; exact getF_setRaise_self _ _ _ (by decide)
  have hkeys : ([(TIM_UNC.UNC, min unc (2 ^ 32 - 1)), (TIM_STAT.TQ, tqOf (min unc (2 ^ 32 - 1))), (TIM_STAT.CAL_DERIVED, 0),
      (TIM_STAT.TIME_VALID, 1)].map fun p => p.1.key).Nodup := by
    simp only [List.map_cons, List.map_nil]
    decide
  have hunc := selects_setUnc u unc
  have hman : manualTime s t unc = { setUnc u unc with time := { (setUnc u unc).time with manualTq := tqOf unc } } := by rw [hu]; rfl
  have hregs (f : Fld) : getF (manualTime s t unc) f = getF (setUnc u unc) f := by rw [hman]; rfl
  have hsp : (setUnc u unc).sp = s.sp := by rw [hunc.sameStores.1, hu]; rfl
  refine ⟨?_, ?_, ?_, ?_, ?_, ?_, ?_⟩
  · rw [hman]
    exact hunc.tai.trans htai
  · rw [hregs]
    exact (getF_setFs_of_mem u hkeys (f := TIM_UNC.UNC) (v := min unc (2 ^ 32 - 1)) (by simp)).trans (Nat.mod_eq_of_lt (by simp only [TIM_UNC.UNC]; omega))
  · rw [hregs]
    exact getF_setFs_of_mem u hkeys (f := TIM_STAT.TIME_VALID) (v := 1) (by simp)
  · rw [hregs, hunc.regs _ (by decide), hstepped]
  · rw [hman]
    exact hsp
  · rw [hman]
    exact (congrArg (fun x => x.zcp.spiQueue) hunc.rest :).trans (by rw [hu]; rfl)
  · rw [hman]
    exact (congrArg (fun x => x.zcp.outbox) hunc.rest :).trans (by rw [hu]; rfl)

/-- What a manual set does to the selection: source 0xE becomes active, or holdover grows from the new uncertainty (R45). -/
def manualSelect (s : State) (unc : Nat) : State :=
  if getF s TIM_CTRL.FORCE_SRC = 0xF ∧ isSet s TIM_CTRL.DISC_EN then
    let u := changeActive s 0xE
    reselect { u with time := { u.time with growing := false } }
  else if getF s TIM_STAT.ACTIVE_SRC = 0xF then
    { s with time := { s.time with holdBase := unc, holdStart := s.time.tai, growing := true } }
  else s

theorem selects_manualSelect (s : State) (unc : Nat) : Selects selFields s (manualSelect s unc) := by
  unfold manualSelect
  dsimp only
  split
  · exact ((selects_changeActive s 0xE).append ((selects_time _ { (changeActive s 0xE).time with growing := false } ⟨rfl, rfl, rfl, rfl⟩ rfl).append
      (selects_reselect _))).mono (by simp)
  · split
    · exact (selects_time s { s.time with holdBase := unc, holdStart := s.time.tai, growing := true } ⟨rfl, rfl, rfl, rfl⟩ rfl).mono (by simp)
    · exact (selects_refl s).mono (by simp)

/-- A manual set whose step is allowed: the time, then only the selection. -/
theorem zTimeSet_of_allowed {s : State} {hi lo ns : Nat} (unc : Nat) (hhi : hi < 65536) (hns : ns < 1000000000)
    (hst : stepAllowed s ((((taiOf (hi * 2 ^ 32 + lo) ns : Nat) : Int) - s.time.tai).natAbs / nsUnit) = true) :
    zTimeSet s hi lo ns unc = (.done 0 [], manualSelect (manualTime s (taiOf (hi * 2 ^ 32 + lo) ns) unc) unc) := by
  have hselect (w : State) : (if getF w TIM_CTRL.FORCE_SRC = 0xF ∧ isSet w TIM_CTRL.DISC_EN then
      (ZAns.done 0 [], reselect { changeActive w 0xE with time := { (changeActive w 0xE).time with growing := false } })
    else if getF w TIM_STAT.ACTIVE_SRC = 0xF then
      (ZAns.done 0 [], { w with time := { w.time with holdBase := unc, holdStart := w.time.tai, growing := true } })
    else (ZAns.done 0 [], w)) = (ZAns.done 0 [], manualSelect w unc) := by
    unfold manualSelect
    split
    · rfl
    · split
      · rfl
      · rfl
  have hmod : hi % 65536 = hi := Nat.mod_eq_of_lt hhi
  unfold zTimeSet
  dsimp only
  rw [hmod, if_neg (by omega), hst, if_neg (by simp)]
  exact hselect (manualTime s (taiOf (hi * 2 ^ 32 + lo) ns) unc)

theorem completes_zcpTimeSet {s : State} {rq : ZReq} {i hi lo ns : Nat} (h : Heard s .stop rq i) (unc : Nat) (hhi : hi < 65536)
    (hns : ns < 1000000000)
    (hst : stepAllowed s ((((taiOf (hi * 2 ^ 32 + lo) ns : Nat) : Int) - s.time.tai).natAbs / nsUnit) = true) :
    Completes (.zcpTimeSet rq hi lo ns unc) s fun t => Replied s rq 0x0700 0 [] t ∧ Journaled rq 0x0700 0 t ∧
      t.time.tai = taiOf (hi * 2 ^ 32 + lo) ns ∧ getF t TIM_UNC.UNC = min unc (2 ^ 32 - 1) ∧ getF t TIM_STAT.TIME_VALID = 1 ∧
      getF t TIM_STAT.STEPPED = 1 ∧ t.sp = s.sp := by
  obtain ⟨htr, -, hout⟩ := h.spi
  have hx : zExec (noted s rq i) rq (.timeSet hi lo ns unc) =
      (.done 0 [], manualSelect (manualTime (noted s rq i) (taiOf (hi * 2 ^ 32 + lo) ns) unc) unc) := zTimeSet_of_allowed unc hhi hns hst
  obtain ⟨htai, hunc, hvalid, hstepped, hsp, hwspi, hwout⟩ := manualTime_spec (noted s rq i) (taiOf (hi * 2 ^ 32 + lo) ns) unc
  generalize manualTime (noted s rq i) (taiOf (hi * 2 ^ 32 + lo) ns) unc = w at *
  have hsel := selects_manualSelect w unc
  have hspi : (manualSelect w unc).zcp.spiQueue = w.zcp.spiQueue := (congrArg (fun x => x.zcp.spiQueue) hsel.rest :)
  have hvout : (manualSelect w unc).zcp.outbox = w.zcp.outbox := (congrArg (fun x => x.zcp.outbox) hsel.rest :)
  have hp : Permitted s .stop rq (.timeSet hi lo ns unc) .t :=
    ⟨rfl, rfl, by decide, by simp [ZOp.code], tooLong_of_short htr (by simp [ZOp.replyLen]) (by simp) (by simp)⟩
  have hans := zcpRow_done h (by decide) hp (by simp [ZOp.code]) hx (hvout.trans (hwout.trans hout))
  have hfield {f : Fld} (hj : f.key ∉ [ZCP_JSEQ.SEQ, ZCP_JLOST.CNT].map Fld.key) (hs : f.key ∉ selFields.map Fld.key) :
      getF (zcpRow s rq (.timeSet hi lo ns unc)) f = getF w f := (hans.regs f hj).trans (hsel.regs f hs)
  refine ⟨_, rfl, ?_, hans.journaled, ?_, ?_, ?_, ?_, ?_⟩
  · have hq := hans.spi
    rwa [hspi, hwspi] at hq
  · rw [hans.time, hsel.tai, htai]
  · rw [hfield (by decide) (by decide), hunc]
  · rw [hfield (by decide) (by decide), hvalid]
  · rw [hfield (by decide) (by decide), hstepped]
  · rw [hans.sp, hsel.sameStores.1, hsp]
    rfl

/-! ## RESET (R561, R564, R60) -/

/-- What a reset keeps: the NOR, the journal, TAI and the record of its cause. -/
def ResetKeeps (s t : State) : Prop :=
  t.nv.nor = s.nv.nor ∧ t.zcp.journal = s.zcp.journal ∧ t.time.tai = s.time.tai ∧
    getF t RST_CAUSE.SRC = getF s RST_CAUSE.SRC ∧ getF t RST_CAUSE.LAST = getF s RST_CAUSE.LAST

theorem resetKeeps_refl (s : State) : ResetKeeps s s := ⟨rfl, rfl, rfl, rfl, rfl⟩

theorem ResetKeeps.trans {s t u : State} (h : ResetKeeps s t) (h' : ResetKeeps t u) : ResetKeeps s u := by
  obtain ⟨hnor, hj, htai, hsrc, hlast⟩ := h
  obtain ⟨hnor', hj', htai', hsrc', hlast'⟩ := h'
  exact ⟨hnor'.trans hnor, hj'.trans hj, htai'.trans htai, hsrc'.trans hsrc, hlast'.trans hlast⟩

theorem resetKeeps_setFs (s : State) {l : List (Fld × Nat)} (h : RST_CAUSE.SRC.key ∉ (l.map Prod.fst).map Fld.key)
    (h' : RST_CAUSE.LAST.key ∉ (l.map Prod.fst).map Fld.key) : ResetKeeps s (setFs s l) := by
  obtain ⟨hregs, hrest⟩ := onlyRegs_setFs s l
  exact ⟨(congrArg (fun x => x.nv.nor) hrest :), (congrArg (fun x => x.zcp.journal) hrest :), (congrArg (fun x => x.time.tai) hrest :),
    hregs _ h, hregs _ h'⟩

theorem sget_filter {α : Type} (d : α) (m : List (Nat × α)) {p : Nat × α → Bool} {a : Nat} (h : ∀ v, p (a, v) = true) :
    sget d (m.filter p) a = sget d m a := by
  induction m with
  | nil => rfl
  | cons x m ih =>
    obtain ⟨k, v⟩ := x
    by_cases hk : k = a
    · subst hk
      rw [List.filter_cons_of_pos (h v), sget, sget, if_pos rfl, if_pos rfl]
    · by_cases hp : p (k, v) = true
      · rw [List.filter_cons_of_pos hp, sget, sget, if_neg hk, if_neg hk, ih]
      · rw [List.filter_cons_of_neg hp, ih, sget, if_neg hk]

theorem getF_resetRegs (s : State) {f : Fld} (h : (keptFields.any fun g => g.key == f.key) = true) :
    getF (resetRegs s true) f = getF s f := by
  refine sget_filter f.rst s.regs fun v => ?_
  simp only [Bool.true_and, Bool.or_eq_true]
  exact .inr h

theorem resetKeeps_resetRegs (s : State) : ResetKeeps s (resetRegs s true) :=
  ⟨rfl, rfl, rfl, getF_resetRegs s (by decide), getF_resetRegs s (by decide)⟩

theorem resetKeeps_domainInit (s : State) (d : Nat) : ResetKeeps s (domainInit s d) := by
  unfold domainInit
  split
  · exact ⟨rfl, rfl, rfl, rfl, rfl⟩
  · exact ⟨rfl, rfl, rfl, rfl, rfl⟩
  · exact resetKeeps_setFs (eccWipe codeMem { s with core := { s.core with bankA := [], bankB := [], badA := [], badB := [], dtBad := [] } })
      (by decide) (by decide)
  · exact ⟨rfl, rfl, rfl, rfl, rfl⟩
  · exact ⟨rfl, rfl, rfl, rfl, rfl⟩
  · exact ⟨rfl, rfl, rfl, rfl, rfl⟩
  · exact ⟨rfl, rfl, rfl, rfl, rfl⟩
  · exact resetKeeps_setFs { s with sby := SbySt.init } (l := [(SBY_STAT.LINK, 0)]) (by decide) (by decide)
  · exact ⟨rfl, rfl, rfl, rfl, rfl⟩
  · exact resetKeeps_setFs s (l := [TRC_STAT.FULL, TRC_STAT.DROP_OVF, TRC_STAT.DROP, TRC_WPTR.IDX, TRC_RADDR.IDX].map fun f => (f, f.rst))
      (by decide) (by decide)
  · exact resetKeeps_refl s

theorem resetKeeps_resetParts (s : State) : ResetKeeps s (resetParts s true) := by
  have hdomains : ResetKeeps s (upOrder.foldl domainInit s) :=
    List.foldlRecOn (motive := ResetKeeps s) _ _ (resetKeeps_refl s) fun u hu d _ => hu.trans (resetKeeps_domainInit u d)
  unfold resetParts
  generalize upOrder.foldl domainInit s = u at *
  exact hdomains.trans ⟨rfl, rfl, rfl, rfl, rfl⟩

theorem outbox_resetParts (s : State) : (resetParts s true).zcp.outbox = [] := rfl

theorem strapWarn_frame (s : State) : ResetKeeps s (strapWarn s) ∧ (strapWarn s).zcp = s.zcp := by
  have hset (u : State) (p : Fld × Fld) (hp : p ∈ [(MON_VWARN4.HI, MON_VWARN4.LO), (MON_VWARN5.HI, MON_VWARN5.LO),
      (MON_VWARN6.HI, MON_VWARN6.LO), (MON_VWARN7.HI, MON_VWARN7.LO), (MON_VWARN8.HI, MON_VWARN8.LO)]) :
      ResetKeeps u (setFs u [(p.1, 3630), (p.2, 2970)]) := by
    fin_cases hp
    all_goals exact resetKeeps_setFs u (by decide) (by decide)
  refine List.foldlRecOn (motive := fun u => ResetKeeps s u ∧ u.zcp = s.zcp) _ _ ⟨resetKeeps_refl s, rfl⟩ fun u hu p hp => ?_
  split
  · exact ⟨hu.1.trans (hset u p.1 (List.fst_mem_of_mem_zipIdx hp)), by simpa using hu.2⟩
  · exact hu

theorem timeHoldover_frame (s : State) : ResetKeeps s (timeHoldover s) ∧ (timeHoldover s).zcp = s.zcp := by
  unfold timeHoldover
  dsimp only
  refine ⟨ResetKeeps.trans ⟨rfl, rfl, rfl, rfl, rfl⟩ (resetKeeps_setFs _ (by decide) (by decide)), by simp⟩

/-- Where a reset leads, but for its cause: RESET mode with the mode it came from (R564). -/
theorem toReset_spec {s : State} (h : s.mode ≠ .reset) (code : Nat) :
    ResetKeeps (recordCause s code) (toReset s code false) ∧ (toReset s code false).mode = .reset ∧
    getF (toReset s code false) SYS_MODE.PREV = s.mode.code % 16 ∧ (toReset s code false).zcp.outbox = [] := by
  have hmode : (recordCause s code).mode = s.mode := by simp [recordCause]
  have hne : ((recordCause s code).mode == .reset) = false := by simpa [hmode] using h
  unfold toReset
  simp only [Bool.false_and, Bool.false_eq_true, if_false, hne]
  have hregs := resetKeeps_resetRegs (recordCause s code)
  have hparts := resetKeeps_resetParts (resetRegs (recordCause s code) true)
  have hout := outbox_resetParts (resetRegs (recordCause s code) true)
  generalize resetParts (resetRegs (recordCause s code) true) true = u at *
  obtain ⟨hstrap, hzcp⟩ := strapWarn_frame u
  obtain ⟨hhold, hzcp'⟩ := timeHoldover_frame (strapWarn u)
  have hkeeps := ((hregs.trans hparts).trans hstrap).trans hhold
  have hvout : (timeHoldover (strapWarn u)).zcp.outbox = [] := by rw [hzcp', hzcp, hout]
  generalize timeHoldover (strapWarn u) = v at *
  have hset := resetKeeps_setFs { v with mode := .reset } (l := [(SYS_MODE.PREV, s.mode.code), (PWR_DSTAT.RST, 0xFFC)])
    (by simp only [List.map_cons, List.map_nil]; decide) (by simp only [List.map_cons, List.map_nil]; decide)
  rw [hmode]
  refine ⟨hkeeps.trans hset, by simp, ?_, by simpa using hvout⟩
  exact getF_setFs_cons_of_ne { v with mode := .reset } (by decide)

theorem recordCause_spec {s : State} {code : Nat} (h : s.ms.resetSrc = []) (hc : 1 ≤ code) (hc' : code ≤ 6) :
    getF (recordCause s code) RST_CAUSE.LAST = code ∧ bitOf (getF (recordCause s code) RST_CAUSE.SRC) (code - 1) = true := by
  have hlow : (code :: s.ms.resetSrc).foldl min code = code := by simp [h]
  unfold recordCause
  dsimp only
  rw [hlow]
  constructor
  · exact (getF_setFs_of_mem s (l := [(RST_CAUSE.SRC, getF s RST_CAUSE.SRC ||| 2 ^ (code - 1)), (RST_CAUSE.LAST, code)])
      (by simp only [List.map_cons, List.map_nil]; decide) (f := RST_CAUSE.LAST) (v := code) (by simp)).trans
      (Nat.mod_eq_of_lt (by simp only [RST_CAUSE.LAST]; omega))
  · rw [getF_setFs_cons_of_ne s (by simp only [List.mem_singleton, forall_eq]; decide), bitOf_eq_testBit]
    simp only [RST_CAUSE.SRC, Nat.testBit_mod_two_pow, Nat.testBit_or, Nat.testBit_two_pow_self, Bool.or_true, Bool.and_true,
      decide_eq_true_eq]
    omega

theorem completes_zcpReset {s : State} {rq : ZReq} {i : Nat} (h : Heard s .stop rq i) (hs : s.ms.resetSrc = []) :
    Completes (.zcpReset rq) s fun t => t.mode = .reset ∧ getF t RST_CAUSE.LAST = 5 ∧ bitOf (getF t RST_CAUSE.SRC) 4 = true ∧
      getF t SYS_MODE.PREV = 5 ∧ Journaled rq 0x0900 0 t ∧ t.nv.nor = s.nv.nor ∧ t.time.tai = s.time.tai := by
  obtain ⟨htr, -, hout⟩ := h.spi
  have hp : Permitted s .stop rq .reset .z :=
    ⟨rfl, rfl, by decide, by decide, tooLong_of_short htr (by decide) (by simp) (by simp)⟩
  have hmode : (noted s rq i).mode = .stop := h.1
  have hcode : ZOp.reset.code = 0x0900 := rfl
  have hans := (hp.logged i (noted s rq i) 0).answered htr 0 []
  rw [hcode] at hans
  have hfin : zFinish (noted s rq i) rq 0x0900 (some .reset) (zExec (noted s rq i) rq .reset) =
      zcpReply (zJournal (noted s rq i) (noted s rq i) rq 0x0900 (some .reset) 0) rq 0x0900 0 0 [] := rfl
  have hrow : zcpRow s rq .reset = flushOut (resetSource (flushOut
      (zcpReply (zJournal (noted s rq i) (noted s rq i) rq 0x0900 (some .reset) 0) rq 0x0900 0 0 [])) 5 false) := by
    rw [zcpRow_of_heard h (by decide), zRun_of_allowed (s := noted s rq i) (op := .reset) (c := .z) rfl (by rw [hmode]; decide)
      (by rw [hmode]; rfl) (hp.fits _), if_pos hcode, hcode, hfin]
  generalize zcpReply (zJournal (noted s rq i) (noted s rq i) rq 0x0900 (some .reset) 0) rq 0x0900 0 0 [] = w at *
  have hwmode : w.mode = .stop := hans.mode.trans hmode
  have hwsrc : w.ms.resetSrc = [] := by rw [hans.ms]; exact hs
  obtain ⟨⟨hnor, hj, htai, hsrc, hlast⟩, hreset, hprev, hrout⟩ := toReset_spec (s := w) (by rw [hwmode]; decide) 5
  obtain ⟨hcause, hbit⟩ := recordCause_spec hwsrc (code := 5) (by decide) (by decide)
  have hwout : w.zcp.outbox = [] := hans.outbox.trans hout
  have hsource : resetSource w 5 false = { toReset w 5 false with ms := (resetSource w 5 false).ms } := by
    simp only [resetSource, hwmode]
    rfl
  have hfield (f : Fld) : getF (resetSource w 5 false) f = getF (toReset w 5 false) f := getF_regs (by rw [hsource]) f
  refine ⟨resetSource w 5 false, ?_, ?_, ?_, ?_, ?_, ?_, ?_, ?_⟩
  · rw [flushOut_of_none hwout, flushOut_of_none (by rw [hsource]; exact hrout)] at hrow
    exact congrArg Host.Outcome.next hrow
  · rw [hsource]
    exact hreset
  · rw [hfield, hlast, hcause]
  · rw [hfield, hsrc]
    exact hbit
  · rw [hfield, hprev, hwmode]
    rfl
  · obtain ⟨e, he, hentry⟩ := hans.journaled
    refine ⟨e, ?_, hentry⟩
    rw [hsource]
    exact (congrArg List.head? hj).trans he
  · rw [hsource]
    exact hnor.trans (congrArg NvSt.nor hans.nv)
  · rw [hsource]
    exact htai.trans (congrArg TimeSt.tai hans.time)

end Sys2Proof.Machine
end

section
/-! SUPPORT. The class N commands over the host port (R513, R515, R567, R582, R585 to R587): with the interface free, the command takes
it with its steps, and the first of them starts. -/

namespace Sys2Proof.Machine

open Reg

/-! ## The NOR -/

theorem sget_sclear {α : Type} (d : α) (lo hi : Nat) (m : List (Nat × α)) (a : Nat) :
    sget d (sclear lo hi m) a = if lo ≤ a ∧ a < hi then d else sget d m a := by
  split
  · next h =>
    induction m with
    | nil => rfl
    | cons x m ih =>
      by_cases hx : x.1 < lo ∨ hi ≤ x.1
      · have hne : x.1 ≠ a := by omega
        rw [sclear, List.filter_cons_of_pos (by simpa using hx), sget, if_neg hne]
        exact ih
      · rw [sclear, List.filter_cons_of_neg (by simpa using hx)]
        exact ih
  · next h => exact sget_filter d m fun v => by simp; omega

/-- A sector reads as erased, every other byte as before. -/
theorem norByte_norErase (s : State) (a b : Nat) : norByte (norErase s a) b = if a ≤ b ∧ b < a + 65536 then 0xFF else norByte s b :=
  sget_sclear ..

/-- A slot whose record sector is erased has no record. -/
theorem recordOf_of_erased {s : State} {slot : Nat}
    (h : ∀ b, 0x10000 * slot ≤ b → b < 0x10000 * slot + 65536 → norByte s b = 0xFF) : recordOf s slot = none := by
  have hword : norWord s (0x10000 * slot + 4 * 0) = 0xFFFFFFFF := by
    have hbytes : norBytes s (0x10000 * slot + 4 * 0) 4 = [0xFF, 0xFF, 0xFF, 0xFF] := by
      rw [norBytes, List.range_succ_eq_map]
      simp only [List.range_succ, List.range_zero, List.nil_append, List.map_cons, List.map_nil, List.cons_append]
      rw [h _ (by omega) (by omega), h _ (by omega) (by omega), h _ (by omega) (by omega), h _ (by omega) (by omega)]
    rw [norWord, hbytes]
    rfl
  unfold recordOf
  dsimp only
  rw [if_neg]
  rw [hword]
  exact fun hrec => absurd hrec.1 (by decide)

/-! ## Taking the interface (R584) -/

/-- The interface is free and a NOR is there. -/
structure NvFree (s : State) : Prop where
  holder : s.nv.holder = none
  waiting : s.nv.waiting = []
  reload : s.ms.wakeReload = false
  nor : norAbsent s = false

/-- The state in which a user holds the interface. -/
def held (s : State) (j : NvJob) : State := { s with nv := { s.nv with holder := some j } }

theorem NvFree.busyN {s : State} (h : NvFree s) : nvBusyN s = false := by simp [nvBusyN, h.holder, h.waiting]

theorem nvRequest_of_free {s : State} (hh : s.nv.holder = none) (hw : s.nv.waiting = []) (hr : s.ms.wakeReload = false) {j : NvJob}
    (hj : j.rank = 6) : nvRequest s j = nvGo j.steps (held s j) := by
  have hfree : !nvBusy s ∧ s.nv.waiting.isEmpty := by simp [nvBusy, hh, hw, hr]
  have h4 : ¬ j.rank = 4 := by omega
  have h5 : ¬ j.rank = 5 := by omega
  rw [nvRequest, if_pos hfree, nvTake]
  simp only [if_neg h4, if_neg h5]
  rfl

/-- A step that needs the NOR starts, and the holder keeps it with what follows. -/
theorem nvGo_erase (s : State) (j : NvJob) (a : Nat) (r : List NvStep) : nvGo (.erase a :: r) (held s j) =
    norErase (if j.opcode == 0x0601 && !r.any (fun x => match x with | .erase _ => true | _ => false) then
      opPnr (held s { j with steps := .erase a :: r }) j.op else held s { j with steps := .erase a :: r }) a := by
  rfl

theorem nvGo_program (s : State) (j : NvJob) (a : Nat) (bs : List Byte) (r : List NvStep) :
    nvGo (.program a bs :: r) (held s j) = held s { j with steps := .program a bs :: r } := rfl

theorem nvGo_record (s : State) (j : NvJob) (slot len crc base gen : Nat) (r : List NvStep) :
    nvGo (.record slot len crc base gen :: r) (held s j) = opPnr (held s { j with steps := .record slot len crc base gen :: r }) j.op := rfl

theorem nvGo_verify {s : State} {slot len crc : Nat} (h : crc32 (norBytes s (slotBase slot) len) = crc) (r : List NvStep) :
    nvGo (.verify slot len crc :: r) s = nvGo r s := by
  rw [nvGo, if_pos h]

/-- The job of a class N command that is a long operation. -/
def longJob (k code : Nat) (steps : List NvStep) (result : List Byte) : NvJob :=
  { deviceJob 6 steps with op := some k, opcode := code, result := result }

/-- The job of a class N command whose reply waits. -/
def soonJob (rq : ZReq) (code object : Nat) (steps : List NvStep) : NvJob :=
  { deviceJob 6 steps with reply := some { rq := rq, opcode := code, object := object, detail := 0 }, opcode := code }

theorem nvLong_of_free {s s1 : State} (h : NvFree s) {rq : ZReq} {code k : Nat} (ht : opTake s rq code = some (k, s1))
    (hs1 : s1 = { s with zcp := { s.zcp with ops := s1.zcp.ops } }) (steps : List NvStep) (result : List Byte) :
    nvLong s rq code steps result = (.accepted k, nvGo steps (held s1 (longJob k code steps result))) := by
  have hreq := nvRequest_of_free (s := s1) (j := longJob k code steps result) (by rw [hs1]; exact h.holder) (by rw [hs1]; exact h.waiting)
    (by rw [hs1]; exact h.reload) rfl
  rw [nvLong, ht]
  exact congrArg (Prod.mk (ZAns.accepted k)) hreq

theorem nvSoon_of_free {s : State} (h : NvFree s) (rq : ZReq) (code object : Nat) (steps : List NvStep) :
    nvSoon s rq code object 0 steps = (.later, nvGo steps (held s (soonJob rq code object steps))) :=
  congrArg (Prod.mk ZAns.later) (nvRequest_of_free h.holder h.waiting h.reload rfl)

/-- Before a command of class N runs, its request has been noted. -/
theorem NvFree.noted {s : State} (h : NvFree s) (rq : ZReq) (i : Nat) : NvFree (noted s rq i) := ⟨h.holder, h.waiting, h.reload, h.nor⟩

/-- What a long operation of class N leaves besides the NOR: its slot, with the interface held by its job. -/
structure Holds (s : State) (rq : ZReq) (code k : Nat) (steps : List NvStep) (v : State) : Prop where
  spi : v.zcp.spiQueue = s.zcp.spiQueue
  outbox : v.zcp.outbox = s.zcp.outbox
  slot : SlotHeld rq code k v
  holder : ∃ j, v.nv.holder = some j ∧ j.op = some k ∧ j.steps = steps
  sp : v.sp = s.sp

/-- An accepted long operation of class N. -/
theorem completes_of_holds {s v : State} {rq : ZReq} {i k : Nat} {op : ZOp} {steps : List NvStep} (h : Heard s .stop rq i)
    (hp : Permitted s .stop rq op .n) (hr : op.code ≠ 0x0900) (hx : zExec (noted s rq i) rq op = (.accepted k, v))
    (hv : Holds s rq op.code k steps v) : Accepted s rq op.code k (zcpRow s rq op) ∧ Journaled rq op.code 0 (zcpRow s rq op) ∧
      (zcpRow s rq op).nv = v.nv ∧ (zcpRow s rq op).zcp.ops = v.zcp.ops ∧ (zcpRow s rq op).zcp.imgOpen = v.zcp.imgOpen ∧
      (zcpRow s rq op).sp = s.sp := by
  obtain ⟨-, -, hout⟩ := h.spi
  have hans := zcpRow_accepted h (by decide) hp hr hx hv.spi (hv.outbox.trans hout)
  exact ⟨hans.accepted hv.spi hv.slot, hans.journaled, hans.nv, hans.ops, (congrArg (fun x => x.zcp.imgOpen) hans.rest :),
    hans.sp.trans hv.sp⟩

end Sys2Proof.Machine
end

section
/-! SUPPORT. Each class N command over the host port with the interface free (R567, R582, R585 to R587). -/

namespace Sys2Proof.Machine

open Reg

/-! ## NV_ERASE and NV_PROGRAM (R586, R587) -/

theorem selfBank_of_untouched {s : State} {a n : Nat} (h0 : touchesSlot 0 a n = false) (h1 : touchesSlot 1 a n = false) :
    selfBank s a n = false := by
  unfold selfBank
  dsimp only
  by_cases hb : getF s NVS_STAT.BOOTSLOT < 2
  · rcases (by omega : getF s NVS_STAT.BOOTSLOT = 0 ∨ getF s NVS_STAT.BOOTSLOT = 1) with h | h
    · rw [h, h0, Bool.and_false]
    · rw [h, h1, Bool.and_false]
  · simp [hb]

theorem unrecord_of_untouched {s : State} {a n : Nat} (h0 : touchesSlot 0 a n = false) (h1 : touchesSlot 1 a n = false) :
    unrecord s a n = [] := by
  obtain ⟨h0, -⟩ := Bool.or_eq_false_iff.mp h0
  obtain ⟨h1, -⟩ := Bool.or_eq_false_iff.mp h1
  simp [unrecord, List.range_succ, h0, h1]

/-- A long operation of class N holds the interface: whatever has been erased, and whether or not its slot is past its point of no
return. -/
theorem holds_of_held {s u s1 : State} {rq : ZReq} {code k : Nat} {steps : List NvStep} {result : List Byte}
    (hu : u.zcp.spiQueue = s.zcp.spiQueue ∧ u.zcp.outbox = s.zcp.outbox ∧ u.sp = s.sp) (hslot : SlotHeld rq code k s1)
    (hs1 : s1 = { u with zcp := { u.zcp with ops := s1.zcp.ops } }) :
    Holds s rq code k steps (held s1 (longJob k code steps result)) := by
  obtain ⟨hspi, hout, hsp⟩ := hu
  refine ⟨?_, ?_, hslot, ⟨_, rfl, rfl, rfl⟩, ?_⟩
  · rw [held, hs1]
    exact hspi
  · rw [held, hs1]
    exact hout
  · rw [held, hs1]
    exact hsp

theorem Holds.norErase {s v : State} {rq : ZReq} {code k : Nat} {steps : List NvStep} (h : Holds s rq code k steps v) (a : Nat) :
    Holds s rq code k steps (norErase v a) := ⟨h.spi, h.outbox, h.slot, h.holder, h.sp⟩

theorem opSlot_opPnr {s : State} {k : Nat} (hk : k < s.zcp.ops.length) : opSlot (opPnr s (some k)) k = { opSlot s k with pnr := true } :=
  nth_upd_self _ hk _

theorem Holds.opPnr {s v : State} {rq : ZReq} {code k : Nat} {steps : List NvStep} (h : Holds s rq code k steps v)
    (hk : k < v.zcp.ops.length) : Holds s rq code k steps (opPnr v (some k)) := by
  refine ⟨h.spi, h.outbox, ?_, h.holder, h.sp⟩
  rw [SlotHeld, opSlot_opPnr hk]
  exact h.slot

theorem opTake_length {u v : State} {rq : ZReq} {code k : Nat} (h : opTake u rq code = some (k, v)) :
    v.zcp.ops.length = u.zcp.ops.length := by
  obtain ⟨j, -, hj⟩ := Option.map_eq_some_iff.mp h
  cases hj
  simp [updOp, upd]

theorem zNvErase_of_free {s s1 : State} (h : NvFree s) {rq : ZReq} {a k : Nat} (ha : a % 65536 = 0)
    (hb : a + 65536 ≤ getF s NVS_SIZE.BYTES) (hd : deviceOwned a 65536 = false) (hn : neverWritten a 65536 = false)
    (h0 : touchesSlot 0 a 65536 = false) (h1 : touchesSlot 1 a 65536 = false) (ht : opTake s rq 0x0601 = some (k, s1))
    (hs1 : s1 = { s with zcp := { s.zcp with ops := s1.zcp.ops } }) :
    zNvErase s rq a 65536 = (.accepted k, norErase (opPnr (held s1 (longJob k 0x0601 [.erase a] [])) (some k)) a) := by
  have hsteps : unrecord s a 65536 ++ eraseSteps a 65536 = [.erase a] := by simp [unrecord_of_untouched h0 h1, eraseSteps]
  unfold zNvErase
  rw [if_neg (by omega), h.busyN, h.nor, selfBank_of_untouched h0 h1, hd, hn, hsteps, nvLong_of_free h ht hs1, nvGo_erase]
  simp only [Bool.false_eq_true, if_false, or_false]
  rw [if_neg (by omega)]
  rfl

theorem completes_zcpNvErase {s s1 : State} {rq : ZReq} {i a k : Nat} (h : Heard s .stop rq i) (hl : s.zcp.ops.length = 8)
    (hf : NvFree s) (ha : a % 65536 = 0) (hb : a + 65536 ≤ getF s NVS_SIZE.BYTES) (hd : deviceOwned a 65536 = false)
    (hn : neverWritten a 65536 = false) (h0 : touchesSlot 0 a 65536 = false) (h1 : touchesSlot 1 a 65536 = false)
    (ht : opTake (noted s rq i) rq 0x0601 = some (k, s1)) :
    Completes (.zcpNvErase rq a 65536) s fun t => Accepted s rq 0x0601 k t ∧ Journaled rq 0x0601 0 t ∧
      (∀ b, norByte t b = if a ≤ b ∧ b < a + 65536 then 0xFF else norByte s b) ∧
      (∃ j, t.nv.holder = some j ∧ j.op = some k ∧ j.steps = [.erase a]) ∧ (opSlot t k).pnr = true ∧ t.sp = s.sp := by
  obtain ⟨hk, hslot, hs1⟩ := opTake_spec ht hl
  obtain ⟨htr, -, -⟩ := h.spi
  have hlen : s1.zcp.ops.length = 8 := (opTake_length ht).trans hl
  have hx : zExec (noted s rq i) rq (.nvErase a 65536) =
      (.accepted k, norErase (opPnr (held s1 (longJob k 0x0601 [.erase a] [])) (some k)) a) :=
    zNvErase_of_free (hf.noted rq i) ha hb hd hn h0 h1 ht hs1
  have hholds := ((holds_of_held (s := s) (u := noted s rq i) (steps := [.erase a]) (result := []) ⟨rfl, rfl, rfl⟩ hslot hs1).opPnr
    (show k < s1.zcp.ops.length by omega)).norErase a
  have hp : Permitted s .stop rq (.nvErase a 65536) .n :=
    ⟨rfl, rfl, by decide, by simp [ZOp.code], tooLong_of_short htr (by simp [ZOp.replyLen]) (by simp) (by simp)⟩
  obtain ⟨hacc, hj, hnv, hops, -, hsp⟩ := completes_of_holds h hp (by simp [ZOp.code]) hx hholds
  have hnor (b : Nat) : norByte (opPnr (held s1 (longJob k 0x0601 [.erase a] [])) (some k)) b = norByte s b := by
    have hs1nor : s1.nv.nor = s.nv.nor := by rw [hs1]; rfl
    exact congrArg (sget 0xFF · b) hs1nor
  refine ⟨_, rfl, hacc, hj, fun b => ?_, ?_, ?_, hsp⟩
  · rw [← hnor b, ← norByte_norErase]
    exact congrArg (fun x => sget 0xFF x.nor b) hnv
  · rw [hnv]
    exact hholds.holder
  · rw [opSlot_of_ops hops]
    exact congrArg OpSlot.pnr (opSlot_opPnr (s := held s1 (longJob k 0x0601 [.erase a] [])) (show k < s1.zcp.ops.length by omega))

theorem zNvProgram_of_free {s : State} (h : NvFree s) (rq : ZReq) {a : Nat} {bs : List Byte} (hb : 0 < bs.length)
    (hpage : a % 256 + bs.length ≤ 256) (hsize : a + bs.length ≤ getF s NVS_SIZE.BYTES) (hd : deviceOwned a bs.length = false)
    (hn : neverWritten a bs.length = false) (h0 : touchesSlot 0 a bs.length = false) (h1 : touchesSlot 1 a bs.length = false) :
    zNvProgram s rq a bs = (.later, held s (soonJob rq 0x0602 a [.program a bs])) := by
  unfold zNvProgram
  dsimp only
  rw [if_neg (by omega), h.busyN, h.nor, selfBank_of_untouched h0 h1, hd, hn, unrecord_of_untouched h0 h1, nvSoon_of_free h,
    List.nil_append, nvGo_program]
  simp only [Bool.false_eq_true, if_false, or_false]
  rw [if_neg (by omega)]
  rfl

theorem completes_zcpNvProgram {s : State} {rq : ZReq} {i a : Nat} {bs : List Byte} (h : Heard s .stop rq i) (hf : NvFree s)
    (hb : 0 < bs.length) (hpage : a % 256 + bs.length ≤ 256) (hsize : a + bs.length ≤ getF s NVS_SIZE.BYTES)
    (hd : deviceOwned a bs.length = false) (hn : neverWritten a bs.length = false) (h0 : touchesSlot 0 a bs.length = false)
    (h1 : touchesSlot 1 a bs.length = false) :
    Completes (.zcpNvProgram rq a bs) s fun t => t.zcp.spiQueue = s.zcp.spiQueue ∧ t.regs = s.regs ∧ SameStores s t ∧
      ∃ j, t.nv.holder = some j ∧ j.steps = [.program a bs] ∧ j.opcode = 0x0602 ∧ j.reply.isSome = true := by
  obtain ⟨htr, -, hout⟩ := h.spi
  have hp : Permitted s .stop rq (.nvProgram a bs) .n :=
    ⟨rfl, rfl, by decide, by simp [ZOp.code], tooLong_of_short htr (by simp [ZOp.replyLen]) (by simp) (by simp)⟩
  have hrow := zcpRow_later h (by decide) hp (by simp [ZOp.code]) (by simp [ZOp.code])
    (zNvProgram_of_free (hf.noted rq i) rq hb hpage hsize hd hn h0 h1) hout
  exact ⟨_, congrArg Host.Outcome.next hrow, rfl, rfl, ⟨rfl, rfl, rfl⟩, _, rfl, rfl, rfl, rfl⟩

/-! ## Images (R585) -/

/-- A long operation that begins with an erase other than NV_ERASE's. -/
theorem nvGo_longErase (s : State) {code : Nat} (hc : code ≠ 0x0601) (k a : Nat) (r : List NvStep) (result : List Byte) :
    nvGo (.erase a :: r) (held s (longJob k code (.erase a :: r) result)) =
      norErase (held s (longJob k code (.erase a :: r) result)) a := by
  have hcode : ((longJob k code (.erase a :: r) result).opcode == 0x0601) = false := by simpa [longJob] using hc
  rw [nvGo_erase, hcode, Bool.false_and, if_neg (by decide)]
  rfl

theorem recordOf_norErase (s : State) (slot : Nat) : recordOf (norErase s (0x10000 * slot)) slot = none :=
  recordOf_of_erased fun b hb hb' => by rw [norByte_norErase, if_pos (by omega)]

theorem norBytes_of_nor {s t : State} (h : t.nv.nor = s.nv.nor) : norBytes t = norBytes s := by
  funext a n
  simp only [norBytes, norByte, h]

theorem recordOf_of_nor {s t : State} (h : t.nv.nor = s.nv.nor) (slot : Nat) : recordOf t slot = recordOf s slot := by
  unfold recordOf norWord
  rw [norBytes_of_nor h]

/-- The steps of NV_IMAGE_OPEN: the record of the slot, then its sectors (Table 20.9). -/
def openSteps (slot len : Nat) : List NvStep := .erase (0x10000 * slot) :: eraseSteps (slotBase slot) len

theorem zNvImageOpen_of_free {s s1 : State} (h : NvFree s) {rq : ZReq} {slot len crc k : Nat} (hslot : slot < 2) (hlen : len ≤ 0x800000)
    (hboot : getF s NVS_STAT.BOOTSLOT ≠ slot)
    (ht : opTake { s with zcp := { s.zcp with imgOpen := some (slot, len, crc, newGen s) } } rq 0x0603 = some (k, s1))
    (hs1 : s1 = { s with zcp := { s.zcp with imgOpen := some (slot, len, crc, newGen s), ops := s1.zcp.ops } }) :
    zNvImageOpen s rq slot len crc =
      (.accepted k, norErase (held s1 (longJob k 0x0603 (openSteps slot len) [])) (0x10000 * slot)) := by
  have hlong := nvLong_of_free (s := { s with zcp := { s.zcp with imgOpen := some (slot, len, crc, newGen s) } })
    ⟨h.holder, h.waiting, h.reload, h.nor⟩ ht hs1 (openSteps slot len) []
  unfold zNvImageOpen
  rw [if_neg (by omega), h.busyN, h.nor, if_neg (by decide), if_neg (by decide), if_neg hboot]
  rw [openSteps] at hlong ⊢
  rw [hlong, nvGo_longErase _ (by decide)]

theorem completes_zcpNvImageOpen {s s1 : State} {rq : ZReq} {i slot len crc k : Nat} (h : Heard s .stop rq i)
    (hl : s.zcp.ops.length = 8) (hf : NvFree s) (hslot : slot < 2) (hlen : len ≤ 0x800000) (hboot : getF s NVS_STAT.BOOTSLOT ≠ slot)
    (ht : opTake { noted s rq i with zcp := { (noted s rq i).zcp with
      imgOpen := some (slot, len, crc, newGen (noted s rq i)) } } rq 0x0603 = some (k, s1)) :
    Completes (.zcpNvImageOpen rq slot len crc) s fun t => Accepted s rq 0x0603 k t ∧ Journaled rq 0x0603 0 t ∧
      t.zcp.imgOpen = some (slot, len, crc, newGen (noted s rq i)) ∧ recordOf t slot = none ∧
      ∃ j, t.nv.holder = some j ∧ j.op = some k ∧ j.steps.head? = some (.erase (0x10000 * slot)) := by
  obtain ⟨-, htaken, hs1⟩ := opTake_spec ht hl
  obtain ⟨htr, -, -⟩ := h.spi
  have hx : zExec (noted s rq i) rq (.nvImageOpen slot len crc) =
      (.accepted k, norErase (held s1 (longJob k 0x0603 (openSteps slot len) [])) (0x10000 * slot)) :=
    zNvImageOpen_of_free (hf.noted rq i) hslot hlen hboot ht hs1
  have hholds := (holds_of_held (s := s) (u := { noted s rq i with zcp := { (noted s rq i).zcp with
    imgOpen := some (slot, len, crc, newGen (noted s rq i)) } }) (steps := openSteps slot len) (result := []) ⟨rfl, rfl, rfl⟩ htaken
    hs1).norErase (0x10000 * slot)
  have hp : Permitted s .stop rq (.nvImageOpen slot len crc) .n :=
    ⟨rfl, rfl, by decide, by simp [ZOp.code], tooLong_of_short htr (by simp [ZOp.replyLen]) (by simp) (by simp)⟩
  obtain ⟨hacc, hj, hnv, -, himg, -⟩ := completes_of_holds h hp (by simp [ZOp.code]) hx hholds
  obtain ⟨j, hholder, hop, hsteps⟩ := hholds.holder
  refine ⟨_, rfl, hacc, hj, himg.trans ?_, (recordOf_of_nor (congrArg NvSt.nor hnv) slot).trans (recordOf_norErase _ slot),
    j, by rw [hnv, hholder], hop, by rw [hsteps]; rfl⟩
  exact (congrArg (fun x => x.zcp.imgOpen) hs1 :)

theorem pageSteps_eq {a : Nat} {bs : List Byte} (h : 0 < bs.length) : ∃ page rest, pageSteps a bs = .program a page :: rest := by
  unfold pageSteps
  dsimp only
  rw [if_neg (by omega)]
  exact ⟨_, _, rfl⟩

theorem completes_zcpNvImageData {s : State} {rq : ZReq} {i ofs slot len crc gen : Nat} {bs : List Byte} (h : Heard s .stop rq i)
    (hf : NvFree s) (himg : s.zcp.imgOpen = some (slot, len, crc, gen)) (hb : 0 < bs.length) (hb' : bs.length ≤ 1024)
    (hlen : ofs + bs.length ≤ len) :
    Completes (.zcpNvImageData rq ofs bs) s fun t => t.zcp.spiQueue = s.zcp.spiQueue ∧
      ∃ j, t.nv.holder = some j ∧ j.steps = pageSteps (slotBase slot + ofs) bs ∧ j.opcode = 0x0604 := by
  obtain ⟨htr, -, hout⟩ := h.spi
  have himg' : (noted s rq i).zcp.imgOpen = some (slot, len, crc, gen) := himg
  obtain ⟨page, rest, hsteps⟩ := pageSteps_eq (a := slotBase slot + ofs) hb
  have hx : zExec (noted s rq i) rq (.nvImageData ofs bs) =
      (.later, held (noted s rq i) (soonJob rq 0x0604 ofs (pageSteps (slotBase slot + ofs) bs))) := by
    have hfree := hf.noted rq i
    rw [zExec, zNvImageData, if_neg (by omega), hfree.busyN, hfree.nor, if_neg (by decide), if_neg (by decide), himg']
    dsimp only
    rw [if_neg (by omega), nvSoon_of_free hfree, hsteps, nvGo_program]
    rfl
  have hp : Permitted s .stop rq (.nvImageData ofs bs) .n :=
    ⟨rfl, rfl, by decide, by simp [ZOp.code], tooLong_of_short htr (by simp [ZOp.replyLen]) (by simp) (by simp)⟩
  have hrow := zcpRow_later h (by decide) hp (by simp [ZOp.code]) (by simp [ZOp.code]) hx hout
  exact ⟨_, congrArg Host.Outcome.next hrow, rfl, _, rfl, rfl, rfl⟩

theorem completes_zcpNvImageClose {s s1 : State} {rq : ZReq} {i slot len crc gen k : Nat} (h : Heard s .stop rq i)
    (hl : s.zcp.ops.length = 8) (hf : NvFree s) (himg : s.zcp.imgOpen = some (slot, len, crc, gen))
    (hcrc : crc32 (norBytes s (slotBase slot) len) = crc) (ht : opTake (noted s rq i) rq 0x0605 = some (k, s1)) :
    Completes (.zcpNvImageClose rq) s fun t => Accepted s rq 0x0605 k t ∧ Journaled rq 0x0605 0 t ∧ t.nv.nor = s.nv.nor ∧
      ∃ j, t.nv.holder = some j ∧ j.op = some k ∧ j.steps = [.record slot len crc (getF s TXN_CREC_LAST.SEQ) gen] := by
  obtain ⟨hk, htaken, hs1⟩ := opTake_spec ht hl
  obtain ⟨htr, -, -⟩ := h.spi
  have himg' : (noted s rq i).zcp.imgOpen = some (slot, len, crc, gen) := himg
  have hnor : s1.nv.nor = s.nv.nor := by rw [hs1]; rfl
  have hread (j : NvJob) : crc32 (norBytes (held s1 j) (slotBase slot) len) = crc := by
    rw [norBytes_of_nor (t := held s1 j) hnor]
    exact hcrc
  have hx : zExec (noted s rq i) rq .nvImageClose = (.accepted k, opPnr (held s1 (longJob k 0x0605
      [.record slot len crc (getF s TXN_CREC_LAST.SEQ) gen] [])) (some k)) := by
    have hfree := hf.noted rq i
    rw [zExec, zNvImageClose, hfree.busyN, hfree.nor, if_neg (by decide), if_neg (by decide), himg']
    dsimp only
    rw [nvLong_of_free hfree ht hs1, nvGo_verify (hread _), nvGo_record]
    rfl
  have hholds := (holds_of_held (s := s) (u := noted s rq i) (steps := [.record slot len crc (getF s TXN_CREC_LAST.SEQ) gen])
    (result := []) ⟨rfl, rfl, rfl⟩ htaken hs1).opPnr (hk.trans_eq ((opTake_length ht).trans hl).symm)
  have hp : Permitted s .stop rq .nvImageClose .n :=
    ⟨rfl, rfl, by decide, by decide, tooLong_of_short htr (by decide) (by simp) (by simp)⟩
  obtain ⟨hacc, hj, hnv, -, -, -⟩ := completes_of_holds h hp (by decide) hx hholds
  exact ⟨_, rfl, hacc, hj, (congrArg NvSt.nor hnv).trans hnor, by rw [hnv]; exact hholds.holder⟩

/-! ## NV_SAVE (R582, R585) -/

/-- A snapshot taken while a class N command holds the interface waits for it. -/
theorem takeSnapshot_of_held {s : State} {j : NvJob} (h : s.nv.holder = some j) (hj : j.rank = 6) (hw : s.nv.waiting = [])
    (hn : norAbsent s = false) :
    takeSnapshot s = { s with nv := { s.nv with snapshot := some (snapshotNow s), waiting := [deviceJob 5 []] } } := by
  have hdrop : nvDropRank s 5 = s := by
    have hrank : ¬ j.rank = 5 := by omega
    simp only [nvDropRank, h, hw, Option.map_some, if_neg hrank, List.filter_nil]
    rw [← h, ← hw]
  have hbusy : ¬ (!nvBusy { s with nv := { s.nv with snapshot := some (snapshotNow s) } } ∧
      { s with nv := { s.nv with snapshot := some (snapshotNow s) } }.nv.waiting.isEmpty) := by simp [nvBusy, h]
  unfold takeSnapshot
  rw [hn, if_neg (by decide), hdrop]
  dsimp only
  rw [nvRequest, if_neg hbusy]
  simp only [hw, List.nil_append]

/-- The slot that NV_SAVE writes: the one not booted from. -/
def saveSlot (s : State) : Nat := if getF s NVS_STAT.BOOTSLOT = 0 then 1 else 0

/-- The steps of NV_SAVE (R585). -/
def saveSteps (s : State) : List NvStep :=
  NvStep.erase (0x10000 * saveSlot s) :: eraseSteps (slotBase (saveSlot s)) (savedImage s).length ++
    pageSteps (slotBase (saveSlot s)) (savedImage s) ++
    [.verify (saveSlot s) (savedImage s).length (crc32 (savedImage s)),
      .record (saveSlot s) (savedImage s).length (crc32 (savedImage s)) (getF s TXN_CREC_LAST.SEQ) (newGen s)]

theorem saveSteps_eq (s : State) : ∃ rest, saveSteps s = .erase (0x10000 * saveSlot s) :: rest := by
  rw [saveSteps, List.cons_append, List.cons_append]
  exact ⟨_, Eq.refl _⟩

theorem zNvSave_of_free {s s1 : State} (h : NvFree s) {rq : ZReq} {k : Nat} (hlen : (savedImage s).length ≤ 0x800000)
    (ht : opTake s rq 0x0606 = some (k, s1)) (hs1 : s1 = { s with zcp := { s.zcp with ops := s1.zcp.ops } }) :
    zNvSave s rq = (.accepted k, takeSnapshot (nvGo (saveSteps s)
      (held s1 (longJob k 0x0606 (saveSteps s) (beBytes 1 (saveSlot s)))))) := by
  have hlong := nvLong_of_free h ht hs1 (saveSteps s) (beBytes 1 (saveSlot s))
  unfold zNvSave
  rw [h.busyN, h.nor, if_neg (by decide), if_neg (by decide)]
  dsimp only
  rw [if_neg (by omega)]
  rw [saveSteps, saveSlot] at hlong ⊢
  rw [hlong]

theorem completes_zcpNvSave {s s1 : State} {rq : ZReq} {i k : Nat} (h : Heard s .stop rq i) (hl : s.zcp.ops.length = 8) (hf : NvFree s)
    (hlen : (savedImage (noted s rq i)).length ≤ 0x800000) (ht : opTake (noted s rq i) rq 0x0606 = some (k, s1)) :
    Completes (.zcpNvSave rq) s fun t => Accepted s rq 0x0606 k t ∧ Journaled rq 0x0606 0 t ∧ recordOf t (saveSlot s) = none ∧
      (∃ j, t.nv.holder = some j ∧ j.op = some k) ∧ t.nv.snapshot.isSome = true := by
  obtain ⟨-, htaken, hs1⟩ := opTake_spec ht hl
  obtain ⟨htr, -, -⟩ := h.spi
  have hx : zExec (noted s rq i) rq .nvSave = _ := zNvSave_of_free (hf.noted rq i) hlen ht hs1
  have hslot : saveSlot (noted s rq i) = saveSlot s := rfl
  obtain ⟨rest, hsteps⟩ := saveSteps_eq (noted s rq i)
  have hheld := (holds_of_held (s := s) (u := noted s rq i) (steps := .erase (0x10000 * saveSlot s) :: rest)
    (result := beBytes 1 (saveSlot s)) ⟨rfl, rfl, rfl⟩ htaken hs1).norErase (0x10000 * saveSlot s)
  have hrecord := recordOf_norErase (held s1 (longJob k 0x0606 (.erase (0x10000 * saveSlot s) :: rest) (beBytes 1 (saveSlot s))))
    (saveSlot s)
  have hwaiting : s1.nv.waiting = [] := by rw [hs1]; exact hf.waiting
  have habsent : norAbsent s1 = false := by rw [hs1]; exact hf.nor
  rw [hsteps, hslot, nvGo_longErase _ (by decide)] at hx
  have hsnap := takeSnapshot_of_held (s := norErase (held s1 (longJob k 0x0606 (.erase (0x10000 * saveSlot s) :: rest)
    (beBytes 1 (saveSlot s)))) (0x10000 * saveSlot s)) rfl rfl hwaiting habsent
  generalize norErase (held s1 (longJob k 0x0606 (.erase (0x10000 * saveSlot s) :: rest) (beBytes 1 (saveSlot s))))
    (0x10000 * saveSlot s) = w at *
  rw [hsnap] at hx
  have hp : Permitted s .stop rq .nvSave .n :=
    ⟨rfl, rfl, by decide, by decide, tooLong_of_short htr (by decide) (by simp) (by simp)⟩
  obtain ⟨hacc, hj, hnv, -, -, -⟩ := completes_of_holds h hp (by decide) hx
    ⟨hheld.spi, hheld.outbox, hheld.slot, hheld.holder, hheld.sp⟩
  obtain ⟨j, hholder, hop, -⟩ := hheld.holder
  exact ⟨_, rfl, hacc, hj, (recordOf_of_nor (s := w) (by rw [hnv]) _).trans hrecord, ⟨j, by rw [hnv]; exact hholder, hop⟩,
    by rw [hnv]; rfl⟩

/-! ## NV_READ (R517) -/

/-- The read of a range outside the areas whose bytes the spec leaves open ends at once, and its reply leaves. -/
theorem nvGo_read {s : State} {rq : ZReq} {a n : Nat} (h1 : touches a n 0x20000 0x20000 = false)
    (h2 : touches a n 0x300000 0x800000 = false) (hh : s.nv.holder = none) : nvGo [.read a n] (held s (soonJob rq 0x0600 a [.read a n])) =
      zcpReply (journalPut s 0 rq.session 0x0600 a 0 rq.peer) rq 0x0600 0 0 (norBytes s a n) := by
  have hread : nvRead (held s (soonJob rq 0x0600 a [.read a n])) a n =
      (norBytes s a n, held s (soonJob rq 0x0600 a [.read a n])) := by
    rw [nvRead, h1, h2]
    rfl
  have hself : { s with nv := { s.nv with holder := none } } = s := by rw [← hh]
  rw [nvGo, hread]
  dsimp only
  rw [nvGo]
  have hfinish : nvFinish (updHolder (held s (soonJob rq 0x0600 a [.read a n])) fun j => { j with result := norBytes s a n }) 0 =
      zcpReply (journalPut { s with nv := { s.nv with holder := none } } 0 rq.session 0x0600 a 0 rq.peer) rq 0x0600 0 0
        (norBytes s a n) := rfl
  rw [hfinish, hself]

theorem completes_zcpNvRead {s : State} {rq : ZReq} {i a n : Nat} (h : Heard s .stop rq i) (hf : NvFree s) (hn : 0 < n) (hn' : n ≤ 1024)
    (hb : a + n ≤ getF s NVS_SIZE.BYTES) (h1 : touches a n 0x20000 0x20000 = false) (h2 : touches a n 0x300000 0x800000 = false) :
    Completes (.zcpNvRead rq a n) s fun t => Replied s rq 0x0600 0 (norBytes s a n) t ∧ Journaled rq 0x0600 0 t ∧
      t.nv.nor = s.nv.nor ∧ t.nv.holder = none ∧ SameRegs [ZCP_JSEQ.SEQ, ZCP_JLOST.CNT] s t := by
  obtain ⟨htr, -, hout⟩ := h.spi
  have hfree := hf.noted rq i
  have hx : zExec (noted s rq i) rq (.nvRead a n) = (.later, zcpReply
      (journalPut (noted s rq i) 0 rq.session 0x0600 a 0 rq.peer) rq 0x0600 0 0 (norBytes (noted s rq i) a n)) := by
    have hsize : ¬ getF (noted s rq i) NVS_SIZE.BYTES < a + n := Nat.not_lt.mpr hb
    rw [zExec, zNvRead, if_neg (by omega), hfree.busyN, hfree.nor, if_neg (by decide), if_neg (by decide), if_neg hsize,
      nvSoon_of_free hfree, nvGo_read h1 h2 hfree.holder]
  have hans := (logged_journalPut (noted s rq i) rq 0x0600 0 a 0 rq.peer).answered htr 0 (norBytes (noted s rq i) a n)
  have hp : Permitted s .stop rq (.nvRead a n) .n :=
    ⟨rfl, rfl, by decide, by simp [ZOp.code], tooLong_of_short htr hn' (by simp) (by simp)⟩
  have hrow := zcpRow_later h (by decide) hp (by simp [ZOp.code]) (by simp [ZOp.code]) hx (hans.outbox.trans hout)
  exact ⟨_, congrArg Host.Outcome.next hrow, hans.spi, hans.journaled, congrArg NvSt.nor hans.nv,
    (congrArg NvSt.holder hans.nv).trans hfree.holder, hans.regs⟩

end Sys2Proof.Machine

open Sys2Proof Sys2Proof.Machine Sys2Proof.Machine.Reg

/-- Settles O56: each clause is the lemma of its command; that a command is heard, run, journaled and answered is said once, of
`zcpRow`. -/
theorem zcpLongOperations : Obligations.ZcpLongOperations := by
  intro s rq i hl
  refine ⟨fun h => ⟨fun k s1 hop ht => completes_zcpModeReq h hl hop ht,
      fun k s1 ht hp hm hs hh => completes_zcpHandover h hl ht hp hm hs hh⟩,
    fun h => ⟨fun hi lo ns unc hhi _ hns hst => completes_zcpTimeSet h unc hhi hns hst,
      fun n k s1 hn hn' hd ht hskip => completes_zcpSelftestRun h hl hn hn' hd ht hskip, fun hs => completes_zcpReset h hs,
      fun hh hw hr hn => ?_⟩⟩
  have hf : NvFree s := ⟨hh, hw, hr, hn⟩
  exact ⟨fun a n hn hn' hb h1 h2 => completes_zcpNvRead h hf hn hn' hb h1 h2,
    fun a k s1 ha hb hd hn h0 h1 ht => completes_zcpNvErase h hl hf ha hb hd hn h0 h1 ht,
    fun a bs hb hpage hsize hd hn h0 h1 => completes_zcpNvProgram h hf hb hpage hsize hd hn h0 h1,
    fun slot len crc k s1 hslot hlen hboot ht => completes_zcpNvImageOpen h hl hf hslot hlen hboot ht,
    fun ofs slot len crc gen bs himg hb hb' hlen => completes_zcpNvImageData h hf himg hb hb' hlen,
    fun slot len crc gen k s1 himg hcrc ht => completes_zcpNvImageClose h hl hf himg hcrc ht,
    fun k s1 hlen ht => completes_zcpNvSave h hl hf hlen ht⟩
end

section
/-! SUPPORT. What the loss and the rise of the supplies leave alone (R73, R477 to R479, R500, R536): the registers of D0, the NOR, VBAT
and the queue. -/

namespace Sys2Proof.Machine

open Reg

/-! ## Fields at chosen keys -/

/-- Every field whose key is chosen has the same value in both states. -/
def SameAt (chosen : Nat → Bool) (s t : State) : Prop := ∀ f : Fld, chosen f.key = true → getF t f = getF s f

theorem sameAt_of_regs {chosen : Nat → Bool} {s t : State} (h : t.regs = s.regs) : SameAt chosen s t := fun f _ => getF_regs h f

theorem SameAt.trans {chosen : Nat → Bool} {s t u : State} (h : SameAt chosen s t) (h' : SameAt chosen t u) : SameAt chosen s u :=
  fun f hf => (h' f hf).trans (h f hf)

theorem sameAt_setF {chosen : Nat → Bool} (s : State) {f : Fld} (v : Nat) (h : chosen f.key = false) :
    SameAt chosen s (setF s f v) := by
  refine fun g hg => getF_setF_ne s v fun e => ?_
  rw [e, hg] at h
  cases h

theorem sameAt_setFs {chosen : Nat → Bool} (s : State) {l : List (Fld × Nat)} (h : ∀ p ∈ l, chosen p.1.key = false) :
    SameAt chosen s (setFs s l) := by
  induction l generalizing s with
  | nil => exact sameAt_of_regs rfl
  | cons p l ih =>
    exact (sameAt_setF s p.2 (h p List.mem_cons_self)).trans (ih _ fun q hq => h q (List.mem_cons_of_mem _ hq))

theorem sget_filter_out {α : Type} (d : α) (m : List (Nat × α)) {p : Nat × α → Bool} {a : Nat} (h : ∀ v, p (a, v) = false) :
    sget d (m.filter p) a = d := by
  induction m with
  | nil => rfl
  | cons x m ih =>
    obtain ⟨k, v⟩ := x
    by_cases hp : p (k, v) = true
    · have hk : k ≠ a := fun e => by simp [e, h] at hp
      rw [List.filter_cons_of_pos hp, sget, if_neg hk, ih]
    · rw [List.filter_cons_of_neg hp, ih]

/-! ## What passes through a loss of the main supplies -/

theorem key_div {f : Fld} (h : f.lo < 32) : f.key / 32 = f.addr := by
  unfold Fld.key
  omega

/-- The key lies in D0, or in the record of the reset's cause, which only a reset source writes. -/
def lasting (k : Nat) : Bool := regDomain (k / 32) == 0 || k / 32 == RST_CAUSE.SRC.addr

theorem lasting_of_d0 {f : Fld} (hlo : f.lo < 32) (hd : regDomain f.addr = 0) : lasting f.key = true := by
  simp [lasting, key_div hlo, hd]

/-- From the one state to the other the lasting registers, the NOR, VBAT and the queue stay. -/
structure Lasts (s t : State) : Prop where
  regs : SameAt lasting s t
  nor : t.nv.nor = s.nv.nor
  vbat : t.cal.vbat = s.cal.vbat
  pending : t.pending = s.pending

theorem lasts_of_regs {s t : State} (h : t.regs = s.regs) (hn : t.nv.nor = s.nv.nor) (hv : t.cal.vbat = s.cal.vbat)
    (hp : t.pending = s.pending) : Lasts s t :=
  ⟨sameAt_of_regs h, hn, hv, hp⟩

theorem Lasts.trans {s t u : State} (h : Lasts s t) (h' : Lasts t u) : Lasts s u :=
  ⟨h.regs.trans h'.regs, h'.nor.trans h.nor, h'.vbat.trans h.vbat, h'.pending.trans h.pending⟩

theorem Lasts.setFs {s t : State} (h : Lasts s t) {l : List (Fld × Nat)} (hl : ∀ p ∈ l, lasting p.1.key = false) :
    Lasts s (setFs t l) :=
  h.trans ⟨sameAt_setFs t hl, by simp, by simp, by simp⟩

theorem Lasts.setF {s t : State} (h : Lasts s t) {f : Fld} (v : Nat) (hf : lasting f.key = false) : Lasts s (setF t f v) :=
  h.trans ⟨sameAt_setF t v hf, rfl, rfl, rfl⟩

theorem lasts_domainInit (s : State) (d : Nat) : Lasts s (domainInit s d) := by
  unfold domainInit
  split
  case h_3 => 
    refine Lasts.setFs ?_ (by decide)
    exact lasts_of_regs rfl rfl rfl rfl
  case h_8 =>
    refine Lasts.setF ?_ 0 (by decide)
    exact lasts_of_regs rfl rfl rfl rfl
  case h_10 =>
    have hs : Lasts s s := lasts_of_regs rfl rfl rfl rfl
    have hclear := hs.setFs (l := [TRC_STAT.FULL, TRC_STAT.DROP_OVF, TRC_STAT.DROP, TRC_WPTR.IDX, TRC_RADDR.IDX].map fun f => (f, f.rst))
      (by decide)
    exact ⟨hclear.regs, hclear.nor, hclear.vbat, hclear.pending⟩
  all_goals exact lasts_of_regs rfl rfl rfl rfl

theorem lasts_resetParts (s : State) : Lasts s (resetParts s false) := by
  have hdomains : Lasts s (upOrder.foldl domainInit s) :=
    List.foldlRecOn (motive := Lasts s) _ _ (lasts_of_regs rfl rfl rfl rfl) fun u hu d _ => hu.trans (lasts_domainInit u d)
  unfold resetParts
  generalize upOrder.foldl domainInit s = u at *
  exact hdomains.trans (lasts_of_regs rfl rfl rfl rfl)

theorem lasts_strapWarn (s : State) : Lasts s (strapWarn s) := by
  refine List.foldlRecOn (motive := Lasts s) _ _ (lasts_of_regs rfl rfl rfl rfl) fun u hu p hp => ?_
  have hbeyond : lasting p.1.1.key = false ∧ lasting p.1.2.key = false := by
    revert p
    decide
  split
  · exact hu.setFs (by simp [hbeyond])
  · exact hu

/-! ## The registers after the supplies come or go -/

theorem getF_resetRegs_d0 (s : State) {f : Fld} (hlo : f.lo < 32) (hd : regDomain f.addr = 0) :
    getF (resetRegs s false) f = getF s f :=
  sget_filter f.rst s.regs fun v => by simp [key_div hlo, hd]

theorem getF_resetRegs_beyond (s : State) {f : Fld} (h : regDomain (f.key / 32) ≠ 0) : getF (resetRegs s false) f = f.rst :=
  sget_filter_out f.rst s.regs fun v => by simpa using h

theorem getF_d0PowerUp (s : State) {f : Fld} (hlo : f.lo < 32) (hd : regDomain f.addr = 0) : getF (d0PowerUp s) f = f.rst :=
  sget_filter_out f.rst s.regs fun v => by simp [key_div hlo, hd]

/-! ## POWER_ON_RESET (R479, R561) -/

/-- The fields that a power-on reset writes last. -/
def powerUpFields (prev : Mode) (seq mirrored : Nat) : List (Fld × Nat) :=
  [(SYS_MODE.PREV, prev.code), (PWR_DSTAT.RST, 0xFFC), (PWR_DSTAT.ON, 3), (ZCP_JSEQ.SEQ, seq), (ZCP_JMIR.SEQ, mirrored)]

theorem powerUp_eq (s : State) : ∃ seq mirrored, powerUp s =
    setFs { strapWarn (resetParts (resetRegs s false) false) with
      mode := .reset, time := TimeSt.init, tap := TapSt.init, ms := { ModeSt.init with refStable := false }, trc := TrcSt.init,
      pwr := { PwrSt.init with ramp := upOrder } } (powerUpFields s.mode seq mirrored) := by
  unfold powerUp powerUpFields
  exact ⟨_, _, rfl⟩

theorem lasts_powerUp (s : State) : Lasts (resetRegs s false) (powerUp s) := by
  obtain ⟨seq, mirrored, h⟩ := powerUp_eq s
  rw [h]
  have hparts := (lasts_resetParts (resetRegs s false)).trans (lasts_strapWarn _)
  generalize strapWarn (resetParts (resetRegs s false) false) = u at *
  refine Lasts.setFs (hparts.trans ?_) (by simp [powerUpFields]; decide)
  exact lasts_of_regs rfl rfl rfl rfl

/-- What a power-on reset leaves behind: RESET, with the mode before and its cause, and what D0 and the NOR hold. -/
theorem powerUp_spec (s : State) : (powerUp s).mode = .reset ∧ getF (powerUp s) SYS_MODE.PREV = s.mode.code % 16 ∧
    getF (powerUp s) RST_CAUSE.LAST = 1 ∧ getF (powerUp s) RST_CAUSE.SRC = 1 ∧ (powerUp s).nv.nor = s.nv.nor ∧
    (powerUp s).cal.vbat = s.cal.vbat ∧ ∀ f : Fld, f.lo < 32 → regDomain f.addr = 0 → getF (powerUp s) f = getF s f := by
  obtain ⟨hregs, hnor, hvbat, -⟩ := lasts_powerUp s
  obtain ⟨seq, mirrored, h⟩ := powerUp_eq s
  refine ⟨by rw [h]; simp, ?_, ?_, ?_, hnor, hvbat, fun f hlo hd => ?_⟩
  · rw [h]
    exact getF_setFs_cons_of_ne _ (by simp; decide)
  · exact (hregs _ (by decide)).trans (getF_resetRegs_beyond s (by decide))
  · exact (hregs _ (by decide)).trans (getF_resetRegs_beyond s (by decide))
  · exact (hregs f (lasting_of_d0 hlo hd)).trans (getF_resetRegs_d0 s hlo hd)

/-! ## VBAT_RISE and RAIL_LOSS (R73, R536) -/

theorem lasts_mainsLost (s : State) (m : Mode) : Lasts (resetRegs s false) (mainsLost s m) := by
  unfold mainsLost
  have hparts := lasts_resetParts (resetRegs s false)
  generalize resetParts (resetRegs s false) false = u at *
  refine Lasts.setF (hparts.trans ?_) _ (by decide)
  exact lasts_of_regs rfl rfl rfl rfl

theorem exec_vbatRise {s : State} {mv : Nat} (hm : s.mode = .off) (hmv : 2000 < mv) : exec (.vbatRise mv) s = .next { d0PowerUp s with
    mode := .backup
    cal := { (d0PowerUp s).cal with vbat := mv }
    pwr := { (d0PowerUp s).pwr with mains := false } } := by
  simp [exec, execVbatRise, hm, hmv]

theorem exec_railLoss {s : State} {rail : Nat} (hr : rail < 9) (hoff : s.mode ≠ .off) (hbackup : s.mode ≠ .backup) :
    exec (.railLoss rail) s = .next (mainsLost s (if s.cal.vbat < 2000 then .off else .backup)) := by
  simp [exec, execRailLoss, d1On, hr, hoff, hbackup]

theorem getF_mainsLost_on (s : State) (m : Mode) : getF (mainsLost s m) PWR_DSTAT.ON = if m == .backup then 1 else 0 := by
  unfold mainsLost
  generalize resetParts (resetRegs s false) false = u
  refine getF_setF_of_lt _ _ ?_
  split
  · decide
  · decide

end Sys2Proof.Machine

open Sys2Proof Sys2Proof.Machine Sys2Proof.Machine.Reg

/-- Settles O7: the registers of D0 and the NOR pass through every part of a power-on reset and of a loss of the supplies; only a
power-up of D0 itself clears its registers. -/
theorem supplyTransitions : Obligations.SupplyTransitions := by
  unfold Obligations.SupplyTransitions
  refine ⟨fun s mv hm hmv => ?rise, fun s hm => ?fromBackup, fun s hm => ?fromOff, fun s rail hr hoff hb hv => ?toBackup,
    fun s rail hr hoff hb hv => ?toOff, fun s hm => ?vbatLoss⟩
  case rise =>
    exact ⟨_, exec_vbatRise hm hmv, rfl, rfl, rfl, rfl, fun f hlo hd => getF_d0PowerUp s hlo hd⟩
  case fromBackup =>
    obtain ⟨hmode, hprev, hrest⟩ := powerUp_spec s
    exact ⟨powerUp s, by simp [exec, execPowerOnReset, hm], hmode, by rw [hprev, hm]; rfl, hrest⟩
  case fromOff =>
    obtain ⟨hmode, hprev, hlast, hsrc, hnor, -, hregs⟩ := powerUp_spec (d0PowerUp s)
    exact ⟨powerUp (d0PowerUp s), by simp [exec, execPowerOnReset, hm], hmode,
      by rw [hprev, show (d0PowerUp s).mode = .off from hm]; rfl, hlast, hsrc, hnor,
      fun f hlo hd => (hregs f hlo hd).trans (getF_d0PowerUp s hlo hd)⟩
  case toBackup =>
    obtain ⟨hregs, hnor, hvbat, -⟩ := lasts_mainsLost s .backup
    exact ⟨mainsLost s .backup, by rw [exec_railLoss hr hoff hb, if_neg (by omega)], rfl, rfl, rfl, getF_mainsLost_on s .backup, hnor,
      hvbat, fun f hlo hd => (hregs f (lasting_of_d0 hlo hd)).trans (getF_resetRegs_d0 s hlo hd)⟩
  case toOff =>
    exact ⟨mainsLost s .off, by rw [exec_railLoss hr hoff hb, if_pos hv], rfl, getF_mainsLost_on s .off⟩
  case vbatLoss => exact ⟨_, by simp [exec, execVbatLoss, hm], rfl⟩
end

section
/-! SUPPORT. Mode requests that the mode refuses (R74, R76, Table 3.13). -/

namespace Sys2Proof.Machine

open Reg

/-- The first access error writes its whole record (R597). -/
theorem accErr_first {s : State} (h : getF s SYS_ACCERR.FLAGS = 0) (c a : Nat) (dbg : Bool) :
    accErr s c a dbg = setFs s [(SYS_ACCERR.FIRST, c), (SYS_ACCERR.FIRST_DBG, b2n dbg), (SYS_ACCADDR.ADDR, a),
      (SYS_ACCERR.FLAGS, 2 ^ (c - 1))] := by
  have hbit : bitOf 0 (c - 1) = false := by simp [bitOf]
  simp only [accErr, h, if_true, hbit, Bool.false_eq_true, if_false, Nat.zero_add]
  rfl

/-- A request over the host port that its mode refuses records its access error, and nothing else happens (R76, R597). -/
theorem refused_request {s : State} {req : Nat} (hreq : modeReq s req = (0xA, s)) (hlive : absent s = false)
    (hflags : getF s SYS_ACCERR.FLAGS = 0) (dbg : Bool) :
    (if liveMode s then modeReqHost s req dbg else s) = setFs s [(SYS_ACCERR.FIRST, 10), (SYS_ACCERR.FIRST_DBG, b2n dbg),
      (SYS_ACCADDR.ADDR, SYS_MODECTL.REQ.addr), (SYS_ACCERR.FLAGS, 2 ^ 9)] := by
  have hhost : modeReqHost s req dbg = accErr s 0xA SYS_MODECTL.REQ.addr dbg := by
    rw [modeReqHost, hreq]
    rfl
  rw [liveMode, hlive, Bool.not_false, if_pos rfl, hhost, accErr_first hflags]

theorem absent_of_mode {s : State} {m : Mode} (h : s.mode = m) (hm : [Mode.off, .backup, .reset].contains m = false) :
    absent s = false := by
  rw [absent, inMode, h, hm]

theorem modeReq_stop_refused {s : State} (h : s.mode = .stop ∨ s.mode = .runEdit ∨ s.mode = .hold) : modeReq s 5 = (0xA, s) := by
  rcases h with h | h | h <;> simp [modeReq, h]

theorem modeReq_run_refused {s : State} (h : s.mode = .run ∨ s.mode = .hold) : modeReq s 6 = (0xA, s) := by
  rcases h with h | h <;> simp [modeReq, h]

theorem modeReq_halt_refused {s : State} (h : s.mode = .stop ∨ s.mode = .hold) : modeReq s 0xA = (0xA, s) := by
  rcases h with h | h <;> simp [modeReq, inMode, runModes, h]

theorem modeReq_hold_refused {s : State} (h : s.mode = .run ∨ s.mode = .hold) : modeReq s 0xB = (0xA, s) := by
  rcases h with h | h <;> simp [modeReq, h]

end Sys2Proof.Machine

open Sys2Proof Sys2Proof.Machine Sys2Proof.Machine.Reg

/-- Settles O12: each request is judged in the mode that refuses it, and the refusal is an access error with no flag before it. -/
theorem modeRequestsRefused : Obligations.ModeRequestsRefused := by
  intro s dbg hflags
  refine ⟨fun h => ?stop, fun h => ?run, fun h => ?halt, fun h => ?hold⟩
  case stop =>
    have hlive : absent s = false := by rcases h with h | h | h <;> exact absent_of_mode h rfl
    exact congrArg Host.Outcome.next (refused_request (modeReq_stop_refused h) hlive hflags dbg)
  case run =>
    have hlive : absent s = false := by rcases h with h | h <;> exact absent_of_mode h rfl
    exact congrArg Host.Outcome.next (refused_request (modeReq_run_refused h) hlive hflags dbg)
  case halt =>
    have hlive : absent s = false := by rcases h with h | h <;> exact absent_of_mode h rfl
    exact congrArg Host.Outcome.next (refused_request (modeReq_halt_refused h) hlive hflags dbg)
  case hold =>
    have hlive : absent s = false := by rcases h with h | h <;> exact absent_of_mode h rfl
    exact congrArg Host.Outcome.next (refused_request (modeReq_hold_refused h) hlive hflags dbg)
end

section
open Sys2Proof Sys2Proof.Machine Sys2Proof.Machine.Reg

/-- Refutes O60: a retentive word lies in D0, and the statement asks for D5 only. With D5 on and the bit of D0 clear in PWR_DSTAT.ON, a
read of the payload of word 0x7E000 stops at the judgement of its domain (R594) and leaves nothing for the read of its tag. -/
theorem not_memoriesAndTrace : ¬ Obligations.MemoriesAndTrace := by
  unfold Obligations.MemoriesAndTrace
  intro h
  obtain ⟨hwords, -⟩ := h (setF State.reset PWR_DSTAT.ON 0x20) rfl rfl
  obtain ⟨hread, -⟩ := hwords 0x7E000 0 (by decide) rfl rfl
  have hstops : exec (.wordPayloadRead 0x7E000) (setF State.reset PWR_DSTAT.ON 0x20) = .next (setF State.reset PWR_DSTAT.ON 0x20) := rfl
  rw [hstops] at hread
  injection hread with hstate
  have htag : (none : Option (Nat × BitVec 4)) = some (0x7E000, 0) := congrArg (fun s : State => s.sp.hostTag) hstate
  cases htag
end

section
/-! SUPPORT. What the operations around a change of mode leave alone (R73 to R92): one rule per operation, on the words, the NOR, the
clock, the queue, the mode with its state, and chosen registers. -/

namespace Sys2Proof.Machine

open Reg

/-! ## The frame -/

theorem modeFrame_refl (s : State) : ModeFrame s s := ⟨rfl, rfl, rfl, rfl⟩

theorem ModeFrame.trans {s t u : State} (h : ModeFrame s t) (h' : ModeFrame t u) : ModeFrame s u := by
  obtain ⟨hwords, hnor, htai, hpending⟩ := h
  obtain ⟨hwords', hnor', htai', hpending'⟩ := h'
  exact ⟨hwords'.trans hwords, hnor'.trans hnor, htai'.trans htai, hpending'.trans hpending⟩

/-- The registers of the SYS block (mode, self-test, wake, scrub) and the domains that are on. -/
def ctlKey (k : Nat) : Bool := k / 2 ^ 21 == 0x4000 || k == PWR_DSTAT.ON.key

/-- The part of a state that only operations of its own change: mode, words, NV store, pins, clock and queue. -/
def standing (s : State) : State := { State.reset with
  mode := s.mode, nv := s.nv, pins := s.pins, pending := s.pending
  sp := { SpaceSt.init with words := s.sp.words }
  time := { TimeSt.init with tai := s.time.tai } }

theorem modeFrame_of_standing {s t : State} (h : standing t = standing s) : ModeFrame s t :=
  ⟨(congrArg (fun x => x.sp.words) h :), (congrArg (fun x => x.nv.nor) h :), (congrArg (fun x => x.time.tai) h :),
    (congrArg State.pending h :)⟩

/-- What is in flight or waits in the move engine, the requests that wait, and the stages of a takeover and a replay. -/
def inWait (s : State) := (s.core.fastWait, s.core.tmu, s.core.deferred, s.core.waiting, s.core.ops, s.core.mac, s.zcp.held, s.sby.tko,
  s.sby.replaying)

/-- Nothing is in flight or waits in the move engine, no request waits, and no standby stream is replayed or taken over. -/
structure Calm (s : State) : Prop where
  fastWait : s.core.fastWait = []
  tmu : ∀ x ∈ s.core.tmu, x.ev = none
  deferred : s.core.deferred = []
  waiting : s.core.waiting = []
  ops : s.core.ops = []
  mac : s.core.mac = none
  held : s.zcp.held = []
  tko : s.sby.tko = none
  replaying : s.sby.replaying = false

theorem calm_of_inWait {s t : State} (h : inWait t = inWait s) (hs : Calm s) : Calm t := by
  simp only [inWait, Prod.mk.injEq] at h
  obtain ⟨hfast, htmu, hdef, hwaiting, hops, hmac, hheld, htko, hrep⟩ := h
  exact ⟨hfast.trans hs.fastWait, by rw [htmu]; exact hs.tmu, hdef.trans hs.deferred, hwaiting.trans hs.waiting, hops.trans hs.ops,
    hmac.trans hs.mac, hheld.trans hs.held, htko.trans hs.tko, hrep.trans hs.replaying⟩

/-- An operation beside the mode: its part of the state stands, of the mode's own state a halt cause may arise at most, what is calm
stays calm, and the registers at chosen keys stay. -/
structure Beside (P : Nat → Bool) (s t : State) : Prop where
  standing : standing t = standing s
  ms : t.ms = s.ms ∨ inMode s runModes = true ∧ ∃ c, t.ms = { s.ms with haltPend := c }
  calm : Calm s → Calm t
  regs : SameAt P s t

section
variable {P : Nat → Bool} {s t u : State}

theorem Beside.mode (h : Beside P s t) : t.mode = s.mode := (congrArg State.mode h.standing :)

theorem Beside.inMode (h : Beside P s t) (l : List Mode) : inMode t l = inMode s l := by rw [Machine.inMode, h.mode, ← Machine.inMode]

theorem Beside.nv (h : Beside P s t) : t.nv = s.nv := (congrArg State.nv h.standing :)

theorem Beside.pins (h : Beside P s t) : t.pins = s.pins := (congrArg State.pins h.standing :)

theorem Beside.frame (h : Beside P s t) : ModeFrame s t := modeFrame_of_standing h.standing

/-- Outside the modes that run, no halt cause can arise. -/
theorem Beside.ms_of_not_run (h : Beside P s t) (hm : Machine.inMode s runModes = false) : t.ms = s.ms := by
  rcases h.ms with hms | ⟨hrun, -⟩
  · exact hms
  · rw [hm] at hrun
    cases hrun

theorem Beside.holdEntry (h : Beside P s t) : t.ms.holdEntry = s.ms.holdEntry := by
  rcases h.ms with hms | ⟨-, c, hms⟩ <;> rw [hms]

theorem Beside.isSet (h : Beside P s t) {f : Fld} (hf : P f.key = true) : isSet t f = isSet s f := by
  simp only [Machine.isSet, h.regs f hf]

theorem beside_refl (P : Nat → Bool) (s : State) : Beside P s s := ⟨rfl, .inl rfl, id, sameAt_of_regs rfl⟩

theorem Beside.trans (h : Beside P s t) (h' : Beside P t u) : Beside P s u where
  standing := h'.standing.trans h.standing
  ms := by
    rcases h.ms with hms | ⟨hrun, c, hms⟩
    · rcases h'.ms with hms' | ⟨hrun', c', hms'⟩
      · exact .inl (hms'.trans hms)
      · exact .inr ⟨by rw [← h.inMode]; exact hrun', c', by rw [hms', hms]⟩
    · rcases h'.ms with hms' | ⟨-, c', hms'⟩
      · exact .inr ⟨hrun, c, hms'.trans hms⟩
      · exact .inr ⟨hrun, c', by rw [hms', hms]⟩
  calm := h'.calm ∘ h.calm
  regs := h.regs.trans h'.regs

theorem Beside.foldl {α : Type} {op : State → α → State} {l : List α} (hop : ∀ t, ∀ a ∈ l, Beside P t (op t a)) :
    Beside P s (l.foldl op s) :=
  List.foldlRecOn (motive := Beside P s) _ _ (beside_refl P s) fun t ht a ha => ht.trans (hop t a ha)

/-- What changes neither the standing part, nor the mode's own state, nor what waits. -/
theorem beside_of_sameAt (hregs : SameAt P s t) (h : Machine.standing t = Machine.standing s) (hms : t.ms = s.ms)
    (hwait : inWait t = inWait s) : Beside P s t :=
  ⟨h, .inl hms, calm_of_inWait hwait, hregs⟩

theorem beside_setF (s : State) {f : Fld} (v : Nat) (h : P f.key = false) : Beside P s (setF s f v) :=
  beside_of_sameAt (sameAt_setF s v h) rfl rfl rfl

theorem beside_setFs (s : State) {l : List (Fld × Nat)} (h : ∀ p ∈ l, P p.1.key = false) : Beside P s (setFs s l) := by
  refine beside_of_sameAt (sameAt_setFs s h) ?_ (setFs_ms s l) ?_
  · simp [Machine.standing]
  · simp [inWait]

theorem beside_of_eq (hregs : t.regs = s.regs) (h : Machine.standing t = Machine.standing s) (hms : t.ms = s.ms)
    (hwait : inWait t = inWait s) : Beside P s t :=
  beside_of_sameAt (sameAt_of_regs hregs) h hms hwait

end

/-! ## Fields, counters, events, the journal -/

section
variable {P : Nat → Bool} (hP : ∀ k, P k = true → ctlKey k = true)
include hP

/-- A key outside the control registers is not among the chosen ones. -/
theorem unchosen {k : Nat} (h : ctlKey k = false) : P k = false := by
  by_contra hk
  rw [hP k (by simpa using hk)] at h
  cases h

theorem beside_incSat (s : State) {f o : Fld} (h : ctlKey f.key = false) (h' : ctlKey o.key = false) : Beside P s (incSat s f o) := by
  unfold incSat
  split
  · exact beside_setF s _ (unchosen hP h)
  · exact beside_setF s _ (unchosen hP h')

theorem beside_raiseEv (s : State) (reg bit arg : Nat) : Beside P s (raiseEv s reg bit arg) := by
  unfold raiseEv incWrap
  refine Beside.trans ?_ (beside_setF _ _ (unchosen hP (by decide)))
  exact beside_of_eq rfl rfl rfl rfl

theorem beside_raise (s : State) (f : Fld) : Beside P s (raise s f) := beside_raiseEv hP s _ _ _

theorem beside_setRaise (s : State) {f : Fld} (v : Nat) (h : ctlKey f.key = false) : Beside P s (setRaise s f v) :=
  (beside_setF s v (unchosen hP h)).trans (beside_raise hP _ f)

theorem beside_journalPut (s : State) (a b c d e : Nat) (p : Peer) : Beside P s (journalPut s a b c d e p) := by
  have hlost : Beside P s (match s.zcp.journal.drop 4095 with
      | old :: _ => if unmirrored (getF s ZCP_JMIR.SEQ) old.seq then incStop s ZCP_JLOST.CNT else s
      | [] => s) := by
    split
    · unfold incStop
      split
      · split
        · exact beside_setF s _ (unchosen hP (by decide))
        · exact beside_refl P s
      · exact beside_refl P s
    · exact beside_refl P s
  unfold journalPut incWrap
  refine Beside.trans ?_ (beside_setF _ _ (unchosen hP (by decide)))
  refine hlost.trans ?_
  exact beside_of_eq rfl rfl rfl rfl

theorem beside_journalInt (s : State) (reg arg : Nat) : Beside P s (journalInt s reg arg) := beside_journalPut hP s _ _ _ _ _ _

theorem beside_note (s : State) (f : Fld) : Beside P s (note s f) :=
  (beside_journalInt hP s _ _).trans (beside_raise hP _ f)

omit hP in
theorem beside_pulse (s : State) (a : Nat) : Beside P s (pulse s a) := by
  unfold pulse
  split
  · exact beside_refl P s
  · exact beside_of_eq rfl rfl rfl rfl

/-! ## Errors of the memories, and a bit that the device writes (R138, R147 to R149) -/

theorem beside_halt (s : State) (code : Nat) : Beside P s (halt s code) := by
  unfold halt
  split
  next hrun =>
    have hj := beside_journalInt hP s SYS_MODE.HALT_CAUSE.addr code
    have hms : (journalInt s SYS_MODE.HALT_CAUSE.addr code).ms = s.ms := by simp
    generalize journalInt s SYS_MODE.HALT_CAUSE.addr code = u at *
    obtain ⟨hstand, -, hcalm, hregs⟩ := hj
    exact ⟨hstand, .inr ⟨hrun, _, by rw [← hms]⟩, fun hs => calm_of_inWait (s := u) rfl (hcalm hs), hregs⟩
  next => exact beside_refl P s

omit hP in
theorem beside_eccClear (s : State) (m : MemId) (loc : Nat) : Beside P s (eccClear s m loc) := beside_of_eq rfl rfl rfl rfl

theorem beside_eccCorr (s : State) (m : MemId) (loc : Nat) : Beside P s (eccCorr s m loc) := by
  unfold eccCorr
  extract_lets +lift u v
  have hu : Beside P s u := beside_incSat hP s (by decide) (by decide)
  have hv : Beside P s v := by
    unfold v
    split
    · exact hu.trans (beside_raise hP u _)
    · exact hu
  clear_value v
  split
  · exact hv
  · exact hv.trans (beside_of_eq rfl rfl rfl rfl)

theorem beside_eccRecord (s : State) (row : Bool) (finder addr : Nat) : Beside P s (eccRecord s row finder addr) := by
  unfold eccRecord
  split
  · exact beside_refl P s
  · have hkeys : ∀ f ∈ [CORE_ECCREC.VALID, CORE_ECCREC.SPACE, CORE_ECCREC.FINDER, CORE_ECCREC.ADDR], ctlKey f.key = false := by decide
    exact beside_setFs s fun p hp => unchosen hP (hkeys p.1 (by simpa using List.mem_map_of_mem (f := Prod.fst) hp))

omit hP in
theorem beside_logBit (s : State) (k : Nat) : Beside P s (logBit s k) := beside_of_eq rfl rfl rfl rfl

omit hP in
theorem beside_logRow (s : State) (a : Nat) : Beside P s (logRow s a) := Beside.foldl fun t i _ => beside_logBit t (a + i)

theorem beside_eccUncorrRow (s : State) (finder a : Nat) : Beside P s (eccUncorrRow s finder a) := by
  unfold eccUncorrRow
  extract_lets +lift u v cleared w
  have hu : Beside P s u := by
    unfold u
    split
    · exact beside_refl P s
    · exact beside_incSat hP s (by decide) (by decide)
  have hv : Beside P s v := (hu.trans (beside_setRaise hP u 1 (by decide))).trans (beside_eccRecord hP _ _ _ _)
  clear_value v
  have hw : Beside P s w := by
    refine Beside.trans ?_ (beside_logRow _ _)
    split
    · exact hv
    · exact hv.trans (beside_of_eq rfl rfl rfl rfl)
  clear_value w
  split
  · exact hw.trans (beside_halt hP w 4)
  · exact hw

theorem beside_checkRow (s : State) (finder a : Nat) : Beside P s (checkRow s finder a) := by
  unfold checkRow
  split
  · exact beside_refl P s
  · exact beside_eccCorr hP s _ _
  · exact (beside_eccUncorrRow hP s _ _).trans (beside_eccClear _ _ _)

omit hP in
theorem beside_putBit (s : State) (a : Nat) (v : Bool) : Beside P s (putBit s a v) := by
  refine Beside.trans ?_ (beside_logBit _ a)
  exact beside_of_eq rfl rfl rfl rfl

theorem beside_devBit (s : State) (a : Nat) (v : Bool) : Beside P s (devBit s a v) := by
  have hput := (beside_checkRow hP s 1 a).trans (beside_putBit (checkRow s 1 a) a v)
  have hset : Beside P s (setBit s 1 a v) := hput.trans (beside_eccClear _ _ _)
  exact hset.trans (beside_of_eq rfl rfl rfl rfl)

/-! ## Posted writes that fail (R230, R231) -/

theorem beside_postedFail (s : State) (p : Posted) (cause : Nat) : Beside P s (postedFail s p cause) := by
  have hlog : Beside P s (logFailure s p cause) := by
    unfold logFailure
    split
    · exact beside_of_eq rfl rfl rfl rfl
    · exact beside_incSat hP s (by decide) (by decide)
  have hbit (u : State) : Beside P u (wrFail u p) := by
    unfold wrFail
    split <;> exact beside_devBit hP u _ _
  exact (hlog.trans (hbit _)).trans (beside_pulse _ _)

theorem beside_postedDone (s : State) (which : Posted → Bool) (cause : Option Nat) : Beside P s (postedDone s which cause) := by
  have hdrop : Beside P s { s with scan := { s.scan with posted := s.scan.posted.filter fun p => !which p } } :=
    beside_of_eq rfl rfl rfl rfl
  unfold postedDone
  dsimp only
  split
  · exact hdrop.trans (Beside.foldl fun t p _ => beside_postedFail hP t p _)
  · exact hdrop

/-! ## The priority bus (R383, R396, R397) -/

omit hP in
theorem beside_updCan (s : State) (n : Nat) (f : CanSt → CanSt) : Beside P s (updCan s n f) := beside_of_eq rfl rfl rfl rfl

omit hP in
/-- The fields of a controller lie in the CAN block. -/
theorem ctlKey_can {n b : Nat} (hn : n < 2) (hb : b < 3) : ctlKey (canLast n b).key = false ∧ ctlKey (CAN_CNT1.TXDROP n).key = false ∧
    ctlKey (CAN_STAT.CNT_OVF n).key = false ∧ ctlKey (CAN_TTSTAT.STATE n).key = false ∧ ctlKey (CAN_STAT.ERRSTATE n).key = false := by
  interval_cases n <;> interval_cases b <;> decide

theorem beside_canRelease (s : State) {n b : Nat} (hn : n < 2) (hb : b < 3) (last : Nat) : Beside P s (canRelease s n b last) := by
  obtain ⟨hlast, hdrop, hovf, -, -⟩ := ctlKey_can hn hb
  unfold canRelease
  extract_lets +lift tb u v
  have hu : Beside P s u := beside_updCan s n _
  clear_value u
  split
  · split
    · exact hu.trans (beside_incSat hP u hdrop hovf)
    · exact hu
  · have hv : Beside P s v := hu.trans (beside_setF u last (unchosen hP hlast))
    clear_value v
    split
    · exact hv.trans (beside_incSat hP v hdrop hovf)
    · exact hv.trans (beside_postedDone hP v _ _)
    · exact hv.trans (beside_updCan v n _)

theorem beside_canClearPending (s : State) (n : Nat) : Beside P s (canClearPending s n) :=
  (beside_updCan s n _).trans (Beside.foldl fun t _ _ => beside_postedDone hP t _ _)

theorem beside_canLoseExcl (s : State) (n : Nat) : Beside P s (canLoseExcl s n) := by
  unfold canLoseExcl
  split
  · exact (beside_updCan s n _).trans (beside_postedDone hP _ _ _)
  · exact beside_refl P s

theorem beside_canModeDrop (s : State) {n : Nat} (hn : n < 2) : Beside P s (canModeDrop s n) := by
  have hbuffers (l : List Nat) (hl : ∀ b ∈ l, b < 3) : Beside P s (l.foldl (fun s b =>
      if (canTb s n b).frame.isSome && !(canTb s n b).attempt then canRelease s n b 5 else s) s) := by
    refine Beside.foldl fun t b hb => ?_
    split
    · exact beside_canRelease hP t hn (hl b hb) 5
    · exact beside_refl P t
  unfold canModeDrop
  extract_lets +lift u v
  have hv : Beside P s v := (hbuffers [0, 1] (by decide)).trans (beside_canClearPending hP u n)
  clear_value v
  split
  · exact hv
  · exact hv.trans (beside_canLoseExcl hP v n)

theorem beside_canReinitNow (s : State) {n : Nat} (hn : n < 2) : Beside P s (canReinitNow s n) := by
  obtain ⟨-, -, -, hstate, herr⟩ := ctlKey_can hn (b := 0) (by decide)
  have hbuffers : Beside P s ([0, 1, 2].foldl (fun s b => canRelease s n b 6) s) :=
    Beside.foldl fun t b hb => beside_canRelease hP t hn (by revert b; decide) 6
  unfold canReinitNow canReleaseAll
  extract_lets +lift u v w
  have hv : Beside P s v := (hbuffers.trans (beside_canClearPending hP u n)).trans (beside_canLoseExcl hP _ n)
  have hw : Beside P s w := hv.trans (beside_updCan v n _)
  clear_value w
  exact (hw.trans (beside_setF w _ (unchosen hP hstate))).trans (beside_setF _ _ (unchosen hP herr))

theorem beside_canReinit (s : State) {n : Nat} (hn : n < 2) : Beside P s (canReinit s n) := by
  unfold canReinit
  split
  · exact beside_updCan s n _
  · exact beside_canReinitNow hP s hn

theorem beside_busMode (s : State) (prev : Mode) : Beside P s (busMode s prev) := by
  refine Beside.foldl fun t n hn => ?_
  have hn : n < 2 := by
    revert n
    decide
  extract_lets +lift u
  have hu : Beside P t u := by
    unfold u
    split
    · exact beside_refl P t
    · exact beside_canModeDrop hP t hn
  clear_value u
  split
  · exact hu
  · exact hu.trans (beside_canReinit hP u hn)

/-! ## Notices of long operations (R515) -/

omit hP in
/-- The end of a long operation changes the slots and what is to be sent, and keeps the requests that wait. -/
theorem opEnd_eq (s : State) (i status : Nat) (result : List Byte) :
    ∃ z, opEnd s i status result = { s with zcp := z } ∧ z.held = s.zcp.held := by
  unfold opEnd
  split
  · unfold sendNotice
    split
    · exact ⟨_, rfl, rfl⟩
    · unfold sendPacket
      split
      · exact ⟨_, rfl, rfl⟩
      · exact ⟨_, rfl, rfl⟩
  · exact ⟨_, rfl, rfl⟩

omit hP in
theorem beside_opEnd? (s : State) (i : Option Nat) (status : Nat) (result : List Byte) : Beside P s (opEnd? s i status result) := by
  unfold opEnd?
  split
  · rename_i i
    obtain ⟨z, hz, hheld⟩ := opEnd_eq s i status result
    rw [hz]
    exact beside_of_eq rfl rfl rfl (by simp only [inWait, hheld])
  · exact beside_refl P s

/-! ## Egress queues, trace, and the change of mode itself (R67, R332, R550, R555) -/

theorem beside_egrPrune (s : State) : Beside P s (egrPrune s) := by
  refine Beside.foldl fun t p hp => ?_
  have hkey : ctlKey (EGR_MODEDISC.CNT p).key = false := by
    revert p
    decide
  extract_lets +lift old new n ports u
  have hu : Beside P t u := beside_of_eq rfl rfl rfl rfl
  clear_value u
  exact hu.trans (Beside.foldl fun v _ _ => beside_incSat hP v hkey (by decide))

omit hP in
theorem beside_trcQueue (s : State) (p : TrcPkt) : Beside P s (trcQueue s p) := by
  unfold trcQueue
  split
  · exact beside_of_eq rfl rfl rfl rfl
  · exact beside_refl P s

end

/-- The control registers but SYS_MODE.PREV, which a change of mode writes. -/
def modeKey (k : Nat) : Bool := ctlKey k && k != SYS_MODE.PREV.key

section
variable {P : Nat → Bool} (hP : ∀ k, P k = true → modeKey k = true)
include hP

theorem ctlKey_of_modeKey {k : Nat} (h : P k = true) : ctlKey k = true := by
  have := hP k h
  simp only [modeKey, Bool.and_eq_true] at this
  exact this.1

theorem unchosen_mode {k : Nat} (h : modeKey k = false) : P k = false := by
  by_contra hk
  rw [hP k (by simpa using hk)] at h
  cases h

/-- A change of mode: the mode is the new one, and beside it PREV, the present bit, the journal, the events and the buses change. -/
theorem beside_transition (s : State) (m : Mode) : Beside P { s with mode := m } (transition s m) := by
  have hc : ∀ k, P k = true → ctlKey k = true := fun k => ctlKey_of_modeKey hP
  unfold transition
  extract_lets +lift prev u v w x
  have hu : Beside P { s with mode := m } u :=
    ((beside_trcQueue _ _).trans (beside_egrPrune hc _)).trans (beside_busMode hc _ _)
  have hv : Beside P { s with mode := m } v := hu.trans (beside_setF u _ (unchosen_mode hP (by decide)))
  clear_value v
  split
  · exact hv
  · have hw : Beside P { s with mode := m } w := hv.trans (beside_devBit hc v _ _)
    have hx : Beside P { s with mode := m } x :=
      (hw.trans (beside_journalInt hc w _ _)).trans (beside_setF _ _ (unchosen hc (by decide)))
    exact hx.trans (beside_raiseEv hc x _ _ _)

end

end Sys2Proof.Machine
end

section
/-! SUPPORT. The way out of RESET (R13, R73, R565), the end of BOOT and the tests of SELFTEST (R81, R574). -/

namespace Sys2Proof.Machine

open Reg

/-! ## BOOT begins (R13, R565) -/

/-- No register is chosen: only the frame of an operation counts. -/
def noKey (_ : Nat) : Bool := false

/-- What happens at another instant of the clock leaves the same alone. -/
theorem Beside.at_instant {P : Nat → Bool} {s t : State} {a b : TimeSt} (h : Beside P { s with time := a } t) (hb : b.tai = s.time.tai) :
    Beside P s { t with time := b } where
  standing := by
    have htime := congrArg (fun x : State => { x with time := { TimeSt.init with tai := b.tai } }) h.standing
    exact htime.trans (by rw [hb]; rfl)
  ms := h.ms
  calm hs := calm_of_inWait (s := t) rfl (h.calm (calm_of_inWait (s := s) rfl hs))
  regs := h.regs

theorem beside_pmbWrite (s : State) (mv : Nat) : Beside noKey s (pmbWrite s mv) := by
  unfold pmbWrite
  cases s.pwr.vexp with
  | none => exact beside_of_eq rfl rfl rfl rfl
  | some e => exact beside_of_eq rfl rfl rfl rfl

/-- The stages of `enterBoot` before the change of mode: domains and straps, the supply voltage, the switch of the time source that
the reset has made, and a battery warning that has waited. -/
def bootStraps (s : State) : State :=
  setFs { s with pwr := { s.pwr with ramp := [] } }
    [(PWR_DSTAT.ON, 0xFFF), (PWR_DSTAT.RST, 0), (SYS_STATION.STN, s.pins.stn), (RST_STRAP.BOOTSEL, s.pins.bootsel)]
@[inherit_doc bootStraps] def bootVoltage (s : State) : State :=
  if isSet s PWR_AVS.EN then
    let u := pmbWrite s (getF s PWR_AVSLIM.VNOM)
    setF { u with pwr := { u.pwr with vexp := none } } PWR_AVSSTAT.VSET (getF u PWR_AVSLIM.VNOM)
  else s
@[inherit_doc bootStraps] def bootSwitched (s : State) : State :=
  match s.time.resetSw with
  | some t =>
    let u := note { s with time := { s.time with tai := t } } TIM_STAT.ACTIVE_SRC
    { u with time := { u.time with tai := s.time.tai, resetSw := none } }
  | none => s
@[inherit_doc bootStraps] def bootBattery (s : State) : State :=
  if s.cal.lbfLate then raise { s with cal := { s.cal with lbfLate := false } } CAL_STAT.LBF else s

/-- What BOOT begins with, before the change of mode. -/
def bootBegun (s : State) : State := bootBattery (bootSwitched (bootVoltage (bootStraps s)))

theorem enterBoot_eq (s : State) :
    enterBoot s = transition { bootBegun s with ms := { (bootBegun s).ms with released := false } } .boot := rfl

theorem beside_bootBegun (s : State) : Beside noKey s (bootBegun s) := by
  have hP : ∀ k, noKey k = true → ctlKey k = true := fun _ h => by cases h
  have hstraps : Beside noKey s (bootStraps s) := by
    refine Beside.trans ?_ (beside_setFs _ fun _ _ => rfl)
    exact beside_of_eq rfl rfl rfl rfl
  have hvoltage (u : State) : Beside noKey u (bootVoltage u) := by
    unfold bootVoltage
    split
    · refine Beside.trans ?_ (beside_setF _ _ rfl)
      refine (beside_pmbWrite u (getF u PWR_AVSLIM.VNOM)).trans ?_
      exact beside_of_eq rfl rfl rfl rfl
    · exact beside_refl _ u
  have hswitched (u : State) : Beside noKey u (bootSwitched u) := by
    unfold bootSwitched
    split
    · exact (beside_note hP _ TIM_STAT.ACTIVE_SRC).at_instant rfl
    · exact beside_refl _ u
  have hbattery (u : State) : Beside noKey u (bootBattery u) := by
    unfold bootBattery
    split
    · refine Beside.trans ?_ (beside_raise hP _ _)
      exact beside_of_eq rfl rfl rfl rfl
    · exact beside_refl _ u
  exact ((hstraps.trans (hvoltage _)).trans (hswitched _)).trans (hbattery _)

/-- BOOT begins: of what a change of mode leaves alone, only the mode and the mark of the release change. -/
theorem enterBoot_spec {s : State} (hm : s.mode = .reset) : (enterBoot s).mode = .boot ∧
    (enterBoot s).ms = { s.ms with released := false } ∧ (enterBoot s).pins = s.pins ∧ ModeFrame s (enterBoot s) := by
  have hbegun := beside_bootBegun s
  have hto := beside_transition (P := noKey) (fun _ h => by cases h)
    { bootBegun s with ms := { (bootBegun s).ms with released := false } } .boot
  rw [← enterBoot_eq] at hto
  have hms : (bootBegun s).ms = s.ms := hbegun.ms_of_not_run (by rw [inMode, hm]; rfl)
  exact ⟨hto.mode, (hto.ms_of_not_run rfl).trans (by rw [← hms]), hto.pins.trans hbegun.pins, hbegun.frame.trans hto.frame⟩

/-- The release of the reset samples the straps, and no source holds the reset any longer (R565). -/
def strapsSampled (s : State) (stn bootsel : Nat) : State := { s with
  pins := { s.pins with stn := stn % 256, bootsel := bootsel % 4, resetLow := false }
  ms := { s.ms with resetSrc := [], released := true }
  pwr := { s.pwr with railBad := [] }
  tap := { s.tap with drive := false, highz := false } }

theorem exec_resetPinRelease {s : State} (hm : s.mode = .reset) (stn bootsel : Nat) : exec (.resetPinRelease stn bootsel) s =
    .next (if s.ms.refStable then enterBoot (strapsSampled s stn bootsel) else strapsSampled s stn bootsel) := by
  rw [exec, execResetPinRelease, if_pos (by rw [hm]; rfl)]
  rfl

/-- The reference is stable, and runs (R73). -/
def referenceNoted (s : State) : State := { s with ms := { s.ms with refStable := true, refStopped := false } }

theorem exec_referenceStable {s : State} (hm : s.mode = .reset) :
    exec .referenceStable s = .next (if s.ms.released then enterBoot (referenceNoted s) else referenceNoted s) := by
  have hreset : (s.mode == .reset && s.ms.released) = s.ms.released := by rw [hm]; rfl
  exact congrArg (fun c : Bool => Host.Outcome.next (if c then enterBoot (referenceNoted s) else referenceNoted s)) hreset

/-! ## The tests (R81) -/

/-- The result of a test stands in its two bits of SYS_STRES. -/
theorem bitsOf_stResult {s t : State} {i code : Nat} (ht : t.regs = (stResult s i code).regs) (hi : i < 14) (hc : code < 4) :
    bitsOf (getF t SYS_STRES.RES) (2 * i) 2 = code := by
  have hres : getF (stResult s i code) SYS_STRES.RES =
      (getF s SYS_STRES.RES - bitsOf (getF s SYS_STRES.RES) (2 * i) 2 * 4 ^ i + code * 4 ^ i) % 2 ^ 28 :=
    (getF_setF_ne _ _ (by decide)).trans (getF_setF_self ..)
  rw [getF_regs ht, hres]
  generalize getF s SYS_STRES.RES = r
  unfold bitsOf
  interval_cases i <;> norm_num <;> omega

/-- Tests 1 to 6 are never left out. -/
theorem stNext_after {i : Nat} (hi : i < 6) (s : State) :
    stNext ((List.range 14).drop (i + 1)) s = { s with ms := { s.ms with selftest := some (i + 1) } } := by
  interval_cases i <;> rfl

theorem exec_selftestTestDone_passed {s : State} {i : Nat} (hm : s.mode = .selftest) (ht : s.ms.selftest = some i) (hi : i < 6) :
    exec (.selftestTestDone []) s = .next { stResult s i 1 with ms := { s.ms with selftest := some (i + 1) } } := by
  have hend (u : State) : stEnd u i = u := by
    unfold stEnd
    rw [if_neg (by omega), if_neg (by omega)]
  have hnofault (u : State) : stDisable u i [] = u ∧ stFatal i [] = false := ⟨rfl, rfl⟩
  simp only [exec, execSelftestTestDone, ht, hm, hend, hnofault, stNext_after hi, List.isEmpty_nil, if_true, bne_self_eq_false,
    Bool.false_eq_true, if_false]
  rfl

theorem exec_selftestTestDone_demanded {s : State} {i op : Nat} (hs : s.ms.selftest = none) (hd : s.ms.demandTest = some (i, op))
    (hi : i < 12) : exec (.selftestTestDone []) s =
      .next (opEnd { stResult s i 1 with ms := { s.ms with demandTest := none } } op 0 (beBytes 1 1)) := by
  have hend (u : State) : stEnd u i = u := by
    unfold stEnd
    rw [if_neg (by omega), if_neg (by omega)]
  rw [exec, execSelftestTestDone, hs, hd]
  dsimp only
  rw [hend]
  rfl

/-! ## The end of BOOT (R574) -/

/-- With the image loaded and D11 on, the end of BOOT is the change to SELFTEST and the start of test 0. -/
theorem exec_bootComplete {s : State} (hm : s.mode = .boot) (hstop : s.ms.refStopped = false) (hl : s.ms.bootLoaded = true)
    (hr : s.time.running = true) (hi : isSet s SYS_MODE.NO_IMAGE = false) (hd : domOn s 11 = true) :
    exec .bootComplete s = .next { transition s .selftest with ms := { (transition s .selftest).ms with selftest := some 0 } } := by
  have hto := beside_transition (P := modeKey) (fun _ h => h) s .selftest
  have hd' : domOn (transition s .selftest) 11 = true := by
    rw [domOn, hto.regs PWR_DSTAT.ON (by decide)]
    exact hd
  have hi' : isSet (transition s .selftest) SYS_MODE.NO_IMAGE = false := (hto.isSet (by decide)).trans hi
  have hfirst : stNext (List.range 14) (transition s .selftest) = stStart (transition s .selftest) 0 := by
    have hskip : stSkip (transition s .selftest) 0 = false := hi'
    have hcons : List.range 14 = 0 :: (List.range 14).drop 1 := by decide
    rw [hcons, stNext, hskip, if_neg Bool.false_ne_true]
  simp only [exec, execBootComplete, hm, hstop, hl, hr, hd', hfirst, bne_self_eq_false, Bool.or_false, Bool.false_eq_true, if_false,
    Bool.not_true, if_true]
  rfl

end Sys2Proof.Machine

open Sys2Proof Sys2Proof.Machine Sys2Proof.Machine.Reg

/-- Settles O10: each command is one operation on the state, and a change of mode leaves the memories, the pins and the clock alone. -/
theorem releaseBootAndSelftest : Obligations.ReleaseBootAndSelftest := by
  refine ⟨⟨?release, ?releaseKept, ?stable, ?stableNoted⟩, ?marks, ?alive, ?noClock, ?boot, ?tests, ?demanded⟩
  case release =>
    intro s stn bootsel hm hstable hstn hsel
    obtain ⟨hmode, hms, hpins, -, hnor, -, hpending⟩ := enterBoot_spec (s := strapsSampled s stn bootsel) hm
    have hexec := exec_resetPinRelease hm stn bootsel
    rw [if_pos hstable] at hexec
    refine ⟨_, hexec, hmode, ?_, ?_, ?_, ?_, hnor, hpending⟩
    · rw [hpins]
      exact Nat.mod_eq_of_lt hstn
    · rw [hpins]
      exact Nat.mod_eq_of_lt hsel
    · rw [hpins]
      rfl
    · rw [hms]
      rfl
  case releaseKept =>
    intro s stn bootsel hm hstable
    exact ⟨strapsSampled s stn bootsel, (exec_resetPinRelease hm stn bootsel).trans (by rw [hstable]; rfl), hm, rfl, rfl, rfl, rfl⟩
  case stable =>
    intro s hm hrel
    obtain ⟨hmode, hms, -, -, hnor, -⟩ := enterBoot_spec (s := referenceNoted s) hm
    have hexec := exec_referenceStable hm
    rw [if_pos hrel] at hexec
    exact ⟨_, hexec, hmode, by rw [hms]; rfl, by rw [hms], hnor⟩
  case stableNoted =>
    intro s hm hrel
    exact ⟨referenceNoted s, (exec_referenceStable hm).trans (by rw [hrel]; rfl), rfl⟩
  case marks =>
    intro s ha
    simp [exec, execRstoutRelease, execAliveToggle, execRef25Stop, liveMode, ha]
  case alive =>
    intro s ha
    simp [exec, execAliveToggle, liveMode, ha]
  case noClock =>
    intro s hm hstop hl hr
    simp [exec, execBootComplete, hm, hstop, hl, hr]
  case boot =>
    intro s hm hstop hl hr hi hd
    have hto := beside_transition (P := modeKey) (fun _ h => h) s .selftest
    obtain ⟨hwords, hnor, htai, hpending⟩ := hto.frame
    refine ⟨_, exec_bootComplete hm hstop hl hr hi hd, ?_⟩
    unfold ModeFrame
    dsimp only
    exact ⟨hto.mode, rfl, hto.nv, hwords, hnor, htai, hpending⟩
  case tests =>
    intro s i hm ht hi
    exact ⟨_, exec_selftestTestDone_passed hm ht hi, bitsOf_stResult (s := s) (i := i) rfl (by omega) (by decide), rfl, hm, rfl⟩
  case demanded =>
    intro s i op hs hd hi
    obtain ⟨z, hz, -⟩ := opEnd_eq { stResult s i 1 with ms := { s.ms with demandTest := none } } op 0 (beBytes 1 1)
    have hexec := exec_selftestTestDone_demanded (op := op) hs hd hi
    rw [hz] at hexec
    exact ⟨_, hexec, bitsOf_stResult (s := s) (i := i) rfl (by omega) (by decide), rfl, rfl, rfl⟩
end

section
/-! SUPPORT. The changes of mode of R74 to R87 and R273: what ends with the old mode, and what holds in the new one. -/

namespace Sys2Proof.Machine

open Reg

/-! ## Tasks and their triggers (R75, R77) -/

/-- The control registers but SYS_MODE.PREV and the domains that are on, which follow a change of mode. -/
def stillKey (k : Nat) : Bool := k / 2 ^ 21 == 0x4000 && k != SYS_MODE.PREV.key

theorem modeKey_of_stillKey {k : Nat} (h : stillKey k = true) : modeKey k = true := by
  rw [stillKey, Bool.and_eq_true] at h
  rw [modeKey, ctlKey, h.1, h.2]
  rfl

section
variable {P : Nat → Bool} (hP : ∀ k, P k = true → ctlKey k = true)
include hP

theorem beside_countSkip (s : State) {t : Nat} (ht : t < 8) : Beside P s (countSkip s t) := by
  have hkeys : ctlKey (SCN_CNT.SKIP t).key = false ∧ ctlKey (SCN_TSTAT.SKIP_OVF t).key = false := by
    revert t
    decide
  unfold countSkip trcScan
  have hcount := beside_incSat hP s hkeys.1 hkeys.2
  split
  · exact hcount.trans (beside_trcQueue _ _)
  · exact hcount

omit hP in
theorem beside_updTask (s : State) (t : Nat) (f : TaskSt → TaskSt) : Beside P s (updTask s t f) := beside_of_eq rfl rfl rfl rfl

theorem beside_dropHeld (s : State) {t : Nat} (ht : t < 8) : Beside P s (dropHeld s t) := by
  unfold dropHeld
  split
  · exact (beside_updTask s t _).trans (beside_countSkip hP _ ht)
  · exact beside_refl P s

theorem beside_dropPending (s : State) {t : Nat} (ht : t < 8) : Beside P s (dropPending s t) := by
  unfold dropPending
  split
  · exact (beside_updTask s t _).trans (beside_countSkip hP _ ht)
  · exact beside_refl P s

omit hP in
theorem beside_endRun (s : State) (t : Nat) : Beside P s (endRun s t) := by
  unfold endRun
  split
  · exact beside_updTask s t _
  · exact beside_refl P s

omit hP in
theorem beside_allTasks (s : State) {f : State → Nat → State} (hf : ∀ u t, t < 8 → Beside P u (f u t)) : Beside P s (allTasks s f) :=
  Beside.foldl fun u t ht => hf u t (List.mem_range.mp ht)

/-- The triggers that wait are dropped (R75). -/
theorem beside_dropTriggers (s : State) : Beside P s (allTasks (allTasks s dropPending) dropHeld) :=
  (beside_allTasks s fun u _ ht => beside_dropPending hP u ht).trans (beside_allTasks _ fun u _ ht => beside_dropHeld hP u ht)

/-! ## The move engine and the standby stream (R77, R181, R274, R287) -/

omit hP in
/-- What changes neither the standing part nor the mode's own state nor a register, and leaves the calm calm. -/
theorem beside_of_calm {s t : State} (hregs : t.regs = s.regs) (h : standing t = standing s) (hms : t.ms = s.ms)
    (hcalm : Calm s → Calm t) : Beside P s t :=
  ⟨h, .inl hms, hcalm, sameAt_of_regs hregs⟩

omit hP in
theorem beside_cancelDeferred (s : State) : Beside P s (cancelDeferred s) := by
  refine beside_of_calm rfl rfl rfl fun h => ?_
  exact ⟨h.fastWait, h.tmu, by rw [cancelDeferred, h.deferred]; rfl, rfl, h.ops, h.mac, h.held, h.tko, h.replaying⟩

omit hP in
theorem beside_abandonTmu (s : State) : Beside P s (abandonTmu s) := by
  refine beside_of_calm rfl rfl rfl fun h => ?_
  refine ⟨h.fastWait, fun x hx => ?_, h.deferred, h.waiting, h.ops, h.mac, h.held, h.tko, h.replaying⟩
  obtain ⟨y, -, rfl⟩ := List.mem_map.mp hx
  rfl

omit hP in
theorem beside_dropLive (s : State) : Beside P s (dropLive s) := beside_of_eq rfl rfl rfl rfl

omit hP in
theorem beside_pushSeq (s : State) (p : SblPay) : Beside P s (pushSeq s p) :=
  beside_of_eq rfl rfl rfl rfl

theorem beside_streamEv (s : State) (ev : StreamEv) : Beside P s (streamEv s ev) := by
  unfold streamEv
  dsimp only
  split
  · exact beside_refl P s
  · split
    · exact Beside.foldl fun u p _ => beside_pushSeq u p
    · refine Beside.trans (t := { s with sby := { s.sby with dropping := true, lossMark := true, dropCyc := s.core.cyc } }) ?_
        (beside_setF _ 1 (unchosen hP (by decide)))
      exact beside_of_eq rfl rfl rfl rfl

theorem beside_leaveStandby (s : State) : Beside P s (leaveStandby s) := by
  unfold leaveStandby
  extract_lets +lift b u v w
  have hu : Beside P s u := beside_opEnd? s _ _ _
  have hv : Beside P s v := hu.trans (beside_of_calm rfl rfl rfl fun h =>
    ⟨h.fastWait, h.tmu, h.deferred, h.waiting, h.ops, h.mac, h.held, rfl, rfl⟩)
  clear_value v
  have hw : Beside P s w := by
    unfold w
    split
    · exact hv.trans (beside_setF v 0 (unchosen hP (by decide)))
    · exact hv
  clear_value w
  have hkeys : ∀ p ∈ [(SBY_STAT.SYNC, 0), (SBY_STAT.XFER, 0), (SBY_LAGNOW.US, 0)], ctlKey p.1.key = false := by decide
  exact hw.trans (beside_setFs w fun p hp => unchosen hP (hkeys p hp))

theorem beside_autoSync (s : State) : Beside P s (autoSync s) := by
  have hkeys : ∀ p ∈ [(SBY_STAT.XFER, 1), (SBY_XFER.STATE, 1)], ctlKey p.1.key = false := by decide
  unfold autoSync requestXfer
  split
  · split
    · exact beside_refl P s
    · refine Beside.trans ?_ (beside_setFs _ fun p hp => unchosen hP (hkeys p hp))
      exact beside_of_calm rfl rfl rfl fun h =>
        ⟨h.fastWait, h.tmu, h.deferred, h.waiting, h.ops, h.mac, h.held, h.tko, rfl⟩
  · exact beside_refl P s

end

/-! ## A mode is entered -/

/-- A mode is entered with a state of its own: a halt cause may arise in it, and the operation that asked for it may end; the words,
the NOR, the clock, the queue and the registers at chosen keys stay. -/
structure Enters (P : Nat → Bool) (m : Mode) (a : ModeSt) (s t : State) : Prop where
  mode : t.mode = m
  frame : ModeFrame s t
  ms : t.ms = { a with haltPend := t.ms.haltPend, modeOp := t.ms.modeOp }
  halt : runModes.contains m = false → t.ms.haltPend = a.haltPend
  calm : Calm s → Calm t
  regs : SameAt P s t

section
variable {P : Nat → Bool} {m : Mode} {a : ModeSt} {s t u : State}

theorem Beside.thenEnters (h : Beside P s t) (h' : Enters P m a t u) : Enters P m a s u :=
  { h' with frame := h.frame.trans h'.frame, calm := h'.calm ∘ h.calm, regs := h.regs.trans h'.regs }

theorem Enters.thenBeside (h : Enters P m a s t) (h' : Beside P t u) : Enters P m a s u where
  mode := h'.mode.trans h.mode
  frame := h.frame.trans h'.frame
  ms := by
    rcases h'.ms with hms | ⟨-, c, hms⟩
    · rw [hms]
      exact h.ms
    · rw [hms, h.ms]
  halt hm := by
    rw [h'.ms_of_not_run (by rw [inMode, h.mode, hm])]
    exact h.halt hm
  calm := h'.calm ∘ h.calm
  regs := h.regs.trans h'.regs

theorem enters_transition (hP : ∀ k, P k = true → modeKey k = true) (s : State) (a : ModeSt) (m : Mode) :
    Enters P m a s (transition { s with ms := a } m) := by
  have h := beside_transition hP { s with ms := a } m
  obtain ⟨hwords, hnor, htai, hpending⟩ := h.frame
  refine ⟨h.mode, ⟨hwords, hnor, htai, hpending⟩, ?_, fun hm => ?_, fun hc => h.calm ?_, h.regs⟩
  · rcases h.ms with hms | ⟨-, c, hms⟩
    · rw [hms]
    · rw [hms]
  · rw [h.ms_of_not_run hm]
  · exact calm_of_inWait (s := s) rfl hc

theorem modeOpEnd_eq (s : State) (status : Nat) :
    ∃ z, modeOpEnd s status = { s with zcp := z, ms := { s.ms with modeOp := none } } ∧ z.held = s.zcp.held := by
  unfold modeOpEnd opEnd?
  cases s.ms.modeOp with
  | none => exact ⟨_, rfl, rfl⟩
  | some i =>
    obtain ⟨z, hz, hheld⟩ := opEnd_eq s i status (if status = 0 then beBytes 1 s.mode.code else [])
    dsimp only
    rw [hz]
    exact ⟨z, rfl, hheld⟩

theorem Enters.thenModeOpEnd (h : Enters P m a s t) (status : Nat) : Enters P m a s (modeOpEnd t status) := by
  obtain ⟨z, hz, hheld⟩ := modeOpEnd_eq t status
  obtain ⟨hwords, hnor, htai, hpending⟩ := h.frame
  rw [hz]
  refine ⟨h.mode, ⟨hwords, hnor, htai, hpending⟩, ?_, h.halt, fun hs => ?_, h.regs⟩
  · dsimp only
    rw [h.ms]
  · exact calm_of_inWait (s := t) (by simp only [inWait, hheld]) (h.calm hs)

/-- D11 goes off with a change of mode when PWR_D11CTL asks for it. -/
theorem beside_d11Follow (hP : P PWR_DSTAT.ON.key = false) (s : State) : Beside P s (d11Follow s) := by
  have hoff : Beside P s (domainOff s 11) := by
    unfold domainOff
    split
    · generalize getF s PWR_DSTAT.ON - 2 ^ 11 = n
      refine (beside_setF s n hP).trans ?_
      exact beside_of_eq rfl rfl rfl rfl
    · exact beside_refl P s
  unfold d11Follow
  split
  · exact hoff
  · exact beside_refl P s

end

/-! ## STOP, RUN, TRACK and SAFE_HALT (R75, R77, R87, R273) -/

/-- What ends before STOP is entered (R75). -/
def stopReady (s : State) : State :=
  let u := if quiet s then s else cancelDeferred (allTasks s endRun)
  dropLive (leaveStandby (streamEv (abandonTmu (allTasks (allTasks u dropPending) dropHeld)) (.mark 2 0)))

/-- The mode's own state after a change of mode: no STOP and no negotiation is pending. -/
def settled (a : ModeSt) : ModeSt := { a with stopPending := false, negotiating := false }

theorem enterStop_eq (s : State) : enterStop s =
    let t := transition { stopReady s with ms := settled (stopReady s).ms } .stop
    d11Follow (if t.ms.modeOp.isSome then modeOpEnd t 0 else t) := by
  unfold enterStop stopReady settled
  with_reducible rfl

section
variable {P : Nat → Bool} (hP : ∀ k, P k = true → ctlKey k = true)
include hP

theorem beside_stopReady (s : State) : Beside P s (stopReady s) := by
  have hruns : Beside P s (if quiet s then s else cancelDeferred (allTasks s endRun)) := by
    split
    · exact beside_refl P s
    · exact (beside_allTasks s fun u t _ => beside_endRun u t).trans (beside_cancelDeferred _)
  unfold stopReady
  generalize (if quiet s then s else cancelDeferred (allTasks s endRun)) = u at *
  have htriggers := (hruns.trans (beside_dropTriggers hP u)).trans (beside_abandonTmu _)
  exact ((htriggers.trans (beside_streamEv hP _ _)).trans (beside_leaveStandby hP _)).trans (beside_dropLive _)

end

theorem enters_enterStop (s : State) : Enters stillKey .stop (settled (stopReady s).ms) s (enterStop s) := by
  have hready := beside_stopReady (P := stillKey) (fun k h => ctlKey_of_modeKey (P := modeKey) (fun _ h => h) (modeKey_of_stillKey h)) s
  have hto := hready.thenEnters (enters_transition (fun k => modeKey_of_stillKey) (stopReady s) (settled (stopReady s).ms) .stop)
  rw [enterStop_eq]
  generalize transition { stopReady s with ms := settled (stopReady s).ms } .stop = t at *
  dsimp only
  refine Enters.thenBeside ?_ (beside_d11Follow (by decide) _)
  split
  · exact hto.thenModeOpEnd 0
  · exact hto

/-- What ends before RUN is entered without a new epoch (R87). -/
def runReady (s : State) : State :=
  let u := allTasks s fun s t => updTask s t fun k => { k with lastInst := none }
  setF { u with time := { u.time with skipped := none } } SYS_MODE.HALT_CAUSE 0

theorem enterRun_eq (s : State) : enterRun s false =
    d11Follow (modeOpEnd (transition { runReady s with ms := settled (runReady s).ms } .run) 0) := rfl

/-- The cause of the last halt is among the control registers that a change of mode leaves alone. -/
def causeKey (k : Nat) : Bool := k == SYS_MODE.HALT_CAUSE.key

theorem modeKey_of_causeKey {k : Nat} (h : causeKey k = true) : modeKey k = true := by
  rw [causeKey, beq_iff_eq] at h
  rw [h]
  decide

theorem beside_runReady (s : State) : Beside noKey s (runReady s) := by
  have htasks : Beside noKey s (allTasks s fun s t => updTask s t fun k => { k with lastInst := none }) :=
    beside_allTasks s fun u t _ => beside_updTask u t _
  refine (htasks.trans ?_).trans (beside_setF _ 0 rfl)
  exact beside_of_eq rfl rfl rfl rfl

theorem enters_enterRun (s : State) : Enters causeKey .run (settled (runReady s).ms) (runReady s) (enterRun s false) := by
  rw [enterRun_eq]
  exact ((enters_transition (fun _ => modeKey_of_causeKey) (runReady s) _ .run).thenModeOpEnd 0).thenBeside
    (beside_d11Follow (by decide) _)

/-- RUN is entered with no halt cause, and nothing of what a change of mode leaves alone changes. -/
theorem enterRun_spec (s : State) :
    (enterRun s false).mode = .run ∧ getF (enterRun s false) SYS_MODE.HALT_CAUSE = 0 ∧ ModeFrame s (enterRun s false) := by
  have hto := enters_enterRun s
  exact ⟨hto.mode, (hto.regs _ (by decide)).trans (getF_setF_self ..), (beside_runReady s).frame.trans hto.frame⟩

/-- What ends before TRACK is entered (R273). -/
def trackReady (s : State) : State := dropLive (leaveStandby (allTasks (allTasks s dropPending) dropHeld))

theorem enterTrack_eq (s : State) : enterTrack s false =
    autoSync (d11Follow (modeOpEnd (transition { trackReady s with ms := settled (trackReady s).ms } .track) 0)) := by
  unfold enterTrack trackReady settled
  dsimp only
  rw [if_neg Bool.false_ne_true]

theorem enters_enterTrack (s : State) : Enters noKey .track (settled (trackReady s).ms) s (enterTrack s false) := by
  have hP : ∀ k, noKey k = true → ctlKey k = true := fun _ h => by cases h
  have hready : Beside noKey s (trackReady s) :=
    ((beside_dropTriggers hP s).trans (beside_leaveStandby hP _)).trans (beside_dropLive _)
  have hto := hready.thenEnters (enters_transition (fun _ h => by cases h) (trackReady s) (settled (trackReady s).ms) .track)
  rw [enterTrack_eq]
  exact ((hto.thenModeOpEnd 0).thenBeside (beside_d11Follow rfl _)).thenBeside (beside_autoSync hP _)

/-! ## Requests of the host port, pending changes (R74 to R77, R87, R273) -/

theorem allTasks_dropHeld_of_none {s : State} (h : ∀ k ∈ s.scan.tasks, k.held = none) : allTasks s dropHeld = s := by
  refine List.foldl_fixed' (fun t => ?_) _
  have hheld : (task s t).held = none := nth_of_forall (p := fun k : TaskSt => k.held = none) h rfl t
  simp [dropHeld, hheld]

/-- A request over the host port that is accepted acts on the state, and nothing is recorded (R74, R76). -/
theorem modeReqHost_accepted {s t : State} {req : Nat} (hlive : absent s = false) (hreq : modeReq s req = (0, t)) (dbg : Bool) :
    (if liveMode s then modeReqHost s req dbg else s) = t := by
  rw [liveMode, hlive, Bool.not_false, if_pos rfl, modeReqHost, hreq]
  rfl

theorem absent_of_running {s : State} (h : inMode s runModes = true) : absent s = false := by
  simp only [inMode, runModes, List.contains_eq_mem, List.mem_cons, List.not_mem_nil, or_false, decide_eq_true_eq] at h
  rcases h with h | h | h | h <;> exact absent_of_mode h rfl

theorem modeReq_stop_pending {s : State} (h : s.mode = .run ∨ s.mode = .track) (hheld : ∀ k ∈ s.scan.tasks, k.held = none) :
    modeReq s 5 = (0, { s with ms := { s.ms with stopPending := true } }) := by
  have hdrop := allTasks_dropHeld_of_none (s := { s with ms := { s.ms with stopPending := true } }) hheld
  have hcond : (s.mode == .run || s.mode == .track) = true := by rcases h with h | h <;> rw [h] <;> rfl
  rw [modeReq, if_pos hcond, hdrop]

theorem modeReq_stop_safeHalt {s : State} (h : s.mode = .safeHalt) : modeReq s 5 = (0, enterStop s) := by
  rw [modeReq, if_neg (by rw [h]; decide), if_pos (by rw [h]; rfl)]

theorem modeReq_run_standalone {s : State} (h : s.mode = .stop) (hr : runRefused s = false) (hrole : dirRole s = 0) :
    modeReq s 6 = (0, enterRun s false) := by
  have hcond : (s.mode == .stop && !runRefused s) = true := by rw [h, hr]; rfl
  rw [modeReq, if_pos hcond, enterByRole]
  dsimp only
  rw [if_pos (.inl hrole)]

theorem modeReq_hold {s : State} (h : s.mode = .stop) (htxn : isSet s TXN_STAT.STATE = false) (hbusy : stopBusy s = false)
    (hneeds : holdNeedsOk s = true) : modeReq s 0xB = (0, { trcHoldEnter s with
      ms := { (trcHoldEnter s).ms with holdEntry := some (downOrder.filter fun d => !keeps (trcHoldEnter s) d) } }) := by
  have hcond : (s.mode != .stop || isSet s TXN_STAT.STATE || stopBusy s) = false := by rw [h, htxn, hbusy]; rfl
  rw [modeReq, if_neg (by rw [hcond]; decide), if_neg (by rw [hneeds]; decide)]

/-- The mark of a HOLD entry goes into the trace. -/
theorem trcHoldEnter_eq (s : State) : ∃ trc, trcHoldEnter s = { s with trc := trc } := by
  unfold trcHoldEnter trcPacket trcQueue
  dsimp only
  split
  · exact ⟨_, rfl⟩
  · exact ⟨_, rfl⟩

theorem halt_of_running {s : State} (h : inMode s runModes = true) (hp : s.ms.haltPend = none) (code : Nat) :
    halt s code = { journalInt s SYS_MODE.HALT_CAUSE.addr code with ms := { s.ms with haltPend := some code } } := by
  have hms : (journalInt s SYS_MODE.HALT_CAUSE.addr code).ms = s.ms := by simp
  rw [halt, if_pos h]
  dsimp only
  rw [hms, hp]

theorem enterStop_spec (s : State) : (enterStop s).mode = .stop ∧ (enterStop s).ms.stopPending = false ∧
    getF (enterStop s) SYS_MODE.STOP_FORCED = getF s SYS_MODE.STOP_FORCED ∧ ModeFrame s (enterStop s) := by
  have hto := enters_enterStop s
  exact ⟨hto.mode, by rw [hto.ms]; rfl, hto.regs _ (by decide), hto.frame⟩

end Sys2Proof.Machine
end

section
/-! SUPPORT. A halt cause takes effect at the end of its core cycle (R77): SAFE_HALT is entered, and the rest of the cycle leaves the
mode and the cause alone. -/

namespace Sys2Proof.Machine

open Reg

/-! ## Packets leave (R506, R513) -/

/-- The registers of the egress ports lie above the record of the cause, whatever the port and the queue. -/
theorem causeKey_egr {f : Fld} (h : 0x40080000 ≤ f.addr) : causeKey f.key = false := by
  simp only [causeKey, SYS_MODE.HALT_CAUSE, Fld.key, beq_eq_false_iff_ne]
  omega

theorem beside_egrCount (s : State) {f : Fld} (h : 0x40080000 ≤ f.addr) : Beside causeKey s (incSat s f EGR_STAT.CNT_OVF) := by
  unfold incSat
  split
  · exact beside_setF s _ (causeKey_egr h)
  · exact beside_setF s 1 (by decide)

theorem beside_egrPut (s : State) (p q : Nat) (f : EgrFrame) (early : Bool) : Beside causeKey s (egrPut s p q f early).2 := by
  unfold egrPut
  split
  · exact beside_egrCount s (by simp only [EGR_MODEDISC.CNT]; omega)
  · split
    · exact beside_egrCount s (by simp only [EGR_DROP.CNT]; omega)
    · exact beside_of_eq rfl rfl rfl rfl

/-- A pass over ports that gives each a frame. -/
theorem beside_egrPuts {s : State} {op : Bool × State → Nat → Bool × State} (hop : ∀ a p, Beside causeKey a.2 (op a p).2) (l : List Nat)
    (b : Bool) : Beside causeKey s (l.foldl op (b, s)).2 :=
  List.foldlRecOn (motive := fun a : Bool × State => Beside causeKey s a.2) l op (beside_refl _ s) fun a ha p _ => ha.trans (hop a p)

theorem beside_nextRed (s : State) (pair : Nat) : Beside causeKey s (nextRed s pair).2 := by
  unfold nextRed
  dsimp only
  split
  · exact beside_setF s _ (by decide)
  · exact beside_setF s _ (by decide)

theorem beside_egrPair (s : State) (pair mask q : Nat) (f : EgrFrame) (early : Bool) :
    Beside causeKey s (egrPair s pair mask q f early).2 := by
  unfold egrPair
  dsimp only
  split
  · exact beside_refl _ s
  · split
    · refine beside_egrPuts (fun a p => ?_) _ _
      exact beside_egrPut a.2 p q f early
    · split
      · refine Beside.trans ?_ (beside_egrPuts (fun a p => ?_) _ _)
        · split
          · exact beside_nextRed s pair
          · exact beside_refl _ s
        · exact beside_egrPut a.2 p q _ early
      · refine (beside_nextRed s pair).trans (beside_egrPuts (fun a p => ?_) _ _)
        exact beside_egrPut a.2 p q _ early

theorem beside_udpOut (s : State) (p : Peer) (bytes : List Byte) : Beside causeKey s (udpOut s p bytes) := by
  unfold udpOut sysSend egrSend
  exact (beside_egrPair s 0 _ _ _ _).trans (beside_egrPair _ 1 _ _ _ _)

theorem beside_canLoadZcp (s : State) (n : Nat) : Beside causeKey s (canLoadZcp s n) := by
  unfold canLoadZcp updTb
  split
  · split
    · exact (beside_updCan s n _).trans (beside_updCan _ n _)
    · exact beside_refl _ s
  · exact beside_refl _ s

theorem beside_canSendZcp (s : State) (n peer : Nat) (bytes : List Byte) : Beside causeKey s (canSendZcp s n peer bytes) := by
  unfold canSendZcp
  dsimp only
  refine Beside.trans ?_ (beside_canLoadZcp _ n)
  exact beside_updCan s n _

theorem beside_flushOut (s : State) : Beside causeKey s (flushOut s) := by
  unfold flushOut
  refine Beside.trans (t := { s with zcp := { s.zcp with outbox := [] } }) (beside_of_eq rfl rfl rfl rfl)
    (Beside.foldl fun u k _ => ?_)
  split
  · exact beside_udpOut u _ _
  · exact beside_udpOut u _ _
  · exact beside_canSendZcp u 0 _ _
  · exact beside_canSendZcp u 1 _ _
  · split
    · exact beside_refl _ u
    · split
      · exact beside_pushSeq u _
      · exact beside_of_eq rfl rfl rfl rfl
  · exact beside_refl _ u

/-! ## SAFE_HALT is entered (R77) -/

/-- A transaction that is discarded leaves its objects and reports; of the NV store only the sets and the jobs of transactions
change. -/
theorem txnDiscard_beside (s : State) (o : Nat) (mode : Bool) (status : Nat) :
    ∃ nv, Beside noKey { s with nv := nv } (txnDiscard s o mode status) := by
  have hP : ∀ k, noKey k = true → ctlKey k = true := fun _ h => by cases h
  have hvoid : ∃ nv, nvDropRank (voidSet s) 2 = { s with nv := nv } := by
    unfold voidSet
    split
    · exact ⟨_, rfl⟩
    · exact ⟨_, rfl⟩
  have howe (u : State) : Beside noKey u (oweReport u o) := by
    unfold oweReport
    split
    · exact beside_of_eq rfl rfl rfl rfl
    · exact beside_refl _ u
  have houtcome (u : State) (seq : Nat) : Beside noKey u (txnOutcome u o false false mode seq) := by
    unfold txnOutcome
    dsimp only
    split
    · exact ((beside_setFs u fun _ _ => rfl).trans (beside_incSat hP _ (by decide) (by decide))).trans (beside_pulse _ _)
    · exact beside_setFs u fun _ _ => rfl
  have hedit (u : State) (edit : Bool) : Beside noKey u (if edit then
      setF (if getF u EDT_STAT.COPY = 1 then setF u EDT_STAT.COPY 0 else u) EDT_STAT.KEEP_OK 1 else u) := by
    split
    · refine Beside.trans ?_ (beside_setF _ 1 rfl)
      split
      · exact beside_setF u 0 rfl
      · exact beside_refl _ u
    · exact beside_refl _ u
  have hidle (u : State) : Beside noKey u (txnIdle u) := by
    unfold txnIdle dropShadow
    refine Beside.trans ?_ (beside_setFs _ fun _ _ => rfl)
    exact beside_of_eq rfl rfl rfl rfl
  obtain ⟨nv, hnv⟩ := hvoid
  refine ⟨nv, ?_⟩
  unfold txnDiscard
  dsimp only
  rw [hnv]
  refine Beside.trans ?_ (hidle _)
  refine Beside.trans ?_ (hedit _ _)
  refine Beside.trans ?_ (beside_opEnd? _ _ _ _)
  refine Beside.trans ?_ (beside_opEnd? _ _ _ _)
  exact (howe _).trans (houtcome _ _)

/-- What ends before SAFE_HALT is entered, and the record of the cause (R77). -/
def haltStops (s : State) : State :=
  abandonTmu (cancelDeferred (allTasks (allTasks (allTasks s endRun) dropPending) dropHeld))
@[inherit_doc haltStops] def haltDiscards (s : State) : State :=
  if isSet s TXN_STAT.STATE ∧ isSet s TXN_STAT.EDIT then txnDiscard s 2 true 0x0F else s
@[inherit_doc haltStops] def haltReady (s : State) (cause : Nat) : State :=
  setF (dropLive (leaveStandby (streamEv (haltDiscards (haltStops s)) (.mark 1 cause)))) SYS_MODE.HALT_CAUSE cause

/-- The mode's own state in SAFE_HALT. -/
def haltSettled (a : ModeSt) : ModeSt := { a with stopPending := false, haltPend := none, negotiating := false }

theorem enterHalt_eq (s : State) (cause : Nat) : enterHalt s cause =
    d11Follow (modeOpEnd (transition { haltReady s cause with ms := haltSettled (haltReady s cause).ms } .safeHalt) 0x0A) := by
  unfold enterHalt haltReady haltDiscards haltStops haltSettled
  with_reducible rfl

theorem haltReady_spec (s : State) (cause : Nat) :
    (Calm s → Calm (haltReady s cause)) ∧ (haltReady s cause).ms.holdEntry = s.ms.holdEntry := by
  have hP : ∀ k, noKey k = true → ctlKey k = true := fun _ h => by cases h
  have hstops : Beside noKey s (haltStops s) := (((beside_allTasks s fun u t _ => beside_endRun u t).trans
    (beside_dropTriggers hP _)).trans (beside_cancelDeferred _)).trans (beside_abandonTmu _)
  have hdiscards (u : State) : ∃ nv, Beside noKey { u with nv := nv } (haltDiscards u) := by
    unfold haltDiscards
    split
    · exact txnDiscard_beside u _ _ _
    · exact ⟨u.nv, beside_refl _ u⟩
  have hleaves (u : State) : Beside noKey u (setF (dropLive (leaveStandby (streamEv u (.mark 1 cause)))) SYS_MODE.HALT_CAUSE cause) :=
    (((beside_streamEv hP u _).trans (beside_leaveStandby hP _)).trans (beside_dropLive _)).trans (beside_setF _ _ rfl)
  unfold haltReady
  generalize haltStops s = u at *
  obtain ⟨nv, hdiscard⟩ := hdiscards u
  have hend := hdiscard.trans (hleaves _)
  refine ⟨fun hs => hend.calm ?_, hend.holdEntry.trans hstops.holdEntry⟩
  exact calm_of_inWait (s := u) rfl (hstops.calm hs)

/-! ## The rest of the cycle -/

/-- What passes in the rest of a core cycle: the mode, its pending changes, the calm and the record of the cause stay. -/
structure Passes (s t : State) : Prop where
  mode : t.mode = s.mode
  halt : t.ms.haltPend = s.ms.haltPend
  hold : t.ms.holdEntry = s.ms.holdEntry
  calm : Calm s → Calm t
  regs : SameAt causeKey s t

theorem Passes.trans {s t u : State} (h : Passes s t) (h' : Passes t u) : Passes s u :=
  ⟨h'.mode.trans h.mode, h'.halt.trans h.halt, h'.hold.trans h.hold, h'.calm ∘ h.calm, h.regs.trans h'.regs⟩

theorem Beside.passes {s t : State} (h : Beside causeKey s t) (hm : Machine.inMode s runModes = false) : Passes s t := by
  have hms := h.ms_of_not_run hm
  exact ⟨h.mode, by rw [hms], by rw [hms], h.calm, h.regs⟩

/-- What leaves the registers, the mode with its pending changes and all that waits alone. -/
theorem passes_of_eq {s t : State} (hregs : t.regs = s.regs) (hmode : t.mode = s.mode) (hhalt : t.ms.haltPend = s.ms.haltPend)
    (hhold : t.ms.holdEntry = s.ms.holdEntry) (hwait : inWait t = inWait s) : Passes s t :=
  ⟨hmode, hhalt, hhold, calm_of_inWait hwait, sameAt_of_regs hregs⟩

theorem passes_refl (s : State) : Passes s s := passes_of_eq rfl rfl rfl rfl rfl

theorem passes_clockAdvance (s : State) : Passes s (clockAdvance s) := by
  have htai (u : State) : Passes u (taiAdvance u) := by
    unfold taiAdvance
    split
    · exact passes_of_eq rfl rfl rfl rfl rfl
    · exact passes_refl u
  have hplb (u : State) : Passes u (plbAdvance u) := by
    unfold plbAdvance
    split
    · exact passes_of_eq rfl rfl rfl rfl rfl
    · exact passes_refl u
  have hcyc (u : State) : Passes u (cycAdvance u) := by
    unfold cycAdvance
    split
    · exact passes_of_eq rfl rfl rfl rfl rfl
    · exact passes_refl u
  have hscrub (u : State) : Passes u (scrubAdvance u) := by
    obtain ⟨time, h⟩ := scrubAdvance_eq u
    rw [h]
    exact passes_of_eq rfl rfl rfl rfl rfl
  have hnote (u : State) : Passes u (clockNote u) := by
    obtain ⟨phm, h⟩ := clockNote_eq u
    rw [h]
    exact passes_of_eq rfl rfl rfl rfl rfl
  have hpulses (u : State) : Passes u (pulsesEnd u) :=
    passes_of_eq rfl rfl rfl rfl rfl
  have htrain (u : State) : Passes u (sblTrain u) := by
    unfold sblTrain
    split
    · exact ⟨rfl, rfl, rfl, calm_of_inWait rfl, sameAt_setF u 1 (by decide)⟩
    · exact passes_refl u
  rw [clockAdvance_eq_stages]
  exact (((((htai s).trans (hplb _)).trans (hcyc _)).trans (hscrub _)).trans (hnote _)).trans ((hpulses _).trans (htrain _))

/-! ## The cycle in which a halt cause takes effect -/

/-- A cause has taken the device into SAFE_HALT: the mode, the record of the cause, and no further cause. -/
def HaltedBy (c : Nat) (t : State) : Prop := t.mode = .safeHalt ∧ getF t SYS_MODE.HALT_CAUSE = c ∧ t.ms.haltPend = none

theorem HaltedBy.passes {c : Nat} {s t : State} (h : HaltedBy c s) (hst : Passes s t) : HaltedBy c t := by
  obtain ⟨hmode, hcause, hpend⟩ := h
  exact ⟨hst.mode.trans hmode, (hst.regs _ (by decide)).trans hcause, hst.halt.trans hpend⟩

theorem enterHalt_spec {s : State} {c : Nat} (hc : c < 256) (hcalm : Calm s) (hhold : s.ms.holdEntry = none) :
    HaltedBy c (enterHalt s c) ∧ Calm (enterHalt s c) ∧ (enterHalt s c).ms.holdEntry = none := by
  obtain ⟨hready, hentry⟩ := haltReady_spec s c
  have hcause : getF (haltReady s c) SYS_MODE.HALT_CAUSE = c := getF_setF_of_lt _ _ hc
  rw [enterHalt_eq]
  generalize haltReady s c = u at *
  have hto := ((enters_transition (fun _ => modeKey_of_causeKey) u (haltSettled u.ms) .safeHalt).thenModeOpEnd 0x0A).thenBeside
    (beside_d11Follow (by decide) _)
  generalize d11Follow (modeOpEnd (transition { u with ms := haltSettled u.ms } .safeHalt) 0x0A) = t at *
  refine ⟨⟨hto.mode, (hto.regs SYS_MODE.HALT_CAUSE (by decide)).trans hcause, hto.halt rfl⟩, hto.calm (hready hcalm), ?_⟩
  rw [hto.ms]
  exact hentry.trans hhold

/-- What ends with the cycle of a halt, as `endOfCycle_of_idle` says it of a cycle without one. -/
theorem endOfCycle_of_halting {s : State} (h : IdleCycle { s with ms := { s.ms with haltPend := none } }) :
    ∃ cells writes seen sel, endOfCycle s = { s with
      core := { s.core with cells := cells, bitWrites := writes, sysSeen := seen }
      scan := { s.scan with sel := sel } } := by
  obtain ⟨-, -, hd2, -, -, -, -, -, hops, hwait, -, hfast, hroom, hmac, htmu, hrep, -, hmode, htasks, hports, -, -, hframe⟩ := h
  have hstays (u : State) : (if s.mode == .takeover then dropUncommitted u else u) = u := if_neg (by simpa using hmode)
  dsimp only at hops hwait hfast hroom hmac htmu hrep hmode htasks hports
  unfold endOfCycle
  rw [replayDue_of_not_replaying hrep, gateTick_of_no_list hports]
  dsimp only
  rw [copyAll_of_no_ops (by exact hops), endOps_of_no_ops (by exact hops) (by exact hmac), endRuns_of_no_end (by exact htasks),
    replayDue_of_not_replaying (by exact hrep), hstays, tmuAll_of_no_event (by exact htmu)]
  obtain ⟨cells, hcells⟩ := sweepCell_eq { s with scan := { s.scan with sel := selected s } } (s.core.cyc % 1024)
  rw [hcells, hubFrames_of_none (by exact hframe), ite_self,
    endStalls_of_none (by exact hwait) (by exact hfast) (by exact hroom)]
  obtain ⟨writes, seen, hnote⟩ := noteSys_eq { s with
    core := { s.core with cells := cells }
    scan := { s.scan with sel := selected s } }
  exact ⟨cells, writes, seen, selected s, hnote⟩

theorem calm_of_idle {s : State} (h : IdleCycle s) : Calm s := by
  obtain ⟨-, -, -, -, -, -, -, hheld, hops, hwait, hdef, hfast, -, hmac, htmu, hrep, htko, -⟩ := h
  exact ⟨hfast, htmu, hdef, hwait, hops, hmac, hheld, htko, hrep⟩

/-- At the end of an idle cycle a halt cause acts on a state in which nothing waits. -/
theorem settle_of_halting {s : State} {c : Nat} (hp : s.ms.haltPend = some c)
    (h : IdleCycle { s with ms := { s.ms with haltPend := none } }) :
    ∃ v, settle (trcCycle (endOfCycle s)) = enterHalt v c ∧ Calm v ∧ v.ms.holdEntry = none := by
  obtain ⟨cells, writes, seen, sel, hend⟩ := endOfCycle_of_halting h
  have hcalm : Calm s := calm_of_inWait (s := { s with ms := { s.ms with haltPend := none } }) rfl (calm_of_idle h)
  obtain ⟨-, -, -, -, -, hhold, -, -, -, -, -, -, -, -, -, -, -, -, -, -, hfifo, hpkt, -⟩ := h
  refine ⟨{ s with
    ms := { s.ms with haltPend := none }
    core := { s.core with cells := cells, bitWrites := writes, sysSeen := seen }
    scan := { s.scan with sel := sel }, trc := { s.trc with wait := s.trc.wait - 1 } }, ?_, calm_of_inWait (s := s) rfl hcalm, hhold⟩
  rw [hend, trcCycle_of_no_packet (by exact hfifo) (by exact hpkt), settle]
  dsimp only
  rw [hp]

/-- After the halt the rest of the cycle finds nothing to do but to advance the clocks. -/
theorem passes_nextCycle {s w : State} (hw : settle (trcCycle (endOfCycle s)) = w) (hc : Calm w) :
    Passes w (nextCycle s) ∧ Calm (nextCycle s) := by
  have hadv : Passes w (setF (clockAdvance w) CORE_STAT.ISSUING 0) := (passes_clockAdvance w).trans
    ⟨rfl, rfl, rfl, calm_of_inWait rfl, sameAt_setF _ 0 (by decide)⟩
  unfold nextCycle
  rw [hw]
  generalize setF (clockAdvance w) CORE_STAT.ISSUING 0 = n at *
  have hn := hadv.calm hc
  dsimp only
  rw [takeoverDue_of_none hn.tko, replayAdvance_of_not_replaying hn.replaying, replayDue_of_not_replaying hn.replaying,
    captureAll_of_no_ops (by exact hn.ops) (by exact hn.mac)]
  exact ⟨hadv.trans (passes_of_eq rfl rfl rfl rfl rfl), calm_of_inWait (s := n) rfl hn⟩

/-- A halt cause that has arisen takes the device into SAFE_HALT with the end of the cycle (R77). -/
theorem haltedBy_tick {s : State} {c : Nat} (hp : s.ms.haltPend = some c) (hc : c < 256)
    (h : IdleCycle { s with ms := { s.ms with haltPend := none } }) : HaltedBy c (tick s) := by
  obtain ⟨v, hsettle, hcalm, hhold⟩ := settle_of_halting hp h
  obtain ⟨hhalted, hquiet, hentry⟩ := enterHalt_spec hc hcalm hhold
  obtain ⟨hpass, hb⟩ := passes_nextCycle hsettle hquiet
  obtain ⟨hstop, habs, hd2, -⟩ := h
  have hcycle : coreCycle s = nextCycle s := by
    unfold coreCycle
    rw [if_neg (by rw [show domOn s 2 = true from hd2]; decide)]
    exact startFire_of_none hb.fastWait hb.tmu hb.deferred hb.waiting _ _
  have hafter := hhalted.passes hpass
  have hout := (beside_flushOut (nextCycle s)).passes (by rw [inMode, hafter.1]; rfl)
  have hsoft (u : State) : Passes u (softErrors u) := by
    obtain ⟨upsets, back, hu⟩ := softErrors_eq u
    rw [hu]
    exact passes_of_eq rfl rfl rfl rfl rfl
  rw [tick, if_neg ?off, if_neg ?reset, hcycle, holdNext_of_none (hpass.hold.trans hentry), runHeld_of_none hb.held]
  · exact hafter.passes (hout.trans (hsoft _))
  all_goals
    simp only [absent, inMode, List.contains_cons, Bool.or_eq_false_iff] at habs
    dsimp only at hstop habs
    simp [hstop, habs]

end Sys2Proof.Machine
end

section
open Sys2Proof Sys2Proof.Machine Sys2Proof.Machine.Reg

/-- Settles O11: a request that is accepted is the operation that its mode names, and each change of mode ends with `transition`, which
leaves the words, the NOR, the clock and the queue alone; a halt acts with the end of its cycle. -/
theorem modeChanges : Obligations.ModeChanges := by
  refine ⟨⟨?stopPending, ?stopSafeHalt, ?halt, ?halted, ?hold, ?run⟩, ?quietPoint, ?timeLimit, ?negotiated⟩
  case stopPending =>
    intro s dbg hm hheld
    have hlive : absent s = false := by rcases hm with h | h <;> exact absent_of_mode h rfl
    exact congrArg Host.Outcome.next (modeReqHost_accepted hlive (modeReq_stop_pending hm hheld) dbg)
  case stopSafeHalt =>
    intro s dbg hm
    obtain ⟨hstop, -, -, hframe⟩ := enterStop_spec s
    exact ⟨_, congrArg Host.Outcome.next (modeReqHost_accepted (absent_of_mode hm rfl) (modeReq_stop_safeHalt hm) dbg), hstop, hframe⟩
  case halt =>
    intro s dbg hrun hp
    have hreq : modeReq s 0xA = (0, halt s 8) := by rw [modeReq, if_pos hrun]
    refine ⟨_, congrArg Host.Outcome.next (modeReqHost_accepted (absent_of_running hrun) hreq dbg), ?_⟩
    rw [halt_of_running hrun hp]
    simp [ModeFrame]
  case halted =>
    intro s c hq hrun hp hc hidle
    obtain ⟨hmode, hcause, hpend⟩ := haltedBy_tick hp hc hidle
    exact ⟨tick s, by rw [step, hq], hmode, hcause, hpend⟩
  case hold =>
    intro s dbg hm htxn hd hh hw hn hneeds
    have hbusy : stopBusy s = false := by simp [stopBusy, hd, hh, hw, hn]
    have hreq := modeReq_hold hm htxn hbusy hneeds
    obtain ⟨trc, htrc⟩ := trcHoldEnter_eq s
    rw [htrc] at hreq
    exact ⟨_, congrArg Host.Outcome.next (modeReqHost_accepted (absent_of_mode hm rfl) hreq dbg), hm, rfl, rfl⟩
  case run =>
    intro s dbg hm hr hrole
    exact ⟨_, congrArg Host.Outcome.next (modeReqHost_accepted (absent_of_mode hm rfl) (modeReq_run_standalone hm hr hrole) dbg),
      enterRun_spec s⟩
  case quietPoint =>
    intro s hm hp hq
    have hdue : (stopDue s && quiet s) = true := by rw [stopDue, hp, hm, hq]; rfl
    exact ⟨enterStop s, by rw [exec, execStopAtQuietPoint, if_pos hdue], enterStop_spec s⟩
  case timeLimit =>
    intro s hm hp hq
    have hdue : stopDue s = true := by rw [stopDue, hp, hm]; rfl
    have hexec : exec .stopTimeout s = .next (setF (enterStop s) SYS_MODE.STOP_FORCED 1) := by
      rw [exec, execStopTimeout, if_pos hdue, hq]
      rfl
    obtain ⟨hstop, hpending, -, hframe⟩ := enterStop_spec s
    generalize enterStop s = t at *
    exact ⟨_, hexec, hstop, hpending, getF_setF_self .., hframe⟩
  case negotiated =>
    intro s hneg hrole hsolo
    have hto := enters_enterTrack s
    have hends : negotiationEnds s = enterTrack s false := by
      rw [negotiationEnds, if_neg (by rw [hrole, hsolo]; decide)]
    exact ⟨enterTrack s false, by rw [exec, execRoleNegTimeout, if_pos hneg, hends], hto.mode, by rw [hto.ms]; rfl, hto.frame⟩
end

section
/-! SUPPORT. The path into and out of HOLD (R88 to R90, R533, R576): what switching a domain off or on changes, what a wake source
records, and what the return to STOP leaves alone. -/

namespace Sys2Proof.Machine

open Reg

/-! ## The domains that are on -/

/-- Taking a power of two off a number that holds it clears one bit. -/
theorem testBit_sub_two_pow {x d : Nat} (h : x.testBit d = true) (e : Nat) :
    (x - 2 ^ d).testBit e = (x.testBit e && e != d) := by
  have hodd : x / 2 ^ d % 2 = 1 := by simpa [Nat.testBit_eq_decide_div_mod_eq] using h
  have hx : x = 2 ^ d * (2 * (x / 2 ^ d / 2) + 1) + x % 2 ^ d := by
    rw [show 2 * (x / 2 ^ d / 2) + 1 = x / 2 ^ d by omega, Nat.div_add_mod]
  have hlow := Nat.mod_lt x (Nat.two_pow_pos d)
  generalize x / 2 ^ d / 2 = q at hx
  generalize x % 2 ^ d = r at hx hlow
  have hsub : x - 2 ^ d = 2 ^ d * (2 * q) + r := by rw [hx, Nat.mul_add, Nat.mul_one]; omega
  rw [hsub, hx, Nat.testBit_two_pow_mul_add _ hlow, Nat.testBit_two_pow_mul_add _ hlow]
  split
  next hlt => simp [Nat.ne_of_lt hlt]
  next hge =>
    obtain ⟨k, rfl⟩ := Nat.exists_eq_add_of_le (Nat.le_of_not_lt hge)
    cases k with
    | zero => simp
    | succ k => simp [Nat.testBit_succ]; grind

/-- Only the domains that are on count. -/
def onKey (k : Nat) : Bool := k == PWR_DSTAT.ON.key

theorem modeKey_of_onKey {k : Nat} (h : onKey k = true) : modeKey k = true := by
  rw [onKey, beq_iff_eq] at h
  rw [h]
  decide

theorem ctlKey_of_onKey {k : Nat} (h : onKey k = true) : ctlKey k = true :=
  ctlKey_of_modeKey (P := modeKey) (fun _ h => h) (modeKey_of_onKey h)

theorem domOn_of_regs {s t : State} (h : SameAt onKey s t) (d : Nat) : domOn t d = domOn s d := by
  rw [domOn, h PWR_DSTAT.ON (by decide), ← domOn]

theorem domOn_setF_on (s : State) (v d : Nat) : domOn (setF s PWR_DSTAT.ON v) d = (decide (d < 12) && v.testBit d) := by
  rw [domOn, getF_setF_self, bitOf_eq_testBit, Nat.testBit_mod_two_pow]
  rfl

/-- A domain that is on after one is switched off was on before, and is another one. -/
theorem on_of_domainOff {s : State} {d e : Nat} (h : domOn (domainOff s d) e = true) : domOn s e = true ∧ e ≠ d := by
  unfold domainOff at h
  split at h
  next hd =>
    have hset : domOn (setF s PWR_DSTAT.ON (getF s PWR_DSTAT.ON - 2 ^ d)) e = true := by
      generalize getF s PWR_DSTAT.ON - 2 ^ d = v at *
      dsimp only at h
      split at h
      · exact h
      · split at h
        · rwa [domOn_of_regs (sameAt_setF _ 0 (by decide))] at h
        · exact h
    rw [domOn, bitOf_eq_testBit] at hd
    rw [domOn_setF_on, testBit_sub_two_pow hd] at hset
    simp only [Bool.and_eq_true, bne_iff_ne] at hset
    rw [domOn, bitOf_eq_testBit]
    exact hset.2
  next hd => exact ⟨h, fun he => hd (he ▸ h)⟩

/-! ## HOLD is entered (R88) -/

theorem standing_domainOff (s : State) (d : Nat) : standing (domainOff s d) = standing s := by
  unfold domainOff
  split
  · generalize getF s PWR_DSTAT.ON - 2 ^ d = v
    dsimp only
    split
    · rfl
    · split <;> rfl
  · rfl

/-- An operation of the selection stays beside the mode, whatever it writes of the registers that do not count. -/
theorem Selects.beside {P : Nat → Bool} {ks : List Fld} {s t : State} (h : Selects ks s t) (hk : ∀ f ∈ ks, P f.key = false) :
    Beside P s t := by
  have htai := h.tai
  have hregs : SameAt P s t := fun f hf => h.regs f fun hm => by
    obtain ⟨g, hg, hkey⟩ := List.mem_map.mp hm
    rw [← hkey, hk g hg] at hf
    cases hf
  have hrest := h.rest
  have hstanding : standing t = standing s := by
    rw [hrest]
    unfold standing
    dsimp only
    rw [htai]
  exact beside_of_sameAt hregs hstanding h.ms (by rw [hrest]; rfl)

theorem beside_setValidSrc_false (s : State) {n : Nat} (hn : n < 7) : Beside onKey s (setValidSrc s n false) := by
  have hkeys : ∀ f ∈ [TIM_SRC_STAT.VALID n, TIM_SRC_STAT.QUALIFIED n] ++ selFields, onKey f.key = false := by
    interval_cases n <;> decide
  exact (selects_setValidSrc_false s n).beside hkeys

theorem beside_updPtp (s : State) (p : Nat) (f : PtpPort → PtpPort) : Beside onKey s (updPtp s p f) := beside_of_eq rfl rfl rfl rfl

theorem beside_plbLost (s : State) : Beside onKey s (plbLost s) := by
  have hkeys : ∀ f ∈ [PLB_STAT.TRACKING, PLB_STAT.FREERUN, PLB_HOLDF.FREQ], onKey f.key = false := by decide
  unfold plbLost
  refine Beside.trans ?_ (beside_setRaise (fun _ => ctlKey_of_onKey) _ 1 (by decide))
  refine (beside_setFs s (l := [(PLB_STAT.TRACKING, 0), (PLB_STAT.FREERUN, 1), (PLB_HOLDF.FREQ, getF s PLB_FREQ.FREQ)])
    fun p hp => hkeys p.1 (List.mem_map_of_mem (f := Prod.fst) hp)).trans ?_
  exact beside_of_eq rfl rfl rfl rfl

/-- What follows a domain that goes off on the way into HOLD: its time sources and Plumb's input are lost. -/
def holdOffSources (s : State) (d : Nat) : State :=
  if d = 6 ∨ d = 7 then (List.range 4).foldl (fun s p =>
    setValidSrc (updPtp s p fun q => { q with annOk := false, syncOk := false }) p false) s
  else if d = 9 then setValidSrc { s with time := { s.time with sblEx := none } } 6 false else s
@[inherit_doc holdOffSources] def holdOffPlumb (s : State) (d : Nat) : State :=
  if (d = 5 ∨ d = 6 ∨ d = 7) ∧ getF s PLB_CTRL.SRC_MODE ≠ 0 ∧ isSet s PLB_STAT.TRACKING then plbLost s else s

theorem holdOff_eq (s : State) (d : Nat) : holdOff s d = holdOffPlumb (holdOffSources (domainOff s d) d) d := by
  unfold holdOff holdOffPlumb holdOffSources
  with_reducible rfl

theorem beside_holdOffSources (s : State) (d : Nat) : Beside onKey s (holdOffSources s d) := by
  unfold holdOffSources
  split
  · exact Beside.foldl fun t p hp =>
      (beside_updPtp t p _).trans (beside_setValidSrc_false _ (by have := List.mem_range.mp hp; omega))
  · split
    · refine Beside.trans ?_ (beside_setValidSrc_false _ (by decide))
      exact beside_of_eq rfl rfl rfl rfl
    · exact beside_refl _ s

theorem beside_holdOff (s : State) (d : Nat) : Beside onKey (domainOff s d) (holdOff s d) := by
  rw [holdOff_eq]
  refine (beside_holdOffSources _ d).trans ?_
  unfold holdOffPlumb
  split
  · exact beside_plbLost _
  · exact beside_refl _ _

theorem modeFrame_holdOff (s : State) (d : Nat) : ModeFrame s (holdOff s d) :=
  (modeFrame_of_standing (standing_domainOff s d)).trans (beside_holdOff s d).frame

/-- Of the domains on after the list is switched off, all were on before, and none is listed. -/
theorem on_of_foldl_holdOff {ds : List Nat} {s : State} {e : Nat} (h : domOn (ds.foldl holdOff s) e = true) :
    domOn s e = true ∧ e ∉ ds := by
  induction ds generalizing s with
  | nil => exact ⟨h, List.not_mem_nil⟩
  | cons d ds ih =>
    obtain ⟨hhead, htail⟩ := ih h
    rw [domOn_of_regs (beside_holdOff s d).regs] at hhead
    obtain ⟨hon, hne⟩ := on_of_domainOff hhead
    exact ⟨hon, by simp [hne, htail]⟩

theorem modeFrame_foldl_holdOff (ds : List Nat) (s : State) : ModeFrame s (ds.foldl holdOff s) :=
  List.foldlRecOn (motive := ModeFrame s) _ _ (modeFrame_refl s) fun t ht d _ => ht.trans (modeFrame_holdOff t d)

/-- The domains still listed go off, and HOLD is entered (R88). -/
theorem holdEntered_spec (s : State) (ds : List Nat) :
    let u := ds.foldl holdOff s
    let t := modeOpEnd (transition { u with ms := { u.ms with holdEntry := none } } .hold) 0
    t.mode = .hold ∧ t.ms.holdEntry = none ∧ (∀ d ∈ ds, domOn t d = false) ∧ ModeFrame s t := by
  have hframe := modeFrame_foldl_holdOff ds s
  have hon (d : Nat) (hd : d ∈ ds) : domOn (ds.foldl holdOff s) d ≠ true := fun h => (on_of_foldl_holdOff h).2 hd
  generalize ds.foldl holdOff s = u at *
  have hto := (enters_transition (fun _ => modeKey_of_onKey) u { u.ms with holdEntry := none } .hold).thenModeOpEnd 0
  dsimp only
  generalize modeOpEnd (transition { u with ms := { u.ms with holdEntry := none } } .hold) 0 = t at *
  refine ⟨hto.mode, by rw [hto.ms], fun d hd => ?_, hframe.trans hto.frame⟩
  rw [domOn_of_regs hto.regs]
  exact eq_false_of_ne_true (hon d hd)

/-! ## The wake (R89, R90, R533) -/

/-- An enabled source that is the first begins the wake and is recorded, and nothing else of the registers changes (R90). -/
theorem wakeSource_spec {s : State} {bit : Nat} (hbit : bit < 9) (hm : s.mode = .hold) (hw : s.ms.waking = none)
    (hen : bitOf (getF s SYS_WAKE.EN) bit = true) :
    let t := wakeSource s bit
    t.ms.waking ≠ none ∧ getF t SYS_WAKESRC.SRC = 2 ^ bit ∧ t.mode = .hold ∧ SameRegs [SYS_WAKESRC.SRC] s t ∧ SameStores s t := by
  have hsrc : 2 ^ bit < 2 ^ SYS_WAKESRC.SRC.w := Nat.pow_lt_pow_right (by decide) hbit
  have hmode : (s.mode == Mode.hold || s.ms.holdEntry.isSome) = true := by rw [hm]; rfl
  have hregs := (onlyRegs_setF s SYS_WAKESRC.SRC (2 ^ bit)).1
  unfold wakeSource
  rw [hen, Bool.not_true, if_neg Bool.false_ne_true, hw, Option.isSome_none, if_neg Bool.false_ne_true, if_pos hmode]
  refine ⟨Option.some_ne_none _, getF_setF_of_lt s _ hsrc, hm, hregs, rfl, rfl, rfl⟩

/-- A domain that comes up is on, whether or not the registers of the domain start again. -/
theorem domOn_setF_on_add {s : State} {d : Nat} (hd : d < 12) (hoff : domOn s d = false) :
    domOn (setF s PWR_DSTAT.ON (getF s PWR_DSTAT.ON + 2 ^ d)) d = true := by
  rw [domOn, bitOf_eq_testBit] at hoff
  rw [domOn_setF_on, Nat.add_comm, Nat.testBit_two_pow_add_eq, hoff, decide_eq_true hd]
  rfl

theorem domOn_clearDomains (s : State) {ds : List Nat} (h : 1 ∉ ds) (d : Nat) : domOn (clearDomains s ds) d = domOn s d := by
  have hget : getF (clearDomains s ds) PWR_DSTAT.ON = getF s PWR_DSTAT.ON := sget_filter _ _ fun _ => by
    rw [show regDomain (PWR_DSTAT.ON.key / 32) = 1 by decide]
    simpa using h
  rw [domOn, hget, ← domOn]

/-- D3 and D8, which hold no word space, come up out of HOLD: their parts of the state start again, and the spaces stay (R533). -/
theorem domainUp_spec {s : State} {d : Nat} (hd : d = 3 ∨ d = 8) (hoff : domOn s d = false) (hm : s.mode = .hold) :
    let t := domainUp s d
    domOn t d = true ∧ t.pwr.ramp = s.pwr.ramp ∧ t.mode = .hold ∧ t.sp = s.sp := by
  have hup : domOn (setF s PWR_DSTAT.ON (getF s PWR_DSTAT.ON + 2 ^ d)) d = true :=
    domOn_setF_on_add (by omega) hoff
  generalize hu : setF s PWR_DSTAT.ON (getF s PWR_DSTAT.ON + 2 ^ d) = u at *
  have hmode : u.mode = .hold := by rw [← hu]; exact hm
  have hinit : domainUp s d = domainInit (clearDomains u [d]) d := by
    unfold domainUp
    rw [hoff, if_neg Bool.false_ne_true, hu]
    dsimp only
    rw [if_neg (by rw [hmode]; decide)]
    rcases hd with rfl | rfl
    · rfl
    · rfl
  have hregs : (domainInit (clearDomains u [d]) d).regs = (clearDomains u [d]).regs := by
    rcases hd with rfl | rfl <;> rfl
  have hrest : (domainInit (clearDomains u [d]) d).pwr = u.pwr ∧ (domainInit (clearDomains u [d]) d).mode = u.mode ∧
      (domainInit (clearDomains u [d]) d).sp = u.sp := by
    rcases hd with rfl | rfl <;> exact ⟨rfl, rfl, rfl⟩
  obtain ⟨hpwr, hstays, hsp⟩ := hrest
  dsimp only
  rw [hinit, domOn_of_regs (sameAt_of_regs hregs), domOn_clearDomains u (by simp; omega), hpwr, hstays, hsp, ← hu]
  exact ⟨hu ▸ hup, rfl, hm, rfl⟩

/-! ## The reload without a slot, and the return to STOP (R89, R576) -/

/-- What the reload of a wake clears before it looks for a slot: bank A is active, and bank B is empty. -/
def reloadCleared (s : State) : State :=
  let u := setFs (eccWipe codeMem { s with ms := { s.ms with wakeReload := false } }) [(CORE_BANK.ACTIVE, 0), (CORE_PIDB_VER.VER, 0),
    (CORE_PIDB_CRC.CRC, 0), (TXN_STAT.UNDO_OK, 0), (EDT_STAT.KEEP_OK, 0)]
  { u with core := { u.core with bankB := [], badB := [] } }
/-- What follows where no slot was accepted: bank A is empty too, without an identity. -/
def reloadEmptied (s : State) : State :=
  setFs { s with core := { s.core with bankA := [], badA := [] } } [(CORE_PIDA_VER.VER, 0), (CORE_PIDA_CRC.CRC, 0)]

theorem exec_holdWakeReloadDone_without_slot {s : State} (h : s.ms.wakeReload = true) (hslot : getF s NVS_STAT.BOOTSLOT = 3)
    (hpid : s.ms.heldPid = (0, 0)) (hempty : activePid (reloadEmptied (reloadCleared s)) = (0, 0)) :
    exec .holdWakeReloadDone s = .next (reloadEmptied (reloadCleared s)) := by
  have hexec : exec .holdWakeReloadDone s = execHoldWakeReloadDone s := rfl
  rw [hexec, execHoldWakeReloadDone, if_neg (by rw [h]; decide)]
  extract_lets pid _ _ i _ _ _ _ _ t
  have hi : 1 < i := (by decide : 1 < 3).trans_eq hslot.symm
  have ht : t = reloadEmptied (reloadCleared s) := if_pos hi
  rw [if_pos (by rw [ht, hempty]; exact hpid.symm), ht]

/-- Without an accepted slot both banks are empty, bank A is active, and the program has no identity. -/
theorem reloadEmptied_spec (s : State) :
    let t := reloadEmptied (reloadCleared s)
    t.ms.wakeReload = false ∧ t.core.bankA = [] ∧ t.core.bankB = [] ∧ getF t CORE_BANK.ACTIVE = 0 ∧ t.mode = s.mode ∧
      t.sp.words = s.sp.words ∧ t.sp.bits = s.sp.bits ∧ activePid t = (0, 0) := by
  have hactive : getF (reloadEmptied (reloadCleared s)) CORE_BANK.ACTIVE = 0 :=
    (getF_setFs_ne _ _ (by decide)).trans (getF_setFs_cons_of_ne _ (by decide))
  have hver : getF (reloadEmptied (reloadCleared s)) CORE_PIDA_VER.VER = 0 := getF_setFs_cons_of_ne _ (by decide)
  have hcrc : getF (reloadEmptied (reloadCleared s)) CORE_PIDA_CRC.CRC = 0 := getF_setF_self ..
  have hpid : activePid (reloadEmptied (reloadCleared s)) = (0, 0) := by
    rw [activePid, isSet, hactive, hver, hcrc]
    rfl
  refine ⟨?_, ?_, ?_, hactive, ?_, ?_, ?_, hpid⟩
  all_goals simp [reloadEmptied, reloadCleared, eccWipe]

theorem beside_plbStart (s : State) : Beside noKey s (plbStart s) := by
  have hfixed (u : State) : Beside noKey u (plbFixed u) := by
    unfold plbFixed
    split
    · exact beside_refl _ u
    · exact beside_setF u _ rfl
  unfold plbStart plbNominal
  refine Beside.trans ?_ (hfixed _)
  refine Beside.trans ?_ (beside_setFs _ fun _ _ => rfl)
  refine Beside.trans (t := { s with plumb := PlumbSt.init }) ?_ (beside_setFs _ fun _ _ => rfl)
  exact beside_of_eq rfl rfl rfl rfl

theorem beside_trcHoldExit (s : State) : Beside noKey s (trcHoldExit s) := by
  unfold trcHoldExit
  extract_lets dur u
  have hu : Beside noKey s u := beside_trcQueue s _
  refine hu.trans ?_
  exact beside_of_eq rfl rfl rfl rfl

/-- The end of a wake starts Plumb where a domain of the line functions was off. -/
def wakeStarted (s : State) : State := if (s.ms.waking.getD []).any fun d => [2, 5, 6, 7].contains d then plbStart s else s

theorem beside_wakeStarted (s : State) : Beside noKey s (wakeStarted s) := by
  unfold wakeStarted
  split
  · exact beside_plbStart s
  · exact beside_refl _ s

theorem exec_wakeComplete_of_hold {s : State} {l : List Nat} (hw : s.ms.waking = some l) (hramp : s.pwr.ramp = [])
    (hreload : s.ms.wakeReload = false) (hm : s.mode = .hold) :
    exec .wakeComplete s = .next (modeOpEnd (trcHoldExit
      (transition { wakeStarted s with ms := { (wakeStarted s).ms with waking := none } } .stop)) 0) := by
  have hdue : (s.ms.waking.isSome && s.pwr.ramp.isEmpty && !s.ms.wakeReload) = true := by rw [hw, hramp, hreload]; rfl
  have hhold : ((wakeStarted s).mode == Mode.hold) = true := by rw [(beside_wakeStarted s).mode, hm]; rfl
  have hexec : exec .wakeComplete s = execWakeComplete s := rfl
  rw [hexec, execWakeComplete, if_pos hdue]
  extract_lets u _ v w
  have hto : w = transition v .stop := if_pos hhold
  exact congrArg (fun x => Host.Outcome.next (modeOpEnd (trcHoldExit x) 0)) hto

/-- Every domain is on again and the reload is done: STOP is entered (R89). -/
theorem wakeComplete_spec {s : State} {l : List Nat} (hw : s.ms.waking = some l) (hramp : s.pwr.ramp = [])
    (hreload : s.ms.wakeReload = false) (hm : s.mode = .hold) :
    Completes .wakeComplete s fun t => t.mode = .stop ∧ t.ms.waking = none ∧ ModeFrame s t := by
  have hstart := beside_wakeStarted s
  have hexec := exec_wakeComplete_of_hold hw hramp hreload hm
  generalize wakeStarted s = u at *
  have hto := ((enters_transition (fun _ h => by cases h) u { u.ms with waking := none } .stop).thenBeside
    (beside_trcHoldExit _)).thenModeOpEnd 0
  exact ⟨_, hexec, hto.mode, by rw [hto.ms], (hstart.thenEnters hto).frame⟩

end Sys2Proof.Machine
end

section
open Sys2Proof Sys2Proof.Machine Sys2Proof.Machine.Reg

/-- Settles O13: the domains of the list go off one by one and HOLD is entered; a wake source only records itself and lists the ramp;
a domain that comes up starts its own parts again; the reload without a slot empties both banks, and the wake ends with STOP. -/
theorem holdAndWake : Obligations.HoldAndWake := by
  refine ⟨?entry, ?pin, ?time, ?up, ?reload, ?complete⟩
  case entry =>
    intro s ds hds
    have hexec : exec .holdEntryDone s = execHoldEntryDone s := rfl
    rw [execHoldEntryDone, hds] at hexec
    exact ⟨_, hexec, holdEntered_spec s ds⟩
  case pin =>
    intro s ns hm hw hen hns
    have hexec : exec (.wakePin ns) s = .next (wakeSource s 1) := congrArg Host.Outcome.next (if_pos hns)
    exact ⟨_, hexec, wakeSource_spec (by decide) hm hw hen⟩
  case time =>
    intro s hm hw hen hnewer
    have hexec : exec .wakeTime s = .next (wakeSource s 3) :=
      congrArg Host.Outcome.next (if_neg (by rw [hnewer]; decide))
    exact ⟨_, hexec, wakeSource_spec (by decide) hm hw hen⟩
  case up =>
    intro s d rest hramp hd hoff hm
    have hne : (d == 4) = false := by rcases hd with rfl | rfl <;> rfl
    have hexec : exec (.domainPowerGood d) s = .next (domainUp { s with pwr := { s.pwr with ramp := rest } } d) := by
      have hup : exec (.domainPowerGood d) s = execDomainPowerGood d s := rfl
      rw [hup, execDomainPowerGood, hramp]
      dsimp only
      rw [if_pos rfl, hne, Bool.and_false, if_neg Bool.false_ne_true]
    exact ⟨_, hexec, domainUp_spec hd hoff hm⟩
  case reload =>
    intro s hreload hslot hpid
    obtain ⟨hdone, hbankA, hbankB, hactive, hmode, hwords, hbits, hempty⟩ := reloadEmptied_spec s
    exact ⟨_, exec_holdWakeReloadDone_without_slot hreload hslot hpid hempty, hdone, hbankA, hbankB, hactive, hmode, hwords, hbits⟩
  case complete =>
    intro s l hw hramp hreload hm
    exact wakeComplete_spec hw hramp hreload hm
end

section
/-! SUPPORT. A core cycle in a unit at rest (R23, R94, R160; log entry 7): what it leaves as it was when at most the operations in
flight end with it, and what a move or a trigger that comes due at the start of the next cycle finds. -/

namespace Sys2Proof.Machine

open Reg

/-! ## A unit at rest -/

/-- Beside the operations in flight and the deferred moves nothing ends with the present cycle, comes due in the next, or waits. -/
structure Rests (s : State) : Prop where
  on : domOn s 2 = true
  present : absent s = false
  running : s.time.running = true
  halt : s.ms.haltPend = none
  waiting : s.core.waiting = []
  fastWait : s.core.fastWait = []
  room : roomMark ∉ s.core.firedNow
  mac : s.core.mac = none
  tmu : ∀ x ∈ s.core.tmu, x.ev = none
  replaying : s.sby.replaying = false
  tko : s.sby.tko = none
  mode : s.mode ≠ .takeover
  tasks : ∀ k ∈ s.scan.tasks, k.st ≠ .launchWait ∧ k.fin = .no
  ports : ∀ p ∈ s.egr.ports, p.pending = false
  fifo : s.trc.fifo = []
  packets : s.trc.cycle = []
  frame : frameDue s = none

theorem rests_of_idle {s : State} (h : IdleCycle s) : Rests s := by
  obtain ⟨-, habs, hd2, hrun, hhalt, -, -, -, -, hwait, -, hfast, hroom, hmac, htmu, hrep, htko, hmode, htasks, hports, hfifo, hpkt,
    hframe⟩ := h
  exact ⟨hd2, habs, hrun, hhalt, hwait, hfast, hroom, hmac, htmu, hrep, htko, hmode, htasks, hports, hfifo, hpkt, hframe⟩

/-- Operations in flight, deferred moves, results, stores and the choice of the scheduler do not disturb the rest. -/
theorem Rests.update {s : State} (h : Rests s) (ops : List PendOp) (deferred : List Deferred) (ctx : List (Nat × TWord))
    (sp : SpaceSt) (sel : Option Nat) :
    Rests { s with
      core := { s.core with ops := ops, deferred := deferred, ctx := ctx }
      sp := sp, scan := { s.scan with sel := sel } } := by
  obtain ⟨hd2, habs, hrun, hhalt, hwait, hfast, hroom, hmac, htmu, hrep, htko, hmode, htasks, hports, hfifo, hpkt, hframe⟩ := h
  exact ⟨hd2, habs, hrun, hhalt, hwait, hfast, hroom, hmac, htmu, hrep, htko, hmode, htasks, hports, hfifo, hpkt, hframe⟩

theorem Rests.d1On {s : State} (h : Rests s) : d1On s = true := by
  have habs := h.present
  simp only [absent, inMode, List.contains_cons, Bool.or_eq_false_iff] at habs
  simp [Machine.d1On, bne, habs]

theorem Rests.plbOn {s : State} (h : Rests s) : plbOn s = true := by simp [Machine.plbOn, h.on, h.present]

/-! ## The cycle passes -/

/-- The state as the end of the cycle finds it: the scheduler has selected. -/
def scheduled (s : State) : State := { s with scan := { s.scan with sel := selected s } }

/-- With the operations ended, only the sweep and the look at the aliased system bits still act. -/
theorem endOfCycle_of_rests {s u : State} (h : Rests s) (hend : endOps (copyAll (scheduled s)) = u) (hu : Rests u) :
    ∃ cells writes seen, endOfCycle s =
      { u with core := { u.core with cells := cells, bitWrites := writes, sysSeen := seen } } := by
  have hstays (v : State) : (if u.mode == .takeover then dropUncommitted v else v) = v := if_neg (by simpa using hu.mode)
  unfold scheduled at hend
  unfold endOfCycle
  rw [replayDue_of_not_replaying h.replaying, gateTick_of_no_list h.ports]
  dsimp only
  rw [hend, endRuns_of_no_end hu.tasks, replayDue_of_not_replaying hu.replaying, hstays, tmuAll_of_no_event hu.tmu]
  obtain ⟨cells, hcells⟩ := sweepCell_eq u (u.core.cyc % 1024)
  rw [hcells, hubFrames_of_none (by exact hu.frame), ite_self,
    endStalls_of_none (by exact hu.waiting) (by exact hu.fastWait) (by exact hu.room)]
  obtain ⟨writes, seen, hnote⟩ := noteSys_eq { u with core := { u.core with cells := cells } }
  exact ⟨cells, writes, seen, hnote⟩

/-- From the state with which a cycle ends to the one at the start of the next: CORE_CYC counts, no unit has fired, and the rest of the
engine, the spaces, the tasks and nearly all registers are as they were. -/
structure Advances (u t : State) : Prop where
  core : ∃ cells writes seen, t.core = { u.core with
    cells := cells, bitWrites := writes, sysSeen := seen, cyc := (u.core.cyc + 1) % 2 ^ 64, firedNow := [] }
  ms : ∃ time, t.ms = { u.ms with scrubTime := time }
  sp : t.sp = { u.sp with written := [], wordUse := false }
  tasks : t.scan.tasks = u.scan.tasks
  mode : t.mode = u.mode
  nv : t.nv = u.nv
  pins : t.pins = u.pins
  regs : SameRegs [CORE_STAT.ISSUING, SBY_STAT.LINK] u t

theorem advances_nextCycle {s u : State} (h : Rests s) (hend : endOps (copyAll (scheduled s)) = u) (hu : Rests u)
    (hops : u.core.ops = []) : Advances u (nextCycle s) := by
  obtain ⟨cells, writes, seen, hcycle⟩ := endOfCycle_of_rests h hend hu
  unfold nextCycle
  rw [hcycle, trcCycle_of_no_packet (by exact hu.fifo) (by exact hu.packets), settle_of_none (by exact hu.halt)]
  obtain ⟨w, hw⟩ : ∃ w : State, w = { u with
    core := { u.core with cells := cells, bitWrites := writes, sysSeen := seen }
    trc := { u.trc with wait := u.trc.wait - 1 } } := ⟨_, rfl⟩
  obtain ⟨incs, scrub, phm, hadv⟩ := clockAdvance_of_on (s := w) (by rw [hw]; exact hu.d1On) (by rw [hw]; exact hu.running)
    (by rw [hw]; exact hu.plbOn)
  obtain ⟨hregs, hform⟩ := hadv.append (onlyRegs_setF (clockAdvance w) CORE_STAT.ISSUING 0)
  rw [← hw]
  generalize setF (clockAdvance w) CORE_STAT.ISSUING 0 = v at hregs hform ⊢
  have hcore : v.core = { w.core with cyc := (w.core.cyc + 1) % 2 ^ 64, firedNow := [] } := (congrArg State.core hform :)
  have hms : v.ms = { w.ms with scrubTime := scrub } := (congrArg State.ms hform :)
  have hsp : v.sp = { w.sp with written := [], wordUse := false } := (congrArg State.sp hform :)
  have hscan : v.scan = w.scan := (congrArg State.scan hform :)
  have hsby : v.sby = w.sby := (congrArg State.sby hform :)
  have hmode : v.mode = w.mode := (congrArg State.mode hform :)
  have hnv : v.nv = w.nv := (congrArg State.nv hform :)
  have hpins : v.pins = w.pins := (congrArg State.pins hform :)
  clear hform hadv
  subst hw
  dsimp only
  rw [takeoverDue_of_none (by rw [hsby]; exact hu.tko), replayAdvance_of_not_replaying (by rw [hsby]; exact hu.replaying),
    replayDue_of_not_replaying (by rw [hsby]; exact hu.replaying),
    captureAll_of_no_ops (by rw [hcore]; exact hops) (by rw [hcore]; exact hu.mac)]
  exact {
    core := ⟨cells, writes, seen, hcore⟩
    ms := ⟨scrub, hms⟩
    sp := hsp
    tasks := (congrArg ScanSt.tasks hscan :)
    mode := hmode
    nv := hnv
    pins := hpins
    regs := fun f hf => hregs f (by simpa [or_comm] using hf) }

/-- With no operation in flight the cycle ends with the state as it is. -/
theorem Rests.advances {s : State} (h : Rests s) (hops : s.core.ops = []) : Advances s (nextCycle s) := by
  have hend : endOps (copyAll (scheduled s)) = scheduled s := by
    rw [copyAll_of_no_ops (by exact hops), endOps_of_no_ops (by exact hops) (by exact h.mac)]
  obtain ⟨core, ms, sp, tasks, mode, nv, pins, regs⟩ :=
    advances_nextCycle h hend (h.update s.core.ops s.core.deferred s.core.ctx s.sp (selected s)) (by exact hops)
  exact ⟨core, ms, sp, tasks, mode, nv, pins, regs⟩

/-- The spaces of a cycle's end are those of its start: only the record of what has been written is new. -/
theorem sameSpaces_of_parts {u t : State} (hsp : t.sp = { u.sp with written := [], wordUse := false }) (hnv : t.nv = u.nv)
    (hpins : t.pins = u.pins) : SameSpaces u t := by
  unfold SameSpaces
  rw [hsp, hnv, hpins]
  exact ⟨rfl, rfl, rfl, rfl, rfl, rfl⟩

theorem Advances.spaces {u t : State} (h : Advances u t) : SameSpaces u t := sameSpaces_of_parts h.sp h.nv h.pins

theorem Advances.engineOn {u t : State} (h : Advances u t) : engineOn t = engineOn u := by
  unfold Machine.engineOn inMode domOn
  rw [h.mode, h.regs _ (by decide)]

theorem coreCycle_of_on {s : State} (h : domOn s 2 = true) :
    coreCycle s = startFire (nextCycle s) (fun _ => false) (nextCycle s) := by
  unfold coreCycle
  rw [if_neg (by simp [h])]

/-- No command of the TMU waits for a fast queue or comes due: the deferred moves resolve, and the triggers that wait are tried. -/
theorem startFire_of_no_event {s : State} (hf : s.core.fastWait = []) (ht : ∀ x ∈ s.core.tmu, x.ev = none) (base : State)
    (hold : Deferred → Bool) : startFire base hold s =
      if engineOn (resolveDue s) then (resolveDue s).core.waiting.foldl (fireWaiting base hold) (resolveDue s) else resolveDue s := by
  have hearly : (List.range 32).foldl tmuEarly s = s := by
    refine List.foldl_fixed' (fun i => ?_) _
    have hev : (nth TmuSlot.init s.core.tmu i).ev = none := nth_of_forall (p := fun x : TmuSlot => x.ev = none) ht rfl i
    simp [tmuEarly, hev]
  simp [startFire, hf, hearly]

end Sys2Proof.Machine
end

section
/-! SUPPORT. An operation in its last cycle (R114, R160, R175): its results land, a store writes its words, and the operation
is gone. -/

namespace Sys2Proof.Machine

open Reg

/-! ## Results land (R106, R160) -/

theorem getCtx_setCtx (s : State) (k j : Nat) (v : TWord) : getCtx (setCtx s k v) j = if k = j then v else getCtx s j :=
  sget_sset ..

theorem getHold_setHold (s : State) (t n a b : Nat) (v : TWord) :
    getHold (setHold s t n v) a b = if 64 * t + n = 64 * a + b then v else getHold s a b :=
  sget_sset ..

theorem landRes_cons (s : State) (t u : Nat) (r : Nat × TWord) (rs : List (Nat × TWord)) :
    landRes s t u (r :: rs) = landRes (setCtx s (resKey t u r.1) r.2) t u rs := rfl

theorem landRes_eq (s : State) (t u : Nat) (rs : List (Nat × TWord)) :
    landRes s t u rs = { s with core := { s.core with ctx := (landRes s t u rs).core.ctx } } := by
  induction rs generalizing s with
  | nil => rfl
  | cons r rs ih =>
    rw [landRes_cons, ih]
    rfl

/-- Which registers results land in depends on the registers alone. -/
theorem ctx_landRes_congr {s s' : State} (h : s.core.ctx = s'.core.ctx) (t u : Nat) (rs : List (Nat × TWord)) :
    (landRes s t u rs).core.ctx = (landRes s' t u rs).core.ctx := by
  induction rs generalizing s s' with
  | nil => exact h
  | cons r rs ih =>
    rw [landRes_cons, landRes_cons]
    refine ih ?_
    unfold setCtx
    rw [h]

/-- With no other operation in flight, the results land and none is left. -/
theorem landOp_of_only {s : State} {p : PendOp} (h : ∀ q ∈ s.core.ops, sameOp p q = true) (rs : List (Nat × TWord)) :
    landOp s p rs = { s with core := { s.core with ops := [], ctx := (landRes s p.o.task p.unit rs).core.ctx } } := by
  have hnone : s.core.ops.filter (fun q => !sameOp p q) = [] := List.filter_eq_nil_iff.mpr fun q hq => by simp [h q hq]
  have hctx := ctx_landRes_congr (s := { s with core := { s.core with ops := [] } }) (s' := s) rfl p.o.task p.unit rs
  unfold landOp
  dsimp only
  rw [hnone, List.map_nil, landRes_eq, hctx]

theorem sameOp_self (p : PendOp) : sameOp p p = true := by simp [sameOp]

/-! ## Stores (R135, R149, R175) -/

theorem mayWrite_of_forall {s : State} {rank : Nat} (h : ∀ e ∈ s.sp.written, rank ≤ e.2) (key : Nat) :
    mayWrite s key rank = true := by
  unfold mayWrite
  cases hl : s.sp.written.lookup key with
  | none => rfl
  | some r =>
    obtain ⟨l₁, l₂, heq, -⟩ := List.lookup_eq_some_iff.mp hl
    exact decide_eq_true (h (key, r) (by rw [heq]; simp))

/-- What the view of a task reads follows from the words and the planes. -/
theorem taskWord_congr {s s' : State} (hw : s.sp.words = s'.sp.words) (hp : s.sp.planeW = s'.sp.planeW) (t a : Nat) :
    taskWord s t a = taskWord s' t a := by
  unfold taskWord rawWord
  rw [hw, hp]

/-- A word written by a writer that none precedes in this cycle: the view of the task reads it, the bits stay, and none precedes the
writer afterwards. -/
theorem moveWriteWord_spec {s : State} {rank : Nat} (h : ∀ e ∈ s.sp.written, rank ≤ e.2) (t a : Nat) (v : TWord) :
    (∀ b, taskWord (moveWriteWord rank s t a v) t b = if a = b then v else taskWord s t b) ∧
    moveWriteWord rank s t a v = { s with sp := (moveWriteWord rank s t a v).sp } ∧
    (moveWriteWord rank s t a v).sp.bits = s.sp.bits ∧ (moveWriteWord rank s t a v).sp.planeB = s.sp.planeB ∧
    ∀ e ∈ (moveWriteWord rank s t a v).sp.written, rank ≤ e.2 := by
  have hnote (u : State) (hu : ∀ e ∈ u.sp.written, rank ≤ e.2) (key : Nat) :
      ∀ e ∈ (noteWrite u key rank).sp.written, rank ≤ e.2 := by
    intro e he
    rcases List.mem_cons.mp he with rfl | he
    · exact le_rfl
    · exact hu e (List.mem_filter.mp he).1
  unfold moveWriteWord
  by_cases ha : a < 0x4000
  · rw [if_pos ha, if_pos (mayWrite_of_forall h _)]
    refine ⟨fun b => ?_, rfl, rfl, rfl, hnote s h _⟩
    unfold taskWord
    by_cases hb : b < 0x4000
    · rw [if_pos hb, if_pos hb]
      refine (sget_sset ..).trans ?_
      simp [planeKeyW, noteWrite]
    · rw [if_neg hb, if_neg hb, if_neg (by omega)]
      rfl
  · rw [if_neg ha]
    unfold writeWord
    obtain ⟨use, huse⟩ : ∃ use,
        (if rank < 4 ∨ rankHost ≤ rank then useWords s else s) = { s with sp := { s.sp with wordUse := use } } := by
      split <;> exact ⟨_, rfl⟩
    dsimp only
    rw [huse, if_pos (mayWrite_of_forall (by exact h) _)]
    refine ⟨fun b => ?_, rfl, rfl, rfl, hnote _ h _⟩
    unfold taskWord
    by_cases hb : b < 0x4000
    · rw [if_pos hb, if_pos hb, if_neg (by omega)]
      rfl
    · rw [if_neg hb, if_neg hb]
      exact rawWord_putWord ..

theorem storeWords_spec {s : State} {rank : Nat} (h : ∀ e ∈ s.sp.written, rank ≤ e.2) (t a : Nat) (ws : List TWord) :
    (∀ b, taskWord (storeWords rank s t a ws) t b = if a ≤ b then (ws[b - a]?).getD (taskWord s t b) else taskWord s t b) ∧
    storeWords rank s t a ws = { s with sp := (storeWords rank s t a ws).sp } ∧
    (storeWords rank s t a ws).sp.bits = s.sp.bits ∧ (storeWords rank s t a ws).sp.planeB = s.sp.planeB := by
  induction ws generalizing s a with
  | nil => exact ⟨fun b => by simp [storeWords], rfl, rfl, rfl⟩
  | cons w ws ih =>
    obtain ⟨hread, hform, hbits, hplane, hnext⟩ := moveWriteWord_spec h t a w
    obtain ⟨hread', hform', hbits', hplane'⟩ := ih hnext (a + 1)
    rw [storeWords]
    refine ⟨fun b => ?_, ?_, hbits'.trans hbits, hplane'.trans hplane⟩
    · rw [hread', hread]
      rcases Nat.lt_trichotomy b a with hlt | rfl | hgt
      · simp [show ¬ a + 1 ≤ b by omega, show ¬ a ≤ b by omega, show a ≠ b by omega]
      · simp
      · obtain ⟨n, rfl⟩ := Nat.exists_eq_add_of_lt hgt
        simp [show a + 1 ≤ a + n + 1 by omega, show a + n + 1 - (a + 1) = n by omega, show a + n + 1 - a = n + 1 by omega,
          show a ≠ a + n + 1 by omega, show a ≤ a + n + 1 by omega]
    · rw [hform', hform]

/-! ## The last cycle (R114, R160) -/

theorem quYielded_of_ne {p : PendOp} (h : p.unit ≠ 13) (s : State) : quYielded s p = s := if_neg fun hp => h hp.1

theorem copyAll_of_no_qu {s : State} {p : PendOp} (hops : s.core.ops = [p]) (h : p.unit ≠ 13) : copyAll s = s := by
  have hcopy : copying s p = false := by simp [copying, h]
  simp only [copyAll, hops, eachOp, copyStep, hcopy, Bool.not_false, if_true]
  exact with_ops_self hops

theorem endOps_of_last {s : State} {p : PendOp} (hops : s.core.ops = [p]) (hlast : p.fire + p.lat = s.core.cyc + 1)
    (hmac : (opComplete s p).core.mac = none) : endOps s = opComplete s p := by
  have hstep : macStep (opComplete s p) = opComplete s p := by simp only [macStep, hmac]
  unfold endOps
  simp only [hops, List.filter_cons, hlast, beq_self_eq_true, if_true, List.filter_nil, List.foldl_cons, List.foldl_nil,
    List.find?_cons, sameOp_self, hstep, ite_self]

/-- No operation is left once the cycle has passed: OPERATION_RESULT passes no more. -/
theorem passOp_of_gone {s : State} {p : PendOp} (hops : s.core.ops = [p]) (hgone : (coreCycle s).core.ops = []) (n : Nat) :
    passOp (n + 1) p s = coreCycle s := by
  rw [passOp, if_pos (by simp [hops, sameOp_self])]
  cases n with
  | zero => rfl
  | succ n => rw [passOp, if_neg (by simp [hgone])]

/-- The only operation in flight, with nothing else to do, has its last cycle: what it leaves in the context and the spaces stands at
the start of the next cycle. -/
theorem operationResult_of_last {s : State} {p : PendOp} {ctx : List (Nat × TWord)} {sp : SpaceSt}
    (hidle : IdleCycle { s with core := { s.core with ops := [] } }) (hops : s.core.ops = [p])
    (hlast : p.fire + p.lat = s.core.cyc + 1) (hunit : p.unit ≠ 13)
    (hcomplete : opComplete (scheduled s) p =
      { scheduled s with core := { s.core with ops := [], ctx := ctx }, sp := sp }) :
    ∃ t, exec (.operationResult 0) s = .next t ∧
      Advances { scheduled s with core := { s.core with ops := [], ctx := ctx }, sp := sp } t := by
  have hcalm := calm_of_idle hidle
  have hrests : Rests s := (rests_of_idle hidle).update s.core.ops s.core.deferred s.core.ctx s.sp s.scan.sel
  have hend : endOps (copyAll (scheduled s)) = { scheduled s with core := { s.core with ops := [], ctx := ctx }, sp := sp } := by
    rw [copyAll_of_no_qu (by exact hops) hunit, endOps_of_last (by exact hops) (by exact hlast), hcomplete]
    rw [hcomplete]
    exact hrests.mac
  have hadv := advances_nextCycle hrests hend (hrests.update [] s.core.deferred ctx sp (selected s)) rfl
  obtain ⟨cells, writes, seen, hcore⟩ := hadv.core
  have hcycle : coreCycle s = nextCycle s := by
    rw [coreCycle_of_on hrests.on]
    apply startFire_of_none
    · rw [hcore]; exact hrests.fastWait
    · rw [hcore]; exact hrests.tmu
    · rw [hcore]; exact hcalm.deferred
    · rw [hcore]; exact hrests.waiting
  have hexec : exec (.operationResult 0) s = execOperationResult 0 s := rfl
  refine ⟨nextCycle s, ?_, hadv⟩
  rw [hexec, execOperationResult, hops]
  dsimp only [List.getElem?_cons_zero]
  rw [if_pos hrests.on, passOp_of_gone (n := 8191) hops (by rw [hcycle, hcore]), hcycle]

end Sys2Proof.Machine
end

section
/-! SUPPORT. A deferred move at its resolution, and a trigger that waits (R110, R111, R117, R164): what lands, what fires, and
what stays. -/

namespace Sys2Proof.Machine

open Reg

/-! ## Resolution (R110, R111) -/

/-- The only deferred move resolves, untraced. -/
theorem resolveDue_of_only {s : State} {d : Deferred} (hdef : s.core.deferred = [d]) (hdue : d.res ≤ s.core.cyc)
    (hon : engineOn s = true ∨ isTrig d.dst = false) (htrace : d.trace = false) :
    resolveDue s = resolveOne { s with core := { s.core with deferred := [] } } d := by
  have hnow : (decide (d.res ≤ s.core.cyc) && (engineOn s || !(d.acts && d.ok && isTrig d.dst))) = true := by
    rcases hon with h | h <;> simp [hdue, h]
  have huntraced (u : State) : traceAll u [d] = u := by simp [traceAll, htrace, traceResolve]
  unfold resolveDue
  simp only [hdef, List.filter_cons, hnow, if_true, List.filter_nil, Bool.not_true, Bool.false_eq_true, if_false, huntraced,
    List.foldl_cons, List.foldl_nil]

theorem resolveOne_of_cancelled {d : Deferred} (h : d.ok = false) (s : State) : resolveOne s d = s := by
  simp [resolveOne, h]

theorem isTrig_hold {dst n : Nat} (hn : n < 64) (hdst : dst = 0x300 + n) : isTrig dst = false := by
  simp only [isTrig, hdst, Bool.and_eq_false_iff, decide_eq_false_iff_not]
  omega

theorem resolveOne_of_hold {d : Deferred} (hacts : d.acts = true) (hok : d.ok = true) {n : Nat} (hn : n < 64)
    (hdst : d.dst = 0x300 + n) (s : State) : resolveOne s d = setHold s d.o.task n d.val := by
  have hhold : isHold d.dst = true := by simp [isHold, hdst]; omega
  have hindex : d.dst - 0x300 = n := by omega
  simp [resolveOne, hacts, hok, isTrig_hold hn hdst, hhold, hindex]

theorem resolveOne_of_trig {d : Deferred} (hacts : d.acts = true) (hok : d.ok = true) (htrig : isTrig d.dst = true) (s : State) :
    resolveOne s d = { s with core := { s.core with waiting := s.core.waiting ++ [d] } } := by
  simp [resolveOne, hacts, hok, htrig]

/-- The state after the resolution of the only deferred move. -/
def resolved (b : State) (d : Deferred) : State := resolveOne { b with core := { b.core with deferred := [] } } d

/-- The triggers that wait are tried in order, in a mode in which tasks run. -/
def triggersTried (base r : State) : State :=
  if engineOn r then r.core.waiting.foldl (fireWaiting base fun _ => false) r else r

theorem triggersTried_of_none {r : State} (h : r.core.waiting = []) (base : State) : triggersTried base r = r := by
  simp [triggersTried, h]

/-- The only trigger that waits fires when its unit is free. -/
theorem triggersTried_of_free {r : State} {d : Deferred} (hon : engineOn r = true) (hwait : r.core.waiting = [d])
    (hfree : unitFree r d = true) (base : State) :
    triggersTried base r = fireTrig base { r with core := { r.core with waiting := [] } } d := by
  simp [triggersTried, hon, hwait, fireWaiting, hfree]

/-- Beside one deferred move, whose resolution is the next cycle, a unit at rest has nothing to do: the cycle passes, and the move
resolves at the start of the next; a trigger that now waits is tried. -/
theorem deferredResolution_of_next {s : State} {d : Deferred} (hidle : IdleCycle { s with core := { s.core with deferred := [] } })
    (hdef : s.core.deferred = [d]) (hres : d.res = s.core.cyc + 1) (hcyc : s.core.cyc + 1 < 2 ^ 64) (htrace : d.trace = false)
    (hon : engineOn s = true ∨ isTrig d.dst = false) : ∃ b, Advances s b ∧
      exec (.deferredResolution 0) s = .next (triggersTried b (resolved b d)) := by
  have hrests : Rests s := (rests_of_idle hidle).update s.core.ops s.core.deferred s.core.ctx s.sp s.scan.sel
  have hops : s.core.ops = [] := (calm_of_idle hidle).ops
  have hadv := hrests.advances hops
  refine ⟨nextCycle s, hadv, ?_⟩
  have honNext : engineOn (nextCycle s) = true ∨ isTrig d.dst = false := by rwa [hadv.engineOn]
  obtain ⟨cells, writes, seen, hcore⟩ := hadv.core
  have hresolve := resolveDue_of_only (s := nextCycle s) (by rw [hcore]; exact hdef)
    (by rw [hcore, hres]; exact (Nat.mod_eq_of_lt hcyc).ge) honNext htrace
  have hexec : exec (.deferredResolution 0) s = execDeferredResolution 0 s := rfl
  rw [hexec, execDeferredResolution, hdef]
  dsimp only [List.getElem?_cons_zero]
  have hon2 : (!domOn s 2) = false := by rw [hrests.on]; rfl
  rw [hon2, if_neg Bool.false_ne_true, hres, Nat.add_sub_cancel_left, Nat.min_eq_left (by omega), passCycles, passCycles,
    coreCycle_of_on hrests.on,
    startFire_of_no_event (by rw [hcore]; exact hrests.fastWait) (by rw [hcore]; exact hrests.tmu), hresolve]
  rfl

/-! ## ADD of UINT32 words (R164) -/

theorem checkTags_of_pass {s : State} {sp : Spec} {o : Origin} {vals : List TWord} (h : fails sp (polOf s o.task == 2) vals = [])
    (micro : Option (Nat × Nat)) : checkTags s sp o micro vals = (.fires vals, s) := by
  unfold checkTags
  simp only [h]

/-- A pure operation that draws no free value gives its results when its operands pass. -/
theorem firePure_of_pass {s : State} {op : PureOp} {o : Origin} {vals : List TWord} {rs : List (Nat × TWord)}
    (hfree : op.free = false) (hpass : fails (op.spec false vals) (polOf s o.task == 2) vals = []) (hrun : op.run vals 0 0 = .ok rs) :
    firePure s op o none vals = (some rs, s) := by
  unfold firePure
  simp only [Option.isSome_none, checkTags_of_pass hpass, hfree, Bool.false_eq_true, if_false, hrun]

/-- Two UINT32 words pass the check of ADD, whatever the policy. -/
theorem fails_add_uint (coerce : Bool) (x y : BitVec 32) (a b c : TWord) :
    fails (binary (numTags ++ [9, 6]) [3, 2] true [0, 2] false) coerce [⟨3, x⟩, a, b, c, ⟨3, y⟩] = [] := rfl

theorem mkT_add (tag : Nat) (x y : BitVec 32) : mkT tag (x.toNat + y.toNat) = ⟨BitVec.ofNat 4 tag, x + y⟩ := by
  rw [mkT, BitVec.ofNat_add, BitVec.ofNat_toNat, BitVec.ofNat_toNat, BitVec.setWidth_eq, BitVec.setWidth_eq]

/-- ADD of UINT32 words wraps. -/
theorem aluAddSub_add_uint (x y : BitVec 32) (a b c : TWord) :
    ∃ flags, aluAddSub false [⟨3, x⟩, a, b, c, ⟨3, y⟩] = .ok [(0, ⟨3, x + y⟩), (2, flags)] :=
  ⟨_, congrArg (fun r => Res.ok [(0, r), (2, flagsW _ _ r)]) (mkT_add 3 x y)⟩

/-- ADD of UINT32 words in ALU0 fires: the sum lands in RES0 and the flags in RES2, and nothing is in flight. -/
theorem fireTrig_add_uint {s : State} {d : Deferred} {x y : BitVec 32} (hdst : d.dst = 0x14) (hval : d.val = ⟨3, y⟩)
    (hopds : d.opds = [⟨3, x⟩, TWord.empty, TWord.empty, TWord.empty]) (hops : s.core.ops = []) (base : State) :
    ∃ flags, fireTrig base s d = { s with core := { s.core with
      firedNow := 1 :: s.core.firedNow, ops := []
      ctx := (landRes s d.o.task 1 [(0, ⟨3, x + y⟩), (2, flags)]).core.ctx } } := by
  obtain ⟨flags, hadd⟩ := aluAddSub_add_uint x y TWord.empty TWord.empty TWord.empty
  refine ⟨flags, ?_⟩
  have hvals : trigVals d = [⟨3, x⟩, TWord.empty, TWord.empty, TWord.empty, ⟨3, y⟩] := by rw [trigVals, hopds, hval]; rfl
  obtain ⟨op, hop, hspec, hrun, hfree, hlat⟩ : ∃ op, pureOp 1 4 = some op ∧
      op.spec false (trigVals d) = binary (numTags ++ [9, 6]) [3, 2] true [0, 2] false ∧
      op.run (trigVals d) 0 0 = aluAddSub false (trigVals d) ∧ op.free = false ∧ op.lat = 1 := ⟨_, rfl, rfl, rfl, rfl, rfl⟩
  obtain ⟨u, hu⟩ : ∃ u : State, u = { s with core := { s.core with firedNow := 1 :: s.core.firedNow } } := ⟨_, rfl⟩
  have hfire : firePure u op d.o none (trigVals d) = (some [(0, ⟨3, x + y⟩), (2, flags)], u) :=
    firePure_of_pass hfree (by rw [hspec, hvals]; exact fails_add_uint _ x y _ _ _) (by rw [hrun, hvals]; exact hadd)
  have hland (p : PendOp) (hp : p.unit = 1) (ht : p.o = d.o) : landOp u p [(0, ⟨3, x + y⟩), (2, flags)] =
      { s with core := { s.core with
        firedNow := 1 :: s.core.firedNow, ops := []
        ctx := (landRes s d.o.task 1 [(0, ⟨3, x + y⟩), (2, flags)]).core.ctx } } := by
    rw [landOp_of_only (by rw [hu]; intro q hq; rw [show _ = [] from hops] at hq; cases hq), hp, ht,
      ctx_landRes_congr (s' := s) (by rw [hu]), hu]
  have htrig : fireTrig base s d = firePureTrig u d op := by
    unfold fireTrig
    simp only [hdst, hop, hu]
    rfl
  rw [htrig, firePureTrig, hfire]
  dsimp only
  rw [finish, if_pos ⟨hlat.le, rfl⟩]
  exact hland _ (by simp [hdst]) rfl

/-- ALU0 takes an ADD when it has taken no trigger in this cycle and no custom operation runs. -/
theorem unitFree_add {s : State} {d : Deferred} (hdst : d.dst = 0x14) (hmac : s.core.mac = none) (hfired : 1 ∉ s.core.firedNow) :
    unitFree s d = true := by
  have hmicro : microUnit s = none := by simp [microUnit, microNow, hmac]
  simp [unitFree, hdst, hmicro, hfired]

/-- What a context reads after two results have landed, the second on top. -/
theorem getCtx_landRes_pair (s : State) (t u i j : Nat) (v w : TWord) (k : Nat) :
    getCtx (landRes s t u [(i, v), (j, w)]) k =
      if resKey t u j = k then w else if resKey t u i = k then v else getCtx s k := by
  rw [landRes_cons, landRes_cons]
  exact (getCtx_setCtx ..).trans (by rw [getCtx_setCtx])

end Sys2Proof.Machine
end

section
/-! SUPPORT. The commands by which operations end, deferred moves resolve and waiting triggers fire (R110, R111, R117, R160). -/

namespace Sys2Proof.Machine

open Reg

/-! ## OPERATION_RESULT (R160, R175) -/

theorem opComplete_of_results {p : PendOp} (hunit : p.unit ≠ 13)
    (hact : p.act = .nothing ∨ ∃ a, p.act = .load a ∨ p.act = .loadPair a) (s : State) :
    opComplete s p = landOp s p p.results := by
  unfold opComplete
  rw [quYielded_of_ne hunit]
  rcases hact with h | ⟨a, h | h⟩ <;> rw [h]

theorem opComplete_of_store {p : PendOp} {a : Nat} {ws : List TWord} (hunit : p.unit ≠ 13) (hact : p.act = .store a ws) (s : State) :
    opComplete s p = landOp (storeWords (rankCore p.fire p.unit p.o.slot) s p.o.task a ws) p p.results := by
  unfold opComplete
  rw [quYielded_of_ne hunit, hact]
  dsimp only
  rw [if_neg hunit]

section
variable {s : State} {p : PendOp} (hidle : IdleCycle { s with core := { s.core with ops := [] } }) (hops : s.core.ops = [p])
  (hlast : p.fire + p.lat = s.core.cyc + 1) (hunit : p.unit ≠ 13)
include hidle hops hlast hunit

/-- The results of an operation or a load stand in the context of its task. -/
theorem operationResult_of_results (hact : p.act = .nothing ∨ ∃ a, p.act = .load a ∨ p.act = .loadPair a) :
    Completes (.operationResult 0) s fun t =>
      t.core.ops = [] ∧ t.core.ctx = (landRes s p.o.task p.unit p.results).core.ctx ∧ t.core.cyc = (s.core.cyc + 1) % 2 ^ 64 ∧
      SameRegs [CORE_STAT.ISSUING, SBY_STAT.LINK] s t ∧ SameSpaces s t := by
  have hcomplete : opComplete (scheduled s) p = { scheduled s with
      core := { s.core with ops := [], ctx := (landRes s p.o.task p.unit p.results).core.ctx }, sp := s.sp } := by
    have honly : ∀ q ∈ (scheduled s).core.ops, sameOp p q = true := by
      intro q hq
      rw [show (scheduled s).core.ops = [p] from hops, List.mem_singleton] at hq
      rw [hq, sameOp_self]
    have hctx := ctx_landRes_congr (s := scheduled s) (s' := s) rfl p.o.task p.unit p.results
    rw [opComplete_of_results hunit hact, landOp_of_only honly, hctx]
    rfl
  obtain ⟨t, hexec, hadv⟩ := operationResult_of_last hidle hops hlast hunit hcomplete
  obtain ⟨cells, writes, seen, hcore⟩ := hadv.core
  exact ⟨t, hexec, by rw [hcore], by rw [hcore], by rw [hcore], hadv.regs, hadv.spaces⟩

/-- The words of a store stand in the view of its task, and every other word of the view is as it was. -/
theorem operationResult_of_store {a : Nat} {ws : List TWord} (hact : p.act = .store a ws) (hresults : p.results = [])
    (hwritten : s.sp.written = []) : Completes (.operationResult 0) s fun t =>
      t.core.ops = [] ∧ t.core.ctx = s.core.ctx ∧ t.core.cyc = (s.core.cyc + 1) % 2 ^ 64 ∧
      SameRegs [CORE_STAT.ISSUING, SBY_STAT.LINK] s t ∧
      (∀ j, j < ws.length → ∃ w, ws[j]? = some w ∧ taskWord t p.o.task (a + j) = w) ∧
      (∀ b, (b < a ∨ a + ws.length ≤ b) → taskWord t p.o.task b = taskWord s p.o.task b) ∧
      t.sp.bits = s.sp.bits ∧ t.sp.planeB = s.sp.planeB := by
  obtain ⟨hread, hform, hbits, hplane⟩ := storeWords_spec (s := scheduled s) (rank := rankCore p.fire p.unit p.o.slot)
    (by intro e he; rw [show (scheduled s).sp.written = [] from hwritten] at he; cases he) p.o.task a ws
  obtain ⟨u, hu⟩ : ∃ u, u = storeWords (rankCore p.fire p.unit p.o.slot) (scheduled s) p.o.task a ws := ⟨_, rfl⟩
  rw [← hu] at hread hform hbits hplane
  have hcomplete : opComplete (scheduled s) p =
      { scheduled s with core := { s.core with ops := [], ctx := s.core.ctx }, sp := u.sp } := by
    have honly : ∀ q ∈ u.core.ops, sameOp p q = true := by
      intro q hq
      rw [hform, show (scheduled s).core.ops = [p] from hops, List.mem_singleton] at hq
      rw [hq, sameOp_self]
    rw [opComplete_of_store hunit hact, ← hu, landOp_of_only honly, hresults, hform]
    rfl
  obtain ⟨t, hexec, hadv⟩ := operationResult_of_last hidle hops hlast hunit hcomplete
  obtain ⟨cells, writes, seen, hcore⟩ := hadv.core
  have hview (b : Nat) : taskWord t p.o.task b =
      if a ≤ b then (ws[b - a]?).getD (taskWord s p.o.task b) else taskWord s p.o.task b :=
    (taskWord_congr (by rw [hadv.sp]) (by rw [hadv.sp]) _ _).trans (hread b)
  refine ⟨t, hexec, by rw [hcore], by rw [hcore], by rw [hcore], hadv.regs, fun j hj => ?_, fun b hb => ?_, ?_, ?_⟩
  · refine ⟨ws[j], List.getElem?_eq_getElem hj, ?_⟩
    rw [hview, if_pos (Nat.le_add_right a j), Nat.add_sub_cancel_left, List.getElem?_eq_getElem hj, Option.getD_some]
  · rw [hview]
    rcases hb with hb | hb
    · rw [if_neg (by omega)]
    · rw [if_pos (by omega), List.getElem?_eq_none (by omega), Option.getD_none]
  · rw [hadv.sp]
    exact hbits
  · rw [hadv.sp]
    exact hplane

end

/-! ## DEFERRED_RESOLUTION (R110, R111) -/

section
variable {s : State} {d : Deferred} (hidle : IdleCycle { s with core := { s.core with deferred := [] } })
  (hdef : s.core.deferred = [d]) (hres : d.res = s.core.cyc + 1) (hcyc : s.core.cyc + 1 < 2 ^ 64) (hacts : d.acts = true)
  (htrace : d.trace = false)
include hidle hdef hres hcyc hacts htrace

/-- A move into a holding register lands when its guard has resolved true, and not when it has resolved false. -/
theorem deferredResolution_of_hold {n : Nat} (hdst : d.dst = 0x300 + n) (hn : n < 64) :
    Completes (.deferredResolution 0) s fun t => t.core.deferred = [] ∧
      getHold t d.o.task n = (if d.ok then d.val else getHold s d.o.task n) ∧
      (∀ a b, 64 * a + b ≠ 64 * d.o.task + n → getHold t a b = getHold s a b) ∧ t.core.ctx = s.core.ctx ∧
      t.core.cyc = s.core.cyc + 1 ∧ SameRegs [CORE_STAT.ISSUING, SBY_STAT.LINK] s t ∧ SameSpaces s t := by
  have hwait : s.core.waiting = [] := (calm_of_idle hidle).waiting
  obtain ⟨b, hadv, hexec⟩ := deferredResolution_of_next hidle hdef hres hcyc htrace (.inr (isTrig_hold hn hdst))
  obtain ⟨cells, writes, seen, hcore⟩ := hadv.core
  have hcount : b.core.cyc = s.core.cyc + 1 := by rw [hcore]; exact Nat.mod_eq_of_lt hcyc
  have hctx : b.core.ctx = s.core.ctx := by rw [hcore]
  have hkept (i j : Nat) : getHold b i j = getHold s i j := by rw [getHold, hcore]; rfl
  cases hok : d.ok with
  | true =>
    have hlands : resolved b d = setHold { b with core := { b.core with deferred := [] } } d.o.task n d.val :=
      resolveOne_of_hold hacts hok hn hdst _
    rw [hlands, triggersTried_of_none (by exact (congrArg CoreSt.waiting hcore).trans hwait)] at hexec
    refine ⟨_, hexec, rfl, ?_, fun i j hne => ?_, hctx, hcount, hadv.regs, hadv.spaces⟩
    · rw [getHold_setHold, if_pos rfl]
      rfl
    · rw [getHold_setHold, if_neg (Ne.symm hne)]
      exact hkept i j
  | false =>
    have hcancelled : resolved b d = { b with core := { b.core with deferred := [] } } := resolveOne_of_cancelled hok _
    rw [hcancelled, triggersTried_of_none (by exact (congrArg CoreSt.waiting hcore).trans hwait)] at hexec
    exact ⟨_, hexec, rfl, hkept _ _, fun i j _ => hkept i j, hctx, hcount, hadv.regs, hadv.spaces⟩

/-- ADD fires when its guard has resolved true, and not when it has resolved false. -/
theorem deferredResolution_of_add {x y : BitVec 32} (hon : engineOn s = true) (hdst : d.dst = 0x14) (hval : d.val = ⟨3, y⟩)
    (hopds : d.opds = [⟨3, x⟩, TWord.empty, TWord.empty, TWord.empty]) : Completes (.deferredResolution 0) s fun t =>
      t.core.deferred = [] ∧ t.core.waiting = [] ∧
      getCtx t (resKey d.o.task 1 0) = (if d.ok then ⟨3, x + y⟩ else getCtx s (resKey d.o.task 1 0)) ∧
      (∀ k, k ≠ resKey d.o.task 1 0 → k ≠ resKey d.o.task 1 2 → getCtx t k = getCtx s k) ∧
      t.core.cyc = s.core.cyc + 1 ∧ SameSpaces s t := by
  have hwait : s.core.waiting = [] := (calm_of_idle hidle).waiting
  have hops : s.core.ops = [] := (calm_of_idle hidle).ops
  have hmac : s.core.mac = none := (calm_of_idle hidle).mac
  obtain ⟨b, hadv, hexec⟩ := deferredResolution_of_next hidle hdef hres hcyc htrace (.inl hon)
  obtain ⟨cells, writes, seen, hcore⟩ := hadv.core
  have hcount : b.core.cyc = s.core.cyc + 1 := by rw [hcore]; exact Nat.mod_eq_of_lt hcyc
  have hkept (k : Nat) : getCtx b k = getCtx s k := by rw [getCtx, hcore]; rfl
  have hnone : b.core.waiting = [] := (congrArg CoreSt.waiting hcore).trans hwait
  cases hok : d.ok with
  | true =>
    have hwaits : resolved b d = { b with core := { b.core with deferred := [], waiting := [d] } } := by
      refine (resolveOne_of_trig hacts hok (by rw [hdst]; rfl) _).trans ?_
      dsimp only
      rw [hnone]
      rfl
    obtain ⟨flags, hfires⟩ := fireTrig_add_uint (s := { b with core := { b.core with deferred := [], waiting := [] } }) hdst hval
      hopds (by rw [hcore]; exact hops) b
    rw [hwaits, triggersTried_of_free (by exact hadv.engineOn.trans hon) rfl
      (unitFree_add hdst (by rw [hcore]; exact hmac) (by rw [hcore]; exact List.not_mem_nil)), hfires] at hexec
    have hreads (k : Nat) := getCtx_landRes_pair { b with core := { b.core with deferred := [], waiting := [] } } d.o.task 1 0 2
      ⟨3, x + y⟩ flags k
    refine ⟨_, hexec, rfl, rfl, (hreads _).trans ?_, fun k h0 h2 => (hreads k).trans ?_, hcount, hadv.spaces⟩
    · rw [if_neg (by simp [resKey]), if_pos rfl]
      rfl
    · rw [if_neg (Ne.symm h2), if_neg (Ne.symm h0)]
      exact hkept k
  | false =>
    have hcancelled : resolved b d = { b with core := { b.core with deferred := [] } } := resolveOne_of_cancelled hok _
    rw [hcancelled, triggersTried_of_none (by exact hnone)] at hexec
    exact ⟨_, hexec, rfl, hnone, hkept _, fun k _ _ => hkept k, hcount, hadv.spaces⟩

end

/-! ## WAITING_TRIGGER_FIRE (R117) -/

/-- A waiting ADD fires when ALU0 is free. -/
theorem waitingTriggerFire_of_add {s : State} {o : Origin} {d : Deferred} {x y : BitVec 32}
    (hready : UnitReady { s with core := { s.core with waiting := [] } } o 1) (hwait : s.core.waiting = [d]) (ho : d.o = o)
    (hdst : d.dst = 0x14) (hval : d.val = ⟨3, y⟩) (hopds : d.opds = [⟨3, x⟩, TWord.empty, TWord.empty, TWord.empty]) :
    Completes (.waitingTriggerFire 0) s fun t =>
      t.core.waiting = [] ∧ getCtx t (resKey o.task 1 0) = ⟨3, x + y⟩ ∧
      (∀ k, k ≠ resKey o.task 1 0 → k ≠ resKey o.task 1 2 → getCtx t k = getCtx s k) ∧ t.regs = s.regs ∧ SameStores s t := by
  obtain ⟨hon, -, hops, -, -, hmac, hfired, -⟩ := hready
  have hd2 : domOn s 2 = true := (Bool.and_eq_true_iff.mp hon).2
  obtain ⟨flags, hfires⟩ := fireTrig_add_uint (s := { s with core := { s.core with waiting := [] } }) hdst hval hopds hops s
  have hexec : exec (.waitingTriggerFire 0) s = .next (fireTrig s { s with core := { s.core with waiting := [] } } d) := by
    have hfree : (engineOn s && unitFree s d && !(s.core.waiting.take 0).any (sameQueue s d)) = true := by
      rw [show engineOn s = true from hon, unitFree_add (s := s) hdst hmac hfired]
      rfl
    have hrow : exec (.waitingTriggerFire 0) s = execWaitingTriggerFire 0 s := rfl
    have hoff : (!domOn s 2) = false := by rw [hd2]; rfl
    rw [hrow, execWaitingTriggerFire, hwait]
    dsimp only [List.getElem?_cons_zero]
    rw [hoff, if_neg Bool.false_ne_true, ← hwait, if_pos hfree, hwait]
    rfl
  rw [hfires] at hexec
  have hreads (k : Nat) := getCtx_landRes_pair { s with core := { s.core with waiting := [] } } d.o.task 1 0 2 ⟨3, x + y⟩ flags k
  refine ⟨_, hexec, rfl, (hreads _).trans ?_, fun k h0 h2 => (hreads k).trans ?_, rfl, rfl, rfl, rfl⟩
  · rw [ho, if_neg (by simp [resKey]), if_pos rfl]
  · rw [ho, if_neg (Ne.symm h2), if_neg (Ne.symm h0)]
    rfl

/-- A waiting trigger whose unit is not free waits on while the cycle passes. -/
theorem waitingTriggerFire_of_busy {s : State} {d : Deferred} (hd2 : domOn s 2 = true) (hwait : s.core.waiting = [d])
    (hbusy : unitFree s d = false) : exec (.waitingTriggerFire 0) s = .next (coreCycle s) := by
  have hrow : exec (.waitingTriggerFire 0) s = execWaitingTriggerFire 0 s := rfl
  rw [hrow, execWaitingTriggerFire, hwait]
  simp [hd2, hbusy]

end Sys2Proof.Machine
end

section
open Sys2Proof Sys2Proof.Machine Sys2Proof.Machine.Reg

/-- Settles O26: the cycle passes, and what ends with it or comes due in the next is the one operation, deferred move or trigger. -/
theorem resultsAndDeferred : Obligations.ResultsAndDeferred := by
  refine ⟨?results, ⟨?deferred, ?waiting, ?busy⟩⟩
  case results =>
    intro s p hidle hops hlast hunit _
    exact ⟨operationResult_of_results hidle hops hlast hunit, fun a ws hact hresults _ hwritten =>
      operationResult_of_store hidle hops hlast hunit hact hresults hwritten⟩
  case deferred =>
    intro s d hidle hdef hres hcyc hacts htrace _
    exact ⟨fun n hdst hn => deferredResolution_of_hold hidle hdef hres hcyc hacts htrace hdst hn, fun x y hon hdst hval hopds =>
      deferredResolution_of_add hidle hdef hres hcyc hacts htrace hon hdst hval hopds⟩
  case waiting =>
    intro s o d x y hready hwait ho hdst hval hopds
    exact waitingTriggerFire_of_add hready hwait ho hdst hval hopds
  case busy =>
    intro s d hd2 hwait hbusy
    exact waitingTriggerFire_of_busy hd2 hwait hbusy
end

section
/-! SUPPORT. A bundle of one move of a short immediate (R93 to R101, R110, R118): its words, its plan, and its issue. -/

namespace Sys2Proof.Machine

open Reg

/-! ## The words of the bundle (R96 to R99) -/

/-- The word of a move of a short immediate, with the guard that always holds. -/
def immMoveWord (imm dst tag : Nat) : Nat := 15 * 2 ^ 27 + (0x400 + imm) * 2 ^ 16 + dst * 2 ^ 6 + tag

/-- The move it holds. -/
def immMove (imm dst tag : Nat) : Move :=
  { inv := false, gidx := 15, src := 0x400 + imm, dst := dst, trc := false, sh16 := false, itag := tag }

/-- The move of a word whose guard never holds. -/
def deadMove : Move := { inv := true, gidx := 15, src := 0, dst := 0, trc := false, sh16 := false, itag := 0 }

theorem ofWord_immMoveWord {imm dst tag : Nat} (himm : imm < 1024) (hdst : dst < 1024) (htag : tag < 16) :
    Move.ofWord (immMoveWord imm dst tag) = immMove imm dst tag := by
  have hbit (n : Nat) (h : n % 2 = 0) : (n % 2 == 1) = false := by simp [h]
  simp only [Move.ofWord, immMoveWord, immMove, bitOf, bitsOf, Move.mk.injEq]
  refine ⟨hbit _ ?_, ?_, ?_, ?_, hbit _ ?_, hbit _ ?_, ?_⟩ <;> omega

theorem ofWord_dead : Move.ofWord 0xF8000000 = deadMove := by decide

theorem lt_of_isOpd {dst : Nat} (h : isOpd dst = true) : dst < 1024 := by
  simp only [isOpd, Bool.and_eq_true, decide_eq_true_eq] at h
  omega

theorem isTrig_of_isOpd {dst : Nat} (h : isOpd dst = true) : isTrig dst = false := by
  simp only [isOpd, Bool.and_eq_true, decide_eq_true_eq] at h
  simp only [isTrig, Bool.and_eq_false_iff, decide_eq_false_iff_not]
  omega

theorem isHold_of_isOpd {dst : Nat} (h : isOpd dst = true) : isHold dst = false := by
  simp only [isOpd, Bool.and_eq_true, decide_eq_true_eq] at h
  simp only [isHold, Bool.and_eq_false_iff, decide_eq_false_iff_not]
  omega

theorem immMove_legal {imm dst tag : Nat} (hopd : isOpd dst = true) (hlow : 1 ≤ tag) (hhigh : tag ≤ 12) (slot : Nat) :
    (immMove imm dst tag).illegal slot = false := by
  have hport : dstPort dst = true := by
    simp only [isOpd, Bool.and_eq_true, decide_eq_true_eq] at hopd
    obtain ⟨⟨hone, hsixteen⟩, hreg⟩ := hopd
    have htrig : dst % 16 < trigEnd (dst / 16) := by
      refine lt_of_lt_of_le hreg ?_
      unfold trigEnd
      split <;> omega
    simp [dstPort, hone, hsixteen, htrig]
  have hlong : ¬ 0x400 + imm = 1 := by omega
  simp [Move.illegal, immMove, hport, hlong, show tag ≠ 0 by omega, show ¬ 13 ≤ tag by omega]

theorem deadMove_legal (slot : Nat) : deadMove.illegal slot = false := by
  simp [Move.illegal, deadMove, srcPort, dstPort]

/-- The value of the short immediate, extended with its sign. -/
theorem immWord_immMove {imm : Nat} (himm : imm < 1024) (dst tag : Nat) :
    immWord (immMove imm dst tag) = mkT tag (unsignedOf 32 (signedOf 10 imm)) := by
  have hfield : (0x400 + imm) % 1024 = imm := by omega
  simp [immWord, immMove, hfield]

/-- Without a long immediate every word is a move. -/
theorem payloadSlots_of_no_long {ws : List Nat} (h : ∀ w ∈ ws, (Move.ofWord w).src ≠ 1) :
    payloadSlots ws = List.replicate ws.length false := by
  have hfold : ∀ (l : List Nat) (acc : List Bool), (∀ w ∈ l, (Move.ofWord w).src ≠ 1) →
      l.foldl (fun (acc : List Bool × Bool) w =>
        if acc.2 then (acc.1 ++ [true], false) else (acc.1 ++ [false], (Move.ofWord w).src == 1)) (acc, false) =
      (acc ++ List.replicate l.length false, false) := by
    intro l
    induction l with
    | nil => intro acc _; simp
    | cons w l ih =>
      intro acc hl
      have hw : ((Move.ofWord w).src == 1) = false := by simpa using hl w List.mem_cons_self
      rw [List.foldl_cons, if_neg Bool.false_ne_true, hw, ih _ fun x hx => hl x (List.mem_cons_of_mem _ hx)]
      simp [List.replicate_succ]
  unfold payloadSlots
  rw [hfold ws [] h]
  rfl

theorem foldl_of_fixed {α β : Type} {f : α → β → α} {a : α} {l : List β} (h : ∀ x ∈ l, f a x = a) : l.foldl f a = a :=
  List.foldlRecOn (motive := fun b => b = a) l f rfl fun _ hb x hx => hb ▸ h x hx

/-! ## The plan (R95 to R101) -/

/-- The words of the bundle: the move, and seven whose guard never holds. -/
def immBundle (imm dst tag : Nat) : List Nat := immMoveWord imm dst tag :: List.replicate 7 0xF8000000

/-- The move as planned in a cycle. -/
def immPlanned (slot cyc imm dst tag : Nat) : Planned :=
  { slot := slot, m := immMove imm dst tag, val := immWord (immMove imm dst tag), g := { ok := true, res := cyc } }

/-- Guard 15 is known at issue. -/
theorem evalGuard_of_constant {m : Move} (h : m.gidx = 15) (s : State) (t : Nat) :
    evalGuard s t m = ({ ok := !m.inv, res := s.core.cyc }, s) := if_pos h

theorem planSlot_of_dead {ws : List Nat} {i : Nat} (hpay : (payloadSlots ws).getD i true = false) (hw : nth 0 ws i = 0xF8000000)
    (t : Nat) (acc : Plan × State) : planSlot t ws acc i = acc := by
  have hdead : Move.ofWord (nth 0 ws i) = deadMove := by rw [hw, ofWord_dead]
  unfold planSlot
  simp only [hpay, hdead, deadMove_legal, evalGuard_of_constant (m := deadMove) rfl, Bool.false_eq_true, if_false]
  simp [deadMove]

theorem planSlot_of_imm {ws : List Nat} {i imm dst tag : Nat} (hpay : (payloadSlots ws).getD i true = false)
    (hw : Move.ofWord (nth 0 ws i) = immMove imm dst tag) (hlegal : (immMove imm dst tag).illegal i = false) (t : Nat) (p : Plan)
    (s : State) : planSlot t ws (p, s) i =
      ({ p with moves := p.moves ++ [immPlanned i s.core.cyc imm dst tag] }, s) := by
  have hval : moveVal s t ws i (immMove imm dst tag) = (immWord (immMove imm dst tag), s) := if_pos (Nat.le_add_right _ _)
  unfold planSlot
  simp only [hpay, hw, hlegal, hval, evalGuard_of_constant (m := immMove imm dst tag) rfl, Bool.false_eq_true, if_false]
  rfl

theorem planBundle_immBundle {imm dst tag : Nat} (himm : imm < 1024) (hopd : isOpd dst = true) (hlow : 1 ≤ tag) (hhigh : tag ≤ 12)
    (s : State) (t : Nat) :
    planBundle s t (immBundle imm dst tag) = ({ moves := [immPlanned 0 s.core.cyc imm dst tag], illegal := [], dead := [] }, s) := by
  have hmove := ofWord_immMoveWord himm (lt_of_isOpd hopd) (show tag < 16 by omega)
  have hlong : ∀ w ∈ immBundle imm dst tag, (Move.ofWord w).src ≠ 1 := by
    intro w hw
    rcases List.mem_cons.mp hw with rfl | hw
    · rw [hmove]
      simp only [immMove]
      omega
    · rw [List.eq_of_mem_replicate hw, ofWord_dead]
      decide
  have hpay (i : Nat) (hi : i < 8) : (payloadSlots (immBundle imm dst tag)).getD i true = false := by
    have hlen : (immBundle imm dst tag).length = 8 := by simp [immBundle]
    rw [payloadSlots_of_no_long hlong, hlen, List.getD_eq_getElem?_getD, List.getElem?_replicate, if_pos hi, Option.getD_some]
  have hfirst : planSlot t (immBundle imm dst tag) ({ moves := [], illegal := [], dead := [] }, s) 0 =
      ({ moves := [immPlanned 0 s.core.cyc imm dst tag], illegal := [], dead := [] }, s) := by
    rw [planSlot_of_imm (hpay 0 (by decide)) hmove (immMove_legal hopd hlow hhigh 0)]
    rfl
  have hrest : ∀ i ∈ [1, 2, 3, 4, 5, 6, 7], ∀ acc, planSlot t (immBundle imm dst tag) acc i = acc := by
    intro i hi acc
    refine planSlot_of_dead (hpay i ?_) ?_ t acc
    · simp only [List.mem_cons, List.not_mem_nil, or_false] at hi
      omega
    · simp only [List.mem_cons, List.not_mem_nil, or_false] at hi
      rcases hi with rfl | rfl | rfl | rfl | rfl | rfl | rfl <;> rfl
  have hslots : List.range 8 = 0 :: [1, 2, 3, 4, 5, 6, 7] := rfl
  rw [planBundle, hslots, List.foldl_cons, hfirst]
  exact foldl_of_fixed fun i hi => hrest i hi _

end Sys2Proof.Machine
end

section
/-! SUPPORT. The issue of a bundle (R94, R106, R110, R116, R121): it is fetched, presented and issued at the start of a cycle in which
nothing comes due. -/

namespace Sys2Proof.Machine

open Reg

/-! ## Trace off (R546) -/

theorem trcQueue_of_off {s : State} (h : isSet s TRC_CTRL.EN = false) (p : TrcPkt) : trcQueue s p = s := by
  simp [trcQueue, trcOn, h]

theorem trcGuard_of_off {s : State} (h : isSet s TRC_CTRL.EN = false) (t slots ago : Nat) (res ok : Bool) :
    trcGuard s t slots ago res ok = s := by
  simp [trcGuard, trcPacket, trcQueue_of_off h]

theorem trcPortw_of_off {s : State} (h : isSet s TRC_CTRL.EN = false) (t slot dst st : Nat) (mod : Bool) (v : TWord) :
    trcPortw s t slot dst st mod v = s := by
  simp [trcPortw, trcPacket, trcQueue_of_off h]

/-- With the trace off an issue only notes the flow. -/
theorem traceIssue_of_off {s : State} (h : isSet s TRC_CTRL.EN = false) (o : Origin) (p : Plan) :
    ∃ trc, ∀ ms, traceIssue s o p ms = { s with trc := trc } := by
  obtain ⟨trc, hflow⟩ : ∃ trc, trcFlow s o.task o.bank o.pc = { s with trc := trc } := by
    unfold trcFlow trcPacket
    dsimp only
    rw [trcQueue_of_off (by exact h), ite_self]
    exact ⟨_, rfl⟩
  refine ⟨trc, fun ms => ?_⟩
  have hoff : isSet { s with trc := trc } TRC_CTRL.EN = false := h
  unfold traceIssue
  dsimp only
  rw [hflow, trcGuard_of_off hoff, trcGuard_of_off hoff, ite_self, trcGuard_of_off hoff]
  exact foldl_of_fixed fun x _ => trcPortw_of_off hoff ..

/-! ## Halt causes (R78, R116) -/

/-- The start of a cycle after an idle one, in a unit that runs its own tasks; a halt cause may have arisen in it. -/
structure Begins (s b : State) (cause : Option Nat) : Prop where
  core : ∃ cells writes seen, b.core = { s.core with
    cells := cells, bitWrites := writes, sysSeen := seen, cyc := (s.core.cyc + 1) % 2 ^ 64, firedNow := [] }
  cause : b.ms.haltPend = cause
  sp : b.sp = { s.sp with written := [], wordUse := false }
  mode : b.mode = s.mode
  nv : b.nv = s.nv
  pins : b.pins = s.pins
  regs : SameRegs [CORE_STAT.ISSUING, SBY_STAT.LINK, ZCP_JSEQ.SEQ, ZCP_JLOST.CNT] s b

theorem Advances.begins {s b : State} (h : Advances s b) (hp : s.ms.haltPend = none) : Begins s b none := by
  obtain ⟨time, hms⟩ := h.ms
  exact ⟨h.core, by rw [hms]; exact hp, h.sp, h.mode, h.nv, h.pins, h.regs.mono (by simp)⟩

/-- A halt cause that arises at the start of the cycle is journaled and pends. -/
theorem Advances.begins_halt {s b : State} (h : Advances s b) (hp : s.ms.haltPend = none) (hrun : inMode s runModes = true)
    (code : Nat) : Begins s (halt b code) (some code) := by
  obtain ⟨time, hms⟩ := h.ms
  have hrunning : inMode b runModes = true := by rw [inMode, h.mode]; exact hrun
  have hjournal : SameRegs [ZCP_JSEQ.SEQ, ZCP_JLOST.CNT] b (journalInt b SYS_MODE.HALT_CAUSE.addr code) :=
    sameRegs_journalPut b 0 0 0 _ _ Peer.none
  rw [halt_of_running hrunning (by rw [hms]; exact hp)]
  exact {
    core := by simpa using h.core
    cause := rfl
    sp := by simpa using h.sp
    mode := by simpa using h.mode
    nv := by simpa using h.nv
    pins := by simpa using h.pins
    regs := h.regs.append hjournal }

theorem Begins.spaces {s b : State} {cause : Option Nat} (h : Begins s b cause) : SameSpaces s b :=
  sameSpaces_of_parts h.sp h.nv h.pins

/-- Which task issues follows from the tasks, CORE_CYC and the enables. -/
theorem issuing_congr {s b : State} (hscan : b.scan = s.scan) (hcyc : b.core.cyc = s.core.cyc)
    (hen : ∀ t < 8, isSet b (SCN_TCFG.EN t) = isSet s (SCN_TCFG.EN t)) : issuing b = issuing s := by
  have htask (t : Nat) : task b t = task s t := by rw [task, hscan]; rfl
  have hwaits (t : Nat) (ht : t < 8) : waits b t = waits s t := by rw [waits, htask, hen t ht]; rfl
  unfold issuing
  refine List.find?_congr fun t ht => ?_
  have hall : ((List.range t).all fun j => !waits b j && !((task b j).st == .running && (task b j).frzCyc == b.core.cyc)) =
      ((List.range t).all fun j => !waits s j && !((task s j).st == .running && (task s j).frzCyc == s.core.cyc)) := by
    rw [Bool.eq_iff_iff, List.all_eq_true, List.all_eq_true]
    refine forall₂_congr fun j hj => ?_
    rw [htask, hcyc, hwaits j ((List.mem_range.mp hj).trans (List.mem_range.mp ht))]
  rw [hall, htask, hcyc]

/-- A halt cause does not change which task issues. -/
theorem issuing_halt (s : State) (code : Nat) : issuing (halt s code) = issuing s := by
  unfold halt
  split
  · dsimp only
    have hkey : ∀ t < 8, (SCN_TCFG.EN t).key ∉ [ZCP_JSEQ.SEQ, ZCP_JLOST.CNT].map Fld.key := by decide
    have hjournal : SameRegs [ZCP_JSEQ.SEQ, ZCP_JLOST.CNT] s (journalInt s SYS_MODE.HALT_CAUSE.addr code) :=
      sameRegs_journalPut s 0 0 0 _ _ Peer.none
    exact issuing_congr (journalInt_scan s SYS_MODE.HALT_CAUSE.addr code)
      (congrArg CoreSt.cyc (journalInt_core s SYS_MODE.HALT_CAUSE.addr code)) fun t ht => hjournal.isSet (hkey t ht)
  · rfl

/-- In RUN and RUN_EDIT bundles issue while D2 is on. -/
theorem Begins.mayIssue {s b : State} {cause : Option Nat} (h : Begins s b cause) (hm : s.mode = .run ∨ s.mode = .runEdit)
    (hon : domOn s 2 = true) : mayIssue b = true := by
  have hd2 : domOn b 2 = true := by rw [domOn, h.regs _ (by decide)]; exact hon
  rcases hm with hm | hm <;> simp [Machine.mayIssue, hd2, h.mode, hm]

/-! ## Fetch (R93, R151) -/

/-- A bundle is fetched as it stands when no location of it holds an error and it is not marked bad. -/
theorem fetchBundle_of_clean {s : State} (hclean : s.sp.upsets = []) (hA : s.core.badA = []) (hB : s.core.badB = []) (pc : Nat) :
    fetchBundle s pc = (some ((List.range 8).map (bankWord (activeBank s) pc)), s) := by
  have hecc (m : MemId) (l : Nat) : eccAt s m l = .clean := by simp [eccAt, hclean]
  have hbad : (if isSet s CORE_BANK.ACTIVE then s.core.badB else s.core.badA) = [] := by rw [hA, hB, ite_self]
  have hcheck (m : MemId) (locs : List Nat) :
      locs.foldl (fun s l => if eccAt s m l == .correctable then eccCorr s m l else s) s = s :=
    foldl_of_fixed fun l _ => by rw [hecc]; rfl
  unfold fetchBundle
  dsimp only
  rw [hbad, hcheck, if_neg]
  simp [hecc]

/-! ## The issue (R94, R110, R115 to R121) -/

/-- From the state that a bundle of landed moves leaves to the one after its issue: ISSUING and TASK name the task, and the engine, the
spaces and the halt cause are as they were. -/
structure Issued (t : Nat) (s v : State) : Prop where
  core : v.core = s.core
  ms : v.ms = s.ms
  sp : v.sp = s.sp
  nv : v.nv = s.nv
  pins : v.pins = s.pins
  issuing : getF v CORE_STAT.ISSUING = 1
  task : getF v CORE_STAT.TASK = t % 8
  regs : SameRegs [CORE_TRK.MAX, CORE_STAT.ISSUING, CORE_STAT.TASK] s v

theorem onlyRegs_trkNote (s : State) (n : Nat) : OnlyRegs [CORE_TRK.MAX] s (trkNote s n) := by
  unfold trkNote
  split
  · exact onlyRegs_setF s _ n
  · exact onlyRegs_refl _ s

theorem fireBundle_nil (base s : State) : fireBundle base s [] = s := by simp [fireBundle, firsts]

/-- A bundle whose only move has landed in an operand register issues. -/
theorem issued_issueMoves {s : State} (base : State) (o : Origin) (p : Planned) (hopd : isOpd p.m.dst = true)
    (hres : p.g.res = s.core.cyc) (htrc : isSet s TRC_CTRL.EN = false) (need : Nat) :
    Issued o.task s (issueMoves base s o { moves := [p], illegal := [], dead := [] } [(p, s.core.cyc)] [(p, s.core.cyc)] need) := by
  have hnow : (p.g.res != s.core.cyc) = false := by simp [hres]
  obtain ⟨trc, htrace⟩ := traceIssue_of_off htrc o { moves := [p], illegal := [], dead := [] }
  obtain ⟨u, hu⟩ : ∃ u, u = setFs (trkNote { s with trc := trc } (trkOcc { s with trc := trc } + need))
      [(CORE_STAT.ISSUING, 1), (CORE_STAT.TASK, o.task)] := ⟨_, rfl⟩
  obtain ⟨hregs, hform⟩ : OnlyRegs [CORE_TRK.MAX, CORE_STAT.ISSUING, CORE_STAT.TASK] { s with trc := trc } u := by
    rw [hu]
    exact (onlyRegs_trkNote _ _).append (onlyRegs_setFs _ [(CORE_STAT.ISSUING, 1), (CORE_STAT.TASK, o.task)])
  have hissues : issueMoves base s o { moves := [p], illegal := [], dead := [] } [(p, s.core.cyc)] [(p, s.core.cyc)] need =
      updTask u o.task fun k => { k with issued := true } := by
    unfold issueMoves
    simp only [htrace, noteIllegal, ← hu, bne_self_eq_false, Bool.false_eq_true, if_false, List.filter_cons, List.filter_nil, hnow,
      isHold_of_isOpd hopd, isTrig_of_isOpd hopd, Bool.false_and, Bool.or_false, Bool.false_or, List.foldl_nil, List.flatMap_nil,
      List.map_nil, List.append_nil, fireBundle_nil]
  have hcore : u.core = s.core := (congrArg State.core hform :)
  have hms : u.ms = s.ms := (congrArg State.ms hform :)
  have hsp : u.sp = s.sp := (congrArg State.sp hform :)
  have hnv : u.nv = s.nv := (congrArg State.nv hform :)
  have hpins : u.pins = s.pins := (congrArg State.pins hform :)
  have hkeys : CORE_STAT.TASK.key ≠ CORE_STAT.ISSUING.key := by decide
  have hissuing : getF u CORE_STAT.ISSUING = 1 := by
    rw [hu]
    exact (getF_setFs_cons_of_ne _ (by simp [hkeys])).trans rfl
  have htask : getF u CORE_STAT.TASK = o.task % 8 := by
    rw [hu]
    exact getF_setF_self ..
  rw [hissues]
  exact ⟨hcore, hms, hsp, hnv, hpins, hissuing, htask, hregs⟩

/-- The engine after the bundle's move has landed and its PC has moved on. -/
def movedOn (s : State) (t : Nat) (p : Planned) : State := pcAdvance (opdWrite t (pruneProv s) p) t

theorem opdWrite_of_landed {s : State} {p : Planned} (hok : p.g.ok = true) (hres : p.g.res = s.core.cyc) (t : Nat) : ∃ prov,
    opdWrite t s p = { s with core := { s.core with
      prov := prov, ctx := sset TWord.empty s.core.ctx (opdKey t (p.m.dst / 16) (p.m.dst % 16)) p.val } } := by
  have hnow : p.g.res ≤ (setCtx s (opdKey t (p.m.dst / 16) (p.m.dst % 16)) p.val).core.cyc := hres.le
  unfold opdWrite
  dsimp only
  rw [if_pos hok, if_pos hnow]
  exact ⟨_, rfl⟩

theorem movedOn_eq {s : State} {p : Planned} (hok : p.g.ok = true) (hres : p.g.res = s.core.cyc) (t : Nat) : ∃ prov,
    movedOn s t p = { s with core := { s.core with
      prov := prov
      ctx := sset TWord.empty s.core.ctx (opdKey t (p.m.dst / 16) (p.m.dst % 16)) p.val
      pcs := s.core.pcs.set t (pcStep (nth 0 s.core.pcs t) (nth [] s.core.branches t)).1
      branches := s.core.branches.set t (pcStep (nth 0 s.core.pcs t) (nth [] s.core.branches t)).2 } } := by
  obtain ⟨prov, hwrite⟩ := opdWrite_of_landed (s := pruneProv s) hok hres t
  refine ⟨prov, ?_⟩
  rw [movedOn, hwrite]
  rfl

theorem loses_alone (p : Planned) (c : Nat) : loses [(p, c)] (p, c) = false := by simp [loses]

/-- With nothing that waits or comes due, a bundle of one landed move is presented and issues at once. -/
theorem present_single {s : State} {o : Origin} {ws : List Nat} {p : Planned}
    (hplan : planBundle s o.task ws = ({ moves := [p], illegal := [], dead := [] }, s)) (hopd : isOpd p.m.dst = true)
    (hok : p.g.ok = true) (hres : p.g.res = s.core.cyc) (hops : s.core.ops = []) (hdef : s.core.deferred = [])
    (hwait : s.core.waiting = []) (hfast : s.core.fastWait = []) (htmu : ∀ x ∈ s.core.tmu, x.ev = none) :
    present s s o ws = issueMoves s (movedOn s o.task p) o { moves := [p], illegal := [], dead := [] }
      [(p, s.core.cyc)] [(p, s.core.cyc)] 0 := by
  obtain ⟨prov, hmoved⟩ := movedOn_eq hok hres o.task
  have hstart (hold : Deferred → Bool) : startFire s hold (movedOn s o.task p) = movedOn s o.task p := by
    rw [hmoved]
    apply startFire_of_none
    · exact hfast
    · exact htmu
    · exact hdef
    · exact hwait
  have hocc : trkOcc s = 0 := by simp [trkOcc, hops, hdef, hwait]
  unfold present
  extract_lets c t pl plan opds s2 all lives trigs now s3 full held
  have hpl : plan = { moves := [p], illegal := [], dead := [] } := congrArg Prod.fst hplan
  have hopds : opds = [(p, c)] := by simp [opds, hpl, hopd]
  have hs2 : s2 = opdWrite t (pruneProv s) p := by
    have hstate : pl.2 = s := congrArg Prod.snd hplan
    simp only [s2, hopds, hstate, List.filter_cons, loses_alone, Bool.not_false, if_true, List.filter_nil, List.map_cons,
      List.map_nil, List.foldl_cons, List.foldl_nil]
  have hall : all = [(p, c)] := by simp only [all, hpl, List.map_cons, List.map_nil, hopd, if_true]
  have hlives : lives = [(p, c)] := by
    simp only [lives, hall, List.filter_cons, loses_alone, Bool.not_false, if_true, List.filter_nil]
  have htrigs : trigs = [] := by simp [trigs, hlives, isTrig_of_isOpd hopd]
  have hnow : now = [] := by simp [now, htrigs, firsts]
  have hs3 : s3 = movedOn s o.task p := by
    simp only [s3, hs2]
    exact hstart _
  have hheld : held = [] := by simp [held, hnow]
  have hfull : full = false := by simp [full, hocc, htrigs]
  rw [hfull, hheld, if_neg (by simp), hs3, hpl, hall, hlives, htrigs]
  rfl

/-! ## BUNDLE_ISSUE (R94, R116, R121) -/

/-- The bundle of eight words at a PC is the one of a short immediate when its words are. -/
theorem words_immBundle {words : List (Nat × Word)} {pc imm dst tag : Nat} (hfirst : bankWord words pc 0 = immMoveWord imm dst tag)
    (hrest : ∀ i, 1 ≤ i → i < 8 → bankWord words pc i = 0xF8000000) :
    (List.range 8).map (bankWord words pc) = immBundle imm dst tag := by
  have hslots : List.range 8 = 0 :: (List.range 7).map (· + 1) := rfl
  rw [hslots, List.map_cons, hfirst, immBundle, List.map_map]
  refine congrArg _ (List.eq_replicate_iff.mpr ⟨by simp, fun w hw => ?_⟩)
  obtain ⟨i, hi, rfl⟩ := List.mem_map.mp hw
  exact hrest (i + 1) (by omega) (by rw [List.mem_range] at hi; omega)

/-- The task that issues presents the bundle it fetches. -/
theorem issueIn_of_fetch {b : State} {t : Nat} {ws : List Nat} (hmay : mayIssue b = true) (ht : issuing b = some t)
    (hfetch : fetchBundle b (nth 0 b.core.pcs t) = (some ws, b)) :
    issueIn b = present b b
      { task := t, bank := b2n (isSet b CORE_BANK.ACTIVE), pc := nth 0 b.core.pcs t, slot := 0 } ws := by
  unfold issueIn
  rw [hmay, if_pos rfl, ht]
  dsimp only
  rw [hfetch]

/-- The cycle begins with a parity halt or without one, in the state that follows an idle cycle. -/
theorem bundleIssue_begins {s : State} (h : IdleCycle s) (hm : s.mode = .run ∨ s.mode = .runEdit) (parity : Bool) : ∃ b,
    Begins s b (if parity then some 5 else none) ∧ issuing b = issuing (nextCycle s) ∧
    exec (.bundleIssue parity) s = .next (issueIn b) := by
  have hrests := rests_of_idle h
  have hadv := hrests.advances (calm_of_idle h).ops
  have hmay : mayIssue s = true := by rcases hm with hm | hm <;> simp [mayIssue, hrests.on, hm]
  have hrun : inMode s runModes = true := by rcases hm with hm | hm <;> simp [inMode, runModes, hm]
  have hexec : exec (.bundleIssue parity) s = .next (issueIn (if parity then halt (nextCycle s) 5 else nextCycle s)) := by
    have hrow : exec (.bundleIssue parity) s = execBundleIssue parity s := rfl
    rw [hrow, execBundleIssue, if_neg (by simp [hmay])]
  generalize nextCycle s = n at *
  cases parity with
  | true => exact ⟨halt n 5, hadv.begins_halt hrests.halt hrun 5, issuing_halt n 5, hexec⟩
  | false => exact ⟨n, hadv.begins hrests.halt, rfl, hexec⟩

section
variable {s : State} {t dst imm tag : Nat} (hidle : IdleCycle s) (hm : s.mode = .run ∨ s.mode = .runEdit)
  (hissues : issuing (nextCycle s) = some t) (hclean : s.sp.upsets = []) (hA : s.core.badA = []) (hB : s.core.badB = [])
  (htrc : isSet s TRC_CTRL.EN = false) (hopd : isOpd dst = true) (himm : imm < 1024) (hlow : 1 ≤ tag) (hhigh : tag ≤ 12)
  (hfirst : bankWord (activeBank s) (nth 0 s.core.pcs t) 0 = immMoveWord imm dst tag)
  (hrest : ∀ i, 1 ≤ i → i < 8 → bankWord (activeBank s) (nth 0 s.core.pcs t) i = 0xF8000000)
include hidle hm hissues hclean hA hB htrc hopd himm hlow hhigh hfirst hrest

/-- The bundle is fetched, presented and issued in the cycle that begins. -/
theorem issued_issueIn {b : State} {cause : Option Nat} (hb : Begins s b cause) (hissuing : issuing b = issuing (nextCycle s)) :
    Issued t (movedOn b t (immPlanned 0 b.core.cyc imm dst tag)) (issueIn b) := by
  have hcalm := calm_of_idle hidle
  obtain ⟨cells, writes, seen, hcore⟩ := hb.core
  have hbank : activeBank b = activeBank s := by
    unfold activeBank
    rw [hb.regs.isSet (by decide), hcore]
  have hfetch : fetchBundle b (nth 0 b.core.pcs t) = (some (immBundle imm dst tag), b) := by
    rw [fetchBundle_of_clean (by rw [hb.sp]; exact hclean) (by rw [hcore]; exact hA) (by rw [hcore]; exact hB), hbank, hcore,
      words_immBundle hfirst hrest]
  obtain ⟨o, rfl, hissue⟩ : ∃ o : Origin, o.task = t ∧ issueIn b = present b b o (immBundle imm dst tag) :=
    ⟨_, rfl, issueIn_of_fetch (hb.mayIssue hm (rests_of_idle hidle).on) (hissuing.trans hissues) hfetch⟩
  obtain ⟨p, hp⟩ : ∃ p, p = immPlanned 0 b.core.cyc imm dst tag := ⟨_, rfl⟩
  have hpresent : present b b o (immBundle imm dst tag) = issueMoves b (movedOn b o.task p) o
      { moves := [p], illegal := [], dead := [] } [(p, b.core.cyc)] [(p, b.core.cyc)] 0 := by
    rw [hp]
    exact present_single (planBundle_immBundle himm hopd hlow hhigh b o.task) hopd rfl rfl (by rw [hcore]; exact hcalm.ops)
      (by rw [hcore]; exact hcalm.deferred) (by rw [hcore]; exact hcalm.waiting) (by rw [hcore]; exact hcalm.fastWait)
      (by rw [hcore]; exact hcalm.tmu)
  obtain ⟨prov, hmoved⟩ := movedOn_eq (s := b) (p := p) (by rw [hp]; rfl) (by rw [hp]; rfl) o.task
  have hcyc : (movedOn b o.task p).core.cyc = b.core.cyc := by rw [hmoved]
  have hissued := issued_issueMoves (s := movedOn b o.task p) b o p (by rw [hp]; exact hopd) (by rw [hcyc, hp]; rfl)
    (by rw [hmoved]; exact (hb.regs.isSet (by decide)).trans htrc) 0
  rwa [hcyc, ← hpresent, ← hissue, hp] at hissued

/-- A bundle whose only move is a short immediate for an operand register issues: the immediate lands, the PC moves on, and a parity
error pends as a halt cause. -/
theorem bundleIssue_of_imm (parity : Bool) (ht : t < 8) (hpcs : s.core.pcs.length = 8) :
    Completes (.bundleIssue parity) s fun t' =>
      nth 0 t'.core.pcs t = (pcStep (nth 0 s.core.pcs t) (nth [] s.core.branches t)).1 ∧
      t'.core.cyc = (s.core.cyc + 1) % 2 ^ 64 ∧
      getCtx t' (opdKey t (dst / 16) (dst % 16)) = mkT tag (unsignedOf 32 (signedOf 10 imm)) ∧
      (∀ k, k ≠ opdKey t (dst / 16) (dst % 16) → getCtx t' k = getCtx s k) ∧
      getF t' CORE_STAT.ISSUING = 1 ∧ getF t' CORE_STAT.TASK = t ∧ isSet t' CORE_BANK.ACTIVE = isSet s CORE_BANK.ACTIVE ∧
      t'.ms.haltPend = (if parity then some 5 else none) ∧ t'.core.hold = s.core.hold ∧ SameSpaces s t' := by
  obtain ⟨b, hb, hissuing, hexec⟩ := bundleIssue_begins hidle hm parity
  have hissued := issued_issueIn hidle hm hissues hclean hA hB htrc hopd himm hlow hhigh hfirst hrest hb hissuing
  obtain ⟨cells, writes, seen, hcore⟩ := hb.core
  obtain ⟨prov, hmoved⟩ := movedOn_eq (s := b) (p := immPlanned 0 b.core.cyc imm dst tag) rfl rfl t
  rw [hmoved] at hissued
  generalize issueIn b = v at hexec hissued
  have hregs := hb.regs.append hissued.regs
  have hengine := hissued.core
  have hctx : v.core.ctx =
      sset TWord.empty s.core.ctx (opdKey t (dst / 16) (dst % 16)) (mkT tag (unsignedOf 32 (signedOf 10 imm))) := by
    rw [hengine, hcore, ← immWord_immMove himm dst]
    rfl
  refine ⟨v, hexec, ?pc, ?cyc, ?lands, fun k hk => ?stays, hissued.issuing, ?task, hregs.isSet (by decide), ?halt, ?hold, ?spaces⟩
  case pc =>
    rw [hengine, hcore]
    simp [nth, hpcs, ht]
  case cyc => rw [hengine, hcore]
  case lands => rw [getCtx, hctx, sget_sset_self]
  case stays => rw [getCtx, hctx, sget_sset_ne _ _ _ _ (Ne.symm hk)]; rfl
  case task => rw [hissued.task, Nat.mod_eq_of_lt ht]
  case halt => rw [hissued.ms]; exact hb.cause
  case hold => rw [hengine, hcore]
  case spaces =>
    have hspaces := hb.spaces
    unfold SameSpaces at hspaces ⊢
    rw [hissued.sp, hissued.nv, hissued.pins]
    exact hspaces

end

/-- No task issues: the cycle passes. -/
theorem bundleIssue_of_none {s : State} (hmay : mayIssue s = true) (hnone : issuing (nextCycle s) = none) :
    exec (.bundleIssue false) s = .next (coreCycle s) := by
  have hon : domOn s 2 = true := (Bool.and_eq_true_iff.mp hmay).1
  have hexec : exec (.bundleIssue false) s = execBundleIssue false s := rfl
  rw [hexec, execBundleIssue, hmay, coreCycle_of_on hon]
  simp [issueIn, hnone]

theorem bundleIssue_of_not_may {s : State} (hmay : mayIssue s = false) (parity : Bool) : exec (.bundleIssue parity) s = .next s := by
  have hexec : exec (.bundleIssue parity) s = execBundleIssue parity s := rfl
  rw [hexec, execBundleIssue, hmay]
  rfl

end Sys2Proof.Machine
end

section
open Sys2Proof Sys2Proof.Machine Sys2Proof.Machine.Reg

/-- Settles O32: the cycle passes as an idle one, and the bundle is fetched, planned, presented and issued at the start of the next. -/
theorem bundleIssues : Obligations.BundleIssues := by
  refine ⟨?issues, fun s hmay hnone => bundleIssue_of_none hmay hnone, fun s parity hmay => bundleIssue_of_not_may hmay parity⟩
  intro s t dst imm tag bank parity hidle hm ht hissues hclean hbank hA hB htrc hopd himm hlow hhigh hpcs _ pc words hfirst hrest
  have hwords : words = activeBank s := by rw [activeBank, hbank]
  rw [hwords] at hfirst hrest
  have hissue := bundleIssue_of_imm hidle hm hissues hclean hA hB htrc hopd himm hlow hhigh hfirst hrest parity ht hpcs
  rwa [hbank] at hissue
end

section
/-! SUPPORT. Every command completes and keeps the memories canonical and the queue, one arm per row of the dispatch (R134, R137). -/

namespace Sys2Proof.Machine

/-- Each command keeps what its own meaning keeps: the arms are those of `exec`. -/
theorem exec_kept {pq : List Instr} (c : Instr) (s : State) (h : Kept pq s) : ∃ t, exec c s = .next t ∧ Kept pq t :=
  match c with
  | .vbatRise mv => execVbatRise_kept mv s h
  | .powerOnReset => execPowerOnReset_kept s h
  | .resetPin ns => execResetPin_kept ns s h
  | .resetPinRelease stn bootsel => execResetPinRelease_kept stn bootsel s h
  | .watchdogExpiry => execWatchdogExpiry_kept s h
  | .railResetWindow rail => execRailResetWindow_kept rail s h
  | .railLoss rail => execRailLoss_kept rail s h
  | .vbatLoss => execVbatLoss_kept s h
  | .rstoutRelease => execRstoutRelease_kept s h
  | .bootComplete => execBootComplete_kept s h
  | .seedTimeout => execSeedTimeout_kept s h
  | .selftestTestDone failed => execSelftestTestDone_kept failed s h
  | .roleNegTimeout => execRoleNegTimeout_kept s h
  | .modeReqStop dbg => execModeReqStop_kept dbg s h
  | .modeReqRun dbg => execModeReqRun_kept dbg s h
  | .modeReqHalt dbg => execModeReqHalt_kept dbg s h
  | .modeReqHold dbg => execModeReqHold_kept dbg s h
  | .stopAtQuietPoint => execStopAtQuietPoint_kept s h
  | .stopTimeout => execStopTimeout_kept s h
  | .domainPowerGood d => execDomainPowerGood_kept d s h
  | .holdEntryDone => execHoldEntryDone_kept s h
  | .wakePin ns => execWakePin_kept ns s h
  | .wakeTime => execWakeTime_kept s h
  | .holdWakeReloadDone => execHoldWakeReloadDone_kept s h
  | .wakeComplete => execWakeComplete_kept s h
  | .aliveToggle => execAliveToggle_kept s h
  | .scrubAccess m found => execScrubAccess_kept m found s h
  | .eccWriteBack m loc => execEccWriteBack_kept m loc s h
  | .stationSupvExpiry stn => execStationSupvExpiry_kept stn s h
  | .timNowShRead who => execTimNowShRead_kept who s h
  | .leapSecond => execLeapSecond_kept s h
  | .ptpMessageRx port msg => execPtpMessageRx_kept port msg s h
  | .ptpTimeout port announce => execPtpTimeout_kept port announce s h
  | .ptpMasterSend port kind => execPtpMasterSend_kept port kind s h
  | .irigbFrame f => execIrigbFrame_kept f s h
  | .ppsEdge edge => execPpsEdge_kept edge s h
  | .ppsTimeout => execPpsTimeout_kept s h
  | .sblTimexSend => execSblTimexSend_kept s h
  | .sblTimexRx x => execSblTimexRx_kept x s h
  | .sblTimexTimeout => execSblTimexTimeout_kept s h
  | .sourceQualified n => execSourceQualified_kept n s h
  | .sourceSwitch n => execSourceSwitch_kept n s h
  | .holdoverUpdate => execHoldoverUpdate_kept s h
  | .plumbSampleTimeout => execPlumbSampleTimeout_kept s h
  | .plumbCycleWrap => execPlumbCycleWrap_kept s h
  | .plbCycleRead who => execPlbCycleRead_kept who s h
  | .bundleIssue parity => execBundleIssue_kept parity s h
  | .deferredResolution k => execDeferredResolution_kept k s h
  | .waitingTriggerFire k => execWaitingTriggerFire_kept k s h
  | .operationResult k => execOperationResult_kept k s h
  | .aluAdd o u t => execAluAdd_kept o u t s h
  | .aluSub o u t => execAluSub_kept o u t s h
  | .aluAnd o u t => execAluAnd_kept o u t s h
  | .aluOr o u t => execAluOr_kept o u t s h
  | .aluXor o u t => execAluXor_kept o u t s h
  | .aluShl o u t => execAluShl_kept o u t s h
  | .aluShr o u t => execAluShr_kept o u t s h
  | .aluMin o u t => execAluMin_kept o u t s h
  | .aluMax o u t => execAluMax_kept o u t s h
  | .aluNegabs o u t => execAluNegabs_kept o u t s h
  | .aluSel o u t => execAluSel_kept o u t s h
  | .aluCvt o u t => execAluCvt_kept o u t s h
  | .gbuAnd o u t => execGbuAnd_kept o u t s h
  | .gbuOr o u t => execGbuOr_kept o u t s h
  | .gbuXor o u t => execGbuXor_kept o u t s h
  | .gbuAndn o u t => execGbuAndn_kept o u t s h
  | .gbuNot o u t => execGbuNot_kept o u t s h
  | .gbuCopy o u t => execGbuCopy_kept o u t s h
  | .gbuSr o u t => execGbuSr_kept o u t s h
  | .gbuRs o u t => execGbuRs_kept o u t s h
  | .gbuRise o u t => execGbuRise_kept o u t s h
  | .gbuFall o u t => execGbuFall_kept o u t s h
  | .gbuTon o u t => execGbuTon_kept o u t s h
  | .gbuTof o u t => execGbuTof_kept o u t s h
  | .timerSweep cell => execTimerSweep_kept cell s h
  | .mulMul o u t => execMulMul_kept o u t s h
  | .mulMulw o u t => execMulMulw_kept o u t s h
  | .mulSq o u t => execMulSq_kept o u t s h
  | .phuCmac o u t => execPhuCmac_kept o u t s h
  | .phuCmag o u t => execPhuCmag_kept o u t s h
  | .phuCrot o u t => execPhuCrot_kept o u t s h
  | .phuDft o u t => execPhuDft_kept o u t s h
  | .lsuLd o u t => execLsuLd_kept o u t s h
  | .lsuLdx o u t => execLsuLdx_kept o u t s h
  | .lsuLdp o u t => execLsuLdp_kept o u t s h
  | .lsuSt o u t => execLsuSt_kept o u t s h
  | .lsuStx o u t => execLsuStx_kept o u t s h
  | .lsuStp o u t => execLsuStp_kept o u t s h
  | .bruEq o u t => execBruEq_kept o u t s h
  | .bruNe o u t => execBruNe_kept o u t s h
  | .bruLt o u t => execBruLt_kept o u t s h
  | .bruLe o u t => execBruLe_kept o u t s h
  | .bruGt o u t => execBruGt_kept o u t s h
  | .bruGe o u t => execBruGe_kept o u t s h
  | .bruTst o u t => execBruTst_kept o u t s h
  | .bruPc o u t => execBruPc_kept o u t s h
  | .bruCall o u t => execBruCall_kept o u t s h
  | .tmuNowT o u t => execTmuNowT_kept o u t s h
  | .tmuNowA o u t => execTmuNowA_kept o u t s h
  | .tmuAdda o u t => execTmuAdda_kept o u t s h
  | .tmuSchedA o u t => execTmuSchedA_kept o u t s h
  | .tmuSchedT o u t => execTmuSchedT_kept o u t s h
  | .tmuCancel o u t => execTmuCancel_kept o u t s h
  | .tmuPop o u t => execTmuPop_kept o u t s h
  | .tmuEventFire slot => execTmuEventFire_kept slot s h
  | .tmuFastoutEnqueue => execTmuFastoutEnqueue_kept s h
  | .quRecv o u t => execQuRecv_kept o u t s h
  | .quSendEth o u t => execQuSendEth_kept o u t s h
  | .quSendCan o u t => execQuSendCan_kept o u t s h
  | .quFldCmd o u t => execQuFldCmd_kept o u t s h
  | .quRegRd o u t => execQuRegRd_kept o u t s h
  | .quRegWr o u t => execQuRegWr_kept o u t s h
  | .imgEnd o u t => execImgEnd_kept o u t s h
  | .macSel o u t => execMacSel_kept o u t s h
  | .macExec o u t => execMacExec_kept o u t s h
  | .macExecDirect o n t => execMacExecDirect_kept o n t s h
  | .fldFastout o u t => execFldFastout_kept o u t s h
  | .fastFrameLaunch k => execFastFrameLaunch_kept k s h
  | .coreCycHiRead who => execCoreCycHiRead_kept who s h
  | .coreGtimstRead who => execCoreGtimstRead_kept who s h
  | .scanhiRead task who => execScanhiRead_kept task who s h
  | .readClearField addr => execReadClearField_kept addr s h
  | .triggerPeriod task => execTriggerPeriod_kept task s h
  | .triggerAngle task => execTriggerAngle_kept task s h
  | .triggerEdge task old => execTriggerEdge_kept task old s h
  | .heldTriggerRelease task => execHeldTriggerRelease_kept task s h
  | .taskFreeze task => execTaskFreeze_kept task s h
  | .launchCommit task => execLaunchCommit_kept task s h
  | .stationAckTimeout seq => execStationAckTimeout_kept seq s h
  | .pwlogClear => execPwlogClear_kept s h
  | .txnCommitInstant => execTxnCommitInstant_kept s h
  | .txnEffect => execTxnEffect_kept s h
  | .txnQpTimeout => execTxnQpTimeout_kept s h
  | .txnRecorded => execTxnRecorded_kept s h
  | .prepareDone => execPrepareDone_kept s h
  | .editCopyBundle => execEditCopyBundle_kept s h
  | .sysTxnResend => execSysTxnResend_kept s h
  | .sysTxnGuardDeadline => execSysTxnGuardDeadline_kept s h
  | .sysReportResend => execSysReportResend_kept s h
  | .zcpReplyMatch peer seq opcode status => execZcpReplyMatch_kept peer seq opcode status s h
  | .sblLinkUp stn sysId dirCrc rtt => execSblLinkUp_kept stn sysId dirCrc rtt s h
  | .sblAlignLoss => execSblAlignLoss_kept s h
  | .sblHbSend => execSblHbSend_kept s h
  | .sblHbRx crcOk hb => execSblHbRx_kept crcOk hb s h
  | .sblAckRx crcOk seq => execSblAckRx_kept crcOk seq s h
  | .sblNakRx crcOk seq => execSblNakRx_kept crcOk seq s h
  | .sblRetxTimeout => execSblRetxTimeout_kept s h
  | .sblEvtRx crcOk lseq evs => execSblEvtRx_kept crcOk lseq evs s h
  | .sblXferRx crcOk lseq part last => execSblXferRx_kept crcOk lseq part last s h
  | .sblXctlRx crcOk lseq => execSblXctlRx_kept crcOk lseq s h
  | .sblNegRx crcOk stn sysId dirCrc => execSblNegRx_kept crcOk stn sysId dirCrc s h
  | .sblHandoverRx crcOk lseq => execSblHandoverRx_kept crcOk lseq s h
  | .sblRstreqRx crcOk lseq => execSblRstreqRx_kept crcOk lseq s h
  | .partnerLoss => execPartnerLoss_kept s h
  | .replayEvent => execReplayEvent_kept s h
  | .streamLossMark => execStreamLossMark_kept s h
  | .xferCut => execXferCut_kept s h
  | .xferFrameSend => execXferFrameSend_kept s h
  | .takeoverBoundary => execTakeoverBoundary_kept s h
  | .handoverReq dbg => execHandoverReq_kept dbg s h
  | .handoverMark => execHandoverMark_kept s h
  | .demotion => execDemotion_kept s h
  | .syncReq dbg => execSyncReq_kept dbg s h
  | .resetPartner dbg => execResetPartner_kept dbg s h
  | .frameHeaderDecision port bytes stamp => execFrameHeaderDecision_kept port bytes stamp s h
  | .frameEnd port fcsOk => execFrameEnd_kept port fcsOk s h
  | .payloadScanDone port => execPayloadScanDone_kept port s h
  | .pauseDrainDone => execPauseDrainDone_kept s h
  | .patternLoadDone => execPatternLoadDone_kept s h
  | .dupEntryForget pair src seq => execDupEntryForget_kept pair src seq s h
  | .tadpoleExpiry k => execTadpoleExpiry_kept k s h
  | .egressFrameStart port => execEgressFrameStart_kept port s h
  | .egressFrameEnd port => execEgressFrameEnd_kept port s h
  | .gateChange port => execGateChange_kept port s h
  | .gateListTakeover port => execGateListTakeover_kept port s h
  | .redsupSend pair => execRedsupSend_kept pair s h
  | .gooseRetransmit slot => execGooseRetransmit_kept slot s h
  | .canFrameRx n f stamp => execCanFrameRx_kept n f stamp s h
  | .canTxStart n => execCanTxStart_kept n s h
  | .canTxDone n => execCanTxDone_kept n s h
  | .canTxFail n => execCanTxFail_kept n s h
  | .canError n tec rec => execCanError_kept n tec rec s h
  | .busoffRecovery n => execBusoffRecovery_kept n s h
  | .canTbCancel n mask => execCanTbCancel_kept n mask s h
  | .canRxpop n => execCanRxpop_kept n s h
  | .canHpbpop n => execCanHpbpop_kept n s h
  | .ttReferenceInstant n => execTtReferenceInstant_kept n s h
  | .ttWindowOpen n w => execTtWindowOpen_kept n w s h
  | .ttTxenExpiry n => execTtTxenExpiry_kept n s h
  | .ttRefWatchTimeout n => execTtRefWatchTimeout_kept n s h
  | .canZcpCtxTimeout n peer => execCanZcpCtxTimeout_kept n peer s h
  | .fieldFrameSend => execFieldFrameSend_kept s h
  | .cpnFrameRx k link f good => execCpnFrameRx_kept k link f good s h
  | .cpnAnswerSend k link => execCpnAnswerSend_kept k link s h
  | .hubAnswerRx k a good delay => execHubAnswerRx_kept k a good delay s h
  | .hubAnswerTimeout k => execHubAnswerTimeout_kept k s h
  | .cpnLossSlot k link => execCpnLossSlot_kept k link s h
  | .cpnFastFrameRx k link set clr epoch crcOk => execCpnFastFrameRx_kept k link set clr epoch crcOk s h
  | .fastLatchTimeout k out => execFastLatchTimeout_kept k out s h
  | .failHoldTimeout k => execFailHoldTimeout_kept k s h
  | .barrierDownFrame k good => execBarrierDownFrame_kept k good s h
  | .barrierUpFrame k good => execBarrierUpFrame_kept k good s h
  | .outCurrentLimit k out on => execOutCurrentLimit_kept k out on s h
  | .outThermalShutdown k out => execOutThermalShutdown_kept k out s h
  | .outThermalRestart k out => execOutThermalRestart_kept k out s h
  | .fieldUvChange k mv => execFieldUvChange_kept k mv s h
  | .cpnReset k => execCpnReset_kept k s h
  | .cpnMgmtRead k link addr => execCpnMgmtRead_kept k link addr s h
  | .cpnMgmtWrite k link addr data => execCpnMgmtWrite_kept k link addr data s h
  | .cpnShadowTimeout k => execCpnShadowTimeout_kept k s h
  | .apply k link => execApply_kept k link s h
  | .tsdClear k link outs => execTsdClear_kept k link outs s h
  | .fastRelease k link outs => execFastRelease_kept k link outs s h
  | .cntLatch k link => execCntLatch_kept k link s h
  | .cntClear k link chs => execCntClear_kept k link chs s h
  | .ovfClear k link chs => execOvfClear_kept k link chs s h
  | .capArm k link chs => execCapArm_kept k link chs s h
  | .debouncedEdge k c subA subB => execDebouncedEdge_kept k c subA subB s h
  | .counterEdge k c rise => execCounterEdge_kept k c rise s h
  | .settlingEnd k c => execSettlingEnd_kept k c s h
  | .freqMeasurementClose k c periods ticks => execFreqMeasurementClose_kept k c periods ticks s h
  | .freqNosigTimeout k c => execFreqNosigTimeout_kept k c s h
  | .captureEdge k c rise edge subA subB => execCaptureEdge_kept k c rise edge subA subB s h
  | .tspSecond => execTspSecond_kept s h
  | .atrPoll => execAtrPoll_kept s h
  | .calSecondTick stamp => execCalSecondTick_kept stamp s h
  | .calOscStop => execCalOscStop_kept s h
  | .calSet who dbg => execCalSet_kept who dbg s h
  | .calTimeRead who => execCalTimeRead_kept who s h
  | .calSnap who alsoRelease => execCalSnap_kept who alsoRelease s h
  | .calSnapRelease who => execCalSnapRelease_kept who s h
  | .lbfSample mv => execLbfSample_kept mv s h
  | .lbfClear mv => execLbfClear_kept mv s h
  | .calDisciplinePoint => execCalDisciplinePoint_kept s h
  | .zcpPacketRx peer bytes => execZcpPacketRx_kept peer bytes s h
  | .zcpRequestTake => execZcpRequestTake_kept s h
  | .zcpIdentify rq => execZcpIdentify_kept rq s h
  | .zcpReadReg rq addr n => execZcpReadReg_kept rq addr n s h
  | .zcpReadMem rq addr len => execZcpReadMem_kept rq addr len s h
  | .zcpStageRead rq addr n => execZcpStageRead_kept rq addr n s h
  | .zcpOpStatus rq handle => execZcpOpStatus_kept rq handle s h
  | .zcpAbort rq handle => execZcpAbort_kept rq handle s h
  | .zcpJournalRead rq start n => execZcpJournalRead_kept rq start n s h
  | .zcpEventRead rq start n => execZcpEventRead_kept rq start n s h
  | .zcpSessionOpen rq => execZcpSessionOpen_kept rq s h
  | .zcpSessionClose rq => execZcpSessionClose_kept rq s h
  | .sessionTimeout slot => execSessionTimeout_kept slot s h
  | .zcpAnnounce rq stn sysId dirCrc mode epoch mac => execZcpAnnounce_kept rq stn sysId dirCrc mode epoch mac s h
  | .announceSend => execAnnounceSend_kept s h
  | .zcpWriteReg rq addr ws => execZcpWriteReg_kept rq addr ws s h
  | .zcpWriteMem rq addr bytes => execZcpWriteMem_kept rq addr bytes s h
  | .zcpBusCancel rq n mask => execZcpBusCancel_kept rq n mask s h
  | .zcpImgWrite rq w => execZcpImgWrite_kept rq w s h
  | .zcpBegin rq persist systxn => execZcpBegin_kept rq persist systxn s h
  | .zcpStage rq addr ws => execZcpStage_kept rq addr ws s h
  | .zcpPrepare rq => execZcpPrepare_kept rq s h
  | .zcpCommit rq kind when0 when1 => execZcpCommit_kept rq kind when0 when1 s h
  | .zcpRollback rq force => execZcpRollback_kept rq force s h
  | .zcpUndo rq => execZcpUndo_kept rq s h
  | .zcpSysCommit rq systxn kind tS tNs a mask => execZcpSysCommit_kept rq systxn kind tS tNs a mask s h
  | .zcpSysPrepare rq systxn sysId dirCrc kind tS tNs a => execZcpSysPrepare_kept rq systxn sysId dirCrc kind tS tNs a s h
  | .zcpSysCommitAt rq systxn kind tS tNs a => execZcpSysCommitAt_kept rq systxn kind tS tNs a s h
  | .zcpSysAbort rq systxn => execZcpSysAbort_kept rq systxn s h
  | .zcpSysReport rq systxn stn outcome => execZcpSysReport_kept rq systxn stn outcome s h
  | .zcpLoadBankOpen rq bank ver crc => execZcpLoadBankOpen_kept rq bank ver crc s h
  | .zcpLoadBankData rq index ws => execZcpLoadBankData_kept rq index ws s h
  | .zcpLoadBankClose rq activate => execZcpLoadBankClose_kept rq activate s h
  | .zcpLoadDtData rq entry ws => execZcpLoadDtData_kept rq entry ws s h
  | .zcpLoadDtClose rq version => execZcpLoadDtClose_kept rq version s h
  | .zcpEditBegin rq persist keep ver crc => execZcpEditBegin_kept rq persist keep ver crc s h
  | .zcpEditPatch rq index ws ranges => execZcpEditPatch_kept rq index ws ranges s h
  | .zcpModeReq rq mode => execZcpModeReq_kept rq mode s h
  | .zcpHandover rq => execZcpHandover_kept rq s h
  | .zcpNvRead rq addr len => execZcpNvRead_kept rq addr len s h
  | .zcpNvErase rq addr len => execZcpNvErase_kept rq addr len s h
  | .zcpNvProgram rq addr bytes => execZcpNvProgram_kept rq addr bytes s h
  | .zcpNvImageOpen rq slot len crc => execZcpNvImageOpen_kept rq slot len crc s h
  | .zcpNvImageData rq offset bytes => execZcpNvImageData_kept rq offset bytes s h
  | .zcpNvImageClose rq => execZcpNvImageClose_kept rq s h
  | .zcpNvSave rq => execZcpNvSave_kept rq s h
  | .nvOpTimeout => execNvOpTimeout_kept s h
  | .nvInterfaceGrant => execNvInterfaceGrant_kept s h
  | .zcpTimeSet rq secHi secLo ns unc => execZcpTimeSet_kept rq secHi secLo ns unc s h
  | .zcpSelftestRun rq index => execZcpSelftestRun_kept rq index s h
  | .zcpReset rq => execZcpReset_kept rq s h
  | .longOpComplete k status => execLongOpComplete_kept k status s h
  | .opSlotExpiry k => execOpSlotExpiry_kept k s h
  | .journalMirror => execJournalMirror_kept s h
  | .spiRead addr n => execSpiRead_kept addr n s h
  | .spiWrite addr ws => execSpiWrite_kept addr ws s h
  | .spiStatus => execSpiStatus_kept s h
  | .spiZcpPut bytes => execSpiZcpPut_kept bytes s h
  | .spiZcpGet => execSpiZcpGet_kept s h
  | .spiUnknownCode code => execSpiUnknownCode_kept code s h
  | .registerWrite addr v who => execRegisterWrite_kept addr v who s h
  | .sysAccerrClear v => execSysAccerrClear_kept v s h
  | .wordPayloadRead a => execWordPayloadRead_kept a s h
  | .wordPayloadStage a v => execWordPayloadStage_kept a v s h
  | .wordTagWrite a v => execWordTagWrite_kept a v s h
  | .bankHostWrite addr v dbg => execBankHostWrite_kept addr v dbg s h
  | .d11Switch off dbg => execD11Switch_kept off dbg s h
  | .railMeasure rail mv => execRailMeasure_kept rail mv s h
  | .tempMeasure sensor t => execTempMeasure_kept sensor t s h
  | .processMeasure m count => execProcessMeasure_kept m count s h
  | .avsDecision => execAvsDecision_kept s h
  | .avsRelease => execAvsRelease_kept s h
  | .avsHoldTimeout => execAvsHoldTimeout_kept s h
  | .avsReadback mv busError => execAvsReadback_kept mv busError s h
  | .pmbAlert status => execPmbAlert_kept status s h
  | .trcRdataRead => execTrcRdataRead_kept s h
  | .tapExtest cells => execTapExtest_kept cells s h
  | .tapSamplePreload cells => execTapSamplePreload_kept cells s h
  | .tapIdcode => execTapIdcode_kept s h
  | .tapClamp => execTapClamp_kept s h
  | .tapHighz => execTapHighz_kept s h
  | .tapBypass => execTapBypass_kept s h
  | .dbgreg go write addr v => execDbgreg_kept go write addr v s h
  | .retSnapshot => execRetSnapshot_kept s h
  | .referenceStable => execReferenceStable_kept s h
  | .ref25Stop => execRef25Stop_kept s h
  | .irigbPositionMarkerMissing => execIrigbPositionMarkerMissing_kept s h
  | .portLinkChange port up spd => execPortLinkChange_kept port up spd s h
  | .peerDelayRequest port => execPeerDelayRequest_kept port s h
  | .busIntegration n => execBusIntegration_kept n s h
  | .rawInputChange k c level => execRawInputChange_kept k c level s h
  | .traceFifoDrain => execTraceFifoDrain_kept s h
  | .norOperationDone => execNorOperationDone_kept s h

theorem step_of_empty {s : State} (h : s.pending = []) : step s = .next (tick s) := by rw [step, h]

/-- Whether a step takes the front command or lets a cycle pass, it leaves the queue's rest and canonical memories. -/
theorem step_kept (s : State) (hwf : Memory.wf s.sp = true) : ∃ t, step s = .next t ∧ Kept s.pending.tail t := by
  cases hqueue : s.pending with
  | nil => exact ⟨tick s, step_of_empty hqueue, tick_kept s ⟨hwf, hqueue⟩⟩
  | cons c rest =>
    rw [stepRunsFront.1 s c rest hqueue]
    exact exec_kept c { s with pending := rest } ⟨hwf, rfl⟩

end Sys2Proof.Machine
end

section
open Sys2Proof Sys2Proof.Machine

/-- Settles O3: a step always has a next state, and each command and each cycle keeps the canonical form. -/
theorem memoryStaysCanonical : Obligations.MemoryStaysCanonical := by
  intro s t hwf hstep
  obtain ⟨u, hnext, hcanonical, -⟩ := step_kept s hwf
  obtain rfl : t = u := Host.Outcome.next.inj (hstep.symm.trans hnext)
  exact hcanonical
end

section
/-! SUPPORT. The writes and the direct loads over the host port (R518, R520, R527): what each does to the state, and its reply. -/

namespace Sys2Proof.Machine

open Reg

/-! ## A command done at once, and its frame -/

/-- A command has been answered with its data and journaled, and beyond the journal's registers only listed fields have changed; the
NV store is the same. -/
def DoneWith (s : State) (rq : ZReq) (code : Nat) (data : List Byte) (ks : List Fld) (t : State) : Prop :=
  Replied s rq code 0 data t ∧ Journaled rq code 0 t ∧ SameRegs (ZCP_JSEQ.SEQ :: ZCP_JLOST.CNT :: ks) s t ∧ t.nv = s.nv

/-- What a command does to the packets that wait and to the NV store: nothing. -/
def KeepsQueues (s v : State) : Prop := v.zcp.spiQueue = s.zcp.spiQueue ∧ v.zcp.outbox = s.zcp.outbox ∧ v.nv = s.nv

theorem Answered.doneWith {rq : ZReq} {code : Nat} {data : List Byte} {ks : List Fld} {s v t : State}
    (h : Answered rq code 0 0 data v t) (hk : KeepsQueues s v) (hregs : SameRegs ks s v) : DoneWith s rq code data ks t := by
  obtain ⟨hspi, -, hnv⟩ := hk
  refine ⟨?_, h.journaled, (hregs.append h.regs).mono (by simp), h.nv.trans hnv⟩
  rw [Replied, ← hspi]
  exact h.spi

/-- A command of class W or P without reply data of its own length is permitted in STOP. -/
theorem permitted_of_writeOrLoad {s : State} {rq : ZReq} {i : Nat} (h : Heard s .stop rq i) {op : ZOp} {c : ZClass}
    (hwp : c = .w ∨ c = .p) (hc : zClass s op.code = some c) (hi : op.code ≠ 0x0103) (hl : op.replyLen = 0) : Permitted s .stop rq op c := by
  obtain ⟨htr, -, -⟩ := h.spi
  have hmode : modeAnswer .stop c = 0 ∧ c ≠ .q := by
    obtain rfl | rfl := hwp
    · decide
    · decide
  obtain ⟨hallowed, hquery⟩ := hmode
  refine ⟨hc, hallowed, hquery, hi, tooLong_of_short htr (by omega) (fun a n e => ?_) fun a n e => ?_⟩
  · simp [e, ZOp.replyLen] at hl
  · simp [e, ZOp.replyLen] at hl

/-- A command of class W or P in STOP that is done at once is journaled and answered with its data. -/
theorem answered_of_done {s v : State} {rq : ZReq} {i : Nat} {data : List Byte} {op : ZOp} (h : Heard s .stop rq i)
    (hc : zClass s op.code = some .w ∨ zClass s op.code = some .p) (hi : op.code ≠ 0x0103) (hl : op.replyLen = 0)
    (hx : zExec (noted s rq i) rq op = (.done 0 data, v)) (hk : KeepsQueues s v) :
    Answered rq op.code 0 0 data v (zcpRow s rq op) := by
  obtain ⟨-, hout, -⟩ := hk
  obtain ⟨-, -, hempty⟩ := h.spi
  have hreset : op.code ≠ 0x0900 := by
    intro e
    have hz : zClass s 0x0900 = some .z := rfl
    simp [e, hz] at hc
  obtain hc | hc := hc
  · exact zcpRow_done h (by decide) (permitted_of_writeOrLoad h (.inl rfl) hc hi hl) hreset hx (hout.trans hempty)
  · exact zcpRow_done h (by decide) (permitted_of_writeOrLoad h (.inr rfl) hc hi hl) hreset hx (hout.trans hempty)

/-! ## Runs of writes at rising addresses -/

/-- A run of writes, each of which puts one value at its address: afterwards the addresses of the run read the values in order, all
others read as before, and what every write keeps is kept. -/
theorem read_foldl_zipIdx {σ α β : Type} {I : σ → Prop} {read : σ → Nat → β} {op : σ → α × Nat → σ} {val : α → β} {a : Nat}
    (d : α) (hop : ∀ s p, I s → I (op s p) ∧ ∀ b, read (op s p) b = if a + p.2 = b then val p.1 else read s b)
    (l : List α) (k : Nat) (s : σ) (hs : I s) :
    I ((l.zipIdx k).foldl op s) ∧ ∀ b, read ((l.zipIdx k).foldl op s) b =
      if a + k ≤ b ∧ b < a + k + l.length then val (nth d l (b - (a + k))) else read s b := by
  induction l generalizing k s with
  | nil => exact ⟨hs, fun b => (if_neg (by simp)).symm⟩
  | cons x l ih =>
    obtain ⟨hx, hread⟩ := hop s (x, k) hs
    obtain ⟨hl, hreads⟩ := ih (k + 1) (op s (x, k)) hx
    refine ⟨hl, fun b => ?_⟩
    rw [List.zipIdx_cons, List.foldl_cons, hreads, hread, List.length_cons]
    rcases Nat.lt_trichotomy (a + k) b with hlt | rfl | hgt
    · obtain ⟨n, rfl⟩ := Nat.exists_eq_add_of_lt hlt
      have hidx : a + k + n + 1 - (a + (k + 1)) = n ∧ a + k + n + 1 - (a + k) = n + 1 := by omega
      have hiff : (a + (k + 1) ≤ a + k + n + 1 ∧ a + k + n + 1 < a + (k + 1) + l.length) ↔
          (a + k ≤ a + k + n + 1 ∧ a + k + n + 1 < a + k + (l.length + 1)) := by omega
      rw [hidx.1, hidx.2, if_neg (by omega : ¬ a + k = a + k + n + 1)]
      simp only [hiff]
      rfl
    · rw [if_neg (by omega), if_pos rfl, if_pos (by omega), Nat.sub_self]
      rfl
    · rw [if_neg (by omega), if_neg (by omega), if_neg (by omega)]

/-! ## Words and bits written from outside (R149, R520) -/

/-- No writer of the cycle precedes the host. -/
def HostFirst (s : State) : Prop := ∀ e ∈ s.sp.written, rankHost ≤ e.2

theorem hostFirst_of_none {s : State} (h : s.sp.written = []) : HostFirst s := by
  simp [HostFirst, h]

theorem hostFirst_noteWrite {s : State} (h : HostFirst s) (key : Nat) : HostFirst (noteWrite s key rankHost) := by
  intro e he
  rcases List.mem_cons.mp he with rfl | he
  · exact le_rfl
  · exact h e (List.mem_filter.mp he).1

/-- From the one state to the other only words have been written, by the host. -/
structure WordsWritten (s t : State) : Prop where
  first : HostFirst t
  bits : t.sp.bits = s.sp.bits
  rest : t = { s with sp := t.sp }

theorem wordsWritten_refl {s : State} (h : s.sp.written = []) : WordsWritten s s := ⟨hostFirst_of_none h, rfl, rfl⟩

/-- A word that the host writes: the word reads the value, all others as before. -/
theorem WordsWritten.writeWord {s t : State} (h : WordsWritten s t) (a : Nat) (v : TWord) :
    WordsWritten s (writeWord rankHost t a v) ∧ ∀ b, rawWord (writeWord rankHost t a v) b = if a = b then v else rawWord t b := by
  obtain ⟨hfirst, hbits, hrest⟩ := h
  have hmay : mayWrite (useWords t) (2 * a + 1) rankHost = true := mayWrite_of_forall hfirst _
  have huse : (if rankHost < 4 ∨ rankHost ≤ rankHost then useWords t else t) = useWords t := if_pos (.inr le_rfl)
  unfold Machine.writeWord
  dsimp only
  rw [huse, if_pos hmay]
  refine ⟨⟨hostFirst_noteWrite (s := useWords t) hfirst _, hbits, ?_⟩, fun b => rawWord_putWord ..⟩
  exact (congrArg (fun x : State => eccClear (putWord (noteWrite (useWords x) (2 * a + 1) rankHost) a v) .words a) hrest :)

/-- From the one state to the other only bits have been written, by the host, and no row is in error. -/
structure BitsWritten (s t : State) : Prop where
  first : HostFirst t
  clean : t.sp.upsets = []
  words : t.sp.words = s.sp.words
  rest : t = { s with sp := t.sp, core := t.core }

theorem bitsWritten_refl {s : State} (h : s.sp.written = []) (hu : s.sp.upsets = []) : BitsWritten s s :=
  ⟨hostFirst_of_none h, hu, rfl, rfl⟩

/-- A bit that the host writes: the bit reads the value, all others as before. -/
theorem BitsWritten.writeBit {s t : State} (h : BitsWritten s t) (a : Nat) (v : Bool) :
    BitsWritten s (writeBit rankHost t a v) ∧
      ∀ b, sget false (writeBit rankHost t a v).sp.bits b = if a = b then v else sget false t.sp.bits b := by
  obtain ⟨hfirst, hclean, hwords, hrest⟩ := h
  have hrow : checkRow (noteWrite t (2 * a) rankHost) 1 a = noteWrite t (2 * a) rankHost := checkRow_of_no_upsets (by exact hclean) 1 a
  rw [Machine.writeBit, if_pos (mayWrite_of_forall hfirst _), setBit, hrow]
  refine ⟨⟨hostFirst_noteWrite hfirst _, ?_, hwords, ?_⟩, fun b => sget_putBit ..⟩
  · exact (congrArg (List.filter fun p => p.1 != (MemId.bits, rowOf a)) hclean :)
  · exact (congrArg (fun x : State => eccClear (putBit (noteWrite x (2 * a) rankHost) a v) .bits
      (rowOf a)) hrest :)

/-! ## WRITE_REG, WRITE_MEM, BUS_CANCEL (R518) -/

theorem completes_zcpWriteReg {s v : State} {rq : ZReq} {i a : Nat} {w : Word} (h : Heard s .stop rq i) (ha : a % 4 = 0)
    (hlo : 0x40000000 ≤ a) (hhi : a + 4 ≤ 0x40110000) (hj : accJudge (noted s rq i) a = none)
    (hw : writeZcp (noted s rq i) (ownsTxn (noted s rq i) rq.session true) a w.toNat = (0, v))
    (hv : v = { noted s rq i with regs := v.regs }) :
    Completes (.zcpWriteReg rq a [w]) s fun t => Replied s rq 0x0100 0 (beBytes 2 1) t ∧ Journaled rq 0x0100 0 t ∧
      SameRegs [ZCP_JSEQ.SEQ, ZCP_JLOST.CNT] v t ∧ t.sp = s.sp := by
  obtain ⟨htr, -, -⟩ := h.spi
  have hx : zExec (noted s rq i) rq (.writeReg a [w]) = (.done 0 (beBytes 2 1), v) := by
    have hrange : ¬ (a % 4 ≠ 0 ∨ a < 0x40000000 ∨ 0x40110000 < a + 4 * [w].length ∨ [w].length < 1 ∨ 256 < [w].length) := by
      simp only [List.length_cons, List.length_nil]
      omega
    simp only [zExec, htr, beq_self_eq_true, zWriteReg, if_neg hrange, zWriteWords, hj, hw, if_true]
  have hk : KeepsQueues s v := by rw [hv]; exact ⟨rfl, rfl, rfl⟩
  have hans := answered_of_done h (.inl rfl) (by simp [ZOp.code]) rfl hx hk
  obtain ⟨hspi, -, -⟩ := hk
  refine ⟨_, rfl, ?_, hans.journaled, hans.regs, hans.sp.trans (by rw [hv]; rfl)⟩
  rw [Replied, ← hspi]
  exact hans.spi

theorem completes_zcpWriteMem {s : State} {rq : ZReq} {i w : Nat} {bs : List Byte} (h : Heard s .stop rq i) (hlo : 0x4000 ≤ w)
    (hhi : w < 0x80000) (hb : bs.length = 8) (hd : domOn s 5 = true) (ht : testing s 2 = false) (hs : s.sby.streaming = false)
    (hwr : s.sp.written = []) :
    Completes (.zcpWriteMem rq (0x10000000 + 8 * w) bs) s fun t => DoneWith s rq 0x0101 [] [] t ∧
      ∀ a, rawWord t a = if a = w then outsideWord (numAt bs 4 1) (BitVec.ofNat 32 (beNat (bytesAt bs 0 4).reverse))
        else rawWord s a := by
  obtain ⟨x, hx⟩ : ∃ x, x = outsideWord (numAt bs 4 1) (BitVec.ofNat 32 (beNat (bytesAt bs 0 4).reverse)) := ⟨_, rfl⟩
  obtain ⟨hwritten, hread⟩ := (wordsWritten_refl (s := noted s rq i) hwr).writeWord w x
  have hhost : hostWord (noted s rq i) w x = writeWord rankHost (noted s rq i) w x := by
    rw [hostWord, if_neg (by omega), streamEv, if_pos]
    rw [hwritten.rest]
    simp [noted, updSession, hs]
  have hopen : spaceClosed (noted s rq i) true w = false := by
    have hmode : (noted s rq i).mode = .stop := h.1
    simp [spaceClosed, hmode]
  have hexec : zExec (noted s rq i) rq (.writeMem (0x10000000 + 8 * w) bs) =
      (.done 0 [], writeWord rankHost (noted s rq i) w x) := by
    have hplace : (0x10000000 + 8 * w - 0x10000000) / 8 = w := by omega
    have hd' : domOn (noted s rq i) 5 = true := hd
    have ht' : testing (noted s rq i) 2 = false := ht
    rw [zExec, zWriteMem, hb, if_neg (by omega), if_pos (by omega), hplace]
    dsimp only
    rw [if_neg (by omega), hd', ht']
    simp [List.range_succ, hopen, ← hx, hhost]
  have hk : KeepsQueues s (writeWord rankHost (noted s rq i) w x) := by rw [hwritten.rest]; exact ⟨rfl, rfl, rfl⟩
  have hans := answered_of_done h (.inl rfl) (by simp [ZOp.code]) rfl hexec hk
  refine ⟨_, rfl, hans.doneWith hk (sameRegs_of_regs (by rw [hwritten.rest]; rfl) _), fun a => ?_⟩
  have hsame : rawWord (zcpRow s rq (.writeMem (0x10000000 + 8 * w) bs)) a = rawWord (writeWord rankHost (noted s rq i) w x) a := by
    rw [rawWord, hans.sp]
    rfl
  rw [hsame, hread, hx]
  exact if_congr eq_comm rfl rfl

/-- A cancellation with no buffer in use and no segment waiting, outside RUN. -/
theorem canCancel_of_free {s : State} {n : Nat} (hm : s.mode = .stop) (hz : (canSt s n).zcpTx = [])
    (hf : ∀ b, b < 3 → (canTb s n b).frame = none) (mask : Nat) : canCancel s n mask = s := by
  have hprog : canProgMode s = false := by simp [canProgMode, hm]
  have hloop : [0, 1, 2].foldl (fun s b =>
      if !bitOf mask b || (canTb s n b).frame.isNone then s
      else if (canTb s n b).attempt then updTb s n b fun t => { t with cancel := true }
      else canRelease s n b 2) s = s := by
    simp [hf]
  unfold canCancel
  rw [hloop]
  dsimp only
  rw [hprog, if_neg (by decide), canLoadZcp, hz, ite_self]

theorem completes_zcpBusCancel {s : State} {rq : ZReq} {i n m : Nat} (h : Heard s .stop rq i) (hn : n < 2) (hm : m < 8)
    (hd : domOn s 8 = true) (hz : (canSt s n).zcpTx = []) (hf : ∀ b, b < 3 → (canTb s n b).frame = none) :
    Completes (.zcpBusCancel rq n m) s
      (DoneWith s rq 0x0102 (beBytes 4 (regVal (canCancel (noted s rq i) n m) (CAN_TBSTAT.STATE_0 n).addr)) []) := by
  have hsame : canCancel (noted s rq i) n m = noted s rq i :=
    canCancel_of_free (by exact h.1) (by exact hz) (by exact hf) m
  have hx : zExec (noted s rq i) rq (.busCancel n m) =
      (.done 0 (beBytes 4 (regVal (noted s rq i) (CAN_TBSTAT.STATE_0 n).addr)), noted s rq i) := by
    have hd' : domOn (noted s rq i) 8 = true := hd
    rw [zExec, zBusCancel, if_neg (by omega), hd', if_neg (by decide)]
    dsimp only
    rw [hsame]
  have hk : KeepsQueues s (noted s rq i) := ⟨rfl, rfl, rfl⟩
  have hans := answered_of_done h (.inl rfl) (by simp [ZOp.code]) rfl hx hk
  rw [hsame]
  exact ⟨_, rfl, hans.doneWith hk (sameRegs_of_regs rfl _)⟩

/-! ## IMG_WRITE (R520, R527): not journaled -/

/-- An IMG_WRITE that has been carried out is answered; beyond what it writes only the packets and the sessions change. -/
theorem zcpRow_imgWrite {s v : State} {rq : ZReq} {i : Nat} {w : ImgWrite} (h : Heard s .stop rq i)
    (hx : zImgWrite (noted s rq i) w = (.done 0 [], v)) (hk : KeepsQueues s v) :
    Replied s rq 0x0103 0 [] (zcpRow s rq (.imgWrite w)) ∧ (zcpRow s rq (.imgWrite w)).regs = v.regs ∧
      (zcpRow s rq (.imgWrite w)).sp = v.sp := by
  obtain ⟨htr, -, hout⟩ := h.spi
  obtain ⟨hspi, hvout, -⟩ := hk
  have hmode : (noted s rq i).mode = .stop := h.1
  have hexec : zExec (noted s rq i) rq (.imgWrite w) = (.done 0 [], v) := hx
  have hlong : tooLong (noted s rq i) rq (.imgWrite w) = false :=
    tooLong_of_short htr (by simp [ZOp.replyLen]) (by simp) (by simp) _
  have hjournal : zJournal (noted s rq i) v rq (ZOp.imgWrite w).code (some (.imgWrite w)) 0 = v := by
    simp [zJournal, ZOp.code]
  obtain ⟨sessions, hreply⟩ := zcpReply_eq htr v 0x0103 0 0 []
  have hrow : zcpRow s rq (.imgWrite w) = zcpReply v rq 0x0103 0 0 [] := by
    rw [zcpRow_of_heard h (by decide), zRun_of_allowed (c := .w) rfl (by rw [hmode]; decide) (by rw [hmode]; rfl) hlong,
      if_neg (by simp [ZOp.code]), hexec, zFinish]
    dsimp only
    rw [hjournal, if_pos (.inl rfl)]
    exact flushOut_of_none ((congrArg (fun x => x.zcp.outbox) hreply :).trans (hvout.trans hout))
  rw [hrow, hreply, Replied, ← hspi]
  exact ⟨rfl, rfl, rfl⟩

/-- An IMG_WRITE of this system from a station without a role, within its region, lands. -/
theorem zImgWrite_of_noRole {s : State} {w : ImgWrite} (hid : w.sysId = getF s SYS_STATION.SYSTEM_ID) (hstn : w.srcStn < 256)
    (hvalid : isSet s (SYS_DIR_CTRL.VALID w.srcStn) = true) (hrole : getF s (SYS_DIR_CTRL.ROLE w.srcStn) = 0) (hlen : 1 ≤ w.len)
    (hlen' : w.len ≤ 256) (hlim : w.daddr + w.len ≤ if w.isWord then 0x4000 else 0x10000) :
    zImgWrite s w = (.done 0 [], imgLand s w) := by
  have hmod : w.srcStn % 256 = w.srcStn := Nat.mod_eq_of_lt hstn
  unfold zImgWrite
  dsimp only
  rw [hmod, hvalid, if_neg ?_, if_pos hrole]
  rintro (hne | hfalse | hshort | hlong | hover)
  · exact hne hid
  · cases hfalse
  · omega
  · omega
  · omega

/-- The words of an IMG_WRITE land at their addresses. -/
theorem imgLand_words {s : State} {w : ImgWrite} (hlen : w.words.length = w.len) (hword : w.isWord = true) (hwr : s.sp.written = []) :
    WordsWritten s (imgLand s w) ∧ ∀ a, rawWord (imgLand s w) a = if w.daddr ≤ a ∧ a < w.daddr + w.len then
      outsideWord (nth TWord.empty w.words (a - w.daddr)).tag.toNat (nth TWord.empty w.words (a - w.daddr)).val else rawWord s a := by
  have htake : w.words.take w.len = w.words := List.take_of_length_le hlen.le
  rw [imgLand, if_pos hword, htake, ← hlen]
  exact read_foldl_zipIdx (I := WordsWritten s) (read := rawWord) (val := fun x : TWord => outsideWord x.tag.toNat x.val) TWord.empty
    (fun t p ht => ht.writeWord _ _) w.words 0 s (wordsWritten_refl hwr)

/-- The bits of an IMG_WRITE land at their addresses. -/
theorem imgLand_bits {s : State} {w : ImgWrite} (hlen : w.bits.length = w.len) (hbit : w.isWord = false) (hwr : s.sp.written = [])
    (hu : s.sp.upsets = []) : BitsWritten s (imgLand s w) ∧ ∀ a, sget false (imgLand s w).sp.bits a =
      if w.daddr ≤ a ∧ a < w.daddr + w.len then nth false w.bits (a - w.daddr) else sget false s.sp.bits a := by
  have htake : w.bits.take w.len = w.bits := List.take_of_length_le hlen.le
  rw [imgLand, hbit, if_neg (by decide), htake, ← hlen]
  exact read_foldl_zipIdx (I := BitsWritten s) (read := fun t => sget false t.sp.bits) (val := id) false
    (fun t p ht => ht.writeBit _ _) w.bits 0 s (bitsWritten_refl hwr hu)

theorem completes_zcpImgWrite_words {s : State} {rq : ZReq} {i : Nat} {w : ImgWrite} (h : Heard s .stop rq i)
    (hid : w.sysId = getF s SYS_STATION.SYSTEM_ID) (hstn : w.srcStn < 256) (hvalid : isSet s (SYS_DIR_CTRL.VALID w.srcStn) = true)
    (hrole : getF s (SYS_DIR_CTRL.ROLE w.srcStn) = 0) (hlo : 1 ≤ w.len) (hhi : w.len ≤ 256) (hlen : w.words.length = w.len)
    (hword : w.isWord = true) (hwr : s.sp.written = []) (hlim : w.daddr + w.len ≤ 0x4000) :
    Completes (.zcpImgWrite rq w) s fun t => Replied s rq 0x0103 0 [] t ∧ t.regs = s.regs ∧ t.sp.bits = s.sp.bits ∧
      ∀ a, rawWord t a = if w.daddr ≤ a ∧ a < w.daddr + w.len then
        outsideWord (nth TWord.empty w.words (a - w.daddr)).tag.toNat (nth TWord.empty w.words (a - w.daddr)).val else rawWord s a := by
  have hx := zImgWrite_of_noRole (s := noted s rq i) hid hstn hvalid hrole hlo hhi (by simpa [hword] using hlim)
  obtain ⟨hland, hread⟩ := imgLand_words (s := noted s rq i) hlen hword hwr
  obtain ⟨hreply, hregs, hsp⟩ := zcpRow_imgWrite h hx (by rw [hland.rest]; exact ⟨rfl, rfl, rfl⟩)
  refine ⟨_, rfl, hreply, hregs.trans (by rw [hland.rest]; rfl), by rw [hsp, hland.bits]; rfl, fun a => ?_⟩
  exact (congrArg (fun x : SpaceSt => sget TWord.empty x.words a) hsp).trans (hread a)

theorem completes_zcpImgWrite_bits {s : State} {rq : ZReq} {i : Nat} {w : ImgWrite} (h : Heard s .stop rq i)
    (hid : w.sysId = getF s SYS_STATION.SYSTEM_ID) (hstn : w.srcStn < 256) (hvalid : isSet s (SYS_DIR_CTRL.VALID w.srcStn) = true)
    (hrole : getF s (SYS_DIR_CTRL.ROLE w.srcStn) = 0) (hlo : 1 ≤ w.len) (hhi : w.len ≤ 256) (hlen : w.bits.length = w.len)
    (hbit : w.isWord = false) (hwr : s.sp.written = []) (hu : s.sp.upsets = []) (hlim : w.daddr + w.len ≤ 0x10000) :
    Completes (.zcpImgWrite rq w) s fun t => Replied s rq 0x0103 0 [] t ∧ t.regs = s.regs ∧ t.sp.words = s.sp.words ∧
      ∀ a, sget false t.sp.bits a =
        if w.daddr ≤ a ∧ a < w.daddr + w.len then nth false w.bits (a - w.daddr) else sget false s.sp.bits a := by
  have hx := zImgWrite_of_noRole (s := noted s rq i) hid hstn hvalid hrole hlo hhi (by simpa [hbit] using hlim)
  obtain ⟨hland, hread⟩ := imgLand_bits (s := noted s rq i) hlen hbit hwr hu
  obtain ⟨hreply, hregs, hsp⟩ := zcpRow_imgWrite h hx (by rw [hland.rest]; exact ⟨rfl, rfl, rfl⟩)
  refine ⟨_, rfl, hreply, hregs.trans (by rw [hland.rest]; rfl), by rw [hsp, hland.words]; rfl, fun a => ?_⟩
  exact (congrArg (fun x : SpaceSt => sget false x.bits a) hsp).trans (hread a)

end Sys2Proof.Machine
end

section
/-! SUPPORT. The direct loading of the banks and of the decode table over the host port (R208, R210, R211, R518). -/

namespace Sys2Proof.Machine

open Reg

/-! ## Words written into a bank (R210, R264) -/

theorem bankOf_bankPut_same (s : State) {b : Nat} (hb : b < 2) (k : Nat) (w : Word) (j : Nat) :
    sget 0 (bankOf (bankPut s b k w) b) j = if k = j then w else sget 0 (bankOf s b) j := by
  obtain rfl | rfl : b = 0 ∨ b = 1 := by omega
  · exact sget_sset ..
  · exact sget_sset ..

theorem bankOf_bankPut_other (s : State) {b : Nat} (hb : b < 2) (k : Nat) (w : Word) :
    bankOf (bankPut s b k w) (1 - b) = bankOf s (1 - b) := by
  obtain rfl | rfl : b = 0 ∨ b = 1 := by omega
  · rfl
  · rfl

theorem bankPut_frame (s : State) (b k : Nat) (w : Word) : (bankPut s b k w).zcp = s.zcp ∧ (bankPut s b k w).nv = s.nv ∧
    SameRegs [EDT_STAT.KEEP_OK] s (bankPut s b k w) := by
  have hregs : SameRegs [EDT_STAT.KEEP_OK] s (setF (eccClear s (if b = 0 then .bankA else .bankB) k) EDT_STAT.KEEP_OK 0) :=
    (onlyRegs_setF (eccClear s (if b = 0 then .bankA else .bankB) k) EDT_STAT.KEEP_OK 0).1
  unfold bankPut
  dsimp only
  split
  · exact ⟨rfl, rfl, hregs⟩
  · exact ⟨rfl, rfl, hregs⟩

theorem bankPuts_frame (s : State) (b k : Nat) (ws : List Word) : (bankPuts s b k ws).zcp = s.zcp ∧
    (bankPuts s b k ws).nv = s.nv ∧ SameRegs [EDT_STAT.KEEP_OK] s (bankPuts s b k ws) := by
  induction ws generalizing s k with
  | nil => exact ⟨rfl, rfl, sameRegs_refl _ _⟩
  | cons w ws ih =>
    obtain ⟨hz, hnv, hregs⟩ := bankPut_frame s b k w
    obtain ⟨hz', hnv', hregs'⟩ := ih (bankPut s b k w) (k + 1)
    exact ⟨hz'.trans hz, hnv'.trans hnv, (hregs.append hregs').mono (by simp)⟩

/-- Words written from a key on: the keys of the run read them in order, all others and the other bank as before. -/
theorem bankPuts_read (s : State) {b : Nat} (hb : b < 2) (k : Nat) (ws : List Word) :
    (∀ j, j < ws.length → sget 0 (bankOf (bankPuts s b k ws) b) (k + j) = nth 0 ws j) ∧
    (∀ j, j < k ∨ k + ws.length ≤ j → sget 0 (bankOf (bankPuts s b k ws) b) j = sget 0 (bankOf s b) j) ∧
    bankOf (bankPuts s b k ws) (1 - b) = bankOf s (1 - b) := by
  induction ws generalizing s k with
  | nil => exact ⟨fun j hj => absurd hj (Nat.not_lt_zero j), fun _ _ => rfl, rfl⟩
  | cons w ws ih =>
    obtain ⟨hin, hout, hother⟩ := ih (bankPut s b k w) (k + 1)
    refine ⟨fun j hj => ?_, fun j hj => ?_, hother.trans (bankOf_bankPut_other s hb k w)⟩
    · cases j with
      | zero => rw [bankPuts, hout _ (.inl (by omega)), bankOf_bankPut_same s hb, if_pos (Nat.add_zero k).symm]; rfl
      | succ j =>
        rw [bankPuts, show k + (j + 1) = k + 1 + j by omega, hin j (by simpa using hj)]
        rfl
    · rw [List.length_cons] at hj
      rw [bankPuts, hout j (by omega), bankOf_bankPut_same s hb, if_neg (by omega)]

/-- Eight words are one bundle. -/
theorem bundles_of_eight {ws : List Word} (h : ws.length = 8) : bundles ws = [ws.map (·.toNat)] := by
  match ws, h with
  | [_, _, _, _, _, _, _, _], _ => rfl

/-! ## LOAD_BANK_OPEN, LOAD_BANK_DATA, LOAD_BANK_CLOSE (R210, R518) -/

/-- The identity registers of a bank: version and CRC. -/
def pidVer (b : Nat) : Fld := if b = 0 then CORE_PIDA_VER.VER else CORE_PIDB_VER.VER
@[inherit_doc pidVer] def pidCrc (b : Nat) : Fld := if b = 0 then CORE_PIDA_CRC.CRC else CORE_PIDB_CRC.CRC

/-- A bank takes an identity, and UNDO is over. -/
def bankIdentified (s : State) (b ver crc : Nat) : State := setF (setPid s b ver crc) TXN_STAT.UNDO_OK 0

theorem bankIdentified_spec (s : State) {b : Nat} (hb : b < 2) (ver crc : Nat) :
    OnlyRegs [CORE_PIDA_VER.VER, CORE_PIDA_CRC.CRC, CORE_PIDB_VER.VER, CORE_PIDB_CRC.CRC, TXN_STAT.UNDO_OK] s
      (bankIdentified s b ver crc) ∧
    getF (bankIdentified s b ver crc) (pidVer b) = ver % 65536 ∧ getF (bankIdentified s b ver crc) (pidCrc b) = crc % 2 ^ 32 ∧
    getF (bankIdentified s b ver crc) TXN_STAT.UNDO_OK = 0 := by
  obtain rfl | rfl : b = 0 ∨ b = 1 := by omega
  · have hv : bankIdentified s 0 ver crc =
        setFs s [(CORE_PIDA_VER.VER, ver), (CORE_PIDA_CRC.CRC, crc), (TXN_STAT.UNDO_OK, 0)] := rfl
    rw [hv]
    refine ⟨(onlyRegs_setFs s _).mono (by simp), getF_setFs_cons_of_ne s ?_, getF_setFs_cons_of_ne _ ?_, getF_setF_self ..⟩
    · simp only [List.forall_mem_cons]
      decide
    · decide
  · have hv : bankIdentified s 1 ver crc =
        setFs s [(CORE_PIDB_VER.VER, ver), (CORE_PIDB_CRC.CRC, crc), (TXN_STAT.UNDO_OK, 0)] := rfl
    rw [hv]
    refine ⟨(onlyRegs_setFs s _).mono (by simp), getF_setFs_cons_of_ne s ?_, getF_setFs_cons_of_ne _ ?_, getF_setF_self ..⟩
    · simp only [List.forall_mem_cons]
      decide
    · decide

theorem pid_not_journal (b : Nat) : (pidVer b).key ∉ [ZCP_JSEQ.SEQ, ZCP_JLOST.CNT].map Fld.key ∧
    (pidCrc b).key ∉ [ZCP_JSEQ.SEQ, ZCP_JLOST.CNT].map Fld.key := by
  unfold pidVer pidCrc
  split
  · decide
  · decide

theorem completes_zcpLoadBankOpen {s : State} {rq : ZReq} {i b : Nat} (h : Heard s .stop rq i) (ver crc : Nat)
    (htxn : (isSet s TXN_STAT.STATE && s.txn.bank) = false) (hb : b < 2) (hload : s.zcp.bankLoad = none) :
    Completes (.zcpLoadBankOpen rq b ver crc) s fun t =>
      DoneWith s rq 0x0300 [] [CORE_PIDA_VER.VER, CORE_PIDA_CRC.CRC, CORE_PIDB_VER.VER, CORE_PIDB_CRC.CRC, TXN_STAT.UNDO_OK] t ∧
      t.zcp.bankLoad = some b ∧ getF t (pidVer b) = ver % 65536 ∧ getF t (pidCrc b) = crc % 2 ^ 32 ∧ getF t TXN_STAT.UNDO_OK = 0 := by
  obtain ⟨u, hu⟩ : ∃ u : State, u = { noted s rq i with zcp := { (noted s rq i).zcp with bankLoad := some b } } := ⟨_, rfl⟩
  have hx : zExec (noted s rq i) rq (.loadBankOpen b ver crc) = (.done 0 [], bankIdentified u b ver crc) := by
    have hload' : (noted s rq i).zcp.bankLoad = none := hload
    have htxn' : bankInTxn (noted s rq i) = false := htxn
    rw [zExec, zLoadBankOpen, hload', htxn', if_neg (by simp; omega), if_neg (by decide), hu]
    rfl
  obtain ⟨⟨hregs, hrest⟩, hver, hcrc, hundo⟩ := bankIdentified_spec u hb ver crc
  generalize bankIdentified u b ver crc = v at *
  have hk : KeepsQueues s v := by rw [hrest, hu]; exact ⟨rfl, rfl, rfl⟩
  have hans := answered_of_done h (.inr rfl) (by simp [ZOp.code]) rfl hx hk
  have hsame : SameRegs [] s u := sameRegs_of_regs (by rw [hu]; rfl) _
  obtain ⟨hkver, hkcrc⟩ := pid_not_journal b
  refine ⟨_, rfl, hans.doneWith hk (hsame.append hregs), ?_, (hans.regs _ hkver).trans hver, (hans.regs _ hkcrc).trans hcrc,
    (hans.regs _ (by decide)).trans hundo⟩
  rw [hans.rest, hrest, hu]

theorem completes_zcpLoadBankData {s : State} {rq : ZReq} {i b k : Nat} {ws : List Word} (h : Heard s .stop rq i)
    (htxn : (isSet s TXN_STAT.STATE && s.txn.bank) = false) (hload : s.zcp.bankLoad = some b) (hb : b < 2) (hlen : ws.length = 8)
    (hk : k < 65536) (hlegal : bundleIllegal (ws.map (·.toNat)) = false) (hid : idZero s b = false) :
    Completes (.zcpLoadBankData rq k ws) s fun t => DoneWith s rq 0x0301 [] [EDT_STAT.KEEP_OK, TXN_STAT.UNDO_OK] t ∧
      (∀ j, j < 8 → sget 0 (bankOf t b) (8 * k + j) = nth 0 ws j) ∧
      (∀ j, j < 8 * k ∨ 8 * k + 8 ≤ j → sget 0 (bankOf t b) j = sget 0 (bankOf s b) j) ∧ bankOf t (1 - b) = bankOf s (1 - b) := by
  obtain ⟨u, hu⟩ : ∃ u, u = bankPuts (noted s rq i) b (8 * k) ws := ⟨_, rfl⟩
  have hx : zExec (noted s rq i) rq (.loadBankData k ws) =
      (.done 0 [], setFs u [(EDT_STAT.KEEP_OK, 0), (TXN_STAT.UNDO_OK, 0)]) := by
    have hload' : (noted s rq i).zcp.bankLoad = some b := hload
    have htxn' : bankInTxn (noted s rq i) = false := htxn
    have hid' : idZero (noted s rq i) b = false := hid
    have hbundles : ((bundles ws).any fun x => bundleIllegal x || (idZero (noted s rq i) b && bundleMac x)) = false := by
      rw [bundles_of_eight hlen, List.any_cons, hlegal, hid']
      rfl
    rw [zExec, zLoadBankData, hload']
    dsimp only
    rw [hlen, hbundles, htxn', if_neg (by simp; omega), if_neg (by decide), hu]
  obtain ⟨hz, hnv, hputs⟩ := bankPuts_frame (noted s rq i) b (8 * k) ws
  obtain ⟨hin, hout, hother⟩ := bankPuts_read (noted s rq i) hb (8 * k) ws
  obtain ⟨hregs, hrest⟩ := onlyRegs_setFs u [(EDT_STAT.KEEP_OK, 0), (TXN_STAT.UNDO_OK, 0)]
  rw [← hu] at hz hnv hputs hin hout hother
  generalize setFs u [(EDT_STAT.KEEP_OK, 0), (TXN_STAT.UNDO_OK, 0)] = v at *
  have hq : KeepsQueues s v := by rw [hrest, KeepsQueues, hz, hnv]; exact ⟨rfl, rfl, rfl⟩
  have hans := answered_of_done h (.inr rfl) (by simp [ZOp.code]) rfl hx hq
  have hbank (c : Nat) : bankOf (zcpRow s rq (.loadBankData k ws)) c = bankOf u c := by rw [hans.rest, hrest]; rfl
  rw [hlen] at hin hout
  have hsame : SameRegs [EDT_STAT.KEEP_OK] s u := fun f hf => (hputs f hf).trans rfl
  refine ⟨_, rfl, hans.doneWith hq ((hsame.append hregs).mono (by simp)), ?_⟩
  rw [hbank, hbank]
  exact ⟨hin, hout, hother⟩

theorem completes_zcpLoadBankClose {s : State} {rq : ZReq} {i b : Nat} (h : Heard s .stop rq i)
    (htxn : (isSet s TXN_STAT.STATE && s.txn.bank) = false) (hload : s.zcp.bankLoad = some b) (hb : b < 2) :
    Completes (.zcpLoadBankClose rq 1) s fun t => DoneWith s rq 0x0302 [] [CORE_BANK.ACTIVE, TXN_STAT.UNDO_OK] t ∧
      t.zcp.bankLoad = none ∧ getF t CORE_BANK.ACTIVE = b := by
  obtain ⟨u, hu⟩ : ∃ u : State, u = { noted s rq i with zcp := { (noted s rq i).zcp with bankLoad := none } } := ⟨_, rfl⟩
  have hx : zExec (noted s rq i) rq (.loadBankClose 1) = (.done 0 [], setFs u [(CORE_BANK.ACTIVE, b), (TXN_STAT.UNDO_OK, 0)]) := by
    have hload' : (noted s rq i).zcp.bankLoad = some b := hload
    have htxn' : bankInTxn (noted s rq i) = false := htxn
    rw [zExec, zLoadBankClose, hload']
    dsimp only
    rw [htxn', if_neg (by decide), if_neg (by decide), if_pos rfl, hu]
  obtain ⟨hregs, hrest⟩ := onlyRegs_setFs u [(CORE_BANK.ACTIVE, b), (TXN_STAT.UNDO_OK, 0)]
  have hactive : getF (setFs u [(CORE_BANK.ACTIVE, b), (TXN_STAT.UNDO_OK, 0)]) CORE_BANK.ACTIVE = b :=
    (getF_setFs_cons_of_ne u (by decide)).trans (Nat.mod_eq_of_lt hb)
  generalize setFs u [(CORE_BANK.ACTIVE, b), (TXN_STAT.UNDO_OK, 0)] = v at *
  have hk : KeepsQueues s v := by rw [hrest, hu]; exact ⟨rfl, rfl, rfl⟩
  have hans := answered_of_done h (.inr rfl) (by simp [ZOp.code]) rfl hx hk
  have hsame : SameRegs [] s u := sameRegs_of_regs (by rw [hu]; rfl) _
  refine ⟨_, rfl, hans.doneWith hk ((hsame.append hregs).mono (by simp)), ?_, (hans.regs _ (by decide)).trans hactive⟩
  rw [hans.rest, hrest, hu]

/-! ## LOAD_DT_DATA, LOAD_DT_CLOSE (R208, R210, R211) -/

/-- Words collected in the load buffer: the keys of the run read them in order, all others as before. -/
theorem sget_foldl_sset (m : List (Nat × Nat)) (a : Nat) (ws : List Word) (k : Nat) :
    sget 0 (ws.zipIdx.foldl (fun m p => sset 0 m (a + p.2) p.1.toNat) m) k =
      if a ≤ k ∧ k < a + ws.length then (nth 0 ws (k - a)).toNat else sget 0 m k :=
  (read_foldl_zipIdx (I := fun _ => True) (read := sget 0) (op := fun m p => sset 0 m (a + p.2) p.1.toNat) (val := BitVec.toNat) 0
    (fun _ _ _ => ⟨trivial, fun _ => sget_sset ..⟩) ws 0 m trivial).2 k

theorem completes_zcpLoadDtData {s : State} {rq : ZReq} {i e : Nat} {ws : List Word} (h : Heard s .stop rq i) (he : e < 64)
    (hlen : ws.length = 36) :
    Completes (.zcpLoadDtData rq e ws) s fun t => DoneWith s rq 0x0303 [] [] t ∧ t.zcp.dtFresh = false ∧
      ∀ k, sget 0 t.zcp.dtLoad k = if 36 * e ≤ k ∧ k < 36 * e + 36 then (nth 0 ws (k - 36 * e)).toNat
        else if s.zcp.dtFresh then 0 else sget 0 s.zcp.dtLoad k := by
  obtain ⟨m, hm⟩ : ∃ m, m = ws.zipIdx.foldl (fun m p => sset 0 m (36 * e + p.2) p.1.toNat)
    (if s.zcp.dtFresh then [] else s.zcp.dtLoad) := ⟨_, rfl⟩
  obtain ⟨v, hv⟩ : ∃ v : State, v = { noted s rq i with zcp := { (noted s rq i).zcp with dtFresh := false, dtLoad := m } } := ⟨_, rfl⟩
  have hx : zExec (noted s rq i) rq (.loadDtData e ws) = (.done 0 [], v) := by
    rw [zExec, zLoadDtData, hlen, hv, hm]
    dsimp only
    rw [if_neg (by omega)]
    rfl
  have hk : KeepsQueues s v := by rw [hv]; exact ⟨rfl, rfl, rfl⟩
  have hans := answered_of_done h (.inr rfl) (by simp [ZOp.code]) rfl hx hk
  refine ⟨_, rfl, hans.doneWith hk (sameRegs_of_regs (by rw [hv]; rfl) _), by rw [hans.rest, hv], fun k => ?_⟩
  have hload : (zcpRow s rq (.loadDtData e ws)).zcp.dtLoad = m := by rw [hans.rest, hv]
  have hold : sget 0 (if s.zcp.dtFresh then [] else s.zcp.dtLoad) k = if s.zcp.dtFresh then 0 else sget 0 s.zcp.dtLoad k := by
    split
    · rfl
    · rfl
  rw [hload, hm, sget_foldl_sset, hlen, hold]

/-- A table put in force: its version and its CRC stand in their registers, and UNDO is over. -/
theorem tableActive_setFs (s : State) {ver : Nat} (hver : ver < 65536) :
    let v := tableActive (setFs s [(CORE_DTVER.VERSION, ver), (TXN_STAT.UNDO_OK, 0)])
    getF v CORE_DTVER.VERSION = ver ∧ getF v TXN_STAT.UNDO_OK = 0 ∧ v = { s with regs := v.regs } := by
  obtain ⟨-, hrest⟩ := onlyRegs_setFs s [(CORE_DTVER.VERSION, ver), (TXN_STAT.UNDO_OK, 0)]
  have hversion : getF (setFs s [(CORE_DTVER.VERSION, ver), (TXN_STAT.UNDO_OK, 0)]) CORE_DTVER.VERSION = ver :=
    (getF_setFs_cons_of_ne s (by decide)).trans (Nat.mod_eq_of_lt hver)
  have hundo : getF (setFs s [(CORE_DTVER.VERSION, ver), (TXN_STAT.UNDO_OK, 0)]) TXN_STAT.UNDO_OK = 0 := getF_setF_self ..
  generalize setFs s [(CORE_DTVER.VERSION, ver), (TXN_STAT.UNDO_OK, 0)] = u at *
  obtain ⟨hactive, hrest'⟩ := onlyRegs_setF u CORE_DTCRC.CRC (tableCrc (dtWord u) (getF u CORE_DTVER.VERSION))
  refine ⟨(hactive _ (by decide)).trans hversion, (hactive _ (by decide)).trans hundo, hrest'.trans ?_⟩
  rw [hrest]
  rfl

theorem completes_zcpLoadDtClose {s : State} {rq : ZReq} {i ver : Nat} (h : Heard s .stop rq i) (hver : ver < 65536)
    (htxn : isSet s TXN_STAT.STATE = false) (hok : tableOk (fun n w => sget 0 s.zcp.dtLoad (36 * n + w)) ver = true) :
    Completes (.zcpLoadDtClose rq ver) s fun t => Replied s rq 0x0304 0 (beBytes 4 (getF t CORE_DTCRC.CRC)) t ∧
      Journaled rq 0x0304 0 t ∧ getF t CORE_DTVER.VERSION = ver ∧ t.zcp.dtFresh = true ∧ getF t TXN_STAT.UNDO_OK = 0 := by
  obtain ⟨u, hu⟩ : ∃ u : State, u = { noted s rq i with zcp := { (noted s rq i).zcp with dtFresh := true } } := ⟨_, rfl⟩
  obtain ⟨hversion, hundo, hrest⟩ := tableActive_setFs (putTable u) hver
  have hx : zExec (noted s rq i) rq (.loadDtClose ver) =
      (.done 0 (beBytes 4 (getF (tableActive (setFs (putTable u) [(CORE_DTVER.VERSION, ver), (TXN_STAT.UNDO_OK, 0)])) CORE_DTCRC.CRC)),
        tableActive (setFs (putTable u) [(CORE_DTVER.VERSION, ver), (TXN_STAT.UNDO_OK, 0)])) := by
    have htxn' : isSet (noted s rq i) TXN_STAT.STATE = false := htxn
    have hok' : tableOk (fun n w => sget 0 (noted s rq i).zcp.dtLoad (36 * n + w)) ver = true := hok
    unfold zExec zLoadDtClose
    dsimp only
    rw [htxn', hok', if_neg (by simp), if_neg (by simp; omega), hu]
  generalize tableActive (setFs (putTable u) [(CORE_DTVER.VERSION, ver), (TXN_STAT.UNDO_OK, 0)]) = v at *
  have hk : KeepsQueues s v := by rw [hrest, hu]; exact ⟨rfl, rfl, rfl⟩
  have hans := answered_of_done h (.inr rfl) (by simp [ZOp.code]) rfl hx hk
  obtain ⟨hspi, -, -⟩ := hk
  refine ⟨_, rfl, ?_, hans.journaled, (hans.regs _ (by decide)).trans hversion, ?_, (hans.regs _ (by decide)).trans hundo⟩
  · rw [hans.regs CORE_DTCRC.CRC (by decide), Replied, ← hspi]
    exact hans.spi
  · rw [hans.rest, hrest, hu]
    rfl

end Sys2Proof.Machine

open Sys2Proof Sys2Proof.Machine

/-- Settles O54: each clause is the lemma of its command; that a command is heard, journaled and answered is said once, of `zcpRow`,
and that a run of writes at rising addresses puts its values there and nowhere else is said once, of the fold. -/
theorem zcpWritesAndLoads : Obligations.ZcpWritesAndLoads := by
  intro s rq i h
  refine ⟨fun a w v ha hlo hhi hj hw hv => completes_zcpWriteReg h ha hlo hhi hj hw hv,
    fun w bs hlo hhi hb hd ht hs _ hwr => completes_zcpWriteMem h hlo hhi hb hd ht hs hwr,
    fun n m hn hm hd hz hf => completes_zcpBusCancel h hn hm hd hz hf,
    fun w hid hstn hvalid hrole hlo hhi hlen hword hwr hlim =>
      completes_zcpImgWrite_words h hid hstn hvalid hrole hlo hhi hlen hword hwr hlim,
    fun w hid hstn hvalid hrole hlo hhi hlen hbit hwr hu hlim =>
      completes_zcpImgWrite_bits h hid hstn hvalid hrole hlo hhi hlen hbit hwr hu hlim,
    fun htxn => ⟨fun b ver crc hb hload => completes_zcpLoadBankOpen h ver crc htxn hb hload, fun b k ws hload hb hlen hk hlegal hid =>
      completes_zcpLoadBankData h htxn hload hb hlen hk hlegal hid, fun b hload hb => completes_zcpLoadBankClose h htxn hload hb⟩,
    fun e ws he hlen => completes_zcpLoadDtData h he hlen,
    fun ver hver htxn hok => completes_zcpLoadDtClose h hver htxn hok⟩
end

section
/-! SUPPORT. The triggers of a task (R75, R214, R217, R218, R225, R226): what falls as one, what a skip counts, and what becomes of the
task. -/

namespace Sys2Proof.Machine

open Reg

/-! ## One task of the scheduler -/

theorem nth_upd_ne {α : Type} (d : α) (l : List α) {i j : Nat} (h : i ≠ j) (f : α → α) : nth d (upd l i f) j = nth d l j := by
  simp [nth, upd, h]

theorem upd_of_length_le {α : Type} {l : List α} {i : Nat} (h : l.length ≤ i) (f : α → α) : upd l i f = l :=
  List.modify_eq_self h

theorem task_updTask_self {s : State} {t : Nat} (h : t < s.scan.tasks.length) (f : TaskSt → TaskSt) :
    task (updTask s t f) t = f (task s t) := nth_upd_self _ h f

theorem task_updTask_ne (s : State) {t j : Nat} (h : j ≠ t) (f : TaskSt → TaskSt) : task (updTask s t f) j = task s j :=
  nth_upd_ne _ _ (Ne.symm h) f

theorem lt_length_of_task_ne {s : State} {t : Nat} (h : task s t ≠ TaskSt.init) : t < s.scan.tasks.length := by
  by_contra hlen
  exact h (by simp [task, nth, List.getElem?_eq_none (Nat.le_of_not_lt hlen)])

/-! ## A trigger is counted as SKIP (R75, R225, R226) -/

theorem trcScan_eq (s : State) (t evt : Nat) : ∃ trc, trcScan s t evt = { s with trc := trc } := by
  unfold trcScan trcPacket trcQueue
  split
  · split <;> exact ⟨_, rfl⟩
  · exact ⟨_, rfl⟩

/-- The SKIP count of each task has its own overflow flag. -/
theorem skip_keys (t j : Nat) : (SCN_TSTAT.SKIP_OVF t).key ≠ (SCN_CNT.SKIP j).key ∧
    (SCN_TSTAT.OVERRUN j).key ≠ (SCN_CNT.SKIP t).key ∧ (SCN_TSTAT.OVERRUN j).key ≠ (SCN_TSTAT.SKIP_OVF t).key ∧
    (j ≠ t → (SCN_CNT.SKIP j).key ≠ (SCN_CNT.SKIP t).key) := by
  simp only [Fld.key, SCN_TSTAT.SKIP_OVF, SCN_CNT.SKIP, SCN_TSTAT.OVERRUN]
  omega

/-- From the one state to the other, n triggers of a task are counted as SKIP; beside SKIP, its overflow flag and the trace nothing
changes. -/
structure Skips (t n : Nat) (s u : State) : Prop where
  count : getF s (SCN_CNT.SKIP t) < 2 ^ (SCN_CNT.SKIP t).w →
    getF u (SCN_CNT.SKIP t) = min (getF s (SCN_CNT.SKIP t) + n) (2 ^ (SCN_CNT.SKIP t).w - 1)
  regs : SameRegs [SCN_CNT.SKIP t, SCN_TSTAT.SKIP_OVF t] s u
  rest : ∃ trc, u = { s with regs := u.regs, trc := trc }

section
variable {t n m : Nat} {s u v : State}

theorem skips_refl (t : Nat) (s : State) : Skips t 0 s s := ⟨fun h => by omega, sameRegs_refl _ s, s.trc, rfl⟩

theorem Skips.trans (h : Skips t n s u) (h' : Skips t m u v) : Skips t (n + m) s v := by
  refine ⟨fun hw => ?_, (h.regs.append h'.regs).mono (by simp), ?_⟩
  · have hu := h.count hw
    rw [h'.count (by omega), hu]
    omega
  · obtain ⟨trc, hu⟩ := h.rest
    obtain ⟨trc', hv⟩ := h'.rest
    exact ⟨trc', by rw [hv, hu]⟩

theorem getF_countSkip_self (s : State) (t : Nat) : getF (countSkip s t) (SCN_CNT.SKIP t) =
    if getF s (SCN_CNT.SKIP t) + 1 < 2 ^ (SCN_CNT.SKIP t).w then getF s (SCN_CNT.SKIP t) + 1 else getF s (SCN_CNT.SKIP t) := by
  obtain ⟨trc, htrc⟩ := trcScan_eq (incSat s (SCN_CNT.SKIP t) (SCN_TSTAT.SKIP_OVF t)) t 5
  rw [countSkip, htrc]
  exact getF_incSat_self s (skip_keys t t).1

theorem skips_countSkip (s : State) (t : Nat) : Skips t 1 s (countSkip s t) := by
  have hcount := getF_countSkip_self s t
  obtain ⟨hregs, hform⟩ := onlyRegs_incSat s (SCN_CNT.SKIP t) (SCN_TSTAT.SKIP_OVF t)
  obtain ⟨trc, htrc⟩ := trcScan_eq (incSat s (SCN_CNT.SKIP t) (SCN_TSTAT.SKIP_OVF t)) t 5
  refine ⟨fun hw => ?_, ?_, trc, ?_⟩
  · rw [hcount]
    split <;> omega
  · rw [countSkip, htrc]
    exact hregs
  · rw [countSkip, htrc, hform]

/-- Triggers of a task are counted one by one. -/
def skipTimes (s : State) (t n : Nat) : State := (List.range n).foldl (fun s _ => countSkip s t) s

theorem skips_skipTimes (s : State) (t n : Nat) : Skips t n s (skipTimes s t n) := by
  induction n with
  | zero => exact skips_refl t s
  | succ n ih =>
    rw [skipTimes, List.range_succ, List.foldl_append]
    exact ih.trans (skips_countSkip _ t)

theorem Skips.scan (h : Skips t n s u) : u.scan = s.scan := by
  obtain ⟨trc, hu⟩ := h.rest
  rw [hu]

theorem Skips.ms (h : Skips t n s u) : u.ms = s.ms := by
  obtain ⟨trc, hu⟩ := h.rest
  rw [hu]

theorem Skips.overrun (h : Skips t n s u) (j : Nat) : getF u (SCN_TSTAT.OVERRUN j) = getF s (SCN_TSTAT.OVERRUN j) :=
  h.regs _ (by simpa using (skip_keys t j).2.imp_right And.left)

theorem Skips.others (h : Skips t n s u) {j : Nat} (hj : j ≠ t) : getF u (SCN_CNT.SKIP j) = getF s (SCN_CNT.SKIP j) :=
  h.regs _ (by simpa using ⟨(skip_keys t j).2.2.2 hj, (skip_keys t j).1.symm⟩)

end

/-! ## What falls as a trigger (R217, R218) -/

/-- The later of a TAI and the last instant of a task that has fired: instants count from here. -/
def fromInstant (s : State) (t a : Nat) : Nat := max a ((task s t).lastInst.getD 0)

theorem instantsIn_to_zero (s : State) (t a : Nat) : instantsIn s t a 0 = 0 := by
  unfold instantsIn
  extract_lets unit p ph upTo
  have hle : upTo 0 ≤ upTo a := by
    simp only [upTo]
    split
    · exact Nat.zero_le _
    · rw [if_neg (by omega), Nat.zero_sub, Nat.zero_div]
      exact Nat.le_add_left 1 _
  split
  · rfl
  · omega

theorem armed_of_run {s : State} {t kind : Nat} (ht : t < 8) (hm : s.mode = .run ∨ s.mode = .runEdit)
    (hen : isSet s (SCN_TCFG.EN t) = true) (htrig : getF s (SCN_TCFG.TRIG t) = kind) : armed s t kind = true := by
  rcases hm with hm | hm <;> simp [armed, ht, hm, hen, htrig]

/-- What a trigger finds: its task may have noted an instant, a mark of the cycle may stand, and in a unit that streams the stream may
have been lost; the rest of the tasks, the mode's own state and the registers are those of the command's state. -/
structure Readied (t : Nat) (s u : State) : Prop where
  others : ∀ j, j ≠ t → task u j = task s j
  own : task u t = { task s t with lastInst := (task u t).lastInst }
  length : u.scan.tasks.length = s.scan.tasks.length
  ms : u.ms = s.ms
  regs : SameRegs [SBY_STAT.STREAM_LOST] s u

theorem readied_refl (t : Nat) (s : State) : Readied t s s :=
  ⟨fun _ _ => rfl, rfl, rfl, rfl, sameRegs_refl _ s⟩

theorem readied_noteInstant (s : State) (t b : Nat) : Readied t s (noteInstant s t b) := by
  refine ⟨fun j hj => task_updTask_ne s hj _, ?_, List.length_modify .., rfl, sameRegs_refl _ s⟩
  by_cases ht : t < s.scan.tasks.length
  · rw [noteInstant, task_updTask_self ht]
  · have hsame : task (noteInstant s t b) t = task s t := by
      rw [task, noteInstant, updTask, upd_of_length_le (by omega)]
      rfl
    rw [hsame]

theorem readied_addMark (t m : Nat) (s : State) : Readied t s (addMark s m) :=
  ⟨fun _ _ => rfl, rfl, rfl, rfl, sameRegs_refl _ s⟩

/-- The state after the watched bit of a task's edge has been read. -/
def edgeRead (s : State) (t : Nat) : State :=
  let a := getF s (SCN_EDGE.ADDR t)
  if 0x20000 ≤ a ∧ a < 0x40000 then (obtainBit s t a (rawBit s a)).2 else s

theorem streamEv_frame (s : State) (ev : StreamEv) : (streamEv s ev).scan = s.scan ∧ (streamEv s ev).ms = s.ms ∧
    SameRegs [SBY_STAT.STREAM_LOST] s (streamEv s ev) := by
  unfold streamEv
  dsimp only
  split
  · exact ⟨rfl, rfl, sameRegs_refl _ s⟩
  · split
    · refine List.foldlRecOn (motive := fun u : State => u.scan = s.scan ∧ u.ms = s.ms ∧ SameRegs [SBY_STAT.STREAM_LOST] s u) _ _
        ⟨rfl, rfl, sameRegs_refl _ s⟩ fun u hu p _ => ?_
      obtain ⟨hscan, hms, hregs⟩ := hu
      exact ⟨hscan, hms, hregs⟩
    · exact ⟨rfl, rfl, fun f hf => getF_setF_ne _ _ fun e => hf (by simp [e])⟩

theorem streamEv_of_not_streaming {s : State} (h : s.sby.streaming = false) (ev : StreamEv) : streamEv s ev = s := by
  simp [streamEv, h]

theorem readied_edgeRead (s : State) (t : Nat) : Readied t s (edgeRead s t) := by
  unfold edgeRead obtainBit
  extract_lets a k
  split
  · split
    · split <;> exact readied_refl t s
    · split
      · exact readied_refl t s
      next =>
        obtain ⟨hscan, hms, hregs⟩ := streamEv_frame s (.ext t 0 a (boolW (rawBit s a)))
        have htask (j : Nat) : task (streamEv s (.ext t 0 a (boolW (rawBit s a)))) j = task s j := by rw [task, hscan]; rfl
        refine ⟨fun j _ => htask j, ?_, congrArg (·.tasks.length) hscan, hms, hregs⟩
        exact (htask t).trans (by rw [← htask t]; rfl)
  · exact readied_refl t s

/-- A period trigger falls with the instants up to a TAI: all but one are skipped. -/
def periodFalls (s : State) (t b n : Nat) (late : Bool) : State :=
  let u := skipTimes (noteInstant s t (instantBefore s t b)) t (n - 1)
  acceptTrigger u t (trigNow u 0 late)

/-- Instants count from the last one that has fired, when there is one. -/
theorem fromInstant_eq (s : State) (t : Nat) :
    (fun a => match (task s t).lastInst with | some l => max a l | none => a) = fromInstant s t := by
  funext a
  rw [fromInstant]
  cases (task s t).lastInst with
  | none => exact (Nat.max_zero a).symm
  | some l => rfl

section
variable {s : State} {t : Nat} (ht : t < 8) (hm : s.mode = .run ∨ s.mode = .runEdit) (hen : isSet s (SCN_TCFG.EN t) = true)
include ht hm hen

/-- A period instant is reached by the end of this cycle. -/
theorem exec_triggerPeriod_of_reached (htrig : getF s (SCN_TCFG.TRIG t) = 0) (hstep : justStepped s = none)
    (hinst : 0 < instantsIn s t (fromInstant s t s.time.tai) (clockAdvance s).time.tai) :
    exec (.triggerPeriod t) s = .next (periodFalls s t (clockAdvance s).time.tai 1 false) := by
  have hexec : exec (.triggerPeriod t) s = execTriggerPeriod t s := rfl
  rw [hexec, execTriggerPeriod, armed_of_run ht hm hen htrig, if_neg (by simp)]
  extract_lets from' fall next
  have hfrom : from' = fromInstant s t := fromInstant_eq s t
  rw [hstep, hfrom]
  dsimp only [Option.getD_none]
  rw [instantsIn_to_zero, if_neg (Nat.lt_irrefl 0), if_pos hinst]
  rfl

/-- A forward step of the clock has passed instants, which come before that of the present cycle (R218). -/
theorem exec_triggerPeriod_of_step (htrig : getF s (SCN_TCFG.TRIG t) = 0) {a b : Nat} (hstep : justStepped s = some (a, b))
    (hinst : 0 < instantsIn s t (fromInstant s t a) b) :
    exec (.triggerPeriod t) s = .next (periodFalls s t b (instantsIn s t (fromInstant s t a) b) true) := by
  have hexec : exec (.triggerPeriod t) s = execTriggerPeriod t s := rfl
  rw [hexec, execTriggerPeriod, armed_of_run ht hm hen htrig, if_neg (by simp)]
  extract_lets from' fall next
  have hfrom : from' = fromInstant s t := fromInstant_eq s t
  rw [hstep, hfrom]
  dsimp only [Option.getD_some]
  rw [if_pos hinst]
  rfl

theorem exec_triggerAngle_of_reached (htrig : getF s (SCN_TCFG.TRIG t) = 1) (hmark : angleMark t ∉ s.core.firedNow) {k : Nat}
    (hpos : reachedPosition s t = some k) :
    exec (.triggerAngle t) s = .next (acceptTrigger (addMark s (angleMark t)) t (trigNow s k false)) := by
  have hexec : exec (.triggerAngle t) s = execTriggerAngle t s := rfl
  rw [hexec, execTriggerAngle, armed_of_run ht hm hen htrig, if_neg (by simp [hmark]), hpos]

/-- The watched bit of a task's edge has risen or fallen, and the task waits for that. -/
theorem exec_triggerEdge_of_edge (htrig : getF s (SCN_TCFG.TRIG t) = 2) (hup : s.sp.upsets = []) {old : Bool}
    (hedge : (old = false ∧ rawBit s (getF s (SCN_EDGE.ADDR t)) = true ∧ bitOf (getF s (SCN_EDGE.POL t)) 0 = true) ∨
      (old = true ∧ rawBit s (getF s (SCN_EDGE.ADDR t)) = false ∧ bitOf (getF s (SCN_EDGE.POL t)) 1 = true)) :
    exec (.triggerEdge t old) s = .next (acceptTrigger (edgeRead s t) t (trigNow (edgeRead s t) 0 false)) := by
  have hexec : exec (.triggerEdge t old) s = execTriggerEdge t old s := rfl
  have hread : readBit s 1 (getF s (SCN_EDGE.ADDR t)) = (rawBit s (getF s (SCN_EDGE.ADDR t)), s) := by
    rw [readBit, checkRow_of_no_upsets hup]
    simp [eccAt, hup]
  have hpol : getF (edgeRead s t) (SCN_EDGE.POL t) = getF s (SCN_EDGE.POL t) :=
    (readied_edgeRead s t).regs _ (by simp [Fld.key, SCN_EDGE.POL, SBY_STAT.STREAM_LOST]; omega)
  rw [hexec, execTriggerEdge, armed_of_run ht hm hen htrig, if_neg (by simp)]
  dsimp only
  rw [hread]
  refine congrArg Host.Outcome.next (if_pos ?_)
  change (bitOf (getF (edgeRead s t) (SCN_EDGE.POL t)) 0 && _ && _ || bitOf (getF (edgeRead s t) (SCN_EDGE.POL t)) 1 && _ && _) = true
  rw [hpol]
  rcases hedge with ⟨rfl, hb, hp⟩ | ⟨rfl, hb, hp⟩ <;> simp [hb, hp]

end

end Sys2Proof.Machine
end

section
/-! SUPPORT. Triggers while a STOP is pending (R75, R226): each is dropped and counted, of a task whose SKIP is within its 16 bits. -/

namespace Sys2Proof.Machine

open Reg

/-! ## Triggers that fall (R226) -/

/-- n triggers of a task are dropped: SKIP counts them up to its maximum, and OVERRUN, the tasks and the mode's own state are as they
were, but for the note of the last instant. -/
def Dropped (t n : Nat) (s u : State) : Prop :=
  getF u (SCN_CNT.SKIP t) = min (getF s (SCN_CNT.SKIP t) + n) (2 ^ (SCN_CNT.SKIP t).w - 1) ∧
    getF u (SCN_TSTAT.OVERRUN t) = getF s (SCN_TSTAT.OVERRUN t) ∧ (∀ j, j ≠ t → task u j = task s j) ∧
    task u t = { task s t with lastInst := (task u t).lastInst } ∧ u.ms = s.ms

theorem acceptTrigger_of_stopPending {s : State} (h : s.ms.stopPending = true) (t : Nat) (i : TrigInfo) :
    acceptTrigger s t i = countSkip s t := if_pos h

theorem Readied.dropped {t n : Nat} {s u v : State} (h : Readied t s u) (h' : Skips t n u v)
    (hw : getF s (SCN_CNT.SKIP t) < 2 ^ (SCN_CNT.SKIP t).w) : Dropped t n s v := by
  have hlost : (SCN_CNT.SKIP t).key ≠ SBY_STAT.STREAM_LOST.key ∧ (SCN_TSTAT.OVERRUN t).key ≠ SBY_STAT.STREAM_LOST.key := by
    simp only [Fld.key, SCN_CNT.SKIP, SCN_TSTAT.OVERRUN, SBY_STAT.STREAM_LOST]
    omega
  have hskip : getF u (SCN_CNT.SKIP t) = getF s (SCN_CNT.SKIP t) := h.regs _ (by simpa using hlost.1)
  have htask (j : Nat) : task v j = task u j := by rw [task, h'.scan]; rfl
  refine ⟨?_, (h'.overrun t).trans (h.regs _ (by simpa using hlost.2)), fun j hj => (htask j).trans (h.others j hj), ?_,
    h'.ms.trans h.ms⟩
  · rw [h'.count (by omega), hskip]
  · rw [htask]
    exact h.own

theorem skips_periodFalls {s : State} (h : s.ms.stopPending = true) (t b : Nat) {n : Nat} (hn : 0 < n) (late : Bool) :
    Skips t n (noteInstant s t (instantBefore s t b)) (periodFalls s t b n late) := by
  have hskips := skips_skipTimes (noteInstant s t (instantBefore s t b)) t (n - 1)
  have hstop : (skipTimes (noteInstant s t (instantBefore s t b)) t (n - 1)).ms.stopPending = true := by
    rw [hskips.ms]
    exact h
  have hall := hskips.trans (skips_countSkip _ t)
  rwa [Nat.sub_add_cancel hn, ← acceptTrigger_of_stopPending hstop t (trigNow _ 0 late)] at hall

section
variable {s : State} {t : Nat} (hstop : s.ms.stopPending = true) (hw : getF s (SCN_CNT.SKIP t) < 2 ^ (SCN_CNT.SKIP t).w)
include hstop

/-- No trigger that is held is released (R226). -/
theorem exec_heldTriggerRelease_of_stopPending : exec (.heldTriggerRelease t) s = .next s := by
  have hexec : exec (.heldTriggerRelease t) s = execHeldTriggerRelease t s := rfl
  rw [hexec, execHeldTriggerRelease]
  cases (task s t).held with
  | none => rfl
  | some i => exact congrArg Host.Outcome.next (if_pos (by simp [hstop]))

include hw

/-- A trigger that the partner's stream replays in TRACK. -/
theorem completes_replayEvent_of_stopPending {c : Nat} {i : TrigInfo} {rest : List (Nat × StreamEv)} (hrep : replica s = true)
    (hev : s.sby.events = (c, .trig t i) :: rest) (hc : c ≤ s.sby.rcyc) : Completes .replayEvent s (Dropped t 1 s) := by
  have hexec : exec .replayEvent s = execReplayEvent s := rfl
  rw [execReplayEvent, hev] at hexec
  dsimp only at hexec
  rw [hrep, if_neg (by simp), if_pos ⟨hc, by simp [endsCycle]⟩] at hexec
  have hready : Readied t s { s with sby := { s.sby with events := rest } } :=
    ⟨fun _ _ => rfl, rfl, rfl, rfl, sameRegs_refl _ s⟩
  exact ⟨_, hexec.trans (congrArg Host.Outcome.next (if_pos hstop)), hready.dropped (skips_countSkip _ t) hw⟩

variable (ht : t < 8) (hm : s.mode = .run ∨ s.mode = .runEdit) (hen : isSet s (SCN_TCFG.EN t) = true)
include ht hm hen

theorem completes_triggerPeriod_of_stopPending (htrig : getF s (SCN_TCFG.TRIG t) = 0) (hstep : justStepped s = none)
    (hinst : 0 < instantsIn s t (fromInstant s t s.time.tai) (clockAdvance s).time.tai) :
    Completes (.triggerPeriod t) s (Dropped t 1 s) :=
  ⟨_, exec_triggerPeriod_of_reached ht hm hen htrig hstep hinst,
    (readied_noteInstant s t _).dropped (skips_periodFalls hstop t _ Nat.one_pos false) hw⟩

/-- Each of the instants in a forward step of the clock is dropped. -/
theorem completes_triggerPeriod_step_of_stopPending (htrig : getF s (SCN_TCFG.TRIG t) = 0) {a b : Nat}
    (hstep : justStepped s = some (a, b)) (hinst : 0 < instantsIn s t (fromInstant s t a) b) :
    Completes (.triggerPeriod t) s (Dropped t (instantsIn s t (fromInstant s t a) b) s) :=
  ⟨_, exec_triggerPeriod_of_step ht hm hen htrig hstep hinst,
    (readied_noteInstant s t _).dropped (skips_periodFalls hstop t b hinst true) hw⟩

theorem completes_triggerAngle_of_stopPending (htrig : getF s (SCN_TCFG.TRIG t) = 1) (hmark : angleMark t ∉ s.core.firedNow)
    (hpos : reachedPosition s t ≠ none) : Completes (.triggerAngle t) s (Dropped t 1 s) := by
  obtain ⟨k, hk⟩ := Option.ne_none_iff_exists'.mp hpos
  refine ⟨_, exec_triggerAngle_of_reached ht hm hen htrig hmark hk, ?_⟩
  rw [acceptTrigger_of_stopPending (s := addMark s (angleMark t)) hstop]
  exact (readied_addMark t _ s).dropped (skips_countSkip _ t) hw

theorem completes_triggerEdge_of_stopPending {old : Bool} (htrig : getF s (SCN_TCFG.TRIG t) = 2) (hup : s.sp.upsets = [])
    (hedge : (old = false ∧ rawBit s (getF s (SCN_EDGE.ADDR t)) = true ∧ bitOf (getF s (SCN_EDGE.POL t)) 0 = true) ∨
      (old = true ∧ rawBit s (getF s (SCN_EDGE.ADDR t)) = false ∧ bitOf (getF s (SCN_EDGE.POL t)) 1 = true)) :
    Completes (.triggerEdge t old) s (Dropped t 1 s) := by
  have hready := readied_edgeRead s t
  refine ⟨_, exec_triggerEdge_of_edge ht hm hen htrig hup hedge, ?_⟩
  rw [acceptTrigger_of_stopPending (by rw [hready.ms]; exact hstop)]
  exact hready.dropped (skips_countSkip _ t) hw

end

/-! ## Triggers held when STOP_PENDING sets (R226) -/

/-- What a request for STOP leaves of a task: no trigger is held, the state and OVERRUN are as they were, and one that was held is
counted as SKIP. -/
def Released (j : Nat) (s u : State) : Prop :=
  (task u j).held = none ∧ (task u j).st = (task s j).st ∧ getF u (SCN_TSTAT.OVERRUN j) = getF s (SCN_TSTAT.OVERRUN j) ∧
    ((task s j).held = none → getF u (SCN_CNT.SKIP j) = getF s (SCN_CNT.SKIP j)) ∧
    ((task s j).held ≠ none → getF s (SCN_CNT.SKIP j) < 2 ^ (SCN_CNT.SKIP j).w →
      getF u (SCN_CNT.SKIP j) = min (getF s (SCN_CNT.SKIP j) + 1) (2 ^ (SCN_CNT.SKIP j).w - 1))

/-- A task that an operation does not concern. -/
def Unconcerned (j : Nat) (s u : State) : Prop :=
  task u j = task s j ∧ getF u (SCN_TSTAT.OVERRUN j) = getF s (SCN_TSTAT.OVERRUN j) ∧
    getF u (SCN_CNT.SKIP j) = getF s (SCN_CNT.SKIP j)

theorem dropHeld_eq {s : State} {t : Nat} (h : (task s t).held ≠ none) :
    dropHeld s t = countSkip (updTask s t fun k => { k with held := none }) t :=
  if_pos (Option.isSome_iff_ne_none.mpr h)

theorem dropHeld_of_none {s : State} {t : Nat} (h : (task s t).held = none) : dropHeld s t = s := if_neg (by simp [h])

theorem released_dropHeld (s : State) (t : Nat) : Released t s (dropHeld s t) := by
  by_cases hheld : (task s t).held = none
  · rw [dropHeld_of_none hheld]
    exact ⟨hheld, rfl, rfl, fun _ => rfl, fun h => absurd hheld h⟩
  · rw [dropHeld_eq hheld]
    have hskips := skips_countSkip (updTask s t fun k => { k with held := none }) t
    have hlen : t < s.scan.tasks.length := lt_length_of_task_ne fun h => hheld (by rw [h]; rfl)
    have htask : task (countSkip (updTask s t fun k => { k with held := none }) t) t = { task s t with held := none } := by
      rw [task, hskips.scan]
      exact task_updTask_self hlen _
    exact ⟨by rw [htask], by rw [htask], hskips.overrun t, fun h => absurd h hheld, fun _ hw => hskips.count hw⟩

theorem unconcerned_dropHeld (s : State) {t j : Nat} (h : j ≠ t) : Unconcerned j s (dropHeld s t) := by
  by_cases hheld : (task s t).held = none
  · rw [dropHeld_of_none hheld]
    exact ⟨rfl, rfl, rfl⟩
  · rw [dropHeld_eq hheld]
    have hskips := skips_countSkip (updTask s t fun k => { k with held := none }) t
    refine ⟨?_, hskips.overrun j, hskips.others h⟩
    rw [task, hskips.scan]
    exact task_updTask_ne s h _

theorem Unconcerned.released {j : Nat} {s u v : State} (h : Unconcerned j s u) (h' : Released j u v) : Released j s v := by
  obtain ⟨htask, hover, hskip⟩ := h
  unfold Released at *
  rwa [htask, hover, hskip] at h'

theorem Released.unconcerned {j : Nat} {s u v : State} (h : Released j s u) (h' : Unconcerned j u v) : Released j s v := by
  obtain ⟨htask, hover, hskip⟩ := h'
  unfold Released at *
  rwa [htask, hover, hskip]

/-- In a pass over tasks, each is released in its own turn and unconcerned in the others. -/
theorem released_foldl {l : List Nat} (hl : l.Nodup) (s : State) :
    (∀ j ∈ l, Released j s (l.foldl dropHeld s)) ∧ ∀ j ∉ l, Unconcerned j s (l.foldl dropHeld s) := by
  induction l generalizing s with
  | nil => exact ⟨fun j hj => absurd hj List.not_mem_nil, fun j _ => ⟨rfl, rfl, rfl⟩⟩
  | cons t l ih =>
    obtain ⟨ht, hl⟩ := List.nodup_cons.mp hl
    obtain ⟨hin, hout⟩ := ih hl (dropHeld s t)
    refine ⟨fun j hj => ?_, fun j hj => ?_⟩
    · rcases List.mem_cons.mp hj with rfl | hj
      · exact (released_dropHeld s j).unconcerned (hout j ht)
      · exact (unconcerned_dropHeld s (ne_of_mem_of_not_mem hj ht)).released (hin j hj)
    · obtain ⟨hne, hj⟩ := List.ne_and_not_mem_of_not_mem_cons hj
      obtain ⟨htask, hover, hskip⟩ := unconcerned_dropHeld s hne
      obtain ⟨htask', hover', hskip'⟩ := hout j hj
      exact ⟨htask'.trans htask, hover'.trans hover, hskip'.trans hskip⟩

/-- A request for STOP in RUN or TRACK (R75). -/
theorem exec_modeReqStop_of_run {s : State} (hm : s.mode = .run ∨ s.mode = .track) (dbg : Bool) :
    exec (.modeReqStop dbg) s = .next (allTasks { s with ms := { s.ms with stopPending := true } } dropHeld) := by
  have hlive : absent s = false := by rcases hm with hm | hm <;> exact absent_of_mode hm rfl
  have hreq : modeReq s 5 = (0, allTasks { s with ms := { s.ms with stopPending := true } } dropHeld) := by
    rcases hm with hm | hm <;> simp [modeReq, hm]
  have hexec : exec (.modeReqStop dbg) s = execModeReqStop dbg s := rfl
  rw [hexec, execModeReqStop, modeReqHost_accepted hlive hreq dbg]

theorem completes_modeReqStop_released {s : State} (hm : s.mode = .run ∨ s.mode = .track) (dbg : Bool) :
    Completes (.modeReqStop dbg) s fun t => t.ms.stopPending = true ∧ ∀ j, j < 8 → Released j s t := by
  refine ⟨_, exec_modeReqStop_of_run hm dbg, ?_, fun j hj => ?_⟩
  · rw [(allTasks_dropHeld_frame _).2.1]
  · exact (released_foldl List.nodup_range { s with ms := { s.ms with stopPending := true } }).1 j (List.mem_range.mpr hj)

/-! ## A count of skipped triggers beyond its width -/

/-- The reset state in RUN, with a trigger of task 0 held and the store of registers holding 0x1_0000 for the 16 bits of its SKIP. -/
def heldBeyondWidth : State :=
  { State.reset with
    mode := .run
    regs := [((SCN_CNT.SKIP 0).key, 0x10000)]
    scan := { State.reset.scan with tasks := State.reset.scan.tasks.set 0 { TaskSt.init with held := some default } } }

end Sys2Proof.Machine

open Sys2Proof Sys2Proof.Machine Sys2Proof.Machine.Reg

/-- Refutes O33: the statement asks of every state that SKIP becomes the lesser of the next count and 0xFFFF, and a state whose register
store holds 0x1_0000 for SKIP keeps that number, as a saturated counter does (R8). The statement lacks the premise that SKIP is within
its 16 bits; with it each clause holds (`completes_triggerPeriod_of_stopPending` and its neighbours, `completes_modeReqStop_released`). -/
theorem not_stopPendingTriggers : ¬ Obligations.StopPendingTriggers := by
  rintro ⟨-, hstop⟩
  obtain ⟨t, hexec, -, htasks⟩ := hstop heldBeyondWidth false (.inl rfl) rfl
  obtain rfl := Host.Outcome.next.inj ((exec_modeReqStop_of_run (.inl rfl) false).symm.trans hexec)
  obtain ⟨-, -, -, -, hcount⟩ := htasks 0 (by decide)
  exact absurd (hcount (by decide)) (by decide)
end

section
/-! SUPPORT. Triggers that are accepted (R214, R217, R218, R225): an idle task pends, a run in progress skips, holds or halts by OVR, and a
held trigger is released when the run has ended. -/

namespace Sys2Proof.Machine

open Reg

/-! ## Acceptance (R225) -/

theorem trcScan_of_off {s : State} (h : isSet s TRC_CTRL.EN = false) (t evt : Nat) : trcScan s t evt = s := by
  unfold trcScan trcPacket
  rw [trcQueue_of_off h, ite_self]

/-- The state once OVERRUN of a task is set. -/
def overrun (s : State) (t : Nat) : State := setF s (SCN_TSTAT.OVERRUN t) 1

/-- The trigger is held under policy LATE, and counted. -/
def holdLate (s : State) (t : Nat) (i : TrigInfo) : State :=
  incSat (updTask s t fun k => { k with held := some { i with late := true } }) (SCN_CNT.LATE t) (SCN_TSTAT.LATE_OVF t)

theorem getF_overrun_ovr (s : State) (t : Nat) : getF (overrun s t) (SCN_TCFG.OVR t) = getF s (SCN_TCFG.OVR t) :=
  getF_setF_ne s 1 (by simp only [Fld.key, SCN_TSTAT.OVERRUN, SCN_TCFG.OVR]; omega)

theorem isSet_overrun_trace (s : State) (t : Nat) : isSet (overrun s t) TRC_CTRL.EN = isSet s TRC_CTRL.EN :=
  isSet_setF_ne s 1 (by simp only [Fld.key, SCN_TSTAT.OVERRUN, TRC_CTRL.EN]; omega)

theorem isSet_holdLate_trace (s : State) (t : Nat) (i : TrigInfo) : isSet (holdLate s t i) TRC_CTRL.EN = isSet s TRC_CTRL.EN := by
  refine (onlyRegs_incSat (updTask s t fun k => { k with held := some { i with late := true } }) _ _).1.isSet ?_
  simp only [Fld.key, SCN_CNT.LATE, SCN_TSTAT.LATE_OVF, TRC_CTRL.EN, List.map_cons, List.map_nil, List.mem_cons, List.not_mem_nil,
    or_false, not_or]
  omega

/-- The unit takes triggers as they fall: no STOP pends, nothing streams to a partner, and there is no trace. -/
structure TakesTriggers (s : State) : Prop where
  stop : s.ms.stopPending = false
  stream : s.sby.streaming = false
  trace : isSet s TRC_CTRL.EN = false

section
variable {s : State} {t : Nat} (h : TakesTriggers s) (i : TrigInfo)
include h

theorem acceptTrigger_of_idle (hst : (task s t).st = .idle) : acceptTrigger s t i = setPending s t i := by
  have htrc : isSet (setPending s t i) TRC_CTRL.EN = false := h.trace
  rw [acceptTrigger, if_neg (by simp [h.stop]), if_pos (by simp [inProgress, hst]),
    streamEv_of_not_streaming (s := setPending s t i) h.stream, trcScan_of_off htrc]

theorem acceptTrigger_of_skip (hst : (task s t).st ≠ .idle)
    (hovr : getF s (SCN_TCFG.OVR t) = 0 ∨ (getF s (SCN_TCFG.OVR t) = 1 ∧ (task s t).held ≠ none)) :
    acceptTrigger s t i = countSkip (overrun s t) t := by
  have htrc : trcScan (overrun s t) t 7 = overrun s t := trcScan_of_off ((isSet_overrun_trace s t).trans h.trace) t 7
  rw [acceptTrigger, if_neg (by simp [h.stop]), if_neg (by simp [inProgress, hst]), ← overrun, htrc]
  dsimp only
  rw [getF_overrun_ovr]
  rcases hovr with hovr | ⟨hovr, hheld⟩ <;> rw [hovr]
  · rfl
  · exact if_pos (Option.isSome_iff_ne_none.mpr hheld)

theorem acceptTrigger_of_hold (hst : (task s t).st ≠ .idle) (hovr : getF s (SCN_TCFG.OVR t) = 1) (hheld : (task s t).held = none) :
    acceptTrigger s t i = holdLate (overrun s t) t i := by
  have htrc : isSet (overrun s t) TRC_CTRL.EN = false := (isSet_overrun_trace s t).trans h.trace
  have hnone : ¬ (task (overrun s t) t).held.isSome = true := by
    rw [show (task (overrun s t) t).held = none from hheld]
    decide
  rw [acceptTrigger, if_neg (by simp [h.stop]), if_neg (by simp [inProgress, hst]), ← overrun, trcScan_of_off htrc]
  dsimp only
  rw [getF_overrun_ovr, hovr]
  refine (if_neg hnone).trans ?_
  rw [streamEv_of_not_streaming (by exact h.stream)]
  exact trcScan_of_off ((isSet_holdLate_trace (overrun s t) t i).trans htrc) t 6

theorem acceptTrigger_of_halt (hst : (task s t).st ≠ .idle) (hovr : getF s (SCN_TCFG.OVR t) = 2) :
    acceptTrigger s t i = halt (overrun s t) 1 := by
  have htrc : trcScan (overrun s t) t 7 = overrun s t := trcScan_of_off ((isSet_overrun_trace s t).trans h.trace) t 7
  rw [acceptTrigger, if_neg (by simp [h.stop]), if_neg (by simp [inProgress, hst]), ← overrun, htrc]
  dsimp only
  rw [getF_overrun_ovr, hovr]
  rfl

end

/-! ## What an accepted trigger changes -/

/-- From the one state to the other only one task and registers change, beside the marks of the cycle and the trace. -/
structure Concerns (t : Nat) (s u : State) : Prop where
  others : ∀ j, j ≠ t → task u j = task s j
  ctx : u.core.ctx = s.core.ctx
  stores : SameStores s u

theorem Concerns.trans {t : Nat} {s u v : State} (h : Concerns t s u) (h' : Concerns t u v) : Concerns t s v := by
  obtain ⟨hsp, hnor, hpins⟩ := h.stores
  obtain ⟨hsp', hnor', hpins'⟩ := h'.stores
  exact ⟨fun j hj => (h'.others j hj).trans (h.others j hj), h'.ctx.trans h.ctx,
    hsp'.trans hsp, hnor'.trans hnor, hpins'.trans hpins⟩

theorem concerns_of_scan {t : Nat} {s u : State} (hscan : u.scan = s.scan) (hcore : u.core = s.core) (hsp : u.sp = s.sp)
    (hnv : u.nv = s.nv) (hpins : u.pins = s.pins) : Concerns t s u :=
  ⟨fun j _ => by rw [task, hscan]; rfl, by rw [hcore], hsp, by rw [hnv], hpins⟩

theorem concerns_updTask (s : State) (t : Nat) (f : TaskSt → TaskSt) : Concerns t s (updTask s t f) :=
  ⟨fun _ hj => task_updTask_ne s hj f, rfl, rfl, rfl, rfl⟩

theorem concerns_overrun (s : State) (t : Nat) : Concerns t s (overrun s t) := concerns_of_scan rfl rfl rfl rfl rfl

theorem concerns_halt (s : State) (t code : Nat) : Concerns t s (halt s code) := by
  unfold halt
  split
  · exact concerns_of_scan (journalInt_scan s SYS_MODE.HALT_CAUSE.addr code) (journalInt_core s SYS_MODE.HALT_CAUSE.addr code)
      (journalInt_sp s SYS_MODE.HALT_CAUSE.addr code) (journalInt_nv s SYS_MODE.HALT_CAUSE.addr code)
      (journalInt_pins s SYS_MODE.HALT_CAUSE.addr code)
  · exact concerns_of_scan rfl rfl rfl rfl rfl

theorem concerns_incSat (s : State) (t : Nat) (f o : Fld) : Concerns t s (incSat s f o) :=
  concerns_of_scan (incSat_scan s f o) (incSat_core s f o) (incSat_sp s f o) (incSat_nv s f o) (incSat_pins s f o)

theorem Skips.concerns {t n : Nat} {s u : State} (h : Skips t n s u) : Concerns t s u := by
  obtain ⟨trc, hu⟩ := h.rest
  rw [hu]
  exact concerns_of_scan rfl rfl rfl rfl rfl

/-- OVERRUN has its own bit beside the fields that count what a policy does, and beside the journal's. -/
theorem overrun_keys (t : Nat) : (SCN_TSTAT.OVERRUN t).key ≠ (SCN_CNT.LATE t).key ∧
    (SCN_TSTAT.OVERRUN t).key ≠ (SCN_TSTAT.LATE_OVF t).key ∧ (SCN_TSTAT.LATE_OVF t).key ≠ (SCN_CNT.LATE t).key ∧
    (SCN_TSTAT.OVERRUN t).key ≠ ZCP_JSEQ.SEQ.key ∧ (SCN_TSTAT.OVERRUN t).key ≠ ZCP_JLOST.CNT.key := by
  simp only [Fld.key, SCN_TSTAT.OVERRUN, SCN_CNT.LATE, SCN_TSTAT.LATE_OVF, ZCP_JSEQ.SEQ, ZCP_JLOST.CNT]
  omega

/-- A trigger held as late: the task holds it, and LATE counts up to its maximum. -/
theorem holdLate_spec {s : State} {t : Nat} (hlen : t < s.scan.tasks.length) (i : TrigInfo) :
    task (holdLate s t i) t = { task s t with held := some { i with late := true } } ∧ Concerns t s (holdLate s t i) ∧
    SameRegs [SCN_CNT.LATE t, SCN_TSTAT.LATE_OVF t] s (holdLate s t i) ∧
    (getF s (SCN_CNT.LATE t) < 2 ^ (SCN_CNT.LATE t).w →
      getF (holdLate s t i) (SCN_CNT.LATE t) = min (getF s (SCN_CNT.LATE t) + 1) (2 ^ (SCN_CNT.LATE t).w - 1)) := by
  obtain ⟨-, -, hkey, -⟩ := overrun_keys t
  have htask := task_updTask_self hlen fun k => { k with held := some { i with late := true } }
  have hconcerns := concerns_updTask s t fun k => { k with held := some { i with late := true } }
  have hlate : getF (updTask s t fun k => { k with held := some { i with late := true } }) (SCN_CNT.LATE t) =
      getF s (SCN_CNT.LATE t) := rfl
  have hcount := getF_incSat_self (updTask s t fun k => { k with held := some { i with late := true } }) hkey
  rw [hlate] at hcount
  refine ⟨?_, hconcerns.trans (concerns_incSat _ t _ _), (onlyRegs_incSat _ _ _).1, fun hw => ?_⟩
  · rw [holdLate, task, incSat_scan]
    exact htask
  · rw [holdLate, hcount]
    split <;> omega

/-! ## Triggers that fall (R217, R218) -/

/-- A trigger falls as a command, with its position: a period instant, an angle of the set, an edge. -/
def Falls (s : State) (t : Nat) (c : Instr) (k : Nat) : Prop :=
  (c = .triggerPeriod t ∧ k = 0 ∧ getF s (SCN_TCFG.TRIG t) = 0 ∧ justStepped s = none ∧
    0 < instantsIn s t (fromInstant s t s.time.tai) (clockAdvance s).time.tai) ∨
  (c = .triggerAngle t ∧ getF s (SCN_TCFG.TRIG t) = 1 ∧ angleMark t ∉ s.core.firedNow ∧ reachedPosition s t = some k) ∨
  (∃ old, c = .triggerEdge t old ∧ k = 0 ∧ getF s (SCN_TCFG.TRIG t) = 2 ∧
    ((old = false ∧ rawBit s (getF s (SCN_EDGE.ADDR t)) = true ∧ bitOf (getF s (SCN_EDGE.POL t)) 0 = true) ∨
     (old = true ∧ rawBit s (getF s (SCN_EDGE.ADDR t)) = false ∧ bitOf (getF s (SCN_EDGE.POL t)) 1 = true)))

/-- What a trigger finds in a unit that takes triggers: only the note of the last instant and the marks of the cycle are new. -/
structure Finds (t : Nat) (s u : State) : Prop where
  ready : Readied t s u
  concerns : Concerns t s u
  form : u = { s with scan := u.scan, core := u.core }

theorem edgeRead_of_not_streaming {s : State} (h : s.sby.streaming = false) (t : Nat) : edgeRead s t = s := by
  unfold edgeRead obtainBit
  extract_lets a k
  rw [h]
  split
  · split
    · split <;> rfl
    · rfl
  · rfl

/-- A state in which an enabled task of the unit's own scheduler takes its triggers. -/
structure Scheduled (s : State) (t : Nat) : Prop where
  lt : t < 8
  mode : s.mode = .run ∨ s.mode = .runEdit
  tasks : s.scan.tasks.length = 8
  takes : TakesTriggers s
  halt : s.ms.haltPend = none
  enabled : isSet s (SCN_TCFG.EN t) = true
  upsets : s.sp.upsets = []

/-- What falls is offered to its task, with what is known of it. -/
theorem exec_of_falls {s : State} {t k : Nat} {c : Instr} (h : Scheduled s t) (hf : Falls s t c k) : ∃ u, Finds t s u ∧
    exec c s = .next (acceptTrigger u t (trigNow s k false)) := by
  rcases hf with ⟨rfl, rfl, htrig, hstep, hinst⟩ | ⟨rfl, htrig, hmark, hpos⟩ | ⟨old, rfl, rfl, htrig, hedge⟩
  · exact ⟨noteInstant s t _, ⟨readied_noteInstant s t _, concerns_updTask s t _, rfl⟩,
      exec_triggerPeriod_of_reached h.lt h.mode h.enabled htrig hstep hinst⟩
  · exact ⟨addMark s (angleMark t), ⟨readied_addMark t _ s, ⟨fun _ _ => rfl, rfl, rfl, rfl, rfl⟩, rfl⟩,
      exec_triggerAngle_of_reached h.lt h.mode h.enabled htrig hmark hpos⟩
  · refine ⟨s, ⟨readied_refl t s, concerns_of_scan rfl rfl rfl rfl rfl, rfl⟩, ?_⟩
    rw [exec_triggerEdge_of_edge h.lt h.mode h.enabled htrig h.upsets hedge, edgeRead_of_not_streaming h.takes.stream]

theorem Finds.st {t : Nat} {s u : State} (h : Finds t s u) : (task u t).st = (task s t).st := by rw [h.ready.own]

theorem Finds.held {t : Nat} {s u : State} (h : Finds t s u) : (task u t).held = (task s t).held := by rw [h.ready.own]

theorem Finds.regs {t : Nat} {s u : State} (h : Finds t s u) : u.regs = s.regs := by rw [h.form]

theorem Finds.takes {t : Nat} {s u : State} (h : Finds t s u) (hs : TakesTriggers s) : TakesTriggers u := by
  rw [h.form]
  exact ⟨hs.stop, hs.stream, hs.trace⟩

/-- The task becomes PENDING with a trigger. -/
def Pends (t : Nat) (i : TrigInfo) (s v : State) : Prop :=
  task v t = { task s t with st := .pending, trig := i, lastInst := (task v t).lastInst } ∧ Concerns t s v

/-- The task keeps its run, and OVERRUN sets; a trigger may be held. -/
def RunsOn (t : Nat) (s v : State) : Prop := getF v (SCN_TSTAT.OVERRUN t) = 1 ∧ Concerns t s v ∧
  ∃ h, task v t = { task s t with held := h, lastInst := (task v t).lastInst }

theorem pends_setPending {t : Nat} {s u : State} (hown : task u t = { task s t with lastInst := (task u t).lastInst })
    (hconcerns : Concerns t s u) (hlen : t < u.scan.tasks.length) (i : TrigInfo) : Pends t i s (setPending u t i) := by
  have htask : task (setPending u t i) t = { task u t with st := .pending, trig := i } := task_updTask_self hlen _
  refine ⟨?_, hconcerns.trans (concerns_updTask u t _)⟩
  rw [htask, hown]

/-- What follows the mark of an overrun keeps the run. -/
theorem Finds.runsOn {t : Nat} {s u v : State} (h : Finds t s u) (hv : Concerns t (overrun u t) v) {g : Option TrigInfo}
    (htask : task v t = { task u t with held := g }) (hover : getF v (SCN_TSTAT.OVERRUN t) = getF (overrun u t) (SCN_TSTAT.OVERRUN t)) :
    RunsOn t s v := by
  refine ⟨hover.trans (getF_setF_self ..), (h.concerns.trans (concerns_overrun u t)).trans hv, g, ?_⟩
  rw [htask, h.ready.own]

/-- The fields of an overrun and of what counts it. -/
theorem sameRegs_overrun (s : State) (t : Nat) : SameRegs [SCN_TSTAT.OVERRUN t] s (overrun s t) := (onlyRegs_setF s _ 1).1

section
variable {s : State} {t k : Nat} {c : Instr} (h : Scheduled s t)
include h

theorem Scheduled.lt_length : t < s.scan.tasks.length := by
  rw [h.tasks]
  exact h.lt

variable (hf : Falls s t c k)
include hf

/-- An idle task takes the trigger. -/
theorem completes_trigger_of_idle (hst : (task s t).st = .idle) :
    Completes c s fun v => Pends t (trigNow s k false) s v ∧ v.regs = s.regs := by
  obtain ⟨u, hu, hexec⟩ := exec_of_falls h hf
  rw [acceptTrigger_of_idle (hu.takes h.takes) _ (hu.st.trans hst)] at hexec
  exact ⟨_, hexec, pends_setPending hu.ready.own hu.concerns (hu.ready.length.symm ▸ h.lt_length) _, hu.regs⟩

variable (hst : (task s t).st ≠ .idle)
include hst

/-- Under policy SKIP, and under LATE with a trigger held already, the trigger is counted as SKIP. -/
theorem completes_trigger_of_skip
    (hovr : getF s (SCN_TCFG.OVR t) = 0 ∨ (getF s (SCN_TCFG.OVR t) = 1 ∧ (task s t).held ≠ none))
    (hw : getF s (SCN_CNT.SKIP t) < 2 ^ (SCN_CNT.SKIP t).w) : Completes c s fun v =>
      RunsOn t s v ∧ (task v t).held = (task s t).held ∧
      getF v (SCN_CNT.SKIP t) = min (getF s (SCN_CNT.SKIP t) + 1) (2 ^ (SCN_CNT.SKIP t).w - 1) ∧
      SameRegs [SCN_TSTAT.OVERRUN t, SCN_CNT.SKIP t, SCN_TSTAT.SKIP_OVF t] s v := by
  obtain ⟨u, hu, hexec⟩ := exec_of_falls h hf
  rw [acceptTrigger_of_skip (hu.takes h.takes) _ (by rw [hu.st]; exact hst) (by rw [getF_regs hu.regs, hu.held]; exact hovr)] at hexec
  have hskips := skips_countSkip (overrun u t) t
  have hskip : getF (overrun u t) (SCN_CNT.SKIP t) = getF s (SCN_CNT.SKIP t) :=
    (getF_setF_ne u 1 (skip_keys t t).2.1).trans (getF_regs hu.regs _)
  have htask : task (countSkip (overrun u t) t) t = task u t := by rw [task, hskips.scan]; rfl
  refine ⟨_, hexec, hu.runsOn hskips.concerns (g := (task u t).held) htask (hskips.overrun t), by rw [htask, hu.held], ?_, ?_⟩
  · rw [hskips.count (by omega), hskip]
  · exact (sameRegs_of_regs hu.regs []).append ((sameRegs_overrun u t).append hskips.regs)

/-- Under policy LATE, with none held, the trigger is held as late. -/
theorem completes_trigger_of_hold (hovr : getF s (SCN_TCFG.OVR t) = 1) (hheld : (task s t).held = none)
    (hw : getF s (SCN_CNT.LATE t) < 2 ^ (SCN_CNT.LATE t).w) : Completes c s fun v =>
      RunsOn t s v ∧ (task v t).held = some (trigNow s k true) ∧
      getF v (SCN_CNT.LATE t) = min (getF s (SCN_CNT.LATE t) + 1) (2 ^ (SCN_CNT.LATE t).w - 1) ∧
      SameRegs [SCN_TSTAT.OVERRUN t, SCN_CNT.LATE t, SCN_TSTAT.LATE_OVF t] s v := by
  obtain ⟨u, hu, hexec⟩ := exec_of_falls h hf
  rw [acceptTrigger_of_hold (hu.takes h.takes) _ (by rw [hu.st]; exact hst) (by rw [getF_regs hu.regs, hovr])
    (by rw [hu.held, hheld])] at hexec
  obtain ⟨htask, hconcerns, hregs, hcount⟩ := holdLate_spec (s := overrun u t) (hu.ready.length.symm ▸ h.lt_length) (trigNow s k false)
  obtain ⟨hcnt, hovf, -⟩ := overrun_keys t
  have hlate : getF (overrun u t) (SCN_CNT.LATE t) = getF s (SCN_CNT.LATE t) := (getF_setF_ne u 1 hcnt).trans (getF_regs hu.regs _)
  have hover : getF (holdLate (overrun u t) t (trigNow s k false)) (SCN_TSTAT.OVERRUN t) = getF (overrun u t) (SCN_TSTAT.OVERRUN t) :=
    hregs _ (by simpa using ⟨hcnt, hovf⟩)
  refine ⟨_, hexec, hu.runsOn hconcerns htask hover, by rw [htask]; rfl, ?_, ?_⟩
  · rw [hcount (by omega), hlate]
  · exact (sameRegs_of_regs hu.regs []).append ((sameRegs_overrun u t).append hregs)

/-- Under policy HALT, a halt cause arises. -/
theorem completes_trigger_of_halt (hovr : getF s (SCN_TCFG.OVR t) = 2) : Completes c s fun v =>
      RunsOn t s v ∧ (task v t).held = (task s t).held ∧ v.ms.haltPend = some 1 ∧ v.mode = s.mode := by
  obtain ⟨u, hu, hexec⟩ := exec_of_falls h hf
  rw [acceptTrigger_of_halt (hu.takes h.takes) _ (by rw [hu.st]; exact hst) (by rw [getF_regs hu.regs, hovr])] at hexec
  have hform : overrun u t = { s with regs := (overrun u t).regs, scan := u.scan, core := u.core } := by
    rw [overrun, hu.form]
    rfl
  have hrun : inMode (overrun u t) runModes = true := by
    rw [hform]
    rcases h.mode with hm | hm <;> simp [inMode, runModes, hm]
  have hms : (overrun u t).ms = s.ms := (congrArg State.ms hform :)
  have hmode : (overrun u t).mode = s.mode := (congrArg State.mode hform :)
  have hconcerns := concerns_halt (overrun u t) t 1
  have hhalt := halt_of_running hrun (by rw [hms, h.halt]) 1
  have hjournal : SameRegs [ZCP_JSEQ.SEQ, ZCP_JLOST.CNT] (overrun u t) (journalInt (overrun u t) SYS_MODE.HALT_CAUSE.addr 1) :=
    sameRegs_journalPut (overrun u t) 0 0 0 _ _ Peer.none
  have htask : task (halt (overrun u t) 1) t = { task u t with held := (task u t).held } := by
    rw [hhalt, task]
    simp only [journalInt_scan]
    rfl
  refine ⟨_, hexec, hu.runsOn hconcerns htask ?_, by rw [htask, hu.held], by rw [hhalt], ?_⟩
  · rw [hhalt]
    obtain ⟨-, -, -, hseq, hlost⟩ := overrun_keys t
    exact hjournal _ (by simpa using ⟨hseq, hlost⟩)
  · rw [hhalt, ← hmode]
    exact journalInt_mode (overrun u t) SYS_MODE.HALT_CAUSE.addr 1

end

section
variable {s : State} {t : Nat} (h : Scheduled s t)
include h

/-- Of the instants in a forward step of the clock one falls as late, and the others are counted as SKIP (R218). -/
theorem completes_triggerPeriod_step_of_idle (htrig : getF s (SCN_TCFG.TRIG t) = 0) {a b : Nat} (hstep : justStepped s = some (a, b))
    (hinst : 0 < instantsIn s t (fromInstant s t a) b) (hst : (task s t).st = .idle)
    (hw : getF s (SCN_CNT.SKIP t) < 2 ^ (SCN_CNT.SKIP t).w) : Completes (.triggerPeriod t) s fun v =>
      Pends t (trigNow s 0 true) s v ∧ getF v (SCN_CNT.SKIP t) =
        min (getF s (SCN_CNT.SKIP t) + (instantsIn s t (fromInstant s t a) b - 1)) (2 ^ (SCN_CNT.SKIP t).w - 1) := by
  have hexec := exec_triggerPeriod_of_step h.lt h.mode h.enabled htrig hstep hinst
  obtain ⟨n, hn⟩ : ∃ n, n = instantsIn s t (fromInstant s t a) b := ⟨_, rfl⟩
  rw [← hn] at hexec ⊢
  have hready := readied_noteInstant s t (instantBefore s t b)
  have hskips := skips_skipTimes (noteInstant s t (instantBefore s t b)) t (n - 1)
  rw [periodFalls] at hexec
  generalize skipTimes (noteInstant s t (instantBefore s t b)) t (n - 1) = u at hexec hskips
  obtain ⟨trc, hform⟩ := hskips.rest
  have hkeep : ∀ f ∈ [TRC_CTRL.EN, PLB_STAT.FREERUN], isSet u f = isSet s f := by
    intro f hf
    refine hskips.regs.isSet ?_
    rcases List.mem_pair.mp hf with rfl | rfl <;>
      simp only [Fld.key, SCN_CNT.SKIP, SCN_TSTAT.SKIP_OVF, TRC_CTRL.EN, PLB_STAT.FREERUN, List.map_cons, List.map_nil, List.mem_cons,
        List.not_mem_nil, or_false, not_or] <;> omega
  have hmod : u.ms = s.ms ∧ u.sby = s.sby ∧ u.plumb = s.plumb ∧ u.time = s.time := by
    rw [hform]
    exact ⟨rfl, rfl, rfl, rfl⟩
  obtain ⟨hms, hsby, hplumb, htime⟩ := hmod
  have htrig : trigNow u 0 true = trigNow s 0 true := by
    rw [trigNow, trigNow, plbAngle, plbAngle, hplumb, htime, hkeep _ (by simp)]
  have htask : task u t = task (noteInstant s t (instantBefore s t b)) t := by rw [task, hskips.scan]; rfl
  have hst' : (task u t).st = .idle := by rw [htask, hready.own, hst]
  have hlen : t < u.scan.tasks.length := by rw [hskips.scan, hready.length]; exact h.lt_length
  have htakes : TakesTriggers u := ⟨by rw [hms, h.takes.stop], by rw [hsby, h.takes.stream], by rw [hkeep _ (by simp), h.takes.trace]⟩
  rw [acceptTrigger_of_idle htakes _ hst', htrig] at hexec
  refine ⟨_, hexec, pends_setPending ?_ ((concerns_updTask s t _).trans hskips.concerns) hlen _, hskips.count hw⟩
  rw [htask]
  exact hready.own

/-- The run in progress has ended: the trigger it has held starts the next. -/
theorem completes_heldTriggerRelease_of_idle {i : TrigInfo} (hst : (task s t).st = .idle) (hheld : (task s t).held = some i) :
    Completes (.heldTriggerRelease t) s fun v =>
      task v t = { task s t with st := .pending, trig := i, held := none } ∧ Concerns t s v ∧ v.regs = s.regs := by
  have hexec : exec (.heldTriggerRelease t) s = execHeldTriggerRelease t s := rfl
  have hrun : inMode s runModes = true := by rcases h.mode with hm | hm <;> simp [inMode, runModes, hm]
  rw [execHeldTriggerRelease, hheld] at hexec
  dsimp only at hexec
  rw [if_neg (by simp [inProgress, hst, h.takes.stop, hrun])] at hexec
  refine ⟨_, hexec, ?_, (concerns_updTask s t _).trans (concerns_updTask _ t _), rfl⟩
  rw [task_updTask_self (by rw [setPending, updTask]; simpa [upd] using h.lt_length), setPending, task_updTask_self h.lt_length]

end

/-! ## A count of skipped triggers beyond its width -/

/-- RUN with a run of task 0 in progress under policy SKIP. Its edge, the output bit 0x1_0000, has risen, and the store of registers holds
0x1_0000 for the 16 bits of its SKIP. -/
def edgeBeyondWidth : State :=
  let s := setFs State.reset [(SCN_TCFG.EN 0, 1), (SCN_TCFG.TRIG 0, 2), (SCN_EDGE.ADDR 0, 0x10000), (SCN_EDGE.POL 0, 1)]
  { s with
    mode := .run
    regs := ((SCN_CNT.SKIP 0).key, 0x10000) :: s.regs
    sp := { s.sp with bits := [(0x10000, true)] }
    scan := { s.scan with tasks := s.scan.tasks.set 0 { TaskSt.init with st := .running } } }

theorem exec_triggerEdge_edgeBeyondWidth :
    exec (.triggerEdge 0 false) edgeBeyondWidth = .next (countSkip (overrun edgeBeyondWidth 0) 0) := by
  rw [exec_triggerEdge_of_edge (by decide) (.inl rfl) rfl rfl rfl (.inl ⟨rfl, rfl, rfl⟩), edgeRead_of_not_streaming rfl,
    acceptTrigger_of_skip ⟨rfl, rfl, rfl⟩ _ (by decide) (.inl rfl)]

end Sys2Proof.Machine

open Sys2Proof Sys2Proof.Machine Sys2Proof.Machine.Reg

/-- Refutes O34: as in O33, a state whose register store holds 0x1_0000 for the 16 bits of SKIP keeps that number when a trigger is
skipped (R8), where the statement asks for 0xFFFF. The statement lacks the premises that SKIP and LATE are within their widths; with them
each clause holds (`completes_trigger_of_idle` and its neighbours). -/
theorem not_taskTriggers : ¬ Obligations.TaskTriggers := by
  intro h
  obtain ⟨hfalls, -⟩ := h edgeBeyondWidth 0 (by decide) (.inl rfl) rfl rfl rfl rfl rfl rfl rfl
  obtain ⟨-, hruns⟩ := hfalls (.triggerEdge 0 false) 0 (.inr (.inr ⟨false, rfl, rfl, rfl, .inl ⟨rfl, rfl, rfl⟩⟩))
  obtain ⟨hskip, -⟩ := hruns (by decide)
  obtain ⟨v, hexec, -, -, hcount, -⟩ := hskip (.inl rfl)
  obtain rfl := Host.Outcome.next.inj (exec_triggerEdge_edgeBeyondWidth.symm.trans hexec)
  exact absurd hcount (by decide)
end

section
/-! SUPPORT. A run of the line library that outlasts its enable (R451, R465): the state that refutes the frame of a launch commit. -/

namespace Sys2Proof.Machine

open Reg

/-- RUN, with the capture of task 0 to be committed at the end of this cycle. The run froze with estimator E0 and the fault detector
enabled (PHM_CTRL.EN 0b101) and took those parameters; PHM_CTRL.EN, which is not of quiet class (R250), is 0 by now. Window 0 holds the
result block, and the row of the detector's first bit, at the reset value of PHM_FD_CFG.BADDR, has an uncorrectable error. -/
def disabledInRun : State :=
  let s := setFs State.reset [(SCN_WIN_BASE.EN 0 0, 1), (SCN_WIN_BASE.OUT 0 0, 1), (SCN_WIN_BASE.WORD 0 0, 1),
    (SCN_WIN_BASE.ADDR 0 0, 0x4000), (SCN_WIN_LEN.LEN 0 0, 10)]
  { s with
    mode := .run
    time := { s.time with running := true }
    sp := { s.sp with bits := [(0x40100, true)], upsets := [((.bits, 0x40100), .uncorrectable)] }
    scan := { s.scan with tasks := s.scan.tasks.set 0 { TaskSt.init with st := .launchWait, fin := .fromLaunch false } }
    phm := { s.phm with runs :=
      [{ fn := 0, task := 0, prm := [(PHM_CTRL.EN.key, 0b101)], due := some default, win := [] }] } }

theorem idleCycle_disabledInRun : IdleCycle (updTask disabledInRun 0 fun k => { k with st := .idle, fin := .no }) := by
  unfold IdleCycle
  decide +kernel

/-- The commit is a report of E0: the detector reads its bits, and the row that carries the error reads 0 from then on (R153). -/
theorem bits_coreCycle_disabledInRun :
    sget false (flushOut (runHeld (holdNext (coreCycle disabledInRun)))).sp.bits 0x40100 = false := by
  decide +kernel

/-- In a mode that runs, a cycle without a command leaves the bits as its end finds them: flipped bits show in the check bits only. -/
theorem bits_tick_of_run {s : State} (hstop : s.ms.refStopped = false) (hm : s.mode = .run) :
    (tick s).sp.bits = (flushOut (runHeld (holdNext (coreCycle s)))).sp.bits := by
  obtain ⟨upsets, back, hflips⟩ := softErrors_eq (flushOut (runHeld (holdNext (coreCycle s))))
  rw [tick, if_neg (by simp [hstop, hm]), if_neg (by simp [hm]), hflips]

end Sys2Proof.Machine

open Sys2Proof Sys2Proof.Machine Sys2Proof.Machine.Reg

/-- Refutes O35: PHM_CTRL.EN = 0 at the commit does not say that the run does no line measurement, for a run keeps the parameters it
took at its freeze (R451). In `disabledInRun` the commit is a report of E0 for the fault detector, whose read of a row with an
uncorrectable error leaves the row 0 (R153); the statement asks that the bits stay. -/
theorem not_freezeAndCommit : ¬ Obligations.FreezeAndCommit := by
  rintro ⟨-, -, hcommit⟩
  obtain ⟨t', hstep, -, -, -, -, -, -, hbits, -⟩ := hcommit disabledInRun 0 false (by decide) rfl rfl rfl rfl rfl
    idleCycle_disabledInRun rfl rfl (by decide +kernel) rfl
  obtain rfl : tick disabledInRun = t' := Host.Outcome.next.inj hstep
  have hlost := bits_coreCycle_disabledInRun
  rw [← bits_tick_of_run rfl rfl, hbits] at hlost
  exact absurd hlost (by decide)
end
